-- ==== Sys2Proof/Word.lean ====
section
/-!
DEFINITION. The words of the Thestra 48 and their plainest arithmetic.
Registers, addresses and encoded fields are bit vectors, a vector is its 128 lanes in one word, lane i in
bits [32i+31:32i] (spec/07 R141, spec/08 R156), and a granule is 512 bits (spec/03 R56).
-/
set_option linter.unusedVariables false

namespace Sys2Proof

/-- A byte of memory. -/
abbrev Byte := BitVec 8
/-- An s-register, an address, a tag, a micro-word. -/
abbrev Word := BitVec 64
/-- A lane of a vector, an FP32 encoding. -/
abbrev Lane := BitVec 32
/-- A 512-byte vector: 128 lanes of 32 bits, lane 0 lowest. -/
abbrev Vec := BitVec 4096
/-- A mask register, one bit a lane. -/
abbrev Mask := BitVec 128
/-- A granule of 64 bytes. -/
abbrev Granule := BitVec 512

/-- Lane `i` of a vector (spec/07 R141). -/
def Vec.lane (v : Vec) (i : Nat) : Lane := v.extractLsb' (32 * i) 32

/-- The vector whose lane `i` is `f i`. -/
def Vec.ofFn (f : Nat → Lane) : Vec :=
  BitVec.ofNat 4096 ((List.range 128).foldr (fun i acc => acc * 2 ^ 32 + (f i).toNat) 0)

/-- The vector with the same lane everywhere. -/
def Vec.splat (x : Lane) : Vec := Vec.ofFn (fun _ => x)

/-- Granule `j` of a vector: lanes 16j to 16j + 15. -/
def Vec.granule (v : Vec) (j : Nat) : Granule := v.extractLsb' (512 * j) 512

/-- The eight granules of a vector, lowest first, joined. -/
def Vec.ofGranules (gs : List Granule) : Vec :=
  BitVec.ofNat 4096 (gs.foldr (fun g acc => acc * 2 ^ 512 + g.toNat) 0)

/-- The bytes of a number, lowest first (little-endian, spec/00 Notation). -/
def bytesOfNat : Nat → Nat → List Byte
  | 0, _ => []
  | n + 1, x => BitVec.ofNat 8 x :: bytesOfNat n (x / 256)

/-- The number whose little-endian bytes are the list. -/
def natOfBytes : List Byte → Nat
  | [] => 0
  | b :: bs => b.toNat + 256 * natOfBytes bs

/-- Sign extension of a number of `w` bits to an integer. -/
def signedOf (w x : Nat) : Int :=
  if x % 2 ^ w < 2 ^ (w - 1) then (x % 2 ^ w : Nat) else ((x % 2 ^ w : Nat) : Int) - (2 : Int) ^ w

/-- Rotation of a 64-bit word left by one place (the fold of spec/10 R202). -/
def rotl1 (x : Word) : Word := x.rotateLeft 1

/-- Ceiling division. -/
def cdiv (a b : Nat) : Nat := (a + (b - 1)) / b

end Sys2Proof
end

