-- ==== Sys2Proof/Syntax.lean ====
section
/-!
DEFINITION. The instructions and events of the Thestra 48, one constructor for each row of spec/opcode_table.json.
Slot instructions carry their decoded operands.
The events of the device and the host take what their environment brings (the core they concern, the host's data, the
outcome of a physical test) from the input latch of the machine.
-/
set_option linter.unusedVariables false

namespace Sys2Proof

/-- An s-register or a named vector register, 0 to 31 (spec/02 R34). -/
abbrev Reg := Fin 32
/-- A predicate p0 to p7. -/
abbrev PredReg := Fin 8
/-- A mask register m0 to m7. -/
abbrev MaskReg := Fin 8
/-- A matrix parameter or working register. -/
abbrev ParamReg := Fin 8
/-- A stream port g0 to g11. -/
abbrev Port := Fin 12
/-- An accumulator tile acc0 to acc3. -/
abbrev TileNo := Fin 4
/-- A loop level. -/
abbrev LoopNo := Fin 4

/-- The eight slots of a bundle (spec/01 R24). -/
inductive Slot where
  | ctl | mem | va | vb | mx | ca | cb | sys
deriving DecidableEq, Repr

/-- Rounding modes (spec/03 R64, codes 0 to 4). -/
inductive Round where
  | rne | rtz | rup | rdn | rod
deriving DecidableEq, Repr

/-- Conditions of CMP and CMPI (spec/04 R84). -/
inductive Cond where
  | eq | ne | lt | ge | ltu | geu | tst
deriving DecidableEq, Repr

/-- Scopes (spec/06 R125). -/
inductive Scope where
  | core | die | package | system
deriving DecidableEq, Repr

/-- ORD and SCP of a mem-slot access: plain, or acquire or release at a scope (spec/05 R110). -/
inductive Order where
  | plain
  | sync (s : Scope)
deriving DecidableEq, Repr

/-- Sizes of a scalar access (spec/02 R34). -/
inductive Size where
  | b | h | w | d
deriving DecidableEq, Repr

/-- Scale modes of STPK (spec/05 R114). -/
inductive ScaleMode where
  | blk | vec | keep
deriving DecidableEq, Repr

/-- Lane types (spec/08 R156). -/
inductive VType where
  | i32 | f32 | bf16x2 | f16x2 | i16x2 | i8x4 | ui32
deriving DecidableEq, Repr

/-- The two vector units. -/
inductive VUnit where
  | va | vb
deriving DecidableEq, Repr

/-- The two copy queues. -/
inductive CopyQ where
  | ca | cb
deriving DecidableEq, Repr

/-- Vector sources (spec/02 R38); `e` is the E bit, which only a named register may carry. -/
inductive VSrc where
  | q (i : Fin 16)
  | v (r : Fin 32) (e : Bool)
  | g (p : Port)
  | fl | z | li | k
deriving DecidableEq, Repr

/-- Vector destinations (spec/02 R38). -/
inductive VDst where
  | queue
  | v (r : Fin 32)
  | g (p : Port)
deriving DecidableEq, Repr

/-- Conditions of VCMP (spec/08 R165); `tst` is `un` for f32. -/
inductive VCond where
  | eq | ne | lt | le | gt | ge | tst
deriving DecidableEq, Repr

/-- System registers by index (spec/04 R97). -/
inductive SysReg where
  | stw | tcause | tval | tpc | utvec | frame | melt | lease | segst | cover | taskid | vdid | errcnt
deriving DecidableEq, Repr

/-- Scale modes of a drain (spec/09 R194). -/
inductive DrainMode where
  | blk | row | tag
deriving DecidableEq, Repr

/-- Conditions of MWAIT (spec/09 R199). -/
inductive MWaitCond where
  | free | drains | seals
deriving DecidableEq, Repr

/-- Operators of ACC (spec/11 R228). -/
inductive AccOp where
  | addI32 | addI64 | addF32 | minI32 | maxI32 | minF32 | maxF32 | and | or | xor
deriving DecidableEq, Repr

/-- Direction of a ring (spec/11 R232). -/
inductive RingDir where
  | inp | out
deriving DecidableEq, Repr

/-- Kinds of collective (spec/11 R240). -/
inductive CollKind where
  | ar | rs | ag
deriving DecidableEq, Repr

/-- Operators of a collective (spec/11 R240). -/
inductive CollOp where
  | addF32 | addI32 | addI64 | maxF32 | minF32
deriving DecidableEq, Repr

/-- Items of TINFO (spec/12 R266). -/
inductive TItem where
  | spidx | tcb | parent | restarts | nspawn | npend | prio | stream
deriving DecidableEq, Repr

/-- Configuration words of a port (spec/07 R148). -/
inductive PortWord where
  | base
  | lvl (l : LoopNo)
deriving DecidableEq, Repr

/-- What SEGS does with the segments it gates (spec/07 R154). -/
inductive SegRest where
  | retain | off
deriving DecidableEq, Repr

/-- Sizes of CAS, FAA and XCHG (spec/11 R227). -/
inductive AtomSize where
  | w | d
deriving DecidableEq, Repr

/-- Sources of m.addp (spec/09 R190). -/
inductive AddSrc where
  | wp | imm | adva | advb | kg
deriving DecidableEq, Repr

/-- Sources of m.setp (spec/09 R190). -/
inductive SetSrc where
  | wp | imm
deriving DecidableEq, Repr

/-- Conditions of m.jcmp (spec/09 R190). -/
inductive MicroCond where
  | lt | ge | eq | ne
deriving DecidableEq, Repr

/-- The field of a working register that m.jcmp reads (spec/09 R190). -/
inductive MicroField where
  | whole
  | part (h : Fin 4)
deriving DecidableEq, Repr

/-- The outcome of the Keystone's known-answer test (spec/10 R209, R216): patterns failed by each path and the first
pattern each failed. -/
structure KeystoneTest where
  nfp : Nat
  nfq : Nat
  firstP : Nat
  firstQ : Nat
deriving DecidableEq, Repr

/-- Control registers without a behaviour of their own (spec/16 R328). -/
inductive HostReg where
  | apbase | vbase
deriving DecidableEq, Repr

/-- One entry of a page-table update: the table address and the new entry (spec/05 R100, R105). -/
structure PteWrite where
  addr : Nat
  pte : Word
deriving DecidableEq, Repr

/-- A live mask (spec/02 R52). -/
structure LiveMask where
  s : BitVec 32
  p : BitVec 8
  m : BitVec 8
  g : BitVec 12
  v : BitVec 32
  k : Bool
  acc : BitVec 4
  q : Bool
  seg : BitVec 16
deriving DecidableEq, Repr

/-- A scratchpad plan entry: offset, size and kind (spec/02 R51). -/
structure PlanEntry where
  off : Nat
  size : Nat
  kind : Nat
deriving DecidableEq, Repr

/-- A routine preload entry with its micro-words (spec/02 R51, spec/09 R180). -/
structure Preload where
  routine : Nat
  first : Nat
  words : List Word
deriving DecidableEq, Repr

/-- What hardware reads of a program header and its side tables (spec/02 R51, R52): `safe` holds the 8-byte safe-point entries and
`live` the 16-byte live masks, each as the little-endian number of its bytes. -/
structure Program where
  coverage : Nat
  segOn : Nat
  segRest : SegRest
  loadva : Nat
  plan : List PlanEntry
  safe : List (BitVec 64)
  live : List (BitVec 128)
  preload : List Preload
deriving DecidableEq, Repr

/-- One slot of a peer table: the peer package, and the size of its export window (spec/11 R239). -/
structure PeerSlot where
  slot : Nat
  peer : Nat
  size : Nat
deriving DecidableEq, Repr

/-- The parameters of CTXCREATE (spec/16 R330): the number given to the context, its compute dies, its areas in device
memory as (address, size), its peer table, the export window it opens to peers, and the program it loads. -/
structure CtxParams where
  ctx : Nat
  owner : Nat
  dies : List Nat
  save : Nat × Nat
  viewPool : Nat × Nat
  faultPool : Nat × Nat
  peers : List PeerSlot
  exportWin : Nat × Nat
  prog : Program
deriving DecidableEq, Repr

/-- The parameters of STREAMCREATE (spec/16 R330, R331). -/
structure StreamParams where
  st : Nat
  ctx : Nat
  tcbArea : Nat
  ring : Nat
  ringN : Nat
  vector : Nat
deriving DecidableEq, Repr

/-- The settings of CTXPARAM (spec/16 R330). -/
inductive CtxField where
  | timeout | age | hang | collDefault
deriving DecidableEq, Repr

/-- The parameters of CAPTURE: regions as (VA, bytes) and the capture area as (physical address, bytes)
(spec/16 R334). -/
structure CaptureParams where
  st : Nat
  regions : List (Nat × Nat)
  area : Nat × Nat
deriving DecidableEq, Repr

/-- A request from another package (spec/11 R239): the context whose export window it names, the offset, whole
granules with their tags, and the operator when it is an ACC. -/
structure PeerReq where
  ctx : Nat
  off : Nat
  data : List (BitVec 512 × BitVec 64)
  acc : Option AccOp
deriving DecidableEq, Repr

/-- What the environment brings to an event: which core, queue entry, die, context, stream or cluster it concerns, the
host's data, and the outcome of a physical test or measurement.
Each event's meaning says which fields it reads (log 3). -/
structure Input where
  core : Nat := 0
  idx : Nat := 0
  queue : CopyQ := .ca
  first : Nat := 0
  count : Nat := 0
  flag : Bool := false
  flag2 : Bool := false
  ctx : Nat := 0
  die : Nat := 0
  va : Word := 0
  tile : TileNo := 0
  cluster : Fin 32 := 0
  port : Port := 0
  sb : Fin 64 := 0
  stream : Nat := 0
  fn : Nat := 0
  seq : Nat := 0
  off : Nat := 0
  len : Nat := 0
  value : Word := 0
  mask : BitVec 32 := 0
  bytes : List Byte := []
  pairs : List (Nat × Nat) := []
  test : KeystoneTest := ⟨0, 0, 0, 0⟩
  reg : HostReg := .apbase
  field : CtxField := .timeout
  ptes : List PteWrite := []
  peer : PeerReq := ⟨0, 0, [], none⟩
  others : List (List (BitVec 512 × BitVec 64)) := []
  ctxp : CtxParams := ⟨0, 0, [], (0, 0), (0, 0), (0, 0), [], (0, 0), ⟨0, 16, .retain, 0, [], [], [], []⟩⟩
  strm : StreamParams := ⟨0, 0, 0, 0, 16, 0⟩
  cap : CaptureParams := ⟨0, [], (0, 0)⟩
deriving DecidableEq, Repr

/-- The instructions and events, one constructor for each row of spec/opcode_table.json: the slot instructions and
micro-operations in its order, then the events in its order.
What an event's environment brings stands in the machine's input latch (State.input, log 3). -/
inductive Instr where
  /-- NOP_CTL (R36): The ctl slot no-op. -/
  | nopCtl
  /-- ADD (R80): Adds two s-registers modulo 2^n. -/
  | add (d : Reg) (a : Reg) (b : Reg) (w : Bool)
  /-- SUB (R80): Subtracts two s-registers modulo 2^n. -/
  | sub (d : Reg) (a : Reg) (b : Reg) (w : Bool)
  /-- AND (R80): Bitwise and of two s-registers. -/
  | and (d : Reg) (a : Reg) (b : Reg) (w : Bool)
  /-- OR (R80): Bitwise or of two s-registers. -/
  | or (d : Reg) (a : Reg) (b : Reg) (w : Bool)
  /-- XOR (R80): Bitwise xor of two s-registers. -/
  | xor (d : Reg) (a : Reg) (b : Reg) (w : Bool)
  /-- ANDN (R80): a and not b. -/
  | andn (d : Reg) (a : Reg) (b : Reg) (w : Bool)
  /-- SLL (R80): Logical left shift by a register amount. -/
  | sll (d : Reg) (a : Reg) (b : Reg) (w : Bool)
  /-- SRL (R80): Logical right shift by a register amount. -/
  | srl (d : Reg) (a : Reg) (b : Reg) (w : Bool)
  /-- SRA (R80): Arithmetic right shift by a register amount. -/
  | sra (d : Reg) (a : Reg) (b : Reg) (w : Bool)
  /-- ROL (R80): Rotate left by a register amount. -/
  | rol (d : Reg) (a : Reg) (b : Reg) (w : Bool)
  /-- MIN (R80): Signed minimum. -/
  | min (d : Reg) (a : Reg) (b : Reg) (w : Bool)
  /-- MAX (R80): Signed maximum. -/
  | max (d : Reg) (a : Reg) (b : Reg) (w : Bool)
  /-- MINU (R80): Unsigned minimum. -/
  | minu (d : Reg) (a : Reg) (b : Reg) (w : Bool)
  /-- MAXU (R80): Unsigned maximum. -/
  | maxu (d : Reg) (a : Reg) (b : Reg) (w : Bool)
  /-- MUL (R80): Low n bits of the product. -/
  | mul (d : Reg) (a : Reg) (b : Reg) (w : Bool)
  /-- MULH (R80): High n bits of the signed product. -/
  | mulh (d : Reg) (a : Reg) (b : Reg) (w : Bool)
  /-- MULHU (R80): High n bits of the unsigned product. -/
  | mulhu (d : Reg) (a : Reg) (b : Reg) (w : Bool)
  /-- DIV (R72): Signed quotient truncated toward zero, with defined results for zero and overflow. -/
  | div (d : Reg) (a : Reg) (b : Reg) (w : Bool)
  /-- DIVU (R72): Unsigned quotient. -/
  | divu (d : Reg) (a : Reg) (b : Reg) (w : Bool)
  /-- REM (R72): Signed remainder. -/
  | rem (d : Reg) (a : Reg) (b : Reg) (w : Bool)
  /-- REMU (R72): Unsigned remainder. -/
  | remu (d : Reg) (a : Reg) (b : Reg) (w : Bool)
  /-- CLZ (R80): Counts leading zero bits. -/
  | clz (d : Reg) (a : Reg) (w : Bool)
  /-- CTZ (R80): Counts trailing zero bits. -/
  | ctz (d : Reg) (a : Reg) (w : Bool)
  /-- POPC (R80): Counts 1 bits. -/
  | popc (d : Reg) (a : Reg) (w : Bool)
  /-- ADDI (R82): Adds a sign-extended 16-bit immediate. -/
  | addi (d : Reg) (a : Reg) (i : BitVec 16)
  /-- ANDI (R82): Ands with a sign-extended immediate. -/
  | andi (d : Reg) (a : Reg) (i : BitVec 16)
  /-- ORI (R82): Ors with a zero-extended immediate. -/
  | ori (d : Reg) (a : Reg) (i : BitVec 16)
  /-- XORI (R82): Xors with a zero-extended immediate. -/
  | xori (d : Reg) (a : Reg) (i : BitVec 16)
  /-- SLLI (R83): Logical left shift by an immediate. -/
  | slli (d : Reg) (a : Reg) (w : Bool) (n : BitVec 6)
  /-- SRLI (R83): Logical right shift by an immediate. -/
  | srli (d : Reg) (a : Reg) (w : Bool) (n : BitVec 6)
  /-- SRAI (R83): Arithmetic right shift by an immediate. -/
  | srai (d : Reg) (a : Reg) (w : Bool) (n : BitVec 6)
  /-- ROLI (R83): Rotate left by an immediate. -/
  | roli (d : Reg) (a : Reg) (w : Bool) (n : BitVec 6)
  /-- MOVHI (R82): Shifts a register left 16 and ors in an immediate. -/
  | movhi (d : Reg) (a : Reg) (i : BitVec 16)
  /-- ADDPC (R82): Forms a bundle-relative address. -/
  | addpc (d : Reg) (i : BitVec 16)
  /-- CMP (R84): Compares two registers and writes a predicate. -/
  | cmp (p : PredReg) (a : Reg) (b : Reg) (w : Bool) (c : Cond)
  /-- CMPI (R84): Compares a register with an immediate and writes a predicate. -/
  | cmpi (p : PredReg) (c : Cond) (a : Reg) (i : BitVec 15)
  /-- PAND (R85): Ands two optionally negated predicates. -/
  | pand (d : PredReg) (a : PredReg) (x : Bool) (b : PredReg) (y : Bool)
  /-- POR (R85): Ors two optionally negated predicates. -/
  | por (d : PredReg) (a : PredReg) (x : Bool) (b : PredReg) (y : Bool)
  /-- PXOR (R85): Xors two optionally negated predicates. -/
  | pxor (d : PredReg) (a : PredReg) (x : Bool) (b : PredReg) (y : Bool)
  /-- SEL (R86): Chooses one of two registers by a predicate. -/
  | sel (d : Reg) (a : Reg) (b : Reg) (n : Bool) (p : PredReg)
  /-- BR (R87): Branches on a predicate with 2 delay bundles. -/
  | br (p : PredReg) (n : Bool) (o : BitVec 16)
  /-- BZ (R87): Branches when a register is zero. -/
  | bz (a : Reg) (o : BitVec 16)
  /-- BNZ (R87): Branches when a register is nonzero. -/
  | bnz (a : Reg) (o : BitVec 16)
  /-- JMP (R87): Unconditional relative jump. -/
  | jmp (o : BitVec 26)
  /-- CALL (R87): Relative call writing the link to s31. -/
  | call (o : BitVec 26)
  /-- JR (R87): Jumps to a register target, optionally writing a link. -/
  | jr (d : Reg) (a : Reg)
  /-- LOOP (R89): Activates a hardware loop level or skips the body when the count is 0. -/
  | loop (l : LoopNo) (a : Reg) (o : BitVec 16)
  /-- FADD (R92): FP32 add with static rounding. -/
  | fadd (d : Reg) (a : Reg) (b : Reg) (r : Round)
  /-- FSUB (R92): FP32 subtract. -/
  | fsub (d : Reg) (a : Reg) (b : Reg) (r : Round)
  /-- FMUL (R92): FP32 multiply. -/
  | fmul (d : Reg) (a : Reg) (b : Reg) (r : Round)
  /-- FDIV (R92): FP32 divide. -/
  | fdiv (d : Reg) (a : Reg) (b : Reg) (r : Round)
  /-- FSQRT (R92): FP32 square root. -/
  | fsqrt (d : Reg) (a : Reg) (r : Round)
  /-- FMIN (R92): FP32 minimum. -/
  | fmin (d : Reg) (a : Reg) (b : Reg)
  /-- FMAX (R92): FP32 maximum. -/
  | fmax (d : Reg) (a : Reg) (b : Reg)
  /-- FFMA (R93): Fused a×b+d with one rounding. -/
  | ffma (d : Reg) (a : Reg) (b : Reg) (r : Round)
  /-- FFMS (R93): Fused a×b−d. -/
  | ffms (d : Reg) (a : Reg) (b : Reg) (r : Round)
  /-- FFNMA (R93): Fused −(a×b)+d. -/
  | ffnma (d : Reg) (a : Reg) (b : Reg) (r : Round)
  /-- FFNMS (R93): Fused −(a×b)−d. -/
  | ffnms (d : Reg) (a : Reg) (b : Reg) (r : Round)
  /-- FCVT_I64_F32 (R94): FP32 to signed 64-bit. -/
  | fcvtI64F32 (d : Reg) (a : Reg) (r : Round)
  /-- FCVT_UI64_F32 (R94): FP32 to unsigned 64-bit. -/
  | fcvtUi64F32 (d : Reg) (a : Reg) (r : Round)
  /-- FCVT_I32_F32 (R94): FP32 to signed 32-bit. -/
  | fcvtI32F32 (d : Reg) (a : Reg) (r : Round)
  /-- FCVT_UI32_F32 (R94): FP32 to unsigned 32-bit. -/
  | fcvtUi32F32 (d : Reg) (a : Reg) (r : Round)
  /-- FCVT_F32_I64 (R94): Signed 64-bit to FP32. -/
  | fcvtF32I64 (d : Reg) (a : Reg) (r : Round)
  /-- FCVT_F32_UI64 (R94): Unsigned 64-bit to FP32. -/
  | fcvtF32Ui64 (d : Reg) (a : Reg) (r : Round)
  /-- FCVT_F32_I32 (R94): Signed 32-bit to FP32. -/
  | fcvtF32I32 (d : Reg) (a : Reg) (r : Round)
  /-- FCVT_F32_UI32 (R94): Unsigned 32-bit to FP32. -/
  | fcvtF32Ui32 (d : Reg) (a : Reg) (r : Round)
  /-- FCVT_B16_F32 (R94): FP32 to bfloat16. -/
  | fcvtB16F32 (d : Reg) (a : Reg) (r : Round)
  /-- FCVT_F32_B16 (R94): bfloat16 to FP32. -/
  | fcvtF32B16 (d : Reg) (a : Reg) (r : Round)
  /-- FCVT_F16_F32 (R94): FP32 to binary16. -/
  | fcvtF16F32 (d : Reg) (a : Reg) (r : Round)
  /-- FCVT_F32_F16 (R94): binary16 to FP32. -/
  | fcvtF32F16 (d : Reg) (a : Reg) (r : Round)
  /-- FCVT_F8A_F32 (R94): FP32 to E4M3. -/
  | fcvtF8aF32 (d : Reg) (a : Reg) (r : Round)
  /-- FCVT_F8B_F32 (R94): FP32 to E5M2. -/
  | fcvtF8bF32 (d : Reg) (a : Reg) (r : Round)
  /-- FCVT_F32_F8A (R94): E4M3 to FP32. -/
  | fcvtF32F8a (d : Reg) (a : Reg) (r : Round)
  /-- FCVT_F32_F8B (R94): E5M2 to FP32. -/
  | fcvtF32F8b (d : Reg) (a : Reg) (r : Round)
  /-- FRINT (R94): Rounds FP32 to an integral FP32 value. -/
  | frint (d : Reg) (a : Reg) (r : Round)
  /-- FEQ (R95): FP32 equality to a predicate. -/
  | feq (p : PredReg) (a : Reg) (b : Reg)
  /-- FLT (R95): FP32 less-than to a predicate. -/
  | flt (p : PredReg) (a : Reg) (b : Reg)
  /-- FLE (R95): FP32 less-or-equal to a predicate. -/
  | fle (p : PredReg) (a : Reg) (b : Reg)
  /-- FUN (R95): FP32 unordered test to a predicate. -/
  | fUn (p : PredReg) (a : Reg) (b : Reg)
  /-- RDSR (R97): Reads a system register. -/
  | rdsr (d : Reg) (i : SysReg)
  /-- WRSR (R97): Writes a system register, with its own checks for STW and UTVEC. -/
  | wrsr (a : Reg) (i : SysReg)
  /-- GCFG (R148): Writes one configuration word of an inactive stream port. -/
  | gcfg (a : Reg) (t : PortWord) (g : Port)
  /-- GSTART (R149): Activates a port and starts read prefetch. -/
  | gstart (g : Port)
  /-- GSTOP (R149): Deactivates a port and discards prefetched vectors. -/
  | gstop (g : Port)
  /-- GSTAT (R149): Returns a port's status word. -/
  | gstat (d : Reg) (g : Port)
  /-- GSEEK (R149): Sets a port's position and clears EXH. -/
  | gseek (a : Reg) (g : Port)
  /-- VSETK (R151): Sets the broadcast register k. -/
  | vsetk (a : Reg)
  /-- VSETK_H (R151): Sets both halves of k from a 16-bit value. -/
  | vsetkH (a : Reg)
  /-- NOP_MEM (R36): The mem slot no-op. -/
  | nopMem
  /-- LD (R111): Zero-extending scalar load. -/
  | ld (d : Reg) (a : Reg) (o : BitVec 10) (r : Order) (z : Size)
  /-- LDS (R111): Sign-extending scalar load. -/
  | lds (d : Reg) (a : Reg) (o : BitVec 10) (r : Order) (z : Size)
  /-- ST (R111): Scalar store through the pier, tag unchanged. -/
  | st (d : Reg) (a : Reg) (o : BitVec 10) (r : Order) (z : Size)
  /-- LDV (R112): Loads 512 bytes into a named vector register. -/
  | ldv (d : Reg) (a : Reg) (o : BitVec 10) (r : Order)
  /-- STV (R112): Stores a named vector register, tags unchanged. -/
  | stv (d : Reg) (a : Reg) (o : BitVec 10) (r : Order)
  /-- LDX (R113): Loads 128 tagged elements expanded to f32 and advances the address register. -/
  | ldx (d : Reg) (a : Reg) (o : BitVec 10) (r : Order)
  /-- STPK (R114): Quantises 128 lanes into tagged scratchpad granules. -/
  | stpk (d : Reg) (a : Reg) (o : BitVec 10) (r : Order) (m : ScaleMode)
  /-- LDT (R115): Reads a granule's tag. -/
  | ldt (d : Reg) (a : Reg) (o : BitVec 10) (r : Order)
  /-- STT (R115): Writes a scratchpad granule's tag. -/
  | stt (d : Reg) (a : Reg) (o : BitVec 10) (r : Order)
  /-- LDG (R116): Gathers 128 words from the scratchpad by lane indices. -/
  | ldg (d : Reg) (a : Reg) (b : Reg) (x : Bool)
  /-- FENCE (R117): Full acquire and release fence at a scope. -/
  | fence (s : Scope)
  /-- FENCE_REL (R117): Release fence at a scope. -/
  | fenceRel (s : Scope)
  /-- FENCE_ACQ (R117): Acquire fence, invalidating RC lines at package or system scope. -/
  | fenceAcq (s : Scope)
  /-- FENCE_MEM (R117): Orders earlier off-core mem-queue accesses before later ones. -/
  | fenceMem
  /-- FENCE_UO (R117): Invalidates UO lines then acts as fence.mem. -/
  | fenceUo
  /-- PREF_RC (R118): Prefetches a granule into the die read cache and slice. -/
  | prefRc (a : Reg) (o : BitVec 10)
  /-- PREF_MD (R118): Prefetches a granule into the memory-side slice. -/
  | prefMd (a : Reg) (o : BitVec 10)
  /-- NOP_VEC (R36): The va or vb slot no-op. -/
  | nopVec (un : VUnit)
  /-- VADD (R162): Elementwise add. -/
  | vadd (un : VUnit) (d : VDst) (a : VSrc) (b : VSrc) (t : VType) (m : MaskReg)
  /-- VSUB (R162): Elementwise subtract. -/
  | vsub (un : VUnit) (d : VDst) (a : VSrc) (b : VSrc) (t : VType) (m : MaskReg)
  /-- VMUL (R162): Elementwise multiply. -/
  | vmul (un : VUnit) (d : VDst) (a : VSrc) (b : VSrc) (t : VType) (m : MaskReg)
  /-- VMULH (R162): Elementwise high product of integers. -/
  | vmulh (un : VUnit) (d : VDst) (a : VSrc) (b : VSrc) (t : VType) (m : MaskReg)
  /-- VFMA (R164): Fused multiply-add to the queue only. -/
  | vfma (un : VUnit) (c : VSrc) (a : VSrc) (b : VSrc) (t : VType) (m : MaskReg)
  /-- VMIN (R162): Elementwise minimum. -/
  | vmin (un : VUnit) (d : VDst) (a : VSrc) (b : VSrc) (t : VType) (m : MaskReg)
  /-- VMAX (R162): Elementwise maximum. -/
  | vmax (un : VUnit) (d : VDst) (a : VSrc) (b : VSrc) (t : VType) (m : MaskReg)
  /-- VABS (R162): Elementwise absolute value. -/
  | vabs (un : VUnit) (d : VDst) (a : VSrc) (t : VType) (m : MaskReg)
  /-- VNEG (R162): Elementwise negation. -/
  | vneg (un : VUnit) (d : VDst) (a : VSrc) (t : VType) (m : MaskReg)
  /-- VAND (R162): Bitwise and of lanes. -/
  | vand (un : VUnit) (d : VDst) (a : VSrc) (b : VSrc) (m : MaskReg)
  /-- VOR (R162): Bitwise or of lanes. -/
  | vor (un : VUnit) (d : VDst) (a : VSrc) (b : VSrc) (m : MaskReg)
  /-- VXOR (R162): Bitwise xor of lanes. -/
  | vxor (un : VUnit) (d : VDst) (a : VSrc) (b : VSrc) (m : MaskReg)
  /-- VANDN (R162): Bitwise a and not b of lanes. -/
  | vandn (un : VUnit) (d : VDst) (a : VSrc) (b : VSrc) (m : MaskReg)
  /-- VSHL (R162): Elementwise left shift. -/
  | vshl (un : VUnit) (d : VDst) (a : VSrc) (b : VSrc) (t : VType) (m : MaskReg)
  /-- VSHR (R162): Elementwise right shift. -/
  | vshr (un : VUnit) (d : VDst) (a : VSrc) (b : VSrc) (t : VType) (m : MaskReg)
  /-- VCMP (R165): Compares lanes and writes a mask register. -/
  | vcmp (un : VUnit) (c : VCond) (k : MaskReg) (a : VSrc) (b : VSrc) (t : VType) (m : MaskReg)
  /-- VSEL (R167): Selects lanes of A or B by a mask. -/
  | vsel (un : VUnit) (d : VDst) (a : VSrc) (b : VSrc) (m : MaskReg)
  /-- VMOV (R167): Copies every lane of a source. -/
  | vmov (un : VUnit) (d : VDst) (a : VSrc)
  /-- VCVT (R168): Converts lane elements between types with parts. -/
  | vcvt (un : VUnit) (d : VDst) (a : VSrc) (p : BitVec 2) (u : VType) (t : VType) (m : MaskReg)
  /-- VSCALE (R170): Computes a tag vector of block scales. -/
  | vscale (un : VUnit) (d : VDst) (a : VSrc) (b : VSrc) (m : MaskReg)
  /-- VQNT (R171): Quantises 128 f32 lanes into granule codes under a tag vector. -/
  | vqnt (un : VUnit) (d : VDst) (a : VSrc) (b : VSrc) (m : MaskReg)
  /-- VUNPK (R172): Expands packed granule codes to f32. -/
  | vunpk (un : VUnit) (d : VDst) (a : VSrc) (b : VSrc)
  /-- VMASK_AND (R166): Ands two masks. -/
  | vmaskAnd (un : VUnit) (k : MaskReg) (a : MaskReg) (b : MaskReg)
  /-- VMASK_OR (R166): Ors two masks. -/
  | vmaskOr (un : VUnit) (k : MaskReg) (a : MaskReg) (b : MaskReg)
  /-- VMASK_XOR (R166): Xors two masks. -/
  | vmaskXor (un : VUnit) (k : MaskReg) (a : MaskReg) (b : MaskReg)
  /-- VMASK_ANDN (R166): Mask and not mask. -/
  | vmaskAndn (un : VUnit) (k : MaskReg) (a : MaskReg) (b : MaskReg)
  /-- VMASK_NOT (R166): Inverts a mask. -/
  | vmaskNot (un : VUnit) (k : MaskReg) (a : MaskReg)
  /-- VMASK_NZ (R166): Mask of nonzero lanes of a vector. -/
  | vmaskNz (un : VUnit) (k : MaskReg) (a : VSrc)
  /-- VMASK_CNT (R166): Mask of the first n lanes given by lane 0. -/
  | vmaskCnt (un : VUnit) (k : MaskReg) (a : VSrc)
  /-- VCHK (R177): Compares two vectors lane by lane for duplicated computation. -/
  | vchk (un : VUnit) (a : VSrc) (b : VSrc) (m : MaskReg)
  /-- VPERM (R173): Permutes lanes by index lanes (va only). -/
  | vperm (d : VDst) (a : VSrc) (b : VSrc) (m : MaskReg)
  /-- VROT (R173): Rotates lanes (va only). -/
  | vrot (d : VDst) (a : VSrc) (b : VSrc) (m : MaskReg)
  /-- VRSUM (R174): Fixed-tree reduction sum (va only). -/
  | vrsum (d : VDst) (a : VSrc) (t : VType) (m : MaskReg)
  /-- VRMAX (R174): Fixed-tree reduction maximum (va only). -/
  | vrmax (d : VDst) (a : VSrc) (t : VType) (m : MaskReg)
  /-- VSCAN (R174): Fixed-tree inclusive prefix sum (va only). -/
  | vscan (d : VDst) (a : VSrc) (t : VType) (m : MaskReg)
  /-- VEXP2 (R175): Correctly rounded 2^x (vb only). -/
  | vexp2 (d : VDst) (a : VSrc) (m : MaskReg)
  /-- VLOG2 (R175): Correctly rounded log2 (vb only). -/
  | vlog2 (d : VDst) (a : VSrc) (m : MaskReg)
  /-- VRCP (R175): Correctly rounded reciprocal (vb only). -/
  | vrcp (d : VDst) (a : VSrc) (m : MaskReg)
  /-- VRSQ (R175): Correctly rounded reciprocal square root (vb only). -/
  | vrsq (d : VDst) (a : VSrc) (m : MaskReg)
  /-- NOP_MX (R36): The mx slot no-op. -/
  | nopMx
  /-- MSETP (R182): Sets a matrix parameter register from an s-register. -/
  | msetp (p : ParamReg) (a : Reg)
  /-- MSETPI (R182): Sets a matrix parameter register from an immediate. -/
  | msetpi (p : ParamReg) (i : BitVec 23)
  /-- MCALL (R183): Starts a microprogram routine on a tile, optionally taking tokens and sealing. -/
  | mcall (h : Bool) (s : Bool) (t : TileNo) (r : BitVec 8)
  /-- MZERO (R193): Zeroes a tile in both paths. -/
  | mzero (t : TileNo)
  /-- MDRAIN (R194): Drains tile rows through fl and quantisers to memory, optionally zeroing and sealing. -/
  | mdrain (t : TileNo) (d : Reg) (a : Reg) (b : Reg) (z : Bool) (n : Bool) (m : DrainMode) (s : Bool)
  /-- MSEAL (R196): Seals a tile, starting the fold comparison. -/
  | mseal (t : TileNo)
  /-- MSTAT (R198): Returns the matrix engine status. -/
  | mstat (d : Reg)
  /-- MLDUC (R192): Loads micro-words from the scratchpad into the store. -/
  | mlduc (a : Reg) (b : Reg)
  /-- MLDUC_ENT (R192): Sets a routine entry table entry. -/
  | mlducEnt (a : Reg) (b : Reg)
  /-- MACCRD (R197): Reads one accumulator element to an s-register, counting as a drain of its row. -/
  | maccrd (t : TileNo) (d : Reg) (a : Reg)
  /-- MACCRD_ROW (R197): Reads an accumulator row into the scratchpad as a pier entry. -/
  | maccrdRow (t : TileNo) (a : Reg) (b : Reg)
  /-- MACCWR (R197): Writes one accumulator element in both paths. -/
  | maccwr (t : TileNo) (a : Reg) (b : Reg)
  /-- MACCWR_ROW (R197): Writes an accumulator row from the scratchpad in both paths. -/
  | maccwrRow (t : TileNo) (a : Reg) (b : Reg)
  /-- MWAIT (R199): Marks a register empty to be filled with status when a condition holds. -/
  | mwait (d : Reg) (c : MWaitCond)
  /-- M_ALOAD (R190): Records the A operand descriptor. -/
  | mAload (p : ParamReg) (q : ParamReg)
  /-- M_BLOAD (R190): Records the B operand descriptor. -/
  | mBload (p : ParamReg) (q : ParamReg)
  /-- M_STEP (R191): Runs one exact contraction step over the shape region. -/
  | mStep (acc : Bool) (tr : Bool)
  /-- M_LOOP (R190): Activates a micro-loop level. -/
  | mLoop (l : LoopNo) (n : BitVec 16)
  /-- M_ENDLOOP (R190): Closes a micro-loop iteration. -/
  | mEndloop (l : LoopNo)
  /-- M_ADDP (R190): Adds a source to a working register. -/
  | mAddp (p : ParamReg) (q : ParamReg) (src : AddSrc) (imm : BitVec 48)
  /-- M_SETP (R190): Sets a working register. -/
  | mSetp (p : ParamReg) (q : ParamReg) (src : SetSrc) (imm : BitVec 48)
  /-- M_JCMP (R190): Conditional micro-jump. -/
  | mJcmp (p : ParamReg) (q : ParamReg) (cc : MicroCond) (f : MicroField) (tgt : BitVec 12)
  /-- M_ZERO (R190): Zeroes the shape region in both paths. -/
  | mZero (tr : Bool)
  /-- M_DRAIN (R190): Drains as MDRAIN from working registers. -/
  | mDrain (p : ParamReg) (g : ParamReg) (t : ParamReg) (z : Bool) (nw : Bool) (mode : DrainMode) (sl : Bool)
  /-- M_SEAL (R190): Seals the routine's tile. -/
  | mSeal
  /-- M_SHAPE (R191): Sets and checks the step shape. -/
  | mShape (p : ParamReg) (q : ParamReg) (g : ParamReg)
  /-- M_FMT (R190): Sets operand format filters. -/
  | mFmt (fa : BitVec 8) (fb : BitVec 8)
  /-- M_PERMIT (R190): Requests power tokens for full-rate steps. -/
  | mPermit (n : BitVec 16)
  /-- M_END (R190): Ends the routine. -/
  | mEnd
  /-- NOP_COPY (R36): The ca or cb slot no-op. -/
  | nopCopy (q : CopyQ)
  /-- CPY (R224): Copies granules with a length word. -/
  | cpy (q : CopyQ) (t : Reg) (a : Reg) (b : Reg) (c : Reg)
  /-- CPY2 (R224): Copies rows by a scratchpad descriptor. -/
  | cpy2 (q : CopyQ) (t : Reg) (a : Reg) (b : Reg) (c : Reg)
  /-- CPYB (R224): Copies an immediate length. -/
  | cpyb (q : CopyQ) (t : Reg) (a : Reg) (b : Reg) (i : BitVec 11)
  /-- ACC (R228): Atomically combines up to 512 bytes into a destination. -/
  | acc (q : CopyQ) (t : Reg) (a : Reg) (b : Reg) (c : Reg) (u : Bool) (o : AccOp)
  /-- CAS (R227): Atomic compare-and-swap. -/
  | cas (q : CopyQ) (t : Reg) (a : Reg) (b : Reg) (c : Reg) (u : Bool) (z : AtomSize)
  /-- FAA (R227): Atomic fetch-and-add. -/
  | faa (q : CopyQ) (t : Reg) (a : Reg) (b : Reg) (u : Bool) (z : AtomSize)
  /-- XCHG (R227): Atomic exchange. -/
  | xchg (q : CopyQ) (t : Reg) (a : Reg) (b : Reg) (u : Bool) (z : AtomSize)
  /-- FPUT (R229): Fills an empty future cell and wakes its waiters. -/
  | fput (q : CopyQ) (t : Reg) (a : Reg) (b : Reg) (u : Bool)
  /-- SUBS (R232): Binds a ring subscription to a memory-side loader or storer. -/
  | subs (q : CopyQ) (t : Reg) (a : Reg) (d : RingDir) (s : Fin 64)
  /-- UNSUB (R234): Releases a subscription. -/
  | unsub (q : CopyQ) (t : Reg) (s : Fin 64)
  /-- SLOTREL (R234): Releases a ring slot to the loader or storer. -/
  | slotrel (q : CopyQ) (t : Reg) (s : Fin 64)
  /-- PUBL (R236): Publishes a buffer of PUB pages by swapping SEL. -/
  | publ (q : CopyQ) (t : Reg) (a : Reg) (b : Reg) (s : Scope)
  /-- CFENCE (R225): Orders copy-command accesses of named classes across both queues. -/
  | cfence (q : CopyQ) (t : Reg) (c : BitVec 3)
  /-- CPYS (R237): Captures sealed tile rows and sends them with their signature. -/
  | cpys (q : CopyQ) (t : Reg) (a : Reg) (c : Reg) (l : TileNo)
  /-- COLL (R240): Participates in a span-port collective. -/
  | coll (q : CopyQ) (t : Reg) (a : Reg) (b : Reg) (c : Reg) (o : CollOp) (k : CollKind)
  /-- NOP_SYS (R36): The sys slot no-op. -/
  | nopSys
  /-- SPAWN (R245): Spawns one child task. -/
  | spawn (d : Reg) (a : Reg)
  /-- SPAWNL (R245): Spawns up to 64 consecutive children. -/
  | spawnl (d : Reg) (a : Reg) (b : Reg)
  /-- JOIN (R261): Ends the epoch, running children inline and waiting for the combine. -/
  | join (d : Reg)
  /-- MERGE (R262): Ends the task, contributing or writing its views and releasing successors. -/
  | merge
  /-- YIELD (R264): Suspends the task if another is dispatchable. -/
  | yield
  /-- TINFO (R266): Returns one item of task state. -/
  | tinfo (d : Reg) (i : TItem)
  /-- VIEWA (R257): Returns the view address of a declared byte. -/
  | viewa (d : Reg) (a : Reg)
  /-- FGET (R285): Reads a future cell or traps FUT_EMPTY. -/
  | fget (d : Reg) (a : Reg)
  /-- FWAIT_SPIN (R286): Waits frozen for a future cell to fill, up to a tick count. -/
  | fwaitSpin (d : Reg) (a : Reg) (b : Reg)
  /-- FWAIT_YIELD (R286): Suspends the task on a future cell's waiter list. -/
  | fwaitYield (d : Reg) (a : Reg) (b : Reg)
  /-- RUNINL (R265): Runs an INL task inline on this core. -/
  | runinl (d : Reg) (a : Reg)
  /-- GJOIN (R274): Joins a gang. -/
  | gjoin (d : Reg) (a : Reg)
  /-- GLEAVE (R274): Leaves a gang. -/
  | gleave (a : Reg)
  /-- ARRIVE (R278): Arrives at the gang's current phase as a release. -/
  | arrive (d : Reg) (a : Reg)
  /-- ARRIVE_DROP (R274): Arrives and leaves the gang from the next phase. -/
  | arriveDrop (d : Reg) (a : Reg)
  /-- BWAIT (R277): Waits for a gang phase to complete. -/
  | bwait (d : Reg) (a : Reg) (b : Reg)
  /-- SSTEP (R279): Superstep: waits for copies, arrives and waits for the phase. -/
  | sstep (d : Reg) (a : Reg)
  /-- TCEXP (R282): Sets a stage barrier's expected byte count. -/
  | tcexp (a : Reg) (s : Fin 64)
  /-- TCWAIT (R283): Waits for a stage barrier phase. -/
  | tcwait (d : Reg) (s : Fin 64)
  /-- LEASE (R295): Requests a sprint lease for the cluster. -/
  | lease (d : Reg) (a : Reg) (b : Reg)
  /-- LEASEREL (R296): Releases the holder's lease. -/
  | leaserel (d : Reg)
  /-- PERMIT (R294): Requests tokens as copy credit. -/
  | permit (d : Reg) (a : Reg)
  /-- SEGS (R154): Sets VRF segment power states. -/
  | segs (m : SegRest) (n : BitVec 5)
  /-- TRAP (R312): Raises the TRAP user trap after its slot commits. -/
  | trap (n : BitVec 15)
  /-- TRAP_DUP (R312): Raises DUP_MISMATCH as a hardware error. -/
  | trapDup (n : BitVec 15)
  /-- UTRET (R313): Returns from a user trap handler, restoring trap state and re-entering. -/
  | utret
  /-- VDIST (R21): Returns the die-hop distance between two virtual dies. -/
  | vdist (d : Reg) (a : Reg) (b : Reg)
  /-- VDMAP (R22): Returns the number of virtual dies and a die's core count. -/
  | vdmap (d : Reg) (a : Reg)
  /-- POWER_ON_RESET (R31): Power-on reset starts the boot ROM, the time base with FRAME = 0, fuse reading, link and stack training, self-check, designation and endpoint training. -/
  | powerOnReset
  /-- DEVICE_RESET (R326): A reset other than a VF function level reset resets the whole device, applies pending deconfiguration and requires firmware to be loaded again. -/
  | deviceReset
  /-- FUNCTION_LEVEL_RESET (R326): A function level reset of a VF destroys the contexts that the VF owns. -/
  | functionLevelReset
  /-- TIME_BASE_TICK (R29): Each 10 ns tick advances every die's copy of FRAME together. -/
  | timeBaseTick
  /-- TIME_BASE_STOP (R30): If the time base stops, every die enters the package-fault state. -/
  | timeBaseStop
  /-- FIRMWARE_INIT (R31): The started firmware initialises one empty page-table replica per enabled compute die in its home and then sets the ready bit. -/
  | firmwareInit
  /-- BUNDLE_FETCH (R33): The sequencer fetches and issues the next 256-bit bundle, raising PAGE, PROT or POISON at slot 0 on a fetch fault. -/
  | bundleFetch
  /-- SHADOW_CHECK_VERDICT (R176): A narrow-shadow check of an FP result reaches its verdict at the result's latency and on failure raises RESIDUE without writing the result. -/
  | shadowCheckVerdict
  /-- VCHK_VERDICT (R177): The verdict of VCHK is known 2 cycles after issue and raises DUP_MISMATCH on any differing lane. -/
  | vchkVerdict
  /-- DEFERRED_FAULT (R109): A fault found after issue is raised before the next bundle issue at its first slot, with held accesses kept for re-issue. -/
  | deferredFault
  /-- LOAD_DATA_ARRIVAL (R108): The value of an off-core load arrives and fills its empty destination. -/
  | loadDataArrival
  /-- REQUEST_TIMEOUT (R122): A request that leaves its die expires after its tick count and raises TIMEOUT as a deferred fault, dropping any late response. -/
  | requestTimeout
  /-- DIRTY_LINE_EVICTION (R123): A dirty line found uncorrectable at eviction from a memory-side slice is written as POISON and logged. -/
  | dirtyLineEviction
  /-- PAGE_WALK (R102): A die TLB miss takes a walker, which walks the die's replica and fills the TLB or reports PAGE or PROT. -/
  | pageWalk
  /-- TLB_INVALIDATE_ACK (R105): A compute die acknowledges a table update once restarted walks and accesses with invalidated entries are done. -/
  | tlbInvalidateAck
  /-- REPLICA_RESYNC (R106): A die that leaves reset has its replica copied from a current one before it dispatches or translates, while new updates wait. -/
  | replicaResync
  /-- PIER_ENTRY_LEAVE (R206): A pier entry leaves when older entries have left, its checks have passed and every open period in its hold set has released. -/
  | pierEntryLeave
  /-- IMPLICIT_SEAL (R208): The hardware seals every OPEN tile itself on a full pier, MERGE, suspension or pre-emption. -/
  | implicitSeal
  /-- DRAIN_ROW_LEAVE (R194): One row of a drain leaves the array, is presented on fl, folded by both paths, quantised and placed in the pier. -/
  | drainRowLeave
  /-- SEAL_VERDICT (R204): A seal compares both paths' folds, row signatures and CD and either releases held entries or starts Keystone arbitration. -/
  | sealVerdict
  /-- KEYSTONE_VERDICT (R210): After the 18,432-cycle known-answer test the Keystone names a faulty path, hands over, or discards held entries and raises a hardware error. -/
  | keystoneVerdict
  /-- MWAIT_FILL (R199): The MWAIT destination fills with the engine status once its condition holds. -/
  | mwaitFill
  /-- TOKEN_GRANT (R291): The head request of a cluster's token queue is granted once the balance allows, lowering the balance. -/
  | tokenGrant
  /-- REFILL_EPOCH (R289): At each 1,000-tick epoch boundary the controller updates MELT, applies lease state events, decides leases and refills cluster pools. -/
  | refillEpoch
  /-- LEASE_EXPIRY (R299): FRAME reaching a lease's expiry tick returns the cluster to base clock and sends LEASE_EXPIRED to the holder. -/
  | leaseExpiry
  /-- WEAR_MEASUREMENT (R303): Once each second firmware measures every ring-oscillator monitor and records the largest drift. -/
  | wearMeasurement
  /-- PORT_PREFETCH (R145): A read port prefetches up to 8 elements ahead and refetches any index written by a push. -/
  | portPrefetch
  /-- SEGMENT_WAKE (R152): A waking VRF segment becomes ON 24 cycles (from RETAIN) or 96 cycles (from OFF, zeroed) after the SEGS. -/
  | segmentWake
  /-- COPY_COMPLETE (R135): A copy command is performed at its scope and its completion token fills with status. -/
  | copyComplete
  /-- COPY_RESUME (R222): A command paused on an unmapped page resumes from its recorded progress once firmware maps the page. -/
  | copyResume
  /-- ATOMIC_APPLY (R230): An atomic arriving at its port is checked against the deduplication table and applied once or answered with the recorded result. -/
  | atomicApply
  /-- ATOMIC_BUSY_RETRY (R230): After a busy response the copy engine resends the atomic 16 ticks later with the same sequence number. -/
  | atomicBusyRetry
  /-- ATOMIC_RESEND (R230): The copy engine resends an atomic whose response was lost, at most 3 times within the timeout. -/
  | atomicResend
  /-- SUBSCRIPTION_ACCEPT (R232): The memory-side die accepts a subscription and its token fills with CODE 0. -/
  | subscriptionAccept
  /-- LOADER_PUSH (R233): The loader pushes one granule of a tile into a FREE or FILLING ring slot and counts it onto the slot's barrier. -/
  | loaderPush
  /-- STORER_PULL (R233): The storer writes one granule of a DRAINING output slot to memory and counts it on the barrier. -/
  | storerPull
  /-- CPYS_RECEIVE (R238): The receiving copy engine folds arriving CPYS rows, compares with SIG, writes on match or requests a retransmit, logging each attempt. -/
  | cpysReceive
  /-- PUBL_SWAP (R136): Once its conditions hold PUBL swaps SEL of every buffer page at one point in time and fills its token when done. -/
  | publSwap
  /-- PEER_REQUEST (R239): A request from another package lands in device memory at the export window base plus offset under that page's kind. -/
  | peerRequest
  /-- COLL_COMPLETE (R241): When every participant's contribution is combined and the destination performed, every COLL token fills with CODE 0. -/
  | collComplete
  /-- COLL_TIMEOUT (R241): TIMEOUT elapsing, a failed port or an ended participant fills every participant's token with PARTIAL. -/
  | collTimeout
  /-- GANG_CYCLE (R275): In one fabric cycle a gang applies arriving drops, arrivals, leaves, the completion check and joins, in that order. -/
  | gangCycle
  /-- TCWAIT_PHASE_COMPLETE (R283): A stage barrier completes its phase when XS = 1 and CNT reaches EXP, filling the TCWAIT destination. -/
  | tcwaitPhaseComplete
  /-- FGET_RESPONSE (R285): The cell's state returns to a frozen FGET or FWAIT, filling the value or raising FUT_EMPTY. -/
  | fgetResponse
  /-- FWAIT_TIMEOUT (R286): The tick count of an FWAIT runs out before the cell fills, and its destination fills with 0. -/
  | fwaitTimeout
  /-- ROOT_ADMISSION (R28): Stream admission admits the stream's next root when the previous one has completed and the completion ring has room. -/
  | rootAdmission
  /-- TASK_ADMISSION (R246): After the spawn release, admission reads and checks a child TCB, writes PARENT and SPIDX, and enqueues or arms it. -/
  | taskAdmission
  /-- DEPCNT_DECREMENT (R248): A predecessor's decrement of a successor's DEPCNT at its atomic unit enqueues an armed task reaching 0 or logs an underflow. -/
  | depcntDecrement
  /-- TASK_PICK (R251): A free core picks the least-keyed dispatchable entry from its local queue, its die queue or by stealing. -/
  | taskPick
  /-- TICK_SLIP (R252): A TICKV task still running or suspended at TICK + 100,000 causes one slip event in the context event log. -/
  | tickSlip
  /-- JOIN_SUSPEND_TIMEOUT (R261): A JOIN waiting 200 ticks for children suspends its task until npend reaches 0. -/
  | joinSuspendTimeout
  /-- COMBINE (R259): A merge engine combines a complete block of views into a fresh destination, pausing on PAGE and retrying on hardware errors. -/
  | combine
  /-- RESOURCE_RESOLUTION (R288): The supervisor core resolves an exhausted hardware resource in firmware, or ends the launch with RESOURCE if no memory remains. -/
  | resourceResolution
  /-- PAGE_FAULT_RESOLUTION (R318): After firmware or host software resolves the cause, the frame's accesses are re-issued and the task re-enters its local queue. -/
  | pageFaultResolution
  /-- HANG_WATCHDOG (R319): A core's count of ticks since its task last committed reaching the hang interval ends the launch with HANG. -/
  | hangWatchdog
  /-- SAVE_DEADLINE (R321): A pre-emption save not committed by its deadline ends every launch with a task in the image as CONTEXT_LOST. -/
  | saveDeadline
  /-- SCHEDULER_TAKEOVER (R336): An uncorrectable error reported by the active scheduler or supervisor core sets TKOV and the standby core starts replaying the journal. -/
  | schedulerTakeover
  /-- TAKEOVER_COMPLETE (R336): The standby core finishes journal replay and bitmap rescan, clears TKOV and resumes held work. -/
  | takeoverComplete
  /-- SPAWN_WINDOW_WRITE (R331): A 128-byte aligned write to a stream window is accepted as the next root, or discarded and logged. -/
  | spawnWindowWrite
  /-- CONSUMED_WRITE (R331): Host software writes CONSUMED, which may release roots waiting for completion ring room. -/
  | consumedWrite
  /-- APERTURE_WRITE (R328): A host aperture write is performed at home, sets touched tags to RAW and handles poison and unreachable targets. -/
  | apertureWrite
  /-- APERTURE_READ (R328): A host aperture read returns data, or a poisoned completion or Unsupported Request with a log record. -/
  | apertureRead
  /-- REGISTER_WRITE (R328): A host write to a control register that has no behaviour of its own, such as APBASE or VBASE. -/
  | registerWrite
  /-- FWLOAD (R335): The boot ROM checks the image's signature and starts the scheduler complex or refuses. -/
  | fwload
  /-- CTXCREATE (R330): Creates a context with its compute-die set, owner, save area, pools and peer table, building its binding table. -/
  | ctxcreate
  /-- CTXDESTROY (R330): Ends the context's launches as CANCELLED and frees the context. -/
  | ctxdestroy
  /-- STREAMCREATE (R330): Binds a stream window to a context, root TCB area, completion ring and vector. -/
  | streamcreate
  /-- TUPD (R105): Submits a page-table update through the table-update engine, which checks, writes replicas and invalidates TLBs. -/
  | tupd
  /-- CTXPARAM (R330): Sets a context's request timeout, AGE, hang interval and collective defaults. -/
  | ctxparam
  /-- PREEMPT (R320): Pre-empts a whole context and writes its context image with a final commit bit. -/
  | preempt
  /-- RESTORE (R324): Restores a committed context image onto cores of each image's virtual die and resumes its tasks. -/
  | restore
  /-- STREAMABORT (R330): Ends the stream's current launch as CANCELLED. -/
  | streamabort
  /-- CAPTURE (R334): Sets up to 16 input capture regions and a capture area for a stream's launches. -/
  | capture
  /-- RESYNC (R333): Writes the device summary sections to a host buffer while briefly holding root admission. -/
  | resync
  /-- PAGEFAIL (R318): Refuses a reported page fault, ending the waiting launch with PROT. -/
  | pagefail
  /-- STORE_ACKNOWLEDGEMENT (R121): Home acknowledges an off-core write-through store or a drained row written to device memory, which then counts as performed and leaves the request table. -/
  | storeAcknowledgement
deriving DecidableEq, Repr

end Sys2Proof
end

