-- ==== Sys2Proof/WellFormed.lean ====
section
/-!
DEFINITION. Well-formed instructions: what the slot chapters ask of operands beyond their types (spec/02 R36).
-/
set_option linter.unusedVariables false

namespace Sys2Proof

/-- Types 0, 4, 5 and 6: the integer types that shift and multiply high (spec/08 R162). -/
def VType.isInt : VType → Bool
  | .i32 | .i16x2 | .i8x4 | .ui32 => true
  | _ => false

/-- Bits of an element (spec/08 R156). -/
def VType.bits : VType → Nat
  | .i32 | .f32 | .ui32 => 32
  | .bf16x2 | .f16x2 | .i16x2 => 16
  | .i8x4 => 8

/-- Types of compares and cross-lane reductions (spec/08 R165, R174). -/
def VType.isWhole : VType → Bool
  | .i32 | .f32 | .ui32 => true
  | _ => false

/-- A source without an E bit (spec/02 R38: the third source of the VW family has none). -/
def VSrc.plain : VSrc → Bool
  | .v _ e => !e
  | _ => true

/-- The operand rules of VCVT (spec/08 R168): types differ, the part is in range, and a change of size takes no mask. -/
def vcvtWf (p : BitVec 2) (dst src : VType) (m : MaskReg) : Bool :=
  dst != src &&
    (if src.bits = dst.bits then p == 0
     else m == 0 && p.toNat < (if src.bits < dst.bits then dst.bits / src.bits else src.bits / dst.bits))

/-- The checks that the operand types do not make.
Everything else is well formed by its type. -/
def Instr.wf : Instr → Bool
  | .slli _ _ w n | .srli _ _ w n | .srai _ _ w n | .roli _ _ w n => !w || n.toNat < 32
  | .lds _ _ _ _ z => z != .d
  | .vmulh _ _ _ _ t _ | .vshl _ _ _ _ t _ | .vshr _ _ _ _ t _ => t.isInt
  | .vabs _ _ _ t _ | .vneg _ _ _ t _ => t != .ui32
  | .vfma _ c _ _ t _ => c.plain && (t == .f32 || t == .bf16x2 || t == .f16x2)
  | .vcmp _ _ k _ _ t _ => k != 0 && t.isWhole
  | .vcvt _ _ _ p dst src m => vcvtWf p dst src m
  | .vmaskAnd _ k _ _ | .vmaskOr _ k _ _ | .vmaskXor _ k _ _ | .vmaskAndn _ k _ _ => k != 0
  | .vmaskNot _ k _ | .vmaskNz _ k _ | .vmaskCnt _ k _ => k != 0
  | .vrsum _ _ t _ | .vrmax _ _ t _ | .vscan _ _ t _ => t.isWhole
  | .cfence _ _ c => c != 0
  | .coll _ _ _ _ _ o k => k != .ag || o == .addF32
  | .segs _ n => 1 ≤ n.toNat && n.toNat ≤ 16
  | .mAddp _ _ src imm => src != .wp || imm == 0
  | _ => true

end Sys2Proof
end

