-- ==== Sys2Proof/Decode.lean ====
section
/-!
DEFINITION. Decoding and encoding, from the encoding tables of the spec (spec/02 R32 to R38, the slot chapters,
spec/09 R190 and the fields of spec/opcode_table.json).
A word is decoded for the slot that holds it.
Everything that spec/02 R36 calls illegal is refused by name.
-/
set_option linter.unusedVariables false

namespace Sys2Proof

/-- Bits [hi:lo] of a word. -/
def fld (w hi lo : Nat) : Nat := w / 2 ^ lo % 2 ^ (hi + 1 - lo)

/-- One bit of a word. -/
def bit (w n : Nat) : Bool := w / 2 ^ n % 2 == 1

/-- Why a word is no instruction (spec/02 R36, spec/09 R191). -/
inductive DecodeError where
  /-- the opcode is not listed for the slot -/
  | noSuchOpcode
  /-- a field that must be zero is not -/
  | reservedField
  /-- a sub-operation, condition, type, rounding, scope or operand code that is not assigned -/
  | noSuchCode
  /-- the operands are in a combination that the slot chapter forbids -/
  | forbiddenOperands
deriving DecidableEq, Repr

/-- The codes of Round (spec/03 R64). -/
def Round.code : Round → Nat
  | .rne => 0
  | .rtz => 1
  | .rup => 2
  | .rdn => 3
  | .rod => 4

/-- The Round of a code, if assigned (spec/03 R64). -/
def Round.ofCode : Nat → Option Round
  | 0 => some .rne
  | 1 => some .rtz
  | 2 => some .rup
  | 3 => some .rdn
  | 4 => some .rod
  | _ => none

/-- The codes of Cond (spec/04 R84). -/
def Cond.code : Cond → Nat
  | .eq => 0
  | .ne => 1
  | .lt => 2
  | .ge => 3
  | .ltu => 4
  | .geu => 5
  | .tst => 6

/-- The Cond of a code, if assigned (spec/04 R84). -/
def Cond.ofCode : Nat → Option Cond
  | 0 => some .eq
  | 1 => some .ne
  | 2 => some .lt
  | 3 => some .ge
  | 4 => some .ltu
  | 5 => some .geu
  | 6 => some .tst
  | _ => none

/-- The codes of Scope (spec/02 R34). -/
def Scope.code : Scope → Nat
  | .core => 0
  | .die => 1
  | .package => 2
  | .system => 3

/-- The Scope of a code, if assigned (spec/02 R34). -/
def Scope.ofCode : Nat → Option Scope
  | 0 => some .core
  | 1 => some .die
  | 2 => some .package
  | 3 => some .system
  | _ => none

/-- The codes of Size (spec/02 R34). -/
def Size.code : Size → Nat
  | .b => 0
  | .h => 1
  | .w => 2
  | .d => 3

/-- The Size of a code, if assigned (spec/02 R34). -/
def Size.ofCode : Nat → Option Size
  | 0 => some .b
  | 1 => some .h
  | 2 => some .w
  | 3 => some .d
  | _ => none

/-- The codes of ScaleMode (spec/05 R114). -/
def ScaleMode.code : ScaleMode → Nat
  | .blk => 0
  | .vec => 1
  | .keep => 2

/-- The ScaleMode of a code, if assigned (spec/05 R114). -/
def ScaleMode.ofCode : Nat → Option ScaleMode
  | 0 => some .blk
  | 1 => some .vec
  | 2 => some .keep
  | _ => none

/-- The codes of VType (spec/02 R38). -/
def VType.code : VType → Nat
  | .i32 => 0
  | .f32 => 1
  | .bf16x2 => 2
  | .f16x2 => 3
  | .i16x2 => 4
  | .i8x4 => 5
  | .ui32 => 6

/-- The VType of a code, if assigned (spec/02 R38). -/
def VType.ofCode : Nat → Option VType
  | 0 => some .i32
  | 1 => some .f32
  | 2 => some .bf16x2
  | 3 => some .f16x2
  | 4 => some .i16x2
  | 5 => some .i8x4
  | 6 => some .ui32
  | _ => none

/-- The codes of VCond (spec/08 R165). -/
def VCond.code : VCond → Nat
  | .eq => 0
  | .ne => 1
  | .lt => 2
  | .le => 3
  | .gt => 4
  | .ge => 5
  | .tst => 6

/-- The VCond of a code, if assigned (spec/08 R165). -/
def VCond.ofCode : Nat → Option VCond
  | 0 => some .eq
  | 1 => some .ne
  | 2 => some .lt
  | 3 => some .le
  | 4 => some .gt
  | 5 => some .ge
  | 6 => some .tst
  | _ => none

/-- The codes of DrainMode (spec/09 R194). -/
def DrainMode.code : DrainMode → Nat
  | .blk => 0
  | .row => 1
  | .tag => 2

/-- The DrainMode of a code, if assigned (spec/09 R194). -/
def DrainMode.ofCode : Nat → Option DrainMode
  | 0 => some .blk
  | 1 => some .row
  | 2 => some .tag
  | _ => none

/-- The codes of MWaitCond (spec/09 R199). -/
def MWaitCond.code : MWaitCond → Nat
  | .free => 0
  | .drains => 1
  | .seals => 2

/-- The MWaitCond of a code, if assigned (spec/09 R199). -/
def MWaitCond.ofCode : Nat → Option MWaitCond
  | 0 => some .free
  | 1 => some .drains
  | 2 => some .seals
  | _ => none

/-- The codes of AccOp (spec/11 R228). -/
def AccOp.code : AccOp → Nat
  | .addI32 => 0
  | .addI64 => 1
  | .addF32 => 2
  | .minI32 => 3
  | .maxI32 => 4
  | .minF32 => 5
  | .maxF32 => 6
  | .and => 7
  | .or => 8
  | .xor => 9

/-- The AccOp of a code, if assigned (spec/11 R228). -/
def AccOp.ofCode : Nat → Option AccOp
  | 0 => some .addI32
  | 1 => some .addI64
  | 2 => some .addF32
  | 3 => some .minI32
  | 4 => some .maxI32
  | 5 => some .minF32
  | 6 => some .maxF32
  | 7 => some .and
  | 8 => some .or
  | 9 => some .xor
  | _ => none

/-- The codes of RingDir (spec/11 R232). -/
def RingDir.code : RingDir → Nat
  | .inp => 0
  | .out => 1

/-- The RingDir of a code, if assigned (spec/11 R232). -/
def RingDir.ofCode : Nat → Option RingDir
  | 0 => some .inp
  | 1 => some .out
  | _ => none

/-- The codes of CollKind (spec/11 R240). -/
def CollKind.code : CollKind → Nat
  | .ar => 0
  | .rs => 1
  | .ag => 2

/-- The CollKind of a code, if assigned (spec/11 R240). -/
def CollKind.ofCode : Nat → Option CollKind
  | 0 => some .ar
  | 1 => some .rs
  | 2 => some .ag
  | _ => none

/-- The codes of CollOp (spec/11 R240). -/
def CollOp.code : CollOp → Nat
  | .addF32 => 0
  | .addI32 => 1
  | .addI64 => 2
  | .maxF32 => 3
  | .minF32 => 4

/-- The CollOp of a code, if assigned (spec/11 R240). -/
def CollOp.ofCode : Nat → Option CollOp
  | 0 => some .addF32
  | 1 => some .addI32
  | 2 => some .addI64
  | 3 => some .maxF32
  | 4 => some .minF32
  | _ => none

/-- The codes of TItem (spec/12 R266). -/
def TItem.code : TItem → Nat
  | .spidx => 0
  | .tcb => 1
  | .parent => 2
  | .restarts => 3
  | .nspawn => 4
  | .npend => 5
  | .prio => 6
  | .stream => 7

/-- The TItem of a code, if assigned (spec/12 R266). -/
def TItem.ofCode : Nat → Option TItem
  | 0 => some .spidx
  | 1 => some .tcb
  | 2 => some .parent
  | 3 => some .restarts
  | 4 => some .nspawn
  | 5 => some .npend
  | 6 => some .prio
  | 7 => some .stream
  | _ => none

/-- The codes of SegRest (spec/07 R154). -/
def SegRest.code : SegRest → Nat
  | .retain => 0
  | .off => 1

/-- The SegRest of a code, if assigned (spec/07 R154). -/
def SegRest.ofCode : Nat → Option SegRest
  | 0 => some .retain
  | 1 => some .off
  | _ => none

/-- The codes of AddSrc (spec/09 R190). -/
def AddSrc.code : AddSrc → Nat
  | .wp => 0
  | .imm => 1
  | .adva => 2
  | .advb => 3
  | .kg => 4

/-- The AddSrc of a code, if assigned (spec/09 R190). -/
def AddSrc.ofCode : Nat → Option AddSrc
  | 0 => some .wp
  | 1 => some .imm
  | 2 => some .adva
  | 3 => some .advb
  | 4 => some .kg
  | _ => none

/-- The codes of SetSrc (spec/09 R190). -/
def SetSrc.code : SetSrc → Nat
  | .wp => 0
  | .imm => 1

/-- The SetSrc of a code, if assigned (spec/09 R190). -/
def SetSrc.ofCode : Nat → Option SetSrc
  | 0 => some .wp
  | 1 => some .imm
  | _ => none

/-- The codes of MicroCond (spec/09 R190). -/
def MicroCond.code : MicroCond → Nat
  | .lt => 0
  | .ge => 1
  | .eq => 2
  | .ne => 3

/-- The MicroCond of a code, if assigned (spec/09 R190). -/
def MicroCond.ofCode : Nat → Option MicroCond
  | 0 => some .lt
  | 1 => some .ge
  | 2 => some .eq
  | 3 => some .ne
  | _ => none

/-- The codes of SysReg (spec/04 R97). -/
def SysReg.code : SysReg → Nat
  | .stw => 0
  | .tcause => 1
  | .tval => 2
  | .tpc => 3
  | .utvec => 4
  | .frame => 16
  | .melt => 17
  | .lease => 18
  | .segst => 32
  | .cover => 33
  | .taskid => 48
  | .vdid => 49
  | .errcnt => 64

/-- The SysReg of a code, if assigned (spec/04 R97). -/
def SysReg.ofCode : Nat → Option SysReg
  | 0 => some .stw
  | 1 => some .tcause
  | 2 => some .tval
  | 3 => some .tpc
  | 4 => some .utvec
  | 16 => some .frame
  | 17 => some .melt
  | 18 => some .lease
  | 32 => some .segst
  | 33 => some .cover
  | 48 => some .taskid
  | 49 => some .vdid
  | 64 => some .errcnt
  | _ => none

/-- The codes of AtomSize (spec/11 R227). -/
def AtomSize.code : AtomSize → Nat
  | .w => 2
  | .d => 3

/-- The AtomSize of a code, if assigned (spec/11 R227). -/
def AtomSize.ofCode : Nat → Option AtomSize
  | 2 => some .w
  | 3 => some .d
  | _ => none

/-- The number of a port: codes 0 to 11 (spec/07 R148). -/
def Port.code (p : Port) : Nat := p.val

/-- The port of a code, if assigned. -/
def Port.ofCode (n : Nat) : Option Port := if h : n < 12 then some ⟨n, h⟩ else none

/-- The item of GCFG (spec/07 R148). -/
def PortWord.code : PortWord → Nat
  | .base => 0
  | .lvl l => l.val + 1

/-- The item of a code, if assigned. -/
def PortWord.ofCode (n : Nat) : Option PortWord :=
  if n = 0 then some .base else if h : n - 1 < 4 then some (.lvl ⟨n - 1, h⟩) else none

/-- The field selector of m.jcmp (spec/09 R190). -/
def MicroField.code : MicroField → Nat
  | .whole => 0
  | .part h => h.val + 1

/-- The field of a code, if assigned. -/
def MicroField.ofCode (n : Nat) : Option MicroField :=
  if n = 0 then some .whole else if h : n - 1 < 4 then some (.part ⟨n - 1, h⟩) else none

/-- Vector source specifiers (spec/02 R38). -/
def VSrc.code : VSrc → Nat
  | .q i => i.val
  | .v r _ => 16 + r.val
  | .g p => 48 + p.val
  | .fl => 60
  | .z => 61
  | .li => 62
  | .k => 63

/-- The E bit of a source (spec/02 R38). -/
def VSrc.ebit : VSrc → Nat
  | .v _ true => 1
  | _ => 0

/-- The source of a specifier and its E bit; an E bit on anything but a named register is illegal (spec/02 R38). -/
def VSrc.ofCode (n : Nat) (e : Bool) : Option VSrc :=
  if n < 16 then if e then none else some (.q (Fin.ofNat 16 n))
  else if n < 48 then some (.v (Fin.ofNat 32 (n - 16)) e)
  else if e then none
  else if n < 60 then some (.g (Fin.ofNat 12 (n - 48)))
  else if n = 60 then some .fl
  else if n = 61 then some .z
  else if n = 62 then some .li
  else if n = 63 then some .k
  else none

/-- Vector destination specifiers (spec/02 R38). -/
def VDst.code : VDst → Nat
  | .queue => 0
  | .v r => 16 + r.val
  | .g p => 48 + p.val

/-- The destination of a specifier; 1 to 15 and 60 to 63 are illegal (spec/02 R38). -/
def VDst.ofCode (n : Nat) : Option VDst :=
  if n = 0 then some .queue
  else if n < 16 then none
  else if n < 48 then some (.v (Fin.ofNat 32 (n - 16)))
  else if n < 60 then some (.g (Fin.ofNat 12 (n - 48)))
  else none

/-- ORD (spec/02 R34). -/
def Order.ordCode : Order → Nat
  | .plain => 0
  | .sync _ => 1

/-- SCP; a plain access has SCP 0 (spec/05 R110). -/
def Order.scpCode : Order → Nat
  | .plain => 0
  | .sync s => s.code

/-- ORD 0 with SCP 0, or ORD 1 with any scope; everything else is illegal (spec/02 R34, spec/05 R110). -/
def Order.ofCode (ord scp : Nat) : Option Order :=
  if ord = 0 then if scp = 0 then some .plain else none
  else if ord = 1 then (Scope.ofCode scp).map .sync
  else none

/-- ADD, SUB, AND, OR, XOR, ANDN, SLL, SRL, SRA, ROL, MIN, MAX, MINU, MAXU, MUL, MULH, MULHU, DIV, DIVU, REM, REMU, CLZ, CTZ, POPC: opcode 1 of the ctl slot (R80). -/
def decodeCtl1 (w : Nat) : Except DecodeError Instr :=
  if fld w 9 0 = 0 then
    .ok (.add (Fin.ofNat 32 (fld w 25 21)) (Fin.ofNat 32 (fld w 20 16)) (Fin.ofNat 32 (fld w 15 11)) (bit w 10))
  else if fld w 9 0 = 1 then
    .ok (.sub (Fin.ofNat 32 (fld w 25 21)) (Fin.ofNat 32 (fld w 20 16)) (Fin.ofNat 32 (fld w 15 11)) (bit w 10))
  else if fld w 9 0 = 2 then
    .ok (.and (Fin.ofNat 32 (fld w 25 21)) (Fin.ofNat 32 (fld w 20 16)) (Fin.ofNat 32 (fld w 15 11)) (bit w 10))
  else if fld w 9 0 = 3 then
    .ok (.or (Fin.ofNat 32 (fld w 25 21)) (Fin.ofNat 32 (fld w 20 16)) (Fin.ofNat 32 (fld w 15 11)) (bit w 10))
  else if fld w 9 0 = 4 then
    .ok (.xor (Fin.ofNat 32 (fld w 25 21)) (Fin.ofNat 32 (fld w 20 16)) (Fin.ofNat 32 (fld w 15 11)) (bit w 10))
  else if fld w 9 0 = 5 then
    .ok (.andn (Fin.ofNat 32 (fld w 25 21)) (Fin.ofNat 32 (fld w 20 16)) (Fin.ofNat 32 (fld w 15 11)) (bit w 10))
  else if fld w 9 0 = 6 then
    .ok (.sll (Fin.ofNat 32 (fld w 25 21)) (Fin.ofNat 32 (fld w 20 16)) (Fin.ofNat 32 (fld w 15 11)) (bit w 10))
  else if fld w 9 0 = 7 then
    .ok (.srl (Fin.ofNat 32 (fld w 25 21)) (Fin.ofNat 32 (fld w 20 16)) (Fin.ofNat 32 (fld w 15 11)) (bit w 10))
  else if fld w 9 0 = 8 then
    .ok (.sra (Fin.ofNat 32 (fld w 25 21)) (Fin.ofNat 32 (fld w 20 16)) (Fin.ofNat 32 (fld w 15 11)) (bit w 10))
  else if fld w 9 0 = 9 then
    .ok (.rol (Fin.ofNat 32 (fld w 25 21)) (Fin.ofNat 32 (fld w 20 16)) (Fin.ofNat 32 (fld w 15 11)) (bit w 10))
  else if fld w 9 0 = 10 then
    .ok (.min (Fin.ofNat 32 (fld w 25 21)) (Fin.ofNat 32 (fld w 20 16)) (Fin.ofNat 32 (fld w 15 11)) (bit w 10))
  else if fld w 9 0 = 11 then
    .ok (.max (Fin.ofNat 32 (fld w 25 21)) (Fin.ofNat 32 (fld w 20 16)) (Fin.ofNat 32 (fld w 15 11)) (bit w 10))
  else if fld w 9 0 = 12 then
    .ok (.minu (Fin.ofNat 32 (fld w 25 21)) (Fin.ofNat 32 (fld w 20 16)) (Fin.ofNat 32 (fld w 15 11)) (bit w 10))
  else if fld w 9 0 = 13 then
    .ok (.maxu (Fin.ofNat 32 (fld w 25 21)) (Fin.ofNat 32 (fld w 20 16)) (Fin.ofNat 32 (fld w 15 11)) (bit w 10))
  else if fld w 9 0 = 14 then
    .ok (.mul (Fin.ofNat 32 (fld w 25 21)) (Fin.ofNat 32 (fld w 20 16)) (Fin.ofNat 32 (fld w 15 11)) (bit w 10))
  else if fld w 9 0 = 15 then
    .ok (.mulh (Fin.ofNat 32 (fld w 25 21)) (Fin.ofNat 32 (fld w 20 16)) (Fin.ofNat 32 (fld w 15 11)) (bit w 10))
  else if fld w 9 0 = 16 then
    .ok (.mulhu (Fin.ofNat 32 (fld w 25 21)) (Fin.ofNat 32 (fld w 20 16)) (Fin.ofNat 32 (fld w 15 11)) (bit w 10))
  else if fld w 9 0 = 17 then
    .ok (.div (Fin.ofNat 32 (fld w 25 21)) (Fin.ofNat 32 (fld w 20 16)) (Fin.ofNat 32 (fld w 15 11)) (bit w 10))
  else if fld w 9 0 = 18 then
    .ok (.divu (Fin.ofNat 32 (fld w 25 21)) (Fin.ofNat 32 (fld w 20 16)) (Fin.ofNat 32 (fld w 15 11)) (bit w 10))
  else if fld w 9 0 = 19 then
    .ok (.rem (Fin.ofNat 32 (fld w 25 21)) (Fin.ofNat 32 (fld w 20 16)) (Fin.ofNat 32 (fld w 15 11)) (bit w 10))
  else if fld w 9 0 = 20 then
    .ok (.remu (Fin.ofNat 32 (fld w 25 21)) (Fin.ofNat 32 (fld w 20 16)) (Fin.ofNat 32 (fld w 15 11)) (bit w 10))
  else if fld w 9 0 = 21 ∧ fld w 15 11 = 0 then
    .ok (.clz (Fin.ofNat 32 (fld w 25 21)) (Fin.ofNat 32 (fld w 20 16)) (bit w 10))
  else if fld w 9 0 = 22 ∧ fld w 15 11 = 0 then
    .ok (.ctz (Fin.ofNat 32 (fld w 25 21)) (Fin.ofNat 32 (fld w 20 16)) (bit w 10))
  else if fld w 9 0 = 23 ∧ fld w 15 11 = 0 then
    .ok (.popc (Fin.ofNat 32 (fld w 25 21)) (Fin.ofNat 32 (fld w 20 16)) (bit w 10))
  else .error .noSuchCode

/-- ADDI: opcode 2 of the ctl slot (R82). -/
def decodeCtl2 (w : Nat) : Except DecodeError Instr :=
  .ok (.addi (Fin.ofNat 32 (fld w 25 21)) (Fin.ofNat 32 (fld w 20 16)) (BitVec.ofNat 16 (fld w 15 0)))

/-- ANDI: opcode 3 of the ctl slot (R82). -/
def decodeCtl3 (w : Nat) : Except DecodeError Instr :=
  .ok (.andi (Fin.ofNat 32 (fld w 25 21)) (Fin.ofNat 32 (fld w 20 16)) (BitVec.ofNat 16 (fld w 15 0)))

/-- ORI: opcode 4 of the ctl slot (R82). -/
def decodeCtl4 (w : Nat) : Except DecodeError Instr :=
  .ok (.ori (Fin.ofNat 32 (fld w 25 21)) (Fin.ofNat 32 (fld w 20 16)) (BitVec.ofNat 16 (fld w 15 0)))

/-- XORI: opcode 5 of the ctl slot (R82). -/
def decodeCtl5 (w : Nat) : Except DecodeError Instr :=
  .ok (.xori (Fin.ofNat 32 (fld w 25 21)) (Fin.ofNat 32 (fld w 20 16)) (BitVec.ofNat 16 (fld w 15 0)))

/-- SLLI, SRLI, SRAI, ROLI: opcode 6 of the ctl slot (R83). -/
def decodeCtl6 (w : Nat) : Except DecodeError Instr :=
  if fld w 12 6 = 0 ∧ fld w 15 14 = 0 then
    .ok (.slli (Fin.ofNat 32 (fld w 25 21)) (Fin.ofNat 32 (fld w 20 16)) (bit w 13) (BitVec.ofNat 6 (fld w 5 0)))
  else if fld w 12 6 = 0 ∧ fld w 15 14 = 1 then
    .ok (.srli (Fin.ofNat 32 (fld w 25 21)) (Fin.ofNat 32 (fld w 20 16)) (bit w 13) (BitVec.ofNat 6 (fld w 5 0)))
  else if fld w 12 6 = 0 ∧ fld w 15 14 = 2 then
    .ok (.srai (Fin.ofNat 32 (fld w 25 21)) (Fin.ofNat 32 (fld w 20 16)) (bit w 13) (BitVec.ofNat 6 (fld w 5 0)))
  else if fld w 12 6 = 0 ∧ fld w 15 14 = 3 then
    .ok (.roli (Fin.ofNat 32 (fld w 25 21)) (Fin.ofNat 32 (fld w 20 16)) (bit w 13) (BitVec.ofNat 6 (fld w 5 0)))
  else .error .noSuchCode

/-- MOVHI: opcode 7 of the ctl slot (R82). -/
def decodeCtl7 (w : Nat) : Except DecodeError Instr :=
  .ok (.movhi (Fin.ofNat 32 (fld w 25 21)) (Fin.ofNat 32 (fld w 20 16)) (BitVec.ofNat 16 (fld w 15 0)))

/-- ADDPC: opcode 8 of the ctl slot (R82). -/
def decodeCtl8 (w : Nat) : Except DecodeError Instr :=
  if fld w 20 16 = 0 then
    .ok (.addpc (Fin.ofNat 32 (fld w 25 21)) (BitVec.ofNat 16 (fld w 15 0)))
  else .error .reservedField

/-- CMP: opcode 9 of the ctl slot (R84). -/
def decodeCtl9 (w : Nat) : Except DecodeError Instr :=
  if fld w 9 3 = 0 ∧ fld w 22 21 = 0 then
    match Cond.ofCode (fld w 2 0) with
    | none => .error .noSuchCode
    | some x0 =>
    .ok (.cmp (Fin.ofNat 8 (fld w 25 23)) (Fin.ofNat 32 (fld w 20 16)) (Fin.ofNat 32 (fld w 15 11)) (bit w 10) x0)
  else .error .reservedField

/-- CMPI: opcode 10 of the ctl slot (R84). -/
def decodeCtl10 (w : Nat) : Except DecodeError Instr :=
  match Cond.ofCode (fld w 22 20) with
  | none => .error .noSuchCode
  | some x0 =>
  .ok (.cmpi (Fin.ofNat 8 (fld w 25 23)) x0 (Fin.ofNat 32 (fld w 19 15)) (BitVec.ofNat 15 (fld w 14 0)))

/-- PAND, POR, PXOR: opcode 11 of the ctl slot (R85). -/
def decodeCtl11 (w : Nat) : Except DecodeError Instr :=
  if fld w 11 0 = 0 ∧ fld w 16 16 = 0 ∧ fld w 22 21 = 0 then
    .ok (.pand (Fin.ofNat 8 (fld w 25 23)) (Fin.ofNat 8 (fld w 20 18)) (bit w 17) (Fin.ofNat 8 (fld w 15 13)) (bit w 12))
  else if fld w 11 0 = 1 ∧ fld w 16 16 = 0 ∧ fld w 22 21 = 0 then
    .ok (.por (Fin.ofNat 8 (fld w 25 23)) (Fin.ofNat 8 (fld w 20 18)) (bit w 17) (Fin.ofNat 8 (fld w 15 13)) (bit w 12))
  else if fld w 11 0 = 2 ∧ fld w 16 16 = 0 ∧ fld w 22 21 = 0 then
    .ok (.pxor (Fin.ofNat 8 (fld w 25 23)) (Fin.ofNat 8 (fld w 20 18)) (bit w 17) (Fin.ofNat 8 (fld w 15 13)) (bit w 12))
  else .error .noSuchCode

/-- SEL: opcode 12 of the ctl slot (R86). -/
def decodeCtl12 (w : Nat) : Except DecodeError Instr :=
  if fld w 10 4 = 0 then
    .ok (.sel (Fin.ofNat 32 (fld w 25 21)) (Fin.ofNat 32 (fld w 20 16)) (Fin.ofNat 32 (fld w 15 11)) (bit w 3) (Fin.ofNat 8 (fld w 2 0)))
  else .error .reservedField

/-- BR: opcode 13 of the ctl slot (R87). -/
def decodeCtl13 (w : Nat) : Except DecodeError Instr :=
  if fld w 21 16 = 0 then
    .ok (.br (Fin.ofNat 8 (fld w 25 23)) (bit w 22) (BitVec.ofNat 16 (fld w 15 0)))
  else .error .reservedField

/-- BZ, BNZ: opcode 14 of the ctl slot (R87). -/
def decodeCtl14 (w : Nat) : Except DecodeError Instr :=
  if fld w 25 21 = 0 then
    .ok (.bz (Fin.ofNat 32 (fld w 20 16)) (BitVec.ofNat 16 (fld w 15 0)))
  else if fld w 25 21 = 2 then
    .ok (.bnz (Fin.ofNat 32 (fld w 20 16)) (BitVec.ofNat 16 (fld w 15 0)))
  else .error .noSuchCode

/-- JMP: opcode 15 of the ctl slot (R87). -/
def decodeCtl15 (w : Nat) : Except DecodeError Instr :=
  .ok (.jmp (BitVec.ofNat 26 (fld w 25 0)))

/-- CALL: opcode 16 of the ctl slot (R87). -/
def decodeCtl16 (w : Nat) : Except DecodeError Instr :=
  .ok (.call (BitVec.ofNat 26 (fld w 25 0)))

/-- JR: opcode 17 of the ctl slot (R87). -/
def decodeCtl17 (w : Nat) : Except DecodeError Instr :=
  if fld w 15 0 = 0 then
    .ok (.jr (Fin.ofNat 32 (fld w 25 21)) (Fin.ofNat 32 (fld w 20 16)))
  else .error .reservedField

/-- LOOP: opcode 18 of the ctl slot (R89). -/
def decodeCtl18 (w : Nat) : Except DecodeError Instr :=
  if fld w 23 21 = 0 then
    .ok (.loop (Fin.ofNat 4 (fld w 25 24)) (Fin.ofNat 32 (fld w 20 16)) (BitVec.ofNat 16 (fld w 15 0)))
  else .error .reservedField

/-- FADD, FSUB, FMUL, FDIV, FSQRT, FMIN, FMAX: opcode 19 of the ctl slot (R92). -/
def decodeCtl19 (w : Nat) : Except DecodeError Instr :=
  if fld w 7 0 = 0 then
    match Round.ofCode (fld w 10 8) with
    | none => .error .noSuchCode
    | some x0 =>
    .ok (.fadd (Fin.ofNat 32 (fld w 25 21)) (Fin.ofNat 32 (fld w 20 16)) (Fin.ofNat 32 (fld w 15 11)) x0)
  else if fld w 7 0 = 1 then
    match Round.ofCode (fld w 10 8) with
    | none => .error .noSuchCode
    | some x0 =>
    .ok (.fsub (Fin.ofNat 32 (fld w 25 21)) (Fin.ofNat 32 (fld w 20 16)) (Fin.ofNat 32 (fld w 15 11)) x0)
  else if fld w 7 0 = 2 then
    match Round.ofCode (fld w 10 8) with
    | none => .error .noSuchCode
    | some x0 =>
    .ok (.fmul (Fin.ofNat 32 (fld w 25 21)) (Fin.ofNat 32 (fld w 20 16)) (Fin.ofNat 32 (fld w 15 11)) x0)
  else if fld w 7 0 = 3 then
    match Round.ofCode (fld w 10 8) with
    | none => .error .noSuchCode
    | some x0 =>
    .ok (.fdiv (Fin.ofNat 32 (fld w 25 21)) (Fin.ofNat 32 (fld w 20 16)) (Fin.ofNat 32 (fld w 15 11)) x0)
  else if fld w 7 0 = 4 ∧ fld w 15 11 = 0 then
    match Round.ofCode (fld w 10 8) with
    | none => .error .noSuchCode
    | some x0 =>
    .ok (.fsqrt (Fin.ofNat 32 (fld w 25 21)) (Fin.ofNat 32 (fld w 20 16)) x0)
  else if fld w 10 0 = 5 then
    .ok (.fmin (Fin.ofNat 32 (fld w 25 21)) (Fin.ofNat 32 (fld w 20 16)) (Fin.ofNat 32 (fld w 15 11)))
  else if fld w 10 0 = 6 then
    .ok (.fmax (Fin.ofNat 32 (fld w 25 21)) (Fin.ofNat 32 (fld w 20 16)) (Fin.ofNat 32 (fld w 15 11)))
  else .error .noSuchCode

/-- FFMA, FFMS, FFNMA, FFNMS: opcode 20 of the ctl slot (R93). -/
def decodeCtl20 (w : Nat) : Except DecodeError Instr :=
  if fld w 7 0 = 0 then
    match Round.ofCode (fld w 10 8) with
    | none => .error .noSuchCode
    | some x0 =>
    .ok (.ffma (Fin.ofNat 32 (fld w 25 21)) (Fin.ofNat 32 (fld w 20 16)) (Fin.ofNat 32 (fld w 15 11)) x0)
  else if fld w 7 0 = 1 then
    match Round.ofCode (fld w 10 8) with
    | none => .error .noSuchCode
    | some x0 =>
    .ok (.ffms (Fin.ofNat 32 (fld w 25 21)) (Fin.ofNat 32 (fld w 20 16)) (Fin.ofNat 32 (fld w 15 11)) x0)
  else if fld w 7 0 = 2 then
    match Round.ofCode (fld w 10 8) with
    | none => .error .noSuchCode
    | some x0 =>
    .ok (.ffnma (Fin.ofNat 32 (fld w 25 21)) (Fin.ofNat 32 (fld w 20 16)) (Fin.ofNat 32 (fld w 15 11)) x0)
  else if fld w 7 0 = 3 then
    match Round.ofCode (fld w 10 8) with
    | none => .error .noSuchCode
    | some x0 =>
    .ok (.ffnms (Fin.ofNat 32 (fld w 25 21)) (Fin.ofNat 32 (fld w 20 16)) (Fin.ofNat 32 (fld w 15 11)) x0)
  else .error .noSuchCode

/-- FCVT_I64_F32, FCVT_UI64_F32, FCVT_I32_F32, FCVT_UI32_F32, FCVT_F32_I64, FCVT_F32_UI64, FCVT_F32_I32, FCVT_F32_UI32, FCVT_B16_F32, FCVT_F32_B16, FCVT_F16_F32, FCVT_F32_F16, FCVT_F8A_F32, FCVT_F8B_F32, FCVT_F32_F8A, FCVT_F32_F8B, FRINT: opcode 21 of the ctl slot (R94). -/
def decodeCtl21 (w : Nat) : Except DecodeError Instr :=
  if fld w 7 0 = 0 ∧ fld w 15 11 = 0 then
    match Round.ofCode (fld w 10 8) with
    | none => .error .noSuchCode
    | some x0 =>
    .ok (.fcvtI64F32 (Fin.ofNat 32 (fld w 25 21)) (Fin.ofNat 32 (fld w 20 16)) x0)
  else if fld w 7 0 = 1 ∧ fld w 15 11 = 0 then
    match Round.ofCode (fld w 10 8) with
    | none => .error .noSuchCode
    | some x0 =>
    .ok (.fcvtUi64F32 (Fin.ofNat 32 (fld w 25 21)) (Fin.ofNat 32 (fld w 20 16)) x0)
  else if fld w 7 0 = 2 ∧ fld w 15 11 = 0 then
    match Round.ofCode (fld w 10 8) with
    | none => .error .noSuchCode
    | some x0 =>
    .ok (.fcvtI32F32 (Fin.ofNat 32 (fld w 25 21)) (Fin.ofNat 32 (fld w 20 16)) x0)
  else if fld w 7 0 = 3 ∧ fld w 15 11 = 0 then
    match Round.ofCode (fld w 10 8) with
    | none => .error .noSuchCode
    | some x0 =>
    .ok (.fcvtUi32F32 (Fin.ofNat 32 (fld w 25 21)) (Fin.ofNat 32 (fld w 20 16)) x0)
  else if fld w 7 0 = 4 ∧ fld w 15 11 = 0 then
    match Round.ofCode (fld w 10 8) with
    | none => .error .noSuchCode
    | some x0 =>
    .ok (.fcvtF32I64 (Fin.ofNat 32 (fld w 25 21)) (Fin.ofNat 32 (fld w 20 16)) x0)
  else if fld w 7 0 = 5 ∧ fld w 15 11 = 0 then
    match Round.ofCode (fld w 10 8) with
    | none => .error .noSuchCode
    | some x0 =>
    .ok (.fcvtF32Ui64 (Fin.ofNat 32 (fld w 25 21)) (Fin.ofNat 32 (fld w 20 16)) x0)
  else if fld w 7 0 = 6 ∧ fld w 15 11 = 0 then
    match Round.ofCode (fld w 10 8) with
    | none => .error .noSuchCode
    | some x0 =>
    .ok (.fcvtF32I32 (Fin.ofNat 32 (fld w 25 21)) (Fin.ofNat 32 (fld w 20 16)) x0)
  else if fld w 7 0 = 7 ∧ fld w 15 11 = 0 then
    match Round.ofCode (fld w 10 8) with
    | none => .error .noSuchCode
    | some x0 =>
    .ok (.fcvtF32Ui32 (Fin.ofNat 32 (fld w 25 21)) (Fin.ofNat 32 (fld w 20 16)) x0)
  else if fld w 7 0 = 8 ∧ fld w 15 11 = 0 then
    match Round.ofCode (fld w 10 8) with
    | none => .error .noSuchCode
    | some x0 =>
    .ok (.fcvtB16F32 (Fin.ofNat 32 (fld w 25 21)) (Fin.ofNat 32 (fld w 20 16)) x0)
  else if fld w 7 0 = 9 ∧ fld w 15 11 = 0 then
    match Round.ofCode (fld w 10 8) with
    | none => .error .noSuchCode
    | some x0 =>
    .ok (.fcvtF32B16 (Fin.ofNat 32 (fld w 25 21)) (Fin.ofNat 32 (fld w 20 16)) x0)
  else if fld w 7 0 = 10 ∧ fld w 15 11 = 0 then
    match Round.ofCode (fld w 10 8) with
    | none => .error .noSuchCode
    | some x0 =>
    .ok (.fcvtF16F32 (Fin.ofNat 32 (fld w 25 21)) (Fin.ofNat 32 (fld w 20 16)) x0)
  else if fld w 7 0 = 11 ∧ fld w 15 11 = 0 then
    match Round.ofCode (fld w 10 8) with
    | none => .error .noSuchCode
    | some x0 =>
    .ok (.fcvtF32F16 (Fin.ofNat 32 (fld w 25 21)) (Fin.ofNat 32 (fld w 20 16)) x0)
  else if fld w 7 0 = 12 ∧ fld w 15 11 = 0 then
    match Round.ofCode (fld w 10 8) with
    | none => .error .noSuchCode
    | some x0 =>
    .ok (.fcvtF8aF32 (Fin.ofNat 32 (fld w 25 21)) (Fin.ofNat 32 (fld w 20 16)) x0)
  else if fld w 7 0 = 13 ∧ fld w 15 11 = 0 then
    match Round.ofCode (fld w 10 8) with
    | none => .error .noSuchCode
    | some x0 =>
    .ok (.fcvtF8bF32 (Fin.ofNat 32 (fld w 25 21)) (Fin.ofNat 32 (fld w 20 16)) x0)
  else if fld w 7 0 = 14 ∧ fld w 15 11 = 0 then
    match Round.ofCode (fld w 10 8) with
    | none => .error .noSuchCode
    | some x0 =>
    .ok (.fcvtF32F8a (Fin.ofNat 32 (fld w 25 21)) (Fin.ofNat 32 (fld w 20 16)) x0)
  else if fld w 7 0 = 15 ∧ fld w 15 11 = 0 then
    match Round.ofCode (fld w 10 8) with
    | none => .error .noSuchCode
    | some x0 =>
    .ok (.fcvtF32F8b (Fin.ofNat 32 (fld w 25 21)) (Fin.ofNat 32 (fld w 20 16)) x0)
  else if fld w 7 0 = 16 ∧ fld w 15 11 = 0 then
    match Round.ofCode (fld w 10 8) with
    | none => .error .noSuchCode
    | some x0 =>
    .ok (.frint (Fin.ofNat 32 (fld w 25 21)) (Fin.ofNat 32 (fld w 20 16)) x0)
  else .error .noSuchCode

/-- FEQ, FLT, FLE, FUN: opcode 22 of the ctl slot (R95). -/
def decodeCtl22 (w : Nat) : Except DecodeError Instr :=
  if fld w 10 0 = 0 ∧ fld w 22 21 = 0 then
    .ok (.feq (Fin.ofNat 8 (fld w 25 23)) (Fin.ofNat 32 (fld w 20 16)) (Fin.ofNat 32 (fld w 15 11)))
  else if fld w 10 0 = 1 ∧ fld w 22 21 = 0 then
    .ok (.flt (Fin.ofNat 8 (fld w 25 23)) (Fin.ofNat 32 (fld w 20 16)) (Fin.ofNat 32 (fld w 15 11)))
  else if fld w 10 0 = 2 ∧ fld w 22 21 = 0 then
    .ok (.fle (Fin.ofNat 8 (fld w 25 23)) (Fin.ofNat 32 (fld w 20 16)) (Fin.ofNat 32 (fld w 15 11)))
  else if fld w 10 0 = 3 ∧ fld w 22 21 = 0 then
    .ok (.fUn (Fin.ofNat 8 (fld w 25 23)) (Fin.ofNat 32 (fld w 20 16)) (Fin.ofNat 32 (fld w 15 11)))
  else .error .noSuchCode

/-- RDSR: opcode 23 of the ctl slot (R97). -/
def decodeCtl23 (w : Nat) : Except DecodeError Instr :=
  if fld w 20 16 = 0 then
    match SysReg.ofCode (fld w 15 0) with
    | none => .error .noSuchCode
    | some x0 =>
    .ok (.rdsr (Fin.ofNat 32 (fld w 25 21)) x0)
  else .error .reservedField

/-- WRSR: opcode 24 of the ctl slot (R97). -/
def decodeCtl24 (w : Nat) : Except DecodeError Instr :=
  if fld w 25 21 = 0 then
    match SysReg.ofCode (fld w 15 0) with
    | none => .error .noSuchCode
    | some x0 =>
    .ok (.wrsr (Fin.ofNat 32 (fld w 20 16)) x0)
  else .error .reservedField

/-- GCFG: opcode 25 of the ctl slot (R148). -/
def decodeCtl25 (w : Nat) : Except DecodeError Instr :=
  if fld w 15 7 = 0 ∧ fld w 25 21 = 0 then
    match PortWord.ofCode (fld w 6 4) with
    | none => .error .noSuchCode
    | some x0 =>
    match Port.ofCode (fld w 3 0) with
    | none => .error .noSuchCode
    | some x1 =>
    .ok (.gcfg (Fin.ofNat 32 (fld w 20 16)) x0 x1)
  else .error .reservedField

/-- GSTART, GSTOP, GSTAT, GSEEK: opcode 26 of the ctl slot (R149). -/
def decodeCtl26 (w : Nat) : Except DecodeError Instr :=
  if fld w 25 4 = 0 then
    match Port.ofCode (fld w 3 0) with
    | none => .error .noSuchCode
    | some x0 =>
    .ok (.gstart x0)
  else if fld w 25 4 = 256 then
    match Port.ofCode (fld w 3 0) with
    | none => .error .noSuchCode
    | some x0 =>
    .ok (.gstop x0)
  else if fld w 20 4 = 512 then
    match Port.ofCode (fld w 3 0) with
    | none => .error .noSuchCode
    | some x0 =>
    .ok (.gstat (Fin.ofNat 32 (fld w 25 21)) x0)
  else if fld w 15 4 = 768 ∧ fld w 25 21 = 0 then
    match Port.ofCode (fld w 3 0) with
    | none => .error .noSuchCode
    | some x0 =>
    .ok (.gseek (Fin.ofNat 32 (fld w 20 16)) x0)
  else .error .noSuchCode

/-- VSETK, VSETK_H: opcode 27 of the ctl slot (R151). -/
def decodeCtl27 (w : Nat) : Except DecodeError Instr :=
  if fld w 15 0 = 0 ∧ fld w 25 21 = 0 then
    .ok (.vsetk (Fin.ofNat 32 (fld w 20 16)))
  else if fld w 15 0 = 1 ∧ fld w 25 21 = 0 then
    .ok (.vsetkH (Fin.ofNat 32 (fld w 20 16)))
  else .error .noSuchCode

/-- Words of the ctl slot (spec/02 R35, R36). -/
def decodeCtl (w : Nat) : Except DecodeError Instr :=
  match fld w 31 26 with
  | 0 => if w = 0 then .ok (.nopCtl) else .error .reservedField
  | 1 => decodeCtl1 w
  | 2 => decodeCtl2 w
  | 3 => decodeCtl3 w
  | 4 => decodeCtl4 w
  | 5 => decodeCtl5 w
  | 6 => decodeCtl6 w
  | 7 => decodeCtl7 w
  | 8 => decodeCtl8 w
  | 9 => decodeCtl9 w
  | 10 => decodeCtl10 w
  | 11 => decodeCtl11 w
  | 12 => decodeCtl12 w
  | 13 => decodeCtl13 w
  | 14 => decodeCtl14 w
  | 15 => decodeCtl15 w
  | 16 => decodeCtl16 w
  | 17 => decodeCtl17 w
  | 18 => decodeCtl18 w
  | 19 => decodeCtl19 w
  | 20 => decodeCtl20 w
  | 21 => decodeCtl21 w
  | 22 => decodeCtl22 w
  | 23 => decodeCtl23 w
  | 24 => decodeCtl24 w
  | 25 => decodeCtl25 w
  | 26 => decodeCtl26 w
  | 27 => decodeCtl27 w
  | _ => .error .noSuchOpcode

/-- LD: opcode 1 of the mem slot (R111). -/
def decodeMem1 (w : Nat) : Except DecodeError Instr :=
  match Order.ofCode (fld w 3 2) (fld w 5 4) with
  | none => .error .noSuchCode
  | some x0 =>
  match Size.ofCode (fld w 1 0) with
  | none => .error .noSuchCode
  | some x1 =>
  .ok (.ld (Fin.ofNat 32 (fld w 25 21)) (Fin.ofNat 32 (fld w 20 16)) (BitVec.ofNat 10 (fld w 15 6)) x0 x1)

/-- LDS: opcode 2 of the mem slot (R111). -/
def decodeMem2 (w : Nat) : Except DecodeError Instr :=
  match Order.ofCode (fld w 3 2) (fld w 5 4) with
  | none => .error .noSuchCode
  | some x0 =>
  match Size.ofCode (fld w 1 0) with
  | none => .error .noSuchCode
  | some x1 =>
  .ok (.lds (Fin.ofNat 32 (fld w 25 21)) (Fin.ofNat 32 (fld w 20 16)) (BitVec.ofNat 10 (fld w 15 6)) x0 x1)

/-- ST: opcode 3 of the mem slot (R111). -/
def decodeMem3 (w : Nat) : Except DecodeError Instr :=
  match Order.ofCode (fld w 3 2) (fld w 5 4) with
  | none => .error .noSuchCode
  | some x0 =>
  match Size.ofCode (fld w 1 0) with
  | none => .error .noSuchCode
  | some x1 =>
  .ok (.st (Fin.ofNat 32 (fld w 25 21)) (Fin.ofNat 32 (fld w 20 16)) (BitVec.ofNat 10 (fld w 15 6)) x0 x1)

/-- LDV: opcode 4 of the mem slot (R112). -/
def decodeMem4 (w : Nat) : Except DecodeError Instr :=
  if fld w 1 0 = 0 then
    match Order.ofCode (fld w 3 2) (fld w 5 4) with
    | none => .error .noSuchCode
    | some x0 =>
    .ok (.ldv (Fin.ofNat 32 (fld w 25 21)) (Fin.ofNat 32 (fld w 20 16)) (BitVec.ofNat 10 (fld w 15 6)) x0)
  else .error .reservedField

/-- STV: opcode 5 of the mem slot (R112). -/
def decodeMem5 (w : Nat) : Except DecodeError Instr :=
  if fld w 1 0 = 0 then
    match Order.ofCode (fld w 3 2) (fld w 5 4) with
    | none => .error .noSuchCode
    | some x0 =>
    .ok (.stv (Fin.ofNat 32 (fld w 25 21)) (Fin.ofNat 32 (fld w 20 16)) (BitVec.ofNat 10 (fld w 15 6)) x0)
  else .error .reservedField

/-- LDX: opcode 6 of the mem slot (R113). -/
def decodeMem6 (w : Nat) : Except DecodeError Instr :=
  if fld w 1 0 = 0 then
    match Order.ofCode (fld w 3 2) (fld w 5 4) with
    | none => .error .noSuchCode
    | some x0 =>
    .ok (.ldx (Fin.ofNat 32 (fld w 25 21)) (Fin.ofNat 32 (fld w 20 16)) (BitVec.ofNat 10 (fld w 15 6)) x0)
  else .error .reservedField

/-- STPK: opcode 7 of the mem slot (R114). -/
def decodeMem7 (w : Nat) : Except DecodeError Instr :=
  match Order.ofCode (fld w 3 2) (fld w 5 4) with
  | none => .error .noSuchCode
  | some x0 =>
  match ScaleMode.ofCode (fld w 1 0) with
  | none => .error .noSuchCode
  | some x1 =>
  .ok (.stpk (Fin.ofNat 32 (fld w 25 21)) (Fin.ofNat 32 (fld w 20 16)) (BitVec.ofNat 10 (fld w 15 6)) x0 x1)

/-- LDT: opcode 8 of the mem slot (R115). -/
def decodeMem8 (w : Nat) : Except DecodeError Instr :=
  if fld w 1 0 = 0 then
    match Order.ofCode (fld w 3 2) (fld w 5 4) with
    | none => .error .noSuchCode
    | some x0 =>
    .ok (.ldt (Fin.ofNat 32 (fld w 25 21)) (Fin.ofNat 32 (fld w 20 16)) (BitVec.ofNat 10 (fld w 15 6)) x0)
  else .error .reservedField

/-- STT: opcode 9 of the mem slot (R115). -/
def decodeMem9 (w : Nat) : Except DecodeError Instr :=
  if fld w 1 0 = 0 then
    match Order.ofCode (fld w 3 2) (fld w 5 4) with
    | none => .error .noSuchCode
    | some x0 =>
    .ok (.stt (Fin.ofNat 32 (fld w 25 21)) (Fin.ofNat 32 (fld w 20 16)) (BitVec.ofNat 10 (fld w 15 6)) x0)
  else .error .reservedField

/-- LDG: opcode 10 of the mem slot (R116). -/
def decodeMem10 (w : Nat) : Except DecodeError Instr :=
  if fld w 10 1 = 0 then
    .ok (.ldg (Fin.ofNat 32 (fld w 25 21)) (Fin.ofNat 32 (fld w 20 16)) (Fin.ofNat 32 (fld w 15 11)) (bit w 0))
  else .error .reservedField

/-- FENCE, FENCE_REL, FENCE_ACQ, FENCE_MEM, FENCE_UO: opcode 11 of the mem slot (R117). -/
def decodeMem11 (w : Nat) : Except DecodeError Instr :=
  if fld w 20 0 = 0 ∧ fld w 25 23 = 0 then
    match Scope.ofCode (fld w 22 21) with
    | none => .error .noSuchCode
    | some x0 =>
    .ok (.fence x0)
  else if fld w 20 0 = 0 ∧ fld w 25 23 = 1 then
    match Scope.ofCode (fld w 22 21) with
    | none => .error .noSuchCode
    | some x0 =>
    .ok (.fenceRel x0)
  else if fld w 20 0 = 0 ∧ fld w 25 23 = 2 then
    match Scope.ofCode (fld w 22 21) with
    | none => .error .noSuchCode
    | some x0 =>
    .ok (.fenceAcq x0)
  else if fld w 25 0 = 25165824 then
    .ok (.fenceMem)
  else if fld w 25 0 = 33554432 then
    .ok (.fenceUo)
  else .error .noSuchCode

/-- PREF_RC, PREF_MD: opcode 12 of the mem slot (R118). -/
def decodeMem12 (w : Nat) : Except DecodeError Instr :=
  if fld w 5 0 = 0 ∧ fld w 25 21 = 0 then
    .ok (.prefRc (Fin.ofNat 32 (fld w 20 16)) (BitVec.ofNat 10 (fld w 15 6)))
  else if fld w 5 0 = 0 ∧ fld w 25 21 = 1 then
    .ok (.prefMd (Fin.ofNat 32 (fld w 20 16)) (BitVec.ofNat 10 (fld w 15 6)))
  else .error .noSuchCode

/-- Words of the mem slot (spec/02 R35, R36). -/
def decodeMem (w : Nat) : Except DecodeError Instr :=
  match fld w 31 26 with
  | 0 => if w = 0 then .ok (.nopMem) else .error .reservedField
  | 1 => decodeMem1 w
  | 2 => decodeMem2 w
  | 3 => decodeMem3 w
  | 4 => decodeMem4 w
  | 5 => decodeMem5 w
  | 6 => decodeMem6 w
  | 7 => decodeMem7 w
  | 8 => decodeMem8 w
  | 9 => decodeMem9 w
  | 10 => decodeMem10 w
  | 11 => decodeMem11 w
  | 12 => decodeMem12 w
  | _ => .error .noSuchOpcode

/-- VADD: opcode 1 of the vec slot (R162). -/
def decodeVec1 (un : VUnit) (w : Nat) : Except DecodeError Instr :=
  match VDst.ofCode (fld w 25 20) with
  | none => .error .noSuchCode
  | some x0 =>
  match VSrc.ofCode (fld w 19 14) (bit w 7) with
  | none => .error .noSuchCode
  | some x1 =>
  match VSrc.ofCode (fld w 13 8) (bit w 6) with
  | none => .error .noSuchCode
  | some x2 =>
  match VType.ofCode (fld w 5 3) with
  | none => .error .noSuchCode
  | some x3 =>
  .ok (.vadd un x0 x1 x2 x3 (Fin.ofNat 8 (fld w 2 0)))

/-- VSUB: opcode 2 of the vec slot (R162). -/
def decodeVec2 (un : VUnit) (w : Nat) : Except DecodeError Instr :=
  match VDst.ofCode (fld w 25 20) with
  | none => .error .noSuchCode
  | some x0 =>
  match VSrc.ofCode (fld w 19 14) (bit w 7) with
  | none => .error .noSuchCode
  | some x1 =>
  match VSrc.ofCode (fld w 13 8) (bit w 6) with
  | none => .error .noSuchCode
  | some x2 =>
  match VType.ofCode (fld w 5 3) with
  | none => .error .noSuchCode
  | some x3 =>
  .ok (.vsub un x0 x1 x2 x3 (Fin.ofNat 8 (fld w 2 0)))

/-- VMUL: opcode 3 of the vec slot (R162). -/
def decodeVec3 (un : VUnit) (w : Nat) : Except DecodeError Instr :=
  match VDst.ofCode (fld w 25 20) with
  | none => .error .noSuchCode
  | some x0 =>
  match VSrc.ofCode (fld w 19 14) (bit w 7) with
  | none => .error .noSuchCode
  | some x1 =>
  match VSrc.ofCode (fld w 13 8) (bit w 6) with
  | none => .error .noSuchCode
  | some x2 =>
  match VType.ofCode (fld w 5 3) with
  | none => .error .noSuchCode
  | some x3 =>
  .ok (.vmul un x0 x1 x2 x3 (Fin.ofNat 8 (fld w 2 0)))

/-- VMULH: opcode 4 of the vec slot (R162). -/
def decodeVec4 (un : VUnit) (w : Nat) : Except DecodeError Instr :=
  match VDst.ofCode (fld w 25 20) with
  | none => .error .noSuchCode
  | some x0 =>
  match VSrc.ofCode (fld w 19 14) (bit w 7) with
  | none => .error .noSuchCode
  | some x1 =>
  match VSrc.ofCode (fld w 13 8) (bit w 6) with
  | none => .error .noSuchCode
  | some x2 =>
  match VType.ofCode (fld w 5 3) with
  | none => .error .noSuchCode
  | some x3 =>
  .ok (.vmulh un x0 x1 x2 x3 (Fin.ofNat 8 (fld w 2 0)))

/-- VFMA: opcode 5 of the vec slot (R164). -/
def decodeVec5 (un : VUnit) (w : Nat) : Except DecodeError Instr :=
  match VSrc.ofCode (fld w 25 20) false with
  | none => .error .noSuchCode
  | some x0 =>
  match VSrc.ofCode (fld w 19 14) (bit w 7) with
  | none => .error .noSuchCode
  | some x1 =>
  match VSrc.ofCode (fld w 13 8) (bit w 6) with
  | none => .error .noSuchCode
  | some x2 =>
  match VType.ofCode (fld w 5 3) with
  | none => .error .noSuchCode
  | some x3 =>
  .ok (.vfma un x0 x1 x2 x3 (Fin.ofNat 8 (fld w 2 0)))

/-- VMIN: opcode 6 of the vec slot (R162). -/
def decodeVec6 (un : VUnit) (w : Nat) : Except DecodeError Instr :=
  match VDst.ofCode (fld w 25 20) with
  | none => .error .noSuchCode
  | some x0 =>
  match VSrc.ofCode (fld w 19 14) (bit w 7) with
  | none => .error .noSuchCode
  | some x1 =>
  match VSrc.ofCode (fld w 13 8) (bit w 6) with
  | none => .error .noSuchCode
  | some x2 =>
  match VType.ofCode (fld w 5 3) with
  | none => .error .noSuchCode
  | some x3 =>
  .ok (.vmin un x0 x1 x2 x3 (Fin.ofNat 8 (fld w 2 0)))

/-- VMAX: opcode 7 of the vec slot (R162). -/
def decodeVec7 (un : VUnit) (w : Nat) : Except DecodeError Instr :=
  match VDst.ofCode (fld w 25 20) with
  | none => .error .noSuchCode
  | some x0 =>
  match VSrc.ofCode (fld w 19 14) (bit w 7) with
  | none => .error .noSuchCode
  | some x1 =>
  match VSrc.ofCode (fld w 13 8) (bit w 6) with
  | none => .error .noSuchCode
  | some x2 =>
  match VType.ofCode (fld w 5 3) with
  | none => .error .noSuchCode
  | some x3 =>
  .ok (.vmax un x0 x1 x2 x3 (Fin.ofNat 8 (fld w 2 0)))

/-- VABS: opcode 8 of the vec slot (R162). -/
def decodeVec8 (un : VUnit) (w : Nat) : Except DecodeError Instr :=
  if fld w 6 6 = 0 ∧ fld w 13 8 = 0 then
    match VDst.ofCode (fld w 25 20) with
    | none => .error .noSuchCode
    | some x0 =>
    match VSrc.ofCode (fld w 19 14) (bit w 7) with
    | none => .error .noSuchCode
    | some x1 =>
    match VType.ofCode (fld w 5 3) with
    | none => .error .noSuchCode
    | some x2 =>
    .ok (.vabs un x0 x1 x2 (Fin.ofNat 8 (fld w 2 0)))
  else .error .reservedField

/-- VNEG: opcode 9 of the vec slot (R162). -/
def decodeVec9 (un : VUnit) (w : Nat) : Except DecodeError Instr :=
  if fld w 6 6 = 0 ∧ fld w 13 8 = 0 then
    match VDst.ofCode (fld w 25 20) with
    | none => .error .noSuchCode
    | some x0 =>
    match VSrc.ofCode (fld w 19 14) (bit w 7) with
    | none => .error .noSuchCode
    | some x1 =>
    match VType.ofCode (fld w 5 3) with
    | none => .error .noSuchCode
    | some x2 =>
    .ok (.vneg un x0 x1 x2 (Fin.ofNat 8 (fld w 2 0)))
  else .error .reservedField

/-- VAND: opcode 10 of the vec slot (R162). -/
def decodeVec10 (un : VUnit) (w : Nat) : Except DecodeError Instr :=
  if fld w 5 3 = 0 then
    match VDst.ofCode (fld w 25 20) with
    | none => .error .noSuchCode
    | some x0 =>
    match VSrc.ofCode (fld w 19 14) (bit w 7) with
    | none => .error .noSuchCode
    | some x1 =>
    match VSrc.ofCode (fld w 13 8) (bit w 6) with
    | none => .error .noSuchCode
    | some x2 =>
    .ok (.vand un x0 x1 x2 (Fin.ofNat 8 (fld w 2 0)))
  else .error .reservedField

/-- VOR: opcode 11 of the vec slot (R162). -/
def decodeVec11 (un : VUnit) (w : Nat) : Except DecodeError Instr :=
  if fld w 5 3 = 0 then
    match VDst.ofCode (fld w 25 20) with
    | none => .error .noSuchCode
    | some x0 =>
    match VSrc.ofCode (fld w 19 14) (bit w 7) with
    | none => .error .noSuchCode
    | some x1 =>
    match VSrc.ofCode (fld w 13 8) (bit w 6) with
    | none => .error .noSuchCode
    | some x2 =>
    .ok (.vor un x0 x1 x2 (Fin.ofNat 8 (fld w 2 0)))
  else .error .reservedField

/-- VXOR: opcode 12 of the vec slot (R162). -/
def decodeVec12 (un : VUnit) (w : Nat) : Except DecodeError Instr :=
  if fld w 5 3 = 0 then
    match VDst.ofCode (fld w 25 20) with
    | none => .error .noSuchCode
    | some x0 =>
    match VSrc.ofCode (fld w 19 14) (bit w 7) with
    | none => .error .noSuchCode
    | some x1 =>
    match VSrc.ofCode (fld w 13 8) (bit w 6) with
    | none => .error .noSuchCode
    | some x2 =>
    .ok (.vxor un x0 x1 x2 (Fin.ofNat 8 (fld w 2 0)))
  else .error .reservedField

/-- VANDN: opcode 13 of the vec slot (R162). -/
def decodeVec13 (un : VUnit) (w : Nat) : Except DecodeError Instr :=
  if fld w 5 3 = 0 then
    match VDst.ofCode (fld w 25 20) with
    | none => .error .noSuchCode
    | some x0 =>
    match VSrc.ofCode (fld w 19 14) (bit w 7) with
    | none => .error .noSuchCode
    | some x1 =>
    match VSrc.ofCode (fld w 13 8) (bit w 6) with
    | none => .error .noSuchCode
    | some x2 =>
    .ok (.vandn un x0 x1 x2 (Fin.ofNat 8 (fld w 2 0)))
  else .error .reservedField

/-- VSHL: opcode 14 of the vec slot (R162). -/
def decodeVec14 (un : VUnit) (w : Nat) : Except DecodeError Instr :=
  match VDst.ofCode (fld w 25 20) with
  | none => .error .noSuchCode
  | some x0 =>
  match VSrc.ofCode (fld w 19 14) (bit w 7) with
  | none => .error .noSuchCode
  | some x1 =>
  match VSrc.ofCode (fld w 13 8) (bit w 6) with
  | none => .error .noSuchCode
  | some x2 =>
  match VType.ofCode (fld w 5 3) with
  | none => .error .noSuchCode
  | some x3 =>
  .ok (.vshl un x0 x1 x2 x3 (Fin.ofNat 8 (fld w 2 0)))

/-- VSHR: opcode 15 of the vec slot (R162). -/
def decodeVec15 (un : VUnit) (w : Nat) : Except DecodeError Instr :=
  match VDst.ofCode (fld w 25 20) with
  | none => .error .noSuchCode
  | some x0 =>
  match VSrc.ofCode (fld w 19 14) (bit w 7) with
  | none => .error .noSuchCode
  | some x1 =>
  match VSrc.ofCode (fld w 13 8) (bit w 6) with
  | none => .error .noSuchCode
  | some x2 =>
  match VType.ofCode (fld w 5 3) with
  | none => .error .noSuchCode
  | some x3 =>
  .ok (.vshr un x0 x1 x2 x3 (Fin.ofNat 8 (fld w 2 0)))

/-- VCMP: opcode 16 of the vec slot (R165). -/
def decodeVec16 (un : VUnit) (w : Nat) : Except DecodeError Instr :=
  match VCond.ofCode (fld w 25 23) with
  | none => .error .noSuchCode
  | some x0 =>
  match VSrc.ofCode (fld w 19 14) (bit w 7) with
  | none => .error .noSuchCode
  | some x1 =>
  match VSrc.ofCode (fld w 13 8) (bit w 6) with
  | none => .error .noSuchCode
  | some x2 =>
  match VType.ofCode (fld w 5 3) with
  | none => .error .noSuchCode
  | some x3 =>
  .ok (.vcmp un x0 (Fin.ofNat 8 (fld w 22 20)) x1 x2 x3 (Fin.ofNat 8 (fld w 2 0)))

/-- VSEL: opcode 17 of the vec slot (R167). -/
def decodeVec17 (un : VUnit) (w : Nat) : Except DecodeError Instr :=
  if fld w 5 3 = 0 then
    match VDst.ofCode (fld w 25 20) with
    | none => .error .noSuchCode
    | some x0 =>
    match VSrc.ofCode (fld w 19 14) (bit w 7) with
    | none => .error .noSuchCode
    | some x1 =>
    match VSrc.ofCode (fld w 13 8) (bit w 6) with
    | none => .error .noSuchCode
    | some x2 =>
    .ok (.vsel un x0 x1 x2 (Fin.ofNat 8 (fld w 2 0)))
  else .error .reservedField

/-- VMOV: opcode 18 of the vec slot (R167). -/
def decodeVec18 (un : VUnit) (w : Nat) : Except DecodeError Instr :=
  if fld w 6 0 = 0 ∧ fld w 13 8 = 0 then
    match VDst.ofCode (fld w 25 20) with
    | none => .error .noSuchCode
    | some x0 =>
    match VSrc.ofCode (fld w 19 14) (bit w 7) with
    | none => .error .noSuchCode
    | some x1 =>
    .ok (.vmov un x0 x1)
  else .error .reservedField

/-- VCVT: opcode 19 of the vec slot (R168). -/
def decodeVec19 (un : VUnit) (w : Nat) : Except DecodeError Instr :=
  if fld w 6 6 = 0 ∧ fld w 11 11 = 0 then
    match VDst.ofCode (fld w 25 20) with
    | none => .error .noSuchCode
    | some x0 =>
    match VSrc.ofCode (fld w 19 14) (bit w 7) with
    | none => .error .noSuchCode
    | some x1 =>
    match VType.ofCode (fld w 10 8) with
    | none => .error .noSuchCode
    | some x2 =>
    match VType.ofCode (fld w 5 3) with
    | none => .error .noSuchCode
    | some x3 =>
    .ok (.vcvt un x0 x1 (BitVec.ofNat 2 (fld w 13 12)) x2 x3 (Fin.ofNat 8 (fld w 2 0)))
  else .error .reservedField

/-- VSCALE: opcode 20 of the vec slot (R170). -/
def decodeVec20 (un : VUnit) (w : Nat) : Except DecodeError Instr :=
  if fld w 5 3 = 1 then
    match VDst.ofCode (fld w 25 20) with
    | none => .error .noSuchCode
    | some x0 =>
    match VSrc.ofCode (fld w 19 14) (bit w 7) with
    | none => .error .noSuchCode
    | some x1 =>
    match VSrc.ofCode (fld w 13 8) (bit w 6) with
    | none => .error .noSuchCode
    | some x2 =>
    .ok (.vscale un x0 x1 x2 (Fin.ofNat 8 (fld w 2 0)))
  else .error .reservedField

/-- VQNT: opcode 21 of the vec slot (R171). -/
def decodeVec21 (un : VUnit) (w : Nat) : Except DecodeError Instr :=
  if fld w 5 3 = 1 then
    match VDst.ofCode (fld w 25 20) with
    | none => .error .noSuchCode
    | some x0 =>
    match VSrc.ofCode (fld w 19 14) (bit w 7) with
    | none => .error .noSuchCode
    | some x1 =>
    match VSrc.ofCode (fld w 13 8) (bit w 6) with
    | none => .error .noSuchCode
    | some x2 =>
    .ok (.vqnt un x0 x1 x2 (Fin.ofNat 8 (fld w 2 0)))
  else .error .reservedField

/-- VUNPK: opcode 22 of the vec slot (R172). -/
def decodeVec22 (un : VUnit) (w : Nat) : Except DecodeError Instr :=
  if fld w 5 0 = 8 then
    match VDst.ofCode (fld w 25 20) with
    | none => .error .noSuchCode
    | some x0 =>
    match VSrc.ofCode (fld w 19 14) (bit w 7) with
    | none => .error .noSuchCode
    | some x1 =>
    match VSrc.ofCode (fld w 13 8) (bit w 6) with
    | none => .error .noSuchCode
    | some x2 =>
    .ok (.vunpk un x0 x1 x2)
  else .error .reservedField

/-- VMASK_AND, VMASK_OR, VMASK_XOR, VMASK_ANDN, VMASK_NOT, VMASK_NZ, VMASK_CNT: opcode 23 of the vec slot (R166). -/
def decodeVec23 (un : VUnit) (w : Nat) : Except DecodeError Instr :=
  if fld w 7 0 = 0 ∧ fld w 13 11 = 0 ∧ fld w 19 17 = 0 ∧ fld w 25 23 = 0 then
    .ok (.vmaskAnd un (Fin.ofNat 8 (fld w 22 20)) (Fin.ofNat 8 (fld w 16 14)) (Fin.ofNat 8 (fld w 10 8)))
  else if fld w 7 0 = 8 ∧ fld w 13 11 = 0 ∧ fld w 19 17 = 0 ∧ fld w 25 23 = 0 then
    .ok (.vmaskOr un (Fin.ofNat 8 (fld w 22 20)) (Fin.ofNat 8 (fld w 16 14)) (Fin.ofNat 8 (fld w 10 8)))
  else if fld w 7 0 = 16 ∧ fld w 13 11 = 0 ∧ fld w 19 17 = 0 ∧ fld w 25 23 = 0 then
    .ok (.vmaskXor un (Fin.ofNat 8 (fld w 22 20)) (Fin.ofNat 8 (fld w 16 14)) (Fin.ofNat 8 (fld w 10 8)))
  else if fld w 7 0 = 24 ∧ fld w 13 11 = 0 ∧ fld w 19 17 = 0 ∧ fld w 25 23 = 0 then
    .ok (.vmaskAndn un (Fin.ofNat 8 (fld w 22 20)) (Fin.ofNat 8 (fld w 16 14)) (Fin.ofNat 8 (fld w 10 8)))
  else if fld w 13 0 = 32 ∧ fld w 19 17 = 0 ∧ fld w 25 23 = 0 then
    .ok (.vmaskNot un (Fin.ofNat 8 (fld w 22 20)) (Fin.ofNat 8 (fld w 16 14)))
  else if fld w 6 0 = 40 ∧ fld w 13 8 = 0 ∧ fld w 25 23 = 0 then
    match VSrc.ofCode (fld w 19 14) (bit w 7) with
    | none => .error .noSuchCode
    | some x0 =>
    .ok (.vmaskNz un (Fin.ofNat 8 (fld w 22 20)) x0)
  else if fld w 6 0 = 48 ∧ fld w 13 8 = 0 ∧ fld w 25 23 = 0 then
    match VSrc.ofCode (fld w 19 14) (bit w 7) with
    | none => .error .noSuchCode
    | some x0 =>
    .ok (.vmaskCnt un (Fin.ofNat 8 (fld w 22 20)) x0)
  else .error .noSuchCode

/-- VCHK: opcode 24 of the vec slot (R177). -/
def decodeVec24 (un : VUnit) (w : Nat) : Except DecodeError Instr :=
  if fld w 5 3 = 0 ∧ fld w 25 20 = 0 then
    match VSrc.ofCode (fld w 19 14) (bit w 7) with
    | none => .error .noSuchCode
    | some x0 =>
    match VSrc.ofCode (fld w 13 8) (bit w 6) with
    | none => .error .noSuchCode
    | some x1 =>
    .ok (.vchk un x0 x1 (Fin.ofNat 8 (fld w 2 0)))
  else .error .reservedField

/-- VPERM: opcode 32 of the vec slot (R173). -/
def decodeVec32 (un : VUnit) (w : Nat) : Except DecodeError Instr :=
  if fld w 5 3 = 0 then
    match VDst.ofCode (fld w 25 20) with
    | none => .error .noSuchCode
    | some x0 =>
    match VSrc.ofCode (fld w 19 14) (bit w 7) with
    | none => .error .noSuchCode
    | some x1 =>
    match VSrc.ofCode (fld w 13 8) (bit w 6) with
    | none => .error .noSuchCode
    | some x2 =>
    .ok (.vperm x0 x1 x2 (Fin.ofNat 8 (fld w 2 0)))
  else .error .reservedField

/-- VROT: opcode 33 of the vec slot (R173). -/
def decodeVec33 (un : VUnit) (w : Nat) : Except DecodeError Instr :=
  if fld w 5 3 = 0 then
    match VDst.ofCode (fld w 25 20) with
    | none => .error .noSuchCode
    | some x0 =>
    match VSrc.ofCode (fld w 19 14) (bit w 7) with
    | none => .error .noSuchCode
    | some x1 =>
    match VSrc.ofCode (fld w 13 8) (bit w 6) with
    | none => .error .noSuchCode
    | some x2 =>
    .ok (.vrot x0 x1 x2 (Fin.ofNat 8 (fld w 2 0)))
  else .error .reservedField

/-- VRSUM: opcode 34 of the vec slot (R174). -/
def decodeVec34 (un : VUnit) (w : Nat) : Except DecodeError Instr :=
  if fld w 6 6 = 0 ∧ fld w 13 8 = 0 then
    match VDst.ofCode (fld w 25 20) with
    | none => .error .noSuchCode
    | some x0 =>
    match VSrc.ofCode (fld w 19 14) (bit w 7) with
    | none => .error .noSuchCode
    | some x1 =>
    match VType.ofCode (fld w 5 3) with
    | none => .error .noSuchCode
    | some x2 =>
    .ok (.vrsum x0 x1 x2 (Fin.ofNat 8 (fld w 2 0)))
  else .error .reservedField

/-- VRMAX: opcode 35 of the vec slot (R174). -/
def decodeVec35 (un : VUnit) (w : Nat) : Except DecodeError Instr :=
  if fld w 6 6 = 0 ∧ fld w 13 8 = 0 then
    match VDst.ofCode (fld w 25 20) with
    | none => .error .noSuchCode
    | some x0 =>
    match VSrc.ofCode (fld w 19 14) (bit w 7) with
    | none => .error .noSuchCode
    | some x1 =>
    match VType.ofCode (fld w 5 3) with
    | none => .error .noSuchCode
    | some x2 =>
    .ok (.vrmax x0 x1 x2 (Fin.ofNat 8 (fld w 2 0)))
  else .error .reservedField

/-- VSCAN: opcode 36 of the vec slot (R174). -/
def decodeVec36 (un : VUnit) (w : Nat) : Except DecodeError Instr :=
  if fld w 6 6 = 0 ∧ fld w 13 8 = 0 then
    match VDst.ofCode (fld w 25 20) with
    | none => .error .noSuchCode
    | some x0 =>
    match VSrc.ofCode (fld w 19 14) (bit w 7) with
    | none => .error .noSuchCode
    | some x1 =>
    match VType.ofCode (fld w 5 3) with
    | none => .error .noSuchCode
    | some x2 =>
    .ok (.vscan x0 x1 x2 (Fin.ofNat 8 (fld w 2 0)))
  else .error .reservedField

/-- VEXP2: opcode 40 of the vec slot (R175). -/
def decodeVec40 (un : VUnit) (w : Nat) : Except DecodeError Instr :=
  if fld w 6 3 = 1 ∧ fld w 13 8 = 0 then
    match VDst.ofCode (fld w 25 20) with
    | none => .error .noSuchCode
    | some x0 =>
    match VSrc.ofCode (fld w 19 14) (bit w 7) with
    | none => .error .noSuchCode
    | some x1 =>
    .ok (.vexp2 x0 x1 (Fin.ofNat 8 (fld w 2 0)))
  else .error .reservedField

/-- VLOG2: opcode 41 of the vec slot (R175). -/
def decodeVec41 (un : VUnit) (w : Nat) : Except DecodeError Instr :=
  if fld w 6 3 = 1 ∧ fld w 13 8 = 0 then
    match VDst.ofCode (fld w 25 20) with
    | none => .error .noSuchCode
    | some x0 =>
    match VSrc.ofCode (fld w 19 14) (bit w 7) with
    | none => .error .noSuchCode
    | some x1 =>
    .ok (.vlog2 x0 x1 (Fin.ofNat 8 (fld w 2 0)))
  else .error .reservedField

/-- VRCP: opcode 42 of the vec slot (R175). -/
def decodeVec42 (un : VUnit) (w : Nat) : Except DecodeError Instr :=
  if fld w 6 3 = 1 ∧ fld w 13 8 = 0 then
    match VDst.ofCode (fld w 25 20) with
    | none => .error .noSuchCode
    | some x0 =>
    match VSrc.ofCode (fld w 19 14) (bit w 7) with
    | none => .error .noSuchCode
    | some x1 =>
    .ok (.vrcp x0 x1 (Fin.ofNat 8 (fld w 2 0)))
  else .error .reservedField

/-- VRSQ: opcode 43 of the vec slot (R175). -/
def decodeVec43 (un : VUnit) (w : Nat) : Except DecodeError Instr :=
  if fld w 6 3 = 1 ∧ fld w 13 8 = 0 then
    match VDst.ofCode (fld w 25 20) with
    | none => .error .noSuchCode
    | some x0 =>
    match VSrc.ofCode (fld w 19 14) (bit w 7) with
    | none => .error .noSuchCode
    | some x1 =>
    .ok (.vrsq x0 x1 (Fin.ofNat 8 (fld w 2 0)))
  else .error .reservedField

/-- Words of the vec slot pair (spec/02 R35, R36). -/
def decodeVec (un : VUnit) (w : Nat) : Except DecodeError Instr :=
  match fld w 31 26 with
  | 0 => if w = 0 then .ok (.nopVec un) else .error .reservedField
  | 1 => decodeVec1 un w
  | 2 => decodeVec2 un w
  | 3 => decodeVec3 un w
  | 4 => decodeVec4 un w
  | 5 => decodeVec5 un w
  | 6 => decodeVec6 un w
  | 7 => decodeVec7 un w
  | 8 => decodeVec8 un w
  | 9 => decodeVec9 un w
  | 10 => decodeVec10 un w
  | 11 => decodeVec11 un w
  | 12 => decodeVec12 un w
  | 13 => decodeVec13 un w
  | 14 => decodeVec14 un w
  | 15 => decodeVec15 un w
  | 16 => decodeVec16 un w
  | 17 => decodeVec17 un w
  | 18 => decodeVec18 un w
  | 19 => decodeVec19 un w
  | 20 => decodeVec20 un w
  | 21 => decodeVec21 un w
  | 22 => decodeVec22 un w
  | 23 => decodeVec23 un w
  | 24 => decodeVec24 un w
  | 32 => if un = .va then decodeVec32 un w else .error .noSuchOpcode
  | 33 => if un = .va then decodeVec33 un w else .error .noSuchOpcode
  | 34 => if un = .va then decodeVec34 un w else .error .noSuchOpcode
  | 35 => if un = .va then decodeVec35 un w else .error .noSuchOpcode
  | 36 => if un = .va then decodeVec36 un w else .error .noSuchOpcode
  | 40 => if un = .vb then decodeVec40 un w else .error .noSuchOpcode
  | 41 => if un = .vb then decodeVec41 un w else .error .noSuchOpcode
  | 42 => if un = .vb then decodeVec42 un w else .error .noSuchOpcode
  | 43 => if un = .vb then decodeVec43 un w else .error .noSuchOpcode
  | _ => .error .noSuchOpcode

/-- MSETP: opcode 1 of the mx slot (R182). -/
def decodeMx1 (w : Nat) : Except DecodeError Instr :=
  if fld w 17 0 = 0 then
    .ok (.msetp (Fin.ofNat 8 (fld w 25 23)) (Fin.ofNat 32 (fld w 22 18)))
  else .error .reservedField

/-- MSETPI: opcode 2 of the mx slot (R182). -/
def decodeMx2 (w : Nat) : Except DecodeError Instr :=
  .ok (.msetpi (Fin.ofNat 8 (fld w 25 23)) (BitVec.ofNat 23 (fld w 22 0)))

/-- MCALL: opcode 3 of the mx slot (R183). -/
def decodeMx3 (w : Nat) : Except DecodeError Instr :=
  if fld w 13 0 = 0 then
    .ok (.mcall (bit w 25) (bit w 24) (Fin.ofNat 4 (fld w 23 22)) (BitVec.ofNat 8 (fld w 21 14)))
  else .error .reservedField

/-- MZERO: opcode 4 of the mx slot (R193). -/
def decodeMx4 (w : Nat) : Except DecodeError Instr :=
  if fld w 23 0 = 0 then
    .ok (.mzero (Fin.ofNat 4 (fld w 25 24)))
  else .error .reservedField

/-- MDRAIN: opcode 5 of the mx slot (R194). -/
def decodeMx5 (w : Nat) : Except DecodeError Instr :=
  if fld w 8 5 = 0 then
    match DrainMode.ofCode (fld w 2 1) with
    | none => .error .noSuchCode
    | some x0 =>
    .ok (.mdrain (Fin.ofNat 4 (fld w 25 24)) (Fin.ofNat 32 (fld w 23 19)) (Fin.ofNat 32 (fld w 18 14)) (Fin.ofNat 32 (fld w 13 9)) (bit w 4) (bit w 3) x0 (bit w 0))
  else .error .reservedField

/-- MSEAL: opcode 6 of the mx slot (R196). -/
def decodeMx6 (w : Nat) : Except DecodeError Instr :=
  if fld w 23 0 = 0 then
    .ok (.mseal (Fin.ofNat 4 (fld w 25 24)))
  else .error .reservedField

/-- MSTAT: opcode 7 of the mx slot (R198). -/
def decodeMx7 (w : Nat) : Except DecodeError Instr :=
  if fld w 18 0 = 0 ∧ fld w 25 24 = 0 then
    .ok (.mstat (Fin.ofNat 32 (fld w 23 19)))
  else .error .reservedField

/-- MLDUC, MLDUC_ENT: opcode 8 of the mx slot (R192). -/
def decodeMx8 (w : Nat) : Except DecodeError Instr :=
  if fld w 8 0 = 0 ∧ fld w 25 19 = 0 then
    .ok (.mlduc (Fin.ofNat 32 (fld w 18 14)) (Fin.ofNat 32 (fld w 13 9)))
  else if fld w 8 0 = 1 ∧ fld w 25 19 = 0 then
    .ok (.mlducEnt (Fin.ofNat 32 (fld w 18 14)) (Fin.ofNat 32 (fld w 13 9)))
  else .error .noSuchCode

/-- MACCRD, MACCRD_ROW: opcode 9 of the mx slot (R197). -/
def decodeMx9 (w : Nat) : Except DecodeError Instr :=
  if fld w 13 0 = 0 then
    .ok (.maccrd (Fin.ofNat 4 (fld w 25 24)) (Fin.ofNat 32 (fld w 23 19)) (Fin.ofNat 32 (fld w 18 14)))
  else if fld w 8 0 = 1 ∧ fld w 23 19 = 0 then
    .ok (.maccrdRow (Fin.ofNat 4 (fld w 25 24)) (Fin.ofNat 32 (fld w 18 14)) (Fin.ofNat 32 (fld w 13 9)))
  else .error .noSuchCode

/-- MACCWR, MACCWR_ROW: opcode 10 of the mx slot (R197). -/
def decodeMx10 (w : Nat) : Except DecodeError Instr :=
  if fld w 8 0 = 0 ∧ fld w 23 19 = 0 then
    .ok (.maccwr (Fin.ofNat 4 (fld w 25 24)) (Fin.ofNat 32 (fld w 18 14)) (Fin.ofNat 32 (fld w 13 9)))
  else if fld w 8 0 = 1 ∧ fld w 23 19 = 0 then
    .ok (.maccwrRow (Fin.ofNat 4 (fld w 25 24)) (Fin.ofNat 32 (fld w 18 14)) (Fin.ofNat 32 (fld w 13 9)))
  else .error .noSuchCode

/-- MWAIT: opcode 11 of the mx slot (R199). -/
def decodeMx11 (w : Nat) : Except DecodeError Instr :=
  if fld w 18 2 = 0 ∧ fld w 25 24 = 0 then
    match MWaitCond.ofCode (fld w 1 0) with
    | none => .error .noSuchCode
    | some x0 =>
    .ok (.mwait (Fin.ofNat 32 (fld w 23 19)) x0)
  else .error .reservedField

/-- Words of the mx slot (spec/02 R35, R36). -/
def decodeMx (w : Nat) : Except DecodeError Instr :=
  match fld w 31 26 with
  | 0 => if w = 0 then .ok (.nopMx) else .error .reservedField
  | 1 => decodeMx1 w
  | 2 => decodeMx2 w
  | 3 => decodeMx3 w
  | 4 => decodeMx4 w
  | 5 => decodeMx5 w
  | 6 => decodeMx6 w
  | 7 => decodeMx7 w
  | 8 => decodeMx8 w
  | 9 => decodeMx9 w
  | 10 => decodeMx10 w
  | 11 => decodeMx11 w
  | _ => .error .noSuchOpcode

/-- CPY: opcode 1 of the copy slot (R224). -/
def decodeCopy1 (q : CopyQ) (w : Nat) : Except DecodeError Instr :=
  if fld w 5 0 = 0 then
    .ok (.cpy q (Fin.ofNat 32 (fld w 25 21)) (Fin.ofNat 32 (fld w 20 16)) (Fin.ofNat 32 (fld w 15 11)) (Fin.ofNat 32 (fld w 10 6)))
  else .error .reservedField

/-- CPY2: opcode 2 of the copy slot (R224). -/
def decodeCopy2 (q : CopyQ) (w : Nat) : Except DecodeError Instr :=
  if fld w 5 0 = 0 then
    .ok (.cpy2 q (Fin.ofNat 32 (fld w 25 21)) (Fin.ofNat 32 (fld w 20 16)) (Fin.ofNat 32 (fld w 15 11)) (Fin.ofNat 32 (fld w 10 6)))
  else .error .reservedField

/-- CPYB: opcode 3 of the copy slot (R224). -/
def decodeCopy3 (q : CopyQ) (w : Nat) : Except DecodeError Instr :=
  .ok (.cpyb q (Fin.ofNat 32 (fld w 25 21)) (Fin.ofNat 32 (fld w 20 16)) (Fin.ofNat 32 (fld w 15 11)) (BitVec.ofNat 11 (fld w 10 0)))

/-- ACC: opcode 4 of the copy slot (R228). -/
def decodeCopy4 (q : CopyQ) (w : Nat) : Except DecodeError Instr :=
  if fld w 4 4 = 0 then
    match AccOp.ofCode (fld w 3 0) with
    | none => .error .noSuchCode
    | some x0 =>
    .ok (.acc q (Fin.ofNat 32 (fld w 25 21)) (Fin.ofNat 32 (fld w 20 16)) (Fin.ofNat 32 (fld w 15 11)) (Fin.ofNat 32 (fld w 10 6)) (bit w 5) x0)
  else .error .reservedField

/-- CAS: opcode 5 of the copy slot (R227). -/
def decodeCopy5 (q : CopyQ) (w : Nat) : Except DecodeError Instr :=
  if fld w 4 2 = 0 then
    match AtomSize.ofCode (fld w 1 0) with
    | none => .error .noSuchCode
    | some x0 =>
    .ok (.cas q (Fin.ofNat 32 (fld w 25 21)) (Fin.ofNat 32 (fld w 20 16)) (Fin.ofNat 32 (fld w 15 11)) (Fin.ofNat 32 (fld w 10 6)) (bit w 5) x0)
  else .error .reservedField

/-- FAA: opcode 6 of the copy slot (R227). -/
def decodeCopy6 (q : CopyQ) (w : Nat) : Except DecodeError Instr :=
  if fld w 4 2 = 0 ∧ fld w 10 6 = 0 then
    match AtomSize.ofCode (fld w 1 0) with
    | none => .error .noSuchCode
    | some x0 =>
    .ok (.faa q (Fin.ofNat 32 (fld w 25 21)) (Fin.ofNat 32 (fld w 20 16)) (Fin.ofNat 32 (fld w 15 11)) (bit w 5) x0)
  else .error .reservedField

/-- XCHG: opcode 7 of the copy slot (R227). -/
def decodeCopy7 (q : CopyQ) (w : Nat) : Except DecodeError Instr :=
  if fld w 4 2 = 0 ∧ fld w 10 6 = 0 then
    match AtomSize.ofCode (fld w 1 0) with
    | none => .error .noSuchCode
    | some x0 =>
    .ok (.xchg q (Fin.ofNat 32 (fld w 25 21)) (Fin.ofNat 32 (fld w 20 16)) (Fin.ofNat 32 (fld w 15 11)) (bit w 5) x0)
  else .error .reservedField

/-- FPUT: opcode 8 of the copy slot (R229). -/
def decodeCopy8 (q : CopyQ) (w : Nat) : Except DecodeError Instr :=
  if fld w 4 0 = 0 ∧ fld w 10 6 = 0 then
    .ok (.fput q (Fin.ofNat 32 (fld w 25 21)) (Fin.ofNat 32 (fld w 20 16)) (Fin.ofNat 32 (fld w 15 11)) (bit w 5))
  else .error .reservedField

/-- SUBS: opcode 9 of the copy slot (R232). -/
def decodeCopy9 (q : CopyQ) (w : Nat) : Except DecodeError Instr :=
  if fld w 15 7 = 0 then
    match RingDir.ofCode (fld w 6 6) with
    | none => .error .noSuchCode
    | some x0 =>
    .ok (.subs q (Fin.ofNat 32 (fld w 25 21)) (Fin.ofNat 32 (fld w 20 16)) x0 (Fin.ofNat 64 (fld w 5 0)))
  else .error .reservedField

/-- UNSUB: opcode 10 of the copy slot (R234). -/
def decodeCopy10 (q : CopyQ) (w : Nat) : Except DecodeError Instr :=
  if fld w 20 6 = 0 then
    .ok (.unsub q (Fin.ofNat 32 (fld w 25 21)) (Fin.ofNat 64 (fld w 5 0)))
  else .error .reservedField

/-- SLOTREL: opcode 11 of the copy slot (R234). -/
def decodeCopy11 (q : CopyQ) (w : Nat) : Except DecodeError Instr :=
  if fld w 20 6 = 0 then
    .ok (.slotrel q (Fin.ofNat 32 (fld w 25 21)) (Fin.ofNat 64 (fld w 5 0)))
  else .error .reservedField

/-- PUBL: opcode 12 of the copy slot (R236). -/
def decodeCopy12 (q : CopyQ) (w : Nat) : Except DecodeError Instr :=
  if fld w 10 2 = 0 then
    match Scope.ofCode (fld w 1 0) with
    | none => .error .noSuchCode
    | some x0 =>
    .ok (.publ q (Fin.ofNat 32 (fld w 25 21)) (Fin.ofNat 32 (fld w 20 16)) (Fin.ofNat 32 (fld w 15 11)) x0)
  else .error .reservedField

/-- CFENCE: opcode 13 of the copy slot (R225). -/
def decodeCopy13 (q : CopyQ) (w : Nat) : Except DecodeError Instr :=
  if fld w 20 3 = 0 then
    .ok (.cfence q (Fin.ofNat 32 (fld w 25 21)) (BitVec.ofNat 3 (fld w 2 0)))
  else .error .reservedField

/-- CPYS: opcode 14 of the copy slot (R237). -/
def decodeCopy14 (q : CopyQ) (w : Nat) : Except DecodeError Instr :=
  if fld w 5 2 = 0 ∧ fld w 15 11 = 0 then
    .ok (.cpys q (Fin.ofNat 32 (fld w 25 21)) (Fin.ofNat 32 (fld w 20 16)) (Fin.ofNat 32 (fld w 10 6)) (Fin.ofNat 4 (fld w 1 0)))
  else .error .reservedField

/-- COLL: opcode 15 of the copy slot (R240). -/
def decodeCopy15 (q : CopyQ) (w : Nat) : Except DecodeError Instr :=
  if fld w 5 5 = 0 then
    match CollOp.ofCode (fld w 4 2) with
    | none => .error .noSuchCode
    | some x0 =>
    match CollKind.ofCode (fld w 1 0) with
    | none => .error .noSuchCode
    | some x1 =>
    .ok (.coll q (Fin.ofNat 32 (fld w 25 21)) (Fin.ofNat 32 (fld w 20 16)) (Fin.ofNat 32 (fld w 15 11)) (Fin.ofNat 32 (fld w 10 6)) x0 x1)
  else .error .reservedField

/-- Words of the copy slot pair (spec/02 R35, R36). -/
def decodeCopy (q : CopyQ) (w : Nat) : Except DecodeError Instr :=
  match fld w 31 26 with
  | 0 => if w = 0 then .ok (.nopCopy q) else .error .reservedField
  | 1 => decodeCopy1 q w
  | 2 => decodeCopy2 q w
  | 3 => decodeCopy3 q w
  | 4 => decodeCopy4 q w
  | 5 => decodeCopy5 q w
  | 6 => decodeCopy6 q w
  | 7 => decodeCopy7 q w
  | 8 => decodeCopy8 q w
  | 9 => decodeCopy9 q w
  | 10 => decodeCopy10 q w
  | 11 => decodeCopy11 q w
  | 12 => decodeCopy12 q w
  | 13 => decodeCopy13 q w
  | 14 => decodeCopy14 q w
  | 15 => decodeCopy15 q w
  | _ => .error .noSuchOpcode

/-- SPAWN: opcode 1 of the sys slot (R245). -/
def decodeSys1 (w : Nat) : Except DecodeError Instr :=
  if fld w 15 0 = 0 then
    .ok (.spawn (Fin.ofNat 32 (fld w 25 21)) (Fin.ofNat 32 (fld w 20 16)))
  else .error .reservedField

/-- SPAWNL: opcode 2 of the sys slot (R245). -/
def decodeSys2 (w : Nat) : Except DecodeError Instr :=
  if fld w 10 0 = 0 then
    .ok (.spawnl (Fin.ofNat 32 (fld w 25 21)) (Fin.ofNat 32 (fld w 20 16)) (Fin.ofNat 32 (fld w 15 11)))
  else .error .reservedField

/-- JOIN: opcode 3 of the sys slot (R261). -/
def decodeSys3 (w : Nat) : Except DecodeError Instr :=
  if fld w 20 0 = 0 then
    .ok (.join (Fin.ofNat 32 (fld w 25 21)))
  else .error .reservedField

/-- MERGE: opcode 4 of the sys slot (R262). -/
def decodeSys4 (w : Nat) : Except DecodeError Instr :=
  if fld w 25 0 = 0 then
    .ok (.merge)
  else .error .reservedField

/-- YIELD: opcode 5 of the sys slot (R264). -/
def decodeSys5 (w : Nat) : Except DecodeError Instr :=
  if fld w 25 0 = 0 then
    .ok (.yield)
  else .error .reservedField

/-- TINFO: opcode 6 of the sys slot (R266). -/
def decodeSys6 (w : Nat) : Except DecodeError Instr :=
  if fld w 20 3 = 0 then
    match TItem.ofCode (fld w 2 0) with
    | none => .error .noSuchCode
    | some x0 =>
    .ok (.tinfo (Fin.ofNat 32 (fld w 25 21)) x0)
  else .error .reservedField

/-- VIEWA: opcode 7 of the sys slot (R257). -/
def decodeSys7 (w : Nat) : Except DecodeError Instr :=
  if fld w 15 0 = 0 then
    .ok (.viewa (Fin.ofNat 32 (fld w 25 21)) (Fin.ofNat 32 (fld w 20 16)))
  else .error .reservedField

/-- FGET: opcode 8 of the sys slot (R285). -/
def decodeSys8 (w : Nat) : Except DecodeError Instr :=
  if fld w 15 0 = 0 then
    .ok (.fget (Fin.ofNat 32 (fld w 25 21)) (Fin.ofNat 32 (fld w 20 16)))
  else .error .reservedField

/-- FWAIT_SPIN, FWAIT_YIELD: opcode 9 of the sys slot (R286). -/
def decodeSys9 (w : Nat) : Except DecodeError Instr :=
  if fld w 10 0 = 0 then
    .ok (.fwaitSpin (Fin.ofNat 32 (fld w 25 21)) (Fin.ofNat 32 (fld w 20 16)) (Fin.ofNat 32 (fld w 15 11)))
  else if fld w 10 0 = 1 then
    .ok (.fwaitYield (Fin.ofNat 32 (fld w 25 21)) (Fin.ofNat 32 (fld w 20 16)) (Fin.ofNat 32 (fld w 15 11)))
  else .error .noSuchCode

/-- RUNINL: opcode 10 of the sys slot (R265). -/
def decodeSys10 (w : Nat) : Except DecodeError Instr :=
  if fld w 15 0 = 0 then
    .ok (.runinl (Fin.ofNat 32 (fld w 25 21)) (Fin.ofNat 32 (fld w 20 16)))
  else .error .reservedField

/-- GJOIN: opcode 11 of the sys slot (R274). -/
def decodeSys11 (w : Nat) : Except DecodeError Instr :=
  if fld w 15 0 = 0 then
    .ok (.gjoin (Fin.ofNat 32 (fld w 25 21)) (Fin.ofNat 32 (fld w 20 16)))
  else .error .reservedField

/-- GLEAVE: opcode 12 of the sys slot (R274). -/
def decodeSys12 (w : Nat) : Except DecodeError Instr :=
  if fld w 15 0 = 0 ∧ fld w 25 21 = 0 then
    .ok (.gleave (Fin.ofNat 32 (fld w 20 16)))
  else .error .reservedField

/-- ARRIVE, ARRIVE_DROP: opcode 13 of the sys slot (R278). -/
def decodeSys13 (w : Nat) : Except DecodeError Instr :=
  if fld w 15 0 = 0 then
    .ok (.arrive (Fin.ofNat 32 (fld w 25 21)) (Fin.ofNat 32 (fld w 20 16)))
  else if fld w 15 0 = 1 then
    .ok (.arriveDrop (Fin.ofNat 32 (fld w 25 21)) (Fin.ofNat 32 (fld w 20 16)))
  else .error .noSuchCode

/-- BWAIT: opcode 14 of the sys slot (R277). -/
def decodeSys14 (w : Nat) : Except DecodeError Instr :=
  if fld w 10 0 = 0 then
    .ok (.bwait (Fin.ofNat 32 (fld w 25 21)) (Fin.ofNat 32 (fld w 20 16)) (Fin.ofNat 32 (fld w 15 11)))
  else .error .reservedField

/-- SSTEP: opcode 15 of the sys slot (R279). -/
def decodeSys15 (w : Nat) : Except DecodeError Instr :=
  if fld w 15 0 = 0 then
    .ok (.sstep (Fin.ofNat 32 (fld w 25 21)) (Fin.ofNat 32 (fld w 20 16)))
  else .error .reservedField

/-- TCEXP: opcode 16 of the sys slot (R282). -/
def decodeSys16 (w : Nat) : Except DecodeError Instr :=
  if fld w 15 6 = 0 ∧ fld w 25 21 = 0 then
    .ok (.tcexp (Fin.ofNat 32 (fld w 20 16)) (Fin.ofNat 64 (fld w 5 0)))
  else .error .reservedField

/-- TCWAIT: opcode 17 of the sys slot (R283). -/
def decodeSys17 (w : Nat) : Except DecodeError Instr :=
  if fld w 20 6 = 0 then
    .ok (.tcwait (Fin.ofNat 32 (fld w 25 21)) (Fin.ofNat 64 (fld w 5 0)))
  else .error .reservedField

/-- LEASE: opcode 18 of the sys slot (R295). -/
def decodeSys18 (w : Nat) : Except DecodeError Instr :=
  if fld w 10 0 = 0 then
    .ok (.lease (Fin.ofNat 32 (fld w 25 21)) (Fin.ofNat 32 (fld w 20 16)) (Fin.ofNat 32 (fld w 15 11)))
  else .error .reservedField

/-- LEASEREL: opcode 19 of the sys slot (R296). -/
def decodeSys19 (w : Nat) : Except DecodeError Instr :=
  if fld w 20 0 = 0 then
    .ok (.leaserel (Fin.ofNat 32 (fld w 25 21)))
  else .error .reservedField

/-- PERMIT: opcode 20 of the sys slot (R294). -/
def decodeSys20 (w : Nat) : Except DecodeError Instr :=
  if fld w 15 0 = 0 then
    .ok (.permit (Fin.ofNat 32 (fld w 25 21)) (Fin.ofNat 32 (fld w 20 16)))
  else .error .reservedField

/-- SEGS: opcode 21 of the sys slot (R154). -/
def decodeSys21 (w : Nat) : Except DecodeError Instr :=
  if fld w 7 5 = 0 ∧ fld w 25 9 = 0 then
    match SegRest.ofCode (fld w 8 8) with
    | none => .error .noSuchCode
    | some x0 =>
    .ok (.segs x0 (BitVec.ofNat 5 (fld w 4 0)))
  else .error .reservedField

/-- TRAP, TRAP_DUP: opcode 22 of the sys slot (R312). -/
def decodeSys22 (w : Nat) : Except DecodeError Instr :=
  if fld w 25 15 = 0 then
    .ok (.trap (BitVec.ofNat 15 (fld w 14 0)))
  else if fld w 25 15 = 1 then
    .ok (.trapDup (BitVec.ofNat 15 (fld w 14 0)))
  else .error .noSuchCode

/-- UTRET: opcode 23 of the sys slot (R313). -/
def decodeSys23 (w : Nat) : Except DecodeError Instr :=
  if fld w 25 0 = 0 then
    .ok (.utret)
  else .error .reservedField

/-- VDIST: opcode 24 of the sys slot (R21). -/
def decodeSys24 (w : Nat) : Except DecodeError Instr :=
  if fld w 10 0 = 0 then
    .ok (.vdist (Fin.ofNat 32 (fld w 25 21)) (Fin.ofNat 32 (fld w 20 16)) (Fin.ofNat 32 (fld w 15 11)))
  else .error .reservedField

/-- VDMAP: opcode 25 of the sys slot (R22). -/
def decodeSys25 (w : Nat) : Except DecodeError Instr :=
  if fld w 15 0 = 0 then
    .ok (.vdmap (Fin.ofNat 32 (fld w 25 21)) (Fin.ofNat 32 (fld w 20 16)))
  else .error .reservedField

/-- Words of the sys slot (spec/02 R35, R36). -/
def decodeSys (w : Nat) : Except DecodeError Instr :=
  match fld w 31 26 with
  | 0 => if w = 0 then .ok (.nopSys) else .error .reservedField
  | 1 => decodeSys1 w
  | 2 => decodeSys2 w
  | 3 => decodeSys3 w
  | 4 => decodeSys4 w
  | 5 => decodeSys5 w
  | 6 => decodeSys6 w
  | 7 => decodeSys7 w
  | 8 => decodeSys8 w
  | 9 => decodeSys9 w
  | 10 => decodeSys10 w
  | 11 => decodeSys11 w
  | 12 => decodeSys12 w
  | 13 => decodeSys13 w
  | 14 => decodeSys14 w
  | 15 => decodeSys15 w
  | 16 => decodeSys16 w
  | 17 => decodeSys17 w
  | 18 => decodeSys18 w
  | 19 => decodeSys19 w
  | 20 => decodeSys20 w
  | 21 => decodeSys21 w
  | 22 => decodeSys22 w
  | 23 => decodeSys23 w
  | 24 => decodeSys24 w
  | 25 => decodeSys25 w
  | _ => .error .noSuchOpcode

/-- The instruction of a 32-bit word in a slot, before the checks of operand combinations. -/
def decodeRaw : Slot → Nat → Except DecodeError Instr
  | .ctl, w => decodeCtl w
  | .mem, w => decodeMem w
  | .va, w => decodeVec .va w
  | .vb, w => decodeVec .vb w
  | .mx, w => decodeMx w
  | .ca, w => decodeCopy .ca w
  | .cb, w => decodeCopy .cb w
  | .sys, w => decodeSys w

/-- The instruction of a 32-bit word in a slot (spec/02 R36). -/
def decodeSlot (sl : Slot) (w : Nat) : Except DecodeError Instr :=
  match decodeRaw sl w with
  | .ok i => if i.wf then .ok i else .error .forbiddenOperands
  | .error e => .error e

/-- M_ALOAD (spec/09 R190). -/
def decodeMAload (w : Nat) : Except DecodeError Instr :=
  if fld w 51 0 = 0 then
    .ok (.mAload (Fin.ofNat 8 (fld w 57 55)) (Fin.ofNat 8 (fld w 54 52)))
  else .error .reservedField

/-- M_BLOAD (spec/09 R190). -/
def decodeMBload (w : Nat) : Except DecodeError Instr :=
  if fld w 51 0 = 0 then
    .ok (.mBload (Fin.ofNat 8 (fld w 57 55)) (Fin.ofNat 8 (fld w 54 52)))
  else .error .reservedField

/-- M_STEP (spec/09 R190). -/
def decodeMStep (w : Nat) : Except DecodeError Instr :=
  if fld w 55 0 = 0 then
    .ok (.mStep (bit w 57) (bit w 56))
  else .error .reservedField

/-- M_LOOP (spec/09 R190). -/
def decodeMLoop (w : Nat) : Except DecodeError Instr :=
  if fld w 55 16 = 0 then
    .ok (.mLoop (Fin.ofNat 4 (fld w 57 56)) (BitVec.ofNat 16 (fld w 15 0)))
  else .error .reservedField

/-- M_ENDLOOP (spec/09 R190). -/
def decodeMEndloop (w : Nat) : Except DecodeError Instr :=
  if fld w 55 0 = 0 then
    .ok (.mEndloop (Fin.ofNat 4 (fld w 57 56)))
  else .error .reservedField

/-- M_ADDP (spec/09 R190). -/
def decodeMAddp (w : Nat) : Except DecodeError Instr :=
  if (fld w 51 48 = 0 → fld w 47 0 = 0) then
    match AddSrc.ofCode (fld w 51 48) with
    | none => .error .noSuchCode
    | some x0 =>
    .ok (.mAddp (Fin.ofNat 8 (fld w 57 55)) (Fin.ofNat 8 (fld w 54 52)) x0 (BitVec.ofNat 48 (fld w 47 0)))
  else .error .reservedField

/-- M_SETP (spec/09 R190). -/
def decodeMSetp (w : Nat) : Except DecodeError Instr :=
  match SetSrc.ofCode (fld w 51 48) with
  | none => .error .noSuchCode
  | some x0 => .ok (.mSetp (Fin.ofNat 8 (fld w 57 55)) (Fin.ofNat 8 (fld w 54 52)) x0 (BitVec.ofNat 48 (fld w 47 0)))

/-- M_JCMP (spec/09 R190). -/
def decodeMJcmp (w : Nat) : Except DecodeError Instr :=
  if fld w 45 12 = 0 then
    match MicroCond.ofCode (fld w 51 49) with
    | none => .error .noSuchCode
    | some x0 =>
    match MicroField.ofCode (fld w 48 46) with
    | none => .error .noSuchCode
    | some x1 =>
    .ok (.mJcmp (Fin.ofNat 8 (fld w 57 55)) (Fin.ofNat 8 (fld w 54 52)) x0 x1 (BitVec.ofNat 12 (fld w 11 0)))
  else .error .reservedField

/-- M_ZERO (spec/09 R190). -/
def decodeMZero (w : Nat) : Except DecodeError Instr :=
  if fld w 55 0 = 0 ∧ fld w 57 57 = 0 then
    .ok (.mZero (bit w 56))
  else .error .reservedField

/-- M_DRAIN (spec/09 R190). -/
def decodeMDrain (w : Nat) : Except DecodeError Instr :=
  if fld w 43 0 = 0 then
    match DrainMode.ofCode (fld w 46 45) with
    | none => .error .noSuchCode
    | some x0 =>
    .ok (.mDrain (Fin.ofNat 8 (fld w 57 55)) (Fin.ofNat 8 (fld w 54 52)) (Fin.ofNat 8 (fld w 51 49)) (bit w 48) (bit w 47) x0 (bit w 44))
  else .error .reservedField

/-- M_SEAL (spec/09 R190). -/
def decodeMSeal (w : Nat) : Except DecodeError Instr :=
  if fld w 57 0 = 0 then
    .ok (.mSeal)
  else .error .reservedField

/-- M_SHAPE (spec/09 R190). -/
def decodeMShape (w : Nat) : Except DecodeError Instr :=
  if fld w 48 0 = 0 then
    .ok (.mShape (Fin.ofNat 8 (fld w 57 55)) (Fin.ofNat 8 (fld w 54 52)) (Fin.ofNat 8 (fld w 51 49)))
  else .error .reservedField

/-- M_FMT (spec/09 R190). -/
def decodeMFmt (w : Nat) : Except DecodeError Instr :=
  if fld w 41 0 = 0 then
    .ok (.mFmt (BitVec.ofNat 8 (fld w 57 50)) (BitVec.ofNat 8 (fld w 49 42)))
  else .error .reservedField

/-- M_PERMIT (spec/09 R190). -/
def decodeMPermit (w : Nat) : Except DecodeError Instr :=
  if fld w 57 16 = 0 then
    .ok (.mPermit (BitVec.ofNat 16 (fld w 15 0)))
  else .error .reservedField

/-- M_END (spec/09 R190). -/
def decodeMEnd (w : Nat) : Except DecodeError Instr :=
  if fld w 57 0 = 0 then
    .ok (.mEnd)
  else .error .reservedField

/-- The micro-operation of a 64-bit micro-word (spec/09 R190, R191). -/
def decodeMicro (w : Nat) : Except DecodeError Instr :=
  match fld w 63 58 with
  | 1 => decodeMAload w
  | 2 => decodeMBload w
  | 3 => decodeMStep w
  | 4 => decodeMLoop w
  | 5 => decodeMEndloop w
  | 6 => decodeMAddp w
  | 7 => decodeMSetp w
  | 8 => decodeMJcmp w
  | 9 => decodeMZero w
  | 10 => decodeMDrain w
  | 11 => decodeMSeal w
  | 12 => decodeMShape w
  | 13 => decodeMFmt w
  | 14 => decodeMPermit w
  | 15 => decodeMEnd w
  | _ => .error .noSuchOpcode

/-- A base word with fields (value, lowest bit) added. -/
def pack (base : Nat) : List (Nat × Nat) → Nat
  | [] => base
  | (x, lo) :: rest => pack (base + x * 2 ^ lo) rest

/-- The slot word, or the micro-word, of an instruction (spec/02 R34, R35, the slot chapters, spec/09 R190).
An event has no word and gives 0. -/
def encode : Instr → Nat
  | .nopCtl => 0x0
  | .add d a b w => pack 0x4000000 [(d.val, 21), (a.val, 16), (b.val, 11), (w.toNat, 10)]
  | .sub d a b w => pack 0x4000001 [(d.val, 21), (a.val, 16), (b.val, 11), (w.toNat, 10)]
  | .and d a b w => pack 0x4000002 [(d.val, 21), (a.val, 16), (b.val, 11), (w.toNat, 10)]
  | .or d a b w => pack 0x4000003 [(d.val, 21), (a.val, 16), (b.val, 11), (w.toNat, 10)]
  | .xor d a b w => pack 0x4000004 [(d.val, 21), (a.val, 16), (b.val, 11), (w.toNat, 10)]
  | .andn d a b w => pack 0x4000005 [(d.val, 21), (a.val, 16), (b.val, 11), (w.toNat, 10)]
  | .sll d a b w => pack 0x4000006 [(d.val, 21), (a.val, 16), (b.val, 11), (w.toNat, 10)]
  | .srl d a b w => pack 0x4000007 [(d.val, 21), (a.val, 16), (b.val, 11), (w.toNat, 10)]
  | .sra d a b w => pack 0x4000008 [(d.val, 21), (a.val, 16), (b.val, 11), (w.toNat, 10)]
  | .rol d a b w => pack 0x4000009 [(d.val, 21), (a.val, 16), (b.val, 11), (w.toNat, 10)]
  | .min d a b w => pack 0x400000A [(d.val, 21), (a.val, 16), (b.val, 11), (w.toNat, 10)]
  | .max d a b w => pack 0x400000B [(d.val, 21), (a.val, 16), (b.val, 11), (w.toNat, 10)]
  | .minu d a b w => pack 0x400000C [(d.val, 21), (a.val, 16), (b.val, 11), (w.toNat, 10)]
  | .maxu d a b w => pack 0x400000D [(d.val, 21), (a.val, 16), (b.val, 11), (w.toNat, 10)]
  | .mul d a b w => pack 0x400000E [(d.val, 21), (a.val, 16), (b.val, 11), (w.toNat, 10)]
  | .mulh d a b w => pack 0x400000F [(d.val, 21), (a.val, 16), (b.val, 11), (w.toNat, 10)]
  | .mulhu d a b w => pack 0x4000010 [(d.val, 21), (a.val, 16), (b.val, 11), (w.toNat, 10)]
  | .div d a b w => pack 0x4000011 [(d.val, 21), (a.val, 16), (b.val, 11), (w.toNat, 10)]
  | .divu d a b w => pack 0x4000012 [(d.val, 21), (a.val, 16), (b.val, 11), (w.toNat, 10)]
  | .rem d a b w => pack 0x4000013 [(d.val, 21), (a.val, 16), (b.val, 11), (w.toNat, 10)]
  | .remu d a b w => pack 0x4000014 [(d.val, 21), (a.val, 16), (b.val, 11), (w.toNat, 10)]
  | .clz d a w => pack 0x4000015 [(d.val, 21), (a.val, 16), (w.toNat, 10)]
  | .ctz d a w => pack 0x4000016 [(d.val, 21), (a.val, 16), (w.toNat, 10)]
  | .popc d a w => pack 0x4000017 [(d.val, 21), (a.val, 16), (w.toNat, 10)]
  | .addi d a i => pack 0x8000000 [(d.val, 21), (a.val, 16), (i.toNat, 0)]
  | .andi d a i => pack 0xC000000 [(d.val, 21), (a.val, 16), (i.toNat, 0)]
  | .ori d a i => pack 0x10000000 [(d.val, 21), (a.val, 16), (i.toNat, 0)]
  | .xori d a i => pack 0x14000000 [(d.val, 21), (a.val, 16), (i.toNat, 0)]
  | .slli d a w n => pack 0x18000000 [(d.val, 21), (a.val, 16), (w.toNat, 13), (n.toNat, 0)]
  | .srli d a w n => pack 0x18004000 [(d.val, 21), (a.val, 16), (w.toNat, 13), (n.toNat, 0)]
  | .srai d a w n => pack 0x18008000 [(d.val, 21), (a.val, 16), (w.toNat, 13), (n.toNat, 0)]
  | .roli d a w n => pack 0x1800C000 [(d.val, 21), (a.val, 16), (w.toNat, 13), (n.toNat, 0)]
  | .movhi d a i => pack 0x1C000000 [(d.val, 21), (a.val, 16), (i.toNat, 0)]
  | .addpc d i => pack 0x20000000 [(d.val, 21), (i.toNat, 0)]
  | .cmp p a b w c => pack 0x24000000 [(p.val, 23), (a.val, 16), (b.val, 11), (w.toNat, 10), (c.code, 0)]
  | .cmpi p c a i => pack 0x28000000 [(p.val, 23), (c.code, 20), (a.val, 15), (i.toNat, 0)]
  | .pand d a x b y => pack 0x2C000000 [(d.val, 23), (a.val, 18), (x.toNat, 17), (b.val, 13), (y.toNat, 12)]
  | .por d a x b y => pack 0x2C000001 [(d.val, 23), (a.val, 18), (x.toNat, 17), (b.val, 13), (y.toNat, 12)]
  | .pxor d a x b y => pack 0x2C000002 [(d.val, 23), (a.val, 18), (x.toNat, 17), (b.val, 13), (y.toNat, 12)]
  | .sel d a b n p => pack 0x30000000 [(d.val, 21), (a.val, 16), (b.val, 11), (n.toNat, 3), (p.val, 0)]
  | .br p n o => pack 0x34000000 [(p.val, 23), (n.toNat, 22), (o.toNat, 0)]
  | .bz a o => pack 0x38000000 [(a.val, 16), (o.toNat, 0)]
  | .bnz a o => pack 0x38400000 [(a.val, 16), (o.toNat, 0)]
  | .jmp o => pack 0x3C000000 [(o.toNat, 0)]
  | .call o => pack 0x40000000 [(o.toNat, 0)]
  | .jr d a => pack 0x44000000 [(d.val, 21), (a.val, 16)]
  | .loop l a o => pack 0x48000000 [(l.val, 24), (a.val, 16), (o.toNat, 0)]
  | .fadd d a b r => pack 0x4C000000 [(d.val, 21), (a.val, 16), (b.val, 11), (r.code, 8)]
  | .fsub d a b r => pack 0x4C000001 [(d.val, 21), (a.val, 16), (b.val, 11), (r.code, 8)]
  | .fmul d a b r => pack 0x4C000002 [(d.val, 21), (a.val, 16), (b.val, 11), (r.code, 8)]
  | .fdiv d a b r => pack 0x4C000003 [(d.val, 21), (a.val, 16), (b.val, 11), (r.code, 8)]
  | .fsqrt d a r => pack 0x4C000004 [(d.val, 21), (a.val, 16), (r.code, 8)]
  | .fmin d a b => pack 0x4C000005 [(d.val, 21), (a.val, 16), (b.val, 11)]
  | .fmax d a b => pack 0x4C000006 [(d.val, 21), (a.val, 16), (b.val, 11)]
  | .ffma d a b r => pack 0x50000000 [(d.val, 21), (a.val, 16), (b.val, 11), (r.code, 8)]
  | .ffms d a b r => pack 0x50000001 [(d.val, 21), (a.val, 16), (b.val, 11), (r.code, 8)]
  | .ffnma d a b r => pack 0x50000002 [(d.val, 21), (a.val, 16), (b.val, 11), (r.code, 8)]
  | .ffnms d a b r => pack 0x50000003 [(d.val, 21), (a.val, 16), (b.val, 11), (r.code, 8)]
  | .fcvtI64F32 d a r => pack 0x54000000 [(d.val, 21), (a.val, 16), (r.code, 8)]
  | .fcvtUi64F32 d a r => pack 0x54000001 [(d.val, 21), (a.val, 16), (r.code, 8)]
  | .fcvtI32F32 d a r => pack 0x54000002 [(d.val, 21), (a.val, 16), (r.code, 8)]
  | .fcvtUi32F32 d a r => pack 0x54000003 [(d.val, 21), (a.val, 16), (r.code, 8)]
  | .fcvtF32I64 d a r => pack 0x54000004 [(d.val, 21), (a.val, 16), (r.code, 8)]
  | .fcvtF32Ui64 d a r => pack 0x54000005 [(d.val, 21), (a.val, 16), (r.code, 8)]
  | .fcvtF32I32 d a r => pack 0x54000006 [(d.val, 21), (a.val, 16), (r.code, 8)]
  | .fcvtF32Ui32 d a r => pack 0x54000007 [(d.val, 21), (a.val, 16), (r.code, 8)]
  | .fcvtB16F32 d a r => pack 0x54000008 [(d.val, 21), (a.val, 16), (r.code, 8)]
  | .fcvtF32B16 d a r => pack 0x54000009 [(d.val, 21), (a.val, 16), (r.code, 8)]
  | .fcvtF16F32 d a r => pack 0x5400000A [(d.val, 21), (a.val, 16), (r.code, 8)]
  | .fcvtF32F16 d a r => pack 0x5400000B [(d.val, 21), (a.val, 16), (r.code, 8)]
  | .fcvtF8aF32 d a r => pack 0x5400000C [(d.val, 21), (a.val, 16), (r.code, 8)]
  | .fcvtF8bF32 d a r => pack 0x5400000D [(d.val, 21), (a.val, 16), (r.code, 8)]
  | .fcvtF32F8a d a r => pack 0x5400000E [(d.val, 21), (a.val, 16), (r.code, 8)]
  | .fcvtF32F8b d a r => pack 0x5400000F [(d.val, 21), (a.val, 16), (r.code, 8)]
  | .frint d a r => pack 0x54000010 [(d.val, 21), (a.val, 16), (r.code, 8)]
  | .feq p a b => pack 0x58000000 [(p.val, 23), (a.val, 16), (b.val, 11)]
  | .flt p a b => pack 0x58000001 [(p.val, 23), (a.val, 16), (b.val, 11)]
  | .fle p a b => pack 0x58000002 [(p.val, 23), (a.val, 16), (b.val, 11)]
  | .fUn p a b => pack 0x58000003 [(p.val, 23), (a.val, 16), (b.val, 11)]
  | .rdsr d i => pack 0x5C000000 [(d.val, 21), (i.code, 0)]
  | .wrsr a i => pack 0x60000000 [(a.val, 16), (i.code, 0)]
  | .gcfg a t g => pack 0x64000000 [(a.val, 16), (t.code, 4), (g.code, 0)]
  | .gstart g => pack 0x68000000 [(g.code, 0)]
  | .gstop g => pack 0x68001000 [(g.code, 0)]
  | .gstat d g => pack 0x68002000 [(d.val, 21), (g.code, 0)]
  | .gseek a g => pack 0x68003000 [(a.val, 16), (g.code, 0)]
  | .vsetk a => pack 0x6C000000 [(a.val, 16)]
  | .vsetkH a => pack 0x6C000001 [(a.val, 16)]
  | .nopMem => 0x0
  | .ld d a o r z => pack 0x4000000 [(d.val, 21), (a.val, 16), (o.toNat, 6), (r.ordCode, 2), (r.scpCode, 4), (z.code, 0)]
  | .lds d a o r z => pack 0x8000000 [(d.val, 21), (a.val, 16), (o.toNat, 6), (r.ordCode, 2), (r.scpCode, 4), (z.code, 0)]
  | .st d a o r z => pack 0xC000000 [(d.val, 21), (a.val, 16), (o.toNat, 6), (r.ordCode, 2), (r.scpCode, 4), (z.code, 0)]
  | .ldv d a o r => pack 0x10000000 [(d.val, 21), (a.val, 16), (o.toNat, 6), (r.ordCode, 2), (r.scpCode, 4)]
  | .stv d a o r => pack 0x14000000 [(d.val, 21), (a.val, 16), (o.toNat, 6), (r.ordCode, 2), (r.scpCode, 4)]
  | .ldx d a o r => pack 0x18000000 [(d.val, 21), (a.val, 16), (o.toNat, 6), (r.ordCode, 2), (r.scpCode, 4)]
  | .stpk d a o r m => pack 0x1C000000 [(d.val, 21), (a.val, 16), (o.toNat, 6), (r.ordCode, 2), (r.scpCode, 4), (m.code, 0)]
  | .ldt d a o r => pack 0x20000000 [(d.val, 21), (a.val, 16), (o.toNat, 6), (r.ordCode, 2), (r.scpCode, 4)]
  | .stt d a o r => pack 0x24000000 [(d.val, 21), (a.val, 16), (o.toNat, 6), (r.ordCode, 2), (r.scpCode, 4)]
  | .ldg d a b x => pack 0x28000000 [(d.val, 21), (a.val, 16), (b.val, 11), (x.toNat, 0)]
  | .fence s => pack 0x2C000000 [(s.code, 21)]
  | .fenceRel s => pack 0x2C800000 [(s.code, 21)]
  | .fenceAcq s => pack 0x2D000000 [(s.code, 21)]
  | .fenceMem => 0x2D800000
  | .fenceUo => 0x2E000000
  | .prefRc a o => pack 0x30000000 [(a.val, 16), (o.toNat, 6)]
  | .prefMd a o => pack 0x30200000 [(a.val, 16), (o.toNat, 6)]
  | .nopVec _ => 0x0
  | .vadd _ d a b t m => pack 0x4000000 [(d.code, 20), (a.code, 14), (a.ebit, 7), (b.code, 8), (b.ebit, 6), (t.code, 3), (m.val, 0)]
  | .vsub _ d a b t m => pack 0x8000000 [(d.code, 20), (a.code, 14), (a.ebit, 7), (b.code, 8), (b.ebit, 6), (t.code, 3), (m.val, 0)]
  | .vmul _ d a b t m => pack 0xC000000 [(d.code, 20), (a.code, 14), (a.ebit, 7), (b.code, 8), (b.ebit, 6), (t.code, 3), (m.val, 0)]
  | .vmulh _ d a b t m => pack 0x10000000 [(d.code, 20), (a.code, 14), (a.ebit, 7), (b.code, 8), (b.ebit, 6), (t.code, 3), (m.val, 0)]
  | .vfma _ c a b t m => pack 0x14000000 [(c.code, 20), (a.code, 14), (a.ebit, 7), (b.code, 8), (b.ebit, 6), (t.code, 3), (m.val, 0)]
  | .vmin _ d a b t m => pack 0x18000000 [(d.code, 20), (a.code, 14), (a.ebit, 7), (b.code, 8), (b.ebit, 6), (t.code, 3), (m.val, 0)]
  | .vmax _ d a b t m => pack 0x1C000000 [(d.code, 20), (a.code, 14), (a.ebit, 7), (b.code, 8), (b.ebit, 6), (t.code, 3), (m.val, 0)]
  | .vabs _ d a t m => pack 0x20000000 [(d.code, 20), (a.code, 14), (a.ebit, 7), (t.code, 3), (m.val, 0)]
  | .vneg _ d a t m => pack 0x24000000 [(d.code, 20), (a.code, 14), (a.ebit, 7), (t.code, 3), (m.val, 0)]
  | .vand _ d a b m => pack 0x28000000 [(d.code, 20), (a.code, 14), (a.ebit, 7), (b.code, 8), (b.ebit, 6), (m.val, 0)]
  | .vor _ d a b m => pack 0x2C000000 [(d.code, 20), (a.code, 14), (a.ebit, 7), (b.code, 8), (b.ebit, 6), (m.val, 0)]
  | .vxor _ d a b m => pack 0x30000000 [(d.code, 20), (a.code, 14), (a.ebit, 7), (b.code, 8), (b.ebit, 6), (m.val, 0)]
  | .vandn _ d a b m => pack 0x34000000 [(d.code, 20), (a.code, 14), (a.ebit, 7), (b.code, 8), (b.ebit, 6), (m.val, 0)]
  | .vshl _ d a b t m => pack 0x38000000 [(d.code, 20), (a.code, 14), (a.ebit, 7), (b.code, 8), (b.ebit, 6), (t.code, 3), (m.val, 0)]
  | .vshr _ d a b t m => pack 0x3C000000 [(d.code, 20), (a.code, 14), (a.ebit, 7), (b.code, 8), (b.ebit, 6), (t.code, 3), (m.val, 0)]
  | .vcmp _ c k a b t m => pack 0x40000000 [(c.code, 23), (k.val, 20), (a.code, 14), (a.ebit, 7), (b.code, 8), (b.ebit, 6), (t.code, 3), (m.val, 0)]
  | .vsel _ d a b m => pack 0x44000000 [(d.code, 20), (a.code, 14), (a.ebit, 7), (b.code, 8), (b.ebit, 6), (m.val, 0)]
  | .vmov _ d a => pack 0x48000000 [(d.code, 20), (a.code, 14), (a.ebit, 7)]
  | .vcvt _ d a p u t m => pack 0x4C000000 [(d.code, 20), (a.code, 14), (a.ebit, 7), (p.toNat, 12), (u.code, 8), (t.code, 3), (m.val, 0)]
  | .vscale _ d a b m => pack 0x50000008 [(d.code, 20), (a.code, 14), (a.ebit, 7), (b.code, 8), (b.ebit, 6), (m.val, 0)]
  | .vqnt _ d a b m => pack 0x54000008 [(d.code, 20), (a.code, 14), (a.ebit, 7), (b.code, 8), (b.ebit, 6), (m.val, 0)]
  | .vunpk _ d a b => pack 0x58000008 [(d.code, 20), (a.code, 14), (a.ebit, 7), (b.code, 8), (b.ebit, 6)]
  | .vmaskAnd _ k a b => pack 0x5C000000 [(k.val, 20), (a.val, 14), (b.val, 8)]
  | .vmaskOr _ k a b => pack 0x5C000008 [(k.val, 20), (a.val, 14), (b.val, 8)]
  | .vmaskXor _ k a b => pack 0x5C000010 [(k.val, 20), (a.val, 14), (b.val, 8)]
  | .vmaskAndn _ k a b => pack 0x5C000018 [(k.val, 20), (a.val, 14), (b.val, 8)]
  | .vmaskNot _ k a => pack 0x5C000020 [(k.val, 20), (a.val, 14)]
  | .vmaskNz _ k a => pack 0x5C000028 [(k.val, 20), (a.code, 14), (a.ebit, 7)]
  | .vmaskCnt _ k a => pack 0x5C000030 [(k.val, 20), (a.code, 14), (a.ebit, 7)]
  | .vchk _ a b m => pack 0x60000000 [(a.code, 14), (a.ebit, 7), (b.code, 8), (b.ebit, 6), (m.val, 0)]
  | .vperm d a b m => pack 0x80000000 [(d.code, 20), (a.code, 14), (a.ebit, 7), (b.code, 8), (b.ebit, 6), (m.val, 0)]
  | .vrot d a b m => pack 0x84000000 [(d.code, 20), (a.code, 14), (a.ebit, 7), (b.code, 8), (b.ebit, 6), (m.val, 0)]
  | .vrsum d a t m => pack 0x88000000 [(d.code, 20), (a.code, 14), (a.ebit, 7), (t.code, 3), (m.val, 0)]
  | .vrmax d a t m => pack 0x8C000000 [(d.code, 20), (a.code, 14), (a.ebit, 7), (t.code, 3), (m.val, 0)]
  | .vscan d a t m => pack 0x90000000 [(d.code, 20), (a.code, 14), (a.ebit, 7), (t.code, 3), (m.val, 0)]
  | .vexp2 d a m => pack 0xA0000008 [(d.code, 20), (a.code, 14), (a.ebit, 7), (m.val, 0)]
  | .vlog2 d a m => pack 0xA4000008 [(d.code, 20), (a.code, 14), (a.ebit, 7), (m.val, 0)]
  | .vrcp d a m => pack 0xA8000008 [(d.code, 20), (a.code, 14), (a.ebit, 7), (m.val, 0)]
  | .vrsq d a m => pack 0xAC000008 [(d.code, 20), (a.code, 14), (a.ebit, 7), (m.val, 0)]
  | .nopMx => 0x0
  | .msetp p a => pack 0x4000000 [(p.val, 23), (a.val, 18)]
  | .msetpi p i => pack 0x8000000 [(p.val, 23), (i.toNat, 0)]
  | .mcall h s t r => pack 0xC000000 [(h.toNat, 25), (s.toNat, 24), (t.val, 22), (r.toNat, 14)]
  | .mzero t => pack 0x10000000 [(t.val, 24)]
  | .mdrain t d a b z n m s => pack 0x14000000 [(t.val, 24), (d.val, 19), (a.val, 14), (b.val, 9), (z.toNat, 4), (n.toNat, 3), (m.code, 1), (s.toNat, 0)]
  | .mseal t => pack 0x18000000 [(t.val, 24)]
  | .mstat d => pack 0x1C000000 [(d.val, 19)]
  | .mlduc a b => pack 0x20000000 [(a.val, 14), (b.val, 9)]
  | .mlducEnt a b => pack 0x20000001 [(a.val, 14), (b.val, 9)]
  | .maccrd t d a => pack 0x24000000 [(t.val, 24), (d.val, 19), (a.val, 14)]
  | .maccrdRow t a b => pack 0x24000001 [(t.val, 24), (a.val, 14), (b.val, 9)]
  | .maccwr t a b => pack 0x28000000 [(t.val, 24), (a.val, 14), (b.val, 9)]
  | .maccwrRow t a b => pack 0x28000001 [(t.val, 24), (a.val, 14), (b.val, 9)]
  | .mwait d c => pack 0x2C000000 [(d.val, 19), (c.code, 0)]
  | .mAload p q => pack 0x400000000000000 [(p.val, 55), (q.val, 52)]
  | .mBload p q => pack 0x800000000000000 [(p.val, 55), (q.val, 52)]
  | .mStep acc tr => pack 0xC00000000000000 [(acc.toNat, 57), (tr.toNat, 56)]
  | .mLoop l n => pack 0x1000000000000000 [(l.val, 56), (n.toNat, 0)]
  | .mEndloop l => pack 0x1400000000000000 [(l.val, 56)]
  | .mAddp p q src imm => pack 0x1800000000000000 [(p.val, 55), (q.val, 52), (src.code, 48), (imm.toNat, 0)]
  | .mSetp p q src imm => pack 0x1C00000000000000 [(p.val, 55), (q.val, 52), (src.code, 48), (imm.toNat, 0)]
  | .mJcmp p q cc f tgt => pack 0x2000000000000000 [(p.val, 55), (q.val, 52), (cc.code, 49), (f.code, 46), (tgt.toNat, 0)]
  | .mZero tr => pack 0x2400000000000000 [(tr.toNat, 56)]
  | .mDrain p g t z nw mode sl => pack 0x2800000000000000 [(p.val, 55), (g.val, 52), (t.val, 49), (z.toNat, 48), (nw.toNat, 47), (mode.code, 45), (sl.toNat, 44)]
  | .mSeal => 0x2C00000000000000
  | .mShape p q g => pack 0x3000000000000000 [(p.val, 55), (q.val, 52), (g.val, 49)]
  | .mFmt fa fb => pack 0x3400000000000000 [(fa.toNat, 50), (fb.toNat, 42)]
  | .mPermit n => pack 0x3800000000000000 [(n.toNat, 0)]
  | .mEnd => 0x3C00000000000000
  | .nopCopy _ => 0x0
  | .cpy _ t a b c => pack 0x4000000 [(t.val, 21), (a.val, 16), (b.val, 11), (c.val, 6)]
  | .cpy2 _ t a b c => pack 0x8000000 [(t.val, 21), (a.val, 16), (b.val, 11), (c.val, 6)]
  | .cpyb _ t a b i => pack 0xC000000 [(t.val, 21), (a.val, 16), (b.val, 11), (i.toNat, 0)]
  | .acc _ t a b c u o => pack 0x10000000 [(t.val, 21), (a.val, 16), (b.val, 11), (c.val, 6), (u.toNat, 5), (o.code, 0)]
  | .cas _ t a b c u z => pack 0x14000000 [(t.val, 21), (a.val, 16), (b.val, 11), (c.val, 6), (u.toNat, 5), (z.code, 0)]
  | .faa _ t a b u z => pack 0x18000000 [(t.val, 21), (a.val, 16), (b.val, 11), (u.toNat, 5), (z.code, 0)]
  | .xchg _ t a b u z => pack 0x1C000000 [(t.val, 21), (a.val, 16), (b.val, 11), (u.toNat, 5), (z.code, 0)]
  | .fput _ t a b u => pack 0x20000000 [(t.val, 21), (a.val, 16), (b.val, 11), (u.toNat, 5)]
  | .subs _ t a d s => pack 0x24000000 [(t.val, 21), (a.val, 16), (d.code, 6), (s.val, 0)]
  | .unsub _ t s => pack 0x28000000 [(t.val, 21), (s.val, 0)]
  | .slotrel _ t s => pack 0x2C000000 [(t.val, 21), (s.val, 0)]
  | .publ _ t a b s => pack 0x30000000 [(t.val, 21), (a.val, 16), (b.val, 11), (s.code, 0)]
  | .cfence _ t c => pack 0x34000000 [(t.val, 21), (c.toNat, 0)]
  | .cpys _ t a c l => pack 0x38000000 [(t.val, 21), (a.val, 16), (c.val, 6), (l.val, 0)]
  | .coll _ t a b c o k => pack 0x3C000000 [(t.val, 21), (a.val, 16), (b.val, 11), (c.val, 6), (o.code, 2), (k.code, 0)]
  | .nopSys => 0x0
  | .spawn d a => pack 0x4000000 [(d.val, 21), (a.val, 16)]
  | .spawnl d a b => pack 0x8000000 [(d.val, 21), (a.val, 16), (b.val, 11)]
  | .join d => pack 0xC000000 [(d.val, 21)]
  | .merge => 0x10000000
  | .yield => 0x14000000
  | .tinfo d i => pack 0x18000000 [(d.val, 21), (i.code, 0)]
  | .viewa d a => pack 0x1C000000 [(d.val, 21), (a.val, 16)]
  | .fget d a => pack 0x20000000 [(d.val, 21), (a.val, 16)]
  | .fwaitSpin d a b => pack 0x24000000 [(d.val, 21), (a.val, 16), (b.val, 11)]
  | .fwaitYield d a b => pack 0x24000001 [(d.val, 21), (a.val, 16), (b.val, 11)]
  | .runinl d a => pack 0x28000000 [(d.val, 21), (a.val, 16)]
  | .gjoin d a => pack 0x2C000000 [(d.val, 21), (a.val, 16)]
  | .gleave a => pack 0x30000000 [(a.val, 16)]
  | .arrive d a => pack 0x34000000 [(d.val, 21), (a.val, 16)]
  | .arriveDrop d a => pack 0x34000001 [(d.val, 21), (a.val, 16)]
  | .bwait d a b => pack 0x38000000 [(d.val, 21), (a.val, 16), (b.val, 11)]
  | .sstep d a => pack 0x3C000000 [(d.val, 21), (a.val, 16)]
  | .tcexp a s => pack 0x40000000 [(a.val, 16), (s.val, 0)]
  | .tcwait d s => pack 0x44000000 [(d.val, 21), (s.val, 0)]
  | .lease d a b => pack 0x48000000 [(d.val, 21), (a.val, 16), (b.val, 11)]
  | .leaserel d => pack 0x4C000000 [(d.val, 21)]
  | .permit d a => pack 0x50000000 [(d.val, 21), (a.val, 16)]
  | .segs m n => pack 0x54000000 [(m.code, 8), (n.toNat, 0)]
  | .trap n => pack 0x58000000 [(n.toNat, 0)]
  | .trapDup n => pack 0x58008000 [(n.toNat, 0)]
  | .utret => 0x5C000000
  | .vdist d a b => pack 0x60000000 [(d.val, 21), (a.val, 16), (b.val, 11)]
  | .vdmap d a => pack 0x64000000 [(d.val, 21), (a.val, 16)]
  | _ => 0

/-- Where the word of an instruction stands: a slot of a bundle, a micro-word, or nowhere (an event). -/
inductive Place where
  | slot (s : Slot)
  | micro
  | none
deriving DecidableEq, Repr

/-- The slot of a vector unit. -/
def VUnit.slot : VUnit → Slot
  | .va => .va
  | .vb => .vb

/-- The slot of a copy queue. -/
def CopyQ.slot : CopyQ → Slot
  | .ca => .ca
  | .cb => .cb

/-- The place of an instruction (spec/02 R35). -/
def Instr.place : Instr → Place
  | .powerOnReset => .none
  | .deviceReset => .none
  | .functionLevelReset => .none
  | .timeBaseTick => .none
  | .timeBaseStop => .none
  | .firmwareInit => .none
  | .bundleFetch => .none
  | .shadowCheckVerdict => .none
  | .vchkVerdict => .none
  | .deferredFault => .none
  | .loadDataArrival => .none
  | .requestTimeout => .none
  | .dirtyLineEviction => .none
  | .pageWalk => .none
  | .tlbInvalidateAck => .none
  | .replicaResync => .none
  | .pierEntryLeave => .none
  | .implicitSeal => .none
  | .drainRowLeave => .none
  | .sealVerdict => .none
  | .keystoneVerdict => .none
  | .mwaitFill => .none
  | .tokenGrant => .none
  | .refillEpoch => .none
  | .leaseExpiry => .none
  | .wearMeasurement => .none
  | .portPrefetch => .none
  | .segmentWake => .none
  | .copyComplete => .none
  | .copyResume => .none
  | .atomicApply => .none
  | .atomicBusyRetry => .none
  | .atomicResend => .none
  | .subscriptionAccept => .none
  | .loaderPush => .none
  | .storerPull => .none
  | .cpysReceive => .none
  | .publSwap => .none
  | .peerRequest => .none
  | .collComplete => .none
  | .collTimeout => .none
  | .gangCycle => .none
  | .tcwaitPhaseComplete => .none
  | .fgetResponse => .none
  | .fwaitTimeout => .none
  | .rootAdmission => .none
  | .taskAdmission => .none
  | .depcntDecrement => .none
  | .taskPick => .none
  | .tickSlip => .none
  | .joinSuspendTimeout => .none
  | .combine => .none
  | .resourceResolution => .none
  | .pageFaultResolution => .none
  | .hangWatchdog => .none
  | .saveDeadline => .none
  | .schedulerTakeover => .none
  | .takeoverComplete => .none
  | .spawnWindowWrite => .none
  | .consumedWrite => .none
  | .apertureWrite => .none
  | .apertureRead => .none
  | .registerWrite => .none
  | .fwload => .none
  | .ctxcreate => .none
  | .ctxdestroy => .none
  | .streamcreate => .none
  | .tupd => .none
  | .ctxparam => .none
  | .preempt => .none
  | .restore => .none
  | .streamabort => .none
  | .capture => .none
  | .resync => .none
  | .pagefail => .none
  | .nopCtl => .slot .ctl
  | .add _ _ _ _ => .slot .ctl
  | .sub _ _ _ _ => .slot .ctl
  | .and _ _ _ _ => .slot .ctl
  | .or _ _ _ _ => .slot .ctl
  | .xor _ _ _ _ => .slot .ctl
  | .andn _ _ _ _ => .slot .ctl
  | .sll _ _ _ _ => .slot .ctl
  | .srl _ _ _ _ => .slot .ctl
  | .sra _ _ _ _ => .slot .ctl
  | .rol _ _ _ _ => .slot .ctl
  | .min _ _ _ _ => .slot .ctl
  | .max _ _ _ _ => .slot .ctl
  | .minu _ _ _ _ => .slot .ctl
  | .maxu _ _ _ _ => .slot .ctl
  | .mul _ _ _ _ => .slot .ctl
  | .mulh _ _ _ _ => .slot .ctl
  | .mulhu _ _ _ _ => .slot .ctl
  | .div _ _ _ _ => .slot .ctl
  | .divu _ _ _ _ => .slot .ctl
  | .rem _ _ _ _ => .slot .ctl
  | .remu _ _ _ _ => .slot .ctl
  | .clz _ _ _ => .slot .ctl
  | .ctz _ _ _ => .slot .ctl
  | .popc _ _ _ => .slot .ctl
  | .addi _ _ _ => .slot .ctl
  | .andi _ _ _ => .slot .ctl
  | .ori _ _ _ => .slot .ctl
  | .xori _ _ _ => .slot .ctl
  | .slli _ _ _ _ => .slot .ctl
  | .srli _ _ _ _ => .slot .ctl
  | .srai _ _ _ _ => .slot .ctl
  | .roli _ _ _ _ => .slot .ctl
  | .movhi _ _ _ => .slot .ctl
  | .addpc _ _ => .slot .ctl
  | .cmp _ _ _ _ _ => .slot .ctl
  | .cmpi _ _ _ _ => .slot .ctl
  | .pand _ _ _ _ _ => .slot .ctl
  | .por _ _ _ _ _ => .slot .ctl
  | .pxor _ _ _ _ _ => .slot .ctl
  | .sel _ _ _ _ _ => .slot .ctl
  | .br _ _ _ => .slot .ctl
  | .bz _ _ => .slot .ctl
  | .bnz _ _ => .slot .ctl
  | .jmp _ => .slot .ctl
  | .call _ => .slot .ctl
  | .jr _ _ => .slot .ctl
  | .loop _ _ _ => .slot .ctl
  | .fadd _ _ _ _ => .slot .ctl
  | .fsub _ _ _ _ => .slot .ctl
  | .fmul _ _ _ _ => .slot .ctl
  | .fdiv _ _ _ _ => .slot .ctl
  | .fsqrt _ _ _ => .slot .ctl
  | .fmin _ _ _ => .slot .ctl
  | .fmax _ _ _ => .slot .ctl
  | .ffma _ _ _ _ => .slot .ctl
  | .ffms _ _ _ _ => .slot .ctl
  | .ffnma _ _ _ _ => .slot .ctl
  | .ffnms _ _ _ _ => .slot .ctl
  | .fcvtI64F32 _ _ _ => .slot .ctl
  | .fcvtUi64F32 _ _ _ => .slot .ctl
  | .fcvtI32F32 _ _ _ => .slot .ctl
  | .fcvtUi32F32 _ _ _ => .slot .ctl
  | .fcvtF32I64 _ _ _ => .slot .ctl
  | .fcvtF32Ui64 _ _ _ => .slot .ctl
  | .fcvtF32I32 _ _ _ => .slot .ctl
  | .fcvtF32Ui32 _ _ _ => .slot .ctl
  | .fcvtB16F32 _ _ _ => .slot .ctl
  | .fcvtF32B16 _ _ _ => .slot .ctl
  | .fcvtF16F32 _ _ _ => .slot .ctl
  | .fcvtF32F16 _ _ _ => .slot .ctl
  | .fcvtF8aF32 _ _ _ => .slot .ctl
  | .fcvtF8bF32 _ _ _ => .slot .ctl
  | .fcvtF32F8a _ _ _ => .slot .ctl
  | .fcvtF32F8b _ _ _ => .slot .ctl
  | .frint _ _ _ => .slot .ctl
  | .feq _ _ _ => .slot .ctl
  | .flt _ _ _ => .slot .ctl
  | .fle _ _ _ => .slot .ctl
  | .fUn _ _ _ => .slot .ctl
  | .rdsr _ _ => .slot .ctl
  | .wrsr _ _ => .slot .ctl
  | .gcfg _ _ _ => .slot .ctl
  | .gstart _ => .slot .ctl
  | .gstop _ => .slot .ctl
  | .gstat _ _ => .slot .ctl
  | .gseek _ _ => .slot .ctl
  | .vsetk _ => .slot .ctl
  | .vsetkH _ => .slot .ctl
  | .nopMem => .slot .mem
  | .ld _ _ _ _ _ => .slot .mem
  | .lds _ _ _ _ _ => .slot .mem
  | .st _ _ _ _ _ => .slot .mem
  | .ldv _ _ _ _ => .slot .mem
  | .stv _ _ _ _ => .slot .mem
  | .ldx _ _ _ _ => .slot .mem
  | .stpk _ _ _ _ _ => .slot .mem
  | .ldt _ _ _ _ => .slot .mem
  | .stt _ _ _ _ => .slot .mem
  | .ldg _ _ _ _ => .slot .mem
  | .fence _ => .slot .mem
  | .fenceRel _ => .slot .mem
  | .fenceAcq _ => .slot .mem
  | .fenceMem => .slot .mem
  | .fenceUo => .slot .mem
  | .prefRc _ _ => .slot .mem
  | .prefMd _ _ => .slot .mem
  | .nopVec un => .slot un.slot
  | .vadd un _ _ _ _ _ => .slot un.slot
  | .vsub un _ _ _ _ _ => .slot un.slot
  | .vmul un _ _ _ _ _ => .slot un.slot
  | .vmulh un _ _ _ _ _ => .slot un.slot
  | .vfma un _ _ _ _ _ => .slot un.slot
  | .vmin un _ _ _ _ _ => .slot un.slot
  | .vmax un _ _ _ _ _ => .slot un.slot
  | .vabs un _ _ _ _ => .slot un.slot
  | .vneg un _ _ _ _ => .slot un.slot
  | .vand un _ _ _ _ => .slot un.slot
  | .vor un _ _ _ _ => .slot un.slot
  | .vxor un _ _ _ _ => .slot un.slot
  | .vandn un _ _ _ _ => .slot un.slot
  | .vshl un _ _ _ _ _ => .slot un.slot
  | .vshr un _ _ _ _ _ => .slot un.slot
  | .vcmp un _ _ _ _ _ _ => .slot un.slot
  | .vsel un _ _ _ _ => .slot un.slot
  | .vmov un _ _ => .slot un.slot
  | .vcvt un _ _ _ _ _ _ => .slot un.slot
  | .vscale un _ _ _ _ => .slot un.slot
  | .vqnt un _ _ _ _ => .slot un.slot
  | .vunpk un _ _ _ => .slot un.slot
  | .vmaskAnd un _ _ _ => .slot un.slot
  | .vmaskOr un _ _ _ => .slot un.slot
  | .vmaskXor un _ _ _ => .slot un.slot
  | .vmaskAndn un _ _ _ => .slot un.slot
  | .vmaskNot un _ _ => .slot un.slot
  | .vmaskNz un _ _ => .slot un.slot
  | .vmaskCnt un _ _ => .slot un.slot
  | .vchk un _ _ _ => .slot un.slot
  | .vperm _ _ _ _ => .slot .va
  | .vrot _ _ _ _ => .slot .va
  | .vrsum _ _ _ _ => .slot .va
  | .vrmax _ _ _ _ => .slot .va
  | .vscan _ _ _ _ => .slot .va
  | .vexp2 _ _ _ => .slot .vb
  | .vlog2 _ _ _ => .slot .vb
  | .vrcp _ _ _ => .slot .vb
  | .vrsq _ _ _ => .slot .vb
  | .nopMx => .slot .mx
  | .msetp _ _ => .slot .mx
  | .msetpi _ _ => .slot .mx
  | .mcall _ _ _ _ => .slot .mx
  | .mzero _ => .slot .mx
  | .mdrain _ _ _ _ _ _ _ _ => .slot .mx
  | .mseal _ => .slot .mx
  | .mstat _ => .slot .mx
  | .mlduc _ _ => .slot .mx
  | .mlducEnt _ _ => .slot .mx
  | .maccrd _ _ _ => .slot .mx
  | .maccrdRow _ _ _ => .slot .mx
  | .maccwr _ _ _ => .slot .mx
  | .maccwrRow _ _ _ => .slot .mx
  | .mwait _ _ => .slot .mx
  | .mAload _ _ => .micro
  | .mBload _ _ => .micro
  | .mStep _ _ => .micro
  | .mLoop _ _ => .micro
  | .mEndloop _ => .micro
  | .mAddp _ _ _ _ => .micro
  | .mSetp _ _ _ _ => .micro
  | .mJcmp _ _ _ _ _ => .micro
  | .mZero _ => .micro
  | .mDrain _ _ _ _ _ _ _ => .micro
  | .mSeal => .micro
  | .mShape _ _ _ => .micro
  | .mFmt _ _ => .micro
  | .mPermit _ => .micro
  | .mEnd => .micro
  | .nopCopy q => .slot q.slot
  | .cpy q _ _ _ _ => .slot q.slot
  | .cpy2 q _ _ _ _ => .slot q.slot
  | .cpyb q _ _ _ _ => .slot q.slot
  | .acc q _ _ _ _ _ _ => .slot q.slot
  | .cas q _ _ _ _ _ _ => .slot q.slot
  | .faa q _ _ _ _ _ => .slot q.slot
  | .xchg q _ _ _ _ _ => .slot q.slot
  | .fput q _ _ _ _ => .slot q.slot
  | .subs q _ _ _ _ => .slot q.slot
  | .unsub q _ _ => .slot q.slot
  | .slotrel q _ _ => .slot q.slot
  | .publ q _ _ _ _ => .slot q.slot
  | .cfence q _ _ => .slot q.slot
  | .cpys q _ _ _ _ => .slot q.slot
  | .coll q _ _ _ _ _ _ => .slot q.slot
  | .nopSys => .slot .sys
  | .spawn _ _ => .slot .sys
  | .spawnl _ _ _ => .slot .sys
  | .join _ => .slot .sys
  | .merge => .slot .sys
  | .yield => .slot .sys
  | .tinfo _ _ => .slot .sys
  | .viewa _ _ => .slot .sys
  | .fget _ _ => .slot .sys
  | .fwaitSpin _ _ _ => .slot .sys
  | .fwaitYield _ _ _ => .slot .sys
  | .runinl _ _ => .slot .sys
  | .gjoin _ _ => .slot .sys
  | .gleave _ => .slot .sys
  | .arrive _ _ => .slot .sys
  | .arriveDrop _ _ => .slot .sys
  | .bwait _ _ _ => .slot .sys
  | .sstep _ _ => .slot .sys
  | .tcexp _ _ => .slot .sys
  | .tcwait _ _ => .slot .sys
  | .lease _ _ _ => .slot .sys
  | .leaserel _ => .slot .sys
  | .permit _ _ => .slot .sys
  | .segs _ _ => .slot .sys
  | .trap _ => .slot .sys
  | .trapDup _ => .slot .sys
  | .utret => .slot .sys
  | .vdist _ _ _ => .slot .sys
  | .vdmap _ _ => .slot .sys
  | .storeAcknowledgement => .none

/-- The index of a slot in its bundle (spec/02 R32). -/
def Slot.index : Slot → Nat
  | .ctl => 0
  | .mem => 1
  | .va => 2
  | .vb => 3
  | .mx => 4
  | .ca => 5
  | .cb => 6
  | .sys => 7

/-- The slots of a bundle in order. -/
def Slot.all : List Slot := [.ctl, .mem, .va, .vb, .mx, .ca, .cb, .sys]

/-- The word of slot `i` in a bundle read as a number (spec/02 R32). -/
def bundleWord (bundle i : Nat) : Nat := bundle / 2 ^ (32 * i) % 2 ^ 32

/-- A bundle as its slots' words, lowest slot first. -/
def bundleWords (bundle : Nat) : List Nat := (List.range 8).map (bundleWord bundle)

/-- The bundle that holds one word in one slot and no-ops in the others (spec/02 R32). -/
def bundleWith (sl : Slot) (w : Nat) : Nat := w * 2 ^ (32 * sl.index)

/-- The first slot in which a 32-bit word is an instruction (the table gives a row no slot, see log 7). -/
def firstSlot (w : Nat) : List Slot → Option (Slot × Instr)
  | [] => none
  | sl :: rest =>
    match decodeSlot sl w with
    | .ok i => some (sl, i)
    | .error _ => firstSlot w rest

/-- The instruction the decoder reads from a table word: a 64-bit word is a micro-word, and a 32-bit word is read in
the first slot that takes it (log 7). -/
def decodeTableWord (nbits w : Nat) : Option Instr :=
  if nbits = 64 then (decodeMicro w).toOption
  else (firstSlot w Slot.all).map Prod.snd

end Sys2Proof
end

