-- ==== Sys2Proof/Config.lean ====
section
/-!
DEFINITION. What an implementation fixes and the values the spec leaves open.
The opaque constants have no body: nothing can be proved of their values.
-/
set_option linter.unusedVariables false

namespace Sys2Proof.Config

/-- A free 64-bit value (log 5). -/
opaque freeWord : Nat → BitVec 64
/-- A free vector (log 5). -/
opaque freeVec : Nat → BitVec 4096
/-- A free granule (log 5). -/
opaque freeGranule : Nat → BitVec 512
/-- A free byte (log 5). -/
opaque freeByte : Nat → BitVec 8
/-- The micro-words 0 to 1,023 of the Yarxon library, whose contents the spec does not give (log 11). -/
opaque libraryWord : Nat → BitVec 64

/-- Physical cores of a compute die (spec/01 R11). -/
def coresPerDie : Nat := 36
/-- Compute dies of the package (spec/01 R8). -/
def dies : Nat := 8
/-- Pier entries (spec/01 R25). -/
def pierSize : Nat := 256
/-- Commands of a copy queue (spec/11 R218). -/
def copyQueueSize : Nat := 64
/-- Scratchpad bytes (spec/01 R25). -/
def spadBytes : Nat := 0x400000
/-- Base of the own-scratchpad window (spec/05 R98). -/
def spadBase : Nat := 0x00F0000000000000
/-- Base of the own-VRF window (spec/05 R98). -/
def vrfBase : Nat := 0x00F0000001000000
/-- Bytes of the own-VRF window (spec/05 R98). -/
def vrfBytes : Nat := 0x200000
/-- Base of the other-cores window (spec/05 R98). -/
def otherBase : Nat := 0x00F1000000000000
/-- End of the user-data window (spec/05 R98). -/
def userEnd : Nat := 0x00F0000000000000
/-- Base of the host window (spec/05 R98). -/
def hostBase : Nat := 0x00F8000000000000
/-- Base of the peer window (spec/05 R98). -/
def peerBase : Nat := 0x00FC000000000000
/-- End of the windows (spec/05 R98). -/
def vaEnd : Nat := 0x0100000000000000
/-- Offset of the stage barriers with no plan entry of kind 2 (spec/13 R280). -/
def barrierBase : Nat := 0x3FFE00
/-- Populated bytes of a stack's window (spec/01 R17). -/
def stackBytes : Nat := 0x1800000000
/-- Patterns of the Keystone's test (spec/10 R209). -/
def keystoneCycles : Nat := 18432
/-- Ticks of a refill epoch (spec/14 R289). -/
def epochTicks : Nat := 1000
/-- The full part of spec/00 R4: 8 dies, 16 stacks, every core enabled but the spare of each cluster; which core is the
spare is fused (spec/01 R11) and the model takes the ninth (log 9). -/
def spareInCluster : Nat := 8
/-- Latent heat capacity in microjoules (spec/14 R297: about 20,480 J; log 9). -/
def ecapMicro : Nat := 20480000000
/-- Refreeze factor in hundredths (spec/14 R297: about 0.78; log 9). -/
def rfPercent : Nat := 78
/-- Birth frequency of every monitor, in arbitrary units (fused, spec/14 R303; log 9). -/
def birthFreq : Nat := 1000000
/-- Fused guard-band limit of a cluster in mV (spec/14 R304; log 9). -/
def guardLimit : Nat := 40

/-- Granules that a die's read cache of 32 MiB holds (spec/01 R12). -/
def cacheLines : Nat := 524288

/-- Granules that a core's instruction cache of 256 KiB holds (spec/01 R25). -/
def icacheLines : Nat := 4096

/-- Requests that a core may have outstanding, and those of its copy engines and matrix pipes among them (spec/05 R121). -/
def maxRequests : Nat := 3072
def maxEngineRequests : Nat := 2944

end Sys2Proof.Config
end

