-- ==== Sys2Proof/Machine/Numbers.lean ====
section
/-!
DEFINITION. Number formats, rounding, block tags and exact arithmetic (spec/03 R54 to R74).
An exact value is NaN, an infinity or a signed fraction of naturals; a zero keeps its sign.
-/
set_option linter.unusedVariables false

namespace Sys2Proof.Machine

/-- An exact value: `fin neg n d` is n/d with the sign of `neg`, and `d` is never 0 in a value that these functions make
(spec/03, "Values are real numbers, signed zeros, +Inf, -Inf or NaN"). -/
inductive ExtNum where
  | nan
  | inf (neg : Bool)
  | fin (neg : Bool) (n d : Nat)
deriving DecidableEq, Repr

/-- A binary floating-point format: exponent bits, fraction bits, bias, code of the largest finite magnitude, canonical NaN
code, and whether it has no infinities and saturates (spec/03 R58 to R60, R66). -/
structure FpFmt where
  eb : Nat
  fb : Nat
  bias : Nat
  maxCode : Nat
  nanCode : Nat
  sat : Bool
deriving DecidableEq, Repr

/-- binary32 (spec/03 R58). -/
def f32 : FpFmt := ⟨8, 23, 127, 0x7F7FFFFF, 0x7FC00000, false⟩
/-- bfloat16 (spec/03 R58). -/
def bf16 : FpFmt := ⟨8, 7, 127, 0x7F7F, 0x7FC0, false⟩
/-- binary16 (spec/03 R58). -/
def f16 : FpFmt := ⟨5, 10, 15, 0x7BFF, 0x7E00, false⟩
/-- E4M3 (spec/03 R59). -/
def f8a : FpFmt := ⟨4, 3, 7, 0x7E, 0x7F, true⟩
/-- E5M2 (spec/03 R60). -/
def f8b : FpFmt := ⟨5, 2, 15, 0x7B, 0x7E, false⟩

/-- The sign bit of a format's codes. -/
def FpFmt.signBit (f : FpFmt) : Nat := 2 ^ (f.eb + f.fb)

/-- A value n * 2^e as a fraction. -/
def scaled (neg : Bool) (n : Nat) (e : Int) : ExtNum :=
  if 0 ≤ e then .fin neg (n * 2 ^ e.toNat) 1 else .fin neg n (2 ^ (-e).toNat)

/-- The value of a code (spec/03 R58 to R60). -/
def FpFmt.decode (f : FpFmt) (code : Nat) : ExtNum :=
  let neg := code / f.signBit % 2 == 1
  let mag := code % f.signBit
  let e := mag / 2 ^ f.fb
  let m := mag % 2 ^ f.fb
  if f.maxCode < mag then
    if !f.sat && mag = f.maxCode + 1 then .inf neg else .nan
  else if e = 0 then scaled neg m (1 - (f.bias : Int) - f.fb)
  else scaled neg (2 ^ f.fb + m) ((e : Int) - f.bias - f.fb)

/-- The floor of log2 (n/d) for positive n and d. -/
def ilog2 (n d : Nat) : Int :=
  let e : Int := (Nat.log2 n : Int) - (Nat.log2 d : Int)
  let below := if 0 ≤ e then decide (n < d * 2 ^ e.toNat) else decide (n * 2 ^ (-e).toNat < d)
  if below then e - 1 else e

/-- Whether a truncated magnitude `m` with remainder `r` of `q` rounds away from zero (spec/03 R64). -/
def roundsUp (mode : Round) (neg : Bool) (m r q : Nat) : Bool :=
  match mode with
  | .rne => decide (q < 2 * r) || (decide (2 * r = q) && m % 2 == 1)
  | .rtz => false
  | .rup => !neg && r != 0
  | .rdn => neg && r != 0
  | .rod => r != 0 && m % 2 == 0

/-- The magnitude code of n/d rounded in a format, before overflow is considered: exponent and fraction joined, so that a
carry of the significand enters the exponent (spec/03 R64). -/
def FpFmt.roundMag (f : FpFmt) (mode : Round) (neg : Bool) (n d : Nat) : Nat :=
  let emin : Int := 1 - (f.bias : Int)
  let e := max (ilog2 n d) emin
  let sh : Int := e - f.fb
  let a := if 0 ≤ sh then n else n * 2 ^ (-sh).toNat
  let q := if 0 ≤ sh then d * 2 ^ sh.toNat else d
  let m := a / q
  let m' := if roundsUp mode neg m (a % q) q then m + 1 else m
  m' + (e - emin).toNat * 2 ^ f.fb

/-- The result of an overflow (spec/03 R64, R66). -/
def FpFmt.overflow (f : FpFmt) (mode : Round) (neg : Bool) : Nat :=
  if f.sat then f.maxCode
  else match mode with
    | .rne => f.maxCode + 1
    | .rtz | .rod => f.maxCode
    | .rup => if neg then f.maxCode else f.maxCode + 1
    | .rdn => if neg then f.maxCode + 1 else f.maxCode

/-- round(x, fmt, mode) of spec/03 R64 and R66. -/
def FpFmt.round (f : FpFmt) (mode : Round) : ExtNum → Nat
  | .nan => f.nanCode
  | .inf neg => (if neg then f.signBit else 0) + (if f.sat then f.maxCode else f.maxCode + 1)
  | .fin neg n d =>
    let s := if neg then f.signBit else 0
    if n = 0 then s
    else
      let c := f.roundMag mode neg n d
      s + (if f.maxCode < c then f.overflow mode neg else c)

/-- The value of an FP32 encoding. -/
def num32 (x : Nat) : ExtNum := f32.decode x

/-- The FP32 encoding of a value, RNE. -/
def to32 (x : ExtNum) : Lane := BitVec.ofNat 32 (f32.round .rne x)

def ExtNum.isNaN : ExtNum → Bool
  | .nan => true
  | _ => false

def ExtNum.isZero : ExtNum → Bool
  | .fin _ 0 _ => true
  | _ => false

def ExtNum.neg : ExtNum → ExtNum
  | .nan => .nan
  | .inf s => .inf (!s)
  | .fin s n d => .fin (!s) n d

def ExtNum.abs : ExtNum → ExtNum
  | .nan => .nan
  | .inf _ => .inf false
  | .fin _ n d => .fin false n d

def ExtNum.isNeg : ExtNum → Bool
  | .nan => false
  | .inf s => s
  | .fin s _ _ => s

/-- The signed numerator of a finite value. -/
def snum (neg : Bool) (n : Nat) : Int := if neg then -(n : Int) else n

/-- The exact product (spec/03 R67 product). -/
def ExtNum.mul : ExtNum → ExtNum → ExtNum
  | .nan, _ => .nan
  | _, .nan => .nan
  | .inf s, .inf t => .inf (s != t)
  | .inf s, .fin t n _ => if n = 0 then .nan else .inf (s != t)
  | .fin t n _, .inf s => if n = 0 then .nan else .inf (s != t)
  | .fin s n d, .fin t n' d' => .fin (s != t) (n * n') (d * d')

/-- The exact sum of two values; an exact zero sum of opposite signs is -0 in RDN and +0 otherwise (spec/03 R65). -/
def ExtNum.add (mode : Round) : ExtNum → ExtNum → ExtNum
  | .nan, _ => .nan
  | _, .nan => .nan
  | .inf s, .inf t => if s = t then .inf s else .nan
  | .inf s, .fin _ _ _ => .inf s
  | .fin _ _ _, .inf s => .inf s
  | .fin s n d, .fin t n' d' =>
    let x := snum s n * d' + snum t n' * d
    if x = 0 then .fin (if n = 0 && n' = 0 && s = t then s else mode == .rdn) 0 1
    else .fin (decide (x < 0)) x.natAbs (d * d')

/-- The exact quotient; x/0 of a finite nonzero x is an infinity, 0/0 and inf/inf are NaN (spec/04 R92). -/
def ExtNum.div : ExtNum → ExtNum → ExtNum
  | .nan, _ => .nan
  | _, .nan => .nan
  | .inf _, .inf _ => .nan
  | .inf s, .fin t _ _ => .inf (s != t)
  | .fin s _ _, .inf t => .fin (s != t) 0 1
  | .fin s n d, .fin t n' d' =>
    if n' = 0 then if n = 0 then .nan else .inf (s != t)
    else .fin (s != t) (n * d') (d * n')

/-- Comparison of two values that are not NaN: zeros are equal. -/
def ExtNum.lt : ExtNum → ExtNum → Bool
  | .nan, _ => false
  | _, .nan => false
  | .inf s, .inf t => s && !t
  | .inf s, .fin _ _ _ => s
  | .fin _ _ _, .inf t => !t
  | .fin s n d, .fin t n' d' => decide (snum s n * d' < snum t n' * d)

/-- Equality of values that are not NaN: zeros are equal. -/
def ExtNum.eqv : ExtNum → ExtNum → Bool
  | .nan, _ => false
  | _, .nan => false
  | .inf s, .inf t => s == t
  | .inf _, .fin _ _ _ => false
  | .fin _ _ _, .inf _ => false
  | .fin s n d, .fin t n' d' => decide (snum s n * d' = snum t n' * d)

/-- The order of minimum and maximum, in which -0 is smaller than +0 (spec/08 R163). -/
def ExtNum.ltZ (x y : ExtNum) : Bool := x.lt y || (x.isZero && y.isZero && x.isNeg && !y.isNeg)

/-- The integer square root, one binary digit for each unit of fuel. -/
def isqrtAux (n : Nat) : Nat → Nat → Nat
  | 0, acc => acc
  | k + 1, acc => isqrtAux n k (if (acc + 2 ^ k) * (acc + 2 ^ k) ≤ n then acc + 2 ^ k else acc)

/-- The integer square root. -/
def isqrt (n : Nat) : Nat := isqrtAux n (Nat.log2 n / 2 + 1) 0

/-- A value that rounds as the square root of n/d does in every format of 24 bits or fewer: 64 significant bits of it,
with an odd last bit when it is not exact (round to odd keeps every later rounding). -/
def sqrtFrac (n d : Nat) : ExtNum :=
  let k := 64 + Nat.log2 d
  let a := n * 4 ^ k / d
  let r := isqrt a
  let sticky := if r * r = a && n * 4 ^ k % d = 0 then 0 else 1
  .fin false (2 * r + sticky) (2 * 2 ^ k)

/-- √x (spec/04 R92). -/
def ExtNum.sqrt : ExtNum → ExtNum
  | .nan => .nan
  | .inf s => if s then .nan else .inf false
  | .fin s n d => if n = 0 then .fin s 0 1 else if s then .nan else sqrtFrac n d

/-- 1/√x (spec/03 R73). -/
def ExtNum.rsqrt : ExtNum → ExtNum
  | .nan => .nan
  | .inf s => if s then .nan else .fin false 0 1
  | .fin s n d => if n = 0 then .inf s else if s then .nan else sqrtFrac d n

/-- 2^f for f = Σ bits 2^-j in fixed point with `p` fraction bits: the factors 2^(2^-j) come by repeated square roots. -/
def exp2Frac (p : Nat) : Nat → Nat → Nat → Nat → Nat
  | 0, _, _, acc => acc
  | k + 1, t, f, acc =>
    let t' := isqrt (t * 2 ^ p)
    exp2Frac p k t' f (if f / 2 ^ k % 2 = 1 then acc * t' / 2 ^ p else acc)

/-- 2^x correctly rounded by a later RNE (spec/03 R73): exact for an integer x, else 120 fraction bits with an odd last
bit; x beyond the range of FP32 is cut to its ends. -/
def ExtNum.exp2 : ExtNum → ExtNum
  | .nan => .nan
  | .inf s => if s then .fin false 0 1 else .inf false
  | .fin s n d =>
    if !s && 128 * d ≤ n then .inf false
    else if s && 150 * d < n then .fin false 0 1
    else
      let x := snum s n
      let i := x / (d : Int)
      let f := (x % (d : Int)).toNat
      if f = 0 then scaled false 1 i
      else
        let fb := f * 2 ^ 96 / d
        let y := exp2Frac 160 96 (2 * 2 ^ 160) fb (2 ^ 160)
        scaled false (2 * y + 1) (i - 161)

/-- Binary digits of log2 of y/2^p, for y in [2^p, 2^(p+1)), by repeated squaring. -/
def log2Bits (p : Nat) : Nat → Nat → Nat → Nat
  | 0, _, acc => acc
  | k + 1, y, acc =>
    let z := y * y / 2 ^ p
    if 2 ^ (p + 1) ≤ z then log2Bits p k (z / 2) (2 * acc + 1) else log2Bits p k z (2 * acc)

/-- log2 x correctly rounded by a later RNE (spec/03 R73): exact for powers of 2, else 96 fraction bits with an odd last
bit. -/
def ExtNum.log2 : ExtNum → ExtNum
  | .nan => .nan
  | .inf s => if s then .nan else .inf false
  | .fin s n d =>
    if n = 0 then .inf true
    else if s then .nan
    else
      let e := ilog2 n d
      let y := if 0 ≤ e then n * 2 ^ 400 / (d * 2 ^ e.toNat) else n * 2 ^ (400 + (-e).toNat) / d
      let exact := if 0 ≤ e then n = d * 2 ^ e.toNat else n * 2 ^ (-e).toNat = d
      if exact then .fin (decide (e < 0)) e.natAbs 1
      else
        let x : Int := e * 2 ^ 97 + (2 * (log2Bits 400 96 y 0 : Nat) + 1 : Nat)
        .fin (decide (x < 0)) x.natAbs (2 ^ 97)

/-- 1/x (spec/03 R73). -/
def ExtNum.rcp (x : ExtNum) : ExtNum :=
  match x with
  | .nan => .nan
  | .inf s => .fin s 0 1
  | .fin s n d => if n = 0 then .inf s else .fin s d n

/-- A value rounded to an integer (spec/03 R66).
ROD sets the units bit of an inexact result, as spec/03 R64 has it of the last bit of a significand; the rule names no integer target
(log 70). -/
def roundInt (mode : Round) (neg : Bool) (n d : Nat) : Int :=
  let m := n / d
  snum neg (if roundsUp mode neg m (n % d) d then m + 1 else m)

/-- Conversion to an integer range [lo, hi]: NaN gives 0, the rest saturates (spec/03 R66). -/
def toIntRange (mode : Round) (lo hi : Int) : ExtNum → Int
  | .nan => 0
  | .inf s => if s then lo else hi
  | .fin s n d => max lo (min hi (roundInt mode s n d))

/-- The exact value of an integer. -/
def ofInt (x : Int) : ExtNum := .fin (decide (x < 0)) x.natAbs 1

/-- An integer as a bit pattern of `w` bits. -/
def intBits (w : Nat) (x : Int) : Nat := (x % (2 ^ w : Int)).toNat

/-- round to an integral FP value (FRINT, spec/04 R94). -/
def ExtNum.rint (mode : Round) : ExtNum → ExtNum
  | .nan => .nan
  | .inf s => .inf s
  | .fin s n d => .fin s (roundInt mode s n d).natAbs 1

/-- The minimum of the FP types (spec/08 R163). -/
def ExtNum.min (x y : ExtNum) : ExtNum := if x.isNaN || y.isNaN then .nan else if y.ltZ x then y else x

/-- The maximum of the FP types (spec/08 R163). -/
def ExtNum.max (x y : ExtNum) : ExtNum := if x.isNaN || y.isNaN then .nan else if x.ltZ y then y else x

/-- Format codes of a block tag (spec/03 R55). -/
inductive Fmt where
  | f32 | b16 | f16 | f8a | f8b | f4x | i8 | i4
deriving DecidableEq, Repr

/-- The format of a code other than RAW, POISON and the unassigned codes. -/
def Fmt.ofCode : Nat → Option Fmt
  | 1 => some .f32
  | 2 => some .b16
  | 3 => some .f16
  | 4 => some .f8a
  | 5 => some .f8b
  | 6 => some .f4x
  | 7 => some .i8
  | 8 => some .i4
  | _ => none

/-- Bits of an element (spec/03 R55). -/
def Fmt.bits : Fmt → Nat
  | .f32 => 32
  | .b16 | .f16 => 16
  | .f8a | .f8b | .i8 => 8
  | .f4x | .i4 => 4

/-- Elements of a granule (spec/03 R55). -/
def Fmt.elems (f : Fmt) : Nat := 512 / f.bits

/-- Fields of a tag (spec/03 R54). -/
def tagFmt (t : Word) : Nat := t.toNat % 256
def tagXv (t : Word) : Nat := t.toNat / 2 ^ 8 % 256
def tagAxis (t : Word) : Nat := t.toNat / 2 ^ 16 % 2
def tagRes (t : Word) : Nat := t.toNat / 2 ^ 17 % 2 ^ 15
def tagScale (t : Word) : Nat := t.toNat / 2 ^ 32

/-- The tag of the given fields, reserved bits 0. -/
def mkTag (fmt xv axis scale : Nat) : Word :=
  BitVec.ofNat 64 (fmt + xv * 2 ^ 8 + axis * 2 ^ 16 + scale * 2 ^ 32)

/-- The tag of an F32 granule with SCALE 1.0 (spec/11 R238, spec/12 R253). -/
def tagF32One : Word := 0x3F80000000000001#64

/-- FMT is POISON (spec/03 R57). -/
def isPoison (t : Word) : Bool := tagFmt t == 0xFF

/-- A SCALE that R57 accepts: bit 31 clear and not +Inf or NaN. -/
def scaleOk (s : Nat) : Bool := decide (s < 0x7F800000)

/-- A tag's format if the tag passes R57 without its SCALE (FMT assigned, reserved bits clear, XV no NaN for F4X). -/
def tagHeadFmt (t : Word) : Option Fmt :=
  match Fmt.ofCode (tagFmt t) with
  | none => none
  | some f =>
    if tagRes t ≠ 0 then none
    else if f = .f4x && (tagXv t = 0x7F || tagXv t = 0xFF) then none
    else some f

/-- A tag's format if the tag is valid for typed use (spec/03 R57). -/
def tagValidFmt (t : Word) : Option Fmt :=
  match tagHeadFmt t with
  | none => none
  | some f => if scaleOk (tagScale t) then some f else none

/-- Twice the magnitude of the low three bits of an F4X code (spec/03 R61). -/
def f4xHalf : Nat → Nat
  | 0 => 0 | 1 => 1 | 2 => 2 | 3 => 3 | 4 => 4 | 5 => 6 | 6 => 8 | _ => 12

/-- decode(fmt, code, xv) of spec/03 R58 to R62. -/
def Fmt.decode (f : Fmt) (code xv : Nat) : ExtNum :=
  match f with
  | .f32 => Machine.f32.decode code
  | .b16 => bf16.decode code
  | .f16 => Machine.f16.decode code
  | .f8a => Machine.f8a.decode code
  | .f8b => Machine.f8b.decode code
  | .f4x => if code = 8 then Machine.f8a.decode xv else .fin (decide (8 ≤ code)) (f4xHalf (code % 8)) 2
  | .i8 => ofInt (signedOf 8 code)
  | .i4 => ofInt (signedOf 4 code)

/-- The code of element i of a granule (spec/03 R56). -/
def elemCode (f : Fmt) (g : Granule) (i : Nat) : Nat := g.toNat / 2 ^ (f.bits * i) % 2 ^ f.bits

/-- value(blk, i): the exact value of element i under a tag (spec/03 R63). -/
def elemValue (f : Fmt) (t : Word) (g : Granule) (i : Nat) : ExtNum :=
  match f.decode (elemCode f g i) (tagXv t), num32 (tagScale t) with
  | .nan, _ => .nan
  | .inf s, .fin _ n _ => if n = 0 then .nan else .inf s
  | .inf s, _ => .inf s
  | .fin s n d, .fin _ n' d' => .fin s (n * n') (d * d')
  | .fin _ _ _, _ => .nan

/-- The candidates of F4X with an XV: (code, sign, numerator, denominator); an XV whose value another code represents is none of
its own (spec/03 R70). -/
def f4xCands (xv : Nat) : List (Nat × Bool × Nat × Nat) :=
  let cs := ((List.range 16).filter (fun c => c ≠ 8)).map (fun c => (c, decide (8 ≤ c), f4xHalf (c % 8), 2))
  cs ++
  (match Machine.f8a.decode xv with
   | .fin s n d => if n = 0 || cs.any (fun c => c.2.1 = s && c.2.2.1 * d = n * c.2.2.2) then [] else [(8, s, n, d)]
   | _ => [])

/-- Whether candidate `a` is preferred to `b` for the value x = sx·n/d: nearer; on a tie the code with bit 0 clear, then the
smaller magnitude (spec/03 R70). -/
def f4xBetter (x : Int) (d : Nat) (a b : Nat × Bool × Nat × Nat) : Bool :=
  let da := (snum a.2.1 a.2.2.1 * d - x * a.2.2.2).natAbs * b.2.2.2
  let db := (snum b.2.1 b.2.2.1 * d - x * b.2.2.2).natAbs * a.2.2.2
  if da ≠ db then da < db
  else if a.1 % 2 ≠ b.1 % 2 then a.1 % 2 = 0
  else a.2.2.1 * b.2.2.2 < b.2.2.1 * a.2.2.2

/-- The best candidate of a list. -/
def f4xBest (x : Int) (d : Nat) : List (Nat × Bool × Nat × Nat) → Nat × Bool × Nat × Nat → Nat
  | [], best => best.1
  | c :: cs, best => f4xBest x d cs (if f4xBetter x d c best then c else best)

/-- The F4X code of a value, RNE (spec/03 R66, R70). -/
def f4xNearest (xv : Nat) (s : Bool) (n d : Nat) : Nat :=
  f4xBest (snum s n) d (f4xCands xv) (0, false, 0, 2)

/-- The F4X code of a value, RTZ: the largest candidate magnitude of its sign that does not exceed it, else code 0
(spec/03 R70). -/
def f4xTrunc (xv : Nat) (s : Bool) (n d : Nat) : Nat :=
  let ok := (f4xCands xv).filter (fun c => c.2.1 = s && decide (0 < c.2.2.1) && decide (c.2.2.1 * d ≤ n * c.2.2.2))
  (ok.foldl (fun (b : Nat × Nat × Nat) c =>
    if b.2.1 * c.2.2.2 < c.2.2.1 * b.2.2 then (c.1, c.2.2.1, c.2.2.2) else b) (0, 0, 1)).1

/-- The largest F4X candidate of a sign, for saturation (spec/03 R66). -/
def f4xMax (xv : Nat) (s : Bool) : Nat := f4xTrunc xv s 1000 1

/-- round(y, fmt, mode) as a code of a tagged format (spec/03 R64, R66, R70). -/
def Fmt.roundCode (f : Fmt) (xv : Nat) (mode : Round) (y : ExtNum) : Nat :=
  match f with
  | .f32 => Machine.f32.round mode y
  | .b16 => bf16.round mode y
  | .f16 => Machine.f16.round mode y
  | .f8a => Machine.f8a.round mode y
  | .f8b => Machine.f8b.round mode y
  | .i8 => intBits 8 (toIntRange mode (-128) 127 y)
  | .i4 => intBits 4 (toIntRange mode (-8) 7 y)
  | .f4x =>
    match y with
    | .nan => 0
    | .inf s => f4xMax xv s
    | .fin s n d => if n = 0 then 0 else if mode = .rne then f4xNearest xv s n d else f4xTrunc xv s n d

/-- quantise(x, s, fmt, xv, mode) of spec/03 R70; the scale is an FP32 encoding. -/
def quantise (x : ExtNum) (scale : Nat) (f : Fmt) (xv : Nat) (mode : Round) : Nat :=
  if x.isNaN then f.roundCode xv mode .nan
  else if (num32 scale).isZero then 0
  else f.roundCode xv mode (x.div (num32 scale))

/-- The largest finite magnitude of a format, as a fraction (spec/03 R71). -/
def Fmt.largest (f : Fmt) (xv : Nat) : ExtNum :=
  match f with
  | .f32 => Machine.f32.decode Machine.f32.maxCode
  | .b16 => bf16.decode bf16.maxCode
  | .f16 => Machine.f16.decode Machine.f16.maxCode
  | .f8a => ofInt 448
  | .f8b => ofInt 57344
  | .f4x => ExtNum.max (ofInt 6) (Machine.f8a.decode xv).abs
  | .i8 => ofInt 127
  | .i4 => ofInt 7

/-- The running maximum of block_scale: NaN skipped, an infinity counts as the largest finite FP32 and, as the
pseudocode of R71 says, replaces the maximum so far. -/
def scaleMax (m v : ExtNum) : ExtNum :=
  match v with
  | .nan => m
  | .inf _ => num32 0x7F7FFFFF
  | .fin _ n d => ExtNum.max m (.fin false n d)

/-- block_scale(x[], fmt, xv) as an FP32 encoding (spec/03 R71). -/
def blockScale (xs : List ExtNum) (f : Fmt) (xv : Nat) : Nat :=
  let m := xs.foldl scaleMax (.fin false 0 1)
  if m.isZero then 0 else Machine.f32.round .rup (m.div (f.largest xv))

/-- The exact dyadic sum of finite terms as an integer over a common denominator. -/
def sumFin : List ExtNum → Int × Nat → Int × Nat
  | [], acc => acc
  | .fin s n d :: ts, (x, q) =>
    if d = q then sumFin ts (x + snum s n, q)
    else if q % d = 0 then sumFin ts (x + snum s n * (q / d : Nat), q)
    else if d % q = 0 then sumFin ts (x * (d / q : Nat) + snum s n, d)
    else sumFin ts (x * d + snum s n * q, q * d)
  | _ :: ts, acc => sumFin ts acc

/-- exact_sum of spec/03 R67, as an FP32 encoding. -/
def exactSum (ts : List ExtNum) : Lane :=
  if ts.any ExtNum.isNaN then 0x7FC00000#32
  else
    let p := ts.any (fun t => t = .inf false)
    let m := ts.any (fun t => t = .inf true)
    if p && m then 0x7FC00000#32
    else if p then 0x7F800000#32
    else if m then 0xFF800000#32
    else
      let (x, q) := sumFin ts (0, 1)
      if x = 0 then if ts.all ExtNum.isNeg then 0x80000000#32 else 0
      else to32 (.fin (decide (x < 0)) x.natAbs q)

/-- A node of the fixed reduction tree, level by level (spec/03 R74). -/
def treeLevel (op : Lane → Lane → Lane) : List Lane → List Lane
  | a :: b :: rest => op a b :: treeLevel op rest
  | rest => rest

/-- The levels of the tree over 128 lanes: levels.[l][i] is node[l][i] (spec/03 R74). -/
def treeLevels (op : Lane → Lane → Lane) : Nat → List Lane → List (List Lane)
  | 0, xs => [xs]
  | k + 1, xs => xs :: treeLevels op k (treeLevel op xs)

/-- The root of the tree (spec/03 R74). -/
def treeRoot (op : Lane → Lane → Lane) (xs : List Lane) : Lane :=
  ((treeLevels op 7 xs).getLast?.getD []).headD 0

/-- The prefix of lanes 0 to i: the nodes of the aligned blocks that cover it, from lane 0 upward, combined from left to
right (spec/03 R74).
A prefix of one leaf applies no node, so that the prefix of lane 0 is lane 0 as it stands, a NaN of any payload too (log 72). -/
def treePrefix (op : Lane → Lane → Lane) (levels : List (List Lane)) : Nat → Nat → Nat → Option Lane → Lane
  | 0, at_, n, acc => acc.getD 0
  | l + 1, at_, n, acc =>
    if 2 ^ l ≤ n then
      let x := (levels.getD l []).getD (at_ / 2 ^ l) 0
      treePrefix op levels l (at_ + 2 ^ l) (n - 2 ^ l) (some (match acc with | none => x | some a => op a x))
    else treePrefix op levels l at_ n acc

/-- The inclusive scan (spec/03 R74). -/
def treeScan (op : Lane → Lane → Lane) (xs : List Lane) : List Lane :=
  let levels := treeLevels op 7 xs
  (List.range 128).map (fun i => treePrefix op levels 8 0 (i + 1) none)

end Sys2Proof.Machine
end

