-- ==== Sys2Proof/Machine/CoreState.lean ====
section
/-!
DEFINITION. The state of one core: Arch is the part that belongs to the running task and that frames and images save
(spec/12 R263, spec/15 R318, R323), Core is the rest.
-/
set_option linter.unusedVariables false

namespace Sys2Proof.Machine

/-- A table by number, in rising order of the numbers. -/
abbrev Tbl (α : Type) := List (Nat × α)

/-- A stream port (spec/07 R143, R144); `age` counts the cycles since its GSTART or GSEEK, `aged` says that the coming cycle is
counted already (spec/07 R145). -/
structure PortState where
  base : BitVec 12
  wrap : Bool
  mode : Bool
  stride : Vector (BitVec 13) 4
  cnt : Vector (BitVec 12) 4
  pos : Nat
  act : Bool
  exh : Bool
  age : Nat
  aged : Bool
deriving DecidableEq, Repr

/-- A port as dispatch leaves it (spec/07 R143). -/
def PortState.init : PortState :=
  ⟨0, false, false, Vector.replicate 4 0, Vector.replicate 4 0, 0, false, false, 8, false⟩

/-- The state of a VRF segment (spec/07 R152); `left` counts bundles until ON. -/
inductive Seg where
  | off
  | retain
  | waking (fromOff : Bool) (left : Nat)
  | on
deriving DecidableEq, Repr

/-- A hardware-loop level (spec/04 R89). -/
structure LoopLevel where
  act : Bool
  start : Word
  stop : Word
  count : Nat
deriving DecidableEq, Repr

def LoopLevel.init : LoopLevel := ⟨false, 0, 0, 0⟩

/-- A taken control transfer whose delay bundles have not all issued (spec/02 R41, R44).
`leaves` says that its target leaves loop bodies (spec/04 R91). -/
structure Pend where
  target : Word
  left : Nat
  leaves : Bool
deriving DecidableEq, Repr

/-- What a port command does when it takes effect (spec/07 R148, R149). -/
inductive PortCmd where
  | cfg (w : PortWord) (x : Word)
  | start
  | stop
  | seek (pos : Nat)
deriving DecidableEq, Repr

/-- One destination of a result in flight, with its value (spec/15 R314). -/
inductive Landing where
  | s (r : Reg) (x : Word)
  | p (r : PredReg) (x : Bool)
  | v (r : Reg) (x : Vec)
  | m (r : MaskReg) (x : Mask)
  | q (x : Vec)
  | vrf (i : Nat) (x : Vec)
  | k (x : BitVec 32)
  | mp (i : ParamReg) (x : Word)
  | utvec (x : Word)
  | sres (x : BitVec 4)
  | port (g : Port) (c : PortCmd)
  | tcexp (sb : Fin 64) (n : Nat)
deriving DecidableEq, Repr

/-- A fixed-latency result in flight: it lands for the bundle reached after `left` more bundles (spec/02 R43,
spec/15 R314). -/
structure Flight where
  left : Nat
  slot : Nat
  seq : Nat
  pc : Word
  lands : List Landing
deriving DecidableEq, Repr

/-- A shadow or VCHK check whose verdict is known after `left` more cycles (spec/08 R178); `diff` is a VCHK's lowest
differing lane, `elems` what the narrow shadow is compared with, element by element (spec/04 R96, spec/08 R176). -/
structure Check where
  left : Nat
  slot : Nat
  seq : Nat
  pc : Word
  vchk : Bool
  diff : Option Nat
  elems : List Nat
deriving DecidableEq, Repr

/-- Causes of traps (spec/15 R307). -/
inductive Cause where
  | feEmpty | futEmpty | leaseExpired | trap
  | page | resource
  | illegalOp | misaligned | prot | badTag | badShape | segGated | segWaking | viewOrder | restartViolation | poison
  | residue | dupMismatch | hwUncorr | xferSig | timeout | sealFail
  | watchdog
deriving DecidableEq, Repr

/-- A fault found after issue (spec/05 R109). -/
structure Deferred where
  cause : Cause
  tval : Word
deriving DecidableEq, Repr

/-- A pier entry (spec/05 R120, spec/10 R206): bytes and tags by VA or scratchpad offset, its hold set, a release, or the
copy command it stands for; `qcells` and `qtags` are the Q-path's version of a drained row (spec/10 R203, R211). -/
structure PierEntry where
  id : Nat
  seq : Nat
  hold : List (TileNo × Nat)
  rel : Option Scope
  spad : Bool
  cells : List (Nat × Byte)
  tags : List (Nat × Word)
  qcells : List (Nat × Byte)
  qtags : List (Nat × Word)
  va : Word
  drain : Option Nat
  cmd : Option (CopyQ × Nat)
deriving DecidableEq, Repr

/-- Why a task is suspended (spec/12 R261, R263 to R265, spec/13 R286, spec/15 R318): after a YIELD, in a JOIN, on a future's
cell, for the MERGE of a task that it runs inline and that has left the core, or behind a class-1 trap. -/
inductive Wait where
  | yielded
  | join (d : Reg) (merge : Bool)
  | future (d : Reg) (cell : Word) (until_ : Option Nat)
  | child (t : Word) (d : Reg)
  | page (va : Word)
  | resource (kind : Nat)
deriving DecidableEq, Repr

/-- What holds the core at slot 7 of a bundle whose other slots have committed (spec/12 R261 to R265, spec/13 R285, R286).
A number `until_` or `since` is a FRAME.
`inline` waits to spill, and then for the MERGE of `t`, of which `join` says that JOIN runs it; `runinl` waits for an admission;
`mergeOut` says whether the views are contributed or written and whether a page fault is reported.
`reenter` is a task that is back at slot 7 of its bundle, of which `k` says how it goes on, and `done` completes slot 7, filling a
register with 1 if it names one (spec/12 R263). -/
inductive Block where
  | fget (d : Reg) (addr : Word)
  | fwait (d : Reg) (addr : Word) (spin : Bool) (until_ : Option Nat) (read : Bool)
  | join (d : Reg) (since : Nat) (merge : Bool)
  | runinl (d : Reg) (t : Word)
  | inline (ctx : Nat) (t : Word) (d : Reg) (join merge : Bool)
  | mergeSeals
  | mergeOut (written paged : Bool)
  | suspend (w : Wait)
  | done (d : Option Reg)
  | reenter (k : Block)
deriving DecidableEq, Repr

/-- What a user trap sets aside and UTRET restores (spec/15 R310), with the port vectors read by committed slots, their pier
entries not yet visible and the words of the bundle that is re-entered (spec/02 R41); `cont` says how a slot 7 goes on that was about to
be entered again (spec/12 R263, spec/14 R301). -/
structure TrapState where
  replay : List Flight
  q : Vector Vec 16
  m : Vector Mask 8
  k : BitVec 32
  loops : Vector LoopLevel 4
  order : List LoopNo
  pend : Option Pend
  sres : BitVec 4
  tpc : Word
  popped : List (Port × Vec)
  staged : List PierEntry
  words : List Nat
  cont : Option Block
deriving DecidableEq, Repr

/-- Shape of a step (spec/09 R190 m.shape). -/
structure Shape where
  m : Nat
  n : Nat
  k : Nat
  kg : Nat
  row0 : Nat
  col0 : Nat
deriving DecidableEq, Repr

/-- A micro-loop level (spec/09 R190). -/
structure MLoop where
  act : Bool
  start : Nat
  count : Nat
deriving DecidableEq, Repr

/-- A drain in the engine (spec/09 R194): `next` is the next row index, `wait` the cycles of row schedule until it
leaves; `rd` marks the row read of MACCRD (spec/09 R197), `fresh` an m.drain that the engine has begun in this cycle. -/
structure DrainOp where
  id : Nat
  tile : TileNo
  row0 : Nat
  n : Nat
  next : Nat
  wait : Nat
  addr : Word
  stride : Nat
  tag : Word
  z : Bool
  nw : Bool
  mode : DrainMode
  sealEnd : Bool
  fl : Bool
  rd : Bool
  fresh : Bool
  spc : Word
deriving DecidableEq, Repr

/-- A library routine's progress: its entry and the steps done (spec/09 R189). -/
structure LibRun where
  entry : Nat
  done : Nat
deriving DecidableEq, Repr

/-- A routine in the engine (spec/09 R183). -/
structure Routine where
  rix : Nat
  tile : TileNo
  upc : Nat
  wp : Vector Word 8
  shape : Option Shape
  a : Option (Word × Word)
  b : Option (Word × Word)
  adva : Nat
  advb : Nat
  fa : Nat
  fb : Nat
  loops : Vector MLoop 4
  full : Bool
  sealEnd : Bool
  lib : Option LibRun
  spc : Word
deriving DecidableEq, Repr

/-- What occupies the engine (spec/09 R181): nothing, a timed operation, a step of `total` cycles that completes tile rows `done` to
`rows` - 1 of its region, a drain, the folding of an undrained tile, a seal that waits behind an earlier verdict or for the end of the
call that asks for it, or a wait for tokens before `start` more cycles. -/
inductive EngOp where
  | idle
  | timed (left : Nat)
  | step (left total done rows : Nat)
  | drain (d : DrainOp)
  | foldAll (t : TileNo) (next wait : Nat) (spc : Word)
  | sealWait (t : TileNo) (spc : Word)
  | sealNext (t : TileNo) (spc : Word)
  | tokens (start : Nat)
deriving DecidableEq, Repr

/-- The folds of one path for one tile (spec/10 R202). -/
structure Folds where
  tf : Word
  rs : Tbl Word
  fb : BitVec 128
deriving DecidableEq, Repr

def Folds.zero : Folds := ⟨0, [], 0⟩

/-- A seal that awaits its verdict (spec/10 R205): the open period it seals, cycles left, the bundle that issued it, the
folds and the code difference it compares, whether a value of the period reached a register, and whether the tile was
written after the first fold (spec/11 R237). -/
structure PendSeal where
  period : Nat
  left : Nat
  spc : Word
  fp : Folds
  fq : Folds
  cd : Bool
  tainted : Bool
  stale : Bool
deriving DecidableEq, Repr

/-- The state of one tile: both paths' elements by row (a row not listed is +0), folds, code-difference flag, the
signatures of the last seal, and its seal state (spec/10 R201 to R205, R211, spec/11 R237). -/
structure TileState where
  p : Tbl Vec
  q : Tbl Vec
  fp : Folds
  fq : Folds
  cd : Bool
  lastP : Folds
  lastQ : Folds
  isOpen : Bool
  period : Nat
  pending : Option PendSeal
  tainted : Bool
  wrote : Bool
  lastPeriod : Option Nat
  lastStale : Bool
deriving DecidableEq, Repr

def TileState.zero : TileState :=
  ⟨[], [], Folds.zero, Folds.zero, false, Folds.zero, Folds.zero, false, 0, none, false, false, none, false⟩

/-- MSTAT's last verdict and last routine, and the wait for tokens (spec/09 R198). -/
structure EngStat where
  rix : Nat
  rowp : Nat
  lastv : Nat
  pw : Bool
deriving DecidableEq, Repr

/-- A task's membership of a gang (spec/13 R272). -/
structure GangRec where
  va : Word
  ph : Nat
deriving DecidableEq, Repr

/-- Kinds of gang operation (spec/13 R274, R277, R279). -/
inductive GangKind where
  | join | leave
  | arrive (drop : Bool)
  | bwait (b : Nat)
  | sstep
deriving DecidableEq, Repr

/-- An outstanding gang operation (spec/13 R273): `id` is its place among the core's accesses, `sent` says that the gang
has it. -/
structure GangOp where
  id : Nat
  kind : GangKind
  va : Word
  ph : Nat
  dst : Reg
  sent : Bool
deriving DecidableEq, Repr

/-- A view window of the running task: a declared tile and where its view lies (spec/12 R255, R256).
`pool` says that `addr` is a view-pool VA; else it is a scratchpad offset of physical core `core`. -/
structure ViewWin where
  base : Nat
  size : Nat
  op : Nat
  ty : Nat
  ident : Word
  mergePc : Word
  pool : Bool
  core : Nat
  addr : Nat
deriving DecidableEq, Repr

/-- A wait of MWAIT: its destination, condition and what it waits for; `call` says that it waits for the seal with which the
routine in the engine ends (spec/09 R199). -/
structure MWait where
  d : Reg
  cond : MWaitCond
  drains : List Nat
  seals : List (TileNo × Nat)
  call : Bool
deriving DecidableEq, Repr

/-- Destination of an off-core load (spec/05 R108 to R115). -/
inductive LoadDst where
  | scalar (r : Reg) (bytes : Nat) (signed : Bool)
  | vec (r : Reg)
  | expand (r a : Reg)
  | tag (r : Reg)
deriving DecidableEq, Repr

/-- One part of an off-core access of a core, in one page: a load waiting for its data, a store that has left the pier, or a
write of a copy engine, that waits for home (spec/05 R108, R121, spec/06 R125, R131, R132).
`va` is the first byte of the whole access, `lo` and `n` the part's bytes, `got` the granules that a performed part of a load has
read.
A store has its bytes and tags by VA in `cells` and `tags` and by physical address in `pas` and `paTags`.
`tva` is the VA that was translated, after any remapping, `kind` the page's ORD, `cached` whether the die's read cache may hold it.
`drain` marks the drain queue, `cmd` a write of a copy command, `acq` an acquire, `ticks` the tick at which it left its die,
`held` an access held behind a fault (spec/05 R109).
`die` is the die of the unit that writes, and `order` numbers the stores of one die in the order in which its read cache observes them
(spec/06 R129).
`oldSel` marks one that was translated before a publication's swap (spec/06 R136). -/
structure MemReq where
  id : Nat
  ctx : Nat
  va : Word
  lo : Nat
  n : Nat
  load : Option LoadDst
  got : Option (List (Granule × Word))
  cells : List (Nat × Byte)
  tags : List (Nat × Word)
  pas : List (Nat × Byte)
  paTags : List (Nat × Word)
  tva : Nat
  kind : Nat
  cached : Bool
  drain : Option Nat
  cmd : Option (CopyQ × Nat)
  acq : Option Scope
  ticks : Option Nat
  held : Bool
  die : Nat
  order : Nat
  oldSel : Bool
deriving DecidableEq, Repr

/-- An ordering point that a FENCE or a synchronising operation inserts (spec/05 R117, spec/06 R133). -/
structure OrderPoint where
  id : Nat
  rel : Option Scope
  acq : Option Scope
  full : Bool
  mem : Bool
  uo : Bool
deriving DecidableEq, Repr

/-- The part of a core that belongs to the running task.
`back` is the wait to which a task goes back after a class-1 trap that was raised while it waited, `mergeFor` the task and left
block for which a merge routine runs, `permits` the token requests withdrawn when it left its core.
`words` holds the slot words of the bundle in issue.
`heldPier` holds the pier entries that stay behind a faulted access when the task leaves its core (spec/05 R109).
`tcfresh` lists the barriers whose TCWAIT issued in the last cycle (spec/13 R283), and `acqDue` says that an acquire was performed for the
task while it was off its core, which its core performs when the task comes back (spec/13 R277).
`sealq` lists the tiles that a full pier has still to seal (spec/10 R208). -/
structure Arch where
  s : Vector Word 32
  sEmpty : BitVec 32
  p : BitVec 8
  v : Vector Vec 32
  vEmpty : BitVec 32
  q : Vector Vec 16
  m : Vector Mask 8
  k : BitVec 32
  ports : Vector PortState 12
  vrf : Tbl Vec
  vrfTags : Tbl Word
  segs : Vector Seg 16
  pc : Word
  pend : Option Pend
  loops : Vector LoopLevel 4
  order : List LoopNo
  ut : Bool
  lx : Option Nat
  sres : BitVec 4
  tcause : Word
  tval : Word
  tpc : Word
  utvec : Word
  trap : Option TrapState
  popped : List (Port × Vec)
  staged : List PierEntry
  reentry : Option Nat
  flights : List Flight
  checks : List Check
  mp : Vector Word 8
  tiles : Vector TileState 4
  eng : EngOp
  routine : Option Routine
  stat : EngStat
  drains : List Nat
  ctx : Nat
  tcb : Word
  level : Nat
  prio : Nat
  merging : Option (Nat × Nat)
  mergeFor : Option (Word × Nat)
  views : List ViewWin
  frozen0 : Bool
  barBase : Nat
  gangs : List GangRec
  gangOps : List GangOp
  block : Option Block
  back : Option Block
  tcwaits : List (Fin 64 × Reg)
  tcfresh : List (Fin 64)
  acqDue : Bool
  mwaits : List MWait
  credit : Nat
  permits : List (Nat × Option Reg)
  words : List Nat
  deferred : List Deferred
  memq : List MemReq
  points : List OrderPoint
  heldPier : List PierEntry
  sealq : List TileNo
deriving DecidableEq, Repr

/-- Kinds of copy command (spec/11). -/
inductive CopyKind where
  | block (dst src : Word) (rowlen nrows : Nat) (ss ds : Int) (cnt : Option (Fin 64))
  | acc (op : AccOp) (dst src : Word) (len : Nat)
  | cas (addr : Word) (wide : Bool) (b c : Word)
  | faa (addr : Word) (wide : Bool) (b : Word)
  | xchg (addr : Word) (wide : Bool) (b : Word)
  | fput (addr : Word) (b : Word)
  | subs (dir : RingDir) (sb : Fin 64)
  | unsub (sb : Fin 64)
  | slotrel (sb : Fin 64)
  | publ (addr : Word) (len : Nat) (scope : Scope)
  | cfence (classes : BitVec 3)
  | cpys (dst : Word) (stride row0 n : Nat) (tile : TileNo) (period : Option Nat) (rowsP rowsQ : List Vec)
      (stale : Bool) (sig : Option Word) (verified : Bool)
  | coll (kind : CollKind) (op : CollOp) (dst src : Word) (group bytes : Nat) (left : Nat)
deriving DecidableEq, Repr

/-- A copy command in its queue (spec/11 R218, R219); `ctx` and `tcb` name the task part that issued it.
`out` says that it has left the pier, `data` holds by number the granules of its source that it has read already and `read` says that
it has read those that it reads on leaving the pier (spec/06 R126, spec/11 R228), `done` is the set of granules already moved, or 1
for a command whose effect is made and that waits for its end, `paused` says that it waits for a mapping.
`seqNo` is the sequence number of an atomic, `src` its source when it is not the core itself (spec/15 R324), `dup` the bundle of a DUP
pair, `mark` the place in the owning core's pier up to which entries have to leave before it (spec/11 R226), `busy` the tick of a busy
response, `applied` a result whose response was lost.
`sent` is the tick at which the request that is not answered yet left the die (spec/05 R122), `ticks` the tick at which the command left
the pier (spec/11 R241). -/
structure CopyCmd where
  id : Nat
  ctx : Nat
  tcb : Word
  tok : Reg
  kind : CopyKind
  out : Bool
  data : Tbl (Granule × Word)
  read : Bool
  done : Nat
  paused : Option Word
  dup : Option Nat
  src : Option Nat
  seqNo : Option Nat
  mark : Option Nat
  busy : Option Nat
  applied : Option Word
  retry : Nat
  sent : Option Nat
  ticks : Nat
deriving DecidableEq, Repr

/-- What a sys-slot release does once its older pier entries have left and its accesses are performed (spec/10 R207,
spec/12 R245, spec/13 R278). -/
inductive Release where
  | admission (tcb : Word) (idx : Nat) (parent : Word) (inl : Bool)
deriving DecidableEq, Repr

/-- A release waiting for the pier; `paged` says that a fault of its TCB's page is reported. -/
structure RelOp where
  id : Nat
  ctx : Nat
  what : Release
  paged : Bool
deriving DecidableEq, Repr

/-- A slot of a ring (spec/11 R233). -/
inductive SlotState where
  | free | filling | filled | owned | draining
deriving DecidableEq, Repr

/-- A subscription (spec/11 R232, R233): its parameter block, slot states, and the tile and byte that move; `stopping` holds
the queue and number of every UNSUB that waits, `relTok` those of the SLOTRELs, by slot, and `last` is the number of tiles that an output
ring had accepted when the first UNSUB came. -/
structure Subscription where
  ctx : Nat
  tcb : Word
  sb0 : Nat
  dir : RingDir
  tok : Reg
  accepted : Bool
  mbase : Word
  rowlen : Nat
  nrow : Nat
  rstride : Int
  tstride : Int
  count : Nat
  ring : Nat
  slotsz : Nat
  slots : List SlotState
  tile : Nat
  off : Nat
  taken : Nat
  stopping : List (CopyQ × Nat)
  last : Nat
  paused : Option Word
  relTok : List (Nat × CopyQ × Nat)
deriving DecidableEq, Repr

/-- An entry of a deduplication table (spec/11 R230). -/
structure Dedup where
  src : Nat
  seqNo : Nat
  addr : Word
  vals : List Word
  result : Word
deriving DecidableEq, Repr

/-- An entry of a ready queue (spec/12 R249, R250). -/
structure QEntry where
  ctx : Nat
  tcb : Word
  seq : Nat
deriving DecidableEq, Repr

/-- Corrected-error counts (spec/15 R317). -/
structure ErrCnt where
  spt : Nat
  xrt : Nat
  rcd : Nat
  csp : Nat
  crg : Nat
deriving DecidableEq, Repr

/-- A saved task state: its architectural part, whether it resumes after its bundle's slot 7 or at TPC, and the live mask
that was saved (spec/12 R263, spec/15 R318). -/
structure Frame where
  a : Arch
  atSlot7 : Bool
  live : Option LiveMask
deriving DecidableEq, Repr

/-- One bundle being issued: what its slots have staged (spec/02 R40, spec/06 R126). -/
structure Issue where
  popped : List (Port × Vec)
  emptyS : BitVec 32
  emptyV : BitVec 32
  pier : List PierEntry
  trapped : Bool
deriving DecidableEq, Repr

def Issue.none_ : Issue := ⟨[], 0, 0, [], false⟩

/-- A leaf held by a TLB (spec/05 R104): context, first VA, size and entry. -/
structure TlbEntry where
  ctx : Nat
  base : Nat
  size : Nat
  pte : Word
deriving DecidableEq, Repr

/-- A line of a die read cache, one granule of an RC or UO page, or of a core's instruction cache (spec/01 R25, spec/05 R103). -/
structure CacheLine where
  pa : Nat
  data : Granule
  tag : Word
  uo : Bool
deriving DecidableEq, Repr

/-- A core.
`tlb1` is its first-level TLB and `tlbMx` its matrix micro-TLB (spec/05 R104), `fetchAt` the tick at which a fetch, or the read of a future's cell, left the
die that is not answered yet, `mxAt` that of an operand read of the engine, with its place among the core's accesses (spec/05 R122,
spec/06 R133), `icache` its instruction cache.
`stall` counts frozen cycles that are left, `entry` the cycles of a trap entry or return in which nothing issues and nothing is frozen
(spec/15 R310, R313).
`fl` holds the row on the forwarding latch with its tile and open period, `rowDone` says that the row of the coming cycle has left
already, and `newRow` is the pier entry of a row that leaves in this cycle (spec/09 R194).
`arbitAt` is FRAME at the verdict that began the Keystone's test (spec/10 R216), `arbitFor` lists the tiles whose seals take its outcome
(spec/10 R211), and `newArbit` says that the verdict is the coming cycle's, which is not frozen yet (spec/10 R209). -/
structure Core where
  id : Nat
  busy : Bool
  a : Arch
  fl : Option (TileNo × Nat × Vec)
  rowDone : Bool
  newRow : Option Nat
  iss : Issue
  stall : Nat
  entry : Nat
  arbit : Option (TileNo × Nat)
  arbitAt : Nat
  arbitFor : List TileNo
  newArbit : Bool
  sealErr : Option (Nat × Word)
  seq : Nat
  nextId : Nat
  spad : List (Nat × Byte)
  spadTags : List (Nat × Word)
  pier : List PierEntry
  outq : List MemReq
  ca : List CopyCmd
  cb : List CopyCmd
  rels : List RelOp
  subs : List Subscription
  aseq : BitVec 24
  dedup : List Dedup
  ustore : Tbl Word
  entries : Tbl Nat
  err : ErrCnt
  sp : Bool
  usesQ : Bool
  faulty : Bool
  outOfService : Bool
  queue : List QEntry
  qseq : Nat
  watch : Nat
  inl : List Frame
  tlb1 : List TlbEntry
  tlbMx : List TlbEntry
  fetchAt : Option Nat
  mxAt : Option (Nat × Nat)
  icache : List CacheLine
deriving DecidableEq, Repr

end Sys2Proof.Machine
end

