-- ==== Sys2Proof/Machine/PackageState.lean ====
section
/-!
DEFINITION. The state of the package outside the cores: clusters, dies, contexts, streams, launches, tasks, gangs,
logs (spec/01, spec/05, spec/12 to spec/16).
-/
set_option linter.unusedVariables false

namespace Sys2Proof.Machine

/-- Lease states of a cluster (spec/14 R299). -/
inductive LeaseSt where
  | base | sprint | refreeze | disabled
deriving DecidableEq, Repr

/-- A granted lease (spec/14 R295, R302): level in MHz, expiry tick, the core and TCB of its holder. -/
structure Lease where
  level : Nat
  expiry : Nat
  core : Nat
  tcb : Word
deriving DecidableEq, Repr

/-- Who waits for tokens (spec/14 R291): the engine of a core, or a PERMIT with its destination. -/
structure TokenReq where
  core : Nat
  n : Nat
  dst : Option Reg
deriving DecidableEq, Repr

/-- A lease request not yet decided (spec/14 R295). -/
structure LeaseReq where
  core : Nat
  mhz : Nat
  us : Nat
  dst : Reg
  issued : Nat
deriving DecidableEq, Repr

/-- A cluster (spec/01 R11, spec/14 R289 to R306): the physical numbers 0 to 8 of its enabled cores, its spare, tokens,
lease and wear; `measured` counts the writes of its wear record. -/
structure Cluster where
  enabled : List Nat
  spare : Option Nat
  balance : Int
  refill : Nat
  drawn : Nat
  reqs : List TokenReq
  st : LeaseSt
  lease : Option Lease
  leaseReqs : List LeaseReq
  baseClk : Nat
  sceil : Nat
  guard : Nat
  maxv : Bool
  marked : Bool
  spareUsed : Bool
  drifts : List Nat
  sprintUs : Nat
  time : Nat
  measured : Nat
deriving DecidableEq, Repr

/-- A walk in progress at one of a die's 16 walkers, for a VA of a context; `md` is the memory-side die whose replica it reads
(spec/01 R15, spec/05 R102, R104). -/
structure Walk where
  ctx : Nat
  va : Nat
  md : Nat
deriving DecidableEq, Repr

/-- The record of an arbitration (spec/10 R216). -/
structure ErrRec where
  time : Nat
  verdict : Nat
  tile : Nat
  single : Bool
  cd : Bool
  tainted : Bool
  core : Nat
  ctx : Nat
  vdie : Nat
  vcore : Nat
  task : Word
  tfp : Word
  tfq : Word
  diff : BitVec 128
  nfp : Nat
  nfq : Nat
  firstP : Nat
  firstQ : Nat
  held : Nat
  spc : Word
  rsp : Tbl Word
  rsq : Tbl Word
deriving DecidableEq, Repr

/-- A record of a die's error log: an arbitration's, or an error of a store of a core that ran no task, of whose record the spec gives
no layout (spec/10 R216, spec/15 R316). -/
inductive DieErr where
  | seal (r : ErrRec)
  | store (time core : Nat)
deriving DecidableEq, Repr

/-- A record of a transfer log (spec/11 R238). -/
structure XferRec where
  time : Nat
  result : Nat
  attempt : Nat
  src : Nat
  dstDie : Nat
  engine : Nat
  ctx : Nat
  sigs : Word
  sigr : Word
deriving DecidableEq, Repr

/-- A record of a context event log (spec/12 R252). -/
structure EventRec where
  frame : Nat
  type : Nat
  tcb : Word
  x : Word
deriving DecidableEq, Repr

/-- A record of the host management log (spec/16 R337). -/
structure HostRec where
  frame : Nat
  type : Nat
  die : Nat
  fn : Nat
  addr : Nat
  detail : Nat
deriving DecidableEq, Repr

/-- A log with its write index and overflow count (spec/16 R337). -/
structure Log (α : Type) where
  recs : List α
  idx : Nat
  ovf : Nat
deriving DecidableEq, Repr

/-- A compute die (spec/01 R12, spec/05 R104, R106, spec/12 R248, R249).
`inReset` says that the die is held in reset. -/
structure Die where
  enabled : Bool
  inReset : Bool
  cache : List CacheLine
  tlb : List TlbEntry
  walks : List Walk
  queue : List QEntry
  armed : List QEntry
  seq : Nat
  errs : Log DieErr
  xfers : Log XferRec
  stores : Nat
deriving DecidableEq, Repr

/-- A page-table update in progress: the function that issued it, or firmware, and the dies whose acknowledgement is outstanding
(spec/05 R105). -/
structure Update where
  ctx : Nat
  fn : Nat
  seq : Nat
  writes : List PteWrite
  waiting : List Nat
deriving DecidableEq, Repr

/-- A queue of the schedulers. -/
inductive QueueRef where
  | core (c : Nat)
  | die (d : Nat)
deriving DecidableEq, Repr

/-- One core image of a context image (spec/15 R322, R323): `src` is the physical core, `busy` says that it ran a task. -/
structure CoreImage where
  vdie : Nat
  vcore : Nat
  src : Nat
  busy : Bool
  a : Arch
  ca : List CopyCmd
  cb : List CopyCmd
  subs : List Subscription
  rels : List RelOp
  ustore : Tbl Word
  entries : Tbl Nat
  spad : List (Nat × Byte)
  spadTags : List (Nat × Word)
  inl : List Frame
  dedup : List Dedup
  watch : Nat
  seq : Nat
  nextId : Nat
deriving DecidableEq, Repr

/-- A context image: its header fields, core images, the queue and armed-table entries of the context record, and the commit
bit (spec/15 R320, R322); `seq` is the sequence of the PREEMPT that asked for it. -/
structure Image where
  seq : Nat
  frameq : Nat
  framec : Nat
  cores : List CoreImage
  queued : List (QueueRef × QEntry)
  armed : List (Nat × QEntry)
  commit : Bool
deriving DecidableEq, Repr

/-- A page of wear records mapped into a context (spec/14 R306): its VA and the physical page that holds them. -/
structure WearPage where
  ctx : Nat
  va : Nat
  pa : Nat
deriving DecidableEq, Repr

/-- A context (spec/01 R19, spec/05 R100, spec/16 R330): `bind` lists, for each virtual die, its physical die and the
physical cores of its vcores. -/
structure Context where
  num : Nat
  owner : Nat
  bind : List (Nat × List Nat)
  replicas : Tbl (Tbl Word)
  stale : List Nat
  timeout : Nat
  age : Nat
  hang : Nat
  collDefault : Nat
  prog : Program
  save : Nat × Nat
  viewPool : Nat × Nat
  faultPool : Nat × Nat
  peers : List PeerSlot
  exportWin : Nat × Nat
  events : Log EventRec
  preempt : Option Nat
  image : Option Image
deriving DecidableEq, Repr

/-- A stream (spec/16 R331): `roots` holds the accepted root TCBs not yet admitted, `paged` says that
a fault of the TCB area's page is reported. -/
structure Stream where
  num : Nat
  ctx : Nat
  tcbArea : Nat
  ring : Nat
  ringN : Nat
  vector : Nat
  roots : List (BitVec 1024)
  admitted : Nat
  completed : Nat
  consumed : Nat
  ovf : Nat
  paged : Bool
  running : Option Nat
deriving DecidableEq, Repr

/-- A launch (spec/16 R332). -/
structure Launch where
  num : Nat
  stream : Nat
  ctx : Nat
  seq : Nat
  frame0 : Nat
  restarts : Nat
  root : Word
  capture : Bool
deriving DecidableEq, Repr

/-- A completion record written or waiting for a takeover to end (spec/16 R332, R336). -/
structure Completion where
  stream : Nat
  seq : Nat
  status : Nat
  cause : Nat
  frame0 : Nat
  frame1 : Nat
  ftcb : Word
  tpc : Word
  tval : Word
  pcore : Nat
  restarts : Nat
  flags : Nat
deriving DecidableEq, Repr

/-- States of a task (spec/12 R242). -/
inductive TState where
  | new | armed | ready | running | suspended | done | cancelled
deriving DecidableEq, Repr

/-- A view, or a combined block of views, of one epoch: indices lo to hi - 1, one piece for each declared tile
(spec/12 R258, R259).
`done` holds the pieces already combined with the block on its right, `busy` says that a merge routine runs on the next one,
`tries` counts hardware errors, `paged` that a page fault is reported, and `dest` is the destination that a combine which a page fault
pauses keeps (spec/21 R365). -/
structure Block' where
  lo : Nat
  hi : Nat
  parts : List ViewWin
  done : List ViewWin
  busy : Bool
  tries : Nat
  paged : Bool
  dest : Option ViewWin
deriving DecidableEq, Repr

/-- A task known to the schedulers (spec/12 R242 to R269). -/
structure Task where
  ctx : Nat
  tcb : Word
  launch : Nat
  snap : BitVec 1024
  st : TState
  restarts : Nat
  r : Bool
  parent : Option Word
  spidx : Nat
  nspawn : Nat
  npend : Nat
  declares : Bool
  inherits : Bool
  tiles : List ViewWin
  spawner : Nat
  blocks : List Block'
  excluded : List Nat
  readySince : Nat
  pinned : Option Nat
  saved : Option Frame
  wait : Option Wait
  slipped : Bool
  fixed : Bool
deriving DecidableEq, Repr

/-- A waiter for a gang phase (spec/13 R277, R279): the task, its operation, the phase waited for. -/
structure GangWait where
  tcb : Word
  op : Nat
  b : Nat
deriving DecidableEq, Repr

/-- A gang entry (spec/13 R271): counts, early arrivals waiting for their phase, and waits. -/
structure Gang where
  ctx : Nat
  va : Word
  p : Nat
  n : Nat
  a : Nat
  n1 : Nat
  e : Nat
  d1 : Nat
  waits : List GangWait
  early : List GangWait
deriving DecidableEq, Repr

/-- A pending decrement of a successor's DEPCNT (spec/12 R248): the releasing core's die, and the task whose MERGE releases it. -/
structure Decrement where
  ctx : Nat
  tcb : Word
  die : Nat
  merger : Word
deriving DecidableEq, Repr

/-- A capture in use by a stream (spec/16 R334): `snaps` holds the snapshots that the dispatches of its launch took, by TCB address. -/
structure CaptureSt where
  stream : Nat
  regions : List (Nat × Nat)
  area : Nat × Nat
  kept : Bool
  snaps : List (Word × BitVec 1024)
deriving DecidableEq, Repr

/-- A request of hardware for the supervisor core (spec/13 R288): the kind of resource, the context and the task; a queue entry for
which there was no room has its queue and sequence number (spec/12 R249). -/
structure ResourceReq where
  kind : Nat
  ctx : Nat
  tcb : Word
  entry : Option (QueueRef × Nat)
deriving DecidableEq, Repr

/-- The response of a mailbox (spec/16 R330): the function, and the sequence, code, detail and value of its command. -/
structure MailResp where
  fn : Nat
  seq : Nat
  code : Nat
  detail : Nat
  value : Nat
deriving DecidableEq, Repr

/-- The result of the last aperture read (spec/16 R328): the bytes, a poisoned completion, or Unsupported Request. -/
inductive HostRead where
  | none_
  | data (bytes : List Byte)
  | poisoned (bytes : List Byte)
  | unsupported
deriving DecidableEq, Repr

/-- What a copy of the scheduler journal holds: the streams with their roots, the armed tables, and the requests and queue entries that
firmware holds (spec/16 R336). -/
structure Journal where
  streams : List Stream
  armed : List (List QEntry)
  held : List ResourceReq
deriving DecidableEq, Repr

/-- An entry of section 1 of a RESYNC summary (spec/16 R333): owner, physical compute dies, the digest of the binding table, and
whether the context is pre-empted. -/
structure RsContext where
  num : Nat
  owner : Nat
  dies : List Nat
  digest : Word
  preempted : Bool
deriving DecidableEq, Repr

/-- An entry of section 2 (spec/16 R333). -/
structure RsStream where
  num : Nat
  ctx : Nat
  admitted : Nat
  completed : Nat
  consumed : Nat
  free : Nat
deriving DecidableEq, Repr

/-- An entry of section 3 (spec/16 R333). -/
structure RsLaunch where
  stream : Nat
  seq : Nat
  running : Nat
  suspended : Nat
  queued : Nat
  restarts : Nat
deriving DecidableEq, Repr

/-- An entry of section 4 (spec/16 R333): LEASE and the holder's TCB. -/
structure RsCluster where
  lease : Word
  holder : Word
deriving DecidableEq, Repr

/-- An entry of section 6 (spec/16 R333). -/
structure RsCore where
  core : Nat
  off : Bool
  spareUsed : Bool
  single : Bool
deriving DecidableEq, Repr

/-- The summary that RESYNC wrote last (spec/16 R333): SNAP, the host address, DEVSTAT, the firmware version, and the sections;
`wear` holds the 64-byte records of R306, and `frames` the FRAME at which each of the sections 1 to 7 was read. -/
structure Resync where
  snap : Nat
  addr : Nat
  devstat : Word
  version : Word
  contexts : List RsContext
  streams : List RsStream
  launches : List RsLaunch
  clusters : List RsCluster
  melt : Nat
  wear : List (List (Nat × Byte))
  cores : List RsCore
  frames : List Nat
  errs : List (Log DieErr)
  xfers : List (Log XferRec)
  host : Log HostRec
deriving DecidableEq, Repr

end Sys2Proof.Machine
end

