-- ==== Sys2Proof/Machine/State.lean ====
section
/-!
DEFINITION. The state of the machine, its faults and refusals, and the state after reset.
-/
set_option linter.unusedVariables false

namespace Sys2Proof.Machine

/-- How far bring-up has come (spec/16 R329 BOOT). -/
inductive Boot where
  | rom | awaiting | imageRefused | running | packageFault
deriving DecidableEq, Repr

/-- The reasons the machine stops: none.
Every error that the spec names is a trap, a record or a state of the device that a step reaches, the package-fault state among them
(log 63). -/
inductive Fault where
deriving DecidableEq, Repr

/-- The reasons the model has no meaning. -/
inductive Refusal where
  /-- an instruction that has no meaning yet.
  Safe. -/
  | notModelled (mnemonic : String)
deriving DecidableEq, Repr

/-- The state of the machine.
`core` is the acting core and `others` holds the other cores that are not as reset leaves them, by physical number.
`fusedStacks` is the fuses' map of stacks, `selfCheck` the outcome of each stack's test by its memory-side die's self-check block,
`memStacks` the populated stacks, and `homes` the memory-side die in which firmware keeps each compute die's page-table replica (spec/01
R13, R15, R31).
`epoch0` says that no epoch boundary has come since reset (spec/14 R289), `fwAnswers` holds the contexts and codes of the answers to
firmware's updates (spec/05 R101), and `apsize` the sizes of the functions' apertures (spec/16 R328).
`agenda`, `input`, `free` and `rot` are the model's own (log 3, log 5). -/
structure State where
  core : Core
  others : Tbl Core
  frame : BitVec 64
  timeBase : Bool
  epoch : Nat
  epoch0 : Bool
  boot : Boot
  ready : Bool
  nosch : Bool
  nossv : Bool
  takeSch : Bool
  takeSup : Bool
  fusedStacks : List Nat
  selfCheck : List (Nat × Bool)
  memStacks : List Nat
  homes : Tbl Nat
  clusters : Vector Cluster 32
  heat : Nat
  melt : Nat
  rf : Bool
  mem : List (Nat × Byte)
  memTags : List (Nat × Word)
  dies : Vector Die 8
  ctxs : List Context
  updates : List Update
  streams : List Stream
  launches : List Launch
  nlaunch : Nat
  tasks : List Task
  gangs : List Gang
  decs : List Decrement
  atomTabs : List Dedup
  hostLog : Log HostRec
  msix : List (Nat × Nat)
  mail : List MailResp
  fwAnswers : List (Nat × Nat)
  apsize : Tbl Nat
  apbase : Tbl Word
  vbase : Tbl Word
  hostRead : HostRead
  captures : List CaptureSt
  heldRecs : List Completion
  bitmap : List Nat
  wearPages : List WearPage
  resources : List ResourceReq
  resync : Option Resync
  agenda : List (Instr × Input)
  input : Input
  free : Nat
  rot : Nat
deriving DecidableEq, Repr

/-- The task part of a core on which nothing was ever dispatched: everything zero, registers full (log 1). -/
def Arch.zero : Arch :=
  { s := Vector.replicate 32 0, sEmpty := 0, p := 0, v := Vector.replicate 32 0, vEmpty := 0,
    q := Vector.replicate 16 0, m := Vector.replicate 8 0, k := 0, ports := Vector.replicate 12 PortState.init,
    vrf := [], vrfTags := [], segs := Vector.replicate 16 .off, pc := 0, pend := none,
    loops := Vector.replicate 4 LoopLevel.init, order := [], ut := false, lx := none, sres := 0, tcause := 0,
    tval := 0, tpc := 0, utvec := 0, trap := none, popped := [], staged := [], reentry := none, flights := [], checks := [],
    mp := Vector.replicate 8 0, tiles := Vector.replicate 4 TileState.zero, eng := .idle,
    routine := none, stat := ⟨0, 0, 0, false⟩, drains := [], ctx := 0, tcb := 0, level := 0, prio := 0,
    merging := none, mergeFor := none, views := [], frozen0 := false, barBase := Config.barrierBase, gangs := [], gangOps := [], block := none, back := none, tcwaits := [], tcfresh := [], acqDue := false,
    mwaits := [], credit := 0, permits := [], words := [], deferred := [], memq := [], points := [], heldPier := [], sealq := [] }

/-- A core as reset leaves it. -/
def Core.fresh (id : Nat) : Core :=
  { id := id, busy := false, a := Arch.zero, fl := none, rowDone := false, newRow := none, iss := Issue.none_, stall := 0, entry := 0, arbit := none,
    arbitAt := 0, arbitFor := [], newArbit := false, sealErr := none,
    seq := 0, nextId := 0, spad := [], spadTags := [], pier := [], outq := [], ca := [], cb := [], rels := [], subs := [],
    aseq := 0, dedup := [], ustore := [], entries := [(0, 0), (1, 0), (2, 0), (3, 0)], err := ⟨0, 0, 0, 0, 0⟩,
    sp := false, usesQ := false, faulty := false, outOfService := false, queue := [], qseq := 0, watch := 0, inl := [],
    tlb1 := [], tlbMx := [], fetchAt := none, mxAt := none, icache := [] }

/-- A cluster as the factory leaves it: eight enabled cores and a spare, no wear; its tokens as reset leaves them
(spec/14 R289, R300; log 9). -/
def Cluster.fresh : Cluster :=
  { enabled := [0, 1, 2, 3, 4, 5, 6, 7], spare := some Config.spareInCluster, balance := 978, refill := 489,
    drawn := 0, reqs := [], st := .base, lease := none, leaseReqs := [], baseClk := 940, sceil := 1130, guard := 0,
    maxv := false, marked := false, spareUsed := false, drifts := List.replicate 9 0, sprintUs := 0, time := 0, measured := 0 }

/-- An empty log. -/
def Log.empty {α : Type} : Log α := ⟨[], 0, 0⟩

/-- A compute die as reset leaves it. -/
def Die.fresh : Die := ⟨true, false, [], [], [], [], [], 0, Log.empty, Log.empty, 0⟩

/-- The machine right after power-on reset of a full part (spec/01 R29, R31, spec/14 R289, R297, spec/16 R329; log 1,
log 2, log 9). -/
def State.reset : State :=
  { core := Core.fresh 0, others := [], frame := 0, timeBase := true, epoch := 0, epoch0 := true, boot := .rom, ready := false, 
    nosch := false, nossv := false, takeSch := false, takeSup := false, fusedStacks := List.range 16, selfCheck := [],
    memStacks := List.range 16, homes := [],
    clusters := Vector.replicate 32 Cluster.fresh, heat := 0, melt := 0, rf := false, mem := [], memTags := [],
    dies := Vector.replicate 8 Die.fresh, ctxs := [], updates := [], streams := [], launches := [], nlaunch := 0,
    tasks := [], gangs := [], decs := [], atomTabs := [], hostLog := Log.empty, msix := [], mail := [], fwAnswers := [], apsize := [], apbase := [],
    vbase := [], hostRead := .none_, captures := [], heldRecs := [], bitmap := [], wearPages := [], resources := [], resync := none,
    agenda := [], input := {}, free := 0, rot := 0 }

end Sys2Proof.Machine
end

