-- ==== Sys2Proof/Machine/Access.lean ====
section
/-!
DEFINITION. Tables, byte and tag memory in canonical form, cores by number, binding, address windows and translation.
-/
set_option linter.unusedVariables false

namespace Sys2Proof.Machine

/-- A bit vector's bit as Bool. -/
def bitOf {w : Nat} (x : BitVec w) (i : Nat) : Bool := x.toNat / 2 ^ i % 2 == 1

/-- Bits [hi:lo] of a word as a number. -/
def bits {w : Nat} (x : BitVec w) (hi lo : Nat) : Nat := x.toNat / 2 ^ lo % 2 ^ (hi + 1 - lo)

/-- A bit vector with one bit changed. -/
def setBit {w : Nat} (x : BitVec w) (i : Nat) (b : Bool) : BitVec w :=
  if b then x ||| BitVec.ofNat w (2 ^ i) else x &&& ~~~ BitVec.ofNat w (2 ^ i)

/-- A 64-bit word of a number, modulo 2^64. -/
def word (n : Nat) : Word := BitVec.ofNat 64 n

/-- The entry of a table. -/
def tblGet {α : Type} : Tbl α → Nat → Option α
  | [], _ => none
  | (k, x) :: rest, a => if k = a then some x else tblGet rest a

/-- A table with an entry set; the numbers stay in rising order. -/
def tblPut {α : Type} : Tbl α → Nat → α → Tbl α
  | [], a, x => [(a, x)]
  | (k, y) :: rest, a, x =>
    if a < k then (a, x) :: (k, y) :: rest
    else if a = k then (a, x) :: rest
    else (k, y) :: tblPut rest a x

/-- A table with an entry removed. -/
def tblDel {α : Type} : Tbl α → Nat → Tbl α
  | [], _ => []
  | (k, y) :: rest, a => if k = a then rest else (k, y) :: tblDel rest a

/-- Reading a memory in canonical form: an address that is not listed reads as the default. -/
def cellGet {α : Type} (d : α) : List (Nat × α) → Nat → α
  | [], _ => d
  | (k, x) :: rest, a => if k = a then x else cellGet d rest a

/-- Writing a memory in canonical form: addresses strictly rise and the default is never listed. -/
def cellSet {α : Type} [DecidableEq α] (d : α) : List (Nat × α) → Nat → α → List (Nat × α)
  | [], a, x => if x = d then [] else [(a, x)]
  | (k, y) :: rest, a, x =>
    if a < k then if x = d then (k, y) :: rest else (a, x) :: (k, y) :: rest
    else if a = k then if x = d then rest else (a, x) :: rest
    else (k, y) :: cellSet d rest a x

/-- Writing several cells. -/
def cellSets {α : Type} [DecidableEq α] (d : α) (m : List (Nat × α)) (cs : List (Nat × α)) : List (Nat × α) :=
  cs.foldl (fun m c => cellSet d m c.1 c.2) m

/-- The canonical form: addresses strictly rising from `lo` on, no entry equal to the default. -/
def cellWfFrom {α : Type} [DecidableEq α] (d : α) : Nat → List (Nat × α) → Bool
  | _, [] => true
  | lo, (k, x) :: rest => decide (lo ≤ k) && decide (x ≠ d) && cellWfFrom d (k + 1) rest

/-- The canonical form of a memory. -/
def cellWf {α : Type} [DecidableEq α] (d : α) (m : List (Nat × α)) : Bool := cellWfFrom d 0 m

/-- The canonical form of byte memory (log 2: an unlisted byte reads 0). -/
def Memory.wf (m : List (Nat × Byte)) : Bool := cellWf 0 m

/-- The canonical form of tag memory (log 2: an unlisted granule is RAW). -/
def Memory.tagsWf (m : List (Nat × Word)) : Bool := cellWf 0 m

/-- `n` bytes from an address. -/
def readBytes (m : List (Nat × Byte)) (a n : Nat) : List Byte := (List.range n).map (fun i => cellGet 0 m (a + i))

/-- `n` bytes from an address as a little-endian number. -/
def readNat (m : List (Nat × Byte)) (a n : Nat) : Nat := natOfBytes (readBytes m a n)

/-- The cells of `n` bytes of a little-endian number at an address. -/
def cellsOf (a n x : Nat) : List (Nat × Byte) := (List.range n).zip (bytesOfNat n x) |>.map (fun p => (a + p.1, p.2))

/-- Replace the element of a list at an index. -/
def listSet {α : Type} : List α → Nat → α → List α
  | [], _, _ => []
  | _ :: xs, 0, y => y :: xs
  | x :: xs, n + 1, y => x :: listSet xs n y

/-- Remove the element of a list at an index. -/
def listDel {α : Type} : List α → Nat → List α
  | [], _ => []
  | _ :: xs, 0 => xs
  | x :: xs, n + 1 => x :: listDel xs n

/-- A log with a record appended; a log that is full loses its oldest record and counts an overflow (spec/10 R216,
spec/11 R238). -/
def Log.add {α : Type} (l : Log α) (cap : Nat) (r : α) : Log α :=
  if l.recs.length < cap then ⟨l.recs ++ [r], l.idx + 1, l.ovf⟩ else ⟨l.recs.tail ++ [r], l.idx + 1, l.ovf + 1⟩

/-- The physical die of a core number (spec/01 R11). -/
def dieOf (c : Nat) : Nat := c / Config.coresPerDie

/-- The package cluster of a core number (spec/01 R11). -/
def clusterOf (c : Nat) : Nat := dieOf c * 4 + c % Config.coresPerDie / 9

/-- The physical core number in its die. -/
def coreNum (c : Nat) : Nat := c % Config.coresPerDie

/-- PCORE: [15:8] physical die, [7:0] physical core (spec/10 R216, spec/16 R332). -/
def pcore (c : Nat) : Nat := dieOf c * 256 + coreNum c

/-- Column of a die (spec/01 R8). -/
def col (d : Nat) : Nat := d % 4
/-- Row of a die (spec/01 R8). -/
def row (d : Nat) : Nat := d / 4

/-- Die hops between the I/O die and a compute die (spec/01 R10). -/
def ioHops (a : Nat) : Nat := 1 + col a

/-- Die hops between two compute dies (spec/01 R10). -/
def dieHops (a b : Nat) : Nat := (max (col a) (col b) - min (col a) (col b)) + (max (row a) (row b) - min (row a) (row b))

/-- The core of a physical number. -/
def State.getCore (s : State) (c : Nat) : Core :=
  if s.core.id = c then s.core else (tblGet s.others c).getD (Core.fresh c)

/-- Make a core the acting core. -/
def State.focus (c : Nat) (s : State) : State :=
  if s.core.id = c then s
  else { s with core := s.getCore c, others := tblDel (tblPut s.others s.core.id s.core) c }

/-- Change one core, whichever acts. -/
def State.onCore (c : Nat) (f : Core → Core) (s : State) : State :=
  if s.core.id = c then { s with core := f s.core } else { s with others := tblPut s.others c (f (s.getCore c)) }

/-- Every core that is not as reset leaves it. -/
def State.coreIds (s : State) : List Nat := s.core.id :: s.others.map Prod.fst

/-- Change the acting core. -/
def State.modCore (f : Core → Core) (s : State) : State := { s with core := f s.core }

/-- Change the task part of the acting core. -/
def State.modA (f : Arch → Arch) (s : State) : State := { s with core := { s.core with a := f s.core.a } }

/-- A context by number. -/
def State.ctx? (s : State) (n : Nat) : Option Context := s.ctxs.find? (fun c => c.num = n)

/-- Change a context. -/
def State.onCtx (n : Nat) (f : Context → Context) (s : State) : State :=
  { s with ctxs := s.ctxs.map (fun c => if c.num = n then f c else c) }

/-- Change a die. -/
def State.onDie (d : Nat) (f : Die → Die) (s : State) : State :=
  if h : d < 8 then { s with dies := s.dies.set d (f s.dies[d]) } else s

/-- A die by number. -/
def State.die (s : State) (d : Nat) : Die := if h : d < 8 then s.dies[d] else Die.fresh

/-- The cluster of a core. -/
def State.cluster (s : State) (c : Nat) : Cluster := if h : clusterOf c < 32 then s.clusters[clusterOf c] else Cluster.fresh

/-- Change a cluster. -/
def State.onCluster (n : Nat) (f : Cluster → Cluster) (s : State) : State :=
  if h : n < 32 then { s with clusters := s.clusters.set n (f s.clusters[n]) } else s

/-- The next free value's number; the counter advances (log 5). -/
def State.drawFree (s : State) : Nat × State := (s.free, { s with free := s.free + 1 })

/-- The enabled physical cores of a die, ascending (spec/01 R11, R19). -/
def State.enabledCores (s : State) (d : Nat) : List Nat :=
  (List.range 4).flatMap (fun c =>
    if h : d * 4 + c < 32 then (s.clusters[d * 4 + c]).enabled.map (fun k => d * Config.coresPerDie + c * 9 + k) else [])

/-- The number of virtual dies of a context (spec/01 R19). -/
def Context.ndies (c : Context) : Nat := c.bind.length

/-- The physical die of a virtual die, if bound. -/
def Context.pdie (c : Context) (v : Nat) : Option Nat := (c.bind[v]?).map Prod.fst

/-- The number of cores of a virtual die; 0 when unbound. -/
def Context.ncores (c : Context) (v : Nat) : Nat := ((c.bind[v]?).map (fun b => b.2.length)).getD 0

/-- The physical core of a virtual core, if bound (spec/01 R19, R20). -/
def Context.pcoreOf (c : Context) (vdie vcore : Nat) : Option Nat := (c.bind[vdie]?).bind (fun b => b.2[vcore]?)

/-- The position of a number in a list. -/
def posIn (x : Nat) : List Nat → Nat → Option Nat
  | [], _ => none
  | y :: ys, i => if x = y then some i else posIn x ys (i + 1)

/-- The vdie and vcore of a physical core in a context. -/
def Context.vOf (c : Context) (p : Nat) : Option (Nat × Nat) :=
  (((List.range c.bind.length).zip c.bind).findSome? (fun b => (posIn p b.2.2 0).map (fun v => (b.1, v))))

/-- The offset of the stage barriers in the scratchpads of a context's cores (spec/13 R280). -/
def Context.barrierBase (c : Context) : Nat :=
  ((c.prog.plan.find? (fun e => e.kind = 2)).map (fun e => e.off)).getD Config.barrierBase

/-- The same by the context's number. -/
def State.barrierBase (s : State) (ctx : Nat) : Nat := ((s.ctx? ctx).map Context.barrierBase).getD Config.barrierBase

/-- Whether an address lies in a context's view pool, whose pages firmware maps itself (spec/12 R255, spec/15 R318). -/
def State.inViewPool (s : State) (ctx va : Nat) : Bool :=
  ((s.ctx? ctx).map (fun c => decide (c.viewPool.1 ≤ va ∧ va < c.viewPool.1 + c.viewPool.2))).getD false

/-- Whether n bytes from a scratchpad offset touch a stage-barrier word (spec/13 R280). -/
def barrierHit (base off n : Nat) : Bool := decide (base < off + n ∧ off < base + 512)

/-- The windows of the virtual address map (spec/05 R98). -/
inductive Window where
  | user
  | spad (off : Nat)
  | vrf (off : Nat)
  | other (vdie vcore off : Nat)
  | host
  | peer (slot off : Nat)
  | none_
deriving DecidableEq, Repr

/-- The window of an address (spec/05 R98, spec/11 R239). -/
def windowOf (va : Nat) : Window :=
  if va < Config.userEnd then .user
  else if va < Config.spadBase + Config.spadBytes then .spad (va - Config.spadBase)
  else if Config.vrfBase ≤ va ∧ va < Config.vrfBase + Config.vrfBytes then .vrf (va - Config.vrfBase)
  else if Config.otherBase ≤ va ∧ va < Config.otherBase + 2 ^ 40 then
    if va % 2 ^ 24 < Config.spadBytes then .other (va / 2 ^ 32 % 2 ^ 8) (va / 2 ^ 24 % 2 ^ 8) (va % 2 ^ 24) else .none_
  else if Config.hostBase ≤ va ∧ va < Config.peerBase then .host
  else if Config.peerBase ≤ va ∧ va < Config.vaEnd then .peer (va / 2 ^ 42 % 2 ^ 8) (va % 2 ^ 42)
  else .none_

/-- Fields of a page-table entry (spec/05 R100). -/
def pteV (e : Word) : Bool := bitOf e 0
def pteR (e : Word) : Bool := bitOf e 1
def pteW (e : Word) : Bool := bitOf e 2
def pteX (e : Word) : Bool := bitOf e 3
def ptePub (e : Word) : Bool := bitOf e 4
def pteOrd (e : Word) : Nat := bits e 6 5
def ptePs (e : Word) : Nat := bits e 8 7
def pteT (e : Word) : Bool := bitOf e 9
def pteSel (e : Word) : Bool := bitOf e 10
def ptePa (e : Word) : Nat := bits e 51 16

/-- Bytes of a page of size code PS (spec/05 R100). -/
def pageBytes (ps : Nat) : Nat := if ps = 2 then 2 ^ 30 else if ps = 1 then 2 ^ 21 else 2 ^ 16

/-- The entry of a replica; a table freshly initialised reads 0 (spec/05 R100). -/
def replicaRead (r : Tbl Word) (a : Nat) : Word := (tblGet r a).getD 0

/-- A leaf found by a walk: its entry, page size and the address of the entry in the tables. -/
structure Leaf where
  pte : Word
  size : Nat
  at_ : Nat
deriving DecidableEq, Repr

/-- walk(va) of spec/05 R102 over a replica whose level-1 table stands at address 0 of the table space (log 14).
None is PAGE. -/
def walk (r : Tbl Word) (va : Nat) : Option Leaf :=
  let a1 := 8 * (va / 2 ^ 42 % 2 ^ 14)
  let e1 := replicaRead r a1
  if pteV e1 = false then none
  else
    let a2 := ptePa e1 * 2 ^ 16 + 8 * (va / 2 ^ 29 % 2 ^ 13)
    let e2 := replicaRead r a2
    if pteV e2 = false then none
    else if pteT e2 = false then some ⟨e2, 2 ^ 30, a2⟩
    else
      let a3 := ptePa e2 * 2 ^ 16 + 8 * (va / 2 ^ 16 % 2 ^ 13)
      let e3 := replicaRead r a3
      if pteV e3 = false then none
      else some ⟨e3, if ptePs e3 = 1 then 2 ^ 21 else 2 ^ 16, a3⟩

/-- The physical address that a leaf gives a VA: the visible frame, or the shadow frame of a PUB page (spec/05 R102,
spec/06 R136). -/
def leafPa (e : Word) (size va : Nat) (shadow : Bool) : Nat :=
  ptePa e * 2 ^ 16 + (if ptePub e && (pteSel e != shadow) then size else 0) + va % size

/-- The entry of a TLB that covers a VA of a context (spec/05 R104). -/
def tlbFind (l : List TlbEntry) (ctx va : Nat) : Option TlbEntry :=
  l.find? (fun t => t.ctx = ctx && t.base ≤ va && va < t.base + t.size)

/-- The leaf for a VA as a unit translates it: an entry of the unit's own TLB `l`, else of the die's TLB, else a walk of the die's
replica (spec/05 R102, R104).
A die that is in reset, or whose replica awaits a resynchronisation, does not translate (spec/05 R106). -/
def State.leafVia? (s : State) (l : List TlbEntry) (d ctx va : Nat) : Option (Word × Nat) :=
  match s.ctx? ctx with
  | none => none
  | some c =>
    if d ∈ c.stale || (s.die d).inReset then none
    else match tlbFind (l ++ (s.die d).tlb) ctx va with
      | some t => some (t.pte, t.size)
      | none => (walk ((tblGet c.replicas d).getD []) va).map (fun l => (l.pte, l.size))

/-- Whether a translation by a unit with TLB `l` waits for a walker: it misses every TLB while all 16 of the die are busy
(spec/05 R104). -/
def State.noWalker (s : State) (l : List TlbEntry) (d ctx va : Nat) : Bool :=
  decide (16 ≤ (s.die d).walks.length) && (tlbFind (l ++ (s.die d).tlb) ctx va).isNone

/-- The leaf for a VA as the die's engines and schedulers translate it (spec/05 R104). -/
def State.leaf? (s : State) (d ctx va : Nat) : Option (Word × Nat) := s.leafVia? [] d ctx va

/-- Kinds of access to a translated page; an atomic both loads and stores. -/
inductive Acc where
  | read | write | update | exec
deriving DecidableEq, Repr

/-- Whether a leaf permits an access (spec/05 R102). -/
def permits (e : Word) : Acc → Bool
  | .read => pteR e
  | .write => pteW e
  | .update => pteR e && pteW e
  | .exec => pteX e

/-- Translate a VA for an access of a unit with TLB `l`: the fault PAGE or PROT, or the physical address and the entry
(spec/05 R102). -/
def State.translateVia (s : State) (l : List TlbEntry) (d ctx : Nat) (va : Nat) (k : Acc) (shadow : Bool) :
    Except Cause (Nat × Word) :=
  match s.leafVia? l d ctx va with
  | none => .error .page
  | some (e, z) => if permits e k then .ok (leafPa e z va shadow, e) else .error .prot

/-- Translate a VA for an access of an engine (spec/05 R102). -/
def State.translate (s : State) (d ctx : Nat) (va : Nat) (k : Acc) (shadow : Bool) : Except Cause (Nat × Word) :=
  s.translateVia [] d ctx va k shadow

/-- A granule of physical memory: data and tag; host memory has RAW tags (spec/11 R223). -/
def State.granule (s : State) (pa : Nat) : Granule × Word :=
  (BitVec.ofNat 512 (readNat s.mem (pa / 64 * 64) 64), if pa < 2 ^ 51 then cellGet 0 s.memTags (pa / 64) else 0)

/-- A line with some bytes replaced. -/
def CacheLine.write (l : CacheLine) (bs : List (Nat × Byte)) (ts : List (Nat × Word)) : CacheLine :=
  let g := (List.range 64).map (fun i =>
    match bs.find? (fun c => c.1 = l.pa * 64 + i) with
    | some c => c.2
    | none => BitVec.ofNat 8 (l.data.toNat / 2 ^ (8 * i)))
  { l with data := BitVec.ofNat 512 (natOfBytes g)
           tag := ((ts.find? (fun t => t.1 = l.pa)).map Prod.snd).getD l.tag }

/-- The writes of a die's units that wait for home: its cores observe them (spec/06 R125, R131). -/
def State.outOf (s : State) (d : Nat) : List MemReq :=
  s.coreIds.flatMap (fun c => (s.getCore c).outq.filter (fun r => r.die = d))

/-- A write joins a list that stands in the order in which its die observed the writes. -/
def insertStore (r : MemReq) : List MemReq → List MemReq
  | [] => [r]
  | x :: l => if r.order ≤ x.order then r :: x :: l else x :: insertStore r l

/-- A line as home holds its granule with the die's own outstanding writes over it: the updated copy that serves the die's reads
(spec/06 R125). -/
def State.freshLine (s : State) (d pa : Nat) (uo : Bool) : CacheLine :=
  let (g, t) := s.granule pa
  ((s.outOf d).foldr insertStore []).foldl (fun l r => if r.cached then l.write r.pas r.paTags else l) ⟨pa / 64, g, t, uo⟩

/-- Install or refresh the line of a granule in a die's read cache of 32 MiB; a full cache loses a line (spec/01 R12,
spec/05 R103, spec/06 R125). -/
def State.cacheFill (s : State) (d pa : Nat) (uo : Bool) : State :=
  let l := s.freshLine d pa uo
  s.onDie d (fun x => { x with cache := (l :: x.cache.filter (fun l => l.pa ≠ pa / 64)).take Config.cacheLines })

/-- A granule as a die reads it: its read cache's line if it holds one, else home under the die's outstanding writes (spec/05 R103,
spec/06 R125). -/
def State.granuleVia (s : State) (d pa : Nat) : Granule × Word :=
  match (s.die d).cache.find? (fun l => l.pa = pa / 64) with
  | some l => (l.data, l.tag)
  | none => let l := s.freshLine d pa false; (l.data, l.tag)

/-- Remove one line from a die's read cache. -/
def State.cacheDrop (s : State) (d pa : Nat) : State :=
  s.onDie d (fun x => { x with cache := x.cache.filter (fun l => l.pa ≠ pa / 64) })

/-- The write-through of a store into the lines its die's read cache holds (spec/06 R125). -/
def State.cacheWrite (s : State) (d : Nat) (bs : List (Nat × Byte)) (ts : List (Nat × Word)) : State :=
  s.onDie d (fun x => { x with cache := x.cache.map (fun l => l.write bs ts) })

/-- Write bytes and granule tags to physical memory; host memory keeps no tags (spec/11 R223). -/
def State.writePhys (s : State) (bs : List (Nat × Byte)) (ts : List (Nat × Word)) : State :=
  { s with mem := cellSets 0 s.mem bs,
           memTags := cellSets 0 s.memTags (ts.filter (fun t => t.1 < 2 ^ 45)) }

/-- The granules of a request that are poisoned at home and that it does not rewrite whole (spec/05 R123). -/
def State.poisonedBy (s : State) (r : MemReq) : List Nat :=
  (r.pas.map (fun p => p.1 / 64)).eraseDups.filter (fun g =>
    isPoison (s.granule (64 * g)).2 && r.paTags.all (fun t => t.1 ≠ g))

/-- Home performs a write; bytes for a poisoned granule that it does not rewrite whole are discarded, and their line leaves the die's
read cache (spec/05 R123). -/
def State.landWrite (r : MemReq) (gone : List Nat) (s : State) : State :=
  gone.foldl (fun s g => s.cacheDrop r.die (64 * g))
    (s.writePhys (r.pas.filter (fun p => !gone.contains (p.1 / 64))) (r.paTags.filter (fun t => !gone.contains t.1)))

/-- The 8 bytes at a VA of a context as the device reads them at home (TCBs, view tables: spec/12 R246). -/
def State.readVa (s : State) (d ctx va n : Nat) : Option Nat :=
  match s.leaf? d ctx va with
  | none => none
  | some (e, z) => some (readNat s.mem (leafPa e z va false) n)

/-- The device's write of n bytes at a VA of a context; no effect without a translation. -/
def State.writeVa (s : State) (d ctx va n x : Nat) : State :=
  match s.leaf? d ctx va with
  | none => s
  | some (e, z) => s.writePhys (cellsOf (leafPa e z va false) n x) []

/-- A vector of the VRF. -/
def Arch.vrfGet (a : Arch) (i : Nat) : Vec := (tblGet a.vrf i).getD 0

/-- A row of a tile: a row not listed is +0. -/
def rowGet (t : Tbl Vec) (r : Nat) : Vec := (tblGet t r).getD 0

end Sys2Proof.Machine
end

