-- ==== Sys2Proof/Machine/Flags.lean ====
section
/-!
DEFINITION. Conditions, predicates and every status word: STW, TCAUSE, MELT, LEASE, SEGST, COVER, ERRCNT, VDID, MSTAT and
the port status.
-/
set_option linter.unusedVariables false

namespace Sys2Proof.Machine

/-- A condition of CMP and CMPI over n-bit values (spec/04 R84). -/
def Cond.eval (c : Cond) (n : Nat) (a b : Nat) : Bool :=
  match c with
  | .eq => a == b
  | .ne => a != b
  | .lt => decide (signedOf n a < signedOf n b)
  | .ge => decide (signedOf n b ≤ signedOf n a)
  | .ltu => decide (a < b)
  | .geu => decide (b ≤ a)
  | .tst => Nat.land a b != 0

/-- A condition of VCMP on integer lanes (spec/08 R165). -/
def VCond.evalInt (c : VCond) (sgn : Bool) (a b : Lane) : Bool :=
  let x : Int := if sgn then a.toInt else a.toNat
  let y : Int := if sgn then b.toInt else b.toNat
  match c with
  | .eq => x == y
  | .ne => x != y
  | .lt => decide (x < y)
  | .le => decide (x ≤ y)
  | .gt => decide (y < x)
  | .ge => decide (y ≤ x)
  | .tst => (a &&& b) != 0

/-- A condition of VCMP on f32 lanes (spec/08 R165). -/
def VCond.evalF32 (c : VCond) (a b : Lane) : Bool :=
  let x := num32 a.toNat
  let y := num32 b.toNat
  match c with
  | .eq => x.eqv y
  | .ne => !x.eqv y
  | .lt => x.lt y
  | .le => x.lt y || x.eqv y
  | .gt => y.lt x
  | .ge => y.lt x || x.eqv y
  | .tst => x.isNaN || y.isNaN

/-- What the narrow shadow computes of an encoded FP result: sign [20], exponent field [19:8] and the top significand bits [7:0], eight
of them or as many as the format has; a NaN or an infinity as its encoding (spec/04 R96, spec/08 R176). -/
def FpFmt.shadow (f : FpFmt) (x : Nat) : Nat :=
  let e := x / 2 ^ f.fb % 2 ^ f.eb
  let n := min 7 f.fb
  x / 2 ^ (f.eb + f.fb) % 2 * 2 ^ 20 + e * 2 ^ 8 + (if e = 0 then 0 else 2 ^ n) + x % 2 ^ f.fb / 2 ^ (f.fb - n)

/-- The same of an integer result of a ctl FP operation: its sign, the length of its magnitude and the top 8 bits of that
(spec/04 R96; log 68). -/
def intShadow (x : Int) : Nat :=
  let n := x.natAbs
  let len := if n = 0 then 0 else n.log2 + 1
  (if x < 0 then 2 ^ 20 else 0) + len * 2 ^ 8 + n / 2 ^ (len - 8)

/-- Whether a check fails: the sign or the exponent differs, or the significand bits differ by more than 1 (spec/04 R96). -/
def shadowFails (mine theirs : Nat) : Bool :=
  mine / 2 ^ 8 != theirs / 2 ^ 8 || decide (mine % 2 ^ 8 + 1 < theirs % 2 ^ 8 ∨ theirs % 2 ^ 8 + 1 < mine % 2 ^ 8)

/-- The code of a cause (spec/15 R307). -/
def Cause.code : Cause → Nat
  | .feEmpty => 0x01 | .futEmpty => 0x02 | .leaseExpired => 0x03 | .trap => 0x04
  | .page => 0x10 | .resource => 0x11
  | .illegalOp => 0x20 | .misaligned => 0x21 | .prot => 0x22 | .badTag => 0x23 | .badShape => 0x24
  | .segGated => 0x25 | .segWaking => 0x26 | .viewOrder => 0x27 | .restartViolation => 0x28 | .poison => 0x29
  | .residue => 0x40 | .dupMismatch => 0x41 | .hwUncorr => 0x42 | .xferSig => 0x43 | .timeout => 0x44
  | .sealFail => 0x45
  | .watchdog => 0x60

/-- The class of a cause (spec/15 R307): 0 user, 1 supervisor-resolved, 2 launch-ending software, 3 hardware error,
4 watchdog. -/
def Cause.cls : Cause → Nat
  | .feEmpty | .futEmpty | .leaseExpired | .trap => 0
  | .page | .resource => 1
  | .illegalOp | .misaligned | .prot | .badTag | .badShape | .segGated | .segWaking | .viewOrder
  | .restartViolation | .poison => 2
  | .residue | .dupMismatch | .hwUncorr | .xferSig | .timeout | .sealFail => 3
  | .watchdog => 4

/-- TCAUSE: DEF [63], CLASS [18:16], CODE [15:0] (spec/15 R307). -/
def Cause.tcauseWord (c : Cause) (deferred : Bool) : Word :=
  word ((if deferred then 2 ^ 63 else 0) + c.cls * 2 ^ 16 + c.code)

/-- The Bool as a bit at a position. -/
def bitAt (b : Bool) (i : Nat) : Nat := if b then 2 ^ i else 0

/-- Whether an open period of a hold set has not ended in a releasing verdict (spec/10 R206). -/
def Arch.unreleased (a : Arch) (h : TileNo × Nat) : Bool :=
  let t := a.tiles[h.1]
  (t.isOpen && t.period == h.2) ||
    (match t.pending with
     | some ps => ps.period == h.2
     | none => false)

/-- Whether a seal holds a pier entry (spec/10 R206). -/
def Arch.holds (a : Arch) (e : PierEntry) : Bool := e.hold.any a.unreleased

/-- STW (spec/15 R308): SP [15], UT [14], PT [13], LX [12], LA [11:8], SRES [3:0]. -/
def Core.stw (c : Core) : Word :=
  word (bitAt c.sp 15 + bitAt c.a.ut 14 +
    bitAt (match c.a.trap with | some t => t.pend.isSome | none => false) 13 +
    bitAt c.a.lx.isSome 12 +
    ((List.range 4).foldl (fun n l => n + bitAt (c.a.loops.getD l LoopLevel.init).act (8 + l)) 0) +
    c.a.sres.toNat)

/-- MELT (spec/14 R298): NG [11], RF [10], MELT [9:0]. -/
def State.meltWord (s : State) : Word :=
  word (bitAt (decide (896 ≤ s.melt) || s.rf) 11 + bitAt s.rf 10 + s.melt % 1024)

/-- Codes of the lease states (spec/14 R300). -/
def LeaseSt.code : LeaseSt → Nat
  | .base => 0
  | .sprint => 1
  | .refreeze => 2
  | .disabled => 3

/-- The current clock of a cluster in MHz (spec/14 R300). -/
def Cluster.clk (c : Cluster) : Nat :=
  match c.lease with
  | some l => l.level
  | none => c.baseClk

/-- Whether the task running on a core holds the lease of its cluster (spec/14 R302). -/
def Cluster.heldBy (c : Cluster) (core : Core) : Bool :=
  match c.lease with
  | some l => l.core == core.id && core.busy && l.tcb == core.a.tcb
  | none => false

/-- LEASE (spec/14 R300): REMAIN [63:32], CLK [18:8], HOLD [4], ST [1:0]. -/
def State.leaseWord (s : State) : Word :=
  let c := s.cluster s.core.id
  let remain := match c.lease with
    | some l => cdiv (l.expiry - s.frame.toNat) 100
    | none => 0
  word (remain % 2 ^ 32 * 2 ^ 32 + c.clk % 2 ^ 11 * 2 ^ 8 + bitAt (c.heldBy s.core) 4 + c.st.code)

/-- Codes of the segment states (spec/07 R153). -/
def Seg.code : Seg → Nat
  | .off => 0
  | .retain => 1
  | .waking _ _ => 2
  | .on => 3

/-- SEGST (spec/07 R153). -/
def Arch.segst (a : Arch) : Word :=
  word ((List.range 16).foldl (fun n j => n + (a.segs.getD j .off).code * 4 ^ j) 0)

/-- COVER (spec/10 R214): PIERN [40:32], HOLD [3], SP [2], LEVEL [1:0]. -/
def Core.cover (c : Core) : Word :=
  word (c.pier.length % 2 ^ 9 * 2 ^ 32 + bitAt (c.pier.any c.a.holds) 3 + bitAt c.sp 2 + c.a.level % 4)

/-- A count that saturates at its field's largest value (spec/15 R317). -/
def sat (w n : Nat) : Nat := min n (2 ^ w - 1)

/-- ERRCNT (spec/15 R317). -/
def ErrCnt.status (e : ErrCnt) : Word :=
  word (sat 8 e.spt * 2 ^ 56 + sat 8 e.xrt * 2 ^ 48 + sat 16 e.rcd * 2 ^ 32 + sat 16 e.csp * 2 ^ 16 + sat 16 e.crg)

/-- VDID (spec/04 R97): vdie [15:8], vcore [7:0]. -/
def State.vdid (s : State) : Word :=
  match (s.ctx? s.core.a.ctx).bind (fun c => c.vOf s.core.id) with
  | some (d, v) => word (d * 256 + v)
  | none => 0

/-- Whether a drain still has rows that are not performed (spec/09 R198 DRN, spec/06 R135). -/
def Core.drainActive (c : Core) (id : Nat) : Bool :=
  (match c.a.eng with
   | .drain d => d.id == id
   | _ => false) ||
  (c.pier ++ c.a.heldPier).any (fun e => e.drain == some id) || (c.outq ++ c.a.memq).any (fun r => r.drain == some id)

/-- Whether the engine is occupied (spec/09 R181). -/
def Arch.engBusy (a : Arch) : Bool :=
  (match a.eng with
   | .idle => false
   | _ => true) || a.routine.isSome

/-- Whether the engine is free for a bundle of this cycle: it is idle, or its MACCRD row leaves now (spec/09 R181, R197). -/
def Core.engReady (c : Core) : Bool :=
  (match c.a.eng with
   | .idle => true
   | .drain d => d.rd && !d.fresh && decide (d.wait ≤ 1) && (c.rowDone || decide (c.pier.length < Config.pierSize))
   | _ => false) && c.a.routine.isNone

/-- MSTAT's status word (spec/09 R198). -/
def Core.mstat (c : Core) : Word :=
  let openBits := (List.range 4).foldl (fun n t => n + bitAt (c.a.tiles.getD t TileState.zero).isOpen t) 0
  let pendBits := (List.range 4).foldl (fun n t => n + bitAt (c.a.tiles.getD t TileState.zero).pending.isSome t) 0
  word (c.a.stat.rix % 256 * 2 ^ 32 + c.a.stat.rowp % 128 * 2 ^ 24 + openBits * 2 ^ 20 + pendBits * 2 ^ 16 +
    min 15 ((c.a.drains.filter c.drainActive).length) * 2 ^ 8 + c.a.stat.lastv % 4 * 2 ^ 6 + bitAt c.sp 5 +
    bitAt c.a.stat.pw 3 + bitAt c.a.engBusy 1)

/-- The status word of GSTAT (spec/07 R149). -/
def PortState.status (p : PortState) : Word :=
  word (bitAt p.wrap 51 + bitAt p.mode 50 + bitAt p.exh 49 + bitAt p.act 48 + p.pos % 2 ^ 48)

/-- The value of a system register for the acting core (spec/04 R97). -/
def State.sysRead (s : State) : SysReg → Word
  | .stw => s.core.stw
  | .tcause => s.core.a.tcause
  | .tval => s.core.a.tval
  | .tpc => s.core.a.tpc
  | .utvec => s.core.a.utvec
  | .frame => s.frame
  | .melt => s.meltWord
  | .lease => s.leaseWord
  | .segst => s.core.a.segst
  | .cover => s.core.cover
  | .taskid => s.core.a.tcb
  | .vdid => s.vdid
  | .errcnt => s.core.err.status

end Sys2Proof.Machine
end

