-- ==== Sys2Proof/Machine/Launch.lean ====
section
/-!
DEFINITION. Tasks, queues, gang entries, completion records, the end of a launch and the restart of a task (spec/12 R242 to
R269, spec/13 R274 to R276, spec/16 R332).
-/
set_option linter.unusedVariables false

namespace Sys2Proof.Machine

/-- A field of a TCB: offset and size in bytes (spec/12 R242). -/
def tcbF (t : BitVec 1024) (off n : Nat) : Nat := t.toNat / 2 ^ (8 * off) % 2 ^ (8 * n)

def tcbEntry (t : BitVec 1024) : Word := word (tcbF t 0x00 8)
def tcbArg (t : BitVec 1024) (i : Nat) : Word := word (tcbF t (0x08 + 8 * i) 8)
def tcbHome (t : BitVec 1024) : Nat := tcbF t 0x28 8
def tcbViews (t : BitVec 1024) : Nat := tcbF t 0x38 8
def tcbSucc (t : BitVec 1024) : Nat := tcbF t 0x40 8
def tcbNsucc (t : BitVec 1024) : Nat := tcbF t 0x48 4
def tcbDepcnt (t : BitVec 1024) : Nat := tcbF t 0x4C 4
def tcbFlags (t : BitVec 1024) : Nat := tcbF t 0x50 4
def tcbTick (t : BitVec 1024) : Nat := tcbF t 0x58 8
def tcbUvec (t : BitVec 1024) : Word := word (tcbF t 0x60 8)
def tcbPrio (t : BitVec 1024) : Nat := tcbFlags t % 4
def tcbR (t : BitVec 1024) : Bool := tcbFlags t / 4 % 2 == 1
def tcbTickv (t : BitVec 1024) : Bool := tcbFlags t / 8 % 2 == 1
def tcbInl (t : BitVec 1024) : Bool := tcbFlags t / 16 % 2 == 1
def tcbSegn (t : BitVec 1024) : Nat := tcbFlags t / 2 ^ 16 % 256

/-- Codes of STATE (spec/12 R242). -/
def TState.code : TState → Nat
  | .new => 0
  | .armed => 1
  | .ready => 2
  | .running => 3
  | .suspended => 4
  | .done => 5
  | .cancelled => 6

/-- A task by context and TCB address. -/
def State.task? (s : State) (ctx : Nat) (tcb : Word) : Option Task :=
  s.tasks.find? (fun t => t.ctx = ctx && t.tcb = tcb)

/-- Change a task. -/
def State.onTask (ctx : Nat) (tcb : Word) (f : Task → Task) (s : State) : State :=
  { s with tasks := s.tasks.map (fun t => if t.ctx = ctx && t.tcb = tcb then f t else t) }

/-- A stream by number. -/
def State.stream? (s : State) (n : Nat) : Option Stream := s.streams.find? (fun x => x.num = n)

/-- Change a stream. -/
def State.onStream (n : Nat) (f : Stream → Stream) (s : State) : State :=
  { s with streams := s.streams.map (fun x => if x.num = n then f x else x) }

/-- A launch by number. -/
def State.launch? (s : State) (n : Nat) : Option Launch := s.launches.find? (fun x => x.num = n)

/-- The die through which the device translates for a context: that of virtual die 0. -/
def State.ctxDie (s : State) (ctx : Nat) : Nat := ((s.ctx? ctx).bind (fun c => c.pdie 0)).getD 0

/-- Write a task's STATE and RESTARTS to its record and its TCB (spec/12 R242). -/
def State.setTask (ctx : Nat) (tcb : Word) (st : TState) (s : State) : State :=
  let s := s.onTask ctx tcb (fun t => { t with st := st })
  let r := ((s.task? ctx tcb).map (fun t => t.restarts)).getD 0
  s.writeVa (s.ctxDie ctx) ctx (tcb.toNat + 0x68) 8 (r * 256 + st.code)

/-- Write a task's STATUS word (spec/12 R242). -/
def State.setStatus (ctx : Nat) (tcb : Word) (code cause : Nat) (s : State) : State :=
  s.writeVa (s.ctxDie ctx) ctx (tcb.toNat + 0x70) 8 (cause * 2 ^ 16 + code)

/-- Records kept by logs whose size the spec does not give (log 15). -/
def logCap : Nat := 4096

/-- An event of a context's event log (spec/12 R252). -/
def State.logEvent (ctx type : Nat) (tcb x : Word) (s : State) : State :=
  s.onCtx ctx (fun c => { c with events := c.events.add logCap ⟨s.frame.toNat, type, tcb, x⟩ })

/-- A record of the host management log (spec/16 R337).
The detail, and a die, a function or an address that no rule names, are free values (log 5). -/
def State.logHost (type : Nat) (die fn addr : Option Nat) (s : State) : State :=
  let n := s.free
  let b (i : Nat) : Nat := (Config.freeWord (n + i)).toNat % 256
  { s with hostLog := s.hostLog.add logCap
             ⟨s.frame.toNat, type, die.getD (b 0), fn.getD (b 1), addr.getD (Config.freeWord (n + 3)).toNat,
              (Config.freeWord (n + 2)).toNat⟩,
           free := n + 4 }

/-- Fill an s-register and clear its empty bit; s0 takes nothing (spec/04 R76, R77). -/
def Arch.fillS (a : Arch) (r : Reg) (x : Word) : Arch :=
  if r = 0 then a else { a with s := a.s.set r x, sEmpty := setBit a.sEmpty r.val false }

/-- Mark an s-register empty; s0 stays full (spec/04 R76). -/
def Arch.emptyS (a : Arch) (r : Reg) : Arch :=
  if r = 0 then a else { a with sEmpty := setBit a.sEmpty r.val true }

/-- Fill a named vector register (spec/07 R141). -/
def Arch.fillV (a : Arch) (r : Reg) (x : Vec) : Arch :=
  { a with v := a.v.set r x, vEmpty := setBit a.vEmpty r.val false }

/-- The name by which commands, subscriptions and gangs know the task part that issued them: the TCB of its task, and that number with
bit 0 set for a merge routine that runs in the task's place (TCBs are aligned; spec/12 R260). -/
def Arch.key (a : Arch) : Word := if a.merging.isSome then a.tcb ||| 1 else a.tcb

/-- The TCB of such a name. -/
def tcbOf (k : Word) : Word := k &&& ~~~1

/-- Whether a core runs a task part. -/
def Core.runs (c : Core) (ctx : Nat) (key : Word) : Bool := c.busy && c.a.ctx == ctx && c.a.key == key

/-- Change a task part if it is the one named. -/
def Frame.onTask (ctx : Nat) (key : Word) (f : Arch → Arch) (x : Frame) : Frame :=
  if x.a.ctx = ctx && x.a.key = key then { x with a := f x.a } else x

/-- Change a task part in a core image. -/
def CoreImage.onTask (ctx : Nat) (key : Word) (f : Arch → Arch) (i : CoreImage) : CoreImage :=
  if i.busy && i.a.ctx == ctx && i.a.key == key then { i with a := f i.a } else { i with inl := i.inl.map (Frame.onTask ctx key f) }

/-- Change a task's state wherever it is: on its core, spilled for an inline run, suspended, or in an image (spec/13 R273). -/
def State.onTaskArch (ctx : Nat) (key : Word) (f : Arch → Arch) (s : State) : State :=
  let g (c : Core) : Core :=
    if c.runs ctx key then { c with a := f c.a } else { c with inl := c.inl.map (Frame.onTask ctx key f) }
  { s with core := g s.core,
           others := s.others.map (fun c => (c.1, g c.2)),
           tasks := s.tasks.map (fun t =>
             if t.ctx = ctx && t.tcb = key then { t with saved := t.saved.map (Frame.onTask ctx key f) } else t),
           ctxs := s.ctxs.map (fun (c : Context) => if c.num = ctx then
             { c with image := c.image.map (fun (i : Image) => { i with cores := i.cores.map (CoreImage.onTask ctx key f) }) } else c) }

/-- The number of the task's next GJOIN of a gang after a GJOIN, if one is outstanding. -/
def Arch.rejoin (a : Arch) (o : GangOp) : Option Nat :=
  (a.gangOps.find? (fun y => y.kind = .join && y.va = o.va && decide (o.id < y.id))).map (fun y => y.id)

/-- The result of a gang operation: it leaves the outstanding list and its destination fills.
Phases of a gang whose GJOIN is outstanding count from 0, and the returned phase is added to those that stand before the task's next
GJOIN of the gang (spec/13 R274; log 20). -/
def Arch.gangDone (a : Arch) (id : Nat) (x : Nat) : Arch :=
  match a.gangOps.find? (fun o => o.id = id) with
  | none => a
  | some o =>
    let ops := a.gangOps.filter (fun o => o.id ≠ id)
    let next := a.rejoin o
    let mine (y : GangOp) : Bool := y.va = o.va && decide (o.id < y.id) && (next.map (fun n => decide (y.id < n))).getD true
    match o.kind with
    | .join =>
      { a with gangOps := ops.map (fun (y : GangOp) => if mine y then { y with ph := (y.ph + x) % 2 ^ 32 } else y),
               gangs := a.gangs.map (fun (g : GangRec) =>
                 if g.va = o.va && next.isNone then { g with ph := (g.ph + x) % 2 ^ 32 } else g) }.fillS o.dst (word x)
    | .leave => { a with gangOps := ops }
    | _ => { a with gangOps := ops }.fillS o.dst (word x)

/-- The memberships that a task still has at its gangs, with the phase of its next arrival there (spec/13 R272, R274): an
operation that is not sent has had no effect yet. -/
def Arch.heldGangs (a : Arch) : List GangRec :=
  let unsent := a.gangOps.filter (fun o => !o.sent && (match o.kind with
    | .bwait _ => false
    | _ => true))
  ((a.gangs.map (fun g => g.va) ++ unsent.map (fun o => o.va)).eraseDups).filterMap (fun va =>
    match unsent.find? (fun o => o.va = va) with
    | some o => if o.kind = .join then none else some ⟨va, o.ph⟩
    | none => a.gangs.find? (fun g => g.va = va))

/-- Change a gang. -/
def State.onGang (ctx : Nat) (va : Word) (f : Gang → Gang) (s : State) : State :=
  { s with gangs := s.gangs.map (fun g => if g.ctx = ctx && g.va = va then f g else g) }

/-- The effect of a gleave for phase ph (spec/13 R274).
A member that has arrived early for P + 1 leaves P + 2, as by an early drop (log 20). -/
def Gang.leave (g : Gang) (ph : Nat) : Gang :=
  if ph = g.p then { g with n := g.n - 1, n1 := g.n1 - 1 }
  else if ph = (g.p + 1) % 2 ^ 32 then { g with n1 := g.n1 - 1 }
  else { g with d1 := g.d1 + 1 }

/-- Package and system scope invalidate the RC lines of the die's read cache (spec/06 R125). -/
def Scope.wide : Scope → Bool
  | .package | .system => true
  | _ => false

/-- What an acquire of a core adds when it is performed: the RC lines leave its die's read cache, and its instruction cache, whose lines
are those of plain RC reads (spec/02 R33, spec/05 R117, spec/06 R125; log 76). -/
def State.acquireOn (core : Nat) (s : State) : State :=
  (s.onDie (dieOf core) (fun x => { x with cache := x.cache.filter (fun l => l.uo) })).onCore core (fun c => { c with icache := [] })

/-- An acquire performed by the acting core. -/
def State.acquire (sc : Scope) (s : State) : State :=
  if Scope.wide sc then s.acquireOn s.core.id else s

/-- The core on which a task part runs. -/
def State.coreOf (ctx : Nat) (key : Word) (s : State) : Option Nat :=
  s.coreIds.find? (fun c => (s.getCore c).runs ctx key)

/-- An acquire performed for a task: by its core, or when the task comes back to one (spec/06 R134). -/
def State.acquireFor (ctx : Nat) (key : Word) (s : State) : State :=
  match s.coreOf ctx key with
  | some c => s.acquireOn c
  | none => s.onTaskArch ctx key (fun a => { a with acqDue := true })

/-- A gang operation of a task fills; the fill of a BWAIT or an SSTEP is an acquire at package scope (spec/13 R277, R279). -/
def State.gangFill (ctx : Nat) (key : Word) (op x : Nat) (acq : Bool) (s : State) : State :=
  let s := s.onTaskArch ctx key (fun a => a.gangDone op x)
  if acq then s.acquireFor ctx key else s

/-- Whether a wait for phase b is over at phase p (spec/13 R277). -/
def phaseDone (p b : Nat) : Bool := decide (1 ≤ (p + 2 ^ 32 - b) % 2 ^ 32 ∧ (p + 2 ^ 32 - b) % 2 ^ 32 < 2 ^ 31)

/-- Whether phase b lies in the past at phase p, so that a wait for it fills at once (spec/13 R277). -/
def phasePast (p b : Nat) : Bool := decide (2 ^ 31 ≤ (b + 2 ^ 32 - p) % 2 ^ 32)

/-- The completion check of a gang's cycle (spec/13 R275) with the fills that follow it: early arrivals, BWAITs and
SSTEPs whose phase has completed. -/
def State.gangComplete (ctx : Nat) (va : Word) (s : State) : State :=
  match s.gangs.find? (fun g => g.ctx = ctx && g.va = va) with
  | none => s
  | some g =>
    if g.a ≠ g.n then s
    else
      let g' : Gang := { g with p := (g.p + 1) % 2 ^ 32, n := g.n1, n1 := g.n1 - g.d1, a := g.e, e := 0, d1 := 0,
                                early := [], waits := g.waits.filter (fun w => !phaseDone ((g.p + 1) % 2 ^ 32) w.b) }
      let s := s.onGang ctx va (fun _ => g')
      let s := g.early.foldl (fun s w => s.gangFill ctx w.tcb w.op w.b false) s
      let s := (g.waits.filter (fun w => phaseDone g'.p w.b)).foldl (fun s w => s.gangFill ctx w.tcb w.op g'.p true) s
      if g'.n1 = 0 then { s with gangs := s.gangs.filter (fun g => !(g.ctx = ctx && g.va = va)) } else s

/-- A gang without the waits of a task. -/
def Gang.forget (key : Word) (g : Gang) : Gang :=
  { g with waits := g.waits.filter (fun w => w.tcb ≠ key), early := g.early.filter (fun w => w.tcb ≠ key) }

/-- A task leaves every gang of which it is a member, and what it waits for there is forgotten (spec/13 R276). -/
def State.leaveGangs (a : Arch) (s : State) : State :=
  let s := { s with gangs := s.gangs.map (fun g => if g.ctx = a.ctx then g.forget a.key else g) }
  a.heldGangs.foldl (fun s r => (s.onGang a.ctx r.va (fun g => g.leave r.ph)).gangComplete a.ctx r.va) s

/-- Ticks since the last epoch boundary that was counted (spec/14 R289). -/
def State.sinceEpoch (s : State) : Nat := s.frame.toNat - Config.epochTicks * s.epoch

/-- End a lease: clock to base, no trap; the µs of the `ticks` since the last boundary, spent in SPRINT, are counted (spec/14 R299,
R306).
The refreeze interval and the disabled state stay as they are. -/
def Cluster.endLease (ticks : Nat) (c : Cluster) : Cluster :=
  { c with lease := none, st := if c.st = .sprint then .base else c.st,
           sprintUs := c.sprintUs + if c.st = .sprint then ticks / 100 else 0 }

/-- What leaving its core costs the acting core's task (spec/14 R291, R295, R299): its lease ends without a trap, its lease
requests are withdrawn with CODE 5, its token requests leave the queue and are kept with the task. -/
def State.leaveCluster (s : State) : State :=
  let c := s.core
  let cl := s.cluster c.id
  let mine := cl.leaseReqs.filter (fun r => r.core = c.id)
  let s := s.onCluster (clusterOf c.id) (fun x =>
    { (if x.heldBy c then x.endLease s.sinceEpoch else x) with
        leaseReqs := x.leaseReqs.filter (fun r => r.core ≠ c.id),
        reqs := x.reqs.filter (fun r => r.core ≠ c.id) })
  let toks := (cl.reqs.filter (fun r => r.core = c.id)).map (fun r => (r.n, r.dst))
  s.modA (fun a => { mine.foldl (fun a r => a.fillS r.dst 5) a with permits := a.permits ++ toks })

/-! ### Leaving a core and coming back (spec/12 R263 to R265) -/

/-- The next level whose end is the issued bundle, most recently activated first (spec/04 R90). -/
def loopBack : List LoopNo → Vector LoopLevel 4 → List LoopNo → Word → Word → Vector LoopLevel 4 × List LoopNo × Word
  | [], ls, ord, pc, next => (ls, ord, next)
  | l :: rest, ls, ord, pc, next =>
    let x := ls[l]
    if x.act && x.stop == pc then
      if 1 < x.count then (ls.set l { x with count := x.count - 1 }, ord, x.start)
      else loopBack rest (ls.set l LoopLevel.init) (ord.filter (fun y => y ≠ l)) pc next
    else loopBack rest ls ord pc next

/-- Deactivate every level whose body does not contain a target (spec/04 R91). -/
def leaveBodies (ls : Vector LoopLevel 4) (ord : List LoopNo) (t : Word) : Vector LoopLevel 4 × List LoopNo :=
  let inside (l : LoopLevel) := l.start.toNat ≤ t.toNat && t.toNat ≤ l.stop.toNat
  (ls.map (fun l => if l.act && !inside l then LoopLevel.init else l),
   ord.filter (fun l => inside ls[l]))

/-- The next bundle in issue order: loop-backs, then a transfer whose delay bundles have issued (spec/04 R90, R91). -/
def Arch.advance (a : Arch) : Arch :=
  let (ls, ord, next) := loopBack a.order a.loops a.order a.pc (a.pc + 32)
  let a := { a with loops := ls, order := ord }
  match a.pend with
  | none => { a with pc := next }
  | some p =>
    if p.left ≤ 1 then
      let (ls, ord) := if p.leaves then leaveBodies a.loops a.order p.target else (a.loops, a.order)
      { a with pc := p.target, pend := none, loops := ls, order := ord }
    else { a with pc := next, pend := some { p with left := p.left - 1 } }

/-- A slot 7 that held the core completes, and the next bundle follows (spec/12 R263). -/
def State.finishSlot7 (s : State) : State :=
  s.modCore (fun c => { c with a := { c.a.advance with block := none, words := [] }, watch := 0, seq := c.seq + 1 })

/-- Insert an access in issue order. -/
def insertAccess (r : MemReq) : List MemReq → List MemReq
  | [] => [r]
  | x :: l => if r.id ≤ x.id then r :: x :: l else x :: insertAccess r l

/-- The stores of a mem queue that faulted or were held behind a fault: they leave the pier again, in issue order (spec/05 R109). -/
def Arch.resent (a : Arch) : List PierEntry :=
  ((a.memq.filter (fun r => r.load.isNone)).foldr insertAccess []).map (fun r => ⟨r.id, 0, [], none, false, r.cells, r.tags, [], [], r.va, r.drain, none⟩)

/-- A task part whose accesses are sent again, once its stores stand in the pier, and whose ports prefetch anew (spec/05 R109,
spec/07 R146). -/
def Arch.resumed (a : Arch) : Arch :=
  { a with memq := (a.memq.filter (fun r => r.load.isSome)).map (fun (r : MemReq) => { r with held := false, ticks := none }),
           ports := a.ports.map (fun p => { p with age := 0, aged := false }), heldPier := [], permits := [] }

/-- An acquire that was performed for a task while it was off its core. -/
def State.acquireDue (s : State) : State :=
  if s.core.a.acqDue then (s.modA (fun a => { a with acqDue := false })).acquireOn s.core.id else s

/-- A saved task state comes back to the acting core: pier entries that stayed behind, accesses to send again and withdrawn
token requests come with it (spec/05 R109, spec/14 R291, spec/15 R318, R324).
A fault that the scratchpad's port found while the core ran no task is the task's (spec/13 R281; log 82). -/
def State.putBack (f : Frame) (s : State) : State :=
  let id := s.core.id
  let s := (s.modCore (fun c =>
    { c with busy := true, a := { f.a.resumed with deferred := c.a.deferred ++ f.a.deferred },
             pier := c.pier ++ f.a.resent ++ f.a.heldPier, watch := 0 })).acquireDue
  s.onCluster (clusterOf id) (fun c => { c with reqs := c.reqs ++ f.a.permits.map (fun p => ⟨id, p.1, p.2⟩) })

/-- A slot 7 is entered again and goes on as it was to (spec/12 R263). -/
def Block.again : Block → Block
  | .reenter k => .reenter k
  | k => .reenter k

/-- The task below an inline run or a merge routine returns when the inline task is gone, and enters slot 7 of its bundle again: a JOIN goes on in its loop,
a RUNINL completes with 1 (spec/12 R260, R261, R263, R265). -/
def State.popInline (s : State) : State :=
  match s.core.inl with
  | [] => s
  | f :: rest =>
    let s := (s.modCore (fun c => { c with inl := rest })).putBack f
    s.modA (fun a => { a with block := a.block.map (fun b => match b with
      | .inline _ _ d j m => .reenter (if j then .join d s.frame.toNat m else .done (some d))
      | _ => b.again) })

/-- The tasks below an inline task that leaves the core before its MERGE: a JOIN goes on in its loop, and a RUNINL, whose
task must first merge, leaves the core as suspended (spec/12 R261, R263, R265; log 21).
The fuel is the number of frames. -/
def State.leaveInline (t : Word) : Nat → State → State
  | 0, s => s
  | n + 1, s =>
    match s.core.inl with
    | [] => s
    | f :: rest =>
      match f.a.block with
      | some (.inline _ _ d false _) =>
        let w := Wait.child t d
        let s := s.modCore (fun c => { c with inl := rest })
        let s := (s.setTask f.a.ctx f.a.tcb .suspended).onTask f.a.ctx f.a.tcb (fun x =>
          { x with saved := some { f with a := { f.a with block := some (.suspend w) } }, wait := some w,
                   pinned := some s.core.id })
        s.leaveInline f.a.tcb n
      | _ => s.popInline

/-- A core without its task; writes that were held leave with it (spec/05 R109, spec/10 R212). -/
def Core.freed (c : Core) : Core :=
  { c with busy := false, outq := c.outq.filter (fun r => !r.held), a := Arch.zero, fl := none, rowDone := false, newRow := none, fetchAt := none, mxAt := none, iss := Issue.none_, stall := 0, entry := 0, arbit := none,
           arbitFor := [], newArbit := false, sealErr := none, pier := [], watch := 0 }

/-- A core without the commands, subscriptions and releases of the tasks that a predicate names (spec/12 R268, R269). -/
def Core.disowned (p : Nat → Word → Bool) (c : Core) : Core :=
  { c with ca := c.ca.filter (fun (k : CopyCmd) => !p k.ctx (tcbOf k.tcb)), cb := c.cb.filter (fun (k : CopyCmd) => !p k.ctx (tcbOf k.tcb)),
           subs := c.subs.filter (fun (x : Subscription) => !p x.ctx (tcbOf x.tcb)),
           rels := c.rels.filter (fun (r : RelOp) => match r.what with | .admission _ _ par _ => !p r.ctx par) }

/-- Take the task off the acting core for good: its lease, requests and gangs first (spec/13 R276, spec/14 R295, R299). -/
def State.dropTask (s : State) : State :=
  let a := s.core.a
  let s := s.leaveCluster.leaveGangs a
  s.modCore (fun c => c.freed.disowned (fun x t => x = a.ctx && t = a.tcb))

/-- Clear every core of the tasks that a predicate names, running or spilled (spec/12 R268, R269). -/
def State.clearCores (p : Nat → Word → Bool) (s : State) : State :=
  let me := s.core.id
  let gone (f : Frame) := p f.a.ctx f.a.tcb
  let s := (s.coreIds).foldl (fun s c =>
    let s := s.focus c
    let s := (s.core.inl.filter gone).foldl (fun s f => s.leaveGangs f.a) s
    let s := s.modCore (fun c => { c with inl := c.inl.filter (fun f => !gone f) }.disowned p)
    if s.core.busy && p s.core.a.ctx s.core.a.tcb then s.dropTask.popInline else s) s
  s.focus me

/-- Take the tasks that a predicate names, running or spilled, out of a core image (spec/15 R321). -/
def CoreImage.without (p : Nat → Word → Bool) (i : CoreImage) : CoreImage :=
  let gone := i.busy && p i.a.ctx i.a.tcb
  { i with busy := i.busy && !gone, a := if gone then Arch.zero else i.a,
           inl := i.inl.filter (fun f => !p f.a.ctx f.a.tcb),
           ca := i.ca.filter (fun (k : CopyCmd) => !p k.ctx (tcbOf k.tcb)), cb := i.cb.filter (fun (k : CopyCmd) => !p k.ctx (tcbOf k.tcb)),
           subs := i.subs.filter (fun (x : Subscription) => !p x.ctx (tcbOf x.tcb)),
           rels := i.rels.filter (fun (r : RelOp) => match r.what with | .admission _ _ par _ => !p r.ctx par) }

/-- The imaged task parts that a predicate names. -/
def Image.partsOf (p : Nat → Word → Bool) (i : Image) : List Arch :=
  i.cores.flatMap (fun c =>
    (if c.busy && p c.a.ctx c.a.tcb then [c.a] else []) ++ (c.inl.filter (fun f => p f.a.ctx f.a.tcb)).map (fun f => f.a))

/-- Images hold the tasks that a predicate names as cancelled (spec/12 R269, spec/15 R321). -/
def State.clearImages (p : Nat → Word → Bool) (s : State) : State :=
  let s := (s.ctxs.flatMap (fun c => (c.image.map (fun i => i.partsOf p)).getD [])).foldl (fun s a => s.leaveGangs a) s
  { s with ctxs := s.ctxs.map (fun (c : Context) =>
      { c with image := c.image.map (fun (i : Image) =>
          { i with cores := i.cores.map (fun (x : CoreImage) => x.without p),
                   queued := i.queued.filter (fun e => !p e.2.ctx e.2.tcb),
                   armed := i.armed.filter (fun e => !p e.2.ctx e.2.tcb) }) }) }

/-- Remove queue and armed entries that a predicate names. -/
def State.dropQueued (p : Nat → Word → Bool) (s : State) : State :=
  let f (q : List QEntry) := q.filter (fun e => !p e.ctx e.tcb)
  { s with core := { s.core with queue := f s.core.queue },
           others := s.others.map (fun c => (c.1, { c.2 with queue := f c.2.queue })),
           dies := s.dies.map (fun d => { d with queue := f d.queue, armed := f d.armed }) }

/-- The bytes of a completion record (spec/16 R332). -/
def Completion.cells (c : Completion) (base ringN : Nat) : List (Nat × Byte) :=
  let a := base + c.seq % ringN * 64
  cellsOf a 8 c.seq ++ cellsOf (a + 0x08) 2 c.status ++ cellsOf (a + 0x0A) 2 c.cause ++ cellsOf (a + 0x0C) 2 c.stream ++
  cellsOf (a + 0x0E) 2 0 ++ cellsOf (a + 0x10) 8 c.frame0 ++ cellsOf (a + 0x18) 8 c.frame1 ++
  cellsOf (a + 0x20) 8 c.ftcb.toNat ++ cellsOf (a + 0x28) 8 c.tpc.toNat ++ cellsOf (a + 0x30) 8 c.tval.toNat ++
  cellsOf (a + 0x38) 2 c.pcore ++ cellsOf (a + 0x3A) 1 (min 255 c.restarts) ++ cellsOf (a + 0x3B) 1 c.flags ++
  cellsOf (a + 0x3C) 3 0 ++ cellsOf (a + 0x3F) 1 (if (c.seq - 1) / ringN % 2 = 0 then 1 else 0)

/-- Write a completion record to host memory and send the stream's message; the stream is free for its next root
(spec/16 R332). -/
def State.writeRecord (c : Completion) (s : State) : State :=
  match s.stream? c.stream with
  | none => s
  | some st =>
    let fn := ((s.ctx? st.ctx).map (fun x => x.owner)).getD 0
    let s := s.writePhys (c.cells (2 ^ 51 + st.ring) st.ringN) []
    let s := { s with msix := s.msix ++ [(fn, st.vector)] }
    s.onStream c.stream (fun x => { x with running := none, completed := c.seq })

/-- Complete a launch with a status: the record is written, or held while a takeover of the scheduler pair is in progress
(spec/16 R332, R334, R336). -/
def State.completeLaunch (l : Launch) (status cause : Nat) (ftcb tpc tval : Word) (pc : Nat) (s : State) : State :=
  let kept := l.capture && status ≠ 0
  let s := { s with launches := s.launches.filter (fun x => x.num ≠ l.num),
                    captures := s.captures.map (fun (c : CaptureSt) =>
                      if c.stream ≠ l.stream || !l.capture then c
                      else if kept then { c with kept := true } else { c with snaps := [] }) }
  let rec_ : Completion :=
    ⟨l.stream, l.seq, status, cause, l.frame0, s.frame.toNat, ftcb, tpc, tval, pc, l.restarts, if kept then 1 else 0⟩
  if s.takeSch || s.takeSup then { s with heldRecs := s.heldRecs ++ [rec_] } else s.writeRecord rec_

/-- The home compute die of a physical address's stack within a context: the die to which the stack attaches when it is a
virtual die of the context, else the nearest by die hops, ties to the lower vdie (spec/12 R247). -/
def Context.homeDie (c : Context) (pa : Nat) : Nat :=
  let d := pa / 2 ^ 37 % 16 / 2
  (c.bind.foldl (fun (best : Option Nat) b =>
    match best with
    | none => some b.1
    | some x => if dieHops b.1 d < dieHops x d then some b.1 else some x) none).getD 0

/-- The queue in which HOME places a task (spec/12 R247); none is PROT.
`dflt` is the queue for HOME = 0 and `here` the spawning core, which a root does not have. -/
def State.placeOf (s : State) (ctx home : Nat) (dflt : QueueRef) (here : Option Nat) : Option QueueRef :=
  match s.ctx? ctx with
  | none => none
  | some c =>
    if home = 0 then some dflt
    else match windowOf home with
      | .spad _ => here.map .core
      | .other vd vc _ => (c.pcoreOf vd vc).map .core
      | .user =>
        match s.leaf? (s.ctxDie ctx) ctx home with
        | none => none
        | some (e, z) => some (.die (c.homeDie (leafPa e z home false)))
      | _ => none

/-- Whether a queued task is pinned. -/
def State.isPinned (s : State) (e : QEntry) : Bool :=
  ((s.task? e.ctx e.tcb).map (fun t => t.pinned.isSome)).getD false

/-- Hardware asks the supervisor core for room, once for a resource and a task (spec/13 R288). -/
def State.askFor (kind ctx : Nat) (tcb : Word) (s : State) : State :=
  if s.resources.any (fun r => r.kind = kind && r.ctx = ctx && r.tcb = tcb) then s
  else { s with resources := s.resources ++ [⟨kind, ctx, tcb, none⟩] }

/-- An entry for which its queue has no room: the supervisor core holds it, with its number (spec/12 R249). -/
def State.excess (q : QueueRef) (e : QEntry) (s : State) : State :=
  { s with resources := s.resources ++ [⟨4, e.ctx, e.tcb, some (q, e.seq)⟩] }

/-- Put an entry in a die queue, with the number that it has or the queue's next; a full queue goes to the supervisor core
(spec/12 R249, R250). -/
def State.enqueueDie (d : Nat) (ctx : Nat) (tcb : Word) (seq : Option Nat) (s : State) : State :=
  let x := s.die d
  let e : QEntry := ⟨ctx, tcb, seq.getD x.seq⟩
  let s := if seq.isNone then s.onDie d (fun x => { x with seq := x.seq + 1 }) else s
  if x.queue.length < 4096 then s.onDie d (fun x => { x with queue := x.queue ++ [e] }) else s.excess (.die d) e

/-- The youngest or the oldest entry of a queue, by its number (spec/12 R249). -/
def agedMost (youngest : Bool) : List QEntry → Option QEntry
  | [] => none
  | e :: rest => some (rest.foldl (fun b x => if (if youngest then decide (b.seq < x.seq) else decide (x.seq < b.seq)) then x else b) e)

/-- Put an entry in a core's local queue; a full queue passes an unpinned entry to the die queue, the oldest for an unpinned
arrival and the youngest for a pinned one (spec/12 R249). -/
def State.enqueueCore (c : Nat) (ctx : Nat) (tcb : Word) (s : State) : State :=
  let q := (s.getCore c).queue
  let pinned := s.isPinned ⟨ctx, tcb, 0⟩
  let add (q : List QEntry) (x : Core) : Core := { x with queue := q ++ [⟨ctx, tcb, x.qseq⟩], qseq := x.qseq + 1 }
  if q.length < 64 then s.onCore c (fun x => add x.queue x)
  else
    let free := q.filter (fun e => !s.isPinned e)
    match agedMost pinned free with
    | none => (s.excess (.core c) ⟨ctx, tcb, (s.getCore c).qseq⟩).onCore c (fun x => { x with qseq := x.qseq + 1 })
    | some e =>
      let s := s.onCore c (fun x => add (x.queue.filter (fun y => y ≠ e)) x)
      s.enqueueDie (dieOf c) e.ctx e.tcb (some e.seq)

/-- Make a task READY in a queue (spec/12 R251); of a context that is pre-empted or being saved, in its context record
(spec/15 R320). -/
def State.enqueue (q : QueueRef) (ctx : Nat) (tcb : Word) (s : State) : State :=
  let s := (s.setTask ctx tcb .ready).onTask ctx tcb (fun t => { t with readySince := s.frame.toNat })
  if ((s.ctx? ctx).bind (fun c => c.image)).isSome then
    s.onCtx ctx (fun c => { c with image := c.image.map (fun (i : Image) => { i with queued := i.queued ++ [(q, ⟨ctx, tcb, 0⟩)] }) })
  else match q with
  | .core c => s.enqueueCore c ctx tcb
  | .die d => s.enqueueDie d ctx tcb none

/-- A task becomes READY again on the core to which it is pinned (spec/12 R263). -/
def State.readyPinned (ctx : Nat) (tcb : Word) (s : State) : State :=
  match s.task? ctx tcb with
  | none => s
  | some t =>
    if t.st = .suspended then
      match t.pinned with
      | some c => s.enqueue (.core c) ctx tcb
      | none => s.enqueue (.die (s.ctxDie ctx)) ctx tcb
    else s

/-- A task is gone: a RUNINL that waits for it becomes READY (spec/12 R265). -/
def State.childEnded (ctx : Nat) (tcb : Word) (s : State) : State :=
  (s.tasks.filter (fun t => t.ctx = ctx && t.st = .suspended && (match t.wait with
    | some (.child x _) => x = tcb
    | _ => false))).foldl (fun s t => s.readyPinned t.ctx t.tcb) s

/-- Whether a task descends from another, following PARENT for at most `fuel` generations. -/
def State.descends (s : State) (ctx : Nat) (anc : Word) : Nat → Word → Bool
  | 0, _ => false
  | n + 1, t =>
    match (s.task? ctx t).bind (fun x => x.parent) with
    | none => false
    | some p => p == anc || s.descends ctx anc n p

/-- The writes of a context that have left the piers of a die's cores, but for those held behind a fault and those of commands that the
launch does not own, are performed at home in their order (spec/06 R134, spec/12 R269; log 80). -/
def State.landOut (ctx : Nat) (mine : CopyCmd → Bool) (d : Nat) (s : State) : State :=
  let cmds := s.coreIds.flatMap (fun c => let x := s.getCore c; (x.ca ++ x.cb).map (fun k => (c, k)))
  let goes (c : Nat) (r : MemReq) : Bool := r.die = d && r.ctx = ctx && !r.held && (match r.cmd with
    | none => true
    | some (_, id) => cmds.all (fun k => k.1 ≠ c || k.2.id ≠ id || mine k.2))
  let out := ((s.coreIds.flatMap (fun c => (s.getCore c).outq.filter (goes c))).foldr insertStore [])
  let s := out.foldl (fun s r => s.landWrite r (s.poisonedBy r)) s
  s.coreIds.foldl (fun s c => s.onCore c (fun x => { x with outq := x.outq.filter (fun r => !goes c r) })) s

/-- The end of a launch that does not complete (spec/12 R269): its tasks are cancelled, their held entries, commands and
views are discarded, statuses are set, and the completion record carries the status. -/
def State.endLaunch (n status cause : Nat) (code : Nat) (ftcb tpc tval : Word) (pc : Nat) (s : State) : State :=
  match s.launch? n with
  | none => s
  | some l =>
    let mine := s.tasks.filter (fun t => t.launch = n)
    let isMine (ctx : Nat) (tcb : Word) := mine.any (fun t => t.ctx = ctx && t.tcb = tcb)
    let s := mine.foldl (fun s t =>
      let s := match t.saved with
        | some f => s.leaveGangs f.a
        | none => s
      let s := s.setTask t.ctx t.tcb .cancelled
      if t.tcb = ftcb then s.setStatus t.ctx t.tcb code cause else s.setStatus t.ctx t.tcb 1 0) s
    let s := (List.range 8).foldl (fun s d => s.landOut l.ctx (fun k => isMine k.ctx (tcbOf k.tcb)) d) s
    let s := (s.clearCores isMine).clearImages isMine
    let s := s.dropQueued isMine
    let s := { s with tasks := s.tasks.filter (fun t => t.launch ≠ n),
                      decs := s.decs.filter (fun d => !isMine d.ctx d.tcb),
                      resources := s.resources.filter (fun r => !isMine r.ctx r.tcb) }
    let s := mine.foldl (fun s t => s.childEnded t.ctx t.tcb) s
    s.completeLaunch l status cause ftcb tpc tval pc

/-- A hardware error charged to the acting core's task (spec/12 R268): restart its snapshot elsewhere, or end the launch
with HW_ERROR. -/
def State.hardwareError (cause : Cause) (tpc tval : Word) (s : State) : State :=
  let me := s.core.id
  let a := s.core.a
  match s.task? a.ctx a.tcb with
  | none => s.modCore Core.freed
  | some t =>
    if !t.r || 3 ≤ t.restarts || a.merging.isSome then s.endLaunch t.launch 2 cause.code 3 t.tcb tpc tval (pcore me)
    else
      let sub := s.tasks.filter (fun x => x.ctx = t.ctx && s.descends t.ctx t.tcb s.tasks.length x.tcb)
      let isSub (ctx : Nat) (tcb : Word) := sub.any (fun x => x.ctx = ctx && x.tcb = tcb)
      let s := sub.foldl (fun s x =>
        let s := match x.saved with
          | some f => s.leaveGangs f.a
          | none => s
        (s.setTask x.ctx x.tcb .cancelled).setStatus x.ctx x.tcb 1 0) s
      let s := ((s.clearCores isSub).clearImages isSub).dropQueued isSub
      let s := { s with tasks := s.tasks.filter (fun x => !isSub x.ctx x.tcb),
                        decs := s.decs.filter (fun d => !isSub d.ctx d.tcb),
                        resources := s.resources.filter (fun r => !isSub r.ctx r.tcb) }
      let s := sub.foldl (fun s x => s.childEnded x.ctx x.tcb) s
      let s := s.dropTask
      let s := s.onTask t.ctx t.tcb (fun x =>
        { x with restarts := x.restarts + 1, nspawn := 0, npend := 0, blocks := [], fixed := false, saved := none,
                 pinned := none, wait := none, excluded := me :: x.excluded })
      let s := { s with launches := s.launches.map (fun (l : Launch) =>
        if l.num = t.launch then { l with restarts := l.restarts + 1 } else l) }
      let q := match s.placeOf t.ctx (tcbHome t.snap) (.die (dieOf me)) (t.parent.map (fun _ => t.spawner)) with
        | some (.core c) => if c = me then QueueRef.die (dieOf me) else .core c
        | some q => q
        | none => .die (dieOf me)
      let s := s.enqueue q t.ctx t.tcb
      s.leaveInline t.tcb s.core.inl.length

/-- End the launch of the acting core's task for a fault of the given cause (spec/12 R269, spec/16 R332). -/
def State.faultLaunch (status : Nat) (cause : Cause) (tpc tval : Word) (s : State) : State :=
  let a := s.core.a
  match s.task? a.ctx a.tcb with
  | none => s.modCore Core.freed
  | some t => s.endLaunch t.launch status cause.code 2 t.tcb tpc tval (pcore s.core.id)

end Sys2Proof.Machine
end

