-- ==== Sys2Proof/Machine/Ops.lean ====
section
/-!
DEFINITION. The named operations every meaning shares: registers, results in flight, loops and transfers, the pier, taking
a trap and returning from one, the end of a bundle (spec/02 R40 to R44, spec/04 R77, R90, R91, spec/05 R120, spec/15 R309
to R314).
-/
set_option linter.unusedVariables false

namespace Sys2Proof.Machine

/-- The outcome of a step of this machine. -/
abbrev Out := Host.Outcome State Fault Refusal

/-- An s-register's value; s0 reads as zero (spec/04 R76). -/
def Arch.rd (a : Arch) (r : Reg) : Word := if r = 0 then 0 else a.s[r]

/-- Whether an s-register is empty; s0 is always full. -/
def Arch.sIsEmpty (a : Arch) (r : Reg) : Bool := r != 0 && bitOf a.sEmpty r.val

/-- Whether a named vector register is empty. -/
def Arch.vIsEmpty (a : Arch) (r : Reg) : Bool := bitOf a.vEmpty r.val

/-- A predicate's value; p0 reads as true (spec/04 R76). -/
def Arch.rdP (a : Arch) (r : PredReg) : Bool := r == 0 || bitOf a.p r.val

/-- A mask's value; m0 reads as all ones (spec/08 R159). -/
def Arch.rdM (a : Arch) (r : MaskReg) : Mask := if r = 0 then BitVec.allOnes 128 else a.m[r]

/-- Elements of a port: n0 × n1 × n2 × n3 (spec/07 R143). -/
def PortState.count (p : PortState) : Nat :=
  (List.range 4).foldl (fun n l => n * ((p.cnt.getD l 0).toNat + 1)) 1

/-- The vector index of element e (spec/07 R143). -/
def PortState.index (p : PortState) (e : Nat) : Nat :=
  let n (l : Nat) := (p.cnt.getD l 0).toNat + 1
  let d (l : Nat) : Int := (p.stride.getD l 0).toInt
  let i0 := e % n 0
  let i1 := e / n 0 % n 1
  let i2 := e / (n 0 * n 1) % n 2
  let i3 := e / (n 0 * n 1 * n 2)
  (((p.base.toNat : Int) + i0 * d 0 + i1 * d 1 + i2 * d 2 + i3 * d 3) % 4096).toNat

/-- A port after one pop or push (spec/07 R144). -/
def PortState.step (p : PortState) : PortState :=
  if p.pos + 1 = p.count then
    if p.wrap then { p with pos := 0 } else { p with pos := p.pos + 1, exh := true }
  else { p with pos := p.pos + 1 }

/-- A port after a configuration or control command takes effect (spec/07 R143, R148, R149). -/
def PortState.apply (p : PortState) : PortCmd → PortState
  | .cfg .base x =>
    { p with base := BitVec.ofNat 12 (bits x 11 0), mode := bitOf x 16, wrap := bitOf x 17, pos := 0, exh := false }
  | .cfg (.lvl l) x =>
    { p with cnt := p.cnt.set l (BitVec.ofNat 12 (bits x 11 0)), stride := p.stride.set l (BitVec.ofNat 13 (bits x 28 16)),
             pos := 0, exh := false }
  | .start => { p with act := true }
  | .stop => { p with act := false }
  | .seek n => { p with pos := n, exh := false }

/-- Whether a pier entry is one of the own scratchpad that forwarding readers see: a row that leaves the array in this cycle is seen
from the next one on (spec/05 R120, spec/09 R194, R197). -/
def Core.forwards (c : Core) (e : PierEntry) : Bool := e.spad && c.newRow != some e.id

/-- A byte of the own scratchpad as forwarding readers see it: the youngest pier entry that holds it, else the bank
(spec/05 R120). -/
def Core.spadByte (c : Core) (off : Nat) : Byte :=
  match c.pier.reverse.findSome? (fun e => if c.forwards e then (e.cells.find? (fun x => x.1 = off)).map Prod.snd else none) with
  | some b => b
  | none => cellGet 0 c.spad off

/-- A granule's tag as forwarding readers see it (spec/05 R120). -/
def Core.spadTag (c : Core) (g : Nat) : Word :=
  match c.pier.reverse.findSome? (fun e => if c.forwards e then (e.tags.find? (fun x => x.1 = g)).map Prod.snd else none) with
  | some t => t
  | none => cellGet 0 c.spadTags g

/-- `n` bytes of the own scratchpad through the pier, as a number. -/
def Core.spadNat (c : Core) (off n : Nat) : Nat := natOfBytes ((List.range n).map (fun i => c.spadByte (off + i)))

/-- A granule of the own scratchpad through the pier. -/
def Core.spadGranule (c : Core) (off : Nat) : Granule × Word :=
  (BitVec.ofNat 512 (c.spadNat (off / 64 * 64) 64), c.spadTag (off / 64))

/-- Whether a granule of the own scratchpad is poisoned. -/
def Core.spadPoison (c : Core) (off : Nat) : Bool := isPoison (c.spadTag (off / 64))

/-- Bytes and tags written to the scratchpad's banks. -/
def Core.writeSpad (c : Core) (cells : List (Nat × Byte)) (tags : List (Nat × Word)) : Core :=
  { c with spad := cellSets 0 c.spad cells, spadTags := cellSets 0 c.spadTags tags }

/-- A stage-barrier word of a program whose barriers stand at an offset (spec/13 R280). -/
def Core.barrierAt (c : Core) (base sb : Nat) : Word := word (readNat c.spad (base + 8 * sb) 8)

/-- Write such a stage-barrier word. -/
def Core.setBarrierAt (c : Core) (base sb : Nat) (x : Word) : Core :=
  { c with spad := cellSets 0 c.spad (cellsOf (base + 8 * sb) 8 x.toNat) }

/-- A stage-barrier word of the running task's program (spec/13 R280). -/
def Core.barrier (c : Core) (sb : Nat) : Word := c.barrierAt c.a.barBase sb

/-- Write a stage-barrier word of the running task's program. -/
def Core.setBarrier (c : Core) (sb : Nat) (x : Word) : Core := c.setBarrierAt c.a.barBase sb x

/-- A barrier word of its fields: PH [63], XS [62], EXP [61:32], CNT [29:0] (spec/13 R280). -/
def barWord (ph xs : Bool) (exp cnt : Nat) : Word :=
  word (bitAt ph 63 + bitAt xs 62 + exp % 2 ^ 30 * 2 ^ 32 + cnt % 2 ^ 30)

/-- TCEXP's effect: EXP and XS (spec/13 R282). -/
def barExpect (w : Word) (n : Nat) : Word := barWord (bitOf w 63) true n (bits w 29 0)

/-- One landing applied to a core (spec/02 R43, spec/07 R138, R144).
A push whose segment is not ON any more, as after a SEGS of a handler, is lost (log 67). -/
def Core.land (c : Core) : Landing → Core
  | .s r x => { c with a := c.a.fillS r x }
  | .p r x => if r = 0 then c else { c with a := { c.a with p := setBit c.a.p r.val x } }
  | .v r x => { c with a := c.a.fillV r x }
  | .m r x => if r = 0 then c else { c with a := { c.a with m := c.a.m.set r x } }
  | .q x => { c with a := { c.a with q := Vector.ofFn (fun i : Fin 16 => if i.val = 0 then x else c.a.q.getD (i.val - 1) 0) } }
  | .vrf i x => if c.a.segs.getD (i / 256) .off = .on then { c with a := { c.a with vrf := tblPut c.a.vrf i x } } else c
  | .k x => { c with a := { c.a with k := x } }
  | .mp i x => { c with a := { c.a with mp := c.a.mp.set i x } }
  | .utvec x => { c with a := { c.a with utvec := x } }
  | .sres x => if c.a.ut then { c with a := { c.a with sres := x } } else c
  | .port g p => { c with a := { c.a with ports := c.a.ports.set g ((c.a.ports[g]).apply p) } }
  | .tcexp sb n => c.setBarrier sb.val (barExpect (c.barrier sb.val) n)

/-- Every landing of a list. -/
def Core.landAll (c : Core) (ls : List Landing) : Core := ls.foldl Core.land c

/-- A segment one bundle later (spec/07 R152). -/
def Seg.tick : Seg → Seg
  | .waking f (n + 1) => if n = 0 then .on else .waking f n
  | .waking _ 0 => .on
  | x => x

/-- A segment after some bundles or cycles of a trap entry, which are no freeze (spec/07 R152, spec/15 R310). -/
def Seg.ticks : Nat → Seg → Seg
  | 0, x => x
  | n + 1, x => Seg.ticks n x.tick

/-- The results that land for the next bundle: the counts fall by one and those that reach zero land, vb's after the
others', older before younger (spec/02 R43, spec/07 R138). -/
def Core.landDue (c : Core) : Core :=
  let fs := c.a.flights.map (fun f => { f with left := f.left - 1 })
  let due := fs.filter (fun f => f.left = 0)
  let c := { c with a := { c.a with flights := fs.filter (fun f => f.left ≠ 0), segs := c.a.segs.map Seg.tick } }
  let c := (due.filter (fun f => f.slot ≠ 3)).foldl (fun c f => c.landAll f.lands) c
  (due.filter (fun f => f.slot = 3)).foldl (fun c f => c.landAll f.lands) c

/-- The core reaches a bundle: the results due for it land, once (spec/02 R43). -/
def Core.reach (c : Core) : Core := if c.a.words.isEmpty && c.a.reentry.isNone then c.landDue else c

/-- A bundle begins to issue, or is entered again: vectors popped and scratchpad writes staged by its committed slots are
taken up (spec/02 R41). -/
def Core.openIssue (c : Core) : Core :=
  { c with iss := { Issue.none_ with popped := c.a.popped, pier := c.a.staged },
           a := { c.a with popped := [], staged := [] } }

/-- Whether two port commands write the same part of a port's state: ACT, POS, or one configuration word. -/
def PortCmd.same : PortCmd → PortCmd → Bool
  | .cfg w _, .cfg w' _ => w == w'
  | .seek _, .seek _ | .start, .start | .start, .stop | .stop, .start | .stop, .stop => true
  | _, _ => false

/-- Whether two landings are on the same register, so that the later cancels the earlier (spec/04 R77, spec/07 R141,
spec/08 R157, spec/15 R313). -/
def Landing.same : Landing → Landing → Bool
  | .s r _, .s r' _ => r == r'
  | .p r _, .p r' _ => r == r'
  | .v r _, .v r' _ => r == r'
  | .m r _, .m r' _ => r == r'
  | .k _, .k _ => true
  | .mp i _, .mp i' _ => i == i'
  | .utvec _, .utvec _ => true
  | .port g c, .port g' c' => g == g' && c.same c'
  | _, _ => false

/-- Remove from results in flight what a later write cancels (spec/04 R77). -/
def cancel (ls : List Landing) (fs : List Flight) : List Flight :=
  (fs.map (fun f => { f with lands := f.lands.filter (fun l => !ls.any l.same) })).filter (fun f => !f.lands.isEmpty)

/-- Cancel in flight and, while a user trap handler runs, in the captured replay buffer (spec/15 R313). -/
def Arch.cancelled (a : Arch) (ls : List Landing) : Arch :=
  { a with flights := cancel ls a.flights,
           trap := if a.ut then a.trap.map (fun t => { t with replay := cancel ls t.replay }) else a.trap }

/-- Send a result on its way: it is readable after `lat` bundles (spec/02 R43). -/
def State.fly (lat slot : Nat) (ls : List Landing) (s : State) : State :=
  s.modCore (fun c =>
    let a := c.a.cancelled ls
    { c with a := { a with flights := a.flights ++ [⟨lat, slot, c.seq, a.pc, ls⟩] } })

/-- Register a shadow check of a result of this latency; `elems` are its checked elements (spec/08 R178). -/
def State.shadow (lat slot : Nat) (elems : List Nat) (s : State) : State :=
  s.modA (fun a => { a with checks := a.checks ++ [⟨lat, slot, s.core.seq, a.pc, false, none, elems⟩] })

/-- Mark an s-register empty at issue; in-flight results to it are cancelled, and the bundle's other slots still read the
old state (spec/04 R77, spec/02 R40). -/
def State.markEmpty (r : Reg) (s : State) : State :=
  if r = 0 then s
  else s.modCore (fun c =>
    { c with a := c.a.cancelled [.s r 0], iss := { c.iss with emptyS := setBit c.iss.emptyS r.val true } })

/-- Mark an s-register empty at issue and fill it in the same cycle (spec/14 R293, R296). -/
def State.emptyFill (r : Reg) (x : Word) (s : State) : State :=
  (s.markEmpty r).modCore (fun c => { c with a := c.a.fillS r x, iss := { c.iss with emptyS := setBit c.iss.emptyS r.val false } })

/-- Mark a named vector register empty at issue (spec/05 R112). -/
def State.markEmptyV (r : Reg) (s : State) : State :=
  s.modCore (fun c =>
    { c with a := c.a.cancelled [.v r 0], iss := { c.iss with emptyV := setBit c.iss.emptyV r.val true } })

/-- Fill an s-register of the acting core now (an asynchronous producer). -/
def State.fill (r : Reg) (x : Word) (s : State) : State := s.modA (fun a => a.fillS r x)

/-- The hold set of an entry that enters the pier now (spec/10 R206). -/
def Arch.holdSet (a : Arch) : List (TileNo × Nat) :=
  (List.finRange 4).flatMap (fun t =>
    let x := a.tiles[t]
    (if x.isOpen then [(t, x.period)] else []) ++
    (match x.pending with
     | some ps => [(t, ps.period)]
     | none => []))

/-- Take the next number of the core's accesses. -/
def State.newId (s : State) : Nat × State := (s.core.nextId, s.modCore (fun c => { c with nextId := c.nextId + 1 }))

/-- Stage a pier entry for the end of the bundle (spec/06 R124, R126). -/
def State.stage (e : PierEntry) (s : State) : State :=
  let (n, s) := s.newId
  s.modCore (fun c => { c with iss := { c.iss with pier := c.iss.pier ++ [{ e with id := n, seq := c.seq }] } })

/-- An entry before it has a number. -/
def PierEntry.blank : PierEntry := ⟨0, 0, [], none, false, [], [], [], [], 0, none, none⟩

/-- Close what a bundle's committed slots staged: empties are marked and entries enter the pier with the hold set of
this cycle; on a trap the scratchpad writes, and what a higher slot placed after them, wait for the re-entry, so that a bundle's
entries enter in the order of its slots (spec/02 R41, spec/06 R124, spec/10 R206). -/
def Core.closeIssue (c : Core) (trapped : Bool) : Core :=
  let hs := c.a.holdSet
  let es := c.iss.pier.map (fun e => { e with hold := hs })
  let now := if trapped then es.takeWhile (fun e => !e.spad) else es
  { c with
    a := { c.a with
      sEmpty := c.a.sEmpty ||| c.iss.emptyS,
      vEmpty := c.a.vEmpty ||| c.iss.emptyV,
      popped := if trapped then c.iss.popped else [],
      staged := if trapped then es.dropWhile (fun e => !e.spad) else [],
      words := if trapped then c.a.words else [],
      reentry := none },
    pier := c.pier ++ now,
    iss := Issue.none_ }

/-- The end of a bundle all of whose slots have committed: staged effects, the next bundle address, the watchdog
(spec/02 R40, spec/15 R319). -/
def State.endBundle (s : State) : State :=
  s.modCore (fun c =>
    let c := c.closeIssue false
    { c with a := c.a.advance, watch := 0, seq := c.seq + 1 })

/-- Whether a landing is on state that a user trap does not set aside and that no slot of a bundle reads after the slot that writes
it: UTVEC and the parameter registers, whose new values govern from the next bundle on (spec/04 R97, spec/09 R182; log 108). -/
def Landing.shared : Landing → Bool
  | .utvec _ | .mp _ _ => true
  | _ => false

/-- The results in flight that a handler's first bundle already sees have landed; the others are captured (spec/15 R314;
log 108). -/
def Core.landShared (c : Core) : Core :=
  let c' := c.landAll ((c.a.flights.flatMap (fun f => f.lands)).filter Landing.shared)
  { c' with a := { c'.a with
      flights := (c.a.flights.map (fun f => { f with lands := f.lands.filter (fun l => !l.shared) })).filter
        (fun f => !f.lands.isEmpty) } }

/-- Entry of a user trap (spec/15 R310): the trap state is set aside, the loops are deactivated, and the handler issues 8
cycles after the trapping bundle, at the UTVEC that governs that bundle. -/
def Core.userEntry (c : Core) : Core :=
  let utvec := c.a.utvec
  let c := c.landShared
  let a := c.a
  { c with
    a := { a with
      trap := some ⟨a.flights, a.q, a.m, a.k, a.loops, a.order, a.pend, a.sres, a.tpc, a.popped, a.staged, a.words, a.block⟩,
      flights := [], popped := [], staged := [], words := [], reentry := none, block := none, pend := none, order := [],
      loops := Vector.replicate 4 LoopLevel.init, ut := true, pc := utvec, segs := a.segs.map (Seg.ticks 7) },
    entry := 7, seq := c.seq + 1 }

/-- The trap registers (spec/15 R309).
A class-1 trap inside a handler leaves the handler's values. -/
def Arch.trapRegs (a : Arch) (c : Cause) (tval : Word) (deferred : Bool) (sres : Nat) (tpc : Word) : Arch :=
  if c.cls = 1 && a.ut then a
  else { a with tcause := c.tcauseWord deferred, tval := tval, tpc := tpc, sres := BitVec.ofNat 4 sres }

/-- Take a trap: the one operation every fault goes through (spec/02 R40, spec/15 R307 to R311, R318, R325).
`sres` is the slot at which re-entry begins, `tpc` the bundle.
Class 0 enters the handler, or ends the launch with no UTVEC (LEASE_EXPIRED is then discarded) and in a merge routine, whose every fault
does (spec/12 R260; log 105); inside a handler it is ILLEGAL_OP.
Class 1 suspends the task pinned, after its seals; in a merge routine it ends the launch, but for an unmapped page of the view pool, for
which the routine waits (spec/12 R259, R260).
Class 2 ends the launch.
Class 3 restarts the task or ends the launch with HW_ERROR.
Class 4 ends the launch with HANG. -/
def State.trap (sres : Nat) (cause : Cause) (tval : Word) (deferred : Bool) (tpc : Word) (s : State) : State :=
  if cause = .leaseExpired && s.core.a.utvec = 0 then s
  else
  let nested := cause.cls = 0 && s.core.a.ut
  let tval := if nested then word (s.core.a.words.getD sres 0) else tval
  let cause := if nested then .illegalOp else cause
  let s := s.modCore (fun c =>
    let committed := decide (c.a.reentry.getD 0 < sres)
    let c := c.closeIssue true
    { c with a := c.a.trapRegs cause tval deferred sres tpc,
             watch := if committed then 0 else c.watch,
             iss := { Issue.none_ with trapped := true } })
  match cause.cls with
  | 0 =>
    if s.core.a.utvec = 0 || (s.core.a.merging.isSome && cause ≠ .leaseExpired) then s.faultLaunch 1 cause tpc tval
    else s.modCore Core.userEntry
  | 1 =>
    if s.core.a.merging.isSome && !(cause = .page && s.inViewPool s.core.a.ctx tval.toNat) then s.faultLaunch 1 cause tpc tval
    else
    let w : Wait := if cause = .page then .page tval else .resource tval.toNat
    s.modA (fun a =>
      { a with reentry := some sres, words := if sres = 0 then [] else a.words, block := some (.suspend w), back := none })
  | 2 => s.faultLaunch 1 cause tpc tval
  | 3 => s.hardwareError cause tpc tval
  | _ => s.faultLaunch 3 cause tpc tval

/-- LEASE_EXPIRED waits for no handler when there is none to take it: without UTVEC it is discarded (spec/14 R301). -/
def Arch.dropLease (a : Arch) : Arch := if !a.ut && a.utvec = 0 then { a with lx := none } else a

/-- LEASE_EXPIRED is taken at a slot before which nothing of the issue has committed (spec/14 R301). -/
def State.leaseTrap (slot why : Nat) (s : State) : State :=
  ((s.modA (fun a => { a with lx := none })).modCore Core.openIssue).trap slot .leaseExpired (word why) false s.core.a.pc

/-- A fault raised at issue by a slot (spec/02 R40). -/
def State.fault (slot : Nat) (c : Cause) (tval : Word) (s : State) : State := s.trap slot c tval false s.core.a.pc

/-- ILLEGAL_OP at a slot, TVAL the slot's word (spec/15 R307). -/
def State.illegal (slot : Nat) (s : State) : State := s.fault slot .illegalOp (word (s.core.a.words.getD slot 0))

/-- Results of the handler in flight at UTRET: its queue entries are lost, those due within the 8 cycles have landed
(spec/15 R313, spec/07 R140). -/
def handlerFlights (within : Nat) (fs : List Flight) : List Landing × List Flight :=
  let fs := fs.map (fun f => { f with lands := f.lands.filter (fun l => match l with | .q _ => false | _ => true) })
  ((fs.filter (fun f => f.left ≤ within)).flatMap (fun f => f.lands),
   (fs.filter (fun f => within < f.left)).map (fun f => { f with left := f.left - within }))

/-- The return from a user trap (spec/15 R313): the trap state comes back, then the handler's results that are due by then land, and the
bundle at TPC is re-entered at SRES 8 cycles later, or the bundle that follows it issues when SRES is 8.
The SRES that UTRET's own bundle finds decides; one that a WRSR of that bundle writes is lost (log 93).
A slot 7 that was about to be entered again goes on as it would have. -/
def Core.trapReturn (c : Core) : Core :=
  match c.a.trap with
  | none => c
  | some t =>
    let sres := c.a.sres
    let re := sres.toNat < 8
    let cont := if sres = 7 then t.cont else none
    let (ls, hf) := handlerFlights (if re then 8 else 7) c.a.flights
    let c := { c with a := { c.a with
      q := t.q, m := t.m, k := t.k, loops := t.loops, order := t.order, pend := t.pend, ut := false, trap := none,
      pc := c.a.tpc, flights := [], popped := [], staged := [] } }.landAll ls
    let a := { c.a with flights := t.replay ++ hf }
    if re then
      { c with
        a := { a with reentry := if cont.isSome then none else some sres.toNat, block := cont, popped := t.popped, staged := t.staged,
                      words := if sres = 0 then [] else t.words, segs := a.segs.map (Seg.ticks 8) },
        entry := 7 }
    else
      let es := t.staged.map (fun e => { e with hold := a.holdSet })
      { c with a := { a.advance with segs := a.segs.map (Seg.ticks 7) }, pier := c.pier ++ es, entry := 7 }

/-- Record a fault found after issue (spec/05 R109). -/
def State.defer (c : Cause) (tval : Word) (s : State) : State :=
  s.modA (fun a => { a with deferred := a.deferred ++ [⟨c, tval⟩] })

end Sys2Proof.Machine
end

