-- ==== Sys2Proof/Machine/Operands.lean ====
section
/-!
DEFINITION. Operands: what each instruction reads and writes before it issues, the freezes and the checks of a bundle
(spec/02 R37, R38, R42, spec/05 R107), the reads of vector sources with their traps (spec/07 R139 to R150, spec/08 R157,
R161), and the delivery of vector results (spec/07 R138, R144).
-/
set_option linter.unusedVariables false

namespace Sys2Proof.Machine

/-- What an instruction needs at issue: sources that block, destinations, and the resources whose lack freezes the core
(spec/02 R42). -/
structure Uses where
  src : List Reg := []
  vsrc : List VSrc := []
  dst : List Reg := []
  pdst : List PredReg := []
  mdst : List MaskReg := []
  vdst : List VDst := []
  engine : Bool := false
  copy : Option CopyQ := none
  pier : Bool := false
  rows : Option Reg := none
  gang : Bool := false
  tcw : Option (Fin 64) := none
  gates : Option Nat := none
deriving DecidableEq, Repr

/-- A command of a copy queue reads its sources, marks its token, and takes a slot and a pier entry (spec/11 R219). -/
def copyUses (q : CopyQ) (t : Reg) (src : List Reg) : Uses := { src, dst := [t], copy := some q, pier := true }

/-- The operands of every instruction of a slot, by the entries of the slot chapters. -/
def uses : Instr → Uses
  | .add d a b _ | .sub d a b _ | .and d a b _ | .or d a b _ | .xor d a b _ | .andn d a b _ | .sll d a b _
  | .srl d a b _ | .sra d a b _ | .rol d a b _ | .min d a b _ | .max d a b _ | .minu d a b _ | .maxu d a b _
  | .mul d a b _ | .mulh d a b _ | .mulhu d a b _ | .div d a b _ | .divu d a b _ | .rem d a b _ | .remu d a b _ =>
    { src := [a, b], dst := [d] }
  | .clz d a _ | .ctz d a _ | .popc d a _ => { src := [a], dst := [d] }
  | .addi d a _ | .andi d a _ | .ori d a _ | .xori d a _ | .slli d a _ _ | .srli d a _ _ | .srai d a _ _
  | .roli d a _ _ | .movhi d a _ => { src := [a], dst := [d] }
  | .addpc d _ => { dst := [d] }
  | .cmp p a b _ _ => { src := [a, b], pdst := [p] }
  | .cmpi p _ a _ => { src := [a], pdst := [p] }
  | .pand d _ _ _ _ | .por d _ _ _ _ | .pxor d _ _ _ _ => { pdst := [d] }
  | .sel d a b _ _ => { src := [a, b], dst := [d] }
  | .bz a _ | .bnz a _ => { src := [a] }
  | .call _ => { dst := [31] }
  | .jr d a => { src := [a], dst := [d] }
  | .loop _ a _ => { src := [a] }
  | .fadd d a b _ | .fsub d a b _ | .fmul d a b _ | .fdiv d a b _ => { src := [a, b], dst := [d] }
  | .fmin d a b | .fmax d a b => { src := [a, b], dst := [d] }
  | .ffma d a b _ | .ffms d a b _ | .ffnma d a b _ | .ffnms d a b _ => { src := [a, b, d], dst := [d] }
  | .fsqrt d a _ | .fcvtI64F32 d a _ | .fcvtUi64F32 d a _ | .fcvtI32F32 d a _ | .fcvtUi32F32 d a _
  | .fcvtF32I64 d a _ | .fcvtF32Ui64 d a _ | .fcvtF32I32 d a _ | .fcvtF32Ui32 d a _ | .fcvtB16F32 d a _
  | .fcvtF32B16 d a _ | .fcvtF16F32 d a _ | .fcvtF32F16 d a _ | .fcvtF8aF32 d a _ | .fcvtF8bF32 d a _
  | .fcvtF32F8a d a _ | .fcvtF32F8b d a _ | .frint d a _ => { src := [a], dst := [d] }
  | .feq p a b | .flt p a b | .fle p a b | .fUn p a b => { src := [a, b], pdst := [p] }
  | .rdsr d _ => { dst := [d] }
  | .wrsr a _ | .gcfg a _ _ | .gseek a _ | .vsetk a | .vsetkH a => { src := [a] }
  | .gstat d _ => { dst := [d] }
  | .ld d a _ _ _ | .lds d a _ _ _ | .ldt d a _ _ => { src := [a], dst := [d] }
  | .st d a _ _ _ | .stt d a _ _ => { src := [a, d], pier := true }
  | .ldv d a _ _ => { src := [a], vdst := [.v d] }
  | .ldx d a _ _ => { src := [a], vdst := [.v d], dst := [a] }
  | .stv d a _ _ | .stpk d a _ _ _ => { src := [a], vsrc := [.v d false], pier := true }
  | .prefRc a _ | .prefMd a _ => { src := [a] }
  | .ldg d a b _ => { src := [a], vsrc := [.v b false], vdst := [.v d] }
  | .vadd _ d a b _ _ | .vsub _ d a b _ _ | .vmul _ d a b _ _ | .vmulh _ d a b _ _ | .vmin _ d a b _ _
  | .vmax _ d a b _ _ | .vshl _ d a b _ _ | .vshr _ d a b _ _ => { vsrc := [a, b], vdst := [d] }
  | .vand _ d a b _ | .vor _ d a b _ | .vxor _ d a b _ | .vandn _ d a b _ | .vsel _ d a b _ | .vscale _ d a b _
  | .vqnt _ d a b _ => { vsrc := [a, b], vdst := [d] }
  | .vunpk _ d a b => { vsrc := [a, b], vdst := [d] }
  | .vperm d a b _ | .vrot d a b _ => { vsrc := [a, b], vdst := [d] }
  | .vfma _ c a b _ _ => { vsrc := [a, b, c] }
  | .vabs _ d a _ _ | .vneg _ d a _ _ => { vsrc := [a], vdst := [d] }
  | .vrsum d a _ _ | .vrmax d a _ _ | .vscan d a _ _ => { vsrc := [a], vdst := [d] }
  | .vexp2 d a _ | .vlog2 d a _ | .vrcp d a _ | .vrsq d a _ => { vsrc := [a], vdst := [d] }
  | .vcvt _ d a _ _ _ _ => { vsrc := [a], vdst := [d] }
  | .vmov _ d a => { vsrc := [a], vdst := [d] }
  | .vcmp _ _ k a b _ _ => { vsrc := [a, b], mdst := [k] }
  | .vmaskAnd _ k _ _ | .vmaskOr _ k _ _ | .vmaskXor _ k _ _ | .vmaskAndn _ k _ _ => { mdst := [k] }
  | .vmaskNot _ k _ => { mdst := [k] }
  | .vmaskNz _ k a | .vmaskCnt _ k a => { vsrc := [a], mdst := [k] }
  | .vchk _ a b _ => { vsrc := [a, b] }
  | .msetp _ a => { src := [a] }
  | .mcall _ _ _ _ | .mzero _ | .mseal _ => { engine := true }
  | .mdrain _ d a b _ n _ _ => { src := if n then [d] else [d, a, b], engine := true }
  | .mstat d => { dst := [d] }
  | .mlduc a b | .mlducEnt a b => { src := [a, b], engine := true }
  | .maccrd _ d a => { src := [a], dst := [d], engine := true }
  | .maccrdRow _ a b => { src := [a, b], engine := true, pier := true }
  | .maccwr _ a b | .maccwrRow _ a b => { src := [a, b], engine := true }
  | .mwait d _ => { dst := [d] }
  | .cpy q t a b c | .cpy2 q t a b c => copyUses q t [a, b, c]
  | .cpyb q t a b _ => copyUses q t [a, b]
  | .acc q t a b c _ _ => copyUses q t [a, b, c]
  | .cas q t a b c _ _ => copyUses q t [a, b, c]
  | .faa q t a b _ _ | .xchg q t a b _ _ => copyUses q t [a, b]
  | .fput q t a b _ => copyUses q t [a, b]
  | .subs q t a _ _ => copyUses q t [a]
  | .unsub q t _ | .slotrel q t _ => copyUses q t []
  | .publ q t a b _ => copyUses q t [a, b]
  | .cfence q t _ => copyUses q t []
  | .cpys q t a c _ => { copyUses q t [a, c] with engine := true, rows := some c }
  | .coll q t a b c _ _ => copyUses q t [a, b, c]
  | .spawn d a => { src := [a], dst := [d] }
  | .spawnl d a b => { src := [a, b], dst := [d] }
  | .join d => { dst := [d] }
  | .tinfo d _ => { dst := [d] }
  | .viewa d a | .fget d a | .runinl d a | .permit d a | .vdmap d a => { src := [a], dst := [d] }
  | .fwaitSpin d a b | .fwaitYield d a b | .lease d a b | .vdist d a b => { src := [a, b], dst := [d] }
  | .gjoin d a | .arrive d a | .arriveDrop d a | .sstep d a => { src := [a], dst := [d], gang := true }
  | .gleave a => { src := [a], gang := true }
  | .bwait d a b => { src := [a, b], dst := [d], gang := true }
  | .tcexp a _ => { src := [a] }
  | .tcwait d sb => { dst := [d], tcw := some sb }
  | .leaserel d => { dst := [d] }
  | .segs _ n => { gates := some n.toNat }
  | _ => {}

/-- Whether an s-register is pending: empty, or about to be marked by the bundle itself. -/
def Core.blockedS (c : Core) (r : Reg) : Bool := c.a.sIsEmpty r

/-- Whether a vector source blocks: an empty named register without its E bit (spec/02 R38). -/
def Core.blockedV (c : Core) : VSrc → Bool
  | .v r e => !e && c.a.vIsEmpty r
  | _ => false

/-- Whether a vector destination is pending. -/
def Core.pendingV (c : Core) : VDst → Bool
  | .v r => c.a.vIsEmpty r
  | _ => false

/-- Whether the next element of a read port is not yet present: fewer than 8 cycles since its GSTART or GSEEK
(spec/07 R145). -/
def Core.fetching (c : Core) : VSrc → Bool
  | .g p => let x := c.a.ports[p]; x.act && !x.exh && !x.mode && decide (x.age < 8)
  | _ => false

/-- A copy queue. -/
def Core.queueOf (c : Core) : CopyQ → List CopyCmd
  | .ca => c.ca
  | .cb => c.cb

/-- Whether a push to a segment that SEGS gates is in flight (spec/07 R154). -/
def Core.gateWait (c : Core) (n : Nat) : Bool :=
  c.a.flights.any (fun f => f.lands.any (fun l =>
    match l with
    | .vrf i _ => decide (n ≤ i / 256)
    | _ => false))

/-- The gang operations outstanding on a core: those of the task that runs and of the tasks spilled below it (spec/13 R273; log 81). -/
def Core.gangOps (c : Core) : Nat := c.inl.foldl (fun n f => n + f.a.gangOps.length) c.a.gangOps.length

/-- Whether an instruction cannot issue in this cycle (spec/02 R42). -/
def Core.frozenBy (c : Core) (i : Instr) : Bool :=
  let u := uses i
  u.src.any c.blockedS || u.vsrc.any c.blockedV || u.dst.any c.blockedS || u.vdst.any c.pendingV ||
  u.vsrc.any c.fetching || (u.engine && !c.engReady) ||
  (match u.copy with
   | some q => decide (Config.copyQueueSize ≤ (c.queueOf q).length)
   | none => false) ||
  (u.gang && decide (16 ≤ c.gangOps)) ||
  (match u.tcw with
   | some sb => c.a.tcwaits.any (fun w => w.1 == sb)
   | none => false) ||
  (match u.gates with
   | some n => c.gateWait n
   | none => false)

/-- The pier entries that an instruction takes: one, or one for each captured row of a CPYS (spec/05 R120, spec/11
R237). -/
def Core.pierNeed (c : Core) (i : Instr) : Nat :=
  let u := uses i
  match u.rows with
  | some r => bits (c.a.rd r) 46 40 + 1
  | none => if u.pier then 1 else 0

/-- Whether a full pier holds a bundle: it takes entries and the pier lacks room for them, or is not yet empty when they are
more than it can ever hold (spec/02 R42, spec/05 R120). -/
def Core.pierFull (c : Core) (is : List Instr) : Bool :=
  let n := (is.map c.pierNeed).foldl (fun x y => x + y) c.a.staged.length
  n != 0 && decide (Config.pierSize < c.pier.length + n) && !c.pier.isEmpty

/-- A destination named in a bundle (spec/02 R37). -/
inductive Named where
  | s (r : Reg)
  | p (r : PredReg)
  | v (r : Reg)
  | m (r : MaskReg)
  | g (p : Port)
deriving DecidableEq, Repr

/-- The destinations an instruction names: s0, p0 and a result for the queue only are exempt (spec/02 R37). -/
def named (i : Instr) : List Named :=
  let u := uses i
  (u.dst.filter (fun r => r ≠ 0)).map .s ++ (u.pdst.filter (fun r => r ≠ 0)).map .p ++ u.mdst.map .m ++
  u.vdst.filterMap (fun d =>
    match d with
    | .queue => none
    | .v r => some (.v r)
    | .g p => some (.g p))

/-- The atomic of a slot that carries DUP, as its operation and its FL field (spec/11 R231). -/
def dupKey : Instr → Option (Nat × Nat)
  | .acc _ _ _ _ _ true o => some (4, AccOp.code o)
  | .cas _ _ _ _ _ true z => some (5, AtomSize.code z)
  | .faa _ _ _ _ true z => some (6, AtomSize.code z)
  | .xchg _ _ _ _ true z => some (7, AtomSize.code z)
  | .fput _ _ _ _ true => some (8, 0)
  | _ => none

/-- The lowest slot from `k` on that raises ILLEGAL_OP before it is looked at by itself: a word that is no instruction
(spec/02 R36), a destination that a lower slot names (R37), and a DUP atomic without its partner, at slot 6
(spec/11 R231). -/
def illegalFrom (dup : Bool) : Nat → List (Option Instr) → List Named → Option Nat
  | _, [], _ => none
  | k, none :: _, _ => some k
  | k, some i :: rest, seen =>
    if (named i).any (fun d => seen.contains d) then some k
    else if dup && k = 6 then some 6
    else illegalFrom dup (k + 1) rest (named i ++ seen)

/-- Whether the DUP atomics of a bundle are badly paired (spec/11 R231). -/
def dupBad (is : List (Option Instr)) : Bool :=
  let key (k : Nat) : Option (Nat × Nat) := ((is.getD k none).bind dupKey)
  key 5 != key 6

/-- The lowest slot of a bundle that raises ILLEGAL_OP by the rules that look at the whole bundle. -/
def illegalSlot (is : List (Option Instr)) : Option Nat := illegalFrom (dupBad is) 0 is []

/-- The slot number of a vector unit. -/
def VUnit.slot : VUnit → Nat
  | .va => 2
  | .vb => 3

/-- The slot number of a copy queue. -/
def CopyQ.slot : CopyQ → Nat
  | .ca => 5
  | .cb => 6

/-- The address in the own-VRF window of a granule of a vector. -/
def vrfVa (i j : Nat) : Word := word (Config.vrfBase + 512 * i + 64 * j)

/-- Faults of a vector instruction's ports in the order of R161, by rank. -/
def segFault (a : Arch) (i : Nat) : List (Nat × Cause × Word) :=
  match a.segs.getD (i / 256) .off with
  | .on => []
  | .waking _ _ => [(2, .segWaking, word i)]
  | _ => [(1, .segGated, word i)]

/-- The port faults of one source (spec/07 R144, R147, R150). -/
def Core.srcFaults (c : Core) (slotWord : Nat) : VSrc → List (Nat × Cause × Word)
  | .g p =>
    if c.iss.popped.any (fun x => x.1 == p) then []
    else
      let x := c.a.ports[p]
      if !x.act || x.exh || x.mode then [(0, .illegalOp, word p.val)]
      else
        let i := x.index x.pos
        segFault c.a i ++ ((List.range 8).filterMap (fun j =>
          if isPoison (cellGet 0 c.a.vrfTags (8 * i + j)) then some (3, Cause.poison, vrfVa i j) else none))
  | .fl => if c.fl.isNone then [(0, .illegalOp, word slotWord)] else []
  | _ => []

/-- The port faults of a destination (spec/07 R144, R147). -/
def Core.dstFaults (c : Core) : VDst → List (Nat × Cause × Word)
  | .g p =>
    let x := c.a.ports[p]
    if !x.act || x.exh || !x.mode then [(0, .illegalOp, word p.val)] else segFault c.a (x.index x.pos)
  | _ => []

/-- The first of some faults in order of rank, the earlier operand first at equal rank. -/
def firstFault : List (Nat × Cause × Word) → Option (Nat × Cause × Word) → Option (Cause × Word)
  | [], best => best.map (fun b => b.2)
  | x :: rest, best =>
    firstFault rest (match best with
      | none => some x
      | some b => if x.1 < b.1 then some x else some b)

/-- FE_EMPTY of a source: its E bit set and its register empty (spec/07 R142). -/
def Core.emptyFault (c : Core) : VSrc → Option (Cause × Word)
  | .v r true => if c.a.vIsEmpty r then some (.feEmpty, word r.val) else none
  | _ => none

/-- The fault that the operands of a vector instruction raise at issue: FE_EMPTY, then the ports and fl (spec/08 R161).
Of two empty operands with E set, and of two port faults of one rank, TVAL names the first in the order A, B, C (log 71). -/
def Core.vecFault (c : Core) (slot : Nat) (srcs : List VSrc) (dst : VDst) : Option (Cause × Word) :=
  match srcs.findSome? c.emptyFault with
  | some f => some f
  | none => firstFault (srcs.flatMap (c.srcFaults (c.a.words.getD slot 0)) ++ c.dstFaults dst) none

/-- The vector of a source (spec/07 R139, R141, R145, R150).
A port that a slot of the bundle has read gives the same vector again (spec/02 R39). -/
def Core.readV (c : Core) : VSrc → Vec
  | .q i => c.a.q[i]
  | .v r _ => c.a.v[r]
  | .g p =>
    match c.iss.popped.find? (fun x => x.1 == p) with
    | some x => x.2
    | none => c.a.vrfGet (c.a.ports[p].index c.a.ports[p].pos)
  | .fl => (c.fl.map (fun x => x.2.2)).getD 0
  | .z => 0
  | .li => Vec.ofFn (fun i => BitVec.ofNat 32 i)
  | .k => Vec.splat c.a.k

/-- Pop a port, once a bundle (spec/02 R39, spec/07 R144). -/
def Core.popV (c : Core) : VSrc → Core
  | .g p =>
    if c.iss.popped.any (fun x => x.1 == p) then c
    else
      { c with iss := { c.iss with popped := (p, c.readV (.g p)) :: c.iss.popped }
               a := { c.a with ports := c.a.ports.set p c.a.ports[p].step } }
  | _ => c

/-- A value of an open period has reached a register: the period is open still, or its seal has begun (spec/10 R211). -/
def TileState.taint (t : TileState) (p : Nat) : TileState :=
  if t.isOpen && t.period == p then { t with tainted := true }
  else { t with pending := t.pending.map (fun ps => if ps.period = p then { ps with tainted := true } else ps) }

/-- The tile whose row a bundle reads from fl is tainted (spec/10 R211). -/
def Core.taintFl (c : Core) (srcs : List VSrc) : Core :=
  match c.fl with
  | some (t, p, _) =>
    if srcs.any (fun x => x == .fl) then { c with a := { c.a with tiles := c.a.tiles.set t ((c.a.tiles[t]).taint p) } } else c
  | none => c

/-- The issue of a vector instruction: its operand faults, a fault of the values it reads (`extra`), else its pops and
what `f` makes of the source values (spec/08 R157, R161). -/
def State.vecIssue (slot : Nat) (srcs : List VSrc) (dst : VDst) (extra : List Vec → Option (Cause × Word))
    (f : List Vec → State → State) (s : State) : State :=
  match s.core.vecFault slot srcs dst with
  | some (c, x) => s.fault slot c x
  | none =>
    let vals := srcs.map s.core.readV
    match extra vals with
    | some (c, x) => s.fault slot c x
    | none => f vals (s.modCore (fun c => srcs.foldl Core.popV (c.taintFl srcs)))

/-- Delivery of a 128-lane result: one queue entry, and the named register or the index that the push takes at issue
(spec/07 R138, R144, spec/08 R157); `elems` are the elements that the narrow shadow checks (spec/08 R176). -/
def State.deliver (lat slot : Nat) (dst : VDst) (elems : List Nat) (x : Vec) (s : State) : State :=
  let s := if elems.isEmpty then s else s.shadow lat slot elems
  match dst with
  | .queue => s.fly lat slot [.q x]
  | .v r => s.fly lat slot [.q x, .v r x]
  | .g p =>
    let i := s.core.a.ports[p].index s.core.a.ports[p].pos
    (s.modA (fun a => { a with ports := a.ports.set p a.ports[p].step })).fly lat slot [.q x, .vrf i x]

/-- The mask whose bit i is `f i`. -/
def maskOf (f : Nat → Bool) : Mask :=
  BitVec.ofNat 128 ((List.range 128).foldr (fun i n => (if f i then 1 else 0) + 2 * n) 0)

/-- Bytes of a size code. -/
def Size.bytes : Size → Nat
  | .b => 1
  | .h => 2
  | .w => 4
  | .d => 8

/-- The effective address of the MI family (spec/05 R107). -/
def Arch.ea (a : Arch) (r : Reg) (o : BitVec 10) (u : Nat) : Word :=
  a.rd r + BitVec.ofInt 64 (o.toInt * (u : Int))

end Sys2Proof.Machine
end

