-- ==== Sys2Proof/Machine/MemSlot.lean ====
section
/-!
DEFINITION. The meanings of the mem slot at issue (spec/05 R98 to R118, spec/12 R256, R267).
Own-scratchpad accesses are performed here; off-core loads join the mem queue and stores enter the pier, and the events of
MemEvents.lean perform them.
-/
set_option linter.unusedVariables false

namespace Sys2Proof.Machine

/-- The scope of an acquire or release, if the access is one (spec/05 R110). -/
def scopeOf : Order → Option Scope
  | .plain => none
  | .sync sc => some sc

/-- Whether n bytes from an offset touch a stage-barrier word (spec/13 R280). -/
def Arch.hitsBarrier (a : Arch) (off n : Nat) : Bool := barrierHit a.barBase off n

/-- The view window that holds a byte of a declared tile (spec/12 R256). -/
def Arch.viewAt (a : Arch) (va : Nat) : Option ViewWin :=
  a.views.find? (fun w => w.base ≤ va && va < w.base + w.size)

/-- Whether n bytes touch a declared tile. -/
def Arch.hitsView (a : Arch) (va n : Nat) : Bool := a.views.any (fun w => w.base < va + n && va < w.base + w.size)

/-- Whether every byte lies in declared tiles. -/
def Arch.inViews (a : Arch) (va n : Nat) : Bool := (List.range n).all (fun i => (a.viewAt (va + i)).isSome)

/-- Whether n bytes lie where a view of the task lies in the view pool, as an address that VIEWA returned names them, or in the
destination of a merge routine (spec/12 R257, R260). -/
def Arch.ownPlace (a : Arch) (va n : Nat) : Bool :=
  a.views.any (fun w => w.pool && decide (w.addr ≤ va ∧ va + n ≤ w.addr + w.size)) ||
  (match a.merging with
   | some (d, z) => decide (d ≤ va ∧ va + n ≤ d + z)
   | none => false)

/-- Whether the running task is restartable (spec/12 R267). -/
def State.restartable (s : State) : Bool :=
  ((s.task? s.core.a.ctx s.core.a.tcb).map (fun t => t.r)).getD false

/-- Whether n bytes lie in windows that the mem slot reaches, all in one (spec/05 R98, R99). -/
def memReach (va n : Nat) : Bool :=
  match windowOf va, windowOf (va + n - 1) with
  | .user, .user => true
  | .spad _, .spad _ => true
  | .host, .host => true
  | _, _ => false

/-- Whether an address lies in the own-scratchpad window. -/
def inSpad (va : Nat) : Bool := decide (Config.spadBase ≤ va ∧ va < Config.spadBase + Config.spadBytes)

/-- The offset of an own-scratchpad address. -/
def spadOff (va : Word) : Nat := va.toNat - Config.spadBase

/-- The own-scratchpad address of an offset. -/
def spadVa (off : Nat) : Word := word (Config.spadBase + off)

/-- Whether a store breaks the limits of a merge routine: any byte outside its destination (spec/12 R260). -/
def Arch.mergeBad (a : Arch) (va n : Nat) : Bool :=
  match a.merging with
  | none => false
  | some (d, z) => !(d ≤ va && va + n ≤ d + z)

/-- The faults common to the mem slot, in the order of R40 (spec/05 R99, R107, spec/12 R256, R260, R267, spec/13 R280). -/
def State.memFault (store spadOnly : Bool) (n align : Nat) (ea : Word) (s : State) : Option (Cause × Word) :=
  let va := ea.toNat
  let a := s.core.a
  if !memReach va n || (spadOnly && !inSpad va) || (store && a.mergeBad va n) ||
      (store && inSpad va && a.hitsBarrier (spadOff ea) n) then some (.prot, ea)
  else if va % align ≠ 0 then some (.misaligned, ea)
  else if a.frozen0 && a.hitsView va n then some (.viewOrder, ea)
  else if store && s.restartable && !inSpad va && !a.inViews va n && !a.ownPlace va n then some (.restartViolation, ea)
  else none

/-- The lowest poisoned granule among n bytes of the own scratchpad (spec/05 R123). -/
def Core.spadPoisonIn (c : Core) (off n : Nat) : Option (Cause × Word) :=
  ((List.range ((off + n - 1) / 64 + 1 - off / 64)).find? (fun j => c.spadPoison (off / 64 * 64 + 64 * j))).map
    (fun j => (.poison, spadVa (off / 64 * 64 + 64 * j)))

/-- The granules that n bytes at a VA touch, as their first bytes within the access. -/
def granuleVas (va n : Nat) : List Nat :=
  (List.range ((va + n - 1) / 64 + 1 - va / 64)).map (fun j => max va ((va / 64 + j) * 64))

/-- A list cut into runs of one key. -/
def runsOf {α : Type} [DecidableEq α] (key : Nat → α) : List Nat → List (List Nat)
  | [] => []
  | x :: xs =>
    match runsOf key xs with
    | (y :: ys) :: gs => if key x = key y then (x :: y :: ys) :: gs else [x] :: (y :: ys) :: gs
    | gs => [x] :: gs

/-- The VA that is translated for a VA of a core's task: a byte of a view in the view pool, or the VA itself (spec/12 R256). -/
def Arch.translated (a : Arch) (remap : Bool) (va : Nat) : Nat :=
  match (if remap then a.viewAt va else none) with
  | some w => if w.pool then w.addr + (va - w.base) else va
  | none => va

/-- Where the page of a VA of the acting core begins; an address without a page counts as one of 64 KiB (spec/05 R102, R108). -/
def State.pageOf (s : State) (va : Nat) : Nat :=
  match s.leafVia? s.core.tlb1 (dieOf s.core.id) s.core.a.ctx va with
  | some (_, z) => va / z * z
  | none => va / 2 ^ 16 * 2 ^ 16

/-- The part of an access that a granule belongs to: its page, and its declared tile (spec/05 R108, spec/12 R256). -/
def State.partKey (s : State) (g : Nat) : Nat × Option Nat :=
  (s.pageOf (s.core.a.translated true g), (s.core.a.viewAt g).map (fun w => w.base))

/-- The parts of n bytes at a VA, each as its first byte and its size: an access that crosses a page boundary splits there
(spec/05 R108, spec/06 R132). -/
def State.parts (s : State) (va n : Nat) : List (Nat × Nat) :=
  (runsOf s.partKey (granuleVas va n)).map (fun gs =>
    let lo := gs.headD va
    (lo, min (gs.getLastD va / 64 * 64 + 64) (va + n) - lo))

/-- Bytes that a load names: an LDX names one granule until it has read its tag (spec/05 R113). -/
def LoadDst.bytes : LoadDst → Nat
  | .scalar _ n _ => n
  | .vec _ => 512
  | .expand _ _ => 64
  | .tag _ => 64

/-- A part of an access that asks for nothing. -/
def MemReq.blank : MemReq :=
  ⟨0, 0, 0, 0, 0, none, none, [], [], [], [], 0, 0, false, none, none, none, none, false, 0, 0, false⟩

/-- The part `p` of a load of the running bundle. -/
def loadReq (id ctx : Nat) (va : Word) (dst : LoadDst) (acq : Option Scope) (p : Nat × Nat) : MemReq :=
  { MemReq.blank with id := id, ctx := ctx, va := va, lo := p.1, n := p.2, load := some dst, acq := acq }

/-- An off-core load joins the mem queue, part by part (spec/05 R108). -/
def State.queueLoad (va : Word) (dst : LoadDst) (acq : Option Scope) (s : State) : State :=
  let (id, s) := s.newId
  s.modA (fun a => { a with memq := a.memq ++ (s.parts va.toNat dst.bytes).map (loadReq id a.ctx va dst acq) })

/-- A scratchpad acquire is performed with its load (spec/05 R110, spec/06 R133). -/
def State.spadAcquire (acq : Option Scope) (s : State) : State :=
  match acq with
  | none => s
  | some sc => s.acquire sc

/-- A load of n bytes into an s-register: 6 cycles from the own scratchpad, else its destination is marked empty
(spec/05 R108, R111). -/
def State.loadScalar (d a : Reg) (o : BitVec 10) (r : Order) (n : Nat) (signed : Bool) (s : State) : State :=
  let ea := s.core.a.ea a o n
  match s.memFault false false n n ea with
  | some (c, x) => s.fault 1 c x
  | none =>
    if inSpad ea.toNat then
      match s.core.spadPoisonIn (spadOff ea) n with
      | some (c, x) => s.fault 1 c x
      | none =>
        let x := s.core.spadNat (spadOff ea) n
        let v := if signed then BitVec.ofInt 64 (signedOf (8 * n) x) else word x
        (s.fly 6 1 [.s d v]).spadAcquire (scopeOf r)
    else (s.markEmpty d).queueLoad ea (.scalar d n signed) (scopeOf r)

/-- A store of bytes of n at an address: a pier entry, visible to scratchpad loads from the next bundle on
(spec/05 R111, R120). -/
def State.storeBytes (ea : Word) (n x : Nat) (r : Order) (s : State) : State :=
  if inSpad ea.toNat then
    match s.core.spadPoisonIn (spadOff ea) n with
    | some (c, v) => s.fault 1 c v
    | none => s.stage { PierEntry.blank with spad := true, cells := cellsOf (spadOff ea) n x, va := ea, rel := scopeOf r }
  else s.stage { PierEntry.blank with cells := cellsOf ea.toNat n x, va := ea, rel := scopeOf r }

/-- The no-op of the mem slot (spec/02 R36). -/
def execNopMem (s : State) : Out := .next s

/-- LD: zero-extended (spec/05 R111). -/
def execLd (d a : Reg) (o : BitVec 10) (r : Order) (z : Size) (s : State) : Out :=
  .next (s.loadScalar d a o r (Size.bytes z) false)

/-- LDS: sign-extended (spec/05 R111). -/
def execLds (d a : Reg) (o : BitVec 10) (r : Order) (z : Size) (s : State) : Out :=
  .next (s.loadScalar d a o r (Size.bytes z) true)

/-- ST: the low bytes of s[D] (spec/05 R111). -/
def execSt (d a : Reg) (o : BitVec 10) (r : Order) (z : Size) (s : State) : Out :=
  let n := Size.bytes z
  let ea := s.core.a.ea a o n
  .next (match s.memFault true false n n ea with
    | some (c, x) => s.fault 1 c x
    | none => s.storeBytes ea n (s.core.a.rd d).toNat r)

/-- LDV: 512 bytes into a named register, 8 cycles from the own scratchpad (spec/05 R112). -/
def execLdv (d a : Reg) (o : BitVec 10) (r : Order) (s : State) : Out :=
  let ea := s.core.a.ea a o 64
  .next (match s.memFault false false 512 64 ea with
    | some (c, x) => s.fault 1 c x
    | none =>
      if inSpad ea.toNat then
        match s.core.spadPoisonIn (spadOff ea) 512 with
        | some (c, x) => s.fault 1 c x
        | none =>
          (s.fly 8 1 [.v d (BitVec.ofNat 4096 (s.core.spadNat (spadOff ea) 512))]).spadAcquire (scopeOf r)
      else (s.markEmptyV d).queueLoad ea (.vec d) (scopeOf r))

/-- STV: a named register's 512 bytes; tags stay (spec/05 R112). -/
def execStv (d a : Reg) (o : BitVec 10) (r : Order) (s : State) : Out :=
  let ea := s.core.a.ea a o 64
  .next (match s.memFault true false 512 64 ea with
    | some (c, x) => s.fault 1 c x
    | none => s.storeBytes ea 512 (s.core.a.v[d]).toNat r)

/-- The expansion of 128 elements of tagged granules (spec/05 R113). -/
def expandVec (f : Fmt) (gs : List (Granule × Word)) : Vec :=
  Vec.ofFn (fun i =>
    let g := gs.getD (i / f.elems) (0, 0)
    to32 (elemValue f g.2 g.1 (i % f.elems)))

/-- The fault of a tag that LDX reads: POISON, or BAD_TAG when it is not valid or not of the first format
(spec/05 R113). -/
def expandFault (f : Fmt) (t va : Word) : Option (Cause × Word) :=
  if isPoison t then some (.poison, va)
  else match tagValidFmt t with
    | none => some (.badTag, va)
    | some f' => if f' = f then none else some (.badTag, va)

/-- The faults of LDX over its granules in address order (spec/05 R113). -/
def expandFaults (f : Fmt) (ea : Word) (ts : List Word) : Option (Cause × Word) :=
  ((List.range ts.length).zip ts).findSome? (fun p => expandFault f p.2 (ea + word (64 * p.1)))

/-- LDX from the own scratchpad (spec/05 R113). -/
def State.expandSpad (d a : Reg) (ea : Word) (r : Order) (s : State) : State :=
  let t0 := s.core.spadTag (spadOff ea / 64)
  match Fmt.ofCode (tagFmt t0) with
  | none => s.fault 1 (if isPoison t0 then .poison else .badTag) ea
  | some f =>
    let g := 128 / f.elems
    if !memReach ea.toNat (64 * g) then s.fault 1 .prot ea
    else
      let gs := (List.range g).map (fun j => s.core.spadGranule (spadOff ea + 64 * j))
      match expandFaults f ea (gs.map Prod.snd) with
      | some (c, x) => s.fault 1 c x
      | none => (s.fly 8 1 [.v d (expandVec f gs), .s a (ea + word (64 * g))]).spadAcquire (scopeOf r)

/-- LDX: expand 128 tagged elements and advance the address register (spec/05 R113). -/
def execLdx (d a : Reg) (o : BitVec 10) (r : Order) (s : State) : Out :=
  let ea := s.core.a.ea a o 64
  .next (match s.memFault false false 64 64 ea with
    | some (c, x) => s.fault 1 c x
    | none =>
      if inSpad ea.toNat then s.expandSpad d a ea r
      else ((s.markEmptyV d).markEmpty a).queueLoad ea (.expand d a) (scopeOf r))

/-- The scale that STPK gives granule j (spec/05 R114). -/
def packScale (m : ScaleMode) (f : Fmt) (xv : Nat) (lanes : List ExtNum) (old : Nat) (j : Nat) : Nat :=
  match m with
  | .blk => blockScale ((lanes.drop (j * f.elems)).take f.elems) f xv
  | .vec => blockScale lanes f xv
  | .keep => old

/-- The number whose granule the codes of f make, element t at its place (spec/03 R56). -/
def packCodes (f : Fmt) (codes : List Nat) : Nat :=
  ((List.range codes.length).zip codes).foldl (fun n p => n + p.2 * 2 ^ (f.bits * p.1)) 0

/-- STPK: quantise the lanes of a named register into tagged granules of the own scratchpad (spec/05 R114). -/
def execStpk (d a : Reg) (o : BitVec 10) (r : Order) (m : ScaleMode) (s : State) : Out :=
  let ea := s.core.a.ea a o 64
  .next (match s.memFault true true 64 64 ea with
    | some (c, x) => s.fault 1 c x
    | none =>
      let off := spadOff ea
      let t0 := s.core.spadTag (off / 64)
      if isPoison t0 then s.fault 1 .poison ea
      else match Fmt.ofCode (tagFmt t0) with
        | none => s.fault 1 .badTag ea
        | some f =>
          let g := 128 / f.elems
          match s.memFault true true (64 * g) 64 ea with
          | some (c, x) => s.fault 1 c x
          | none =>
            match s.core.spadPoisonIn off (64 * g) with
            | some (c, x) => s.fault 1 c x
            | none =>
              if (tagValidFmt t0).isNone then s.fault 1 .badTag ea
              else
              let old (j : Nat) := tagScale (s.core.spadTag (off / 64 + j))
              match (if m = .keep then (List.range g).find? (fun j => !scaleOk (old j)) else none) with
              | some j => s.fault 1 .badTag (ea + word (64 * j))
              | none =>
                let lanes := (List.range 128).map (fun i => num32 ((s.core.a.v[d]).lane i).toNat)
                let xv := tagXv t0
                let sc (j : Nat) := packScale m f xv lanes (old j) j
                let codes (j : Nat) := ((lanes.drop (j * f.elems)).take f.elems).map
                  (fun x => quantise x (sc j) f xv .rne)
                s.stage { PierEntry.blank with
                  spad := true, va := ea, rel := scopeOf r,
                  cells := (List.range g).flatMap (fun j => cellsOf (off + 64 * j) 64 (packCodes f (codes j))),
                  tags := (List.range g).map (fun j => (off / 64 + j, mkTag (tagFmt t0) xv (tagAxis t0) (sc j))) })

/-- LDT: the tag of a granule, 6 cycles from the own scratchpad (spec/05 R115). -/
def execLdt (d a : Reg) (o : BitVec 10) (r : Order) (s : State) : Out :=
  let ea := s.core.a.ea a o 64
  .next (match s.memFault false false 64 64 ea with
    | some (c, x) => s.fault 1 c x
    | none =>
      if inSpad ea.toNat then
        match s.core.spadPoisonIn (spadOff ea) 64 with
        | some (c, x) => s.fault 1 c x
        | none => (s.fly 6 1 [.s d (s.core.spadTag (spadOff ea / 64))]).spadAcquire (scopeOf r)
      else (s.markEmpty d).queueLoad ea (.tag d) (scopeOf r))

/-- STT: write a tag in the own scratchpad (spec/05 R115). -/
def execStt (d a : Reg) (o : BitVec 10) (r : Order) (s : State) : Out :=
  let ea := s.core.a.ea a o 64
  let x := s.core.a.rd d
  .next (match s.memFault true true 64 64 ea with
    | some (c, v) => s.fault 1 c v
    | none =>
      match s.core.spadPoisonIn (spadOff ea) 64 with
      | some (c, v) => s.fault 1 c v
      | none =>
        if isPoison x then s.fault 1 .badTag ea
        else s.stage { PierEntry.blank with
          spad := true, va := ea, rel := scopeOf r, tags := [(spadOff ea / 64, x)] })

/-- The lane addresses of LDG (spec/05 R116). -/
def gatherAddrs (base : Word) (v : Vec) (x64 : Bool) : List Word :=
  (List.range 128).map (fun i => base + (v.lane i).zeroExtend 64 * (if x64 then 64 else 4))

/-- The lowest address of a list that breaks a rule. -/
def lowest (bad : Word → Bool) (as : List Word) : Option Word :=
  (as.filter bad).foldl (fun (m : Option Word) a =>
    match m with
    | none => some a
    | some x => some (if a.toNat < x.toNat then a else x)) none

/-- The bank cycles of LDG beyond 4 (spec/05 R119). -/
def gatherExtra (as : List Word) : Nat :=
  let gs := (as.map (fun a => spadOff a / 64)).eraseDups
  (List.range 32).foldl (fun n b => max n ((gs.filter (fun g => g % 32 = b)).length)) 0 - 4

/-- LDG: gather 128 words from the own scratchpad, 8 cycles (spec/05 R116). -/
def execLdg (d a b : Reg) (x64 : Bool) (s : State) : Out :=
  let as := gatherAddrs (s.core.a.rd a) (s.core.a.v[b]) x64
  .next (match lowest (fun x => !(inSpad x.toNat && inSpad (x.toNat + 3))) as with
    | some x => s.fault 1 .prot x
    | none =>
      match lowest (fun x => x.toNat % 4 ≠ 0) as with
      | some x => s.fault 1 .misaligned x
      | none =>
        match lowest (fun x => s.core.spadPoison (spadOff x)) as with
        | some x => s.fault 1 .poison (spadVa (spadOff x / 64 * 64))
        | none =>
          let v := Vec.ofFn (fun i => BitVec.ofNat 32 (s.core.spadNat (spadOff (as.getD i 0)) 4))
          (s.fly 8 1 [.v d v]).modCore (fun c => { c with stall := c.stall + gatherExtra as }))

/-! ### What is performed, and ordering points (spec/05 R117, spec/06 R125, R133) -/

/-- Whether a write that has left the pier has been performed at a scope before home has it: core and die scopes are reached in the
die's read cache, where the page allows one (spec/06 R125). -/
def MemReq.reached (r : MemReq) (sc : Scope) : Bool := !Scope.wide sc && r.cached

/-- The place of a pier entry among its core's accesses: that of the command it stands for, or its own. -/
def PierEntry.place (e : PierEntry) : Nat :=
  match e.cmd with
  | some (_, id) => id
  | none => e.id

/-- The granules that a command moves one by one, by number (spec/11 R224, R238). -/
def CopyCmd.granules (k : CopyCmd) : Nat :=
  match k.kind with
  | .block _ _ rowlen nrows _ _ _ => rowlen / 64 * nrows
  | .cpys _ _ _ n _ _ _ _ _ _ _ => 8 * n
  | _ => 0

/-- Whether a granule of a command has been moved. -/
def CopyCmd.has (k : CopyCmd) (j : Nat) : Bool := k.done / 2 ^ j % 2 == 1

/-- Whether every granule of a command has been moved. -/
def CopyCmd.moved (k : CopyCmd) : Bool := k.granules != 0 && k.done == 2 ^ k.granules - 1

/-- Whether an access of a command has been performed at a scope, but for its writes that wait for home: at core and die scope when every
granule has left for home, at the others when the command is gone (spec/06 R125). -/
def CopyCmd.reached (k : CopyCmd) (sc : Scope) : Bool := !Scope.wide sc && k.moved

/-- Whether a command has read its sources: every granule of a copy, the source of an ACC, the location of any other atomic
(spec/06 R133). -/
def CopyCmd.sourcesRead (k : CopyCmd) : Bool :=
  match k.kind with
  | .block _ _ _ _ _ _ _ => (List.range k.granules).all (fun j => k.has j || (tblGet k.data j).isSome)
  | .acc _ _ _ _ => k.read
  | .cas _ _ _ _ | .faa _ _ _ | .xchg _ _ _ | .fput _ _ => k.applied.isSome
  | .coll _ _ _ _ _ _ _ => false
  | _ => true

/-- Whether no operand read of the engine that was issued before access `id` waits for its answer (spec/06 R133). -/
def Core.operandsBefore (c : Core) (id : Nat) : Bool := (c.mxAt.map (fun x => decide (id ≤ x.2))).getD true

/-- Whether every access of a core before access `id` that is past the pier, or has none, is performed at a scope: loads, stores, rows,
copy commands and operand reads (spec/06 R125, R133). -/
def Core.performedOut (c : Core) (id : Nat) (sc : Scope) : Bool :=
  c.a.memq.all (fun r => id ≤ r.id) && c.outq.all (fun r => id ≤ r.id || r.reached sc) &&
  (c.ca ++ c.cb).all (fun (k : CopyCmd) => id ≤ k.id || k.reached sc) && c.operandsBefore id

/-- Whether no drain issued before access `id` has rows in the engine, in the pier, or not performed at a scope (spec/06 R133, R135). -/
def Core.drainedBefore (c : Core) (id : Nat) (sc : Scope) : Bool :=
  let out (d : Option Nat) : Bool := (d.map (fun k => decide (k < id))).getD false
  (match c.a.eng with
   | .drain d => decide (id ≤ d.id)
   | _ => true) &&
  c.pier.all (fun e => !out e.drain) && c.outq.all (fun r => !out r.drain || r.reached sc)

/-- Whether every access that a core issued before access `id`, drains included, has been performed at a scope (spec/06 R133). -/
def Core.performedBefore (c : Core) (id : Nat) (sc : Scope) : Bool :=
  c.performedOut id sc && c.pier.all (fun e => id ≤ e.place) && c.drainedBefore id sc

/-- Whether every off-core read that a core issued before access `id` has been performed (spec/06 R133). -/
def Core.readsDoneBefore (c : Core) (id : Nat) : Bool :=
  c.a.memq.all (fun r => id ≤ r.id || r.load.isNone) && (c.ca ++ c.cb).all (fun (k : CopyCmd) => id ≤ k.id || k.sourcesRead) &&
  c.operandsBefore id

/-- Whether every off-core access of the mem queue issued before `id` has been performed. -/
def Core.memDoneBefore (c : Core) (id : Nat) : Bool :=
  c.a.memq.all (fun r => id ≤ r.id) && c.pier.all (fun e => id ≤ e.id || e.spad || e.cmd.isSome || e.drain.isSome) &&
  c.outq.all (fun r => id ≤ r.id || r.drain.isSome || r.cmd.isSome)

/-- Whether an ordering point still holds later accesses (spec/05 R117, spec/06 R133). -/
def Core.pointPending (c : Core) (p : OrderPoint) : Bool :=
  (match p.rel with
   | some sc => !c.performedBefore p.id sc
   | none => false) ||
  (p.acq.isSome && !c.readsDoneBefore p.id) || (p.mem && !c.memDoneBefore p.id)

/-- The scope at which an ordering point acquires now, and again when a full fence is met: lines that came into the read cache before
the accesses ahead of the fence were performed serve no load behind it (spec/05 R117, spec/06 R133). -/
def Core.acquiresAt (c : Core) (p : OrderPoint) : Option Scope :=
  if p.acq.isSome && c.readsDoneBefore p.id then p.acq
  else if p.full && !c.pointPending p then p.rel else none

/-- Perform the acquire of every ordering point whose reads are done, and remove the points that are met; an acquire at package or
system scope invalidates the RC lines (spec/05 R117, spec/06 R133). -/
def State.prunePoints (s : State) : State :=
  let c := s.core
  let done := c.a.points.filterMap c.acquiresAt
  let s := s.modA (fun a =>
    { a with points := (a.points.filter c.pointPending).map (fun (p : OrderPoint) =>
        if p.acq.isSome && c.readsDoneBefore p.id then { p with acq := none } else p) })
  done.foldl (fun s sc => s.acquire sc) s

/-- Whether an acquire issued before access `id` is not yet performed: an acquire load, a fence, a BWAIT or an SSTEP
(spec/06 R133, spec/13 R277, R279). -/
def Core.acquireBefore (c : Core) (id : Nat) : Bool :=
  c.a.memq.any (fun r => r.id < id && r.acq.isSome) ||
  c.a.points.any (fun p => p.id < id && p.acq.isSome) ||
  c.a.gangOps.any (fun o => o.id < id && (match o.kind with
    | .bwait _ | .sstep => true
    | _ => false))

/-- Whether a full fence before access `id` still waits for the accesses before it (spec/06 R133). -/
def Core.fencedBefore (c : Core) (id : Nat) : Bool :=
  c.a.points.any (fun p => p.id < id && p.full && (match p.rel with
    | some sc => !c.performedBefore p.id sc
    | none => false))

/-- Whether the ordering points let a read be performed that stands at place `id` among the core's accesses and belongs to no queue of
the mem slot (spec/06 R133). -/
def Core.readAllowedAt (c : Core) (id : Nat) : Bool := !c.acquireBefore id && !c.fencedBefore id

/-- The same of a read that the core issues now: of a future's cell (spec/06 R133). -/
def Core.readAllowed (c : Core) : Bool := c.readAllowedAt c.nextId

/-- The same of the operands in device memory of the coming step, which have their place since they left the die (spec/06 R133,
spec/09 R187). -/
def Core.operandAllowed (c : Core) : Bool := c.readAllowedAt ((c.mxAt.map Prod.snd).getD c.nextId)

/-- Whether the ordering points let a load of the mem queue be performed (spec/05 R117, spec/06 R133). -/
def Core.loadAllowed (c : Core) (id : Nat) : Bool :=
  !c.acquireBefore id && !c.fencedBefore id && c.a.points.all (fun p => id ≤ p.id || !p.mem || c.memDoneBefore p.id)

/-- Whether a BWAIT issued before access `id` has not filled: every later access waits for it (spec/13 R277). -/
def Core.waitsBefore (c : Core) (id : Nat) : Bool :=
  c.a.gangOps.any (fun o => o.id < id && (match o.kind with
    | .bwait _ => true
    | _ => false))

/-- Whether the ordering points let the oldest entry leave the pier: a release waits for what was issued before it and has left, an
off-core entry for the acquires before it, and every entry for a BWAIT before it (spec/06 R133, spec/13 R277).
Rows of an earlier drain that enter the pier behind it cannot be waited for, since entries leave in order (log 66). -/
def Core.leaveAllowed (c : Core) (e : PierEntry) : Bool :=
  let id := e.place
  (match e.rel with
   | some sc => c.performedOut id sc
   | none => true) &&
  c.a.points.all (fun p => id ≤ p.id || (match p.rel with
    | some sc => c.performedOut p.id sc
    | none => true)) &&
  (e.spad || !c.acquireBefore id) && !c.waitsBefore id &&
  (e.spad || e.cmd.isSome || e.drain.isSome || c.a.points.all (fun p => id ≤ p.id || !p.mem || c.memDoneBefore p.id))

/-- Insert an ordering point after every access issued so far; one that nothing keeps waiting is met at once (spec/05 R117,
spec/06 R133). -/
def State.point (p : OrderPoint) (s : State) : State :=
  let (id, s) := s.newId
  (s.modA (fun a => { a with points := a.points ++ [{ p with id := id }] })).prunePoints

/-- An ordering point that orders nothing yet. -/
def OrderPoint.blank : OrderPoint := ⟨0, none, none, false, false, false⟩

/-- FENCE K 0: acquire and release, and later loads wait too (spec/05 R117, spec/06 R133). -/
def execFence (sc : Scope) (s : State) : Out :=
  .next (s.point { OrderPoint.blank with rel := some sc, acq := some sc, full := true })

/-- FENCE K 1: a release (spec/05 R117). -/
def execFenceRel (sc : Scope) (s : State) : Out := .next (s.point { OrderPoint.blank with rel := some sc })

/-- FENCE K 2: an acquire (spec/05 R117). -/
def execFenceAcq (sc : Scope) (s : State) : Out := .next (s.point { OrderPoint.blank with acq := some sc })

/-- FENCE K 3: the mem queue in order (spec/05 R117). -/
def execFenceMem (s : State) : Out := .next (s.point { OrderPoint.blank with mem := true })

/-- FENCE K 4: the UO lines leave the die's read cache, then as FENCE K 3 (spec/05 R117). -/
def execFenceUo (s : State) : Out :=
  .next ((s.onDie (dieOf s.core.id) (fun x => { x with cache := x.cache.filter (fun l => !l.uo) })).point
    { OrderPoint.blank with mem := true, uo := true })

/-! ### Requests (spec/05 R121) -/

/-- Requests that a part of an access makes: one for each granule. -/
def MemReq.requests (r : MemReq) : Nat := (granuleVas r.lo r.n).length

/-- The requests that the copy engines and the matrix load pipes of a core hold: writes that wait for home, the request of a command that
is not answered yet, and an operand read (spec/05 R121). -/
def Core.engineRequests (c : Core) : Nat :=
  (c.outq.filter (fun r => r.cmd.isSome)).foldl (fun n r => n + r.requests) 0 +
  ((c.ca ++ c.cb).filter (fun (k : CopyCmd) => k.sent.isSome)).length + (if c.mxAt.isSome then 1 else 0)

/-- The requests that a core has outstanding: loads that have left the die, stores that have left the pier, and those of its engines
(spec/05 R121). -/
def Core.requests (c : Core) : Nat :=
  ((c.a.memq.filter (fun r => (r.ticks.isSome && r.got.isNone) || (r.load.isNone && !r.held))) ++
    c.outq.filter (fun r => r.cmd.isNone)).foldl (fun n r => n + r.requests) 0 + c.engineRequests

/-- Whether the request table has room for n more requests (spec/05 R121). -/
def Core.room (c : Core) (n : Nat) : Bool := decide (c.requests + n ≤ Config.maxRequests)

/-- Whether the request table has room for one more request of a copy engine or a matrix load pipe (spec/05 R121). -/
def Core.engineRoom (c : Core) : Bool := c.room 1 && decide (c.engineRequests < Config.maxEngineRequests)

/-- A prefetch's translation in user data or the host window; one that would fault, that finds no free request slot or that waits for a
walker is dropped (spec/05 R104, R118, spec/12 R256). -/
def State.prefetchable (ea : Word) (s : State) : Option (Nat × Word) :=
  let a := s.core.a
  let spadView := ((a.viewAt ea.toNat).map (fun w => !w.pool)).getD false
  let va := a.translated true ea.toNat
  let d := dieOf s.core.id
  if !memReach ea.toNat 1 || inSpad ea.toNat || (a.frozen0 && a.hitsView ea.toNat 1) || spadView || !s.core.room 1 ||
      s.noWalker s.core.tlb1 d a.ctx va then none
  else match s.translateVia s.core.tlb1 d a.ctx va .read false with
    | .ok (pa, e) => if pteOrd e = 1 || 2 ^ 51 ≤ pa then none else some (pa, e)
    | .error _ => none

/-- PREF.RC: the granule comes into the die's read cache; no architectural effect (spec/05 R118).
A line the cache holds stays as it is. -/
def execPrefRc (a : Reg) (o : BitVec 10) (s : State) : Out :=
  let ea := s.core.a.ea a o 1
  let d := dieOf s.core.id
  .next (match s.prefetchable ea with
    | none => s
    | some (pa, e) =>
      if (s.die d).cache.any (fun l => l.pa = pa / 64) then s else s.cacheFill d pa (pteOrd e == 2))

/-- PREF.MD: the granule comes into the memory-side slice only, which the model does not tell from home; no effect
(spec/05 R118). -/
def execPrefMd (a : Reg) (o : BitVec 10) (s : State) : Out := .next s

end Sys2Proof.Machine
end

