-- ==== Sys2Proof/Machine/MemLoc.lean ====
section
/-!
DEFINITION. Where an off-core access lands: views, windows and translation (spec/05 R98 to R103, spec/06 R136,
spec/12 R256), reads and writes of whole granules, and the ordering conditions of spec/06 R124 to R133.
-/
set_option linter.unusedVariables false

namespace Sys2Proof.Machine

/-- The place of a granule: physical memory under a page-table entry, or a core's scratchpad. -/
inductive Loc where
  | phys (pa : Nat) (pte : Word)
  | spad (core off : Nat)
deriving DecidableEq, Repr

/-- Whether a die's read cache may hold the place: an RC or UO page of device memory (spec/05 R103). -/
def Loc.cached : Loc → Bool
  | .phys pa e => decide (pa < 2 ^ 51) && pteOrd e != 1
  | .spad _ _ => false

/-- Whether the place is on an SO page of device memory. -/
def Loc.strong : Loc → Bool
  | .phys pa e => pteOrd e == 1
  | .spad _ _ => false

/-- Translate for an access of one granule by a unit with TLB `l`. -/
def State.physLoc (s : State) (l : List TlbEntry) (d ctx : Nat) (k : Acc) (shadow : Bool) (va : Nat) : Except Cause Loc :=
  match s.translateVia l d ctx va k shadow with
  | .ok (pa, e) => .ok (.phys pa e)
  | .error c => .error c

/-- The place of a VA for a core's task, for a unit with TLB `l`: its view if it lies in a declared tile (`remap`), else by its
window (spec/05 R98, R104, spec/11 R221, spec/12 R256).
`shadow` is the frame a copy, drain or collective writes on a PUB page (spec/06 R136). -/
def State.locateVia (s : State) (l : List TlbEntry) (me : Nat) (a : Arch) (remap : Bool) (k : Acc) (shadow : Bool) (va : Nat) :
    Except Cause Loc :=
  let d := dieOf me
  match (if remap then a.viewAt va else none) with
  | some w =>
    let o := w.addr + (va - w.base)
    if w.pool then s.physLoc l d a.ctx k shadow o else .ok (.spad w.core o)
  | none =>
    match windowOf va with
    | .user | .host => s.physLoc l d a.ctx k shadow va
    | .spad off => .ok (.spad me off)
    | .other vd vc off =>
      match (s.ctx? a.ctx).bind (fun c => c.pcoreOf vd vc) with
      | some p => .ok (.spad p off)
      | none => .error .prot
    | _ => .error .prot

/-- Whether the translation of a VA for a core's task waits for a walker; a place in a scratchpad needs none (spec/05 R104,
spec/12 R256). -/
def State.walkWaits (s : State) (l : List TlbEntry) (me : Nat) (a : Arch) (va : Nat) : Bool :=
  match a.viewAt va, windowOf va with
  | some w, _ => w.pool && s.noWalker l (dieOf me) a.ctx (a.translated true va)
  | none, .user | none, .host => s.noWalker l (dieOf me) a.ctx va
  | none, _ => false

/-- The place of a VA for an engine of a core's task (spec/05 R104). -/
def State.locate (s : State) (me : Nat) (a : Arch) (remap : Bool) (k : Acc) (shadow : Bool) (va : Nat) : Except Cause Loc :=
  s.locateVia [] me a remap k shadow va

/-- A granule at a place, data and tag, as core `me` reads it: through its die's read cache where the page allows one and
`cache` asks for it, through its own pier for its own scratchpad when `fwd` is set (spec/05 R103, R120, spec/06 R125). -/
def State.granuleAt (s : State) (me : Nat) (fwd cache : Bool) (l : Loc) : Granule × Word :=
  match l with
  | .phys pa e => if cache && l.cached then s.granuleVia (dieOf me) pa else s.granule pa
  | .spad c off =>
    let x := s.getCore c
    if fwd && c = me then x.spadGranule off
    else (BitVec.ofNat 512 (readNat x.spad (off / 64 * 64) 64), cellGet 0 x.spadTags (off / 64))

/-- Locate granules for a unit with TLB `l`; the first fault in address order, with the VA it concerns (spec/05 R108, R109). -/
def State.locateAllVia (s : State) (l : List TlbEntry) (me : Nat) (a : Arch) (remap : Bool) (k : Acc) (shadow : Bool) :
    List Nat → Except (Cause × Word) (List Loc)
  | [] => .ok []
  | va :: rest =>
    match s.locateVia l me a remap k shadow va with
    | .error c => .error (c, word va)
    | .ok x =>
      match s.locateAllVia l me a remap k shadow rest with
      | .error e => .error e
      | .ok ls => .ok (x :: ls)

/-- Locate granules for an engine. -/
def State.locateAll (s : State) (me : Nat) (a : Arch) (remap : Bool) (k : Acc) (shadow : Bool) (vas : List Nat) :
    Except (Cause × Word) (List Loc) :=
  s.locateAllVia [] me a remap k shadow vas

/-- The number whose little-endian bytes are n bytes from va on, out of the granules that hold them. -/
def joinGranules (va n : Nat) (gs : List Granule) : Nat :=
  (gs.foldr (fun g acc => acc * 2 ^ 512 + g.toNat) 0) / 2 ^ (8 * (va % 64)) % 2 ^ (8 * n)

/-- Write cells and tags of one granule at a place: physical memory, with the atomic view of it, or a scratchpad's bank.
`base` is the VA of the granule, so that a cell's key minus `base` is its offset. -/
def State.writeAt (l : Loc) (base : Nat) (cells : List (Nat × Byte)) (tag : Option Word) (s : State) : State :=
  match l with
  | .phys pa _ =>
    let p := pa / 64 * 64
    s.writePhys (cells.map (fun c => (p + (c.1 - base), c.2)))
      (match tag with | some t => [(p / 64, t)] | none => [])
  | .spad c off =>
    let p := off / 64 * 64
    s.onCore c (fun x => x.writeSpad (cells.map (fun y => (p + (y.1 - base), y.2)))
      (match tag with | some t => [(p / 64, t)] | none => []))

/-- The cells of a whole granule at a VA. -/
def granuleCells (va : Nat) (g : Granule) : List (Nat × Byte) := cellsOf va 64 g.toNat

/-- Remove a line from every die's read cache (spec/06 R136). -/
def State.cacheDropAll (pa : Nat) (s : State) : State :=
  { s with dies := s.dies.map (fun x => { x with cache := x.cache.filter (fun l => l.pa ≠ pa / 64) }) }

/-- Write a whole granule at home by a unit of die d, at a place; a line of the die's read cache follows (spec/05 R103,
spec/12 R259). -/
def State.writeGranule (d : Nat) (l : Loc) (g : Granule) (t : Word) (s : State) : State :=
  let s := s.writeAt l 0 (cellsOf 0 64 g.toNat) (some t)
  match l with
  | .phys pa _ =>
    let p := pa / 64 * 64
    s.cacheWrite d (cellsOf p 64 g.toNat) [(p / 64, t)]
  | .spad _ _ => s

/-- Whether two ranges of cells overlap. -/
def overlaps (cells : List (Nat × Byte)) (va n : Nat) : Bool := cells.any (fun c => va ≤ c.1 && c.1 < va + n)

/-- Whether bytes or granule tags of a store lie in a range. -/
def touches (cells : List (Nat × Byte)) (tags : List (Nat × Word)) (va n : Nat) : Bool :=
  overlaps cells va n || tags.any (fun t => va / 64 ≤ t.1 && 64 * t.1 < va + n)

/-- Whether two ranges meet. -/
def rangesMeet (a n b m : Nat) : Bool := decide (a < b + m ∧ b < a + n)

/-- Whether two accesses of one queue, each given by the ranges that it touches, are ordered as overlapping accesses are: they
share a view (spec/12 R256). -/
def Arch.together (a : Arch) (f g : Nat → Nat → Bool) : Bool := a.views.any (fun w => f w.base w.size && g w.base w.size)

/-- One granule's bytes that an access touches, at their place, with the page's kind (spec/06 R128): `spad` is the core of a
scratchpad, whose accesses are ordered as RC ones are. -/
structure Touch where
  spad : Option Nat
  lo : Nat
  n : Nat
  kind : Nat
deriving DecidableEq, Repr

/-- What n bytes at a place touch. -/
def Loc.touch (n : Nat) : Loc → Touch
  | .phys pa e => ⟨none, pa, n, pteOrd e⟩
  | .spad c off => ⟨some c, off, n, 0⟩

/-- Whether two accesses touch one location. -/
def Touch.meet (x y : Touch) : Bool := x.spad == y.spad && rangesMeet x.lo x.n y.lo y.n

/-- Whether two accesses of one queue are performed in their order: both on SO pages, or on RC pages or a scratchpad at one location
(spec/06 R128). -/
def Touch.ordered (x y : Touch) : Bool := (x.kind == 1 && y.kind == 1) || (x.kind == 0 && y.kind == 0 && x.meet y)

/-- Whether two accesses are ones of RC pages or a scratchpad at one location (spec/06 R128). -/
def Touch.sameRc (x y : Touch) : Bool := x.kind == 0 && y.kind == 0 && x.meet y

/-- Whether some touches of two accesses are so related. -/
def anyTouch (r : Touch → Touch → Bool) (xs ys : List Touch) : Bool := xs.any (fun x => ys.any (r x))

/-- What n bytes at a VA touch for a unit with TLB `l`; a granule that does not translate touches nothing yet. -/
def State.touchesVia (s : State) (l : List TlbEntry) (me : Nat) (a : Arch) (k : Acc) (shadow : Bool) (va n : Nat) : List Touch :=
  (granuleVas va n).filterMap (fun g =>
    match s.locateVia l me a true k shadow g with
    | .ok x => some (x.touch (min (g / 64 * 64 + 64) (va + n) - g))
    | .error _ => none)

end Sys2Proof.Machine
end

