-- ==== Sys2Proof/Machine/Matrix.lean ====
section
/-!
DEFINITION. The matrix slot at issue, tiles, folds, drains, seals and the Keystone (spec/09 R180 to R200, spec/10 R201 to
R217).
-/
set_option linter.unusedVariables false

namespace Sys2Proof.Machine

/-- Change a tile of the acting core. -/
def State.onTile (t : TileNo) (f : TileState → TileState) (s : State) : State :=
  s.modA (fun a => { a with tiles := a.tiles.set t (f a.tiles[t]) })

/-- Fold a row's words into a path's tile fold and its row signature (spec/10 R202). -/
def Folds.foldRow (f : Folds) (r : Nat) (v : Vec) : Folds :=
  let step (x : Word) (i : Nat) : Word := rotl1 x ^^^ (v.lane i).zeroExtend 64
  ⟨(List.range 128).foldl step f.tf, tblPut f.rs r ((List.range 128).foldl step 0), setBit f.fb r true⟩

/-- A path's row signature. -/
def Folds.sig (f : Folds) (r : Nat) : Word := (tblGet f.rs r).getD 0

/-- Both paths fold their own row of a tile (spec/10 R202). -/
def TileState.foldBoth (t : TileState) (r : Nat) : TileState :=
  { t with fp := t.fp.foldRow r (rowGet t.p r), fq := t.fq.foldRow r (rowGet t.q r) }

/-- A drain or MACCRD of a tile that is not OPEN begins an open period (spec/10 R205, R206). -/
def TileState.openPeriod (t : TileState) : TileState :=
  if t.isOpen then t else { t with isOpen := true, period := t.period + 1, wrote := false, tainted := false }

/-- A row set in both paths by the engine (spec/09 R193, R197, spec/11 R237). -/
def TileState.putRow (t : TileState) (r : Nat) (p q : Vec) : TileState :=
  { t with p := tblPut t.p r p, q := tblPut t.q r q, wrote := true }

/-- What a physical fault leaves in a path's folds: a difference of its tile fold, and of row signatures. -/
def Folds.faulted (x : Word) (rows : List (Nat × Nat)) (f : Folds) : Folds :=
  { f with tf := f.tf ^^^ x, rs := rows.foldl (fun t p => tblPut t p.1 (f.sig p.1 ^^^ word p.2)) f.rs }

/-- A vector with one lane replaced. -/
def setLane (v : Vec) (i : Nat) (x : Lane) : Vec := Vec.ofFn (fun j => if j = i then x else v.lane j)

/-- What a physical fault leaves in one path's elements of a row: differences by column. -/
def TileState.faultRow (inP : Bool) (r : Nat) (ds : List (Nat × Nat)) (t : TileState) : TileState :=
  let f (v : Vec) : Vec := ds.foldl (fun v d => setLane v d.1 (v.lane d.1 ^^^ BitVec.ofNat 32 d.2)) v
  if ds.isEmpty then t
  else if inP then { t with p := tblPut t.p r (f (rowGet t.p r)) } else { t with q := tblPut t.q r (f (rowGet t.q r)) }

/-- Whether the folds and codes of a seal match (spec/10 R204). -/
def sealMatch (ps : PendSeal) : Bool := ps.fp == ps.fq && !ps.cd

/-- Begin the seal of a drained tile: the comparison starts now and its verdict comes in 24 cycles; the tile's folds and
drained rows are reset (spec/09 R196, spec/10 R205). -/
def TileState.sealDrained (t : TileState) (spc : Word) : TileState :=
  { t with
    pending := some ⟨t.period, 24, spc, t.fp, t.fq, t.cd, t.tainted, t.wrote⟩,
    isOpen := false, fp := Folds.zero, fq := Folds.zero, cd := false, tainted := false }

/-- Begin the seal of a tile with no drained rows: rows 0 to 127 are folded first, and the verdict comes in 155 cycles
(spec/09 R196). -/
def TileState.sealUndrained (t : TileState) (spc : Word) : TileState :=
  { t with
    period := t.period + 1, wrote := false,
    pending := some ⟨t.period + 1, 155, spc, Folds.zero, Folds.zero, false, false, false⟩ }

/-- Seal a tile as MSEAL does: it waits in the engine behind an earlier verdict, starts the comparison of a drained tile, or
folds an undrained one (spec/09 R196, spec/10 R205).
The engine is occupied for 1 or 132 cycles. -/
def State.startSeal (t : TileNo) (spc : Word) (s : State) : State :=
  let x := s.core.a.tiles[t]
  if x.pending.isSome then s.modA (fun a => { a with eng := .sealWait t spc })
  else if x.isOpen then
    (s.onTile t (fun x => x.sealDrained spc)).modA (fun a => { a with eng := .timed 1 })
  else (s.onTile t (fun x => x.sealUndrained spc)).modA (fun a => { a with eng := .foldAll t 0 4 spc })

/-- The next row of an undrained tile's seal (spec/09 R196). -/
def TileState.foldPending (t : TileState) (r : Nat) : TileState :=
  { t with pending := t.pending.map (fun ps =>
    { ps with fp := ps.fp.foldRow r (rowGet t.p r), fq := ps.fq.foldRow r (rowGet t.q r) }) }

/-- A fault found by the engine: deferred (spec/09 R181). -/
def State.engFault (c : Cause) (x : Word) (s : State) : State := s.defer c x

/-- Set a parameter register, from the next bundle on (spec/09 R182). -/
def execMsetp (p : ParamReg) (a : Reg) (s : State) : Out := .next (s.fly 1 4 [.mp p (s.core.a.rd a)])

/-- Set a parameter register to a sign-extended immediate (spec/09 R182). -/
def execMsetpi (p : ParamReg) (i : BitVec 23) (s : State) : Out := .next (s.fly 1 4 [.mp p (i.signExtend 64)])

/-- The no-op of the mx slot (spec/02 R36). -/
def execNopMx (s : State) : Out := .next s

/-- M, N and K of a shape word (spec/09 R188). -/
def shapeField (x : Word) (h : Nat) : Nat := bits x (16 * h + 15) (16 * h)

/-- The tokens that a call with H = 1 requests (spec/14 R292). -/
def callTokens (r : Nat) (mp : Vector Word 8) : Nat :=
  if r < 32 then
    max 1 (cdiv (shapeField mp[4] 0 * shapeField mp[4] 1 * shapeField mp[4] 2) 3276800)
  else shapeField mp[7] 0

/-- Queue a token request of the acting core at its cluster (spec/14 R291). -/
def State.requestTokens (n : Nat) (dst : Option Reg) (s : State) : State :=
  s.onCluster (clusterOf s.core.id) (fun c => { c with reqs := c.reqs ++ [⟨s.core.id, n, dst⟩] })

/-- A routine as MCALL starts it (spec/09 R183). -/
def Routine.start (r : Nat) (t : TileNo) (upc : Nat) (mp : Vector Word 8) (h sl : Bool) (spc : Word) : Routine :=
  { rix := r, tile := t, upc := upc, wp := mp, shape := none, a := none, b := none, adva := 0, advb := 0, fa := 0, fb := 0,
    loops := Vector.replicate 4 ⟨false, 0, 0⟩, full := h, sealEnd := sl, lib := if r < 4 then some ⟨r, 0⟩ else none,
    spc := spc }

/-- The places of a context's micro-words and routine entries among those that a core holds: each context has its own
(spec/09 R180). -/
def microKey (ctx i : Nat) : Nat := 4096 * ctx + i
def entryKey (ctx e : Nat) : Nat := 256 * ctx + e

/-- The micro-word index of a valid routine entry of the running context: the library has entries 0 to 3 (spec/09 R180), all of which
the model puts at index 0, since the spec lays out no word of the library (log 11). -/
def Core.entry? (c : Core) (e : Nat) : Option Nat :=
  if e < 4 then some 0 else if e < 32 then none else tblGet c.entries (entryKey c.a.ctx e)

/-- MCALL: start a routine, after its power tokens when H is set (spec/09 R183).
A library routine spends 12 cycles beside its steps, a context routine 4 at its start (R184, R189). -/
def execMcall (h sl : Bool) (t : TileNo) (r : BitVec 8) (s : State) : Out :=
  .next (match s.core.entry? r.toNat with
    | none => s.illegal 4
    | some upc =>
      let ro := Routine.start r.toNat t upc s.core.a.mp h sl s.core.a.pc
      let start := if r.toNat < 4 then 11 else 4
      let n := callTokens r.toNat s.core.a.mp
      let wait := h && n != 0
      let s := s.modA (fun a =>
        { a with routine := some ro, eng := if wait then .tokens start else .timed start,
                 stat := { a.stat with rix := r.toNat, rowp := 0, pw := wait } })
      if wait then s.requestTokens n none else s)

/-- MZERO: +0 in every element of both paths, 4 cycles (spec/09 R193). -/
def execMzero (t : TileNo) (s : State) : Out :=
  .next ((s.onTile t (fun x => { x with p := [], q := [], wrote := true })).modA (fun a => { a with eng := .timed 4 }))

/-- Fields of a geometry word (spec/09 R194). -/
def geoRows (g : Word) : Nat := bits g 46 40 + 1
def geoRow0 (g : Word) : Nat := bits g 38 32
def geoStride (g : Word) : Nat := bits g 31 0
def geoBad (g : Word) : Bool := bits g 63 47 != 0 || bitOf g 39 || decide (128 < geoRow0 g + geoRows g)

/-- Whether n bytes lie in user data or in the own scratchpad (spec/09 R195). -/
def drainReach (va n : Nat) : Bool :=
  match windowOf va, windowOf (va + n - 1) with
  | .user, .user => true
  | .spad _, .spad _ => true
  | _, _ => false

/-- Granules of a drained row under a tag word; 1 when the tag names no format. -/
def rowGranules (tag : Word) : Nat :=
  match Fmt.ofCode (tagFmt tag) with
  | some f => 128 / f.elems
  | none => 1

/-- The faults of a drain at issue, in the order of R40 (spec/09 R195).
`open_` is the TVAL of a STRIDE that is no multiple of 64 when NW leaves s[A] unread, which no rule states (log 5). -/
def drainFault (addr geo tag : Word) (nw : Bool) (mode : DrainMode) (open_ : Word) : Option (Cause × Word) :=
  let rowVa (r : Nat) : Word := addr + word (r * geoStride geo)
  match (if nw then none else (List.range (geoRows geo)).find? (fun r =>
      !drainReach (rowVa r).toNat (64 * rowGranules tag))) with
  | some r => some (.prot, rowVa r)
  | none =>
    if !nw && addr.toNat % 64 != 0 || geoStride geo % 64 != 0 then some (.misaligned, if nw then open_ else addr)
    else if geoBad geo then some (.badShape, 0)
    else if !nw && ((tagHeadFmt tag).isNone || (mode == .tag && !scaleOk (tagScale tag))) then some (.badTag, tag)
    else none

/-- The first row of a drain that reaches a declared tile while view 0 is frozen (spec/12 R256). -/
def Arch.drainFrozen (a : Arch) (addr geo tag : Word) (nw : Bool) : Option Word :=
  if nw || !a.frozen0 then none
  else ((List.range (geoRows geo)).map (fun r => addr + word (r * geoStride geo))).find?
    (fun va => a.hitsView va.toNat (64 * rowGranules tag))

/-- The free value that a drain's faults take, and the state after it is drawn (log 5). -/
def State.drainOpen (nw : Bool) (s : State) : Word × State :=
  if nw then (Config.freeWord s.free, { s with free := s.free + 1 }) else (0, s)

/-- Put a drain in the engine: its rows leave 4 cycles later, one a cycle (spec/09 R194).
A row that reaches a declared tile while view 0 is frozen is a deferred VIEW_ORDER, and nothing is drained. -/
def State.startDrain (t : TileNo) (addr geo tag : Word) (z nw : Bool) (mode : DrainMode) (sl fl : Bool) (spc : Word)
    (s : State) : State :=
  match s.core.a.drainFrozen addr geo tag nw with
  | some va => s.engFault .viewOrder va
  | none =>
  let (id, s) := s.newId
  let d : DrainOp :=
    { id := id, tile := t, row0 := geoRow0 geo, n := geoRows geo, next := 0, wait := 4, addr := addr,
      stride := geoStride geo, tag := tag, z := z, nw := nw, mode := mode, sealEnd := sl, fl := fl, rd := false,
      fresh := !fl, spc := spc }
  (s.onTile t TileState.openPeriod).modA (fun a => { a with eng := .drain d, drains := a.drains ++ [id] })

/-- MDRAIN (spec/09 R194, R195). -/
def execMdrain (t : TileNo) (d a b : Reg) (z n : Bool) (m : DrainMode) (sl : Bool) (s : State) : Out :=
  let addr := s.core.a.rd a
  let geo := s.core.a.rd d
  let tag := s.core.a.rd b
  let (x, s') := s.drainOpen n
  .next (match drainFault addr geo tag n m x with
    | some (c, x) => s'.fault 4 c x
    | none => s.startDrain t addr geo tag z n m sl true s.core.a.pc)

/-- MSEAL (spec/09 R196). -/
def execMseal (t : TileNo) (s : State) : Out := .next (s.startSeal t s.core.a.pc)

/-- MSTAT: the engine status at issue, at 1 cycle (spec/09 R198). -/
def execMstat (d : Reg) (s : State) : Out := .next (s.fly 1 4 [.s d s.core.mstat])

/-- MLDUC, word form: micro-words from the own scratchpad, read through the pier at issue (spec/09 R192). -/
def execMlduc (a b : Reg) (s : State) : Out :=
  let va := s.core.a.rd a
  let x := s.core.a.rd b
  let first := bits x 11 0
  let n := bits x 27 16
  .next (if !inSpad va.toNat || (n != 0 && !inSpad (va.toNat + 8 * n - 1)) || decide (first < 1024) ||
        decide (4096 < first + n) then s.fault 4 .prot va
    else if va.toNat % 64 ≠ 0 then s.fault 4 .misaligned va
    else if n = 0 || bits x 63 28 != 0 || bits x 15 12 != 0 then s.fault 4 .badShape 0
    else match s.core.spadPoisonIn (spadOff va) (8 * n) with
      | some (c, v) => s.fault 4 c v
      | none =>
        s.modCore (fun c =>
          { c with
            ustore := (List.range n).foldl (fun u i =>
              tblPut u (microKey c.a.ctx (first + i)) (word (c.spadNat (spadOff va + 8 * i) 8))) c.ustore,
            a := { c.a with eng := .timed (2 + cdiv n 8) } }))

/-- MLDUC, entry form (spec/09 R192). -/
def execMlducEnt (a b : Reg) (s : State) : Out :=
  let x := s.core.a.rd a
  let e := bits x 7 0
  .next (if bits x 63 8 != 0 || decide (e < 32) then s.fault 4 .prot x
    else s.modCore (fun c =>
      { c with entries := tblPut c.entries (entryKey c.a.ctx e) (bits (s.core.a.rd b) 11 0), a := { c.a with eng := .timed 1 } }))

/-- MACCRD, element form: the P-path's element at 4 cycles; its row enters both folds, and a value reached a register
(spec/09 R197, spec/10 R211). -/
def execMaccrd (t : TileNo) (d a : Reg) (s : State) : Out :=
  let pos := s.core.a.rd a
  let r := bits pos 14 8
  let x := (rowGet (s.core.a.tiles[t]).p r).lane (bits pos 6 0)
  .next (((s.onTile t (fun y => { (y.openPeriod.foldBoth r) with tainted := true })).modA
    (fun a => { a with eng := .timed 1 })).fly 4 4 [.s d (x.zeroExtend 64)])

/-- The faults of a row form's address (spec/09 R197). -/
def rowFormFault (va : Word) : Option (Cause × Word) :=
  if !inSpad va.toNat || !inSpad (va.toNat + 511) then some (.prot, va)
  else if va.toNat % 64 ≠ 0 then some (.misaligned, va)
  else none

/-- MACCRD, row form: the row leaves as a pier entry 2 cycles later, and meets fl; it counts as a drain, which is performed when its row
has left the pier (spec/02 R42, spec/09 R197, R198). -/
def execMaccrdRow (t : TileNo) (a b : Reg) (s : State) : Out :=
  let va := s.core.a.rd a
  .next (match rowFormFault va with
    | some (c, x) => s.fault 4 c x
    | none =>
      let (id, s) := s.newId
      let d : DrainOp :=
        { id := id, tile := t, row0 := bits (s.core.a.rd b) 6 0, n := 1, next := 0, wait := 2, addr := va, stride := 0,
          tag := tagF32One, z := false, nw := false, mode := .tag, sealEnd := false, fl := true, rd := true,
          fresh := false, spc := s.core.a.pc }
      (s.onTile t TileState.openPeriod).modA (fun a => { a with eng := .drain d, drains := a.drains ++ [id] }))

/-- MACCWR, element form, in both paths (spec/09 R197). -/
def execMaccwr (t : TileNo) (a b : Reg) (s : State) : Out :=
  let pos := s.core.a.rd a
  let r := bits pos 14 8
  let c := bits pos 6 0
  let x := (s.core.a.rd b).setWidth 32
  .next ((s.onTile t (fun y => y.putRow r (setLane (rowGet y.p r) c x) (setLane (rowGet y.q r) c x))).modA
    (fun a => { a with eng := .timed 1 }))

/-- MACCWR, row form: 128 words of the own scratchpad, read through the pier at issue (spec/09 R197). -/
def execMaccwrRow (t : TileNo) (a b : Reg) (s : State) : Out :=
  let va := s.core.a.rd a
  .next (match rowFormFault va with
    | some (c, x) => s.fault 4 c x
    | none =>
      match s.core.spadPoisonIn (spadOff va) 512 with
      | some (c, x) => s.fault 4 c x
      | none =>
        let v := BitVec.ofNat 4096 (s.core.spadNat (spadOff va) 512)
        let r := bits (s.core.a.rd b) 6 0
        (s.onTile t (fun y => y.putRow r v v)).modA (fun a => { a with eng := .timed 2 }))

/-- The seals that an MWAIT with condition 2 waits for: those pending, and one that waits in the engine for the open
period (spec/09 R199). -/
def Arch.sealsOut (a : Arch) : List (TileNo × Nat) :=
  (List.finRange 4).filterMap (fun t => (a.tiles[t]).pending.map (fun ps => (t, ps.period))) ++
  (match a.eng with
   | .sealWait t _ | .sealNext t _ => [(t, if (a.tiles[t]).isOpen then (a.tiles[t]).period else (a.tiles[t]).period + 1)]
   | .drain d => if d.sealEnd then [(d.tile, (a.tiles[d.tile]).period)] else []
   | _ => [])

/-- The seal with which a call with S ends: an MWAIT that was issued after the call waits for it (spec/09 R183, R199). -/
def State.callSeal (t : TileNo) (spc : Word) (s : State) : State :=
  (s.startSeal t spc).modA (fun a =>
    { a with mwaits := a.mwaits.map (fun (w : MWait) =>
        if w.call then { w with seals := w.seals ++ a.sealsOut.filter (fun x => x.1 = t), call := false } else w) })

/-- MWAIT: its destination is empty until its condition holds (spec/09 R199). -/
def execMwait (d : Reg) (c : MWaitCond) (s : State) : Out :=
  .next ((s.markEmpty d).modA (fun a =>
    { a with mwaits := a.mwaits ++ [⟨d, c, if c = .free then [] else a.drains, if c = .seals then a.sealsOut else [],
      c = .seals && (match a.routine with
        | some r => r.sealEnd
        | none => false)⟩] }))

/-- Whether an MWAIT's condition holds (spec/09 R199). -/
def Core.mwaitDone (c : Core) (w : MWait) : Bool :=
  !c.a.engBusy && w.drains.all (fun d => !c.drainActive d) && w.seals.all (fun x => !c.a.unreleased x)

/-- Fill the MWAITs whose condition holds (spec/09 R199). -/
def State.fillMwaits (s : State) : State :=
  let done := s.core.a.mwaits.filter s.core.mwaitDone
  let x := s.core.mstat
  done.foldl (fun s w => s.fill w.d x) (s.modA (fun a => { a with mwaits := a.mwaits.filter (fun w => !s.core.mwaitDone w) }))

/-! ### Rows of a drain -/

/-- One row quantised for a drain: for each granule its 64 bytes and its tag (spec/09 R194). -/
def drainRow (mode : DrainMode) (tag : Word) (x : Vec) : List (Granule × Word) :=
  match Fmt.ofCode (tagFmt tag) with
  | none => []
  | some f =>
    let xv := tagXv tag
    let vals := (List.range 128).map (fun i => num32 (x.lane i).toNat)
    (List.range (128 / f.elems)).map (fun j =>
      let mine := (vals.drop (j * f.elems)).take f.elems
      let sc := match mode with
        | .blk => blockScale mine f xv
        | .row => blockScale vals f xv
        | .tag => tagScale tag
      (BitVec.ofNat 512 (packCodes f (mine.map (fun v => quantise v sc f xv .rtz))), mkTag (tagFmt tag) xv (tagAxis tag) sc))

/-- A row as MACCRD stores it: its 512 bytes as eight F32 granules of SCALE 1.0 (spec/09 R197). -/
def plainRow (x : Vec) : List (Granule × Word) := (List.range 8).map (fun j => (x.granule j, tagF32One))

/-- What a row that leaves the array is written as. -/
def DrainOp.codes (d : DrainOp) (x : Vec) : List (Granule × Word) := if d.rd then plainRow x else drainRow d.mode d.tag x

/-- The cells and tags of granules written from an address on; in the own scratchpad by offset, else by VA. -/
def rowCells (va : Word) (gs : List (Granule × Word)) : List (Nat × Byte) × List (Nat × Word) :=
  let base := if inSpad va.toNat then spadOff va else va.toNat
  let ix := (List.range gs.length).zip gs
  (ix.flatMap (fun p => cellsOf (base + 64 * p.1) 64 p.2.1.toNat), ix.map (fun p => (base / 64 + p.1, p.2.2)))

/-- Whether the next row of the engine's drain can leave: its time has come and, if it writes, the pier has room
(spec/09 R194, spec/05 R120).
A row that finds the pier full waits in the array, so that the engine stays occupied, and an implicit seal waits with it (log 94). -/
def Core.rowReady (c : Core) : Option DrainOp :=
  match c.a.eng with
  | .drain d => if d.wait ≤ 1 && !d.fresh && (d.nw || decide (c.pier.length < Config.pierSize)) then some d else none
  | _ => none

/-- One row of a drain leaves the array (spec/09 R194, spec/10 R202, R203): it is presented on fl, both paths fold it and
quantise it, the P-path's codes enter the pier with the Q-path's kept beside them, and Z clears it.
A row that MACCRD reads counts as a drain with NW = 0 for the code difference too, its codes being its own 512 bytes (log 95).
For the checks of spec/08 R178 the row counts as placed by the bundle of the cycle in which it leaves (log 73). -/
def State.rowOut (d : DrainOp) (s : State) : State :=
  let r := d.row0 + d.next
  let t := s.core.a.tiles[d.tile]
  let xp := rowGet t.p r
  let gp := d.codes xp
  let gq := d.codes (rowGet t.q r)
  let va := d.addr + word (d.next * d.stride)
  let (cells, tags) := rowCells va gp
  let (qcells, qtags) := rowCells va gq
  let s := s.onTile d.tile (fun x =>
    let x := { (x.foldBoth r) with cd := x.cd || (!d.nw && gp != gq) }
    if d.z then x.putRow r 0 0 else x)
  let s := if d.nw then s else
    let (id, s) := s.newId
    s.modCore (fun c =>
      { c with newRow := some id, pier := c.pier ++ [{ PierEntry.blank with
          id := id, seq := c.seq, hold := c.a.holdSet, spad := inSpad va.toNat, cells := cells, tags := tags,
          qcells := qcells, qtags := qtags, va := va, drain := some d.id }] })
  if d.fl then s.modCore (fun c => { c with fl := some (d.tile, t.period, xp) }) else s

/-- The engine after a row has left: the next row comes one cycle later; after the last one the engine comes free, or seals the tile
(spec/09 R194); with the row of MACCRD it is free in this cycle, and an MWAIT for it fills (spec/09 R197, R199). -/
def State.rowNext (d : DrainOp) (s : State) : State :=
  if d.next + 1 < d.n then s.modA (fun a => { a with eng := .drain { d with next := d.next + 1, wait := 1 } })
  else if d.sealEnd then
    (s.modA (fun a => { a with eng := .idle })).startSeal d.tile d.spc
  else if d.rd then (s.modA (fun a => { a with eng := .idle })).fillMwaits
  else s.modA (fun a => { a with eng := .timed 1 })

/-- One cycle of the row schedule (spec/02 R42, spec/09 R194); a row that an event has brought for this cycle is out already. -/
def State.rowCycle (s : State) : State :=
  match s.core.a.eng with
  | .drain d =>
    if s.core.rowDone then (s.modCore (fun c => { c with rowDone := false })).rowNext d
    else if s.core.rowReady.isSome then (s.rowOut d).rowNext d
    else s.modA (fun a => { a with eng := .drain (if d.fresh then d else { d with wait := max 1 (d.wait - 1) }) })
  | _ => s

/-! ### Verdicts -/

/-- Release a pending seal (spec/10 R204, R205): the last-sealed signatures are set, the hold of its period ends, and
sends that the seal governs get their signature (R217, spec/11 R237). -/
def sigOf (f : Folds) (row0 n : Nat) : Option Word :=
  if (List.range n).all (fun i => bitOf f.fb (row0 + i)) then
    some ((List.range n).foldl (fun x i => x ^^^ f.sig (row0 + i)) 0)
  else none

/-- A send captured under a seal gets its signature at the seal's release; it is STALE when the tile was written or a row
was not folded (spec/11 R237). -/
def CopyCmd.sealed (usesQ : Bool) (t : TileNo) (ps : PendSeal) (c : CopyCmd) : CopyCmd :=
  match c.kind with
  | .cpys dst stride row0 n tl (some p) rp rq stale none v =>
    if tl = t && p = ps.period then
      let sg := sigOf (if usesQ then ps.fq else ps.fp) row0 n
      { c with kind := .cpys dst stride row0 n tl (some p) rp rq (stale || ps.stale || sg.isNone) sg v }
    else c
  | _ => c

/-- The release of one tile's pending seal. -/
def State.releaseSeal (t : TileNo) (s : State) : State :=
  match (s.core.a.tiles[t]).pending with
  | none => s
  | some ps =>
    let s := s.onTile t (fun x =>
      { x with pending := none, lastP := ps.fp, lastQ := ps.fq, lastPeriod := some ps.period, lastStale := ps.stale })
    s.modCore (fun c =>
      { c with ca := c.ca.map (CopyCmd.sealed c.usesQ t ps), cb := c.cb.map (CopyCmd.sealed c.usesQ t ps) })

/-- The tiles whose seal is pending. -/
def Arch.pendingTiles (a : Arch) : List TileNo := (List.finRange 4).filter (fun t => (a.tiles[t]).pending.isSome)

/-- Set MSTAT.LASTV. -/
def State.setLastv (n : Nat) (s : State) : State := s.modA (fun a => { a with stat := { a.stat with lastv := n } })

/-- After a verdict, a seal that waited in the engine for it starts (spec/10 R205). -/
def State.wakeSeal (s : State) : State :=
  match s.core.a.eng with
  | .sealWait t spc =>
    if (s.core.a.tiles[t]).pending.isSome then s else (s.modA (fun a => { a with eng := .idle })).startSeal t spc
  | _ => s

/-- The verdict of a tile's seal when its time has come (spec/10 R204, R209, R213): a match releases; a mismatch, and
every seal in single-path mode, starts the Keystone's test, which freezes the core from the next cycle on.
The seals that are pending when the test begins take its outcome (R211), but for those of single-path mode, each of which has a test of its
own (R213); the verdict of a seal that began later, and does not match, waits until the test is over. -/
def State.sealVerdict (t : TileNo) (s : State) : State :=
  match (s.core.a.tiles[t]).pending with
  | none => s
  | some ps =>
    if !s.core.sp && sealMatch ps then ((s.releaseSeal t).setLastv 1).wakeSeal
    else if s.core.arbit.isSome then s
    else
      let f := s.frame.toNat
      s.modCore (fun c =>
        { c with arbit := some (t, Config.keystoneCycles), arbitAt := f, arbitFor := if c.sp then [t] else c.a.pendingTiles })

/-- Whether a seal takes the outcome of the Keystone's test that runs (spec/10 R211). -/
def Core.judged (c : Core) (t : TileNo) : Bool := c.arbit.isSome && c.arbitFor.contains t

/-- Whether an entry is held by an unreleased open period (spec/10 R206, R210). -/
def Core.heldEntries (c : Core) : List PierEntry := c.pier.filter c.a.holds

/-- A held row entry rebuilt from the Q-path (spec/10 R211). -/
def PierEntry.fromQ (e : PierEntry) : PierEntry :=
  if e.qcells.isEmpty && e.qtags.isEmpty then e else { e with cells := e.qcells, tags := e.qtags }

/-- The die error record of an arbitration; TIME is the mismatch verdict's (spec/10 R216). -/
def State.arbitRecord (t : TileNo) (ps : PendSeal) (code : Nat) (test : KeystoneTest) (held : Nat) (s : State) : ErrRec :=
  let v := ((s.ctx? s.core.a.ctx).bind (fun c => c.vOf s.core.id)).getD (0, 0)
  let single := s.core.sp
  { time := s.core.arbitAt, verdict := code, tile := t.val, single := single, cd := ps.cd, tainted := ps.tainted,
    core := pcore s.core.id, ctx := s.core.a.ctx, vdie := v.1, vcore := v.2, task := s.core.a.tcb, tfp := ps.fp.tf,
    tfq := if single then 0 else ps.fq.tf,
    diff := maskOf (fun r => !single && (ps.fp.sig r != ps.fq.sig r || bitOf ps.fp.fb r != bitOf ps.fq.fb r)),
    nfp := test.nfp, nfq := test.nfq, firstP := if test.nfp = 0 then 0xFFFF else test.firstP,
    firstQ := if test.nfq = 0 then 0xFFFF else test.firstQ, held := held, spc := ps.spc, rsp := ps.fp.rs,
    rsq := if single then [] else ps.fq.rs }

/-- Discard the entries that an unreleased open period holds, with the copy commands they stand for (spec/10 R210). -/
def Core.discardHeld (c : Core) : Core :=
  let gone := c.heldEntries
  let isGone (q : CopyQ) (k : CopyCmd) := gone.any (fun e => e.cmd == some (q, k.id))
  { c with pier := c.pier.filter (fun e => !c.a.holds e),
           ca := c.ca.filter (fun k => !isGone .ca k), cb := c.cb.filter (fun k => !isGone .cb k) }

/-- Release the seals that take the outcome of a test (spec/10 R210, R211). -/
def State.releaseAll (s : State) : State := (s.core.arbitFor.foldl (fun s t => s.releaseSeal t) s).setLastv 2

/-- Every tile is CLEAN after a verdict that discards (spec/10 R205). -/
def Arch.discarded (a : Arch) : Arch :=
  { a with
    tiles := a.tiles.map (fun (t : TileState) =>
      { t with isOpen := false, pending := none, fp := Folds.zero, fq := Folds.zero, cd := false, tainted := false }),
    sealq := [] }

/-- Whether a command is a CPYS. -/
def CopyCmd.isSend (c : CopyCmd) : Bool :=
  match c.kind with
  | .cpys _ _ _ _ _ _ _ _ _ _ _ => true
  | _ => false

/-- A held send rebuilt from the Q-path's rows (spec/11 R237). -/
def CopyCmd.fromQ (c : CopyCmd) : CopyCmd :=
  match c.kind with
  | .cpys dst stride row0 n t p _ rq stale sg v => { c with kind := .cpys dst stride row0 n t p rq rq stale sg v }
  | _ => c

/-- The hand-over of code 2: the Q-path's tiles become the visible ones, held row entries are rebuilt, and the core stays
frozen for 1,024 cycles and one for each entry (spec/10 R211). -/
def State.handOver (s : State) : State :=
  let held := s.core.heldEntries
  let sends (q : CopyQ) (k : CopyCmd) := held.any (fun e => e.cmd == some (q, k.id))
  let rebuilt := held.filter (fun e => !e.qcells.isEmpty || (match e.cmd with
    | some (q, n) => (s.core.queueOf q).any (fun k => k.id == n && k.isSend)
    | none => false))
  (s.modCore (fun c =>
    { c with
      pier := c.pier.map (fun e => if c.a.holds e then e.fromQ else e),
      ca := c.ca.map (fun k => if sends .ca k then k.fromQ else k),
      cb := c.cb.map (fun k => if sends .cb k then k.fromQ else k),
      stall := c.stall + 1024 + rebuilt.length,
      usesQ := true,
      a := { c.a with tiles := Vector.ofFn (fun i : Fin 4 => { c.a.tiles[i] with p := (c.a.tiles[i]).q }) } }))

/-- The code of the Keystone's verdict (spec/10 R210, R213). -/
def keystoneCode (single usesQ tainted : Bool) (test : KeystoneTest) : Nat :=
  if single then (if (if usesQ then test.nfq else test.nfp) = 0 then 0 else 5)
  else if test.nfp = 0 then (if test.nfq = 0 then 4 else 1)
  else if test.nfq = 0 then (if tainted then 3 else 2) else 5

/-- The outcome of the Keystone's test (spec/10 R210 to R216).
A seal that waited in the engine counts its times from the end of the test, before the cycles of a hand-over (log 96). -/
def State.keystone (test : KeystoneTest) (s : State) : State :=
  match s.core.arbit with
  | none => s
  | some (t, _) =>
    let s := s.modCore (fun c => { c with arbit := none, newArbit := false })
    match (s.core.a.tiles[t]).pending with
    | none => s
    | some ps =>
      let tainted := s.core.arbitFor.any (fun u => ((s.core.a.tiles[u]).pending.map (fun p => p.tainted)).getD false)
      let code := keystoneCode s.core.sp s.core.usesQ tainted test
      let kept := if code ≤ 3 then s.releaseAll.core.heldEntries.length else 0
      let rec_ := s.arbitRecord t ps code test (s.core.heldEntries.length - kept)
      let s := if code = 0 then s
        else s.onDie (dieOf s.core.id) (fun d => { d with errs := d.errs.add 1024 (.seal rec_) })
      let discard (c : Core) : Core := let d := c.discardHeld; { d with a := d.a.discarded }
      match code with
      | 0 =>
        ((s.releaseSeal t).setLastv 2).wakeSeal.modCore (fun c => { c with err := { c.err with spt := c.err.spt + 1 } })
      | 1 => (s.releaseAll.modCore (fun c => { c with sp := true, faulty := true })).wakeSeal
      | 2 => (s.handOver.releaseAll.modCore (fun c => { c with sp := true, faulty := true })).wakeSeal
      | 3 => s.handOver.releaseAll.modCore (fun c => { c with sp := true, faulty := true, sealErr := some (3, ps.spc) })
      | 4 => s.modCore (fun c => { discard c with sealErr := some (4, ps.spc) })
      | _ => s.modCore (fun c => { discard c with faulty := true, outOfService := true, sealErr := some (5, ps.spc) })

/-- The tiles that are OPEN. -/
def Arch.openTiles (a : Arch) : List TileNo := (List.finRange 4).filter (fun t => (a.tiles[t]).isOpen)

/-- Whether the pier is full with no seal pending, so that hardware seals every OPEN tile (spec/10 R208). -/
def Core.pierCalls (c : Core) : Bool := decide (Config.pierSize ≤ c.pier.length) && c.a.pendingTiles.isEmpty

/-- The OPEN tiles that hardware has to seal: every one, for a cause that `all` names or a pier that is full now, else those that were
OPEN when it was (spec/10 R208). -/
def Core.sealTiles (c : Core) (all : Bool) : List TileNo :=
  if all || c.pierCalls then c.a.openTiles else c.a.openTiles.filter (fun t => c.a.sealq.contains t)

/-- Seal the next tile that hardware has to seal, when the engine is free: the implicit seal (spec/10 R208).
`stopped` says that a routine stands still at a micro-word, as in a suspension or a pre-emption (spec/09 R186, spec/15 R320); one that
waits for its tokens keeps its place.
The bundle named by the seal is the one at which the core stands. -/
def State.implicitSeal (all stopped : Bool) (s : State) : State :=
  let ts := s.core.sealTiles all
  let s := s.modA (fun a => { a with sealq := ts })
  match ts with
  | [] => s
  | t :: rest =>
    let done (s : State) : State := s.modA (fun a => { a with sealq := rest })
    match s.core.a.eng with
    | .idle => if stopped || s.core.a.routine.isNone then done (s.startSeal t s.core.a.pc) else s
    | .tokens _ =>
      if stopped && (s.core.a.tiles[t]).pending.isNone then done (s.onTile t (fun x => x.sealDrained s.core.a.pc)) else s
    | _ => s

/-- Whether every tile is CLEAN (spec/10 R205). -/
def Arch.clean (a : Arch) : Bool := (List.finRange 4).all (fun t => !(a.tiles[t]).isOpen && (a.tiles[t]).pending.isNone)

/-! ### One engine cycle -/

/-- The timers of seals: one cycle less, in every cycle; those that reach 0 have their verdict, unless they take the outcome of the test
that the Keystone runs (spec/09 R196, spec/10 R204, R211). -/
def State.sealCycle (s : State) : State :=
  (List.finRange 4).foldl (fun s t =>
    match (s.core.a.tiles[t]).pending with
    | none => s
    | some ps =>
      let s := s.onTile t (fun x => { x with pending := some { ps with left := ps.left - 1 } })
      if ps.left ≤ 1 && !s.core.judged t then s.sealVerdict t else s) s

/-- One cycle of the engine's timed work (spec/09 R181, R196); the rows of a step complete evenly over its cycles (spec/09 R186, R198;
log 74). -/
def State.engCycle (s : State) : State :=
  match s.core.a.eng with
  | .timed n => s.modA (fun a => { a with eng := if n ≤ 1 then .idle else .timed (n - 1) })
  | .step n total done rows =>
    if n ≤ 1 then s.modA (fun a => { a with eng := .idle, stat := { a.stat with rowp := 0 } })
    else s.modA (fun a =>
      { a with eng := .step (n - 1) total done rows,
               stat := { a.stat with rowp := done + (rows - done) * (total - (n - 1)) / total } })
  | .drain d => s.modA (fun a => { a with eng := .drain { d with fresh := false } })
  | .foldAll t next wait spc =>
    if 1 < wait then s.modA (fun a => { a with eng := .foldAll t next (wait - 1) spc })
    else if next < 128 then
      (s.onTile t (fun x => x.foldPending next)).modA (fun a => { a with eng := .foldAll t (next + 1) 1 spc })
    else s.modA (fun a => { a with eng := .idle })
  | _ => s

end Sys2Proof.Machine
end

