-- ==== Sys2Proof/Machine/Micro.lean ====
section
/-!
DEFINITION. The micro-operations of the matrix microprogram and the steps of a routine (spec/03 R67 to R69, spec/09 R184 to
R191).
-/
set_option linter.unusedVariables false

namespace Sys2Proof.Machine

/-- Change the routine in the engine. -/
def State.onRoutine (f : Routine → Routine) (s : State) : State :=
  s.modA (fun a => { a with routine := a.routine.map f })

/-- A granule that the matrix pipes read: own scratchpad through the pier, user data through translation and the task's
views; other windows are PROT (spec/09 R185, R187, spec/12 R256). -/
def State.mxGranule (s : State) (va : Word) : Except (Cause × Word) (Granule × Word) :=
  let a := s.core.a
  match windowOf va.toNat with
  | .spad off => .ok (s.core.spadGranule off)
  | .user =>
    if a.frozen0 && (a.viewAt va.toNat).isSome then .error (.viewOrder, va)
    else match s.locateVia s.core.tlbMx s.core.id a true .read false va.toNat with
      | .error c => .error (c, va)
      | .ok l => .ok (s.granuleAt s.core.id true true l)
  | _ => .error (.prot, va)

/-- A granule's format for a walk: POISON and BAD_TAG by R57, and the filter of m.fmt (spec/09 R185). -/
def walkFmt (t : Word) (filt : Nat) (va : Word) : Except (Cause × Word) Fmt :=
  if isPoison t then .error (.poison, va)
  else match tagValidFmt t with
    | none => .error (.badTag, va)
    | some f => if filt ≠ 0 && tagFmt t ≠ filt then .error (.badTag, va) else .ok f

/-- What a walk of one line gives: the values by index, the bytes walked, the widest element and the granules read. -/
structure Line where
  vals : List ExtNum
  bytes : Nat
  wide : Nat
  grans : Nat
deriving DecidableEq, Repr

/-- walk(start, extent, ax, filt) of spec/09 R185; the fuel is the extent, since every granule covers 16 indices or
more. -/
def State.walkLine (s : State) (extent ax filt : Nat) : Nat → Nat → Word → Line → Except (Cause × Word) Line
  | 0, _, _, acc => .ok acc
  | n + 1, off, addr, acc =>
    if extent ≤ off then .ok acc
    else match s.mxGranule addr with
      | .error e => .error e
      | .ok (g, t) =>
        match walkFmt t filt addr with
        | .error e => .error e
        | .ok f =>
          let e := f.elems
          if tagAxis t ≠ ax || off % e ≠ 0 || (ax = 0 && extent < off + e) then .error (.badShape, addr)
          else s.walkLine extent ax filt n (off + e) (addr + 64)
            ⟨acc.vals ++ (List.range e).map (fun i => elemValue f t g i), acc.bytes + 64, max acc.wide f.bits,
              acc.grans + 1⟩

/-- The lines of an operand up to the first fault (spec/09 R185, R186); with AXIS 0 every line walks the same number of
bytes. -/
def State.walkLines (s : State) (extent ax filt : Nat) (base stride : Word) :
    List Nat → List Line → List Line × Option (Cause × Word)
  | [], acc => (acc, none)
  | l :: rest, acc =>
    let start := base + stride * word l
    match s.walkLine extent ax filt extent 0 start ⟨[], 0, 0, 0⟩ with
    | .error e => (acc, some e)
    | .ok x =>
      if ax = 0 && (match acc.head? with
          | some y => y.bytes != x.bytes
          | none => false) then (acc, some (.badShape, start))
      else s.walkLines extent ax filt base stride rest (acc ++ [x])

/-- An operand read for a step. -/
structure Operand where
  axis : Nat
  lines : List Line
  fault : Option (Cause × Word)
deriving DecidableEq, Repr

/-- Read an operand: its layout is the AXIS of the granule at its base; `free` is the number of its rows or columns
(spec/09 R185). -/
def State.readOperand (s : State) (d : Word × Word) (free kg filt : Nat) : Operand :=
  if d.1.toNat % 64 ≠ 0 || d.2.toNat % 64 ≠ 0 then ⟨0, [], some (.misaligned, d.1)⟩
  else match s.mxGranule d.1 with
    | .error e => ⟨0, [], some e⟩
    | .ok (_, t) =>
      match walkFmt t filt d.1 with
      | .error e => ⟨0, [], some e⟩
      | .ok _ =>
        let ax := tagAxis t
        let (ls, e) := s.walkLines (if ax = 0 then kg else free) ax filt d.1 d.2
          (List.range (if ax = 0 then free else kg)) []
        ⟨ax, ls, e⟩

/-- The operand's value at a free index and a contraction index. -/
def Operand.at (o : Operand) (i k : Nat) : ExtNum :=
  let (l, j) := if o.axis = 0 then (i, k) else (k, i)
  ((o.lines.getD l ⟨[], 0, 0, 0⟩).vals).getD j .nan

/-- The bytes by which an operand advances (spec/09 R185). -/
def Operand.advance (o : Operand) (stride : Word) (kg : Nat) : Nat :=
  if o.axis = 0 then (o.lines.headD ⟨[], 0, 0, 0⟩).bytes else stride.toNat * kg

/-- Whether a step reads an operand outside the own scratchpad, as far as its base and the starts of its lines say
(spec/09 R185, R187). -/
def State.readsDevice (s : State) (d : Word × Word) (free kg : Nat) : Bool :=
  if inSpad d.1.toNat then
    (List.range (if tagAxis (s.core.spadTag (spadOff d.1 / 64)) = 0 then free else kg)).any
      (fun l => !inSpad (d.1 + d.2 * word l).toNat)
  else true

/-- Whether an operand's lines hold a granule. -/
def Operand.holds (o : Operand) (d : Word × Word) (va : Nat) : Bool :=
  ((List.range o.lines.length).zip o.lines).any (fun x =>
    let start := (d.1 + d.2 * word x.1).toNat
    decide (start ≤ va ∧ va < start + x.2.bytes))

/-- Cycles of a step (spec/09 R184). -/
def stepCycles (sh : Shape) (wide grans : Nat) (full : Bool) : Nat :=
  let rate := if wide ≤ 4 then 32768 else if wide ≤ 8 then 16384 else if wide ≤ 16 then 8192 else 2048
  max 4 (max (cdiv (sh.m * sh.n * sh.kg) (if full then rate else rate / 4)) (cdiv grans 32))

/-- The product element (i, j) that lands at a row and column of the tile; with TR the region is transposed
(spec/09 R191). -/
def regionIndex (sh : Shape) (tr : Bool) (r c : Nat) : Option (Nat × Nat) :=
  if tr then
    if sh.col0 ≤ r ∧ r < sh.col0 + sh.n ∧ sh.row0 ≤ c ∧ c < sh.row0 + sh.m then some (c - sh.row0, r - sh.col0) else none
  else
    if sh.row0 ≤ r ∧ r < sh.row0 + sh.m ∧ sh.col0 ≤ c ∧ c < sh.col0 + sh.n then some (r - sh.row0, c - sh.col0) else none

/-- A tile row after a step, on one path; B is read as (k, j) through its lines by column. -/
def stepRow (sh : Shape) (acc tr : Bool) (a b : Operand) (r : Nat) (old : Vec) : Vec :=
  Vec.ofFn (fun c =>
    match regionIndex sh tr r c with
    | some (i, j) =>
      let products := (List.range sh.kg).map (fun k => (a.at i k).mul (b.at j k))
      exactSum (if acc then num32 (old.lane c).toNat :: products else products)
    | none => old.lane c)

/-- The rows of the tile region, first and count (spec/09 R191). -/
def regionRows (sh : Shape) (tr : Bool) : Nat × Nat := if tr then (sh.col0, sh.n) else (sh.row0, sh.m)

/-- Complete rows from `from_` to `upto` - 1 of a step in both paths; after a hand-over both take the Q-path's result
(spec/09 R186, spec/10 R211). -/
def State.stepRows (t : TileNo) (sh : Shape) (acc tr : Bool) (a b : Operand) (from_ upto : Nat) (s : State) : State :=
  let first := (regionRows sh tr).1
  let useQ := s.core.usesQ
  (List.range (upto - from_)).foldl (fun s i =>
    let r := first + from_ + i
    s.onTile t (fun x =>
      let q := stepRow sh acc tr a b r (rowGet x.q r)
      x.putRow r (if useQ then q else stepRow sh acc tr a b r (rowGet x.p r)) q)) s

/-- Set MSTAT.ROWP. -/
def State.setRowp (n : Nat) (s : State) : State := s.modA (fun a => { a with stat := { a.stat with rowp := n } })

/-- Whether a region runs past row or column 127 (spec/09 R191). -/
def Shape.pastEnd (sh : Shape) (tr : Bool) : Bool :=
  if tr then decide (128 < sh.col0 + sh.n ∨ 128 < sh.row0 + sh.m) else decide (128 < sh.row0 + sh.m ∨ 128 < sh.col0 + sh.n)

/-- One step of the routine in the engine (spec/09 R186, R191): B is read first, then A; a fault leaves the rows below
ROWP updated, and the step restarts from ROWP.
A step with operands in device memory waits for the acquires and fences before it (R187).
Every granule is read in the step's first cycle, a choice that R187 leaves open (log 74).
`at_` is the micro-word's index, `next` what the routine becomes. -/
def State.mxStep (acc tr : Bool) (at_ : Nat) (next : Routine → Routine) (s : State) : State :=
  match s.core.a.routine with
  | none => s
  | some r =>
    match r.shape, r.a, r.b with
    | some sh, some da, some db =>
      if sh.pastEnd tr then s.engFault .badShape (word at_)
      else if !s.core.operandAllowed && (s.readsDevice db sh.n sh.kg || s.readsDevice da sh.m sh.kg) then s
      else
        let b := s.readOperand db sh.n sh.kg r.fb
        match b.fault with
        | some (c, x) => s.engFault c x
        | none =>
          let a := s.readOperand da sh.m sh.kg r.fa
          let from_ := s.core.a.stat.rowp
          match a.fault with
          | some (c, x) =>
            if a.axis = 0 && !tr then
              let upto := max from_ a.lines.length
              ((s.stepRows r.tile sh acc tr a b from_ upto).setRowp upto).engFault c x
            else s.engFault c x
          | none =>
            let wide := ((a.lines ++ b.lines).map (fun l => l.wide)).foldl max 0
            let grans := ((a.lines ++ b.lines).map (fun l => l.grans)).foldl (fun n x => n + x) 0
            let n := stepCycles sh wide grans r.full
            let rows := (regionRows sh tr).2
            ((s.stepRows r.tile sh acc tr a b from_ rows).onRoutine (fun r =>
              next { r with adva := a.advance da.2 sh.kg, advb := b.advance db.2 sh.kg })).modA
              (fun a => { a with eng := .step n n from_ rows })
    | _, _, _ => s.engFault .badShape (word at_)

/-- The routine one micro-word further. -/
def Routine.advance (r : Routine) : Routine := { r with upc := r.upc + 1 }

/-- A micro-word of one cycle: change the routine and go on with the next word (spec/09 R184). -/
def State.micro (f : Routine → Routine) (s : State) : State :=
  (s.onRoutine (fun r => (f r).advance)).modA (fun a => { a with eng := .timed 1 })

/-- ILLEGAL_OP of a micro-word: deferred, TVAL its index (spec/09 R181, R191). -/
def State.microIllegal (s : State) : State :=
  match s.core.a.routine with
  | some r => s.engFault .illegalOp (word r.upc)
  | none => s

/-- A micro-operation acts on the routine in the engine; with none it does nothing (log 4). -/
def State.withRoutine (f : Routine → State → State) (s : State) : State :=
  match s.core.a.routine with
  | some r => f r s
  | none => s

/-- The shape that m.shape reads, if its fields keep the limits of R188 (spec/09 R188, R191). -/
def shapeOf (p q g : Word) : Option Shape :=
  let m := shapeField p 0
  let n := shapeField p 1
  let k := shapeField p 2
  let kg := shapeField q 0
  let row0 := shapeField g 0
  let col0 := shapeField g 1
  let okDim (x : Nat) := decide (16 ≤ x ∧ x ≤ 128) && x % 16 = 0
  let okOrg (x : Nat) := decide (x ≤ 112) && x % 16 = 0
  if okDim m && okDim n && (kg = 16 || kg = 32 || kg = 64 || kg = 128) && decide (kg ≤ k) && k % kg = 0 && okOrg row0 &&
      okOrg col0 && bits p 63 48 = 0 && bits q 63 16 = 0 && bits g 63 32 = 0 then some ⟨m, n, k, kg, row0, col0⟩
  else none

/-- m.aload: the A descriptor (spec/09 R190). -/
def execMAload (p q : ParamReg) (s : State) : Out :=
  .next (s.withRoutine (fun _ s => s.micro (fun r => { r with a := some (r.wp[p], r.wp[q]) })))

/-- m.bload: the B descriptor (spec/09 R190). -/
def execMBload (p q : ParamReg) (s : State) : Out :=
  .next (s.withRoutine (fun _ s => s.micro (fun r => { r with b := some (r.wp[p], r.wp[q]) })))

/-- m.step: one step, accumulating or not, transposed or not (spec/09 R190, R191). -/
def execMStep (acc tr : Bool) (s : State) : Out :=
  .next (s.withRoutine (fun r s => s.mxStep acc tr r.upc Routine.advance))

/-- m.loop: activate a level; ILLEGAL_OP on an active one (spec/09 R190, R191). -/
def execMLoop (l : LoopNo) (n : BitVec 16) (s : State) : Out :=
  .next (s.withRoutine (fun r s =>
    if r.loops[l].act then s.microIllegal
    else s.micro (fun r => { r with loops := r.loops.set l ⟨true, r.upc + 1, n.toNat + 1⟩ })))

/-- m.endloop: jump back, or deactivate the level; ILLEGAL_OP on an inactive one (spec/09 R190, R191). -/
def execMEndloop (l : LoopNo) (s : State) : Out :=
  .next (s.withRoutine (fun r s =>
    let x := r.loops[l]
    if !x.act then s.microIllegal
    else if 1 < x.count then
      (s.onRoutine (fun r => { r with loops := r.loops.set l { x with count := x.count - 1 }, upc := x.start })).modA
        (fun a => { a with eng := .timed 1 })
    else s.micro (fun r => { r with loops := r.loops.set l ⟨false, 0, 0⟩ })))

/-- The source of m.addp (spec/09 R190).
Before any m.shape of the call KG is 0, which no rule gives (log 97). -/
def addSource (r : Routine) (q : ParamReg) (src : AddSrc) (imm : BitVec 48) : Word :=
  match src with
  | .wp => r.wp[q]
  | .imm => imm.signExtend 64
  | .adva => word r.adva
  | .advb => word r.advb
  | .kg => word ((r.shape.map (fun x => x.kg)).getD 0)

/-- m.addp: add a source to a working register (spec/09 R190). -/
def execMAddp (p q : ParamReg) (src : AddSrc) (imm : BitVec 48) (s : State) : Out :=
  .next (s.withRoutine (fun _ s => s.micro (fun r =>
    { r with wp := r.wp.set p (r.wp[p] + addSource r q src imm) })))

/-- m.setp: set a working register (spec/09 R190). -/
def execMSetp (p q : ParamReg) (src : SetSrc) (imm : BitVec 48) (s : State) : Out :=
  .next (s.withRoutine (fun _ s => s.micro (fun r =>
    { r with wp := r.wp.set p (match src with
        | .wp => r.wp[q]
        | .imm => imm.zeroExtend 64) })))

/-- The field of a working register that m.jcmp compares (spec/09 R190). -/
def fieldOf (x : Word) : MicroField → Nat
  | .whole => x.toNat
  | .part h => shapeField x h.val

/-- m.jcmp: compare and jump (spec/09 R190). -/
def execMJcmp (p q : ParamReg) (cc : MicroCond) (f : MicroField) (tgt : BitVec 12) (s : State) : Out :=
  .next (s.withRoutine (fun r s =>
    let x := (r.wp[p]).toNat
    let y := fieldOf (r.wp[q]) f
    let taken := match cc with
      | .lt => decide (x < y)
      | .ge => decide (y ≤ x)
      | .eq => x == y
      | .ne => x != y
    if taken then
      (s.onRoutine (fun r => { r with upc := tgt.toNat })).modA (fun a => { a with eng := .timed 1 })
    else s.micro id))

/-- m.zero: the region of the shape, in both paths (spec/09 R190).
An unset shape or a region past the tile is BAD_SHAPE, as R191 has it of m.step (log 75). -/
def execMZero (tr : Bool) (s : State) : Out :=
  .next (s.withRoutine (fun r s =>
    match r.shape with
    | none => s.engFault .badShape (word r.upc)
    | some sh =>
      if sh.pastEnd tr then s.engFault .badShape (word r.upc)
      else
        let clear (row : Nat) (v : Vec) : Vec := Vec.ofFn (fun c => if (regionIndex sh tr row c).isSome then 0 else v.lane c)
        let (first, n) := regionRows sh tr
        ((List.range n).foldl (fun s i =>
          s.onTile r.tile (fun x =>
            x.putRow (first + i) (clear (first + i) (rowGet x.p (first + i))) (clear (first + i) (rowGet x.q (first + i)))))
          s).micro id))

/-- m.drain: as MDRAIN, its faults deferred with the faulting VA or the micro-word's index, its rows not on fl
(spec/09 R181, R190, R191). -/
def execMDrain (p g t : ParamReg) (z nw : Bool) (mode : DrainMode) (sl : Bool) (s : State) : Out :=
  .next (s.withRoutine (fun r s =>
    let (x, s') := s.drainOpen nw
    match drainFault (r.wp[p]) (r.wp[g]) (r.wp[t]) nw mode x with
    | some (c, x) => s'.engFault c (if c = .badShape ∨ c = .badTag then word r.upc else x)
    | none =>
      (s.onRoutine Routine.advance).startDrain r.tile (r.wp[p]) (r.wp[g]) (r.wp[t]) z nw mode sl false r.spc))

/-- m.seal: seal the routine's tile (spec/09 R190). -/
def execMSeal (s : State) : Out :=
  .next (s.withRoutine (fun r s => (s.onRoutine Routine.advance).startSeal r.tile r.spc))

/-- m.shape: set the shape, or BAD_SHAPE with TVAL the micro-word's index (spec/09 R190, R191). -/
def execMShape (p q g : ParamReg) (s : State) : Out :=
  .next (s.withRoutine (fun r s =>
    match shapeOf (r.wp[p]) (r.wp[q]) (r.wp[g]) with
    | none => s.engFault .badShape (word r.upc)
    | some sh => s.micro (fun r => { r with shape := some sh })))

/-- m.fmt: the format filters of the walks (spec/09 R190). -/
def execMFmt (fa fb : BitVec 8) (s : State) : Out :=
  .next (s.withRoutine (fun _ s => s.micro (fun r => { r with fa := fa.toNat, fb := fb.toNat })))

/-- m.permit: wait for n tokens; the steps that follow run at the full rate (spec/09 R190, spec/14 R292). -/
def execMPermit (n : BitVec 16) (s : State) : Out :=
  .next (s.withRoutine (fun r s =>
    if n.toNat = 0 then s.micro (fun r => { r with full := true })
    else
      ((s.onRoutine (fun r => { r.advance with full := true })).modA (fun a =>
        { a with eng := .tokens 1, stat := { a.stat with pw := true } })).requestTokens n.toNat none))

/-- m.end takes its own cycle; then the engine comes free, or seals the tile when the call had S (spec/09 R183, R184). -/
def State.endRoutine (s : State) : State :=
  s.withRoutine (fun r s =>
    s.modA (fun a =>
      { a with routine := none, eng := if r.sealEnd then .sealNext r.tile r.spc else .timed 1, stat := { a.stat with rowp := 0 } }))

/-- m.end (spec/09 R190). -/
def execMEnd (s : State) : Out := .next s.endRoutine

/-! ### Library routines and the next micro-word -/

/-- A library routine's next move (spec/09 R189): its shape first, then one step for each KG of K, then its end. -/
def State.libStep (l : LibRun) (s : State) : State :=
  s.withRoutine (fun r s =>
    match r.shape with
    | none =>
      match shapeOf (r.wp[4]) (r.wp[5]) (r.wp[6]) with
      | none => s.engFault .badShape (word r.upc)
      | some sh => (s.onRoutine (fun r => { r with shape := some sh })).modA (fun a => { a with eng := .timed 1 })
    | some sh =>
      if sh.k / sh.kg ≤ l.done then
        let s := s.modA (fun a => { a with routine := none, eng := .idle, stat := { a.stat with rowp := 0 } })
        if r.sealEnd then s.callSeal r.tile r.spc else s
      else
        (s.onRoutine (fun r => { r with a := some (r.wp[0], r.wp[1]), b := some (r.wp[2], r.wp[3]) })).mxStep
          (decide (l.entry = 0 ∨ l.entry = 2) || decide (0 < l.done)) (decide (2 ≤ l.entry)) r.upc
          (fun r =>
            { r with wp := (r.wp.set 0 (r.wp[0] + word r.adva)).set 2 (r.wp[2] + word r.advb),
                     lib := some { l with done := l.done + 1 } }))

/-- The micro-word at an index of the store: the library's words are not given (spec/09 R180, log 11). -/
def Core.microWord (c : Core) (i : Nat) : Nat :=
  if i < 1024 then (Config.libraryWord i).toNat else ((tblGet c.ustore (microKey c.a.ctx i)).getD 0).toNat

/-- Whether the engine stands before the next micro-word of its routine (spec/09 R183): nothing in progress, no fault waiting. -/
def Core.microReady (c : Core) : Option Routine :=
  match c.a.eng, c.a.routine with
  | .idle, some r => if c.a.deferred.isEmpty then some r else none
  | _, _ => none

end Sys2Proof.Machine
end

