-- ==== Sys2Proof/Machine/Copy.lean ====
section
/-!
DEFINITION. The copy slots at issue (spec/11 R218 to R240): each command is checked, marks its token empty, reserves a place
in its queue and enters the pier.
The events of CopyEvents.lean carry commands out.
-/
set_option linter.unusedVariables false

namespace Sys2Proof.Machine

/-! ### Checks at issue (spec/11 R221, R222, spec/02 R40) -/

/-- Windows of the source and destination of CPY, CPY2 and CPYB (spec/11 R221). -/
def winCopy : Window → Bool
  | .none_ => false
  | _ => true

/-- Windows of the source of ACC and of the address of a single atomic (spec/11 R221). -/
def winAtom : Window → Bool
  | .user | .spad _ | .other _ _ _ => true
  | _ => false

/-- Windows of the destination of ACC (spec/11 R221). -/
def winAcc : Window → Bool
  | .user | .spad _ | .other _ _ _ | .peer _ _ => true
  | _ => false

/-- Windows of the destination of CPYS (spec/11 R221). -/
def winSend : Window → Bool
  | .user | .other _ _ _ => true
  | _ => false

/-- The windows of COLL and PUBL (spec/11 R221). -/
def winUser : Window → Bool
  | .user => true
  | _ => false

/-- The physical core that a vdie and vcore name in the running task's context, if bound (spec/01 R20). -/
def State.boundCore (s : State) (vd vc : Nat) : Option Nat := (s.ctx? s.core.a.ctx).bind (fun c => c.pcoreOf vd vc)

/-- Whether a peer slot is set in the running task's context (spec/11 R239). -/
def State.peerSet (s : State) (sl : Nat) : Bool :=
  ((s.ctx? s.core.a.ctx).map (fun c => c.peers.any (fun p => p.slot = sl))).getD false

/-- Whether n bytes lie in one window that an operand may name (spec/01 R20, spec/05 R98, spec/11 R221, R239). -/
def State.winOk (s : State) (ok : Window → Bool) (va n : Nat) : Bool :=
  ok (windowOf va) &&
  match windowOf va, windowOf (va + n - 1) with
  | .user, .user => true
  | .spad _, .spad _ => true
  | .vrf _, .vrf _ => true
  | .other vd vc _, .other vd' vc' _ => vd == vd' && vc == vc' && (s.boundCore vd vc).isSome
  | .host, .host => true
  | .peer sl _, .peer sl' _ => s.peerSet sl && s.peerSet sl'
  | _, _ => false

/-- A fault at issue: its place in the order of R40, its cause, its address. -/
abbrev IssueFault := Nat × Cause × Nat

/-- The fault raised: the first in the order of R40, and of those the lowest address (spec/02 R40). -/
def firstIssue (fs : List IssueFault) : Option (Cause × Word) :=
  (fs.foldl (fun (best : Option IssueFault) f =>
    match best with
    | none => some f
    | some b => if f.1 < b.1 || (f.1 = b.1 && f.2.2 < b.2.2) then some f else some b) none).map (fun f => (f.2.1, word f.2.2))

/-- The faults of an address range that a command reads (spec/11 R221, spec/12 R256). -/
def State.readFaults (s : State) (ok : Window → Bool) (va n : Nat) : List IssueFault :=
  (if s.winOk ok va n then [] else [(0, .prot, va)]) ++
  (if s.core.a.frozen0 && s.core.a.hitsView va n then [(3, .viewOrder, va)] else [])

/-- Whether a restartable task's write is refused at issue (spec/12 R267): a single atomic outside the own scratchpad and
the views; a copy to another core, the host or a peer.
A view's own address in the pool is not checked (R257), nor the destination of a merge routine (R260; log 106). -/
def State.restartBad (s : State) (single : Bool) (va n : Nat) : Bool :=
  s.restartable &&
  match windowOf va with
  | .user => single && !s.core.a.inViews va n && !s.core.a.ownPlace va n
  | .other vd vc _ => s.boundCore vd vc != some s.core.id && !s.core.a.ownPlace va n
  | .host | .peer _ _ => true
  | _ => false

/-- The faults of an address range that a command writes (spec/11 R221, spec/12 R256, R260, R267). -/
def State.writeFaults (s : State) (ok : Window → Bool) (single : Bool) (va n : Nat) : List IssueFault :=
  s.readFaults ok va n ++ (if s.core.a.mergeBad va n then [(0, .prot, va)] else []) ++
  (if s.restartBad single va n then [(4, .restartViolation, va)] else [])

/-- MISALIGNED of an address. -/
def alignFault (n va : Nat) : List IssueFault := if va % n = 0 then [] else [(1, .misaligned, va)]

/-- BAD_SHAPE, whose TVAL is 0. -/
def shapeFault (bad : Bool) : List IssueFault := if bad then [(2, .badShape, 0)] else []

/-- VIEW_ORDER of an address of FPUT, SUBS, PUBL or COLL that falls in a declared tile (spec/12 R256). -/
def State.viewExcluded (s : State) (va n : Nat) : List IssueFault :=
  if s.core.a.hitsView va n then [(3, .viewOrder, va)] else []

/-- A 64-byte block of the own scratchpad, read through the pier at issue, as a number, with its faults: PROT outside the
window, MISALIGNED, POISON (spec/11 R224, R232, R240).
Where the block cannot be read its content counts as zero. -/
def State.blockAt (s : State) (va : Word) : Nat × List IssueFault :=
  if !(inSpad va.toNat && inSpad (va.toNat + 63)) then (0, (0, Cause.prot, va.toNat) :: alignFault 64 va.toNat)
  else match s.core.spadPoisonIn (spadOff va) 64 with
    | some (c, x) => (0, (5, c, x.toNat) :: alignFault 64 va.toNat)
    | none => (s.core.spadNat (spadOff va) 64, alignFault 64 va.toNat)

/-- Field of a block: offset and size in bytes. -/
def blockField (b off n : Nat) : Nat := b / 2 ^ (8 * off) % 2 ^ (8 * n)

/-- The commands a core's queue gains. -/
def Core.addCopy (c : Core) (q : CopyQ) (k : CopyCmd) : Core :=
  match q with
  | .ca => { c with ca := c.ca ++ [k] }
  | .cb => { c with cb := c.cb ++ [k] }

/-- A command that issues (spec/11 R219): its token is marked empty, its queue slot taken, and its entries enter the pier at
the end of the bundle. -/
def State.pushCopy (q : CopyQ) (t : Reg) (k : CopyKind) (dup : Bool) (rel : Option Scope) (entries : Nat) (s : State) : State :=
  let s := s.markEmpty t
  let (id, s) := s.newId
  let c : CopyCmd :=
    { id := id, ctx := s.core.a.ctx, tcb := s.core.a.key, tok := t, kind := k, out := false, data := [], read := false, done := 0,
      paused := none, dup := if dup then some s.core.seq else none, src := none, seqNo := none, mark := none, busy := none,
      applied := none, retry := 0, sent := none, ticks := s.frame.toNat }
  let s := s.modCore (fun x => x.addCopy q c)
  (List.range entries).foldl (fun s _ => s.stage { PierEntry.blank with cmd := some (q, id), rel := rel }) s

/-- Issue a command unless a check fails (spec/11 R219, R222). -/
def State.issueCopy (q : CopyQ) (t : Reg) (fs : List IssueFault) (k : CopyKind) (dup : Bool) (rel : Option Scope)
    (s : State) : State :=
  match firstIssue fs with
  | some (c, x) => s.fault (CopyQ.slot q) c x
  | none => s.pushCopy q t k dup rel 1

/-- The no-op of the copy slots (spec/02 R36). -/
def execNopCopy (q : CopyQ) (s : State) : Out := .next s

/-! ### Block copies (spec/11 R224) -/

/-- The start of row r of a range. -/
def rowVa (base : Nat) (stride : Int) (r : Nat) : Nat := ((base + stride * r) % 2 ^ 64).toNat

/-- Whether CNT names a destination that has no stage barrier (spec/11 R224). -/
def cntBad (dst : Nat) : Bool :=
  match windowOf dst with
  | .spad _ | .other _ _ _ => false
  | _ => true

/-- The checks of a block copy: every row of both ranges, alignment, CNT of every row. -/
def State.blockFaults (s : State) (dst src rowlen nrows : Nat) (ss ds : Int) (cnt : Bool) : List IssueFault :=
  let n := max 1 rowlen
  (List.range (max 1 nrows)).flatMap (fun r =>
    s.writeFaults winCopy false (rowVa dst ds r) n ++ s.readFaults winCopy (rowVa src ss r) n) ++
  (if dst % 64 = 0 && ds % 64 = 0 then [] else [(1, .misaligned, dst)]) ++
  (if src % 64 = 0 && ss % 64 = 0 then [] else [(1, .misaligned, src)]) ++
  shapeFault (rowlen = 0 || rowlen % 64 != 0) ++
  shapeFault (cnt && (List.range (max 1 nrows)).any (fun r => cntBad (rowVa dst ds r)))

/-- A barrier number of six bits. -/
def barrierNo (n : Nat) : Fin 64 := Fin.ofNat 64 n

/-- CPY: a length word (spec/11 R224). -/
def execCpy (q : CopyQ) (t a b c : Reg) (s : State) : Out :=
  let dst := (s.core.a.rd a).toNat
  let src := (s.core.a.rd b).toNat
  let w := s.core.a.rd c
  let len := bits w 31 0
  let cnt := bitOf w 39
  .next (s.issueCopy q t
    (s.blockFaults dst src len 1 0 0 cnt ++ shapeFault (bits w 63 46 != 0 || bits w 38 32 != 0))
    (.block (word dst) (word src) len 1 0 0 (if cnt then some (barrierNo (bits w 45 40)) else none)) false none)

/-- CPY2: rows by a descriptor (spec/11 R224). -/
def execCpy2 (q : CopyQ) (t a b c : Reg) (s : State) : Out :=
  let dst := (s.core.a.rd a).toNat
  let src := (s.core.a.rd b).toNat
  let (d, fs) := s.blockAt (s.core.a.rd c)
  let readable := fs.all (fun f => f.1 = 1)
  let rowlen := blockField d 0x00 8
  let nrows := blockField d 0x08 8
  let ss := signedOf 64 (blockField d 0x10 8)
  let ds := signedOf 64 (blockField d 0x18 8)
  let ctl := word (blockField d 0x20 8)
  let cnt := bitOf ctl 39
  let shape := nrows = 0 || decide (2 ^ 20 < nrows) || decide (2 ^ 32 ≤ rowlen) || bits ctl 63 46 != 0 || bits ctl 38 0 != 0 ||
    blockField d 0x28 24 != 0
  .next (s.issueCopy q t
    (if readable then
      fs ++ s.blockFaults dst src rowlen (if shape then 1 else nrows) ss ds cnt ++ shapeFault shape
    else fs ++ s.writeFaults winCopy false dst 1 ++ s.readFaults winCopy src 1 ++ alignFault 64 dst ++ alignFault 64 src)
    (.block (word dst) (word src) rowlen nrows ss ds (if cnt then some (barrierNo (bits ctl 45 40)) else none)) false none)

/-- CPYB: an immediate length (spec/11 R224). -/
def execCpyb (q : CopyQ) (t a b : Reg) (i : BitVec 11) (s : State) : Out :=
  let dst := (s.core.a.rd a).toNat
  let src := (s.core.a.rd b).toNat
  let len := 64 * (i.toNat + 1)
  .next (s.issueCopy q t (s.blockFaults dst src len 1 0 0 false) (.block (word dst) (word src) len 1 0 0 none) false none)

/-! ### Atomics (spec/11 R226 to R231) -/

/-- ACC (spec/11 R228). -/
def execAcc (q : CopyQ) (t a b c : Reg) (u : Bool) (o : AccOp) (s : State) : Out :=
  let dst := (s.core.a.rd a).toNat
  let src := (s.core.a.rd b).toNat
  let len := (s.core.a.rd c).toNat
  let n := max 1 len
  .next (s.issueCopy q t
    (s.writeFaults winAcc false dst n ++ s.readFaults winAtom src n ++ alignFault 64 dst ++ alignFault 64 src ++
      shapeFault (len = 0 || len % 64 != 0 || decide (512 < len) || dst / 512 != (dst + n - 1) / 512))
    (.acc o (word dst) (word src) len) u none)

/-- Bytes of an atomic's size (spec/11 R227). -/
def AtomSize.bytes : AtomSize → Nat
  | .w => 4
  | .d => 8

/-- The checks of a single atomic (spec/11 R227). -/
def State.atomFaults (s : State) (va : Nat) (z : AtomSize) : List IssueFault :=
  s.writeFaults winAtom true va (AtomSize.bytes z) ++ alignFault (AtomSize.bytes z) va

/-- Whether a size is the doubleword. -/
def AtomSize.wide : AtomSize → Bool
  | .w => false
  | .d => true

/-- CAS (spec/11 R227). -/
def execCas (q : CopyQ) (t a b c : Reg) (u : Bool) (z : AtomSize) (s : State) : Out :=
  let va := s.core.a.rd a
  .next (s.issueCopy q t (s.atomFaults va.toNat z) (.cas va (AtomSize.wide z) (s.core.a.rd b) (s.core.a.rd c)) u none)

/-- FAA (spec/11 R227). -/
def execFaa (q : CopyQ) (t a b : Reg) (u : Bool) (z : AtomSize) (s : State) : Out :=
  let va := s.core.a.rd a
  .next (s.issueCopy q t (s.atomFaults va.toNat z) (.faa va (AtomSize.wide z) (s.core.a.rd b)) u none)

/-- XCHG (spec/11 R227). -/
def execXchg (q : CopyQ) (t a b : Reg) (u : Bool) (z : AtomSize) (s : State) : Out :=
  let va := s.core.a.rd a
  .next (s.issueCopy q t (s.atomFaults va.toNat z) (.xchg va (AtomSize.wide z) (s.core.a.rd b)) u none)

/-- FPUT: a release at package scope (spec/06 R134, spec/11 R229). -/
def execFput (q : CopyQ) (t a b : Reg) (u : Bool) (s : State) : Out :=
  let va := s.core.a.rd a
  .next (s.issueCopy q t
    (s.writeFaults winAtom true va.toNat 16 ++ alignFault 16 va.toNat ++ s.viewExcluded va.toNat 16)
    (.fput va (s.core.a.rd b)) u (some .package))

/-! ### Rings (spec/11 R232 to R235) -/

/-- SUBS: the parameter block is read and checked at issue; the subscription is bound when the memory-side die accepts it
(spec/11 R232). -/
def execSubs (q : CopyQ) (t a : Reg) (d : RingDir) (sb : Fin 64) (s : State) : Out :=
  let (x, fs) := s.blockAt (s.core.a.rd a)
  let readable := fs.all (fun f => f.1 = 1)
  let mbase := blockField x 0x00 8
  let rowlen := blockField x 0x08 4
  let nrow := blockField x 0x0C 4
  let rstride := signedOf 64 (blockField x 0x10 8)
  let tstride := signedOf 64 (blockField x 0x18 8)
  let ring := blockField x 0x28 8
  let slotsz := blockField x 0x30 4
  let nslot := blockField x 0x34 1
  let serves (b : Nat) := s.core.subs.any (fun y => y.sb0 ≤ b && b < y.sb0 + y.slots.length)
  let fs := if !readable then fs else fs ++
    (if winUser (windowOf mbase) then [] else [(0, .prot, mbase)]) ++
    (if inSpad ring && inSpad (ring + max 1 (slotsz * nslot) - 1) then [] else [(0, .prot, ring)]) ++
    alignFault 64 mbase ++ alignFault 64 ring ++
    shapeFault (rowlen = 0 || rowlen % 64 != 0 || nrow = 0 || rstride % 64 != 0 || tstride % 64 != 0 || slotsz % 64 != 0 ||
      decide (slotsz < nrow * rowlen) || nslot = 0 || decide (64 < nslot) || decide (64 < sb.val + nslot) ||
      blockField x 0x35 11 != 0 || (List.range nslot).any (fun i => serves (sb.val + i))) ++
    (List.range (max 1 nrow)).flatMap (fun r => s.viewExcluded (rowVa mbase rstride r) (max 1 rowlen))
  .next (match firstIssue fs with
    | some (c, v) => s.fault (CopyQ.slot q) c v
    | none =>
      let sub : Subscription :=
        { ctx := s.core.a.ctx, tcb := s.core.a.key, sb0 := sb.val, dir := d, tok := t, accepted := false, mbase := word mbase, rowlen := rowlen, nrow := nrow,
          rstride := rstride, tstride := tstride, count := blockField x 0x20 8, ring := ring - Config.spadBase,
          slotsz := slotsz, slots := List.replicate nslot (match d with | .inp => .free | .out => .owned), tile := 0,
          off := 0, taken := 0, stopping := [], last := 0, paused := none, relTok := [] }
      (s.pushCopy q t (.subs d sb) false none 1).modCore (fun c => { c with subs := c.subs ++ [sub] }))

/-- UNSUB (spec/11 R234). -/
def execUnsub (q : CopyQ) (t : Reg) (sb : Fin 64) (s : State) : Out := .next (s.issueCopy q t [] (.unsub sb) false none)

/-- SLOTREL (spec/11 R234). -/
def execSlotrel (q : CopyQ) (t : Reg) (sb : Fin 64) (s : State) : Out := .next (s.issueCopy q t [] (.slotrel sb) false none)

/-! ### Publication, fences, verified transfers, collectives -/

/-- PUBL: a release at its scope (spec/11 R236). -/
def execPubl (q : CopyQ) (t a b : Reg) (sc : Scope) (s : State) : Out :=
  let va := (s.core.a.rd a).toNat
  let len := (s.core.a.rd b).toNat
  .next (s.issueCopy q t
    ((if s.winOk winUser va (max 1 len) then [] else [(0, .prot, va)]) ++ alignFault 65536 va ++
      shapeFault (len = 0 || len % 65536 != 0) ++ s.viewExcluded va (max 1 len))
    (.publ (word va) len sc) false (some sc))

/-- CFENCE (spec/11 R225). -/
def execCfence (q : CopyQ) (t : Reg) (c : BitVec 3) (s : State) : Out := .next (s.issueCopy q t [] (.cfence c) false none)

/-- The signature of a send whose governing seal is the tile's last released one (spec/11 R237). -/
def TileState.lastSig (x : TileState) (usesQ : Bool) (row0 n : Nat) : Option Word :=
  sigOf (if usesQ then x.lastQ else x.lastP) row0 n

/-- CPYS: capture rows of a tile under its governing seal; the engine is occupied for 2 + n cycles (spec/11 R237). -/
def execCpys (q : CopyQ) (t a c : Reg) (l : TileNo) (s : State) : Out :=
  let dst := (s.core.a.rd a).toNat
  let geo := s.core.a.rd c
  let n := geoRows geo
  let row0 := geoRow0 geo
  let stride := geoStride geo
  let fs := (List.range n).flatMap (fun r => s.writeFaults winSend false (rowVa dst stride r) 512) ++
    (if dst % 64 = 0 && stride % 64 = 0 then [] else [(1, .misaligned, dst)]) ++ shapeFault (geoBad geo)
  .next (match firstIssue fs with
    | some (e, x) => s.fault (CopyQ.slot q) e x
    | none =>
      let x := s.core.a.tiles[l]
      let rows (tb : Tbl Vec) := (List.range n).map (fun i => rowGet tb (row0 + i))
      let waits : Option Nat := if x.isOpen then some x.period else x.pending.map (fun ps => ps.period)
      let sg := if waits.isSome then none else if x.lastPeriod.isSome then x.lastSig s.core.usesQ row0 n else none
      let stale := x.wrote || (waits.isNone && (x.lastStale || sg.isNone))
      (s.pushCopy q t (.cpys (word dst) stride row0 n l waits (rows x.p) (rows x.q) stale sg false) false none n).modA
        (fun a => { a with eng := .timed (2 + n) }))

/-- COLL: one participant's command (spec/11 R240). -/
def execColl (q : CopyQ) (t a b c : Reg) (o : CollOp) (k : CollKind) (s : State) : Out :=
  let dst := (s.core.a.rd a).toNat
  let src := (s.core.a.rd b).toNat
  let (x, fs) := s.blockAt (s.core.a.rd c)
  let readable := fs.all (fun f => f.1 = 1)
  let bytes := blockField x 0x08 8
  let limit := blockField x 0x10 4
  let dflt := ((s.ctx? s.core.a.ctx).map (fun y => y.collDefault)).getD 200000
  let range (va : Nat) : List IssueFault :=
    (if s.winOk winUser va (max 1 bytes) then [] else [(0, .prot, va)]) ++ alignFault 64 va ++
      s.viewExcluded va (max 1 bytes)
  let fs := fs ++ range dst ++ range src ++
    (if readable then shapeFault (bytes = 0 || bytes % 64 != 0 || blockField x 0x14 4 / 2 != 0 || blockField x 0x18 40 != 0)
     else [])
  .next (s.issueCopy q t fs
    (.coll k o (word dst) (word src) (blockField x 0x00 8) bytes (if limit = 0 then dflt else limit)) false none)

end Sys2Proof.Machine
end

