-- ==== Sys2Proof/Machine/Tables.lean ====
section
/-!
DEFINITION. The table-update engine: the checks of an update, its writes, and the order of updates (spec/01 R18, spec/05 R101,
R105, spec/14 R306); wear records and the pages that show them.
-/
set_option linter.unusedVariables false

namespace Sys2Proof.Machine

/-- Whether a physical address is populated device memory (spec/01 R17). -/
def State.populated (s : State) (pa : Nat) : Bool :=
  decide (pa < 2 ^ 41 ∧ pa % 2 ^ 37 < Config.stackBytes) && s.memStacks.contains (pa / 2 ^ 37)

/-- Whether a page of physical memory is populated device memory. -/
def State.populatedPage (s : State) (pa size : Nat) : Bool := s.populated pa && s.populated (pa + size - 1)

/-! ### The places of replicas and of the journal (spec/01 R8, R15) -/

/-- The home memory-side die of compute die d: its first one, or its second, if the stack is populated, else the populated one whose
compute die lies the fewest die hops away, the lower number among equals (spec/01 R8, R15). -/
def State.homeMd (s : State) (d : Nat) : Nat :=
  if s.memStacks.contains (2 * d) then 2 * d
  else if s.memStacks.contains (2 * d + 1) then 2 * d + 1
  else (((List.range 16).filter (fun j => s.memStacks.contains j)).foldl (fun (b : Option Nat) j => match b with
    | none => some j
    | some k => if dieHops d (j / 2) < dieHops d (k / 2) then some j else some k) none).getD (2 * d)

/-- The memory-side dies that hold the two copies of the scheduler journal: the lowest-numbered populated ones of MD0 to MD7 and of MD8
to MD15 (spec/01 R15, spec/16 R336). -/
def State.journalMds (s : State) : List Nat :=
  ((List.range 8).find? (fun j => s.memStacks.contains j)).toList ++
  (((List.range 8).map (fun j => j + 8)).find? (fun j => s.memStacks.contains j)).toList

/-- The two copies of the journal by memory-side die: every change stands in both before it is acted on, so that what they hold is what
the machine holds (spec/01 R15, spec/16 R336). -/
def State.journal (s : State) : List (Nat × Journal) :=
  s.journalMds.map (fun j => (j, ⟨s.streams, s.dies.toList.map (fun d => d.armed), s.resources⟩))

/-- The standby core takes stream, root, armed-table and firmware-held queue state from a journal (spec/16 R336). -/
def State.replay (j : Journal) (s : State) : State :=
  { s with streams := j.streams, resources := j.held,
           dies := Vector.ofFn (fun d : Fin 8 => { s.dies[d] with armed := j.armed.getD d.val [] }) }

/-! ### The checks of an update -/

/-- An entry of a replica in use: its level, its table address, the VA at which its range begins, and the entry. -/
structure TableEntry where
  level : Nat
  at_ : Nat
  va : Nat
  pte : Word
deriving DecidableEq, Repr

/-- The entries of a table of 64 KiB at an address, each with its index. -/
def tableAt (r : Tbl Word) (base : Nat) : List (Nat × Nat × Word) :=
  (r.filter (fun e => base ≤ e.1 && e.1 < base + 2 ^ 16)).map (fun e => ((e.1 - base) / 8, e.1, e.2))

/-- The level-1 entries of a replica (spec/05 R102). -/
def level1 (r : Tbl Word) : List TableEntry :=
  (r.filter (fun e => e.1 < 2 ^ 17)).map (fun e => ⟨1, e.1, e.1 / 8 * 2 ^ 42, e.2⟩)

/-- The entries of the tables that entries of one level point to. -/
def nextLevel (r : Tbl Word) (level unit : Nat) (es : List TableEntry) : List TableEntry :=
  (es.filter (fun e => pteV e.pte && pteT e.pte)).flatMap (fun e =>
    (tableAt r (ptePa e.pte * 2 ^ 16)).map (fun x => ⟨level, x.2.1, e.va + x.1 * unit, x.2.2⟩))

/-- Every entry of a replica that a walk can meet, by level (spec/05 R102). -/
def tableEntries (r : Tbl Word) : List TableEntry :=
  let l1 := level1 r
  let l2 := nextLevel r 2 (2 ^ 29) l1
  l1 ++ l2 ++ nextLevel r 3 (2 ^ 16) l2

/-- Whether an entry's reserved fields, size and kind are legal (spec/05 R101). -/
def fieldsOk (e : Word) : Bool := bits e 63 52 = 0 && bits e 15 11 = 0 && ptePs e ≠ 3 && pteOrd e ≠ 3

/-- Whether every entry of an aligned group of `n` entries holds the same entry (spec/05 R101). -/
def groupOk (r : Tbl Word) (e : TableEntry) (n : Nat) : Bool :=
  (List.range n).all (fun i => replicaRead r (e.at_ / (8 * n) * (8 * n) + 8 * i) == e.pte)

/-- Whether an entry has its place and its neighbours (spec/05 R101). -/
def shapeOk (r : Tbl Word) (e : TableEntry) : Bool :=
  (e.level ≠ 3 || !pteT e.pte) && (!pteV e.pte ||
  (match e.level with
   | 1 => pteT e.pte
   | 2 => pteT e.pte || (ptePs e.pte = 2 && groupOk r e 2 && ptePa e.pte % 2 ^ 14 = 0)
   | _ => ptePs e.pte ≠ 2 && (ptePs e.pte ≠ 1 || (groupOk r e 32 && ptePa e.pte % 2 ^ 5 = 0))))

/-- Whether a leaf names memory that it may name (spec/01 R18, spec/05 R101). -/
def State.placeOk (s : State) (e : TableEntry) : Bool :=
  let leaf := e.level ≠ 1 && pteV e.pte && !pteT e.pte
  let pa := ptePa e.pte * 2 ^ 16
  let n := pageBytes (ptePs e.pte) * (if ptePub e.pte then 2 else 1)
  !leaf ||
  ((match windowOf e.va with
    | .user => decide (pa < 2 ^ 41)
    | .host => decide (2 ^ 51 ≤ pa)
    | _ => true) && (decide (2 ^ 41 ≤ pa) && !ptePub e.pte || s.populatedPage pa n))

/-- Whether a leaf names the frame of a page of wear records. -/
def WearPage.named (w : WearPage) (pte : Word) (size : Nat) : Bool :=
  let pa := ptePa pte * 2 ^ 16
  decide (pa ≤ w.pa ∧ w.pa < pa + size * (if ptePub pte then 2 else 1))

/-- Whether a page of wear records stays strongly ordered and of 64 KiB where its context has it (spec/14 R306). -/
def WearPage.ok (r : Tbl Word) (w : WearPage) : Bool :=
  match walk r w.va with
  | none => true
  | some l => !w.named l.pte l.size || (pteOrd l.pte = 1 && l.size = 2 ^ 16)

/-- Whether a replica names no page of wear records but read-only (spec/14 R306). -/
def State.wearOk (s : State) (es : List TableEntry) : Bool :=
  es.all (fun e => e.level = 1 || !pteV e.pte || pteT e.pte || (!pteW e.pte && !pteX e.pte) ||
    s.wearPages.all (fun w => !w.named e.pte (pageBytes (ptePs e.pte))))

/-- Whether a replica may stand as it is (spec/01 R18, spec/05 R101, spec/14 R306). -/
def State.replicaOk (s : State) (ctx : Nat) (r : Tbl Word) : Bool :=
  (tableEntries r).all (fun e => fieldsOk e.pte && shapeOk r e && s.placeOk e) && s.wearOk (tableEntries r) &&
  (s.wearPages.filter (fun w => w.ctx = ctx)).all (fun w => w.ok r)

/-- The entry that an update's word leaves where `old` stood: SEL belongs to hardware, and only PUBL changes it (spec/05 R100). -/
def pteMerged (old new : Word) : Word := setBit new 10 (pteSel old)

/-- A replica with an update's writes. -/
def writeTable (ws : List PteWrite) (r : Tbl Word) : Tbl Word :=
  ws.foldl (fun t w => tblPut t w.addr (pteMerged (replicaRead t w.addr) w.pte)) r

/-- Whether an update leaves every replica of its context legal (spec/05 R101); its writes name entries. -/
def State.updateOk (s : State) (u : Update) : Bool :=
  match s.ctx? u.ctx with
  | none => false
  | some c => u.writes.all (fun w => w.addr % 8 = 0 && fieldsOk w.pte) &&
    c.replicas.all (fun r => c.stale.contains r.1 || s.replicaOk u.ctx (writeTable u.writes r.2))

/-- The response to the mailbox command of a sequence, and the message of its function (spec/16 R330).
Code 0 is done, 1 refused, 2 busy; the detail of a refusal and the value are free values (log 5). -/
def State.respondTo (fn seq code : Nat) (s : State) : State :=
  let f (i w : Nat) : Nat := (Config.freeWord (s.free + i)).toNat % 2 ^ w
  { s with mail := s.mail ++ [⟨fn, seq, code, if code = 0 then 0 else f 0 16, f 1 32⟩], msix := s.msix ++ [(fn, 0)], free := s.free + 2 }

/-- The response to the command that the input latch holds. -/
def State.respond (fn code : Nat) (s : State) : State := s.respondTo fn s.input.seq code

/-- Whether a context is being saved for a PREEMPT that has no response yet (spec/15 R320, spec/16 R330). -/
def Context.underSave (c : Context) : Bool := c.preempt.isSome && (c.image.map (fun i => !i.commit)).getD false

/-- Whether a function's mailbox has a command whose response is not written: an update that it issued, or the PF's PREEMPT (spec/16
R330). -/
def State.mailBusy (s : State) (fn : Nat) : Bool :=
  s.updates.any (fun u => u.fn = fn) || (fn = 0 && s.ctxs.any Context.underSave)

/-- A doorbell write starts a command, and is ignored until the response to the last one has been written (spec/16 R330). -/
def State.command (f : State → State) (s : State) : State := if s.mailBusy s.input.fn then s else f s

/-- The number that stands for firmware where a function issues an update. -/
def firmwareFn : Nat := 255

/-- The answer to an update: a function's by its mailbox; firmware, which has none, hears of it from the engine (spec/01 R18, spec/05 R101,
spec/16 R330). -/
def State.answer (u : Update) (code : Nat) (s : State) : State :=
  if u.fn = firmwareFn then { s with fwAnswers := s.fwAnswers ++ [(u.ctx, code)] } else s.respondTo u.fn u.seq code

/-- An update's writes reach every current replica; each enabled die has to acknowledge, but for one whose replica awaits a
resynchronisation (spec/05 R105, R106). -/
def State.applyUpdate (u : Update) (s : State) : State :=
  s.onCtx u.ctx (fun c =>
    { c with replicas := c.replicas.map (fun r => if c.stale.contains r.1 then r else (r.1, writeTable u.writes r.2)) })

/-- The dies whose acknowledgement an update awaits: one that is in reset counts as having acknowledged (spec/05 R105, R106). -/
def State.ackDies (s : State) (ctx : Nat) : List Nat :=
  let stale := ((s.ctx? ctx).map (fun c => c.stale)).getD []
  (List.range 8).filter (fun d => (s.die d).enabled && !(s.die d).inReset && !stale.contains d)

/-- Whether the engine resynchronises a replica: a die out of reset whose replica of some context is not current (spec/05 R106). -/
def State.resyncing (s : State) : Bool := s.ctxs.any (fun c => c.stale.any (fun d => (s.die d).enabled && !(s.die d).inReset))

/-- The engine takes up the updates that wait, in order: one that its checks refuse is answered at once, the next is written and
awaits its acknowledgements (spec/05 R105).
None is taken up while a replica is resynchronised (spec/05 R106). -/
def State.startUpdates : List Update → State → State
  | [], s => { s with updates := [] }
  | u :: rest, s =>
    if s.resyncing then { s with updates := u :: rest }
    else if s.updateOk u then
      let s := s.applyUpdate u
      let dies := s.ackDies u.ctx
      if dies.isEmpty then (s.answer u 0).startUpdates rest
      else { s with updates := { u with waiting := dies } :: rest }
    else (s.answer u 1).startUpdates rest

/-- Whether every access of a context that a die's cores and engines have translated is performed; one held behind a fault is
translated again (spec/05 R105, R109). -/
def State.settledOn (s : State) (d ctx : Nat) : Bool := (s.outOf d).all (fun r => r.ctx ≠ ctx || r.held)

/-- The entries of a context leave every TLB of a die (spec/05 R104, R105). -/
def State.flushTlbs (d : Nat) (gone : TlbEntry → Bool) (s : State) : State :=
  let f (l : List TlbEntry) := l.filter (fun t => !gone t)
  let s := s.onDie d (fun x => { x with tlb := f x.tlb })
  s.coreIds.foldl (fun s c =>
    if dieOf c = d then s.onCore c (fun x => { x with tlb1 := f x.tlb1, tlbMx := f x.tlbMx }) else s) s

/-- An update goes to the engine, or waits behind the one in progress (spec/05 R105, R106). -/
def State.submit (u : Update) (s : State) : State :=
  if s.updates.isEmpty then s.startUpdates [u] else { s with updates := s.updates ++ [u] }

/-- A die has acknowledged the update in progress; with the last die the update completes and the next one starts (spec/05 R105). -/
def State.acked (d : Nat) (s : State) : State :=
  match s.updates with
  | [] => s
  | u :: rest =>
    let left := u.waiting.filter (fun x => x ≠ d)
    if left.isEmpty then (({ s with updates := [] }).answer u 0).startUpdates rest
    else { s with updates := { u with waiting := left } :: rest }

/-- TLB_INVALIDATE_ACK: die `die` drops the entries of the update's context from its TLBs, and acknowledges once every access that it
translated before is performed; with the last die the update completes and the next one starts (spec/05 R105). -/
def State.ackUpdate (d : Nat) (s : State) : State :=
  match s.updates with
  | [] => s
  | u :: rest =>
    if !u.waiting.contains d then s
    else
      let s := s.flushTlbs d (fun t => t.ctx = u.ctx)
      if s.settledOn d u.ctx then s.acked d else s

/-- Compute die d enters reset: its TLBs, caches and walkers are empty, its replica of every context awaits a copy from a current one,
and the update in progress counts it as having acknowledged (spec/05 R106).
The spec does not say what becomes of tasks on the die: it is reset only while it holds none (log 90). -/
def State.dieReset (d : Nat) (s : State) : State :=
  let idle (c : Nat) : Bool :=
    let x := s.getCore c
    !x.busy && x.inl.isEmpty && x.queue.isEmpty && x.ca.isEmpty && x.cb.isEmpty && x.subs.isEmpty && x.outq.isEmpty
  if !(s.die d).enabled || (s.die d).inReset || !(s.die d).queue.isEmpty || !(s.die d).armed.isEmpty ||
      !s.coreIds.all (fun c => dieOf c ≠ d || idle c) then s
  else
    let s := s.flushTlbs d (fun _ => true)
    let s := s.onDie d (fun x => { x with inReset := true, cache := [], walks := [] })
    let s := s.coreIds.foldl (fun s c => if dieOf c = d then s.onCore c (fun x => { x with icache := [] }) else s) s
    let s : State := { s with ctxs := s.ctxs.map (fun (c : Context) =>
      if c.stale.contains d || (tblGet c.replicas d).isNone then c else { c with stale := c.stale ++ [d] }) }
    match s.updates with
    | u :: _ => if u.waiting.contains d then s.acked d else s
    | [] => s

/-! ### Wear records (spec/14 R303, R306) -/

/-- D: the largest recorded drift among a cluster's enabled cores, in 0.01% (spec/14 R303). -/
def Cluster.drift (c : Cluster) : Nat := (c.enabled.map (fun k => c.drifts.getD k 0)).foldl max 0

/-- The enabled core of a cluster with the largest drift, the lowest number among equals. -/
def Cluster.worst (c : Cluster) : Nat := ((c.enabled.find? (fun k => c.drifts.getD k 0 == c.drift)).getD 0)

/-- The cells of the wear record of cluster n at an address (spec/14 R306). -/
def Cluster.wearCells (c : Cluster) (n a : Nat) : List (Nat × Byte) :=
  cellsOf a 8 c.time ++ cellsOf (a + 0x08) 2 c.drift ++
  cellsOf (a + 0x0A) 2 (n / 4 * 256 + n % 4 * 9 + c.worst) ++ cellsOf (a + 0x0C) 2 c.guard ++ cellsOf (a + 0x0E) 2 c.sceil ++
  cellsOf (a + 0x10) 2 c.baseClk ++
  cellsOf (a + 0x12) 1 ((if c.maxv then 1 else 0) + (if c.marked then 2 else 0) + (if c.spareUsed then 4 else 0)) ++
  cellsOf (a + 0x13) 1 c.enabled.length ++
  (List.range 9).flatMap (fun k => cellsOf (a + 0x14 + 4 * k) 4 (c.drifts.getD k 0)) ++ cellsOf (a + 0x38) 8 c.sprintUs

/-- The package clusters of a context's dies, in the order of its virtual dies. -/
def Context.clusters (c : Context) : List Nat := c.bind.flatMap (fun b => (List.range 4).map (fun k => b.1 * 4 + k))

/-- Every page of wear records holds the records of its context's clusters (spec/14 R306). -/
def State.showWear (s : State) : State :=
  s.wearPages.foldl (fun s w =>
    match s.ctx? w.ctx with
    | none => s
    | some c =>
      let cells := ((List.range c.clusters.length).zip c.clusters).flatMap (fun p =>
        if h : p.2 < 32 then (s.clusters[p.2]).wearCells p.2 (w.pa + 64 * p.1) else [])
      s.writePhys cells []) s

end Sys2Proof.Machine
end

