-- ==== Sys2Proof/Machine/MemEvents.lean ====
section
/-!
DEFINITION. The events of the mem queue, the pier, the checkers, the translation hardware and the stacks (spec/05 R102 to
R123, spec/06 R124 to R133, spec/08 R176 to R178, spec/10 R206).
An event that is not enabled changes nothing (log 4).
-/
set_option linter.unusedVariables false

namespace Sys2Proof.Machine

/-- The task part of a task wherever it is: running, spilled below an inline run, or suspended; a task that is gone leaves
only its context. -/
def State.archOf (ctx : Nat) (key : Word) (s : State) : Arch :=
  if s.core.runs ctx key then s.core.a
  else match s.core.inl.find? (fun f => f.a.ctx = ctx && f.a.key = key) with
    | some f => f.a
    | none =>
      match (s.task? ctx key).bind (fun t => t.saved) with
      | some f => f.a
      | none => { Arch.zero with ctx := ctx, tcb := key }

/-- A fault found after issue, charged to a task wherever it is (spec/05 R109, spec/11 R222). -/
def State.deferFor (ctx : Nat) (tcb : Word) (c : Cause) (tval : Word) (s : State) : State :=
  s.onTaskArch ctx tcb (fun a => { a with deferred := a.deferred ++ [⟨c, tval⟩] })

/-- A token or another asynchronous destination of a task fills (spec/04 R77). -/
def State.fillFor (ctx : Nat) (tcb : Word) (r : Reg) (x : Word) (s : State) : State :=
  s.onTaskArch ctx tcb (fun a => a.fillS r x)

/-- Whether an access belongs to the queue of the mem slot, or to the drain queue (spec/06 R124). -/
def MemReq.inQueue (drain : Bool) (r : MemReq) : Bool := r.drain.isSome == drain && r.cmd.isNone

/-- Every access of the mem or the drain queue from access `id` on that is not performed is held (spec/05 R109). -/
def Core.held (drain : Bool) (id : Nat) (c : Core) : Core :=
  let f (r : MemReq) : MemReq := if id ≤ r.id && r.inQueue drain && r.got.isNone then { r with held := true } else r
  { c with a := { c.a with memq := c.a.memq.map f }, outq := c.outq.map f }

/-- A fault of an access of the mem or the drain queue: it and every later access of the queue are held (spec/05 R109). -/
def State.holdFrom (drain : Bool) (id : Nat) (c : Cause) (tval : Word) (s : State) : State :=
  (s.modCore (Core.held drain id)).defer c tval

/-- The poison tag (spec/03 R57). -/
def poisonTag : Word := 0xFF#64

/-- An uncorrectable stack read: the granule is written as POISON and the host management log has a record
(spec/05 R123, spec/16 R337). -/
def State.poisonStack (pa : Nat) (s : State) : State :=
  (s.writePhys [] [(pa / 64, poisonTag)]).logHost 3 none none (some pa)

/-- The granules that an entry writes, as VAs. -/
def PierEntry.granules (e : PierEntry) : List Nat :=
  ((e.cells.map (fun (c : Nat × Byte) => c.1 / 64)) ++ (e.tags.map Prod.fst)).eraseDups.map (fun g => 64 * g)

/-- The places of a load's granules. -/
def State.loadLocs (s : State) (vas : List Nat) : Except (Cause × Word) (List Loc) :=
  s.locateAllVia s.core.tlb1 s.core.id s.core.a true .read false vas

/-- What a range that the mem slot reads or writes touches. -/
def State.memTouches (s : State) (k : Acc) (va n : Nat) : List Touch :=
  s.touchesVia s.core.tlb1 s.core.id s.core.a k false va n

/-- What a mem-slot store in the pier touches. -/
def State.entryTouches (s : State) (e : PierEntry) : List Touch := s.memTouches .write ((e.cells.headD (0, 0)).1) e.cells.length

/-- What an outstanding write touches at home. -/
def MemReq.touches (r : MemReq) : List Touch :=
  if r.cmd.isSome then [⟨none, (r.pas.headD (0, 0)).1, r.pas.length, r.kind⟩] else r.pas.map (fun p => ⟨none, p.1, 1, r.kind⟩)

/-- What a part of an access in the mem queue touches: a load, a store or a drained row that has left the pier. -/
def State.partTouches (s : State) (r : MemReq) : List Touch :=
  if r.load.isSome then s.memTouches .read r.lo r.n
  else if r.drain.isSome then s.touchesVia [] s.core.id s.core.a .write true r.lo r.n
  else s.memTouches .write r.lo r.n

/-- Whether a pier entry is an off-core store of the mem slot. -/
def PierEntry.memStore (e : PierEntry) : Bool := !e.spad && e.cmd.isNone && e.drain.isNone

/-- Whether a load of the mem queue that was issued before access `id` comes first: both on SO pages, or on RC pages at one
location, or both in one view (spec/06 R128, R129, spec/12 R256). -/
def State.loadBefore (s : State) (id : Nat) (ts : List Touch) (hits : Nat → Nat → Bool) : Bool :=
  s.core.a.memq.any (fun x => decide (x.id < id) && !x.held && x.load.isSome && x.got.isNone &&
    (anyTouch Touch.ordered (s.memTouches .read x.lo x.n) ts || s.core.a.together hits (rangesMeet x.lo x.n)))

/-- Whether a pier entry that is an off-core store keeps a part of a load behind it that touches `ts`: one that overlaps it, one on an SO
page before another, one on an RC page at the same location or one to the same view (spec/05 R108, spec/06 R128, spec/12 R256). -/
def State.entryBefore (s : State) (e : PierEntry) (id : Nat) (ts : List Touch) (lo n : Nat) : Bool :=
  e.memStore && decide (e.id < id) &&
    (touches e.cells e.tags lo n || anyTouch (fun x y => x.meet y || x.ordered y) (s.entryTouches e) ts ||
     s.core.a.together (touches e.cells e.tags) (rangesMeet lo n))

/-- Whether an older access of the mem queue must be performed before a part of a load that touches `ts`: a store in the pier, one that
has left it and waits, or one that home has not acknowledged, unless the die's read cache already serves its bytes (spec/05 R108,
spec/06 R125, R128, R129, spec/12 R256). -/
def State.orderedBefore (s : State) (r : MemReq) (ts : List Touch) (uncached : Bool) (n : Nat) : Bool :=
  let c := s.core
  let view (x : MemReq) : Bool := c.a.together (rangesMeet x.lo x.n) (rangesMeet r.lo n)
  c.pier.any (fun e => s.entryBefore e r.id ts r.lo n) ||
  s.loadBefore r.id ts (rangesMeet r.lo n) ||
  c.a.memq.any (fun x => decide (x.id < r.id) && x.inQueue false && x.load.isNone && !x.held &&
    (anyTouch (fun y z => y.meet z || y.ordered z) (s.partTouches x) ts || view x)) ||
  c.outq.any (fun x => decide (x.id < r.id) && x.inQueue false &&
    (anyTouch (fun y z => y.ordered z && (y.kind == 1 || uncached)) x.touches ts || view x))

/-- Whether a part of a store or of a drained row that has left the pier waits: for an earlier access of its queue on an RC page at one
location, or in one view (spec/06 R128, R132, spec/12 R256). -/
def State.storeBehind (s : State) (r : MemReq) : Bool :=
  s.core.a.memq.any (fun x => decide (x.id < r.id) && x.inQueue r.drain.isSome && !x.held && x.got.isNone &&
    (anyTouch Touch.sameRc (s.partTouches x) (s.partTouches r) || s.core.a.together (rangesMeet x.lo x.n) (rangesMeet r.lo r.n)))

/-! ### Timeouts (spec/05 R122) -/

/-- The request timeout of a context (spec/05 R122). -/
def State.timeoutOf (s : State) (ctx : Nat) : Nat := ((s.ctx? ctx).map (fun c => c.timeout)).getD 2000

/-- Whether the count of ticks of a request has run out (spec/05 R122). -/
def State.expired (s : State) (ctx : Nat) (since : Option Nat) : Bool :=
  (since.map (fun t => decide (t + s.timeoutOf ctx ≤ s.frame.toNat))).getD false

/-- Whether a request of the acting core's task that left at some tick has waited for its context's count (spec/05 R122). -/
def State.overdue (s : State) (since : Option Nat) : Bool := s.expired s.core.a.ctx since

/-- Whether the die's read cache holds every granule of a part, so that its load need not leave the die. -/
def State.lineHit (s : State) (locs : List Loc) : Bool :=
  locs.all (fun l => match l with
    | .phys pa _ => l.cached && (s.die (dieOf s.core.id)).cache.any (fun x => x.pa = pa / 64)
    | .spad _ _ => true)

/-- Whether a part of an access waits for a walker (spec/05 R104). -/
def State.partWalks (s : State) (r : MemReq) : Bool :=
  (granuleVas r.lo r.n).any (fun g => s.walkWaits (if r.drain.isSome then [] else s.core.tlb1) s.core.id s.core.a g)

/-- Whether a part of a load that waits for its data can leave its die: the ordering rules let it be performed, it translates, its
lines are not cached, and the request table has room (spec/05 R104, R121, R122). -/
def State.canSend (s : State) (r : MemReq) : Bool :=
  r.load.isSome && r.got.isNone && !r.held && r.ticks.isNone && s.core.loadAllowed r.id && s.core.room r.requests &&
  !s.partWalks r &&
  (match s.loadLocs (granuleVas r.lo r.n) with
   | .error _ => false
   | .ok locs => !s.lineHit locs &&
     !s.orderedBefore r (s.memTouches .read r.lo r.n) (locs.any (fun l => !l.cached)) r.n)

/-- The loads that can leave the die do, oldest first: their ticks count from here (spec/05 R122). -/
def State.sendLoads (s : State) : State :=
  s.core.a.memq.foldl (fun s r =>
    if s.canSend r then s.modA (fun a =>
      { a with memq := a.memq.map (fun x => if x = r then { x with ticks := some s.frame.toNat } else x) })
    else s) s

/-- Read the granules of a load: through the die's read cache, which is refilled from home unless `hit` lets an old line
serve (spec/05 R103, spec/06 R125, R129). -/
def State.readLocs (hit : Bool) (locs : List Loc) (s : State) : List (Granule × Word) × State :=
  let d := dieOf s.core.id
  locs.foldl (fun (acc : List (Granule × Word) × State) l =>
    let s := acc.2
    let s := match l with
      | .phys pa e =>
        if !l.cached || (hit && (s.die d).cache.any (fun x => x.pa = pa / 64)) then s
        else s.cacheFill d pa (pteOrd e == 2)
      | .spad _ _ => s
    (acc.1 ++ [s.granuleAt s.core.id false true l], s)) ([], s)

/-- What a load does with its granules, once all its parts have them: its fault, or the registers it fills (spec/05 R111 to R115,
R123). -/
def loadResult (va : Word) (dst : LoadDst) (gs : List (Granule × Word)) : Except (Cause × Word) (Arch → Arch) :=
  let bad := ((granuleVas va.toNat dst.bytes).zip gs).find? (fun p => isPoison p.2.2)
  match dst with
  | .expand r a =>
    match gs with
    | [] => .error (.badTag, va)
    | (_, t0) :: _ =>
      match Fmt.ofCode (tagFmt t0) with
      | none => .error (if isPoison t0 then .poison else .badTag, va)
      | some f =>
        match expandFaults f va (gs.map Prod.snd) with
        | some e => .error e
        | none => .ok (fun x => (x.fillV r (expandVec f gs)).fillS a (va + word (64 * (128 / f.elems))))
  | .scalar r n sg =>
    match bad with
    | some p => .error (.poison, word (p.1 / 64 * 64))
    | none =>
      let x := joinGranules va.toNat n (gs.map Prod.fst)
      .ok (fun y => y.fillS r (if sg then BitVec.ofInt 64 (signedOf (8 * n) x) else word x))
  | .vec r =>
    match bad with
    | some p => .error (.poison, word (p.1 / 64 * 64))
    | none => .ok (fun y => y.fillV r (Vec.ofGranules (gs.map Prod.fst)))
  | .tag r =>
    match bad with
    | some p => .error (.poison, word p.1)
    | none => .ok (fun y => y.fillS r ((gs.headD (0, 0)).2))

/-- The VA of the first poisoned granule that a part of an access reads (spec/05 R123; log 98). -/
def MemReq.poisoned (r : MemReq) (gs : List (Granule × Word)) : Option Word :=
  (((granuleVas r.lo r.n).zip gs).find? (fun p => isPoison p.2.2)).map (fun p => word (p.1 / 64 * 64))

/-- A part of a load joins a list that stands in address order. -/
def insertPart (r : MemReq) : List MemReq → List MemReq
  | [] => [r]
  | x :: l => if r.lo ≤ x.lo then r :: x :: l else x :: insertPart r l

/-- The granules of the parts of one load, in address order. -/
def joinParts (rs : List MemReq) : List (Granule × Word) := (rs.foldr insertPart []).flatMap (fun r => r.got.getD [])

/-- A part of a load has read its granules.
When no part of the load waits any more, its registers fill and an acquire is performed (spec/05 R108, R109). -/
def State.partRead (r : MemReq) (dst : LoadDst) (gs : List (Granule × Word)) (s : State) : State :=
  let s := s.modA (fun a => { a with memq := a.memq.map (fun x => if x.id = r.id && x.lo = r.lo then { x with got := some gs } else x) })
  let mine := s.core.a.memq.filter (fun x => x.id = r.id && x.load.isSome)
  if mine.any (fun x => x.got.isNone) then s
  else match loadResult r.va dst (joinParts mine) with
    | .error (c, x) =>
      (s.modA (fun a => { a with memq := a.memq.map (fun x => if x.id = r.id && x.lo = r.lo then { x with got := none } else x) })).holdFrom
        false r.id c x
    | .ok f =>
      let s := s.modA (fun a => f { a with memq := a.memq.filter (fun x => x.id ≠ r.id) })
      (s.spadAcquire r.acq).prunePoints

/-- An LDX has read the tag of its first granule: its first part takes in the granules that the format adds in its page, and a second
part reads those beyond (spec/05 R113). -/
def State.widen (r : MemReq) (n : Nat) (s : State) : MemReq × State :=
  match s.parts r.lo n with
  | p :: rest =>
    let r' := { r with n := p.2 }
    let new := rest.map (fun q => { r with lo := q.1, n := q.2, ticks := none })
    (r', s.modA (fun a => { a with memq := a.memq.flatMap (fun x => if x = r then r' :: new else [x]) }))
  | [] => (r, s)

/-- The granules that an LDX needs by the tag of its first, as the read that `hit` describes would give it; other loads read what they
name (spec/05 R113). -/
def State.loadNeeds (s : State) (hit : Bool) (r : MemReq) (dst : LoadDst) (locs : List Loc) : Nat :=
  match dst, locs with
  | .expand _ _, l :: _ =>
    if r.lo ≠ r.va.toNat || r.n ≠ 64 then r.n
    else match Fmt.ofCode (tagFmt (((s.readLocs hit [l]).1.headD (0, 0)).2)) with
      | some f => 64 * (128 / f.elems)
      | none => 64
  | _, _ => r.n

/-- The data of a part of an off-core load arrives (spec/05 R108, R109, R122, R123): the entry `idx` of the acting core's mem queue,
when the ordering rules let it be performed.
An LDX whose granules run past their window raises PROT here, when its tag is known (log 24).
`hit` lets a line of the die's read cache serve, `broken` is an uncorrectable read of its granule number `which`. -/
def State.arrive (idx : Nat) (hit broken : Bool) (which : Nat) (s : State) : State :=
  match s.core.a.memq[idx]? with
  | none => s
  | some r =>
    match r.load with
    | none => s
    | some dst =>
      if r.held || r.got.isSome || !s.core.loadAllowed r.id || (r.ticks.isNone && (!s.core.room r.requests || s.partWalks r)) then s
      else if s.expired r.ctx r.ticks then s.holdFrom false r.id .timeout r.va
      else match s.loadLocs (granuleVas r.lo r.n) with
        | .error (c, x) => s.holdFrom false r.id c x
        | .ok locs =>
          let n := s.loadNeeds hit r dst locs
          if !memReach r.va.toNat (r.lo + n - r.va.toNat) then s.holdFrom false r.id .prot r.va
          else if s.orderedBefore r (s.memTouches .read r.lo n) (locs.any (fun l => !l.cached)) n then s
          else
            let (r, s) := if n = r.n then (r, s) else s.widen r n
            match s.loadLocs (granuleVas r.lo r.n) with
            | .error (c, x) => s.holdFrom false r.id c x
            | .ok locs =>
              if broken then
                match locs[which]? with
                | some (.phys pa _) => (s.poisonStack pa).holdFrom false r.id .hwUncorr r.va
                | _ => s.holdFrom false r.id .hwUncorr r.va
              else
                let (gs, s) := s.readLocs hit locs
                match r.poisoned gs with
                | some x => s.holdFrom false r.id .poison x
                | none => s.partRead r dst gs

/-- LOAD_DATA_ARRIVAL of entry `idx` of core `core`; `flag`: a read-cache line may serve; `flag2`: the granule number `first` is
uncorrectable (spec/05 R108). -/
def execLoadDataArrival (s : State) : Out :=
  let i := s.input
  .next ((s.focus i.core).arrive i.idx i.flag i.flag2 i.first)

/-! ### The pier (spec/05 R120, spec/08 R178, spec/10 R206) -/

/-- Whether a core's checkers let an entry leave: every check of an earlier bundle has passed (spec/08 R178). -/
def Core.checked (c : Core) (e : PierEntry) : Bool := c.a.checks.all (fun k => decide (e.seq ≤ k.seq))

/-- Whether the oldest pier entry of a core can leave; one that writes off-core needs room in the request table (spec/05 R121,
spec/06 R133, spec/10 R206). -/
def Core.headLeaves (c : Core) : Option PierEntry :=
  match c.pier with
  | [] => none
  | e :: _ =>
    if c.checked e && !c.a.holds e && c.leaveAllowed e && (e.spad || e.cmd.isSome || c.room e.granules.length) then some e else none

/-- Whether a restartable task's drain reaches neither a view nor a shadow frame (spec/12 R267). -/
def State.drainViolates (s : State) (gs : List (Nat × Loc)) : Bool :=
  s.restartable && gs.any (fun p =>
    match p.2 with
    | .phys _ e => !ptePub e && (s.core.a.viewAt p.1).isNone && !s.core.a.ownPlace p.1 64
    | .spad _ _ => false)

/-- The part `gs` of an off-core store or row that leaves the pier, with nothing located yet. -/
def storeReq (ctx : Nat) (e : PierEntry) (gs : List Nat) : MemReq :=
  let mine (a : Nat) : Bool := gs.any (fun g => a / 64 = g / 64)
  { MemReq.blank with
    id := e.id, ctx := ctx, va := e.va, lo := gs.headD 0, n := 64 * gs.length, drain := e.drain,
    cells := e.cells.filter (fun c => mine c.1), tags := e.tags.filter (fun t => mine (64 * t.1)) }

/-- Whether a granule of a scratchpad is poisoned at its bank. -/
def State.bankPoison (s : State) (l : Loc) : Bool :=
  match l with
  | .spad c off => isPoison (cellGet 0 (s.getCore c).spadTags (off / 64))
  | .phys _ _ => false

/-- One granule of a write that leaves for home: its line of the die's read cache is allocated or updated, and its bytes
join the request for home; a scratchpad takes them at once, or with POISON discards them if it does not rewrite a poisoned granule whole
(spec/05 R103, R123, spec/06 R125). -/
def State.leaveGranule (d : Nat) (acc : MemReq × State) (p : Nat × Loc) : MemReq × State :=
  let (r, s) := acc
  let cells := r.cells.filter (fun c => c.1 / 64 = p.1 / 64)
  let tag := (r.tags.find? (fun t => t.1 = p.1 / 64)).map Prod.snd
  match p.2 with
  | .spad _ _ =>
    if s.bankPoison p.2 && (tag.isNone || decide (cells.length < 64)) then
      (r, s.holdFrom r.drain.isSome r.id .poison (word (p.1 / 64 * 64)))
    else (r, s.writeAt p.2 (p.1 / 64 * 64) cells tag)
  | .phys pa pte =>
    let pg := pa / 64 * 64
    let b := cells.map (fun c => (pg + (c.1 - p.1 / 64 * 64), c.2))
    let t := match tag with
      | some t => [(pg / 64, t)]
      | none => []
    let s := if p.2.cached then
        let s := if (s.die d).cache.any (fun l => l.pa = pg / 64) then s else s.cacheFill d pg (pteOrd pte == 2)
        s.cacheWrite d b t
      else s
    ({ r with pas := r.pas ++ b, paTags := r.paTags ++ t, kind := pteOrd pte, cached := p.2.cached }, s)

/-- A write whose granules are located leaves for home and waits for its acknowledgement (spec/05 R121, spec/06 R125, R131). -/
def State.sendWrite (r : MemReq) (gs : List (Nat × Loc)) (s : State) : State :=
  let d := r.die
  let (r, s) := gs.foldl (State.leaveGranule d) (r, s)
  if r.pas.isEmpty && r.paTags.isEmpty then s
  else
    let n := (s.die d).stores
    let f := s.frame.toNat
    (s.onDie d (fun x => { x with stores := x.stores + 1 })).modCore (fun c =>
      { c with outq := c.outq ++ [{ r with order := n, ticks := some f }] })

/-- A part leaves the mem queue. -/
def State.unpark (r : MemReq) (s : State) : State :=
  s.modA (fun a => { a with memq := a.memq.filter (fun x => !(x.id = r.id && x.lo = r.lo)) })

/-- A part of a store or of a drained row that has left the pier goes on its way, once no earlier access and no walk keeps it waiting
(spec/05 R104, R108, R109, spec/06 R125, R132, R136).
A fault holds it and what comes later in its queue. -/
def State.sendStore (r : MemReq) (s : State) : State :=
  let gs := granuleVas r.lo r.n
  let drain := r.drain.isSome
  if r.held || s.storeBehind r || s.partWalks r then s
  else match s.locateAllVia (if drain then [] else s.core.tlb1) s.core.id s.core.a true .write drain gs with
    | .error (c, x) => s.holdFrom drain r.id c (if drain then x else if x.toNat / 64 = r.va.toNat / 64 then r.va else x)
    | .ok locs =>
      let s := s.unpark r
      if drain && s.drainViolates (gs.zip locs) then s.defer .restartViolation r.va else s.sendWrite r (gs.zip locs)

/-- The parts of stores and of drained rows that waited, oldest first. -/
def State.sendStores (s : State) : State :=
  ((s.core.a.memq.filter (fun r => r.load.isNone && !r.held)).foldr insertAccess []).foldl (fun s r => s.sendStore r) s

/-- A part of an off-core store or drained row leaves the pier; behind a fault of its queue it is held (spec/05 R108, R109). -/
def State.leavePart (e : PierEntry) (s : State) (gs : List Nat) : State :=
  let a := s.core.a
  let r := { storeReq a.ctx e gs with
    tva := a.translated true (gs.headD 0), die := dieOf s.core.id,
    held := a.memq.any (fun x => x.held && x.inQueue e.drain.isSome && decide (x.id < e.id)) }
  (s.modA (fun a => { a with memq := a.memq ++ [r] })).sendStore r

/-- An off-core store or drained row leaves the pier, part by part (spec/05 R108, spec/06 R132). -/
def State.leaveStore (e : PierEntry) (s : State) : State :=
  (runsOf s.partKey e.granules).foldl (State.leavePart e) s

/-- A scratchpad entry leaves: its bank takes its bytes and tags; bytes of a poisoned granule that the entry does not
rewrite whole are discarded with POISON (spec/05 R120, R123). -/
def State.leaveSpad (e : PierEntry) (s : State) : State :=
  let bad (g : Nat) := isPoison (cellGet 0 s.core.spadTags g) && (e.tags.all (fun t => t.1 ≠ g) ||
    (e.cells.filter (fun c => c.1 / 64 = g)).length < 64)
  let gone := (e.granules.map (fun g => g / 64)).filter bad
  let s := s.modCore (fun c => c.writeSpad (e.cells.filter (fun x => !gone.contains (x.1 / 64)))
    (e.tags.filter (fun x => !gone.contains x.1)))
  match gone with
  | [] => s
  | g :: _ => s.defer .poison (spadVa (64 * g))

/-- Whether a command is an atomic (spec/11 R226). -/
def CopyCmd.isAtomic (k : CopyCmd) : Bool :=
  match k.kind with
  | .acc _ _ _ _ | .cas _ _ _ _ | .faa _ _ _ | .xchg _ _ _ | .fput _ _ => true
  | _ => false

/-- A command leaves the pier and joins its queue; an atomic takes a sequence number, which a DUP pair shares
(spec/11 R219, R230, R231). -/
def Core.leaveCmd (c : Core) (q : CopyQ) (id frame : Nat) : Core :=
  match (c.queueOf q).find? (fun k => k.id = id) with
  | none => c
  | some k =>
    let fresh := k.isAtomic && k.seqNo.isNone
    let n := c.aseq.toNat
    let upd (mine : CopyQ) (x : CopyCmd) : CopyCmd :=
      if mine = q && x.id = id then
        { x with out := true, ticks := frame, seqNo := if fresh then some n else x.seqNo }
      else if fresh && k.dup.isSome && x.dup = k.dup then { x with seqNo := some n }
      else x
    { c with ca := c.ca.map (upd .ca), cb := c.cb.map (upd .cb), aseq := if fresh then c.aseq + 1 else c.aseq }

/-- Change a command of a queue of the acting core. -/
def State.onCmd (q : CopyQ) (id : Nat) (f : CopyCmd → CopyCmd) (s : State) : State :=
  let g (k : CopyCmd) : CopyCmd := if k.id = id then f k else k
  s.modCore (fun c => match q with
    | .ca => { c with ca := c.ca.map g }
    | .cb => { c with cb := c.cb.map g })

/-- Remove a command from its queue. -/
def State.dropCmd (q : CopyQ) (id : Nat) (s : State) : State :=
  s.modCore (fun c => match q with
    | .ca => { c with ca := c.ca.filter (fun (k : CopyCmd) => k.id ≠ id) }
    | .cb => { c with cb := c.cb.filter (fun (k : CopyCmd) => k.id ≠ id) })

/-- A page fault that host software resolves: an event of the context's log and the owner's management vector; firmware maps
the view pool itself (spec/11 R222, spec/12 R252, spec/15 R318). -/
def State.reportPage (ctx : Nat) (tcb : Word) (va : Word) (s : State) : State :=
  match s.ctx? ctx with
  | none => s
  | some c =>
    if s.inViewPool ctx va.toNat then s
    else
      let s := s.logEvent ctx 3 tcb va
      { s with msix := s.msix ++ [(c.owner, 0)] }

/-- A SUBS that ends in a fault leaves no subscription behind. -/
def Core.dropSub (k : CopyCmd) (c : Core) : Core :=
  match k.kind with
  | .subs _ sb => { c with subs := c.subs.filter (fun x => x.sb0 ≠ sb.val || x.accepted) }
  | _ => c

/-- A command that meets a fault: PAGE pauses it, any other fault ends it with its token empty, deferred
(spec/11 R222). -/
def State.failCmd (q : CopyQ) (k : CopyCmd) (c : Cause) (x : Word) (s : State) : State :=
  if c = .page then s.onCmd q k.id (fun k => { k with paused := some x })
  else ((s.dropCmd q k.id).modCore (Core.dropSub k)).deferFor k.ctx k.tcb c x

/-- A command fails; a page fault is also reported, but one of a merge routine outside the view pool ends the launch (spec/12 R259,
R260). -/
def State.stopCmd (q : CopyQ) (k : CopyCmd) (c : Cause) (x : Word) (s : State) : State :=
  let s := s.failCmd q k c x
  if c = .page && k.tcb ≠ tcbOf k.tcb && !s.inViewPool k.ctx x.toNat then
    match s.task? k.ctx (tcbOf k.tcb) with
    | some t => s.endLaunch t.launch 1 c.code 2 t.tcb s.core.a.pc x (pcore s.core.id)
    | none => s
  else if c = .page then s.reportPage k.ctx (tcbOf k.tcb) x else s.prunePoints

/-- A command is performed: its token fills and its queue slot is released (spec/11 R219). -/
def State.finishCmd (q : CopyQ) (k : CopyCmd) (x : Word) (s : State) : State :=
  ((s.dropCmd q k.id).fillFor k.ctx k.tcb k.tok x).prunePoints

/-- A status word (spec/11 R220). -/
def statusWord (count retry code : Nat) : Word := word (count % 2 ^ 32 * 2 ^ 32 + retry % 256 * 256 + code)

/-- The source and the destination of granule j of a command that moves granules (spec/11 R224, R238). -/
def CopyCmd.granuleVa (k : CopyCmd) (j : Nat) : Nat × Nat :=
  match k.kind with
  | .block dst src rowlen _ ss ds _ =>
    let r := j / (rowlen / 64)
    let o := j % (rowlen / 64) * 64
    (rowVa src.toNat ss r + o, rowVa dst.toNat ds r + o)
  | .cpys dst stride _ _ _ _ _ _ _ _ _ => (0, rowVa dst.toNat stride (j / 8) + 64 * (j % 8))
  | _ => (0, 0)

/-- The status with which a command that moves granules ends (spec/11 R220, R224, R238). -/
def CopyCmd.status (k : CopyCmd) : Word :=
  match k.kind with
  | .block _ _ rowlen nrows _ _ _ => statusWord (nrows * rowlen) 0 0
  | .cpys _ _ _ n _ _ _ _ _ _ _ => statusWord (512 * n) k.retry 0
  | _ => 0

/-- A command of a queue by its number. -/
def State.cmd? (s : State) (q : CopyQ) (id : Nat) : Option CopyCmd := (s.core.queueOf q).find? (fun (k : CopyCmd) => k.id = id)

/-- Whether writes of a command wait for home. -/
def Core.writing (c : Core) (q : CopyQ) (id : Nat) : Bool := c.outq.any (fun r => r.cmd == some (q, id))

/-- A command whose granules are all moved is performed once home has all its writes (spec/06 R135). -/
def State.settle (q : CopyQ) (id : Nat) (s : State) : State :=
  match s.cmd? q id with
  | some k => if k.moved && !s.core.writing q id then s.finishCmd q k k.status else s
  | none => s

/-- Where a VA lies in the scratchpad of a core that runs a task: its own-scratchpad window, its other-cores window, or a view
(spec/05 R98, spec/11 R221, spec/12 R256). -/
def State.ownSpad (s : State) (a : Arch) (va : Nat) : Bool :=
  match a.viewAt va with
  | some w => !w.pool && w.core == s.core.id
  | none =>
    match windowOf va with
    | .spad _ => true
    | .other vd vc _ => (s.ctx? a.ctx).bind (fun c => c.pcoreOf vd vc) == some s.core.id
    | _ => false

/-- The granules that a command reads when it leaves the pier, by number and VA: the source of an ACC, and of a copy what lies in the
core's own scratchpad (spec/06 R126, spec/11 R228). -/
def State.earlyReads (s : State) (k : CopyCmd) : List (Nat × Nat) :=
  match k.kind with
  | .acc _ _ src len => (List.range (len / 64)).map (fun j => (j, src.toNat + 64 * j))
  | .block _ _ _ _ _ _ _ =>
    let a := s.archOf k.ctx k.tcb
    ((List.range k.granules).map (fun j => (j, (k.granuleVa j).1))).filter (fun p => s.ownSpad a p.2)
  | _ => []

/-- Read granules of a command's source; the first fault, with its VA (spec/11 R222).
`broken` numbers one whose read is uncorrectable (spec/05 R123). -/
def State.readSources (s : State) (a : Arch) (hit : Bool) (broken : Option Nat) :
    List (Nat × Nat) → Except (Cause × Word × State) (Tbl (Granule × Word) × State)
  | [] => .ok ([], s)
  | (j, va) :: rest =>
    match s.locate s.core.id a true .read false va with
    | .error c => .error (c, word va, s)
    | .ok l =>
      if broken = some j then
        .error (.hwUncorr, word va, match l with
          | .phys pa _ => if pa < 2 ^ 51 then s.poisonStack (pa / 64 * 64) else s
          | .spad _ _ => s)
      else
        let (gs, s) := s.readLocs hit [l]
        match State.readSources s a hit broken rest with
        | .error e => .error e
        | .ok (xs, s) => .ok ((j, gs.headD (0, 0)) :: xs, s)

/-- Read what a command reads when it leaves the pier (spec/06 R126, spec/11 R228); an ACC raises POISON here. -/
def State.fetchSource (q : CopyQ) (k : CopyCmd) (broken : Option Nat) (s : State) : State :=
  let a := s.archOf k.ctx k.tcb
  let isAcc := match k.kind with
    | .acc _ _ _ _ => true
    | _ => false
  match s.readSources a true broken (s.earlyReads k) with
  | .error (c, x, s) => s.stopCmd q k c x
  | .ok (xs, s) =>
    match (if isAcc then xs.find? (fun x => isPoison x.2.2) else none) with
    | some x => s.stopCmd q k .poison (word ((match k.kind with
        | .acc _ _ src _ => src.toNat
        | _ => 0) + 64 * x.1))
    | none => s.onCmd q k.id (fun k => { k with data := xs, read := true })

/-! ### Order among commands (spec/06 R128, spec/11 R225) -/

/-- The address ranges that a command reads, as VA and bytes. -/
def CopyCmd.reads (k : CopyCmd) : List (Nat × Nat) :=
  match k.kind with
  | .block _ src rowlen nrows ss _ _ => (List.range nrows).map (fun r => (rowVa src.toNat ss r, rowlen))
  | .acc _ dst src len => if k.read then [(dst.toNat, len)] else [(src.toNat, len), (dst.toNat, len)]
  | .cas a w _ _ => [(a.toNat, if w then 8 else 4)]
  | .faa a w _ => [(a.toNat, if w then 8 else 4)]
  | .xchg a w _ => [(a.toNat, if w then 8 else 4)]
  | .fput a _ => [(a.toNat, 16)]
  | .coll _ _ _ src _ bytes _ => [(src.toNat, bytes)]
  | _ => []

/-- The address ranges that a command writes. -/
def CopyCmd.writes (k : CopyCmd) : List (Nat × Nat) :=
  match k.kind with
  | .block dst _ rowlen nrows _ ds _ => (List.range nrows).map (fun r => (rowVa dst.toNat ds r, rowlen))
  | .acc _ dst _ len => [(dst.toNat, len)]
  | .cas a w _ _ => [(a.toNat, if w then 8 else 4)]
  | .faa a w _ => [(a.toNat, if w then 8 else 4)]
  | .xchg a w _ => [(a.toNat, if w then 8 else 4)]
  | .fput a _ => [(a.toNat, 16)]
  | .cpys dst stride _ n _ _ _ _ _ _ _ => (List.range n).map (fun r => (rowVa dst.toNat stride r, 512))
  | .coll _ _ dst _ _ bytes _ => [(dst.toNat, bytes)]
  | _ => []

/-- What n bytes at a VA of a command touch: memory or a scratchpad by its place, a VRF or a peer under a number of its own, ordered as
scratchpads are (spec/06 R128). -/
def State.rangeTouches (s : State) (a : Arch) (k : Acc) (va n : Nat) : List Touch :=
  match windowOf va with
  | .vrf off => [⟨some (2 ^ 32 + s.core.id), off, n, 0⟩]
  | .peer sl off => [⟨some (2 ^ 33 + sl), off, n, 0⟩]
  | _ => s.touchesVia [] s.core.id a k (k != .read) va n

/-- What a command of a queue has still to read or write, with its writes that wait for home (spec/06 R128). -/
def State.cmdTouches (s : State) (q : CopyQ) (k : CopyCmd) : List Touch :=
  let a := s.archOf k.ctx k.tcb
  ((s.core.outq.filter (fun r => r.cmd == some (q, k.id))).flatMap MemReq.touches) ++
  (if k.granules = 0 then
    k.reads.flatMap (fun r => s.rangeTouches a (if k.isAtomic then .update else .read) r.1 r.2) ++
    k.writes.flatMap (fun r => s.rangeTouches a .write r.1 r.2)
  else ((List.range k.granules).filter (fun j => !k.has j)).flatMap (fun j =>
    let p := k.granuleVa j
    (match k.kind with
     | .block _ _ _ _ _ _ _ => if (tblGet k.data j).isSome then [] else s.rangeTouches a .read p.1 64
     | _ => []) ++ s.rangeTouches a .write p.2 64))

/-- Whether a command's access to places may be performed: no older command of its queue has one to perform that comes first
(spec/06 R128, R129). -/
def State.placesReady (s : State) (q : CopyQ) (k : CopyCmd) (ts : List Touch) : Bool :=
  (s.core.queueOf q).all (fun x => k.id ≤ x.id || !anyTouch Touch.ordered (s.cmdTouches q x) ts)

/-- Whether an older command of the queue and of the same task touches a view that a command touches (spec/12 R256). -/
def State.sharesView (s : State) (q : CopyQ) (k : CopyCmd) : Bool :=
  let rs (x : CopyCmd) := x.reads ++ x.writes
  let hits (x : CopyCmd) (w : ViewWin) : Bool := (rs x).any (fun r => rangesMeet r.1 r.2 w.base w.size)
  (s.core.queueOf q).any (fun x => decide (x.id < k.id) && x.ctx == k.ctx && x.tcb == k.tcb &&
    (s.archOf k.ctx k.tcb).views.any (fun w => hits x w && hits k w))

/-- The classes of a range for CFENCE, read or written (spec/11 R225). -/
def Arch.rangeClass (a : Arch) (write : Bool) (r : Nat × Nat) : Nat :=
  let local_ := if write then 2 else 1
  match windowOf r.1 with
  | .user => if a.hitsView r.1 r.2 then Nat.lor 4 local_ else 4
  | .spad _ | .vrf _ | .other _ _ _ => local_
  | _ => 4

/-- The classes of the accesses that a command has still to perform (spec/11 R225).
A SLOTREL makes none: the pull that an output SLOTREL starts is the storer's. -/
def Arch.classes (a : Arch) (k : CopyCmd) : Nat :=
  let rw := (if k.moved then [] else k.reads.map (a.rangeClass false)) ++ (k.writes.map (a.rangeClass true))
  let base := rw.foldl Nat.lor 0
  match k.kind with
  | .block _ _ _ _ _ _ (some _) => Nat.lor base 2
  | .subs _ _ => 7
  | .publ _ _ _ => 4
  | _ => base

/-- Whether a CFENCE and a command name a class in common. -/
def Arch.fenced (a : Arch) (cl : BitVec 3) (k : CopyCmd) : Bool := Nat.land cl.toNat (a.classes k) != 0

/-- Whether no CFENCE that was issued before a command holds accesses of these classes (spec/11 R225). -/
def State.unfencedFor (s : State) (k : CopyCmd) (classes : Nat) : Bool :=
  (s.core.ca ++ s.core.cb).all (fun f =>
    k.id ≤ f.id || (match f.kind with
      | .cfence cl => Nat.land cl.toNat classes == 0
      | _ => true))

/-- Whether no CFENCE that was issued before a command holds it (spec/11 R225). -/
def State.unfenced (s : State) (k : CopyCmd) : Bool := s.unfencedFor k ((s.archOf k.ctx k.tcb).classes k)

/-- Whether nothing but a CFENCE keeps a command from being carried out: it has left the pier, it waits for no mapping, and no older
command touches a view of its own (spec/06 R128, spec/12 R256). -/
def State.cmdFree (q : CopyQ) (k : CopyCmd) (s : State) : Bool :=
  k.out && k.paused.isNone && k.busy.isNone && !s.sharesView q k

/-- Whether the queue orders let a command be carried out (spec/06 R128, spec/11 R225, spec/12 R256). -/
def State.cmdReady (q : CopyQ) (k : CopyCmd) (s : State) : Bool := s.cmdFree q k && s.unfenced k

/-- Whether a command may read what it reads on leaving the pier: nothing that comes before it has still to write there, and no CFENCE
holds those reads (spec/06 R128, spec/11 R225; log 77). -/
def State.srcReady (q : CopyQ) (k : CopyCmd) (s : State) : Bool :=
  let a := s.archOf k.ctx k.tcb
  let rs := s.earlyReads k
  s.cmdFree q k && s.unfencedFor k ((rs.map (fun p => a.rangeClass false (p.2, 64))).foldl Nat.lor 0) &&
  s.placesReady q k (rs.flatMap (fun p => s.rangeTouches a .read p.2 64))

/-- A command reads what it reads on leaving the pier, as soon as it may (spec/06 R126, spec/11 R228; log 77). -/
def State.tryFetch (q : CopyQ) (k : CopyCmd) (broken : Option Nat) (s : State) : State :=
  if !k.read && s.srcReady q k then s.fetchSource q k broken else s

/-- An uncorrectable error of a core store that no instruction reads: the task that the core runs is charged, or with none the die's
error log has a record (spec/15 R316). -/
def State.coreUncorr (tval : Word) (s : State) : State :=
  if s.core.busy then s.trap (s.core.a.reentry.getD 0) .hwUncorr tval false s.core.a.pc
  else
    let me := s.core.id
    s.onDie (dieOf me) (fun d => { d with errs := d.errs.add 1024 (.store s.frame.toNat (pcore me)) })

/-- The oldest pier entry of the acting core leaves (spec/10 R206).
`broken` numbers a granule of what a command reads as it leaves, or marks a plain entry, whose read is uncorrectable and which is lost;
`tval` is then the place of the error (spec/05 R123, spec/15 R316; log 78). -/
def State.pierLeave (broken : Option Nat) (tval : Word) (s : State) : State :=
  match s.core.headLeaves with
  | none => s
  | some e =>
    let s := s.modCore (fun c => { c with pier := c.pier.tail })
    let s := match e.cmd with
      | some (q, id) =>
        if s.core.pier.any (fun x => x.cmd == e.cmd) then s
        else
          let s := s.modCore (fun c => c.leaveCmd q id s.frame.toNat)
          match s.cmd? q id with
          | some k => s.tryFetch q k broken
          | none => s
      | none =>
        if broken.isSome then s.coreUncorr tval
        else if e.spad then s.leaveSpad e else s.leaveStore e
    s.prunePoints

/-- PIER_ENTRY_LEAVE on core `core`; `flag2`: a read that the entry makes is uncorrectable, of a command that of granule `first` of its
source, else `value` says where (spec/10 R206, spec/05 R123, spec/15 R316). -/
def execPierEntryLeave (s : State) : Out :=
  let i := s.input
  .next ((s.focus i.core).pierLeave (if i.flag2 then some i.first else none) i.value)

/-- Whether two writes are of one queue (spec/06 R124). -/
def MemReq.sameQueue (r x : MemReq) : Bool := x.drain.isSome == r.drain.isSome && x.cmd.map Prod.fst == r.cmd.map Prod.fst

/-- Whether home can apply a write: SO accesses of one queue in issue order, those in one view as well, RC writes of one die to one place
in the order in which the die's read cache observed them (spec/06 R125, R128 to R130, spec/12 R256). -/
def State.ackReady (s : State) (r : MemReq) : Bool :=
  !r.held &&
  s.core.outq.all (fun x => r.id ≤ x.id || !r.sameQueue x || !((r.kind == 1 && x.kind == 1) ||
    s.core.a.together (rangesMeet x.lo x.n) (rangesMeet r.lo r.n))) &&
  (r.cmd.isSome || r.kind != 1 || s.core.a.memq.all (fun x => r.id ≤ x.id || !x.inQueue r.drain.isSome || x.held || x.got.isSome ||
    !(s.partTouches x).any (fun t => t.kind == 1))) &&
  (s.outOf r.die).all (fun x => r.order ≤ x.order || (r.kind == 2 && x.kind == 2) ||
    !(x.pas.any (fun p => r.pas.any (fun y => y.1 == p.1)) || x.paTags.any (fun p => r.paTags.any (fun y => y.1 == p.1))))

/-- Whether two outstanding writes are the same one. -/
def MemReq.same (r x : MemReq) : Bool := x.id == r.id && x.die == r.die && x.order == r.order

/-- An outstanding write leaves the request table. -/
def State.retire (r : MemReq) (s : State) : State := s.modCore (fun c => { c with outq := c.outq.filter (fun x => !r.same x) })

/-- A fault of a write that has left the pier: of the mem or the drain queue it holds what comes later, of a command it ends the command
(spec/05 R109, spec/11 R222). -/
def State.writeFault (r : MemReq) (c : Cause) (tval : Word) (s : State) : State :=
  match r.cmd with
  | none => s.holdFrom r.drain.isSome r.id c tval
  | some (q, id) =>
    match s.cmd? q id with
    | some k => s.stopCmd q k c tval
    | none => s

/-- An outstanding write is over: the command whose last it was is performed (spec/06 R135). -/
def State.writeOver (r : MemReq) (s : State) : State :=
  (match r.cmd with
   | some (q, id) => s.settle q id
   | none => s).prunePoints

/-- A write that has expired; `landed` says whether home had performed it (spec/05 R122). -/
def State.expireWrite (r : MemReq) (landed : Bool) (s : State) : State :=
  ((if landed then s.landWrite r (s.poisonedBy r) else s).retire r).writeFault r .timeout r.va

/-- The VA of a granule that a write has at a physical address. -/
def MemReq.vaAt (r : MemReq) (g : Nat) : Word :=
  ((r.cells.zip r.pas).find? (fun x => x.2.1 / 64 = g)).elim r.va (fun x => word (x.1.1 / 64 * 64))

/-- Home acknowledges a store or a drained row: it is performed at home, and its request leaves the table; a store to a
poisoned granule is discarded with POISON, which names the granule (spec/05 R121, R123, spec/15 R307; log 98).
An acknowledgement that comes after the request's count of ticks is dropped (spec/05 R122). -/
def State.acknowledge (idx : Nat) (s : State) : State :=
  match s.core.outq[idx]? with
  | none => s
  | some r =>
    if !s.ackReady r then s
    else if s.expired r.ctx r.ticks then (s.expireWrite r true).prunePoints
    else
      let gone := s.poisonedBy r
      let s := (s.landWrite r gone).retire r
      (match gone with
       | [] => s
       | g :: _ => s.writeFault r .poison (r.vaAt g)).writeOver r

/-- STORE_ACKNOWLEDGEMENT of entry `idx` of core `core`'s outstanding stores (spec/05 R121). -/
def execStoreAcknowledgement (s : State) : Out :=
  .next ((s.focus s.input.core).acknowledge s.input.idx)

/-! ### Deferred faults, timeouts, poison -/

/-- Raise the oldest fault found after issue at the first slot of the next issue (spec/05 R109, spec/15 R309): a hardware
error comes before the others. -/
def State.raiseDeferred (s : State) : State :=
  let a := s.core.a
  match (match a.deferred.find? (fun d => d.cause.cls = 3) with
    | some d => some d
    | none => a.deferred.head?) with
  | none => s
  | some d =>
    (s.modCore (fun c => { c with a := { c.a with deferred := c.a.deferred.erase d } }.openIssue)).trap (a.reentry.getD 0)
      d.cause d.tval true a.pc

/-- Whether a command makes requests that leave its die: copies, atomics, sends and subscriptions (spec/05 R122). -/
def CopyCmd.makesRequests (k : CopyCmd) : Bool :=
  match k.kind with
  | .block _ _ _ _ _ _ _ => true
  | .cpys _ _ _ _ _ _ _ _ _ _ _ | .subs _ _ => true
  | _ => k.isAtomic

/-- A request of the mem queue that has expired: its destination stays empty and TIMEOUT is deferred (spec/05 R122). -/
def State.expireLoad (idx : Nat) (s : State) : State :=
  match s.core.a.memq[idx]? with
  | none => s
  | some r =>
    if r.held || r.load.isNone || r.got.isSome || !s.expired r.ctx r.ticks then s else s.holdFrom false r.id .timeout r.va

/-- A write whose count of ticks has run out before its acknowledgement (spec/05 R122). -/
def State.expireStore (idx : Nat) (landed : Bool) (s : State) : State :=
  match s.core.outq[idx]? with
  | none => s
  | some r => if r.held || !s.expired r.ctx r.ticks || (landed && !s.ackReady r) then s else (s.expireWrite r landed).prunePoints

/-- The address that a command's request names. -/
def CopyCmd.addr (k : CopyCmd) : Word :=
  match k.kind with
  | .block dst _ _ _ _ _ _ => dst
  | .acc _ dst _ _ => dst
  | .cas a _ _ _ => a
  | .faa a _ _ => a
  | .xchg a _ _ => a
  | .fput a _ => a
  | .publ a _ _ => a
  | .cpys dst _ _ _ _ _ _ _ _ _ _ => dst
  | .coll _ _ dst _ _ _ _ => dst
  | .subs _ _ | .unsub _ | .slotrel _ | .cfence _ => 0

/-- A command whose request has left the die and has expired (spec/05 R122, spec/11 R230). -/
def State.expireCmd (q : CopyQ) (idx : Nat) (s : State) : State :=
  match (s.core.queueOf q)[idx]? with
  | none => s
  | some k => if s.expired k.ctx k.sent then s.failCmd q k .timeout k.addr else s

/-- DIRTY_LINE_EVICTION: the granule at physical address `off` is written as POISON and logged (spec/05 R123). -/
def execDirtyLineEviction (s : State) : Out :=
  let pa := s.input.off
  .next (if s.populated pa then s.poisonStack (pa / 64 * 64) else s)

/-! ### Translation hardware (spec/05 R102 to R106) -/

/-- A TLB of n entries with an entry filled; a full one loses another (spec/05 R104). -/
def tlbFill (n : Nat) (e : TlbEntry) (l : List TlbEntry) : List TlbEntry := (e :: l.filter (fun t => t ≠ e)).take n

/-- The set of the die TLB that an entry belongs to, by its page's number (spec/05 R104; log 12). -/
def TlbEntry.set (e : TlbEntry) : Nat := e.base / e.size % 512

/-- A die TLB of 512 sets of 8 ways with an entry filled; a full set loses another of its entries (spec/05 R104). -/
def dieTlbFill (e : TlbEntry) (l : List TlbEntry) : List TlbEntry :=
  tlbFill 8 e (l.filter (fun t => t.set = e.set)) ++ l.filter (fun t => t.set ≠ e.set)

/-- A walk ends: its leaf fills the die's TLB, and the first-level TLB (`first` 1) or the matrix micro-TLB (`first` 2) of the core that
missed; without a leaf nothing is filled, and the access that misses reports PAGE or PROT (spec/05 R102, R104). -/
def State.walkEnds (i : Input) (c : Context) (s : State) : State :=
  match walk ((tblGet c.replicas i.die).getD []) i.va.toNat with
  | none => s
  | some l =>
    let e : TlbEntry := ⟨i.ctx, i.va.toNat / l.size * l.size, l.size, l.pte⟩
    let s := s.onDie i.die (fun d => { d with tlb := dieTlbFill e d.tlb })
    if dieOf i.core ≠ i.die then s
    else s.onCore i.core (fun x =>
      if i.first = 1 then { x with tlb1 := tlbFill 64 e x.tlb1 }
      else if i.first = 2 then { x with tlbMx := tlbFill 16 e x.tlbMx } else x)

/-- PAGE_WALK: a miss for `va` of context `ctx` takes one of the 16 walkers of die `die`, or waits while all are busy; the next such
event of the walk ends it, with the replica in the die's home memory-side die as it then stands (spec/01 R15, spec/05 R102, R104, R105). -/
def execPageWalk (s : State) : Out :=
  let i := s.input
  let w : Walk := ⟨i.ctx, i.va.toNat, (tblGet s.homes i.die).getD (s.homeMd i.die)⟩
  let ws := (s.die i.die).walks
  .next (match s.ctx? i.ctx with
    | none => s
    | some c =>
      if c.stale.contains i.die || (s.die i.die).inReset then s
      else if ws.contains w then (s.walkEnds i c).onDie i.die (fun d => { d with walks := d.walks.erase w })
      else if ws.length < 16 then s.onDie i.die (fun d => { d with walks := d.walks ++ [w] })
      else s)

/-- TLB_INVALIDATE_ACK of die `die` (spec/05 R105). -/
def execTlbInvalidateAck (s : State) : Out := .next (s.ackUpdate s.input.die)

/-- REPLICA_RESYNC: die `die`'s replica of context `ctx` is copied from a current one; with `first` 1 the die enters a reset of its own,
and with 2 it leaves it (spec/05 R106). -/
def execReplicaResync (s : State) : Out :=
  let i := s.input
  .next (if i.first = 1 then s.dieReset i.die
    else if i.first = 2 then s.onDie i.die (fun d => { d with inReset := false })
    else match s.ctx? i.ctx with
    | none => s
    | some c =>
      if !c.stale.contains i.die || (s.die i.die).inReset then s
      else match c.replicas.find? (fun r => !c.stale.contains r.1) with
        | none => s
        | some r =>
          let s := s.onCtx i.ctx (fun c =>
            { c with replicas := tblPut c.replicas i.die r.2, stale := c.stale.filter (fun d => d ≠ i.die) })
          if s.updates.any (fun u => !u.waiting.isEmpty) then s else s.startUpdates s.updates)

/-! ### Checkers, ports, segments -/

/-- A failed check: the hardware error at its producing bundle and slot (spec/08 R176, R177). -/
def State.failCheck (k : Check) (c : Cause) (tval : Word) (s : State) : State :=
  (s.modA (fun a => { a with checks := a.checks.filter (fun x => x ≠ k), flights := [] })).trap k.slot c tval false k.pc

/-- The oldest shadow check of the acting core whose time has come. -/
def Core.checkDue (c : Core) (vchk : Bool) : Option Check :=
  c.a.checks.find? (fun k => k.vchk == vchk && decide (k.left ≤ 1))

/-- How a check whose time has come fails, as number `n` of those that are due: two lanes of a VCHK differ, or the shadow of an element is
too far from its result; `pairs` gives what the shadow computed where a physical fault made it differ, by 256 times the check's number
plus the element's (spec/04 R96, spec/08 R176, R177). -/
def Check.failure (pairs : List (Nat × Nat)) (n : Nat) (k : Check) : Option (Cause × Word) :=
  match k.diff with
  | some lane => some (.dupMismatch, word lane)
  | none =>
    if pairs.any (fun p => p.1 / 256 = n && (match k.elems[p.1 % 256]? with
        | some x => shadowFails x p.2
        | none => false)) then some (.residue, word k.slot)
    else none

/-- The verdicts of the checks whose time has come.
The one reported of several that fail is the first in order of issue, and within a bundle of slot (spec/08 R176). -/
def State.verdicts (pairs : List (Nat × Nat)) (s : State) : State :=
  let due := s.core.a.checks.filter (fun k => decide (k.left ≤ 1))
  match ((List.range due.length).zip due).findSome? (fun x => (x.2.failure pairs x.1).map (fun f => (x.2, f))) with
  | some (k, c, x) => s.failCheck k c x
  | none => s.modA (fun a => { a with checks := a.checks.filter (fun k => decide (1 < k.left)) })

/-- SHADOW_CHECK_VERDICT on core `core`, when a narrow-shadow check's cycles have passed: `pairs` gives what the shadow computed where
that differs (spec/04 R96, spec/08 R176, R178). -/
def execShadowCheckVerdict (s : State) : Out :=
  let i := s.input
  let s := s.focus i.core
  .next (if (s.core.checkDue false).isSome then s.verdicts i.pairs else s)

/-- VCHK_VERDICT on core `core`, when a VCHK's cycles have passed (spec/08 R177). -/
def execVchkVerdict (s : State) : Out :=
  let s := s.focus s.input.core
  .next (if (s.core.checkDue true).isSome then s.verdicts [] else s)

/-- A port one cycle later (spec/07 R145). -/
def PortState.cycle (p : PortState) : PortState :=
  if p.aged then { p with aged := false } else { p with age := min 8 (p.age + 1) }

/-- The prefetch of a port in the coming cycle: an active read port has one prefetch cycle more, once a cycle (spec/07 R145). -/
def PortState.prefetch (p : PortState) : PortState :=
  if p.act && !p.mode && !p.aged then { p with age := min 8 (p.age + 1), aged := true } else p

/-- PORT_PREFETCH: the coming cycle's prefetch of port `port` of core `core`; the data itself is never stale (spec/07 R145). -/
def execPortPrefetch (s : State) : Out :=
  let p := s.input.port
  .next ((s.focus s.input.core).modA (fun a => { a with ports := a.ports.set p a.ports[p].prefetch }))

/-- Whether a core stands between two bundles, with nothing that freezes it: the next bundle is not reached yet. -/
def Core.between (c : Core) : Bool :=
  c.a.words.isEmpty && c.a.reentry.isNone && c.stall = 0 && c.entry = 0 && c.arbit.isNone && c.a.block.isNone

/-- SEGMENT_WAKE: segment `idx` of core `core`, whose wake ends with the bundle that comes next, becomes ON (spec/07 R152). -/
def execSegmentWake (s : State) : Out :=
  let s := s.focus s.input.core
  .next (s.modA (fun a =>
    match a.segs[s.input.idx]? with
    | some (.waking _ n) =>
      if h : s.input.idx < 16 then
        if n ≤ 1 && s.core.between then { a with segs := a.segs.set s.input.idx .on } else a
      else a
    | _ => a))

/-! ### Matrix events (spec/09 R194, R199, spec/10 R204 to R213) -/

/-- Whether the context of the acting core's task is being pre-empted (spec/15 R320). -/
def State.preempting (s : State) : Bool := s.core.busy && ((s.ctx? s.core.a.ctx).map (fun c => c.preempt.isSome)).getD false

/-- Whether the acting core's task has committed no slot for its context's hang interval; a pre-emption defers the end (spec/15 R319,
R321). -/
def State.hung (s : State) : Bool :=
  s.core.busy && decide (((s.ctx? s.core.a.ctx).map (fun c => c.hang)).getD 200000000 ≤ s.core.watch) && !s.preempting

/-- WATCHDOG ends the launch, before any other trap of the cycle (spec/15 R309, R319). -/
def State.raiseHang (s : State) : State :=
  s.trap (s.core.a.reentry.getD 0) .watchdog (word s.core.watch) false s.core.a.pc

/-- Whether a routine of the acting core stands still at its next micro-word: a suspension or a pre-emption (spec/09 R186). -/
def State.routineStopped (s : State) : Bool :=
  s.preempting || (match s.core.a.block with
    | some (.suspend _) => true
    | _ => false)

/-- Whether the acting core's task has cause to have every OPEN tile sealed beside a full pier: a MERGE, a suspension, a spill, a
pre-emption, or a merge routine that waits for a JOIN's task to be spilled (spec/10 R208, spec/12 R260, spec/15 R320). -/
def State.sealsAll (s : State) : Bool :=
  (match s.core.a.block with
   | some (.suspend _) | some .mergeSeals | some (.inline _ _ _ _ _) => true
   | _ => false) ||
  s.preempting || (match s.core.a.block, s.task? s.core.a.ctx s.core.a.tcb with
    | some (.join _ _ _), some t => t.fixed && decide (1 < t.blocks.length) && t.tiles.any (fun w => w.op = 15)
    | _, _ => false)

/-- The OPEN tiles of the acting core that hardware has to seal (spec/10 R208). -/
def State.sealTiles (s : State) : List TileNo := s.core.sealTiles s.sealsAll

/-- IMPLICIT_SEAL on core `core`: the next of the OPEN tiles that hardware has to seal, when the engine is free (spec/10 R208). -/
def execImplicitSeal (s : State) : Out :=
  let s := s.focus s.input.core
  .next (s.implicitSeal s.sealsAll s.routineStopped)

/-- SEAL_VERDICT of tile `tile` of core `core`, when it is due in the coming cycle; `value` and `pairs` are differences that a physical
fault left in one path's tile fold and row signatures, of the P-path with `flag`, else of the Q-path (spec/10 R204).
A mismatch freezes the core from the cycle after that one (R209). -/
def execSealVerdict (s : State) : Out :=
  let i := s.input
  let s := s.focus i.core
  .next (match (s.core.a.tiles[i.tile]).pending with
    | none => s
    | some ps =>
      if s.core.judged i.tile || decide (1 < ps.left) then s
      else
        let bad := Folds.faulted i.value i.pairs
        let idle := s.core.arbit.isNone
        let s := (s.onTile i.tile (fun x =>
          { x with pending := some { ps with fp := if i.flag then bad ps.fp else ps.fp, fq := if i.flag then ps.fq else bad ps.fq,
                                             left := 0 } })).sealVerdict i.tile
        s.modCore (fun c => { c with newArbit := c.newArbit || (idle && c.arbit.isSome) }))

/-- KEYSTONE_VERDICT on core `core`: the test has run its cycles, with the outcome `test` (spec/10 R209, R210). -/
def execKeystoneVerdict (s : State) : Out :=
  let i := s.input
  let s := s.focus i.core
  .next (match s.core.arbit with
    | some (_, n) => if n = 0 then s.keystone i.test else s
    | none => s)

/-- MWAIT_FILL on core `core` (spec/09 R199). -/
def execMwaitFill (s : State) : Out := .next (s.focus s.input.core).fillMwaits

end Sys2Proof.Machine
end

