-- ==== Sys2Proof/Machine/CopyEvents.lean ====
section
/-!
DEFINITION. The events that carry copy commands out (spec/11 R218 to R241, spec/06 R128, R135, R136).
-/
set_option linter.unusedVariables false

namespace Sys2Proof.Machine

/-! ### Block copies (spec/11 R223, R224) -/

/-- Bytes counted onto a stage barrier of a core for a command or a subscription of a context; a count that would pass its field stays
at the largest value and is BAD_SHAPE on that core (spec/13 R280, R281). -/
def State.countBarrier (ctx c sb n : Nat) (s : State) : State :=
  let base := s.barrierBase ctx
  let w := (s.getCore c).barrierAt base sb
  let cnt := bits w 29 0 + n
  let w' := barWord (bitOf w 63) (bitOf w 62) (bits w 61 32) (min cnt (2 ^ 30 - 1))
  let s := s.onCore c (fun y => y.setBarrierAt base sb w')
  if cnt < 2 ^ 30 then s
  else s.onCore c (fun y => { y with a := { y.a with deferred := y.a.deferred ++ [⟨.badShape, 0⟩] } })

/-- Whether a place is a stage-barrier word of a context's program (spec/13 R280). -/
def State.onBarrier (s : State) (ctx : Nat) (l : Loc) (n : Nat) : Bool :=
  match l with
  | .spad _ off => barrierHit (s.barrierBase ctx) off n
  | .phys _ _ => false

/-- A granule that a copy engine reads for a task: one that it has read already, of its VRF, of a peer, or at a place (spec/06 R126,
spec/07 R152, spec/11 R221, R223, R239).
`reply` is what a peer returns, `broken` marks an uncorrectable read, whose place in the VRF the input's value gives (spec/05 R123,
spec/15 R316). -/
def State.copyRead (k : CopyCmd) (a : Arch) (hit broken : Bool) (reply : Granule × Word) (j va : Nat) (s : State) :
    Except (Cause × Word × State) ((Granule × Word) × State) :=
  match tblGet k.data j, windowOf va, a.viewAt va with
  | some g, _, _ => .ok (g, s)
  | none, .vrf off, _ =>
    match a.segs.getD (off / 512 / 256) .off with
    | .on =>
      if broken then .error (.hwUncorr, s.input.value, s)
      else .ok (((a.vrfGet (off / 512)).granule (off % 512 / 64), cellGet 0 a.vrfTags (off / 64)), s)
    | _ => .error (.segGated, word (off / 512), s)
  | none, .peer sl off, _ =>
    if ((s.ctx? a.ctx).map (fun c => c.peers.any (fun p => p.slot = sl && decide (off + 64 ≤ p.size)))).getD false then
      .ok (reply, s)
    else .error (.prot, word va, s)
  | none, _, _ =>
    match s.readSources a hit (if broken then some j else none) [(j, va)] with
    | .error e => .error e
    | .ok (xs, s) => .ok ((xs.headD (0, 0, 0)).2, s)

/-- A granule of a task's VRF written, with its tag. -/
def Arch.vrfPutGranule (a : Arch) (off : Nat) (g : Granule) (t : Word) : Arch :=
  let i := off / 512
  let j := off % 512 / 64
  let v := a.vrfGet i
  { a with vrf := tblPut a.vrf i (Vec.ofGranules ((List.range 8).map (fun k => if k = j then g else v.granule k))),
           vrfTags := cellSet 0 a.vrfTags (off / 64) t }

/-- Whether a task's write at a place breaks R267 after translation: a restartable task outside its views and the shadow
frames (spec/12 R267). -/
def State.placeViolates (s : State) (ctx : Nat) (tcb : Word) (a : Arch) (va : Nat) (l : Loc) : Bool :=
  ((s.task? ctx (tcbOf tcb)).map (fun t => t.r)).getD false && (a.viewAt va).isNone && !a.ownPlace va 1 &&
  (match l with
   | .phys _ e => !ptePub e
   | .spad _ _ => false)

/-- A granule that a copy engine of die d writes for command k: memory takes it as a request that waits for home, a scratchpad or the
VRF at once (spec/05 R121, spec/06 R131, R135, spec/11 R221 to R224, R239, spec/12 R267, spec/13 R280).
The core whose scratchpad it reaches counts CNT's bytes. -/
def State.copyWrite (q : CopyQ) (k : CopyCmd) (a : Arch) (d : Nat) (cnt : Option (Fin 64)) (va : Nat) (g : Granule) (t : Word)
    (s : State) : Except (Cause × Word) State :=
  match windowOf va, a.viewAt va with
  | .vrf off, _ =>
    match a.segs.getD (off / 512 / 256) .off with
    | .on => .ok (s.onTaskArch k.ctx k.tcb (fun x => x.vrfPutGranule off g t))
    | _ => .error (.segGated, word (off / 512))
  | .peer sl off, _ =>
    if ((s.ctx? a.ctx).map (fun c => c.peers.any (fun p => p.slot = sl && decide (off + 64 ≤ p.size)))).getD false then .ok s
    else .error (.prot, word va)
  | _, _ =>
    match s.locate s.core.id a true .write true va with
    | .error c => .error (c, word va)
    | .ok l =>
      if s.placeViolates k.ctx k.tcb a va l then .error (.restartViolation, word va)
      else match l with
        | .phys _ _ =>
          .ok (s.sendWrite { MemReq.blank with
            id := k.id, ctx := k.ctx, va := word va, lo := va, n := 64, cells := cellsOf va 64 g.toNat, tags := [(va / 64, t)],
            tva := a.translated true va, cmd := some (q, k.id), die := d } [(va, l)])
        | .spad c _ =>
          if s.onBarrier k.ctx l 64 then .error (.prot, word va)
          else
            let s := s.writeAt l 0 (cellsOf 0 64 g.toNat) (some t)
            .ok (match cnt with
              | some sb => s.countBarrier k.ctx c sb.val 64
              | none => s)

/-- What moving one granule answers: the state after it, whether it was moved, and a fault. -/
structure Moved where
  s : State
  moved : Bool
  fault : Option (Cause × Word)

/-- How a copy engine is asked to move granules: whether a line of the die's read cache may serve, the granule whose read is
uncorrectable, what a peer answers, and the engine's die. -/
structure Engine where
  hit : Bool
  broken : Option Nat
  reply : Nat → Granule × Word
  die : Nat

/-- What a granule of a command is: the source's, or that of the rows of a send (spec/11 R224, R238). -/
def State.granuleOf (e : Engine) (k : CopyCmd) (a : Arch) (j : Nat) (s : State) :
    Except (Cause × Word × State) ((Granule × Word) × State) :=
  match k.kind with
  | .cpys _ _ _ _ _ _ rows _ _ _ _ => .ok (((rows.getD (j / 8) 0).granule (j % 8), tagF32One), s)
  | _ => s.copyRead k a e.hit (e.broken == some j) (e.reply j) j (k.granuleVa j).1

/-- Granule j of a command moves, when the request table has room and what comes first in its queue is performed (spec/05 R121,
spec/06 R128, spec/11 R224). -/
def State.moveGranule (e : Engine) (q : CopyQ) (k : CopyCmd) (j : Nat) (s : State) : Moved :=
  let a := s.archOf k.ctx k.tcb
  let (sv, dv) := k.granuleVa j
  let (isCopy, cnt) := match k.kind with
    | .block _ _ _ _ _ _ cnt => (true, cnt)
    | _ => (false, none)
  let src := if isCopy && (tblGet k.data j).isNone then s.rangeTouches a .read sv 64 else []
  let walks := (isCopy && (tblGet k.data j).isNone && s.walkWaits [] s.core.id a sv) || s.walkWaits [] s.core.id a dv
  let room := k.sent.isSome || s.core.engineRoom
  if !room || walks || !s.placesReady q k (src ++ s.rangeTouches a .write dv 64) then ⟨s, false, none⟩
  else match s.granuleOf e k a j with
    | .error (c, x, s) => ⟨s, false, some (c, x)⟩
    | .ok ((g, t), s) =>
      if isPoison t then ⟨s, false, some (.poison, word (sv / 64 * 64))⟩
      else match s.copyWrite q k a e.die cnt dv g t with
        | .error f => ⟨s, false, some f⟩
        | .ok s => ⟨s.onTaskArch k.ctx k.tcb (fun a => { a with credit := a.credit - 64 }), true, none⟩

/-- Move the granules of a list that are not moved yet; a fault ends the round (spec/11 R222). -/
def State.moveAll (e : Engine) (q : CopyQ) (k : CopyCmd) : List Nat → Nat → State → Nat × Option (Cause × Word) × State
  | [], done, s => (done, none, s)
  | j :: rest, done, s =>
    if done / 2 ^ j % 2 = 1 then s.moveAll e q k rest done
    else
      let m := s.moveGranule e q k j
      match m.fault with
      | some f => (done, some f, m.s)
      | none => m.s.moveAll e q k rest (if m.moved then done + 2 ^ j else done)

/-- Whether a granule lies in a piece of 4 KiB of a command's bytes that is begun and not complete (spec/11 R218). -/
def CopyCmd.begun (k : CopyCmd) (j : Nat) : Bool :=
  let js := (List.range 64).filter (fun i => j / 64 * 64 + i < k.granules)
  js.any (fun i => k.has (j / 64 * 64 + i)) && js.any (fun i => !k.has (j / 64 * 64 + i))

/-- Whether a context is being pre-empted. -/
def State.saving (s : State) (ctx : Nat) : Bool := ((s.ctx? ctx).map (fun c => c.preempt.isSome)).getD false

/-- Move `count` granules of a command from granule `first` on, or all that are left; the command is performed once home has its
writes (spec/06 R135, spec/11 R218, R224).
A pre-emption lets it go on to its next 4 KiB boundary only (spec/11 R218). -/
def State.moveSome (e : Engine) (q : CopyQ) (k : CopyCmd) (first count : Nat) (s : State) : State :=
  let n := k.granules
  let js := (if count = 0 then List.range n else (List.range count).map (fun i => (first + i) % max 1 n)).filter
    (fun j => !s.saving k.ctx || k.begun j)
  let (done, fault, s) := s.moveAll e q k js k.done
  let s := s.onCmd q k.id (fun x => { x with done := done, sent := none })
  match fault with
  | some (c, x) => s.stopCmd q k c x
  | none => s.settle q k.id

/-- Carry out a block copy (spec/11 R224).
A peer's answers are the environment's, and a granule it does not give is a free value (log 5).
`broken` numbers a granule whose read is uncorrectable. -/
def State.copyBlock (q : CopyQ) (k : CopyCmd) (first count : Nat) (hit : Bool) (broken : Option Nat) (s : State) : State :=
  let e : Engine :=
    { hit := hit, broken := broken, die := dieOf s.core.id,
      reply := fun j => ((s.input.peer.data)[j - first]?).getD (Config.freeGranule (s.free + j), 0) }
  State.moveSome e q k first count { s with free := s.free + k.granules }

/-! ### Rings and fences that complete in their queue (spec/11 R225, R234) -/

/-- The commands that a CFENCE waits for: older ones in either queue with an access of a named class to perform (spec/11 R225). -/
def State.fenceWaits (s : State) (k : CopyCmd) (cl : BitVec 3) : Bool :=
  (s.core.ca ++ s.core.cb).any (fun x => decide (x.id < k.id) && (s.archOf x.ctx x.tcb).fenced cl x)

/-- Change one subscription of the acting core. -/
def State.onSub (sb0 : Nat) (f : Subscription → Subscription) (s : State) : State :=
  s.modCore (fun c => { c with subs := c.subs.map (fun x => if x.sb0 = sb0 then f x else x) })

/-- A command that waits for a ring is performed: its token fills with CODE 0 (spec/11 R219, R234). -/
def State.ringDone (q : CopyQ) (id : Nat) (s : State) : State :=
  match s.cmd? q id with
  | some k => s.finishCmd q k (statusWord 0 0 0)
  | none => s

/-- A SLOTREL that waits for a slot of a subscription that is released ends as one whose barrier serves none: CODE 2 (spec/11 R234;
log 107). -/
def State.ringGone (q : CopyQ) (id : Nat) (s : State) : State :=
  match s.cmd? q id with
  | some k => s.finishCmd q k (statusWord 0 0 2)
  | none => s

/-- A subscription is released at its memory-side die: it goes, and every UNSUB of it is performed (spec/11 R234). -/
def State.releaseSub (sb0 : Nat) (s : State) : State :=
  match s.core.subs.find? (fun x => x.sb0 = sb0) with
  | none => s
  | some x =>
    let s := s.modCore (fun c => { c with subs := c.subs.filter (fun y => y.sb0 ≠ sb0) })
    let s := x.relTok.foldl (fun s r => s.ringGone r.2.1 r.2.2) s
    x.stopping.foldl (fun s k => s.ringDone k.1 k.2) s

/-- Whether the loader or the storer may take a new tile: an UNSUB lets those that are begun complete, an output ring's accepted SLOTRELs
among them (spec/11 R234; log 107). -/
def Subscription.takes (x : Subscription) : Bool := x.stopping.isEmpty || (x.dir == .out && decide (x.tile < x.last))

/-- Whether a push or a pull of a subscription is under way (spec/11 R233, R234). -/
def Subscription.underWay (x : Subscription) : Bool :=
  match x.dir with
  | .inp => x.slots.any (fun y => y == .filling)
  | .out => decide (x.tile < (if x.stopping.isEmpty then x.taken else x.last))

/-- A command takes effect and keeps its place in the queue until it is performed (spec/11 R219). -/
def State.takeEffect (q : CopyQ) (k : CopyCmd) (s : State) : State := s.onCmd q k.id (fun x => { x with done := 1 })

/-- UNSUB carried out (spec/11 R234). -/
def State.doUnsub (q : CopyQ) (k : CopyCmd) (sb : Fin 64) (s : State) : State :=
  match s.core.subs.find? (fun x => x.sb0 = sb.val && x.accepted) with
  | none => s.finishCmd q k (statusWord 0 0 2)
  | some x =>
    let s := (s.takeEffect q k).onSub sb.val (fun y =>
      { y with stopping := y.stopping ++ [(q, k.id)], last := if y.stopping.isEmpty then y.taken else y.last })
    if x.underWay then s else s.releaseSub sb.val

/-- SLOTREL carried out: refused, or the slot becomes FREE or DRAINING and the token waits (spec/11 R233, R234). -/
def State.doSlotrel (q : CopyQ) (k : CopyCmd) (sb : Fin 64) (s : State) : State :=
  match s.core.subs.find? (fun x => x.sb0 ≤ sb.val && decide (sb.val < x.sb0 + x.slots.length) && x.accepted) with
  | none => s.finishCmd q k (statusWord 0 0 2)
  | some x =>
    let i := sb.val - x.sb0
    let st := x.slots.getD i .free
    match x.dir with
    | .inp =>
      if st ≠ .filled then s.finishCmd q k (statusWord 0 0 2)
      else
        (s.takeEffect q k).onSub x.sb0 (fun y => { y with slots := listSet y.slots i .free, relTok := y.relTok ++ [(i, q, k.id)] })
    | .out =>
      if st ≠ .owned || i ≠ x.taken % x.slots.length || (x.count ≠ 0 && decide (x.count ≤ x.taken)) then
        s.finishCmd q k (statusWord 0 0 2)
      else
        (s.takeEffect q k).onSub x.sb0 (fun y =>
          { y with slots := listSet y.slots i .draining, taken := y.taken + 1, relTok := y.relTok ++ [(i, q, k.id)] })

/-- The request of a command leaves the die and nothing answers it yet: its ticks count from here (spec/05 R122). -/
def State.sendCmd (q : CopyQ) (k : CopyCmd) (s : State) : State :=
  if k.makesRequests && !k.moved && (k.sent.isSome || s.core.engineRoom) then s.onCmd q k.id (fun x => { x with sent := some (k.sent.getD s.frame.toNat) }) else s

/-- COPY_COMPLETE: command `idx` of queue `queue` of core `core` goes on.
A block copy moves granules `first` to `first` + `count` - 1, or all that are left when `count` is 0; `flag`: a line of the
die's read cache may serve; `flag2`: the read of granule `first` is uncorrectable; `peer`: what a peer answers; `fn` 1: its request
leaves the die and is not answered in this event.
A CFENCE, an UNSUB or a SLOTREL takes effect (spec/05 R122, R123, spec/06 R135, spec/11 R224, R225, R234). -/
def execCopyComplete (s : State) : Out :=
  let i := s.input
  let s := s.focus i.core
  .next (match (s.core.queueOf i.queue)[i.idx]? with
    | none => s
    | some k =>
      if !s.cmdReady i.queue k then s
      else if s.expired k.ctx k.sent then s.expireCmd i.queue i.idx
      else match k.kind with
        | .block _ _ _ _ _ _ _ =>
          if i.fn = 1 then s.sendCmd i.queue k
          else if !k.read then
            let s := s.tryFetch i.queue k (if i.flag2 then some i.first else none)
            match s.cmd? i.queue k.id with
            | some k => if k.read && k.paused.isNone then s.copyBlock i.queue k i.first i.count i.flag none else s
            | none => s
          else s.copyBlock i.queue k i.first i.count i.flag (if i.flag2 then some i.first else none)
        | .cfence cl => if s.fenceWaits k cl then s else s.finishCmd i.queue k (statusWord 0 0 0)
        | .unsub sb => if k.done = 1 then s else s.doUnsub i.queue k sb
        | .slotrel sb => if k.done = 1 then s else s.doSlotrel i.queue k sb
        | _ => s)

/-- A fault of a subscription: PAGE pauses it, any other is deferred and it stops as by UNSUB: an UNSUB that waits is performed, and a
SLOTREL that waits ends with it, its token empty (spec/11 R219, R235). -/
def State.failSub (x : Subscription) (c : Cause) (va : Word) (s : State) : State :=
  if c = .page then (s.onSub x.sb0 (fun y => { y with paused := some va })).reportPage x.ctx (tcbOf x.tcb) va
  else
    ((x.relTok.foldl (fun s r => s.dropCmd r.2.1 r.2.2) s).releaseSub x.sb0).deferFor x.ctx x.tcb c va

/-- Whether a VA now has a leaf for a core's context (spec/11 R222). -/
def State.mapped (s : State) (ctx : Nat) (va : Word) : Bool := (s.leaf? (dieOf s.core.id) ctx va.toNat).isSome

/-- COPY_RESUME: command `idx` of queue `queue` of core `core`, or with `flag2` its subscription `idx`, goes on once its page is
mapped; `flag`: firmware has no mapping to give, and PROT is raised (spec/11 R222, R235). -/
def execCopyResume (s : State) : Out :=
  let i := s.input
  let s := s.focus i.core
  .next (if i.flag2 then
      match s.core.subs[i.idx]? with
      | none => s
      | some x =>
        match x.paused with
        | none => s
        | some va =>
          if s.mapped x.ctx va then s.onSub x.sb0 (fun y => { y with paused := none })
          else if i.flag then
            s.failSub x .prot va
          else s
    else
      match (s.core.queueOf i.queue)[i.idx]? with
      | none => s
      | some k =>
        match k.paused with
        | none => s
        | some va =>
          if s.mapped k.ctx va then
            let s := s.onCmd i.queue k.id (fun x => { x with paused := none, sent := none })
            if k.out then s.tryFetch i.queue { k with paused := none, sent := none } none else s
          else if i.flag then s.failCmd i.queue k .prot va
          else s)

/-! ### Atomics (spec/11 R226 to R231) -/

/-- Combine two elements as ACC does, the destination first (spec/11 R228, spec/12 R254). -/
def accElem (o : AccOp) (d x : Nat) : Nat :=
  match o with
  | .addI32 => (d + x) % 2 ^ 32
  | .addI64 => (d + x) % 2 ^ 64
  | .addF32 => f32.round .rne (ExtNum.add .rne (num32 d) (num32 x))
  | .minI32 => if signedOf 32 x < signedOf 32 d then x else d
  | .maxI32 => if signedOf 32 d < signedOf 32 x then x else d
  | .minF32 => f32.round .rne (ExtNum.min (num32 d) (num32 x))
  | .maxF32 => f32.round .rne (ExtNum.max (num32 d) (num32 x))
  | .and => Nat.land d x
  | .or => Nat.lor d x
  | .xor => Nat.xor d x

/-- Bits of an operator's element (spec/11 R228). -/
def accBits : AccOp → Nat
  | .addI64 | .and | .or | .xor => 64
  | _ => 32

/-- Combine n bytes, element by element. -/
def accBytes (o : AccOp) (n d x : Nat) : Nat :=
  let w := accBits o
  (List.range (8 * n / w)).foldl (fun acc i =>
    acc + accElem o (d / 2 ^ (w * i) % 2 ^ w) (x / 2 ^ (w * i) % 2 ^ w) * 2 ^ (w * i)) 0

/-- What an atomic does at its port (spec/11 R227 to R229): its result, the bytes it leaves, and its operand values. -/
structure PortOp where
  bytes : Nat
  old : Nat
  new : Nat
  result : Word
  vals : List Word
  wakes : Bool

/-- The effect of an atomic on the number its location holds. -/
def CopyCmd.portOp (k : CopyCmd) (old : Nat) : PortOp :=
  match k.kind with
  | .acc o _ _ len =>
    let x := (k.data.foldr (fun g acc => acc * 2 ^ 512 + g.2.1.toNat) 0)
    ⟨len, old, accBytes o len old x, statusWord len 0 0,
      (List.range (len / 8)).map (fun i => word (x / 2 ^ (64 * i))), false⟩
  | .cas _ w b c =>
    let n := if w then 64 else 32
    ⟨n / 8, old, if old = b.toNat % 2 ^ n then c.toNat % 2 ^ n else old, word old, [word (b.toNat % 2 ^ n), word (c.toNat % 2 ^ n)],
      false⟩
  | .faa _ w b =>
    let n := if w then 64 else 32
    ⟨n / 8, old, (old + b.toNat) % 2 ^ n, word old, [word (b.toNat % 2 ^ n)], false⟩
  | .xchg _ w b =>
    let n := if w then 64 else 32
    ⟨n / 8, old, b.toNat % 2 ^ n, word old, [word (b.toNat % 2 ^ n)], false⟩
  | .fput _ b =>
    let st := old / 2 ^ 64
    ⟨16, old, if st = 0 then b.toNat + 2 ^ 64 else old, word st, [b], st = 0⟩
  | _ => ⟨0, 0, 0, 0, [], false⟩

/-- Bytes at an atomic's location. -/
def CopyCmd.portBytes (k : CopyCmd) : Nat :=
  match k.kind with
  | .acc _ _ _ len => len
  | .cas _ w _ _ => if w then 8 else 4
  | .faa _ w _ => if w then 8 else 4
  | .xchg _ w _ => if w then 8 else 4
  | .fput _ _ => 16
  | _ => 0

/-- The atomic unit, or the scratchpad port, that serves a place, and the address there. -/
def Loc.port : Loc → Nat
  | .phys pa _ => pa
  | .spad c off => 2 ^ 60 + c * 2 ^ 22 + off

/-- The recorded atomics of a port (spec/11 R230). -/
def State.portTable (s : State) (l : Loc) : List Dedup :=
  match l with
  | .phys pa _ => s.atomTabs.filter (fun e => e.addr.toNat / 2 ^ 37 = pa / 2 ^ 37)
  | .spad c _ => (s.getCore c).dedup

/-- Record an applied atomic: an atomic unit keeps the last 64 of each source (spec/11 R230). -/
def State.recordAtomic (l : Loc) (e : Dedup) (s : State) : State :=
  match l with
  | .phys pa _ =>
    let mine (x : Dedup) : Bool := x.src = e.src && x.addr.toNat / 2 ^ 37 = pa / 2 ^ 37
    let old := s.atomTabs.filter mine
    { s with atomTabs := s.atomTabs.filter (fun x => !mine x) ++ old.drop (old.length - 63) ++ [e] }
  | .spad c _ => s.onCore c (fun x => { x with dedup := x.dedup ++ [e] })

/-- The cell of a future as home knows it: its physical address. -/
def State.cellPa (s : State) (ctx : Nat) (va : Word) : Option Nat :=
  (s.leaf? (s.ctxDie ctx) ctx va.toNat).map (fun l => leafPa l.1 l.2 va.toNat false)

/-- A fill of a future wakes every waiter of the cell, whose destination fills with 1 (spec/11 R229, spec/13 R286). -/
def State.wakeCell (ctx : Nat) (pa : Nat) (s : State) : State :=
  s.tasks.foldl (fun s t =>
    match t.wait with
    | some (.future d va _) =>
      if t.ctx = ctx && t.st = .suspended && s.cellPa ctx va == some pa then
        ((s.fillFor ctx t.tcb d 1).acquireFor ctx t.tcb).readyPinned ctx t.tcb
      else s
    | _ => s) s

/-- A finished atomic's scratchpad entry is freed once no command of its source has its number (spec/11 R230, R231). -/
def State.freeEntry (src seqNo : Nat) (s : State) : State :=
  if (s.core.ca ++ s.core.cb).any (fun k => k.seqNo = some seqNo && k.src.getD s.core.id = src) then s
  else
    let f (x : Core) : Core := { x with dedup := x.dedup.filter (fun e => !(e.src = src && e.seqNo = seqNo)) }
    { s with core := f s.core, others := s.others.map (fun c => (c.1, f c.2)) }

/-- The response of an atomic: lost, or its token fills (spec/11 R230). -/
def State.answerAtomic (q : CopyQ) (k : CopyCmd) (x : Word) (lost : Bool) (s : State) : State :=
  if lost then s.onCmd q k.id (fun y => { y with applied := some x, sent := some (k.sent.getD s.frame.toNat) })
  else (s.finishCmd q k x).freeEntry (k.src.getD s.core.id) (k.seqNo.getD 0)

/-- The entry that a port holds for an atomic, if it has applied it or its partner (spec/11 R230, R231). -/
def State.appliedEntry (s : State) (k : CopyCmd) (l : Loc) : Option Dedup :=
  (s.portTable l).find? (fun e => e.src = k.src.getD s.core.id && e.seqNo = k.seqNo.getD 0)

/-- What an atomic finds at its places and does there (spec/11 R227 to R229). -/
def State.portOpAt (s : State) (k : CopyCmd) (locs : List Loc) : PortOp :=
  k.portOp (joinGranules k.addr.toNat k.portBytes ((locs.map (s.granuleAt s.core.id false false)).map Prod.fst))

/-- An atomic that its port has an entry for: a DUP partner's operands are compared, and the recorded result answers (spec/11 R230,
R231). -/
def State.answerAgain (q : CopyQ) (k : CopyCmd) (l : Loc) (op : PortOp) (e : Dedup) (lost : Bool) (s : State) : State :=
  if k.dup.isSome && (e.addr ≠ word l.port || e.vals ≠ op.vals) then
    ((s.dropCmd q k.id).deferFor k.ctx k.tcb .dupMismatch k.addr).freeEntry e.src e.seqNo
  else s.answerAtomic q k e.result lost

/-- Apply an atomic at its port and record it; a scratchpad port with no entry left is busy (spec/11 R226, R230). -/
def State.applyAt (q : CopyQ) (k : CopyCmd) (locs : List Loc) (l : Loc) (lost : Bool) (s : State) : State :=
  let me := s.core.id
  let full := match l with
    | .spad _ _ => decide (1024 ≤ (s.portTable l).length)
    | .phys _ _ => false
  if full then s.onCmd q k.id (fun y => { y with busy := some (s.frame.toNat + 16), sent := some s.frame.toNat })
  else
    let va := k.addr.toNat
    let op := s.portOpAt k locs
    let cells := cellsOf va op.bytes op.new
    let s := if op.new = op.old then s else
      ((granuleVas va op.bytes).zip locs).foldl (fun s p =>
        s.writeAt p.2 (p.1 / 64 * 64) (cells.filter (fun c => c.1 / 64 = p.1 / 64)) none) s
    let s := locs.foldl (fun s x =>
      match x with
      | .phys pa _ => s.cacheDrop (dieOf me) pa
      | .spad _ _ => s) s
    let s := s.recordAtomic l ⟨k.src.getD me, k.seqNo.getD 0, word l.port, op.vals, op.result⟩
    let s := if op.wakes then
        match l with
        | .phys pa _ => s.wakeCell k.ctx pa
        | .spad _ _ => s
      else s
    s.answerAtomic q k op.result lost

/-- Atomics of the core that are outstanding and older than a command (spec/11 R230). -/
def Core.atomicsBefore (c : Core) (id : Nat) : Nat :=
  ((c.ca ++ c.cb).filter (fun k => k.out && k.isAtomic && decide (k.id < id))).length

/-- An ACC whose destination lies at a peer: the peer combines it, and the local device only learns of its end, or with `bad` of a
poisoned granule there (spec/11 R228, R239). -/
def State.peerAcc (q : CopyQ) (k : CopyCmd) (sl off len : Nat) (bad : Bool) (s : State) : State :=
  if !((s.ctx? k.ctx).map (fun c => c.peers.any (fun p => p.slot = sl && decide (off + len ≤ p.size)))).getD false then
    s.stopCmd q k .prot k.addr
  else if bad then s.stopCmd q k .poison k.addr
  else s.finishCmd q k (statusWord len 0 0)

/-- Whether stores of another core that owns a scratchpad, in its pier since an atomic came to its port, have still to leave; the issuing
core's own left before the atomic (spec/05 R120, spec/11 R226). -/
def State.portWaits (s : State) (k : CopyCmd) (l : Loc) : Bool :=
  match l with
  | .spad c _ => c != s.core.id && (s.getCore c).pier.any (fun e => e.spad && decide (e.id < k.mark.getD (s.getCore c).nextId))
  | .phys _ _ => false

/-- An atomic that waits at a port remembers the stores that it waits for (spec/11 R226). -/
def State.waitAtPort (q : CopyQ) (k : CopyCmd) (l : Loc) (s : State) : State :=
  match l with
  | .spad c _ => s.onCmd q k.id (fun y => { y with mark := some (k.mark.getD (s.getCore c).nextId) })
  | .phys _ _ => s

/-- An atomic at its port: answered from its entry, or tested and applied (spec/05 R123, spec/11 R226 to R231, spec/12 R267,
spec/13 R280). -/
def State.atPort (q : CopyQ) (k : CopyCmd) (locs : List Loc) (l : Loc) (lost : Bool) (broken : Option Nat) (s : State) : State :=
  let va := k.addr.toNat
  match s.appliedEntry k l with
  | some e => s.answerAgain q k l (s.portOpAt k locs) e lost
  | none =>
    if s.onBarrier k.ctx l k.portBytes then s.stopCmd q k .prot k.addr
    else if s.placeViolates k.ctx k.tcb (s.archOf k.ctx k.tcb) va l then s.stopCmd q k .restartViolation k.addr
    else if s.portWaits k l then s.waitAtPort q k l
    else match broken.bind (fun j => locs[j]?) with
      | some (.phys pa _) => if pa < 2 ^ 51 then (s.poisonStack (pa / 64 * 64)).stopCmd q k .hwUncorr k.addr else s
      | some (.spad _ _) => s.stopCmd q k .hwUncorr k.addr
      | none =>
        match ((granuleVas va k.portBytes).zip locs).find? (fun p => isPoison (s.granuleAt s.core.id false false p.2).2) with
        | some p => s.stopCmd q k .poison (word (p.1 / 64 * 64))
        | none => s.applyAt q k locs l lost

/-- An atomic arrives at its port (spec/11 R226 to R231): at most 64 of a core are outstanding, and what comes first in its queue is
performed. -/
def State.atomicArrive (q : CopyQ) (k : CopyCmd) (lost bad : Bool) (broken : Option Nat) (s : State) : State :=
  let a := s.archOf k.ctx k.tcb
  let va := k.addr.toNat
  let n := k.portBytes
  let unread := match k.kind with
    | .acc _ _ _ _ => !k.read
    | _ => false
  if !k.isAtomic || decide (64 ≤ s.core.atomicsBefore k.id) then s
  else if unread then s.tryFetch q k broken
  else if !s.placesReady q k (s.rangeTouches a .update va n) then s
  else if (k.sent.isNone && !s.core.engineRoom) || (granuleVas va n).any (s.walkWaits [] s.core.id a) then s
  else match windowOf va with
    | .peer sl off => s.peerAcc q k sl off n bad
    | _ =>
      match s.locateAll s.core.id a true .update true (granuleVas va n) with
      | .error (c, x) => s.stopCmd q k c x
      | .ok locs =>
        match locs with
        | [] => s
        | l :: _ => s.atPort q k locs l lost broken

/-- ATOMIC_APPLY: the atomic `idx` of queue `queue` of core `core` arrives at its port; `flag`: its response is lost; `flag2`: the read of
granule `first` is uncorrectable, or a peer reports a poisoned granule; `fn` 1: the request leaves the die and has not arrived yet
(spec/05 R122, R123, spec/11 R226, R228, R230). -/
def execAtomicApply (s : State) : Out :=
  let i := s.input
  let s := s.focus i.core
  .next (match (s.core.queueOf i.queue)[i.idx]? with
    | none => s
    | some k =>
      if !s.cmdReady i.queue k || k.applied.isSome || !k.isAtomic then s
      else if s.expired k.ctx k.sent then s.expireCmd i.queue i.idx
      else if i.fn = 1 then (if decide (64 ≤ s.core.atomicsBefore k.id) then s else s.sendCmd i.queue k)
      else s.atomicArrive i.queue k i.flag i.flag2 (if i.flag2 then some i.first else none))

/-- ATOMIC_BUSY_RETRY: 16 ticks after a busy response the atomic is sent again (spec/11 R230). -/
def execAtomicBusyRetry (s : State) : Out :=
  let i := s.input
  let s := s.focus i.core
  .next (match (s.core.queueOf i.queue)[i.idx]? with
    | none => s
    | some k =>
      match k.busy with
      | none => s
      | some t =>
        if s.frame.toNat < t then s
        else if s.expired k.ctx k.sent then s.expireCmd i.queue i.idx
        else
          let k' : CopyCmd := { k with busy := none }
          let s := s.onCmd i.queue k.id (fun _ => k')
          if s.cmdReady i.queue k' then s.atomicArrive i.queue k' i.flag false none else s)

/-- ATOMIC_RESEND: an atomic whose request or response was lost is sent again with its sequence number, at most 3 times within the
timeout; one that was applied is answered from its entry (spec/11 R230). -/
def execAtomicResend (s : State) : Out :=
  let i := s.input
  let s := s.focus i.core
  .next (match (s.core.queueOf i.queue)[i.idx]? with
    | none => s
    | some k =>
      if k.sent.isNone || k.busy.isSome then s
      else if s.expired k.ctx k.sent then s.expireCmd i.queue i.idx
      else if 3 ≤ k.retry then s
      else
        let k' : CopyCmd := { k with applied := none, retry := k.retry + 1 }
        let s := s.onCmd i.queue k.id (fun _ => k')
        match k.applied with
        | some x => s.answerAtomic i.queue k' x i.flag
        | none => s.atomicArrive i.queue k' i.flag false none)

/-! ### Subscriptions (spec/11 R232 to R235) -/

/-- The memory-side die of a physical address (spec/01 R17). -/
def mdOf (pa : Nat) : Nat := pa / 2 ^ 37

/-- The serving die of a memory-side die: the die to which it attaches when enabled, else the nearest enabled one
(spec/01 R16). -/
def State.servingDie (s : State) (md : Nat) : Nat :=
  let d := md / 2
  if (s.die d).enabled then d
  else ((List.range 8).foldl (fun (best : Option Nat) x =>
    if !(s.die x).enabled then best
    else match best with
      | none => some x
      | some b => if dieHops x d < dieHops b d then some x else some b) none).getD d

/-- The memory-side die that holds the page of a subscription's MBASE, by the core's own die's tables. -/
def State.subMd (s : State) (d : Nat) (x : Subscription) : Option Nat :=
  (s.leaf? d x.ctx x.mbase.toNat).map (fun l => mdOf (leafPa l.1 l.2 x.mbase.toNat false))

/-- Subscriptions that a memory-side die serves (spec/11 R232). -/
def State.subsOf (s : State) (md : Nat) : Nat :=
  (s.coreIds.map (fun c => ((s.getCore c).subs.filter (fun x => x.accepted && s.subMd (dieOf c) x == some md)).length)).foldl
    (fun x y => x + y) 0

/-- SUBSCRIPTION_ACCEPT: the memory-side die accepts the subscription of command `idx`; the 257th goes to firmware, which
serves it when the event comes with `flag`; with `fn` 1 the request leaves the die and nothing answers it yet (spec/05 R122, spec/11 R232,
spec/13 R288). -/
def execSubscriptionAccept (s : State) : Out :=
  let i := s.input
  let s := s.focus i.core
  .next (match (s.core.queueOf i.queue)[i.idx]? with
    | none => s
    | some k =>
      if !s.cmdReady i.queue k then s
      else if s.expired k.ctx k.sent then s.expireCmd i.queue i.idx
      else if i.fn = 1 then s.sendCmd i.queue k
      else match k.kind with
        | .subs _ sb =>
          match s.core.subs.find? (fun x => x.sb0 = sb.val) with
          | none => s
          | some x =>
            match s.subMd (dieOf s.core.id) x with
            | none => s.stopCmd i.queue k .page x.mbase
            | some md =>
              if 256 ≤ s.subsOf md && !i.flag then
                s.askFor 3 k.ctx (tcbOf k.tcb)
              else (s.onSub sb.val (fun y => { y with accepted := true })).finishCmd i.queue k (statusWord 0 0 0)
        | _ => s)

/-- The VA of a byte of tile n of a subscription (spec/11 R232). -/
def Subscription.va (x : Subscription) (off : Nat) : Nat :=
  ((((x.mbase.toNat : Int) + x.tile * x.tstride + (off / x.rowlen : Nat) * x.rstride + (off % x.rowlen : Nat)) % 2 ^ 64)).toNat

/-- The slot of the tile that moves. -/
def Subscription.slot (x : Subscription) : Nat := x.tile % x.slots.length

/-- The SLOTRELs that wait on a slot are performed (spec/11 R219, R234). -/
def State.fillSlot (x : Subscription) (i : Nat) (s : State) : State :=
  (x.relTok.filter (fun r => r.1 = i)).foldl (fun s r => s.ringDone r.2.1 r.2.2)
    (s.onSub x.sb0 (fun y => { y with relTok := y.relTok.filter (fun r => r.1 ≠ i) }))

/-- Where a subscription's byte lies in device memory: translated by the serving die of the memory-side die that holds MBASE
(spec/11 R232). -/
def State.subLoc (s : State) (x : Subscription) (k : Acc) (shadow : Bool) (va : Nat) : Except Cause Loc :=
  match s.subMd (dieOf s.core.id) x with
  | none => .error .page
  | some md => if windowOf va != .user then .error .prot else s.physLoc [] (s.servingDie md) x.ctx k shadow va

/-- Whether a byte of a subscription's tile falls in a declared tile of its task (spec/12 R256). -/
def State.subInView (s : State) (x : Subscription) (va : Nat) : Bool := (s.archOf x.ctx x.tcb).hitsView va 64

/-- The tile that moves is complete: the slot's next state, the next tile, and the release that waited for it. -/
def State.tileDone (x : Subscription) (st : SlotState) (s : State) : State :=
  let s := s.onSub x.sb0 (fun y => { y with slots := listSet y.slots y.slot st, tile := y.tile + 1, off := 0 })
  let s := if st = .owned then s.fillSlot x x.slot else s
  match s.core.subs.find? (fun y => y.sb0 = x.sb0) with
  | some y => if !y.stopping.isEmpty && !y.underWay then s.releaseSub x.sb0 else s
  | none => s

/-- One granule of a tile lands in a slot and is counted (spec/11 R233, spec/13 R280).
`broken`: its read is uncorrectable (spec/05 R123). -/
def State.pushGranule (x : Subscription) (broken : Bool) (s : State) : State :=
  let va := x.va x.off
  let me := s.core.id
  let off := x.ring + x.slot * x.slotsz + x.off
  if s.subInView x va then s.failSub x .viewOrder (word va)
  else match s.subLoc x .read false va with
  | .error c => s.failSub x c (word va)
  | .ok l =>
    let (g, t) := s.granuleAt me false false l
    if broken then
      (match l with
       | .phys pa _ => s.poisonStack (pa / 64 * 64)
       | .spad _ _ => s).failSub x .hwUncorr (word va)
    else if isPoison t then s.failSub x .poison (word va)
    else if s.onBarrier x.ctx (.spad me off) 64 then s.failSub x .prot (spadVa off)
    else
      let s := (s.writeAt (.spad me off) 0 (cellsOf 0 64 g.toNat) (some t)).countBarrier x.ctx me (x.sb0 + x.slot) 64
      let s := s.onSub x.sb0 (fun y => { y with off := y.off + 64 })
      if x.off + 64 = x.nrow * x.rowlen then s.tileDone x .filled else s

/-- LOADER_PUSH: the loader of subscription `idx` of core `core` takes a FREE slot, if tiles remain and it is not stopping, and
pushes one granule; `flag`: its read is uncorrectable; `fn` 1: the scratchpad finds an uncorrectable error at `value` as a push comes, with
which the core's task is charged (spec/05 R123, spec/11 R233, R235, spec/15 R316).
A pre-emption lets it take no new granule (spec/15 R320). -/
def execLoaderPush (s : State) : Out :=
  let i := s.input
  let s := s.focus i.core
  .next (if i.fn = 1 then (if s.core.subs.any (fun x => x.dir == .inp && x.accepted) then s.coreUncorr i.value else s)
    else match s.core.subs[i.idx]? with
    | none => s
    | some x =>
      if x.dir ≠ .inp || !x.accepted || x.paused.isSome || s.saving x.ctx then s
      else match x.slots.getD x.slot .filled with
        | .filling => s.pushGranule x i.flag
        | .free =>
          if !x.takes || (x.count ≠ 0 && decide (x.count ≤ x.tile)) then s
          else
            let s := (s.onSub x.sb0 (fun y => { y with slots := listSet y.slots y.slot .filling })).fillSlot x x.slot
            s.pushGranule { x with slots := listSet x.slots x.slot .filling } i.flag
        | _ => s)

/-- STORER_PULL: the storer of subscription `idx` of core `core` writes one granule of its DRAINING slot to memory and counts it;
`flag`: the slot's granule is uncorrectable (spec/05 R123, spec/11 R233, R235).
A restartable task's storer writes shadow frames only (spec/12 R267). -/
def execStorerPull (s : State) : Out :=
  let i := s.input
  let s := s.focus i.core
  .next (match s.core.subs[i.idx]? with
    | none => s
    | some x =>
      if x.dir ≠ .out || !x.accepted || x.paused.isSome || s.saving x.ctx || !x.takes || x.slots.getD x.slot .owned ≠ .draining then s
      else
        let va := x.va x.off
        let me := s.core.id
        let off := x.ring + x.slot * x.slotsz + x.off
        let (g, t) := s.granuleAt me false false (.spad me off)
        if i.flag then s.failSub x .hwUncorr (spadVa off)
        else if isPoison t then s.failSub x .poison (spadVa off)
        else if s.subInView x va then s.failSub x .viewOrder (word va)
        else match s.subLoc x .write true va with
          | .error c => s.failSub x c (word va)
          | .ok l =>
            if s.placeViolates x.ctx x.tcb Arch.zero va l then s.failSub x .restartViolation (word va)
            else
              let s := (s.writeAt l 0 (cellsOf 0 64 g.toNat) (some t)).countBarrier x.ctx me (x.sb0 + x.slot) 64
              let s := s.onSub x.sb0 (fun y => { y with off := y.off + 64 })
              if x.off + 64 = x.nrow * x.rowlen then s.tileDone x .owned else s)

/-! ### Verified transfer (spec/11 R237, R238) -/

/-- The rows as they arrive: the first word of the first row with the bits that the link flipped. -/
def flipRows (mask : BitVec 32) : List Vec → List Vec
  | [] => []
  | r :: rest => (r ^^^ mask.zeroExtend 4096) :: rest

/-- The fold of rows in order (spec/10 R202). -/
def foldRows (rows : List Vec) : Word :=
  ((List.range rows.length).zip rows).foldl (fun f p => f.foldRow p.1 p.2) Folds.zero |>.tf

/-- The granules of a row with the tag that R238 gives. -/
def rowGranuleList (v : Vec) : List (Granule × Word) := (List.range 8).map (fun j => (v.granule j, tagF32One))

/-- The receiving die of a send (spec/11 R238). -/
def State.receiver (s : State) (l : Loc) : Nat :=
  match l with
  | .spad c _ => dieOf c
  | .phys pa _ => s.servingDie (mdOf pa)

/-- One attempt of a verified transfer (spec/11 R238): the receiving engine folds the rows as they arrive, `mask` being what the links
flipped, and compares; `engine` is the copy engine that served it.
A match lets the rows land, of which `first` to `first` + `count` - 1 do in this event, or all when `count` is 0. -/
def State.receive (q : CopyQ) (k : CopyCmd) (mask : BitVec 32) (engine first count : Nat) (s : State) : State :=
  match k.kind with
  | .cpys dst stride row0 n tl per rows rq stale sg verified =>
    if stale then s.finishCmd q k (statusWord 0 0 3)
    else
      match sg with
      | none => s
      | some sig =>
        match s.locate s.core.id (s.archOf k.ctx k.tcb) true .write true dst.toNat with
        | .error c => s.stopCmd q k c dst
        | .ok l =>
          let d := s.receiver l
          let e : Engine := ⟨true, none, fun _ => (0, 0), d⟩
          if verified then State.moveSome e q k first count s
          else
            let got := flipRows mask rows
            let sigr := foldRows got
            let code := if sigr = sig then 0 else if k.retry < 3 then 1 else 2
            let rec_ : XferRec := ⟨s.frame.toNat, code, k.retry + 1, pcore s.core.id, d, engine % 16, k.ctx, sig, sigr⟩
            let s := s.onDie d (fun x => { x with xfers := x.xfers.add 4096 rec_ })
            match code with
            | 0 =>
              let k' : CopyCmd := { k with kind := .cpys dst stride row0 n tl per got rq stale sg true, sent := none }
              State.moveSome e q k' first count (s.onCmd q k.id (fun _ => k'))
            | 1 =>
              (s.onCmd q k.id (fun x => { x with retry := x.retry + 1, sent := none })).modCore
                (fun c => { c with err := { c.err with xrt := c.err.xrt + 1 } })
            | _ => s.stopCmd q k .xferSig dst
  | _ => s

/-- CPYS_RECEIVE of command `idx` of queue `queue` of core `core`: `mask` flips bits of the first word on the way, `len` names the
receiving copy engine; of verified rows, granules `first` to `first` + `count` - 1 land, or all when `count` is 0; `fn` 1: the rows
leave and have not arrived yet (spec/05 R122, spec/06 R137, spec/11 R238). -/
def execCpysReceive (s : State) : Out :=
  let i := s.input
  let s := s.focus i.core
  .next (match (s.core.queueOf i.queue)[i.idx]? with
    | none => s
    | some k =>
      if !s.cmdReady i.queue k then s
      else if s.expired k.ctx k.sent then s.expireCmd i.queue i.idx
      else if i.fn = 1 then s.sendCmd i.queue k
      else s.receive i.queue k i.mask i.len i.first i.count)

/-! ### Publication (spec/06 R136, spec/11 R236) -/

/-- The pages of a buffer from an address on, each whole and publishable, or the fault (spec/11 R236).
The fuel is the number of smallest pages. -/
def State.publPages (s : State) (ctx first last : Nat) : Nat → Nat → List (Nat × Nat × Word) →
    Except (Cause × Word) (List (Nat × Nat × Word))
  | 0, _, acc => .ok acc
  | n + 1, va, acc =>
    if last ≤ va then .ok acc
    else match s.leaf? (dieOf s.core.id) ctx va with
      | none => .error (.page, word va)
      | some (e, z) =>
        let base := va / z * z
        if base < first || last < base + z then .error (.badShape, word va)
        else if !ptePub e then .error (.prot, word va)
        else s.publPages ctx first last n (base + z) (acc ++ [(base, z, e)])

/-- Change SEL of a page in a replica: every entry of its group or pair (spec/05 R100, R101, spec/06 R136). -/
def swapPage (va size : Nat) (r : Tbl Word) : Tbl Word :=
  let unit := if size = 2 ^ 30 then 2 ^ 29 else 2 ^ 16
  (List.range (size / unit)).foldl (fun r i =>
    match walk r (va + i * unit) with
    | some l => tblPut r l.at_ (l.pte ^^^ 0x400#64)
    | none => r) r

/-- Change every outstanding write of every core. -/
def State.onWrites (f : MemReq → MemReq) (s : State) : State :=
  let g (c : Core) : Core := { c with outq := c.outq.map f }
  { s with core := g s.core, others := s.others.map (fun c => (c.1, g c.2)) }

/-- Whether an outstanding write of a context was translated by a page. -/
def MemReq.onPage (ctx : Nat) (p : Nat × Nat × Word) (r : MemReq) : Bool :=
  r.ctx == ctx && decide (p.1 ≤ r.tva ∧ r.tva < p.1 + p.2.1)

/-- Swap SEL of a page for every observer: replicas change, TLB entries of it go, and the lines of the newly visible frame
leave every die's read cache; accesses translated with the old SEL are marked (spec/06 R136). -/
def State.swapSel (ctx : Nat) (p : Nat × Nat × Word) (s : State) : State :=
  let fresh := leafPa p.2.2 p.2.1 p.1 true
  let s := s.onCtx ctx (fun c => { c with replicas := c.replicas.map (fun r => (r.1, swapPage p.1 p.2.1 r.2)) })
  let s := (List.range 8).foldl (fun s d =>
    s.flushTlbs d (fun t => t.ctx = ctx && t.base < p.1 + p.2.1 && p.1 < t.base + t.size)) s
  let s : State := { s with dies := s.dies.map (fun d =>
      { d with cache := d.cache.filter (fun l => !(fresh ≤ l.pa * 64 && l.pa * 64 < fresh + p.2.1)) }) }
  s.onWrites (fun r => if r.onPage ctx p then { r with oldSel := true } else r)

/-- Whether a publication has waited for what comes before it: every earlier access of the core performed at its scope, and every write
of a command or a drain of the core to the buffer performed (spec/06 R136, spec/11 R236). -/
def State.publReady (s : State) (k : CopyCmd) (va len : Nat) (sc : Scope) : Bool :=
  s.core.performedBefore k.id sc &&
  s.core.outq.all (fun r => !((r.cmd.isSome || r.drain.isSome) && r.ctx == k.ctx && decide (va ≤ r.tva ∧ r.tva < va + len)))

/-- Whether accesses to a buffer that were translated with the old SEL have still to be performed (spec/06 R136). -/
def State.oldAccesses (s : State) (ctx va len : Nat) : Bool :=
  s.coreIds.any (fun c => (s.getCore c).outq.any (fun r => r.oldSel && r.ctx == ctx && decide (va ≤ r.tva ∧ r.tva < va + len)))

/-- The end of a publication that has swapped its pages, once every access translated before is performed (spec/06 R136). -/
def State.publEnd (q : CopyQ) (k : CopyCmd) (va len : Nat) (s : State) : State :=
  if s.oldAccesses k.ctx va len then s else s.finishCmd q k (statusWord 0 0 0)

/-- PUBL_SWAP of command `idx` of queue `queue` of core `core`: the swap, and the completion once it may be (spec/06 R136,
spec/11 R236). -/
def execPublSwap (s : State) : Out :=
  let i := s.input
  let s := s.focus i.core
  .next (match (s.core.queueOf i.queue)[i.idx]? with
    | none => s
    | some k =>
      match k.kind with
      | .publ va len sc =>
        if k.done = 1 then s.publEnd i.queue k va.toNat len
        else if !s.cmdReady i.queue k || !s.publReady k va.toNat len sc then s
        else match s.publPages k.ctx va.toNat (va.toNat + len) (len / 65536) va.toNat [] with
          | .error (c, x) => s.stopCmd i.queue k c x
          | .ok ps => ((ps.foldl (fun s p => s.swapSel k.ctx p) s).takeEffect i.queue k).publEnd i.queue k va.toNat len
      | _ => s)

/-! ### Peers and collectives (spec/11 R239 to R241) -/

/-- The places in an export window that granules of a peer name (spec/11 R239). -/
def State.exported (s : State) (c : Context) (p : PeerReq) : List (Loc × Granule × Word) :=
  ((List.range p.data.length).zip p.data).filterMap (fun x =>
    match s.physLoc [] (s.ctxDie p.ctx) p.ctx .write true (c.exportWin.1 + p.off + 64 * x.1) with
    | .ok l => some (l, x.2)
    | .error _ => none)

/-- PEER_REQUEST: whole granules from another package land at the export window's base plus offset, or are combined there
when the request is an ACC; beyond the window nothing is written, and an ACC that meets a poisoned granule combines nothing and is
answered so (spec/11 R228, R239). -/
def execPeerRequest (s : State) : Out :=
  let p := s.input.peer
  .next (match s.ctx? p.ctx with
    | none => s
    | some c =>
      if c.exportWin.2 < p.off + 64 * p.data.length then s
      else
        let xs := s.exported c p
        match p.acc with
        | none => xs.foldl (fun s x => s.writeAt x.1 0 (cellsOf 0 64 x.2.1.toNat) (some x.2.2)) s
        | some o =>
          if xs.any (fun x => isPoison (s.granuleAt 0 false false x.1).2) then s
          else xs.foldl (fun s x =>
            s.writeAt x.1 0 (cellsOf 0 64 (accBytes o 64 (s.granuleAt 0 false false x.1).1.toNat x.2.1.toNat)) none) s)

/-- Bits of a collective's element. -/
def collBits : CollOp → Nat
  | .addI64 => 64
  | _ => 32

/-- One reduced element (spec/11 R241). -/
def collElem (o : CollOp) (xs : List Nat) : Nat :=
  match o with
  | .addF32 => (exactSum (xs.map num32)).toNat
  | .addI32 => (xs.foldl (fun a x => a + x) 0) % 2 ^ 32
  | .addI64 => (xs.foldl (fun a x => a + x) 0) % 2 ^ 64
  | .maxF32 => match xs with
    | [] => 0
    | x :: rest => rest.foldl (fun a y => f32.round .rne (ExtNum.max (num32 a) (num32 y))) x
  | .minF32 => match xs with
    | [] => 0
    | x :: rest => rest.foldl (fun a y => f32.round .rne (ExtNum.min (num32 a) (num32 y))) x

/-- One reduced granule: its tag is that of rank 0 (spec/11 R241). -/
def collGranule (o : CollOp) (gs : List (Granule × Word)) : Granule × Word :=
  let w := collBits o
  let x := (List.range (512 / w)).foldl (fun acc i =>
    acc + collElem o (gs.map (fun g => g.1.toNat / 2 ^ (w * i) % 2 ^ w)) * 2 ^ (w * i)) 0
  (BitVec.ofNat 512 x, (gs.headD (0, 0)).2)

/-- The destination's granules of a collective, from every rank's contribution (spec/11 R240): all-reduce and reduce-scatter
reduce `n` granules, the latter from granule rank × n on; all-gather joins. -/
def collResult (k : CollKind) (o : CollOp) (rank n : Nat) (all : List (List (Granule × Word))) : List (Granule × Word) :=
  match k with
  | .ag => all.flatMap (fun x => x.take n)
  | .ar => (List.range n).map (fun j => collGranule o (all.map (fun x => x.getD j (0, 0))))
  | .rs => (List.range n).map (fun j => collGranule o (all.map (fun x => x.getD (rank * n + j) (0, 0))))

/-- The first of a collective's granules that lies outside the user-data window, or in a declared tile of its task, as a fault; those
within BYTES were tested at issue, the others when the number of participants is known (spec/11 R221, R240, spec/12 R256; log 79). -/
def Arch.collRange (a : Arch) (vas : List Nat) : Option (Cause × Word) :=
  match vas.find? (fun va => windowOf va != .user) with
  | some va => some (.prot, word va)
  | none => (vas.find? (fun va => a.hitsView va 64)).map (fun va => (.viewOrder, word va))

/-- The VAs of n granules. -/
def granulesFrom (va n : Nat) : List Nat := (List.range n).map (fun j => va + 64 * j)

/-- The places of a collective's destination: pages with PUB, their shadow frames (spec/06 R136, spec/11 R240). -/
def State.collDest (s : State) (k : CopyCmd) (dst n : Nat) : Except (Cause × Word) (List Loc) :=
  let a := s.archOf k.ctx k.tcb
  let vas := granulesFrom dst n
  match a.collRange vas with
  | some e => .error e
  | none =>
    match s.locateAll s.core.id a false .write true vas with
    | .error e => .error e
    | .ok locs =>
      match (vas.zip locs).find? (fun p =>
          match p.2 with
          | .phys _ e => !ptePub e
          | .spad _ _ => true) with
      | some p => .error (.prot, word p.1)
      | none => .ok locs

/-- The source of a collective, with the state after its reads, or the fault; `broken` numbers a granule whose read is uncorrectable
(spec/05 R123, spec/11 R222, R240). -/
def State.collSource (s : State) (a : Arch) (vas : List Nat) (broken : Option Nat) :
    Except (Cause × Word × State) (List (Granule × Word) × State) :=
  match a.collRange vas with
  | some (c, x) => .error (c, x, s)
  | none =>
    match s.readSources a false broken ((List.range vas.length).zip vas) with
    | .error e => .error e
    | .ok (xs, s) =>
      match (vas.zip xs).find? (fun p => isPoison p.2.2.2) with
      | some p => .error (.poison, word p.1, s)
      | none => .ok (xs.map Prod.snd, s)

/-- Write granules to shadow frames at home; no read cache serves them (spec/06 R136). -/
def State.writeAll (locs : List Loc) (gs : List (Granule × Word)) (s : State) : State :=
  (locs.zip gs).foldl (fun s p => s.writeAt p.1 0 (cellsOf 0 64 p.2.1.toNat) (some p.2.2)) s

/-- COLL_COMPLETE of command `idx` of queue `queue` of core `core`: its group has `count` participants, this package has rank
`first`, and `others` holds the other ranks' source granules in rank order; `flag2`: the read of source granule `off` is uncorrectable
(spec/05 R123, spec/11 R240, R241). -/
def execCollComplete (s : State) : Out :=
  let i := s.input
  let s := s.focus i.core
  .next (match (s.core.queueOf i.queue)[i.idx]? with
    | none => s
    | some k =>
      match k.kind with
      | .coll kind o dst src _ bytes left =>
        if !s.cmdReady i.queue k || i.others.length + 1 ≠ i.count || decide (i.count ≤ i.first) ||
            decide (k.ticks + left ≤ s.frame.toNat) ||
            !s.core.engineRoom || !s.placesReady i.queue k (s.cmdTouches i.queue k) then s
        else
          let n := bytes / 64
          let nsrc := if kind = .rs then n * i.count else n
          let ndst := if kind = .ag then n * i.count else n
          match s.collSource (s.archOf k.ctx k.tcb) (granulesFrom src.toNat nsrc) (if i.flag2 then some i.off else none) with
          | .error (c, x, s) => s.stopCmd i.queue k c x
          | .ok (mine, s) =>
            match s.collDest k dst.toNat ndst with
            | .error (c, x) => s.stopCmd i.queue k c x
            | .ok dlocs =>
              let all := i.others.take i.first ++ [mine] ++ i.others.drop i.first
              let s := s.writeAll dlocs (collResult kind o i.first n all)
              let s := s.onTaskArch k.ctx k.tcb (fun a => { a with credit := a.credit - 64 * ndst })
              s.finishCmd i.queue k (statusWord (64 * ndst) 0 0)
      | _ => s)

/-- COLL_TIMEOUT of command `idx` of queue `queue` of core `core`: its TIMEOUT has elapsed, or `flag` says that a port failed or a
participant ended; the token fills with PARTIAL, whose COUNT the spec leaves open, and the shadow frames hold free values
(spec/11 R241, log 5). -/
def execCollTimeout (s : State) : Out :=
  let i := s.input
  let s := s.focus i.core
  .next (match (s.core.queueOf i.queue)[i.idx]? with
    | none => s
    | some k =>
      match k.kind with
      | .coll kind _ dst _ _ bytes left =>
        if !k.out || (decide (s.frame.toNat < k.ticks + left) && !i.flag) then s
        else
          let n := if kind = .ag then bytes / 64 * max 1 i.count else bytes / 64
          let f := s.free
          let s := { s with free := f + n + 1 }
          let s := match s.collDest k dst.toNat n with
            | .error _ => s
            | .ok locs => s.writeAll locs ((List.range n).map (fun j => (Config.freeGranule (f + j), Config.freeWord (f + j))))
          s.finishCmd i.queue k (statusWord (Config.freeWord (f + n)).toNat 0 1)
      | _ => s)

end Sys2Proof.Machine
end

