-- ==== Sys2Proof/Machine/Tasks.lean ====
section
/-!
DEFINITION. The scheduler's picks, views and their places, dispatch, suspension, resumption and inline runs (spec/12 R243 to
R265, spec/15 R318).
-/
set_option linter.unusedVariables false

namespace Sys2Proof.Machine

/-- The running task's record. -/
def State.me? (s : State) : Option Task := s.task? s.core.a.ctx s.core.a.tcb

/-! ### Picks (spec/12 R249 to R251) -/

/-- eprio (spec/12 R251). -/
def eprio (frame age : Nat) (t : Task) : Nat := tcbPrio t.snap - (frame - t.readySince) / max 1 age

/-- The second part of a key: TICK, if valid (spec/12 R251). -/
def tickKey (t : Task) : Nat := if tcbTickv t.snap then tcbTick t.snap else 0

/-- AGE of a context (spec/12 R251). -/
def State.ageOf (s : State) (ctx : Nat) : Nat := ((s.ctx? ctx).map (fun c => c.age)).getD 100000

/-- Whether a core may run a READY task: its context is not pre-empted and its replica on the core's die is current, the core is in service
and not excluded for it, and no covered program comes to a core in single-path mode, unless the task already ran there
(spec/05 R106, spec/10 R212, R213, spec/12 R268). -/
def State.placeable (s : State) (c : Nat) (t : Task) : Bool :=
  t.st == .ready && ((s.ctx? t.ctx).map (fun x => x.preempt.isNone && !x.stale.contains (dieOf c))).getD false && !(s.getCore c).outOfService &&
  !t.excluded.contains c &&
  (t.saved.isSome || !(s.getCore c).sp || ((s.ctx? t.ctx).map (fun x => x.prog.coverage == 0)).getD true)

/-- Whether the scheduler may dispatch a task to a core now: its TICK has released it too (spec/12 R251). -/
def State.dispatchable (s : State) (c : Nat) (t : Task) : Bool :=
  s.placeable c t && (!tcbTickv t.snap || decide (tcbTick t.snap ≤ s.frame.toNat))

/-- A queue's entries. -/
def State.queueAt (s : State) : QueueRef → List QEntry
  | .core c => (s.getCore c).queue
  | .die d => (s.die d).queue

/-- Remove an entry from a queue. -/
def State.unqueue (q : QueueRef) (e : QEntry) (s : State) : State :=
  match q with
  | .core c => s.onCore c (fun x => { x with queue := x.queue.filter (fun y => y ≠ e) })
  | .die d => s.onDie d (fun x => { x with queue := x.queue.filter (fun y => y ≠ e) })

/-- Whether entry x comes before entry y: the lesser key, and among equals the younger or the older (spec/12 R251). -/
def before (youngest : Bool) (x y : QEntry × Nat × Nat) : Bool :=
  decide (x.2.1 < y.2.1) || (x.2.1 == y.2.1 && (decide (x.2.2 < y.2.2) || (x.2.2 == y.2.2 &&
    (if youngest then decide (y.1.seq < x.1.seq) else decide (x.1.seq < y.1.seq)))))

/-- The entry of a list that comes first. -/
def firstOf (youngest : Bool) : List (QEntry × Nat × Nat) → Option QEntry
  | [] => none
  | x :: rest => some ((rest.foldl (fun b y => if before youngest y b then y else b) x).1)

/-- The entries of a queue whose tasks a predicate names, with their tasks. -/
def State.entries (s : State) (ok : Task → Bool) (q : QueueRef) : List (QEntry × Task) :=
  (s.queueAt q).filterMap (fun e => (s.task? e.ctx e.tcb).bind (fun t => if ok t then some (e, t) else none))

/-- The dispatchable entries of a queue for a core, with their keys. -/
def State.cands (s : State) (c : Nat) (ok : Task → Bool) (q : QueueRef) : List (QEntry × Nat × Nat) :=
  (s.entries (fun t => s.dispatchable c t && ok t) q).map (fun x =>
    (x.1, eprio s.frame.toNat (s.ageOf x.1.ctx) x.2, tickKey x.2))

/-- The contexts that bind a core. -/
def State.boundTo (s : State) (c : Nat) : List Context := s.ctxs.filter (fun x => (x.vOf c).isSome)

/-- The queues from which a core steals, in order (spec/12 R251). -/
def State.stealOrder (s : State) (c : Nat) : List (Nat × QueueRef) :=
  (List.range 5).flatMap (fun d => (s.boundTo c).flatMap (fun x =>
    x.bind.flatMap (fun b =>
      if dieHops (dieOf c) b.1 ≠ d then []
      else (if b.1 = dieOf c then [] else [(x.num, QueueRef.die b.1)]) ++
        (b.2.filter (fun k => k ≠ c)).map (fun k => (x.num, QueueRef.core k)))))

/-- The pick of a core that is free (spec/12 R251). -/
def State.pick (s : State) (c : Nat) : Option (QueueRef × QEntry) :=
  match firstOf true (s.cands c (fun _ => true) (.core c)) with
  | some e => some (.core c, e)
  | none =>
    let mine (t : Task) : Bool := (s.boundTo c).any (fun x => x.num = t.ctx)
    match firstOf false (s.cands c mine (.die (dieOf c))) with
    | some e => some (.die (dieOf c), e)
    | none => (s.stealOrder c).findSome? (fun q =>
        (firstOf false (s.cands c (fun t => t.pinned.isNone && t.ctx = q.1) q.2)).map (fun e => (q.2, e)))

/-- The child that a JOIN of a core's task runs inline: the READY one of the highest spawn index among those in the core's local queue
or its die's queue that are not pinned (spec/12 R261). -/
def State.joinChildOf (s : State) (c : Nat) : Option (QueueRef × QEntry) :=
  let a := (s.getCore c).a
  let mine (t : Task) : Bool := s.placeable c t && t.ctx = a.ctx && t.parent == some a.tcb && t.pinned.isNone
  let all := ([QueueRef.core c, .die (dieOf c)]).flatMap (fun q => (s.entries mine q).map (fun x => (q, x.1, x.2.spidx)))
  (all.foldl (fun (b : Option (QueueRef × QEntry × Nat)) x =>
    match b with
    | none => some x
    | some y => if y.2.2 < x.2.2 then some x else some y) none).map (fun x => (x.1, x.2.1))

/-- The same for the acting core. -/
def State.joinChild (s : State) : Option (QueueRef × QEntry) := s.joinChildOf s.core.id

/-- The task that a RUNINL with no TCB takes: the youngest READY, unpinned one with INL in the core's local queue
(spec/12 R265). -/
def State.inlTask (s : State) : Option QEntry :=
  let xs := s.entries (fun t => s.placeable s.core.id t && t.pinned.isNone && tcbInl t.snap) (.core s.core.id)
  (xs.foldl (fun (b : Option QEntry) x =>
    match b with
    | none => some x.1
    | some y => if y.seq < x.1.seq then some x.1 else some y) none)

/-- Whether a core may take a task: free, in service, and on a die that dispatches (spec/05 R106, spec/10 R212, R213). -/
def State.mayPickOn (s : State) (n : Nat) : Bool :=
  let c := s.getCore n
  !c.busy && !c.outOfService && c.inl.isEmpty && c.arbit.isNone && !(s.die (dieOf n)).inReset &&
  (s.boundTo n).any (fun x => x.preempt.isNone && !x.stale.contains (dieOf n))

/-- What a core pops in the coming cycle of the schedulers: the child of a JOIN that waits, or the pick of a core that is free. -/
def State.pops (s : State) (n : Nat) : Option (QueueRef × QEntry) :=
  match (s.getCore n).a.block with
  | some (.join _ _ _) => if (s.getCore n).busy then s.joinChildOf n else none
  | _ => if s.mayPickOn n then s.pick n else none

/-- The place of a core among those that pop from a queue in one cycle: the pops of the cores that the queue serves, those of JOIN
first, come before steals; then the lower vdie and the lower vcore (spec/12 R250). -/
def State.popRank (s : State) (ctx : Nat) (q : QueueRef) (n : Nat) : Nat :=
  let serves := match q with
    | .core c => c == n
    | .die d => d == dieOf n
  let cls := if !serves then 2 else match (s.getCore n).a.block with
    | some (.join _ _ _) => 0
    | _ => 1
  let v := ((s.ctx? ctx).bind (fun c => c.vOf n)).getD (0, 0)
  cls * 2 ^ 16 + v.1 * 2 ^ 8 + v.2

/-- Whether another core comes before core `n` in taking an entry of a queue (spec/12 R250). -/
def State.outranked (s : State) (n : Nat) (q : QueueRef) (e : QEntry) : Bool :=
  let cores := ((s.ctx? e.ctx).map (fun c => c.bind.flatMap Prod.snd)).getD []
  cores.any (fun m => m ≠ n && decide (s.popRank e.ctx q m < s.popRank e.ctx q n) && s.pops m == some (q, e))

/-! ### Views and their places (spec/12 R253 to R257, spec/21 R365) -/

/-- The windows of a task part that hold live views of their own: view 0 of an epoch, once frozen, lives in the epoch's blocks
(spec/12 R255, R256). -/
def Arch.liveViews (a : Arch) : List (Nat × ViewWin) := if a.frozen0 then [] else a.views.map (fun w => (a.ctx, w))

/-- The piece that lies at an address as core `me` of a context names it: its own scratchpad, another core's, or the pool. -/
def State.pieceAt (s : State) (me ctx : Nat) (w : ViewWin) (va : Nat) : ViewWin :=
  match windowOf va with
  | .spad off => { w with pool := false, core := me, addr := off }
  | .other vd vc off => { w with pool := false, core := ((s.ctx? ctx).bind (fun c => c.pcoreOf vd vc)).getD me, addr := off }
  | _ => { w with pool := true, addr := va }

/-- The destination of the merge routine that a task part runs, if any. -/
def State.routineDest (s : State) (me : Nat) (a : Arch) : List (Nat × ViewWin) :=
  (a.merging.map (fun m => (a.ctx, s.pieceAt me a.ctx ⟨0, m.2, 0, 0, 0, 0, false, 0, 0⟩ m.1))).toList

/-- The pieces of a block that no combine has consumed: its own result so far, and the tiles that are not combined yet with the block on
its right or its left (spec/12 R255, R259). -/
def Task.liveParts (t : Task) (b : Block') : List ViewWin :=
  let left := ((t.blocks.find? (fun l => l.hi = b.lo)).map (fun l => l.done.length)).getD 0
  b.parts.drop (max left b.done.length) ++ b.done

/-- Every piece of a view that is live: windows of running, spilled and suspended tasks, the blocks of epochs, the destinations that
paused combines keep, and those of merge routines. -/
def State.liveWins (s : State) : List (Nat × ViewWin) :=
  (s.coreIds.flatMap (fun c =>
    let x := s.getCore c
    x.a.liveViews ++ s.routineDest c x.a ++ x.inl.flatMap (fun f => f.a.liveViews))) ++
  s.tasks.flatMap (fun t =>
    ((t.saved.map (fun f => f.a.liveViews)).getD []) ++
      (t.blocks.flatMap (fun b => t.liveParts b ++ b.dest.toList)).map (fun w => (t.ctx, w)))

/-- Whether a context's image holds the scratchpad of a core, so that its pieces are not there any more (spec/15 R323). -/
def State.imaged (s : State) (ctx c : Nat) : Bool :=
  (((s.ctx? ctx).bind (fun x => x.image)).map (fun i => i.cores.any (fun x => x.src = c))).getD false

/-- The pieces in a core's scratchpad, as offset and bytes. -/
def State.spadPieces (s : State) (c : Nat) : List (Nat × Nat) :=
  (s.liveWins.filter (fun x => !x.2.pool && x.2.core = c && !s.imaged x.1 c)).map (fun x => (x.2.addr, x.2.size))

/-- The pieces in a context's pool, as VA and bytes. -/
def State.poolPieces (s : State) (ctx : Nat) : List (Nat × Nat) :=
  (s.liveWins.filter (fun x => x.2.pool && x.1 = ctx)).map (fun x => (x.2.addr, x.2.size))

/-- The lowest offset from a region's start at which n bytes fit beside live pieces (spec/12 R255). -/
def fitAt (start size n : Nat) (live : List (Nat × Nat)) : Option Nat :=
  let free (o : Nat) := o + n ≤ start + size && live.all (fun p => o + n ≤ p.1 || p.1 + p.2 ≤ o)
  ((start :: (live.map (fun p => p.1 + p.2)).filter (fun o => start ≤ o)).filter free).foldl
    (fun (b : Option Nat) o => match b with
      | none => some o
      | some x => some (min x o)) none

/-- The lowest run of pool pages of 64 KiB that holds no live piece (spec/21 R365). -/
def poolAt (start size n : Nat) (live : List (Nat × Nat)) : Option Nat :=
  let need := cdiv n 65536
  ((List.range (size / 65536)).find? (fun k =>
    k + need ≤ size / 65536 &&
      live.all (fun p => start + (k + need) * 65536 ≤ p.1 || p.1 + p.2 ≤ start + k * 65536))).map (fun k => start + k * 65536)

/-- The view space of a context's cores: the plan entry of kind 3 (spec/02 R51, spec/12 R255). -/
def Context.viewSpace (c : Context) : Nat × Nat :=
  ((c.prog.plan.find? (fun e => e.kind = 3)).map (fun e => (e.off, e.size))).getD (0, 0)

/-- Places for pieces, all in a core's view space. -/
def placeSpad (core start size : Nat) : List (Nat × Nat) → List ViewWin → Option (List ViewWin)
  | _, [] => some []
  | live, w :: rest =>
    match fitAt start size w.size live with
    | none => none
    | some o =>
      (placeSpad core start size (live ++ [(o, w.size)]) rest).map
        (fun ws => { w with pool := false, core := core, addr := o } :: ws)

/-- Places for pieces, all in the view pool. -/
def placePool (start size : Nat) : List (Nat × Nat) → List ViewWin → Option (List ViewWin)
  | _, [] => some []
  | live, w :: rest =>
    match poolAt start size w.size live with
    | none => none
    | some o => (placePool start size (live ++ [(o, w.size)]) rest).map (fun ws => { w with pool := true, addr := o } :: ws)

/-- Places for pieces on a core: its view space, if they total at most 256 KiB and all fit, else the pool (spec/12 R255). -/
def State.place (s : State) (c : Context) (core : Nat) (ws : List ViewWin) : Option (List ViewWin) :=
  let total := (ws.map (fun w => w.size)).foldl (fun x y => x + y) 0
  let vs := c.viewSpace
  match (if total ≤ 0x40000 then placeSpad core vs.1 vs.2 (s.spadPieces core) ws else none) with
  | some r => some r
  | none => placePool c.viewPool.1 c.viewPool.2 (s.poolPieces c.num) ws

/-- The place of a fresh combine destination: where the left operand lies (spec/12 R259). -/
def State.placeLike (s : State) (c : Context) (w : ViewWin) : Option ViewWin :=
  match (if w.pool then placePool c.viewPool.1 c.viewPool.2 (s.poolPieces c.num) [w] else s.place c w.core [w]) with
  | some [x] => some x
  | _ => none

/-- The identity of a blank as a 64-bit pattern (spec/12 R254). -/
def blankWord (w : ViewWin) : Word :=
  match w.op with
  | 2 => 0x8000000080000000#64
  | 3 => 0x7FFFFFFF7FFFFFFF#64
  | 4 => 0x8000000080000000#64
  | 5 => 0x7F8000007F800000#64
  | 6 => 0xFF800000FF800000#64
  | 7 => BitVec.allOnes 64
  | 15 => w.ident
  | _ => 0

/-- The tag that a view's TYPE gives (spec/12 R253). -/
def typeTag (ty : Nat) : Word := if ty = 1 then tagF32One else 0

/-- A granule that repeats a 64-bit pattern. -/
def repeatWord (x : Word) : Granule :=
  BitVec.ofNat 512 ((List.range 8).foldl (fun acc _ => acc * 2 ^ 64 + x.toNat) 0)

/-- The place of a granule of a piece. -/
def State.pieceLoc (s : State) (ctx : Nat) (k : Acc) (w : ViewWin) (off : Nat) : Except (Cause × Word) Loc :=
  if w.pool then
    match s.physLoc [] (s.ctxDie ctx) ctx k false (w.addr + off) with
    | .ok l => .ok l
    | .error c => .error (c, word (w.addr + off))
  else .ok (.spad w.core (w.addr + off))

/-- Granules written to a piece from an offset on; the fault of an unmapped page comes before any write. -/
def State.writePiece (ctx : Nat) (w : ViewWin) (gs : List (Granule × Word)) (s : State) : Except (Cause × Word) State :=
  let locs := (List.range gs.length).mapM (fun j => s.pieceLoc ctx .write w (64 * j))
  match locs with
  | .error e => .error e
  | .ok ls => .ok ((ls.zip gs).foldl (fun s p => s.writeGranule (s.ctxDie ctx) p.1 p.2.1 p.2.2) s)

/-- A piece made blank (spec/12 R254, R255). -/
def State.fillBlank (ctx : Nat) (w : ViewWin) (s : State) : Except (Cause × Word) State :=
  s.writePiece ctx w (List.replicate (w.size / 64) (repeatWord (blankWord w), typeTag w.ty))

/-- Every piece of a list made blank. -/
def State.fillBlanks (ctx : Nat) : List ViewWin → State → Except (Cause × Word) State
  | [], s => .ok s
  | w :: rest, s =>
    match s.fillBlank ctx w with
    | .error e => .error e
    | .ok s => s.fillBlanks ctx rest

/-- Whether a view-table entry is well formed (spec/12 R253). -/
def entryOk (w : ViewWin) (flags : Nat) : Bool :=
  flags = 1 && w.base % 64 = 0 && decide (w.base + w.size ≤ Config.userEnd) && w.size % 64 = 0 && decide (64 ≤ w.size) &&
  decide (w.size ≤ 2 ^ 24) && (decide (w.op ≤ 9) || w.op = 15) && decide (w.ty ≤ 1) &&
  (if w.op = 15 then w.mergePc.toNat % 32 = 0 else w.mergePc = 0 && w.ident = 0)

/-- The entries in use of a view table, or BAD_SHAPE (spec/12 R253). -/
def parseTable (x : Nat) : Option (List ViewWin) :=
  let f (i off n : Nat) := x / 2 ^ (8 * (32 * i + off)) % 2 ^ (8 * n)
  let used := (List.range 8).filter (fun i => f i 0x0E 2 % 2 = 1)
  let ws := used.map (fun i =>
    (f i 0x0E 2, (⟨f i 0 8, f i 8 4, f i 0x0C 1, f i 0x0D 1, word (f i 0x18 8), word (f i 0x10 8), false, 0, 0⟩ : ViewWin)))
  let clash := (List.range ws.length).any (fun i => (List.range ws.length).any (fun j =>
    decide (i < j) && (match ws[i]?, ws[j]? with
      | some x, some y => decide (x.2.base < y.2.base + y.2.size ∧ y.2.base < x.2.base + x.2.size)
      | _, _ => false)))
  if ws.all (fun w => entryOk w.2 w.1) && !clash then some (ws.map Prod.snd) else none

/-- The view table of a task at dispatch, or the fault raised at slot 0 of the first bundle (spec/12 R253). -/
def State.readTable (s : State) (d ctx views : Nat) : Except (Cause × Word) (List ViewWin) :=
  if !(decide (views + 256 ≤ Config.userEnd)) then .error (.prot, word views)
  else if views % 64 ≠ 0 then .error (.misaligned, word views)
  else
    let read (va : Nat) : Except (Cause × Word) (Granule × Word × Nat) :=
      match s.translate d ctx va .read false with
      | .error c => .error (c, word va)
      | .ok (pa, _) => let g := s.granule pa; .ok (g.1, g.2, va)
    match ((List.range 4).map (fun j => views + 64 * j)).mapM read with
    | .error e => .error e
    | .ok gs =>
      match gs.find? (fun g => isPoison g.2.1) with
      | some g => .error (.poison, word g.2.2)
      | none =>
        match parseTable (joinGranules views 256 (gs.map Prod.fst)) with
        | some ws => .ok ws
        | none => .error (.badShape, word views)

/-- Put the views of the acting core's task in place: its own table's tiles, or those it inherits (spec/12 R253, R255).
The error none says that there is no room. -/
def State.setupViews (s : State) : Except (Option (Cause × Word)) State :=
  let a := s.core.a
  match s.me?, s.ctx? a.ctx with
  | some t, some c =>
    let own := tcbViews t.snap
    match (if own = 0 then .ok t.tiles else s.readTable (dieOf s.core.id) a.ctx own) with
    | .error e => .error (some e)
    | .ok ws =>
      match s.place c s.core.id ws with
      | none => .error none
      | some ws =>
        match s.fillBlanks a.ctx ws with
        | .error e => .error (some e)
        | .ok s =>
          .ok ((s.modA (fun a => { a with views := ws })).onTask a.ctx a.tcb (fun t =>
            { t with tiles := ws, declares := own != 0 && !ws.isEmpty }))
  | _, _ => .ok s

/-! ### Dispatch (spec/12 R243) -/

/-- Segments at dispatch (spec/07 R152). -/
def dispatchSegs (c : Context) (snap : BitVec 1024) : Vector Seg 16 :=
  let n := if tcbSegn snap = 0 then c.prog.segOn else tcbSegn snap
  Vector.ofFn (fun i : Fin 16 =>
    if i.val < n then .on else match c.prog.segRest with
      | .retain => .retain
      | .off => .off)

/-- The registers of a list set. -/
def setRegs : List (Reg × Word) → Vector Word 32 → Vector Word 32
  | [], v => v
  | (r, x) :: rest, v => setRegs rest (v.set r x)

/-- The state with which dispatch starts a task (spec/12 R243).
Segments that it leaves RETAIN hold zero with RAW tags, as those that it turns ON do (log 109). -/
def freshArch (c : Context) (snap : BitVec 1024) (tcb : Word) (prio : Nat) : Arch :=
  { Arch.zero with
    s := setRegs [(1, tcbArg snap 0), (2, tcbArg snap 1), (3, tcbArg snap 2), (4, tcbArg snap 3), (5, tcb)] Arch.zero.s,
    utvec := tcbUvec snap, ctx := c.num, tcb := tcb, level := c.prog.coverage, prio := prio,
    segs := dispatchSegs c snap, pc := tcbEntry snap,
    barBase := ((c.prog.plan.find? (fun e => e.kind = 2)).map (fun e => e.off)).getD Config.barrierBase }

/-- The first poisoned granule among those that n bytes at a VA of a context touch, as the device reads them at home (spec/03 R57). -/
def State.poisonIn (s : State) (ctx va n : Nat) : Option Word :=
  ((granuleVas va n).find? (fun x => match s.leaf? (s.ctxDie ctx) ctx x with
    | some (e, z) => isPoison (s.granule (leafPa e z x false)).2
    | none => false)).map (fun x => word (x / 64 * 64))

/-- The snapshot that a dispatch takes is kept with the capture of its launch (spec/12 R243, spec/16 R334). -/
def State.keepSnap (launch : Nat) (tcb : Word) (x : BitVec 1024) (s : State) : State :=
  match s.launches.find? (fun l => l.num = launch && l.capture) with
  | none => s
  | some l => { s with captures := s.captures.map (fun (c : CaptureSt) =>
      if c.stream = l.stream then { c with snaps := c.snaps ++ [(tcb, x)] } else c) }

/-- Start a task on the acting core, which has none running; none: its views have no room, and dispatch waits
(spec/12 R243, R253, R255).
A restarted task starts from the snapshot of its first dispatch (spec/12 R268); the read of a poisoned TCB raises POISON (spec/03 R57); a fault that the scratchpad's port found while the core
ran no task is the task's (spec/13 R281; log 82). -/
def State.dispatch (ctx : Nat) (tcb : Word) (s : State) : Option State :=
  match s.task? ctx tcb, s.ctx? ctx with
  | some t, some c =>
    let s := s.acquire (if t.parent.isNone then .system else .package)
    let snap := if t.restarts = 0 then
        ((s.readVa (s.ctxDie ctx) ctx tcb.toNat 128).map (BitVec.ofNat 1024)).getD t.snap
      else t.snap
    let pr := eprio s.frame.toNat (s.ageOf ctx) t
    let s := ((s.keepSnap t.launch tcb snap).setTask ctx tcb .running).onTask ctx tcb (fun t =>
      { t with snap := snap, r := t.r || tcbR snap, saved := none, pinned := none, wait := none })
    let s := s.modCore (fun c' => { c' with busy := true, a := { freshArch c snap tcb pr with deferred := c'.a.deferred }, watch := 0 })
    let e := (tcbEntry snap).toNat
    let u := (tcbUvec snap).toNat
    if let some x := (if t.restarts = 0 then s.poisonIn ctx tcb.toNat 128 else none) then some (s.trap 0 .poison x false (word e))
    else if e % 32 ≠ 0 then some (s.trap 0 .misaligned (word e) false (word e))
    else if u % 32 ≠ 0 then some (s.trap 0 .misaligned (word u) false (word e))
    else match s.setupViews with
      | .ok s => some s
      | .error (some (c, x)) => some (s.trap 0 c x false (word e))
      | .error none => none
  | _, _ => some s

/-! ### Suspension, spilling and resumption (spec/02 R52, spec/12 R263, spec/15 R318) -/

/-- A live mask of its 16 bytes (spec/02 R52). -/
def LiveMask.ofBits (x : BitVec 128) : LiveMask :=
  let f (lo n : Nat) : Nat := x.toNat / 2 ^ lo % 2 ^ n
  { s := BitVec.ofNat 32 (f 0 32), p := BitVec.ofNat 8 (f 32 8), m := BitVec.ofNat 8 (f 40 8), g := BitVec.ofNat 12 (f 48 12),
    v := BitVec.ofNat 32 (f 64 32), k := f 96 1 == 1, acc := BitVec.ofNat 4 (f 97 4), q := f 101 1 == 1, seg := BitVec.ofNat 16 (f 104 16) }

/-- The live mask that a program's tables give the bundle at an address, if it has a safe-point entry: bits [31:0] of an entry hold the
bundle's index in text, bits [47:32] its mask's (spec/02 R52). -/
def Program.maskAt (p : Program) (pc : Nat) : Option LiveMask :=
  if pc < p.loadva then none
  else (p.safe.find? (fun e => bits e 31 0 = (pc - p.loadva) / 32)).bind (fun e => (p.live[bits e 47 32]?).map LiveMask.ofBits)

/-- The live mask of the safe point at which a task stands, if its program has one (spec/02 R52). -/
def State.liveMask (s : State) : Option LiveMask :=
  (s.ctx? s.core.a.ctx).bind (fun c => Program.maskAt c.prog s.core.a.pc.toNat)

/-- What a task finds when it resumes: registers, tiles and segments that the mask does not name hold free values from number
`n` on (spec/02 R52; log 5).
A tile that is left out holds the same free rows in both paths, and the full or empty bit of a register that is left out stays (log 110).
The ports are always saved, whatever the mask says of them (spec/07 R146). -/
def Arch.masked (m : LiveMask) (n : Nat) (a : Arch) : Arch :=
  { a with
    s := Vector.ofFn (fun i : Fin 32 => if bitOf m.s i then a.s[i] else Config.freeWord (n + i)),
    p := (a.p &&& m.p) ||| ((Config.freeWord (n + 32)).setWidth 8 &&& ~~~m.p),
    v := Vector.ofFn (fun i : Fin 32 => if bitOf m.v i then a.v[i] else Config.freeVec (n + i)),
    q := if m.q then a.q else Vector.ofFn (fun i : Fin 16 => Config.freeVec (n + 32 + i)),
    m := Vector.ofFn (fun i : Fin 8 => if bitOf m.m i then a.m[i] else (Config.freeVec (n + 48 + i)).setWidth 128),
    k := if m.k then a.k else (Config.freeWord (n + 33)).setWidth 32,
    tiles := Vector.ofFn (fun i : Fin 4 =>
      if bitOf m.acc i then a.tiles[i]
      else
        let rows := (List.range 128).map (fun r => (r, Config.freeVec (n + 64 + 128 * i + r)))
        { a.tiles[i] with p := rows, q := rows }),
    vrf := (List.range 16).foldl (fun t j =>
      if bitOf m.seg j || (a.segs.getD j .off) == .off then t
      else (List.range 256).foldl (fun t i => tblPut t (256 * j + i) (Config.freeVec (n + 600 + 256 * j + i))) t) a.vrf,
    vrfTags := (List.range 16).foldl (fun t j =>
      if bitOf m.seg j || (a.segs.getD j .off) == .off then t
      else (List.range 2048).foldl (fun t i => cellSet 0 t (2048 * j + i) (Config.freeWord (n + 100 + 2048 * j + i))) t)
      a.vrfTags }

/-- Free values that a masked frame uses. -/
def maskedCount : Nat := 40000

/-- What a task takes with it when it leaves its core: pier entries behind a fault or an order, accesses to be sent again, and writes
that were held after they had left the pier (spec/05 R109, spec/15 R318, R320). -/
def Core.carried (c : Core) : Arch :=
  { c.a with heldPier := c.pier,
             memq := (c.a.memq ++ c.outq.filter (fun r => r.cmd.isNone)).map (fun (r : MemReq) => { r with held := true }) }

/-- The spill area of a context's cores: the plan entry of kind 4 (spec/02 R51, spec/12 R263). -/
def Context.spillArea (c : Context) : Option (Nat × Nat) := (c.prog.plan.find? (fun e => e.kind = 4)).map (fun e => (e.off, e.size))

/-- The spill area that a frame of the acting core's task goes to: that of its program, for a frame that a live mask describes
(spec/02 R52, spec/12 R263). -/
def State.spillTo (s : State) : Option (Nat × Nat) :=
  if s.liveMask.isNone then none else (s.ctx? s.core.a.ctx).bind Context.spillArea

/-- Whether the spill area lacks room for a frame: the spec gives a frame no size, and the environment says by bit 1 of the input's mask
when the area is full (spec/12 R263; log 83). -/
def State.spillFull (s : State) : Bool := s.spillTo.isSome && bitOf s.input.mask 1

/-- Cells of a memory with n bytes from an address on replaced. -/
def cellsReplace (m : List (Nat × Byte)) (lo n : Nat) (f : Nat → Byte) : List (Nat × Byte) :=
  cellSets 0 (m.filter (fun c => c.1 < lo || lo + n ≤ c.1)) ((List.range n).map (fun i => (lo + i, f i)))

/-- A frame is written to the spill area; its layout is open, so that the area's bytes are free values (spec/12 R263; log 83). -/
def State.writeSpill (s : State) : State :=
  match s.spillTo with
  | none => s
  | some (off, n) =>
    let k := s.free
    { s.modCore (fun c => { c with spad := cellsReplace c.spad off n (fun i => (Config.freeWord (k + i)).setWidth 8) }) with free := k + n }

/-- The context's fault-frame pool, if a frame of the acting core's task goes there: a whole frame, or what a live mask names of tiles and
segments (spec/02 R52, spec/12 R263, spec/15 R318). -/
def State.poolTo (full : Bool) (s : State) : Option (Nat × Nat) :=
  let big := ((if full then none else s.liveMask).map (fun m => m.acc != 0 || m.seg != 0)).getD true
  (s.ctx? s.core.a.ctx).bind (fun c =>
    if big && c.faultPool.2 ≠ 0 && s.populatedPage c.faultPool.1 c.faultPool.2 then some c.faultPool else none)

/-- Whether the fault-frame pool lacks room for a frame: the environment says so by bit 2 of the input's mask (spec/13 R288, spec/16 R332;
log 83). -/
def State.poolFull (full : Bool) (s : State) : Bool := (s.poolTo full).isSome && bitOf s.input.mask 2

/-- What a frame puts into the context's fault-frame pool: its layout is open, so that the pool's bytes are free values (spec/02 R52,
spec/15 R318; log 83). -/
def State.writePool (full : Bool) (s : State) : State :=
  match s.poolTo full with
  | none => s
  | some (pa, n) =>
    let k := s.free
    { s.writePhys ((List.range n).map (fun i => (pa + i, Config.freeByte (k + i)))) [] with free := k + n }

/-- The kind of the resource that a frame finds used up, if any: the spill area or the fault-frame pool (spec/13 R288, spec/16 R332). -/
def State.noRoom (full : Bool) (s : State) : Option Nat :=
  if !full && s.spillFull then some 7 else if s.poolFull full then some 8 else none

/-- The frame of the acting core's task: the whole state, or what the safe point's live mask names (spec/05 R109, spec/12 R263,
spec/15 R318).
A segment that is WAKING keeps its state and the bundles that are left: the spec restores it ON for a pre-emption only (spec/07 R152;
log 84). -/
def State.frameOf (full : Bool) (s : State) : Frame × State :=
  let a := s.core.carried
  match (if full then none else s.liveMask) with
  | none => (⟨a, !full, none⟩, s.writePool full)
  | some m => (⟨a.masked m s.free, true, some m⟩, ({ s with free := s.free + maskedCount }.writeSpill).writePool full)

/-- Whether a core's task can leave it: every tile is CLEAN, the engine has stopped, every check is known, no pier entry can
leave and every store is acknowledged or held (spec/10 R208, spec/12 R263, spec/14 R291). -/
def Core.quiet (c : Core) : Bool :=
  c.a.clean && c.arbit.isNone && c.a.checks.isEmpty && c.headLeaves.isNone && c.outq.all (fun r => r.held || r.cmd.isSome) &&
  (match c.a.eng with
   | .idle => c.a.routine.isNone || !c.a.deferred.isEmpty || (match c.a.block with
      | some (.suspend _) => true
      | _ => false)
   | .tokens _ => true
   | _ => false)

/-- A task that a wait suspends becomes READY at once when its reason has passed (spec/12 R261, R264, spec/13 R286). -/
def State.waitOver (s : State) (ctx : Nat) (tcb : Word) : Wait → Bool
  | .yielded => true
  | .join _ _ => ((s.task? ctx tcb).map (fun t => t.npend == 0)).getD true
  | .child t _ => (s.task? ctx t).isNone
  | _ => false

/-- Whether a future's cell is full (spec/13 R284). -/
def State.cellFull (s : State) (ctx : Nat) (va : Word) : Bool :=
  match s.cellPa ctx va with
  | some pa => readNat s.mem (pa + 8) 8 == 1
  | none => false

/-- The suspended tasks that wait for a cell; a cell's list holds 4, and firmware keeps the others (spec/13 R286, R288). -/
def State.cellWaiters (s : State) (ctx : Nat) (va : Word) : Nat :=
  (s.tasks.filter (fun t => t.ctx = ctx && t.st = .suspended && (match t.wait with
    | some (.future _ x _) => x = va
    | _ => false))).length

/-- The acting core's task is suspended and leaves its core; with no room for its frame it waits for the supervisor core, and so does a
task that a RESOURCE trap suspends, for what it lacks (spec/12 R263, spec/13 R288, spec/15 R318).
A cell that has become full meanwhile wakes the task at once, and one that is poisoned gives it the fault (spec/03 R57, spec/13 R286). -/
def State.suspendNow (w : Wait) (s : State) : State :=
  let ctx := s.core.a.ctx
  let tcb := s.core.a.tcb
  let full := match w with
    | .page _ | .resource _ => true
    | _ => false
  match s.noRoom full with
  | some k => s.askFor k ctx tcb
  | none =>
  let s := s.leaveCluster
  let (f, s) := s.frameOf full
  let s := (s.setTask ctx tcb .suspended).onTask ctx tcb (fun t =>
    { t with saved := some f, wait := some w, pinned := some s.core.id })
  let s := s.modCore Core.freed
  let s := s.leaveInline tcb s.core.inl.length
  match w with
  | .future d va _ =>
    if let some x := s.poisonIn ctx va.toNat 16 then (s.deferFor ctx tcb .poison x).readyPinned ctx tcb
    else if s.cellFull ctx va then ((s.fillFor ctx tcb d 1).acquireFor ctx tcb).readyPinned ctx tcb
    else if s.cellWaiters ctx va ≤ 4 then s
    else s.askFor 2 ctx tcb
  | .page va => (s.reportPage ctx tcb va)
  | .resource k => s.askFor k ctx tcb
  | _ => if s.waitOver ctx tcb w then s.readyPinned ctx tcb else s

/-- A suspended task comes back to its core (spec/12 R263, spec/15 R318).
The return is no acquire by itself: JOIN acquires when its loop is left, and an acquire that was performed meanwhile is the core's now
(spec/06 R134, spec/12 R264). -/
def State.resume (t : Task) (f : Frame) (s : State) : State :=
  let s := (s.setTask t.ctx t.tcb .running).onTask t.ctx t.tcb (fun x => { x with saved := none, wait := none, pinned := none })
  let s := s.putBack f
  match t.wait with
  | some (.join d m) => s.modA (fun a => { a with block := some (.reenter (.join d s.frame.toNat m)) })
  | some (.child _ d) => s.modA (fun a => { a with block := some (.reenter (.done (some d))) })
  | some (.page _) | some (.resource _) =>
    let s := s.modA (fun a => { a with block := a.back.map Block.again, back := none })
    if s.core.a.views.isEmpty && (tcbViews t.snap ≠ 0 || !t.tiles.isEmpty) then
      match s.setupViews with
      | .ok s => s
      | .error (some (c, x)) => s.trap 0 c x false s.core.a.pc
      | .error none => s.trap 0 .resource 6 false s.core.a.pc
    else s
  | _ => s.modA (fun a => { a with block := some (.reenter (.done none)) })

/-- Displace the acting core's task below an inline run or a merge routine (spec/12 R260, R263). -/
def State.spill (s : State) : State :=
  let s := s.leaveCluster
  let (f, s) := s.frameOf false
  s.modCore (fun c => { c.freed with inl := f :: c.inl })

/-- Run a task inline once the running one can leave (spec/12 R261, R265); a task that is gone is not run.
A core out of service runs none: the task goes to the die's queue, and a RUNINL waits for its end; JOIN goes on in its loop
(spec/10 R212; log 85). -/
def State.startInline (ctx : Nat) (t : Word) (d : Reg) (join merge : Bool) (s : State) : State :=
  if !s.core.quiet then s
  else if s.core.outOfService then
    (s.enqueue (.die (dieOf s.core.id)) ctx t).modA (fun a =>
      { a with block := some (if join then .join d s.frame.toNat merge else .suspend (.child t d)) })
  else match s.noRoom false with
  | some k => s.askFor k s.core.a.ctx s.core.a.tcb
  | none =>
    if (s.task? ctx t).isNone then s.spill.popInline
    else match s.spill.dispatch ctx t with
      | some s => s
      | none => s.askFor 6 ctx t

end Sys2Proof.Machine
end

