-- ==== Sys2Proof/Machine/TaskSlot.lean ====
section
/-!
DEFINITION. The task instructions of the sys slot (spec/12 R244 to R266, spec/01 R21, R22), and what a core does in each cycle
in which one of them holds it: JOIN, MERGE, inline runs, suspensions and merge routines (spec/12 R258 to R265).
-/
set_option linter.unusedVariables false

namespace Sys2Proof.Machine

/-! ### Issue -/

/-- The no-op of the sys slot (spec/02 R36). -/
def execNopSys (s : State) : Out := .next s

/-- View 0 of the epoch is frozen at its first spawn and becomes block [0, 1) (spec/12 R256, R258). -/
def State.freezeViews (s : State) : State :=
  let a := s.core.a
  if a.views.isEmpty then s
  else (s.modA (fun a => { a with frozen0 := true })).onTask a.ctx a.tcb (fun t =>
    { t with blocks := [⟨0, 1, a.views, [], false, 0, false, none⟩] })

/-- Children spawned in the epoch (spec/12 R245). -/
def State.nspawn (s : State) : Nat := (s.me?.map (fun t => t.nspawn)).getD 0

/-- The checks of a spawn of n children from a TCB address on, in the stated order (spec/12 R245). -/
def State.spawnFault (t n : Nat) (s : State) : Option (Cause × Word) :=
  if n = 0 || decide (64 < n) then some (.badShape, 0)
  else if Config.userEnd < t + 128 * n then some (.prot, word t)
  else if t % 128 ≠ 0 then some (.misaligned, word t)
  else if 1048575 < s.nspawn + n then some (.badShape, 0)
  else none

/-- The children of a spawn are counted and wait for the release (spec/10 R207, spec/12 R245). -/
def State.spawnChildren (t : Word) (n : Nat) (inl : Bool) (s : State) : State :=
  let a := s.core.a
  let k := s.nspawn
  let s := if k = 0 then s.freezeViews else s
  let s := s.onTask a.ctx a.tcb (fun x => { x with nspawn := x.nspawn + n, npend := x.npend + n })
  let (id, s) := s.newId
  s.modCore (fun c => { c with rels := c.rels ++ (List.range n).map (fun j =>
    ⟨id, a.ctx, .admission (t + word (128 * j)) (k + 1 + j) a.tcb inl, false⟩) })

/-- Whether the running code is a merge routine, in which the task instructions are illegal (spec/12 R260). -/
def State.inRoutine (s : State) : Bool := s.core.a.merging.isSome

/-- SPAWN and SPAWNL (spec/12 R245). -/
def State.spawn (d : Reg) (t : Word) (n : Nat) (s : State) : State :=
  if s.inRoutine then s.illegal 7
  else match s.spawnFault t.toNat n with
    | some (c, x) => s.fault 7 c x
    | none => (s.spawnChildren t n false).fly 2 7 [.s d (word (s.nspawn + 1))]

/-- SPAWN (spec/12 R245). -/
def execSpawn (d a : Reg) (s : State) : Out := .next (s.spawn d (s.core.a.rd a) 1)

/-- SPAWNL (spec/12 R245). -/
def execSpawnl (d a b : Reg) (s : State) : Out := .next (s.spawn d (s.core.a.rd a) (s.core.a.rd b).toNat)

/-- Hold the core after slot 7. -/
def State.hold (b : Block) (s : State) : State := s.modA (fun a => { a with block := some b })

/-- JOIN: s[D] is empty until the loop is left (spec/12 R261). -/
def execJoin (d : Reg) (s : State) : Out :=
  .next (if s.inRoutine then s.illegal 7 else (s.markEmpty d).hold (.join d s.frame.toNat false))

/-- MERGE: a JOIN whose count is discarded, then the end of the task; in a merge routine it ends the routine
(spec/12 R260, R262). -/
def execMerge (s : State) : Out :=
  .next (if s.inRoutine then s.hold .mergeSeals else s.hold (.join 0 s.frame.toNat true))

/-- YIELD: the task is suspended if another is dispatchable (spec/12 R264). -/
def execYield (s : State) : Out :=
  .next (if s.inRoutine then s.illegal 7
    else if (s.pick s.core.id).isSome then s.hold (.suspend .yielded) else s)

/-- The items of TINFO (spec/12 R266). -/
def State.tinfo (s : State) (i : TItem) : Word :=
  let a := s.core.a
  match s.me? with
  | none => 0
  | some t =>
    match i with
    | .spidx => word t.spidx
    | .tcb => a.tcb
    | .parent => t.parent.getD 0
    | .restarts => word t.restarts
    | .nspawn => word t.nspawn
    | .npend => word t.npend
    | .prio => word a.prio
    | .stream => word (((s.launch? t.launch).map (fun l => l.stream)).getD 0)

/-- TINFO (spec/12 R266). -/
def execTinfo (d : Reg) (i : TItem) (s : State) : Out := .next (s.fly 2 7 [.s d (s.tinfo i)])

/-- The address of a byte of a piece for a core: own scratchpad, another core's window, or the pool (spec/12 R255, R257). -/
def State.pieceVa (s : State) (ctx : Nat) (w : ViewWin) : Nat :=
  if w.pool then w.addr
  else if w.core = s.core.id then Config.spadBase + w.addr
  else match (s.ctx? ctx).bind (fun c => c.vOf w.core) with
    | some (d, v) => Config.otherBase + d * 2 ^ 32 + v * 2 ^ 24 + w.addr
    | none => Config.otherBase + w.addr

/-- VIEWA (spec/12 R257). -/
def execViewa (d a : Reg) (s : State) : Out :=
  let x := s.core.a.rd a
  .next (if s.inRoutine then s.illegal 7
    else match s.core.a.viewAt x.toNat with
      | none => s.fly 2 7 [.s d x]
      | some w =>
        if s.core.a.frozen0 then s.fault 7 .viewOrder x
        else s.fly 2 7 [.s d (word (s.pieceVa s.core.a.ctx w + (x.toNat - w.base)))])

/-- RUNINL (spec/12 R265). -/
def execRuninl (d a : Reg) (s : State) : Out :=
  let t := s.core.a.rd a
  .next (if s.inRoutine then s.illegal 7
    else if t = 0 then
      match s.inlTask with
      | none => s.fly 1 7 [.s d 0]
      | some e => ((s.unqueue (.core s.core.id) e).markEmpty d).hold (.inline e.ctx e.tcb d false false)
    else match s.spawnFault t.toNat 1 with
      | some (c, x) => s.fault 7 c x
      | none => ((s.spawnChildren t 1 true).markEmpty d).hold (.runinl d t))

/-- The number of virtual dies of the running task's context (spec/01 R19). -/
def State.vdies (s : State) : Nat := ((s.ctx? s.core.a.ctx).map (fun c => c.bind.length)).getD 0

/-- VDIST (spec/01 R21). -/
def execVdist (d a b : Reg) (s : State) : Out :=
  let x := (s.core.a.rd a).toNat
  let y := (s.core.a.rd b).toNat
  let r : Word := match (s.ctx? s.core.a.ctx).bind (fun c => c.pdie x), (s.ctx? s.core.a.ctx).bind (fun c => c.pdie y) with
    | some p, some q => word (dieHops p q)
    | _, _ => BitVec.allOnes 64
  .next (s.fly 2 7 [.s d r])

/-- VDMAP (spec/01 R22). -/
def execVdmap (d a : Reg) (s : State) : Out :=
  let x := (s.core.a.rd a).toNat
  let c := ((s.ctx? s.core.a.ctx).map (fun c => c.ncores x)).getD 0
  .next (s.fly 2 7 [.s d (word (s.vdies * 2 ^ 32 + c))])

/-! ### Blocks of an epoch (spec/12 R258, R259) -/

/-- The exponent j of the least 2^j that is at least n. -/
def ceilLog (n : Nat) : Nat := if n ≤ 1 then 0 else Nat.log2 (n - 1) + 1

/-- Whether two neighbouring blocks form a node of the tree: both complete and aligned, or on the right edge once n is fixed
(spec/12 R258, R259). -/
def treeNode (fixed : Option Nat) (l r : Block') : Bool :=
  let w := r.hi - l.lo
  let j := ceilLog w
  let top := match fixed with
    | some n => r.hi = n + 1
    | none => false
  l.hi = r.lo && l.lo % 2 ^ j = 0 && l.hi = l.lo + 2 ^ (j - 1) && (w = 2 ^ j || top)

/-- The pair of blocks whose left one begins at `lo`, if it can be combined. -/
def Task.pairAt (t : Task) (lo : Nat) : Option (Block' × Block') :=
  match t.blocks.find? (fun b => b.lo = lo) with
  | none => none
  | some l =>
    match t.blocks.find? (fun b => b.lo = l.hi) with
    | none => none
    | some r => if treeNode (if t.fixed then some t.nspawn else none) l r && !l.busy then some (l, r) else none

/-- The pair that the MERGE of index `idx` must still see combined: it holds idx (spec/12 R260). -/
def Task.pairWith (t : Task) (idx : Nat) : Option (Block' × Block') :=
  t.blocks.findSome? (fun b => (t.pairAt b.lo).bind (fun p => if p.1.lo ≤ idx && idx < p.2.hi then some p else none))

/-- Whether every index of some complete aligned block that holds `idx` is present and the block is not yet one
(spec/12 R259, R260). -/
def Task.blockOpen (t : Task) (idx : Nat) : Bool :=
  (List.range 21).any (fun j =>
    let lo := idx / 2 ^ j * 2 ^ j
    let mine := t.blocks.filter (fun b => lo ≤ b.lo && b.hi ≤ lo + 2 ^ j)
    decide (1 < mine.length) && (mine.map (fun b => b.hi - b.lo)).foldl (fun x y => x + y) 0 == 2 ^ j)

/-- Whether a task's tiles have a USER operator. -/
def Task.hasUser (t : Task) : Bool := t.tiles.any (fun w => w.op = 15)

/-- One piece of a pair is combined into its destination; with the last one the block replaces the pair (spec/12 R259). -/
def Task.pieceDone (t : Task) (lo : Nat) (dst : ViewWin) : Task :=
  match t.blocks.find? (fun b => b.lo = lo) with
  | none => t
  | some l =>
    let done := l.done ++ [dst]
    if done.length < l.parts.length then
      { t with blocks := t.blocks.map (fun b => if b.lo = lo then { b with done := done, busy := false, paged := false, dest := none } else b) }
    else
      let hi := ((t.blocks.find? (fun b => b.lo = l.hi)).map (fun r => r.hi)).getD l.hi
      { t with blocks := (t.blocks.filter (fun b => b.lo ≠ l.hi)).map (fun b =>
          if b.lo = lo then ⟨lo, hi, done, [], false, 0, false, none⟩ else b) }

/-! ### Merge routines (spec/12 R260) -/

/-- The task part with which the merge routine of the next piece of a pair starts: `owner` has the pair whose left block begins at `lo`,
`dv` is the address of the fresh destination (spec/12 R260). -/
def State.routineArch (s : State) (owner : Word) (lo dv : Nat) : Option Arch :=
  let a := s.core.a
  match s.ctx? a.ctx, s.me?, s.task? a.ctx owner with
  | some c, some t, some o =>
    (o.blocks.find? (fun b => b.lo = lo)).bind (fun l =>
      (o.blocks.find? (fun b => b.lo = l.hi)).bind (fun r =>
        match l.parts[l.done.length]?, r.parts[l.done.length]? with
        | some x, some y =>
          let f := freshArch c t.snap a.tcb a.prio
          some { f with
            s := setRegs [(1, word dv), (2, word (s.pieceVa a.ctx x)), (3, word (s.pieceVa a.ctx y)), (4, word x.size)] f.s,
            pc := x.mergePc, merging := some (dv, x.size), mergeFor := some (owner, lo) }
        | _, _ => none))
  | _, _, _ => none

/-- Start the merge routine of the next piece of a pair on the acting core, when its task can be spilled. -/
def State.startRoutine (owner : Word) (l r : Block') (s : State) : State :=
  let a := s.core.a
  match l.parts[l.done.length]?, s.ctx? a.ctx with
  | some x, some c =>
    if x.op ≠ 15 || !s.core.quiet then s
    else match s.noRoom false, s.placeLike c x with
      | some k, _ => s.askFor k a.ctx a.tcb
      | none, none => s.askFor 6 a.ctx owner
      | none, some d =>
        match s.routineArch owner l.lo (s.pieceVa a.ctx d) with
        | none => s
        | some f =>
          (s.spill.modCore (fun c => { c with busy := true, a := { f with deferred := c.a.deferred }, watch := 0 })).onTask a.ctx owner
            (fun t => { t with blocks := t.blocks.map (fun b => if b.lo = l.lo then { b with busy := true } else b) })
  | _, _ => s

/-- The merge routine that runs on the acting core begins again: what it had under way is discarded (spec/12 R259). -/
def State.restartRoutine (s : State) : State :=
  match s.core.a.merging, s.core.a.mergeFor with
  | some (dv, _), some (owner, lo) =>
    match s.routineArch owner lo dv with
    | none => s
    | some f =>
      let gone (k : CopyCmd) : Bool := k.ctx == s.core.a.ctx && k.tcb == s.core.a.key
      (s.leaveGangs s.core.a).modCore (fun c =>
        { c with a := f, pier := [], ca := c.ca.filter (fun k => !gone k), cb := c.cb.filter (fun k => !gone k) })
  | _, _ => s

/-- The end of a merge routine: its piece is combined and the spilled state returns (spec/12 R260).
A gang that the routine joined is left as at a task's end (spec/13 R276). -/
def State.endMergeRoutine (s : State) : State :=
  let a := s.core.a
  match a.merging, a.mergeFor with
  | some (va, n), some (owner, lo) =>
    let s := s.onTask a.ctx owner (fun t =>
      match t.blocks.find? (fun b => b.lo = lo) with
      | none => t
      | some b =>
        match b.parts[b.done.length]? with
        | none => t
        | some w => t.pieceDone lo (s.pieceAt s.core.id a.ctx w va))
    ((s.leaveCluster.leaveGangs a).modCore Core.freed).popInline
  | _, _ => s

/-! ### MERGE (spec/12 R262) -/

/-- The VAs of a tile's granules. -/
def tileVas (w : ViewWin) : List Nat := (List.range (w.size / 64)).map (fun j => w.base + 64 * j)

/-- The pages that a task's tiles touch, or the fault of one: PAGE pauses the MERGE, PROT ends the launch (spec/12 R262). -/
def State.tilePages (s : State) (d ctx : Nat) : List Nat → List (Nat × Nat × Word) →
    Except (Cause × Word) (List (Nat × Nat × Word))
  | [], acc => .ok acc
  | va :: rest, acc =>
    match s.leaf? d ctx va with
    | none => .error (.page, word va)
    | some (e, z) =>
      if !pteW e then .error (.prot, word va)
      else
        let p := (va / z * z, z, e)
        s.tilePages d ctx rest (if acc.contains p then acc else acc ++ [p])

/-- The visible frame of a PUB page copied into its shadow frame (spec/12 R262). -/
def State.copyFrame (p : Nat × Nat × Word) (s : State) : State :=
  let vis := leafPa p.2.2 p.2.1 p.1 false
  let shd := leafPa p.2.2 p.2.1 p.1 true
  let z := p.2.1
  let out (a : Nat) := (decide (shd ≤ a ∧ a < shd + z))
  let outT (g : Nat) := out (64 * g)
  let cells := s.mem.filter (fun c => vis ≤ c.1 && c.1 < vis + z)
  let tags := s.memTags.filter (fun c => vis ≤ 64 * c.1 && 64 * c.1 < vis + z)
  { s with
    mem := cellSets 0 (s.mem.filter (fun c => !out c.1)) (cells.map (fun c => (c.1 - vis + shd, c.2))),
    memTags := cellSets 0 (s.memTags.filter (fun c => !outT c.1)) (tags.map (fun c => (c.1 - vis / 64 + shd / 64, c.2))) }

/-- One tile written from its view, with its TYPE tags; PUB pages in their shadow frames (spec/12 R262). -/
def State.writeTile (d ctx : Nat) (w : ViewWin) (s : State) : State :=
  (List.range (w.size / 64)).foldl (fun s j =>
    match s.pieceLoc ctx .read w (64 * j), s.physLoc [] d ctx .write true (w.base + 64 * j) with
    | .ok src, .ok dst => s.writeGranule d dst (s.granuleAt s.core.id false false src).1 (typeTag w.ty)
    | _, _ => s) s

/-- The first poisoned granule of the views of the acting core's task, whose read as a tile is written raises POISON (spec/03 R57). -/
def State.viewPoison (s : State) (ctx : Nat) (ws : List ViewWin) : Option Word :=
  (ws.flatMap (fun w => (List.range (w.size / 64)).map (fun j => (w, 64 * j)))).findSome? (fun p =>
    match s.pieceLoc ctx .read p.1 p.2 with
    | .ok l => if isPoison (s.granuleAt s.core.id false false l).2 then some (word (s.pieceVa ctx p.1 + p.2)) else none
    | .error _ => none)

/-- The first poisoned granule that a PUB page's copy reads in its visible frame, outside every tile (spec/03 R57, spec/12 R262). -/
def State.framePoison (s : State) (ws : List ViewWin) (p : Nat × Nat × Word) : Option Word :=
  let vis := leafPa p.2.2 p.2.1 p.1 false
  let va (g : Nat) : Nat := 64 * g - vis + p.1
  (s.memTags.find? (fun c => isPoison c.2 && decide (vis ≤ 64 * c.1 ∧ 64 * c.1 < vis + p.2.1) &&
    ws.all (fun w => decide (va c.1 < w.base ∨ w.base + w.size ≤ va c.1)))).map (fun c => word (va c.1))

/-- The tiles of a declaring task are written and published at package scope (spec/12 R262). -/
def State.writeTiles (s : State) : Except (Cause × Word) State :=
  let a := s.core.a
  let d := dieOf s.core.id
  match s.tilePages d a.ctx (a.views.flatMap tileVas) [] with
  | .error e => .error e
  | .ok ps =>
    let pub := ps.filter (fun p => ptePub p.2.2)
    match (s.viewPoison a.ctx a.views).orElse (fun _ => pub.findSome? (s.framePoison a.views)) with
    | some x => .error (.poison, x)
    | none =>
    let s := pub.foldl (fun s p => s.copyFrame p) s
    let s := a.views.foldl (fun s w => s.writeTile d a.ctx w) s
    .ok (pub.foldl (fun s p => s.swapSel a.ctx p) s)

/-- The task's view becomes the contribution of its index to its parent's epoch (spec/12 R258, R262). -/
def State.contribute (t : Task) (s : State) : State :=
  let ws := s.core.a.views
  match t.parent with
  | none => s
  | some p =>
    if ws.isEmpty then s
    else (s.onTask t.ctx p (fun x =>
      { x with blocks := x.blocks.filter (fun b => b.hi ≤ t.spidx) ++ [⟨t.spidx, t.spidx + 1, ws, [], false, 0, false, none⟩] ++
                 x.blocks.filter (fun b => t.spidx < b.lo) })).modA (fun a => { a with views := [] })

/-- The decrements that a task's end sends to its successors; an entry that cannot be read is skipped (spec/12 R248, R262;
log 22). -/
def State.sendDecrements (t : Task) (s : State) : State :=
  let us := (List.range (tcbNsucc t.snap)).filterMap (fun i => s.readVa (s.ctxDie t.ctx) t.ctx (tcbSucc t.snap + 8 * i) 8)
  { s with decs := s.decs ++ us.map (fun u => ⟨t.ctx, word u, dieOf s.core.id, t.tcb⟩) }

/-- A parent learns that a contribution is complete (spec/12 R262). -/
def State.parentLearns (t : Task) (s : State) : State :=
  match t.parent with
  | none => s
  | some p =>
    let s := s.onTask t.ctx p (fun x => { x with npend := x.npend - 1 })
    match s.task? t.ctx p with
    | some x =>
      if x.npend = 0 && (match x.wait with
        | some (.join _ _) => true
        | _ => false) then s.readyPinned t.ctx p else s
    | none => s

/-- The end of a task (spec/12 R262): successors, STATE and STATUS, the parent, the launch of a root, and the core. -/
def State.mergeDone (t : Task) (s : State) : State :=
  let s := s.sendDecrements t
  let s := (s.setTask t.ctx t.tcb .done).setStatus t.ctx t.tcb 0 0
  let s := s.parentLearns t
  let s := { s with tasks := s.tasks.filter (fun x => !(x.ctx = t.ctx && x.tcb = t.tcb)) }
  let s := s.childEnded t.ctx t.tcb
  let s := match t.parent, s.launch? t.launch with
    | none, some l => s.completeLaunch l 0 0 0 0 0 (pcore s.core.id)
    | _, _ => s
  s.dropTask.popInline

/-- The last part of MERGE (spec/12 R260, R262, spec/13 R276): gangs are left, the views are contributed or written, merge
routines that this MERGE completes run, and the task ends.
A successor list that is poisoned meanwhile raises POISON, before anything of the task is published or when it is read (spec/03 R57). -/
def State.mergeStep (written paged : Bool) (s : State) : State :=
  match s.me? with
  | none => s.modCore Core.freed
  | some t =>
    if let some x := (if tcbNsucc t.snap = 0 then none else s.poisonIn t.ctx (tcbSucc t.snap) (8 * tcbNsucc t.snap)) then
      s.trap 7 .poison x false s.core.a.pc
    else if !written then
      let s := (s.leaveGangs s.core.a).modA (fun a => { a with gangs := [], gangOps := [] })
      if t.inherits then (s.contribute t).hold (.mergeOut true false)
      else if t.declares then
        match s.writeTiles with
        | .ok s => s.hold (.mergeOut true false)
        | .error (.page, x) => if paged then s else (s.reportPage t.ctx t.tcb x).hold (.mergeOut false true)
        | .error (c, x) => s.trap 7 c x false s.core.a.pc
      else s.hold (.mergeOut true false)
    else
      match (if t.inherits && t.hasUser then t.parent.bind (fun p => s.task? t.ctx p) else none) with
      | none => s.mergeDone t
      | some p =>
        if !p.blockOpen t.spidx then s.mergeDone t
        else match Task.pairWith { p with fixed := false } t.spidx with
          | some (l, r) => s.startRoutine p.tcb l r
          | none => s

/-- Whether MERGE's seals and release are over: the task can leave, every access is performed, those of a routine that still waits for
tokens among them, and every gang operation is sent, so that the gleaves come after them (spec/10 R207, R208, spec/12 R262,
spec/13 R273, R274, R276). -/
def Core.mergeReady (c : Core) : Bool :=
  c.quiet && c.a.eng == .idle && c.performedBefore c.nextId .package && c.rels.all (fun r => match r.what with
    | .admission _ _ par _ => !(r.ctx = c.a.ctx && par = c.a.tcb)) &&
  c.a.gangOps.all (fun o => o.sent)

/-! ### JOIN (spec/12 R261) -/

/-- The loop of JOIN is left: view 0 is the combined view, s[D] the count, and a new epoch begins (spec/12 R261). -/
def State.joinDone (d : Reg) (merge : Bool) (views : List ViewWin) (s : State) : State :=
  let a := s.core.a
  let n := s.nspawn
  let s := s.onTask a.ctx a.tcb (fun t => { t with blocks := [], nspawn := 0, fixed := false })
  let s := (s.modA (fun a => { a with views := views, frozen0 := false })).acquire .package
  if merge then s.hold .mergeSeals else (s.modA (fun a => a.fillS d (word n))).finishSlot7

/-- One turn of JOIN's loop: n is fixed from its first on, so that blocks of the right edge combine while it waits (spec/12 R259, R261,
spec/21 R367). -/
def State.joinStep (d : Reg) (since : Nat) (merge : Bool) (s : State) : State :=
  let a := s.core.a
  let s := s.onTask a.ctx a.tcb (fun t => { t with fixed := true })
  match s.joinChild with
  | some (q, e) => (s.unqueue q e).hold (.inline e.ctx e.tcb d true merge)
  | none =>
    match s.me? with
    | none => s
    | some t =>
      if t.npend ≠ 0 then s
      else match t.blocks with
        | [] => s.joinDone d merge a.views
        | [b] => if b.lo = 0 && b.hi = t.nspawn + 1 then s.joinDone d merge b.parts else s
        | _ =>
          match (s.me?).bind (fun t => t.blocks.findSome? (fun b => t.pairAt b.lo)) with
          | some (l, r) => s.startRoutine a.tcb l r
          | none => s

/-! ### The cycle of a core that a slot 7 holds -/

/-- A fault found after issue is raised while slot 7 holds the core (spec/05 R109): at slot 7 of its bundle.
A class-1 fault suspends the task, which goes back to its wait when it resumes. -/
def State.raiseBlocked (b : Block) (s : State) : State :=
  let a := s.core.a
  match (match a.deferred.find? (fun d => d.cause.cls = 3) with
    | some d => some d
    | none => a.deferred.head?) with
  | none => s
  | some d =>
    let s := s.modA (fun a => { a with deferred := a.deferred.erase d })
    if d.cause.cls = 1 && !s.inRoutine then
      let w : Wait := if d.cause = .page then .page d.tval else .resource d.tval.toNat
      s.modA (fun a => { a.trapRegs d.cause d.tval true 7 a.pc with block := some (.suspend w), back := some b })
    else (s.modA (fun a => { a with block := none })).trap 7 d.cause d.tval true a.pc

/-- A cell read at its home: its value if full, none if empty, or the fault (spec/13 R284, R285). -/
def State.readCell (s : State) (va : Word) : Except Cause (Option Word) :=
  match s.translate (dieOf s.core.id) s.core.a.ctx va.toNat .read false with
  | .error c => .error c
  | .ok (pa, _) =>
    if isPoison (s.granule pa).2 then .error .poison
    else match readNat s.mem (pa + 8) 8 with
      | 0 => .ok none
      | 1 => .ok (some (word (readNat s.mem pa 8)))
      | _ => .error .badShape

/-- A fault of FGET or FWAIT after their issue is raised at slot 7 and is not deferred; the destination is as it was, and slot 7 has
committed nothing (spec/13 R285, R286, spec/15 R319). -/
def State.cellTrap (d : Reg) (c : Cause) (va : Word) (s : State) : State :=
  let x := if c = .poison then word (va.toNat / 64 * 64) else va
  (s.modA (fun a => { a with block := none, reentry := some 7, sEmpty := setBit a.sEmpty d.val false })).trap 7 c x false s.core.a.pc

/-- fwait.yield of a merge routine whose cell was empty: the routine is no task that can be suspended, and its core polls the cell
(spec/12 R260, spec/13 R286; log 99). -/
def State.pollCell (d : Reg) (va : Word) (til : Option Nat) (s : State) : State :=
  match s.readCell va with
  | .error c => s.cellTrap d c va
  | .ok (some _) => ((s.modA (fun a => a.fillS d 1)).acquire .package).finishSlot7
  | .ok none => if (til.map (fun t => decide (t ≤ s.frame.toNat))).getD false then (s.modA (fun a => a.fillS d 0)).finishSlot7 else s

/-- What slot 7, or a suspension, does in a cycle in which it holds the core (spec/12 R261 to R265, spec/13 R286). -/
def State.blockGo (b : Block) (s : State) : State :=
  match b with
  | .join d since m => s.joinStep d since m
  | .inline ctx t d j m => s.startInline ctx t d j m
  | .mergeSeals =>
    if !s.core.mergeReady then s
    else if s.inRoutine then s.endMergeRoutine else s.hold (.mergeOut false false)
  | .mergeOut w p => s.mergeStep w p
  | .suspend w =>
    if s.inRoutine then (match w with
      | .future d va til => s.pollCell d va til
      | _ => s)
    else if s.core.quiet then s.suspendNow w else s
  | .done d => (match d with
    | some d => s.modA (fun a => a.fillS d 1)
    | none => s).finishSlot7
  | .fget _ _ | .fwait _ _ _ _ _ | .runinl _ _ | .reenter _ => s

/-- Slot 7 of a bundle is entered again, a LEASE_EXPIRED that waits first (spec/12 R263, spec/14 R301, spec/15 R309). -/
def State.enterAgain (k : Block) (s : State) : State :=
  let s := s.modA Arch.dropLease
  match (if s.core.a.ut then none else s.core.a.lx) with
  | some why => (s.modA (fun a => { a with block := some (.reenter k), reentry := some 7 })).leaseTrap 7 why
  | none =>
    let k := match k with
      | .join d _ m => .join d s.frame.toNat m
      | _ => k
    (s.hold k).blockGo k

/-- One cycle of a core that slot 7 of its bundle, or a suspension, holds (spec/12 R261 to R265). -/
def State.blockCycle (s : State) : State :=
  let a := s.core.a
  match a.block with
  | none => s
  | some b =>
    let lease := (match b with
      | .reenter _ => true
      | _ => false) && !a.ut && a.utvec ≠ 0 && a.lx.isSome
    let raise := (match b with
      | .suspend (.future _ _ _) => s.inRoutine
      | .suspend _ => false
      | _ => true) && a.deferred.any (fun d => d.cause.cls = 3 || !lease)
    if raise then s.raiseBlocked b
    else match b with
      | .reenter k => s.enterAgain k
      | b => s.blockGo b

end Sys2Proof.Machine
end

