-- ==== Sys2Proof/Machine/TaskEvents.lean ====
section
/-!
DEFINITION. The events of admission, the schedulers, the merge engines and the supervisor core (spec/12 R246 to R261,
spec/13 R288, spec/15 R318, R319, spec/16 R331).
-/
set_option linter.unusedVariables false

namespace Sys2Proof.Machine

/-! ### Admission (spec/12 R246, R247) -/

/-- A TCB as admission reads it: its 128 bytes at home, or PAGE or PROT (spec/12 R246). -/
def State.readTcb (s : State) (ctx : Nat) (tcb : Word) : Except Cause (BitVec 1024 × Nat) :=
  match s.translate (s.ctxDie ctx) ctx tcb.toNat .update false with
  | .error c => .error c
  | .ok (pa, _) => .ok (BitVec.ofNat 1024 (readNat s.mem pa 128), pa)

/-- The first poisoned granule of a TCB or its successor list (spec/12 R246). -/
def State.tcbPoison (s : State) (ctx : Nat) (tcb : Word) (pa : Nat) (x : BitVec 1024) : Option Word :=
  match (List.range 2).find? (fun j => isPoison (s.granule (pa + 64 * j)).2) with
  | some j => some (tcb + word (64 * j))
  | none => if tcbNsucc x = 0 then none else s.poisonIn ctx (tcbSucc x) (8 * tcbNsucc x)

/-- The checks of admission, in order, on a TCB; `par` is the spawning task, `here` its core (spec/12 R246, R247). -/
def State.admitFault (s : State) (ctx : Nat) (tcb : Word) (pa : Nat) (x : BitVec 1024) (par : Option Task)
    (here : Option Nat) : Option (Cause × Word) :=
  let st := tcbF x 0x68 1
  let fl := tcbFlags x
  if st ≠ 0 && st ≠ 5 && st ≠ 6 then some (.prot, tcb)
  else if fl / 2 ^ 5 % 2 ^ 11 ≠ 0 || fl / 2 ^ 24 ≠ 0 || decide (16 < tcbSegn x) || decide (4096 < tcbNsucc x) then some (.badShape, 0)
  else if tcbHome x ≠ 0 && (s.placeOf ctx (tcbHome x) (.die 0) here).isNone then some (.prot, word (tcbHome x))
  else if tcbViews x ≠ 0 && (match par with
    | some t => !t.tiles.isEmpty
    | none => false) then some (.viewOrder, word (tcbViews x))
  else if (match par with
    | some t => t.r
    | none => false) && tcbNsucc x ≠ 0 then some (.restartViolation, tcb)
  else (s.tcbPoison ctx tcb pa x).map (fun v => (Cause.poison, v))

/-- The record of an admitted task. -/
def newTask (ctx : Nat) (tcb : Word) (launch : Nat) (x : BitVec 1024) (par : Option Task) (idx spawner frame : Nat) : Task :=
  let inh := tcbViews x = 0 && (match par with
    | some t => !t.tiles.isEmpty
    | none => false)
  { ctx := ctx, tcb := tcb, launch := launch, snap := x, st := .new, restarts := 0,
    r := tcbR x || (match par with
      | some t => t.r
      | none => false),
    parent := par.map (fun t => t.tcb), spidx := idx, nspawn := 0, npend := 0, declares := false, inherits := inh,
    tiles := if inh then (par.map (fun t => t.tiles)).getD [] else [], spawner := spawner, blocks := [], excluded := [],
    readySince := frame, pinned := none, saved := none, wait := none, slipped := false, fixed := false }

/-- What admission writes to the TCB: PARENT, SPIDX, R of a restartable task's child, RESTARTS and STATUS (spec/12 R246). -/
def State.writeAdmitted (t : Task) (s : State) : State :=
  let d := s.ctxDie t.ctx
  let a := t.tcb.toNat
  let s := s.writeVa d t.ctx (a + 0x30) 8 (t.parent.getD 0).toNat
  let s := s.writeVa d t.ctx (a + 0x54) 4 t.spidx
  let s := if t.r && !tcbR t.snap then s.writeVa d t.ctx (a + 0x50) 4 (tcbFlags t.snap + 4) else s
  s.setStatus t.ctx t.tcb 0 0

/-- Enter a task in the armed table of its queue's die; a full table goes to the supervisor core (spec/12 R248). -/
def State.arm (q : QueueRef) (t : Task) (s : State) : State :=
  let d := match q with
    | .core c => dieOf c
    | .die d => d
  let s := s.setTask t.ctx t.tcb .armed
  if (s.die d).armed.length < 4096 then s.onDie d (fun x => { x with armed := x.armed ++ [⟨t.ctx, t.tcb, 0⟩] })
  else s.askFor 5 t.ctx t.tcb

/-- A task whose checks pass is recorded, and enqueued or armed by its DEPCNT; a RUNINL's task is only recorded
(spec/12 R246, R265). -/
def State.admission (t : Task) (q : QueueRef) (direct : Bool) (s : State) : State :=
  let s := { s with tasks := s.tasks ++ [t] }
  let s := s.writeAdmitted t
  if direct then s.setTask t.ctx t.tcb .ready
  else if tcbDepcnt t.snap = 0 then s.enqueue q t.ctx t.tcb
  else s.arm q t

/-- Whether the release of an admission is over: every older access of the parent on the core is performed
(spec/10 R207, spec/12 R245). -/
def State.releaseDone (s : State) (r : RelOp) (par : Word) : Bool :=
  let a := s.archOf r.ctx par
  s.core.performedBefore r.id .package && a.memq.all (fun m => r.id ≤ m.id) && a.heldPier.all (fun e => r.id ≤ e.place)

/-- An admission fails: its fault is deferred on the spawning task, and the rest of the spawn is dropped; a RUNINL that waits
for it ends (spec/12 R246, R265). -/
def State.admitFails (r : RelOp) (par : Word) (inl : Bool) (c : Cause) (x : Word) (s : State) : State :=
  let s := s.modCore (fun k => { k with rels := k.rels.filter (fun y => y.id ≠ r.id) })
  let s := s.deferFor r.ctx par c x
  match s.core.a.block with
  | some (.runinl d _) =>
    if inl && s.core.runs r.ctx par then (s.modA (fun a => a.fillS d 0)).finishSlot7 else s
  | _ => s

/-- TASK_ADMISSION on core `core`: the oldest child whose release is over is admitted (spec/12 R246). -/
def execTaskAdmission (s : State) : Out :=
  let s := s.focus s.input.core
  .next (match s.core.rels with
    | [] => s
    | r :: rest =>
      match r.what with
      | .admission tcb idx par inl =>
        if !s.releaseDone r par then s
        else match s.task? r.ctx par with
          | none => s.modCore (fun c => { c with rels := rest })
          | some p =>
            match s.readTcb r.ctx tcb with
            | .error .page =>
              if r.paged then s
              else (s.modCore (fun c => { c with rels := { r with paged := true } :: rest })).reportPage r.ctx par tcb
            | .error _ => s.admitFails r par inl .prot tcb
            | .ok (x, pa) =>
              let me := s.core.id
              match s.admitFault r.ctx tcb pa x (some p) (some me) with
              | some (c, v) => s.admitFails r par inl c v
              | none =>
                if inl && (!tcbInl x || tcbDepcnt x ≠ 0) then s.admitFails r par inl .prot tcb
                else match s.placeOf r.ctx (tcbHome x) (.core me) (some me) with
                  | none => s.admitFails r par inl .prot (word (tcbHome x))
                  | some q =>
                    let s := s.modCore (fun c => { c with rels := rest })
                    let s := s.admission (newTask r.ctx tcb p.launch x (some p) idx me s.frame.toNat) q inl
                    match s.core.a.block with
                    | some (.runinl d t) => if inl && t = tcb then s.hold (.inline r.ctx tcb d false false) else s
                    | _ => s)

/-- One decrement under way is applied at the TCB's atomic unit (spec/12 R248).
A poisoned DEPCNT cannot be read, and the launch of the task that waits for it ends with POISON (spec/03 R57, spec/05 R123). -/
def State.applyDecrement (d : Decrement) (s : State) : State :=
  let die := s.ctxDie d.ctx
  match (if s.decs.contains d then s.readVa die d.ctx d.tcb.toNat 128 else none) with
  | none => s
  | some n =>
    let x := BitVec.ofNat 1024 n
    let s := { s with decs := s.decs.erase d }
    if let some v := s.poisonIn d.ctx (d.tcb.toNat + 0x40) 64 then
      match s.task? d.ctx d.tcb with
      | none => s
      | some t => s.endLaunch t.launch 1 (Cause.code .poison) 2 t.tcb 0 v (pcore t.spawner)
    else if tcbDepcnt x = 0 then s.logEvent d.ctx 2 d.tcb (word (tcbTick x))
    else
      let s := s.writeVa die d.ctx (d.tcb.toNat + 0x4C) 4 (tcbDepcnt x - 1)
      match s.task? d.ctx d.tcb with
      | none => s
      | some t =>
        if t.st ≠ .armed || tcbDepcnt x ≠ 1 then s
        else
          let q := (s.placeOf d.ctx (tcbHome t.snap) (.die d.die) (some t.spawner)).getD (.die d.die)
          let dies := s.dies.map (fun (y : Die) => { y with armed := y.armed.filter (fun e => !(e.ctx = d.ctx && e.tcb = d.tcb)) })
          let s := { s with
            dies := dies,
            resources := s.resources.filter (fun r => !(r.kind = 5 && r.ctx = d.ctx && r.tcb = d.tcb)) }
          s.enqueue q d.ctx d.tcb

/-- DEPCNT_DECREMENT: the decrements of the MERGE to which decrement `idx` of those under way belongs are applied, in list order, so that
the tasks they release take consecutive numbers (spec/12 R248, R250, R262, spec/18 R348). -/
def execDepcntDecrement (s : State) : Out :=
  .next (match s.decs[s.input.idx]? with
    | none => s
    | some d => (s.decs.filter (fun x => x.ctx == d.ctx && x.merger == d.merger)).foldl (fun s x => s.applyDecrement x) s)

/-! ### The schedulers -/

/-- TASK_PICK on core `core` (spec/12 R251); an entry that another core takes first in the cycle is not its (spec/12 R250). -/
def execTaskPick (s : State) : Out :=
  let s := s.focus s.input.core
  .next (if !s.mayPickOn s.core.id then s
    else match s.pick s.core.id with
      | none => s
      | some (q, e) =>
        if s.outranked s.core.id q e then s
        else match s.task? e.ctx e.tcb with
        | none => s.unqueue q e
        | some t =>
          match t.saved with
          | some f => (s.unqueue q e).resume t f
          | none =>
            match (s.unqueue q e).dispatch e.ctx e.tcb with
            | some s => s
            | none => s.askFor 6 e.ctx e.tcb)

/-- TICK_SLIP: the task at `va` of context `ctx` still runs or is suspended 100,000 ticks after its TICK (spec/12 R252). -/
def execTickSlip (s : State) : Out :=
  .next (match s.task? s.input.ctx s.input.va with
    | none => s
    | some t =>
      if (t.st = .running || t.st = .suspended) && tcbTickv t.snap && !t.slipped &&
          s.frame.toNat = tcbTick t.snap + 100000 then
        (s.onTask t.ctx t.tcb (fun t => { t with slipped := true })).logEvent t.ctx 1 t.tcb (word (tcbTick t.snap))
      else s)

/-- JOIN_SUSPEND_TIMEOUT on core `core`: a JOIN that has waited 200 ticks for children suspends its task (spec/12 R261). -/
def execJoinSuspendTimeout (s : State) : Out :=
  let s := s.focus s.input.core
  .next (match s.core.a.block, s.me? with
    | some (.join d since m), some t =>
      if t.npend ≠ 0 && s.joinChild.isNone && decide (since + 200 ≤ s.frame.toNat) then s.hold (.suspend (.join d m)) else s
    | _, _ => s)

/-! ### Combines (spec/12 R259) -/

/-- The combination of one granule of two pieces (spec/12 R254). -/
def combineGranule (w : ViewWin) (x y : Granule) : Granule × Word :=
  match AccOp.ofCode w.op with
  | some o => (BitVec.ofNat 512 (accBytes o 64 x.toNat y.toNat), typeTag w.ty)
  | none => (x, typeTag w.ty)

/-- The granules of a piece, or the first fault: an unmapped page, or poison (spec/12 R259). -/
def State.readPiece (s : State) (ctx : Nat) (w : ViewWin) : Except (Cause × Word) (List Granule) :=
  (List.range (w.size / 64)).mapM (fun j =>
    match s.pieceLoc ctx .read w (64 * j) with
    | .error e => .error e
    | .ok l =>
      let (g, t) := s.granuleAt s.core.id false false l
      if isPoison t then .error (.poison, word (s.pieceVa ctx w + 64 * j)) else .ok g)

/-- A combine meets a fault: PAGE pauses it and is reported once, any other ends the launch (spec/12 R259). -/
def State.combineFault (t : Task) (lo : Nat) (paged : Bool) (c : Cause) (x : Word) (s : State) : State :=
  if c ≠ .page then s.endLaunch t.launch 1 c.code 2 t.tcb 0 x (pcore s.core.id)
  else if paged then s
  else (s.onTask t.ctx t.tcb (fun t =>
    { t with blocks := t.blocks.map (fun b => if b.lo = lo then { b with paged := true } else b) })).reportPage t.ctx t.tcb x

/-- A combine that a fault of its destination's page pauses keeps the destination (spec/12 R259, spec/21 R365). -/
def State.keepDest (t : Task) (lo : Nat) (d : ViewWin) (s : State) : State :=
  s.onTask t.ctx t.tcb (fun t => { t with blocks := t.blocks.map (fun b => if b.lo = lo then { b with dest := some d } else b) })

/-- COMBINE: a merge engine combines the next piece of the pair of blocks of the task at `va` of context `ctx` whose left one
begins at index `first`; `flag` says that a hardware error ended the attempt: an access that got no answer in time when `flag2` is set
too, else an uncorrectable one (spec/12 R259). -/
def execCombine (s : State) : Out :=
  let i := s.input
  .next (match s.task? i.ctx i.va, s.ctx? i.ctx with
    | some t, some c =>
      match t.pairAt i.first with
      | none => s
      | some (l, r) =>
        if c.preempt.isSome then s
        else if i.flag then
          if 3 ≤ l.tries then
            s.endLaunch t.launch 2 (Cause.code (if i.flag2 then .timeout else .hwUncorr)) 3 t.tcb 0 0 (pcore s.core.id)
          else s.onTask t.ctx t.tcb (fun t =>
            { t with blocks := t.blocks.map (fun b => if b.lo = l.lo then { b with tries := b.tries + 1 } else b) })
        else match l.parts[l.done.length]?, r.parts[l.done.length]? with
          | some x, some y =>
            if x.op = 15 then s
            else match s.readPiece i.ctx x, s.readPiece i.ctx y with
              | .ok xs, .ok ys =>
                match l.dest.orElse (fun _ => s.placeLike c x) with
                | none => s.askFor 6 t.ctx t.tcb
                | some d =>
                  match s.writePiece i.ctx d ((xs.zip ys).map (fun p => combineGranule x p.1 p.2)) with
                  | .error (c, v) => (s.keepDest t l.lo d).combineFault t l.lo l.paged c v
                  | .ok s => s.onTask t.ctx t.tcb (fun t => t.pieceDone l.lo d)
              | .error (c, v), _ => s.combineFault t l.lo l.paged c v
              | .ok _, .error (c, v) => s.combineFault t l.lo l.paged c v
          | _, _ => s
    | _, _ => s)

/-! ### The supervisor core (spec/13 R288, spec/15 R318) -/

/-- Entries that firmware writes: an update of the table-update engine as any other, whose refusal it hears of (spec/01 R18,
spec/05 R101, R105). -/
def State.firmwareMap (ctx : Nat) (ws : List PteWrite) (s : State) : State :=
  if ws.isEmpty then s else s.submit ⟨ctx, firmwareFn, 0, ws, []⟩

/-- The oldest entry that the supervisor core holds for a queue, with its request (spec/12 R249). -/
def State.oldestExcess (s : State) (q : QueueRef) : Option (ResourceReq × Nat) :=
  (s.resources.filterMap (fun r => r.entry.bind (fun e => if e.1 = q then some (r, e.2) else none))).foldl
    (fun (b : Option (ResourceReq × Nat)) x => match b with
      | none => some x
      | some y => if x.2 < y.2 then some x else some y) none

/-- Whether a queue has room (spec/12 R249). -/
def State.queueRoom (s : State) (q : QueueRef) : Bool :=
  match q with
  | .core c => decide ((s.getCore c).queue.length < 64)
  | .die d => decide ((s.die d).queue.length < 4096)

/-- The supervisor core returns the entries that it holds for a queue in sequence order as room appears: the oldest, with its number
(spec/12 R249). -/
def State.returnExcess (q : QueueRef) (s : State) : State :=
  match s.oldestExcess q with
  | none => s
  | some (r, n) =>
    if !s.queueRoom q then s
    else
      let s := { s with resources := s.resources.erase r }
      let e : QEntry := ⟨r.ctx, r.tcb, n⟩
      match q with
      | .core c => s.onCore c (fun x => { x with queue := x.queue ++ [e] })
      | .die d => s.onDie d (fun x => { x with queue := x.queue ++ [e] })

/-- RESOURCE_RESOLUTION: request `idx` is resolved when `flag` is set, and a task that a RESOURCE trap suspended for it becomes READY, else
its launch ends with RESOURCE; while a takeover is in progress it waits (spec/12 R249, spec/13 R288, spec/16 R332, R336). -/
def execResourceResolution (s : State) : Out :=
  .next (if s.takeSch || s.takeSup then s
    else match s.resources[s.input.idx]? with
      | none => s
      | some r =>
        match s.task? r.ctx r.tcb, s.input.flag, r.entry with
        | none, _, _ => { s with resources := listDel s.resources s.input.idx }
        | some t, false, _ =>
          ({ s with resources := listDel s.resources s.input.idx }).endLaunch t.launch 5 (Cause.code .resource) 2 t.tcb 0 (word r.kind) 0
        | some _, true, some (q, _) => s.returnExcess q
        | some t, true, none =>
          let s := { s with resources := listDel s.resources s.input.idx }
          if t.wait = some (.resource r.kind) then s.readyPinned r.ctx r.tcb else s)

/-- Whether the pages of a context's view pool that its tables gain are mapped in whole aligned runs of 8: firmware maps every page of the
run that holds the faulting one in one update (spec/21 R365). -/
def poolWhole (pool : Nat × Nat) (old new : Tbl Word) : Bool :=
  let n := pool.2 / 2 ^ 16
  (tableEntries new).all (fun e => e.level = 1 || !pteV e.pte || pteT e.pte || !decide (pool.1 ≤ e.va ∧ e.va < pool.1 + pool.2) ||
    (walk old e.va).isSome ||
    (List.range 8).all (fun j =>
      let k := (e.va - pool.1) / 2 ^ 16 / 8 * 8 + j
      decide (n ≤ k) || (walk new (pool.1 + k * 2 ^ 16)).isSome))

/-- Whether firmware makes an update of a context's tables: in the view pool it maps whole runs (spec/21 R365). -/
def State.firmwareMakes (s : State) (ctx : Nat) (ws : List PteWrite) : Bool :=
  match s.ctx? ctx with
  | none => true
  | some c => c.replicas.all (fun r => poolWhole c.viewPool r.2 (writeTable ws r.2))

/-- Whether the page of an address is mapped for a context. -/
def State.isMapped (s : State) (ctx : Nat) (va : Word) : Bool := (s.leaf? (s.ctxDie ctx) ctx va.toNat).isSome

/-- PAGE_FAULT_RESOLUTION: firmware asks for the entries `ptes`, if any, and the task at `va` of context `ctx`, if it waits for a page
that is now mapped, becomes READY on its core; a merge routine runs again from its start; an update that maps part of a run of the view pool is
none that firmware makes (spec/12 R259, spec/15 R318, spec/21 R365). -/
def execPageFaultResolution (s : State) : Out :=
  let i := s.input
  .next (if s.takeSup || !s.firmwareMakes i.ctx i.ptes then s
    else
      let s := s.firmwareMap i.ctx i.ptes
      match s.task? i.ctx i.va with
      | none => s
      | some t =>
        match t.wait with
        | some (.page v) => if t.st = .suspended && s.isMapped i.ctx v then s.readyPinned i.ctx i.va else s
        | _ =>
          match s.coreOf i.ctx (i.va ||| 1) with
          | none => s
          | some c =>
            let me := s.core.id
            let s := s.focus c
            (match s.core.a.block with
             | some (.suspend (.page v)) => if s.isMapped i.ctx v then s.restartRoutine else s
             | _ => s).focus me)

/-- HANG_WATCHDOG on core `core`: the count has reached the context's hang interval (spec/15 R319). -/
def execHangWatchdog (s : State) : Out :=
  let s := s.focus s.input.core
  .next (if s.hung then s.raiseHang else s)

end Sys2Proof.Machine
end

