-- ==== Sys2Proof/Machine/Sync.lean ====
section
/-!
DEFINITION. Gangs, stage barriers, futures, user traps and VRF segments: the rest of the sys slot but for power, and the
events of synchronisation (spec/13 R270 to R286, spec/15 R312, R313, spec/07 R154).
-/
set_option linter.unusedVariables false

namespace Sys2Proof.Machine

/-! ### Gangs (spec/13 R271 to R279) -/

/-- PROT or MISALIGNED of a gang's address (spec/13 R271). -/
def gangAddr (va : Word) : Option (Cause × Word) :=
  if Config.userEnd ≤ va.toNat then some (.prot, va) else if va.toNat % 64 ≠ 0 then some (.misaligned, va) else none

/-- The record of a gang in the running task. -/
def Arch.gangRec (a : Arch) (va : Word) : Option GangRec := a.gangs.find? (fun g => g.va = va)

/-- The checks of a gang operation that needs a record; PROT comes before MISALIGNED (spec/02 R40, spec/13 R271, R272). -/
def Arch.gangFault (a : Arch) (va : Word) : Option (Cause × Word) :=
  if (a.gangRec va).isNone then some (.prot, va) else gangAddr va

/-- An operation joins the outstanding ones (spec/13 R273). -/
def State.pushGang (k : GangKind) (va : Word) (ph : Nat) (d : Reg) (s : State) : State :=
  let (id, s) := s.newId
  s.modA (fun a => { a with gangOps := a.gangOps ++ [⟨id, k, va, ph, d, false⟩] })

/-- GJOIN (spec/13 R272, R274). -/
def execGjoin (d a : Reg) (s : State) : Out :=
  let va := s.core.a.rd a
  .next (match gangAddr va with
    | some (c, x) => s.fault 7 c x
    | none =>
      if 8 ≤ s.core.a.gangs.length || (s.core.a.gangRec va).isSome then s.fault 7 .badShape va
      else
        ((s.markEmpty d).modA (fun a => { a with gangs := a.gangs ++ [⟨va, 0⟩] })).pushGang .join va 0 d)

/-- The record of a gang changes: its phase rises by 1, or it goes (spec/13 R274). -/
def Arch.gangNext (a : Arch) (va : Word) (gone : Bool) : Arch :=
  if gone then { a with gangs := a.gangs.filter (fun g => g.va ≠ va) }
  else { a with gangs := a.gangs.map (fun g => if g.va = va then ⟨va, (g.ph + 1) % 2 ^ 32⟩ else g) }

/-- An operation on a gang in the record: its phase is the task's, and the record follows (spec/13 R274). -/
def State.gangOp (k : GangKind) (va : Word) (d : Reg) (gone : Bool) (s : State) : State :=
  match s.core.a.gangFault va with
  | some (c, x) => s.fault 7 c x
  | none =>
    let ph := ((s.core.a.gangRec va).map (fun g => g.ph)).getD 0
    ((s.markEmpty d).modA (fun a => a.gangNext va gone)).pushGang k va ph d

/-- GLEAVE (spec/13 R274). -/
def execGleave (a : Reg) (s : State) : Out := .next (s.gangOp .leave (s.core.a.rd a) 0 true)

/-- ARRIVE (spec/13 R274, R278). -/
def execArrive (d a : Reg) (s : State) : Out := .next (s.gangOp (.arrive false) (s.core.a.rd a) d false)

/-- ARRIVE.DROP (spec/13 R274, R278). -/
def execArriveDrop (d a : Reg) (s : State) : Out := .next (s.gangOp (.arrive true) (s.core.a.rd a) d true)

/-- BWAIT: the phase waited for is s[B] (spec/13 R277). -/
def execBwait (d a b : Reg) (s : State) : Out :=
  let va := s.core.a.rd a
  .next (match s.core.a.gangFault va with
    | some (c, x) => s.fault 7 c x
    | none => (s.markEmpty d).pushGang (.bwait ((s.core.a.rd b).toNat % 2 ^ 32)) va 0 d)

/-- SSTEP (spec/13 R279). -/
def execSstep (d a : Reg) (s : State) : Out := .next (s.gangOp .sstep (s.core.a.rd a) d false)

/-- Whether an operation is an arrival, or a join: what a later arrival of the gang waits for (spec/13 R273). -/
def GangKind.blocks : GangKind → Bool
  | .join | .arrive _ | .sstep => true
  | _ => false

/-- Whether an operation is a release (spec/13 R278, R279). -/
def GangKind.releases : GangKind → Bool
  | .arrive _ | .sstep => true
  | _ => false

/-- Whether a command goes on by itself once begun, and is no copy command in the sense of the superstep guarantee: a collective, or one
of a subscription (spec/13 R279). -/
def CopyKind.runsOn : CopyKind → Bool
  | .coll _ _ _ _ _ _ _ | .subs _ _ | .unsub _ | .slotrel _ => true
  | _ => false

/-- A core without the commands that run on. -/
def Core.withoutRunning (c : Core) : Core :=
  { c with ca := c.ca.filter (fun k => !(k.out && k.kind.runsOn)), cb := c.cb.filter (fun k => !(k.out && k.kind.runsOn)) }

/-- Whether the release of an arrival has its conditions; that of an SSTEP does not wait for collectives and subscriptions that run
(spec/13 R278, R279). -/
def Core.arrivalReady (c : Core) (o : GangOp) : Bool :=
  match o.kind with
  | .sstep => c.withoutRunning.performedBefore o.id .package
  | _ => c.performedBefore o.id .package

/-- The task parts of a core: the one that runs, those spilled below it, and those suspended there. -/
def State.partsOn (s : State) (n : Nat) : List Arch :=
  let c := s.getCore n
  (if c.busy then [c.a] else []) ++ c.inl.map (fun f => f.a) ++
  s.tasks.filterMap (fun t => if t.pinned == some n then t.saved.map (fun f => f.a) else none)

/-- Whether core n may send a gang operation of task part a now: every earlier one of the core is sent, an arrival waits for the part's
earlier joins and arrivals at the gang, and a release has its conditions (spec/13 R273, R278, R279). -/
def State.sendable (s : State) (n : Nat) (a : Arch) (o : GangOp) : Bool :=
  let older (b : Arch) := b.gangOps.filter (fun x => x.id < o.id)
  !o.sent && (s.partsOn n).all (fun b => (older b).all (fun x => x.sent)) &&
  (!o.kind.releases || ((older a).all (fun x => x.va ≠ o.va || !x.kind.blocks) && (s.getCore n).arrivalReady o &&
    a.memq.all (fun m => o.id ≤ m.id) && a.heldPier.all (fun e => o.id ≤ e.place)))

/-- An operation that reaches the gang in a cycle, with its task. -/
structure Reach where
  core : Nat
  tcb : Word
  o : GangOp

/-- Insert in ascending core number: ascending vdie, then vcore (spec/13 R275). -/
def insertReach (x : Reach) : List Reach → List Reach
  | [] => [x]
  | y :: rest => if x.core < y.core then x :: y :: rest else y :: insertReach x rest

/-- The operations of a list of (core, operation) that reach a gang. -/
def State.reaching (s : State) (ctx : Nat) (va : Word) (ps : List (Nat × Nat)) : List Reach :=
  (ps.filterMap (fun p => (s.partsOn p.1).findSome? (fun a =>
    if a.ctx ≠ ctx then none
    else (a.gangOps.find? (fun o => o.id = p.2 && o.va = va && s.sendable p.1 a o)).map (fun o => (⟨p.1, a.key, o⟩ : Reach))))).foldl
    (fun (acc : List Reach) (x : Reach) => insertReach x acc) []

/-- Remember that the gang has an operation. -/
def State.markSent (ctx : Nat) (r : Reach) (s : State) : State :=
  s.onTaskArch ctx r.tcb (fun a => { a with gangOps := a.gangOps.map (fun o => if o.id = r.o.id then { o with sent := true } else o) })

/-- An arrival at a gang (spec/13 R274, R279). -/
def State.gangArrive (ctx : Nat) (va : Word) (r : Reach) (drop wait : Bool) (s : State) : State :=
  match s.gangs.find? (fun g => g.ctx = ctx && g.va = va) with
  | none => s
  | some g =>
    let now := r.o.ph = g.p
    let w : GangWait := ⟨r.tcb, r.o.id, r.o.ph⟩
    let g' : Gang :=
      if now then { g with a := g.a + 1, n1 := if drop then g.n1 - 1 else g.n1 }
      else { g with e := g.e + 1, d1 := if drop then g.d1 + 1 else g.d1 }
    let g' : Gang := if wait then { g' with waits := g'.waits ++ [w] } else if now then g' else { g' with early := g'.early ++ [w] }
    let s := s.onGang ctx va (fun _ => g')
    if now && !wait then s.gangFill ctx r.tcb r.o.id r.o.ph false else s

/-- A join at a gang: the gang is made, or the member counts from the next phase on (spec/13 R274).
The 129th entry of an atomic unit is kept by firmware (spec/13 R271, R288). -/
def State.gangJoin (ctx : Nat) (va : Word) (r : Reach) (s : State) : State :=
  match s.gangs.find? (fun g => g.ctx = ctx && g.va = va) with
  | some g => (s.onGang ctx va (fun g => { g with n1 := g.n1 + 1 })).gangFill ctx r.tcb r.o.id ((g.p + 1) % 2 ^ 32) false
  | none =>
    let md (c : Nat) (x : Word) : Option Nat := (s.leaf? (s.ctxDie c) c x.toNat).map (fun l => mdOf (leafPa l.1 l.2 x.toNat false))
    let full := decide (128 ≤ (s.gangs.filter (fun g => md g.ctx g.va == md ctx va)).length)
    let g : Gang := ⟨ctx, va, 0, 1, 0, 1, 0, 0, [], []⟩
    let s : State := { s with gangs := s.gangs ++ [g] }
    (if full then s.askFor 1 ctx (tcbOf r.tcb) else s).gangFill ctx r.tcb r.o.id 0 false

/-- A wait registered at a gang, or filled at once (spec/13 R277). -/
def State.gangWait (ctx : Nat) (va : Word) (r : Reach) (b : Nat) (s : State) : State :=
  match s.gangs.find? (fun g => g.ctx = ctx && g.va = va) with
  | none => s
  | some g =>
    if phasePast g.p b then s.gangFill ctx r.tcb r.o.id g.p true
    else s.onGang ctx va (fun g => { g with waits := g.waits ++ [⟨r.tcb, r.o.id, b⟩] })

/-- One fabric cycle of a gang with the operations that reach it (spec/13 R275). -/
def State.gangCycle (ctx : Nat) (va : Word) (rs : List Reach) (s : State) : State :=
  let s := rs.foldl (fun s r => s.markSent ctx r) s
  let s := rs.foldl (fun s r => match r.o.kind with
    | .arrive true => s.gangArrive ctx va r true false
    | _ => s) s
  let s := rs.foldl (fun s r => match r.o.kind with
    | .arrive false => s.gangArrive ctx va r false false
    | .sstep => s.gangArrive ctx va r false true
    | _ => s) s
  let s := rs.foldl (fun s r => match r.o.kind with
    | .leave => (s.onGang ctx va (fun g => g.leave r.o.ph)).gangFill ctx r.tcb r.o.id 0 false
    | _ => s) s
  let s := s.gangComplete ctx va
  let s := rs.foldl (fun s r => match r.o.kind with
    | .join => s.gangJoin ctx va r
    | _ => s) s
  rs.foldl (fun s r => match r.o.kind with
    | .bwait b => s.gangWait ctx va r b
    | _ => s) s

/-- GANG_CYCLE: the operations `pairs`, each a core and an operation's number, reach the gang at `va` of context `ctx` in one cycle
(spec/13 R275).
An address without a translation is a deferred PAGE of the operation's task, and the gang's cycle has none (spec/13 R271). -/
def execGangCycle (s : State) : Out :=
  let i := s.input
  let rs := s.reaching i.ctx i.va i.pairs
  let page : Deferred := ⟨.page, i.va⟩
  .next (if (s.leaf? (s.ctxDie i.ctx) i.ctx i.va.toNat).isNone then
      (rs.foldl (fun s r => s.onTaskArch i.ctx r.tcb (fun a =>
        if a.deferred.contains page then a else { a with deferred := a.deferred ++ [page] })) s).gangCycle i.ctx i.va []
    else s.gangCycle i.ctx i.va rs)

/-! ### Stage barriers (spec/13 R280 to R283) -/

/-- TCEXP (spec/13 R282). -/
def execTcexp (a : Reg) (sb : Fin 64) (s : State) : Out :=
  let n := (s.core.a.rd a).toNat
  .next (if n = 0 || decide (2 ^ 30 - 1 < n) || bitOf (s.core.barrier sb.val) 62 then s.fault 7 .badShape 0
    else s.fly 1 7 [.tcexp sb n])

/-- TCWAIT (spec/13 R283). -/
def execTcwait (d : Reg) (sb : Fin 64) (s : State) : Out :=
  .next ((s.markEmpty d).modA (fun a => { a with tcwaits := a.tcwaits ++ [(sb, d)], tcfresh := a.tcfresh ++ [sb] }))

/-- Whether a TCWAIT on the barrier that an instruction waits for is outstanding on the acting core, of whichever task part: a second one
freezes the core (spec/13 R283). -/
def State.barrierTaken (s : State) (i : Instr) : Bool :=
  match (uses i).tcw with
  | none => false
  | some sb => (s.partsOn s.core.id).any (fun a => a.tcwaits.any (fun w => w.1 == sb) &&
      s.barrierBase a.ctx == s.barrierBase s.core.a.ctx)

/-- Whether an instruction cannot issue in this cycle, by what its core and the tasks that left it hold (spec/02 R42, spec/13 R283). -/
def State.frozenBy (s : State) (i : Instr) : Bool := s.core.frozenBy i || s.barrierTaken i

/-- Barrier `sb` of the acting core completes its phase for a task part that waits with destination `d`, if its count has reached the
expected one (spec/13 R283). -/
def State.endPhase (ctx : Nat) (key : Word) (sb : Fin 64) (d : Reg) (s : State) : State :=
  let base := s.barrierBase ctx
  let w := s.core.barrierAt base sb.val
  let exp := bits w 61 32
  let cnt := bits w 29 0
  if bitOf w 62 && decide (exp ≤ cnt) then
    let w' := barWord (!bitOf w 63) false 0 (cnt - exp)
    (s.modCore (fun c => c.setBarrierAt base sb.val w')).onTaskArch ctx key (fun a =>
      { a with tcwaits := a.tcwaits.filter (fun x => x.1 ≠ sb) }.fillS d w')
  else s

/-- The waits on the acting core's barriers of which a predicate on barriers holds: task part, barrier and destination; one whose TCWAIT
issued in the last cycle completes from the next on (spec/13 R283). -/
def State.barrierWaits (s : State) (ok : Fin 64 → Bool) : List ((Nat × Word) × Fin 64 × Reg) :=
  (s.partsOn s.core.id).flatMap (fun a =>
    (a.tcwaits.filter (fun w => ok w.1 && !a.tcfresh.contains w.1)).map (fun w => ((a.ctx, a.key), w)))

/-- The phases of the acting core's barriers that complete in a cycle (spec/13 R283). -/
def State.barrierCycle (s : State) : State :=
  (s.barrierWaits (fun _ => true)).foldl (fun s w => s.endPhase w.1.1 w.1.2 w.2.1 w.2.2) s

/-- TCWAIT_PHASE_COMPLETE of barrier `sb` of core `core` (spec/13 R283).
A core that runs a task completes phases in its own cycles too; the event brings a completion between two of them, or on a core that runs
none. -/
def execTcwaitPhaseComplete (s : State) : Out :=
  let i := s.input
  let s := s.focus i.core
  .next (match (s.barrierWaits (fun sb => sb = i.sb)).head? with
    | none => s
    | some w => s.endPhase w.1.1 w.1.2 w.2.1 w.2.2)

/-! ### Futures (spec/13 R284 to R287) -/

/-- The checks of a cell's address at issue (spec/13 R284). -/
def cellFault (va : Word) : Option (Cause × Word) :=
  if Config.userEnd < va.toNat + 16 then some (.prot, va) else if va.toNat % 16 ≠ 0 then some (.misaligned, va) else none

/-- Hold the core for a cell, unless its address faults. -/
def State.holdCell (d : Reg) (va : Word) (b : Block) (s : State) : State :=
  match cellFault va with
  | some (c, x) => s.fault 7 c x
  | none => (s.markEmpty d).hold b

/-- FGET (spec/13 R285). -/
def execFget (d a : Reg) (s : State) : Out :=
  let va := s.core.a.rd a
  .next (s.holdCell d va (.fget d va))

/-- fwait.spin (spec/13 R286). -/
def execFwaitSpin (d a b : Reg) (s : State) : Out :=
  let va := s.core.a.rd a
  .next (s.holdCell d va (.fwait d va true (some (s.frame.toNat + (s.core.a.rd b).toNat)) false))

/-- fwait.yield; a count of 0 sets no limit (spec/13 R286). -/
def execFwaitYield (d a b : Reg) (s : State) : Out :=
  let va := s.core.a.rd a
  let n := (s.core.a.rd b).toNat
  .next (s.holdCell d va (.fwait d va false (if n = 0 then none else some (s.frame.toNat + n)) false))

/-- The address of the request of a core that is under way outside the mem queue: that of a future's cell, else its fetch. -/
def Arch.asked (a : Arch) : Word :=
  match a.block with
  | some (.fget _ va) | some (.fwait _ va _ _ _) => va
  | _ => a.pc

/-- Whether the core is held for the read of a future's cell. -/
def Arch.asksCell (a : Arch) : Bool :=
  match a.block with
  | some (.fget _ _) | some (.fwait _ _ _ _ _) => true
  | _ => false

/-- FGET_RESPONSE on core `core`: the cell's state returns to a held FGET or FWAIT (spec/13 R285, R286); with `fn` 1 the read only leaves
the die, and one that is not answered in time is a deferred TIMEOUT, as of any request (spec/05 R122). -/
def execFgetResponse (s : State) : Out :=
  let s := s.focus s.input.core
  let due := s.overdue s.core.fetchAt
  .next (if !s.core.readAllowed || !s.core.a.deferred.isEmpty then s
    else if s.input.fn = 1 && !due then
      if s.core.a.asksCell then s.modCore (fun c => { c with fetchAt := some (c.fetchAt.getD s.frame.toNat) }) else s
    else
    let s := if s.core.a.asksCell then s.modCore (fun c => { c with fetchAt := none }) else s
    match s.core.a.block with
    | some (.fget d va) =>
      if due then s.defer .timeout va else
      match s.readCell va with
      | .error c => s.cellTrap d c va
      | .ok none => s.cellTrap d .futEmpty va
      | .ok (some x) => ((s.modA (fun a => a.fillS d x)).acquire .package).finishSlot7
    | some (.fwait d va spin til _) =>
      if due then s.defer .timeout va else
      match s.readCell va with
      | .error c => s.cellTrap d c va
      | .ok (some _) => ((s.modA (fun a => a.fillS d 1)).acquire .package).finishSlot7
      | .ok none =>
        if !spin then s.hold (.suspend (.future d va til))
        else if decide ((til.getD 0) ≤ s.frame.toNat) then (s.modA (fun a => a.fillS d 0)).finishSlot7
        else s.hold (.fwait d va spin til true)
    | _ => s)

/-- FWAIT_TIMEOUT: the count of a spinning FWAIT on core `core`, or of the suspended task at `va` of context `ctx`, has run out
(spec/13 R286). -/
def execFwaitTimeout (s : State) : Out :=
  let i := s.input
  let s := s.focus i.core
  .next (match s.core.a.block with
    | some (.fwait d _ true til true) =>
      if decide ((til.getD 0) ≤ s.frame.toNat) then (s.modA (fun a => a.fillS d 0)).finishSlot7 else s
    | _ =>
      match s.task? i.ctx i.va with
      | none => s
      | some t =>
        match t.wait with
        | some (.future d _ (some til)) =>
          if t.st = .suspended && decide (til ≤ s.frame.toNat) then (s.fillFor i.ctx i.va d 0).readyPinned i.ctx i.va else s
        | _ => s)

/-! ### TRAP, UTRET, SEGS (spec/15 R312, R313, spec/07 R154) -/

/-- TRAP: its cause is raised after its slot commits; inside a handler it is ILLEGAL_OP (spec/15 R311, R312). -/
def execTrap (n : BitVec 15) (s : State) : Out :=
  .next (if s.core.a.ut then s.illegal 7 else s.fault 8 .trap (word n.toNat))

/-- trap.dup: DUP_MISMATCH, a hardware error (spec/15 R312). -/
def execTrapDup (n : BitVec 15) (s : State) : Out := .next (s.fault 8 .dupMismatch (word n.toNat))

/-- UTRET (spec/15 R313).
An expiry that waits is taken before the next bundle (R301). -/
def execUtret (s : State) : Out :=
  .next (if !s.core.a.ut then s.illegal 7
    else s.modCore (fun c =>
      let c := ({ c.closeIssue false with seq := c.seq + 1, watch := 0 }).trapReturn
      { c with iss := { Issue.none_ with trapped := true } }))

/-- One segment under SEGS (spec/07 R154). -/
def Seg.set (m : SegRest) (on : Bool) (x : Seg) : Seg :=
  if on then
    match x with
    | .retain => .waking false 24
    | .off => .waking true 96
    | x => x
  else match m, x with
    | .off, _ => .off
    | .retain, .on => .retain
    | .retain, .waking true _ => .off
    | .retain, .waking false _ => .retain
    | .retain, x => x

/-- The vectors and tags of segments that are not OFF. -/
def Arch.keepOn (a : Arch) : Arch :=
  let off (j : Nat) := a.segs.getD j .off == .off
  { a with vrf := a.vrf.filter (fun v => !off (v.1 / 256)), vrfTags := a.vrfTags.filter (fun g => !off (g.1 / 2048)) }

/-- SEGS (spec/07 R154). -/
def execSegs (m : SegRest) (n : BitVec 5) (s : State) : Out :=
  .next (s.modA (fun a =>
    { a with segs := Vector.ofFn (fun i : Fin 16 => (a.segs[i]).set m (decide (i.val < n.toNat))) }.keepOn))

end Sys2Proof.Machine
end

