-- ==== Sys2Proof/Machine/Power.lean ====
section
/-!
DEFINITION. Tokens, leases, the heat store and wear (spec/14 R289 to R306) and the time base (spec/01 R29, R30).
-/
set_option linter.unusedVariables false

namespace Sys2Proof.Machine

/-- LEASE (spec/14 R293, R295). -/
def execLease (d a b : Reg) (s : State) : Out :=
  let mhz := (s.core.a.rd a).toNat
  let us := (s.core.a.rd b).toNat
  .next (if mhz % 10 ≠ 0 || decide (mhz < 950) || decide (1130 < mhz) || us = 0 || decide (2 ^ 32 ≤ us) then s.fault 7 .badShape 0
    else (s.markEmpty d).onCluster (clusterOf s.core.id) (fun c =>
      { c with leaseReqs := c.leaseReqs ++ [⟨s.core.id, mhz, us, d, s.frame.toNat⟩] }))

/-- LEASEREL (spec/14 R293, R296): the holder's lease ends at once and the clock is back at base, and a lease past its expiry tick is
none. -/
def execLeaserel (d : Reg) (s : State) : Out :=
  let c := s.cluster s.core.id
  let live := c.heldBy s.core && (match c.lease with
    | some l => decide (s.frame.toNat < l.expiry)
    | none => false)
  .next (if live then (s.onCluster (clusterOf s.core.id) (Cluster.endLease s.sinceEpoch)).emptyFill d 0 else s.emptyFill d 1)

/-- PERMIT (spec/14 R293, R294). -/
def execPermit (d a : Reg) (s : State) : Out :=
  let n := (s.core.a.rd a).toNat
  .next (if n = 0 || decide (65535 < n) then s.fault 7 .badShape 0 else (s.markEmpty d).requestTokens n (some d))

/-! ### Tokens (spec/14 R289 to R292) -/

/-- The largest copy credit in bytes (spec/14 R292). -/
def creditMax : Nat := 1048575 * 16384

/-- Tokens granted to a task: copy credit, or the routine that waits (spec/14 R292). -/
def Arch.granted (a : Arch) (r : TokenReq) : Arch :=
  match r.dst with
  | some d => { a with credit := min creditMax (a.credit + r.n * 16384) }.fillS d (word r.n)
  | none =>
    match a.eng with
    | .tokens n => { a with eng := .timed n, stat := { a.stat with pw := false } }
    | _ => a

/-- TOKEN_GRANT of cluster `cluster`: its head request is granted when the balance allows (spec/14 R291). -/
def execTokenGrant (s : State) : Out :=
  let n := s.input.cluster
  let c := s.clusters[n]
  .next (match c.reqs with
    | [] => s
    | r :: rest =>
      if c.balance < (min r.n (2 * c.refill) : Nat) then s
      else
        let s := s.onCluster n.val (fun c => { c with reqs := rest, balance := c.balance - r.n, drawn := c.drawn + r.n })
        s.onCore r.core (fun c => { c with a := c.a.granted r }))

/-- Clusters with enabled cores and no lease (spec/14 R290). -/
def State.sharing (s : State) : List (Nat × Cluster) :=
  ((List.range 32).zip s.clusters.toList).filter (fun c => !c.2.enabled.isEmpty && c.2.lease.isNone)

/-- Give leftover tokens, one a cluster in turn, to clusters below 752 (spec/14 R290).
The fuel is the number of tokens. -/
def giveLeft : Nat → List (Nat × Nat) → Nat → List (Nat × Nat)
  | 0, xs, _ => xs
  | fuel + 1, xs, left =>
    if left = 0 || xs.all (fun x => 752 ≤ x.2) then xs
    else
      let (ys, l) := xs.foldl (fun (acc : List (Nat × Nat) × Nat) x =>
        if acc.2 ≠ 0 && x.2 < 752 then (acc.1 ++ [(x.1, x.2 + 1)], acc.2 - 1) else (acc.1 ++ [x], acc.2)) ([], left)
      giveLeft fuel ys l

/-- The refills of the clusters that share the pool (spec/14 R290). -/
def sharedRefills (cs : List (Nat × Nat)) : List (Nat × Nat) :=
  let k := cs.length
  let rest := 489 * k - 122 * k
  let drawn := (cs.map Prod.snd).foldl (fun x y => x + y) 0
  let ws := cs.map (fun c => (c.1, if drawn = 0 then 1 else c.2))
  let total := (ws.map Prod.snd).foldl (fun x y => x + y) 0
  let shares := ws.map (fun w => (w.1, min (752 - 122) (rest * w.2 / max 1 total)))
  let left := rest - (shares.map Prod.snd).foldl (fun x y => x + y) 0
  giveLeft left (shares.map (fun x => (x.1, 122 + x.2))) left

/-- The refill of every cluster for the new epoch; at the first boundary every cluster counts a draw of 0 (spec/14 R289, R290). -/
def State.refill (s : State) : State :=
  let rs := sharedRefills (s.sharing.map (fun c => (c.1, if s.epoch0 then 0 else c.2.drawn)))
  let s : State := { s with epoch0 := false }
  (List.range 32).foldl (fun s n => s.onCluster n (fun c =>
    if c.enabled.isEmpty then c
    else
      let r : Nat := match c.lease with
        | some l => 8 * l.level / 10
        | none => ((rs.find? (fun x => x.1 = n)).map Prod.snd).getD c.refill
      { c with refill := r, balance := min (c.balance + r) (2 * r), drawn := 0 })) s

/-- The epoch that ends counts for a cluster that spent it in SPRINT (spec/14 R306). -/
def State.countSprint (s : State) : State :=
  { s with clusters := s.clusters.map (fun (c : Cluster) => if c.st = .sprint then { c with sprintUs := c.sprintUs + 10 } else c) }

/-! ### The heat store and lease states (spec/14 R297 to R302) -/

/-- Latent heat capacity in units of 10^-10 J. -/
def ecap : Nat := Config.ecapMicro * 10000

/-- The heat after an epoch of a package power in mW (spec/14 R297). -/
def heatAfter (e mw : Nat) : Nat :=
  if 2400000 < mw then min ecap (e + (mw - 2400000) * 100) else e - (2400000 - mw) * Config.rfPercent

/-- MELT of a heat (spec/14 R297). -/
def meltOf (e : Nat) : Nat := min 1023 (1024 * e / ecap)

/-- LEASE_EXPIRED to the holder of a lease, with its cause (spec/14 R301). -/
def State.expire (l : Lease) (cause : Nat) (s : State) : State :=
  s.onCore l.core (fun c => if c.busy && c.a.tcb = l.tcb then { c with a := { c.a with lx := some cause } } else c)

/-- End the lease of a cluster with LEASE_EXPIRED (spec/14 R299). -/
def State.endLeaseTrap (n cause : Nat) (s : State) : State :=
  if h : n < 32 then
    match (s.clusters[n]).lease with
    | some l => (s.onCluster n (Cluster.endLease s.sinceEpoch)).expire l cause
    | none => s
  else s

/-- MELT reaches 1,008, or falls to 128 (spec/14 R299). -/
def State.meltRows (s : State) : State :=
  if 1008 ≤ s.melt && !s.rf then
    let s := (List.range 32).foldl (fun s n => s.endLeaseTrap n 1) s
    { s with rf := true, clusters := s.clusters.map (fun c => if c.st = .disabled then c else { c with st := .refreeze }) }
  else if s.rf && s.melt ≤ 128 then
    { s with rf := false, clusters := s.clusters.map (fun c => if c.st = .refreeze then { c with st := .base } else c) }
  else s

/-- The word that a decided lease request fills (spec/14 R295). -/
def leaseAnswer (level code : Nat) : Word := word (level * 2 ^ 16 + code)

/-- One lease request decided (spec/14 R295, R299). -/
def State.decideLease (n : Nat) (r : LeaseReq) (s : State) : State :=
  if h : n < 32 then
    let c := s.clusters[n]
    let tcb := (s.getCore r.core).a.tcb
    let fill (x : Word) (s : State) : State := s.onCore r.core (fun c => { c with a := c.a.fillS r.dst x })
    match c.st with
    | .refreeze => fill (leaseAnswer 0 2) s
    | .disabled => fill (leaseAnswer 0 3) s
    | .sprint => fill (leaseAnswer 0 4) s
    | .base =>
      if 896 ≤ s.melt then fill (leaseAnswer 0 1) s
      else
        let level := min r.mhz c.sceil
        fill (leaseAnswer level 0) (s.onCluster n (fun c =>
          { c with st := .sprint, lease := some ⟨level, s.frame.toNat + 100 * r.us, r.core, tcb⟩ }))
  else s

/-- Insert a request in ascending core number. -/
def insertReq (x : LeaseReq) : List LeaseReq → List LeaseReq
  | [] => [x]
  | y :: rest => if x.core < y.core then x :: y :: rest else y :: insertReq x rest

/-- Every lease request issued at least 20 ticks ago is decided, in ascending vcore order (spec/14 R295). -/
def State.decideLeases (s : State) : State :=
  (List.range 32).foldl (fun s n =>
    if h : n < 32 then
      let due (r : LeaseReq) : Bool := r.issued + 20 ≤ s.frame.toNat
      let rs := ((s.clusters[n]).leaseReqs.filter due).foldl (fun acc r => insertReq r acc) []
      rs.foldl (fun s r => s.decideLease n r)
        (s.onCluster n (fun c => { c with leaseReqs := c.leaseReqs.filter (fun r => !due r) }))
    else s) s

/-! ### Wear (spec/14 R303 to R306) -/

/-- The guard-band that a drift asks for, in mV (spec/14 R304). -/
def guardFor (d : Nat) : Nat := if d < 400 then 0 else 5 * (d / 100 - 3)

/-- The sprint ceiling of a drift, in MHz; 0 when disabled (spec/14 R304). -/
def ceilingFor (d : Nat) : Nat := if d < 400 then 1130 else if d < 700 then 1030 else 0

/-- A cluster's limits after a measurement (spec/14 R304, R305). -/
def Cluster.wear (c : Cluster) : Cluster :=
  let d := c.drift
  let maxv := c.maxv || decide (Config.guardLimit < guardFor d)
  { c with guard := min Config.guardLimit (guardFor d), maxv := maxv, sceil := ceilingFor d,
           baseClk := if d < 1000 then 940 else 880, marked := c.marked || maxv || decide (1200 < d),
           lease := c.lease.map (fun l => { l with level := if d < 700 then min l.level (ceilingFor d) else l.level }) }

/-- Wear acts on every cluster at an epoch boundary (spec/14 R299, R304, R305, spec/16 R337).
A new mark for deconfiguration is logged. -/
def State.wearRows (s : State) : State :=
  (List.range 32).foldl (fun s n =>
    if h : n < 32 then
      let c := s.clusters[n]
      let w := c.wear
      let s := s.onCluster n (fun _ => w)
      let s := if w.marked && !c.marked then s.logHost 5 (some (n / 4)) none none else s
      if 700 ≤ w.drift then (s.endLeaseTrap n 2).onCluster n (fun c => { c with st := .disabled }) else s
    else s) s

/-- REFILL_EPOCH: the epoch boundary at a FRAME that is a multiple of 1,000, once; `len` is the package power measured over the
epoch, in mW (spec/14 R289, R290, R295, R297, R299). -/
def execRefillEpoch (s : State) : Out :=
  let f := s.frame.toNat
  .next (if f % 1000 ≠ 0 || f / 1000 = s.epoch then s
    else
      let e := heatAfter s.heat s.input.len
      let s := { s.countSprint with epoch := f / 1000, heat := e, melt := meltOf e }
      s.meltRows.decideLeases.wearRows.refill.showWear)

/-- LEASE_EXPIRY of cluster `cluster`: FRAME has reached the lease's expiry tick (spec/14 R299). -/
def execLeaseExpiry (s : State) : Out :=
  let n := s.input.cluster
  .next (match (s.clusters[n]).lease with
    | some l => if l.expiry ≤ s.frame.toNat then s.endLeaseTrap n.val 0 else s
    | none => s)

/-- WEAR_MEASUREMENT at a FRAME that is a multiple of 100,000,000: `pairs` holds physical cores and their monitors' frequencies
(spec/14 R303, R306). -/
def execWearMeasurement (s : State) : Out :=
  .next (if s.frame.toNat % 100000000 ≠ 0 then s
    else
      let s := s.input.pairs.foldl (fun s p =>
        let k := p.1 % 9
        let d := (Config.birthFreq - p.2) * 10000 / Config.birthFreq
        s.onCluster (clusterOf p.1) (fun c => { c with drifts := listSet c.drifts k (max d (c.drifts.getD k 0)) })) s
      let s : State := { s with clusters := s.clusters.map (fun (c : Cluster) => { c with time := s.frame.toNat, measured := c.measured + 1 }) }
      s.showWear)

/-! ### The time base (spec/01 R29, R30) -/

/-- TIME_BASE_TICK: FRAME advances on every die together, and the hang watchdogs of cores with a task count (spec/01 R29,
spec/15 R319). -/
def execTimeBaseTick (s : State) : Out :=
  let f (c : Core) : Core := if c.busy then { c with watch := c.watch + 1 } else c
  .next (if !s.timeBase then s
    else { s with frame := s.frame + 1, core := f s.core, others := s.others.map (fun c => (c.1, f c.2)) })

end Sys2Proof.Machine
end

