-- ==== Sys2Proof/Machine/Images.lean ====
section
/-!
DEFINITION. Pre-emption, context images and restore (spec/15 R320 to R324).
-/
set_option linter.unusedVariables false

namespace Sys2Proof.Machine

/-! ### The save (spec/15 R320, R321, R323) -/

/-- Whether a core holds anything of a context: its task, spilled tasks, commands, subscriptions, admissions or view pieces
(spec/15 R320). -/
def State.holdsOf (s : State) (ctx : Nat) (n : Nat) : Bool :=
  let c := s.getCore n
  (c.busy && c.a.ctx == ctx) || c.inl.any (fun f => f.a.ctx = ctx) || (c.ca ++ c.cb).any (fun k => k.ctx = ctx) ||
  c.subs.any (fun x => x.ctx = ctx) || c.rels.any (fun r => r.ctx = ctx) ||
  s.liveWins.any (fun w => w.1 = ctx && !w.2.pool && w.2.core = n)

/-- Whether a command of the acting core has still to reach its next progress boundary: a granule of a piece of 4 KiB that is begun can
move (spec/11 R218, spec/15 R320 step 5). -/
def State.copyRuns (s : State) (q : CopyQ) (k : CopyCmd) : Bool :=
  k.out && k.paused.isNone && (List.range k.granules).any (fun j =>
    k.begun j && !k.has j && s.placesReady q k (s.rangeTouches (s.archOf k.ctx k.tcb) .write (k.granuleVa j).2 64))

/-- Whether the acting core has reached the point at which its image is written: seals and checks are over, the engine stands between
micro-words or waits for tokens, every entry that can leave the pier has left, what has left it is performed or held, and every copy
command stands at a progress boundary (spec/15 R320 steps 1 to 5). -/
def State.savable (s : State) : Bool :=
  let c := s.core
  c.a.clean && c.arbit.isNone && c.sealErr.isNone && c.a.checks.isEmpty && c.headLeaves.isNone &&
  c.outq.all (fun r => r.held && r.cmd.isNone) &&
  (match c.a.eng with
   | .idle | .tokens _ => true
   | _ => false) &&
  !c.ca.any (s.copyRuns .ca) && !c.cb.any (s.copyRuns .cb)

/-- The entries of a table that belong to a context, whose `n` entries lie from n times its number on (spec/09 R180). -/
def Tbl.ofCtx {α : Type} (n ctx : Nat) (t : Tbl α) : Tbl α := t.filter (fun e => e.1 / n = ctx)

/-- A table without the entries of a context. -/
def Tbl.sansCtx {α : Type} (n ctx : Nat) (t : Tbl α) : Tbl α := t.filter (fun e => e.1 / n ≠ ctx)

/-- The image of the acting core (spec/15 R323); its microprogram is the context's (spec/09 R180). -/
def State.imageOf (ctx : Nat) (s : State) : CoreImage :=
  let c := s.core
  let v := ((s.ctx? ctx).bind (fun x => x.vOf c.id)).getD (0, 0)
  { vdie := v.1, vcore := v.2, src := c.id, busy := c.busy, a := c.carried, ca := c.ca, cb := c.cb, subs := c.subs,
    rels := c.rels, ustore := Tbl.ofCtx 4096 ctx c.ustore, entries := Tbl.ofCtx 256 ctx c.entries, spad := c.spad,
    spadTags := c.spadTags, inl := c.inl, dedup := c.dedup, watch := c.watch, seq := c.seq, nextId := c.nextId }

/-- Change a context's image. -/
def State.onImage (ctx : Nat) (f : Image → Image) (s : State) : State :=
  s.onCtx ctx (fun c => { c with image := c.image.map f })

/-- Write the image of core n, which is then free; its lease ends without a trap and its token requests are withdrawn
(spec/15 R320 steps 7 and 8). -/
def State.saveCore (ctx n : Nat) (s : State) : State :=
  let s := s.focus n
  let s := if s.core.busy then s.leaveCluster else s
  let im := s.imageOf ctx
  let s := s.onImage ctx (fun i => { i with cores := i.cores ++ [im] })
  s.modCore (fun c => { c.freed with ca := [], cb := [], subs := [], rels := [], inl := [], dedup := [] })

/-- The queue entries and armed-table entries of a context go to the context record (spec/15 R320). -/
def State.saveQueues (ctx : Nat) (s : State) : State :=
  let mine (q : List QEntry) := q.filter (fun e => e.ctx = ctx)
  let cores := s.coreIds.flatMap (fun c => (mine (s.getCore c).queue).map (fun e => (QueueRef.core c, e)))
  let dies := (List.range 8).flatMap (fun d => (mine (s.die d).queue).map (fun e => (QueueRef.die d, e)))
  let armed := (List.range 8).flatMap (fun d => (mine (s.die d).armed).map (fun e => (d, e)))
  let s := s.onImage ctx (fun i => { i with queued := cores ++ dies ++ i.queued, armed := i.armed ++ armed })
  s.dropQueued (fun x _ => x = ctx)

/-- The offset of the core image table: behind the header (spec/15 R322; log 86). -/
def Image.table : Nat := 0x100

/-- The offset of the bytes behind the core image table (spec/15 R322; log 86). -/
def Image.bodyAt (im : Image) : Nat := Image.table + 32 * im.cores.length

/-- The cells of a context image's header at an address (spec/15 R322).
The offset of the context record and the image's size are free values from number `n` on (log 86). -/
def Image.header (im : Image) (ctx a n : Nat) : List (Nat × Byte) :=
  cellsOf a 4 0x43475845 ++ cellsOf (a + 0x04) 2 1 ++ cellsOf (a + 0x06) 2 im.cores.length ++ cellsOf (a + 0x08) 8 im.frameq ++
  cellsOf (a + 0x10) 8 im.framec ++ cellsOf (a + 0x18) 8 ctx ++ cellsOf (a + 0x20) 8 Image.table ++
  cellsOf (a + 0x28) 8 (Config.freeWord n).toNat ++ cellsOf (a + 0x30) 8 (Config.freeWord (n + 1)).toNat ++
  cellsOf (a + 0x38) 192 0 ++ cellsOf (a + 0xF8) 8 (if im.commit then 1 else 0)

/-- The 32 bytes of an entry of the core image table at an address: origin, source id, task, and the place and size of the core image,
which are free values from number `n` on (spec/15 R322; log 86). -/
def CoreImage.entry (i : CoreImage) (a n : Nat) : List (Nat × Byte) :=
  cellsOf a 1 i.vdie ++ cellsOf (a + 1) 1 i.vcore ++ cellsOf (a + 2) 2 (pcore i.src) ++ cellsOf (a + 4) 4 0 ++
  cellsOf (a + 8) 8 (if i.busy then i.a.tcb else 0).toNat ++ cellsOf (a + 16) 8 (Config.freeWord n).toNat ++
  cellsOf (a + 24) 8 (Config.freeWord (n + 1)).toNat

/-- Whether a context's save area has room for its image: the spec gives a core image no size, and the environment says by bit 3 of the
input's mask when the area is too small (spec/15 R322, spec/16 R332; log 86). -/
def State.saveFits (s : State) (c : Context) : Bool :=
  match c.image with
  | some im => decide (im.bodyAt ≤ c.save.2) && s.populatedPage c.save.1 c.save.2 && !bitOf s.input.mask 3
  | none => false

/-- The image of a context in its save area: the header, the core image table, and behind them bytes whose places the spec leaves to each
image (spec/15 R322; log 86). -/
def State.writeImage (ctx : Nat) (s : State) : State :=
  match (s.ctx? ctx).bind (fun c => c.image.map (fun im => (c.save, im))) with
  | some ((a, size), im) =>
    let n := s.free
    let entries := ((List.range im.cores.length).zip im.cores).flatMap (fun p =>
      p.2.entry (a + Image.table + 32 * p.1) (n + 2 + 2 * p.1))
    let m := n + 2 + 2 * im.cores.length
    let body := (List.range (size - im.bodyAt)).map (fun j => (a + im.bodyAt + j, Config.freeByte (m + j)))
    { s.writePhys (im.header ctx a n ++ entries ++ body) [] with free := m + size }
  | none => s

/-- The commit of an image, with which the PREEMPT is answered: a watchdog that expired during the save ends its launch with HANG
(spec/15 R321, R322, spec/16 R330). -/
def State.commitImage (ctx : Nat) (s : State) : State :=
  match s.ctx? ctx with
  | none => s
  | some c =>
    let s := s.saveQueues ctx
    let s := (s.onImage ctx (fun i => { i with commit := true, framec := s.frame.toNat })).writeImage ctx
    let late := ((c.image.map (fun i => i.cores)).getD []).filter (fun x => x.busy && decide (c.hang ≤ x.watch))
    let s := late.foldl (fun s x =>
      match s.task? ctx x.a.tcb with
      | none => s
      | some t => s.endLaunch t.launch 3 (Cause.code .watchdog) 2 t.tcb x.a.pc (word x.watch) (pcore x.src)) s
    s.respondTo 0 ((c.image.map (fun i => i.seq)).getD 0) 0

/-- An image that does not fit its save area asks the supervisor core for room, once for each task that it holds (spec/13 R288,
spec/16 R332). -/
def State.askSave (c : Context) (s : State) : State :=
  (((c.image.map (fun i => i.cores)).getD []).filter (fun x => x.busy)).foldl (fun s x => s.askFor 9 c.num x.a.tcb) s

/-- The save goes on: every core of the context that can be saved is, and with the last one the image commits, if it has room
(spec/15 R320, R322). -/
def State.saveStep (ctx : Nat) (s : State) : State :=
  let me := s.core.id
  let s := (s.coreIds.filter (s.holdsOf ctx)).foldl (fun s n =>
    let done := (((s.ctx? ctx).bind (fun c => c.image)).map (fun i => i.cores.any (fun x => x.src = n))).getD true
    if !done && (s.focus n).savable then s.saveCore ctx n else s) s
  let s := s.focus me
  let saved (n : Nat) : Bool :=
    (((s.ctx? ctx).bind (fun c => c.image)).map (fun i => i.cores.any (fun x => x.src = n))).getD true
  if !s.coreIds.all (fun n => !s.holdsOf ctx n || saved n) then s
  else match s.ctx? ctx with
    | some c => if s.saveFits c then s.commitImage ctx else s.askSave c
    | none => s

/-- Whether a save is past its deadline: 10,000 ticks after the request, and the `len` ticks that arbitrations took (spec/15 R321). -/
def State.saveLate (s : State) (ctx len : Nat) : Bool :=
  (((s.ctx? ctx).bind (fun c => c.preempt)).map (fun f => decide (f + 10000 + len ≤ s.frame.toNat))).getD false &&
  !s.coreIds.any (fun n => s.holdsOf ctx n && (s.getCore n).arbit.isSome)

/-- Whether a task is in the image that a save makes: on a core, in a queue or an armed table, or suspended (spec/15 R320, R323). -/
def Task.inImage (t : Task) : Bool :=
  match t.st with
  | .armed | .ready | .running | .suspended => true
  | .new | .done | .cancelled => false

/-- A save past its deadline: every launch with a task in the image ends with CONTEXT_LOST, and the image is never read
(spec/15 R321). -/
def State.loseImage (ctx seq : Nat) (s : State) : State :=
  let lost := (s.launches.filter (fun l => l.ctx = ctx && s.tasks.any (fun t => t.launch = l.num && t.inImage))).map (fun l => l.num)
  let s := lost.foldl (fun s n => s.endLaunch n 4 0 1 0 0 0 0) s
  (s.onCtx ctx (fun c => { c with preempt := none, image := none })).respondTo 0 seq 1

/-- PREEMPT of context `ctx` by function `fn`: the request; while the save lasts and its deadline is not past, the same step carries it on
(spec/15 R320, R321, spec/16 R330). -/
def execPreempt (s : State) : Out :=
  let i := s.input
  .next (if i.fn = 0 && ((s.ctx? i.ctx).map Context.underSave).getD false then
      (if s.saveLate i.ctx i.len then s else s.saveStep i.ctx)
    else s.command fun s =>
      match s.ctx? i.ctx with
      | none => s.respond i.fn 1
      | some c =>
        if i.fn ≠ 0 || !s.ready || c.preempt.isSome then s.respond i.fn 1
        else s.onCtx i.ctx (fun c =>
          { c with preempt := some s.frame.toNat, image := some ⟨i.seq, s.frame.toNat, 0, [], [], [], false⟩ }))

/-- SAVE_DEADLINE of context `ctx`: 10,000 ticks after the request, and the `len` ticks that arbitrations took, the save has not
committed; every launch with a task in the image ends with CONTEXT_LOST and the image is never read (spec/15 R321). -/
def execSaveDeadline (s : State) : Out :=
  let i := s.input
  .next (match (s.ctx? i.ctx).bind (fun c => c.image) with
    | some im => if !im.commit && s.saveLate i.ctx i.len then s.loseImage i.ctx im.seq else s
    | none => s)

/-! ### Restore (spec/15 R324) -/

/-- Whether a core can take an image of a context: it is free, in service, and not in single-path mode for a covered program
(spec/10 R213, spec/15 R324). -/
def State.canTake (s : State) (c : Context) (n : Nat) : Bool :=
  let x := s.getCore n
  !x.busy && !x.outOfService && x.inl.isEmpty && x.arbit.isNone && x.ca.isEmpty && x.cb.isEmpty &&
  (!x.sp || c.prog.coverage == 0)

/-- The cores for a list of images, by source: the environment's choice within the virtual die of origin if it can be, else the
original core, else the first that can take it. -/
def State.targets (s : State) (c : Context) (want : List (Nat × Nat)) : List CoreImage → List (Nat × Nat) →
    Option (List (Nat × Nat))
  | [], acc => some acc
  | im :: rest, acc =>
    let ok (n : Nat) : Bool := s.canTake c n && !acc.any (fun p => p.2 = n)
    let cores := ((c.bind[im.vdie]?).map Prod.snd).getD []
    let first := (want.filter (fun p => p.1 = im.src && cores.contains p.2)).map Prod.snd ++
      (c.pcoreOf im.vdie im.vcore).toList ++ cores
    match first.find? ok with
    | none => none
    | some n => s.targets c want rest (acc ++ [(im.src, n)])

/-- A command as it comes back: what waited for an answer is sent again, an atomic with its first source and number, so that it is
applied once (spec/11 R230, spec/15 R324).
A COLL's count goes on (spec/15 R320), and so do the attempts of a CPYS. -/
def CopyCmd.restored (src frame : Nat) (k : CopyCmd) : CopyCmd :=
  { k with src := if k.seqNo.isSome then some (k.src.getD src) else k.src, busy := k.busy.map (fun _ => frame), applied := none,
           retry := if k.seqNo.isSome then 0 else k.retry, sent := none, mark := none }

/-- A segment as it comes back (spec/07 R152). -/
def Seg.restored : Seg → Seg
  | .waking _ _ => .on
  | x => x

/-- A task part as it comes back: accesses are sent again, ports prefetch again, WAKING segments are ON (spec/15 R324). -/
def Arch.restored (a : Arch) : Arch :=
  { a.resumed with
    segs := a.segs.map Seg.restored, ports := a.ports.map (fun (p : PortState) => { p with age := if p.act then 0 else p.age }) }

/-- Write an image to core n (spec/15 R324). -/
def State.restoreCore (ctx : Nat) (im : CoreImage) (n : Nat) (s : State) : State :=
  let f := s.frame.toNat
  let reqs := im.a.permits.map (fun p => (⟨n, p.1, p.2⟩ : TokenReq))
  let s := s.focus n
  let s := (s.modCore (fun c =>
    { c with busy := im.busy, a := { im.a.restored with deferred := c.a.deferred ++ im.a.deferred },
             pier := im.a.resent ++ im.a.heldPier, ca := im.ca.map (CopyCmd.restored im.src f),
             cb := im.cb.map (CopyCmd.restored im.src f), subs := im.subs, rels := im.rels,
             ustore := im.ustore.foldl (fun t e => tblPut t e.1 e.2) (Tbl.sansCtx 4096 ctx c.ustore),
             entries := im.entries.foldl (fun t e => tblPut t e.1 e.2) (Tbl.sansCtx 256 ctx c.entries),
             spad := im.spad, spadTags := im.spadTags, inl := im.inl, dedup := im.dedup,
             watch := im.watch, seq := im.seq, nextId := im.nextId, stall := 0, entry := 0 })).acquireDue
  let s := s.onCluster (clusterOf n) (fun c => { c with reqs := c.reqs ++ reqs })
  if !s.core.busy && !s.core.inl.isEmpty then s.popInline else s

/-- A core number after the restore. -/
def moved (m : List (Nat × Nat)) (n : Nat) : Nat := ((m.find? (fun p => p.1 = n)).map Prod.snd).getD n

/-- View pieces follow the scratchpads in which they lie. -/
def ViewWin.moved (m : List (Nat × Nat)) (w : ViewWin) : ViewWin :=
  if w.pool then w else { w with core := Machine.moved m w.core }

/-- View windows of a task part follow. -/
def Arch.moved (m : List (Nat × Nat)) (a : Arch) : Arch := { a with views := a.views.map (ViewWin.moved m) }

/-- A frame follows. -/
def Frame.moved (m : List (Nat × Nat)) (f : Frame) : Frame := { f with a := f.a.moved m }

/-- A task's pieces, pin and spawner follow (spec/15 R324). -/
def Task.moved (m : List (Nat × Nat)) (t : Task) : Task :=
  { t with tiles := t.tiles.map (ViewWin.moved m), spawner := Machine.moved m t.spawner,
           pinned := t.pinned.map (Machine.moved m), saved := t.saved.map (Frame.moved m),
           blocks := t.blocks.map (fun (b : Block') =>
             { b with parts := b.parts.map (ViewWin.moved m), done := b.done.map (ViewWin.moved m),
                      dest := b.dest.map (ViewWin.moved m) }) }

/-- An image's own pieces follow. -/
def CoreImage.moved (m : List (Nat × Nat)) (i : CoreImage) : CoreImage :=
  { i with a := i.a.moved m, inl := i.inl.map (Frame.moved m) }

/-- Put a saved entry back in its queue with the next sequence number (spec/15 R320, R324). -/
def State.requeue (m : List (Nat × Nat)) (s : State) (q : QueueRef × QEntry) : State :=
  match q.1 with
  | .core c => s.onCore (moved m c) (fun x => { x with queue := x.queue ++ [{ q.2 with seq := x.qseq }], qseq := x.qseq + 1 })
  | .die d => s.onDie d (fun x => { x with queue := x.queue ++ [{ q.2 with seq := x.seq }], seq := x.seq + 1 })

/-- Whether another context that shares a die with this one has work on it: a queue holds tasks of one context only
(spec/12 R249). -/
def State.diesTaken (s : State) (c : Context) : Bool :=
  s.ctxs.any (fun x => x.num ≠ c.num && x.preempt.isNone && x.bind.any (fun b => c.bind.any (fun y => y.1 = b.1)) &&
    s.launches.any (fun l => l.ctx = x.num))

/-- RESTORE of context `ctx` by function `fn`; `pairs` holds the environment's choices of cores (spec/15 R324, spec/16 R330). -/
def execRestore (s : State) : Out :=
  let i := s.input
  let me := s.core.id
  .next (s.command fun s => match s.ctx? i.ctx with
    | none => s.respond i.fn 1
    | some c =>
      match c.image with
      | none => s.respond i.fn 1
      | some im =>
        if i.fn ≠ 0 || !im.commit then s.respond i.fn 1
        else if s.diesTaken c then s.respond 0 2
        else match s.targets c i.pairs im.cores [] with
          | none => s.respond 0 2
          | some m =>
            let s : State := { s with tasks := s.tasks.map (fun (t : Task) => if t.ctx = c.num then t.moved m else t) }
            let s := s.onCtx c.num (fun c => { c with preempt := none, image := none })
            let s := im.cores.foldl (fun s x => s.restoreCore c.num (x.moved m) (moved m x.src)) s
            let s := im.queued.foldl (State.requeue m) s
            let s := im.armed.foldl (fun s e => s.onDie e.1 (fun d => { d with armed := d.armed ++ [e.2] })) s
            (s.focus me).respond 0 0)

end Sys2Proof.Machine
end

