-- ==== Sys2Proof/Machine/Logs.lean ====
section
/-!
DEFINITION. The windows of the control BAR onto the logs: the layout of each kind of record, and which function sees which log
(spec/10 R216, spec/11 R238, spec/12 R252, spec/14 R306, spec/16 R327, R337).
-/
set_option linter.unusedVariables false

namespace Sys2Proof.Machine

/-- The 2,176 bytes of an arbitration's record at an address: its header, and the row signatures of the P-path and of the Q-path
(spec/10 R216). -/
def ErrRec.cells (r : ErrRec) (a : Nat) : List (Nat × Byte) :=
  let sigs (at_ : Nat) (t : Tbl Word) := (List.range 128).flatMap (fun i => cellsOf (at_ + 8 * i) 8 ((tblGet t i).getD 0).toNat)
  cellsOf a 8 r.time ++ cellsOf (a + 0x08) 1 1 ++ cellsOf (a + 0x09) 1 r.verdict ++ cellsOf (a + 0x0A) 1 r.tile ++
  cellsOf (a + 0x0B) 1 (bitAt r.single 0 + bitAt r.cd 1 + bitAt r.tainted 2) ++ cellsOf (a + 0x0C) 2 r.core ++
  cellsOf (a + 0x0E) 2 0 ++ cellsOf (a + 0x10) 1 r.ctx ++ cellsOf (a + 0x11) 1 r.vdie ++ cellsOf (a + 0x12) 1 r.vcore ++
  cellsOf (a + 0x13) 5 0 ++ cellsOf (a + 0x18) 8 r.task.toNat ++ cellsOf (a + 0x20) 8 r.tfp.toNat ++ cellsOf (a + 0x28) 8 r.tfq.toNat ++
  cellsOf (a + 0x30) 16 r.diff.toNat ++ cellsOf (a + 0x40) 2 r.nfp ++ cellsOf (a + 0x42) 2 r.nfq ++ cellsOf (a + 0x44) 2 r.firstP ++
  cellsOf (a + 0x46) 2 r.firstQ ++ cellsOf (a + 0x48) 2 r.held ++ cellsOf (a + 0x4A) 6 0 ++ cellsOf (a + 0x50) 8 r.spc.toNat ++
  cellsOf (a + 0x58) 40 0 ++ sigs (a + 0x80) r.rsp ++ sigs (a + 0x480) r.rsq

/-- The bytes of a record of a die's error log; those of an error of a core store, for which the spec gives no layout, are free values
(spec/10 R216, spec/15 R316; log 92). -/
def DieErr.cells (e : DieErr) (a : Nat) : List (Nat × Byte) :=
  match e with
  | .seal r => r.cells a
  | .store time core => (List.range 2176).map (fun i => (a + i, Config.freeByte (time + core + i)))

/-- The 32 bytes of a record of a transfer log (spec/11 R238). -/
def XferRec.cells (r : XferRec) (a : Nat) : List (Nat × Byte) :=
  cellsOf a 8 r.time ++ cellsOf (a + 0x08) 1 r.result ++ cellsOf (a + 0x09) 1 r.attempt ++ cellsOf (a + 0x0A) 2 r.src ++
  cellsOf (a + 0x0C) 2 (r.dstDie * 256 + r.engine) ++ cellsOf (a + 0x0E) 1 r.ctx ++ cellsOf (a + 0x0F) 1 0 ++
  cellsOf (a + 0x10) 8 r.sigs.toNat ++ cellsOf (a + 0x18) 8 r.sigr.toNat

/-- The 32 bytes of a context's event (spec/12 R252). -/
def EventRec.cells (r : EventRec) (a : Nat) : List (Nat × Byte) :=
  cellsOf a 8 r.frame ++ cellsOf (a + 8) 1 r.type ++ cellsOf (a + 9) 7 0 ++ cellsOf (a + 16) 8 r.tcb.toNat ++
  cellsOf (a + 24) 8 r.x.toNat

/-- The 32 bytes of a record of the host management log (spec/16 R337). -/
def HostRec.cells (r : HostRec) (a : Nat) : List (Nat × Byte) :=
  cellsOf a 8 r.frame ++ cellsOf (a + 8) 1 r.type ++ cellsOf (a + 9) 1 r.die ++ cellsOf (a + 10) 1 r.fn ++ cellsOf (a + 11) 5 0 ++
  cellsOf (a + 16) 8 r.addr ++ cellsOf (a + 24) 8 r.detail

/-- The logs that the control BAR shows (spec/16 R337). -/
inductive LogName where
  | errors (die : Fin 8)
  | transfers (die : Fin 8)
  | events (ctx : Nat)
  | host
  | wear (cluster : Fin 32)
deriving DecidableEq, Repr

/-- What a window shows: the write index, the overflow count, and the bytes of the records, the oldest first (spec/16 R337). -/
structure LogView where
  idx : Nat
  ovf : Nat
  cells : List (Nat × Byte)
deriving DecidableEq, Repr

/-- A list with the place of each member. -/
def numbered {α : Type} (xs : List α) : List (Nat × α) := (List.range xs.length).zip xs

/-- A log whose records have n bytes each, as a window shows it. -/
def Log.view {α : Type} (n : Nat) (f : α → Nat → List (Nat × Byte)) (l : Log α) : LogView :=
  ⟨l.idx, l.ovf, (numbered l.recs).flatMap (fun x => f x.2 (n * x.1))⟩

/-- The window of a function onto a log: the PF's onto every log, a VF's onto the event logs of its contexts alone (spec/16 R327, R328,
R337).
A wear record is written anew in its place at each measurement: its window's index counts the writes, and none overflows (log 101). -/
def State.logWindow (s : State) (fn : Nat) : LogName → Option LogView
  | .errors d => if fn = 0 then some ((s.dies[d]).errs.view 2176 DieErr.cells) else none
  | .transfers d => if fn = 0 then some ((s.dies[d]).xfers.view 32 XferRec.cells) else none
  | .events c => (s.ctx? c).bind (fun x => if fn = 0 || x.owner = fn then some (x.events.view 32 EventRec.cells) else none)
  | .host => if fn = 0 then some (s.hostLog.view 32 HostRec.cells) else none
  | .wear n => if fn = 0 then some ⟨(s.clusters[n]).measured, 0, (s.clusters[n]).wearCells n.val 0⟩ else none

/-- ERRCNT of a core as the PF's control BAR shows it (spec/15 R317; log 101). -/
def State.errWindow (s : State) (fn core : Nat) : Option Word := if fn = 0 then some (s.getCore core).err.status else none

end Sys2Proof.Machine
end

