-- ==== Sys2Proof/Machine/Host.lean ====
section
/-!
DEFINITION. What host software does: streams and roots, the aperture, the registers and the mailbox commands
(spec/16 R326 to R335).
-/
set_option linter.unusedVariables false

namespace Sys2Proof.Machine

/-! ### DEVSTAT and the designation (spec/00 R3, spec/16 R329) -/

/-- The enabled compute dies, ascending. -/
def State.enabledDies (s : State) : List Nat := (List.range 8).filter (fun d => (s.die d).enabled)

/-- The enabled cores of the package (spec/00 R3). -/
def State.coreCount (s : State) : Nat := (s.enabledDies.map (fun d => (s.enabledCores d).length)).foldl (fun x y => x + y) 0

/-- The BOOT field of DEVSTAT (spec/16 R329). -/
def Boot.code : Boot → Nat
  | .rom => 0
  | .awaiting => 1
  | .imageRefused => 2
  | .running => 3
  | .packageFault => 0xFF

/-- Whether a configuration is legal: 4 to 8 dies of 16 to 32 cores, 12 to 16 stacks (spec/00 R2). -/
def State.legal (s : State) : Bool :=
  let n := s.enabledDies.length
  decide (4 ≤ n ∧ n ≤ 8) && s.enabledDies.all (fun d => decide (16 ≤ (s.enabledCores d).length ∧ (s.enabledCores d).length ≤ 32)) &&
  decide (12 ≤ s.memStacks.length ∧ s.memStacks.length ≤ 16)

/-- The designation as DEVSTAT shows it: 0 while none is decided, and for a configuration that is not presented (spec/00 R2,
spec/01 R31, spec/16 R329). -/
def State.designation (s : State) : Nat :=
  if s.boot = .rom || !s.legal then 0
  else s.coreCount * 2 ^ 48 + s.memStacks.length * 2 ^ 40 + s.enabledDies.length * 2 ^ 32

/-- DEVSTAT (spec/16 R329); in the package-fault state no work is admitted. -/
def State.devstat (s : State) : Word :=
  word (s.designation + s.boot.code * 2 ^ 8 + bitAt s.nossv 3 + bitAt s.nosch 2 + bitAt (s.takeSch || s.takeSup) 1 +
    bitAt (s.ready && s.boot ≠ .packageFault) 0)

/-! ### Streams (spec/16 R331) -/

/-- The function that owns a stream's context. -/
def State.streamFn (s : State) (x : Stream) : Option Nat := (s.ctx? x.ctx).map (fun c => c.owner)

/-- Whether a function reaches a stream: one of its own contexts (spec/16 R327). -/
def State.reaches (s : State) (fn n : Nat) : Bool := ((s.stream? n).bind s.streamFn) == some fn

/-- Whether a function's spawn BAR has the window of a stream: the PF's has every one, a VF's those of its own streams (spec/16 R328). -/
def State.hasWindow (s : State) (fn n : Nat) : Bool := (fn = 0 && decide (n < 1024)) || s.reaches fn n

/-- A discarded spawn write of function `fn`: its record, and OVF of the stream if it is the function's (spec/01 R31, spec/16 R327, R331,
R337; log 100). -/
def State.discardSpawn (fn n : Nat) (s : State) : State :=
  let s := if s.reaches fn n then s.onStream n (fun x => { x with ovf := min 65535 (x.ovf + 1) }) else s
  s.logHost 1 none (some fn) (some n)

/-- SPAWN_WINDOW_WRITE: the write of `bytes` at offset `off` of stream `stream`'s window by function `fn` (spec/01 R28, R31, spec/16 R327,
R328, R331, R336). -/
def execSpawnWindowWrite (s : State) : Out :=
  let i := s.input
  .next (if !s.hasWindow i.fn i.stream || (s.ready && decide (0x80 ≤ i.off)) then s
    else match s.stream? i.stream with
      | none => s.discardSpawn i.fn i.stream
      | some x =>
        if s.ready && s.reaches i.fn i.stream && i.off = 0 && i.bytes.length = 128 && decide (x.roots.length < 64) then
          let s := s.onStream i.stream (fun x => { x with roots := x.roots ++ [BitVec.ofNat 1024 (natOfBytes i.bytes)] })
          { s with bitmap := if s.bitmap.contains i.stream then s.bitmap else s.bitmap ++ [i.stream] }
        else s.discardSpawn i.fn i.stream)

/-- CONSUMED_WRITE: `value` to CONSUMED of stream `stream` by function `fn`; a write to a spawn window before READY is discarded and logged
(spec/01 R31, spec/16 R327, R328, R331). -/
def execConsumedWrite (s : State) : Out :=
  let i := s.input
  .next (if !s.hasWindow i.fn i.stream then s
    else if !s.ready then s.discardSpawn i.fn i.stream
    else if s.reaches i.fn i.stream then s.onStream i.stream (fun x => { x with consumed := i.value.toNat })
    else s)

/-- What function `fn` reads at an offset of a stream's window: CONSUMED at 0x100, and FREE and OVF at 0x108 (spec/16 R327, R331). -/
def State.windowRead (s : State) (fn n off : Nat) : Option Word :=
  if !s.reaches fn n then none
  else (s.stream? n).bind (fun x =>
    if off = 0x100 then some (word x.consumed)
    else if off = 0x108 then some (word (64 - x.roots.length + x.ovf * 2 ^ 16)) else none)

/-- The physical address and the VA of a root's TCB slot (spec/16 R331). -/
def Stream.slotVa (x : Stream) (seq : Nat) : Nat := x.tcbArea + 128 * (seq % 64)

/-- Bytes and tags of a context's memory copied to physical memory, granule by granule; an unmapped granule is skipped
(spec/16 R334). -/
def State.copyOut (ctx va n pa : Nat) (s : State) : State :=
  (List.range (cdiv n 64)).foldl (fun s j =>
    match s.leaf? (s.ctxDie ctx) ctx (va + 64 * j) with
    | none => s
    | some (e, z) =>
      let (g, t) := s.granule (leafPa e z (va + 64 * j) false)
      s.writePhys (cellsOf (pa + 64 * j) 64 g.toNat) [((pa + 64 * j) / 64, t)]) s

/-- The bytes of a capture area that regions and the root TCB take (spec/16 R334; log 17). -/
def captureBytes (regions : List (Nat × Nat)) : Nat :=
  (regions.map (fun r => cdiv r.2 64 * 64)).foldl (fun x y => x + y) 0 + 128

/-- The capture of a launch: the regions one after another, then the root TCB (spec/16 R334; log 17). -/
def State.capture (c : CaptureSt) (ctx : Nat) (root : BitVec 1024) (s : State) : State :=
  let (s, o) := c.regions.foldl (fun (acc : State × Nat) r => (acc.1.copyOut ctx r.1 r.2 acc.2, acc.2 + cdiv r.2 64 * 64)) (s, c.area.1)
  s.writePhys (cellsOf o 128 root.toNat) [(o / 64, 0), (o / 64 + 1, 0)]

/-- The capture that a launch of a stream is to take (spec/16 R334). -/
def State.captureOf (s : State) (x : Stream) : Option CaptureSt :=
  s.captures.find? (fun y => y.stream = x.num && !y.kept && !y.regions.isEmpty)

/-- The launch of a stream's next root, behind which `rest` wait: the capture is taken, the launch runs, and the scheduler clears the
stream's bit of the pending-spawn bitmap, but not while another accepted root waits behind it (spec/01 R28, spec/16 R331, R334, R336;
log 91). -/
def State.openLaunch (x : Stream) (root : BitVec 1024) (rest : List (BitVec 1024)) (s : State) : Launch × State :=
  let seq := x.admitted + 1
  let num := s.nlaunch
  let cap := s.captureOf x
  let l : Launch := ⟨num, x.num, x.ctx, seq, s.frame.toNat, 0, word (x.slotVa seq), cap.isSome⟩
  let s := match cap with
    | some y => s.capture y x.ctx root
    | none => s
  let s := s.onStream x.num (fun x => { x with roots := rest, admitted := seq, running := some num, paged := false })
  (l, { s with launches := s.launches ++ [l], nlaunch := num + 1,
               bitmap := if rest.isEmpty then s.bitmap.filter (fun n => n ≠ x.num) else s.bitmap })

/-- Whether a stream's next root may be admitted: the bitmap names the stream, its launches run one at a time, its completion ring has room,
and no takeover or pre-emption holds it (spec/01 R28, spec/15 R320, spec/16 R331, R336).
A queue holds tasks of one context only, so that the root waits while another context that shares a die with this one has a launch; the
spec leaves open how it keeps the queues apart (spec/12 R249; log 87). -/
def State.admits (s : State) (x : Stream) (c : Context) : Bool :=
  s.ready && !s.takeSch && !s.takeSup && s.bitmap.contains x.num && x.running.isNone && decide (x.admitted + 1 - x.consumed ≤ x.ringN) && c.preempt.isNone &&
  !s.diesTaken c

/-- ROOT_ADMISSION of stream `stream`: its next root is copied to its TCB slot and admitted, or its launch ends at once; it pauses on a
slot that is not mapped (spec/01 R28, spec/12 R246, R247, spec/16 R331, R334, R336).
The read of a poisoned granule of a capture region raises POISON (spec/03 R57). -/
def execRootAdmission (s : State) : Out :=
  .next (match s.stream? s.input.stream with
    | none => s
    | some x =>
      match s.ctx? x.ctx, x.roots with
      | some c, r :: rest =>
        let va := x.slotVa (x.admitted + 1)
        let tcb := word va
        if !s.admits x c then s
        else match s.translate (s.ctxDie x.ctx) x.ctx va .update false with
          | .error .page =>
            if x.paged then s else (s.onStream x.num (fun x => { x with paged := true })).reportPage x.ctx tcb tcb
          | tr =>
            let bad := (s.captureOf x).bind (fun y => y.regions.findSome? (fun g => s.poisonIn x.ctx g.1 g.2))
            let (l, s) := s.openLaunch x r rest
            match tr, bad with
            | .error _, _ => s.completeLaunch l 1 (Cause.code .prot) tcb 0 tcb 0
            | .ok _, some v => s.completeLaunch l 1 (Cause.code .poison) tcb 0 v 0
            | .ok (pa, _), none =>
              let s := s.writePhys (cellsOf pa 128 r.toNat) [(pa / 64, 0), (pa / 64 + 1, 0)]
              match s.admitFault x.ctx tcb pa r none none with
              | some (cause, v) => s.completeLaunch l 1 cause.code tcb 0 v 0
              | none =>
                let d := s.ctxDie x.ctx
                match s.placeOf x.ctx (tcbHome r) (.die d) none with
                | none => s.completeLaunch l 1 (Cause.code .prot) tcb 0 (word (tcbHome r)) 0
                | some q => s.admission (newTask x.ctx tcb l.num r none 0 (d * Config.coresPerDie) s.frame.toNat) q false
      | _, _ => s)

/-! ### The aperture (spec/16 R328, R335) -/

/-- The physical address of the boot window (spec/01 R15). -/
def State.bootWindow (s : State) : Nat := (s.memStacks.foldl (fun (b : Option Nat) x => match b with
  | none => some x
  | some y => some (min x y)) none).getD 0 * 2 ^ 37

/-- The sizes that a function's aperture may have: powers of 2 from 1 GiB to 2 TiB for the PF, to 256 GiB for a VF (spec/16 R328). -/
def apertureSizes (fn : Nat) : List Nat := (List.range (if fn = 0 then 12 else 9)).map (fun k => 2 ^ (30 + k))

/-- The size of a function's aperture; the spec gives none for reset, and the model takes the least (spec/16 R328; log 102). -/
def State.apertureSize (s : State) (fn : Nat) : Nat := (tblGet s.apsize fn).getD (2 ^ 30)

/-- Where an aperture access of function `fn` lands: the PF's in physical memory, a VF's in the user data of a context it owns;
none is an unreachable target (spec/16 R327, R328, R335). -/
def State.aperturePa (s : State) (fn ctx off : Nat) : Option Nat :=
  if s.apertureSize fn ≤ off then none
  else if fn = 0 then
    if s.boot = .awaiting then (if off < 2 ^ 26 then some (s.bootWindow + off) else none)
    else
      let pa := ((tblGet s.apbase 0).getD 0).toNat + off
      if s.populated pa then some pa else none
  else match s.ctx? ctx with
    | none => none
    | some c =>
      let va := ((tblGet s.vbase fn).getD 0).toNat + off
      if c.owner ≠ fn || decide (Config.userEnd ≤ va) then none
      else (s.leaf? (s.ctxDie ctx) ctx va).map (fun l => leafPa l.1 l.2 va false)

/-- Whether the endpoint is up: the control BAR answers once the ROM has trained the link (spec/00 R31). -/
def State.linkUp (s : State) : Bool := s.boot ≠ .rom && s.boot ≠ .packageFault

/-- The pieces of an aperture access by granule: the offset of each byte's granule, with the bytes' indices. -/
def apertureParts (off n : Nat) : List (Nat × List Nat) :=
  ((granuleVas off n).map (fun g => (g, (List.range n).filter (fun i => (off + i) / 64 = g / 64))))

/-- One granule of an aperture write: bytes and a RAW tag, unless it covers only part of a poisoned granule (spec/16 R328). -/
def State.apertureGranule (fn : Nat) (pa : Nat) (cells : List (Nat × Byte)) (s : State) : State :=
  let g := pa / 64
  if isPoison (s.granule (64 * g)).2 && decide (cells.length < 64) then s.logHost 3 none (some fn) (some (64 * g))
  else s.writePhys cells [(g, 0)]

/-- APERTURE_WRITE of `bytes` at offset `off` by function `fn`, for a VF in context `ctx` (spec/16 R328). -/
def execApertureWrite (s : State) : Out :=
  let i := s.input
  let n := i.bytes.length
  let where_ := (List.range n).map (fun j => s.aperturePa i.fn i.ctx (i.off + j))
  .next (if !s.linkUp then s
    else if where_.any (fun p => p.isNone) then s.logHost 2 none (some i.fn) (some i.off)
    else (apertureParts i.off n).foldl (fun s p =>
      let cells := p.2.filterMap (fun j => ((where_.getD j none).bind (fun pa => (i.bytes[j]?).map (fun b => (pa, b)))))
      match cells with
      | [] => s
      | c :: _ => s.apertureGranule i.fn c.1 cells) s)

/-- APERTURE_READ of `len` bytes at offset `off` by function `fn`, for a VF in context `ctx` (spec/16 R328). -/
def execApertureRead (s : State) : Out :=
  let i := s.input
  let where_ := (List.range i.len).map (fun j => s.aperturePa i.fn i.ctx (i.off + j))
  .next (if !s.linkUp then s
    else if where_.any (fun p => p.isNone) then
      let s := s.logHost 2 none (some i.fn) (some i.off)
      { s with hostRead := .unsupported }
    else
      let pas := where_.filterMap id
      let bad := pas.find? (fun pa => isPoison (s.granule pa).2)
      let bytes := pas.map (fun pa => if isPoison (s.granule pa).2 then (0xFF : Byte) else cellGet 0 s.mem pa)
      match bad with
      | none => { s with hostRead := .data bytes }
      | some pa =>
        let s := s.logHost 3 none (some i.fn) (some (pa / 64 * 64))
        { s with hostRead := .poisoned bytes })

/-- REGISTER_WRITE of `value` by function `fn`, whose aperture is first resized to `len` bytes if `len` is one of its sizes: a base is a
multiple of the aperture's size (spec/00 R7, spec/16 R328). -/
def execRegisterWrite (s : State) : Out :=
  let i := s.input
  let s' : State := if (apertureSizes i.fn).contains i.len then { s with apsize := tblPut s.apsize i.fn i.len } else s
  let size := s'.apertureSize i.fn
  let x := word (i.value.toNat / size * size)
  .next (if !s.linkUp then s
    else match i.reg with
      | .apbase => if i.fn = 0 then { s' with apbase := tblPut s'.apbase 0 x } else s
      | .vbase => if i.fn = 0 then s else { s' with vbase := tblPut s'.vbase i.fn x })

/-! ### Mailbox commands (spec/16 R330) -/

/-- FWLOAD by function `fn` of `len` bytes; `flag`: the signature passes (spec/16 R330, R335). -/
def execFwload (s : State) : Out :=
  let i := s.input
  .next (if i.fn ≠ 0 || !(s.boot = .awaiting || s.boot = .imageRefused) || decide (2 ^ 26 < i.len) then
      (if s.linkUp then s.respond i.fn 1 else s)
    else if i.flag then ({ s with boot := .running }).respond 0 0
    else ({ s with boot := .imageRefused }).respond 0 1)

/-- FIRMWARE_INIT: an empty page-table replica for each enabled compute die stands in the die's home memory-side die, and work is admitted
(spec/01 R15, R31). -/
def execFirmwareInit (s : State) : Out :=
  .next (if s.boot = .running && !s.ready then { s with ready := true, homes := s.enabledDies.map (fun d => (d, s.homeMd d)) } else s)

/-- Preloaded routines go to the cores of a context: the entry and the micro-words of each, on every core that the context binds
(spec/02 R51, spec/09 R180). -/
def State.preload (ctx : Nat) (bind : List (Nat × List Nat)) (ps : List Preload) (s : State) : State :=
  let put (c : Core) (p : Preload) : Core :=
    { c with entries := tblPut c.entries (entryKey ctx p.routine) p.first,
             ustore := (numbered p.words).foldl (fun t w => tblPut t (microKey ctx (p.first + w.1)) w.2) c.ustore }
  if ps.isEmpty then s
  else (bind.flatMap Prod.snd).foldl (fun s n => s.onCore n (fun c => ps.foldl put c)) s

/-- The context whose number is free again leaves no routine on any core (spec/09 R180). -/
def State.unload (ctx : Nat) (s : State) : State :=
  s.coreIds.foldl (fun s n => s.onCore n (fun c =>
    { c with ustore := Tbl.sansCtx 4096 ctx c.ustore, entries := Tbl.sansCtx 256 ctx c.entries })) s

/-- CTXCREATE with the parameters `ctxp`: its tables begin empty in every replica, and its program's routines are loaded (spec/01 R19,
spec/05 R100, spec/09 R180, spec/16 R327, R330).
A named set that holds no enabled die gives no virtual die; the spec does not say what becomes of it, and the model refuses it (log 88). -/
def execCtxcreate (s : State) : Out :=
  let i := s.input
  let p := i.ctxp
  let dies := (List.range 8).filter (fun d => p.dies.contains d && (s.die d).enabled)
  .next (s.command fun s => if i.fn ≠ 0 || !s.ready || decide (64 ≤ p.ctx) || (s.ctx? p.ctx).isSome || decide (16 < p.owner) || dies.isEmpty then
      s.respond i.fn 1
    else
      let bind := dies.map (fun d => (d, s.enabledCores d))
      let c : Context :=
        { num := p.ctx, owner := p.owner, bind := bind,
          replicas := s.enabledDies.map (fun d => (d, [])), stale := [], timeout := 2000, age := 100000, hang := 200000000,
          collDefault := 200000, prog := p.prog, save := p.save, viewPool := p.viewPool, faultPool := p.faultPool,
          peers := p.peers, exportWin := p.exportWin, events := Log.empty, preempt := none, image := none }
      (({ s with ctxs := s.ctxs ++ [c] }).preload p.ctx bind p.prog.preload).respond 0 0)

/-- End every launch of a context as CANCELLED and free it; its updates go, and the engine takes up the next that waits (spec/05 R105,
spec/16 R326, R330). -/
def State.destroy (ctx : Nat) (s : State) : State :=
  let ls := (s.launches.filter (fun l => l.ctx = ctx)).map (fun l => l.num)
  let s := ls.foldl (fun s n => s.endLaunch n 6 0 1 0 0 0 0) s
  let st := (s.streams.filter (fun x => x.ctx = ctx)).map (fun x => x.num)
  let s := (List.range 8).foldl (fun s d => s.flushTlbs d (fun t => t.ctx = ctx)) (s.unload ctx)
  let us := s.updates.filter (fun u => u.ctx ≠ ctx)
  let s : State := { s with
    ctxs := s.ctxs.filter (fun c => c.num ≠ ctx), streams := s.streams.filter (fun x => x.ctx ≠ ctx),
    tasks := s.tasks.filter (fun t => t.ctx ≠ ctx), gangs := s.gangs.filter (fun g => g.ctx ≠ ctx),
    decs := s.decs.filter (fun d => d.ctx ≠ ctx), updates := us,
    resources := s.resources.filter (fun r => r.ctx ≠ ctx), captures := s.captures.filter (fun c => !st.contains c.stream),
    bitmap := s.bitmap.filter (fun n => !st.contains n), wearPages := s.wearPages.filter (fun w => w.ctx ≠ ctx),
    dies := s.dies.map (fun (d : Die) => { d with walks := d.walks.filter (fun w => w.ctx ≠ ctx) }) }
  if us.any (fun u => !u.waiting.isEmpty) then s else s.startUpdates us

/-- Whether a function may command a context: its owner (spec/16 R327, R330). -/
def State.owns (s : State) (fn ctx : Nat) : Bool := s.ready && ((s.ctx? ctx).map (fun c => c.owner == fn)).getD false

/-- CTXDESTROY of context `ctx` by function `fn`; while records wait for a takeover to end it is busy (spec/16 R330, R336). -/
def execCtxdestroy (s : State) : Out :=
  let i := s.input
  .next (s.command fun s => if !s.owns i.fn i.ctx then s.respond i.fn 1
    else if s.takeSch || s.takeSup then s.respond i.fn 2
    else (s.destroy i.ctx).respond i.fn 0)

/-- FUNCTION_LEVEL_RESET of the VF `fn` destroys its contexts (spec/16 R326). -/
def execFunctionLevelReset (s : State) : Out :=
  let fn := s.input.fn
  .next (if fn = 0 then s
    else ((s.ctxs.filter (fun c => c.owner = fn)).map (fun c => c.num)).foldl (fun s c => s.destroy c) s)

/-- Whether a ring size is legal (spec/16 R331). -/
def ringOk (n : Nat) : Bool := (List.range 13).any (fun k => n = 2 ^ (k + 4))

/-- STREAMCREATE with the parameters `strm` by function `fn` (spec/16 R328, R330, R331). -/
def execStreamcreate (s : State) : Out :=
  let i := s.input
  let p := i.strm
  let vectors := if i.fn = 0 then 128 else 120
  .next (s.command fun s => if !s.owns i.fn p.ctx || decide (1024 ≤ p.st) || (s.stream? p.st).isSome || !ringOk p.ringN || p.tcbArea % 128 ≠ 0 ||
        decide (Config.userEnd < p.tcbArea + 8192) || decide (vectors ≤ p.vector) then s.respond i.fn 1
    else
      let x : Stream := ⟨p.st, p.ctx, p.tcbArea, p.ring, p.ringN, p.vector, [], 0, 0, 0, 0, false, none⟩
      ({ s with streams := s.streams ++ [x] }).respond i.fn 0)

/-- TUPD of the entries `ptes` of context `ctx` by function `fn`; with `flag` the 64 KiB page at `va` is to show the wear records
(spec/05 R101, R105, spec/14 R306, spec/16 R330). -/
def execTupd (s : State) : Out :=
  let i := s.input
  .next (s.command fun s => if !s.owns i.fn i.ctx then s.respond i.fn 1
    else
      let u : Update := ⟨i.ctx, i.fn, i.seq, i.ptes, []⟩
      if !i.flag then s.submit u
      else if !s.updates.isEmpty then s.respond i.fn 2
      else
        let r := writeTable i.ptes (((s.ctx? i.ctx).bind (fun c => (c.replicas.head?).map Prod.snd)).getD [])
        match walk r i.va.toNat with
        | none => s.respond i.fn 1
        | some l =>
          let w : WearPage := ⟨i.ctx, i.va.toNat / 65536 * 65536, leafPa l.pte l.size (i.va.toNat / 65536 * 65536) false⟩
          let s' : State := { s with wearPages := s.wearPages ++ [w] }
          if s'.updateOk u && decide (i.va.toNat < Config.userEnd) &&
              s.ctxs.all (fun c => c.replicas.all (fun r => s'.wearOk (tableEntries r.2))) then s'.showWear.startUpdates [u] else s.respond i.fn 1)

/-- CTXPARAM: the setting `field` of context `ctx` to `value` (spec/05 R122, spec/12 R251, spec/15 R319, spec/16 R330). -/
def execCtxparam (s : State) : Out :=
  let i := s.input
  let x := i.value.toNat
  let within (lo hi : Nat) : Bool := decide (lo ≤ x ∧ x ≤ hi)
  .next (s.command fun s => if !s.owns i.fn i.ctx then s.respond i.fn 1
    else match i.field with
      | .timeout => if within 1000 1000000 then (s.onCtx i.ctx (fun c => { c with timeout := x })).respond i.fn 0 else s.respond i.fn 1
      | .age => if within 1000 100000000 then (s.onCtx i.ctx (fun c => { c with age := x })).respond i.fn 0 else s.respond i.fn 1
      | .hang =>
        if within 1000000 6000000000 then (s.onCtx i.ctx (fun c => { c with hang := x })).respond i.fn 0 else s.respond i.fn 1
      | .collDefault => (s.onCtx i.ctx (fun c => { c with collDefault := x })).respond i.fn 0)

/-- STREAMABORT of stream `stream` by function `fn` (spec/16 R330). -/
def execStreamabort (s : State) : Out :=
  let i := s.input
  .next (s.command fun s => match s.stream? i.stream with
    | none => s.respond i.fn 1
    | some x =>
      if !s.owns i.fn x.ctx then s.respond i.fn 1
      else match x.running with
        | none => s.respond i.fn 1
        | some n => if (s.launch? n).isNone then s.respond i.fn 1 else (s.endLaunch n 6 0 1 0 0 0 0).respond i.fn 0)

/-- CAPTURE with the parameters `cap` by function `fn`; an area that lies outside populated memory, or that the regions and the root TCB do
not fit, is refused (spec/01 R14, spec/16 R330, R334; log 103). -/
def execCapture (s : State) : Out :=
  let i := s.input
  let p := i.cap
  let total := (p.regions.map Prod.snd).foldl (fun x y => x + y) 0
  .next (s.command fun s => match s.stream? p.st with
    | none => s.respond i.fn 1
    | some x =>
      if !s.owns i.fn x.ctx || decide (16 < p.regions.length) || decide (2 ^ 32 < total) ||
          decide (p.area.2 < captureBytes p.regions) || !s.populatedPage p.area.1 p.area.2 then s.respond i.fn 1
      else
        let y : CaptureSt := ⟨p.st, p.regions, p.area, false, []⟩
        let s : State := { s with captures := s.captures.filter (fun (c : CaptureSt) => c.stream ≠ p.st) ++ [y] }
        s.respond i.fn 0)

/-- The tasks of a launch in given states. -/
def State.countTasks (s : State) (n : Nat) (ok : TState → Bool) : Nat := (s.tasks.filter (fun t => t.launch = n && ok t.st)).length

/-- The summary of RESYNC (spec/16 R333). -/
def State.summary (addr : Nat) (s : State) : Resync :=
  { snap := s.frame.toNat, addr := addr, devstat := s.devstat, version := Config.freeWord s.free,
    contexts := s.ctxs.map (fun c => ⟨c.num, c.owner, c.bind.map Prod.fst, Config.freeWord (s.free + 1 + c.num), c.preempt.isSome⟩),
    streams := s.streams.map (fun x => ⟨x.num, x.ctx, x.admitted, x.completed, x.consumed, 64 - x.roots.length⟩),
    launches := s.launches.map (fun l =>
      ⟨l.stream, l.seq, s.countTasks l.num (fun t => t == .running), s.countTasks l.num (fun t => t == .suspended),
       s.countTasks l.num (fun t => t == .ready || t == .armed), l.restarts⟩),
    clusters := (List.range 32).map (fun n =>
      ⟨(s.focus (n / 4 * Config.coresPerDie + n % 4 * 9)).leaseWord,
       if h : n < 32 then (((s.clusters[n]).lease).map (fun l => l.tcb)).getD 0 else 0⟩),
    melt := s.melt,
    wear := (List.range 32).map (fun n => if h : n < 32 then (s.clusters[n]).wearCells n 0 else []),
    cores := (List.range 288).map (fun n =>
      let spare := coreNum n % 9 = Config.spareInCluster
      ⟨n, !(s.enabledCores (dieOf n)).contains n && (s.cluster n).spare ≠ some (coreNum n % 9), (s.cluster n).spareUsed && spare,
       (s.getCore n).sp⟩),
    frames := List.replicate 7 s.frame.toNat,
    errs := s.dies.toList.map (fun d => d.errs), xfers := s.dies.toList.map (fun d => d.xfers), host := s.hostLog }

/-- A section of a summary: its bytes, and its cells at an address with free values from a number on. -/
structure Section where
  size : Nat
  at_ : Nat → Nat → List (Nat × Byte)

/-- n bytes that the spec does not place: free values. -/
def Section.free (n : Nat) : Section := ⟨n, fun a k => (List.range n).map (fun j => (a + j, Config.freeByte (k + j)))⟩

/-- Records of n bytes each, one after another. -/
def Section.recs {α : Type} (n : Nat) (f : α → Nat → List (Nat × Byte)) (xs : List α) : Section :=
  ⟨n * xs.length, fun a _ => (numbered xs).flatMap (fun x => f x.2 (a + n * x.1))⟩

/-- Sections one after another. -/
def Section.both (x y : Section) : Section := ⟨x.size + y.size, fun a k => x.at_ a k ++ y.at_ (a + x.size) (k + x.size)⟩

/-- Sections 1 to 7 of a summary; the wear records and the records of logs have their layouts, the other entries free bytes
(spec/10 R216, spec/11 R238, spec/14 R306, spec/16 R333, R337). -/
def Resync.sections (r : Resync) : List Section :=
  [.free (64 * r.contexts.length), .free (32 * r.streams.length), .free (32 * r.launches.length),
   .free (16 * r.clusters.length + 8), .recs 64 (fun w a => w.map (fun c => (a + c.1, c.2))) r.wear, .free (16 * r.cores.length),
   (Section.recs 2176 DieErr.cells (r.errs.flatMap (fun l => l.recs))).both
     ((Section.recs 32 XferRec.cells (r.xfers.flatMap (fun l => l.recs))).both (Section.recs 32 HostRec.cells r.host.recs))]

/-- Sections one after another from an address on, each behind the FRAME at which it was read (spec/16 R333; log 104). -/
def sectionCells : List Section → List Nat → Nat → Nat → List (Nat × Byte)
  | [], _, _, _ => []
  | x :: rest, fs, a, k => cellsOf a 8 (fs.headD 0) ++ x.at_ (a + 8) k ++ sectionCells rest fs.tail (a + 8 + x.size) (k + x.size)

/-- Bytes of a summary in the host's buffer (spec/16 R333; log 104). -/
def Resync.bytes (r : Resync) : Nat := 64 + (r.sections.map (fun x => x.size + 8)).foldl (fun x y => x + y) 0

/-- RESYNC by function `fn` to the host address `off`: the summary is recorded and written; the bytes of its header and of the entries
whose layout the spec does not give are free values (spec/16 R333; log 5, log 104). -/
def execResync (s : State) : Out :=
  let i := s.input
  .next (s.command fun s => if i.fn ≠ 0 || !s.ready then s.respond i.fn 1
    else
      let r := s.summary i.off
      let f := s.free + 100
      let cells := (Section.free 64).at_ (2 ^ 51 + i.off) f ++ sectionCells r.sections r.frames (2 ^ 51 + i.off + 64) (f + 64)
      let s := s.writePhys cells []
      ({ s with resync := some r, free := f + r.bytes }).respond 0 0)

/-- The stream of a context whose next root waits for its TCB's page (spec/12 R246). -/
def State.pagedRoot (s : State) (ctx : Nat) (tcb : Word) : Option Stream :=
  s.streams.find? (fun x => x.ctx = ctx && x.paged && !x.roots.isEmpty && word (x.slotVa (x.admitted + 1)) = tcb)

/-- PAGEFAIL: the page fault reported for the task at `va` of context `ctx` is refused, and its launch ends with PROT; a root that waits for
its TCB's page fails likewise (spec/12 R246, spec/15 R318, spec/16 R330). -/
def execPagefail (s : State) : Out :=
  let i := s.input
  .next (s.command fun s => match (s.ctx? i.ctx).bind (fun c => c.events.recs.reverse.find? (fun e => e.type = 3 && e.tcb = i.va)) with
    | none => s.respond i.fn 1
    | some e =>
      if !s.owns i.fn i.ctx || s.isMapped i.ctx e.x then s.respond i.fn 1
      else match s.task? i.ctx i.va, s.pagedRoot i.ctx i.va with
        | some t, _ =>
          let a := s.archOf i.ctx i.va
          let at_ := (t.pinned.orElse (fun _ => s.coreOf i.ctx i.va)).getD 0
          (s.endLaunch t.launch 1 (Cause.code .prot) 2 i.va a.pc e.x (pcore at_)).respond i.fn 0
        | none, some x =>
          let (l, s) := s.openLaunch x (x.roots.headD 0) x.roots.tail
          (s.completeLaunch l 1 (Cause.code .prot) i.va 0 i.va 0).respond i.fn 0
        | none, none => s.respond i.fn 1)

end Sys2Proof.Machine
end

