-- ==== Sys2Proof/Machine/Resets.lean ====
section
/-!
DEFINITION. Resets, bring-up, deconfiguration, the end of the time base and takeovers of the scheduler complex (spec/01 R29 to
R31, spec/10 R215, spec/14 R305, spec/16 R326, R336).
-/
set_option linter.unusedVariables false

namespace Sys2Proof.Machine

/-! ### Deconfiguration at reset (spec/10 R215, spec/14 R305) -/

/-- A cluster without some of its enabled cores; its spare, if it may serve, takes the place of one (spec/10 R215,
spec/14 R305). -/
def Cluster.without (c : Cluster) (gone : List Nat) (spareOk : Bool) : Cluster :=
  let left := c.enabled.filter (fun k => !gone.contains k)
  match c.spare with
  | some k =>
    if spareOk && !gone.isEmpty then
      { c with enabled := (List.range 9).filter (fun x => left.contains x || x = k), spare := none, spareUsed := true }
    else { c with enabled := left }
  | none => { c with enabled := left }

/-- A cluster at a reset: cores named faulty or out of service are fused off, or, of a marked cluster, the core with the largest
drift; everything else of it is as reset leaves it, with the limits that its wear asks for (spec/10 R215, spec/14 R304, R305). -/
def Cluster.atReset (c : Cluster) (failed : List Nat) (spareOk : Bool) : Cluster :=
  let gone := c.enabled.filter (fun k => failed.contains k)
  let spareDrift := (c.spare.map (fun k => c.drifts.getD k 0)).getD 0
  let c' := if !gone.isEmpty then c.without gone spareOk
    else if c.marked then c.without [c.worst] (spareOk && decide (spareDrift ≤ 1200)) else c
  ({ Cluster.fresh with
      enabled := c'.enabled, spare := c'.spare, spareUsed := c'.spareUsed, drifts := c.drifts, sprintUs := c.sprintUs,
      time := c.time, measured := c.measured }).wear

/-- The cores of a cluster that are named faulty or out of service (spec/10 R210, R215). -/
def State.failedIn (s : State) (n : Nat) : List Nat :=
  (s.coreIds.filter (fun c => clusterOf c = n && ((s.getCore c).faulty || (s.getCore c).outOfService))).map (fun c => coreNum c % 9)

/-- A virtual die left with fewer than 16 cores is deconfigured whole (spec/14 R305). -/
def State.dropDies (s : State) : State :=
  let small (d : Nat) : Bool := decide ((s.enabledCores d).length < 16)
  { s with
    dies := Vector.ofFn (fun d : Fin 8 => { Die.fresh with enabled := (s.dies[d]).enabled && !small d.val }),
    clusters := Vector.ofFn (fun n : Fin 32 => if small (n.val / 4) then { s.clusters[n] with enabled := [] } else s.clusters[n]) }

/-- A reset of the device with its bring-up up to the point at which host software loads firmware, or the package-fault state.
FRAME is the one given, the fuses and the wear store persist, and host memory is not the device's (spec/01 R29, R31,
spec/16 R326; log 1, log 2).
The self-check block of each memory-side die with a stack tests it; those of `failed` fail, and such a stack is not populated (spec/01
R31; log 89). -/
def State.restart (frame : BitVec 64) (mask : BitVec 32) (failed : List Nat) (s : State) : State :=
  let tests := s.fusedStacks.map (fun n => (n, !failed.contains n))
  let dies : Vector Die 8 := Vector.ofFn (fun d : Fin 8 => { Die.fresh with enabled := (s.dies[d]).enabled })
  let cl : Vector Cluster 32 := Vector.ofFn (fun n : Fin 32 => (s.clusters[n]).atReset (s.failedIn n.val) (bitOf mask n.val))
  let s' : State := { State.reset with
    frame := frame, epoch := frame.toNat / 1000, fusedStacks := s.fusedStacks, selfCheck := tests,
    memStacks := (tests.filter Prod.snd).map Prod.fst, clusters := cl, dies := dies,
    mem := s.mem.filter (fun c => 2 ^ 51 ≤ c.1), agenda := s.agenda, input := s.input, free := s.free, rot := s.rot }
  let s' := s'.dropDies
  { s' with boot := if s'.legal then .awaiting else .packageFault }

/-- POWER_ON_RESET: bring-up with FRAME = 0; bit n of `mask` says that the spare of cluster n passes its reset test, and `pairs` names
first the stacks that fail theirs (spec/01 R29, R31). -/
def execPowerOnReset (s : State) : Out := .next (s.restart 0 s.input.mask (s.input.pairs.map Prod.fst))

/-- DEVICE_RESET: the whole device is reset, but FRAME goes on, and firmware must be loaded again (spec/01 R29, R31, spec/10 R215,
spec/14 R305, spec/16 R326). -/
def execDeviceReset (s : State) : Out := .next (s.restart s.frame s.input.mask (s.input.pairs.map Prod.fst))

/-- TIME_BASE_STOP: every die enters the package-fault state (spec/01 R30). -/
def execTimeBaseStop (s : State) : Out := .next { s with timeBase := false, boot := .packageFault }

/-! ### Takeovers (spec/16 R336) -/

/-- Records that a takeover held back are written in order (spec/16 R336). -/
def State.releaseRecords (s : State) : State :=
  s.heldRecs.foldl (fun s r => s.writeRecord r) { s with heldRecs := [] }

/-- A core of the scheduler complex fails with no standby: every launch ends with CONTEXT_LOST and the device is in the
package-fault state (spec/16 R336). -/
def State.loseAll (s : State) : State :=
  let s : State := { s with takeSch := false, takeSup := false }
  let s := s.releaseRecords
  let s := (s.launches.map (fun l => l.num)).foldl (fun s n => s.endLaunch n 4 0 1 0 0 0 0) s
  { s with boot := .packageFault, ready := false }

/-- SCHEDULER_TAKEOVER: the active core of the scheduler pair, or with `flag` of the supervisor pair, reports an uncorrectable
error (spec/16 R336). -/
def execSchedulerTakeover (s : State) : Out :=
  .next (if s.boot ≠ .running then s
    else if s.input.flag then
      if s.nossv || s.takeSup then s.loseAll else ({ s with takeSup := true }).logHost 4 none none none
    else if s.nosch || s.takeSch then s.loseAll else ({ s with takeSch := true }).logHost 4 none none none)

/-- The standby core has replayed the first copy of the journal (spec/16 R336). -/
def State.replayed (s : State) : State := ((s.journal.head?).map (fun j => s.replay j.2)).getD s

/-- TAKEOVER_COMPLETE of the scheduler pair, or with `flag` of the supervisor pair: the standby has replayed the journal, the pair has no
standby, and the records that wait are written; the streams whose roots wait are those that the bitmap names (spec/16 R336). -/
def execTakeoverComplete (s : State) : Out :=
  let now := if s.input.flag then s.takeSup else s.takeSch
  .next (if !now then s
    else
      let s : State := if s.input.flag then { s.replayed with takeSup := false, nossv := true }
        else { s.replayed with takeSch := false, nosch := true }
      if s.takeSch || s.takeSup then s else s.releaseRecords)

end Sys2Proof.Machine
end

