-- ==== Sys2Proof/Machine/Scalar.lean ====
section
/-!
DEFINITION. The meanings of the ctl slot (spec/04 R76 to R97, spec/07 R148 to R151).
-/
set_option linter.unusedVariables false

namespace Sys2Proof.Machine

/-- The width of the form: 32 bits when W is set (spec/04 R80). -/
def intWidth (w : Bool) : Nat := if w then 32 else 64

/-- The n-bit result as an s-register's value, the 32-bit form sign-extended (spec/04 R80). -/
def intResult (w : Bool) (x : Nat) : Word := BitVec.ofInt 64 (signedOf (intWidth w) x)

/-- The n-bit operand of an s-register. -/
def Arch.opnd (a : Arch) (w : Bool) (r : Reg) : Nat := (a.rd r).toNat % 2 ^ intWidth w

/-- The shift amount: b[5:0], or b[4:0] in the 32-bit form (spec/04 R80). -/
def shiftOf (n b : Nat) : Nat := b % n

/-- a shifted right by sh with copies of bit n - 1 entering. -/
def sraNat (n a sh : Nat) : Nat := intBits n (signedOf n a / (2 ^ sh : Int))

/-- a rotated left by sh. -/
def rolNat (n a sh : Nat) : Nat := a * 2 ^ sh + a / 2 ^ (n - sh)

/-- DIV of spec/03 R72. -/
def divNat (n a b : Nat) : Nat := if b = 0 then 2 ^ n - 1 else intBits n (Int.tdiv (signedOf n a) (signedOf n b))

/-- REM of spec/03 R72. -/
def remNat (n a b : Nat) : Nat := if b = 0 then a else intBits n (Int.tmod (signedOf n a) (signedOf n b))

/-- The number of leading zero bits of an n-bit number. -/
def clzNat : Nat → Nat → Nat
  | 0, _ => 0
  | n + 1, a => if a / 2 ^ n % 2 = 1 then 0 else clzNat n a + 1

/-- The number of trailing zero bits of an n-bit number. -/
def ctzNat : Nat → Nat → Nat
  | 0, _ => 0
  | n + 1, a => if a % 2 = 1 then 0 else ctzNat n (a / 2) + 1

/-- The number of 1 bits of an n-bit number. -/
def popcNat : Nat → Nat → Nat
  | 0, _ => 0
  | n + 1, a => a % 2 + popcNat n (a / 2)

/-- An INT instruction of two sources (spec/04 R80): its n-bit result lands after `lat` bundles. -/
def State.intOp (lat : Nat) (d a b : Reg) (w : Bool) (f : Nat → Nat → Nat → Nat) (s : State) : State :=
  s.fly lat 0 [.s d (intResult w (f (intWidth w) (s.core.a.opnd w a) (s.core.a.opnd w b)))]

/-- A ctl instruction that writes one s-register at 1 cycle. -/
def State.ctlReg (d : Reg) (x : Word) (s : State) : State := s.fly 1 0 [.s d x]

/-- A ctl instruction that writes one predicate at 1 cycle. -/
def State.ctlPred (p : PredReg) (x : Bool) (s : State) : State := s.fly 1 0 [.p p x]

/-- The FP32 value of a source: bits [31:0] (spec/04, Floating point). -/
def Arch.fp (a : Arch) (r : Reg) : ExtNum := num32 ((a.rd r).toNat % 2 ^ 32)

/-- A checked FP result of a format, placed in the low bits of an s-register (spec/04 R92, R96). -/
def State.fpCode (lat : Nat) (d : Reg) (f : FpFmt) (x : Nat) (s : State) : State :=
  (s.shadow lat 0 [f.shadow x]).fly lat 0 [.s d (word x)]

/-- A checked integer result of an FP operation (spec/04 R94, R96). -/
def State.fpInt (lat : Nat) (d : Reg) (x : Int) (s : State) : State :=
  (s.shadow lat 0 [intShadow x]).fly lat 0 [.s d (BitVec.ofInt 64 x)]

/-- A checked FP32 result rounded by RM (spec/04 R92). -/
def State.fpOp (lat : Nat) (d : Reg) (rm : Round) (x : ExtNum) (s : State) : State :=
  s.fpCode lat d f32 (f32.round rm x)

/-- The target of a relative transfer: the bundle's address plus 32 times the sign-extended offset (spec/04 R87). -/
def relTarget {n : Nat} (pc : Word) (o : BitVec n) : Word := pc + BitVec.ofInt 64 (32 * o.toInt)

/-- Whether the bundle is a delay bundle of a taken transfer (spec/02 R44). -/
def Arch.inDelay (a : Arch) : Bool := a.pend.isSome

/-- A transfer: ILLEGAL_OP in a delay bundle; if taken, its target issues after two delay bundles (spec/02 R44,
spec/04 R91). -/
def State.transfer (taken : Bool) (target : Word) (leaves : Bool) (s : State) : State :=
  if s.core.a.inDelay then s.illegal 0
  else if taken then s.modA (fun a => { a with pend := some ⟨target, 3, leaves⟩ })
  else s

/-- The link of CALL and JRL: the address of the bundle after the second delay bundle (spec/04 R87). -/
def Arch.link (a : Arch) : Word := a.pc + 96

/-- Nothing happens: the no-op of the ctl slot (spec/02 R36). -/
def execNopCtl (s : State) : Out := .next s

/-- a + b modulo 2^n (spec/04 R80). -/
def execAdd (d a b : Reg) (w : Bool) (s : State) : Out := .next (s.intOp 1 d a b w (fun n x y => (x + y) % 2 ^ n))

/-- a - b modulo 2^n (spec/04 R80). -/
def execSub (d a b : Reg) (w : Bool) (s : State) : Out := .next (s.intOp 1 d a b w (fun n x y => (x + (2 ^ n - y)) % 2 ^ n))

/-- a and b (spec/04 R80). -/
def execAnd (d a b : Reg) (w : Bool) (s : State) : Out := .next (s.intOp 1 d a b w (fun n x y => Nat.land x y))

/-- a or b (spec/04 R80). -/
def execOr (d a b : Reg) (w : Bool) (s : State) : Out := .next (s.intOp 1 d a b w (fun n x y => Nat.lor x y))

/-- a xor b (spec/04 R80). -/
def execXor (d a b : Reg) (w : Bool) (s : State) : Out := .next (s.intOp 1 d a b w (fun n x y => Nat.xor x y))

/-- a and not b (spec/04 R80). -/
def execAndn (d a b : Reg) (w : Bool) (s : State) : Out := .next (s.intOp 1 d a b w (fun n x y => Nat.land x (2 ^ n - 1 - y)))

/-- a shifted left, zeros entering (spec/04 R80). -/
def execSll (d a b : Reg) (w : Bool) (s : State) : Out := .next (s.intOp 1 d a b w (fun n x y => x * 2 ^ shiftOf n y % 2 ^ n))

/-- a shifted right, zeros entering (spec/04 R80). -/
def execSrl (d a b : Reg) (w : Bool) (s : State) : Out := .next (s.intOp 1 d a b w (fun n x y => x / 2 ^ shiftOf n y))

/-- a shifted right, copies of the sign bit entering (spec/04 R80). -/
def execSra (d a b : Reg) (w : Bool) (s : State) : Out := .next (s.intOp 1 d a b w (fun n x y => sraNat n x (shiftOf n y)))

/-- a rotated left (spec/04 R80). -/
def execRol (d a b : Reg) (w : Bool) (s : State) : Out := .next (s.intOp 1 d a b w (fun n x y => rolNat n x (shiftOf n y) % 2 ^ n))

/-- the smaller, signed (spec/04 R80). -/
def execMin (d a b : Reg) (w : Bool) (s : State) : Out := .next (s.intOp 1 d a b w (fun n x y => if signedOf n y < signedOf n x then y else x))

/-- the larger, signed (spec/04 R80). -/
def execMax (d a b : Reg) (w : Bool) (s : State) : Out := .next (s.intOp 1 d a b w (fun n x y => if signedOf n x < signedOf n y then y else x))

/-- the smaller, unsigned (spec/04 R80). -/
def execMinu (d a b : Reg) (w : Bool) (s : State) : Out := .next (s.intOp 1 d a b w (fun n x y => if y < x then y else x))

/-- the larger, unsigned (spec/04 R80). -/
def execMaxu (d a b : Reg) (w : Bool) (s : State) : Out := .next (s.intOp 1 d a b w (fun n x y => if x < y then y else x))

/-- the low n bits of the product (spec/04 R80). -/
def execMul (d a b : Reg) (w : Bool) (s : State) : Out := .next (s.intOp 3 d a b w (fun n x y => x * y % 2 ^ n))

/-- the high n bits of the signed product (spec/04 R80). -/
def execMulh (d a b : Reg) (w : Bool) (s : State) : Out := .next (s.intOp 3 d a b w (fun n x y => intBits n (signedOf n x * signedOf n y / (2 ^ n : Int))))

/-- the high n bits of the unsigned product (spec/04 R80). -/
def execMulhu (d a b : Reg) (w : Bool) (s : State) : Out := .next (s.intOp 3 d a b w (fun n x y => x * y / 2 ^ n))

/-- The signed quotient of R72 at the width of the form (spec/03 R72). -/
def execDiv (d a b : Reg) (w : Bool) (s : State) : Out := .next (s.intOp 12 d a b w divNat)

/-- The unsigned quotient (spec/03 R72). -/
def execDivu (d a b : Reg) (w : Bool) (s : State) : Out :=
  .next (s.intOp 12 d a b w (fun n x y => if y = 0 then 2 ^ n - 1 else x / y))

/-- The signed remainder (spec/03 R72). -/
def execRem (d a b : Reg) (w : Bool) (s : State) : Out := .next (s.intOp 12 d a b w remNat)

/-- The unsigned remainder (spec/03 R72). -/
def execRemu (d a b : Reg) (w : Bool) (s : State) : Out :=
  .next (s.intOp 12 d a b w (fun n x y => if y = 0 then x else x % y))

/-- Leading zero bits (spec/04 R80). -/
def execClz (d a : Reg) (w : Bool) (s : State) : Out := .next (s.intOp 1 d a a w (fun n x _ => clzNat n x))

/-- Trailing zero bits (spec/04 R80). -/
def execCtz (d a : Reg) (w : Bool) (s : State) : Out := .next (s.intOp 1 d a a w (fun n x _ => ctzNat n x))

/-- The number of 1 bits (spec/04 R80). -/
def execPopc (d a : Reg) (w : Bool) (s : State) : Out := .next (s.intOp 1 d a a w (fun n x _ => popcNat n x))

/-- s[D] := s[A] + sext(IMM16) (spec/04 R82). -/
def execAddi (d a : Reg) (i : BitVec 16) (s : State) : Out := .next (s.ctlReg d (s.core.a.rd a + i.signExtend 64))

/-- s[D] := s[A] and sext(IMM16) (spec/04 R82). -/
def execAndi (d a : Reg) (i : BitVec 16) (s : State) : Out := .next (s.ctlReg d (s.core.a.rd a &&& i.signExtend 64))

/-- s[D] := s[A] or zext(IMM16) (spec/04 R82). -/
def execOri (d a : Reg) (i : BitVec 16) (s : State) : Out := .next (s.ctlReg d (s.core.a.rd a ||| i.zeroExtend 64))

/-- s[D] := s[A] xor zext(IMM16) (spec/04 R82). -/
def execXori (d a : Reg) (i : BitVec 16) (s : State) : Out := .next (s.ctlReg d (s.core.a.rd a ^^^ i.zeroExtend 64))

/-- The left shift by an immediate, as SLL (spec/04 R83). -/
def execSlli (d a : Reg) (w : Bool) (k : BitVec 6) (s : State) : Out :=
  .next (s.intOp 1 d a a w (fun n x _ => x * 2 ^ shiftOf n k.toNat % 2 ^ n))

/-- The logical right shift by an immediate, as SRL (spec/04 R83). -/
def execSrli (d a : Reg) (w : Bool) (k : BitVec 6) (s : State) : Out :=
  .next (s.intOp 1 d a a w (fun n x _ => x / 2 ^ shiftOf n k.toNat))

/-- The arithmetic right shift by an immediate, as SRA (spec/04 R83). -/
def execSrai (d a : Reg) (w : Bool) (k : BitVec 6) (s : State) : Out :=
  .next (s.intOp 1 d a a w (fun n x _ => sraNat n x (shiftOf n k.toNat)))

/-- The rotation by an immediate, as ROL (spec/04 R83). -/
def execRoli (d a : Reg) (w : Bool) (k : BitVec 6) (s : State) : Out :=
  .next (s.intOp 1 d a a w (fun n x _ => rolNat n x (shiftOf n k.toNat) % 2 ^ n))

/-- s[D] := (s[A] << 16) or zext(IMM16) (spec/04 R82). -/
def execMovhi (d a : Reg) (i : BitVec 16) (s : State) : Out :=
  .next (s.ctlReg d ((s.core.a.rd a <<< 16) ||| i.zeroExtend 64))

/-- s[D] := the bundle's address + 32 times sext(IMM16) (spec/04 R82). -/
def execAddpc (d : Reg) (i : BitVec 16) (s : State) : Out := .next (s.ctlReg d (relTarget s.core.a.pc i))

/-- p[Pd] := the condition on two registers at the form's width (spec/04 R84). -/
def execCmp (p : PredReg) (a b : Reg) (w : Bool) (c : Cond) (s : State) : Out :=
  .next (s.ctlPred p (Cond.eval c (intWidth w) (s.core.a.opnd w a) (s.core.a.opnd w b)))

/-- p[Pd] := the condition on a register and the sign-extended immediate (spec/04 R84). -/
def execCmpi (p : PredReg) (c : Cond) (a : Reg) (i : BitVec 15) (s : State) : Out :=
  .next (s.ctlPred p (Cond.eval c 64 (s.core.a.rd a).toNat (i.signExtend 64).toNat))

/-- The and of two optionally negated predicates (spec/04 R85). -/
def execPand (d a : PredReg) (x : Bool) (b : PredReg) (y : Bool) (s : State) : Out :=
  .next (s.ctlPred d ((s.core.a.rdP a != x) && (s.core.a.rdP b != y)))

/-- The or of two optionally negated predicates (spec/04 R85). -/
def execPor (d a : PredReg) (x : Bool) (b : PredReg) (y : Bool) (s : State) : Out :=
  .next (s.ctlPred d ((s.core.a.rdP a != x) || (s.core.a.rdP b != y)))

/-- The xor of two optionally negated predicates (spec/04 R85). -/
def execPxor (d a : PredReg) (x : Bool) (b : PredReg) (y : Bool) (s : State) : Out :=
  .next (s.ctlPred d ((s.core.a.rdP a != x) != (s.core.a.rdP b != y)))

/-- Choose one of two registers by a predicate (spec/04 R86). -/
def execSel (d a b : Reg) (n : Bool) (p : PredReg) (s : State) : Out :=
  .next (s.ctlReg d (if s.core.a.rdP p != n then s.core.a.rd a else s.core.a.rd b))

/-- Branch on a predicate (spec/04 R87). -/
def execBr (p : PredReg) (n : Bool) (o : BitVec 16) (s : State) : Out :=
  .next (s.transfer (s.core.a.rdP p != n) (relTarget s.core.a.pc o) true)

/-- Branch when a register is zero (spec/04 R87). -/
def execBz (a : Reg) (o : BitVec 16) (s : State) : Out :=
  .next (s.transfer (s.core.a.rd a == 0) (relTarget s.core.a.pc o) true)

/-- Branch when a register is not zero (spec/04 R87). -/
def execBnz (a : Reg) (o : BitVec 16) (s : State) : Out :=
  .next (s.transfer (s.core.a.rd a != 0) (relTarget s.core.a.pc o) true)

/-- The unconditional jump (spec/04 R87). -/
def execJmp (o : BitVec 26) (s : State) : Out := .next (s.transfer true (relTarget s.core.a.pc o) true)

/-- The relative call: the link goes to s31 at 1 cycle; no loop level is deactivated (spec/04 R87, R91). -/
def execCall (o : BitVec 26) (s : State) : Out :=
  .next (if s.core.a.inDelay then s.illegal 0
    else (s.transfer true (relTarget s.core.a.pc o) false).ctlReg 31 s.core.a.link)

/-- The jump to a register, with a link when D is not 0: MISALIGNED for a target that is not 32-byte aligned; no loop
level is deactivated (spec/04 R87, R88, R91). -/
def execJr (d a : Reg) (s : State) : Out :=
  let t := s.core.a.rd a
  .next (if s.core.a.inDelay then s.illegal 0
    else if t.toNat % 32 ≠ 0 then s.fault 0 .misaligned t
    else (s.transfer true t false).ctlReg d s.core.a.link)

/-- LOOP (spec/04 R89): activate a level, or skip the body when the count is 0.
A skip is held as a pending transfer of no delay bundle, which STW.PT shows when a later slot of the bundle traps (log 69). -/
def execLoop (l : LoopNo) (a : Reg) (o : BitVec 16) (s : State) : Out :=
  let pc := s.core.a.pc
  let n := (s.core.a.rd a).toNat
  let e := pc + word (32 * o.toNat)
  let beyond := s.core.a.loops.toList.any (fun x => x.act && decide (x.stop.toNat < e.toNat))
  .next (if s.core.a.inDelay then s.illegal 0
    else if s.core.a.loops[l].act || o.toNat = 0 || beyond then s.illegal 0
    else if n = 0 then s.modA (fun a => { a with pend := some ⟨e + 32, 1, false⟩ })
    else s.modA (fun a => { a with loops := a.loops.set l ⟨true, pc + 32, e, n⟩, order := l :: a.order }))

/-- round(a + b) (spec/04 R92). -/
def execFadd (d a b : Reg) (r : Round) (s : State) : Out := .next (s.fpOp 4 d r (ExtNum.add r (s.core.a.fp a) (s.core.a.fp b)))

/-- round(a - b) (spec/04 R92). -/
def execFsub (d a b : Reg) (r : Round) (s : State) : Out := .next (s.fpOp 4 d r (ExtNum.add r (s.core.a.fp a) (s.core.a.fp b).neg))

/-- round(a b) (spec/04 R92). -/
def execFmul (d a b : Reg) (r : Round) (s : State) : Out := .next (s.fpOp 4 d r ((s.core.a.fp a).mul (s.core.a.fp b)))

/-- round(a / b) (spec/04 R92). -/
def execFdiv (d a b : Reg) (r : Round) (s : State) : Out := .next (s.fpOp 14 d r ((s.core.a.fp a).div (s.core.a.fp b)))

/-- round of the square root (spec/04 R92). -/
def execFsqrt (d a : Reg) (r : Round) (s : State) : Out := .next (s.fpOp 14 d r ((s.core.a.fp a).sqrt))

/-- the smaller; -0 is smaller than +0 (spec/04 R92). -/
def execFmin (d a b : Reg) (s : State) : Out := .next (s.fpOp 4 d .rne ((s.core.a.fp a).min (s.core.a.fp b)))

/-- the larger; -0 is smaller than +0 (spec/04 R92). -/
def execFmax (d a b : Reg) (s : State) : Out := .next (s.fpOp 4 d .rne ((s.core.a.fp a).max (s.core.a.fp b)))

/-- a b + d, rounded once (spec/04 R93). -/
def execFfma (d a b : Reg) (r : Round) (s : State) : Out := .next (s.fpOp 4 d r (ExtNum.add r ((s.core.a.fp a).mul (s.core.a.fp b)) (s.core.a.fp d)))

/-- a b - d, rounded once (spec/04 R93). -/
def execFfms (d a b : Reg) (r : Round) (s : State) : Out := .next (s.fpOp 4 d r (ExtNum.add r ((s.core.a.fp a).mul (s.core.a.fp b)) (s.core.a.fp d).neg))

/-- -(a b) + d, rounded once (spec/04 R93). -/
def execFfnma (d a b : Reg) (r : Round) (s : State) : Out := .next (s.fpOp 4 d r (ExtNum.add r ((s.core.a.fp a).mul (s.core.a.fp b)).neg (s.core.a.fp d)))

/-- -(a b) - d, rounded once (spec/04 R93). -/
def execFfnms (d a b : Reg) (r : Round) (s : State) : Out := .next (s.fpOp 4 d r (ExtNum.add r ((s.core.a.fp a).mul (s.core.a.fp b)).neg (s.core.a.fp d).neg))

/-- FP32 to signed 64-bit (spec/04 R94). -/
def execFcvtI64F32 (d a : Reg) (r : Round) (s : State) : Out := .next (s.fpInt 3 d (toIntRange r (-(2 ^ 63)) (2 ^ 63 - 1) (s.core.a.fp a)))

/-- FP32 to unsigned 64-bit (spec/04 R94). -/
def execFcvtUi64F32 (d a : Reg) (r : Round) (s : State) : Out := .next (s.fpInt 3 d (toIntRange r 0 (2 ^ 64 - 1) (s.core.a.fp a)))

/-- FP32 to signed 32-bit, sign-extended (spec/04 R94). -/
def execFcvtI32F32 (d a : Reg) (r : Round) (s : State) : Out := .next (s.fpInt 3 d (toIntRange r (-(2 ^ 31)) (2 ^ 31 - 1) (s.core.a.fp a)))

/-- FP32 to unsigned 32-bit, zero-extended (spec/04 R94). -/
def execFcvtUi32F32 (d a : Reg) (r : Round) (s : State) : Out := .next (s.fpInt 3 d (toIntRange r 0 (2 ^ 32 - 1) (s.core.a.fp a)))

/-- signed 64-bit to FP32 (spec/04 R94). -/
def execFcvtF32I64 (d a : Reg) (r : Round) (s : State) : Out := .next (s.fpCode 3 d f32 (f32.round r (ofInt (s.core.a.rd a).toInt)))

/-- unsigned 64-bit to FP32 (spec/04 R94). -/
def execFcvtF32Ui64 (d a : Reg) (r : Round) (s : State) : Out := .next (s.fpCode 3 d f32 (f32.round r (ofInt (s.core.a.rd a).toNat)))

/-- signed 32-bit to FP32 (spec/04 R94). -/
def execFcvtF32I32 (d a : Reg) (r : Round) (s : State) : Out := .next (s.fpCode 3 d f32 (f32.round r (ofInt (signedOf 32 (s.core.a.rd a).toNat))))

/-- unsigned 32-bit to FP32 (spec/04 R94). -/
def execFcvtF32Ui32 (d a : Reg) (r : Round) (s : State) : Out := .next (s.fpCode 3 d f32 (f32.round r (ofInt ((s.core.a.rd a).toNat % 2 ^ 32 : Nat))))

/-- FP32 to B16 (spec/04 R94). -/
def execFcvtB16F32 (d a : Reg) (r : Round) (s : State) : Out := .next (s.fpCode 3 d bf16 (bf16.round r (s.core.a.fp a)))

/-- B16 to FP32 (spec/04 R94). -/
def execFcvtF32B16 (d a : Reg) (r : Round) (s : State) : Out := .next (s.fpCode 3 d f32 (f32.round r (bf16.decode ((s.core.a.rd a).toNat % 2 ^ 16))))

/-- FP32 to F16 (spec/04 R94). -/
def execFcvtF16F32 (d a : Reg) (r : Round) (s : State) : Out := .next (s.fpCode 3 d f16 (f16.round r (s.core.a.fp a)))

/-- F16 to FP32 (spec/04 R94). -/
def execFcvtF32F16 (d a : Reg) (r : Round) (s : State) : Out := .next (s.fpCode 3 d f32 (f32.round r (f16.decode ((s.core.a.rd a).toNat % 2 ^ 16))))

/-- FP32 to E4M3 (spec/04 R94). -/
def execFcvtF8aF32 (d a : Reg) (r : Round) (s : State) : Out := .next (s.fpCode 3 d f8a (f8a.round r (s.core.a.fp a)))

/-- FP32 to E5M2 (spec/04 R94). -/
def execFcvtF8bF32 (d a : Reg) (r : Round) (s : State) : Out := .next (s.fpCode 3 d f8b (f8b.round r (s.core.a.fp a)))

/-- E4M3 to FP32 (spec/04 R94). -/
def execFcvtF32F8a (d a : Reg) (r : Round) (s : State) : Out := .next (s.fpCode 3 d f32 (f32.round r (f8a.decode ((s.core.a.rd a).toNat % 2 ^ 8))))

/-- E5M2 to FP32 (spec/04 R94). -/
def execFcvtF32F8b (d a : Reg) (r : Round) (s : State) : Out := .next (s.fpCode 3 d f32 (f32.round r (f8b.decode ((s.core.a.rd a).toNat % 2 ^ 8))))

/-- FP32 rounded to an integral FP32 value (spec/04 R94). -/
def execFrint (d a : Reg) (r : Round) (s : State) : Out := .next (s.fpCode 3 d f32 (f32.round .rne ((s.core.a.fp a).rint r)))

/-- The FP compare's predicate, checked by the shadow (spec/04 R95, R96). -/
def State.fpPred (p : PredReg) (x : Bool) (s : State) : State := (s.shadow 1 0 [intShadow (if x then 1 else 0)]).ctlPred p x

/-- a = b, with neither NaN (spec/04 R95). -/
def execFeq (p : PredReg) (a b : Reg) (s : State) : Out := .next (s.fpPred p ((s.core.a.fp a).eqv (s.core.a.fp b)))

/-- a < b, with neither NaN (spec/04 R95). -/
def execFlt (p : PredReg) (a b : Reg) (s : State) : Out := .next (s.fpPred p ((s.core.a.fp a).lt (s.core.a.fp b)))

/-- a ≤ b, with neither NaN (spec/04 R95). -/
def execFle (p : PredReg) (a b : Reg) (s : State) : Out :=
  .next (s.fpPred p ((s.core.a.fp a).lt (s.core.a.fp b) || (s.core.a.fp a).eqv (s.core.a.fp b)))

/-- a or b is NaN (spec/04 R95). -/
def execFUn (p : PredReg) (a b : Reg) (s : State) : Out := .next (s.fpPred p ((s.core.a.fp a).isNaN || (s.core.a.fp b).isNaN))

/-- Read a system register at issue (spec/04 R97). -/
def execRdsr (d : Reg) (i : SysReg) (s : State) : Out := .next (s.ctlReg d (s.sysRead i))

/-- Write a system register (spec/04 R97): UTVEC, aligned; SRES of STW in a handler, from the current SRES to 8
(spec/15 R308); PROT for a register that is only read.
The new value governs the next bundle. -/
def execWrsr (a : Reg) (i : SysReg) (s : State) : Out :=
  let x := s.core.a.rd a
  .next (match i with
    | .utvec => if x.toNat % 32 ≠ 0 then s.fault 0 .misaligned x else s.fly 1 0 [.utvec x]
    | .stw =>
      let n := bits x 3 0
      if s.core.a.ut && decide (s.core.a.sres.toNat ≤ n ∧ n ≤ 8) then s.fly 1 0 [.sres (BitVec.ofNat 4 n)] else s
    | r => s.fault 0 .prot (word r.code))

/-- Write one configuration word of a port; ILLEGAL_OP while it is active (spec/07 R148). -/
def execGcfg (a : Reg) (t : PortWord) (g : Port) (s : State) : Out :=
  .next (if s.core.a.ports[g].act then s.illegal 0 else s.fly 1 0 [.port g (.cfg t (s.core.a.rd a))])

/-- A port's prefetch begins in this cycle (spec/07 R145). -/
def State.restartPrefetch (g : Port) (s : State) : State :=
  s.modA (fun a => { a with ports := a.ports.set g { a.ports[g] with age := 0, aged := false } })

/-- Activate a port from the next bundle on (spec/07 R149). -/
def execGstart (g : Port) (s : State) : Out := .next ((s.fly 1 0 [.port g .start]).restartPrefetch g)

/-- Deactivate a port from the next bundle on (spec/07 R149). -/
def execGstop (g : Port) (s : State) : Out := .next (s.fly 1 0 [.port g .stop])

/-- The status word of a port (spec/07 R149). -/
def execGstat (d : Reg) (g : Port) (s : State) : Out := .next (s.ctlReg d s.core.a.ports[g].status)

/-- POS := s[A] mod N (spec/07 R149). -/
def execGseek (a : Reg) (g : Port) (s : State) : Out :=
  .next ((s.fly 1 0 [.port g (.seek ((s.core.a.rd a).toNat % s.core.a.ports[g].count))]).restartPrefetch g)

/-- k := s[A][31:0] (spec/07 R151). -/
def execVsetk (a : Reg) (s : State) : Out := .next (s.fly 1 0 [.k ((s.core.a.rd a).setWidth 32)])

/-- k := s[A][15:0] in both halves (spec/07 R151). -/
def execVsetkH (a : Reg) (s : State) : Out :=
  let h := (s.core.a.rd a).toNat % 2 ^ 16
  .next (s.fly 1 0 [.k (BitVec.ofNat 32 (h * 2 ^ 16 + h))])

end Sys2Proof.Machine
end

