-- ==== Sys2Proof/Machine/Vector.lean ====
section
/-!
DEFINITION. The meanings of the vector slots va and vb (spec/08 R155 to R179).
-/
set_option linter.unusedVariables false

namespace Sys2Proof.Machine

/-- The floating-point format of an element type. -/
def vfmt : VType → Option FpFmt
  | .f32 => some f32
  | .bf16x2 => some bf16
  | .f16x2 => some f16
  | _ => none

/-- Elements per lane (spec/08 R156). -/
def perLane (t : VType) : Nat := 32 / t.bits

/-- Element e of a lane (spec/08 R156). -/
def laneElem (t : VType) (x : Lane) (e : Nat) : Nat := x.toNat / 2 ^ (t.bits * e) % 2 ^ t.bits

/-- The lane of its elements. -/
def laneOf (t : VType) (f : Nat → Nat) : Lane :=
  BitVec.ofNat 32 ((List.range (perLane t)).foldl (fun n e => n + f e % 2 ^ t.bits * 2 ^ (t.bits * e)) 0)

/-- Element n of a vector: element n mod p of lane n div p (spec/08 R156). -/
def vecElem (t : VType) (v : Vec) (n : Nat) : Nat := laneElem t (v.lane (n / perLane t)) (n % perLane t)

/-- The vector of its elements. -/
def vecOfElems (t : VType) (f : Nat → Nat) : Vec := Vec.ofFn (fun i => laneOf t (fun e => f (i * perLane t + e)))

/-- The governing mask: a masked-off lane is copied from a source (spec/08 R158). -/
def masked (m : Mask) (keep : Vec) (f : Nat → Lane) : Vec := Vec.ofFn (fun i => if bitOf m i then f i else keep.lane i)

/-- The value of an element under its type. -/
def elemNum (t : VType) (x : Nat) : ExtNum :=
  match vfmt t with
  | some f => f.decode x
  | none => if t = .ui32 then ofInt (x : Int) else ofInt (signedOf t.bits x)

/-- Latency of arithmetic: 4 cycles on FP types, 2 on integers (spec/08 R160). -/
def arithLat (t : VType) : Nat := if (vfmt t).isSome then 4 else 2

/-- An arithmetic operation on one element: `fi` on integers of w bits, `ff` on values, rounded by RNE (spec/08 R162). -/
def elemOp (t : VType) (fi : Nat → Nat → Nat → Nat) (ff : ExtNum → ExtNum → ExtNum) (x y : Nat) : Nat :=
  match vfmt t with
  | some f => f.round .rne (ff (f.decode x) (f.decode y))
  | none => fi t.bits x y % 2 ^ t.bits

/-- The integer operand read as signed, or unsigned for ui32. -/
def intOf (t : VType) (x : Nat) : Int := if t = .ui32 then (x : Int) else signedOf t.bits x

/-- What the narrow shadow checks of a result of an element type: each element of the lanes of a mask, for an FP type
(spec/08 R158, R176). -/
def shadowElems (t : VType) (g : Mask) (x : Vec) : List Nat :=
  match vfmt t with
  | none => []
  | some f =>
    ((List.range 128).filter (fun i => bitOf g i)).flatMap (fun i =>
      (List.range (perLane t)).map (fun e => f.shadow (laneElem t (x.lane i) e)))

/-- An elementwise instruction of two sources (spec/08 R162). -/
def State.vec2 (un : VUnit) (d : VDst) (a b : VSrc) (t : VType) (m : MaskReg) (lat : Nat)
    (f : Nat → Nat → Nat) (s : State) : State :=
  s.vecIssue (VUnit.slot un) [a, b] d (fun _ => none) (fun vs s =>
    let va := vs.getD 0 0
    let vb := vs.getD 1 0
    let x := masked (s.core.a.rdM m) va (fun i => laneOf t (fun e => f (laneElem t (va.lane i) e) (laneElem t (vb.lane i) e)))
    s.deliver lat (VUnit.slot un) d (shadowElems t (s.core.a.rdM m) x) x)

/-- An elementwise instruction of one source (spec/08 R162). -/
def State.vec1 (slot : Nat) (d : VDst) (a : VSrc) (t : VType) (m : MaskReg) (lat : Nat) (f : Nat → Nat) (s : State) :
    State :=
  s.vecIssue slot [a] d (fun _ => none) (fun vs s =>
    let va := vs.getD 0 0
    let x := masked (s.core.a.rdM m) va (fun i => laneOf t (fun e => f (laneElem t (va.lane i) e)))
    s.deliver lat slot d (shadowElems t (s.core.a.rdM m) x) x)

/-- A vector result made of whole sources; `chk` are its elements that the shadow checks. -/
def State.vecWhole (slot : Nat) (srcs : List VSrc) (d : VDst) (lat : Nat) (chk : Core → Vec → List Nat)
    (f : Core → List Vec → Vec) (s : State) : State :=
  s.vecIssue slot srcs d (fun _ => none) (fun vs s => s.deliver lat slot d (chk s.core (f s.core vs)) (f s.core vs))

/-- No element is checked. -/
def unchecked (_ : Core) (_ : Vec) : List Nat := []

/-- Every element of a result of an FP type is checked. -/
def checkedAs (t : VType) (_ : Core) (x : Vec) : List Nat := shadowElems t (BitVec.allOnes 128) x

/-- The no-op of a vector slot (spec/02 R36). -/
def execNopVec (un : VUnit) (s : State) : Out := .next s

/-- a + b (spec/08 R162). -/
def execVadd (un : VUnit) (d : VDst) (a b : VSrc) (t : VType) (m : MaskReg) (s : State) : Out :=
  .next (s.vec2 un d a b t m (arithLat t) (elemOp t (fun w x y => x + y) (ExtNum.add .rne)))

/-- a - b (spec/08 R162). -/
def execVsub (un : VUnit) (d : VDst) (a b : VSrc) (t : VType) (m : MaskReg) (s : State) : Out :=
  .next (s.vec2 un d a b t m (arithLat t) (elemOp t (fun w x y => x + (2 ^ w - y)) (fun x y => ExtNum.add .rne x y.neg)))

/-- the low w bits of a b, or round(a b) (spec/08 R162). -/
def execVmul (un : VUnit) (d : VDst) (a b : VSrc) (t : VType) (m : MaskReg) (s : State) : Out :=
  .next (s.vec2 un d a b t m (arithLat t) (elemOp t (fun w x y => x * y) ExtNum.mul))

/-- the high w bits of the product (spec/08 R162). -/
def execVmulh (un : VUnit) (d : VDst) (a b : VSrc) (t : VType) (m : MaskReg) (s : State) : Out :=
  .next (s.vec2 un d a b t m 2 (fun x y => intBits t.bits (intOf t x * intOf t y / (2 ^ t.bits : Int))))

/-- a b + c, rounded once, to the queue only; a masked-off lane is copied from C (spec/08 R164). -/
def execVfma (un : VUnit) (c a b : VSrc) (t : VType) (m : MaskReg) (s : State) : Out :=
  .next (s.vecIssue (VUnit.slot un) [a, b, c] .queue (fun _ => none) (fun vs s =>
    let va := vs.getD 0 0
    let vb := vs.getD 1 0
    let vc := vs.getD 2 0
    let x := masked (s.core.a.rdM m) vc (fun i =>
      laneOf t (fun e =>
        ((vfmt t).getD f32).round .rne (ExtNum.add .rne
          ((elemNum t (laneElem t (va.lane i) e)).mul (elemNum t (laneElem t (vb.lane i) e)))
          (elemNum t (laneElem t (vc.lane i) e)))))
    s.deliver 5 (VUnit.slot un) .queue (shadowElems t (s.core.a.rdM m) x) x))

/-- the smaller (spec/08 R162, R163). -/
def execVmin (un : VUnit) (d : VDst) (a b : VSrc) (t : VType) (m : MaskReg) (s : State) : Out :=
  .next (s.vec2 un d a b t m (arithLat t) (elemOp t (fun w x y => if intOf t y < intOf t x then y else x) ExtNum.min))

/-- the larger (spec/08 R162, R163). -/
def execVmax (un : VUnit) (d : VDst) (a b : VSrc) (t : VType) (m : MaskReg) (s : State) : Out :=
  .next (s.vec2 un d a b t m (arithLat t) (elemOp t (fun w x y => if intOf t x < intOf t y then y else x) ExtNum.max))

/-- The absolute value; FP: the sign cleared, NaN canonical (spec/08 R162, R163). -/
def execVabs (un : VUnit) (d : VDst) (a : VSrc) (t : VType) (m : MaskReg) (s : State) : Out :=
  .next (s.vec1 (VUnit.slot un) d a t m 2 (fun x =>
    elemOp t (fun w x _ => intBits w (signedOf w x).natAbs) (fun x _ => x.abs) x 0))

/-- The negation; FP: the sign inverted, NaN canonical (spec/08 R162, R163). -/
def execVneg (un : VUnit) (d : VDst) (a : VSrc) (t : VType) (m : MaskReg) (s : State) : Out :=
  .next (s.vec1 (VUnit.slot un) d a t m 2 (fun x => elemOp t (fun w x _ => 2 ^ w - x) (fun x _ => x.neg) x 0))

/-- a and b, on 32 bits (spec/08 R162). -/
def execVand (un : VUnit) (d : VDst) (a b : VSrc) (m : MaskReg) (s : State) : Out :=
  .next (s.vec2 un d a b .i32 m 2 (fun x y => Nat.land x y))

/-- a or b, on 32 bits (spec/08 R162). -/
def execVor (un : VUnit) (d : VDst) (a b : VSrc) (m : MaskReg) (s : State) : Out :=
  .next (s.vec2 un d a b .i32 m 2 (fun x y => Nat.lor x y))

/-- a xor b, on 32 bits (spec/08 R162). -/
def execVxor (un : VUnit) (d : VDst) (a b : VSrc) (m : MaskReg) (s : State) : Out :=
  .next (s.vec2 un d a b .i32 m 2 (fun x y => Nat.xor x y))

/-- a and not b, on 32 bits (spec/08 R162). -/
def execVandn (un : VUnit) (d : VDst) (a b : VSrc) (m : MaskReg) (s : State) : Out :=
  .next (s.vec2 un d a b .i32 m 2 (fun x y => Nat.land x (2 ^ 32 - 1 - y)))

/-- a shifted left, zeros entering (spec/08 R162). -/
def execVshl (un : VUnit) (d : VDst) (a b : VSrc) (t : VType) (m : MaskReg) (s : State) : Out :=
  .next (s.vec2 un d a b t m 2 (fun x y => x * 2 ^ (y % t.bits)))

/-- a shifted right, sign bits entering, zeros for ui32 (spec/08 R162). -/
def execVshr (un : VUnit) (d : VDst) (a b : VSrc) (t : VType) (m : MaskReg) (s : State) : Out :=
  .next (s.vec2 un d a b t m 2 (fun x y => intBits t.bits (intOf t x / (2 ^ (y % t.bits) : Int))))

/-- Compare lanes into a mask; a masked-off lane gives 0 (spec/08 R165). -/
def execVcmp (un : VUnit) (c : VCond) (k : MaskReg) (a b : VSrc) (t : VType) (m : MaskReg) (s : State) : Out :=
  .next (s.vecIssue (VUnit.slot un) [a, b] .queue (fun _ => none) (fun vs s =>
    let va := vs.getD 0 0
    let vb := vs.getD 1 0
    let g := s.core.a.rdM m
    let cond (i : Nat) : Bool :=
      if t = .f32 then VCond.evalF32 c (va.lane i) (vb.lane i)
      else VCond.evalInt c (t != .ui32) (va.lane i) (vb.lane i)
    s.fly 2 (VUnit.slot un) [.m k (maskOf (fun i => bitOf g i && cond i))]))

/-- Lane i of A where bit i of the selector is 1, of B elsewhere (spec/08 R167). -/
def execVsel (un : VUnit) (d : VDst) (a b : VSrc) (m : MaskReg) (s : State) : Out :=
  .next (s.vecWhole (VUnit.slot un) [a, b] d 2 unchecked (fun c vs =>
    masked (c.a.rdM m) (vs.getD 1 0) (fun i => (vs.getD 0 0).lane i)))

/-- Copy every lane (spec/08 R167). -/
def execVmov (un : VUnit) (d : VDst) (a : VSrc) (s : State) : Out :=
  .next (s.vecWhole (VUnit.slot un) [a] d 2 unchecked (fun _ vs => vs.getD 0 0))

/-- The converted element: RNE, integers saturate (spec/08 R168). -/
def cvtElem (dst src : VType) (x : Nat) : Nat :=
  match vfmt dst with
  | some f => f.round .rne (elemNum src x)
  | none =>
    if dst = .ui32 then (toIntRange .rne 0 (2 ^ 32 - 1) (elemNum src x)).toNat
    else intBits dst.bits (toIntRange .rne (-(2 ^ (dst.bits - 1) : Int)) (2 ^ (dst.bits - 1) - 1) (elemNum src x))

/-- The whole result of VCVT from part p (spec/08 R168). -/
def cvtVec (dst src : VType) (p : Nat) (g : Mask) (v : Vec) : Vec :=
  let ns := 128 * perLane src
  let nd := 128 * perLane dst
  if dst.bits < src.bits then
    vecOfElems dst (fun n => if p * ns ≤ n ∧ n < (p + 1) * ns then cvtElem dst src (vecElem src v (n - p * ns)) else 0)
  else if src.bits < dst.bits then vecOfElems dst (fun n => cvtElem dst src (vecElem src v (n + p * nd)))
  else masked g v (fun i => laneOf dst (fun e => cvtElem dst src (laneElem src (v.lane i) e)))

/-- Convert between types (spec/08 R168). -/
def execVcvt (un : VUnit) (d : VDst) (a : VSrc) (p : BitVec 2) (dst src : VType) (m : MaskReg) (s : State) : Out :=
  .next (s.vecWhole (VUnit.slot un) [a] d 4
    (fun c x => shadowElems dst (if dst.bits = src.bits then c.a.rdM m else BitVec.allOnes 128) x) (fun c vs =>
    cvtVec dst src p.toNat (c.a.rdM m) (vs.getD 0 0)))

/-- The tag bits of a tag vector: lane 0 (spec/08 R169). -/
def tagHead (v : Vec) : Word := (v.lane 0).zeroExtend 64

/-- The format named by a tag vector's lane 0, if it passes R169. -/
def headFmt (v : Vec) : Option Fmt := tagHeadFmt (tagHead v)

/-- Granules of a group of 128 elements (spec/08 R169). -/
def groupOf (f : Fmt) : Nat := 128 / f.elems

/-- BAD_TAG of a tag vector: lane 0, and with `scales` the lanes 1 to g (spec/08 R169). -/
def tagVecFault (scales : Bool) (v : Vec) : Option (Cause × Word) :=
  match headFmt v with
  | none => some (.badTag, tagHead v)
  | some f =>
    if scales && (List.range (groupOf f)).any (fun j => !scaleOk (v.lane (1 + j)).toNat) then some (.badTag, tagHead v)
    else none

/-- The values of the lanes that a mask lets in; the others count as +0 (spec/08 R170, R171). -/
def maskedNum (g : Mask) (v : Vec) (i : Nat) : ExtNum := if bitOf g i then num32 (v.lane i).toNat else .fin false 0 1

/-- The tag vector that VSCALE makes (spec/08 R170). -/
def scaleVec (g : Mask) (va vb : Vec) : Vec :=
  let f := (headFmt vb).getD .f32
  let e := f.elems
  Vec.ofFn (fun i =>
    if i = 0 then vb.lane 0
    else if i ≤ groupOf f then
      BitVec.ofNat 32 (blockScale ((List.range e).map (fun n => maskedNum g va ((i - 1) * e + n))) f (tagXv (tagHead vb)))
    else 0)

/-- Block scales of 128 values (spec/08 R170). -/
def execVscale (un : VUnit) (d : VDst) (a b : VSrc) (m : MaskReg) (s : State) : Out :=
  .next (s.vecIssue (VUnit.slot un) [a, b] d (fun vs => tagVecFault false (vs.getD 1 0)) (fun vs s =>
    let x := scaleVec (s.core.a.rdM m) (vs.getD 0 0) (vs.getD 1 0)
    s.deliver 6 (VUnit.slot un) d ((List.range (groupOf ((headFmt (vs.getD 1 0)).getD .f32))).map (fun j => f32.shadow (x.lane (1 + j)).toNat))
      x))

/-- The codes that VQNT packs into granules (spec/08 R171). -/
def qntVec (g : Mask) (va vb : Vec) : Vec :=
  let f := (headFmt vb).getD .f32
  let e := f.elems
  BitVec.ofNat 4096 ((List.range 128).foldl (fun acc n =>
    acc + quantise (maskedNum g va n) (vb.lane (1 + n / e)).toNat f (tagXv (tagHead vb)) .rne *
      2 ^ (512 * (n / e) + f.bits * (n % e))) 0)

/-- Quantise 128 values under a tag vector (spec/08 R171). -/
def execVqnt (un : VUnit) (d : VDst) (a b : VSrc) (m : MaskReg) (s : State) : Out :=
  .next (s.vecIssue (VUnit.slot un) [a, b] d (fun vs => tagVecFault true (vs.getD 1 0)) (fun vs s =>
    s.deliver 4 (VUnit.slot un) d [] (qntVec (s.core.a.rdM m) (vs.getD 0 0) (vs.getD 1 0))))

/-- The values of the codes of granules under a tag vector (spec/08 R172). -/
def unpkVec (va vb : Vec) : Vec :=
  let f := (headFmt vb).getD .f32
  Vec.ofFn (fun n =>
    let j := n / f.elems
    let t := word ((vb.lane 0).toNat + (vb.lane (1 + j)).toNat * 2 ^ 32)
    to32 (elemValue f t (va.granule j) (n % f.elems)))

/-- Expand granules under a tag vector (spec/08 R172). -/
def execVunpk (un : VUnit) (d : VDst) (a b : VSrc) (s : State) : Out :=
  .next (s.vecIssue (VUnit.slot un) [a, b] d (fun vs => tagVecFault true (vs.getD 1 0)) (fun vs s =>
    s.deliver 4 (VUnit.slot un) d (checkedAs .f32 s.core (unpkVec (vs.getD 0 0) (vs.getD 1 0)))
      (unpkVec (vs.getD 0 0) (vs.getD 1 0))))

/-- Bits in both masks (spec/08 R166). -/
def execVmaskAnd (un : VUnit) (k : MaskReg) (a b : MaskReg) (s : State) : Out :=
  .next (s.fly 2 (VUnit.slot un) [.m k (s.core.a.rdM a &&& s.core.a.rdM b)])

/-- Bits in either mask (spec/08 R166). -/
def execVmaskOr (un : VUnit) (k : MaskReg) (a b : MaskReg) (s : State) : Out :=
  .next (s.fly 2 (VUnit.slot un) [.m k (s.core.a.rdM a ||| s.core.a.rdM b)])

/-- Bits in one of two masks (spec/08 R166). -/
def execVmaskXor (un : VUnit) (k : MaskReg) (a b : MaskReg) (s : State) : Out :=
  .next (s.fly 2 (VUnit.slot un) [.m k (s.core.a.rdM a ^^^ s.core.a.rdM b)])

/-- Bits in the first mask and not the second (spec/08 R166). -/
def execVmaskAndn (un : VUnit) (k : MaskReg) (a b : MaskReg) (s : State) : Out :=
  .next (s.fly 2 (VUnit.slot un) [.m k (s.core.a.rdM a &&& ~~~ s.core.a.rdM b)])

/-- Bits not in the mask (spec/08 R166). -/
def execVmaskNot (un : VUnit) (k : MaskReg) (a : MaskReg) (s : State) : Out :=
  .next (s.fly 2 (VUnit.slot un) [.m k (~~~ s.core.a.rdM a)])

/-- A mask derived from a vector source (spec/08 R166). -/
def State.vecMask (un : VUnit) (k : MaskReg) (a : VSrc) (f : Vec → Nat → Bool) (s : State) : State :=
  s.vecIssue (VUnit.slot un) [a] .queue (fun _ => none) (fun vs s =>
    s.fly 2 (VUnit.slot un) [.m k (maskOf (f (vs.getD 0 0)))])

/-- Bit i is 1 when lane i is nonzero (spec/08 R166). -/
def execVmaskNz (un : VUnit) (k : MaskReg) (a : VSrc) (s : State) : Out :=
  .next (s.vecMask un k a (fun v i => v.lane i != 0))

/-- Bit i is 1 when i is below lane 0, read as unsigned (spec/08 R166). -/
def execVmaskCnt (un : VUnit) (k : MaskReg) (a : VSrc) (s : State) : Out :=
  .next (s.vecMask un k a (fun v i => decide (i < (v.lane 0).toNat)))

/-- Compare two sources lane by lane; the verdict comes 2 cycles later (spec/08 R177, R178). -/
def execVchk (un : VUnit) (a b : VSrc) (m : MaskReg) (s : State) : Out :=
  .next (s.vecIssue (VUnit.slot un) [a, b] .queue (fun _ => none) (fun vs s =>
    let g := s.core.a.rdM m
    let diff := (List.range 128).find? (fun i => bitOf g i && (vs.getD 0 0).lane i != (vs.getD 1 0).lane i)
    s.modA (fun a =>
      { a with checks := a.checks ++ [⟨2, VUnit.slot un, s.core.seq, a.pc, true, diff, []⟩] })))

/-- Lane i := A.lane[B.lane[i][6:0]] (spec/08 R173). -/
def execVperm (d : VDst) (a b : VSrc) (m : MaskReg) (s : State) : Out :=
  .next (s.vecWhole 2 [a, b] d 8 unchecked (fun c vs =>
    let va := vs.getD 0 0
    masked (c.a.rdM m) va (fun i => va.lane (((vs.getD 1 0).lane i).toNat % 128))))

/-- Lane i := A.lane[(i + B.lane[0][6:0]) mod 128] (spec/08 R173). -/
def execVrot (d : VDst) (a b : VSrc) (m : MaskReg) (s : State) : Out :=
  .next (s.vecWhole 2 [a, b] d 8 unchecked (fun c vs =>
    let va := vs.getD 0 0
    masked (c.a.rdM m) va (fun i => va.lane ((i + ((vs.getD 1 0).lane 0).toNat % 128) % 128))))

/-- The node operation of VRSUM and VSCAN (spec/03 R74). -/
def sumNode (t : VType) (x y : Lane) : Lane :=
  if t = .f32 then to32 (ExtNum.add .rne (num32 x.toNat) (num32 y.toNat)) else x + y

/-- The node operation of VRMAX (spec/03 R74). -/
def maxNode (t : VType) (x y : Lane) : Lane :=
  if t = .f32 then to32 ((num32 x.toNat).max (num32 y.toNat))
  else if intOf t x.toNat < intOf t y.toNat then y else x

/-- The identity of VRSUM: -0, or 0 (spec/03 R74). -/
def sumIdent (t : VType) : Lane := if t = .f32 then 0x80000000#32 else 0

/-- The identity of VRMAX: -Inf, or the smallest value of the type (spec/03 R74). -/
def maxIdent (t : VType) : Lane := if t = .f32 then 0xFF800000#32 else if t = .ui32 then 0 else 0x80000000#32

/-- The lanes that enter the tree: a masked-off lane enters as the identity (spec/08 R174). -/
def treeLanes (g : Mask) (ident : Lane) (v : Vec) : List Lane :=
  (List.range 128).map (fun i => if bitOf g i then v.lane i else ident)

/-- The sum of the lanes by the fixed tree, in every lane (spec/08 R174). -/
def execVrsum (d : VDst) (a : VSrc) (t : VType) (m : MaskReg) (s : State) : Out :=
  .next (s.vecWhole 2 [a] d 8 (if t = .f32 then checkedAs .f32 else unchecked) (fun c vs =>
    Vec.splat (treeRoot (sumNode t) (treeLanes (c.a.rdM m) (sumIdent t) (vs.getD 0 0)))))

/-- The maximum of the lanes by the fixed tree, in every lane (spec/08 R174). -/
def execVrmax (d : VDst) (a : VSrc) (t : VType) (m : MaskReg) (s : State) : Out :=
  .next (s.vecWhole 2 [a] d 8 (if t = .f32 then checkedAs .f32 else unchecked) (fun c vs =>
    Vec.splat (treeRoot (maxNode t) (treeLanes (c.a.rdM m) (maxIdent t) (vs.getD 0 0)))))

/-- The inclusive prefix sums from the same tree (spec/08 R174). -/
def execVscan (d : VDst) (a : VSrc) (t : VType) (m : MaskReg) (s : State) : Out :=
  .next (s.vecWhole 2 [a] d 8 (if t = .f32 then checkedAs .f32 else unchecked) (fun c vs =>
    let xs := treeScan (sumNode t) (treeLanes (c.a.rdM m) (sumIdent t) (vs.getD 0 0))
    Vec.ofFn (fun i => xs.getD i 0)))

/-- 2^x, correctly rounded (spec/03 R73, spec/08 R175). -/
def execVexp2 (d : VDst) (a : VSrc) (m : MaskReg) (s : State) : Out :=
  .next (s.vec1 3 d a .f32 m 12 (fun c => let x := num32 c; f32.round .rne x.exp2))

/-- log2 x, correctly rounded (spec/03 R73, spec/08 R175). -/
def execVlog2 (d : VDst) (a : VSrc) (m : MaskReg) (s : State) : Out :=
  .next (s.vec1 3 d a .f32 m 12 (fun c => let x := num32 c; f32.round .rne x.log2))

/-- 1/x, correctly rounded (spec/03 R73, spec/08 R175). -/
def execVrcp (d : VDst) (a : VSrc) (m : MaskReg) (s : State) : Out :=
  .next (s.vec1 3 d a .f32 m 12 (fun c => let x := num32 c; f32.round .rne x.rcp))

/-- 1 over the square root, correctly rounded (spec/03 R73, spec/08 R175). -/
def execVrsq (d : VDst) (a : VSrc) (m : MaskReg) (s : State) : Out :=
  .next (s.vec1 3 d a .f32 m 12 (fun c => let x := num32 c; f32.round .rne x.rsqrt))

end Sys2Proof.Machine
end

