-- ==== Sys2Proof/Machine/Cycle.lean ====
section
/-!
DEFINITION. One cycle of a core: its timers, the matrix engine and its microprogram, fetch, freezes, and the issue of a bundle
(spec/02 R33 to R44, spec/09 R181, R183, spec/15 R309 to R317), and which event comes next when the agenda is empty (log 3).
-/
set_option linter.unusedVariables false

namespace Sys2Proof.Machine

/-- The meaning of an instruction of a slot, or of a micro-word, as the core that issues it carries it out.
An event is no instruction of a slot (log 4). -/
def runInstr (i : Instr) (s : State) : Out :=
  match i with
  | .nopCtl => execNopCtl s
  | .add d a b w => execAdd d a b w s
  | .sub d a b w => execSub d a b w s
  | .and d a b w => execAnd d a b w s
  | .or d a b w => execOr d a b w s
  | .xor d a b w => execXor d a b w s
  | .andn d a b w => execAndn d a b w s
  | .sll d a b w => execSll d a b w s
  | .srl d a b w => execSrl d a b w s
  | .sra d a b w => execSra d a b w s
  | .rol d a b w => execRol d a b w s
  | .min d a b w => execMin d a b w s
  | .max d a b w => execMax d a b w s
  | .minu d a b w => execMinu d a b w s
  | .maxu d a b w => execMaxu d a b w s
  | .mul d a b w => execMul d a b w s
  | .mulh d a b w => execMulh d a b w s
  | .mulhu d a b w => execMulhu d a b w s
  | .div d a b w => execDiv d a b w s
  | .divu d a b w => execDivu d a b w s
  | .rem d a b w => execRem d a b w s
  | .remu d a b w => execRemu d a b w s
  | .clz d a w => execClz d a w s
  | .ctz d a w => execCtz d a w s
  | .popc d a w => execPopc d a w s
  | .addi d a i => execAddi d a i s
  | .andi d a i => execAndi d a i s
  | .ori d a i => execOri d a i s
  | .xori d a i => execXori d a i s
  | .slli d a w n => execSlli d a w n s
  | .srli d a w n => execSrli d a w n s
  | .srai d a w n => execSrai d a w n s
  | .roli d a w n => execRoli d a w n s
  | .movhi d a i => execMovhi d a i s
  | .addpc d i => execAddpc d i s
  | .cmp p a b w c => execCmp p a b w c s
  | .cmpi p c a i => execCmpi p c a i s
  | .pand d a x b y => execPand d a x b y s
  | .por d a x b y => execPor d a x b y s
  | .pxor d a x b y => execPxor d a x b y s
  | .sel d a b n p => execSel d a b n p s
  | .br p n o => execBr p n o s
  | .bz a o => execBz a o s
  | .bnz a o => execBnz a o s
  | .jmp o => execJmp o s
  | .call o => execCall o s
  | .jr d a => execJr d a s
  | .loop l a o => execLoop l a o s
  | .fadd d a b r => execFadd d a b r s
  | .fsub d a b r => execFsub d a b r s
  | .fmul d a b r => execFmul d a b r s
  | .fdiv d a b r => execFdiv d a b r s
  | .fsqrt d a r => execFsqrt d a r s
  | .fmin d a b => execFmin d a b s
  | .fmax d a b => execFmax d a b s
  | .ffma d a b r => execFfma d a b r s
  | .ffms d a b r => execFfms d a b r s
  | .ffnma d a b r => execFfnma d a b r s
  | .ffnms d a b r => execFfnms d a b r s
  | .fcvtI64F32 d a r => execFcvtI64F32 d a r s
  | .fcvtUi64F32 d a r => execFcvtUi64F32 d a r s
  | .fcvtI32F32 d a r => execFcvtI32F32 d a r s
  | .fcvtUi32F32 d a r => execFcvtUi32F32 d a r s
  | .fcvtF32I64 d a r => execFcvtF32I64 d a r s
  | .fcvtF32Ui64 d a r => execFcvtF32Ui64 d a r s
  | .fcvtF32I32 d a r => execFcvtF32I32 d a r s
  | .fcvtF32Ui32 d a r => execFcvtF32Ui32 d a r s
  | .fcvtB16F32 d a r => execFcvtB16F32 d a r s
  | .fcvtF32B16 d a r => execFcvtF32B16 d a r s
  | .fcvtF16F32 d a r => execFcvtF16F32 d a r s
  | .fcvtF32F16 d a r => execFcvtF32F16 d a r s
  | .fcvtF8aF32 d a r => execFcvtF8aF32 d a r s
  | .fcvtF8bF32 d a r => execFcvtF8bF32 d a r s
  | .fcvtF32F8a d a r => execFcvtF32F8a d a r s
  | .fcvtF32F8b d a r => execFcvtF32F8b d a r s
  | .frint d a r => execFrint d a r s
  | .feq p a b => execFeq p a b s
  | .flt p a b => execFlt p a b s
  | .fle p a b => execFle p a b s
  | .fUn p a b => execFUn p a b s
  | .rdsr d i => execRdsr d i s
  | .wrsr a i => execWrsr a i s
  | .gcfg a t g => execGcfg a t g s
  | .gstart g => execGstart g s
  | .gstop g => execGstop g s
  | .gstat d g => execGstat d g s
  | .gseek a g => execGseek a g s
  | .vsetk a => execVsetk a s
  | .vsetkH a => execVsetkH a s
  | .nopMem => execNopMem s
  | .ld d a o r z => execLd d a o r z s
  | .lds d a o r z => execLds d a o r z s
  | .st d a o r z => execSt d a o r z s
  | .ldv d a o r => execLdv d a o r s
  | .stv d a o r => execStv d a o r s
  | .ldx d a o r => execLdx d a o r s
  | .stpk d a o r m => execStpk d a o r m s
  | .ldt d a o r => execLdt d a o r s
  | .stt d a o r => execStt d a o r s
  | .ldg d a b x => execLdg d a b x s
  | .fence x => execFence x s
  | .fenceRel x => execFenceRel x s
  | .fenceAcq x => execFenceAcq x s
  | .fenceMem => execFenceMem s
  | .fenceUo => execFenceUo s
  | .prefRc a o => execPrefRc a o s
  | .prefMd a o => execPrefMd a o s
  | .nopVec un => execNopVec un s
  | .vadd un d a b t m => execVadd un d a b t m s
  | .vsub un d a b t m => execVsub un d a b t m s
  | .vmul un d a b t m => execVmul un d a b t m s
  | .vmulh un d a b t m => execVmulh un d a b t m s
  | .vfma un c a b t m => execVfma un c a b t m s
  | .vmin un d a b t m => execVmin un d a b t m s
  | .vmax un d a b t m => execVmax un d a b t m s
  | .vabs un d a t m => execVabs un d a t m s
  | .vneg un d a t m => execVneg un d a t m s
  | .vand un d a b m => execVand un d a b m s
  | .vor un d a b m => execVor un d a b m s
  | .vxor un d a b m => execVxor un d a b m s
  | .vandn un d a b m => execVandn un d a b m s
  | .vshl un d a b t m => execVshl un d a b t m s
  | .vshr un d a b t m => execVshr un d a b t m s
  | .vcmp un c k a b t m => execVcmp un c k a b t m s
  | .vsel un d a b m => execVsel un d a b m s
  | .vmov un d a => execVmov un d a s
  | .vcvt un d a p u t m => execVcvt un d a p u t m s
  | .vscale un d a b m => execVscale un d a b m s
  | .vqnt un d a b m => execVqnt un d a b m s
  | .vunpk un d a b => execVunpk un d a b s
  | .vmaskAnd un k a b => execVmaskAnd un k a b s
  | .vmaskOr un k a b => execVmaskOr un k a b s
  | .vmaskXor un k a b => execVmaskXor un k a b s
  | .vmaskAndn un k a b => execVmaskAndn un k a b s
  | .vmaskNot un k a => execVmaskNot un k a s
  | .vmaskNz un k a => execVmaskNz un k a s
  | .vmaskCnt un k a => execVmaskCnt un k a s
  | .vchk un a b m => execVchk un a b m s
  | .vperm d a b m => execVperm d a b m s
  | .vrot d a b m => execVrot d a b m s
  | .vrsum d a t m => execVrsum d a t m s
  | .vrmax d a t m => execVrmax d a t m s
  | .vscan d a t m => execVscan d a t m s
  | .vexp2 d a m => execVexp2 d a m s
  | .vlog2 d a m => execVlog2 d a m s
  | .vrcp d a m => execVrcp d a m s
  | .vrsq d a m => execVrsq d a m s
  | .nopMx => execNopMx s
  | .msetp p a => execMsetp p a s
  | .msetpi p i => execMsetpi p i s
  | .mcall h x t r => execMcall h x t r s
  | .mzero t => execMzero t s
  | .mdrain t d a b z n m x => execMdrain t d a b z n m x s
  | .mseal t => execMseal t s
  | .mstat d => execMstat d s
  | .mlduc a b => execMlduc a b s
  | .mlducEnt a b => execMlducEnt a b s
  | .maccrd t d a => execMaccrd t d a s
  | .maccrdRow t a b => execMaccrdRow t a b s
  | .maccwr t a b => execMaccwr t a b s
  | .maccwrRow t a b => execMaccwrRow t a b s
  | .mwait d c => execMwait d c s
  | .mAload p q => execMAload p q s
  | .mBload p q => execMBload p q s
  | .mStep acc tr => execMStep acc tr s
  | .mLoop l n => execMLoop l n s
  | .mEndloop l => execMEndloop l s
  | .mAddp p q src imm => execMAddp p q src imm s
  | .mSetp p q src imm => execMSetp p q src imm s
  | .mJcmp p q cc f tgt => execMJcmp p q cc f tgt s
  | .mZero tr => execMZero tr s
  | .mDrain p g t z nw mode sl => execMDrain p g t z nw mode sl s
  | .mSeal => execMSeal s
  | .mShape p q g => execMShape p q g s
  | .mFmt fa fb => execMFmt fa fb s
  | .mPermit n => execMPermit n s
  | .mEnd => execMEnd s
  | .nopCopy q => execNopCopy q s
  | .cpy q t a b c => execCpy q t a b c s
  | .cpy2 q t a b c => execCpy2 q t a b c s
  | .cpyb q t a b i => execCpyb q t a b i s
  | .acc q t a b c u o => execAcc q t a b c u o s
  | .cas q t a b c u z => execCas q t a b c u z s
  | .faa q t a b u z => execFaa q t a b u z s
  | .xchg q t a b u z => execXchg q t a b u z s
  | .fput q t a b u => execFput q t a b u s
  | .subs q t a d x => execSubs q t a d x s
  | .unsub q t x => execUnsub q t x s
  | .slotrel q t x => execSlotrel q t x s
  | .publ q t a b x => execPubl q t a b x s
  | .cfence q t c => execCfence q t c s
  | .cpys q t a c l => execCpys q t a c l s
  | .coll q t a b c o k => execColl q t a b c o k s
  | .nopSys => execNopSys s
  | .spawn d a => execSpawn d a s
  | .spawnl d a b => execSpawnl d a b s
  | .join d => execJoin d s
  | .merge => execMerge s
  | .yield => execYield s
  | .tinfo d i => execTinfo d i s
  | .viewa d a => execViewa d a s
  | .fget d a => execFget d a s
  | .fwaitSpin d a b => execFwaitSpin d a b s
  | .fwaitYield d a b => execFwaitYield d a b s
  | .runinl d a => execRuninl d a s
  | .gjoin d a => execGjoin d a s
  | .gleave a => execGleave a s
  | .arrive d a => execArrive d a s
  | .arriveDrop d a => execArriveDrop d a s
  | .bwait d a b => execBwait d a b s
  | .sstep d a => execSstep d a s
  | .tcexp a x => execTcexp a x s
  | .tcwait d x => execTcwait d x s
  | .lease d a b => execLease d a b s
  | .leaserel d => execLeaserel d s
  | .permit d a => execPermit d a s
  | .segs m n => execSegs m n s
  | .trap n => execTrap n s
  | .trapDup n => execTrapDup n s
  | .utret => execUtret s
  | .vdist d a b => execVdist d a b s
  | .vdmap d a => execVdmap d a s
  | .powerOnReset | .deviceReset | .functionLevelReset | .timeBaseTick | .timeBaseStop | .firmwareInit
  | .bundleFetch | .shadowCheckVerdict | .vchkVerdict | .deferredFault | .loadDataArrival | .requestTimeout
  | .dirtyLineEviction | .pageWalk | .tlbInvalidateAck | .replicaResync | .pierEntryLeave | .implicitSeal
  | .drainRowLeave | .sealVerdict | .keystoneVerdict | .mwaitFill | .tokenGrant | .refillEpoch | .leaseExpiry
  | .wearMeasurement | .portPrefetch | .segmentWake | .copyComplete | .copyResume | .atomicApply | .atomicBusyRetry
  | .atomicResend | .subscriptionAccept | .loaderPush | .storerPull | .cpysReceive | .publSwap | .peerRequest
  | .collComplete | .collTimeout | .gangCycle | .tcwaitPhaseComplete | .fgetResponse | .fwaitTimeout
  | .rootAdmission | .taskAdmission | .depcntDecrement | .taskPick | .tickSlip | .joinSuspendTimeout | .combine
  | .resourceResolution | .pageFaultResolution | .hangWatchdog | .saveDeadline | .schedulerTakeover
  | .takeoverComplete | .spawnWindowWrite | .consumedWrite | .apertureWrite | .apertureRead | .registerWrite
  | .fwload | .ctxcreate | .ctxdestroy | .streamcreate | .tupd | .ctxparam | .preempt | .restore | .streamabort
  | .capture | .resync | .pagefail | .storeAcknowledgement => .next s

/-- The state after an instruction; no meaning of a slot stops the machine. -/
def State.run (i : Instr) (s : State) : State :=
  match runInstr i s with
  | .next t => t
  | _ => s

/-- Which task a core runs, if any. -/
def Core.who (c : Core) : Bool × Nat × Word := (c.busy, c.a.ctx, c.a.key)

/-! ### Timers -/

/-- One cycle of the counters that run on, frozen or not: the Keystone's test, from the cycle after the verdict that begins it, frozen and
entry cycles, port prefetch; no row is on fl but one that an event has brought for this cycle (spec/07 R145, R150, spec/10 R209,
spec/15 R310). -/
def Core.countdown (c : Core) : Core :=
  { c with arbit := if c.newArbit then c.arbit else c.arbit.map (fun x => (x.1, x.2 - 1)), newArbit := false, stall := c.stall - 1, entry := c.entry - 1,
           fl := if c.rowDone then c.fl else none, a := { c.a with ports := c.a.ports.map PortState.cycle } }

/-- One cycle of the checkers: a check whose cycles have passed has its verdict (spec/08 R178).
A narrow-shadow check passes here; the event SHADOW_CHECK_VERDICT brings one that fails. -/
def State.checkCycle (s : State) : State :=
  (s.verdicts []).modA (fun a => { a with checks := a.checks.map (fun (k : Check) => { k with left := k.left - 1 }) })

/-- The routine, shape and operand descriptors of the step before which the engine stands, if it stands before one
(spec/09 R185, R189). -/
def State.nextStep (s : State) : Option (Routine × Shape × (Word × Word) × (Word × Word)) :=
  match s.core.microReady with
  | none => none
  | some r =>
    match r.lib, r.shape with
    | some l, some sh => if l.done < sh.k / sh.kg then some (r, sh, (r.wp[0], r.wp[1]), (r.wp[2], r.wp[3])) else none
    | none, some sh =>
      match decodeMicro (s.core.microWord r.upc), r.a, r.b with
      | .ok (.mStep _ _), some da, some db => some (r, sh, da, db)
      | _, _, _ => none
    | _, none => none

/-- The base of the first operand in device memory that the coming step reads. -/
def State.stepReads (s : State) : Option Word :=
  s.nextStep.bind (fun (r, sh, da, db) =>
    if s.readsDevice db sh.n sh.kg then some db.1 else if s.readsDevice da sh.m sh.kg then some da.1 else none)

/-- The engine's next micro-word carried out: a library routine's step, or the word decoded; a word that is no micro-operation, or past
the store, is ILLEGAL_OP (spec/09 R183, R189, R191). -/
def State.microGo (r : Routine) (s : State) : State :=
  match r.lib with
  | some l => s.libStep l
  | none =>
    if 4095 < r.upc then s.microIllegal
    else match decodeMicro (s.core.microWord r.upc) with
      | .ok i => s.run i
      | .error _ => s.microIllegal

/-- Whether the operand read of a step waits: for the acquires and fences before it, for a request slot of the matrix pipes, or for a
walker (spec/05 R104, R121, spec/09 R187). -/
def State.operandWaits (s : State) (va : Word) : Bool :=
  !s.core.operandAllowed || (s.core.mxAt.isNone && !s.core.engineRoom) || s.walkWaits s.core.tlbMx s.core.id s.core.a va.toNat

/-- The operand read of a step leaves the die, and takes its place among the core's accesses (spec/05 R122, spec/06 R133). -/
def State.sendOperand (s : State) : State :=
  if s.core.mxAt.isSome then s
  else
    let (id, s) := s.newId
    s.modCore (fun c => { c with mxAt := some (s.frame.toNat, id) })

/-- The engine's next micro-word, when it stands before one (spec/09 R183, R189).
With `late` no operand read in device memory is answered in this cycle: the step waits, and times out as any request
(spec/05 R122). -/
def State.microStep (late : Bool) (s : State) : State :=
  match s.core.microReady with
  | none => s
  | some r =>
    let clear (s : State) : State := s.modCore (fun c => { c with mxAt := none })
    match s.stepReads, s.overdue (s.core.mxAt.map Prod.fst), late with
    | some va, true, _ => (clear s).engFault .timeout va
    | some va, false, true => if s.operandWaits va then s else s.sendOperand
    | some va, false, false => if s.operandWaits va then s else clear (s.microGo r)
    | none, _, _ => clear (s.microGo r)

/-! ### Fetch (spec/02 R33) -/

/-- The 32 bytes at the bundle address, as slot words, or the fault.
With `from_` 0 the instruction cache may serve, with 1 the die's read cache, as for a plain RC read; else the line comes from home
(spec/01 R25; log 76). -/
def State.fetch (from_ : Nat) (s : State) : Except Cause State :=
  let pc := s.core.a.pc.toNat
  let d := dieOf s.core.id
  match windowOf pc with
  | .user | .host =>
    match s.translateVia s.core.tlb1 d s.core.a.ctx pc .exec false with
    | .error c => .error c
    | .ok (pa, e) =>
      let near := if from_ = 0 then s.core.icache.find? (fun l => l.pa = pa / 64) else none
      let ((g, t), s) := match near with
        | some l => ((l.data, l.tag), s)
        | none => let (gs, s) := s.readLocs (from_ ≤ 1) [.phys pa e]
                  (gs.headD (0, 0), s)
      if isPoison t then .error .poison
      else
        let line : CacheLine := ⟨pa / 64, g, t, false⟩
        .ok (s.modCore (fun c =>
          { c with
            icache := (line :: c.icache.filter (fun l => l.pa ≠ pa / 64)).take Config.icacheLines, fetchAt := none,
            a := { c.a with words := bundleWords (g.toNat / 2 ^ (8 * (pa % 64)) % 2 ^ 256) } }))
  | _ => .error .prot

/-- The instructions of the eight slots; none is a word that is no instruction of its slot (spec/02 R36). -/
def Arch.decoded (a : Arch) : List (Option Instr) :=
  (Slot.all.zip a.words).map (fun p => (decodeSlot p.1 p.2).toOption)

/-! ### Issue -/

/-- Whether a load fills a register of the s file, or of the v file. -/
def LoadDst.fills (vec : Bool) (r : Reg) : LoadDst → Bool
  | .scalar d _ _ | .tag d => !vec && d == r
  | .vec d => vec && d == r
  | .expand d a => if vec then d == r else a == r

/-- Whether something issued before access `id` is still in the pier, or in the drain that the engine runs. -/
def Core.pierBefore (c : Core) (id : Nat) : Bool :=
  c.pier.any (fun e => decide (e.place < id)) || (match c.a.eng with
    | .drain d => decide (d.id < id)
    | _ => false)

/-- Whether an access of the mem queue waits on the pier itself: a load for a store there that it follows, any access for an ordering point
or an SSTEP whose earlier accesses have not left (spec/02 R42, spec/05 R108, R117, spec/06 R128, spec/10 R207). -/
def State.onPier (s : State) (r : MemReq) : Bool :=
  let c := s.core
  (r.load.isSome && c.pier.any (fun e => s.entryBefore e r.id (s.partTouches r) r.lo r.n)) ||
  c.a.points.any (fun p => decide (p.id < r.id) && (p.mem || (p.full && p.rel.isSome)) && c.pierBefore p.id) ||
  c.a.gangOps.any (fun o => decide (o.id < r.id) && o.kind == .sstep && !o.sent && c.pierBefore o.id)

/-- Whether an access of the mem queue waits for an earlier one of it: the two are ordered, the earlier one is an acquire, or an ordering
point between them waits for it (spec/05 R117, spec/06 R128, R133, spec/12 R256). -/
def State.follows (s : State) (x r : MemReq) : Bool :=
  decide (x.id < r.id) && (x.acq.isSome ||
    anyTouch (fun y z => y.ordered z) (s.partTouches x) (s.partTouches r) ||
    s.core.a.together (rangesMeet x.lo x.n) (rangesMeet r.lo r.n) ||
    s.core.a.points.any (fun p => decide (x.id < p.id ∧ p.id < r.id) && (p.mem || (p.full && p.rel.isSome) ||
      (p.acq.isSome && x.load.isSome))))

/-- The accesses of the mem queue that wait on the pier, by themselves or behind others that do (spec/02 R42). -/
def State.stuck (s : State) : List MemReq :=
  (s.core.a.memq.foldr insertAccess []).foldl (fun l r =>
    if s.onPier r || l.any (fun x => s.follows x r) then l ++ [r] else l) []

/-- Whether the fill of a register waits on the engine or on the pier: an MWAIT's destination, a copy token, a gang operation that is a
release, a TCWAIT that waits for the core's own copies, or a load (spec/02 R42, spec/10 R207). -/
def State.slow (s : State) (vec : Bool) (r : Reg) : Bool :=
  let c := s.core
  let mine (k : CopyCmd) : Bool := k.ctx == c.a.ctx && k.tcb == c.a.key
  (!vec && (c.a.mwaits.any (fun w => w.d == r) || (c.ca ++ c.cb).any (fun k => mine k && k.tok == r) ||
    c.a.gangOps.any (fun o => o.dst == r && !o.sent && c.pierBefore o.id) ||
    c.a.tcwaits.any (fun w => w.2 == r && (c.ca ++ c.cb).any (fun k => !k.out && (match k.kind with
      | .block _ _ _ _ _ _ (some sb) => sb == w.1
      | _ => false))))) ||
  s.stuck.any (fun m => (m.load.map (LoadDst.fills vec r)).getD false)

/-- Whether a bundle is frozen by a cause in which the row schedule goes on (spec/02 R42). -/
def State.rowsGoOn (s : State) (is : List Instr) : Bool :=
  let c := s.core
  is.any (fun i =>
    let u := uses i
    (u.engine && !c.engReady) || u.src.any (fun r => c.blockedS r && s.slow false r) ||
    u.vsrc.any (fun v => match v with
      | .v r e => !e && c.a.vIsEmpty r && s.slow true r
      | _ => false))

/-- The flights of a result of which some landings are pushes to segments from `n` on: those by themselves, which land while a SEGS that
gates the segments waits (spec/07 R154). -/
def Flight.splitPush (n : Nat) (f : Flight) : List Flight :=
  let gated (l : Landing) : Bool := match l with
    | .vrf i _ => decide (n ≤ i / 256)
    | _ => false
  if f.lands.any gated && f.lands.any (fun l => !gated l) then
    [{ f with lands := f.lands.filter (fun l => !gated l) }, { f with lands := f.lands.filter gated }]
  else [f]

/-- One cycle in which a SEGS waits: the pushes to the segments that it gates come nearer and land (spec/07 R154). -/
def Core.gateCycle (n : Nat) (c : Core) : Core :=
  let push (f : Flight) : Bool := f.lands.all (fun l => match l with
    | .vrf i _ => decide (n ≤ i / 256)
    | _ => false)
  let fs := (c.a.flights.flatMap (Flight.splitPush n)).map (fun f => if push f then { f with left := f.left - 1 } else f)
  let due := fs.filter (fun f => push f && f.left = 0)
  ({ c with a := { c.a with flights := fs.filter (fun f => !(push f && f.left = 0)) } }).landAll (due.flatMap (fun (f : Flight) => f.lands))

/-- The segments that a SEGS of the bundle gates, from the number it names on. -/
def gatesOf (is : List Instr) : Option Nat := is.findSome? (fun i => (uses i).gates)

/-- Whether a drain still occupies the engine that an instruction of the bundle needs. -/
def Core.drainInWay (c : Core) (is : List Instr) : Bool :=
  is.any (fun i => (uses i).engine) && (match c.a.eng with
    | .drain _ => true
    | _ => false)

/-- Slots issue from left to right until one faults (spec/02 R40). -/
def State.issueSlots (who : Bool × Nat × Word) : List Instr → State → State
  | [], s => s
  | i :: rest, s => if s.core.iss.trapped || s.core.who != who then s else (s.run i).issueSlots who rest

/-- The bundle's slots have issued: a fault has ended it, its slot 7 holds the core, or it ends (spec/02 R40, spec/12 R261 to
R265).
A re-entry at slot 7 that only begins to hold the core has committed no slot (spec/15 R319). -/
def State.issued (who : Bool × Nat × Word) (s : State) : State :=
  if s.core.iss.trapped || s.core.who != who then s
  else match s.core.a.block with
    | none => s.endBundle
    | some _ =>
      (s.modCore (fun c =>
        let d := c.closeIssue false
        { d with a := { d.a with words := c.a.words }, watch := if c.a.reentry = some 7 then c.watch else 0 })).blockCycle

/-- Issue the slots of `live`; `stop` is the slot whose fault ends the bundle before it is looked at by itself, with the fault
(spec/02 R36, R37, R40, R41). -/
def State.issueBundle (live : List Instr) (stop : Option (Nat × Cause × Word)) (s : State) : State :=
  let who := s.core.who
  let s := (s.modCore Core.openIssue).issueSlots who live
  (match stop with
   | some (j, c, x) => if s.core.iss.trapped || s.core.who != who then s else s.fault j c x
   | none => s).issued who

/-- A correction of a single-bit error (spec/05 R123, spec/15 R315, R317): `kind` 0 and 1 are reads by the issuing bundle, which
freezes for 3 cycles, of which this is the first, 2 and 3 reads by another unit; odd ones are of the scratchpad, the pier or the microprogram store.
Kind 4 is a line of the die's read cache, which is dropped. -/
def Core.corrected (kind : Nat) (c : Core) : Core :=
  let e := c.err
  match kind with
  | 0 => { c with err := { e with crg := e.crg + 1 }, stall := c.stall + 2 }
  | 1 => { c with err := { e with csp := e.csp + 1 }, stall := c.stall + 2 }
  | 2 => { c with err := { e with crg := e.crg + 1 } }
  | 3 => { c with err := { e with csp := e.csp + 1 } }
  | _ => { c with err := { e with rcd := e.rcd + 1 } }

/-- The instructions of slots k to top - 1. -/
def liveSlots (k top : Nat) (is : List (Option Instr)) : List Instr :=
  (((List.range 8).zip is).filter (fun p => k ≤ p.1 && p.1 < top)).filterMap Prod.snd

/-- The fetched bundle as it stands before the core: the slot at which it begins, the slot that ends it with ILLEGAL_OP by the rules that
look at the whole bundle, and the instructions between. -/
def Arch.toIssue (a : Arch) : Nat × Option Nat × List Instr :=
  let k := a.reentry.getD 0
  let is := a.decoded
  let bad := (illegalSlot is).filter (fun j => k ≤ j)
  (k, bad, liveSlots k (bad.getD 8) is)

/-- Whether a bundle reads a scratchpad bank or a VRF segment for which another requester can be granted the cycle (spec/05 R119,
spec/07 R145). -/
def banked (is : List Instr) : Bool :=
  is.any (fun i => (uses i).vsrc.any (fun v => match v with
      | .g _ => true
      | _ => false) || (match i with
    | .ld _ _ _ _ _ | .lds _ _ _ _ _ | .ldv _ _ _ _ | .ldx _ _ _ _ | .ldt _ _ _ _ | .ldg _ _ _ _ => true
    | _ => false))

/-- What the environment finds wrong with the bundle that is about to issue: an uncorrectable error of a core store that slot `idx`
reads, with `value` its TVAL; the slots before it commit (spec/02 R40, spec/05 R123, spec/15 R316). -/
def State.issueWith (i : Input) (k : Nat) (bad : Option Nat) (live : List Instr) (s : State) : State :=
  let illegal := bad.map (fun j => (j, Cause.illegalOp, word (s.core.a.words.getD j 0)))
  if i.flag2 && i.first = 0 && decide (k ≤ i.idx ∧ i.idx < bad.getD 8) then
    s.issueBundle (liveSlots k i.idx s.core.a.decoded) (some (i.idx, .hwUncorr, i.value))
  else s.issueBundle live illegal

/-- The fetched bundle freezes, or issues (spec/02 R40 to R42, spec/05 R119, R120, spec/10 R208, spec/15 R315, R316).
`len` is for how many cycles a bank or segment granted to another requester keeps it (log 13). -/
def State.tryIssue (i : Input) (s : State) : State :=
  let (k, bad, live) := s.core.a.toIssue
  if s.core.pierFull live then
    let s := s.rowCycle
    if s.core.a.pendingTiles.isEmpty then s.implicitSeal true false else s
  else if live.any s.frozenBy then
    let s := if s.rowsGoOn live then s.rowCycle else s
    match gatesOf live with
    | some n => s.modCore (Core.gateCycle n)
    | none => s
  else if i.flag && decide (i.first < 2) then s.modCore (Core.corrected i.first)
  else if i.len ≠ 0 && banked live then s.modCore (fun c => { c with stall := c.stall + (i.len - 1) })
  else
    let s := s.rowCycle
    if s.core.drainInWay live then s else s.issueWith i k bad live

/-- A fault of the fetch: of slot 0, whatever slot a re-entry begins at, since it reads the words of a bundle of which no slot has issued
(spec/02 R33; log 50). -/
def State.fetchFault (c : Cause) (x : Word) (s : State) : State :=
  let s := s.rowCycle
  (s.modCore Core.openIssue).trap 0 c x false s.core.a.pc

/-- Fetch, if the bundle is not yet there, and issue.
With `count` 2 the fetch is under way and nothing answers it in this cycle, in which nothing is frozen; it times out as any request
(spec/02 R42, spec/05 R122), and one that waits for a walker is not sent (spec/05 R104).
With `flag2` and `first` 5 the stack read of the fetch is uncorrectable (spec/05 R123).
A poisoned granule is named by its address (spec/15 R307). -/
def State.fetchIssue (i : Input) (s : State) : State :=
  if !s.core.a.words.isEmpty then s.tryIssue i
  else
    let pc := s.core.a.pc
    if s.overdue s.core.fetchAt then
      (s.rowCycle.modCore (fun c => { c with fetchAt := none })).defer .timeout pc
    else if s.walkWaits s.core.tlb1 s.core.id { s.core.a with views := [] } pc.toNat then s.rowCycle
    else if i.count = 2 then s.rowCycle.modCore (fun c => { c with fetchAt := some (c.fetchAt.getD s.frame.toNat) })
    else match s.fetch i.count with
      | .error c => s.fetchFault c (if c = .poison then word (pc.toNat / 64 * 64) else pc)
      | .ok t =>
        if i.flag2 && i.first = 5 then
          match s.translateVia s.core.tlb1 (dieOf s.core.id) s.core.a.ctx pc.toNat .exec false with
          | .ok (pa, _) => if pa < 2 ^ 51 then (s.poisonStack (pa / 64 * 64)).fetchFault .hwUncorr pc else t.tryIssue i
          | .error _ => t.tryIssue i
        else t.tryIssue i

/-- The bundle that waits to issue, as far as the core can see it without its issue: fetched already, or where the instruction cache or
memory has it. -/
def State.waiting (s : State) : List Instr :=
  if !s.core.a.words.isEmpty then s.core.a.toIssue.2.2
  else match s.fetch 0 with
    | .ok t => t.core.a.toIssue.2.2
    | .error _ => []

/-- Whether one of the causes that let the row schedule go on holds the core: a JOIN, or a MERGE, suspension, spill or pre-emption, or
the bundle that waits to issue (spec/02 R42). -/
def State.rowsGo (s : State) : Bool :=
  match s.core.a.block with
  | some (.join _ _ _) | some .mergeSeals | some (.suspend _) | some (.inline _ _ _ _ _) => true
  | some _ => false
  | none => s.preempting || (s.core.entry = 0 && (s.core.pierFull s.waiting || s.rowsGoOn s.waiting))

/-- Whether the Keystone's test or counted cycles freeze the core in its coming cycle (spec/02 R42, spec/10 R209). -/
def Core.frozen (c : Core) : Bool := (c.arbit.isSome && !c.newArbit) || decide (0 < c.stall)

/-- Whether the row schedule runs in the core's coming cycle: nothing freezes the core, or one of the causes that let rows go does
(spec/02 R42). -/
def State.rowsRun (s : State) : Bool :=
  s.rowsGo || (!s.core.frozen && (match s.core.a.block with
    | some (.fget _ _) | some (.fwait _ _ _ _ _) => false
    | some _ => true
    | none => decide (0 < s.core.entry) || !s.waiting.any s.frozenBy))

/-- DRAIN_ROW_LEAVE on core `core`: the row that the coming cycle's row schedule moves leaves the array (spec/09 R194).
The engine goes on to the next row in that cycle, and the row stays on fl for the bundle that issues in it.
`pairs` are differences by column that a physical fault has left in the elements of one path, of the P-path with `flag`, else of the
Q-path (spec/10 R203, R204). -/
def execDrainRowLeave (s : State) : Out :=
  let i := s.input
  let s := s.focus i.core
  .next (match s.core.rowReady with
    | some d =>
      if s.core.busy && !s.core.rowDone && s.rowsRun then
        ((s.onTile d.tile (TileState.faultRow i.flag (d.row0 + d.next) i.pairs)).rowOut d).modCore (fun c => { c with rowDone := true })
      else s
    | none => s)

/-- The trap that comes before a bundle issues, in the order of R309: a hardware error found after issue, LEASE_EXPIRED, any other fault
found after issue (spec/05 R109, spec/14 R301, spec/15 R309). -/
def State.raised (s : State) : Option State :=
  let a := s.core.a
  if a.deferred.any (fun d => d.cause.cls = 3) then some s.raiseDeferred
  else match (if a.ut then none else a.lx) with
    | some why =>
      some (s.leaseTrap (a.reentry.getD 0) why)
    | none => if a.deferred.isEmpty then none else some s.raiseDeferred

/-- The core stands before a bundle: what is due for it lands, and then what comes before its issue (spec/02 R43, spec/15 R309). -/
def State.atBundle (s : State) : State := (s.modCore Core.reach).modA Arch.dropLease

/-- The core stands before a bundle: what comes before its issue, and the issue (spec/14 R301, spec/15 R309, R310). -/
def State.issueCycle (i : Input) (s : State) : State :=
  let s := s.atBundle
  if s.raised.isNone then s.fetchIssue i else s.rowCycle.raised.getD s

/-- Whether nothing keeps the acting core from its next bundle: no freeze, no trap entry, no verdict, no pre-emption, and no slot 7 that
holds it. -/
def State.atIssue (s : State) : Bool :=
  s.core.busy && s.core.a.block.isNone && !s.core.frozen && s.core.entry = 0 && s.core.sealErr.isNone && !s.preempting && !s.hung

/-- DEFERRED_FAULT on core `core`: a fault found after issue is raised before the bundle that comes next; LEASE_EXPIRED goes before one
that is no hardware error (spec/05 R109, spec/15 R309; log 54). -/
def execDeferredFault (s : State) : Out :=
  let s := s.focus s.input.core
  .next (if s.atIssue && !s.core.a.deferred.isEmpty then
      let t := s.atBundle
      t.raised.getD t
    else s)

/-- One cycle in which slot 7 of the last bundle, or a suspension, holds the core; FGET and FWAIT freeze the row schedule too
(spec/02 R42). -/
def State.blockedCycle (s : State) : State :=
  let s := match s.core.a.block with
    | some (.fget _ _) | some (.fwait _ _ _ _ _) => s
    | _ => s.rowCycle
  s.blockCycle

/-- The part of a cycle that goes on though the core is frozen: counters, engine, seals, checkers, microprogram, MWAITs, implicit
seals and the requests that leave the die (spec/02 R42, spec/05 R122, spec/09 R181, spec/10 R208). -/
def State.engineCycle (late : Bool) (s : State) : State :=
  let who := s.core.who
  let s := (s.modCore Core.countdown).engCycle.sealCycle.checkCycle
  if s.core.who != who then s
  else
    let s := match s.core.a.eng with
      | .sealNext t spc => (s.modA (fun a => { a with eng := .idle })).callSeal t spc
      | _ => if s.routineStopped then s else s.microStep late
    ((s.fillMwaits.implicitSeal s.sealsAll s.routineStopped).sendLoads).sendStores

/-- An uncorrectable read of the granule at a VA that the coming step of the engine's routine reads, in a stack or in the scratchpad:
HW_UNCORR, deferred (spec/05 R123, spec/09 R181, spec/15 R316). -/
def State.operandUncorr (va : Word) (s : State) : State :=
  match s.nextStep with
  | some (r, sh, da, db) =>
    if (s.readOperand db sh.n sh.kg r.fb).holds db va.toNat || (s.readOperand da sh.m sh.kg r.fa).holds da va.toNat then
      match s.locate s.core.id s.core.a true .read false va.toNat with
      | .ok (.phys pa _) => (s.poisonStack (pa / 64 * 64)).engFault .hwUncorr va
      | .ok (.spad _ _) => s.engFault .hwUncorr va
      | .error _ => s
    else s
  | none => s

/-- An uncorrectable word of a store of the core that the engine reads in its coming cycle, an accumulator, a parameter register or the
microprogram store: HW_UNCORR, deferred, with the word's place (spec/09 R181, spec/15 R315, R316). -/
def State.engineUncorr (place : Word) (s : State) : State :=
  if s.core.a.engBusy then s.engFault .hwUncorr place else s

/-- One cycle of the acting core after its engine's part (spec/02 R42, spec/10 R209, R210, spec/15 R310, R320). -/
def State.frontCycle (i : Input) (frozen entering : Bool) (s : State) : State :=
  if frozen then (if s.rowsGo then s.rowCycle else s)
  else match s.core.sealErr with
    | some (code, spc) => s.trap (s.core.a.reentry.getD 0) .sealFail (word code) false spc
    | none =>
      if s.preempting || entering then s.rowCycle
      else if s.core.a.block.isSome then s.blockedCycle
      else s.issueCycle i

/-- The row that left in a cycle is seen from the next cycle on, unless it belongs to that one (spec/09 R194, R197). -/
def Core.endCycle (c : Core) : Core := { c with newRow := if c.rowDone then c.newRow else none }

/-- An uncorrectable error of the scratchpad word at an offset of a core that runs no task: the die's error log has a record and the word
is zero with valid check bits (spec/15 R316). -/
def State.idleUncorr (off : Nat) (s : State) : State :=
  let a := off % Config.spadBytes / 8 * 8
  (s.coreUncorr 0).modCore (fun c => { c with spad := cellSets 0 c.spad (cellsOf a 8 0) })

/-- One cycle of the acting core, if it runs a task: its hang interval ends, an arbitration or a freeze holds it, a verdict ends its task, a pre-emption or
a trap entry keeps it from issuing, slot 7 holds it, or a bundle issues (spec/02 R42, spec/10 R209, R210, spec/15 R310, R320). -/
def State.coreCycle (i : Input) (s : State) : State :=
  if !s.core.busy then (if i.flag2 && i.first = 0 then s.idleUncorr i.off else s)
  else if s.hung then s.raiseHang
  else
    let who := s.core.who
    let s := s.modA (fun a => { a with tcfresh := [] })
    let frozen := s.core.frozen
    let entering := decide (0 < s.core.entry)
    let s := if !i.flag2 then s else if i.first = 6 then s.operandUncorr i.va else if i.first = 7 then s.engineUncorr i.value else s
    let s := s.engineCycle (bitOf i.mask 0)
    let s := if s.core.who != who then s else s.frontCycle i frozen entering
    s.barrierCycle.modCore Core.endCycle

/-- BUNDLE_FETCH: one cycle of core `core`.
`flag`: a single-bit error is corrected, of the kind that `first` names, at `off` for a cache line; `flag2`: an uncorrectable error, of a
core store that slot `idx` reads and that reports `value` (`first` 0; with no task, of the scratchpad word at `off`), of the fetch's stack read (5), of a read by the engine at
`va` (6), or of a core store that the engine reads and that is at `value` (7).
`count` 1: the bundle comes from the die's read cache or home though the instruction cache has it, 2: no fetch is answered in this cycle,
3 and above: it comes from home; bit 0 of `mask`: no operand read of the engine is; `len`: cycles for which a bank or segment is granted to another requester (spec/02 R33, R42,
spec/05 R119, R122, R123, spec/15 R315, R316). -/
def execBundleFetch (s : State) : Out :=
  let i := s.input
  let s := s.focus i.core
  .next (if i.flag && decide (2 ≤ i.first) then
      (if i.first = 4 then s.cacheDrop (dieOf s.core.id) i.off else s).modCore (Core.corrected i.first)
    else s.coreCycle i)

/-- REQUEST_TIMEOUT on core `core` (spec/05 R122): `first` selects the mem queue's loads (0), the stores (1), the commands of `queue` (2),
the fetch or the read of a future's cell (3), or an operand read of the engine (4); `flag` says that an expired store had been performed at home. -/
def execRequestTimeout (s : State) : Out :=
  let i := s.input
  let s := s.focus i.core
  .next (match i.first with
    | 0 => s.expireLoad i.idx
    | 1 => s.expireStore i.idx i.flag
    | 2 => s.expireCmd i.queue i.idx
    | 3 => if s.overdue s.core.fetchAt then (s.modCore (fun c => { c with fetchAt := none })).defer .timeout s.core.a.asked else s
    | _ =>
      match s.stepReads with
      | some va =>
        if s.overdue (s.core.mxAt.map Prod.fst) then (s.modCore (fun c => { c with mxAt := none })).engFault .timeout va else s
      | none => s)

end Sys2Proof.Machine
end

