-- ==== Sys2Proof/Machine/Agenda.lean ====
section
/-!
DEFINITION. What happens next: the agenda's first event with what its environment brings, or, when the agenda is empty, an event
that the rotation picks among those that may occur (log 3).
-/
set_option linter.unusedVariables false

namespace Sys2Proof.Machine

/-- Whether a constructor is an event of the device or its host, and no instruction of a slot (log 4). -/
def isEvent (i : Instr) : Bool := i.place == .none

/-! ### Events that may occur -/

/-- The events of a copy command. -/
def cmdEvents (core : Nat) (q : CopyQ) (idx : Nat) (k : CopyCmd) : List (Instr × Input) :=
  let i : Input := { core := core, queue := q, idx := idx }
  if k.paused.isSome then [(.copyResume, i)]
  else if !k.out then []
  else if k.busy.isSome then [(.atomicBusyRetry, i)]
  else if k.applied.isSome then [(.atomicResend, i)]
  else match k.kind with
    | .block _ _ _ _ _ _ _ | .cfence _ | .unsub _ | .slotrel _ => [(.copyComplete, i)]
    | .acc _ _ _ _ | .cas _ _ _ _ | .faa _ _ _ | .xchg _ _ _ | .fput _ _ => [(.atomicApply, i)]
    | .subs _ _ => [(.subscriptionAccept, i)]
    | .publ _ _ _ => [(.publSwap, i)]
    | .cpys _ _ _ _ _ _ _ _ _ _ _ => [(.cpysReceive, i)]
    | .coll _ _ _ _ _ _ _ => [(.collTimeout, i)]

/-- The events of one core. -/
def State.coreEvents (s : State) (n : Nat) : List (Instr × Input) :=
  let c := s.getCore n
  let i : Input := { core := n }
  (if c.busy then [(.bundleFetch, i)] else [(.taskPick, i)]) ++
  (if c.pier.isEmpty then [] else [(.pierEntryLeave, i)]) ++
  (numbered c.outq).map (fun x => (.storeAcknowledgement, { i with idx := x.1 })) ++
  ((numbered c.a.memq).filter (fun x => x.2.load.isSome)).map (fun x => (.loadDataArrival, { i with idx := x.1 })) ++
  (numbered c.ca).flatMap (fun x => cmdEvents n .ca x.1 x.2) ++ (numbered c.cb).flatMap (fun x => cmdEvents n .cb x.1 x.2) ++
  (numbered c.subs).map (fun x =>
    (if x.2.paused.isSome then .copyResume else if x.2.dir = .inp then .loaderPush else .storerPull,
     { i with idx := x.1, flag2 := true })) ++
  (if c.rels.isEmpty then [] else [(.taskAdmission, i)]) ++
  (match c.a.block with
   | some (.fget _ _) => [(.fgetResponse, i)]
   | some (.fwait _ _ _ _ _) => [(.fgetResponse, i), (.fwaitTimeout, i)]
   | some (.join _ _ _) => [(.joinSuspendTimeout, i)]
   | _ => []) ++
  (match c.arbit with
   | some (_, 0) => [(.keystoneVerdict, i)]
   | _ => []) ++
  (s.partsOn n).flatMap (fun a => a.tcwaits.map (fun w => (.tcwaitPhaseComplete, { i with sb := w.1 }))) ++
  (if c.busy then [(.hangWatchdog, i)] else [])

/-- The cycles of gangs that operations have still to reach, and of those whose phase is complete already (spec/13 R275). -/
def State.gangEvents (s : State) : List (Instr × Input) :=
  let ops := s.coreIds.flatMap (fun n => (s.partsOn n).flatMap (fun a =>
    (a.gangOps.filter (fun o => !o.sent)).map (fun o => (a.ctx, o.va, n, o.id))))
  (s.gangs.filter (fun g => g.a = g.n)).map (fun g => (.gangCycle, { ctx := g.ctx, va := g.va })) ++
  ((ops.map (fun o => (o.1, o.2.1))).eraseDups).map (fun g =>
    (.gangCycle, { ctx := g.1, va := g.2, pairs := (ops.filter (fun o => (o.1, o.2.1) = g)).map (fun o => o.2.2) }))

/-- The events of tasks that no core runs, and of epochs. -/
def taskEvents (t : Task) : List (Instr × Input) :=
  let i : Input := { ctx := t.ctx, va := t.tcb }
  (match t.wait with
   | some (.future _ _ _) => [(.fwaitTimeout, i)]
   | some (.page _) => [(.pageFaultResolution, i)]
   | _ => []) ++
  t.blocks.filterMap (fun b => if (t.pairAt b.lo).isSome then some (.combine, { i with first := b.lo }) else none)

/-- The events of a context. -/
def contextEvents (c : Context) : List (Instr × Input) :=
  (match c.preempt, c.image with
   | some _, some im => if im.commit then [] else [(.preempt, { ctx := c.num }), (.saveDeadline, { ctx := c.num })]
   | _, _ => []) ++
  c.stale.map (fun d => (.replicaResync, { ctx := c.num, die := d }))

/-- A pick by a core that nothing has touched since reset, when a task waits that it may run. -/
def State.freshPick (s : State) : List (Instr × Input) :=
  if s.tasks.any (fun t => t.st == .ready) then
    match (s.ctxs.flatMap (fun c => c.bind.flatMap Prod.snd)).find? (fun c => !s.coreIds.contains c && (s.pick c).isSome) with
    | some c => [(.taskPick, { core := c })]
    | none => []
  else []

/-- The events of the package. -/
def State.packageEvents (s : State) : List (Instr × Input) :=
  (List.finRange 32).filterMap (fun n => if (s.clusters[n]).reqs.isEmpty then none else some (.tokenGrant, { cluster := n })) ++
  (s.streams.filter (fun x => !x.roots.isEmpty && x.running.isNone)).map (fun x => (.rootAdmission, { stream := x.num })) ++
  (numbered s.decs).map (fun d => (.depcntDecrement, { idx := d.1 })) ++
  (List.range 8).flatMap (fun d => (s.die d).walks.map (fun w => (.pageWalk, { die := d, ctx := w.ctx, va := word w.va }))) ++
  s.updates.flatMap (fun u => u.waiting.map (fun d => (.tlbInvalidateAck, { die := d }))) ++
  (numbered s.resources).map (fun r => (.resourceResolution, { idx := r.1, flag := true })) ++
  (if s.takeSch then [(.takeoverComplete, { flag := false })] else []) ++ (if s.takeSup then [(.takeoverComplete, { flag := true })] else [])

/-- Every event that the model itself may pick: what hosts, peers and physical faults bring comes by the agenda alone. -/
def State.mayOccur (s : State) : List (Instr × Input) :=
  s.coreIds.flatMap s.coreEvents ++ s.gangEvents ++ s.tasks.flatMap taskEvents ++ s.ctxs.flatMap contextEvents ++
  s.freshPick ++ s.packageEvents

/-- An event that is due at this FRAME: a lease's expiry, a slip, an epoch boundary, whose power the model takes as 0
(spec/12 R252, spec/14 R289, R299; log 8). -/
def State.due (s : State) : Option (Instr × Input) :=
  let f := s.frame.toNat
  let expired (c : Cluster) : Bool := match c.lease with
    | some l => decide (l.expiry ≤ f)
    | none => false
  let late (t : Task) : Bool :=
    (t.st == .running || t.st == .suspended) && tcbTickv t.snap && !t.slipped && f == tcbTick t.snap + 100000
  match (List.finRange 32).find? (fun n => expired s.clusters[n]) with
  | some n => some (.leaseExpiry, { cluster := n })
  | none =>
    match s.tasks.find? late with
    | some t => some (.tickSlip, { ctx := t.ctx, va := t.tcb })
    | none => if f % 1000 = 0 && f / 1000 ≠ s.epoch then some (.refillEpoch, {}) else none

/-- The event that comes next when the agenda is empty: bring-up first; in even turns a cycle of the acting core; in every twentieth
turn a tick; else what is due, or one of the events that may occur, in rotation (log 3, log 8). -/
def State.nextEvent (s : State) : Instr × Input :=
  if s.boot = .rom then (.powerOnReset, {})
  else if s.boot = .running && !s.ready then (.firmwareInit, {})
  else if s.rot % 2 = 0 && s.core.busy then (.bundleFetch, { core := s.core.id })
  else if s.rot % 20 = 19 then (.timeBaseTick, {})
  else match s.due with
    | some e => e
    | none =>
      let es := s.mayOccur
      (es[s.rot / 2 % es.length]?).getD (.timeBaseTick, {})

/-- The next event with what its environment brings, and the agenda after it. -/
def State.takeEvent (s : State) : (Instr × Input) × List (Instr × Input) :=
  match s.agenda with
  | e :: rest => (e, rest)
  | [] => (s.nextEvent, [])

/-- Whether an event is a reset, which alone leaves the package-fault state (spec/00 R2, spec/01 R30, spec/16 R329). -/
def isReset : Instr → Bool
  | .powerOnReset | .deviceReset => true
  | _ => false

/-- Whether an event has its effect on a device: in the package-fault state a reset has, and the time base, whose domain is always on, goes
on; the spec gives the state no other effect than its BOOT value, and host software must reset the device (spec/00 R2, spec/01 R29, R30,
spec/16 R329, R336; log 63). -/
def State.heeds (s : State) (e : Instr) : Bool :=
  isEvent e && (s.boot ≠ .packageFault || isReset e || e == .timeBaseTick)

/-- The machine with the next event's data in its input latch. -/
def State.latched (s : State) : State :=
  { s with input := s.takeEvent.1.2, agenda := s.takeEvent.2, rot := s.rot + 1 }

/-! ### Placing an instruction (log 6) -/

/-- The context with which a placed instruction runs: number 0 of the PF, with one virtual die, that of the acting core, and one page at
VA 2^16 that holds the bundle at physical address 0 (log 6). -/
def placedContext (core : Nat) : Context :=
  { num := 0, owner := 0, bind := [(dieOf core, [core])],
    replicas := [(dieOf core, [(0, 0x20201#64), (0x20000, 0x30201#64), (0x30008, 0xF#64)])],
    stale := [], timeout := 2000, age := 100000, hang := 200000000, collDefault := 0,
    prog := ⟨0, 16, .retain, 65536, [], [], [], []⟩, save := (0, 0), viewPool := (0, 0), faultPool := (0, 0), peers := [],
    exportWin := (0, 0), events := Log.empty, preempt := none, image := none }

/-- The task that a placed instruction belongs to. -/
def placedTask : Task :=
  { ctx := 0, tcb := 0, launch := 0, snap := 0, st := .running, restarts := 0, r := false, parent := none, spidx := 0, nspawn := 0,
    npend := 0, declares := false, inherits := false, tiles := [], spawner := 0, blocks := [], excluded := [], readySince := 0,
    pinned := none, saved := none, wait := none, slipped := false, fixed := false }

/-- The launch of the placed task (log 6). -/
def placedLaunch : Launch := ⟨0, 0, 0, 1, 0, 0, 0, false⟩

/-- The task part that fetches a bundle at VA 2^16. -/
def placedArch : Arch := { Arch.zero with pc := 0x10000#64, level := 0, segs := Vector.replicate 16 .on }

/-- The machine running a task whose next bundle is the given one (log 6). -/
def State.withBundle (bundle : Nat) (s : State) : State :=
  { s with
    core := { (Core.fresh s.core.id) with busy := true, a := placedArch }, boot := .running, ready := true, agenda := [], rot := 0,
    ctxs := [placedContext s.core.id], tasks := [placedTask], launches := [placedLaunch], nlaunch := 1, updates := [],
    dies := s.dies.map (fun (d : Die) => { d with tlb := [], cache := [] }),
    mem := cellSets 0 [] (cellsOf 0 32 bundle), memTags := [] }

/-- The machine whose engine stands before the given micro-word (log 6). -/
def State.withMicro (w : Nat) (s : State) : State :=
  let s := s.withBundle 0
  let r := { Routine.start 32 0 1024 (Vector.replicate 8 0) false false 0 with shape := none }
  { s with core := { s.core with ustore := [(1024, word w)], a := { s.core.a with routine := some r } } }

end Sys2Proof.Machine
end

