-- ==== Sys2Proof/Machine/Dispatch.lean ====
section
/-!
DEFINITION. The meaning of every constructor of Instr, one arm each.
-/

namespace Sys2Proof.Machine

/-- The meaning of an instruction or event. -/
def exec (i : Instr) (s : State) : Host.Outcome State Fault Refusal :=
  match i with
  | .nopCtl => Sys2Proof.Machine.execNopCtl s
  | .add d a b w => Sys2Proof.Machine.execAdd d a b w s
  | .sub d a b w => Sys2Proof.Machine.execSub d a b w s
  | .and d a b w => Sys2Proof.Machine.execAnd d a b w s
  | .or d a b w => Sys2Proof.Machine.execOr d a b w s
  | .xor d a b w => Sys2Proof.Machine.execXor d a b w s
  | .andn d a b w => Sys2Proof.Machine.execAndn d a b w s
  | .sll d a b w => Sys2Proof.Machine.execSll d a b w s
  | .srl d a b w => Sys2Proof.Machine.execSrl d a b w s
  | .sra d a b w => Sys2Proof.Machine.execSra d a b w s
  | .rol d a b w => Sys2Proof.Machine.execRol d a b w s
  | .min d a b w => Sys2Proof.Machine.execMin d a b w s
  | .max d a b w => Sys2Proof.Machine.execMax d a b w s
  | .minu d a b w => Sys2Proof.Machine.execMinu d a b w s
  | .maxu d a b w => Sys2Proof.Machine.execMaxu d a b w s
  | .mul d a b w => Sys2Proof.Machine.execMul d a b w s
  | .mulh d a b w => Sys2Proof.Machine.execMulh d a b w s
  | .mulhu d a b w => Sys2Proof.Machine.execMulhu d a b w s
  | .div d a b w => Sys2Proof.Machine.execDiv d a b w s
  | .divu d a b w => Sys2Proof.Machine.execDivu d a b w s
  | .rem d a b w => Sys2Proof.Machine.execRem d a b w s
  | .remu d a b w => Sys2Proof.Machine.execRemu d a b w s
  | .clz d a w => Sys2Proof.Machine.execClz d a w s
  | .ctz d a w => Sys2Proof.Machine.execCtz d a w s
  | .popc d a w => Sys2Proof.Machine.execPopc d a w s
  | .addi d a im => Sys2Proof.Machine.execAddi d a im s
  | .andi d a im => Sys2Proof.Machine.execAndi d a im s
  | .ori d a im => Sys2Proof.Machine.execOri d a im s
  | .xori d a im => Sys2Proof.Machine.execXori d a im s
  | .slli d a w n => Sys2Proof.Machine.execSlli d a w n s
  | .srli d a w n => Sys2Proof.Machine.execSrli d a w n s
  | .srai d a w n => Sys2Proof.Machine.execSrai d a w n s
  | .roli d a w n => Sys2Proof.Machine.execRoli d a w n s
  | .movhi d a im => Sys2Proof.Machine.execMovhi d a im s
  | .addpc d im => Sys2Proof.Machine.execAddpc d im s
  | .cmp p a b w c => Sys2Proof.Machine.execCmp p a b w c s
  | .cmpi p c a im => Sys2Proof.Machine.execCmpi p c a im s
  | .pand d a x b y => Sys2Proof.Machine.execPand d a x b y s
  | .por d a x b y => Sys2Proof.Machine.execPor d a x b y s
  | .pxor d a x b y => Sys2Proof.Machine.execPxor d a x b y s
  | .sel d a b n p => Sys2Proof.Machine.execSel d a b n p s
  | .br p n o => Sys2Proof.Machine.execBr p n o s
  | .bz a o => Sys2Proof.Machine.execBz a o s
  | .bnz a o => Sys2Proof.Machine.execBnz a o s
  | .jmp o => Sys2Proof.Machine.execJmp o s
  | .call o => Sys2Proof.Machine.execCall o s
  | .jr d a => Sys2Proof.Machine.execJr d a s
  | .loop l a o => Sys2Proof.Machine.execLoop l a o s
  | .fadd d a b r => Sys2Proof.Machine.execFadd d a b r s
  | .fsub d a b r => Sys2Proof.Machine.execFsub d a b r s
  | .fmul d a b r => Sys2Proof.Machine.execFmul d a b r s
  | .fdiv d a b r => Sys2Proof.Machine.execFdiv d a b r s
  | .fsqrt d a r => Sys2Proof.Machine.execFsqrt d a r s
  | .fmin d a b => Sys2Proof.Machine.execFmin d a b s
  | .fmax d a b => Sys2Proof.Machine.execFmax d a b s
  | .ffma d a b r => Sys2Proof.Machine.execFfma d a b r s
  | .ffms d a b r => Sys2Proof.Machine.execFfms d a b r s
  | .ffnma d a b r => Sys2Proof.Machine.execFfnma d a b r s
  | .ffnms d a b r => Sys2Proof.Machine.execFfnms d a b r s
  | .fcvtI64F32 d a r => Sys2Proof.Machine.execFcvtI64F32 d a r s
  | .fcvtUi64F32 d a r => Sys2Proof.Machine.execFcvtUi64F32 d a r s
  | .fcvtI32F32 d a r => Sys2Proof.Machine.execFcvtI32F32 d a r s
  | .fcvtUi32F32 d a r => Sys2Proof.Machine.execFcvtUi32F32 d a r s
  | .fcvtF32I64 d a r => Sys2Proof.Machine.execFcvtF32I64 d a r s
  | .fcvtF32Ui64 d a r => Sys2Proof.Machine.execFcvtF32Ui64 d a r s
  | .fcvtF32I32 d a r => Sys2Proof.Machine.execFcvtF32I32 d a r s
  | .fcvtF32Ui32 d a r => Sys2Proof.Machine.execFcvtF32Ui32 d a r s
  | .fcvtB16F32 d a r => Sys2Proof.Machine.execFcvtB16F32 d a r s
  | .fcvtF32B16 d a r => Sys2Proof.Machine.execFcvtF32B16 d a r s
  | .fcvtF16F32 d a r => Sys2Proof.Machine.execFcvtF16F32 d a r s
  | .fcvtF32F16 d a r => Sys2Proof.Machine.execFcvtF32F16 d a r s
  | .fcvtF8aF32 d a r => Sys2Proof.Machine.execFcvtF8aF32 d a r s
  | .fcvtF8bF32 d a r => Sys2Proof.Machine.execFcvtF8bF32 d a r s
  | .fcvtF32F8a d a r => Sys2Proof.Machine.execFcvtF32F8a d a r s
  | .fcvtF32F8b d a r => Sys2Proof.Machine.execFcvtF32F8b d a r s
  | .frint d a r => Sys2Proof.Machine.execFrint d a r s
  | .feq p a b => Sys2Proof.Machine.execFeq p a b s
  | .flt p a b => Sys2Proof.Machine.execFlt p a b s
  | .fle p a b => Sys2Proof.Machine.execFle p a b s
  | .fUn p a b => Sys2Proof.Machine.execFUn p a b s
  | .rdsr d im => Sys2Proof.Machine.execRdsr d im s
  | .wrsr a im => Sys2Proof.Machine.execWrsr a im s
  | .gcfg a t g => Sys2Proof.Machine.execGcfg a t g s
  | .gstart g => Sys2Proof.Machine.execGstart g s
  | .gstop g => Sys2Proof.Machine.execGstop g s
  | .gstat d g => Sys2Proof.Machine.execGstat d g s
  | .gseek a g => Sys2Proof.Machine.execGseek a g s
  | .vsetk a => Sys2Proof.Machine.execVsetk a s
  | .vsetkH a => Sys2Proof.Machine.execVsetkH a s
  | .nopMem => Sys2Proof.Machine.execNopMem s
  | .ld d a o r z => Sys2Proof.Machine.execLd d a o r z s
  | .lds d a o r z => Sys2Proof.Machine.execLds d a o r z s
  | .st d a o r z => Sys2Proof.Machine.execSt d a o r z s
  | .ldv d a o r => Sys2Proof.Machine.execLdv d a o r s
  | .stv d a o r => Sys2Proof.Machine.execStv d a o r s
  | .ldx d a o r => Sys2Proof.Machine.execLdx d a o r s
  | .stpk d a o r m => Sys2Proof.Machine.execStpk d a o r m s
  | .ldt d a o r => Sys2Proof.Machine.execLdt d a o r s
  | .stt d a o r => Sys2Proof.Machine.execStt d a o r s
  | .ldg d a b x => Sys2Proof.Machine.execLdg d a b x s
  | .fence x => Sys2Proof.Machine.execFence x s
  | .fenceRel x => Sys2Proof.Machine.execFenceRel x s
  | .fenceAcq x => Sys2Proof.Machine.execFenceAcq x s
  | .fenceMem => Sys2Proof.Machine.execFenceMem s
  | .fenceUo => Sys2Proof.Machine.execFenceUo s
  | .prefRc a o => Sys2Proof.Machine.execPrefRc a o s
  | .prefMd a o => Sys2Proof.Machine.execPrefMd a o s
  | .nopVec un => Sys2Proof.Machine.execNopVec un s
  | .vadd un d a b t m => Sys2Proof.Machine.execVadd un d a b t m s
  | .vsub un d a b t m => Sys2Proof.Machine.execVsub un d a b t m s
  | .vmul un d a b t m => Sys2Proof.Machine.execVmul un d a b t m s
  | .vmulh un d a b t m => Sys2Proof.Machine.execVmulh un d a b t m s
  | .vfma un c a b t m => Sys2Proof.Machine.execVfma un c a b t m s
  | .vmin un d a b t m => Sys2Proof.Machine.execVmin un d a b t m s
  | .vmax un d a b t m => Sys2Proof.Machine.execVmax un d a b t m s
  | .vabs un d a t m => Sys2Proof.Machine.execVabs un d a t m s
  | .vneg un d a t m => Sys2Proof.Machine.execVneg un d a t m s
  | .vand un d a b m => Sys2Proof.Machine.execVand un d a b m s
  | .vor un d a b m => Sys2Proof.Machine.execVor un d a b m s
  | .vxor un d a b m => Sys2Proof.Machine.execVxor un d a b m s
  | .vandn un d a b m => Sys2Proof.Machine.execVandn un d a b m s
  | .vshl un d a b t m => Sys2Proof.Machine.execVshl un d a b t m s
  | .vshr un d a b t m => Sys2Proof.Machine.execVshr un d a b t m s
  | .vcmp un c k a b t m => Sys2Proof.Machine.execVcmp un c k a b t m s
  | .vsel un d a b m => Sys2Proof.Machine.execVsel un d a b m s
  | .vmov un d a => Sys2Proof.Machine.execVmov un d a s
  | .vcvt un d a p u t m => Sys2Proof.Machine.execVcvt un d a p u t m s
  | .vscale un d a b m => Sys2Proof.Machine.execVscale un d a b m s
  | .vqnt un d a b m => Sys2Proof.Machine.execVqnt un d a b m s
  | .vunpk un d a b => Sys2Proof.Machine.execVunpk un d a b s
  | .vmaskAnd un k a b => Sys2Proof.Machine.execVmaskAnd un k a b s
  | .vmaskOr un k a b => Sys2Proof.Machine.execVmaskOr un k a b s
  | .vmaskXor un k a b => Sys2Proof.Machine.execVmaskXor un k a b s
  | .vmaskAndn un k a b => Sys2Proof.Machine.execVmaskAndn un k a b s
  | .vmaskNot un k a => Sys2Proof.Machine.execVmaskNot un k a s
  | .vmaskNz un k a => Sys2Proof.Machine.execVmaskNz un k a s
  | .vmaskCnt un k a => Sys2Proof.Machine.execVmaskCnt un k a s
  | .vchk un a b m => Sys2Proof.Machine.execVchk un a b m s
  | .vperm d a b m => Sys2Proof.Machine.execVperm d a b m s
  | .vrot d a b m => Sys2Proof.Machine.execVrot d a b m s
  | .vrsum d a t m => Sys2Proof.Machine.execVrsum d a t m s
  | .vrmax d a t m => Sys2Proof.Machine.execVrmax d a t m s
  | .vscan d a t m => Sys2Proof.Machine.execVscan d a t m s
  | .vexp2 d a m => Sys2Proof.Machine.execVexp2 d a m s
  | .vlog2 d a m => Sys2Proof.Machine.execVlog2 d a m s
  | .vrcp d a m => Sys2Proof.Machine.execVrcp d a m s
  | .vrsq d a m => Sys2Proof.Machine.execVrsq d a m s
  | .nopMx => Sys2Proof.Machine.execNopMx s
  | .msetp p a => Sys2Proof.Machine.execMsetp p a s
  | .msetpi p im => Sys2Proof.Machine.execMsetpi p im s
  | .mcall h x t r => Sys2Proof.Machine.execMcall h x t r s
  | .mzero t => Sys2Proof.Machine.execMzero t s
  | .mdrain t d a b z n m x => Sys2Proof.Machine.execMdrain t d a b z n m x s
  | .mseal t => Sys2Proof.Machine.execMseal t s
  | .mstat d => Sys2Proof.Machine.execMstat d s
  | .mlduc a b => Sys2Proof.Machine.execMlduc a b s
  | .mlducEnt a b => Sys2Proof.Machine.execMlducEnt a b s
  | .maccrd t d a => Sys2Proof.Machine.execMaccrd t d a s
  | .maccrdRow t a b => Sys2Proof.Machine.execMaccrdRow t a b s
  | .maccwr t a b => Sys2Proof.Machine.execMaccwr t a b s
  | .maccwrRow t a b => Sys2Proof.Machine.execMaccwrRow t a b s
  | .mwait d c => Sys2Proof.Machine.execMwait d c s
  | .mAload p q => Sys2Proof.Machine.execMAload p q s
  | .mBload p q => Sys2Proof.Machine.execMBload p q s
  | .mStep acc tr => Sys2Proof.Machine.execMStep acc tr s
  | .mLoop l n => Sys2Proof.Machine.execMLoop l n s
  | .mEndloop l => Sys2Proof.Machine.execMEndloop l s
  | .mAddp p q src imm => Sys2Proof.Machine.execMAddp p q src imm s
  | .mSetp p q src imm => Sys2Proof.Machine.execMSetp p q src imm s
  | .mJcmp p q cc f tgt => Sys2Proof.Machine.execMJcmp p q cc f tgt s
  | .mZero tr => Sys2Proof.Machine.execMZero tr s
  | .mDrain p g t z nw mode sl => Sys2Proof.Machine.execMDrain p g t z nw mode sl s
  | .mSeal => Sys2Proof.Machine.execMSeal s
  | .mShape p q g => Sys2Proof.Machine.execMShape p q g s
  | .mFmt fa fb => Sys2Proof.Machine.execMFmt fa fb s
  | .mPermit n => Sys2Proof.Machine.execMPermit n s
  | .mEnd => Sys2Proof.Machine.execMEnd s
  | .nopCopy q => Sys2Proof.Machine.execNopCopy q s
  | .cpy q t a b c => Sys2Proof.Machine.execCpy q t a b c s
  | .cpy2 q t a b c => Sys2Proof.Machine.execCpy2 q t a b c s
  | .cpyb q t a b im => Sys2Proof.Machine.execCpyb q t a b im s
  | .acc q t a b c u o => Sys2Proof.Machine.execAcc q t a b c u o s
  | .cas q t a b c u z => Sys2Proof.Machine.execCas q t a b c u z s
  | .faa q t a b u z => Sys2Proof.Machine.execFaa q t a b u z s
  | .xchg q t a b u z => Sys2Proof.Machine.execXchg q t a b u z s
  | .fput q t a b u => Sys2Proof.Machine.execFput q t a b u s
  | .subs q t a d x => Sys2Proof.Machine.execSubs q t a d x s
  | .unsub q t x => Sys2Proof.Machine.execUnsub q t x s
  | .slotrel q t x => Sys2Proof.Machine.execSlotrel q t x s
  | .publ q t a b x => Sys2Proof.Machine.execPubl q t a b x s
  | .cfence q t c => Sys2Proof.Machine.execCfence q t c s
  | .cpys q t a c l => Sys2Proof.Machine.execCpys q t a c l s
  | .coll q t a b c o k => Sys2Proof.Machine.execColl q t a b c o k s
  | .nopSys => Sys2Proof.Machine.execNopSys s
  | .spawn d a => Sys2Proof.Machine.execSpawn d a s
  | .spawnl d a b => Sys2Proof.Machine.execSpawnl d a b s
  | .join d => Sys2Proof.Machine.execJoin d s
  | .merge => Sys2Proof.Machine.execMerge s
  | .yield => Sys2Proof.Machine.execYield s
  | .tinfo d im => Sys2Proof.Machine.execTinfo d im s
  | .viewa d a => Sys2Proof.Machine.execViewa d a s
  | .fget d a => Sys2Proof.Machine.execFget d a s
  | .fwaitSpin d a b => Sys2Proof.Machine.execFwaitSpin d a b s
  | .fwaitYield d a b => Sys2Proof.Machine.execFwaitYield d a b s
  | .runinl d a => Sys2Proof.Machine.execRuninl d a s
  | .gjoin d a => Sys2Proof.Machine.execGjoin d a s
  | .gleave a => Sys2Proof.Machine.execGleave a s
  | .arrive d a => Sys2Proof.Machine.execArrive d a s
  | .arriveDrop d a => Sys2Proof.Machine.execArriveDrop d a s
  | .bwait d a b => Sys2Proof.Machine.execBwait d a b s
  | .sstep d a => Sys2Proof.Machine.execSstep d a s
  | .tcexp a x => Sys2Proof.Machine.execTcexp a x s
  | .tcwait d x => Sys2Proof.Machine.execTcwait d x s
  | .lease d a b => Sys2Proof.Machine.execLease d a b s
  | .leaserel d => Sys2Proof.Machine.execLeaserel d s
  | .permit d a => Sys2Proof.Machine.execPermit d a s
  | .segs m n => Sys2Proof.Machine.execSegs m n s
  | .trap n => Sys2Proof.Machine.execTrap n s
  | .trapDup n => Sys2Proof.Machine.execTrapDup n s
  | .utret => Sys2Proof.Machine.execUtret s
  | .vdist d a b => Sys2Proof.Machine.execVdist d a b s
  | .vdmap d a => Sys2Proof.Machine.execVdmap d a s
  | .powerOnReset => Sys2Proof.Machine.execPowerOnReset s
  | .deviceReset => Sys2Proof.Machine.execDeviceReset s
  | .functionLevelReset => Sys2Proof.Machine.execFunctionLevelReset s
  | .timeBaseTick => Sys2Proof.Machine.execTimeBaseTick s
  | .timeBaseStop => Sys2Proof.Machine.execTimeBaseStop s
  | .firmwareInit => Sys2Proof.Machine.execFirmwareInit s
  | .bundleFetch => Sys2Proof.Machine.execBundleFetch s
  | .shadowCheckVerdict => Sys2Proof.Machine.execShadowCheckVerdict s
  | .vchkVerdict => Sys2Proof.Machine.execVchkVerdict s
  | .deferredFault => Sys2Proof.Machine.execDeferredFault s
  | .loadDataArrival => Sys2Proof.Machine.execLoadDataArrival s
  | .requestTimeout => Sys2Proof.Machine.execRequestTimeout s
  | .dirtyLineEviction => Sys2Proof.Machine.execDirtyLineEviction s
  | .pageWalk => Sys2Proof.Machine.execPageWalk s
  | .tlbInvalidateAck => Sys2Proof.Machine.execTlbInvalidateAck s
  | .replicaResync => Sys2Proof.Machine.execReplicaResync s
  | .pierEntryLeave => Sys2Proof.Machine.execPierEntryLeave s
  | .implicitSeal => Sys2Proof.Machine.execImplicitSeal s
  | .drainRowLeave => Sys2Proof.Machine.execDrainRowLeave s
  | .sealVerdict => Sys2Proof.Machine.execSealVerdict s
  | .keystoneVerdict => Sys2Proof.Machine.execKeystoneVerdict s
  | .mwaitFill => Sys2Proof.Machine.execMwaitFill s
  | .tokenGrant => Sys2Proof.Machine.execTokenGrant s
  | .refillEpoch => Sys2Proof.Machine.execRefillEpoch s
  | .leaseExpiry => Sys2Proof.Machine.execLeaseExpiry s
  | .wearMeasurement => Sys2Proof.Machine.execWearMeasurement s
  | .portPrefetch => Sys2Proof.Machine.execPortPrefetch s
  | .segmentWake => Sys2Proof.Machine.execSegmentWake s
  | .copyComplete => Sys2Proof.Machine.execCopyComplete s
  | .copyResume => Sys2Proof.Machine.execCopyResume s
  | .atomicApply => Sys2Proof.Machine.execAtomicApply s
  | .atomicBusyRetry => Sys2Proof.Machine.execAtomicBusyRetry s
  | .atomicResend => Sys2Proof.Machine.execAtomicResend s
  | .subscriptionAccept => Sys2Proof.Machine.execSubscriptionAccept s
  | .loaderPush => Sys2Proof.Machine.execLoaderPush s
  | .storerPull => Sys2Proof.Machine.execStorerPull s
  | .cpysReceive => Sys2Proof.Machine.execCpysReceive s
  | .publSwap => Sys2Proof.Machine.execPublSwap s
  | .peerRequest => Sys2Proof.Machine.execPeerRequest s
  | .collComplete => Sys2Proof.Machine.execCollComplete s
  | .collTimeout => Sys2Proof.Machine.execCollTimeout s
  | .gangCycle => Sys2Proof.Machine.execGangCycle s
  | .tcwaitPhaseComplete => Sys2Proof.Machine.execTcwaitPhaseComplete s
  | .fgetResponse => Sys2Proof.Machine.execFgetResponse s
  | .fwaitTimeout => Sys2Proof.Machine.execFwaitTimeout s
  | .rootAdmission => Sys2Proof.Machine.execRootAdmission s
  | .taskAdmission => Sys2Proof.Machine.execTaskAdmission s
  | .depcntDecrement => Sys2Proof.Machine.execDepcntDecrement s
  | .taskPick => Sys2Proof.Machine.execTaskPick s
  | .tickSlip => Sys2Proof.Machine.execTickSlip s
  | .joinSuspendTimeout => Sys2Proof.Machine.execJoinSuspendTimeout s
  | .combine => Sys2Proof.Machine.execCombine s
  | .resourceResolution => Sys2Proof.Machine.execResourceResolution s
  | .pageFaultResolution => Sys2Proof.Machine.execPageFaultResolution s
  | .hangWatchdog => Sys2Proof.Machine.execHangWatchdog s
  | .saveDeadline => Sys2Proof.Machine.execSaveDeadline s
  | .schedulerTakeover => Sys2Proof.Machine.execSchedulerTakeover s
  | .takeoverComplete => Sys2Proof.Machine.execTakeoverComplete s
  | .spawnWindowWrite => Sys2Proof.Machine.execSpawnWindowWrite s
  | .consumedWrite => Sys2Proof.Machine.execConsumedWrite s
  | .apertureWrite => Sys2Proof.Machine.execApertureWrite s
  | .apertureRead => Sys2Proof.Machine.execApertureRead s
  | .registerWrite => Sys2Proof.Machine.execRegisterWrite s
  | .fwload => Sys2Proof.Machine.execFwload s
  | .ctxcreate => Sys2Proof.Machine.execCtxcreate s
  | .ctxdestroy => Sys2Proof.Machine.execCtxdestroy s
  | .streamcreate => Sys2Proof.Machine.execStreamcreate s
  | .tupd => Sys2Proof.Machine.execTupd s
  | .ctxparam => Sys2Proof.Machine.execCtxparam s
  | .preempt => Sys2Proof.Machine.execPreempt s
  | .restore => Sys2Proof.Machine.execRestore s
  | .streamabort => Sys2Proof.Machine.execStreamabort s
  | .capture => Sys2Proof.Machine.execCapture s
  | .resync => Sys2Proof.Machine.execResync s
  | .pagefail => Sys2Proof.Machine.execPagefail s
  | .storeAcknowledgement => Sys2Proof.Machine.execStoreAcknowledgement s

end Sys2Proof.Machine
end

