-- ==== Sys2Proof/Machine/Step.lean ====
section
/-!
DEFINITION. One step of the machine: one event of the device, its cores and its host (log 3).
-/
set_option linter.unusedVariables false

namespace Sys2Proof.Machine

/-- One step: the next event takes effect, if the device heeds it; what it does not heed, and an instruction of a slot, which is no event,
change nothing (log 4, log 63). -/
def step (s : State) : Host.Outcome State Fault Refusal :=
  let e := s.takeEvent.1.1
  if s.heeds e then exec e s.latched else .next s.latched

/-- The machine with an instruction where its next step fetches it: a micro-word in the microprogram store with the engine before it,
any other word in the first slot that takes it, of a bundle at the acting core's pc (log 6, log 7). -/
def State.withFetchWord (s : State) (nbits w : Nat) : State :=
  if nbits = 64 then s.withMicro w
  else match firstSlot w Slot.all with
    | some (sl, _) => s.withBundle (bundleWith sl w)
    | none => s.withBundle w

end Sys2Proof.Machine
end

