-- ==== Sys2Proof/Safety.lean ====
section
/-!
DEFINITION. The terms of the claims: what a sound state is, results of the integer forms said on bit vectors, and what an
instruction may change.
-/
set_option linter.unusedVariables false

namespace Sys2Proof.Machine

/-- The canonical form of device and host memory and of its tags. -/
def State.memOk (s : State) : Bool := Memory.wf s.mem && Memory.tagsWf s.memTags

/-- The canonical form of a core's scratchpad and of its tags. -/
def Core.spadOk (c : Core) : Bool := Memory.wf c.spad && Memory.tagsWf c.spadTags

/-- The value of one form of an INT instruction (spec/04 R80): at 64 bits, or at 32 bits and sign-extended. -/
def formOf (w : Bool) (f : (n : Nat) → BitVec n → BitVec n → BitVec n) (x y : Word) : Word :=
  if w then (f 32 (x.setWidth 32) (y.setWidth 32)).signExtend 64 else f 64 x y

/-- A condition of CMP and CMPI on bit vectors (spec/04 R84). -/
def condOn {n : Nat} (c : Cond) (x y : BitVec n) : Bool :=
  match c with
  | .eq => x == y
  | .ne => x != y
  | .lt => x.slt y
  | .ge => !x.slt y
  | .ltu => x.ult y
  | .geu => !x.ult y
  | .tst => (x &&& y) != 0

/-- The quotient of R72 (spec/03). -/
def quotient (n : Nat) (x y : BitVec n) : BitVec n := if y = 0 then BitVec.allOnes n else x.sdiv y

/-- The remainder of R72 (spec/03). -/
def remainder (n : Nat) (x y : BitVec n) : BitVec n := if y = 0 then x else x.srem y

/-- The high half of a product whose factors are extended by `ext` (spec/04 R80). -/
def highHalf (n : Nat) (ext : BitVec n → BitVec (2 * n)) (x y : BitVec n) : BitVec n :=
  (ext x * ext y).extractLsb' n n

/-- Zero bits from the top of a word down to its first 1 bit (spec/04 R80). -/
def leadingZeros {n : Nat} (x : BitVec n) : Nat := ((List.range n).takeWhile (fun i => !x.getMsbD i)).length

/-- Zero bits from the bottom of a word up to its first 1 bit (spec/04 R80). -/
def trailingZeros {n : Nat} (x : BitVec n) : Nat := ((List.range n).takeWhile (fun i => !x.getLsbD i)).length

/-- The 1 bits of a word (spec/04 R80). -/
def onesIn {n : Nat} (x : BitVec n) : Nat := ((List.range n).filter (fun i => x.getLsbD i)).length

/-- A ctl result on its way to an s-register (spec/02 R43). -/
def State.sends (lat : Nat) (d : Reg) (x : Word) (s : State) : State := s.fly lat 0 [.s d x]

/-- A taken transfer, or one not taken (spec/02 R44): the target waits for two delay bundles. -/
def State.jumps (taken leaves : Bool) (target : Word) (s : State) : State :=
  if taken then { s with core := { s.core with a := { s.core.a with pend := some ⟨target, 3, leaves⟩ } } } else s

/-- The FP32 value in the low half of a word (spec/04, Floating point). -/
def fpOf (x : Word) : ExtNum := f32.decode (x.extractLsb' 0 32).toNat

/-- A rounded FP32 value in bits [31:0], the rest zero (spec/04, Floating point). -/
def fpWordOf (r : Round) (x : ExtNum) : Word := (BitVec.ofNat 32 (f32.round r x)).setWidth 64

/-- A checked ctl result on its way: `e` is what the narrow shadow compares (spec/04 R96). -/
def State.sendsChecked (lat : Nat) (d : Reg) (e : Nat) (x : Word) (s : State) : State := (s.shadow lat 0 [e]).sends lat d x

/-- A checked FP32 result on its way (spec/04 R92, R96). -/
def State.sendsF32 (lat : Nat) (d : Reg) (r : Round) (x : ExtNum) (s : State) : State :=
  s.sendsChecked lat d (f32.shadow (f32.round r x)) (fpWordOf r x)

/-- The rational value of an exact value that has one. -/
def ExtNum.val? : ExtNum → Option Rat
  | .fin s n d => if d = 0 then none else some (mkRat (if s then -(n : Int) else n) d)
  | _ => none

/-- The binary formats of spec/03 R58 to R60. -/
def binaryFormats : List FpFmt := [f32, bf16, f16, f8a, f8b]

/-- A flag as a bit. -/
abbrev flag (b : Bool) : BitVec 1 := BitVec.ofBool b

/-- STW as its fields lie (spec/15 R308). -/
def Core.stwFields (c : Core) : Word :=
  0#48 ++ flag c.sp ++ flag c.a.ut ++ flag (c.a.trap.any (fun t => t.pend.isSome)) ++ flag c.a.lx.isSome ++
    flag c.a.loops[3].act ++ flag c.a.loops[2].act ++ flag c.a.loops[1].act ++ flag c.a.loops[0].act ++ 0#4 ++ c.a.sres

/-- MELT as its fields lie (spec/14 R298). -/
def State.meltFields (s : State) : Word :=
  0#52 ++ flag (decide (896 ≤ s.melt) || s.rf) ++ flag s.rf ++ BitVec.ofNat 10 s.melt

/-- LEASE as its fields lie (spec/14 R300); a tick is 10 ns, so a microsecond has 100. -/
def State.leaseFields (s : State) : Word :=
  let c := s.cluster s.core.id
  let us := match c.lease with
    | some l => (l.expiry - s.frame.toNat + 99) / 100
    | none => 0
  BitVec.ofNat 32 us ++ 0#13 ++ BitVec.ofNat 11 c.clk ++ 0#3 ++ flag (c.heldBy s.core) ++ 0#2 ++ BitVec.ofNat 2 c.st.code

/-- COVER as its fields lie (spec/10 R214). -/
def Core.coverFields (c : Core) : Word :=
  0#23 ++ BitVec.ofNat 9 c.pier.length ++ 0#28 ++ flag (c.pier.any c.a.holds) ++ flag c.sp ++ BitVec.ofNat 2 c.a.level

/-- ERRCNT as its fields lie, each saturating (spec/15 R317). -/
def Core.errFields (c : Core) : Word :=
  BitVec.ofNat 8 (min c.err.spt 255) ++ BitVec.ofNat 8 (min c.err.xrt 255) ++ BitVec.ofNat 16 (min c.err.rcd 65535) ++
    BitVec.ofNat 16 (min c.err.csp 65535) ++ BitVec.ofNat 16 (min c.err.crg 65535)

/-- The status word of GSTAT as its fields lie (spec/07 R149). -/
def PortState.statusFields (p : PortState) : Word :=
  0#12 ++ flag p.wrap ++ flag p.mode ++ flag p.exh ++ flag p.act ++ BitVec.ofNat 48 p.pos

/-- An element operation on a lane (spec/08 R156, R162): `fi` on integers of the element's width, `ff` on values rounded to the
element's format by RNE. -/
def onElems (t : VType) (fi : (w : Nat) → BitVec w → BitVec w → BitVec w) (ff : ExtNum → ExtNum → ExtNum) (x y : Lane) : Lane :=
  laneOf t (fun e =>
    match vfmt t with
    | some f => f.round .rne (ff (f.decode (laneElem t x e)) (f.decode (laneElem t y e)))
    | none => (fi t.bits (BitVec.ofNat t.bits (laneElem t x e)) (BitVec.ofNat t.bits (laneElem t y e))).toNat)

/-- The order of an integer element type (spec/08 R162). -/
def lessIn (t : VType) {w : Nat} (x y : BitVec w) : Bool := if t = .ui32 then x.ult y else x.slt y

/-- The extension of an integer element type. -/
def extendIn (t : VType) (w : Nat) (x : BitVec w) : BitVec (2 * w) := if t = .ui32 then x.setWidth _ else x.signExtend _

/-- A vector made of lanes, a masked-off lane kept from `keep` (spec/08 R158). -/
def underMask (g : Mask) (keep : Vec) (f : Nat → Lane) : Vec := Vec.ofFn (fun i => if g.getLsbD i then f i else keep.lane i)

/-- A vector result of an element type on its way, its elements in the lanes of a mask checked by the narrow shadow where the type is a
floating-point one (spec/08 R157, R158, R176). -/
def State.delivers (lat slot : Nat) (d : VDst) (t : VType) (g : Mask) (x : Vec) (s : State) : State :=
  s.deliver lat slot d (match vfmt t with
    | none => []
    | some f => ((List.range 128).filter (fun i => g.getLsbD i)).flatMap (fun i =>
        (List.range (perLane t)).map (fun e => f.shadow (laneElem t (x.lane i) e)))) x

/-- Whether a vector source can be read at issue without a trap (spec/07 R142, R144, R147, R150). -/
def Core.sourceReady (c : Core) : VSrc → Bool
  | .v r e => !(e && c.a.vIsEmpty r)
  | .g p =>
    c.iss.popped.any (fun x => x.1 == p) ||
      (let x := c.a.ports[p]
       let i := x.index x.pos
       x.act && !x.exh && !x.mode && (c.a.segs.getD (i / 256) .off == .on) &&
         (List.range 8).all (fun j => !isPoison (cellGet 0 c.a.vrfTags (8 * i + j))))
  | .fl => c.fl.isSome
  | _ => true

/-- Whether a vector destination can be pushed at issue without a trap (spec/07 R144, R147). -/
def Core.destReady (c : Core) : VDst → Bool
  | .g p =>
    let x := c.a.ports[p]
    x.act && !x.exh && x.mode && (c.a.segs.getD (x.index x.pos / 256) .off == .on)
  | _ => true

/-- Every operand of a vector instruction is ready. -/
def Core.operandsReady (c : Core) (srcs : List VSrc) (d : VDst) : Bool := srcs.all c.sourceReady && c.destReady d

/-- The state once the sources of a vector instruction are taken: ports popped, the row on fl marked as read. -/
def State.taken (srcs : List VSrc) (s : State) : State :=
  { s with core := srcs.foldl Core.popV (s.core.taintFl srcs) }

/-- The node of the fixed tree (spec/03 R74): node[l][i] joins node[l-1][2i] and node[l-1][2i+1]. -/
def fixedNode (op : Lane → Lane → Lane) (lane : Nat → Lane) : Nat → Nat → Lane
  | 0, i => lane i
  | l + 1, i => op (fixedNode op lane l (2 * i)) (fixedNode op lane l (2 * i + 1))

/-- The aligned blocks that cover `n` lanes from lane `start` up, combined from left to right (spec/03 R74). -/
def fixedCover (op : Lane → Lane → Lane) (lane : Nat → Lane) : Nat → Nat → Nat → Option Lane → Option Lane
  | 0, start, n, acc => acc
  | l + 1, start, n, acc =>
    if 2 ^ l ≤ n then
      let x := fixedNode op lane l (start / 2 ^ l)
      fixedCover op lane l (start + 2 ^ l) (n - 2 ^ l) (some (acc.elim x (fun a => op a x)))
    else fixedCover op lane l start n acc

/-- The effective address of the MI family (spec/05 R107): base plus the scaled, sign-extended offset, modulo 2^64. -/
def State.addr (s : State) (r : Reg) (o : BitVec 10) (unit : Nat) : Word := s.core.a.rd r + o.signExtend 64 * BitVec.ofNat 64 unit

/-- `n` bytes from `va` lie in one of the windows that the mem slot reaches (spec/05 R98, R99). -/
def reaches (va n : Nat) : Prop :=
  va + n ≤ 0x00F0000000000000 ∨ (0x00F0000000000000 ≤ va ∧ va + n ≤ 0x00F0000000400000) ∨
    (0x00F8000000000000 ≤ va ∧ va + n ≤ 0x00FC000000000000)

/-- No granule of `n` bytes of the own scratchpad is poisoned (spec/05 R123). -/
def Core.clean (c : Core) (off n : Nat) : Prop := ∀ i, i < n → isPoison (c.spadTag ((off + i) / 64)) = false

/-- The bytes of a value are those of the scratchpad as forwarding readers see it, and the bytes above are `fill`. -/
def Core.holdsBytes (c : Core) (off n : Nat) (x : Word) (fill : Byte) : Prop :=
  ∀ i, i < 8 → x.extractLsb' (8 * i) 8 = if i < n then c.spadByte (off + i) else fill

/-- The byte that extends an n-byte value (spec/05 R111). -/
def Core.fillOf (c : Core) (off n : Nat) (signed : Bool) : Byte :=
  if signed && (c.spadByte (off + n - 1)).msb then 0xFF else 0

/-- A pier entry that writes the `n` low bytes of a number at an offset or an address. -/
def PierEntry.writes (e : PierEntry) (at_ n : Nat) (byte : Nat → Byte) : Prop :=
  e.cells = (List.range n).map (fun i => (at_ + i, byte i)) ∧ e.tags = []

/-- The acting core's task part replaced. -/
def State.withArch (a : Arch) (s : State) : State := { s with core := { s.core with a := a } }

/-- One tile of the acting core replaced. -/
def State.withTile (t : TileNo) (x : TileState) (s : State) : State :=
  s.withArch { s.core.a with tiles := s.core.a.tiles.set t x }

/-- The engine put to some work. -/
def State.withEngine (e : EngOp) (s : State) : State := s.withArch { s.core.a with eng := e }

/-- A micro-operation done in one cycle, the routine as it stands then (spec/09 R184). -/
def State.routineNow (r : Routine) (s : State) : State :=
  s.withArch { s.core.a with routine := some r, eng := .timed 1 }

/-- A fault that the engine found: it waits for a bundle boundary (spec/05 R109, spec/09 R181). -/
def State.deferred (c : Cause) (tval : Word) (s : State) : State :=
  s.withArch { s.core.a with deferred := s.core.a.deferred ++ [⟨c, tval⟩] }

/-- The engine status word as its fields lie (spec/09 R198). -/
def Core.mstatFields (c : Core) : Word :=
  let tile (f : TileState → Bool) (t : Fin 4) : BitVec 1 := flag (f c.a.tiles[t])
  let isOpen := tile (fun t => t.isOpen)
  let pending := tile (fun t => t.pending.isSome)
  BitVec.ofNat 32 (c.a.stat.rix % 256) ++ 0#1 ++ BitVec.ofNat 7 c.a.stat.rowp ++
    (isOpen 3 ++ isOpen 2 ++ isOpen 1 ++ isOpen 0) ++ (pending 3 ++ pending 2 ++ pending 1 ++ pending 0) ++ 0#4 ++
    BitVec.ofNat 4 (min 15 ((c.a.drains.filter c.drainActive).length)) ++ BitVec.ofNat 2 c.a.stat.lastv ++ flag c.sp ++
    0#1 ++ flag c.a.stat.pw ++ 0#1 ++ flag c.a.engBusy ++ 0#1

/-- Both paths of every tile agree: elements, folds, codes, and what a pending seal compares (spec/10 R202 to R204). -/
def Arch.pathsAgree (a : Arch) : Prop :=
  ∀ t : TileNo, (a.tiles[t]).p = (a.tiles[t]).q ∧ (a.tiles[t]).fp = (a.tiles[t]).fq ∧ (a.tiles[t]).cd = false ∧
    ∀ ps, (a.tiles[t]).pending = some ps → sealMatch ps = true

/-- The element of a path at a row and a column. -/
def elementOf (rows : Tbl Vec) (r c : Nat) : Lane := (rowGet rows r).lane c

/-- The shape that m.shape accepts (spec/09 R188, R191). -/
def shapeLegal (p q g : Word) : Prop :=
  let m := (p.extractLsb' 0 16).toNat
  let n := (p.extractLsb' 16 16).toNat
  let k := (p.extractLsb' 32 16).toNat
  let kg := (q.extractLsb' 0 16).toNat
  let row0 := (g.extractLsb' 0 16).toNat
  let col0 := (g.extractLsb' 16 16).toNat
  (16 ≤ m ∧ m ≤ 128 ∧ m % 16 = 0) ∧ (16 ≤ n ∧ n ≤ 128 ∧ n % 16 = 0) ∧ (kg = 16 ∨ kg = 32 ∨ kg = 64 ∨ kg = 128) ∧
    kg ≤ k ∧ k % kg = 0 ∧ (row0 ≤ 112 ∧ row0 % 16 = 0) ∧ (col0 ≤ 112 ∧ col0 % 16 = 0) ∧
    p.extractLsb' 48 16 = 0 ∧ q.extractLsb' 16 48 = 0 ∧ g.extractLsb' 32 32 = 0

/-- `n` bytes that a command may read: all in one allowed window, and in no frozen declared tile (spec/11 R221, spec/12 R256). -/
def State.readable (s : State) (ok : Window → Bool) (va n : Nat) : Prop :=
  s.winOk ok va n = true ∧ (s.core.a.frozen0 = true → s.core.a.hitsView va n = false)

/-- `n` bytes that a command may write: also within a merge routine's destination, and allowed to a restartable task
(spec/12 R260, R267). -/
def State.writable (s : State) (ok : Window → Bool) (single : Bool) (va n : Nat) : Prop :=
  s.readable ok va n ∧ s.core.a.mergeBad va n = false ∧ s.restartBad single va n = false

/-- Row `r` of a range. -/
def rowStart (base : Word) (stride : Int) (r : Nat) : Nat := (base + BitVec.ofInt 64 (stride * r)).toNat

/-- A 64-byte block of the own scratchpad that a command can read at issue (spec/11 R224). -/
def Core.blockReadable (c : Core) (va : Word) : Prop :=
  inSpad va.toNat = true ∧ inSpad (va.toNat + 63) = true ∧ va.toNat % 64 = 0 ∧ c.clean (spadOff va) 64

/-- A field of a block: `n` bytes from byte `k` on, little-endian. -/
def Core.fieldAt (c : Core) (va : Word) (k n : Nat) : Nat := c.spadNat (spadOff va + k) n

/-- TCAUSE of a cause (spec/15 R307): the code and the class of the table, and DEF. -/
def Cause.row : Cause → Nat × Nat
  | .feEmpty => (0x01, 0) | .futEmpty => (0x02, 0) | .leaseExpired => (0x03, 0) | .trap => (0x04, 0)
  | .page => (0x10, 1) | .resource => (0x11, 1)
  | .illegalOp => (0x20, 2) | .misaligned => (0x21, 2) | .prot => (0x22, 2) | .badTag => (0x23, 2)
  | .badShape => (0x24, 2) | .segGated => (0x25, 2) | .segWaking => (0x26, 2) | .viewOrder => (0x27, 2)
  | .restartViolation => (0x28, 2) | .poison => (0x29, 2)
  | .residue => (0x40, 3) | .dupMismatch => (0x41, 3) | .hwUncorr => (0x42, 3) | .xferSig => (0x43, 3)
  | .timeout => (0x44, 3) | .sealFail => (0x45, 3) | .watchdog => (0x60, 4)

/-- TCAUSE as its fields lie (spec/15 R307). -/
def causeFields (c : Cause) (deferred : Bool) : Word :=
  flag deferred ++ 0#44 ++ BitVec.ofNat 3 (Cause.row c).2 ++ BitVec.ofNat 16 (Cause.row c).1

/-- Everything of the machine but the acting core is the same. -/
def State.restSame (s t : State) : Prop := t = { s with core := t.core }

/-- The core is held after slot 7 of its bundle. -/
def State.heldBy (b : Block) (s : State) : State := s.withArch { s.core.a with block := some b }

/-- The machine with the core that an event concerns as the acting core (log 3). -/
def State.there (s : State) : State := s.focus s.input.core

/-- What an address reads as after some cells are written in order: the last one written there, or the old value. -/
def readAfter {α : Type} (d : α) (m : List (Nat × α)) (cs : List (Nat × α)) (a : Nat) : α :=
  ((cs.reverse.find? (fun x => x.1 = a)).map Prod.snd).getD (cellGet d m a)

/-- Byte `i` of an access at `va`, out of the granules that hold it (spec/01 R27). -/
def byteAt (va : Nat) (gs : List Granule) (i : Nat) : Byte :=
  (gs.getD ((va % 64 + i) / 64) 0).extractLsb' (8 * ((va % 64 + i) % 64)) 8

/-- What the reset of a device leaves, but for FRAME (spec/01 R29, R31, spec/10 R215, spec/16 R326): device memory and its tags,
contexts, streams, launches and tasks are gone, host memory and the stacks are as before, every core is as reset leaves it, and a core
that was named faulty or out of service is enabled no more, unless it is the spare.
The populated stacks are those that the fuses give, but for the ones that fail their test. -/
def State.restartedAs (failed : List Nat) (s t : State) : Prop :=
  t.epoch = t.frame.toNat / 1000 ∧ t.timeBase = true ∧ t.ready = false ∧ t.boot = (if t.legal then .awaiting else .packageFault) ∧
  t.core = Core.fresh 0 ∧ t.others = [] ∧ t.ctxs = [] ∧ t.streams = [] ∧ t.launches = [] ∧ t.tasks = [] ∧ t.gangs = [] ∧
  t.updates = [] ∧ t.memTags = [] ∧ t.homes = [] ∧ t.fusedStacks = s.fusedStacks ∧
  (∀ n, n ∈ t.memStacks ↔ n ∈ s.fusedStacks ∧ n ∉ failed) ∧
  (∀ a, cellGet 0 t.mem a = if 2 ^ 51 ≤ a then cellGet 0 s.mem a else 0) ∧
  ∀ n : Fin 32, ∀ k ∈ (t.clusters[n]).enabled, k ∉ s.failedIn n.val ∨ (s.clusters[n]).spare = some k

/-- The core as it stands when `n` more bundles have been reached, if nothing else happens to it (spec/02 R43). -/
def Core.bundlesLater : Nat → Core → Core
  | 0, c => c
  | n + 1, c => Core.bundlesLater n c.landDue

/-- What an instruction that only sends results away leaves as it was: memory and its tags, FRAME, the scratchpad, the pier, every
register of the core, its full/empty bits, the bundle address, and the trap registers (spec/02 R40, R43). -/
def State.keeps (s t : State) : Prop :=
  t.mem = s.mem ∧ t.memTags = s.memTags ∧ t.frame = s.frame ∧
  t.core.spad = s.core.spad ∧ t.core.spadTags = s.core.spadTags ∧ t.core.pier = s.core.pier ∧
  t.core.a.s = s.core.a.s ∧ t.core.a.sEmpty = s.core.a.sEmpty ∧ t.core.a.p = s.core.a.p ∧ t.core.a.v = s.core.a.v ∧
  t.core.a.vEmpty = s.core.a.vEmpty ∧ t.core.a.q = s.core.a.q ∧ t.core.a.m = s.core.a.m ∧ t.core.a.k = s.core.a.k ∧
  t.core.a.vrf = s.core.a.vrf ∧ t.core.a.vrfTags = s.core.a.vrfTags ∧ t.core.a.mp = s.core.a.mp ∧ t.core.a.pc = s.core.a.pc ∧
  t.core.a.ut = s.core.a.ut ∧ t.core.a.tcause = s.core.a.tcause ∧ t.core.a.tval = s.core.a.tval ∧ t.core.a.tpc = s.core.a.tpc ∧
  t.core.a.utvec = s.core.a.utvec ∧ t.core.a.sres = s.core.a.sres

/-- Whether a landing on a numbered register is on a destination that the instruction names; other landings are no concern here. -/
def Landing.aimed (i : Instr) : Landing → Bool
  | .s r _ => (uses i).dst.contains r
  | .p r _ => (uses i).pdst.contains r
  | .v r _ => (uses i).vdst.contains (.v r)
  | .m r _ => (uses i).mdst.contains r
  | _ => true

/-- A result that lands after `left` bundles is among those in flight. -/
def inFlight (fs : List Flight) (left : Nat) (l : Landing) : Prop := ∃ f ∈ fs, f.left = left ∧ l ∈ f.lands

/-- The frame of an instruction of a slot: it ends in a next state in which nothing is written yet and the results in flight to other
registers are those that were, or in a trap taken from such a state (spec/02 R40, R43, spec/04 R77). -/
def framed (i : Instr) (s : State) : Prop :=
  ∃ t, exec i s = .next t ∧
    ((s.keeps t ∧ ∀ left l, Landing.aimed i l = false → (inFlight t.core.a.flights left l ↔ inFlight s.core.a.flights left l)) ∨
     ∃ u k c x, t = State.fault k c x u ∧ s.keeps u)

/-- The instructions of the slots that a bundle still has to issue (spec/02 R36, R41). -/
def State.toIssue (s : State) : List Instr :=
  let k := s.core.a.reentry.getD 0
  liveSlots k (((illegalSlot s.core.a.decoded).filter (fun j => k ≤ j)).getD 8) s.core.a.decoded

/-- Every memory of the machine is in canonical form: device and host memory, each core's scratchpad, and those of saved contexts. -/
def State.formsOk (s : State) : Prop :=
  s.memOk = true ∧ s.core.spadOk = true ∧ (∀ x ∈ s.others, x.2.spadOk = true) ∧
  ∀ c ∈ s.ctxs, ∀ im, c.image = some im → ∀ x ∈ im.cores, Memory.wf x.spad = true ∧ Memory.tagsWf x.spadTags = true

end Sys2Proof.Machine
end

