-- ==== Sys2Proof/Certificates/Slice0/Obligations.lean ====
section
/-!
DEFINITION. The statements for the provers. A claim is a part of a statement; each statement is one claim or the conjunction of some.
-/
set_option linter.unusedVariables false

open Sys2Proof Sys2Proof.Machine

/-- R80, the adder, logic and comparison rows: each result lands after one bundle, at both widths. -/
def Claims.IntegerArithmeticResults : Prop :=
  ∀ (d a b : Reg) (w : Bool) (s : State),
    let x := s.core.a.rd a
    let y := s.core.a.rd b
    exec (.add d a b w) s = .next (s.sends 1 d (formOf w (fun _ x y => x + y) x y)) ∧
    exec (.sub d a b w) s = .next (s.sends 1 d (formOf w (fun _ x y => x - y) x y)) ∧
    exec (.and d a b w) s = .next (s.sends 1 d (formOf w (fun _ x y => x &&& y) x y)) ∧
    exec (.or d a b w) s = .next (s.sends 1 d (formOf w (fun _ x y => x ||| y) x y)) ∧
    exec (.xor d a b w) s = .next (s.sends 1 d (formOf w (fun _ x y => x ^^^ y) x y)) ∧
    exec (.andn d a b w) s = .next (s.sends 1 d (formOf w (fun _ x y => x &&& ~~~y) x y)) ∧
    exec (.min d a b w) s = .next (s.sends 1 d (formOf w (fun _ x y => if y.slt x then y else x) x y)) ∧
    exec (.max d a b w) s = .next (s.sends 1 d (formOf w (fun _ x y => if x.slt y then y else x) x y)) ∧
    exec (.minu d a b w) s = .next (s.sends 1 d (formOf w (fun _ x y => if y.ult x then y else x) x y)) ∧
    exec (.maxu d a b w) s = .next (s.sends 1 d (formOf w (fun _ x y => if x.ult y then y else x) x y))

/-- R80 and R83, the shifts: the amount is b[5:0], or b[4:0] in the 32-bit form, or the immediate. -/
def Claims.ShiftResults : Prop :=
  (∀ (d a b : Reg) (w : Bool) (s : State),
    let x := s.core.a.rd a
    let y := s.core.a.rd b
    exec (.sll d a b w) s = .next (s.sends 1 d (formOf w (fun n x y => x <<< (y.toNat % n)) x y)) ∧
    exec (.srl d a b w) s = .next (s.sends 1 d (formOf w (fun n x y => x >>> (y.toNat % n)) x y)) ∧
    exec (.sra d a b w) s = .next (s.sends 1 d (formOf w (fun n x y => x.sshiftRight (y.toNat % n)) x y)) ∧
    exec (.rol d a b w) s = .next (s.sends 1 d (formOf w (fun n x y => x.rotateLeft (y.toNat % n)) x y))) ∧
  (∀ (d a : Reg) (w : Bool) (k : BitVec 6) (s : State), (w = true → k.toNat < 32) →
    let x := s.core.a.rd a
    exec (.slli d a w k) s = .next (s.sends 1 d (formOf w (fun _ x _ => x <<< k.toNat) x 0)) ∧
    exec (.srli d a w k) s = .next (s.sends 1 d (formOf w (fun _ x _ => x >>> k.toNat) x 0)) ∧
    exec (.srai d a w k) s = .next (s.sends 1 d (formOf w (fun _ x _ => x.sshiftRight k.toNat) x 0)) ∧
    exec (.roli d a w k) s = .next (s.sends 1 d (formOf w (fun _ x _ => x.rotateLeft k.toNat) x 0)))

/-- R80 and R72: products after 3 bundles, quotients and remainders after 12; division by zero answers all ones and the
dividend. -/
def Claims.MultiplyDivideResults : Prop :=
  ∀ (d a b : Reg) (w : Bool) (s : State),
    let x := s.core.a.rd a
    let y := s.core.a.rd b
    exec (.mul d a b w) s = .next (s.sends 3 d (formOf w (fun _ x y => x * y) x y)) ∧
    exec (.mulh d a b w) s = .next (s.sends 3 d (formOf w (fun n x y => highHalf n (BitVec.signExtend (2 * n)) x y) x y)) ∧
    exec (.mulhu d a b w) s = .next (s.sends 3 d (formOf w (fun n x y => highHalf n (BitVec.setWidth (2 * n)) x y) x y)) ∧
    exec (.div d a b w) s = .next (s.sends 12 d (formOf w quotient x y)) ∧
    exec (.divu d a b w) s = .next (s.sends 12 d (formOf w (fun n x y => if y = 0 then BitVec.allOnes n else x / y) x y)) ∧
    exec (.rem d a b w) s = .next (s.sends 12 d (formOf w remainder x y)) ∧
    exec (.remu d a b w) s = .next (s.sends 12 d (formOf w (fun _ x y => if y = 0 then x else x % y) x y))

/-- R80, the bit counts. -/
def Claims.BitCountResults : Prop :=
  ∀ (d a : Reg) (w : Bool) (s : State),
    let x := s.core.a.rd a
    exec (.clz d a w) s = .next (s.sends 1 d (formOf w (fun n x _ => BitVec.ofNat n (leadingZeros x)) x 0)) ∧
    exec (.ctz d a w) s = .next (s.sends 1 d (formOf w (fun n x _ => BitVec.ofNat n (trailingZeros x)) x 0)) ∧
    exec (.popc d a w) s = .next (s.sends 1 d (formOf w (fun n x _ => BitVec.ofNat n (onesIn x)) x 0))

/-- The adder, logic, shift, multiply, divide and bit-count instructions complete with the results of their rules. -/
def Obligations.IntegerResults : Prop :=
  Claims.IntegerArithmeticResults ∧ Claims.ShiftResults ∧ Claims.MultiplyDivideResults ∧ Claims.BitCountResults

/-- R82, every immediate form. -/
def Claims.ImmediateResults : Prop :=
  ∀ (d a : Reg) (i : BitVec 16) (s : State),
    let x := s.core.a.rd a
    exec (.addi d a i) s = .next (s.sends 1 d (x + i.signExtend 64)) ∧
    exec (.andi d a i) s = .next (s.sends 1 d (x &&& i.signExtend 64)) ∧
    exec (.ori d a i) s = .next (s.sends 1 d (x ||| i.setWidth 64)) ∧
    exec (.xori d a i) s = .next (s.sends 1 d (x ^^^ i.setWidth 64)) ∧
    exec (.movhi d a i) s = .next (s.sends 1 d ((x.extractLsb' 0 48 ++ i : BitVec 64))) ∧
    exec (.addpc d i) s = .next (s.sends 1 d (s.core.a.pc + (i.signExtend 64) <<< 5))

/-- R84 to R86: compares, predicate logic and the select. -/
def Claims.CompareAndSelectResults : Prop :=
  (∀ (p : PredReg) (a b : Reg) (w : Bool) (c : Cond) (s : State),
    let x := s.core.a.rd a
    let y := s.core.a.rd b
    exec (.cmp p a b w c) s =
      .next (s.fly 1 0 [.p p (if w then condOn c (x.setWidth 32) (y.setWidth 32) else condOn c x y)])) ∧
  (∀ (p : PredReg) (c : Cond) (a : Reg) (i : BitVec 15) (s : State),
    exec (.cmpi p c a i) s = .next (s.fly 1 0 [.p p (condOn c (s.core.a.rd a) (i.signExtend 64))])) ∧
  (∀ (d pa pb : PredReg) (na nb : Bool) (s : State),
    let x := s.core.a.rdP pa ^^ na
    let y := s.core.a.rdP pb ^^ nb
    exec (.pand d pa na pb nb) s = .next (s.fly 1 0 [.p d (x && y)]) ∧
    exec (.por d pa na pb nb) s = .next (s.fly 1 0 [.p d (x || y)]) ∧
    exec (.pxor d pa na pb nb) s = .next (s.fly 1 0 [.p d (x ^^ y)])) ∧
  (∀ (d a b : Reg) (n : Bool) (p : PredReg) (s : State),
    exec (.sel d a b n p) s =
      .next (s.sends 1 d (s.core.a.rd (if (s.core.a.rdP p ^^ n) = true then a else b))))

/-- Immediates, comparisons, predicate logic and selection complete with the results of their rules. -/
def Obligations.ImmediateAndCompareResults : Prop :=
  Claims.ImmediateResults ∧ Claims.CompareAndSelectResults

/-- R87, R44: outside delay bundles a transfer sets the target aside for two bundles when it is taken, and changes nothing
else but the link. -/
def Claims.TransferEffects : Prop :=
  ∀ (s : State), s.core.a.pend = none →
    let rel (n : Nat) (o : BitVec n) : Word := s.core.a.pc + (o.signExtend 64) <<< 5
    exec .nopCtl s = .next s ∧
    (∀ (p : PredReg) (n : Bool) (o : BitVec 16),
      exec (.br p n o) s = .next (s.jumps (s.core.a.rdP p ^^ n) true (rel 16 o))) ∧
    (∀ (a : Reg) (o : BitVec 16),
      exec (.bz a o) s = .next (s.jumps (s.core.a.rd a == 0) true (rel 16 o)) ∧
      exec (.bnz a o) s = .next (s.jumps (s.core.a.rd a != 0) true (rel 16 o))) ∧
    (∀ (o : BitVec 26),
      exec (.jmp o) s = .next (s.jumps true true (rel 26 o)) ∧
      exec (.call o) s = .next ((s.jumps true false (rel 26 o)).sends 1 31 (s.core.a.pc + 96))) ∧
    (∀ (d a : Reg), (s.core.a.rd a).extractLsb' 0 5 = 0 →
      exec (.jr d a) s = .next ((s.jumps true false (s.core.a.rd a)).sends 1 d (s.core.a.pc + 96)))

/-- R89: LOOP at an inactive level, with an end bundle after it and not beyond the end of an active level, activates its
level with the body that starts at the next bundle, and a count of 0 skips the body, held as a pending transfer of no delay bundle
(that last the model's choice, log 69). -/
def Claims.LoopEffect : Prop :=
  ∀ (l : LoopNo) (a : Reg) (o : BitVec 16) (s : State),
    s.core.a.pend = none → s.core.a.loops[l].act = false → o ≠ 0 →
    let e := s.core.a.pc + (o.setWidth 64) <<< 5
    (∀ k : LoopNo, s.core.a.loops[k].act = true → e.ule s.core.a.loops[k].stop = true) →
    ∃ t, exec (.loop l a o) s = .next t ∧
      (if s.core.a.rd a = 0 then t.core.a.pend = some ⟨e + 32, 1, false⟩ ∧ t.core.a.loops = s.core.a.loops
       else t.core.a.pend = none ∧ t.core.a.order = l :: s.core.a.order ∧
        ∀ k : LoopNo, t.core.a.loops[k] =
          if k = l then ⟨true, s.core.a.pc + 32, e, (s.core.a.rd a).toNat⟩ else s.core.a.loops[k]) ∧
      t = { s with core := { s.core with a := { s.core.a with
        pend := t.core.a.pend, loops := t.core.a.loops, order := t.core.a.order } } }

/-- R44, R88, R89: a transfer or LOOP in a delay bundle raises ILLEGAL_OP, as does a LOOP of an active level, of an end that is the
LOOP's own bundle, or of one beyond the end of an active level; a JR to a target that is not 32-byte aligned raises MISALIGNED; all
at slot 0. -/
def Claims.TransferTraps : Prop :=
  (∀ (p : PredReg) (n : Bool) (o : BitVec 16) (j : BitVec 26) (d a : Reg) (l : LoopNo) (s : State),
    s.core.a.pend.isSome = true →
    ∀ i ∈ ([.br p n o, .bz a o, .bnz a o, .jmp j, .call j, .jr d a, .loop l a o] : List Instr),
      exec i s = .next (s.fault 0 .illegalOp (word (s.core.a.words.getD 0 0)))) ∧
  (∀ (d a : Reg) (s : State), s.core.a.pend = none → (s.core.a.rd a).extractLsb' 0 5 ≠ 0 →
    exec (.jr d a) s = .next (s.fault 0 .misaligned (s.core.a.rd a))) ∧
  (∀ (l : LoopNo) (a : Reg) (o : BitVec 16) (s : State), s.core.a.pend = none →
    let e := s.core.a.pc + (o.setWidth 64) <<< 5
    (s.core.a.loops[l].act = true ∨ o = 0 ∨
      ∃ k : LoopNo, s.core.a.loops[k].act = true ∧ (s.core.a.loops[k].stop).ult e = true) →
    exec (.loop l a o) s = .next (s.fault 0 .illegalOp (word (s.core.a.words.getD 0 0))))

/-- Branches, jumps, calls and loops: where they go, and where they trap. -/
def Obligations.TransferResults : Prop :=
  Claims.TransferEffects ∧ Claims.LoopEffect ∧ Claims.TransferTraps

/-- R92, R93: the ctl arithmetic rounds the exact result by its mode, after 4 bundles, or 14 for the quotient and the root. -/
def Claims.ScalarFloatResults : Prop :=
  (∀ (d a b : Reg) (r : Round) (s : State),
    let x := fpOf (s.core.a.rd a)
    let y := fpOf (s.core.a.rd b)
    let z := fpOf (s.core.a.rd d)
    exec (.fadd d a b r) s = .next (s.sendsF32 4 d r (ExtNum.add r x y)) ∧
    exec (.fsub d a b r) s = .next (s.sendsF32 4 d r (ExtNum.add r x y.neg)) ∧
    exec (.fmul d a b r) s = .next (s.sendsF32 4 d r (x.mul y)) ∧
    exec (.fdiv d a b r) s = .next (s.sendsF32 14 d r (x.div y)) ∧
    exec (.fsqrt d a r) s = .next (s.sendsF32 14 d r x.sqrt) ∧
    exec (.ffma d a b r) s = .next (s.sendsF32 4 d r (ExtNum.add r (x.mul y) z)) ∧
    exec (.ffms d a b r) s = .next (s.sendsF32 4 d r (ExtNum.add r (x.mul y) z.neg)) ∧
    exec (.ffnma d a b r) s = .next (s.sendsF32 4 d r (ExtNum.add r (x.mul y).neg z)) ∧
    exec (.ffnms d a b r) s = .next (s.sendsF32 4 d r (ExtNum.add r (x.mul y).neg z.neg))) ∧
  (∀ (d a b : Reg) (s : State),
    let x := fpOf (s.core.a.rd a)
    let y := fpOf (s.core.a.rd b)
    let pick (yes : Bool) : BitVec 32 :=
      if x.isNaN || y.isNaN then 0x7FC00000 else (s.core.a.rd (if yes then b else a)).extractLsb' 0 32
    let out (i : Instr) (z : BitVec 32) : Prop := exec i s = .next (s.sendsChecked 4 d (f32.shadow z.toNat) (z.setWidth 64))
    out (.fmin d a b) (pick (y.ltZ x)) ∧ out (.fmax d a b) (pick (x.ltZ y)))

/-- R94: each conversion reads its source at its place, rounds by its mode, and leaves the bits above the placement zero or
sign-extended, after 3 bundles. The shadow of an integer result, and rounding to odd to an integer, are the model's choices (logs 26,
68 and 70). -/
def Claims.ScalarConversionResults : Prop :=
  ∀ (d a : Reg) (r : Round) (s : State),
    let x := s.core.a.rd a
    let lo (w : Nat) : Nat := (x.extractLsb' 0 w).toNat
    let int (i : Instr) (n : Int) (y : Word) : Prop := exec i s = .next (s.sendsChecked 3 d (intShadow n) y)
    let fp (i : Instr) (f : FpFmt) (w : Nat) : Prop :=
      exec i s = .next (s.sendsChecked 3 d (f.shadow (f.round r (fpOf x))) ((BitVec.ofNat w (f.round r (fpOf x))).setWidth 64))
    let i64 := toIntRange r (-(2 ^ 63)) (2 ^ 63 - 1) (fpOf x)
    let u64 := toIntRange r 0 (2 ^ 64 - 1) (fpOf x)
    let i32 := toIntRange r (-(2 ^ 31)) (2 ^ 31 - 1) (fpOf x)
    let u32 := toIntRange r 0 (2 ^ 32 - 1) (fpOf x)
    let single (i : Instr) (v : ExtNum) : Prop := exec i s = .next (s.sendsF32 3 d r v)
    int (.fcvtI64F32 d a r) i64 (BitVec.ofInt 64 i64) ∧
    int (.fcvtUi64F32 d a r) u64 (BitVec.ofInt 64 u64) ∧
    int (.fcvtI32F32 d a r) i32 ((BitVec.ofInt 32 i32).signExtend 64) ∧
    int (.fcvtUi32F32 d a r) u32 ((BitVec.ofInt 32 u32).setWidth 64) ∧
    single (.fcvtF32I64 d a r) (ofInt x.toInt) ∧
    single (.fcvtF32Ui64 d a r) (ofInt x.toNat) ∧
    single (.fcvtF32I32 d a r) (ofInt (x.extractLsb' 0 32).toInt) ∧
    single (.fcvtF32Ui32 d a r) (ofInt (lo 32)) ∧
    fp (.fcvtB16F32 d a r) bf16 16 ∧
    fp (.fcvtF16F32 d a r) f16 16 ∧
    fp (.fcvtF8aF32 d a r) f8a 8 ∧
    fp (.fcvtF8bF32 d a r) f8b 8 ∧
    single (.fcvtF32B16 d a r) (bf16.decode (lo 16)) ∧
    single (.fcvtF32F16 d a r) (f16.decode (lo 16)) ∧
    single (.fcvtF32F8a d a r) (f8a.decode (lo 8)) ∧
    single (.fcvtF32F8b d a r) (f8b.decode (lo 8)) ∧
    single (.frint d a r) ((fpOf x).rint r)

/-- R95: the predicates of the FP compares, after one bundle, checked by the shadow (that last by R96; that compares are checked,
and the shadow of a predicate, are the model's choices, logs 26 and 68). -/
def Claims.ScalarFloatCompareResults : Prop :=
  ∀ (p : PredReg) (a b : Reg) (s : State),
    let x := fpOf (s.core.a.rd a)
    let y := fpOf (s.core.a.rd b)
    let out (i : Instr) (c : Bool) : Prop := exec i s = .next ((s.shadow 1 0 [intShadow (if c then 1 else 0)]).fly 1 0 [.p p c])
    out (.feq p a b) (x.eqv y) ∧ out (.flt p a b) (x.lt y) ∧ out (.fle p a b) (x.lt y || x.eqv y) ∧
    out (.fUn p a b) (x.isNaN || y.isNaN)

/-- FP arithmetic, conversions and comparisons of the ctl slot complete with the rounded results. -/
def Obligations.ScalarFloatInstructions : Prop :=
  Claims.ScalarFloatResults ∧ Claims.ScalarConversionResults ∧ Claims.ScalarFloatCompareResults

/-- The arithmetic of exact values is that of the rationals, and so are its comparisons. -/
def Obligations.ExactArithmeticIsRational : Prop :=
  ∀ (x y : ExtNum) (p q : Rat) (m : Round), x.val? = some p → y.val? = some q →
    (ExtNum.add m x y).val? = some (p + q) ∧ (x.mul y).val? = some (p * q) ∧ x.neg.val? = some (-p) ∧
    (q ≠ 0 → (x.div y).val? = some (p / q)) ∧ (x.lt y = true ↔ p < q) ∧ (x.eqv y = true ↔ p = q)

/-- R64: a value that a format represents rounds to itself in every mode. -/
def Claims.RoundingKeepsRepresentable : Prop :=
  ∀ f ∈ binaryFormats, ∀ (m : Round) (c : Nat), c < 2 * f.signBit → (f.decode c).val? ≠ none →
    f.round m (f.decode c) = c

/-- R64: where a positive value does not exceed the largest of the format, each mode gives the neighbour it names; a negative
value rounds as its magnitude does, up and down exchanged. -/
def Claims.RoundingPicksNeighbour : Prop :=
  ∀ f ∈ binaryFormats, ∀ (n d : Nat), 0 < n → 0 < d →
    let x := ExtNum.fin false n d
    let two := ExtNum.fin false (2 * n) d
    (f.decode f.maxCode).lt x = false →
    (∀ m ∈ ([.rtz, .rdn] : List Round), let c := f.round m x;
      c ≤ f.maxCode ∧ x.lt (f.decode c) = false ∧ (c < f.maxCode → x.lt (f.decode (c + 1)) = true)) ∧
    (let c := f.round .rup x;
      c ≤ f.maxCode ∧ (f.decode c).lt x = false ∧ (0 < c → (f.decode (c - 1)).lt x = true)) ∧
    (let c := f.round .rne x;
      let mid (k : Nat) := ExtNum.add .rne (f.decode k) (f.decode (k + 1));
      c ≤ f.maxCode ∧
      (0 < c → two.lt (mid (c - 1)) = false ∧ (two.eqv (mid (c - 1)) = true → c % 2 = 0)) ∧
      (c < f.maxCode → (mid c).lt two = false ∧ (two.eqv (mid c) = true → c % 2 = 0))) ∧
    (f.round .rod x =
      if (f.decode (f.round .rtz x)).eqv x then f.round .rtz x else f.round .rtz x / 2 * 2 + 1) ∧
    (∀ m : Round, f.round m (.fin true n d) = f.signBit +
      f.round (match m with | .rup => .rdn | .rdn => .rup | k => k) x)

/-- Rounding keeps what the format represents, and picks the neighbour that the mode names. -/
def Obligations.RoundingFollowsTheMode : Prop :=
  Claims.RoundingKeepsRepresentable ∧ Claims.RoundingPicksNeighbour

/-- R97: RDSR sends the value that the register has at issue; each status word has its fields where its rule puts them. -/
def Claims.SystemRegisterReads : Prop :=
  (∀ (d : Reg) (i : SysReg) (s : State), exec (.rdsr d i) s = .next (s.sends 1 d (s.sysRead i))) ∧
  (∀ s : State, s.sysRead .tcause = s.core.a.tcause ∧ s.sysRead .tval = s.core.a.tval ∧ s.sysRead .tpc = s.core.a.tpc ∧
    s.sysRead .utvec = s.core.a.utvec ∧ s.sysRead .frame = s.frame ∧ s.sysRead .taskid = s.core.a.tcb ∧
    s.sysRead .stw = s.core.stwFields ∧ s.sysRead .melt = s.meltFields ∧ s.sysRead .lease = s.leaseFields ∧
    s.sysRead .cover = s.core.coverFields ∧ s.sysRead .errcnt = s.core.errFields ∧
    (s.sysRead .segst).extractLsb' 32 32 = 0 ∧
    (∀ j : Fin 16, (s.sysRead .segst).extractLsb' (2 * j.val) 2 = BitVec.ofNat 2 (s.core.a.segs[j]).code) ∧
    (∀ x d v, s.ctx? s.core.a.ctx = some x → x.vOf s.core.id = some (d, v) → d < 256 → v < 256 →
      s.sysRead .vdid = (0#48 ++ BitVec.ofNat 8 d ++ BitVec.ofNat 8 v : Word)))

/-- R97, R308: a WRSR to UTVEC or to the SRES of STW governs the next bundle, other writes to STW change nothing, an
unaligned UTVEC raises MISALIGNED and a register that is only read raises PROT with its index. -/
def Claims.SystemRegisterWrites : Prop :=
  ∀ (a : Reg) (s : State),
    let x := s.core.a.rd a
    (x.extractLsb' 0 5 = 0 → exec (.wrsr a .utvec) s = .next (s.fly 1 0 [.utvec x])) ∧
    (x.extractLsb' 0 5 ≠ 0 → exec (.wrsr a .utvec) s = .next (s.fault 0 .misaligned x)) ∧
    exec (.wrsr a .stw) s = .next
      (if s.core.a.ut = true ∧ s.core.a.sres ≤ x.extractLsb' 0 4 ∧ x.extractLsb' 0 4 ≤ 8
       then s.fly 1 0 [.sres (x.extractLsb' 0 4)] else s) ∧
    (∀ r ∈ ([.tcause, .tval, .tpc, .frame, .melt, .lease, .segst, .cover, .taskid, .vdid, .errcnt] : List SysReg),
      exec (.wrsr a r) s = .next (s.fault 0 .prot (word r.code)))

/-- What RDSR reads and WRSR writes. -/
def Obligations.SpecialRegisterAccess : Prop :=
  Claims.SystemRegisterReads ∧ Claims.SystemRegisterWrites

/-- R148, R149, R151: port commands take effect for the next bundle, a configuration write to an active port raises
ILLEGAL_OP, GSTAT sends the status word, and VSETK sends k; GSTART and GSEEK begin the prefetch anew (R145). -/
def Obligations.PortAndConstantCommands : Prop :=
  ∀ (d a : Reg) (g : Port) (t : PortWord) (s : State),
    let x := s.core.a.rd a
    exec (.gcfg a t g) s = .next
      (if s.core.a.ports[g].act then s.fault 0 .illegalOp (word (s.core.a.words.getD 0 0))
       else s.fly 1 0 [.port g (.cfg t x)]) ∧
    exec (.gstart g) s = .next ((s.fly 1 0 [.port g .start]).restartPrefetch g) ∧
    exec (.gstop g) s = .next (s.fly 1 0 [.port g .stop]) ∧
    exec (.gstat d g) s = .next (s.sends 1 d s.core.a.ports[g].statusFields) ∧
    exec (.gseek a g) s = .next ((s.fly 1 0 [.port g (.seek (x.toNat % s.core.a.ports[g].count))]).restartPrefetch g) ∧
    exec (.vsetk a) s = .next (s.fly 1 0 [.k (x.extractLsb' 0 32)]) ∧
    exec (.vsetkH a) s = .next (s.fly 1 0 [.k (x.extractLsb' 0 16 ++ x.extractLsb' 0 16)])

/-- R161, with R142, R144, R147 and R150: the operands of a vector instruction raise a fault exactly when one is not ready. -/
def Obligations.VectorOperandFaults : Prop :=
  ∀ (c : Core) (slot : Nat) (srcs : List VSrc) (d : VDst),
    c.vecFault slot srcs d = none ↔ c.operandsReady srcs d = true

/-- R157, R158, R160, R162, R163: the elementwise arithmetic of each type, at 4 bundles for the floating-point types and 2 for
the integers; an absolute value and a negation take 2. -/
def Claims.VectorArithmeticResults : Prop :=
  ∀ (u : VUnit) (d : VDst) (a b : VSrc) (t : VType) (m : MaskReg) (s : State),
    let x := s.core.readV a
    let y := s.core.readV b
    let g := s.core.a.rdM m
    let lat := if (vfmt t).isSome then 4 else 2
    let two (i : Instr) (l : Nat) (fi : (w : Nat) → BitVec w → BitVec w → BitVec w) (ff : ExtNum → ExtNum → ExtNum) : Prop :=
      exec i s = .next ((s.taken [a, b]).delivers l (VUnit.slot u) d t g
        (underMask g x (fun i => onElems t fi ff (x.lane i) (y.lane i))))
    let one (i : Instr) (fi : (w : Nat) → BitVec w → BitVec w → BitVec w) (ff : ExtNum → ExtNum) : Prop :=
      exec i s = .next ((s.taken [a]).delivers 2 (VUnit.slot u) d t g
        (underMask g x (fun i => onElems t fi (fun v _ => ff v) (x.lane i) 0)))
    (s.core.operandsReady [a, b] d = true →
      two (.vadd u d a b t m) lat (fun _ x y => x + y) (ExtNum.add .rne) ∧
      two (.vsub u d a b t m) lat (fun _ x y => x - y) (fun v w => ExtNum.add .rne v w.neg) ∧
      two (.vmul u d a b t m) lat (fun _ x y => x * y) ExtNum.mul ∧
      two (.vmin u d a b t m) lat (fun _ x y => if lessIn t y x then y else x) ExtNum.min ∧
      two (.vmax u d a b t m) lat (fun _ x y => if lessIn t x y then y else x) ExtNum.max ∧
      (t.isInt = true → two (.vmulh u d a b t m) 2 (fun w x y => highHalf w (extendIn t w) x y) ExtNum.mul)) ∧
    (s.core.operandsReady [a] d = true →
      one (.vabs u d a t m) (fun _ x _ => if x.msb then -x else x) ExtNum.abs ∧
      one (.vneg u d a t m) (fun _ x _ => -x) ExtNum.neg)

/-- R157, R158, R160, R162: the logic of 32-bit lanes and the shifts of integer elements, at 2 bundles. -/
def Claims.VectorLogicAndShiftResults : Prop :=
  ∀ (u : VUnit) (d : VDst) (a b : VSrc) (t : VType) (m : MaskReg) (s : State),
    s.core.operandsReady [a, b] d = true →
    let x := s.core.readV a
    let y := s.core.readV b
    let two (i : Instr) (f : Lane → Lane → Lane) : Prop :=
      exec i s = .next ((s.taken [a, b]).deliver 2 (VUnit.slot u) d []
        (underMask (s.core.a.rdM m) x (fun i => f (x.lane i) (y.lane i))))
    two (.vand u d a b m) (fun x y => x &&& y) ∧ two (.vor u d a b m) (fun x y => x ||| y) ∧
    two (.vxor u d a b m) (fun x y => x ^^^ y) ∧ two (.vandn u d a b m) (fun x y => x &&& ~~~y) ∧
    (t.isInt = true →
      two (.vshl u d a b t m) (onElems t (fun w x y => x <<< (y.toNat % w)) ExtNum.mul) ∧
      two (.vshr u d a b t m) (onElems t (fun w x y =>
        if t = .ui32 then x >>> (y.toNat % w) else x.sshiftRight (y.toNat % w)) ExtNum.mul))

/-- R167, R173: the selects, moves and permutations, and the no-op of a vector slot. -/
def Claims.VectorMoveResults : Prop :=
  ∀ (u : VUnit) (d : VDst) (a b : VSrc) (m : MaskReg) (s : State),
    let x := s.core.readV a
    let y := s.core.readV b
    let g := s.core.a.rdM m
    exec (.nopVec u) s = .next s ∧
    (s.core.operandsReady [a] d = true →
      exec (.vmov u d a) s = .next ((s.taken [a]).deliver 2 (VUnit.slot u) d [] x)) ∧
    (s.core.operandsReady [a, b] d = true →
      exec (.vsel u d a b m) s =
        .next ((s.taken [a, b]).deliver 2 (VUnit.slot u) d [] (underMask g y (fun i => x.lane i))) ∧
      exec (.vperm d a b m) s = .next ((s.taken [a, b]).deliver 8 2 d []
        (underMask g x (fun i => x.lane ((y.lane i).extractLsb' 0 7).toNat))) ∧
      exec (.vrot d a b m) s = .next ((s.taken [a, b]).deliver 8 2 d []
        (underMask g x (fun i => x.lane ((i + ((y.lane 0).extractLsb' 0 7).toNat) % 128)))))

/-- Arithmetic, logic, shifts and moves on lanes. -/
def Obligations.VectorElementResults : Prop :=
  Claims.VectorArithmeticResults ∧ Claims.VectorLogicAndShiftResults ∧ Claims.VectorMoveResults

/-- R168: VCVT converts element by element; a widening takes part P of the source's elements, and a narrowing fills part P of the
result and leaves the other elements zero. -/
def Claims.VectorConvertResults : Prop :=
  ∀ (u : VUnit) (d : VDst) (a : VSrc) (p : BitVec 2) (dst src : VType) (m : MaskReg) (s : State),
    vcvtWf p dst src m = true → s.core.operandsReady [a] d = true →
    let x := s.core.readV a
    let ns := 128 * perLane src
    let nd := 128 * perLane dst
    ∃ y : Vec, exec (.vcvt u d a p dst src m) s =
        .next ((s.taken [a]).delivers 4 (VUnit.slot u) d dst
          (if src.bits = dst.bits then s.core.a.rdM m else BitVec.allOnes 128) y) ∧
      ∀ n, n < nd → vecElem dst y n =
        if src.bits = dst.bits then
          if (s.core.a.rdM m).getLsbD (n / perLane dst) then cvtElem dst src (vecElem src x n)
          else laneElem dst (x.lane (n / perLane dst)) (n % perLane dst)
        else if src.bits < dst.bits then cvtElem dst src (vecElem src x (n + p.toNat * nd))
        else if p.toNat * ns ≤ n ∧ n < (p.toNat + 1) * ns then cvtElem dst src (vecElem src x (n - p.toNat * ns))
        else 0

/-- R169 to R172: a tag vector whose lane 0 names no format raises BAD_TAG, and for the last two a bad scale does; otherwise VSCALE
answers the tag vector of computed scales, VQNT packs the codes and VUNPK expands them. -/
def Claims.VectorBlockResults : Prop :=
  ∀ (u : VUnit) (d : VDst) (a b : VSrc) (m : MaskReg) (s : State), s.core.operandsReady [a, b] d = true →
    let x := s.core.readV a
    let y := s.core.readV b
    let tag : Word := (y.lane 0).setWidth 64
    let g := s.core.a.rdM m
    let val (i : Nat) : ExtNum := if g.getLsbD i then num32 (x.lane i).toNat else .fin false 0 1
    match tagHeadFmt tag with
    | none => ∀ i ∈ ([.vscale u d a b m, .vqnt u d a b m, .vunpk u d a b] : List Instr),
        exec i s = .next (s.fault (VUnit.slot u) .badTag tag)
    | some f =>
      (∃ r : Vec, exec (.vscale u d a b m) s = .next ((s.taken [a, b]).deliver 6 (VUnit.slot u) d
          ((List.range (128 / f.elems)).map (fun i => f32.shadow (r.lane (i + 1)).toNat)) r) ∧
        r.lane 0 = y.lane 0 ∧
        ∀ i, i < 127 → r.lane (i + 1) =
          if i < 128 / f.elems then
            BitVec.ofNat 32 (blockScale ((List.range f.elems).map (fun n => val (i * f.elems + n))) f (tagXv tag))
          else 0) ∧
      ((∃ j, j < 128 / f.elems ∧ scaleOk (y.lane (1 + j)).toNat = false) →
        ∀ i ∈ ([.vqnt u d a b m, .vunpk u d a b] : List Instr),
          exec i s = .next (s.fault (VUnit.slot u) .badTag tag)) ∧
      ((∀ j, j < 128 / f.elems → scaleOk (y.lane (1 + j)).toNat = true) →
        (∃ r : Vec, exec (.vqnt u d a b m) s = .next ((s.taken [a, b]).deliver 4 (VUnit.slot u) d [] r) ∧
          (∀ n, n < 128 → elemCode f (r.granule (n / f.elems)) (n % f.elems) =
            quantise (val n) (y.lane (1 + n / f.elems)).toNat f (tagXv tag) .rne) ∧
          ∀ j, 128 / f.elems ≤ j → j < 8 → r.granule j = 0) ∧
        (∃ r : Vec, exec (.vunpk u d a b) s = .next ((s.taken [a, b]).delivers 4 (VUnit.slot u) d .f32 (BitVec.allOnes 128) r) ∧
          ∀ n, n < 128 → r.lane n = BitVec.ofNat 32 (f32.round .rne (elemValue f
            ((y.lane (1 + n / f.elems)) ++ (y.lane 0)) (x.granule (n / f.elems)) (n % f.elems)))))

/-- R165, R166, R177: the masks land after 2 bundles, a masked-off compare gives 0, and VCHK starts a check of its lowest
differing lane. -/
def Claims.VectorMaskResults : Prop :=
  (∀ (u : VUnit) (k a b : MaskReg) (s : State),
    let x := s.core.a.rdM a
    let y := s.core.a.rdM b
    let out (i : Instr) (z : Mask) : Prop := exec i s = .next (s.fly 2 (VUnit.slot u) [.m k z])
    out (.vmaskAnd u k a b) (x &&& y) ∧ out (.vmaskOr u k a b) (x ||| y) ∧ out (.vmaskXor u k a b) (x ^^^ y) ∧
    out (.vmaskAndn u k a b) (x &&& ~~~y) ∧ out (.vmaskNot u k a) (~~~x)) ∧
  (∀ (u : VUnit) (k : MaskReg) (a : VSrc) (s : State), s.core.operandsReady [a] .queue = true →
    let x := s.core.readV a
    ∃ y z : Mask, exec (.vmaskNz u k a) s = .next ((s.taken [a]).fly 2 (VUnit.slot u) [.m k y]) ∧
      exec (.vmaskCnt u k a) s = .next ((s.taken [a]).fly 2 (VUnit.slot u) [.m k z]) ∧
      ∀ i, i < 128 → y.getLsbD i = (x.lane i != 0) ∧ z.getLsbD i = decide (i < (x.lane 0).toNat)) ∧
  (∀ (u : VUnit) (c : VCond) (k : MaskReg) (a b : VSrc) (t : VType) (m : MaskReg) (s : State),
    t.isWhole = true → s.core.operandsReady [a, b] .queue = true →
    let x := s.core.readV a
    let y := s.core.readV b
    ∃ z : Mask, exec (.vcmp u c k a b t m) s = .next ((s.taken [a, b]).fly 2 (VUnit.slot u) [.m k z]) ∧
      ∀ i, i < 128 → z.getLsbD i = ((s.core.a.rdM m).getLsbD i &&
        (let p := x.lane i; let q := y.lane i; let v := num32 p.toNat; let w := num32 q.toNat
         match t, c with
         | .f32, .eq => v.eqv w
         | .f32, .ne => !v.eqv w
         | .f32, .lt => v.lt w
         | .f32, .le => v.lt w || v.eqv w
         | .f32, .gt => w.lt v
         | .f32, .ge => w.lt v || w.eqv v
         | .f32, .tst => v.isNaN || w.isNaN
         | _, .eq => p == q
         | _, .ne => p != q
         | _, .lt => lessIn t p q
         | _, .le => !lessIn t q p
         | _, .gt => lessIn t q p
         | _, .ge => !lessIn t p q
         | _, .tst => (p &&& q) != 0))) ∧
  (∀ (u : VUnit) (a b : VSrc) (m : MaskReg) (s : State), s.core.operandsReady [a, b] .queue = true →
    let differ (i : Nat) : Bool := (s.core.a.rdM m).getLsbD i && (s.core.readV a).lane i != (s.core.readV b).lane i
    ∃ (r : Option Nat) (t : State), exec (.vchk u a b m) s = .next t ∧
      t = (s.taken [a, b]).modA (fun x =>
        { x with checks := x.checks ++ [⟨2, VUnit.slot u, s.core.seq, s.core.a.pc, true, r, []⟩] }) ∧
      (∀ i, r = some i → i < 128 ∧ differ i = true ∧ ∀ j, j < i → differ j = false) ∧
      (r = none → ∀ i, i < 128 → differ i = false))

/-- Conversions, block formats and masks. -/
def Obligations.VectorFormatAndMaskResults : Prop :=
  Claims.VectorConvertResults ∧ Claims.VectorBlockResults ∧ Claims.VectorMaskResults

/-- R164 and R175 with R73: the fused multiply-add rounds once, to the queue alone, and the transcendentals of vb round once after
12 bundles (how the exact value of an elementary function is approximated for its rounding is the model's choice, log 62). -/
def Claims.VectorFmaAndTranscendentals : Prop :=
  (∀ (u : VUnit) (c a b : VSrc) (t : VType) (f : FpFmt) (m : MaskReg) (s : State),
    vfmt t = some f → s.core.operandsReady [a, b, c] .queue = true →
    let x := s.core.readV a
    let y := s.core.readV b
    let z := s.core.readV c
    exec (.vfma u c a b t m) s = .next ((s.taken [a, b, c]).delivers 5 (VUnit.slot u) .queue t (s.core.a.rdM m)
      (underMask (s.core.a.rdM m) z (fun i => laneOf t (fun e =>
        f.round .rne (ExtNum.add .rne ((f.decode (laneElem t (x.lane i) e)).mul (f.decode (laneElem t (y.lane i) e)))
          (f.decode (laneElem t (z.lane i) e)))))))) ∧
  (∀ (d : VDst) (a : VSrc) (m : MaskReg) (s : State), s.core.operandsReady [a] d = true →
    let x := s.core.readV a
    let out (i : Instr) (f : ExtNum → ExtNum) : Prop :=
      exec i s = .next ((s.taken [a]).delivers 12 3 d .f32 (s.core.a.rdM m)
        (underMask (s.core.a.rdM m) x (fun i => BitVec.ofNat 32 (f32.round .rne (f (num32 (x.lane i).toNat))))))
    out (.vexp2 d a m) ExtNum.exp2 ∧ out (.vlog2 d a m) ExtNum.log2 ∧ out (.vrcp d a m) ExtNum.rcp ∧ out (.vrsq d a m) ExtNum.rsqrt)

/-- R174 with R74: the reductions follow the fixed tree over the lanes, a masked-off lane entering as the identity, and put the
root in every lane; the scan joins the nodes that cover lanes 0 to i (that lane 0, which no node joins, passes as it stands is the
model's choice, log 72). -/
def Claims.VectorReductionResults : Prop :=
  ∀ (d : VDst) (a : VSrc) (t : VType) (m : MaskReg) (s : State), t.isWhole = true → s.core.operandsReady [a] d = true →
    let x := s.core.readV a
    let f := t == .f32
    let addF (x y : Lane) : Lane :=
      if f then BitVec.ofNat 32 (f32.round .rne (ExtNum.add .rne (num32 x.toNat) (num32 y.toNat))) else x + y
    let maxF (x y : Lane) : Lane :=
      if f then BitVec.ofNat 32 (f32.round .rne ((num32 x.toNat).max (num32 y.toNat)))
      else if lessIn t x y then y else x
    let lanes (e : Lane) (i : Nat) : Lane := if (s.core.a.rdM m).getLsbD i then x.lane i else e
    let zero : Lane := if f then 0x80000000 else 0
    let least : Lane := if f then 0xFF800000 else if t = .ui32 then 0 else 0x80000000
    let out (i : Instr) (y : Vec) : Prop := exec i s = .next ((s.taken [a]).delivers 8 2 d t (BitVec.allOnes 128) y)
    out (.vrsum d a t m) (Vec.ofFn (fun _ => fixedNode addF (lanes zero) 7 0)) ∧
    out (.vrmax d a t m) (Vec.ofFn (fun _ => fixedNode maxF (lanes least) 7 0)) ∧
    out (.vscan d a t m) (Vec.ofFn (fun i => (fixedCover addF (lanes zero) 8 0 (i + 1) none).getD 0))

/-- Fused sums, reductions, scans and the elementary functions. -/
def Obligations.VectorSumsAndFunctions : Prop :=
  Claims.VectorFmaAndTranscendentals ∧ Claims.VectorReductionResults

/-- R40, R99, R107, with R256, R260, R267 and R280: the faults of a mem access at issue, in their order.
An access that breaks no rule has none. That an access across two windows raises PROT is the model's reading, log 24, and that a merge
routine of a restartable task may write its destination, log 106. -/
def Claims.MemoryFaultOrder : Prop :=
  ∀ (s : State) (store spadOnly : Bool) (n align : Nat) (ea : Word), 0 < n →
    let va := ea.toNat
    let a := s.core.a
    let allowed : Prop := reaches va n ∧ (spadOnly = true → inSpad va = true) ∧
      (store = true → (∀ d z, a.merging = some (d, z) → d ≤ va ∧ va + n ≤ d + z) ∧
        (inSpad va = true → spadOff ea + n ≤ a.barBase ∨ a.barBase + 512 ≤ spadOff ea))
    let early : Prop := a.frozen0 = true ∧ ∃ w ∈ a.views, w.base < va + n ∧ va < w.base + w.size
    let outside : Prop := store = true ∧ s.restartable = true ∧ inSpad va = false ∧ a.merging = none ∧
      (∃ i, i < n ∧ ∀ w ∈ a.views, va + i < w.base ∨ w.base + w.size ≤ va + i) ∧
      ∀ w ∈ a.views, w.pool = true → va < w.addr ∨ w.addr + w.size < va + n
    let f := s.memFault store spadOnly n align ea
    (¬allowed → f = some (.prot, ea)) ∧
    (allowed → va % align ≠ 0 → f = some (.misaligned, ea)) ∧
    (allowed → va % align = 0 → early → f = some (.viewOrder, ea)) ∧
    (allowed → va % align = 0 → ¬early → outside → f = some (.restartViolation, ea)) ∧
    (allowed → va % align = 0 → ¬early → ¬outside → f = none)

/-- R99, R107: a load, store or tag access that breaks a rule of issue traps at slot 1 with the fault of that rule and has
no other effect. -/
def Claims.MemoryInstructionsTrapAtIssue : Prop :=
  ∀ (d a : Reg) (o : BitVec 10) (r : Order) (z : Size) (m : ScaleMode) (s : State) (c : Cause) (x : Word),
    let n := Size.bytes z
    (s.memFault false false n n (s.addr a o n) = some (c, x) →
      exec (.ld d a o r z) s = .next (s.fault 1 c x) ∧ exec (.lds d a o r z) s = .next (s.fault 1 c x)) ∧
    (s.memFault true false n n (s.addr a o n) = some (c, x) → exec (.st d a o r z) s = .next (s.fault 1 c x)) ∧
    (s.memFault false false 512 64 (s.addr a o 64) = some (c, x) → exec (.ldv d a o r) s = .next (s.fault 1 c x)) ∧
    (s.memFault true false 512 64 (s.addr a o 64) = some (c, x) → exec (.stv d a o r) s = .next (s.fault 1 c x)) ∧
    (s.memFault false false 64 64 (s.addr a o 64) = some (c, x) →
      exec (.ldx d a o r) s = .next (s.fault 1 c x) ∧ exec (.ldt d a o r) s = .next (s.fault 1 c x)) ∧
    (s.memFault true true 64 64 (s.addr a o 64) = some (c, x) →
      exec (.stt d a o r) s = .next (s.fault 1 c x) ∧ exec (.stpk d a o r m) s = .next (s.fault 1 c x))

/-- R123, R115: an access of the own scratchpad that touches a poisoned granule raises POISON with the lowest such granule (for
stores the model's reading, log 25), and an STT of a POISON tag raises BAD_TAG. -/
def Claims.PoisonTraps : Prop :=
  ∀ (d a : Reg) (o : BitVec 10) (r : Order) (z : Size) (s : State) (g : Nat),
    let first (off n : Nat) : Prop := isPoison (s.core.spadTag g) = true ∧ off / 64 ≤ g ∧ g * 64 < off + n ∧
      ∀ j, off / 64 ≤ j → j < g → isPoison (s.core.spadTag j) = false
    (let n := Size.bytes z
     let ea := s.addr a o n
     inSpad ea.toNat = true → first (spadOff ea) n →
      (s.memFault false false n n ea = none → ∀ i ∈ ([.ld d a o r z, .lds d a o r z] : List Instr),
        exec i s = .next (s.fault 1 .poison (spadVa (64 * g)))) ∧
      (s.memFault true false n n ea = none → exec (.st d a o r z) s = .next (s.fault 1 .poison (spadVa (64 * g))))) ∧
    (let ea := s.addr a o 64
     inSpad ea.toNat = true →
      (first (spadOff ea) 512 →
        (s.memFault false false 512 64 ea = none → exec (.ldv d a o r) s = .next (s.fault 1 .poison (spadVa (64 * g)))) ∧
        (s.memFault true false 512 64 ea = none → exec (.stv d a o r) s = .next (s.fault 1 .poison (spadVa (64 * g))))) ∧
      (s.memFault true true 64 64 ea = none → s.core.clean (spadOff ea) 64 → isPoison (s.core.a.rd d) = true →
        exec (.stt d a o r) s = .next (s.fault 1 .badTag ea)) ∧
      (first (spadOff ea) 64 →
        (s.memFault false false 64 64 ea = none → exec (.ldt d a o r) s = .next (s.fault 1 .poison (spadVa (64 * g)))) ∧
        (s.memFault true true 64 64 ea = none → exec (.stt d a o r) s = .next (s.fault 1 .poison (spadVa (64 * g))))))

/-- R113, R114, R57: LDX from the own scratchpad raises POISON or BAD_TAG with the first of its granules whose tag stops it, after
PROT for granules past the window; STPK raises POISON for any granule that it writes before BAD_TAG for the first tag, and that before
BAD_TAG for a scale that it keeps. -/
def Claims.TaggedAccessTraps : Prop :=
  ∀ (d a : Reg) (o : BitVec 10) (r : Order) (m : ScaleMode) (s : State),
    let ea := s.addr a o 64
    let tag (j : Nat) : Word := s.core.spadTag (spadOff ea / 64 + j)
    let at_ (j : Nat) : Word := ea + BitVec.ofNat 64 (64 * j)
    (s.memFault false false 64 64 ea = none → inSpad ea.toNat = true →
      let out (c : Cause) (x : Word) : Prop := exec (.ldx d a o r) s = .next (s.fault 1 c x)
      (isPoison (tag 0) = true → out .poison ea) ∧
      (isPoison (tag 0) = false → Fmt.ofCode (tagFmt (tag 0)) = none → out .badTag ea) ∧
      (∀ f, Fmt.ofCode (tagFmt (tag 0)) = some f →
        (¬reaches ea.toNat (64 * (128 / f.elems)) → out .prot ea) ∧
        (∀ j, reaches ea.toNat (64 * (128 / f.elems)) → j < 128 / f.elems → (∀ i, i < j → tagValidFmt (tag i) = some f) →
          (isPoison (tag j) = true → out .poison (at_ j)) ∧
          (isPoison (tag j) = false → tagValidFmt (tag j) ≠ some f → out .badTag (at_ j))))) ∧
    (s.memFault true true 64 64 ea = none →
      let out (c : Cause) (x : Word) : Prop := exec (.stpk d a o r m) s = .next (s.fault 1 c x)
      (isPoison (tag 0) = true → out .poison ea) ∧
      (isPoison (tag 0) = false → Fmt.ofCode (tagFmt (tag 0)) = none → out .badTag ea) ∧
      (∀ f, Fmt.ofCode (tagFmt (tag 0)) = some f →
        let n := 128 / f.elems
        (∀ c x, s.memFault true true (64 * n) 64 ea = some (c, x) → out c x) ∧
        (s.memFault true true (64 * n) 64 ea = none →
          (∀ j, j < n → isPoison (tag j) = true → (∀ i, i < j → isPoison (tag i) = false) → out .poison (at_ j)) ∧
          ((∀ j, j < n → isPoison (tag j) = false) →
            (tagValidFmt (tag 0) = none → out .badTag ea) ∧
            (tagValidFmt (tag 0) ≠ none → m = .keep → ∀ j, j < n → scaleOk (tagScale (tag j)) = false →
              (∀ i, i < j → scaleOk (tagScale (tag i)) = true) → out .badTag (at_ j))))))

/-- R116: LDG raises PROT with the lowest lane address outside the own scratchpad, then MISALIGNED with the lowest that is not 4-byte
aligned, then POISON with the granule of the lowest that meets a poisoned one (which address the last two name is the model's
reading, log 24). -/
def Claims.GatherTraps : Prop :=
  ∀ (d a b : Reg) (x64 : Bool) (s : State),
    let lane (i : Nat) : Word := s.core.a.rd a + ((s.core.a.v[b]).lane i).setWidth 64 * (if x64 then 64 else 4)
    let out (c : Cause) (x : Word) : Prop := exec (.ldg d a b x64) s = .next (s.fault 1 c x)
    let inside (x : Word) : Prop := inSpad x.toNat = true ∧ inSpad (x.toNat + 3) = true
    let lowestOf (bad : Word → Prop) (i : Nat) : Prop :=
      i < 128 ∧ bad (lane i) ∧ ∀ j, j < 128 → bad (lane j) → (lane i).toNat ≤ (lane j).toNat
    ∀ i, (lowestOf (fun x => ¬inside x) i → out .prot (lane i)) ∧
      ((∀ j, j < 128 → inside (lane j)) →
        (lowestOf (fun x => x.toNat % 4 ≠ 0) i → out .misaligned (lane i)) ∧
        ((∀ j, j < 128 → (lane j).toNat % 4 = 0) →
          lowestOf (fun x => isPoison (s.core.spadTag (spadOff x / 64)) = true) i →
          out .poison (spadVa (spadOff (lane i) / 64 * 64))))

/-- The order of the faults of the mem slot, that they trap at slot 1, and that poison and bad tags trap. -/
def Obligations.MemoryFaults : Prop :=
  Claims.MemoryFaultOrder ∧ Claims.MemoryInstructionsTrapAtIssue ∧ Claims.PoisonTraps ∧ Claims.TaggedAccessTraps ∧ Claims.GatherTraps

/-- R108, R111, R112, R115, R119: a plain or acquiring load of the own scratchpad sends the bytes that forwarding readers see,
zero- or sign-extended, after 6 bundles, a vector after 8, a tag after 6. -/
def Claims.ScratchpadLoadResults : Prop :=
  ∀ (d a : Reg) (o : BitVec 10) (r : Order) (z : Size) (s : State),
    (∀ (signed : Bool), let n := Size.bytes z
      let ea := s.addr a o n
      s.memFault false false n n ea = none → inSpad ea.toNat = true → s.core.clean (spadOff ea) n →
      ∃ x : Word, s.core.holdsBytes (spadOff ea) n x (s.core.fillOf (spadOff ea) n signed) ∧
        exec (if signed then .lds d a o r z else .ld d a o r z) s =
          .next ((s.fly 6 1 [.s d x]).spadAcquire (scopeOf r))) ∧
    (let ea := s.addr a o 64
     s.memFault false false 512 64 ea = none → inSpad ea.toNat = true → s.core.clean (spadOff ea) 512 →
      ∃ x : Vec, (∀ i, i < 512 → x.extractLsb' (8 * i) 8 = s.core.spadByte (spadOff ea + i)) ∧
        exec (.ldv d a o r) s = .next ((s.fly 8 1 [.v d x]).spadAcquire (scopeOf r))) ∧
    (let ea := s.addr a o 64
     s.memFault false false 64 64 ea = none → inSpad ea.toNat = true → s.core.clean (spadOff ea) 64 →
      exec (.ldt d a o r) s = .next ((s.fly 6 1 [.s d (s.core.spadTag (spadOff ea / 64))]).spadAcquire (scopeOf r)))

/-- R108: a load of device or host memory marks its destination empty at issue and joins the mem queue, as the parts in which its pages
and declared tiles cut it; one that crosses neither is one part. -/
def Claims.OffCoreLoadsMarkEmpty : Prop :=
  ∀ (d a : Reg) (o : BitVec 10) (r : Order) (z : Size) (s : State),
    (let n := Size.bytes z
     let ea := s.addr a o n
     s.memFault false false n n ea = none → inSpad ea.toNat = false →
      exec (.ld d a o r z) s = .next ((s.markEmpty d).queueLoad ea (.scalar d n false) (scopeOf r)) ∧
      exec (.lds d a o r z) s = .next ((s.markEmpty d).queueLoad ea (.scalar d n true) (scopeOf r))) ∧
    (let ea := s.addr a o 64
     inSpad ea.toNat = false →
      (s.memFault false false 512 64 ea = none →
        exec (.ldv d a o r) s = .next ((s.markEmptyV d).queueLoad ea (.vec d) (scopeOf r))) ∧
      (s.memFault false false 64 64 ea = none →
        exec (.ldx d a o r) s = .next (((s.markEmptyV d).markEmpty a).queueLoad ea (.expand d a) (scopeOf r)) ∧
        exec (.ldt d a o r) s = .next ((s.markEmpty d).queueLoad ea (.tag d) (scopeOf r)))) ∧
    (∀ (va : Word) (l : LoadDst) (q : Option Scope), ∃ es : List MemReq,
      (s.queueLoad va l q).core.a.memq = s.core.a.memq ++ es ∧
      es.map (fun e => (e.lo, e.n)) = s.parts va.toNat l.bytes ∧
      (∀ e ∈ es, e.id = s.core.nextId ∧ e.va = va ∧ e.load = some l ∧ e.acq = q ∧ e.got = none) ∧
      (s.queueLoad va l q).core.nextId = s.core.nextId + 1) ∧
    (∀ va n : Nat, 0 < n → s.core.a.views = [] → (∀ g, va ≤ g → g < va + n → s.pageOf g = s.pageOf va) →
      s.parts va n = [(va, n)])

/-- Loads from the own scratchpad send their value, loads from elsewhere mark their destination empty. -/
def Obligations.LoadResults : Prop :=
  Claims.ScratchpadLoadResults ∧ Claims.OffCoreLoadsMarkEmpty

/-- R111, R112, R115, R120: a store makes one pier entry with the bytes it writes and nothing else; what it writes lands when the entry
leaves the pier. -/
def Claims.StoresEnterThePier : Prop :=
  ∀ (d a : Reg) (o : BitVec 10) (r : Order) (z : Size) (s : State),
    (let n := Size.bytes z
     let ea := s.addr a o n
     s.memFault true false n n ea = none → (inSpad ea.toNat = true → s.core.clean (spadOff ea) n) →
      ∃ e : PierEntry, exec (.st d a o r z) s = .next (s.stage e) ∧ e.spad = inSpad ea.toNat ∧ e.rel = scopeOf r ∧
        e.writes (if inSpad ea.toNat then spadOff ea else ea.toNat) n
          (fun i => (s.core.a.rd d).extractLsb' (8 * i) 8)) ∧
    (let ea := s.addr a o 64
     s.memFault true false 512 64 ea = none → (inSpad ea.toNat = true → s.core.clean (spadOff ea) 512) →
      ∃ e : PierEntry, exec (.stv d a o r) s = .next (s.stage e) ∧ e.spad = inSpad ea.toNat ∧ e.rel = scopeOf r ∧
        e.writes (if inSpad ea.toNat then spadOff ea else ea.toNat) 512
          (fun i => (s.core.a.v[d]).extractLsb' (8 * i) 8)) ∧
    (let ea := s.addr a o 64
     s.memFault true true 64 64 ea = none → s.core.clean (spadOff ea) 64 → isPoison (s.core.a.rd d) = false →
      ∃ e : PierEntry, exec (.stt d a o r) s = .next (s.stage e) ∧ e.spad = true ∧ e.rel = scopeOf r ∧ e.cells = [] ∧
        e.tags = [(spadOff ea / 64, s.core.a.rd d)])

/-- R117, R118: each FENCE inserts its ordering point, FENCE UO also drops the UO lines of the die's read cache, and the no-op and the
prefetches change no register, no memory and no access of the core.
A point that something keeps waiting stays among those of the core; an acquire at package or system scope with every read before it done
drops the RC lines of the die's read cache at once. -/
def Claims.FenceAndPrefetchEffects : Prop :=
  (∀ (sc : Scope) (s : State),
    exec (.fence sc) s = .next (s.point { OrderPoint.blank with rel := some sc, acq := some sc, full := true }) ∧
    exec (.fenceRel sc) s = .next (s.point { OrderPoint.blank with rel := some sc }) ∧
    exec (.fenceAcq sc) s = .next (s.point { OrderPoint.blank with acq := some sc }) ∧
    exec .fenceMem s = .next (s.point { OrderPoint.blank with mem := true }) ∧ exec .nopMem s = .next s) ∧
  (∀ s : State, ∃ t u : State, exec .fenceUo s = .next u ∧ u = t.point { OrderPoint.blank with mem := true, uo := true } ∧
    t = { s with dies := t.dies } ∧
    ∀ l ∈ (t.die (dieOf s.core.id)).cache, l ∈ (s.die (dieOf s.core.id)).cache ∧ l.uo = false) ∧
  (∀ (p : OrderPoint) (s : State), let k : OrderPoint := { p with id := s.core.nextId }
    let read := s.core.readsDoneBefore s.core.nextId
    (s.core.pointPending k = true →
      (if read then { k with acq := none } else k) ∈ (s.point p).core.a.points) ∧
    (∀ sc, p.acq = some sc → Scope.wide sc = true → read = true →
      ∀ l ∈ ((s.point p).die (dieOf s.core.id)).cache, l.uo = true)) ∧
  (∀ (a : Reg) (o : BitVec 10) (s : State), exec (.prefMd a o) s = .next s ∧
    ∃ t, exec (.prefRc a o) s = .next t ∧ t = { s with dies := t.dies })

/-- Stores enter the pier; fences and prefetches. -/
def Obligations.StoresAndFences : Prop :=
  Claims.StoresEnterThePier ∧ Claims.FenceAndPrefetchEffects

/-- R113, R114: LDX expands 128 tagged elements of the own scratchpad after 8 bundles and advances its address register; STPK writes
quantised codes and new tags in one pier entry. -/
def Claims.TaggedVectorAccess : Prop :=
  ∀ (d a : Reg) (o : BitVec 10) (r : Order) (m : ScaleMode) (s : State) (f : Fmt),
    let ea := s.addr a o 64
    let g := 128 / f.elems
    let off := spadOff ea
    inSpad ea.toNat = true → off + 64 * g ≤ 0x400000 → Fmt.ofCode (tagFmt (s.core.spadTag (off / 64))) = some f →
    (s.memFault false false 64 64 ea = none →
      (∀ j, j < g → tagValidFmt (s.core.spadTag (off / 64 + j)) = some f) →
      ∃ x : Vec, exec (.ldx d a o r) s =
          .next ((s.fly 8 1 [.v d x, .s a (ea + BitVec.ofNat 64 (64 * g))]).spadAcquire (scopeOf r)) ∧
        ∀ i, i < 128 → x.lane i = BitVec.ofNat 32 (f32.round .rne (elemValue f
          (s.core.spadTag (off / 64 + i / f.elems)) (s.core.spadGranule (off + 64 * (i / f.elems))).1 (i % f.elems)))) ∧
    (s.memFault true true (64 * g) 64 ea = none → tagValidFmt (s.core.spadTag (off / 64)) = some f → s.core.clean off (64 * g) →
      (m = .keep → ∀ j, j < g → scaleOk (tagScale (s.core.spadTag (off / 64 + j))) = true) →
      let t0 := s.core.spadTag (off / 64)
      let lane (i : Nat) : ExtNum := num32 ((s.core.a.v[d]).lane i).toNat
      let scale (j : Nat) : Nat := match m with
        | .blk => blockScale ((List.range f.elems).map (fun i => lane (j * f.elems + i))) f (tagXv t0)
        | .vec => blockScale ((List.range 128).map lane) f (tagXv t0)
        | .keep => tagScale (s.core.spadTag (off / 64 + j))
      ∃ e : PierEntry, exec (.stpk d a o r m) s = .next (s.stage e) ∧ e.spad = true ∧ e.rel = scopeOf r ∧
        e.tags = (List.range g).map (fun j => (off / 64 + j, mkTag (tagFmt t0) (tagXv t0) (tagAxis t0) (scale j))) ∧
        ∃ gran : Nat → Granule,
          (∀ i, i < 128 → elemCode f (gran (i / f.elems)) (i % f.elems) =
            quantise (lane i) (scale (i / f.elems)) f (tagXv t0) .rne) ∧
          e.cells = (List.range (64 * g)).map (fun i => (off + i, (gran (i / 64)).extractLsb' (8 * (i % 64)) 8)))

/-- R116, R119: LDG sends 128 words of the own scratchpad after 8 bundles and holds the core for the bank cycles beyond four: a bank
has a cycle for each granule that the lanes read in it, and the busiest bank counts. -/
def Claims.GatherResult : Prop :=
  ∀ (d a b : Reg) (x64 : Bool) (s : State),
    let at_ (i : Nat) : Word := s.core.a.rd a + ((s.core.a.v[b]).lane i).setWidth 64 * (if x64 then 64 else 4)
    (∀ i, i < 128 → inSpad (at_ i).toNat = true ∧ (at_ i).toNat % 4 = 0 ∧
      isPoison (s.core.spadTag (spadOff (at_ i) / 64)) = false) →
    let busiest (n : Nat) : Prop := ∃ (m : Nat → List Nat),
      (∀ k, k < 32 → (m k).Nodup ∧ (m k).length ≤ n ∧ ∀ g, g ∈ m k ↔ g % 32 = k ∧ ∃ i, i < 128 ∧ g = spadOff (at_ i) / 64) ∧
      (n = 0 ∨ ∃ k, k < 32 ∧ (m k).length = n)
    ∃ (x : Vec) (n : Nat), busiest n ∧ exec (.ldg d a b x64) s = .next ((s.fly 8 1 [.v d x]).modCore (fun c =>
        { c with stall := c.stall + (n - 4) })) ∧
      ∀ i, i < 128 → ∀ k, k < 4 → (x.lane i).extractLsb' (8 * k) 8 = s.core.spadByte (spadOff (at_ i) + k)

/-- LDX, STPK, tags, and gathers. -/
def Obligations.TaggedAndGatheredAccess : Prop :=
  Claims.TaggedVectorAccess ∧ Claims.GatherResult

/-- R67: a sum of finite terms is rounded once, by RNE; a zero sum is -0 when every term is, else +0; NaN and opposite infinities give the
canonical NaN, one infinity gives itself. -/
def Obligations.ExactSumRoundsOnce : Prop :=
  (∀ (ts : List ExtNum) (qs : List Rat), ts.map ExtNum.val? = qs.map some →
    (qs.sum ≠ 0 → ∃ x : ExtNum, x.val? = some qs.sum ∧ exactSum ts = BitVec.ofNat 32 (f32.round .rne x)) ∧
    (qs.sum = 0 → exactSum ts = if ts.all ExtNum.isNeg then 0x80000000 else 0)) ∧
  (∀ ts : List ExtNum,
    (.nan ∈ ts → exactSum ts = 0x7FC00000) ∧
    (.inf false ∈ ts → .inf true ∈ ts → exactSum ts = 0x7FC00000) ∧
    (.nan ∉ ts → .inf false ∈ ts → .inf true ∉ ts → exactSum ts = 0x7F800000) ∧
    (.nan ∉ ts → .inf false ∉ ts → .inf true ∈ ts → exactSum ts = 0xFF800000))

/-- R182, R198, R199: the parameter registers and the status word, one bundle later; MWAIT marks its destination empty and waits for the
drains and seals that its condition names; the no-op of the mx slot. -/
def Claims.MatrixParameterAndStatus : Prop :=
  ∀ (p : ParamReg) (a d : Reg) (i : BitVec 23) (c : MWaitCond) (s : State),
    exec .nopMx s = .next s ∧
    exec (.msetp p a) s = .next (s.fly 1 4 [.mp p (s.core.a.rd a)]) ∧
    exec (.msetpi p i) s = .next (s.fly 1 4 [.mp p (i.signExtend 64)]) ∧
    exec (.mstat d) s = .next (s.fly 1 4 [.s d s.core.mstatFields]) ∧
    ∃ (t : State) (w : MWait), exec (.mwait d c) s = .next t ∧
      t = (s.markEmpty d).withArch { (s.markEmpty d).core.a with mwaits := s.core.a.mwaits ++ [w] } ∧
      w.d = d ∧ w.cond = c ∧ w.drains = (if c = .free then [] else s.core.a.drains) ∧
      (∀ (u : TileNo) (ps : PendSeal), (s.core.a.tiles[u]).pending = some ps → c = .seals → (u, ps.period) ∈ w.seals) ∧
      (∀ ro, s.core.a.routine = some ro → c = .seals → w.call = ro.sealEnd) ∧
      (c ≠ .seals → w.seals = [] ∧ w.call = false)

/-- R183, R292: MCALL starts the routine of a valid entry with copies of the parameter registers; with H it waits for the tokens
of the call; an entry that is not valid raises ILLEGAL_OP.
Valid are the entries 0 to 3 of the library, and of the others, from 32 on, those that a preload or MLDUC of the running context has
set (R180). The micro-word index 0 of the library entries is the model's choice, log 11. -/
def Claims.MatrixCallStartsRoutine : Prop :=
  ∀ (h sl : Bool) (t : TileNo) (r : BitVec 8) (s : State),
    let entry : Option Nat := if r.toNat < 4 then some 0 else if r.toNat < 32 then none
      else tblGet s.core.entries (entryKey s.core.a.ctx r.toNat)
    (entry = none →
      exec (.mcall h sl t r) s = .next (s.fault 4 .illegalOp (word (s.core.a.words.getD 4 0)))) ∧
    (∀ upc, entry = some upc →
      let mp := s.core.a.mp
      let part (x : Word) (k : Nat) : Nat := (x.extractLsb' (16 * k) 16).toNat
      let work := part mp[4] 0 * part mp[4] 1 * part mp[4] 2
      let n := if r.toNat < 32 then max 1 ((work + 3276799) / 3276800) else part mp[7] 0
      ∃ (u : State) (ro : Routine), exec (.mcall h sl t r) s = .next u ∧ u.core.a.routine = some ro ∧
        ro.rix = r.toNat ∧ ro.tile = t ∧ ro.upc = upc ∧ ro.wp = mp ∧ ro.shape = none ∧ ro.fa = 0 ∧ ro.fb = 0 ∧
        ro.adva = 0 ∧ ro.advb = 0 ∧ (∀ l : LoopNo, (ro.loops[l]).act = false) ∧ ro.full = h ∧ ro.sealEnd = sl ∧
        u.core.a.stat.pw = (h && n != 0) ∧ u.core.a.stat.rix = r.toNat ∧
        (if h && n != 0 then u.core.a.eng = .tokens (if r.toNat < 4 then 11 else 4) ∧
            ∀ hc : clusterOf s.core.id < 32, (u.clusters[clusterOf s.core.id]).reqs =
              (s.clusters[clusterOf s.core.id]).reqs ++ [⟨s.core.id, n, none⟩]
         else u.core.a.eng = .timed (if r.toNat < 4 then 11 else 4) ∧ u.clusters = s.clusters))

/-- R192, R180: MLDUC loads micro-words 1,024 and above of the running context from the own scratchpad, and its entry form sets the
context's entry of a routine of 32 and above; other targets raise PROT, then MISALIGNED and BAD_SHAPE follow. -/
def Claims.MicroprogramLoads : Prop :=
  ∀ (a b : Reg) (s : State),
    let va := s.core.a.rd a
    let x := s.core.a.rd b
    let first := (x.extractLsb' 0 12).toNat
    let n := (x.extractLsb' 16 12).toNat
    let off := spadOff va
    (x.extractLsb' 28 36 = 0 → x.extractLsb' 12 4 = 0 → 0 < n → 1024 ≤ first → first + n ≤ 4096 → va.toNat % 64 = 0 →
      inSpad va.toNat = true → inSpad (va.toNat + 8 * n - 1) = true → s.core.clean off (8 * n) →
      ∃ u, exec (.mlduc a b) s = .next u ∧ u = ({ s with core := { s.core with ustore := u.core.ustore } } : State).withEngine u.core.a.eng ∧
        (∀ j, (∀ i, i < n → j ≠ microKey s.core.a.ctx (first + i)) → tblGet u.core.ustore j = tblGet s.core.ustore j) ∧
        ∀ i, i < n → ∃ w : Word, tblGet u.core.ustore (microKey s.core.a.ctx (first + i)) = some w ∧
          ∀ k, k < 8 → w.extractLsb' (8 * k) 8 = s.core.spadByte (off + 8 * i + k)) ∧
    (first < 1024 ∨ 4096 < first + n ∨ inSpad va.toNat = false → exec (.mlduc a b) s = .next (s.fault 4 .prot va)) ∧
    (1024 ≤ first → first + n ≤ 4096 → inSpad va.toNat = true → (0 < n → inSpad (va.toNat + 8 * n - 1) = true) →
      (va.toNat % 64 ≠ 0 → exec (.mlduc a b) s = .next (s.fault 4 .misaligned va)) ∧
      (va.toNat % 64 = 0 → n = 0 ∨ x.extractLsb' 28 36 ≠ 0 ∨ x.extractLsb' 12 4 ≠ 0 →
        exec (.mlduc a b) s = .next (s.fault 4 .badShape 0))) ∧
    (va.extractLsb' 8 56 = 0 → 32 ≤ va.toNat →
      ∃ u, exec (.mlducEnt a b) s = .next u ∧
        u = ({ s with core := { s.core with entries := u.core.entries } } : State).withEngine (.timed 1) ∧
        ∀ e, tblGet u.core.entries e =
          if e = entryKey s.core.a.ctx va.toNat then some first else tblGet s.core.entries e) ∧
    (va.extractLsb' 8 56 ≠ 0 ∨ va.toNat < 32 → exec (.mlducEnt a b) s = .next (s.fault 4 .prot va))

/-- Parameters, status, calls, and the loading of microprograms. -/
def Obligations.MatrixCallsAndPrograms : Prop :=
  Claims.MatrixParameterAndStatus ∧ Claims.MatrixCallStartsRoutine ∧ Claims.MicroprogramLoads

/-- R193, R197: MZERO clears both paths of its tile; the element and row forms of MACCWR write both paths; MACCRD sends the element
of the P-path after 4 bundles and counts as a drain of its row. That the accumulator is read and written in the cycle of issue is the
model's reading, log 34. -/
def Claims.AccumulatorAccess : Prop :=
  ∀ (t : TileNo) (d a b : Reg) (s : State),
    let x := s.core.a.tiles[t]
    let pos := s.core.a.rd a
    let r := (pos.extractLsb' 8 7).toNat
    let c := (pos.extractLsb' 0 7).toNat
    let only (u : State) (y : TileState) (e : EngOp) : Prop := u = (s.withTile t y).withEngine e
    (∃ u y, exec (.mzero t) s = .next u ∧ only u y (.timed 4) ∧
      ∀ i j, elementOf y.p i j = 0 ∧ elementOf y.q i j = 0) ∧
    (∃ u y, exec (.maccwr t a b) s = .next u ∧ only u y (.timed 1) ∧
      ∀ i j, i < 128 → j < 128 →
        elementOf y.p i j = (if i = r ∧ j = c then (s.core.a.rd b).setWidth 32 else elementOf x.p i j) ∧
        elementOf y.q i j = (if i = r ∧ j = c then (s.core.a.rd b).setWidth 32 else elementOf x.q i j)) ∧
    (∃ u y, exec (.maccrd t d a) s = .next (u.fly 4 4 [.s d ((elementOf x.p r c).setWidth 64)]) ∧ only u y (.timed 1) ∧
      y.p = x.p ∧ y.q = x.q ∧ y.isOpen = true ∧ y.tainted = true ∧
      y.fp = x.fp.foldRow r (rowGet x.p r) ∧ y.fq = x.fq.foldRow r (rowGet x.q r)) ∧
    (inSpad (s.core.a.rd a).toNat = true → (s.core.a.rd a).toNat % 64 = 0 →
      inSpad ((s.core.a.rd a).toNat + 511) = true →
      let off := spadOff (s.core.a.rd a)
      let row := ((s.core.a.rd b).extractLsb' 0 7).toNat
      (s.core.clean off 512 →
        ∃ u y, exec (.maccwrRow t a b) s = .next u ∧ only u y (.timed 2) ∧
          ∀ i j, i < 128 → j < 128 → ∀ k, k < 4 →
            (elementOf y.p i j).extractLsb' (8 * k) 8 =
              (if i = row then s.core.spadByte (off + 4 * j + k) else (elementOf x.p i j).extractLsb' (8 * k) 8) ∧
            (elementOf y.q i j).extractLsb' (8 * k) 8 =
              (if i = row then s.core.spadByte (off + 4 * j + k) else (elementOf x.q i j).extractLsb' (8 * k) 8)) ∧
      (∃ (u : State) (e : DrainOp), exec (.maccrdRow t a b) s = .next u ∧ u.core.a.eng = .drain e ∧ e.tile = t ∧ e.row0 = row ∧ e.n = 1 ∧
        e.addr = s.core.a.rd a ∧ e.tag = 0x3F80000000000001 ∧ e.rd = true ∧ e.wait = 2 ∧ e.fl = true ∧ e.next = 0 ∧
        (u.core.a.tiles[t]).isOpen = true ∧ (u.core.a.tiles[t]).p = x.p ∧ (u.core.a.tiles[t]).q = x.q ∧ u.core.pier = s.core.pier))

/-- R40, R194, R195: a drain that breaks a rule raises PROT, MISALIGNED, BAD_SHAPE or BAD_TAG in that order (the order is R40's);
otherwise the engine holds it, its tile is OPEN, and its first row leaves 4 cycles later.
With NW the address is not read: a stride that is not a multiple of 64 still raises MISALIGNED, whose TVAL no rule states (log 5). -/
def Claims.DrainStartsOrTraps : Prop :=
  ∀ (t : TileNo) (d a b : Reg) (z n : Bool) (m : DrainMode) (sl : Bool) (s : State),
    let addr := s.core.a.rd a
    let geo := s.core.a.rd d
    let tag := s.core.a.rd b
    let rows := (geo.extractLsb' 40 7).toNat + 1
    let row0 := (geo.extractLsb' 32 7).toNat
    let stride := (geo.extractLsb' 0 32).toNat
    let bytes : Nat := match Fmt.ofCode (tagFmt tag) with
      | some f => 64 * (128 / f.elems)
      | none => 64
    let rowAt (r : Nat) : Word := addr + BitVec.ofNat 64 (r * stride)
    let far (r : Nat) : Prop :=
      ¬((rowAt r).toNat + bytes ≤ 0x00F0000000000000 ∨
        (0x00F0000000000000 ≤ (rowAt r).toNat ∧ (rowAt r).toNat + bytes ≤ 0x00F0000000400000))
    let askew : Prop := (n = false ∧ addr.toNat % 64 ≠ 0) ∨ stride % 64 ≠ 0
    let misshapen : Prop := geo.extractLsb' 47 17 ≠ 0 ∨ geo.getLsbD 39 = true ∨ 128 < row0 + rows
    let untagged : Prop := n = false ∧ (tagHeadFmt tag = none ∨ (m = .tag ∧ scaleOk (tagScale tag) = false))
    let reachable : Prop := n = false → ∀ r, r < rows → ¬far r
    let from_ : State := if n then { s with free := s.free + 1 } else s
    let traps (c : Cause) (x : Word) : Prop := exec (.mdrain t d a b z n m sl) s = .next (from_.fault 4 c x)
    (∀ r, n = false → r < rows → far r → (∀ q, q < r → ¬far q) → traps .prot (rowAt r)) ∧
    (reachable → askew → traps .misaligned (if n then Config.freeWord s.free else addr)) ∧
    (reachable → ¬askew → misshapen → traps .badShape 0) ∧
    (reachable → ¬askew → ¬misshapen → untagged → traps .badTag tag) ∧
    (reachable → ¬askew → ¬misshapen → ¬untagged → s.core.a.frozen0 = false →
      ∃ (u : State) (e : DrainOp), exec (.mdrain t d a b z n m sl) s = .next u ∧ u.core.a.eng = .drain e ∧
        e.tile = t ∧ e.row0 = row0 ∧ e.n = rows ∧ e.addr = addr ∧ e.stride = stride ∧ e.tag = tag ∧ e.z = z ∧
        e.nw = n ∧ e.mode = m ∧ e.sealEnd = sl ∧ e.fl = true ∧ e.next = 0 ∧ e.wait = 4 ∧
        u.core.a.drains = s.core.a.drains ++ [e.id] ∧ (u.core.a.tiles[t]).isOpen = true ∧
        (u.core.a.tiles[t]).p = (s.core.a.tiles[t]).p ∧ (u.core.a.tiles[t]).q = (s.core.a.tiles[t]).q ∧
        u.core.pier = s.core.pier)

/-- R196, R205: MSEAL of an OPEN tile begins the comparison of its folds, whose verdict comes 24 cycles later; of a tile with nothing
drained it first folds rows 0 to 127; behind a pending seal it waits in the engine. -/
def Claims.SealBegins : Prop :=
  ∀ (t : TileNo) (s : State),
    let x := s.core.a.tiles[t]
    (x.pending.isSome = true → exec (.mseal t) s = .next (s.withEngine (.sealWait t s.core.a.pc))) ∧
    (x.pending = none → ∃ (y : TileState) (e : EngOp) (ps : PendSeal),
      exec (.mseal t) s = .next ((s.withTile t y).withEngine e) ∧ y.pending = some ps ∧ y.isOpen = false ∧
      y.p = x.p ∧ y.q = x.q ∧ ps.spc = s.core.a.pc ∧
      (x.isOpen = true → e = .timed 1 ∧ ps.left = 24 ∧ ps.period = x.period ∧ ps.fp = x.fp ∧ ps.fq = x.fq ∧ ps.cd = x.cd) ∧
      (x.isOpen = false → e = .foldAll t 0 4 s.core.a.pc ∧ ps.left = 155 ∧ ps.fp = Folds.zero ∧ ps.fq = Folds.zero))

/-- Reads and writes of accumulators, drains, and the start of a seal. -/
def Obligations.AccumulatorDrainAndSeal : Prop :=
  Claims.AccumulatorAccess ∧ Claims.DrainStartsOrTraps ∧ Claims.SealBegins

/-- R190, R191: each micro-operation on the working state of the routine in the engine. -/
def Claims.MicroOperationResults : Prop :=
  ∀ (s : State) (r : Routine) (p q g : ParamReg), s.core.a.routine = some r →
    let go (i : Instr) (f : Routine) : Prop := exec i s = .next (s.routineNow { f with upc := r.upc + 1 })
    let bad (i : Instr) (c : Cause) : Prop := exec i s = .next (s.deferred c (BitVec.ofNat 64 r.upc))
    go (.mAload p q) { r with a := some (r.wp[p], r.wp[q]) } ∧
    go (.mBload p q) { r with b := some (r.wp[p], r.wp[q]) } ∧
    (∀ x : BitVec 48,
      go (.mAddp p q .wp x) { r with wp := r.wp.set p (r.wp[p] + r.wp[q]) } ∧
      go (.mAddp p q .imm x) { r with wp := r.wp.set p (r.wp[p] + x.signExtend 64) } ∧
      go (.mAddp p q .adva x) { r with wp := r.wp.set p (r.wp[p] + BitVec.ofNat 64 r.adva) } ∧
      go (.mAddp p q .advb x) { r with wp := r.wp.set p (r.wp[p] + BitVec.ofNat 64 r.advb) } ∧
      (∀ sh, r.shape = some sh → go (.mAddp p q .kg x) { r with wp := r.wp.set p (r.wp[p] + BitVec.ofNat 64 sh.kg) }) ∧
      go (.mSetp p q .wp x) { r with wp := r.wp.set p r.wp[q] } ∧
      go (.mSetp p q .imm x) { r with wp := r.wp.set p (x.setWidth 64) }) ∧
    (∀ (l : LoopNo) (n : BitVec 16),
      ((r.loops[l]).act = false → go (.mLoop l n) { r with loops := r.loops.set l ⟨true, r.upc + 1, n.toNat + 1⟩ }) ∧
      ((r.loops[l]).act = true → bad (.mLoop l n) .illegalOp) ∧
      ((r.loops[l]).act = false → bad (.mEndloop l) .illegalOp) ∧
      ((r.loops[l]).act = true → 1 < (r.loops[l]).count → exec (.mEndloop l) s = .next (s.routineNow
        { r with loops := r.loops.set l { r.loops[l] with count := (r.loops[l]).count - 1 }, upc := (r.loops[l]).start })) ∧
      ((r.loops[l]).act = true → (r.loops[l]).count ≤ 1 → ∃ x : MLoop, x.act = false ∧
        go (.mEndloop l) { r with loops := r.loops.set l x })) ∧
    (∀ (cc : MicroCond) (f : MicroField) (t : BitVec 12),
      let y : Nat := match f with
        | .whole => (r.wp[q]).toNat
        | .part k => ((r.wp[q]).extractLsb' (16 * k.val) 16).toNat
      let x := (r.wp[p]).toNat
      let holds : Bool := match cc with
        | .lt => decide (x < y)
        | .ge => decide (y ≤ x)
        | .eq => decide (x = y)
        | .ne => decide (x ≠ y)
      exec (.mJcmp p q cc f t) s = .next (s.routineNow { r with upc := if holds then t.toNat else r.upc + 1 })) ∧
    (shapeLegal r.wp[p] r.wp[q] r.wp[g] → ∃ sh : Shape,
      go (.mShape p q g) { r with shape := some sh } ∧
      sh.m = ((r.wp[p]).extractLsb' 0 16).toNat ∧ sh.n = ((r.wp[p]).extractLsb' 16 16).toNat ∧
      sh.k = ((r.wp[p]).extractLsb' 32 16).toNat ∧ sh.kg = ((r.wp[q]).extractLsb' 0 16).toNat ∧
      sh.row0 = ((r.wp[g]).extractLsb' 0 16).toNat ∧ sh.col0 = ((r.wp[g]).extractLsb' 16 16).toNat) ∧
    (¬shapeLegal r.wp[p] r.wp[q] r.wp[g] → bad (.mShape p q g) .badShape) ∧
    (∀ fa fb : BitVec 8, go (.mFmt fa fb) { r with fa := fa.toNat, fb := fb.toNat }) ∧
    (∀ n : BitVec 16, ∃ u, exec (.mPermit n) s = .next u ∧
      u.core.a.routine = some { r with upc := r.upc + 1, full := true } ∧
      (n = 0 → u.core.a.eng = .timed 1 ∧ u.clusters = s.clusters) ∧
      (n ≠ 0 → u.core.a.eng = .tokens 1 ∧ u.core.a.stat.pw = true)) ∧
    (∃ u, exec .mEnd s = .next u ∧ u.core.a.routine = none ∧
      u.core.a.eng = (if r.sealEnd then .sealNext r.tile r.spc else .timed 1) ∧ u.core.a.tiles = s.core.a.tiles) ∧
    (∃ u, exec .mSeal s = .next u ∧ u.core.a.routine = some { r with upc := r.upc + 1 } ∧
      ((s.core.a.tiles[r.tile]).pending = none → (u.core.a.tiles[r.tile]).pending.isSome = true))

/-- R190, R194, R181: m.drain puts the drain of its working registers in the engine, its rows not on fl; a fault of its geometry waits
for a bundle boundary, with the faulting VA or the micro-word's index. -/
def Claims.MicroDrainResult : Prop :=
  ∀ (s : State) (r : Routine) (p g t : ParamReg) (z nw : Bool) (mode : DrainMode) (sl : Bool),
    s.core.a.routine = some r →
    let bad := drainFault r.wp[p] r.wp[g] r.wp[t] nw mode (Config.freeWord s.free)
    (bad = none → s.core.a.frozen0 = false →
      ∃ (u : State) (e : DrainOp), exec (.mDrain p g t z nw mode sl) s = .next u ∧ u.core.a.eng = .drain e ∧ e.tile = r.tile ∧
        e.row0 = ((r.wp[g]).extractLsb' 32 7).toNat ∧ e.n = ((r.wp[g]).extractLsb' 40 7).toNat + 1 ∧ e.addr = r.wp[p] ∧
        e.tag = r.wp[t] ∧ e.z = z ∧ e.nw = nw ∧ e.mode = mode ∧ e.sealEnd = sl ∧ e.fl = false ∧
        u.core.a.routine = some { r with upc := r.upc + 1 }) ∧
    (∀ c x, bad = some (c, x) → nw = false →
      exec (.mDrain p g t z nw mode sl) s =
        .next (s.deferred c (if c = .badShape ∨ c = .badTag then BitVec.ofNat 64 r.upc else x))) ∧
    (∀ c x, bad = some (c, x) → nw = true → ∃ y,
      exec (.mDrain p g t z nw mode sl) s = .next (State.deferred c y { s with free := s.free + 1 }))

/-- What each micro-operation does. -/
def Obligations.MicroOperations : Prop :=
  Claims.MicroOperationResults ∧ Claims.MicroDrainResult

/-- R67, R186, R187, R190, R191: a step whose operands are read without a fault sets each element of its region, in both paths, to the
exact sum of the products and, when it accumulates, the element; m.zero sets the region to +0.
A step with operands in device memory runs when no acquire or full fence before it is outstanding.
Every other element of every tile is unchanged. That all granules are read and all elements set in the first cycle of a step, with ROWP
0, is the model's choice, log 74. -/
def Obligations.MatrixStepResult : Prop :=
  ∀ (s : State) (r : Routine) (sh : Shape) (tr : Bool), s.core.a.routine = some r → r.shape = some sh →
    sh.row0 + sh.m ≤ 128 → sh.col0 + sh.n ≤ 128 → s.core.usesQ = false →
    let place (i j : Nat) : Option (Nat × Nat) :=
      if tr then if sh.col0 ≤ i ∧ i < sh.col0 + sh.n ∧ sh.row0 ≤ j ∧ j < sh.row0 + sh.m
        then some (j - sh.row0, i - sh.col0) else none
      else if sh.row0 ≤ i ∧ i < sh.row0 + sh.m ∧ sh.col0 ≤ j ∧ j < sh.col0 + sh.n
        then some (i - sh.row0, j - sh.col0) else none
    let become (u : State) (f : Nat → Nat → Lane → Lane) : Prop :=
      (∀ t, t ≠ r.tile → u.core.a.tiles[t] = s.core.a.tiles[t]) ∧
      ∀ i j, i < 128 → j < 128 →
        let new (x : Lane) : Lane := match place i j with
          | some (m, n) => f m n x
          | none => x
        elementOf (u.core.a.tiles[r.tile]).p i j = new (elementOf (s.core.a.tiles[r.tile]).p i j) ∧
        elementOf (u.core.a.tiles[r.tile]).q i j = new (elementOf (s.core.a.tiles[r.tile]).q i j)
    (∃ u, exec (.mZero tr) s = .next u ∧ u.core.a.eng = .timed 1 ∧
      u.core.a.routine = some { r with upc := r.upc + 1 } ∧ become u (fun _ _ _ => 0)) ∧
    (∀ (acc : Bool) (da db : Word × Word) (a b : Operand), r.a = some da → r.b = some db →
      s.readOperand da sh.m sh.kg r.fa = a → a.fault = none → s.readOperand db sh.n sh.kg r.fb = b → b.fault = none →
      s.core.a.stat.rowp = 0 →
      (s.core.operandAllowed = true ∨ (s.readsDevice da sh.m sh.kg = false ∧ s.readsDevice db sh.n sh.kg = false)) →
      ∃ (u : State) (k : Nat), exec (.mStep acc tr) s = .next u ∧
        u.core.a.eng = .step k k 0 (if tr then sh.n else sh.m) ∧ 4 ≤ k ∧ u.core.a.stat.rowp = 0 ∧
        u.core.a.routine = some { r with adva := a.advance da.2 sh.kg, advb := b.advance db.2 sh.kg, upc := r.upc + 1 } ∧
        become u (fun m n x => exactSum ((if acc then [num32 x.toNat] else []) ++
          (List.range sh.kg).map (fun k => (a.at m k).mul (b.at n k)))))

/-- R202 to R205 on a core without a defect: no micro-operation makes the two paths of a tile differ, so every seal that it starts
will match. -/
def Obligations.MicroOperationsKeepPathsAgreeing : Prop :=
  ∀ (i : Instr) (s t : State), i.place = .micro → s.core.a.pathsAgree → exec i s = .next t → t.core.a.pathsAgree

/-- R219: a command that issues marks its token empty, takes the next place of its queue and stages its pier entries; but for these, and
the numbers that the command and its entries take, the state is that with the token marked empty. -/
def Claims.CopyCommandsEnterQueueAndPier : Prop :=
  ∀ (q : CopyQ) (t : Reg) (k : CopyKind) (dup : Bool) (rel : Option Scope) (n : Nat) (s : State),
    let u := s.pushCopy q t k dup rel n
    ∃ (c : CopyCmd) (es : List PierEntry),
      c.id = s.core.nextId ∧ c.kind = k ∧ c.tok = t ∧ c.ctx = s.core.a.ctx ∧ c.tcb = s.core.a.key ∧ c.out = false ∧
      c.done = 0 ∧ c.data = [] ∧ c.paused = none ∧ c.dup = (if dup then some s.core.seq else none) ∧ es.length = n ∧
      (∀ e ∈ es, e.cmd = some (q, s.core.nextId) ∧ e.rel = rel ∧ e.cells = [] ∧ e.tags = []) ∧
      u.core.queueOf q = s.core.queueOf q ++ [c] ∧
      (∀ q', q' ≠ q → u.core.queueOf q' = s.core.queueOf q') ∧
      u.core.iss.pier = s.core.iss.pier ++ es ∧ u.core.pier = s.core.pier ∧ u.core.nextId = s.core.nextId + 1 + n ∧
      u = (s.markEmpty t).modCore (fun x =>
        { x with nextId := u.core.nextId, ca := u.core.ca, cb := u.core.cb, iss := { x.iss with pier := u.core.iss.pier } }) ∧
      (∀ r : Reg, bitOf u.core.iss.emptyS r.val = (bitOf s.core.iss.emptyS r.val || (r == t && t != 0))) ∧
      u.core.a.s = s.core.a.s ∧ u.core.a.v = s.core.a.v ∧ u.core.spad = s.core.spad ∧ u.mem = s.mem ∧ u.memTags = s.memTags

/-- R221, R224: CPY, CPY2 and CPYB issue when every row of both ranges may be reached, addresses, strides and lengths are multiples
of 64, and the length word or descriptor is well formed. -/
def Claims.BlockCopiesIssue : Prop :=
  ∀ (q : CopyQ) (t a b c : Reg) (i : BitVec 11) (s : State),
    let dst := s.core.a.rd a
    let src := s.core.a.rd b
    let w := s.core.a.rd c
    let aligned : Prop := dst.toNat % 64 = 0 ∧ src.toNat % 64 = 0
    let rows (n m : Nat) (ss ds : Int) : Prop := ∀ r, r < m →
      s.writable winCopy false (rowStart dst ds r) n ∧ s.readable winCopy (rowStart src ss r) n
    let counts (x : Word) (m : Nat) (ds : Int) : Prop := x.getLsbD 39 = true → ∀ r, r < m → cntBad (rowStart dst ds r) = false
    let bar (x : Word) : Option (Fin 64) :=
      if x.getLsbD 39 then some (Fin.ofNat 64 (x.extractLsb' 40 6).toNat) else none
    let len := (w.extractLsb' 0 32).toNat
    (aligned → 0 < len → len % 64 = 0 → w.extractLsb' 46 18 = 0 → w.extractLsb' 32 7 = 0 → rows len 1 0 0 → counts w 1 0 →
      exec (.cpy q t a b c) s = .next (s.pushCopy q t (.block dst src len 1 0 0 (bar w)) false none 1)) ∧
    (aligned → rows (64 * (i.toNat + 1)) 1 0 0 →
      exec (.cpyb q t a b i) s =
        .next (s.pushCopy q t (.block dst src (64 * (i.toNat + 1)) 1 0 0 none) false none 1)) ∧
    (s.core.blockReadable w →
      let rowlen := s.core.fieldAt w 0 8
      let nrows := s.core.fieldAt w 8 8
      let ss := signedOf 64 (s.core.fieldAt w 16 8)
      let ds := signedOf 64 (s.core.fieldAt w 24 8)
      let ctl : Word := BitVec.ofNat 64 (s.core.fieldAt w 32 8)
      aligned → ss % 64 = 0 → ds % 64 = 0 → 0 < rowlen → rowlen < 2 ^ 32 → rowlen % 64 = 0 → 0 < nrows → nrows ≤ 2 ^ 20 →
      ctl.extractLsb' 46 18 = 0 → ctl.extractLsb' 0 39 = 0 → s.core.fieldAt w 40 24 = 0 → rows rowlen nrows ss ds →
      counts ctl nrows ds →
      exec (.cpy2 q t a b c) s = .next (s.pushCopy q t (.block dst src rowlen nrows ss ds (bar ctl)) false none 1))

/-- Copy commands enter their queue and the pier, block copies with their operands. -/
def Obligations.CopyCommandsIssue : Prop :=
  Claims.CopyCommandsEnterQueueAndPier ∧ Claims.BlockCopiesIssue

/-- R227 to R229: the atomics issue when their address may be written, is aligned to their size and, for ACC, keeps within a
512-byte block; FPUT is a release at package scope. -/
def Claims.AtomicsIssue : Prop :=
  ∀ (q : CopyQ) (t a b c : Reg) (u : Bool) (o : AccOp) (z : AtomSize) (s : State),
    let x := s.core.a.rd a
    let y := s.core.a.rd b
    let w := s.core.a.rd c
    let n : Nat := match z with
      | .w => 4
      | .d => 8
    let wide : Bool := z == .d
    (s.writable winAtom true x.toNat n → x.toNat % n = 0 →
      exec (.cas q t a b c u z) s = .next (s.pushCopy q t (.cas x wide y w) u none 1) ∧
      exec (.faa q t a b u z) s = .next (s.pushCopy q t (.faa x wide y) u none 1) ∧
      exec (.xchg q t a b u z) s = .next (s.pushCopy q t (.xchg x wide y) u none 1)) ∧
    (s.writable winAtom true x.toNat 16 → x.toNat % 16 = 0 → s.core.a.hitsView x.toNat 16 = false →
      exec (.fput q t a b u) s = .next (s.pushCopy q t (.fput x y) u (some .package) 1)) ∧
    (0 < w.toNat → w.toNat ≤ 512 → w.toNat % 64 = 0 → x.toNat % 64 = 0 → y.toNat % 64 = 0 →
      x.toNat / 512 = (x.toNat + w.toNat - 1) / 512 →
      s.writable winAcc false x.toNat w.toNat → s.readable winAtom y.toNat w.toNat →
      exec (.acc q t a b c u o) s = .next (s.pushCopy q t (.acc o x y w.toNat) u none 1))

/-- R40, R221, R227, R256, R267: the faults of a single atomic at issue in their order: PROT, MISALIGNED, VIEW_ORDER,
RESTART_VIOLATION, each with the address. -/
def Claims.AtomicFaultOrder : Prop :=
  ∀ (q : CopyQ) (t a b c : Reg) (u : Bool) (z : AtomSize) (s : State),
    let x := s.core.a.rd a
    let n : Nat := match z with
      | .w => 4
      | .d => 8
    let prot : Prop := s.winOk winAtom x.toNat n = false ∨ s.core.a.mergeBad x.toNat n = true
    let early : Prop := s.core.a.frozen0 = true ∧ s.core.a.hitsView x.toNat n = true
    let traps (e : Cause) : Prop :=
      ∀ i ∈ ([.cas q t a b c u z, .faa q t a b u z, .xchg q t a b u z] : List Instr),
        exec i s = .next (s.fault (CopyQ.slot q) e x)
    (prot → traps .prot) ∧ (¬prot → x.toNat % n ≠ 0 → traps .misaligned) ∧
    (¬prot → x.toNat % n = 0 → early → traps .viewOrder) ∧
    (¬prot → x.toNat % n = 0 → ¬early → s.restartBad true x.toNat n = true → traps .restartViolation)

/-- Atomics enter their queue, and the order of their faults. -/
def Obligations.AtomicCommandsIssue : Prop :=
  Claims.AtomicsIssue ∧ Claims.AtomicFaultOrder

/-- R225, R232, R234, R236: the ring commands, PUBL, a release at its scope, CFENCE and the no-op of the copy slots. -/
def Claims.RingAndFenceCommandsIssue : Prop :=
  ∀ (q : CopyQ) (t a b : Reg) (d : RingDir) (sb : Fin 64) (sc : Scope) (k : BitVec 3) (s : State),
    let x := s.core.a.rd a
    let y := s.core.a.rd b
    exec (.nopCopy q) s = .next s ∧
    exec (.unsub q t sb) s = .next (s.pushCopy q t (.unsub sb) false none 1) ∧
    exec (.slotrel q t sb) s = .next (s.pushCopy q t (.slotrel sb) false none 1) ∧
    exec (.cfence q t k) s = .next (s.pushCopy q t (.cfence k) false none 1) ∧
    (0 < y.toNat → y.toNat % 65536 = 0 → x.toNat % 65536 = 0 → s.winOk winUser x.toNat y.toNat = true →
      s.core.a.hitsView x.toNat y.toNat = false →
      exec (.publ q t a b sc) s = .next (s.pushCopy q t (.publ x y.toNat sc) false (some sc) 1)) ∧
    (s.core.blockReadable x →
      let mbase := s.core.fieldAt x 0 8
      let rowlen := s.core.fieldAt x 8 4
      let nrow := s.core.fieldAt x 12 4
      let rstride := signedOf 64 (s.core.fieldAt x 16 8)
      let tstride := signedOf 64 (s.core.fieldAt x 24 8)
      let count := s.core.fieldAt x 32 8
      let ring := s.core.fieldAt x 40 8
      let slotsz := s.core.fieldAt x 48 4
      let nslot := s.core.fieldAt x 52 1
      mbase < 0x00F0000000000000 → mbase % 64 = 0 → ring % 64 = 0 → 0x00F0000000000000 ≤ ring → 0 < rowlen → rowlen % 64 = 0 →
      0 < nrow → rstride % 64 = 0 → tstride % 64 = 0 → slotsz % 64 = 0 → nrow * rowlen ≤ slotsz → 0 < nslot → nslot ≤ 64 →
      sb.val + nslot ≤ 64 → ring + slotsz * nslot ≤ 0x00F0000000400000 → s.core.fieldAt x 53 11 = 0 →
      (∀ r, r < nrow → s.core.a.hitsView (rowStart (BitVec.ofNat 64 mbase) rstride r) rowlen = false) →
      (∀ y ∈ s.core.subs, y.sb0 + y.slots.length ≤ sb.val ∨ sb.val + nslot ≤ y.sb0) →
      ∃ (u : State) (y : Subscription), exec (.subs q t a d sb) s = .next u ∧
        u = (s.pushCopy q t (.subs d sb) false none 1).modCore (fun c => { c with subs := c.subs ++ [y] }) ∧
        y.sb0 = sb.val ∧ y.dir = d ∧ y.tok = t ∧ y.accepted = false ∧ y.mbase.toNat = mbase ∧ y.rowlen = rowlen ∧
        y.nrow = nrow ∧ y.rstride = rstride ∧ y.tstride = tstride ∧ y.count = count ∧
        y.ring = ring - 0x00F0000000000000 ∧ y.slotsz = slotsz ∧
        y.slots = List.replicate nslot (match d with | .inp => .free | .out => .owned))

/-- R237, R240: CPYS captures its rows on both paths with the period that governs them and holds the engine for 2 + n cycles; COLL
issues with its block's fields, a LIMIT of 0 meaning the context's default; that only BYTES of each range are checked at issue is the
model's reading, log 79. -/
def Claims.SendsAndCollectivesIssue : Prop :=
  ∀ (q : CopyQ) (t a b c : Reg) (l : TileNo) (o : CollOp) (k : CollKind) (s : State),
    let dst := s.core.a.rd a
    let src := s.core.a.rd b
    let w := s.core.a.rd c
    let n := (w.extractLsb' 40 7).toNat + 1
    let row0 := (w.extractLsb' 32 7).toNat
    let stride := (w.extractLsb' 0 32).toNat
    let x := s.core.a.tiles[l]
    (w.extractLsb' 47 17 = 0 → w.getLsbD 39 = false → row0 + n ≤ 128 → dst.toNat % 64 = 0 → stride % 64 = 0 →
      (∀ r, r < n → s.writable winSend false (rowStart dst stride r) 512) →
      ∃ (sg : Option Word) (stale : Bool),
        exec (.cpys q t a c l) s = .next ((s.pushCopy q t (.cpys dst stride row0 n l
          (if x.isOpen then some x.period else x.pending.map (fun p => p.period))
          ((List.range n).map (fun i => rowGet x.p (row0 + i))) ((List.range n).map (fun i => rowGet x.q (row0 + i)))
          stale sg false) false none n).withEngine (.timed (2 + n))) ∧
        (x.wrote = true → stale = true) ∧ (x.isOpen = true → sg = none)) ∧
    (s.core.blockReadable w →
      let group := s.core.fieldAt w 0 8
      let bytes := s.core.fieldAt w 8 8
      let limit := s.core.fieldAt w 16 4
      0 < bytes → bytes % 64 = 0 → s.core.fieldAt w 20 4 < 2 → s.core.fieldAt w 24 40 = 0 →
      dst.toNat % 64 = 0 → src.toNat % 64 = 0 →
      (∀ va ∈ [dst.toNat, src.toNat], s.winOk winUser va bytes = true ∧ s.core.a.hitsView va bytes = false) →
      ∃ left, exec (.coll q t a b c o k) s = .next (s.pushCopy q t (.coll k o dst src group bytes left) false none 1) ∧
        (limit ≠ 0 → left = limit) ∧
        (∀ y, s.ctx? s.core.a.ctx = some y → limit = 0 → left = y.collDefault))

/-- Subscriptions, fences, publications, sends and collectives enter their queue. -/
def Obligations.RingSendAndCollectiveCommands : Prop :=
  Claims.RingAndFenceCommandsIssue ∧ Claims.SendsAndCollectivesIssue

/-- R261, R262, R264 to R266, R257, R21, R22: the task instructions outside a merge routine. -/
def Claims.TaskInstructionEffects : Prop :=
  ∀ (d a b : Reg) (i : TItem) (s : State),
    let x := s.core.a.rd a
    let now := s.frame.toNat
    exec .nopSys s = .next s ∧
    exec (.tinfo d i) s = .next (s.fly 2 7 [.s d (s.tinfo i)]) ∧
    (∀ t, s.task? s.core.a.ctx s.core.a.tcb = some t →
      s.tinfo .spidx = BitVec.ofNat 64 t.spidx ∧ s.tinfo .tcb = s.core.a.tcb ∧ s.tinfo .parent = t.parent.getD 0 ∧
      s.tinfo .restarts = BitVec.ofNat 64 t.restarts ∧ s.tinfo .nspawn = BitVec.ofNat 64 t.nspawn ∧
      s.tinfo .npend = BitVec.ofNat 64 t.npend ∧ s.tinfo .prio = BitVec.ofNat 64 s.core.a.prio ∧
      ∀ l, s.launch? t.launch = some l → s.tinfo .stream = BitVec.ofNat 64 l.stream) ∧
    (∀ c, s.ctx? s.core.a.ctx = some c →
      exec (.vdist d a b) s = .next (s.fly 2 7 [.s d
        (match c.bind[x.toNat]?, c.bind[(s.core.a.rd b).toNat]? with
         | some p, some q => BitVec.ofNat 64
            (((p.1 % 4 : Int) - (q.1 % 4 : Int)).natAbs + ((p.1 / 4 : Int) - (q.1 / 4 : Int)).natAbs)
         | _, _ => BitVec.allOnes 64)]) ∧
      (c.bind.length < 2 ^ 32 → (∀ v ∈ c.bind, v.2.length < 2 ^ 32) → exec (.vdmap d a) s = .next (s.fly 2 7 [.s d
        (BitVec.ofNat 32 c.bind.length ++ BitVec.ofNat 32 ((c.bind[x.toNat]?).elim 0 (fun v => v.2.length)) : Word)]))) ∧
    (s.core.a.merging = none →
      exec (.join d) s = .next ((s.markEmpty d).heldBy (.join d now false)) ∧
      exec .merge s = .next (s.heldBy (.join 0 now true)) ∧
      exec .yield s = .next (if (s.pick s.core.id).isSome then s.heldBy (.suspend .yielded) else s) ∧
      (s.core.a.viewAt x.toNat = none → exec (.viewa d a) s = .next (s.fly 2 7 [.s d x])) ∧
      (∀ w, s.core.a.viewAt x.toNat = some w →
        exec (.viewa d a) s = .next (if s.core.a.frozen0 then s.fault 7 .viewOrder x
          else s.fly 2 7 [.s d (BitVec.ofNat 64 (s.pieceVa s.core.a.ctx w + (x.toNat - w.base)))])) ∧
      (x = 0 → s.inlTask = none → exec (.runinl d a) s = .next (s.fly 1 7 [.s d 0])) ∧
      (∀ e, x = 0 → s.inlTask = some e → ∃ u, exec (.runinl d a) s = .next u ∧
        u.core.a.block = some (.inline e.ctx e.tcb d false false))) ∧
    (s.core.a.merging.isSome = true →
      exec .merge s = .next (s.heldBy .mergeSeals) ∧
      ∀ j ∈ ([.spawn d a, .spawnl d a b, .join d, .yield, .viewa d a, .runinl d a] : List Instr),
        exec j s = .next (s.fault 7 .illegalOp (word (s.core.a.words.getD 7 0))))

/-- R245, R265: SPAWN, SPAWNL and RUNINL of an address check their count, window, alignment and index in that order; children that pass
are counted, wait for the release with rising indices, and the first spawn of an epoch freezes view 0. -/
def Claims.SpawnEffects : Prop :=
  ∀ (d a b : Reg) (s : State) (t : Task), s.core.a.merging = none → s.task? s.core.a.ctx s.core.a.tcb = some t →
    let x := s.core.a.rd a
    let many := (s.core.a.rd b).toNat
    let ok (n : Nat) : Prop :=
      0 < n ∧ n ≤ 64 ∧ x.toNat + 128 * n ≤ 0x00F0000000000000 ∧ x.toNat % 128 = 0 ∧ t.nspawn + n ≤ 1048575
    let admits (u : State) (n : Nat) (inl : Bool) : Prop :=
      ∃ rs, u.core.rels = s.core.rels ++ rs ∧ rs.length = n ∧
        (∀ j, j < n → ∃ r, rs[j]? = some r ∧ r.ctx = s.core.a.ctx ∧
          r.what = .admission (x + BitVec.ofNat 64 (128 * j)) (t.nspawn + 1 + j) s.core.a.tcb inl) ∧
        (∃ t', u.task? s.core.a.ctx s.core.a.tcb = some t' ∧ t'.nspawn = t.nspawn + n ∧ t'.npend = t.npend + n) ∧
        u.core.a.frozen0 = (s.core.a.frozen0 || (t.nspawn == 0 && !s.core.a.views.isEmpty))
    (ok 1 → ∃ u, exec (.spawn d a) s = .next (u.fly 2 7 [.s d (BitVec.ofNat 64 (t.nspawn + 1))]) ∧ admits u 1 false) ∧
    (ok many → ∃ u, exec (.spawnl d a b) s = .next (u.fly 2 7 [.s d (BitVec.ofNat 64 (t.nspawn + 1))]) ∧
      admits u many false) ∧
    (ok 1 → x ≠ 0 → ∃ u, exec (.runinl d a) s = .next ((u.markEmpty d).heldBy (.runinl d x)) ∧ admits u 1 true) ∧
    (let traps (i : Instr) (n : Nat) : Prop :=
       (n = 0 ∨ 64 < n → exec i s = .next (s.fault 7 .badShape 0)) ∧
       (0 < n → n ≤ 64 →
         (0x00F0000000000000 < x.toNat + 128 * n → exec i s = .next (s.fault 7 .prot x)) ∧
         (x.toNat + 128 * n ≤ 0x00F0000000000000 →
           (x.toNat % 128 ≠ 0 → exec i s = .next (s.fault 7 .misaligned x)) ∧
           (x.toNat % 128 = 0 → 1048575 < t.nspawn + n → exec i s = .next (s.fault 7 .badShape 0))))
     traps (.spawn d a) 1 ∧ traps (.spawnl d a b) many ∧ (x ≠ 0 → traps (.runinl d a) 1))

/-- The task instructions of the sys slot. -/
def Obligations.TaskAndSpawnInstructions : Prop :=
  Claims.TaskInstructionEffects ∧ Claims.SpawnEffects

/-- R271 to R274, R277, R279: a gang instruction checks its address and the task's record, marks its destination empty and joins the
outstanding operations with the phase of the record, which an arrival advances and a leave or a drop removes. Phases that count from 0
until the GJOIN is answered are the model's reading, log 20. -/
def Claims.GangInstructionEffects : Prop :=
  ∀ (d a b : Reg) (s : State),
    let x := s.core.a.rd a
    let record := s.core.a.gangs.find? (fun g => g.va = x)
    let good : Prop := x.toNat < 0x00F0000000000000 ∧ x.toNat % 64 = 0
    let push (t : State) (r : Reg) (k : GangKind) (ph : Nat) (gs : List GangRec) : Prop :=
      t = (s.markEmpty r).modCore (fun c => { c with
        nextId := s.core.nextId + 1
        a := { c.a with gangs := gs, gangOps := s.core.a.gangOps ++ [⟨s.core.nextId, k, x, ph, r, false⟩] } })
    let next (i : Instr) (r : Reg) (k : GangKind) (ph : Nat) (gs : List GangRec) : Prop := ∃ t, exec i s = .next t ∧ push t r k ph gs
    let others := s.core.a.gangs.filter (fun g => g.va ≠ x)
    let rise := s.core.a.gangs.map (fun g => if g.va = x then ⟨x, (g.ph + 1) % 2 ^ 32⟩ else g)
    (good → record = none → s.core.a.gangs.length < 8 →
      next (.gjoin d a) d .join 0 (s.core.a.gangs ++ [⟨x, 0⟩])) ∧
    (good → record ≠ none ∨ 8 ≤ s.core.a.gangs.length → exec (.gjoin d a) s = .next (s.fault 7 .badShape x)) ∧
    (∀ g, good → record = some g →
      next (.gleave a) 0 .leave g.ph others ∧ next (.arrive d a) d (.arrive false) g.ph rise ∧
      next (.arriveDrop d a) d (.arrive true) g.ph others ∧ next (.sstep d a) d .sstep g.ph rise ∧
      next (.bwait d a b) d (.bwait ((s.core.a.rd b).toNat % 2 ^ 32)) 0 s.core.a.gangs) ∧
    (0x00F0000000000000 ≤ x.toNat → exec (.gjoin d a) s = .next (s.fault 7 .prot x)) ∧
    (x.toNat < 0x00F0000000000000 → x.toNat % 64 ≠ 0 → exec (.gjoin d a) s = .next (s.fault 7 .misaligned x)) ∧
    (∀ i ∈ ([.gleave a, .arrive d a, .arriveDrop d a, .sstep d a, .bwait d a b] : List Instr),
      (record = none → exec i s = .next (s.fault 7 .prot x)) ∧
      (record ≠ none → 0x00F0000000000000 ≤ x.toNat → exec i s = .next (s.fault 7 .prot x)) ∧
      (record ≠ none → x.toNat < 0x00F0000000000000 → x.toNat % 64 ≠ 0 → exec i s = .next (s.fault 7 .misaligned x)))

/-- R280 to R286: TCEXP arms a barrier that expects nothing yet, TCWAIT and the future instructions mark their destination empty, and the
last hold the core for their cell; cells outside user data raise PROT, unaligned ones MISALIGNED. -/
def Claims.BarrierAndFutureInstructionEffects : Prop :=
  ∀ (d a b : Reg) (sb : Fin 64) (s : State),
    let x := s.core.a.rd a
    let n := (s.core.a.rd b).toNat
    let now := s.frame.toNat
    let barrier : Word := BitVec.ofNat 64 (natOfBytes ((List.range 8).map
      (fun i => cellGet 0 s.core.spad (s.core.a.barBase + 8 * sb.val + i))))
    (0 < x.toNat → x.toNat < 2 ^ 30 → barrier.getLsbD 62 = false →
      exec (.tcexp a sb) s = .next (s.fly 1 7 [.tcexp sb x.toNat])) ∧
    (x = 0 ∨ 2 ^ 30 ≤ x.toNat ∨ barrier.getLsbD 62 = true → exec (.tcexp a sb) s = .next (s.fault 7 .badShape 0)) ∧
    exec (.tcwait d sb) s = .next ((s.markEmpty d).withArch
      { (s.markEmpty d).core.a with tcwaits := s.core.a.tcwaits ++ [(sb, d)], tcfresh := s.core.a.tcfresh ++ [sb] }) ∧
    (x.toNat + 16 ≤ 0x00F0000000000000 → x.toNat % 16 = 0 →
      exec (.fget d a) s = .next ((s.markEmpty d).heldBy (.fget d x)) ∧
      exec (.fwaitSpin d a b) s = .next ((s.markEmpty d).heldBy (.fwait d x true (some (now + n)) false)) ∧
      exec (.fwaitYield d a b) s =
        .next ((s.markEmpty d).heldBy (.fwait d x false (if n = 0 then none else some (now + n)) false))) ∧
    (∀ i ∈ ([.fget d a, .fwaitSpin d a b, .fwaitYield d a b] : List Instr),
      (0x00F0000000000000 < x.toNat + 16 → exec i s = .next (s.fault 7 .prot x)) ∧
      (x.toNat + 16 ≤ 0x00F0000000000000 → x.toNat % 16 ≠ 0 → exec i s = .next (s.fault 7 .misaligned x)))

/-- Gang, barrier and future instructions. -/
def Obligations.SynchronisationInstructions : Prop :=
  Claims.GangInstructionEffects ∧ Claims.BarrierAndFutureInstructionEffects

/-- R293 to R296: PERMIT and LEASE queue their request at the core's cluster and mark their destination empty; out of range they raise
BAD_SHAPE; LEASEREL ends the task's own live lease at once and answers 0, and with no lease, another task's, or one at or past its expiry
tick it answers 1 and changes nothing else; its destination is marked empty and filled. -/
def Claims.PowerInstructionEffects : Prop :=
  ∀ (d a b : Reg) (s : State) (h : clusterOf s.core.id < 32),
    let n := (s.core.a.rd a).toNat
    let us := (s.core.a.rd b).toNat
    let cl := s.clusters[clusterOf s.core.id]
    let put (c : Cluster) : State := { s with clusters := s.clusters.set (clusterOf s.core.id) c }
    let legal : Prop := n % 10 = 0 ∧ 950 ≤ n ∧ n ≤ 1130 ∧ 0 < us ∧ us < 2 ^ 32
    (0 < n → n ≤ 65535 → exec (.permit d a) s = .next
      ((put { cl with reqs := cl.reqs ++ [⟨s.core.id, n, some d⟩] }).markEmpty d)) ∧
    (n = 0 ∨ 65535 < n → exec (.permit d a) s = .next (s.fault 7 .badShape 0)) ∧
    (legal → exec (.lease d a b) s = .next
      ((put { cl with leaseReqs := cl.leaseReqs ++ [⟨s.core.id, n, us, d, s.frame.toNat⟩] }).markEmpty d)) ∧
    (¬legal → exec (.lease d a b) s = .next (s.fault 7 .badShape 0)) ∧
    (let answers (u : State) (x : Word) : Prop := ∃ t, exec (.leaserel d) s = .next t ∧
        t = { u with core := { s.core with
          a := { s.core.a with s := t.core.a.s, sEmpty := t.core.a.sEmpty, flights := t.core.a.flights, trap := t.core.a.trap }
          iss := { s.core.iss with emptyS := t.core.iss.emptyS } } } ∧
        ∀ r : Reg, t.core.a.rd r = (if r = d ∧ d ≠ 0 then x else s.core.a.rd r) ∧
          bitOf t.core.a.sEmpty r.val = (bitOf s.core.a.sEmpty r.val && !(r == d && d != 0)) ∧
          (r ≠ d → bitOf t.core.iss.emptyS r.val = bitOf s.core.iss.emptyS r.val)
     (∀ l, cl.lease = some l → l.core = s.core.id → l.tcb = s.core.a.tcb → s.core.busy = true → s.frame.toNat < l.expiry →
       ∃ c, c = { cl with lease := none, st := c.st, sprintUs := c.sprintUs } ∧ (cl.st = .sprint → c.st = .base) ∧
         c.clk = cl.baseClk ∧ answers (put c) 0) ∧
     (cl.lease = none ∨ (∃ l, cl.lease = some l ∧ (l.core ≠ s.core.id ∨ l.tcb ≠ s.core.a.tcb ∨ s.core.busy = false ∨
         l.expiry ≤ s.frame.toNat)) → answers s 1))

/-- R154: SEGS turns on the segments below n, an OFF one by 96 bundles and a RETAIN one by 24, and turns the others off or to RETAIN; only
the vectors of an OFF segment are lost. -/
def Claims.SegmentGating : Prop :=
  ∀ (m : SegRest) (n : BitVec 5) (s : State), ∃ u, exec (.segs m n) s = .next u ∧
    (∀ j : Fin 16, u.core.a.segs[j] =
      if j.val < n.toNat then
        match s.core.a.segs[j] with
        | .off => .waking true 96
        | .retain => .waking false 24
        | x => x
      else match m, s.core.a.segs[j] with
        | .off, _ => .off
        | .retain, .on => .retain
        | .retain, .waking fromOff _ => if fromOff then .off else .retain
        | .retain, x => x) ∧
    (∀ i, i < 4096 → tblGet u.core.a.vrf i = if u.core.a.segs.getD (i / 256) .off = .off then none else tblGet s.core.a.vrf i) ∧
    u = s.withArch { s.core.a with segs := u.core.a.segs, vrf := u.core.a.vrf, vrfTags := u.core.a.vrfTags }

/-- Leases, permits and VRF segments. -/
def Obligations.PowerAndSegmentInstructions : Prop :=
  Claims.PowerInstructionEffects ∧ Claims.SegmentGating

/-- R307: TCAUSE holds DEF, the class and the code of the cause. -/
def Claims.TrapCauseWords : Prop :=
  ∀ (c : Cause) (deferred : Bool), c.tcauseWord deferred = causeFields c deferred

/-- R309, R310: a class-0 cause outside a handler with a trap vector writes TCAUSE, TVAL, TPC and SRES, sets aside the results in flight, the
bundle's words, the queue, masks, k, loops and pending transfer, and the handler's bundle is the next to issue; registers and memory stay.
That the words are set aside, for a re-entry at a later slot, is the model's reading (log 50); so is that what is in flight to UTVEC and to
the parameter registers is not set aside, but has landed when the handler begins (log 108). -/
def Claims.UserTrapEntry : Prop :=
  ∀ (k : Nat) (c : Cause) (x : Word) (s : State),
    c.cls = 0 → s.core.a.ut = false → s.core.a.utvec ≠ 0 → k ≤ 8 → s.core.a.merging = none ∨ c = .leaseExpired →
    let t := s.fault k c x
    s.restSame t ∧ t.core.a.tcause = causeFields c false ∧ t.core.a.tval = x ∧ t.core.a.tpc = s.core.a.pc ∧
    t.core.a.sres = BitVec.ofNat 4 k ∧ t.core.a.ut = true ∧ t.core.a.pc = s.core.a.utvec ∧ t.core.a.pend = none ∧
    t.core.a.flights = [] ∧ (∀ l : LoopNo, (t.core.a.loops[l]).act = false) ∧ t.core.entry = 7 ∧
    (∃ r, t.core.a.trap = some r ∧
      (∀ left l, inFlight r.replay left l ↔ inFlight s.core.a.flights left l ∧ l.shared = false) ∧
      r.words = s.core.a.words ∧ r.q = s.core.a.q ∧ r.m = s.core.a.m ∧ r.k = s.core.a.k ∧
      r.loops = s.core.a.loops ∧ r.order = s.core.a.order ∧ r.pend = s.core.a.pend ∧ r.sres = BitVec.ofNat 4 k ∧
      r.tpc = s.core.a.pc) ∧
    ((∀ left x, ¬inFlight s.core.a.flights left (.utvec x)) → t.core.a.utvec = s.core.a.utvec) ∧
    (∀ x, s.core.a.flights.flatMap (fun f => f.lands.filter Landing.shared) = [.utvec x] → t.core.a.utvec = x ∧ t.core.a.mp = s.core.a.mp) ∧
    t.core.a.s = s.core.a.s ∧ t.core.a.p = s.core.a.p ∧ t.core.a.v = s.core.a.v ∧ t.core.a.ports = s.core.a.ports ∧
    t.core.a.vrf = s.core.a.vrf ∧ t.core.a.tiles = s.core.a.tiles ∧ t.core.spad = s.core.spad ∧
    t.core.spadTags = s.core.spadTags

/-- R311, R312, R313: TRAP raises its cause after its own slot, ILLEGAL_OP inside a handler; trap.dup raises DUP_MISMATCH; UTRET outside a
handler raises ILLEGAL_OP, and inside one restores what the entry set aside and re-enters the bundle at TPC at slot SRES, with the words
that were fetched where SRES is not 0 (log 50); a slot 7 that was about to go on when the trap came goes on. -/
def Claims.TrapInstructionsAndReturn : Prop :=
  ∀ (n : BitVec 15) (s : State),
    (s.core.a.ut = false → exec (.trap n) s = .next (s.fault 8 .trap (n.setWidth 64))) ∧
    (s.core.a.ut = true → exec (.trap n) s = .next (s.fault 7 .illegalOp (word (s.core.a.words.getD 7 0)))) ∧
    exec (.trapDup n) s = .next (s.fault 8 .dupMismatch (n.setWidth 64)) ∧
    (s.core.a.ut = false → exec .utret s = .next (s.fault 7 .illegalOp (word (s.core.a.words.getD 7 0)))) ∧
    (∀ r, s.core.a.ut = true → s.core.a.trap = some r →
      (∀ f ∈ s.core.a.flights, 8 < f.left) → s.core.a.sres.toNat < 8 →
      ∃ t, exec .utret s = .next t ∧ s.restSame t ∧ t.core.a.ut = false ∧ t.core.a.trap = none ∧
        t.core.a.pc = s.core.a.tpc ∧ t.core.a.block = (if s.core.a.sres = 7 then r.cont else none) ∧
        t.core.a.reentry = (if s.core.a.sres = 7 ∧ r.cont.isSome = true then none else some s.core.a.sres.toNat) ∧
        t.core.a.words = (if s.core.a.sres = 0 then [] else r.words) ∧ t.core.a.q = r.q ∧ t.core.a.m = r.m ∧
        t.core.a.k = r.k ∧ t.core.a.loops = r.loops ∧ t.core.a.order = r.order ∧ t.core.a.pend = r.pend ∧
        (∀ f ∈ r.replay, f ∈ t.core.a.flights) ∧ t.core.a.s = s.core.a.s ∧ t.core.a.p = s.core.a.p ∧
        t.core.a.v = s.core.a.v ∧ t.core.entry = 7)

/-- The cause words, the entry of a user trap, TRAP, and UTRET. -/
def Obligations.TrapsAndReturn : Prop :=
  Claims.TrapCauseWords ∧ Claims.UserTrapEntry ∧ Claims.TrapInstructionsAndReturn

/-- R309, R318, R41: a class-1 fault at slot k writes the trap registers and suspends the task at its bundle, to re-enter at slot k, for k
above 0 with the words that were fetched (the model's reading, log 50); outside the acting core nothing changes. -/
def Claims.SupervisorTrapSuspends : Prop :=
  ∀ (k : Nat) (x : Word) (s : State), s.core.a.ut = false → s.core.a.merging = none → k ≤ 8 →
    let t := s.fault k .page x
    s.restSame t ∧ t.core.a.tcause = causeFields .page false ∧ t.core.a.tval = x ∧ t.core.a.tpc = s.core.a.pc ∧
    t.core.a.sres = BitVec.ofNat 4 k ∧ t.core.a.block = some (.suspend (.page x)) ∧ t.core.a.reentry = some k ∧
    t.core.a.words = (if k = 0 then [] else s.core.a.words) ∧ t.core.a.pc = s.core.a.pc ∧ t.core.a.flights = s.core.a.flights ∧ t.core.a.s = s.core.a.s ∧ t.core.spad = s.core.spad

/-- R269, R332, R260, R311, R325: a class-2 fault of a task ends its launch; so do a class-1 fault of a merge routine outside the view pool,
and a class-0 fault other than LEASE_EXPIRED inside a handler, with no trap vector, or in a merge routine (that last the model's reading,
log 105): no task and no launch of that number remain. -/
def Claims.SoftwareFaultEndsLaunch : Prop :=
  ∀ (k : Nat) (c : Cause) (x : Word) (s : State) (t : Task) (l : Launch),
    c.cls = 2 ∨ (c.cls = 1 ∧ s.core.a.merging.isSome = true ∧ s.inViewPool s.core.a.ctx x.toNat = false) ∨
      (c.cls = 0 ∧ c ≠ .leaseExpired ∧ (s.core.a.ut = true ∨ s.core.a.utvec = 0 ∨ s.core.a.merging.isSome = true)) →
    s.task? s.core.a.ctx s.core.a.tcb = some t → s.launch? t.launch = some l →
    let u := s.fault k c x
    (∀ y ∈ u.tasks, y.launch ≠ t.launch) ∧ (∀ y ∈ u.launches, y.num ≠ t.launch)

/-- R268, R325: a hardware error of a restartable task that has been restarted fewer than three times makes it READY again with one
restart more, no children, and this core excluded for it. -/
def Claims.HardwareErrorRestarts : Prop :=
  ∀ (k : Nat) (c : Cause) (x : Word) (s : State) (t : Task),
    c.cls = 3 → s.task? s.core.a.ctx s.core.a.tcb = some t → t.r = true → t.restarts < 3 → s.core.a.merging = none →
    s.descends t.ctx t.tcb s.tasks.length t.tcb = false →
    ∃ y ∈ (s.fault k c x).tasks, y.ctx = t.ctx ∧ y.tcb = t.tcb ∧ y.restarts = t.restarts + 1 ∧ y.nspawn = 0 ∧ y.npend = 0 ∧
      s.core.id ∈ y.excluded

/-- A class-1 trap suspends the task, a class-2 fault ends its launch, a class-3 error restarts it. -/
def Obligations.FaultsThatLeaveTheTask : Prop :=
  Claims.SupervisorTrapSuspends ∧ Claims.SoftwareFaultEndsLaunch ∧ Claims.HardwareErrorRestarts

/-- R15, R29 to R31, R215, R326: power-on and device resets, the time base and the end of bring-up, which gives each enabled compute die its
home memory-side die; a function-level reset of a VF leaves no context of it.
That a reset leaves cores as at power-on and device memory reading 0 is the model's choice (logs 1 and 2), and that the outcome of a stack's
test is the environment's its reading (log 89). -/
def Claims.DeviceAndTimeEvents : Prop :=
  ∀ s : State,
    (∃ t, exec .powerOnReset s = .next t ∧ t.frame = 0 ∧ s.restartedAs (s.input.pairs.map Prod.fst) t) ∧
    (∃ t, exec .deviceReset s = .next t ∧ t.frame = s.frame ∧ s.restartedAs (s.input.pairs.map Prod.fst) t) ∧
    (s.timeBase = true → ∃ t, exec .timeBaseTick s = .next t ∧ t.frame = s.frame + 1 ∧
      t.core = { s.core with watch := if s.core.busy then s.core.watch + 1 else s.core.watch } ∧
      t = { s with frame := t.frame, core := t.core, others := t.others }) ∧
    exec .timeBaseStop s = .next { s with timeBase := false, boot := .packageFault } ∧
    (s.boot = .running → s.ready = false → ∃ t, exec .firmwareInit s = .next t ∧ t = { s with ready := true, homes := t.homes } ∧
      ∀ d m, (d, m) ∈ t.homes ↔ d < 8 ∧ (s.die d).enabled = true ∧
        ((2 * d ∈ s.memStacks ∧ m = 2 * d) ∨ (2 * d ∉ s.memStacks ∧ 2 * d + 1 ∈ s.memStacks ∧ m = 2 * d + 1) ∨
          (2 * d ∉ s.memStacks ∧ 2 * d + 1 ∉ s.memStacks ∧ m = s.homeMd d))) ∧
    (s.input.fn ≠ 0 → ∃ t, exec .functionLevelReset s = .next t ∧ (∀ c ∈ t.ctxs, c.owner ≠ s.input.fn) ∧
      ∀ c ∈ s.ctxs, c.owner = s.input.fn → (∀ x ∈ t.tasks, x.ctx ≠ c.num) ∧ (∀ x ∈ t.streams, x.ctx ≠ c.num))

/-- R145, R152: one prefetch cycle of a port that is active in read mode, at most one for a cycle of the core, and a segment that becomes ON
between two bundles. -/
def Claims.PortAndSegmentEvents : Prop :=
  ∀ s : State,
    let u := s.there
    let x := u.core.a.ports[s.input.port]
    (∃ t, exec .portPrefetch s = .next t ∧ t = u.withArch { u.core.a with ports := t.core.a.ports } ∧
      ∀ g : Port, t.core.a.ports[g] =
        if g = s.input.port ∧ x.act = true ∧ x.mode = false ∧ x.aged = false then { x with age := min 8 (x.age + 1), aged := true }
        else u.core.a.ports[g]) ∧
    (∀ (h : s.input.idx < 16) (f : Bool) (n : Nat), u.core.a.segs[s.input.idx] = .waking f n → n ≤ 1 → u.core.between = true →
      ∃ t, exec .segmentWake s = .next t ∧ t = u.withArch { u.core.a with segs := t.core.a.segs } ∧
        ∀ j : Fin 16, t.core.a.segs[j] = if j.val = s.input.idx then .on else u.core.a.segs[j])

/-- Resets, the time base, ports and segments. -/
def Obligations.DeviceTimeAndPortEvents : Prop :=
  Claims.DeviceAndTimeEvents ∧ Claims.PortAndSegmentEvents

/-- R96, R176, R177: how a check fails: a VCHK when two lanes differ, a narrow-shadow check when for some element the shadow, which is what
`pairs` gives for it, has another sign or exponent, or significand bits further than 1 away. -/
def Claims.CheckFailures : Prop :=
  ∀ (pairs : List (Nat × Nat)) (n : Nat) (k : Check),
    (∀ lane, k.diff = some lane → k.failure pairs n = some (.dupMismatch, BitVec.ofNat 64 lane)) ∧
    (k.diff = none →
      ((∃ e x y, e < 256 ∧ (256 * n + e, y) ∈ pairs ∧ k.elems[e]? = some x ∧
          (x / 256 ≠ y / 256 ∨ x % 256 + 1 < y % 256 ∨ y % 256 + 1 < x % 256)) →
        k.failure pairs n = some (.residue, BitVec.ofNat 64 k.slot)) ∧
      ((¬∃ e x y, e < 256 ∧ (256 * n + e, y) ∈ pairs ∧ k.elems[e]? = some x ∧
          (x / 256 ≠ y / 256 ∨ x % 256 + 1 < y % 256 ∨ y % 256 + 1 < x % 256)) →
        k.failure pairs n = none))

/-- R96, R176, R177, R178: the verdicts of the checks whose cycles have passed.
When none fails they leave together and nothing else changes; of those that fail the first in order of issue is the error, at its bundle
and slot, and the results in flight are discarded. -/
def Claims.CheckVerdicts : Prop :=
  ∀ s : State,
    let u := s.there
    let due := u.core.a.checks.filter (fun k => decide (k.left ≤ 1))
    let verdict (i : Instr) (pairs : List (Nat × Nat)) : Prop :=
      ((∀ (n : Nat) (k : Check), due[n]? = some k → k.failure pairs n = none) →
        exec i s = .next (u.withArch { u.core.a with checks := u.core.a.checks.filter (fun k => decide (1 < k.left)) })) ∧
      (∀ (n : Nat) (k : Check) (c : Cause) (x : Word), due[n]? = some k → k.failure pairs n = some (c, x) →
        (∀ (m : Nat) (j : Check), m < n → due[m]? = some j → j.failure pairs m = none) →
        exec i s = .next ((u.withArch { u.core.a with
          checks := u.core.a.checks.filter (fun j => j ≠ k), flights := [] }).trap k.slot c x false k.pc))
    ((u.core.checkDue false).isSome = true → verdict .shadowCheckVerdict s.input.pairs) ∧
    ((u.core.checkDue true).isSome = true → verdict .vchkVerdict [])

/-- R109, R199, R309, R319: a fault found after issue is raised before the next bundle, a hardware error before the others, else the oldest;
of those that are no hardware error LEASE_EXPIRED is taken first, where a handler is there to take it (that one without a handler is
discarded is log 54); MWAITs whose condition holds fill with the status word; the hang watchdog ends a task whose count has reached its
context's interval. -/
def Claims.FaultsAndWaitsAfterIssue : Prop :=
  ∀ s : State,
    let u := s.there
    let v := u.modCore Core.reach
    let a := v.core.a
    let waits : Prop := a.lx.isSome = true ∧ a.ut = false ∧ a.utvec ≠ 0
    let w := v.withArch { a with lx := if a.ut = false ∧ a.utvec = 0 then none else a.lx }
    (u.core.busy = true → u.core.a.block = none → u.core.arbit = none → u.core.stall = 0 → u.core.entry = 0 → u.core.sealErr = none →
      u.preempting = false → u.hung = false → u.core.a.deferred ≠ [] →
      (∀ pre d post, a.deferred = pre ++ d :: post → (∀ e ∈ pre, e.cause.cls ≠ 3) →
        (d.cause.cls = 3 ∨ (¬waits ∧ pre = [] ∧ ∀ e ∈ post, e.cause.cls ≠ 3)) →
        exec .deferredFault s = .next ((w.modCore (fun c => ({ c with a := { c.a with deferred := pre ++ post } } : Core).openIssue)).trap
          (a.reentry.getD 0) d.cause d.tval true a.pc)) ∧
      (∀ why, a.lx = some why → waits → (∀ e ∈ a.deferred, e.cause.cls ≠ 3) →
        exec .deferredFault s = .next (((w.withArch { w.core.a with lx := none }).modCore Core.openIssue).trap
          (a.reentry.getD 0) .leaseExpired (BitVec.ofNat 64 why) false a.pc))) ∧
    (∃ t, exec .mwaitFill s = .next t ∧ t.core.a.mwaits = u.core.a.mwaits.filter (fun w => !u.core.mwaitDone w) ∧
      (∀ w ∈ u.core.a.mwaits, u.core.mwaitDone w = true → t.core.a.sIsEmpty w.d = false) ∧
      ∀ r : Reg, t.core.a.rd r =
        if r ≠ 0 ∧ ∃ w ∈ u.core.a.mwaits, u.core.mwaitDone w = true ∧ w.d = r then u.core.mstatFields else u.core.a.rd r) ∧
    (∀ c, u.core.busy = true → u.ctx? u.core.a.ctx = some c → c.preempt = none → c.hang ≤ u.core.watch →
      exec .hangWatchdog s =
        .next (u.trap (u.core.a.reentry.getD 0) .watchdog (BitVec.ofNat 64 u.core.watch) false u.core.a.pc))

/-- The verdicts of the checkers, faults found after issue, MWAITs whose condition holds, and the hang watchdog. -/
def Obligations.CheckerAndWatchdogEvents : Prop :=
  Claims.CheckFailures ∧ Claims.CheckVerdicts ∧ Claims.FaultsAndWaitsAfterIssue

/-- R42, R194, R197, R202, R203, R206: when the next row's time has come and nothing holds the row schedule, a row leaves the drain: both paths fold
it, unless NW is set its entry enters the pier, held by the open period, with the codes of the P-path, fl presents it to the bundle of that
cycle, and Z clears the row in both paths.
The row schedule of the cycle then goes on to the next row, or the engine comes free.
A physical fault may first have changed elements of the row in one path.
That the row's entry belongs to the bundle of the cycle in which it leaves is the model's choice (log 73), and so is that the row of MACCRD
counts for CD (log 95). -/
def Claims.DrainRowLeaves : Prop :=
  (∀ (b : Bool) (r : Nat) (t : TileState), t.faultRow b r [] = t) ∧
  ∀ (s : State) (d : DrainOp),
    let u := s.there
    let r := d.row0 + d.next
    let x := (u.core.a.tiles[d.tile]).faultRow s.input.flag r s.input.pairs
    let gp := d.codes (rowGet x.p r)
    let gq := d.codes (rowGet x.q r)
    u.core.a.eng = .drain d → d.wait ≤ 1 → d.fresh = false → d.nw = true ∨ u.core.pier.length < 256 → u.core.busy = true →
    u.core.rowDone = false → u.rowsRun = true →
    ∃ t, exec .drainRowLeave s = .next t ∧
      (let y := t.core.a.tiles[d.tile]
       y.fp = x.fp.foldRow r (rowGet x.p r) ∧ y.fq = x.fq.foldRow r (rowGet x.q r) ∧
       y.cd = (x.cd || (!d.nw && gp != gq)) ∧ y.isOpen = x.isOpen ∧
       ∀ i, rowGet y.p i = (if d.z = true ∧ i = r then 0 else rowGet x.p i) ∧
         rowGet y.q i = (if d.z = true ∧ i = r then 0 else rowGet x.q i)) ∧
      (∀ k : TileNo, k ≠ d.tile → t.core.a.tiles[k] = u.core.a.tiles[k]) ∧
      (d.nw = true → t.core.pier = u.core.pier) ∧
      (d.nw = false → ∃ e, t.core.pier = u.core.pier ++ [e] ∧ e.va = d.addr + BitVec.ofNat 64 (d.next * d.stride) ∧
        (e.cells, e.tags) = rowCells e.va gp ∧ (e.qcells, e.qtags) = rowCells e.va gq ∧ e.spad = inSpad e.va.toNat ∧
        e.drain = some d.id ∧ e.seq = u.core.seq ∧ (x.isOpen = true → (d.tile, x.period) ∈ e.hold)) ∧
      t.core.fl = (if d.fl then some (d.tile, x.period, rowGet x.p r) else u.core.fl) ∧ t.core.rowDone = true ∧
      (d.next + 1 < d.n ∨ d.sealEnd = false → t.rowCycle.core.a.eng =
        (if d.next + 1 < d.n then .drain { d with next := d.next + 1, wait := 1 } else if d.rd then .idle else .timed 1)) ∧
      t.core.spad = u.core.spad ∧ t.mem = u.mem

/-- R204, R205, R208, R209: a seal whose folds and codes match is released with LASTV 1; a mismatch, or a core in single-path mode,
begins the Keystone's test, whose outcome the seals then pending take, or in single-path mode that seal alone; a physical fault may have
changed the folds of one path; an implicit seal of the next tile that hardware has to seal begins as an MSEAL does, and a full pier with no
seal pending calls for every OPEN tile. -/
def Claims.SealVerdictEffects : Prop :=
  ∀ s : State,
    let u := s.there
    let k := s.input.tile
    (∀ ps, (u.core.a.tiles[k]).pending = some ps → u.core.arbit = none → ps.left ≤ 1 →
      (∀ j spc, u.core.a.eng ≠ .sealWait j spc) →
      let bad := Folds.faulted s.input.value s.input.pairs
      let fp := if s.input.flag then bad ps.fp else ps.fp
      let good : Prop := u.core.sp = false ∧ ps.cd = false ∧ fp = (if s.input.flag then ps.fq else bad ps.fq)
      ∃ t, exec .sealVerdict s = .next t ∧
        (good → (t.core.a.tiles[k]).pending = none ∧ t.core.a.stat.lastv = 1 ∧ t.core.arbit = none ∧
          (t.core.a.tiles[k]).lastP = fp ∧ (t.core.a.tiles[k]).p = (u.core.a.tiles[k]).p) ∧
        (¬good → t.core.arbit = some (k, 18432) ∧ t.core.arbitAt = u.frame.toNat ∧ (t.core.a.tiles[k]).pending.isSome = true ∧
          ∀ j, j ∈ t.core.arbitFor ↔ if u.core.sp then j = k else (u.core.a.tiles[j]).pending.isSome = true)) ∧
    ((∀ x : Folds, Folds.faulted 0 [] x = x) ∧ ∀ (x : Folds) (v : Word) (r y : Nat), (Folds.faulted v [(r, y)] x).tf = x.tf ^^^ v ∧
      (y % 2 ^ 64 ≠ 0 → tblGet (Folds.faulted v [(r, y)] x).rs r ≠ tblGet x.rs r)) ∧
    (256 ≤ u.core.pier.length → (∀ j : TileNo, (u.core.a.tiles[j]).pending = none) →
      ∀ j : TileNo, j ∈ u.sealTiles ↔ (u.core.a.tiles[j]).isOpen = true) ∧
    (u.core.a.eng = .idle → u.core.a.routine = none →
      ∀ (j : TileNo) (rest : List TileNo), u.sealTiles = j :: rest → (u.core.a.tiles[j]).pending = none →
      ∃ t ps, exec .implicitSeal s = .next t ∧ (t.core.a.tiles[j]).isOpen = false ∧ (t.core.a.tiles[j]).pending = some ps ∧
        t.core.a.sealq = rest ∧ ps.left = 24 ∧ ps.spc = u.core.a.pc ∧ ps.fp = (u.core.a.tiles[j]).fp ∧ ps.fq = (u.core.a.tiles[j]).fq)

/-- R209 to R213, R216: the Keystone's test names the failing path; the core goes on in single-path mode, or discards what the period holds
and the seal's error is charged to the task; every code but 0 has a record.
Which pending tiles' taint counts for code 3, and when its error is raised, is the model's reading (log 33). -/
def Claims.KeystoneVerdictEffects : Prop :=
  ∀ (s : State) (k : TileNo) (ps : PendSeal),
    let u := s.there
    let test := s.input.test
    let tainted := u.core.arbitFor.any (fun i => ((u.core.a.tiles[i]).pending.map (fun p => p.tainted)).getD false)
    u.core.arbit = some (k, 0) → (u.core.a.tiles[k]).pending = some ps →
    ∃ t, exec .keystoneVerdict s = .next t ∧ t.core.arbit = none ∧
      (let own := if u.core.usesQ then test.nfq else test.nfp
       u.core.sp = true →
        (own = 0 → t.core.err.spt = u.core.err.spt + 1 ∧ t.core.sealErr = u.core.sealErr ∧ t.dies = u.dies) ∧
        (own ≠ 0 → t.core.outOfService = true ∧ t.core.sealErr = some (5, ps.spc) ∧
          t.core.pier = u.core.pier.filter (fun e => !u.core.a.holds e))) ∧
      (u.core.sp = false →
        (test.nfp = 0 → test.nfq ≠ 0 → t.core.sp = true ∧ t.core.faulty = true ∧ t.core.usesQ = u.core.usesQ ∧
          t.core.sealErr = u.core.sealErr) ∧
        (test.nfp ≠ 0 → test.nfq = 0 → t.core.sp = true ∧ t.core.faulty = true ∧ t.core.usesQ = true ∧
          t.core.sealErr = (if tainted then some (3, ps.spc) else u.core.sealErr) ∧
          ∀ j : TileNo, (t.core.a.tiles[j]).p = (u.core.a.tiles[j]).q) ∧
        (test.nfp = 0 → test.nfq = 0 → t.core.sp = false ∧ t.core.sealErr = some (4, ps.spc) ∧
          t.core.outOfService = u.core.outOfService ∧ t.core.pier = u.core.pier.filter (fun e => !u.core.a.holds e) ∧
          ∀ j : TileNo, (t.core.a.tiles[j]).pending = none ∧ (t.core.a.tiles[j]).isOpen = false) ∧
        ((test.nfp = 0 ↔ test.nfq ≠ 0) → (∀ j spc, u.core.a.eng ≠ .sealWait j spc) → ∀ j : TileNo,
          (t.core.a.tiles[j]).pending = if j ∈ u.core.arbitFor then none else (u.core.a.tiles[j]).pending) ∧
        (test.nfp ≠ 0 → test.nfq ≠ 0 → t.core.outOfService = true ∧ t.core.faulty = true ∧ t.core.sealErr = some (5, ps.spc) ∧
          t.core.pier = u.core.pier.filter (fun e => !u.core.a.holds e))) ∧
      (u.core.sp = false → dieOf u.core.id < 8 → ∃ r, (t.die (dieOf u.core.id)).errs = (u.die (dieOf u.core.id)).errs.add 1024 (.seal r) ∧
        r.verdict = (if test.nfp = 0 then (if test.nfq = 0 then 4 else 1) else if test.nfq = 0 then (if tainted then 3 else 2) else 5) ∧
        r.tile = k.val ∧ r.time = u.core.arbitAt ∧ r.spc = ps.spc ∧ r.nfp = test.nfp ∧ r.nfq = test.nfq)

/-- A drained row leaves, a seal has its verdict, and the Keystone decides. -/
def Obligations.SealVerdicts : Prop :=
  Claims.DrainRowLeaves ∧ Claims.SealVerdictEffects ∧ Claims.KeystoneVerdictEffects

/-- R206, R120, R121 with R125: an entry that nothing holds leaves the pier.
A scratchpad entry lands in its bank, and every byte and tag outside it stays; an off-core store joins the outstanding stores, a request
for each part that its pages and declared tiles cut, and home keeps its memory until it acknowledges; a store of one part that faults waits,
held, with its fault.
Each part goes when no earlier access of its queue comes first (R128, R132), no walk keeps it waiting (R104) and its granules are
neighbours, as those of every store are. -/
def Claims.PierEntryLeaves : Prop :=
  ∀ (s : State) (e : PierEntry) (rest : List PierEntry),
    let u := s.there
    u.core.pier = e :: rest → u.core.checked e = true → u.core.a.holds e = false → u.core.leaveAllowed e = true → e.cmd = none →
    u.core.spadOk = true → s.input.flag2 = false →
    let parts := runsOf u.partKey e.granules
    let find (gs : List Nat) := u.locateAllVia u.core.tlb1 u.core.id u.core.a true .write false gs
    let free : Prop := u.core.room e.granules.length = true ∧ u.core.a.memq.all (fun r => !r.held) = true ∧ ∀ gs ∈ parts,
      gs = granuleVas (gs.headD 0) (64 * gs.length) ∧
      ∀ r : MemReq, r.id = e.id → r.lo = gs.headD 0 → r.n = 64 * gs.length → r.load = none → r.drain = none →
        u.storeBehind r = false ∧ u.partWalks r = false
    (e.spad = true → (∀ g ∈ e.granules, isPoison (cellGet 0 u.core.spadTags (g / 64)) = false) →
      ∃ t, exec .pierEntryLeave s = .next t ∧ t.core.pier = rest ∧ t.mem = u.mem ∧ t.memTags = u.memTags ∧
        (∀ a, cellGet 0 t.core.spad a = readAfter 0 u.core.spad e.cells a) ∧
        (∀ g, cellGet 0 t.core.spadTags g = readAfter 0 u.core.spadTags e.tags g) ∧ t.core.outq = u.core.outq) ∧
    (e.spad = false → e.drain = none → free →
      (∀ gs ∈ parts, ∃ locs : List Loc, find gs = .ok locs ∧ ∀ l ∈ locs, ∃ pa pte, l = .phys pa pte) →
      ∃ t rs, exec .pierEntryLeave s = .next t ∧ t.core.pier = rest ∧ t.core.outq = u.core.outq ++ rs ∧ rs.length = parts.length ∧
        (∀ r ∈ rs, r.id = e.id ∧ r.va = e.va ∧ r.ticks = some u.frame.toNat ∧ r.held = false ∧ r.drain = none) ∧
        (∀ c, c ∈ rs.flatMap (fun r => r.cells) ↔ c ∈ e.cells) ∧ (∀ g, g ∈ rs.flatMap (fun r => r.tags) ↔ g ∈ e.tags) ∧
        t.mem = u.mem ∧ t.memTags = u.memTags ∧ t.core.spad = u.core.spad) ∧
    (∀ c x, e.spad = false → e.drain = none → free →
      parts = [e.granules] → find e.granules = .error (c, x) →
      ∃ t y r, exec .pierEntryLeave s = .next t ∧ t.core.a.deferred = u.core.a.deferred ++ [⟨c, y⟩] ∧ t.core.pier = rest ∧
        r ∈ t.core.a.memq ∧ r.id = e.id ∧ r.held = true ∧ r.cells = e.cells ∧ r.tags = e.tags ∧
        t.core.outq.length = u.core.outq.length ∧ t.mem = u.mem ∧ t.core.spad = u.core.spad)

/-- R121, R122, R123, R125: an acknowledged write is performed at home, every other byte staying as it was, and leaves the outstanding
ones; an answer that comes after the request's count of ticks is a TIMEOUT, as is a count that runs out with no answer, and a write that has
expired has reached memory or not. -/
def Claims.StoreEndsAtHome : Prop :=
  ∀ (s : State) (r : MemReq),
    let u := s.there
    u.core.outq[s.input.idx]? = some r →
    (Memory.wf u.mem = true → Memory.tagsWf u.memTags = true → u.ackReady r = true → u.expired r.ctx r.ticks = false →
      u.poisonedBy r = [] →
      ∃ t, exec .storeAcknowledgement s = .next t ∧ t.core.outq = u.core.outq.filter (fun x => !r.same x) ∧
        (∀ a, cellGet 0 t.mem a = readAfter 0 u.mem r.pas a) ∧
        (∀ g, g < 2 ^ 45 → cellGet 0 t.memTags g = readAfter 0 u.memTags r.paTags g) ∧
        t.core.spad = u.core.spad ∧ t.core.a.deferred = u.core.a.deferred) ∧
    (u.ackReady r = true → u.expired r.ctx r.ticks = true → r.cmd = none →
      ∃ t, exec .storeAcknowledgement s = .next t ∧ (∀ x ∈ t.core.outq, r.same x = false) ∧
        t.core.a.deferred = u.core.a.deferred ++ [⟨.timeout, r.va⟩]) ∧
    (s.input.first = 1 → r.held = false → u.expired r.ctx r.ticks = true → r.cmd = none →
      (s.input.flag = true → u.ackReady r = true) →
      ∃ t, exec .requestTimeout s = .next t ∧ (∀ x ∈ t.core.outq, r.same x = false) ∧
        t.core.a.deferred = u.core.a.deferred ++ [⟨.timeout, r.va⟩] ∧ (s.input.flag = false → t.mem = u.mem))

/-- An entry leaves the pier, and a store ends at home. -/
def Obligations.StoresReachMemory : Prop :=
  Claims.PierEntryLeaves ∧ Claims.StoreEndsAtHome

/-- R108, R111, R112, R115, R122, R123, R132: the data of a part of an off-core load arrives when the ordering rules let it be performed; with
the last part the destination fills with the bytes of its granules.
A poisoned granule, an answer after the request's count of ticks, or a request that has expired, leaves the destination empty and is
deferred (TVAL of a deferred POISON is the granule's address by the model's reading, log 98). -/
def Claims.LoadDataArrives : Prop :=
  (∀ (s : State) (r : MemReq) (dst : LoadDst) (locs : List Loc),
    let u := s.there
    let got := u.readLocs s.input.flag locs
    u.core.a.memq[s.input.idx]? = some r → r.load = some dst → r.held = false → r.got = none →
    let open_ : Prop := u.core.loadAllowed r.id = true ∧ (r.ticks.isSome = true ∨ (u.core.room r.requests = true ∧ u.partWalks r = false)) ∧ s.input.flag2 = false
    let fits : Prop := u.loadLocs (granuleVas r.lo r.n) = .ok locs ∧ u.loadNeeds s.input.flag r dst locs = r.n ∧
      memReach r.va.toNat (r.lo + r.n - r.va.toNat) = true ∧
      u.orderedBefore r (u.memTouches .read r.lo r.n) (locs.any (fun l => !l.cached)) r.n = false
    let kept (t : State) : Prop := t.core.a.s = u.core.a.s ∧ t.core.a.v = u.core.a.v ∧ t.mem = u.mem
    let late : Prop := u.expired r.ctx r.ticks = true
    (open_ → ¬late → fits → r.poisoned got.1 = none → u.core.a.memq.filter (fun x => x.id = r.id) = [r] →
      (∀ f, loadResult r.va dst got.1 = .ok f → exec .loadDataArrival s = .next
        (((got.2.withArch (f { got.2.core.a with memq := got.2.core.a.memq.filter (fun x => x.id ≠ r.id) })).spadAcquire r.acq).prunePoints)) ∧
      (∀ c x, loadResult r.va dst got.1 = .error (c, x) → ∃ t, exec .loadDataArrival s = .next t ∧
        t.core.a.deferred = u.core.a.deferred ++ [⟨c, x⟩] ∧ kept t)) ∧
    (open_ → ¬late → fits → r.poisoned got.1 = none →
      (∃ x ∈ u.core.a.memq, x.id = r.id ∧ x.lo ≠ r.lo ∧ x.load.isSome = true ∧ x.got = none) →
      ∃ t x, exec .loadDataArrival s = .next t ∧ kept t ∧ x ∈ t.core.a.memq ∧ x.id = r.id ∧ x.lo = r.lo ∧ x.got = some got.1 ∧
        t.core.a.deferred = u.core.a.deferred) ∧
    (∀ x, open_ → ¬late → fits → r.poisoned got.1 = some x → ∃ t, exec .loadDataArrival s = .next t ∧
      t.core.a.deferred = u.core.a.deferred ++ [⟨.poison, x⟩] ∧ kept t) ∧
    (open_ → late → ∃ t, exec .loadDataArrival s = .next t ∧
      t.core.a.deferred = u.core.a.deferred ++ [⟨.timeout, r.va⟩] ∧ kept t) ∧
    (s.input.first = 0 → late → ∃ t, exec .requestTimeout s = .next t ∧
      t.core.a.deferred = u.core.a.deferred ++ [⟨.timeout, r.va⟩] ∧ kept t)) ∧
  (∀ (va : Word) (n : Nat) (sg : Bool) (d : Reg) (gs : List (Granule × Word)) (a : Arch), n ∈ [1, 2, 4, 8] →
    gs.length = (granuleVas va.toNat n).length → (∀ g ∈ gs, isPoison g.2 = false) → d ≠ 0 →
    let byte (i : Nat) := byteAt va.toNat (gs.map Prod.fst) i
    ∃ f, loadResult va (.scalar d n sg) gs = .ok f ∧ (f a).sIsEmpty d = false ∧
      (∀ r : Reg, r ≠ d → (f a).rd r = a.rd r) ∧
      ∀ i, i < 8 → ((f a).rd d).extractLsb' (8 * i) 8 =
        if i < n then byte i else if sg && (byte (n - 1)).msb then 0xFF else 0) ∧
  (∀ (va : Word) (d : Reg) (gs : List (Granule × Word)) (a : Arch), va.toNat % 64 = 0 → gs.length = 8 → (∀ g ∈ gs, isPoison g.2 = false) →
    ∃ f, loadResult va (.vec d) gs = .ok f ∧ (f a).vIsEmpty d = false ∧
      ∀ j, j < 8 → ((f a).v[d]).granule j = (gs.getD j (0, 0)).1)

/-- R102, R104 to R106: a miss takes one of the 16 walkers of a die; the walk's end fills the die's TLB with the leaf that translates the
address, in a set of at most 8; an acknowledgement drops the context's entries of its die and, with every write of the context that the die
has sent performed, counts, and the last one completes the update; a resynchronised replica is a copy of a current one.
An idle die enters a reset of its own, which empties its TLB, cache and walkers, makes its replicas await a copy and counts as its
acknowledgement, and leaves it.
That a walk is two events and which entry a full set loses is the model's choice (log 12), and that only an idle die is reset alone is, too
(log 90). -/
def Claims.TranslationEvents : Prop :=
  ∀ s : State,
    let i := s.input
    (∀ c, s.ctx? i.ctx = some c → i.die ∉ c.stale → i.die < 8 → (s.die i.die).inReset = false →
      let w : Walk := ⟨i.ctx, i.va.toNat, (tblGet s.homes i.die).getD (s.homeMd i.die)⟩
      let ws := (s.die i.die).walks
      (w ∉ ws → ws.length < 16 → ∃ t, exec .pageWalk s = .next t ∧ (t.die i.die).walks = ws ++ [w] ∧ t = { s with dies := t.dies }) ∧
      (∀ l, w ∈ ws → walk ((tblGet c.replicas i.die).getD []) i.va.toNat = some l → 0 < l.size → i.first = 0 →
        ∃ t, exec .pageWalk s = .next t ∧ t.leaf? i.die i.ctx i.va.toNat = some (l.pte, l.size) ∧
          (t.die i.die).walks = ws.erase w ∧ t.mem = s.mem ∧ t.ctxs = s.ctxs ∧
          let e : TlbEntry := ⟨i.ctx, i.va.toNat / l.size * l.size, l.size, l.pte⟩
          ((t.die i.die).tlb.filter (fun x => x.set = e.set)).length ≤ 8 ∧ e ∈ (t.die i.die).tlb ∧
          (t.die i.die).tlb.filter (fun x => x.set ≠ e.set) = (s.die i.die).tlb.filter (fun x => x.set ≠ e.set))) ∧
    (∀ u rest, s.updates = u :: rest → i.die ∈ u.waiting → i.die < 8 → u.fn ≠ 255 →
      ∃ t, exec .tlbInvalidateAck s = .next t ∧ (∀ e ∈ (t.die i.die).tlb, e.ctx ≠ u.ctx) ∧ t.mem = s.mem ∧
        (s.settledOn i.die u.ctx = false → t.updates = s.updates ∧ t.mail = s.mail) ∧
        (s.settledOn i.die u.ctx = true → (∃ d ∈ u.waiting, d ≠ i.die) →
          t.updates = { u with waiting := u.waiting.filter (fun d => d ≠ i.die) } :: rest ∧ t.mail = s.mail) ∧
        (s.settledOn i.die u.ctx = true → (∀ d ∈ u.waiting, d = i.die) →
          ∃ v more, t.mail = s.mail ++ [⟨u.fn, u.seq, 0, 0, v⟩] ++ more)) ∧
    (∀ c d r, i.first = 0 → s.ctx? i.ctx = some c → i.die ∈ c.stale → (s.die i.die).inReset = false →
      c.replicas.find? (fun x => !c.stale.contains x.1) = some (d, r) →
      s.updates = [] ∨ (∃ u ∈ s.updates, u.waiting ≠ []) →
      ∃ t c', exec .replicaResync s = .next t ∧ t.ctx? i.ctx = some c' ∧ i.die ∉ c'.stale ∧ tblGet c'.replicas i.die = some r ∧
        ∀ x, x ≠ i.die → (x ∈ c'.stale ↔ x ∈ c.stale)) ∧
    (i.first = 1 → i.die < 8 → (s.die i.die).enabled = true → (s.die i.die).inReset = false → (s.die i.die).queue = [] →
      (s.die i.die).armed = [] →
      (∀ c ∈ s.coreIds, dieOf c = i.die → let x := s.getCore c
        x.busy = false ∧ x.inl = [] ∧ x.queue = [] ∧ x.ca = [] ∧ x.cb = [] ∧ x.subs = [] ∧ x.outq = []) →
      ∃ t, exec .replicaResync s = .next t ∧ (t.die i.die).inReset = true ∧ (t.die i.die).tlb = [] ∧ (t.die i.die).cache = [] ∧
        (t.die i.die).walks = [] ∧ t.mem = s.mem ∧
        (∀ n c, s.ctx? n = some c → tblGet c.replicas i.die ≠ none → ∃ c', t.ctx? n = some c' ∧ i.die ∈ c'.stale) ∧
        (∀ u rest, s.updates = u :: rest → i.die ∈ u.waiting → (∃ d ∈ u.waiting, d ≠ i.die) →
          t.updates = { u with waiting := u.waiting.filter (fun d => d ≠ i.die) } :: rest)) ∧
    (i.first = 2 → i.die < 8 → ∃ t, exec .replicaResync s = .next t ∧ (t.die i.die).inReset = false ∧ t = { s with dies := t.dies })

/-- R123, R337: a dirty line that is lost leaves its granule poisoned and a record in the host management log. -/
def Claims.LostLineIsPoisoned : Prop :=
  ∀ s : State, s.populated s.input.off = true →
    ∃ t r, exec .dirtyLineEviction s = .next t ∧ isPoison (cellGet 0 t.memTags (s.input.off / 64)) = true ∧ t.mem = s.mem ∧
      t.hostLog = s.hostLog.add logCap r ∧ r.type = 3 ∧ r.addr = s.input.off / 64 * 64 ∧ r.frame = s.frame.toNat ∧
      t.core = s.core ∧ t.others = s.others

/-- Load data arrives, translations change, and a lost line is poison. -/
def Obligations.LoadsAndTranslations : Prop :=
  Claims.LoadDataArrives ∧ Claims.TranslationEvents ∧ Claims.LostLineIsPoisoned

/-- R290 to R292: the head request of a cluster is granted when the balance allows, as copy credit or to the routine that waits. -/
def Claims.TokenGrants : Prop :=
  ∀ (s : State) (r : TokenReq) (rest : List TokenReq),
    let c := s.clusters[s.input.cluster]
    c.reqs = r :: rest →
    ((c.balance < ((min r.n (2 * c.refill) : Nat) : Int)) → exec .tokenGrant s = .next s) ∧
    ((((min r.n (2 * c.refill) : Nat) : Int) ≤ c.balance) → ∃ t, exec .tokenGrant s = .next t ∧
      t.clusters = s.clusters.set s.input.cluster { c with reqs := rest, balance := c.balance - r.n, drawn := c.drawn + r.n } ∧
      (∀ d, r.dst = some d → d ≠ 0 → ((t.getCore r.core).a.rd d = BitVec.ofNat 64 r.n ∧
        (t.getCore r.core).a.sIsEmpty d = false ∧
        (t.getCore r.core).a.credit = min (1048575 * 16384) ((s.getCore r.core).a.credit + r.n * 16384))) ∧
      (∀ n, r.dst = none → (s.getCore r.core).a.eng = .tokens n →
        (t.getCore r.core).a.stat.pw = false ∧ (t.getCore r.core).a.eng = .timed n))

/-- R289, R290, R297, R299, R303: an epoch boundary moves the heat store, refills every balance up to twice the refill and shares the pool
between 122 and 752 tokens a cluster; a lease past its expiry ends with the trap pending; a measurement keeps the largest drift. -/
def Claims.EpochLeaseAndWearEvents : Prop :=
  ∀ s : State,
    let f := s.frame.toNat
    let mw := s.input.len
    (f % 1000 ≠ 0 ∨ f / 1000 = s.epoch → exec .refillEpoch s = .next s) ∧
    (f % 1000 = 0 → f / 1000 ≠ s.epoch → ∃ t, exec .refillEpoch s = .next t ∧ t.epoch = f / 1000 ∧ t.frame = s.frame ∧
      t.heat = (if 2400000 < mw then min ecap (s.heat + (mw - 2400000) * 100) else s.heat - (2400000 - mw) * Config.rfPercent) ∧
      t.melt = min 1023 (1024 * t.heat / ecap) ∧
      ∀ n : Fin 32, (s.clusters[n]).enabled ≠ [] →
        let c := t.clusters[n]
        c.drawn = 0 ∧ c.balance = min ((s.clusters[n]).balance + c.refill) (2 * c.refill) ∧
        (∀ l, c.lease = some l → c.refill = 8 * l.level / 10) ∧ (c.lease = none → 122 ≤ c.refill ∧ c.refill ≤ 752)) ∧
    (∀ l, (s.clusters[s.input.cluster]).lease = some l → l.expiry ≤ f →
      ∃ t, exec .leaseExpiry s = .next t ∧ (t.clusters[s.input.cluster]).lease = none ∧
        (s.core.id = l.core → s.core.busy = true → s.core.a.tcb = l.tcb → t.core.a.lx = some 0)) ∧
    (f % 100000000 = 0 → ∃ t, exec .wearMeasurement s = .next t ∧ ∀ n : Fin 32,
      (t.clusters[n]).time = f ∧ (t.clusters[n]).enabled = (s.clusters[n]).enabled ∧
      (∀ k, (s.clusters[n]).drifts.getD k 0 ≤ (t.clusters[n]).drifts.getD k 0) ∧
      ∀ p ∈ s.input.pairs, clusterOf p.1 = n.val → p.1 % 9 < (s.clusters[n]).drifts.length →
        (Config.birthFreq - p.2) * 10000 / Config.birthFreq ≤ (t.clusters[n]).drifts.getD (p.1 % 9) 0)

/-- Token grants, epochs, leases and wear. -/
def Obligations.PowerEvents : Prop :=
  Claims.TokenGrants ∧ Claims.EpochLeaseAndWearEvents

/-- The six counts of a gang's entry (R271): P, N, A, N1, E, D1. -/
structure Claims.Counts where
  p : Nat
  n : Nat
  a : Nat
  n1 : Nat
  e : Nat
  d1 : Nat

/-- The counts that a gang's entry holds. -/
def Claims.countsOf (g : Gang) : Claims.Counts := ⟨g.p, g.n, g.a, g.n1, g.e, g.d1⟩

/-- R275: the completion check, which leaves no gang when it leaves N1 = 0. -/
def Claims.Counts.checked (c : Claims.Counts) : Option Claims.Counts :=
  if c.a ≠ c.n then some c
  else if c.n1 - c.d1 = 0 then none
  else some ⟨(c.p + 1) % 2 ^ 32, c.n1, c.e, c.n1 - c.d1, 0, 0⟩

/-- R274: `j` joins at a gang, absent or present. -/
def Claims.Counts.joined (j : Nat) : Option Claims.Counts → Option Claims.Counts
  | some c => some { c with n1 := c.n1 + j }
  | none => if j = 0 then none else some ⟨0, 1, 0, j, 0, 0⟩

/-- R271, R274, R275: in one cycle of a gang the drops, arrivals and leaves that reach it for phase P and for P + 1 change the counts, the
completion check acts once, and the joins count after it; without a gang the joins make one.
An SSTEP arrives as a plain arrival does. -/
def Claims.GangCounts : Prop :=
  ∀ (s : State) (l : Word × Nat),
    let i := s.input
    let rs := s.reaching i.ctx i.va i.pairs
    let at_ (t : State) : Option Gang := t.gangs.find? (fun g => g.ctx = i.ctx && g.va = i.va)
    let joins := rs.countP (fun r => r.o.kind = .join)
    s.leaf? (s.ctxDie i.ctx) i.ctx i.va.toNat = some l →
    (at_ s = none → ∃ t, exec .gangCycle s = .next t ∧ (at_ t).map Claims.countsOf = Claims.Counts.joined joins none) ∧
    (∀ g, at_ s = some g →
      let next := (g.p + 1) % 2 ^ 32
      let num (k : GangKind) (ph : Nat) : Nat := rs.countP (fun r => r.o.kind = k && r.o.ph = ph)
      let arrived (ph : Nat) : Nat := num (.arrive false) ph + num .sstep ph
      (∀ r ∈ rs, r.o.kind = .join ∨ (∃ b, r.o.kind = .bwait b) ∨ r.o.ph = g.p ∨ r.o.ph = next) →
      ∃ t, exec .gangCycle s = .next t ∧
        (at_ t).map Claims.countsOf = Claims.Counts.joined joins (Claims.Counts.checked
          ⟨g.p, g.n - num .leave g.p, g.a + num (.arrive true) g.p + arrived g.p,
            g.n1 - num (.arrive true) g.p - num .leave g.p - num .leave next,
            g.e + num (.arrive true) next + arrived next, g.d1 + num (.arrive true) next⟩))

/-- R274, R275, R277, R279: what the destinations of gang operations fill with, and when: a join with the phase from which it counts, an
arrival with its phase, at once or when that phase becomes the current one, a wait and an SSTEP when their phase completes. -/
def Claims.GangAnswers : Prop :=
  ∀ (s : State) (l : Word × Nat) (o : GangOp) (w : Word),
    let i := s.input
    let at_ (t : State) : Option Gang := t.gangs.find? (fun g => g.ctx = i.ctx && g.va = i.va)
    let fills (x : Nat) : Prop := ∃ t, exec .gangCycle s = .next t ∧ t.core.a.rd o.dst = BitVec.ofNat 64 x ∧
      t.core.a.sIsEmpty o.dst = false ∧ ∀ y ∈ t.core.a.gangOps, y.id ≠ o.id
    let registers (ws : Gang → List GangWait) (b : Nat) : Prop := ∃ t g, exec .gangCycle s = .next t ∧ at_ t = some g ∧
      (⟨w, o.id, b⟩ : GangWait) ∈ ws g ∧ t.core.a.s = s.core.a.s ∧ t.core.a.sEmpty = s.core.a.sEmpty ∧
      { o with sent := true } ∈ t.core.a.gangOps
    let others (g : Gang) : Prop := ∀ x ∈ g.waits ++ g.early, x.tcb ≠ w
    s.leaf? (s.ctxDie i.ctx) i.ctx i.va.toNat = some l → s.core.runs i.ctx w = true → o.dst ≠ 0 →
    s.core.a.gangOps.find? (fun y => y.id = o.id) = some o →
    (s.reaching i.ctx i.va i.pairs = [⟨s.core.id, w, o⟩] →
      (at_ s = none → o.kind = .join → fills 0) ∧
      (∀ g, at_ s = some g → others g → g.p < 2 ^ 32 →
        let next := (g.p + 1) % 2 ^ 32
        (o.kind = .join → ¬(g.a = g.n ∧ g.n1 - g.d1 = 0) → fills (((if g.a = g.n then next else g.p) + 1) % 2 ^ 32)) ∧
        (∀ drop, o.kind = .arrive drop → o.ph = g.p → fills o.ph) ∧
        (∀ drop, o.kind = .arrive drop → o.ph = next → (g.a = g.n → fills o.ph) ∧ (g.a ≠ g.n → registers Gang.early o.ph)) ∧
        (o.kind = .sstep → o.ph = g.p → (g.a + 1 = g.n → fills next) ∧ (g.a + 1 ≠ g.n → registers Gang.waits o.ph)) ∧
        (o.kind = .leave → ∃ t, exec .gangCycle s = .next t ∧ ∀ y ∈ t.core.a.gangOps, y.id ≠ o.id) ∧
        (∀ b, b < 2 ^ 32 → o.kind = .bwait b → g.a ≠ g.n →
          let behind := (g.p + 2 ^ 32 - b) % 2 ^ 32
          (1 ≤ behind ∧ behind ≤ 2 ^ 31 → fills g.p) ∧ (behind = 0 ∨ 2 ^ 31 < behind → registers Gang.waits b)))) ∧
    (∀ g, s.reaching i.ctx i.va i.pairs = [] → at_ s = some g → g.a = g.n →
      let next := (g.p + 1) % 2 ^ 32
      (∀ b, (o.kind = .arrive true ∨ o.kind = .arrive false) → g.early = [⟨w, o.id, b⟩] → (∀ x ∈ g.waits, x.tcb ≠ w) → fills b) ∧
      (∀ b, b < 2 ^ 32 → ((∃ c, o.kind = .bwait c) ∨ o.kind = .sstep) → g.waits = [⟨w, o.id, b⟩] → (∀ x ∈ g.early, x.tcb ≠ w) →
        1 ≤ (next + 2 ^ 32 - b) % 2 ^ 32 → (next + 2 ^ 32 - b) % 2 ^ 32 < 2 ^ 31 → fills next))

/-- R271, R283: a gang operation whose address has no translation is a deferred PAGE of its task, and leaves the gangs as they were unless
the gang's own phase completes; a barrier's phase completes for the task that waits. -/
def Claims.GangPagesAndBarriers : Prop :=
  ∀ s : State,
    let u := s.there
    let i := s.input
    (∀ r, s.leaf? (s.ctxDie i.ctx) i.ctx i.va.toNat = none → s.reaching i.ctx i.va i.pairs = [r] → s.core.runs i.ctx r.tcb = true →
      (∀ g ∈ s.gangs, g.ctx = i.ctx → g.va = i.va → g.a ≠ g.n) →
      (∀ d ∈ s.core.a.deferred, d ≠ ⟨.page, i.va⟩) →
      ∃ t, exec .gangCycle s = .next t ∧ t.core.a.deferred = s.core.a.deferred ++ [⟨.page, i.va⟩] ∧
        t.core.a.gangOps = s.core.a.gangOps ∧ t.gangs = s.gangs) ∧
    (∀ d : Reg, let a := u.core.a
      let off := u.barrierBase a.ctx + 8 * i.sb.val
      let w : Word := BitVec.ofNat 64 (natOfBytes ((List.range 8).map (fun k => cellGet 0 u.core.spad (off + k))))
      let exp := (w.extractLsb' 32 30).toNat
      let cnt := (w.extractLsb' 0 30).toNat
      u.core.busy = true → u.core.inl = [] → (∀ t ∈ u.tasks, t.saved = none) → a.tcwaits = [(i.sb, d)] → a.tcfresh = [] →
      w.getLsbD 62 = true → exp ≤ cnt → d ≠ 0 → Memory.wf u.core.spad = true →
      ∃ t, exec .tcwaitPhaseComplete s = .next t ∧ t.core.a.tcwaits = [] ∧
        t.core.a.rd d = (flag (!w.getLsbD 63) ++ 0#1 ++ 0#30 ++ 0#2 ++ BitVec.ofNat 30 (cnt - exp) : Word) ∧
        t.core.a.sIsEmpty d = false ∧
        (∀ k, k < 8 → cellGet 0 t.core.spad (off + k) = (t.core.a.rd d).extractLsb' (8 * k) 8) ∧
        ∀ k, k < off ∨ off + 8 ≤ k → cellGet 0 t.core.spad k = cellGet 0 u.core.spad k)

/-- R122, R285, R286: a held read of a cell counts its ticks from when it leaves the die, and past its context's TIMEOUT is a deferred fault;
before, the cell's state returns to FGET or FWAIT; a wait runs out, of the core or of a suspended task. -/
def Claims.CellReads : Prop :=
  ∀ s : State,
    let u := s.there
    let i := s.input
    let late := u.overdue u.core.fetchAt
    let v := u.modCore (fun c => { c with fetchAt := none })
    let ready : Prop := u.core.readAllowed = true ∧ u.core.a.deferred = []
    (∀ d va, ready → u.core.a.block = some (.fget d va) ∨ (∃ sp til seen, u.core.a.block = some (.fwait d va sp til seen)) →
      (i.fn = 1 → late = false → exec .fgetResponse s =
        .next (u.modCore (fun c => { c with fetchAt := some (u.core.fetchAt.getD u.frame.toNat) }))) ∧
      (late = true → exec .fgetResponse s = .next (v.defer .timeout va)) ∧
      (i.fn ≠ 1 → late = false → ∀ c, v.readCell va = .error c → exec .fgetResponse s = .next (v.cellTrap d c va))) ∧
    (∀ d va, ready → i.fn ≠ 1 → late = false → u.core.a.block = some (.fget d va) →
      (∀ x, v.readCell va = .ok (some x) →
        exec .fgetResponse s = .next (((v.withArch (v.core.a.fillS d x)).acquire .package).finishSlot7)) ∧
      (v.readCell va = .ok none → exec .fgetResponse s = .next (v.cellTrap d .futEmpty va))) ∧
    (∀ d va spin til seen, ready → i.fn ≠ 1 → late = false → u.core.a.block = some (.fwait d va spin til seen) →
      (∀ x, v.readCell va = .ok (some x) →
        exec .fgetResponse s = .next (((v.withArch (v.core.a.fillS d 1)).acquire .package).finishSlot7)) ∧
      (v.readCell va = .ok none → spin = false → exec .fgetResponse s = .next (v.heldBy (.suspend (.future d va til)))) ∧
      (∀ n, v.readCell va = .ok none → spin = true → til = some n →
        (u.frame.toNat < n → exec .fgetResponse s = .next (v.heldBy (.fwait d va spin til true))) ∧
        (n ≤ u.frame.toNat → exec .fgetResponse s = .next ((v.withArch (v.core.a.fillS d 0)).finishSlot7)))) ∧
    (∀ d va til n, u.core.a.block = some (.fwait d va true til true) → til = some n → n ≤ u.frame.toNat →
      exec .fwaitTimeout s = .next ((u.withArch (u.core.a.fillS d 0)).finishSlot7)) ∧
    (∀ t d va n, u.core.a.block = none → u.task? i.ctx i.va = some t → t.wait = some (.future d va (some n)) → t.st = .suspended →
      n ≤ u.frame.toNat → exec .fwaitTimeout s = .next ((u.fillFor i.ctx i.va d 0).readyPinned i.ctx i.va))

/-- R271 to R279, R283 to R286: what a gang's cycle does to its counts and its members, and how barriers and cells answer.
A core's GJOIN whose answer is outstanding leaves the later operations of its task counting from 0 (log 20). -/
def Obligations.SynchronisationEvents : Prop :=
  Claims.GangCounts ∧ Claims.GangAnswers ∧ Claims.GangPagesAndBarriers ∧ Claims.CellReads

/-- R122, R219, R220, R224, R225: a command that is performed leaves its queue and fills its token with its status word.
A request that leaves the die counts ticks from there; a one-granule copy within the own scratchpad, whose source it read on leaving the
pier, moves 64 bytes and the tag and nothing else, and a CFENCE with nothing left to wait for completes. -/
def Claims.CopyCommandsComplete : Prop :=
  (∀ (u : State) (q : CopyQ) (k : CopyCmd) (x : Word), u.core.runs k.ctx k.tcb = true →
    let t := u.finishCmd q k x
    t.core.queueOf q = (u.core.queueOf q).filter (fun c => c.id ≠ k.id) ∧ t.mem = u.mem ∧ t.core.spad = u.core.spad ∧
    ∀ r : Reg, t.core.a.rd r = (if r = k.tok ∧ r ≠ 0 then x else u.core.a.rd r) ∧
      t.core.a.sIsEmpty r = (u.core.a.sIsEmpty r && r != k.tok)) ∧
  (∀ (s : State) (k : CopyCmd),
    let u := s.there
    let i := s.input
    (u.core.queueOf i.queue)[i.idx]? = some k → u.cmdReady i.queue k = true → u.expired k.ctx k.sent = false →
    (∀ dst src rowlen nrows ss ds cnt, k.kind = .block dst src rowlen nrows ss ds cnt →
      (i.fn = 1 → exec .copyComplete s = .next (u.sendCmd i.queue k)) ∧
      (i.fn ≠ 1 → k.read = true → exec .copyComplete s = .next
        (u.copyBlock i.queue k i.first i.count i.flag (if i.flag2 then some i.first else none)))) ∧
    (∀ (dst src : Word) (g : Granule) (tag : Word), k.kind = .block dst src 64 1 0 0 none → k.done = 0 → k.read = true →
      k.data = [(0, (g, tag))] → i.fn ≠ 1 → i.first = 0 → i.count = 0 → i.flag2 = false → u.cmd? i.queue k.id = some k →
      u.core.writing i.queue k.id = false → u.core.engineRoom = true → u.saving k.ctx = false →
      u.placesReady i.queue k (u.rangeTouches u.core.a .write dst.toNat 64) = true →
      u.core.runs k.ctx k.tcb = true → u.core.a.views = [] → u.core.spadOk = true →
      inSpad dst.toNat = true → dst.toNat % 64 = 0 → barrierHit (u.barrierBase k.ctx) (spadOff dst) 64 = false → isPoison tag = false →
      ∃ t, exec .copyComplete s = .next t ∧ (k.tok ≠ 0 → t.core.a.rd k.tok = 0x0000004000000000) ∧
        t.core.queueOf i.queue = (u.core.queueOf i.queue).filter (fun c => c.id ≠ k.id) ∧ t.mem = u.mem ∧
        (∀ a, cellGet 0 t.core.spad a =
          if spadOff dst ≤ a ∧ a < spadOff dst + 64 then g.extractLsb' (8 * (a - spadOff dst)) 8 else cellGet 0 u.core.spad a) ∧
        ∀ j, cellGet 0 t.core.spadTags j = if j = spadOff dst / 64 then tag else cellGet 0 u.core.spadTags j) ∧
    (∀ cl, k.kind = .cfence cl →
      exec .copyComplete s = .next (if u.fenceWaits k cl then u else u.finishCmd i.queue k 0)) ∧
    (∀ sb, k.kind = .unsub sb ∨ k.kind = .slotrel sb → u.core.subs = [] → k.done ≠ 1 →
      exec .copyComplete s = .next (u.finishCmd i.queue k 2)))

/-- R222, R235: a paused command or subscription goes on once its page is mapped; where firmware has none to give, it ends with PROT. -/
def Claims.PausedTransfersResume : Prop :=
  ∀ s : State,
    let u := s.there
    let i := s.input
    (∀ k va, i.flag2 = false → (u.core.queueOf i.queue)[i.idx]? = some k → k.paused = some va →
      let v := u.onCmd i.queue k.id (fun x => { x with paused := none, sent := none })
      (u.mapped k.ctx va = true → exec .copyResume s = .next
        (if k.out then v.tryFetch i.queue { k with paused := none, sent := none } none else v)) ∧
      (u.mapped k.ctx va = false → exec .copyResume s = .next (if i.flag then u.failCmd i.queue k .prot va else u))) ∧
    (∀ x va, i.flag2 = true → u.core.subs[i.idx]? = some x → x.paused = some va →
      (u.mapped x.ctx va = true → exec .copyResume s = .next (u.onSub x.sb0 (fun y => { y with paused := none }))) ∧
      (u.mapped x.ctx va = false → i.flag = false → exec .copyResume s = .next u) ∧
      (u.mapped x.ctx va = false → i.flag = true → ∃ t, exec .copyResume s = .next t ∧
        (∀ y ∈ t.core.subs, y.sb0 ≠ x.sb0) ∧
        (u.core.runs x.ctx x.tcb = true → t.core.a.deferred = u.core.a.deferred ++ [⟨.prot, va⟩])))

/-- Copy commands complete, and paused transfers go on. -/
def Obligations.CopyTransfersComplete : Prop :=
  Claims.CopyCommandsComplete ∧ Claims.PausedTransfersResume

/-- R226 to R231: an atomic reads, changes and answers once at its port, which records its number and its result, and every other byte of
memory stays; sent again with its number it changes nothing and answers as it did; a lost response, which the command remembers until it is
sent again, or a busy port only delays it.
Which older accesses come before an atomic at its port is the model's reading (logs 18, 19 and 38). -/
def Obligations.AtomicsApplyOnce : Prop :=
  (∀ (s : State) (k : CopyCmd) (pa : Nat) (pte : Word),
    let u := s.there
    let i := s.input
    let a := u.archOf k.ctx k.tcb
    let va := k.addr.toNat
    let n := k.portBytes
    let p := pa / 64 * 64 + va % 64
    let op := k.portOp (readNat u.mem p n)
    (u.core.queueOf i.queue)[i.idx]? = some k → k.isAtomic = true → k.applied = none → u.expired k.ctx k.sent = false →
    i.fn ≠ 1 → i.flag2 = false → (∀ o d x m, k.kind = .acc o d x m → k.read = true) →
    k.sent.isSome = true ∨ u.core.engineRoom = true → (granuleVas va n).any (u.walkWaits [] u.core.id a) = false → pa < 2 ^ 53 →
    u.cmdReady i.queue k = true → u.core.atomicsBefore k.id < 64 →
    u.placesReady i.queue k (u.rangeTouches a .update va n) = true →
    (∀ sl off, windowOf va ≠ .peer sl off) → 0 < n → va % 64 + n ≤ 64 →
    u.locateAll u.core.id a true .update true (granuleVas va n) = .ok [.phys pa pte] → isPoison (u.granule pa).2 = false →
    u.placeViolates k.ctx k.tcb a va (.phys pa pte) = false → Memory.wf u.mem = true → u.core.runs k.ctx k.tcb = true → k.tok ≠ 0 →
    (∀ x ∈ u.tasks, ∀ d c til, x.wait ≠ some (.future d c til)) →
    let same (e : Dedup) : Bool := e.src = k.src.getD u.core.id && e.seqNo = k.seqNo.getD 0
    let answered (t : State) (x : Word) : Prop :=
      (i.flag = false → t.core.a.rd k.tok = x ∧ t.core.queueOf i.queue = (u.core.queueOf i.queue).filter (fun c => c.id ≠ k.id)) ∧
      (i.flag = true → t.core.a.s = u.core.a.s ∧ t.core.a.sEmpty = u.core.a.sEmpty ∧
        t.core.queueOf i.queue = (u.core.queueOf i.queue).map (fun c =>
          if c.id = k.id then { c with applied := some x, sent := some (k.sent.getD u.frame.toNat) } else c))
    ((u.portTable (.phys pa pte)).find? same = none →
      ∃ t, exec .atomicApply s = .next t ∧ answered t op.result ∧
        (t.portTable (.phys pa pte)).find? same = some ⟨k.src.getD u.core.id, k.seqNo.getD 0, BitVec.ofNat 64 pa, op.vals, op.result⟩ ∧
        (∀ b, cellGet 0 t.mem b = if p ≤ b ∧ b < p + n then BitVec.ofNat 8 (op.new / 2 ^ (8 * (b - p))) else cellGet 0 u.mem b) ∧
        t.memTags = u.memTags) ∧
    (∀ e, (u.portTable (.phys pa pte)).find? same = some e → k.dup = none →
      ∃ t, exec .atomicApply s = .next t ∧ answered t e.result ∧ t.mem = u.mem ∧ t.memTags = u.memTags ∧
        (t.portTable (.phys pa pte)).find? same = some e)) ∧
  (∀ (k : CopyCmd) (old : Nat) (w : Bool) (a b c : Word),
    let m : Nat := if w then 2 ^ 64 else 2 ^ 32
    let op := k.portOp old
    (k.kind = .cas a w b c → op.result = BitVec.ofNat 64 old ∧ op.new = if old = b.toNat % m then c.toNat % m else old) ∧
    (k.kind = .faa a w b → op.result = BitVec.ofNat 64 old ∧ op.new = (old + b.toNat) % m) ∧
    (k.kind = .xchg a w b → op.result = BitVec.ofNat 64 old ∧ op.new = b.toNat % m) ∧
    (k.kind = .fput a b → op.result = BitVec.ofNat 64 (old / 2 ^ 64) ∧
      op.new = if old / 2 ^ 64 = 0 then b.toNat + 2 ^ 64 else old)) ∧
  (∀ (s : State) (k : CopyCmd),
    let u := s.there
    let i := s.input
    (u.core.queueOf i.queue)[i.idx]? = some k → u.expired k.ctx k.sent = false →
    (k.sent.isSome = true → k.busy = none → k.retry < 3 →
      let k' : CopyCmd := { k with applied := none, retry := k.retry + 1 }
      let v := u.onCmd i.queue k.id (fun _ => k')
      (∀ x, k.applied = some x → exec .atomicResend s = .next (v.answerAtomic i.queue k' x i.flag)) ∧
      (k.applied = none → exec .atomicResend s = .next (v.atomicArrive i.queue k' i.flag false none))) ∧
    (∀ f, k.busy = some f → (u.frame.toNat < f → exec .atomicBusyRetry s = .next u) ∧
      (f ≤ u.frame.toNat →
        let k' : CopyCmd := { k with busy := none }
        let v := u.onCmd i.queue k.id (fun _ => k')
        exec .atomicBusyRetry s = .next (if v.cmdReady i.queue k' then v.atomicArrive i.queue k' i.flag false none else v))))

/-- R232, R233, R280, R281, R288: a subscription is accepted by its memory-side die, the 257th by firmware; a loader moves a granule into the
slot that fills, or takes a FREE one, and a storer moves one out to memory; each adds its 64 bytes to CNT of the slot's barrier, which keeps
PH, XS and EXP.
That a storer writes as a copy engine does, and for a restartable task only within its views, is the model's reading (log 39). -/
def Claims.RingTransfers : Prop :=
  (∀ (s : State) (k : CopyCmd) (d : RingDir) (sb : Fin 64) (x : Subscription) (md : Nat),
    let u := s.there
    let i := s.input
    (u.core.queueOf i.queue)[i.idx]? = some k → u.cmdReady i.queue k = true → u.expired k.ctx k.sent = false → i.fn ≠ 1 →
    k.kind = .subs d sb → u.core.subs.find? (fun y => y.sb0 = sb.val) = some x → u.subMd (dieOf u.core.id) x = some md →
    (u.subsOf md < 256 ∨ i.flag = true → exec .subscriptionAccept s =
      .next ((u.onSub sb.val (fun y => { y with accepted := true })).finishCmd i.queue k 0)) ∧
    (256 ≤ u.subsOf md → i.flag = false → exec .subscriptionAccept s = .next (u.askFor 3 k.ctx (tcbOf k.tcb)))) ∧
  (∀ (s : State) (x : Subscription) (pa : Nat) (pte : Word),
    let u := s.there
    let off := x.ring + x.slot * x.slotsz + x.off
    let base := u.barrierBase x.ctx
    let barrier (v : State) : Word :=
      BitVec.ofNat 64 (natOfBytes ((List.range 8).map (fun k => cellGet 0 v.core.spad (base + 8 * (x.sb0 + x.slot) + k))))
    let counted (t : State) : Prop := (barrier t).extractLsb' 32 32 = (barrier u).extractLsb' 32 32 ∧
      ((barrier t).extractLsb' 0 30).toNat = min (2 ^ 30 - 1) (((barrier u).extractLsb' 0 30).toNat + 64)
    Memory.wf u.core.spad = true → s.input.fn ≠ 1 → u.core.subs[s.input.idx]? = some x → x.accepted = true → x.paused = none → u.saving x.ctx = false → s.input.flag = false →
    off % 64 = 0 → x.off + 64 < x.nrow * x.rowlen → x.sb0 + x.slot < 64 → u.subInView x (x.va x.off) = false →
    (x.dir = .inp → x.slots.getD x.slot .filled = .filling ∨ (x.slots.getD x.slot .filled = .free ∧ x.stopping = [] ∧
        (x.count = 0 ∨ x.tile < x.count) ∧ ∀ r ∈ x.relTok, r.1 ≠ x.slot) →
      (∀ y ∈ u.core.subs, y.sb0 = x.sb0 → y = x) → barrierHit base off 64 = false → u.subLoc x .read false (x.va x.off) = .ok (.phys pa pte) → isPoison (u.granule pa).2 = false →
      ∃ t, exec .loaderPush s = .next t ∧ t.mem = u.mem ∧ counted t ∧
        (∃ y ∈ t.core.subs, y.sb0 = x.sb0 ∧ y.off = x.off + 64 ∧ y.slots.getD x.slot .filled = .filling) ∧
        (∀ j, j < 64 → cellGet 0 t.core.spad (off + j) = cellGet 0 u.mem (pa / 64 * 64 + j)) ∧
        ∀ a, (a < off ∨ off + 64 ≤ a) → (a < base + 8 * (x.sb0 + x.slot) ∨ base + 8 * (x.sb0 + x.slot) + 8 ≤ a) →
          cellGet 0 t.core.spad a = cellGet 0 u.core.spad a) ∧
    (x.dir = .out → x.slots.getD x.slot .owned = .draining → x.stopping = [] ∨ x.tile < x.last → Memory.wf u.mem = true →
      u.subLoc x .write true (x.va x.off) = .ok (.phys pa pte) → u.placeViolates x.ctx x.tcb Arch.zero (x.va x.off) (.phys pa pte) = false →
      isPoison (cellGet 0 u.core.spadTags (off / 64)) = false →
      ∃ t, exec .storerPull s = .next t ∧ counted t ∧
        t.core.subs = u.core.subs.map (fun y => if y.sb0 = x.sb0 then { y with off := y.off + 64 } else y) ∧
        (∀ a, (a < base + 8 * (x.sb0 + x.slot) ∨ base + 8 * (x.sb0 + x.slot) + 8 ≤ a) →
          cellGet 0 t.core.spad a = cellGet 0 u.core.spad a) ∧
        ∀ a, cellGet 0 t.mem a =
          if pa / 64 * 64 ≤ a ∧ a < pa / 64 * 64 + 64 then cellGet 0 u.core.spad (off + (a - pa / 64 * 64)) else cellGet 0 u.mem a))

/-- R237, R238: a stale send answers code 3.
A send whose rows arrive with the signature of its seal is verified, and its granules land in the events that follow; a different
signature is tried again, and after three retries raises XFER_SIG. -/
def Claims.VerifiedTransfers : Prop :=
  ∀ (s : State) (k : CopyCmd) (dst : Word) (stride row0 n : Nat) (l : TileNo) (p : Option Nat) (rp rq : List Vec) (sg : Option Word),
    let u := s.there
    let i := s.input
    let a := u.archOf k.ctx k.tcb
    let got := flipRows i.mask rp
    (u.core.queueOf i.queue)[i.idx]? = some k → u.cmdReady i.queue k = true → u.expired k.ctx k.sent = false → i.fn ≠ 1 →
    u.core.runs k.ctx k.tcb = true →
    (∀ done, k.kind = .cpys dst stride row0 n l p rp rq true sg done → exec .cpysReceive s = .next (u.finishCmd i.queue k 3)) ∧
    (∀ sig x, k.kind = .cpys dst stride row0 n l p rp rq false (some sig) false → u.locate u.core.id a true .write true dst.toNat = .ok x →
      (foldRows got = sig → ∃ t, exec .cpysReceive s = .next t ∧
        ∀ c ∈ t.core.queueOf i.queue, c.id = k.id → c.kind = .cpys dst stride row0 n l p got rq false (some sig) true) ∧
      (foldRows got ≠ sig → k.retry < 3 → ∃ t, exec .cpysReceive s = .next t ∧ t.mem = u.mem ∧ t.core.spad = u.core.spad ∧
        t.core.err.xrt = u.core.err.xrt + 1 ∧ t.core.queueOf i.queue = (u.core.queueOf i.queue).map (fun c =>
          if c.id = k.id then { c with retry := c.retry + 1, sent := none } else c)) ∧
      (foldRows got ≠ sig → 3 ≤ k.retry → ∃ t, exec .cpysReceive s = .next t ∧ t.mem = u.mem ∧ t.core.spad = u.core.spad ∧
        t.core.a.deferred = u.core.a.deferred ++ [⟨.xferSig, dst⟩])) ∧
    (∀ (sig : Word) (pa : Nat) (pte : Word), let j := i.first
      let va := (k.granuleVa j).2
      k.kind = .cpys dst stride row0 n l p rp rq false (some sig) true → i.count = 1 → j < 8 * n → k.has j = false →
      u.cmd? i.queue k.id = some k → u.core.engineRoom = true → u.saving k.ctx = false → windowOf va = .user → a.views = [] →
      u.walkWaits [] u.core.id a va = false →
      u.placesReady i.queue k (u.rangeTouches a .write va 64) = true → u.locate u.core.id a true .write true va = .ok (.phys pa pte) →
      (∃ x, u.locate u.core.id a true .write true dst.toNat = .ok x) →
      u.placeViolates k.ctx k.tcb a va (.phys pa pte) = false →
      ∃ t r c, exec .cpysReceive s = .next t ∧ t.mem = u.mem ∧ r ∈ t.core.outq ∧ r.cmd = some (i.queue, k.id) ∧ r.lo = va ∧
        (∀ b, b < 64 → (va + b, ((rp.getD (j / 8) 0).granule (j % 8)).extractLsb' (8 * b) 8) ∈ r.cells) ∧
        c ∈ t.core.queueOf i.queue ∧ c.id = k.id ∧ c.has j = true)

/-- R100, R136, R228, R236, R239 to R241: a publication toggles SEL of its pages, so that a read goes to what was the shadow frame and a
write to what was the visible one, forgets their translations and the lines of the new frames, and ends when the accesses translated before are performed; a peer's request lands inside the export window, or combines there, or not at all; a
collective writes its reduction, or after its time answers PARTIAL. -/
def Claims.PublicationAndCollectives : Prop :=
  (∀ (s : State) (k : CopyCmd),
    let u := s.there
    let i := s.input
    let a := u.archOf k.ctx k.tcb
    (u.core.queueOf i.queue)[i.idx]? = some k →
    (∀ va len sc, k.kind = .publ va len sc →
      (k.done = 1 → exec .publSwap s = .next (if u.oldAccesses k.ctx va.toNat len then u else u.finishCmd i.queue k 0)) ∧
      (∀ ps, k.done ≠ 1 → u.cmdReady i.queue k = true → u.publReady k va.toNat len sc = true →
        u.publPages k.ctx va.toNat (va.toNat + len) (len / 65536) va.toNat [] = .ok ps →
        exec .publSwap s = .next
          (((ps.foldl (fun t x => t.swapSel k.ctx x) u).takeEffect i.queue k).publEnd i.queue k va.toNat len))) ∧
    (∀ kind o dst src g bytes left, k.kind = .coll kind o dst src g bytes left →
      (∀ mine v dlocs, u.cmdReady i.queue k = true → i.others.length + 1 = i.count → i.first < i.count → u.frame.toNat < k.ticks + left →
        i.flag2 = false → u.core.engineRoom = true → u.placesReady i.queue k (u.cmdTouches i.queue k) = true →
        let n := bytes / 64
        let nsrc := if kind = .rs then n * i.count else n
        let ndst := if kind = .ag then n * i.count else n
        u.collSource a (granulesFrom src.toNat nsrc) none = .ok (mine, v) → v.collDest k dst.toNat ndst = .ok dlocs →
        exec .collComplete s = .next ((((v.writeAll dlocs (collResult kind o i.first n
          (i.others.take i.first ++ [mine] ++ i.others.drop i.first))).onTaskArch k.ctx k.tcb
            (fun a => { a with credit := a.credit - 64 * ndst })).finishCmd i.queue k (statusWord (64 * ndst) 0 0)))) ∧
      (k.out = true → k.ticks + left ≤ u.frame.toNat ∨ i.flag = true → u.core.runs k.ctx k.tcb = true →
        ∃ t, exec .collTimeout s = .next t ∧ (∀ x ∈ t.core.queueOf i.queue, x.id ≠ k.id) ∧
          (k.tok ≠ 0 → (t.core.a.rd k.tok).extractLsb' 0 32 = 1)))) ∧
  (∀ (s : State) (ctx va size : Nat) (pte : Word), let t := s.swapSel ctx (va, size, pte)
    ∀ d : Fin 8, (∀ e ∈ (t.dies[d]).tlb, e.ctx = ctx → e.base + e.size ≤ va ∨ va + size ≤ e.base) ∧
      (∀ l ∈ (t.dies[d]).cache, l.pa * 64 < leafPa pte size va true ∨ leafPa pte size va true + size ≤ l.pa * 64)) ∧
  (∀ (s : State) (ctx va size d : Nat) (pte : Word) (c : Context) (r : Tbl Word) (l : Leaf),
    let t := s.swapSel ctx (va, size, pte)
    let e := l.pte ^^^ 0x400#64
    s.ctx? ctx = some c → tblGet c.replicas d = some r → walk r va = some l → l.size = size → va % size = 0 →
    (∃ c' r', t.ctx? ctx = some c' ∧ tblGet c'.replicas d = some r' ∧ walk r' va = some { l with pte := e }) ∧
    pteSel e = !pteSel l.pte ∧ ∀ x shadow, leafPa e size x shadow = leafPa l.pte size x (!shadow)) ∧
  (∀ s : State, let p := s.input.peer
    ∃ t, exec .peerRequest s = .next t ∧ t.core.a = s.core.a ∧
      (∀ c, s.ctx? p.ctx = some c → c.exportWin.2 < p.off + 64 * p.data.length → t = s) ∧
      (∀ c g x pa pte, s.ctx? p.ctx = some c → p.data = [(g, x)] → p.off + 64 ≤ c.exportWin.2 → Memory.wf s.mem = true →
        s.physLoc [] (s.ctxDie p.ctx) p.ctx .write true (c.exportWin.1 + p.off) = .ok (.phys pa pte) →
        let lands (y : Granule) : Prop := ∀ a, cellGet 0 t.mem a =
          if pa / 64 * 64 ≤ a ∧ a < pa / 64 * 64 + 64 then y.extractLsb' (8 * (a - pa / 64 * 64)) 8 else cellGet 0 s.mem a
        (p.acc = none → lands g) ∧
        (∀ o, p.acc = some o → isPoison (s.granule pa).2 = false →
          lands (BitVec.ofNat 512 (accBytes o 64 (s.granule pa).1.toNat g.toNat)) ∧ t.memTags = s.memTags) ∧
        (∀ o, p.acc = some o → isPoison (s.granule pa).2 = true → t = s))) ∧
  (∀ (rank n j i : Nat) (all : List (List (Granule × Word))), j < n → i < 16 →
    (((collResult .ar .addI32 rank n all).getD j (0, 0)).1).extractLsb' (32 * i) 32 =
      BitVec.ofNat 32 (all.map (fun x => (((x.getD j (0, 0)).1).extractLsb' (32 * i) 32).toNat)).sum)

/-- Rings move, sends are verified, publications swap, and collectives complete. -/
def Obligations.RingAndPublicationEvents : Prop :=
  Claims.RingTransfers ∧ Claims.VerifiedTransfers ∧ Claims.PublicationAndCollectives

/-- R251: the pick of a core, from its local queue, else from its die's, else stolen from the nearest die that has an unpinned entry; within
a queue the entry of the least key, the youngest of its own queue and the oldest of any other among equals.
The model holds the entries of a die's queue to the contexts that bind the core (log 16). -/
def Claims.PickOrder : Prop :=
  ∀ (s : State) (c : Nat),
    let prio (t : Task) : Nat := tcbPrio t.snap - (s.frame.toNat - t.readySince) / max 1 (s.ageOf t.ctx)
    let tick (t : Task) : Nat := if tcbTickv t.snap then tcbTick t.snap else 0
    let less (t u : Task) : Prop := prio t < prio u ∨ (prio t = prio u ∧ tick t < tick u)
    let ready (q : QueueRef) (e : QEntry) (t : Task) : Prop :=
      e ∈ s.queueAt q ∧ s.task? e.ctx e.tcb = some t ∧ s.dispatchable c t = true
    let bound (t : Task) : Prop := ∃ x ∈ s.boundTo c, x.num = t.ctx
    let loose (q : QueueRef) (n : Nat) (e : QEntry) (t : Task) : Prop := ready q e t ∧ t.pinned = none ∧ t.ctx = n
    let serves (b : Nat × List Nat) (q : QueueRef) : Prop :=
      (q = .die b.1 ∧ b.1 ≠ dieOf c) ∨ ∃ k ∈ b.2, k ≠ c ∧ q = .core k
    let isLocal : Prop := ∃ e t, ready (.core c) e t
    let isDie : Prop := ∃ e t, ready (.die (dieOf c)) e t ∧ bound t
    (isLocal → ∃ e t, s.pick c = some (.core c, e) ∧ ready (.core c) e t ∧
      ∀ e' t', ready (.core c) e' t' → less t t' ∨ (¬less t' t ∧ e'.seq ≤ e.seq)) ∧
    (¬isLocal → isDie → ∃ e t, s.pick c = some (.die (dieOf c), e) ∧ ready (.die (dieOf c)) e t ∧ bound t ∧
      ∀ e' t', ready (.die (dieOf c)) e' t' → bound t' → less t t' ∨ (¬less t' t ∧ e.seq ≤ e'.seq)) ∧
    (¬isLocal → ¬isDie → ∀ q e, s.pick c = some (q, e) →
      ∃ x ∈ s.boundTo c, ∃ b ∈ x.bind, ∃ t, serves b q ∧ loose q x.num e t ∧
        (∀ e' t', loose q x.num e' t' → less t t' ∨ (¬less t' t ∧ e.seq ≤ e'.seq)) ∧
        ∀ y ∈ s.boundTo c, ∀ b' ∈ y.bind, dieHops (dieOf c) b'.1 < dieHops (dieOf c) b.1 →
          ∀ q', serves b' q' → ∀ e' t', ¬loose q' y.num e' t') ∧
    (s.pick c = none → ¬isLocal ∧ ¬isDie ∧ ∀ x ∈ s.boundTo c, ∀ b ∈ x.bind, dieHops (dieOf c) b.1 < 5 →
      ∀ q, serves b q → ∀ e t, ¬loose q x.num e t)

/-- R243, R251, R263, R318: a free core takes the task that it picks.
A task dispatched for the first time starts at its entry with its arguments in s1 to s4, its TCB in s5 and zeros elsewhere; a task that
was suspended comes back with its registers, and re-enters the slot 7 that it left, or after a fault goes on as it stood. -/
def Claims.TaskPickDispatches : Prop :=
  ∀ (s : State) (q : QueueRef) (e : QEntry) (t : Task) (c : Context),
    let u := s.there
    u.mayPickOn u.core.id = true → u.pick u.core.id = some (q, e) → u.outranked u.core.id q e = false → u.task? e.ctx e.tcb = some t →
    u.ctx? e.ctx = some c →
    (let snap := if t.restarts = 0 then
        ((u.readVa (u.ctxDie e.ctx) e.ctx e.tcb.toNat 128).map (BitVec.ofNat 1024)).getD t.snap else t.snap
     t.saved = none → (t.restarts = 0 → u.poisonIn e.ctx e.tcb.toNat 128 = none) → (tcbEntry snap).toNat % 32 = 0 → (tcbUvec snap).toNat % 32 = 0 → tcbViews snap = 0 → t.tiles = [] →
     ∃ v, exec .taskPick s = .next v ∧ v.core.busy = true ∧ v.core.id = u.core.id ∧ v.core.a.ctx = c.num ∧ v.core.a.tcb = e.tcb ∧
      v.core.a.pc = tcbEntry snap ∧ v.core.a.utvec = tcbUvec snap ∧ v.core.a.ut = false ∧ v.core.a.pend = none ∧
      (∀ r : Reg, v.core.a.rd r = if 1 ≤ r.val ∧ r.val ≤ 4 then tcbArg snap (r.val - 1) else if r.val = 5 then e.tcb else 0) ∧
      v.core.a.p = 0 ∧ v.core.a.k = 0 ∧ v.core.a.flights = [] ∧ v.core.a.views = [] ∧ v.core.spad = u.core.spad ∧
      (∀ j : Fin 16, v.core.a.segs[j] = if j.val < (if tcbSegn snap = 0 then c.prog.segOn else tcbSegn snap) then .on
        else if c.prog.segRest = .retain then .retain else .off) ∧
      ∃ y ∈ v.tasks, y.ctx = e.ctx ∧ y.tcb = e.tcb ∧ y.st = .running) ∧
    (∀ f w, t.saved = some f → t.wait = some w → f.a.views ≠ [] ∨ (tcbViews t.snap = 0 ∧ t.tiles = []) →
      ∃ v, exec .taskPick s = .next v ∧ v.core.busy = true ∧ v.core.a.s = f.a.s ∧ v.core.a.p = f.a.p ∧ v.core.a.v = f.a.v ∧
        v.core.a.q = f.a.q ∧ v.core.a.m = f.a.m ∧ v.core.a.vrf = f.a.vrf ∧ v.core.a.flights = f.a.flights ∧ v.core.a.pc = f.a.pc ∧
        v.core.a.block = (match w with
          | .join d m => some (.reenter (.join d u.frame.toNat m))
          | .child _ d => some (.reenter (.done (some d)))
          | .page _ | .resource _ => f.a.back.map Block.again
          | .yielded | .future _ _ _ => some (.reenter (.done none))))

/-- R245 to R248, R331: a root and a child that pass the checks of admission become tasks, READY when they wait for no one and ARMED
otherwise; a child that fails is charged to its parent; the last decrement makes an armed task READY. -/
def Claims.AdmissionEvents : Prop :=
  (∀ (s : State) (x : Stream) (c : Context) (r : BitVec 1024) (rest : List (BitVec 1024)) (pa : Nat) (pte : Word),
    let va := x.tcbArea + 128 * ((x.admitted + 1) % 64)
    s.stream? s.input.stream = some x → s.ctx? x.ctx = some c → x.roots = r :: rest →
    s.admits x c = true → s.translate (s.ctxDie x.ctx) x.ctx va .update false = .ok (pa, pte) →
    (∀ y, s.captureOf x = some y → ∀ g ∈ y.regions, s.poisonIn x.ctx g.1 g.2 = none) →
    tcbF r 0x68 1 ∈ [0, 5, 6] → tcbFlags r / 2 ^ 5 % 2 ^ 11 = 0 → tcbFlags r / 2 ^ 24 = 0 → tcbSegn r ≤ 16 → tcbNsucc r = 0 →
    tcbHome r = 0 → Memory.tagsWf s.memTags = true →
    ∃ t, exec .rootAdmission s = .next t ∧ t.nlaunch = s.nlaunch + 1 ∧
      (∃ l ∈ t.launches, l.num = s.nlaunch ∧ l.seq = x.admitted + 1 ∧ l.frame0 = s.frame.toNat) ∧
      (∃ y ∈ t.tasks, y.ctx = x.ctx ∧ y.tcb = BitVec.ofNat 64 va ∧ y.parent = none ∧ y.launch = s.nlaunch ∧
        y.st = if tcbDepcnt r = 0 then .ready else .armed) ∧
      ∃ x', t.stream? s.input.stream = some x' ∧ x'.roots = rest ∧ x'.running = some s.nlaunch ∧ x'.admitted = x.admitted + 1) ∧
  (∀ (s : State) (x : Stream) (c : Context), s.stream? s.input.stream = some x → s.ctx? x.ctx = some c →
    s.admits x c = false ∨ x.roots = [] → exec .rootAdmission s = .next s) ∧
  (∀ (s : State) (r : RelOp) (rest : List RelOp) (tcb par : Word) (idx : Nat) (p : Task) (x : BitVec 1024) (pa : Nat),
    let u := s.there
    u.core.rels = r :: rest → r.what = .admission tcb idx par false → u.releaseDone r par = true → u.task? r.ctx par = some p →
    u.readTcb r.ctx tcb = .ok (x, pa) →
    (∀ q, u.admitFault r.ctx tcb pa x (some p) (some u.core.id) = none →
      u.placeOf r.ctx (tcbHome x) (.core u.core.id) (some u.core.id) = some q →
      ∃ t, exec .taskAdmission s = .next t ∧ t.core.rels = rest ∧ ∃ y ∈ t.tasks, y.ctx = r.ctx ∧ y.tcb = tcb ∧ y.parent = some par ∧
        y.spidx = idx ∧ y.launch = p.launch ∧ y.st = if tcbDepcnt x = 0 then .ready else .armed) ∧
    (∀ cause v, u.admitFault r.ctx tcb pa x (some p) (some u.core.id) = some (cause, v) →
      ∃ t, exec .taskAdmission s = .next t ∧ t.core.rels = (r :: rest).filter (fun y => y.id ≠ r.id) ∧
        t.tasks.length = u.tasks.length ∧
        (u.core.runs r.ctx par = true → t.core.a.deferred = u.core.a.deferred ++ [⟨cause, v⟩]))) ∧
  (∀ (s : State) (d : Decrement) (t : Task) (n : Nat),
    s.decs[s.input.idx]? = some d → s.decs.filter (fun x => x.ctx == d.ctx && x.merger == d.merger) = [d] → s.poisonIn d.ctx (d.tcb.toNat + 0x40) 64 = none → s.readVa (s.ctxDie d.ctx) d.ctx d.tcb.toNat 128 = some n →
    tcbDepcnt (BitVec.ofNat 1024 n) = 1 → s.task? d.ctx d.tcb = some t → t.st = .armed →
    ∃ v, exec .depcntDecrement s = .next v ∧ v.decs = listDel s.decs s.input.idx ∧
      ∃ y ∈ v.tasks, y.ctx = d.ctx ∧ y.tcb = d.tcb ∧ y.st = .ready)

/-- A free core picks a task, and roots and children are admitted. -/
def Obligations.TaskDispatchAndAdmission : Prop :=
  Claims.PickOrder ∧ Claims.TaskPickDispatches ∧ Claims.AdmissionEvents

/-- R252, R254, R259, R261, R288, R318: a slipped tick is logged once, a JOIN that has waited suspends its task, a merge engine combines a
piece, and the supervisor core resolves resources and pages. -/
def Claims.TaskServiceEvents : Prop :=
  ∀ s : State,
    let u := s.there
    let i := s.input
    (∀ t c, s.task? i.ctx i.va = some t → s.ctx? t.ctx = some c → t.st = .running ∨ t.st = .suspended → tcbTickv t.snap = true →
      t.slipped = false → s.frame.toNat = tcbTick t.snap + 100000 →
      ∃ v c', exec .tickSlip s = .next v ∧ v.ctx? t.ctx = some c' ∧
        c'.events = c.events.add logCap ⟨s.frame.toNat, 1, t.tcb, BitVec.ofNat 64 (tcbTick t.snap)⟩ ∧
        ∀ y ∈ v.tasks, y.ctx = t.ctx → y.tcb = t.tcb → y.slipped = true) ∧
    (∀ t d since m, u.core.a.block = some (.join d since m) → u.task? u.core.a.ctx u.core.a.tcb = some t → t.npend ≠ 0 →
      u.joinChild = none → since + 200 ≤ u.frame.toNat →
      exec .joinSuspendTimeout s = .next (u.heldBy (.suspend (.join d m)))) ∧
    (∀ t c l r x y xs ys d v, s.task? i.ctx i.va = some t → s.ctx? i.ctx = some c → t.pairAt i.first = some (l, r) →
      c.preempt = none → i.flag = false → l.parts[l.done.length]? = some x → r.parts[l.done.length]? = some y → x.op ≠ 15 →
      s.readPiece i.ctx x = .ok xs → s.readPiece i.ctx y = .ok ys →
      l.dest = some d ∨ (l.dest = none ∧ s.placeLike c x = some d) →
      s.writePiece i.ctx d ((xs.zip ys).map (fun p => combineGranule x p.1 p.2)) = .ok v →
      exec .combine s = .next (v.onTask t.ctx t.tcb (fun t => t.pieceDone l.lo d))) ∧
    (∀ r t, s.takeSch = false → s.takeSup = false → s.resources[i.idx]? = some r → s.task? r.ctx r.tcb = some t →
      (i.flag = false → s.launch? t.launch ≠ none → ∃ v, exec .resourceResolution s = .next v ∧ ∀ y ∈ v.tasks, y.launch ≠ t.launch) ∧
      (let v : State := { s with resources := listDel s.resources i.idx }
       i.flag = true → r.entry = none → exec .resourceResolution s =
        .next (if t.wait = some (.resource r.kind) then v.readyPinned r.ctx r.tcb else v)) ∧
      (∀ q n, i.flag = true → r.entry = some (q, n) → exec .resourceResolution s = .next (s.returnExcess q))) ∧
    (∀ t x, s.takeSup = false → s.task? i.ctx i.va = some t → t.wait = some (.page x) → t.st = .suspended → s.firmwareMakes i.ctx i.ptes = true →
      (s.firmwareMap i.ctx i.ptes).isMapped i.ctx x = true →
      ∃ v, exec .pageFaultResolution s = .next v ∧ ∃ y ∈ v.tasks, y.ctx = t.ctx ∧ y.tcb = t.tcb ∧ y.st = .ready)

/-- R336: the first failure of a pair starts a takeover that holds records back, and its end leaves no standby; the next failure ends every
launch and leaves the device in the package-fault state. -/
def Claims.TakeoverEvents : Prop :=
  ∀ s : State, s.boot = .running →
    let gone : Prop := if s.input.flag then s.nossv = true ∨ s.takeSup = true else s.nosch = true ∨ s.takeSch = true
    (¬gone → ∃ t, exec .schedulerTakeover s = .next t ∧ t.takeSup = (s.takeSup || s.input.flag) ∧
      t.takeSch = (s.takeSch || !s.input.flag) ∧ t.launches = s.launches ∧ t.tasks = s.tasks ∧ t.hostLog.idx = s.hostLog.idx + 1) ∧
    (gone → ∃ t, exec .schedulerTakeover s = .next t ∧ t.boot = .packageFault ∧ t.launches = [] ∧ t.ready = false) ∧
    (s.input.flag = false → s.takeSch = true → ∃ t, exec .takeoverComplete s = .next t ∧ t.takeSch = false ∧ t.nosch = true ∧
      t.takeSup = s.takeSup ∧ (s.takeSup = false → t.heldRecs = []) ∧ (s.takeSup = true → t.heldRecs = s.heldRecs)) ∧
    (s.input.flag = true → s.takeSup = true → ∃ t, exec .takeoverComplete s = .next t ∧ t.takeSup = false ∧ t.nossv = true ∧
      t.takeSch = s.takeSch ∧ (s.takeSch = false → t.heldRecs = []) ∧ (s.takeSch = true → t.heldRecs = s.heldRecs))

/-- The services of the scheduler and supervisor cores, and a takeover. -/
def Obligations.TaskServiceAndTakeover : Prop :=
  Claims.TaskServiceEvents ∧ Claims.TakeoverEvents

/-- R31, R327, R328, R331, R337: what host software writes to and reads from its windows.
A root that a stream's own function writes whole is taken; any other write to a TCB slot that the function's spawn BAR has, and any write
before READY, is discarded and logged, and counts in OVF of a stream of the function's own (that it counts in no other is log 100).
A base is a multiple of its aperture's size (log 48), which is 1 GiB to 2 TiB for the PF and to 256 GiB for a VF; it is 1 GiB at reset
(log 102). -/
def Claims.HostWindowAccess : Prop :=
  ∀ s : State,
    let i := s.input
    let n := i.bytes.length
    let base := ((tblGet s.apbase 0).getD 0).toNat
    (∀ x, s.stream? i.stream = some x → s.reaches i.fn i.stream = true →
      (s.ready = true → i.off = 0 → n = 128 → x.roots.length < 64 → ∃ t x', exec .spawnWindowWrite s = .next t ∧
        t.stream? i.stream = some x' ∧ x'.roots = x.roots ++ [BitVec.ofNat 1024 (natOfBytes i.bytes)] ∧ x'.ovf = x.ovf ∧
        i.stream ∈ t.bitmap) ∧
      (s.ready = false ∨ (i.off < 0x80 ∧ (i.off ≠ 0 ∨ n ≠ 128 ∨ 64 ≤ x.roots.length)) → ∃ t x', exec .spawnWindowWrite s = .next t ∧
        t.stream? i.stream = some x' ∧ x'.roots = x.roots ∧ x'.ovf = min 65535 (x.ovf + 1) ∧ t.hostLog.idx = s.hostLog.idx + 1) ∧
      (s.ready = true → exec .consumedWrite s = .next (s.onStream i.stream (fun x => { x with consumed := i.value.toNat }))) ∧
      (s.ready = false → ∃ t, exec .consumedWrite s = .next t ∧ t.stream? i.stream = some { x with ovf := min 65535 (x.ovf + 1) } ∧
        t.hostLog.idx = s.hostLog.idx + 1)) ∧
    (s.hasWindow i.fn i.stream = true → s.reaches i.fn i.stream = false →
      (s.ready = false ∨ i.off < 0x80 → ∃ t, exec .spawnWindowWrite s = .next t ∧ t.streams = s.streams ∧
        t.hostLog.idx = s.hostLog.idx + 1) ∧
      (s.ready = true → exec .consumedWrite s = .next s)) ∧
    (s.hasWindow i.fn i.stream = false → exec .spawnWindowWrite s = .next s ∧ exec .consumedWrite s = .next s) ∧
    (s.ready = true → 0x80 ≤ i.off → exec .spawnWindowWrite s = .next s) ∧
    (s.linkUp = true →
      (∀ at_ : Nat → Nat, Memory.wf s.mem = true → Memory.tagsWf s.memTags = true →
        (∀ j, j < n → s.aperturePa i.fn i.ctx (i.off + j) = some (at_ j) ∧ isPoison (s.granule (at_ j)).2 = false) →
        (∀ j k, j < n → k < n → at_ j = at_ k → j = k) →
        ∃ t, exec .apertureWrite s = .next t ∧ (∀ j, j < n → cellGet 0 t.mem (at_ j) = i.bytes.getD j 0) ∧
          ∀ a, (∀ j, j < n → at_ j ≠ a) → cellGet 0 t.mem a = cellGet 0 s.mem a) ∧
      ((∃ j, j < n ∧ s.aperturePa i.fn i.ctx (i.off + j) = none) → ∃ t, exec .apertureWrite s = .next t ∧ t.mem = s.mem ∧
        t.memTags = s.memTags ∧ t.hostLog.idx = s.hostLog.idx + 1) ∧
      (∀ at_ : Nat → Nat,
        (∀ j, j < i.len → s.aperturePa i.fn i.ctx (i.off + j) = some (at_ j) ∧ isPoison (s.granule (at_ j)).2 = false) →
        exec .apertureRead s = .next { s with hostRead := .data ((List.range i.len).map (fun j => cellGet 0 s.mem (at_ j))) }) ∧
      ((∃ j, j < i.len ∧ s.aperturePa i.fn i.ctx (i.off + j) = none) → ∃ t, exec .apertureRead s = .next t ∧
        t.hostRead = .unsupported ∧ t.mem = s.mem) ∧
      (s.boot ≠ .awaiting → ∀ o, s.aperturePa 0 i.ctx o =
        if o < s.apertureSize 0 ∧ s.populated (base + o) = true then some (base + o) else none) ∧
      (s.boot = .awaiting → ∀ o, s.aperturePa 0 i.ctx o = if o < s.apertureSize 0 ∧ o < 2 ^ 26 then some (s.bootWindow + o) else none)) ∧
    (s.linkUp = true → ∀ size,
      let legal : Prop := ∃ k, k < (if i.fn = 0 then 12 else 9) ∧ i.len = 2 ^ (30 + k)
      let x : Word := BitVec.ofNat 64 (i.value.toNat / size * size)
      (legal ∧ size = i.len) ∨ (¬legal ∧ size = s.apertureSize i.fn) →
      (i.fn = 0 → i.reg = .apbase → ∃ t, exec .registerWrite s = .next t ∧ tblGet t.apbase 0 = some x ∧ t.apertureSize 0 = size ∧
        t.mem = s.mem) ∧
      (i.fn ≠ 0 → i.reg = .vbase → ∃ t, exec .registerWrite s = .next t ∧ tblGet t.vbase i.fn = some x ∧ t.apertureSize i.fn = size ∧
        t.mem = s.mem) ∧
      ((i.fn = 0 ∧ i.reg = .vbase) ∨ (i.fn ≠ 0 ∧ i.reg = .apbase) → exec .registerWrite s = .next s))

/-- R326, R327, R330, R335: the mailbox commands that load firmware and make and end contexts and streams, given when the function has none
under way; each is answered once, with its sequence number, and one that its function may not give changes nothing but the answer.
Which of refused and busy an answer is, is log 46; that PAGEFAIL names the task's latest unmapped fault is log 47; that a CAPTURE whose area
does not fit or is not populated is refused is log 103. -/
def Claims.MailboxCommands : Prop :=
  ∀ s : State,
    let i := s.input
    let answers (t : State) (code : Nat) : Prop := ∃ m, t.mail = s.mail ++ [m] ∧ m.fn = i.fn ∧ m.seq = i.seq ∧ m.code = code
    let refused (e : Instr) : Prop := ∃ t, exec e s = .next t ∧ answers t 1 ∧ t.ctxs = s.ctxs ∧ t.streams = s.streams ∧
      t.tasks = s.tasks ∧ t.mem = s.mem
    s.mailBusy i.fn = false →
    (i.fn = 0 → s.boot = .awaiting ∨ s.boot = .imageRefused → i.len ≤ 2 ^ 26 →
      ∃ t, exec .fwload s = .next t ∧ t.boot = (if i.flag then .running else .imageRefused) ∧
        answers t (if i.flag then 0 else 1)) ∧
    (let p := i.ctxp
     let some_ : Prop := ∃ d ∈ p.dies, d < 8 ∧ (s.die d).enabled = true
     (i.fn = 0 → s.ready = true → p.ctx < 64 → s.ctx? p.ctx = none → p.owner ≤ 16 → some_ →
        ∃ t c, exec .ctxcreate s = .next t ∧ answers t 0 ∧ t.ctx? p.ctx = some c ∧ c.owner = p.owner ∧ c.timeout = 2000 ∧ c.age = 100000 ∧
          c.hang = 200000000 ∧ (∀ d, d ∈ c.bind.map Prod.fst ↔ d < 8 ∧ d ∈ p.dies ∧ (s.die d).enabled = true)) ∧
     (i.fn ≠ 0 ∨ s.ready = false ∨ 64 ≤ p.ctx ∨ (s.ctx? p.ctx).isSome = true → refused .ctxcreate)) ∧
    (∀ c, s.ctx? i.ctx = some c → s.ready = true → s.takeSch = false → s.takeSup = false →
      (c.owner = i.fn → s.updates = [] → ∃ t, exec .ctxdestroy s = .next t ∧ answers t 0 ∧ t.ctx? i.ctx = none ∧
        (∀ y ∈ t.tasks, y.ctx ≠ i.ctx) ∧ (∀ y ∈ t.streams, y.ctx ≠ i.ctx) ∧ (∀ y ∈ t.launches, y.ctx ≠ i.ctx)) ∧
      (c.owner ≠ i.fn → refused .ctxdestroy ∧ refused .tupd ∧ refused .ctxparam)) ∧
    (∀ c, let p := i.strm
      s.ctx? p.ctx = some c → s.ready = true → c.owner = i.fn → p.st < 1024 → s.stream? p.st = none →
      (∃ k, k ≤ 12 ∧ p.ringN = 2 ^ (k + 4)) → p.tcbArea % 128 = 0 → p.tcbArea + 8192 ≤ 0x00F0000000000000 → p.vector < (if i.fn = 0 then 128 else 120) →
      ∃ t, exec .streamcreate s = .next t ∧ answers t 0 ∧
        t.stream? p.st = some ⟨p.st, p.ctx, p.tcbArea, p.ring, p.ringN, p.vector, [], 0, 0, 0, 0, false, none⟩) ∧
    (∀ x n c l, s.stream? i.stream = some x → s.ctx? x.ctx = some c → s.ready = true → c.owner = i.fn → x.running = some n →
      s.launch? n = some l → ∃ t, exec .streamabort s = .next t ∧ answers t 0 ∧ (∀ y ∈ t.tasks, y.launch ≠ n) ∧
        ∀ y ∈ t.launches, y.num ≠ n) ∧
    (∀ x c, let p := i.cap
      let fits : Prop := p.regions.length ≤ 16 ∧ (p.regions.map Prod.snd).foldl (fun a b => a + b) 0 ≤ 2 ^ 32 ∧
        captureBytes p.regions ≤ p.area.2 ∧ s.populatedPage p.area.1 p.area.2 = true
      s.stream? p.st = some x → s.ctx? x.ctx = some c → s.ready = true → c.owner = i.fn →
      (fits → ∃ t, exec .capture s = .next t ∧ answers t 0 ∧ (⟨p.st, p.regions, p.area, false, []⟩ : CaptureSt) ∈ t.captures) ∧
      (¬fits → ∃ t, exec .capture s = .next t ∧ answers t 1 ∧ t.captures = s.captures)) ∧
    (i.fn = 0 → s.ready = true → ∃ t, exec .resync s = .next t ∧ answers t 0 ∧ t.resync = some (s.summary i.off) ∧
      t.core = s.core ∧ t.tasks = s.tasks) ∧
    (∀ c e rest, s.ctx? i.ctx = some c → s.ready = true → c.owner = i.fn →
      c.events.recs.reverse.filter (fun e => e.type = 3 && e.tcb = i.va) = e :: rest → s.isMapped i.ctx e.x = false →
      (∀ t l, s.task? i.ctx i.va = some t → s.launch? t.launch = some l →
        ∃ v, exec .pagefail s = .next v ∧ answers v 0 ∧ ∀ y ∈ v.tasks, y.launch ≠ t.launch) ∧
      (∀ x, s.task? i.ctx i.va = none → s.pagedRoot i.ctx i.va = some x →
        ∃ v x', exec .pagefail s = .next v ∧ answers v 0 ∧ v.stream? x.num = some x' ∧ x'.roots = x.roots.tail))

/-- R100, R101, R105, R122, R251, R319, R330: an update that leaves the tables legal is written, but for SEL, and waits for every die, one that
does not is refused and changes no table, and one that comes meanwhile waits; CTXPARAM takes a setting within its range and no other; a
command that a function gives while its last has no response is ignored. -/
def Claims.TableAndParameterCommands : Prop :=
  ∀ (s : State) (c : Context),
    let i := s.input
    let x := i.value.toNat
    let answers (t : State) (code : Nat) : Prop := ∃ m, t.mail = s.mail ++ [m] ∧ m.fn = i.fn ∧ m.seq = i.seq ∧ m.code = code
    let up : Update := ⟨i.ctx, i.fn, i.seq, i.ptes, []⟩
    (s.mailBusy i.fn = true → exec .tupd s = .next s ∧ exec .ctxparam s = .next s) ∧
    (s.mailBusy i.fn = false → s.ctx? i.ctx = some c → s.ready = true → c.owner = i.fn → i.fn ≠ 255 →
      (i.flag = false → s.updates = [] → s.resyncing = false →
        (s.updateOk up = true → ∃ t c', exec .tupd s = .next t ∧ t.ctx? i.ctx = some c' ∧
          c'.replicas = c.replicas.map (fun r => if c.stale.contains r.1 then r else (r.1, i.ptes.foldl (fun t w =>
            tblPut t w.addr (setBit w.pte 10 (pteSel (replicaRead t w.addr)))) r.2)) ∧
          (s.ackDies i.ctx ≠ [] → t.mail = s.mail ∧ t.updates = [{ up with waiting := s.ackDies i.ctx }]) ∧
          (s.ackDies i.ctx = [] → answers t 0 ∧ t.updates = [])) ∧
        (s.updateOk up = false → ∃ t, exec .tupd s = .next t ∧ answers t 1 ∧ t.ctxs = s.ctxs ∧ t.updates = [])) ∧
      (i.flag = false → s.updates ≠ [] → exec .tupd s = .next { s with updates := s.updates ++ [up] }) ∧
      (let sets (d : Context) : Prop := ∃ t, exec .ctxparam s = .next t ∧ answers t 0 ∧ t.ctx? i.ctx = some d
       let refused : Prop := ∃ t, exec .ctxparam s = .next t ∧ answers t 1 ∧ t.ctxs = s.ctxs
       (i.field = .timeout → (1000 ≤ x ∧ x ≤ 1000000 → sets { c with timeout := x }) ∧ (x < 1000 ∨ 1000000 < x → refused)) ∧
       (i.field = .age → (1000 ≤ x ∧ x ≤ 100000000 → sets { c with age := x }) ∧ (x < 1000 ∨ 100000000 < x → refused)) ∧
       (i.field = .hang → (1000000 ≤ x ∧ x ≤ 6000000000 → sets { c with hang := x }) ∧ (x < 1000000 ∨ 6000000000 < x → refused)) ∧
       (i.field = .collDefault → sets { c with collDefault := x })))

/-- R320 to R324: a pre-emption is noted with its FRAME and goes on by steps until its deadline; a save that takes longer ends the launches
with a task in the image; a restore puts the registers, the accumulators and the scratchpad of an image back on a core, and is busy while its dies are taken (logs 46 and 87). -/
def Claims.PreemptionAndRestore : Prop :=
  (∀ (s : State) (c : Context),
    let i := s.input
    let answers (t : State) (code : Nat) : Prop := ∃ m, t.mail = s.mail ++ [m] ∧ m.fn = 0 ∧ m.seq = i.seq ∧ m.code = code
    s.ctx? i.ctx = some c → i.fn = 0 → s.ready = true →
    (c.preempt = none → s.mailBusy 0 = false → ∃ t, exec .preempt s = .next t ∧ t.mail = s.mail ∧
      t.ctx? i.ctx = some { c with preempt := some s.frame.toNat, image := some ⟨i.seq, s.frame.toNat, 0, [], [], [], false⟩ }) ∧
    (∀ f im, c.preempt = some f → c.image = some im →
      (im.commit = true → s.mailBusy 0 = false → ∃ t, exec .preempt s = .next t ∧ answers t 1 ∧ t.ctxs = s.ctxs) ∧
      (im.commit = false → s.saveLate i.ctx i.len = false → exec .preempt s = .next (s.saveStep i.ctx)) ∧
      (im.commit = false → s.saveLate i.ctx i.len = true → exec .preempt s = .next s) ∧
      (im.commit = false → f + 10000 + i.len ≤ s.frame.toNat →
        (∀ n ∈ s.coreIds, s.holdsOf i.ctx n = true → (s.getCore n).arbit = none) →
        ∃ t c' m, exec .saveDeadline s = .next t ∧ t.mail = s.mail ++ [m] ∧ m.fn = 0 ∧ m.seq = im.seq ∧ m.code = 1 ∧
          t.ctx? i.ctx = some c' ∧ c'.preempt = none ∧ c'.image = none ∧
          ∀ z ∈ s.tasks, z.st = .armed ∨ z.st = .ready ∨ z.st = .running ∨ z.st = .suspended →
            ∀ l ∈ s.launches, l.ctx = i.ctx → l.num = z.launch → ∀ y ∈ t.tasks, y.launch ≠ l.num) ∧
      (im.commit = true → s.mailBusy 0 = false → s.diesTaken c = false →
        (∀ m, s.targets c i.pairs im.cores [] = some m →
          ∃ t c', exec .restore s = .next t ∧ answers t 0 ∧ t.ctx? i.ctx = some c' ∧ c'.preempt = none ∧ c'.image = none) ∧
        (s.targets c i.pairs im.cores [] = none → ∃ t, exec .restore s = .next t ∧ answers t 2 ∧ t.ctxs = s.ctxs)) ∧
      (im.commit = true → s.mailBusy 0 = false → s.diesTaken c = true →
        ∃ t, exec .restore s = .next t ∧ answers t 2 ∧ t.ctxs = s.ctxs))) ∧
  (∀ (s : State) (ctx : Nat) (im : CoreImage) (n : Nat), im.busy = true →
    let t := s.restoreCore ctx im n
    t.core.busy = true ∧ t.core.a.s = im.a.s ∧ t.core.a.p = im.a.p ∧ t.core.a.v = im.a.v ∧ t.core.a.q = im.a.q ∧
    t.core.a.m = im.a.m ∧ t.core.a.k = im.a.k ∧ t.core.a.tiles = im.a.tiles ∧ t.core.a.vrf = im.a.vrf ∧ t.core.a.pc = im.a.pc ∧
    t.core.a.flights = im.a.flights ∧ t.core.spad = im.spad ∧ t.core.spadTags = im.spadTags ∧
    (∀ j : Fin 16, ∀ f k, im.a.segs[j] = .waking f k → t.core.a.segs[j] = .on))

/-- Host windows, mailbox commands, tables, and pre-emption. -/
def Obligations.HostAndManagementEvents : Prop :=
  Claims.HostWindowAccess ∧ Claims.MailboxCommands ∧ Claims.TableAndParameterCommands ∧ Claims.PreemptionAndRestore

/-- R43 and R77: a result sent to an s-register is not seen by the bundles before its latency has passed, is what every later bundle
reads, and cancels an older result on its way to the same register; every other register is as it would have been. -/
def Obligations.ResultsLandAfterLatency : Prop :=
  ∀ (s : State) (lat slot k : Nat) (d : Reg) (x : Word), d ≠ 0 → 1 ≤ lat →
    let c := (s.fly lat slot [.s d x]).core.bundlesLater k
    c.a.rd d = (if k < lat then s.core.a.rd d else x) ∧
    ∀ r : Reg, r ≠ d → c.a.rd r = (s.core.bundlesLater k).a.rd r

/-- R76 and R159: s0 and m0 and p0 read as zero, all ones and true, what is written to them is discarded, and s0 never becomes empty; CALL
sends its link address to s31; a write to another register is what it reads as, fills it, and changes no other register. -/
def Obligations.HardWiredRegisters : Prop :=
  ∀ (c : Core) (s : State),
    c.a.rd 0 = 0 ∧ c.a.rdP 0 = true ∧ c.a.rdM 0 = BitVec.allOnes 128 ∧ c.a.sIsEmpty 0 = false ∧ s.markEmpty 0 = s ∧
    (∀ o, s.core.a.pend = none → ∃ t, exec (.call o) s = .next t ∧ inFlight t.core.a.flights 1 (.s 31 (s.core.a.pc + 96))) ∧
    (∀ x, c.land (.s 0 x) = c) ∧ (∀ x, c.land (.p 0 x) = c) ∧ (∀ x, c.land (.m 0 x) = c) ∧
    (∀ (r : Reg) (x : Word), r ≠ 0 → (c.land (.s r x)).a.rd r = x ∧ (c.land (.s r x)).a.sIsEmpty r = false ∧
      ∀ q : Reg, q ≠ r → (c.land (.s r x)).a.rd q = c.a.rd q ∧ (c.land (.s r x)).a.sIsEmpty q = c.a.sIsEmpty q) ∧
    (∀ (r : PredReg) (x : Bool), r ≠ 0 → (c.land (.p r x)).a.rdP r = x ∧
      ∀ q : PredReg, q ≠ r → (c.land (.p r x)).a.rdP q = c.a.rdP q) ∧
    ∀ (r : MaskReg) (x : Mask), r ≠ 0 → (c.land (.m r x)).a.rdM r = x ∧
      ∀ q : MaskReg, q ≠ r → (c.land (.m r x)).a.rdM q = c.a.rdM q

/-- R90: after a bundle at a the next one is at a + 32, unless a level ends there, the most recently activated first: with passes left it
counts one off and goes back to its start, and on its last pass it is deactivated and the next level decides.
R91, R44: the target of a transfer issues when its delay bundles have, and one that leaves loop bodies deactivates the levels whose
bodies do not hold the target. -/
def Obligations.NextBundleFollows : Prop :=
  ∀ a : Arch,
    (a.pend = none → a.order = [] → a.advance = { a with pc := a.pc + 32 }) ∧
    (∀ (l : LoopNo) (rest : List LoopNo), a.pend = none → a.order = l :: rest → l ∉ rest →
      (a.loops[l]).act = false ∨ (a.loops[l]).stop ≠ a.pc →
      let b := ({ a with order := rest } : Arch).advance
      a.advance = { b with order := l :: b.order }) ∧
    (∀ (l : LoopNo) (rest : List LoopNo), a.pend = none → a.order = l :: rest → (a.loops[l]).act = true →
      (a.loops[l]).stop = a.pc → 1 < (a.loops[l]).count →
      a.advance = { a with pc := (a.loops[l]).start, loops := a.loops.set l { a.loops[l] with count := (a.loops[l]).count - 1 } }) ∧
    (∀ (l : LoopNo) (rest : List LoopNo), a.pend = none → a.order = l :: rest → l ∉ rest → (a.loops[l]).act = true →
      (a.loops[l]).stop = a.pc → (a.loops[l]).count ≤ 1 →
      a.advance = ({ a with loops := a.loops.set l LoopLevel.init, order := rest } : Arch).advance) ∧
    (∀ p : Pend, a.pend = some p → 1 < p.left →
      a.advance = { ({ a with pend := none } : Arch).advance with pend := some { p with left := p.left - 1 } }) ∧
    (∀ p : Pend, a.pend = some p → p.left ≤ 1 →
      a.advance.pc = p.target ∧ a.advance.pend = none ∧
      (p.leaves = false → a.advance.loops = ({ a with pend := none } : Arch).advance.loops) ∧
      (p.leaves = true → ∀ l : LoopNo, (a.advance.loops[l]).act = true → l ∈ a.advance.order →
        ((a.loops[l]).start ≤ p.target ∧ p.target ≤ (a.loops[l]).stop)))

/-- R40, R43, R77, the frame of the ctl slot: an arithmetic instruction, a transfer or a write of a special register changes no
register, no byte of memory and no flag when it issues; its results are in flight, and those in flight to registers that it does not
name stay as they are; or it ends in a trap. -/
def Obligations.ControlSlotFrame : Prop :=
  ∀ (i : Instr) (s : State), i.place = .slot .ctl → framed i s

/-- R40, R43, R77, R138, the frame of the vector slots. -/
def Obligations.VectorSlotsFrame : Prop :=
  ∀ (i : Instr) (s : State), i.place = .slot .va ∨ i.place = .slot .vb → framed i s

/-- R40, R108, R120, R218, the frame of the mem and the copy slots: a store and a command wait in the pier or in their queue and change
no byte of memory when they issue. -/
def Obligations.MemoryAndCopySlotsFrame : Prop :=
  ∀ (i : Instr) (s : State), i.place = .slot .mem ∨ i.place = .slot .ca ∨ i.place = .slot .cb → framed i s

/-- R40, R181, R293, R311, the frame of the mx and the sys slots, but for UTRET and SEGS, which restore and gate registers; LEASEREL, whose
destination fills when it issues, changes that register alone. -/
def Obligations.MatrixAndSystemSlotsFrame : Prop :=
  (∀ (i : Instr) (s : State), i.place = .slot .mx ∨ i.place = .slot .sys → i ≠ .utret → (∀ m n, i ≠ .segs m n) → (∀ d, i ≠ .leaserel d) →
    framed i s) ∧
  ∀ (d : Reg) (s : State), ∃ t, exec (.leaserel d) s = .next t ∧
    s.keeps (t.withArch { t.core.a with s := s.core.a.s, sEmpty := s.core.a.sEmpty }) ∧
    (∀ r : Reg, r ≠ d → t.core.a.rd r = s.core.a.rd r ∧ t.core.a.sIsEmpty r = s.core.a.sIsEmpty r) ∧
    ∀ left l, Landing.aimed (.leaserel d) l = false → (inFlight t.core.a.flights left l ↔ inFlight s.core.a.flights left l)

/-- R42, R154: a bundle that a source, a destination, the engine or a full queue freezes issues nothing: registers, the scratchpad, the bundle
and the transfer and loop state hold, and so do results in flight, but for pushes that a SEGS of the bundle waits for, which come nearer and land (log 27); when no cause of the freeze lets rows go on, nothing at
all changes, so that no fault of the bundle is raised either (log 23). -/
def Obligations.FrozenBundleHolds : Prop :=
  ∀ (i : Input) (s : State),
    let live := s.core.a.toIssue.2.2
    s.core.pierFull live = false → live.any s.frozenBy = true →
    let t := s.tryIssue i
    t.core.a.s = s.core.a.s ∧ t.core.a.sEmpty = s.core.a.sEmpty ∧ t.core.a.p = s.core.a.p ∧ t.core.a.v = s.core.a.v ∧
    t.core.a.q = s.core.a.q ∧ t.core.a.m = s.core.a.m ∧ t.core.a.pc = s.core.a.pc ∧
    t.core.a.pend = s.core.a.pend ∧ t.core.a.loops = s.core.a.loops ∧ t.core.a.words = s.core.a.words ∧
    t.core.spad = s.core.spad ∧ t.mem = s.mem ∧
    (gatesOf live = none → t.core.a.flights = s.core.a.flights ∧ (s.rowsGoOn live = false → t = s)) ∧
    (∀ n, gatesOf live = some n → s.rowsGoOn live = false → t = s.modCore (Core.gateCycle n))

/-- A step is the next event of the agenda (log 3): it runs exec of that event with the data that its environment brings.
In the package-fault state the device heeds a reset, which ends it, and the time base, and no other event changes anything but the agenda
(R2, R30, R329; log 63).
No step and no instruction stops the machine. -/
def Claims.StepRunsTheNextEvent : Prop :=
  (∀ (s : State) (e : Instr) (i : Input) (rest : List (Instr × Input)), s.agenda = (e, i) :: rest →
    let u : State := { s with agenda := rest, input := i, rot := s.rot + 1 }
    (isEvent e = true → s.boot ≠ .packageFault ∨ e ∈ [.powerOnReset, .deviceReset, .timeBaseTick] → step s = exec e u) ∧
    (isEvent e = false → step s = .next u) ∧
    (s.boot = .packageFault → e ∉ [.powerOnReset, .deviceReset, .timeBaseTick] → step s = .next u)) ∧
  (∀ (i : Instr) (s : State), ∃ t, exec i s = .next t) ∧
  ∀ s : State, ∃ t, step s = .next t

/-- R33, R36, R40: a cycle of a core that nothing holds fetches the 32 bytes at its pc, from its instruction cache or from memory, decodes the
eight slot words, and runs exec of each decoded instruction, slot 0 first, until one traps; then the bundle ends; the engine runs exec of the
micro-word at its pc.
From which window and how a bundle is fetched is log 50, and how the instruction cache answers is log 76. -/
def Claims.CycleRunsDecodedInstructions : Prop :=
  (∀ (i : Instr) (s : State), i.place ≠ .none → exec i s = runInstr i s) ∧
  (∀ s : State, exec .bundleFetch s = .next
    (let u := s.there
     let i := s.input
     if i.flag && decide (2 ≤ i.first) then
       (if i.first = 4 then u.cacheDrop (dieOf u.core.id) i.off else u).modCore (Core.corrected i.first)
     else u.coreCycle i)) ∧
  (∀ (i : Input) (s : State),
    let t := (s.modA (fun a => { a with tcfresh := [] })).engineCycle (bitOf i.mask 0)
    s.core.busy = true → s.core.arbit = none → s.core.stall = 0 → s.core.entry = 0 → i.flag2 = false → s.hung = false → t.core.who = s.core.who →
    t.core.sealErr = none → t.preempting = false → t.core.a.block = none →
    let v := t.modCore Core.reach
    v.core.a.deferred = [] → v.core.a.lx = none → s.coreCycle i = (v.fetchIssue i).barrierCycle.modCore Core.endCycle) ∧
  (∀ (i : Input) (s v : State) (pa : Nat) (e : Word) (g : Granule) (tag : Word),
    s.core.a.words = [] → windowOf s.core.a.pc.toNat = .user → s.overdue s.core.fetchAt = false → i.count ≠ 2 → i.flag2 = false →
    s.walkWaits s.core.tlb1 s.core.id { s.core.a with views := [] } s.core.a.pc.toNat = false →
    s.translateVia s.core.tlb1 (dieOf s.core.id) s.core.a.ctx s.core.a.pc.toNat .exec false = .ok (pa, e) → isPoison tag = false →
    (i.count = 0 ∧ s.core.icache.find? (fun l => l.pa = pa / 64) = some ⟨pa / 64, g, tag, false⟩ ∧ v = s) ∨
      ((i.count = 0 → s.core.icache.find? (fun l => l.pa = pa / 64) = none) ∧
        s.readLocs (decide (i.count ≤ 1)) [.phys pa e] = ([(g, tag)], v)) →
    s.fetchIssue i = (v.modCore (fun c => { c with
      icache := (⟨pa / 64, g, tag, false⟩ :: c.icache.filter (fun l => l.pa ≠ pa / 64)).take 4096, fetchAt := none,
      a := { c.a with words := bundleWords (g.toNat / 2 ^ (8 * (pa % 64)) % 2 ^ 256) } })).tryIssue i) ∧
  (∀ (i : Input) (s : State),
    let live := s.core.a.toIssue.2.2
    let u := s.rowCycle
    s.core.pierFull live = false → live.any s.frozenBy = false →
    i.flag = false → i.flag2 = false → i.len = 0 → u.core.drainInWay live = false →
    let v := (u.modCore Core.openIssue).issueSlots u.core.who live
    (s.core.a.toIssue.2.1 = none → s.tryIssue i = v.issued u.core.who) ∧
    (∀ j, s.core.a.toIssue.2.1 = some j → v.core.iss.trapped = false → v.core.who = u.core.who →
      s.tryIssue i = (v.fault j .illegalOp (BitVec.ofNat 64 (u.core.a.words.getD j 0))).issued u.core.who)) ∧
  (∀ (who : Bool × Nat × Word) (i : Instr) (rest : List Instr) (s t : State),
    i.place ≠ .none → s.core.iss.trapped = false → s.core.who = who → exec i s = .next t →
    s.issueSlots who (i :: rest) = t.issueSlots who rest) ∧
  (∀ (s : State), s.core.iss.trapped = false → s.core.a.block = none → s.issued s.core.who = s.endBundle) ∧
  ∀ (s t : State) (r : Routine) (i : Instr),
    s.core.microReady = some r → r.lib = none → r.upc ≤ 4095 → decodeMicro (s.core.microWord r.upc) = .ok i →
    i.place ≠ .none → (∀ va, s.stepReads = some va → s.overdue (s.core.mxAt.map Prod.fst) = false ∧ s.operandWaits va = false) →
    exec i s = .next t → s.microStep false = t.modCore (fun c => { c with mxAt := none })

/-- A step is the next event; a cycle of a core decodes the bundle at its pc and runs exec of each instruction. -/
def Obligations.StepRunsDecodedInstruction : Prop :=
  Claims.StepRunsTheNextEvent ∧ Claims.CycleRunsDecodedInstructions

/-- R34, R35, R190, words written out from the encodings of the spec decode to the instructions that they stand for, and reserved words to
none. -/
def Obligations.DecodesKnownWords : Prop :=
  decodeSlot .ctl 0x04642C00 = .ok (.add 3 4 5 true) ∧
  decodeSlot .ctl 0x04E6300E = .ok (.mul 7 6 6 false) ∧
  decodeSlot .ctl 0x1C600123 = .ok (.movhi 3 0 0x0123) ∧
  decodeSlot .ctl 0x38450004 = .ok (.bnz 5 4) ∧
  decodeSlot .ctl 0x4C642900 = .ok (.fadd 3 4 5 .rtz) ∧
  decodeSlot .ctl 0x5C800010 = .ok (.rdsr 4 .frame) ∧
  decodeSlot .mx 0x1C480000 = .ok (.mstat 9) ∧
  decodeSlot .sys 0x58000005 = .ok (.trap 5) ∧
  decodeSlot .sys 0x5C000000 = .ok .utret ∧
  decodeMicro 0x0E00000000000000 = .ok (.mStep true false) ∧
  decodeSlot .ctl 0 = .ok .nopCtl ∧
  (decodeSlot .ctl 0xFFFFFFFF).toOption = none

/-- R34, the round trip of the ctl slot: the word of a well-formed instruction decodes to that instruction, operands and all. -/
def Claims.ControlRoundTrip : Prop :=
  ∀ i : Instr, i.wf = true → i.place = .slot .ctl → decodeSlot .ctl (encode i) = .ok i

/-- R34, R35, the round trip of the mem slot. -/
def Claims.MemoryRoundTrip : Prop :=
  ∀ i : Instr, i.wf = true → i.place = .slot .mem → decodeSlot .mem (encode i) = .ok i

/-- Decode and encode agree on the ctl and the mem slot. -/
def Obligations.ScalarAndMemoryRoundTrip : Prop :=
  Claims.ControlRoundTrip ∧ Claims.MemoryRoundTrip

/-- R35, the round trip of the vector slots. -/
def Claims.VectorRoundTrip : Prop :=
  ∀ (i : Instr) (sl : Slot), i.wf = true → i.place = .slot sl → sl = .va ∨ sl = .vb →
    decodeSlot sl (encode i) = .ok i

/-- R34, R190, the round trip of the mx slot and of the micro-words. -/
def Claims.MatrixRoundTrip : Prop :=
  (∀ i : Instr, i.wf = true → i.place = .slot .mx → decodeSlot .mx (encode i) = .ok i) ∧
  ∀ i : Instr, i.wf = true → i.place = .micro → decodeMicro (encode i) = .ok i

/-- Decode and encode agree on the vector slots, the mx slot and the micro-words. -/
def Obligations.VectorAndMatrixRoundTrip : Prop :=
  Claims.VectorRoundTrip ∧ Claims.MatrixRoundTrip

/-- R34, the round trip of the copy slots and of the sys slot. -/
def Obligations.CopyAndSystemRoundTrip : Prop :=
  ∀ (i : Instr) (sl : Slot), i.wf = true → i.place = .slot sl → sl = .ca ∨ sl = .cb ∨ sl = .sys →
    decodeSlot sl (encode i) = .ok i

/-- What the decoder accepts is well formed, stands in the slot it was read from, and has that word alone: no bit of a word is
ignored. -/
def Obligations.WordsHaveOneReading : Prop :=
  (∀ (sl : Slot) (w : Nat) (i : Instr), w < 2 ^ 32 → decodeSlot sl w = .ok i → i.wf = true ∧ i.place = .slot sl ∧ encode i = w) ∧
  ∀ (w : Nat) (i : Instr), w < 2 ^ 64 → decodeMicro w = .ok i → i.wf = true ∧ i.place = .micro ∧ encode i = w

/-- R29: FRAME is changed by a tick, which adds one modulo 2^64, and by power-on reset, which clears it, and by nothing else. -/
def Obligations.FrameOnlyTicks : Prop :=
  (∀ (i : Instr) (s t : State), exec i s = .next t → i ≠ .timeBaseTick → i ≠ .powerOnReset → t.frame = s.frame) ∧
  (∀ s : State, s.timeBase = true → ∃ t, exec .timeBaseTick s = .next t ∧ t.frame = s.frame + 1) ∧
  (∀ s : State, ∃ t, exec .powerOnReset s = .next t ∧ t.frame = 0) ∧
  ∀ (d : Reg) (s : State), exec (.rdsr d .frame) s = .next (s.sends 1 d s.frame)

/-- Every step keeps device and host memory and their tags in canonical form, so that equal memories are equal data (log 2). -/
def Obligations.StepKeepsMemoryForm : Prop :=
  ∀ s t : State, s.memOk = true → step s = .next t → t.memOk = true

/-- R29, R31, R289, R297, what power-on reset leaves: FRAME 0, the boot ROM to run, no context, no task and no launch, the heat at 0, 978 tokens
of the 489 that the first epoch brings; every register of every core at zero and full is the model's choice (log 1), as is memory that reads 0
(log 2); the invariant of memory holds. -/
def Obligations.ResetState : Prop :=
  State.reset.frame = 0 ∧ State.reset.timeBase = true ∧ State.reset.boot = .rom ∧ State.reset.ready = false ∧
  State.reset.ctxs = [] ∧ State.reset.streams = [] ∧ State.reset.launches = [] ∧ State.reset.tasks = [] ∧
  State.reset.heat = 0 ∧ State.reset.melt = 0 ∧
  (∀ n : Fin 32, (State.reset.clusters[n]).balance = 978 ∧ (State.reset.clusters[n]).refill = 489) ∧
  (∀ n, let c := State.reset.getCore n
    c.busy = false ∧ c.sp = false ∧ c.pier = [] ∧ (∀ a, cellGet 0 c.spad a = 0 ∧ cellGet 0 c.spadTags a = 0) ∧
    (∀ r : Reg, c.a.rd r = 0 ∧ c.a.sIsEmpty r = false ∧ c.a.v[r] = 0 ∧ c.a.vIsEmpty r = false) ∧
    (∀ r : PredReg, c.a.rdP r = (r == 0)) ∧ (∀ r : MaskReg, r ≠ 0 → c.a.rdM r = 0) ∧ (∀ j : Fin 16, c.a.q[j] = 0 ∧ c.a.segs[j] = .off) ∧
    (∀ j, c.a.vrfGet j = 0) ∧ c.a.k = 0 ∧ (∀ j : Fin 8, c.a.mp[j] = 0) ∧
    (∀ (l : TileNo) (r : Nat), rowGet (c.a.tiles[l]).p r = 0 ∧ rowGet (c.a.tiles[l]).q r = 0) ∧
    c.a.pc = 0 ∧ c.a.ut = false ∧ c.a.sres = 0 ∧ c.a.tcause = 0 ∧ c.a.tval = 0 ∧ c.a.tpc = 0 ∧ c.a.utvec = 0) ∧
  (∀ a, cellGet 0 State.reset.mem a = 0) ∧ State.reset.formsOk
end

