-- ==== Sys2Proof/Laws/State.lean ====
section
/-!
SUPPORT. The updates of the state, field by field: what an update of the acting core, or of its task part, leaves as it was, and the
fields of the core that the shared operations leave as they were. Each is true by definition.
-/
set_option linter.unusedVariables false

namespace Sys2Proof.Machine

@[simp] theorem modCore_core (f : Core → Core) (s : State) : (s.modCore f).core = f s.core := rfl
@[simp] theorem modA_core (f : Arch → Arch) (s : State) : (s.modA f).core = { s.core with a := f s.core.a } := rfl
@[simp] theorem modCore_others (f : Core → Core) (s : State) : (s.modCore f).others = s.others := rfl
@[simp] theorem modCore_frame (f : Core → Core) (s : State) : (s.modCore f).frame = s.frame := rfl
@[simp] theorem modCore_timeBase (f : Core → Core) (s : State) : (s.modCore f).timeBase = s.timeBase := rfl
@[simp] theorem modCore_epoch (f : Core → Core) (s : State) : (s.modCore f).epoch = s.epoch := rfl
@[simp] theorem modCore_boot (f : Core → Core) (s : State) : (s.modCore f).boot = s.boot := rfl
@[simp] theorem modCore_ready (f : Core → Core) (s : State) : (s.modCore f).ready = s.ready := rfl
@[simp] theorem modCore_nosch (f : Core → Core) (s : State) : (s.modCore f).nosch = s.nosch := rfl
@[simp] theorem modCore_nossv (f : Core → Core) (s : State) : (s.modCore f).nossv = s.nossv := rfl
@[simp] theorem modCore_takeSch (f : Core → Core) (s : State) : (s.modCore f).takeSch = s.takeSch := rfl
@[simp] theorem modCore_takeSup (f : Core → Core) (s : State) : (s.modCore f).takeSup = s.takeSup := rfl
@[simp] theorem modCore_memStacks (f : Core → Core) (s : State) : (s.modCore f).memStacks = s.memStacks := rfl
@[simp] theorem modCore_clusters (f : Core → Core) (s : State) : (s.modCore f).clusters = s.clusters := rfl
@[simp] theorem modCore_heat (f : Core → Core) (s : State) : (s.modCore f).heat = s.heat := rfl
@[simp] theorem modCore_melt (f : Core → Core) (s : State) : (s.modCore f).melt = s.melt := rfl
@[simp] theorem modCore_rf (f : Core → Core) (s : State) : (s.modCore f).rf = s.rf := rfl
@[simp] theorem modCore_mem (f : Core → Core) (s : State) : (s.modCore f).mem = s.mem := rfl
@[simp] theorem modCore_memTags (f : Core → Core) (s : State) : (s.modCore f).memTags = s.memTags := rfl
@[simp] theorem modCore_dies (f : Core → Core) (s : State) : (s.modCore f).dies = s.dies := rfl
@[simp] theorem modCore_ctxs (f : Core → Core) (s : State) : (s.modCore f).ctxs = s.ctxs := rfl
@[simp] theorem modCore_updates (f : Core → Core) (s : State) : (s.modCore f).updates = s.updates := rfl
@[simp] theorem modCore_streams (f : Core → Core) (s : State) : (s.modCore f).streams = s.streams := rfl
@[simp] theorem modCore_launches (f : Core → Core) (s : State) : (s.modCore f).launches = s.launches := rfl
@[simp] theorem modCore_nlaunch (f : Core → Core) (s : State) : (s.modCore f).nlaunch = s.nlaunch := rfl
@[simp] theorem modCore_tasks (f : Core → Core) (s : State) : (s.modCore f).tasks = s.tasks := rfl
@[simp] theorem modCore_gangs (f : Core → Core) (s : State) : (s.modCore f).gangs = s.gangs := rfl
@[simp] theorem modCore_decs (f : Core → Core) (s : State) : (s.modCore f).decs = s.decs := rfl
@[simp] theorem modCore_atomTabs (f : Core → Core) (s : State) : (s.modCore f).atomTabs = s.atomTabs := rfl
@[simp] theorem modCore_hostLog (f : Core → Core) (s : State) : (s.modCore f).hostLog = s.hostLog := rfl
@[simp] theorem modCore_msix (f : Core → Core) (s : State) : (s.modCore f).msix = s.msix := rfl
@[simp] theorem modCore_mail (f : Core → Core) (s : State) : (s.modCore f).mail = s.mail := rfl
@[simp] theorem modCore_apbase (f : Core → Core) (s : State) : (s.modCore f).apbase = s.apbase := rfl
@[simp] theorem modCore_vbase (f : Core → Core) (s : State) : (s.modCore f).vbase = s.vbase := rfl
@[simp] theorem modCore_hostRead (f : Core → Core) (s : State) : (s.modCore f).hostRead = s.hostRead := rfl
@[simp] theorem modCore_captures (f : Core → Core) (s : State) : (s.modCore f).captures = s.captures := rfl
@[simp] theorem modCore_heldRecs (f : Core → Core) (s : State) : (s.modCore f).heldRecs = s.heldRecs := rfl
@[simp] theorem modCore_bitmap (f : Core → Core) (s : State) : (s.modCore f).bitmap = s.bitmap := rfl
@[simp] theorem modCore_wearPages (f : Core → Core) (s : State) : (s.modCore f).wearPages = s.wearPages := rfl
@[simp] theorem modCore_resources (f : Core → Core) (s : State) : (s.modCore f).resources = s.resources := rfl
@[simp] theorem modCore_resync (f : Core → Core) (s : State) : (s.modCore f).resync = s.resync := rfl
@[simp] theorem modCore_agenda (f : Core → Core) (s : State) : (s.modCore f).agenda = s.agenda := rfl
@[simp] theorem modCore_input (f : Core → Core) (s : State) : (s.modCore f).input = s.input := rfl
@[simp] theorem modCore_free (f : Core → Core) (s : State) : (s.modCore f).free = s.free := rfl
@[simp] theorem modCore_rot (f : Core → Core) (s : State) : (s.modCore f).rot = s.rot := rfl
@[simp] theorem modCore_fusedStacks (f : Core → Core) (s : State) : (s.modCore f).fusedStacks = s.fusedStacks := rfl
@[simp] theorem modCore_selfCheck (f : Core → Core) (s : State) : (s.modCore f).selfCheck = s.selfCheck := rfl
@[simp] theorem modCore_homes (f : Core → Core) (s : State) : (s.modCore f).homes = s.homes := rfl
@[simp] theorem modCore_epoch0 (f : Core → Core) (s : State) : (s.modCore f).epoch0 = s.epoch0 := rfl
@[simp] theorem modCore_fwAnswers (f : Core → Core) (s : State) : (s.modCore f).fwAnswers = s.fwAnswers := rfl
@[simp] theorem modCore_apsize (f : Core → Core) (s : State) : (s.modCore f).apsize = s.apsize := rfl
@[simp] theorem modA_others (f : Arch → Arch) (s : State) : (s.modA f).others = s.others := rfl
@[simp] theorem modA_frame (f : Arch → Arch) (s : State) : (s.modA f).frame = s.frame := rfl
@[simp] theorem modA_timeBase (f : Arch → Arch) (s : State) : (s.modA f).timeBase = s.timeBase := rfl
@[simp] theorem modA_epoch (f : Arch → Arch) (s : State) : (s.modA f).epoch = s.epoch := rfl
@[simp] theorem modA_boot (f : Arch → Arch) (s : State) : (s.modA f).boot = s.boot := rfl
@[simp] theorem modA_ready (f : Arch → Arch) (s : State) : (s.modA f).ready = s.ready := rfl
@[simp] theorem modA_nosch (f : Arch → Arch) (s : State) : (s.modA f).nosch = s.nosch := rfl
@[simp] theorem modA_nossv (f : Arch → Arch) (s : State) : (s.modA f).nossv = s.nossv := rfl
@[simp] theorem modA_takeSch (f : Arch → Arch) (s : State) : (s.modA f).takeSch = s.takeSch := rfl
@[simp] theorem modA_takeSup (f : Arch → Arch) (s : State) : (s.modA f).takeSup = s.takeSup := rfl
@[simp] theorem modA_memStacks (f : Arch → Arch) (s : State) : (s.modA f).memStacks = s.memStacks := rfl
@[simp] theorem modA_clusters (f : Arch → Arch) (s : State) : (s.modA f).clusters = s.clusters := rfl
@[simp] theorem modA_heat (f : Arch → Arch) (s : State) : (s.modA f).heat = s.heat := rfl
@[simp] theorem modA_melt (f : Arch → Arch) (s : State) : (s.modA f).melt = s.melt := rfl
@[simp] theorem modA_rf (f : Arch → Arch) (s : State) : (s.modA f).rf = s.rf := rfl
@[simp] theorem modA_mem (f : Arch → Arch) (s : State) : (s.modA f).mem = s.mem := rfl
@[simp] theorem modA_memTags (f : Arch → Arch) (s : State) : (s.modA f).memTags = s.memTags := rfl
@[simp] theorem modA_dies (f : Arch → Arch) (s : State) : (s.modA f).dies = s.dies := rfl
@[simp] theorem modA_ctxs (f : Arch → Arch) (s : State) : (s.modA f).ctxs = s.ctxs := rfl
@[simp] theorem modA_updates (f : Arch → Arch) (s : State) : (s.modA f).updates = s.updates := rfl
@[simp] theorem modA_streams (f : Arch → Arch) (s : State) : (s.modA f).streams = s.streams := rfl
@[simp] theorem modA_launches (f : Arch → Arch) (s : State) : (s.modA f).launches = s.launches := rfl
@[simp] theorem modA_nlaunch (f : Arch → Arch) (s : State) : (s.modA f).nlaunch = s.nlaunch := rfl
@[simp] theorem modA_tasks (f : Arch → Arch) (s : State) : (s.modA f).tasks = s.tasks := rfl
@[simp] theorem modA_gangs (f : Arch → Arch) (s : State) : (s.modA f).gangs = s.gangs := rfl
@[simp] theorem modA_decs (f : Arch → Arch) (s : State) : (s.modA f).decs = s.decs := rfl
@[simp] theorem modA_atomTabs (f : Arch → Arch) (s : State) : (s.modA f).atomTabs = s.atomTabs := rfl
@[simp] theorem modA_hostLog (f : Arch → Arch) (s : State) : (s.modA f).hostLog = s.hostLog := rfl
@[simp] theorem modA_msix (f : Arch → Arch) (s : State) : (s.modA f).msix = s.msix := rfl
@[simp] theorem modA_mail (f : Arch → Arch) (s : State) : (s.modA f).mail = s.mail := rfl
@[simp] theorem modA_apbase (f : Arch → Arch) (s : State) : (s.modA f).apbase = s.apbase := rfl
@[simp] theorem modA_vbase (f : Arch → Arch) (s : State) : (s.modA f).vbase = s.vbase := rfl
@[simp] theorem modA_hostRead (f : Arch → Arch) (s : State) : (s.modA f).hostRead = s.hostRead := rfl
@[simp] theorem modA_captures (f : Arch → Arch) (s : State) : (s.modA f).captures = s.captures := rfl
@[simp] theorem modA_heldRecs (f : Arch → Arch) (s : State) : (s.modA f).heldRecs = s.heldRecs := rfl
@[simp] theorem modA_bitmap (f : Arch → Arch) (s : State) : (s.modA f).bitmap = s.bitmap := rfl
@[simp] theorem modA_wearPages (f : Arch → Arch) (s : State) : (s.modA f).wearPages = s.wearPages := rfl
@[simp] theorem modA_resources (f : Arch → Arch) (s : State) : (s.modA f).resources = s.resources := rfl
@[simp] theorem modA_resync (f : Arch → Arch) (s : State) : (s.modA f).resync = s.resync := rfl
@[simp] theorem modA_agenda (f : Arch → Arch) (s : State) : (s.modA f).agenda = s.agenda := rfl
@[simp] theorem modA_input (f : Arch → Arch) (s : State) : (s.modA f).input = s.input := rfl
@[simp] theorem modA_free (f : Arch → Arch) (s : State) : (s.modA f).free = s.free := rfl
@[simp] theorem modA_rot (f : Arch → Arch) (s : State) : (s.modA f).rot = s.rot := rfl
@[simp] theorem modA_fusedStacks (f : Arch → Arch) (s : State) : (s.modA f).fusedStacks = s.fusedStacks := rfl
@[simp] theorem modA_selfCheck (f : Arch → Arch) (s : State) : (s.modA f).selfCheck = s.selfCheck := rfl
@[simp] theorem modA_homes (f : Arch → Arch) (s : State) : (s.modA f).homes = s.homes := rfl
@[simp] theorem modA_epoch0 (f : Arch → Arch) (s : State) : (s.modA f).epoch0 = s.epoch0 := rfl
@[simp] theorem modA_fwAnswers (f : Arch → Arch) (s : State) : (s.modA f).fwAnswers = s.fwAnswers := rfl
@[simp] theorem modA_apsize (f : Arch → Arch) (s : State) : (s.modA f).apsize = s.apsize := rfl
@[simp] theorem onCtx_core (n : Nat) (f : Context → Context) (s : State) : (s.onCtx n f).core = s.core := rfl
@[simp] theorem onCtx_others (n : Nat) (f : Context → Context) (s : State) : (s.onCtx n f).others = s.others := rfl
@[simp] theorem onCtx_frame (n : Nat) (f : Context → Context) (s : State) : (s.onCtx n f).frame = s.frame := rfl
@[simp] theorem onCtx_timeBase (n : Nat) (f : Context → Context) (s : State) : (s.onCtx n f).timeBase = s.timeBase := rfl
@[simp] theorem onCtx_epoch (n : Nat) (f : Context → Context) (s : State) : (s.onCtx n f).epoch = s.epoch := rfl
@[simp] theorem onCtx_boot (n : Nat) (f : Context → Context) (s : State) : (s.onCtx n f).boot = s.boot := rfl
@[simp] theorem onCtx_ready (n : Nat) (f : Context → Context) (s : State) : (s.onCtx n f).ready = s.ready := rfl
@[simp] theorem onCtx_nosch (n : Nat) (f : Context → Context) (s : State) : (s.onCtx n f).nosch = s.nosch := rfl
@[simp] theorem onCtx_nossv (n : Nat) (f : Context → Context) (s : State) : (s.onCtx n f).nossv = s.nossv := rfl
@[simp] theorem onCtx_takeSch (n : Nat) (f : Context → Context) (s : State) : (s.onCtx n f).takeSch = s.takeSch := rfl
@[simp] theorem onCtx_takeSup (n : Nat) (f : Context → Context) (s : State) : (s.onCtx n f).takeSup = s.takeSup := rfl
@[simp] theorem onCtx_memStacks (n : Nat) (f : Context → Context) (s : State) : (s.onCtx n f).memStacks = s.memStacks := rfl
@[simp] theorem onCtx_clusters (n : Nat) (f : Context → Context) (s : State) : (s.onCtx n f).clusters = s.clusters := rfl
@[simp] theorem onCtx_heat (n : Nat) (f : Context → Context) (s : State) : (s.onCtx n f).heat = s.heat := rfl
@[simp] theorem onCtx_melt (n : Nat) (f : Context → Context) (s : State) : (s.onCtx n f).melt = s.melt := rfl
@[simp] theorem onCtx_rf (n : Nat) (f : Context → Context) (s : State) : (s.onCtx n f).rf = s.rf := rfl
@[simp] theorem onCtx_mem (n : Nat) (f : Context → Context) (s : State) : (s.onCtx n f).mem = s.mem := rfl
@[simp] theorem onCtx_memTags (n : Nat) (f : Context → Context) (s : State) : (s.onCtx n f).memTags = s.memTags := rfl
@[simp] theorem onCtx_dies (n : Nat) (f : Context → Context) (s : State) : (s.onCtx n f).dies = s.dies := rfl
@[simp] theorem onCtx_updates (n : Nat) (f : Context → Context) (s : State) : (s.onCtx n f).updates = s.updates := rfl
@[simp] theorem onCtx_streams (n : Nat) (f : Context → Context) (s : State) : (s.onCtx n f).streams = s.streams := rfl
@[simp] theorem onCtx_launches (n : Nat) (f : Context → Context) (s : State) : (s.onCtx n f).launches = s.launches := rfl
@[simp] theorem onCtx_nlaunch (n : Nat) (f : Context → Context) (s : State) : (s.onCtx n f).nlaunch = s.nlaunch := rfl
@[simp] theorem onCtx_tasks (n : Nat) (f : Context → Context) (s : State) : (s.onCtx n f).tasks = s.tasks := rfl
@[simp] theorem onCtx_gangs (n : Nat) (f : Context → Context) (s : State) : (s.onCtx n f).gangs = s.gangs := rfl
@[simp] theorem onCtx_decs (n : Nat) (f : Context → Context) (s : State) : (s.onCtx n f).decs = s.decs := rfl
@[simp] theorem onCtx_atomTabs (n : Nat) (f : Context → Context) (s : State) : (s.onCtx n f).atomTabs = s.atomTabs := rfl
@[simp] theorem onCtx_hostLog (n : Nat) (f : Context → Context) (s : State) : (s.onCtx n f).hostLog = s.hostLog := rfl
@[simp] theorem onCtx_msix (n : Nat) (f : Context → Context) (s : State) : (s.onCtx n f).msix = s.msix := rfl
@[simp] theorem onCtx_mail (n : Nat) (f : Context → Context) (s : State) : (s.onCtx n f).mail = s.mail := rfl
@[simp] theorem onCtx_apbase (n : Nat) (f : Context → Context) (s : State) : (s.onCtx n f).apbase = s.apbase := rfl
@[simp] theorem onCtx_vbase (n : Nat) (f : Context → Context) (s : State) : (s.onCtx n f).vbase = s.vbase := rfl
@[simp] theorem onCtx_hostRead (n : Nat) (f : Context → Context) (s : State) : (s.onCtx n f).hostRead = s.hostRead := rfl
@[simp] theorem onCtx_captures (n : Nat) (f : Context → Context) (s : State) : (s.onCtx n f).captures = s.captures := rfl
@[simp] theorem onCtx_heldRecs (n : Nat) (f : Context → Context) (s : State) : (s.onCtx n f).heldRecs = s.heldRecs := rfl
@[simp] theorem onCtx_bitmap (n : Nat) (f : Context → Context) (s : State) : (s.onCtx n f).bitmap = s.bitmap := rfl
@[simp] theorem onCtx_wearPages (n : Nat) (f : Context → Context) (s : State) : (s.onCtx n f).wearPages = s.wearPages := rfl
@[simp] theorem onCtx_resources (n : Nat) (f : Context → Context) (s : State) : (s.onCtx n f).resources = s.resources := rfl
@[simp] theorem onCtx_resync (n : Nat) (f : Context → Context) (s : State) : (s.onCtx n f).resync = s.resync := rfl
@[simp] theorem onCtx_agenda (n : Nat) (f : Context → Context) (s : State) : (s.onCtx n f).agenda = s.agenda := rfl
@[simp] theorem onCtx_input (n : Nat) (f : Context → Context) (s : State) : (s.onCtx n f).input = s.input := rfl
@[simp] theorem onCtx_free (n : Nat) (f : Context → Context) (s : State) : (s.onCtx n f).free = s.free := rfl
@[simp] theorem onCtx_rot (n : Nat) (f : Context → Context) (s : State) : (s.onCtx n f).rot = s.rot := rfl
@[simp] theorem onCtx_fusedStacks (n : Nat) (f : Context → Context) (s : State) : (s.onCtx n f).fusedStacks = s.fusedStacks := rfl
@[simp] theorem onCtx_selfCheck (n : Nat) (f : Context → Context) (s : State) : (s.onCtx n f).selfCheck = s.selfCheck := rfl
@[simp] theorem onCtx_homes (n : Nat) (f : Context → Context) (s : State) : (s.onCtx n f).homes = s.homes := rfl
@[simp] theorem onCtx_epoch0 (n : Nat) (f : Context → Context) (s : State) : (s.onCtx n f).epoch0 = s.epoch0 := rfl
@[simp] theorem onCtx_fwAnswers (n : Nat) (f : Context → Context) (s : State) : (s.onCtx n f).fwAnswers = s.fwAnswers := rfl
@[simp] theorem onCtx_apsize (n : Nat) (f : Context → Context) (s : State) : (s.onCtx n f).apsize = s.apsize := rfl

/-! A result sent on its way changes the results in flight and, in a handler, the replay buffer. -/

@[simp] theorem fly_a_s (lat slot : Nat) (ls : List Landing) (s : State) : (s.fly lat slot ls).core.a.s = s.core.a.s := rfl
@[simp] theorem fly_a_sEmpty (lat slot : Nat) (ls : List Landing) (s : State) : (s.fly lat slot ls).core.a.sEmpty = s.core.a.sEmpty := rfl
@[simp] theorem fly_a_p (lat slot : Nat) (ls : List Landing) (s : State) : (s.fly lat slot ls).core.a.p = s.core.a.p := rfl
@[simp] theorem fly_a_v (lat slot : Nat) (ls : List Landing) (s : State) : (s.fly lat slot ls).core.a.v = s.core.a.v := rfl
@[simp] theorem fly_a_vEmpty (lat slot : Nat) (ls : List Landing) (s : State) : (s.fly lat slot ls).core.a.vEmpty = s.core.a.vEmpty := rfl
@[simp] theorem fly_a_q (lat slot : Nat) (ls : List Landing) (s : State) : (s.fly lat slot ls).core.a.q = s.core.a.q := rfl
@[simp] theorem fly_a_m (lat slot : Nat) (ls : List Landing) (s : State) : (s.fly lat slot ls).core.a.m = s.core.a.m := rfl
@[simp] theorem fly_a_k (lat slot : Nat) (ls : List Landing) (s : State) : (s.fly lat slot ls).core.a.k = s.core.a.k := rfl
@[simp] theorem fly_a_ports (lat slot : Nat) (ls : List Landing) (s : State) : (s.fly lat slot ls).core.a.ports = s.core.a.ports := rfl
@[simp] theorem fly_a_vrf (lat slot : Nat) (ls : List Landing) (s : State) : (s.fly lat slot ls).core.a.vrf = s.core.a.vrf := rfl
@[simp] theorem fly_a_vrfTags (lat slot : Nat) (ls : List Landing) (s : State) : (s.fly lat slot ls).core.a.vrfTags = s.core.a.vrfTags := rfl
@[simp] theorem fly_a_segs (lat slot : Nat) (ls : List Landing) (s : State) : (s.fly lat slot ls).core.a.segs = s.core.a.segs := rfl
@[simp] theorem fly_a_pc (lat slot : Nat) (ls : List Landing) (s : State) : (s.fly lat slot ls).core.a.pc = s.core.a.pc := rfl
@[simp] theorem fly_a_pend (lat slot : Nat) (ls : List Landing) (s : State) : (s.fly lat slot ls).core.a.pend = s.core.a.pend := rfl
@[simp] theorem fly_a_loops (lat slot : Nat) (ls : List Landing) (s : State) : (s.fly lat slot ls).core.a.loops = s.core.a.loops := rfl
@[simp] theorem fly_a_order (lat slot : Nat) (ls : List Landing) (s : State) : (s.fly lat slot ls).core.a.order = s.core.a.order := rfl
@[simp] theorem fly_a_ut (lat slot : Nat) (ls : List Landing) (s : State) : (s.fly lat slot ls).core.a.ut = s.core.a.ut := rfl
@[simp] theorem fly_a_lx (lat slot : Nat) (ls : List Landing) (s : State) : (s.fly lat slot ls).core.a.lx = s.core.a.lx := rfl
@[simp] theorem fly_a_sres (lat slot : Nat) (ls : List Landing) (s : State) : (s.fly lat slot ls).core.a.sres = s.core.a.sres := rfl
@[simp] theorem fly_a_tcause (lat slot : Nat) (ls : List Landing) (s : State) : (s.fly lat slot ls).core.a.tcause = s.core.a.tcause := rfl
@[simp] theorem fly_a_tval (lat slot : Nat) (ls : List Landing) (s : State) : (s.fly lat slot ls).core.a.tval = s.core.a.tval := rfl
@[simp] theorem fly_a_tpc (lat slot : Nat) (ls : List Landing) (s : State) : (s.fly lat slot ls).core.a.tpc = s.core.a.tpc := rfl
@[simp] theorem fly_a_utvec (lat slot : Nat) (ls : List Landing) (s : State) : (s.fly lat slot ls).core.a.utvec = s.core.a.utvec := rfl
@[simp] theorem fly_a_popped (lat slot : Nat) (ls : List Landing) (s : State) : (s.fly lat slot ls).core.a.popped = s.core.a.popped := rfl
@[simp] theorem fly_a_staged (lat slot : Nat) (ls : List Landing) (s : State) : (s.fly lat slot ls).core.a.staged = s.core.a.staged := rfl
@[simp] theorem fly_a_reentry (lat slot : Nat) (ls : List Landing) (s : State) : (s.fly lat slot ls).core.a.reentry = s.core.a.reentry := rfl
@[simp] theorem fly_a_checks (lat slot : Nat) (ls : List Landing) (s : State) : (s.fly lat slot ls).core.a.checks = s.core.a.checks := rfl
@[simp] theorem fly_a_mp (lat slot : Nat) (ls : List Landing) (s : State) : (s.fly lat slot ls).core.a.mp = s.core.a.mp := rfl
@[simp] theorem fly_a_tiles (lat slot : Nat) (ls : List Landing) (s : State) : (s.fly lat slot ls).core.a.tiles = s.core.a.tiles := rfl
@[simp] theorem fly_a_eng (lat slot : Nat) (ls : List Landing) (s : State) : (s.fly lat slot ls).core.a.eng = s.core.a.eng := rfl
@[simp] theorem fly_a_routine (lat slot : Nat) (ls : List Landing) (s : State) : (s.fly lat slot ls).core.a.routine = s.core.a.routine := rfl
@[simp] theorem fly_a_stat (lat slot : Nat) (ls : List Landing) (s : State) : (s.fly lat slot ls).core.a.stat = s.core.a.stat := rfl
@[simp] theorem fly_a_drains (lat slot : Nat) (ls : List Landing) (s : State) : (s.fly lat slot ls).core.a.drains = s.core.a.drains := rfl
@[simp] theorem fly_a_ctx (lat slot : Nat) (ls : List Landing) (s : State) : (s.fly lat slot ls).core.a.ctx = s.core.a.ctx := rfl
@[simp] theorem fly_a_tcb (lat slot : Nat) (ls : List Landing) (s : State) : (s.fly lat slot ls).core.a.tcb = s.core.a.tcb := rfl
@[simp] theorem fly_a_level (lat slot : Nat) (ls : List Landing) (s : State) : (s.fly lat slot ls).core.a.level = s.core.a.level := rfl
@[simp] theorem fly_a_prio (lat slot : Nat) (ls : List Landing) (s : State) : (s.fly lat slot ls).core.a.prio = s.core.a.prio := rfl
@[simp] theorem fly_a_merging (lat slot : Nat) (ls : List Landing) (s : State) : (s.fly lat slot ls).core.a.merging = s.core.a.merging := rfl
@[simp] theorem fly_a_mergeFor (lat slot : Nat) (ls : List Landing) (s : State) : (s.fly lat slot ls).core.a.mergeFor = s.core.a.mergeFor := rfl
@[simp] theorem fly_a_views (lat slot : Nat) (ls : List Landing) (s : State) : (s.fly lat slot ls).core.a.views = s.core.a.views := rfl
@[simp] theorem fly_a_frozen0 (lat slot : Nat) (ls : List Landing) (s : State) : (s.fly lat slot ls).core.a.frozen0 = s.core.a.frozen0 := rfl
@[simp] theorem fly_a_barBase (lat slot : Nat) (ls : List Landing) (s : State) : (s.fly lat slot ls).core.a.barBase = s.core.a.barBase := rfl
@[simp] theorem fly_a_gangs (lat slot : Nat) (ls : List Landing) (s : State) : (s.fly lat slot ls).core.a.gangs = s.core.a.gangs := rfl
@[simp] theorem fly_a_gangOps (lat slot : Nat) (ls : List Landing) (s : State) : (s.fly lat slot ls).core.a.gangOps = s.core.a.gangOps := rfl
@[simp] theorem fly_a_block (lat slot : Nat) (ls : List Landing) (s : State) : (s.fly lat slot ls).core.a.block = s.core.a.block := rfl
@[simp] theorem fly_a_back (lat slot : Nat) (ls : List Landing) (s : State) : (s.fly lat slot ls).core.a.back = s.core.a.back := rfl
@[simp] theorem fly_a_tcwaits (lat slot : Nat) (ls : List Landing) (s : State) : (s.fly lat slot ls).core.a.tcwaits = s.core.a.tcwaits := rfl
@[simp] theorem fly_a_mwaits (lat slot : Nat) (ls : List Landing) (s : State) : (s.fly lat slot ls).core.a.mwaits = s.core.a.mwaits := rfl
@[simp] theorem fly_a_credit (lat slot : Nat) (ls : List Landing) (s : State) : (s.fly lat slot ls).core.a.credit = s.core.a.credit := rfl
@[simp] theorem fly_a_permits (lat slot : Nat) (ls : List Landing) (s : State) : (s.fly lat slot ls).core.a.permits = s.core.a.permits := rfl
@[simp] theorem fly_a_words (lat slot : Nat) (ls : List Landing) (s : State) : (s.fly lat slot ls).core.a.words = s.core.a.words := rfl
@[simp] theorem fly_a_deferred (lat slot : Nat) (ls : List Landing) (s : State) : (s.fly lat slot ls).core.a.deferred = s.core.a.deferred := rfl
@[simp] theorem fly_a_memq (lat slot : Nat) (ls : List Landing) (s : State) : (s.fly lat slot ls).core.a.memq = s.core.a.memq := rfl
@[simp] theorem fly_a_points (lat slot : Nat) (ls : List Landing) (s : State) : (s.fly lat slot ls).core.a.points = s.core.a.points := rfl
@[simp] theorem fly_a_heldPier (lat slot : Nat) (ls : List Landing) (s : State) : (s.fly lat slot ls).core.a.heldPier = s.core.a.heldPier := rfl
@[simp] theorem fly_a_tcfresh (lat slot : Nat) (ls : List Landing) (s : State) : (s.fly lat slot ls).core.a.tcfresh = s.core.a.tcfresh := rfl
@[simp] theorem fly_a_acqDue (lat slot : Nat) (ls : List Landing) (s : State) : (s.fly lat slot ls).core.a.acqDue = s.core.a.acqDue := rfl
@[simp] theorem fly_a_sealq (lat slot : Nat) (ls : List Landing) (s : State) : (s.fly lat slot ls).core.a.sealq = s.core.a.sealq := rfl
@[simp] theorem fly_core_id (lat slot : Nat) (ls : List Landing) (s : State) : (s.fly lat slot ls).core.id = s.core.id := rfl
@[simp] theorem fly_core_busy (lat slot : Nat) (ls : List Landing) (s : State) : (s.fly lat slot ls).core.busy = s.core.busy := rfl
@[simp] theorem fly_core_fl (lat slot : Nat) (ls : List Landing) (s : State) : (s.fly lat slot ls).core.fl = s.core.fl := rfl
@[simp] theorem fly_core_iss (lat slot : Nat) (ls : List Landing) (s : State) : (s.fly lat slot ls).core.iss = s.core.iss := rfl
@[simp] theorem fly_core_stall (lat slot : Nat) (ls : List Landing) (s : State) : (s.fly lat slot ls).core.stall = s.core.stall := rfl
@[simp] theorem fly_core_entry (lat slot : Nat) (ls : List Landing) (s : State) : (s.fly lat slot ls).core.entry = s.core.entry := rfl
@[simp] theorem fly_core_arbit (lat slot : Nat) (ls : List Landing) (s : State) : (s.fly lat slot ls).core.arbit = s.core.arbit := rfl
@[simp] theorem fly_core_sealErr (lat slot : Nat) (ls : List Landing) (s : State) : (s.fly lat slot ls).core.sealErr = s.core.sealErr := rfl
@[simp] theorem fly_core_seq (lat slot : Nat) (ls : List Landing) (s : State) : (s.fly lat slot ls).core.seq = s.core.seq := rfl
@[simp] theorem fly_core_nextId (lat slot : Nat) (ls : List Landing) (s : State) : (s.fly lat slot ls).core.nextId = s.core.nextId := rfl
@[simp] theorem fly_core_spad (lat slot : Nat) (ls : List Landing) (s : State) : (s.fly lat slot ls).core.spad = s.core.spad := rfl
@[simp] theorem fly_core_spadTags (lat slot : Nat) (ls : List Landing) (s : State) : (s.fly lat slot ls).core.spadTags = s.core.spadTags := rfl
@[simp] theorem fly_core_pier (lat slot : Nat) (ls : List Landing) (s : State) : (s.fly lat slot ls).core.pier = s.core.pier := rfl
@[simp] theorem fly_core_outq (lat slot : Nat) (ls : List Landing) (s : State) : (s.fly lat slot ls).core.outq = s.core.outq := rfl
@[simp] theorem fly_core_ca (lat slot : Nat) (ls : List Landing) (s : State) : (s.fly lat slot ls).core.ca = s.core.ca := rfl
@[simp] theorem fly_core_cb (lat slot : Nat) (ls : List Landing) (s : State) : (s.fly lat slot ls).core.cb = s.core.cb := rfl
@[simp] theorem fly_core_rels (lat slot : Nat) (ls : List Landing) (s : State) : (s.fly lat slot ls).core.rels = s.core.rels := rfl
@[simp] theorem fly_core_subs (lat slot : Nat) (ls : List Landing) (s : State) : (s.fly lat slot ls).core.subs = s.core.subs := rfl
@[simp] theorem fly_core_aseq (lat slot : Nat) (ls : List Landing) (s : State) : (s.fly lat slot ls).core.aseq = s.core.aseq := rfl
@[simp] theorem fly_core_dedup (lat slot : Nat) (ls : List Landing) (s : State) : (s.fly lat slot ls).core.dedup = s.core.dedup := rfl
@[simp] theorem fly_core_ustore (lat slot : Nat) (ls : List Landing) (s : State) : (s.fly lat slot ls).core.ustore = s.core.ustore := rfl
@[simp] theorem fly_core_entries (lat slot : Nat) (ls : List Landing) (s : State) : (s.fly lat slot ls).core.entries = s.core.entries := rfl
@[simp] theorem fly_core_err (lat slot : Nat) (ls : List Landing) (s : State) : (s.fly lat slot ls).core.err = s.core.err := rfl
@[simp] theorem fly_core_sp (lat slot : Nat) (ls : List Landing) (s : State) : (s.fly lat slot ls).core.sp = s.core.sp := rfl
@[simp] theorem fly_core_usesQ (lat slot : Nat) (ls : List Landing) (s : State) : (s.fly lat slot ls).core.usesQ = s.core.usesQ := rfl
@[simp] theorem fly_core_faulty (lat slot : Nat) (ls : List Landing) (s : State) : (s.fly lat slot ls).core.faulty = s.core.faulty := rfl
@[simp] theorem fly_core_outOfService (lat slot : Nat) (ls : List Landing) (s : State) : (s.fly lat slot ls).core.outOfService = s.core.outOfService := rfl
@[simp] theorem fly_core_queue (lat slot : Nat) (ls : List Landing) (s : State) : (s.fly lat slot ls).core.queue = s.core.queue := rfl
@[simp] theorem fly_core_qseq (lat slot : Nat) (ls : List Landing) (s : State) : (s.fly lat slot ls).core.qseq = s.core.qseq := rfl
@[simp] theorem fly_core_watch (lat slot : Nat) (ls : List Landing) (s : State) : (s.fly lat slot ls).core.watch = s.core.watch := rfl
@[simp] theorem fly_core_inl (lat slot : Nat) (ls : List Landing) (s : State) : (s.fly lat slot ls).core.inl = s.core.inl := rfl
@[simp] theorem fly_core_rowDone (lat slot : Nat) (ls : List Landing) (s : State) : (s.fly lat slot ls).core.rowDone = s.core.rowDone := rfl
@[simp] theorem fly_core_newRow (lat slot : Nat) (ls : List Landing) (s : State) : (s.fly lat slot ls).core.newRow = s.core.newRow := rfl
@[simp] theorem fly_core_arbitAt (lat slot : Nat) (ls : List Landing) (s : State) : (s.fly lat slot ls).core.arbitAt = s.core.arbitAt := rfl
@[simp] theorem fly_core_arbitFor (lat slot : Nat) (ls : List Landing) (s : State) : (s.fly lat slot ls).core.arbitFor = s.core.arbitFor := rfl
@[simp] theorem fly_core_newArbit (lat slot : Nat) (ls : List Landing) (s : State) : (s.fly lat slot ls).core.newArbit = s.core.newArbit := rfl
@[simp] theorem fly_core_tlb1 (lat slot : Nat) (ls : List Landing) (s : State) : (s.fly lat slot ls).core.tlb1 = s.core.tlb1 := rfl
@[simp] theorem fly_core_tlbMx (lat slot : Nat) (ls : List Landing) (s : State) : (s.fly lat slot ls).core.tlbMx = s.core.tlbMx := rfl
@[simp] theorem fly_core_fetchAt (lat slot : Nat) (ls : List Landing) (s : State) : (s.fly lat slot ls).core.fetchAt = s.core.fetchAt := rfl
@[simp] theorem fly_core_mxAt (lat slot : Nat) (ls : List Landing) (s : State) : (s.fly lat slot ls).core.mxAt = s.core.mxAt := rfl
@[simp] theorem fly_core_icache (lat slot : Nat) (ls : List Landing) (s : State) : (s.fly lat slot ls).core.icache = s.core.icache := rfl

/-! A staged pier entry takes the next number of the core and waits in the bundle. -/

@[simp] theorem stage_core_a (e : PierEntry) (s : State) : (s.stage e).core.a = s.core.a := rfl
@[simp] theorem stage_core_id (e : PierEntry) (s : State) : (s.stage e).core.id = s.core.id := rfl
@[simp] theorem stage_core_busy (e : PierEntry) (s : State) : (s.stage e).core.busy = s.core.busy := rfl
@[simp] theorem stage_core_fl (e : PierEntry) (s : State) : (s.stage e).core.fl = s.core.fl := rfl
@[simp] theorem stage_core_stall (e : PierEntry) (s : State) : (s.stage e).core.stall = s.core.stall := rfl
@[simp] theorem stage_core_entry (e : PierEntry) (s : State) : (s.stage e).core.entry = s.core.entry := rfl
@[simp] theorem stage_core_arbit (e : PierEntry) (s : State) : (s.stage e).core.arbit = s.core.arbit := rfl
@[simp] theorem stage_core_sealErr (e : PierEntry) (s : State) : (s.stage e).core.sealErr = s.core.sealErr := rfl
@[simp] theorem stage_core_seq (e : PierEntry) (s : State) : (s.stage e).core.seq = s.core.seq := rfl
@[simp] theorem stage_core_spad (e : PierEntry) (s : State) : (s.stage e).core.spad = s.core.spad := rfl
@[simp] theorem stage_core_spadTags (e : PierEntry) (s : State) : (s.stage e).core.spadTags = s.core.spadTags := rfl
@[simp] theorem stage_core_pier (e : PierEntry) (s : State) : (s.stage e).core.pier = s.core.pier := rfl
@[simp] theorem stage_core_outq (e : PierEntry) (s : State) : (s.stage e).core.outq = s.core.outq := rfl
@[simp] theorem stage_core_ca (e : PierEntry) (s : State) : (s.stage e).core.ca = s.core.ca := rfl
@[simp] theorem stage_core_cb (e : PierEntry) (s : State) : (s.stage e).core.cb = s.core.cb := rfl
@[simp] theorem stage_core_rels (e : PierEntry) (s : State) : (s.stage e).core.rels = s.core.rels := rfl
@[simp] theorem stage_core_subs (e : PierEntry) (s : State) : (s.stage e).core.subs = s.core.subs := rfl
@[simp] theorem stage_core_aseq (e : PierEntry) (s : State) : (s.stage e).core.aseq = s.core.aseq := rfl
@[simp] theorem stage_core_dedup (e : PierEntry) (s : State) : (s.stage e).core.dedup = s.core.dedup := rfl
@[simp] theorem stage_core_ustore (e : PierEntry) (s : State) : (s.stage e).core.ustore = s.core.ustore := rfl
@[simp] theorem stage_core_entries (e : PierEntry) (s : State) : (s.stage e).core.entries = s.core.entries := rfl
@[simp] theorem stage_core_err (e : PierEntry) (s : State) : (s.stage e).core.err = s.core.err := rfl
@[simp] theorem stage_core_sp (e : PierEntry) (s : State) : (s.stage e).core.sp = s.core.sp := rfl
@[simp] theorem stage_core_usesQ (e : PierEntry) (s : State) : (s.stage e).core.usesQ = s.core.usesQ := rfl
@[simp] theorem stage_core_faulty (e : PierEntry) (s : State) : (s.stage e).core.faulty = s.core.faulty := rfl
@[simp] theorem stage_core_outOfService (e : PierEntry) (s : State) : (s.stage e).core.outOfService = s.core.outOfService := rfl
@[simp] theorem stage_core_queue (e : PierEntry) (s : State) : (s.stage e).core.queue = s.core.queue := rfl
@[simp] theorem stage_core_qseq (e : PierEntry) (s : State) : (s.stage e).core.qseq = s.core.qseq := rfl
@[simp] theorem stage_core_watch (e : PierEntry) (s : State) : (s.stage e).core.watch = s.core.watch := rfl
@[simp] theorem stage_core_inl (e : PierEntry) (s : State) : (s.stage e).core.inl = s.core.inl := rfl
@[simp] theorem stage_core_rowDone (e : PierEntry) (s : State) : (s.stage e).core.rowDone = s.core.rowDone := rfl
@[simp] theorem stage_core_newRow (e : PierEntry) (s : State) : (s.stage e).core.newRow = s.core.newRow := rfl
@[simp] theorem stage_core_arbitAt (e : PierEntry) (s : State) : (s.stage e).core.arbitAt = s.core.arbitAt := rfl
@[simp] theorem stage_core_arbitFor (e : PierEntry) (s : State) : (s.stage e).core.arbitFor = s.core.arbitFor := rfl
@[simp] theorem stage_core_newArbit (e : PierEntry) (s : State) : (s.stage e).core.newArbit = s.core.newArbit := rfl
@[simp] theorem stage_core_tlb1 (e : PierEntry) (s : State) : (s.stage e).core.tlb1 = s.core.tlb1 := rfl
@[simp] theorem stage_core_tlbMx (e : PierEntry) (s : State) : (s.stage e).core.tlbMx = s.core.tlbMx := rfl
@[simp] theorem stage_core_fetchAt (e : PierEntry) (s : State) : (s.stage e).core.fetchAt = s.core.fetchAt := rfl
@[simp] theorem stage_core_mxAt (e : PierEntry) (s : State) : (s.stage e).core.mxAt = s.core.mxAt := rfl
@[simp] theorem stage_core_icache (e : PierEntry) (s : State) : (s.stage e).core.icache = s.core.icache := rfl

end Sys2Proof.Machine
end

