-- ==== Sys2Proof/Laws/Memory.lean ====
section
/-!
SUPPORT. Memory in canonical form: what a write gives and leaves, and that every memory operation keeps the form.
-/
set_option linter.unusedVariables false

namespace Sys2Proof.Machine

variable {α : Type} [DecidableEq α]

/-- A form that starts at an address starts at every lower one. -/
theorem cellWfFrom_mono (d : α) (m : List (Nat × α)) {lo lo' : Nat} (h : lo ≤ lo') (w : cellWfFrom d lo' m = true) :
    cellWfFrom d lo m = true := by
  cases m with
  | nil => rfl
  | cons c rest =>
    simp only [cellWfFrom, Bool.and_eq_true, decide_eq_true_eq] at w ⊢
    exact ⟨⟨by omega, w.1.2⟩, w.2⟩

/-- A write keeps the canonical form. -/
theorem cellSet_wfFrom (d : α) (m : List (Nat × α)) (lo a : Nat) (x : α) (h : lo ≤ a) (w : cellWfFrom d lo m = true) :
    cellWfFrom d lo (cellSet d m a x) = true := by
  induction m generalizing lo with
  | nil =>
    by_cases hx : x = d <;> simp [cellSet, cellWfFrom, hx, h]
  | cons c rest ih =>
    obtain ⟨k, y⟩ := c
    simp only [cellWfFrom, Bool.and_eq_true, decide_eq_true_eq] at w
    simp only [cellSet]
    split
    · split
      · simp [cellWfFrom, w.1.1, w.1.2, w.2]
      · have : cellWfFrom d (k + 1) rest = true := w.2
        simp_all [cellWfFrom] <;> omega
    · split
      · split
        · exact cellWfFrom_mono d rest (by omega) w.2
        · subst_vars
          simp_all [cellWfFrom]
      · simp only [cellWfFrom, Bool.and_eq_true, decide_eq_true_eq]
        exact ⟨w.1, ih (k + 1) (by omega) w.2⟩

/-- A write keeps the canonical form of a memory. -/
theorem cellSet_wf (d : α) (m : List (Nat × α)) (a : Nat) (x : α) (w : cellWf d m = true) :
    cellWf d (cellSet d m a x) = true :=
  cellSet_wfFrom d m 0 a x (Nat.zero_le a) w

/-- Several writes keep it. -/
theorem cellSets_wf (d : α) (cs m : List (Nat × α)) (w : cellWf d m = true) : cellWf d (cellSets d m cs) = true := by
  induction cs generalizing m with
  | nil => exact w
  | cons c rest ih => exact ih _ (cellSet_wf d m c.1 c.2 w)

/-- A memory from which addresses are taken out keeps it. -/
theorem filter_wfFrom (d : α) (p : Nat × α → Bool) (m : List (Nat × α)) (lo : Nat) (w : cellWfFrom d lo m = true) :
    cellWfFrom d lo (m.filter p) = true := by
  induction m generalizing lo with
  | nil => rfl
  | cons c rest ih =>
    obtain ⟨k, y⟩ := c
    simp only [cellWfFrom, Bool.and_eq_true, decide_eq_true_eq] at w
    rw [List.filter_cons]
    split
    · simp only [cellWfFrom, Bool.and_eq_true, decide_eq_true_eq]
      exact ⟨w.1, ih _ w.2⟩
    · exact ih lo (cellWfFrom_mono d rest (by omega) w.2)

theorem filter_wf (d : α) (p : Nat × α → Bool) (m : List (Nat × α)) (w : cellWf d m = true) : cellWf d (m.filter p) = true :=
  filter_wfFrom d p m 0 w

/-- Below its first address a memory reads as the default. -/
theorem cellGet_below (d : α) (m : List (Nat × α)) (lo a : Nat) (w : cellWfFrom d lo m = true) (h : a < lo) :
    cellGet d m a = d := by
  induction m generalizing lo with
  | nil => rfl
  | cons c rest ih =>
    obtain ⟨k, y⟩ := c
    simp only [cellWfFrom, Bool.and_eq_true, decide_eq_true_eq] at w
    rw [cellGet, if_neg (by omega)]
    exact ih (k + 1) w.2 (by omega)

/-- What an address reads as after a write to it. -/
theorem cellGet_cellSet_same (d : α) (m : List (Nat × α)) (lo a : Nat) (x : α) (w : cellWfFrom d lo m = true) :
    cellGet d (cellSet d m a x) a = x := by
  induction m generalizing lo with
  | nil => by_cases hx : x = d <;> simp [cellSet, cellGet, hx]
  | cons c rest ih =>
    obtain ⟨k, y⟩ := c
    simp only [cellWfFrom, Bool.and_eq_true, decide_eq_true_eq] at w
    simp only [cellSet]
    split
    · split
      · rw [cellGet, if_neg (by omega), cellGet_below d rest (k + 1) a w.2 (by omega)]
        simp_all
      · simp [cellGet]
    · split
      · split
        · rw [cellGet_below d rest (k + 1) a w.2 (by omega)]
          simp_all
        · simp [cellGet]
      · rw [cellGet, if_neg (by omega)]
        exact ih (k + 1) w.2

/-- Every other address reads as before. -/
theorem cellGet_cellSet_other (d : α) (m : List (Nat × α)) (a b : Nat) (x : α) (h : b ≠ a) :
    cellGet d (cellSet d m a x) b = cellGet d m b := by
  induction m with
  | nil =>
    simp only [cellSet]
    split
    · rfl
    · simp [cellGet, Ne.symm h]
  | cons c rest ih =>
    obtain ⟨k, y⟩ := c
    simp only [cellSet]
    split
    · split
      · rfl
      · rw [cellGet, if_neg (Ne.symm h)]
    · split
      · split
        · rw [cellGet, if_neg (by omega)]
        · subst_vars
          simp only [cellGet, if_neg (Ne.symm h)]
      · simp only [cellGet, ih]

/-- What an address reads as after several writes, none of them to it. -/
theorem cellGet_cellSets_other (d : α) (cs m : List (Nat × α)) (b : Nat) (h : ∀ c ∈ cs, c.1 ≠ b) :
    cellGet d (cellSets d m cs) b = cellGet d m b := by
  induction cs generalizing m with
  | nil => rfl
  | cons c rest ih =>
    have e : cellSets d m (c :: rest) = cellSets d (cellSet d m c.1 c.2) rest := rfl
    rw [e, ih _ (fun x hx => h x (List.mem_cons_of_mem c hx)),
      cellGet_cellSet_other d m c.1 b c.2 (Ne.symm (h c (List.mem_cons_self ..)))]

/-- A write of physical bytes and tags keeps the form of device and host memory. -/
theorem writePhys_wf (bs : List (Nat × Byte)) (ts : List (Nat × Word)) (s : State)
    (w : Memory.wf s.mem = true) (v : Memory.tagsWf s.memTags = true) :
    Memory.wf (s.writePhys bs ts).mem = true ∧ Memory.tagsWf (s.writePhys bs ts).memTags = true :=
  ⟨cellSets_wf 0 bs s.mem w, cellSets_wf 0 _ s.memTags v⟩

/-- A write of the scratchpad's banks keeps their form. -/
theorem writeSpad_wf (bs : List (Nat × Byte)) (ts : List (Nat × Word)) (c : Core)
    (w : Memory.wf c.spad = true) (v : Memory.tagsWf c.spadTags = true) :
    Memory.wf (c.writeSpad bs ts).spad = true ∧ Memory.tagsWf (c.writeSpad bs ts).spadTags = true :=
  ⟨cellSets_wf 0 bs c.spad w, cellSets_wf 0 ts c.spadTags v⟩

/-- A write of a stage-barrier word keeps the form of the scratchpad. -/
theorem setBarrier_wf (sb : Nat) (x : Word) (c : Core) (w : Memory.wf c.spad = true) :
    Memory.wf (c.setBarrier sb x).spad = true :=
  cellSets_wf 0 _ c.spad w

end Sys2Proof.Machine
end

