-- ==== Sys2Proof/Laws/Ops.lean ====
section
/-!
SUPPORT. The shared operations: each says once what it can do, so that a proof cites it and does not unfold it.
-/
set_option linter.unusedVariables false

namespace Sys2Proof.Machine

/-! ### What an operation of a slot keeps (spec/02 R40, R43) -/

theorem keeps_refl (s : State) : s.keeps s := by
  refine ⟨?_, ?_, ?_, ?_, ?_, ?_, ?_, ?_, ?_, ?_, ?_, ?_, ?_, ?_, ?_, ?_, ?_, ?_, ?_, ?_, ?_, ?_, ?_, ?_⟩ <;> rfl

theorem keeps_trans {s t u : State} (h : s.keeps t) (k : t.keeps u) : s.keeps u := by
  obtain ⟨h1, h2, h3, h4, h5, h6, h7, h8, h9, h10, h11, h12, h13, h14, h15, h16, h17, h18, h19, h20, h21, h22, h23, h24⟩ := h
  obtain ⟨k1, k2, k3, k4, k5, k6, k7, k8, k9, k10, k11, k12, k13, k14, k15, k16, k17, k18, k19, k20, k21, k22, k23, k24⟩ := k
  exact ⟨k1.trans h1, k2.trans h2, k3.trans h3, k4.trans h4, k5.trans h5, k6.trans h6, k7.trans h7, k8.trans h8, k9.trans h9,
    k10.trans h10, k11.trans h11, k12.trans h12, k13.trans h13, k14.trans h14, k15.trans h15, k16.trans h16, k17.trans h17,
    k18.trans h18, k19.trans h19, k20.trans h20, k21.trans h21, k22.trans h22, k23.trans h23, k24.trans h24⟩

/-- A result sent on its way changes no register yet. -/
theorem keeps_fly (lat slot : Nat) (ls : List Landing) (s : State) : s.keeps (s.fly lat slot ls) := by
  refine ⟨?_, ?_, ?_, ?_, ?_, ?_, ?_, ?_, ?_, ?_, ?_, ?_, ?_, ?_, ?_, ?_, ?_, ?_, ?_, ?_, ?_, ?_, ?_, ?_⟩ <;> rfl

theorem keeps_shadow (lat slot : Nat) (elems : List Nat) (s : State) : s.keeps (s.shadow lat slot elems) := by
  refine ⟨?_, ?_, ?_, ?_, ?_, ?_, ?_, ?_, ?_, ?_, ?_, ?_, ?_, ?_, ?_, ?_, ?_, ?_, ?_, ?_, ?_, ?_, ?_, ?_⟩ <;> rfl

theorem keeps_stage (e : PierEntry) (s : State) : s.keeps (s.stage e) := by
  refine ⟨?_, ?_, ?_, ?_, ?_, ?_, ?_, ?_, ?_, ?_, ?_, ?_, ?_, ?_, ?_, ?_, ?_, ?_, ?_, ?_, ?_, ?_, ?_, ?_⟩ <;> rfl

theorem keeps_newId (s : State) : s.keeps s.newId.2 := by
  refine ⟨?_, ?_, ?_, ?_, ?_, ?_, ?_, ?_, ?_, ?_, ?_, ?_, ?_, ?_, ?_, ?_, ?_, ?_, ?_, ?_, ?_, ?_, ?_, ?_⟩ <;> rfl

theorem keeps_defer (c : Cause) (x : Word) (s : State) : s.keeps (s.defer c x) := by
  refine ⟨?_, ?_, ?_, ?_, ?_, ?_, ?_, ?_, ?_, ?_, ?_, ?_, ?_, ?_, ?_, ?_, ?_, ?_, ?_, ?_, ?_, ?_, ?_, ?_⟩ <;> rfl

theorem keeps_queueLoad (va : Word) (d : LoadDst) (acq : Option Scope) (s : State) : s.keeps (s.queueLoad va d acq) := by
  refine ⟨?_, ?_, ?_, ?_, ?_, ?_, ?_, ?_, ?_, ?_, ?_, ?_, ?_, ?_, ?_, ?_, ?_, ?_, ?_, ?_, ?_, ?_, ?_, ?_⟩ <;> rfl

/-- A register marked empty is empty for the bundles to come, not for this one. -/
theorem keeps_markEmpty (r : Reg) (s : State) : s.keeps (s.markEmpty r) := by
  unfold State.markEmpty
  split
  · exact keeps_refl s
  · refine ⟨?_, ?_, ?_, ?_, ?_, ?_, ?_, ?_, ?_, ?_, ?_, ?_, ?_, ?_, ?_, ?_, ?_, ?_, ?_, ?_, ?_, ?_, ?_, ?_⟩ <;> rfl

theorem keeps_markEmptyV (r : Reg) (s : State) : s.keeps (s.markEmptyV r) := by
  refine ⟨?_, ?_, ?_, ?_, ?_, ?_, ?_, ?_, ?_, ?_, ?_, ?_, ?_, ?_, ?_, ?_, ?_, ?_, ?_, ?_, ?_, ?_, ?_, ?_⟩ <;> rfl

/-! ### Results in flight (spec/04 R77) -/

/-- What stays in flight when later writes cancel older ones: a landing that no later write is on. -/
theorem inFlight_cancel (ls : List Landing) (fs : List Flight) (left : Nat) (l : Landing) :
    inFlight (cancel ls fs) left l ↔ inFlight fs left l ∧ ls.any l.same = false := by
  unfold inFlight cancel
  constructor
  · rintro ⟨f, hf, rfl, hl⟩
    simp only [List.mem_filter, List.mem_map] at hf
    obtain ⟨⟨g, hg, rfl⟩, -⟩ := hf
    simp only [List.mem_filter, Bool.not_eq_true'] at hl
    exact ⟨⟨g, hg, rfl, hl.1⟩, hl.2⟩
  · rintro ⟨⟨g, hg, rfl, hl⟩, hc⟩
    have hm : l ∈ g.lands.filter (fun l => !ls.any l.same) := by
      simp only [List.mem_filter, Bool.not_eq_true']
      exact ⟨hl, hc⟩
    refine ⟨{ g with lands := g.lands.filter (fun l => !ls.any l.same) }, ?_, rfl, hm⟩
    simp only [List.mem_filter, List.mem_map, Bool.not_eq_true', List.isEmpty_eq_false_iff]
    exact ⟨⟨g, hg, rfl⟩, List.ne_nil_of_mem hm⟩

/-- What is in flight once a result is sent: the result, and what it does not cancel. -/
theorem inFlight_fly (lat slot : Nat) (ls : List Landing) (s : State) (left : Nat) (l : Landing) :
    inFlight (s.fly lat slot ls).core.a.flights left l ↔
      (inFlight s.core.a.flights left l ∧ ls.any l.same = false) ∨ (lat = left ∧ l ∈ ls) := by
  have e : (s.fly lat slot ls).core.a.flights = (s.core.a.cancelled ls).flights ++ [⟨lat, slot, s.core.seq, s.core.a.pc, ls⟩] := rfl
  rw [e, ← inFlight_cancel]
  unfold inFlight
  constructor
  · rintro ⟨f, hf, h, hl⟩
    rw [List.mem_append, List.mem_singleton] at hf
    rcases hf with hf | rfl
    · exact .inl ⟨f, hf, h, hl⟩
    · exact .inr ⟨h, hl⟩
  · rintro (⟨f, hf, h, hl⟩ | ⟨h, hl⟩)
    · exact ⟨f, List.mem_append_left _ hf, h, hl⟩
    · exact ⟨_, List.mem_append_right _ (List.mem_singleton.mpr rfl), h, hl⟩

/-- Marking an s-register empty takes its results out of flight; the register that discards writes is left alone. -/
theorem inFlight_markEmpty (r : Reg) (s : State) (left : Nat) (l : Landing) :
    inFlight (s.markEmpty r).core.a.flights left l ↔
      inFlight s.core.a.flights left l ∧ (r = 0 ∨ Landing.same l (.s r 0) = false) := by
  unfold State.markEmpty
  split
  · simp [*]
  · have e : (s.modCore (fun c => { c with a := c.a.cancelled [.s r 0], iss := { c.iss with emptyS := setBit c.iss.emptyS r.val true } })).core.a.flights
        = cancel [.s r 0] s.core.a.flights := rfl
    rw [e, inFlight_cancel]
    simp [*]

/-- A check registered: after those there, with the bundle's number and address. -/
theorem shadow_checks (lat slot : Nat) (elems : List Nat) (s : State) :
    (s.shadow lat slot elems).core.a.checks = s.core.a.checks ++ [⟨lat, slot, s.core.seq, s.core.a.pc, false, none, elems⟩] := rfl

/-! ### Accesses (spec/05 R108, R120) -/

/-- A load in the queue: one request for each part of its bytes, all with the number it takes. -/
theorem queueLoad_memq (va : Word) (d : LoadDst) (acq : Option Scope) (s : State) :
    (s.queueLoad va d acq).core.a.memq =
      s.core.a.memq ++ (s.parts va.toNat d.bytes).map (loadReq s.core.nextId s.core.a.ctx va d acq) := rfl

/-- The number a load takes is used once. -/
theorem queueLoad_nextId (va : Word) (d : LoadDst) (acq : Option Scope) (s : State) :
    (s.queueLoad va d acq).core.nextId = s.core.nextId + 1 := rfl

/-! ### Registers (spec/04 R76) -/

theorem rd_zero (a : Arch) : a.rd 0 = 0 := rfl

theorem rd_fillS_same (a : Arch) (r : Reg) (x : Word) (h : r ≠ 0) : (a.fillS r x).rd r = x := by
  simp [Arch.rd, Arch.fillS, h]

theorem rd_fillS_other (a : Arch) (r q : Reg) (x : Word) (h : q ≠ r) : (a.fillS r x).rd q = a.rd q := by
  unfold Arch.fillS
  split
  · rfl
  · have : r.val ≠ q.val := fun e => h (Fin.ext e.symm)
    simp [Arch.rd, Vector.getElem_set_ne _ _ this]

/-! ### Traps (spec/02 R40, spec/15 R309 to R311) -/

/-- A user trap of a task's own code, outside a handler and with a trap vector, enters the handler; the rest of the machine is as it
was. -/
theorem trap_user (k : Nat) (c : Cause) (x : Word) (d : Bool) (pc : Word) (s : State) (h : c.cls = 0) (u : s.core.a.ut = false)
    (v : s.core.a.utvec ≠ 0) (m : s.core.a.merging = none) : ∃ core, s.trap k c x d pc = { s with core := core } := by
  have w : s.core.a.utvec ≠ 0#64 := v
  unfold State.trap
  simp only [h, u, State.modCore, Core.closeIssue, Arch.trapRegs]
  simp [h, w, m]

end Sys2Proof.Machine
end

