-- ==== Sys2Proof/Laws/Frames.lean ====
section
/-!
SUPPORT. Frames of the operations that the families share: what the issue of a vector instruction, the delivery of its result and the
issue of a copy command keep.
-/
set_option linter.unusedVariables false

namespace Sys2Proof.Machine

/-- A state reached by an instruction of a slot: it keeps what `keeps` names, or a fault is raised in such a state. -/
def keepsOrTraps (s t : State) : Prop := s.keeps t ∨ ∃ u k c x, t = State.fault k c x u ∧ s.keeps u

theorem keepsOrTraps_fault (k : Nat) (c : Cause) (x : Word) (s : State) : keepsOrTraps s (s.fault k c x) :=
  .inr ⟨s, k, c, x, rfl, keeps_refl s⟩

theorem keepsOrTraps_illegal (k : Nat) (s : State) : keepsOrTraps s (s.illegal k) := keepsOrTraps_fault ..

theorem keepsOrTraps_trans {s t u : State} (h : s.keeps t) (k : keepsOrTraps t u) : keepsOrTraps s u := by
  rcases k with k | ⟨v, a, b, c, e, k⟩
  · exact .inl (keeps_trans h k)
  · exact .inr ⟨v, a, b, c, e, keeps_trans h k⟩

/-- A pop of one source keeps them. -/
theorem keeps_popV (x : VSrc) (s : State) : s.keeps { s with core := s.core.popV x } := by
  unfold Core.popV
  repeat' split
  all_goals
    refine ⟨?_, ?_, ?_, ?_, ?_, ?_, ?_, ?_, ?_, ?_, ?_, ?_, ?_, ?_, ?_, ?_, ?_, ?_, ?_, ?_, ?_, ?_, ?_, ?_⟩ <;> rfl

theorem keeps_pops (xs : List VSrc) (s : State) : s.keeps { s with core := xs.foldl Core.popV s.core } := by
  induction xs generalizing s with
  | nil => exact keeps_refl s
  | cons x rest ih => exact keeps_trans (keeps_popV x s) (ih { s with core := s.core.popV x })

theorem keeps_taintFl (xs : List VSrc) (s : State) : s.keeps { s with core := s.core.taintFl xs } := by
  unfold Core.taintFl
  repeat' split
  all_goals
    refine ⟨?_, ?_, ?_, ?_, ?_, ?_, ?_, ?_, ?_, ?_, ?_, ?_, ?_, ?_, ?_, ?_, ?_, ?_, ?_, ?_, ?_, ?_, ?_, ?_⟩ <;> rfl

/-- The sources of a vector instruction taken. -/
theorem keeps_taken (xs : List VSrc) (s : State) : s.keeps (s.taken xs) :=
  keeps_trans (keeps_taintFl xs s) (keeps_pops xs { s with core := s.core.taintFl xs })

/-- The delivery of a vector result. -/
theorem keeps_deliver (lat slot : Nat) (d : VDst) (elems : List Nat) (x : Vec) (s : State) :
    s.keeps (s.deliver lat slot d elems x) := by
  have h : s.keeps (if elems.isEmpty then s else s.shadow lat slot elems) := by
    split
    · exact keeps_refl s
    · exact keeps_shadow lat slot elems s
  refine keeps_trans h ?_
  cases d with
  | queue => exact keeps_fly ..
  | v r => exact keeps_fly ..
  | g p =>
    refine keeps_trans (t := (if elems.isEmpty then s else s.shadow lat slot elems).modA
      (fun a => { a with ports := a.ports.set p a.ports[p].step })) ?_ (keeps_fly ..)
    refine ⟨?_, ?_, ?_, ?_, ?_, ?_, ?_, ?_, ?_, ?_, ?_, ?_, ?_, ?_, ?_, ?_, ?_, ?_, ?_, ?_, ?_, ?_, ?_, ?_⟩ <;> rfl

/-- The issue of a vector instruction whose effect keeps them. -/
theorem keepsOrTraps_vecIssue (slot : Nat) (xs : List VSrc) (d : VDst) (e : List Vec → Option (Cause × Word))
    (f : List Vec → State → State) (s : State) (h : ∀ vs t, keepsOrTraps t (f vs t)) :
    keepsOrTraps s (s.vecIssue slot xs d e f) := by
  unfold State.vecIssue
  split
  · exact keepsOrTraps_fault ..
  · dsimp only
    split
    · exact keepsOrTraps_fault ..
    · exact keepsOrTraps_trans (keeps_taken xs s) (h _ _)

theorem keeps_addCopy (q : CopyQ) (k : CopyCmd) (s : State) : s.keeps { s with core := s.core.addCopy q k } := by
  cases q <;>
    (refine ⟨?_, ?_, ?_, ?_, ?_, ?_, ?_, ?_, ?_, ?_, ?_, ?_, ?_, ?_, ?_, ?_, ?_, ?_, ?_, ?_, ?_, ?_, ?_, ?_⟩ <;> rfl)

theorem keeps_stages (e : PierEntry) (ns : List Nat) (s : State) : s.keeps (ns.foldl (fun s _ => s.stage e) s) := by
  induction ns generalizing s with
  | nil => exact keeps_refl s
  | cons n rest ih => exact keeps_trans (keeps_stage e s) (ih _)

/-- The issue of a copy command. -/
theorem keeps_pushCopy (q : CopyQ) (t : Reg) (k : CopyKind) (dup : Bool) (rel : Option Scope) (n : Nat) (s : State) :
    s.keeps (s.pushCopy q t k dup rel n) := by
  refine keeps_trans (keeps_markEmpty t s) ?_
  refine keeps_trans (keeps_newId (s.markEmpty t)) ?_
  exact keeps_trans (keeps_addCopy q _ (s.markEmpty t).newId.2) (keeps_stages _ _ _)

/-- The issue of a copy command, with its checks. -/
theorem keepsOrTraps_issueCopy (q : CopyQ) (t : Reg) (fs : List IssueFault) (k : CopyKind) (dup : Bool) (rel : Option Scope)
    (s : State) : keepsOrTraps s (s.issueCopy q t fs k dup rel) := by
  unfold State.issueCopy
  split
  · exact keepsOrTraps_fault ..
  · exact .inl (keeps_pushCopy ..)

/-- Work put in the engine, or a change of a tile. -/
theorem keeps_onTile (t : TileNo) (f : TileState → TileState) (s : State) : s.keeps (s.onTile t f) := by
  refine ⟨?_, ?_, ?_, ?_, ?_, ?_, ?_, ?_, ?_, ?_, ?_, ?_, ?_, ?_, ?_, ?_, ?_, ?_, ?_, ?_, ?_, ?_, ?_, ?_⟩ <;> rfl

/-- A block that holds slot 7. -/
theorem keeps_hold (b : Block) (s : State) : s.keeps (s.hold b) := by
  refine ⟨?_, ?_, ?_, ?_, ?_, ?_, ?_, ?_, ?_, ?_, ?_, ?_, ?_, ?_, ?_, ?_, ?_, ?_, ?_, ?_, ?_, ?_, ?_, ?_⟩ <;> rfl

/-- A change of a cluster, as a request for power makes it. -/
theorem keeps_onCluster (n : Nat) (f : Cluster → Cluster) (s : State) : s.keeps (s.onCluster n f) := by
  unfold State.onCluster
  split
  · refine ⟨?_, ?_, ?_, ?_, ?_, ?_, ?_, ?_, ?_, ?_, ?_, ?_, ?_, ?_, ?_, ?_, ?_, ?_, ?_, ?_, ?_, ?_, ?_, ?_⟩ <;> rfl
  · exact keeps_refl s

end Sys2Proof.Machine
end

