-- ==== Sys2Proof/Laws/PerInstr.lean ====
section
/-!
SUPPORT. Every instruction's word fits: 32 bits in a slot, 64 bits in the microprogram store, and an event has none.
-/
set_option linter.unusedVariables false

namespace Sys2Proof.Laws.WordFits
open Sys2Proof

/-- The word of an instruction fits its place (spec/02 R34, spec/09 R190). -/
def Statement (i : Instr) : Prop :=
  match i.place with
  | .slot _ => encode i < 2 ^ 32
  | .micro => encode i < 2 ^ 64
  | .none => encode i = 0

theorem scope_code_lt (x : Scope) : x.code < 4 := by
  cases x <;> decide

theorem accop_code_lt (x : AccOp) : x.code < 16 := by
  cases x <;> decide

theorem addsrc_code_lt (x : AddSrc) : x.code < 8 := by
  cases x <;> decide

theorem atomsize_code_lt (x : AtomSize) : x.code < 4 := by
  cases x <;> decide

theorem collkind_code_lt (x : CollKind) : x.code < 4 := by
  cases x <;> decide

theorem collop_code_lt (x : CollOp) : x.code < 8 := by
  cases x <;> decide

theorem cond_code_lt (x : Cond) : x.code < 8 := by
  cases x <;> decide

theorem drainmode_code_lt (x : DrainMode) : x.code < 4 := by
  cases x <;> decide

theorem mwaitcond_code_lt (x : MWaitCond) : x.code < 4 := by
  cases x <;> decide

theorem microcond_code_lt (x : MicroCond) : x.code < 8 := by
  cases x <;> decide

theorem microfield_code_lt (x : MicroField) : x.code < 8 := by
  cases x <;> simp only [MicroField.code] <;> omega

theorem order_ordCode_lt (x : Order) : x.ordCode < 2 := by
  cases x <;> simp only [Order.ordCode] <;> omega

theorem order_scpCode_lt (x : Order) : x.scpCode < 4 := by
  cases x with
  | plain => decide
  | sync s => exact scope_code_lt s

theorem port_code_lt (x : Port) : x.code < 16 := by
  have h := x.isLt
  unfold Port.code
  omega

theorem portword_code_lt (x : PortWord) : x.code < 8 := by
  cases x <;> simp only [PortWord.code] <;> omega

theorem ringdir_code_lt (x : RingDir) : x.code < 2 := by
  cases x <;> decide

theorem round_code_lt (x : Round) : x.code < 8 := by
  cases x <;> decide

theorem scalemode_code_lt (x : ScaleMode) : x.code < 4 := by
  cases x <;> decide

theorem segrest_code_lt (x : SegRest) : x.code < 2 := by
  cases x <;> decide

theorem setsrc_code_lt (x : SetSrc) : x.code < 8 := by
  cases x <;> decide

theorem size_code_lt (x : Size) : x.code < 4 := by
  cases x <;> decide

theorem sysreg_code_lt (x : SysReg) : x.code < 128 := by
  cases x <;> decide

theorem titem_code_lt (x : TItem) : x.code < 8 := by
  cases x <;> decide

theorem vcond_code_lt (x : VCond) : x.code < 8 := by
  cases x <;> decide

theorem vdst_code_lt (x : VDst) : x.code < 64 := by
  cases x <;> simp only [VDst.code] <;> omega

theorem vsrc_code_lt (x : VSrc) : x.code < 64 := by
  cases x <;> simp only [VSrc.code] <;> omega

theorem vsrc_ebit_lt (x : VSrc) : x.ebit < 2 := by
  unfold VSrc.ebit
  split <;> omega

theorem vtype_code_lt (x : VType) : x.code < 8 := by
  cases x <;> decide

theorem nopCtl : Statement (.nopCtl) := by
  show 0x0 < 2 ^ 32
  decide

theorem add (d : Reg) (a : Reg) (b : Reg) (w : Bool) : Statement (.add d a b w) := by
  have h0 := d.isLt
  have h1 := a.isLt
  have h2 := b.isLt
  have h3 := Bool.toNat_lt w
  show pack 0x4000000 [(d.val, 21), (a.val, 16), (b.val, 11), (w.toNat, 10)] < 2 ^ 32
  simp only [pack]
  omega

theorem sub (d : Reg) (a : Reg) (b : Reg) (w : Bool) : Statement (.sub d a b w) := by
  have h0 := d.isLt
  have h1 := a.isLt
  have h2 := b.isLt
  have h3 := Bool.toNat_lt w
  show pack 0x4000001 [(d.val, 21), (a.val, 16), (b.val, 11), (w.toNat, 10)] < 2 ^ 32
  simp only [pack]
  omega

theorem and (d : Reg) (a : Reg) (b : Reg) (w : Bool) : Statement (.and d a b w) := by
  have h0 := d.isLt
  have h1 := a.isLt
  have h2 := b.isLt
  have h3 := Bool.toNat_lt w
  show pack 0x4000002 [(d.val, 21), (a.val, 16), (b.val, 11), (w.toNat, 10)] < 2 ^ 32
  simp only [pack]
  omega

theorem or (d : Reg) (a : Reg) (b : Reg) (w : Bool) : Statement (.or d a b w) := by
  have h0 := d.isLt
  have h1 := a.isLt
  have h2 := b.isLt
  have h3 := Bool.toNat_lt w
  show pack 0x4000003 [(d.val, 21), (a.val, 16), (b.val, 11), (w.toNat, 10)] < 2 ^ 32
  simp only [pack]
  omega

theorem xor (d : Reg) (a : Reg) (b : Reg) (w : Bool) : Statement (.xor d a b w) := by
  have h0 := d.isLt
  have h1 := a.isLt
  have h2 := b.isLt
  have h3 := Bool.toNat_lt w
  show pack 0x4000004 [(d.val, 21), (a.val, 16), (b.val, 11), (w.toNat, 10)] < 2 ^ 32
  simp only [pack]
  omega

theorem andn (d : Reg) (a : Reg) (b : Reg) (w : Bool) : Statement (.andn d a b w) := by
  have h0 := d.isLt
  have h1 := a.isLt
  have h2 := b.isLt
  have h3 := Bool.toNat_lt w
  show pack 0x4000005 [(d.val, 21), (a.val, 16), (b.val, 11), (w.toNat, 10)] < 2 ^ 32
  simp only [pack]
  omega

theorem sll (d : Reg) (a : Reg) (b : Reg) (w : Bool) : Statement (.sll d a b w) := by
  have h0 := d.isLt
  have h1 := a.isLt
  have h2 := b.isLt
  have h3 := Bool.toNat_lt w
  show pack 0x4000006 [(d.val, 21), (a.val, 16), (b.val, 11), (w.toNat, 10)] < 2 ^ 32
  simp only [pack]
  omega

theorem srl (d : Reg) (a : Reg) (b : Reg) (w : Bool) : Statement (.srl d a b w) := by
  have h0 := d.isLt
  have h1 := a.isLt
  have h2 := b.isLt
  have h3 := Bool.toNat_lt w
  show pack 0x4000007 [(d.val, 21), (a.val, 16), (b.val, 11), (w.toNat, 10)] < 2 ^ 32
  simp only [pack]
  omega

theorem sra (d : Reg) (a : Reg) (b : Reg) (w : Bool) : Statement (.sra d a b w) := by
  have h0 := d.isLt
  have h1 := a.isLt
  have h2 := b.isLt
  have h3 := Bool.toNat_lt w
  show pack 0x4000008 [(d.val, 21), (a.val, 16), (b.val, 11), (w.toNat, 10)] < 2 ^ 32
  simp only [pack]
  omega

theorem rol (d : Reg) (a : Reg) (b : Reg) (w : Bool) : Statement (.rol d a b w) := by
  have h0 := d.isLt
  have h1 := a.isLt
  have h2 := b.isLt
  have h3 := Bool.toNat_lt w
  show pack 0x4000009 [(d.val, 21), (a.val, 16), (b.val, 11), (w.toNat, 10)] < 2 ^ 32
  simp only [pack]
  omega

theorem min (d : Reg) (a : Reg) (b : Reg) (w : Bool) : Statement (.min d a b w) := by
  have h0 := d.isLt
  have h1 := a.isLt
  have h2 := b.isLt
  have h3 := Bool.toNat_lt w
  show pack 0x400000A [(d.val, 21), (a.val, 16), (b.val, 11), (w.toNat, 10)] < 2 ^ 32
  simp only [pack]
  omega

theorem max (d : Reg) (a : Reg) (b : Reg) (w : Bool) : Statement (.max d a b w) := by
  have h0 := d.isLt
  have h1 := a.isLt
  have h2 := b.isLt
  have h3 := Bool.toNat_lt w
  show pack 0x400000B [(d.val, 21), (a.val, 16), (b.val, 11), (w.toNat, 10)] < 2 ^ 32
  simp only [pack]
  omega

theorem minu (d : Reg) (a : Reg) (b : Reg) (w : Bool) : Statement (.minu d a b w) := by
  have h0 := d.isLt
  have h1 := a.isLt
  have h2 := b.isLt
  have h3 := Bool.toNat_lt w
  show pack 0x400000C [(d.val, 21), (a.val, 16), (b.val, 11), (w.toNat, 10)] < 2 ^ 32
  simp only [pack]
  omega

theorem maxu (d : Reg) (a : Reg) (b : Reg) (w : Bool) : Statement (.maxu d a b w) := by
  have h0 := d.isLt
  have h1 := a.isLt
  have h2 := b.isLt
  have h3 := Bool.toNat_lt w
  show pack 0x400000D [(d.val, 21), (a.val, 16), (b.val, 11), (w.toNat, 10)] < 2 ^ 32
  simp only [pack]
  omega

theorem mul (d : Reg) (a : Reg) (b : Reg) (w : Bool) : Statement (.mul d a b w) := by
  have h0 := d.isLt
  have h1 := a.isLt
  have h2 := b.isLt
  have h3 := Bool.toNat_lt w
  show pack 0x400000E [(d.val, 21), (a.val, 16), (b.val, 11), (w.toNat, 10)] < 2 ^ 32
  simp only [pack]
  omega

theorem mulh (d : Reg) (a : Reg) (b : Reg) (w : Bool) : Statement (.mulh d a b w) := by
  have h0 := d.isLt
  have h1 := a.isLt
  have h2 := b.isLt
  have h3 := Bool.toNat_lt w
  show pack 0x400000F [(d.val, 21), (a.val, 16), (b.val, 11), (w.toNat, 10)] < 2 ^ 32
  simp only [pack]
  omega

theorem mulhu (d : Reg) (a : Reg) (b : Reg) (w : Bool) : Statement (.mulhu d a b w) := by
  have h0 := d.isLt
  have h1 := a.isLt
  have h2 := b.isLt
  have h3 := Bool.toNat_lt w
  show pack 0x4000010 [(d.val, 21), (a.val, 16), (b.val, 11), (w.toNat, 10)] < 2 ^ 32
  simp only [pack]
  omega

theorem div (d : Reg) (a : Reg) (b : Reg) (w : Bool) : Statement (.div d a b w) := by
  have h0 := d.isLt
  have h1 := a.isLt
  have h2 := b.isLt
  have h3 := Bool.toNat_lt w
  show pack 0x4000011 [(d.val, 21), (a.val, 16), (b.val, 11), (w.toNat, 10)] < 2 ^ 32
  simp only [pack]
  omega

theorem divu (d : Reg) (a : Reg) (b : Reg) (w : Bool) : Statement (.divu d a b w) := by
  have h0 := d.isLt
  have h1 := a.isLt
  have h2 := b.isLt
  have h3 := Bool.toNat_lt w
  show pack 0x4000012 [(d.val, 21), (a.val, 16), (b.val, 11), (w.toNat, 10)] < 2 ^ 32
  simp only [pack]
  omega

theorem rem (d : Reg) (a : Reg) (b : Reg) (w : Bool) : Statement (.rem d a b w) := by
  have h0 := d.isLt
  have h1 := a.isLt
  have h2 := b.isLt
  have h3 := Bool.toNat_lt w
  show pack 0x4000013 [(d.val, 21), (a.val, 16), (b.val, 11), (w.toNat, 10)] < 2 ^ 32
  simp only [pack]
  omega

theorem remu (d : Reg) (a : Reg) (b : Reg) (w : Bool) : Statement (.remu d a b w) := by
  have h0 := d.isLt
  have h1 := a.isLt
  have h2 := b.isLt
  have h3 := Bool.toNat_lt w
  show pack 0x4000014 [(d.val, 21), (a.val, 16), (b.val, 11), (w.toNat, 10)] < 2 ^ 32
  simp only [pack]
  omega

theorem clz (d : Reg) (a : Reg) (w : Bool) : Statement (.clz d a w) := by
  have h0 := d.isLt
  have h1 := a.isLt
  have h2 := Bool.toNat_lt w
  show pack 0x4000015 [(d.val, 21), (a.val, 16), (w.toNat, 10)] < 2 ^ 32
  simp only [pack]
  omega

theorem ctz (d : Reg) (a : Reg) (w : Bool) : Statement (.ctz d a w) := by
  have h0 := d.isLt
  have h1 := a.isLt
  have h2 := Bool.toNat_lt w
  show pack 0x4000016 [(d.val, 21), (a.val, 16), (w.toNat, 10)] < 2 ^ 32
  simp only [pack]
  omega

theorem popc (d : Reg) (a : Reg) (w : Bool) : Statement (.popc d a w) := by
  have h0 := d.isLt
  have h1 := a.isLt
  have h2 := Bool.toNat_lt w
  show pack 0x4000017 [(d.val, 21), (a.val, 16), (w.toNat, 10)] < 2 ^ 32
  simp only [pack]
  omega

theorem addi (d : Reg) (a : Reg) (i : BitVec 16) : Statement (.addi d a i) := by
  have h0 := d.isLt
  have h1 := a.isLt
  have h2 := i.isLt
  show pack 0x8000000 [(d.val, 21), (a.val, 16), (i.toNat, 0)] < 2 ^ 32
  simp only [pack]
  omega

theorem andi (d : Reg) (a : Reg) (i : BitVec 16) : Statement (.andi d a i) := by
  have h0 := d.isLt
  have h1 := a.isLt
  have h2 := i.isLt
  show pack 0xC000000 [(d.val, 21), (a.val, 16), (i.toNat, 0)] < 2 ^ 32
  simp only [pack]
  omega

theorem ori (d : Reg) (a : Reg) (i : BitVec 16) : Statement (.ori d a i) := by
  have h0 := d.isLt
  have h1 := a.isLt
  have h2 := i.isLt
  show pack 0x10000000 [(d.val, 21), (a.val, 16), (i.toNat, 0)] < 2 ^ 32
  simp only [pack]
  omega

theorem xori (d : Reg) (a : Reg) (i : BitVec 16) : Statement (.xori d a i) := by
  have h0 := d.isLt
  have h1 := a.isLt
  have h2 := i.isLt
  show pack 0x14000000 [(d.val, 21), (a.val, 16), (i.toNat, 0)] < 2 ^ 32
  simp only [pack]
  omega

theorem slli (d : Reg) (a : Reg) (w : Bool) (n : BitVec 6) : Statement (.slli d a w n) := by
  have h0 := d.isLt
  have h1 := a.isLt
  have h2 := Bool.toNat_lt w
  have h3 := n.isLt
  show pack 0x18000000 [(d.val, 21), (a.val, 16), (w.toNat, 13), (n.toNat, 0)] < 2 ^ 32
  simp only [pack]
  omega

theorem srli (d : Reg) (a : Reg) (w : Bool) (n : BitVec 6) : Statement (.srli d a w n) := by
  have h0 := d.isLt
  have h1 := a.isLt
  have h2 := Bool.toNat_lt w
  have h3 := n.isLt
  show pack 0x18004000 [(d.val, 21), (a.val, 16), (w.toNat, 13), (n.toNat, 0)] < 2 ^ 32
  simp only [pack]
  omega

theorem srai (d : Reg) (a : Reg) (w : Bool) (n : BitVec 6) : Statement (.srai d a w n) := by
  have h0 := d.isLt
  have h1 := a.isLt
  have h2 := Bool.toNat_lt w
  have h3 := n.isLt
  show pack 0x18008000 [(d.val, 21), (a.val, 16), (w.toNat, 13), (n.toNat, 0)] < 2 ^ 32
  simp only [pack]
  omega

theorem roli (d : Reg) (a : Reg) (w : Bool) (n : BitVec 6) : Statement (.roli d a w n) := by
  have h0 := d.isLt
  have h1 := a.isLt
  have h2 := Bool.toNat_lt w
  have h3 := n.isLt
  show pack 0x1800C000 [(d.val, 21), (a.val, 16), (w.toNat, 13), (n.toNat, 0)] < 2 ^ 32
  simp only [pack]
  omega

theorem movhi (d : Reg) (a : Reg) (i : BitVec 16) : Statement (.movhi d a i) := by
  have h0 := d.isLt
  have h1 := a.isLt
  have h2 := i.isLt
  show pack 0x1C000000 [(d.val, 21), (a.val, 16), (i.toNat, 0)] < 2 ^ 32
  simp only [pack]
  omega

theorem addpc (d : Reg) (i : BitVec 16) : Statement (.addpc d i) := by
  have h0 := d.isLt
  have h1 := i.isLt
  show pack 0x20000000 [(d.val, 21), (i.toNat, 0)] < 2 ^ 32
  simp only [pack]
  omega

theorem cmp (p : PredReg) (a : Reg) (b : Reg) (w : Bool) (c : Cond) : Statement (.cmp p a b w c) := by
  have h0 := p.isLt
  have h1 := a.isLt
  have h2 := b.isLt
  have h3 := Bool.toNat_lt w
  have h4 := cond_code_lt c
  show pack 0x24000000 [(p.val, 23), (a.val, 16), (b.val, 11), (w.toNat, 10), (c.code, 0)] < 2 ^ 32
  simp only [pack]
  omega

theorem cmpi (p : PredReg) (c : Cond) (a : Reg) (i : BitVec 15) : Statement (.cmpi p c a i) := by
  have h0 := p.isLt
  have h1 := cond_code_lt c
  have h2 := a.isLt
  have h3 := i.isLt
  show pack 0x28000000 [(p.val, 23), (c.code, 20), (a.val, 15), (i.toNat, 0)] < 2 ^ 32
  simp only [pack]
  omega

theorem pand (d : PredReg) (a : PredReg) (x : Bool) (b : PredReg) (y : Bool) : Statement (.pand d a x b y) := by
  have h0 := d.isLt
  have h1 := a.isLt
  have h2 := Bool.toNat_lt x
  have h3 := b.isLt
  have h4 := Bool.toNat_lt y
  show pack 0x2C000000 [(d.val, 23), (a.val, 18), (x.toNat, 17), (b.val, 13), (y.toNat, 12)] < 2 ^ 32
  simp only [pack]
  omega

theorem por (d : PredReg) (a : PredReg) (x : Bool) (b : PredReg) (y : Bool) : Statement (.por d a x b y) := by
  have h0 := d.isLt
  have h1 := a.isLt
  have h2 := Bool.toNat_lt x
  have h3 := b.isLt
  have h4 := Bool.toNat_lt y
  show pack 0x2C000001 [(d.val, 23), (a.val, 18), (x.toNat, 17), (b.val, 13), (y.toNat, 12)] < 2 ^ 32
  simp only [pack]
  omega

theorem pxor (d : PredReg) (a : PredReg) (x : Bool) (b : PredReg) (y : Bool) : Statement (.pxor d a x b y) := by
  have h0 := d.isLt
  have h1 := a.isLt
  have h2 := Bool.toNat_lt x
  have h3 := b.isLt
  have h4 := Bool.toNat_lt y
  show pack 0x2C000002 [(d.val, 23), (a.val, 18), (x.toNat, 17), (b.val, 13), (y.toNat, 12)] < 2 ^ 32
  simp only [pack]
  omega

theorem sel (d : Reg) (a : Reg) (b : Reg) (n : Bool) (p : PredReg) : Statement (.sel d a b n p) := by
  have h0 := d.isLt
  have h1 := a.isLt
  have h2 := b.isLt
  have h3 := Bool.toNat_lt n
  have h4 := p.isLt
  show pack 0x30000000 [(d.val, 21), (a.val, 16), (b.val, 11), (n.toNat, 3), (p.val, 0)] < 2 ^ 32
  simp only [pack]
  omega

theorem br (p : PredReg) (n : Bool) (o : BitVec 16) : Statement (.br p n o) := by
  have h0 := p.isLt
  have h1 := Bool.toNat_lt n
  have h2 := o.isLt
  show pack 0x34000000 [(p.val, 23), (n.toNat, 22), (o.toNat, 0)] < 2 ^ 32
  simp only [pack]
  omega

theorem bz (a : Reg) (o : BitVec 16) : Statement (.bz a o) := by
  have h0 := a.isLt
  have h1 := o.isLt
  show pack 0x38000000 [(a.val, 16), (o.toNat, 0)] < 2 ^ 32
  simp only [pack]
  omega

theorem bnz (a : Reg) (o : BitVec 16) : Statement (.bnz a o) := by
  have h0 := a.isLt
  have h1 := o.isLt
  show pack 0x38400000 [(a.val, 16), (o.toNat, 0)] < 2 ^ 32
  simp only [pack]
  omega

theorem jmp (o : BitVec 26) : Statement (.jmp o) := by
  have h0 := o.isLt
  show pack 0x3C000000 [(o.toNat, 0)] < 2 ^ 32
  simp only [pack]
  omega

theorem call (o : BitVec 26) : Statement (.call o) := by
  have h0 := o.isLt
  show pack 0x40000000 [(o.toNat, 0)] < 2 ^ 32
  simp only [pack]
  omega

theorem jr (d : Reg) (a : Reg) : Statement (.jr d a) := by
  have h0 := d.isLt
  have h1 := a.isLt
  show pack 0x44000000 [(d.val, 21), (a.val, 16)] < 2 ^ 32
  simp only [pack]
  omega

theorem loop (l : LoopNo) (a : Reg) (o : BitVec 16) : Statement (.loop l a o) := by
  have h0 := l.isLt
  have h1 := a.isLt
  have h2 := o.isLt
  show pack 0x48000000 [(l.val, 24), (a.val, 16), (o.toNat, 0)] < 2 ^ 32
  simp only [pack]
  omega

theorem fadd (d : Reg) (a : Reg) (b : Reg) (r : Round) : Statement (.fadd d a b r) := by
  have h0 := d.isLt
  have h1 := a.isLt
  have h2 := b.isLt
  have h3 := round_code_lt r
  show pack 0x4C000000 [(d.val, 21), (a.val, 16), (b.val, 11), (r.code, 8)] < 2 ^ 32
  simp only [pack]
  omega

theorem fsub (d : Reg) (a : Reg) (b : Reg) (r : Round) : Statement (.fsub d a b r) := by
  have h0 := d.isLt
  have h1 := a.isLt
  have h2 := b.isLt
  have h3 := round_code_lt r
  show pack 0x4C000001 [(d.val, 21), (a.val, 16), (b.val, 11), (r.code, 8)] < 2 ^ 32
  simp only [pack]
  omega

theorem fmul (d : Reg) (a : Reg) (b : Reg) (r : Round) : Statement (.fmul d a b r) := by
  have h0 := d.isLt
  have h1 := a.isLt
  have h2 := b.isLt
  have h3 := round_code_lt r
  show pack 0x4C000002 [(d.val, 21), (a.val, 16), (b.val, 11), (r.code, 8)] < 2 ^ 32
  simp only [pack]
  omega

theorem fdiv (d : Reg) (a : Reg) (b : Reg) (r : Round) : Statement (.fdiv d a b r) := by
  have h0 := d.isLt
  have h1 := a.isLt
  have h2 := b.isLt
  have h3 := round_code_lt r
  show pack 0x4C000003 [(d.val, 21), (a.val, 16), (b.val, 11), (r.code, 8)] < 2 ^ 32
  simp only [pack]
  omega

theorem fsqrt (d : Reg) (a : Reg) (r : Round) : Statement (.fsqrt d a r) := by
  have h0 := d.isLt
  have h1 := a.isLt
  have h2 := round_code_lt r
  show pack 0x4C000004 [(d.val, 21), (a.val, 16), (r.code, 8)] < 2 ^ 32
  simp only [pack]
  omega

theorem fmin (d : Reg) (a : Reg) (b : Reg) : Statement (.fmin d a b) := by
  have h0 := d.isLt
  have h1 := a.isLt
  have h2 := b.isLt
  show pack 0x4C000005 [(d.val, 21), (a.val, 16), (b.val, 11)] < 2 ^ 32
  simp only [pack]
  omega

theorem fmax (d : Reg) (a : Reg) (b : Reg) : Statement (.fmax d a b) := by
  have h0 := d.isLt
  have h1 := a.isLt
  have h2 := b.isLt
  show pack 0x4C000006 [(d.val, 21), (a.val, 16), (b.val, 11)] < 2 ^ 32
  simp only [pack]
  omega

theorem ffma (d : Reg) (a : Reg) (b : Reg) (r : Round) : Statement (.ffma d a b r) := by
  have h0 := d.isLt
  have h1 := a.isLt
  have h2 := b.isLt
  have h3 := round_code_lt r
  show pack 0x50000000 [(d.val, 21), (a.val, 16), (b.val, 11), (r.code, 8)] < 2 ^ 32
  simp only [pack]
  omega

theorem ffms (d : Reg) (a : Reg) (b : Reg) (r : Round) : Statement (.ffms d a b r) := by
  have h0 := d.isLt
  have h1 := a.isLt
  have h2 := b.isLt
  have h3 := round_code_lt r
  show pack 0x50000001 [(d.val, 21), (a.val, 16), (b.val, 11), (r.code, 8)] < 2 ^ 32
  simp only [pack]
  omega

theorem ffnma (d : Reg) (a : Reg) (b : Reg) (r : Round) : Statement (.ffnma d a b r) := by
  have h0 := d.isLt
  have h1 := a.isLt
  have h2 := b.isLt
  have h3 := round_code_lt r
  show pack 0x50000002 [(d.val, 21), (a.val, 16), (b.val, 11), (r.code, 8)] < 2 ^ 32
  simp only [pack]
  omega

theorem ffnms (d : Reg) (a : Reg) (b : Reg) (r : Round) : Statement (.ffnms d a b r) := by
  have h0 := d.isLt
  have h1 := a.isLt
  have h2 := b.isLt
  have h3 := round_code_lt r
  show pack 0x50000003 [(d.val, 21), (a.val, 16), (b.val, 11), (r.code, 8)] < 2 ^ 32
  simp only [pack]
  omega

theorem fcvtI64F32 (d : Reg) (a : Reg) (r : Round) : Statement (.fcvtI64F32 d a r) := by
  have h0 := d.isLt
  have h1 := a.isLt
  have h2 := round_code_lt r
  show pack 0x54000000 [(d.val, 21), (a.val, 16), (r.code, 8)] < 2 ^ 32
  simp only [pack]
  omega

theorem fcvtUi64F32 (d : Reg) (a : Reg) (r : Round) : Statement (.fcvtUi64F32 d a r) := by
  have h0 := d.isLt
  have h1 := a.isLt
  have h2 := round_code_lt r
  show pack 0x54000001 [(d.val, 21), (a.val, 16), (r.code, 8)] < 2 ^ 32
  simp only [pack]
  omega

theorem fcvtI32F32 (d : Reg) (a : Reg) (r : Round) : Statement (.fcvtI32F32 d a r) := by
  have h0 := d.isLt
  have h1 := a.isLt
  have h2 := round_code_lt r
  show pack 0x54000002 [(d.val, 21), (a.val, 16), (r.code, 8)] < 2 ^ 32
  simp only [pack]
  omega

theorem fcvtUi32F32 (d : Reg) (a : Reg) (r : Round) : Statement (.fcvtUi32F32 d a r) := by
  have h0 := d.isLt
  have h1 := a.isLt
  have h2 := round_code_lt r
  show pack 0x54000003 [(d.val, 21), (a.val, 16), (r.code, 8)] < 2 ^ 32
  simp only [pack]
  omega

theorem fcvtF32I64 (d : Reg) (a : Reg) (r : Round) : Statement (.fcvtF32I64 d a r) := by
  have h0 := d.isLt
  have h1 := a.isLt
  have h2 := round_code_lt r
  show pack 0x54000004 [(d.val, 21), (a.val, 16), (r.code, 8)] < 2 ^ 32
  simp only [pack]
  omega

theorem fcvtF32Ui64 (d : Reg) (a : Reg) (r : Round) : Statement (.fcvtF32Ui64 d a r) := by
  have h0 := d.isLt
  have h1 := a.isLt
  have h2 := round_code_lt r
  show pack 0x54000005 [(d.val, 21), (a.val, 16), (r.code, 8)] < 2 ^ 32
  simp only [pack]
  omega

theorem fcvtF32I32 (d : Reg) (a : Reg) (r : Round) : Statement (.fcvtF32I32 d a r) := by
  have h0 := d.isLt
  have h1 := a.isLt
  have h2 := round_code_lt r
  show pack 0x54000006 [(d.val, 21), (a.val, 16), (r.code, 8)] < 2 ^ 32
  simp only [pack]
  omega

theorem fcvtF32Ui32 (d : Reg) (a : Reg) (r : Round) : Statement (.fcvtF32Ui32 d a r) := by
  have h0 := d.isLt
  have h1 := a.isLt
  have h2 := round_code_lt r
  show pack 0x54000007 [(d.val, 21), (a.val, 16), (r.code, 8)] < 2 ^ 32
  simp only [pack]
  omega

theorem fcvtB16F32 (d : Reg) (a : Reg) (r : Round) : Statement (.fcvtB16F32 d a r) := by
  have h0 := d.isLt
  have h1 := a.isLt
  have h2 := round_code_lt r
  show pack 0x54000008 [(d.val, 21), (a.val, 16), (r.code, 8)] < 2 ^ 32
  simp only [pack]
  omega

theorem fcvtF32B16 (d : Reg) (a : Reg) (r : Round) : Statement (.fcvtF32B16 d a r) := by
  have h0 := d.isLt
  have h1 := a.isLt
  have h2 := round_code_lt r
  show pack 0x54000009 [(d.val, 21), (a.val, 16), (r.code, 8)] < 2 ^ 32
  simp only [pack]
  omega

theorem fcvtF16F32 (d : Reg) (a : Reg) (r : Round) : Statement (.fcvtF16F32 d a r) := by
  have h0 := d.isLt
  have h1 := a.isLt
  have h2 := round_code_lt r
  show pack 0x5400000A [(d.val, 21), (a.val, 16), (r.code, 8)] < 2 ^ 32
  simp only [pack]
  omega

theorem fcvtF32F16 (d : Reg) (a : Reg) (r : Round) : Statement (.fcvtF32F16 d a r) := by
  have h0 := d.isLt
  have h1 := a.isLt
  have h2 := round_code_lt r
  show pack 0x5400000B [(d.val, 21), (a.val, 16), (r.code, 8)] < 2 ^ 32
  simp only [pack]
  omega

theorem fcvtF8aF32 (d : Reg) (a : Reg) (r : Round) : Statement (.fcvtF8aF32 d a r) := by
  have h0 := d.isLt
  have h1 := a.isLt
  have h2 := round_code_lt r
  show pack 0x5400000C [(d.val, 21), (a.val, 16), (r.code, 8)] < 2 ^ 32
  simp only [pack]
  omega

theorem fcvtF8bF32 (d : Reg) (a : Reg) (r : Round) : Statement (.fcvtF8bF32 d a r) := by
  have h0 := d.isLt
  have h1 := a.isLt
  have h2 := round_code_lt r
  show pack 0x5400000D [(d.val, 21), (a.val, 16), (r.code, 8)] < 2 ^ 32
  simp only [pack]
  omega

theorem fcvtF32F8a (d : Reg) (a : Reg) (r : Round) : Statement (.fcvtF32F8a d a r) := by
  have h0 := d.isLt
  have h1 := a.isLt
  have h2 := round_code_lt r
  show pack 0x5400000E [(d.val, 21), (a.val, 16), (r.code, 8)] < 2 ^ 32
  simp only [pack]
  omega

theorem fcvtF32F8b (d : Reg) (a : Reg) (r : Round) : Statement (.fcvtF32F8b d a r) := by
  have h0 := d.isLt
  have h1 := a.isLt
  have h2 := round_code_lt r
  show pack 0x5400000F [(d.val, 21), (a.val, 16), (r.code, 8)] < 2 ^ 32
  simp only [pack]
  omega

theorem frint (d : Reg) (a : Reg) (r : Round) : Statement (.frint d a r) := by
  have h0 := d.isLt
  have h1 := a.isLt
  have h2 := round_code_lt r
  show pack 0x54000010 [(d.val, 21), (a.val, 16), (r.code, 8)] < 2 ^ 32
  simp only [pack]
  omega

theorem feq (p : PredReg) (a : Reg) (b : Reg) : Statement (.feq p a b) := by
  have h0 := p.isLt
  have h1 := a.isLt
  have h2 := b.isLt
  show pack 0x58000000 [(p.val, 23), (a.val, 16), (b.val, 11)] < 2 ^ 32
  simp only [pack]
  omega

theorem flt (p : PredReg) (a : Reg) (b : Reg) : Statement (.flt p a b) := by
  have h0 := p.isLt
  have h1 := a.isLt
  have h2 := b.isLt
  show pack 0x58000001 [(p.val, 23), (a.val, 16), (b.val, 11)] < 2 ^ 32
  simp only [pack]
  omega

theorem fle (p : PredReg) (a : Reg) (b : Reg) : Statement (.fle p a b) := by
  have h0 := p.isLt
  have h1 := a.isLt
  have h2 := b.isLt
  show pack 0x58000002 [(p.val, 23), (a.val, 16), (b.val, 11)] < 2 ^ 32
  simp only [pack]
  omega

theorem fUn (p : PredReg) (a : Reg) (b : Reg) : Statement (.fUn p a b) := by
  have h0 := p.isLt
  have h1 := a.isLt
  have h2 := b.isLt
  show pack 0x58000003 [(p.val, 23), (a.val, 16), (b.val, 11)] < 2 ^ 32
  simp only [pack]
  omega

theorem rdsr (d : Reg) (i : SysReg) : Statement (.rdsr d i) := by
  have h0 := d.isLt
  have h1 := sysreg_code_lt i
  show pack 0x5C000000 [(d.val, 21), (i.code, 0)] < 2 ^ 32
  simp only [pack]
  omega

theorem wrsr (a : Reg) (i : SysReg) : Statement (.wrsr a i) := by
  have h0 := a.isLt
  have h1 := sysreg_code_lt i
  show pack 0x60000000 [(a.val, 16), (i.code, 0)] < 2 ^ 32
  simp only [pack]
  omega

theorem gcfg (a : Reg) (t : PortWord) (g : Port) : Statement (.gcfg a t g) := by
  have h0 := a.isLt
  have h1 := portword_code_lt t
  have h2 := port_code_lt g
  show pack 0x64000000 [(a.val, 16), (t.code, 4), (g.code, 0)] < 2 ^ 32
  simp only [pack]
  omega

theorem gstart (g : Port) : Statement (.gstart g) := by
  have h0 := port_code_lt g
  show pack 0x68000000 [(g.code, 0)] < 2 ^ 32
  simp only [pack]
  omega

theorem gstop (g : Port) : Statement (.gstop g) := by
  have h0 := port_code_lt g
  show pack 0x68001000 [(g.code, 0)] < 2 ^ 32
  simp only [pack]
  omega

theorem gstat (d : Reg) (g : Port) : Statement (.gstat d g) := by
  have h0 := d.isLt
  have h1 := port_code_lt g
  show pack 0x68002000 [(d.val, 21), (g.code, 0)] < 2 ^ 32
  simp only [pack]
  omega

theorem gseek (a : Reg) (g : Port) : Statement (.gseek a g) := by
  have h0 := a.isLt
  have h1 := port_code_lt g
  show pack 0x68003000 [(a.val, 16), (g.code, 0)] < 2 ^ 32
  simp only [pack]
  omega

theorem vsetk (a : Reg) : Statement (.vsetk a) := by
  have h0 := a.isLt
  show pack 0x6C000000 [(a.val, 16)] < 2 ^ 32
  simp only [pack]
  omega

theorem vsetkH (a : Reg) : Statement (.vsetkH a) := by
  have h0 := a.isLt
  show pack 0x6C000001 [(a.val, 16)] < 2 ^ 32
  simp only [pack]
  omega

theorem nopMem : Statement (.nopMem) := by
  show 0x0 < 2 ^ 32
  decide

theorem ld (d : Reg) (a : Reg) (o : BitVec 10) (r : Order) (z : Size) : Statement (.ld d a o r z) := by
  have h0 := d.isLt
  have h1 := a.isLt
  have h2 := o.isLt
  have h3 := order_ordCode_lt r
  have h4 := order_scpCode_lt r
  have h5 := size_code_lt z
  show pack 0x4000000 [(d.val, 21), (a.val, 16), (o.toNat, 6), (r.ordCode, 2), (r.scpCode, 4), (z.code, 0)] < 2 ^ 32
  simp only [pack]
  omega

theorem lds (d : Reg) (a : Reg) (o : BitVec 10) (r : Order) (z : Size) : Statement (.lds d a o r z) := by
  have h0 := d.isLt
  have h1 := a.isLt
  have h2 := o.isLt
  have h3 := order_ordCode_lt r
  have h4 := order_scpCode_lt r
  have h5 := size_code_lt z
  show pack 0x8000000 [(d.val, 21), (a.val, 16), (o.toNat, 6), (r.ordCode, 2), (r.scpCode, 4), (z.code, 0)] < 2 ^ 32
  simp only [pack]
  omega

theorem st (d : Reg) (a : Reg) (o : BitVec 10) (r : Order) (z : Size) : Statement (.st d a o r z) := by
  have h0 := d.isLt
  have h1 := a.isLt
  have h2 := o.isLt
  have h3 := order_ordCode_lt r
  have h4 := order_scpCode_lt r
  have h5 := size_code_lt z
  show pack 0xC000000 [(d.val, 21), (a.val, 16), (o.toNat, 6), (r.ordCode, 2), (r.scpCode, 4), (z.code, 0)] < 2 ^ 32
  simp only [pack]
  omega

theorem ldv (d : Reg) (a : Reg) (o : BitVec 10) (r : Order) : Statement (.ldv d a o r) := by
  have h0 := d.isLt
  have h1 := a.isLt
  have h2 := o.isLt
  have h3 := order_ordCode_lt r
  have h4 := order_scpCode_lt r
  show pack 0x10000000 [(d.val, 21), (a.val, 16), (o.toNat, 6), (r.ordCode, 2), (r.scpCode, 4)] < 2 ^ 32
  simp only [pack]
  omega

theorem stv (d : Reg) (a : Reg) (o : BitVec 10) (r : Order) : Statement (.stv d a o r) := by
  have h0 := d.isLt
  have h1 := a.isLt
  have h2 := o.isLt
  have h3 := order_ordCode_lt r
  have h4 := order_scpCode_lt r
  show pack 0x14000000 [(d.val, 21), (a.val, 16), (o.toNat, 6), (r.ordCode, 2), (r.scpCode, 4)] < 2 ^ 32
  simp only [pack]
  omega

theorem ldx (d : Reg) (a : Reg) (o : BitVec 10) (r : Order) : Statement (.ldx d a o r) := by
  have h0 := d.isLt
  have h1 := a.isLt
  have h2 := o.isLt
  have h3 := order_ordCode_lt r
  have h4 := order_scpCode_lt r
  show pack 0x18000000 [(d.val, 21), (a.val, 16), (o.toNat, 6), (r.ordCode, 2), (r.scpCode, 4)] < 2 ^ 32
  simp only [pack]
  omega

theorem stpk (d : Reg) (a : Reg) (o : BitVec 10) (r : Order) (m : ScaleMode) : Statement (.stpk d a o r m) := by
  have h0 := d.isLt
  have h1 := a.isLt
  have h2 := o.isLt
  have h3 := order_ordCode_lt r
  have h4 := order_scpCode_lt r
  have h5 := scalemode_code_lt m
  show pack 0x1C000000 [(d.val, 21), (a.val, 16), (o.toNat, 6), (r.ordCode, 2), (r.scpCode, 4), (m.code, 0)] < 2 ^ 32
  simp only [pack]
  omega

theorem ldt (d : Reg) (a : Reg) (o : BitVec 10) (r : Order) : Statement (.ldt d a o r) := by
  have h0 := d.isLt
  have h1 := a.isLt
  have h2 := o.isLt
  have h3 := order_ordCode_lt r
  have h4 := order_scpCode_lt r
  show pack 0x20000000 [(d.val, 21), (a.val, 16), (o.toNat, 6), (r.ordCode, 2), (r.scpCode, 4)] < 2 ^ 32
  simp only [pack]
  omega

theorem stt (d : Reg) (a : Reg) (o : BitVec 10) (r : Order) : Statement (.stt d a o r) := by
  have h0 := d.isLt
  have h1 := a.isLt
  have h2 := o.isLt
  have h3 := order_ordCode_lt r
  have h4 := order_scpCode_lt r
  show pack 0x24000000 [(d.val, 21), (a.val, 16), (o.toNat, 6), (r.ordCode, 2), (r.scpCode, 4)] < 2 ^ 32
  simp only [pack]
  omega

theorem ldg (d : Reg) (a : Reg) (b : Reg) (x : Bool) : Statement (.ldg d a b x) := by
  have h0 := d.isLt
  have h1 := a.isLt
  have h2 := b.isLt
  have h3 := Bool.toNat_lt x
  show pack 0x28000000 [(d.val, 21), (a.val, 16), (b.val, 11), (x.toNat, 0)] < 2 ^ 32
  simp only [pack]
  omega

theorem fence (s : Scope) : Statement (.fence s) := by
  have h0 := scope_code_lt s
  show pack 0x2C000000 [(s.code, 21)] < 2 ^ 32
  simp only [pack]
  omega

theorem fenceRel (s : Scope) : Statement (.fenceRel s) := by
  have h0 := scope_code_lt s
  show pack 0x2C800000 [(s.code, 21)] < 2 ^ 32
  simp only [pack]
  omega

theorem fenceAcq (s : Scope) : Statement (.fenceAcq s) := by
  have h0 := scope_code_lt s
  show pack 0x2D000000 [(s.code, 21)] < 2 ^ 32
  simp only [pack]
  omega

theorem fenceMem : Statement (.fenceMem) := by
  show 0x2D800000 < 2 ^ 32
  decide

theorem fenceUo : Statement (.fenceUo) := by
  show 0x2E000000 < 2 ^ 32
  decide

theorem prefRc (a : Reg) (o : BitVec 10) : Statement (.prefRc a o) := by
  have h0 := a.isLt
  have h1 := o.isLt
  show pack 0x30000000 [(a.val, 16), (o.toNat, 6)] < 2 ^ 32
  simp only [pack]
  omega

theorem prefMd (a : Reg) (o : BitVec 10) : Statement (.prefMd a o) := by
  have h0 := a.isLt
  have h1 := o.isLt
  show pack 0x30200000 [(a.val, 16), (o.toNat, 6)] < 2 ^ 32
  simp only [pack]
  omega

theorem nopVec (un : VUnit) : Statement (.nopVec un) := by
  show 0x0 < 2 ^ 32
  decide

theorem vadd (un : VUnit) (d : VDst) (a : VSrc) (b : VSrc) (t : VType) (m : MaskReg) : Statement (.vadd un d a b t m) := by
  have h0 := vdst_code_lt d
  have h1 := vsrc_code_lt a
  have h2 := vsrc_ebit_lt a
  have h3 := vsrc_code_lt b
  have h4 := vsrc_ebit_lt b
  have h5 := vtype_code_lt t
  have h6 := m.isLt
  show pack 0x4000000 [(d.code, 20), (a.code, 14), (a.ebit, 7), (b.code, 8), (b.ebit, 6), (t.code, 3), (m.val, 0)] < 2 ^ 32
  simp only [pack]
  omega

theorem vsub (un : VUnit) (d : VDst) (a : VSrc) (b : VSrc) (t : VType) (m : MaskReg) : Statement (.vsub un d a b t m) := by
  have h0 := vdst_code_lt d
  have h1 := vsrc_code_lt a
  have h2 := vsrc_ebit_lt a
  have h3 := vsrc_code_lt b
  have h4 := vsrc_ebit_lt b
  have h5 := vtype_code_lt t
  have h6 := m.isLt
  show pack 0x8000000 [(d.code, 20), (a.code, 14), (a.ebit, 7), (b.code, 8), (b.ebit, 6), (t.code, 3), (m.val, 0)] < 2 ^ 32
  simp only [pack]
  omega

theorem vmul (un : VUnit) (d : VDst) (a : VSrc) (b : VSrc) (t : VType) (m : MaskReg) : Statement (.vmul un d a b t m) := by
  have h0 := vdst_code_lt d
  have h1 := vsrc_code_lt a
  have h2 := vsrc_ebit_lt a
  have h3 := vsrc_code_lt b
  have h4 := vsrc_ebit_lt b
  have h5 := vtype_code_lt t
  have h6 := m.isLt
  show pack 0xC000000 [(d.code, 20), (a.code, 14), (a.ebit, 7), (b.code, 8), (b.ebit, 6), (t.code, 3), (m.val, 0)] < 2 ^ 32
  simp only [pack]
  omega

theorem vmulh (un : VUnit) (d : VDst) (a : VSrc) (b : VSrc) (t : VType) (m : MaskReg) : Statement (.vmulh un d a b t m) := by
  have h0 := vdst_code_lt d
  have h1 := vsrc_code_lt a
  have h2 := vsrc_ebit_lt a
  have h3 := vsrc_code_lt b
  have h4 := vsrc_ebit_lt b
  have h5 := vtype_code_lt t
  have h6 := m.isLt
  show pack 0x10000000 [(d.code, 20), (a.code, 14), (a.ebit, 7), (b.code, 8), (b.ebit, 6), (t.code, 3), (m.val, 0)] < 2 ^ 32
  simp only [pack]
  omega

theorem vfma (un : VUnit) (c : VSrc) (a : VSrc) (b : VSrc) (t : VType) (m : MaskReg) : Statement (.vfma un c a b t m) := by
  have h0 := vsrc_code_lt c
  have h1 := vsrc_code_lt a
  have h2 := vsrc_ebit_lt a
  have h3 := vsrc_code_lt b
  have h4 := vsrc_ebit_lt b
  have h5 := vtype_code_lt t
  have h6 := m.isLt
  show pack 0x14000000 [(c.code, 20), (a.code, 14), (a.ebit, 7), (b.code, 8), (b.ebit, 6), (t.code, 3), (m.val, 0)] < 2 ^ 32
  simp only [pack]
  omega

theorem vmin (un : VUnit) (d : VDst) (a : VSrc) (b : VSrc) (t : VType) (m : MaskReg) : Statement (.vmin un d a b t m) := by
  have h0 := vdst_code_lt d
  have h1 := vsrc_code_lt a
  have h2 := vsrc_ebit_lt a
  have h3 := vsrc_code_lt b
  have h4 := vsrc_ebit_lt b
  have h5 := vtype_code_lt t
  have h6 := m.isLt
  show pack 0x18000000 [(d.code, 20), (a.code, 14), (a.ebit, 7), (b.code, 8), (b.ebit, 6), (t.code, 3), (m.val, 0)] < 2 ^ 32
  simp only [pack]
  omega

theorem vmax (un : VUnit) (d : VDst) (a : VSrc) (b : VSrc) (t : VType) (m : MaskReg) : Statement (.vmax un d a b t m) := by
  have h0 := vdst_code_lt d
  have h1 := vsrc_code_lt a
  have h2 := vsrc_ebit_lt a
  have h3 := vsrc_code_lt b
  have h4 := vsrc_ebit_lt b
  have h5 := vtype_code_lt t
  have h6 := m.isLt
  show pack 0x1C000000 [(d.code, 20), (a.code, 14), (a.ebit, 7), (b.code, 8), (b.ebit, 6), (t.code, 3), (m.val, 0)] < 2 ^ 32
  simp only [pack]
  omega

theorem vabs (un : VUnit) (d : VDst) (a : VSrc) (t : VType) (m : MaskReg) : Statement (.vabs un d a t m) := by
  have h0 := vdst_code_lt d
  have h1 := vsrc_code_lt a
  have h2 := vsrc_ebit_lt a
  have h3 := vtype_code_lt t
  have h4 := m.isLt
  show pack 0x20000000 [(d.code, 20), (a.code, 14), (a.ebit, 7), (t.code, 3), (m.val, 0)] < 2 ^ 32
  simp only [pack]
  omega

theorem vneg (un : VUnit) (d : VDst) (a : VSrc) (t : VType) (m : MaskReg) : Statement (.vneg un d a t m) := by
  have h0 := vdst_code_lt d
  have h1 := vsrc_code_lt a
  have h2 := vsrc_ebit_lt a
  have h3 := vtype_code_lt t
  have h4 := m.isLt
  show pack 0x24000000 [(d.code, 20), (a.code, 14), (a.ebit, 7), (t.code, 3), (m.val, 0)] < 2 ^ 32
  simp only [pack]
  omega

theorem vand (un : VUnit) (d : VDst) (a : VSrc) (b : VSrc) (m : MaskReg) : Statement (.vand un d a b m) := by
  have h0 := vdst_code_lt d
  have h1 := vsrc_code_lt a
  have h2 := vsrc_ebit_lt a
  have h3 := vsrc_code_lt b
  have h4 := vsrc_ebit_lt b
  have h5 := m.isLt
  show pack 0x28000000 [(d.code, 20), (a.code, 14), (a.ebit, 7), (b.code, 8), (b.ebit, 6), (m.val, 0)] < 2 ^ 32
  simp only [pack]
  omega

theorem vor (un : VUnit) (d : VDst) (a : VSrc) (b : VSrc) (m : MaskReg) : Statement (.vor un d a b m) := by
  have h0 := vdst_code_lt d
  have h1 := vsrc_code_lt a
  have h2 := vsrc_ebit_lt a
  have h3 := vsrc_code_lt b
  have h4 := vsrc_ebit_lt b
  have h5 := m.isLt
  show pack 0x2C000000 [(d.code, 20), (a.code, 14), (a.ebit, 7), (b.code, 8), (b.ebit, 6), (m.val, 0)] < 2 ^ 32
  simp only [pack]
  omega

theorem vxor (un : VUnit) (d : VDst) (a : VSrc) (b : VSrc) (m : MaskReg) : Statement (.vxor un d a b m) := by
  have h0 := vdst_code_lt d
  have h1 := vsrc_code_lt a
  have h2 := vsrc_ebit_lt a
  have h3 := vsrc_code_lt b
  have h4 := vsrc_ebit_lt b
  have h5 := m.isLt
  show pack 0x30000000 [(d.code, 20), (a.code, 14), (a.ebit, 7), (b.code, 8), (b.ebit, 6), (m.val, 0)] < 2 ^ 32
  simp only [pack]
  omega

theorem vandn (un : VUnit) (d : VDst) (a : VSrc) (b : VSrc) (m : MaskReg) : Statement (.vandn un d a b m) := by
  have h0 := vdst_code_lt d
  have h1 := vsrc_code_lt a
  have h2 := vsrc_ebit_lt a
  have h3 := vsrc_code_lt b
  have h4 := vsrc_ebit_lt b
  have h5 := m.isLt
  show pack 0x34000000 [(d.code, 20), (a.code, 14), (a.ebit, 7), (b.code, 8), (b.ebit, 6), (m.val, 0)] < 2 ^ 32
  simp only [pack]
  omega

theorem vshl (un : VUnit) (d : VDst) (a : VSrc) (b : VSrc) (t : VType) (m : MaskReg) : Statement (.vshl un d a b t m) := by
  have h0 := vdst_code_lt d
  have h1 := vsrc_code_lt a
  have h2 := vsrc_ebit_lt a
  have h3 := vsrc_code_lt b
  have h4 := vsrc_ebit_lt b
  have h5 := vtype_code_lt t
  have h6 := m.isLt
  show pack 0x38000000 [(d.code, 20), (a.code, 14), (a.ebit, 7), (b.code, 8), (b.ebit, 6), (t.code, 3), (m.val, 0)] < 2 ^ 32
  simp only [pack]
  omega

theorem vshr (un : VUnit) (d : VDst) (a : VSrc) (b : VSrc) (t : VType) (m : MaskReg) : Statement (.vshr un d a b t m) := by
  have h0 := vdst_code_lt d
  have h1 := vsrc_code_lt a
  have h2 := vsrc_ebit_lt a
  have h3 := vsrc_code_lt b
  have h4 := vsrc_ebit_lt b
  have h5 := vtype_code_lt t
  have h6 := m.isLt
  show pack 0x3C000000 [(d.code, 20), (a.code, 14), (a.ebit, 7), (b.code, 8), (b.ebit, 6), (t.code, 3), (m.val, 0)] < 2 ^ 32
  simp only [pack]
  omega

theorem vcmp (un : VUnit) (c : VCond) (k : MaskReg) (a : VSrc) (b : VSrc) (t : VType) (m : MaskReg) : Statement (.vcmp un c k a b t m) := by
  have h0 := vcond_code_lt c
  have h1 := k.isLt
  have h2 := vsrc_code_lt a
  have h3 := vsrc_ebit_lt a
  have h4 := vsrc_code_lt b
  have h5 := vsrc_ebit_lt b
  have h6 := vtype_code_lt t
  have h7 := m.isLt
  show pack 0x40000000 [(c.code, 23), (k.val, 20), (a.code, 14), (a.ebit, 7), (b.code, 8), (b.ebit, 6), (t.code, 3), (m.val, 0)] < 2 ^ 32
  simp only [pack]
  omega

theorem vsel (un : VUnit) (d : VDst) (a : VSrc) (b : VSrc) (m : MaskReg) : Statement (.vsel un d a b m) := by
  have h0 := vdst_code_lt d
  have h1 := vsrc_code_lt a
  have h2 := vsrc_ebit_lt a
  have h3 := vsrc_code_lt b
  have h4 := vsrc_ebit_lt b
  have h5 := m.isLt
  show pack 0x44000000 [(d.code, 20), (a.code, 14), (a.ebit, 7), (b.code, 8), (b.ebit, 6), (m.val, 0)] < 2 ^ 32
  simp only [pack]
  omega

theorem vmov (un : VUnit) (d : VDst) (a : VSrc) : Statement (.vmov un d a) := by
  have h0 := vdst_code_lt d
  have h1 := vsrc_code_lt a
  have h2 := vsrc_ebit_lt a
  show pack 0x48000000 [(d.code, 20), (a.code, 14), (a.ebit, 7)] < 2 ^ 32
  simp only [pack]
  omega

theorem vcvt (un : VUnit) (d : VDst) (a : VSrc) (p : BitVec 2) (u : VType) (t : VType) (m : MaskReg) : Statement (.vcvt un d a p u t m) := by
  have h0 := vdst_code_lt d
  have h1 := vsrc_code_lt a
  have h2 := vsrc_ebit_lt a
  have h3 := p.isLt
  have h4 := vtype_code_lt u
  have h5 := vtype_code_lt t
  have h6 := m.isLt
  show pack 0x4C000000 [(d.code, 20), (a.code, 14), (a.ebit, 7), (p.toNat, 12), (u.code, 8), (t.code, 3), (m.val, 0)] < 2 ^ 32
  simp only [pack]
  omega

theorem vscale (un : VUnit) (d : VDst) (a : VSrc) (b : VSrc) (m : MaskReg) : Statement (.vscale un d a b m) := by
  have h0 := vdst_code_lt d
  have h1 := vsrc_code_lt a
  have h2 := vsrc_ebit_lt a
  have h3 := vsrc_code_lt b
  have h4 := vsrc_ebit_lt b
  have h5 := m.isLt
  show pack 0x50000008 [(d.code, 20), (a.code, 14), (a.ebit, 7), (b.code, 8), (b.ebit, 6), (m.val, 0)] < 2 ^ 32
  simp only [pack]
  omega

theorem vqnt (un : VUnit) (d : VDst) (a : VSrc) (b : VSrc) (m : MaskReg) : Statement (.vqnt un d a b m) := by
  have h0 := vdst_code_lt d
  have h1 := vsrc_code_lt a
  have h2 := vsrc_ebit_lt a
  have h3 := vsrc_code_lt b
  have h4 := vsrc_ebit_lt b
  have h5 := m.isLt
  show pack 0x54000008 [(d.code, 20), (a.code, 14), (a.ebit, 7), (b.code, 8), (b.ebit, 6), (m.val, 0)] < 2 ^ 32
  simp only [pack]
  omega

theorem vunpk (un : VUnit) (d : VDst) (a : VSrc) (b : VSrc) : Statement (.vunpk un d a b) := by
  have h0 := vdst_code_lt d
  have h1 := vsrc_code_lt a
  have h2 := vsrc_ebit_lt a
  have h3 := vsrc_code_lt b
  have h4 := vsrc_ebit_lt b
  show pack 0x58000008 [(d.code, 20), (a.code, 14), (a.ebit, 7), (b.code, 8), (b.ebit, 6)] < 2 ^ 32
  simp only [pack]
  omega

theorem vmaskAnd (un : VUnit) (k : MaskReg) (a : MaskReg) (b : MaskReg) : Statement (.vmaskAnd un k a b) := by
  have h0 := k.isLt
  have h1 := a.isLt
  have h2 := b.isLt
  show pack 0x5C000000 [(k.val, 20), (a.val, 14), (b.val, 8)] < 2 ^ 32
  simp only [pack]
  omega

theorem vmaskOr (un : VUnit) (k : MaskReg) (a : MaskReg) (b : MaskReg) : Statement (.vmaskOr un k a b) := by
  have h0 := k.isLt
  have h1 := a.isLt
  have h2 := b.isLt
  show pack 0x5C000008 [(k.val, 20), (a.val, 14), (b.val, 8)] < 2 ^ 32
  simp only [pack]
  omega

theorem vmaskXor (un : VUnit) (k : MaskReg) (a : MaskReg) (b : MaskReg) : Statement (.vmaskXor un k a b) := by
  have h0 := k.isLt
  have h1 := a.isLt
  have h2 := b.isLt
  show pack 0x5C000010 [(k.val, 20), (a.val, 14), (b.val, 8)] < 2 ^ 32
  simp only [pack]
  omega

theorem vmaskAndn (un : VUnit) (k : MaskReg) (a : MaskReg) (b : MaskReg) : Statement (.vmaskAndn un k a b) := by
  have h0 := k.isLt
  have h1 := a.isLt
  have h2 := b.isLt
  show pack 0x5C000018 [(k.val, 20), (a.val, 14), (b.val, 8)] < 2 ^ 32
  simp only [pack]
  omega

theorem vmaskNot (un : VUnit) (k : MaskReg) (a : MaskReg) : Statement (.vmaskNot un k a) := by
  have h0 := k.isLt
  have h1 := a.isLt
  show pack 0x5C000020 [(k.val, 20), (a.val, 14)] < 2 ^ 32
  simp only [pack]
  omega

theorem vmaskNz (un : VUnit) (k : MaskReg) (a : VSrc) : Statement (.vmaskNz un k a) := by
  have h0 := k.isLt
  have h1 := vsrc_code_lt a
  have h2 := vsrc_ebit_lt a
  show pack 0x5C000028 [(k.val, 20), (a.code, 14), (a.ebit, 7)] < 2 ^ 32
  simp only [pack]
  omega

theorem vmaskCnt (un : VUnit) (k : MaskReg) (a : VSrc) : Statement (.vmaskCnt un k a) := by
  have h0 := k.isLt
  have h1 := vsrc_code_lt a
  have h2 := vsrc_ebit_lt a
  show pack 0x5C000030 [(k.val, 20), (a.code, 14), (a.ebit, 7)] < 2 ^ 32
  simp only [pack]
  omega

theorem vchk (un : VUnit) (a : VSrc) (b : VSrc) (m : MaskReg) : Statement (.vchk un a b m) := by
  have h0 := vsrc_code_lt a
  have h1 := vsrc_ebit_lt a
  have h2 := vsrc_code_lt b
  have h3 := vsrc_ebit_lt b
  have h4 := m.isLt
  show pack 0x60000000 [(a.code, 14), (a.ebit, 7), (b.code, 8), (b.ebit, 6), (m.val, 0)] < 2 ^ 32
  simp only [pack]
  omega

theorem vperm (d : VDst) (a : VSrc) (b : VSrc) (m : MaskReg) : Statement (.vperm d a b m) := by
  have h0 := vdst_code_lt d
  have h1 := vsrc_code_lt a
  have h2 := vsrc_ebit_lt a
  have h3 := vsrc_code_lt b
  have h4 := vsrc_ebit_lt b
  have h5 := m.isLt
  show pack 0x80000000 [(d.code, 20), (a.code, 14), (a.ebit, 7), (b.code, 8), (b.ebit, 6), (m.val, 0)] < 2 ^ 32
  simp only [pack]
  omega

theorem vrot (d : VDst) (a : VSrc) (b : VSrc) (m : MaskReg) : Statement (.vrot d a b m) := by
  have h0 := vdst_code_lt d
  have h1 := vsrc_code_lt a
  have h2 := vsrc_ebit_lt a
  have h3 := vsrc_code_lt b
  have h4 := vsrc_ebit_lt b
  have h5 := m.isLt
  show pack 0x84000000 [(d.code, 20), (a.code, 14), (a.ebit, 7), (b.code, 8), (b.ebit, 6), (m.val, 0)] < 2 ^ 32
  simp only [pack]
  omega

theorem vrsum (d : VDst) (a : VSrc) (t : VType) (m : MaskReg) : Statement (.vrsum d a t m) := by
  have h0 := vdst_code_lt d
  have h1 := vsrc_code_lt a
  have h2 := vsrc_ebit_lt a
  have h3 := vtype_code_lt t
  have h4 := m.isLt
  show pack 0x88000000 [(d.code, 20), (a.code, 14), (a.ebit, 7), (t.code, 3), (m.val, 0)] < 2 ^ 32
  simp only [pack]
  omega

theorem vrmax (d : VDst) (a : VSrc) (t : VType) (m : MaskReg) : Statement (.vrmax d a t m) := by
  have h0 := vdst_code_lt d
  have h1 := vsrc_code_lt a
  have h2 := vsrc_ebit_lt a
  have h3 := vtype_code_lt t
  have h4 := m.isLt
  show pack 0x8C000000 [(d.code, 20), (a.code, 14), (a.ebit, 7), (t.code, 3), (m.val, 0)] < 2 ^ 32
  simp only [pack]
  omega

theorem vscan (d : VDst) (a : VSrc) (t : VType) (m : MaskReg) : Statement (.vscan d a t m) := by
  have h0 := vdst_code_lt d
  have h1 := vsrc_code_lt a
  have h2 := vsrc_ebit_lt a
  have h3 := vtype_code_lt t
  have h4 := m.isLt
  show pack 0x90000000 [(d.code, 20), (a.code, 14), (a.ebit, 7), (t.code, 3), (m.val, 0)] < 2 ^ 32
  simp only [pack]
  omega

theorem vexp2 (d : VDst) (a : VSrc) (m : MaskReg) : Statement (.vexp2 d a m) := by
  have h0 := vdst_code_lt d
  have h1 := vsrc_code_lt a
  have h2 := vsrc_ebit_lt a
  have h3 := m.isLt
  show pack 0xA0000008 [(d.code, 20), (a.code, 14), (a.ebit, 7), (m.val, 0)] < 2 ^ 32
  simp only [pack]
  omega

theorem vlog2 (d : VDst) (a : VSrc) (m : MaskReg) : Statement (.vlog2 d a m) := by
  have h0 := vdst_code_lt d
  have h1 := vsrc_code_lt a
  have h2 := vsrc_ebit_lt a
  have h3 := m.isLt
  show pack 0xA4000008 [(d.code, 20), (a.code, 14), (a.ebit, 7), (m.val, 0)] < 2 ^ 32
  simp only [pack]
  omega

theorem vrcp (d : VDst) (a : VSrc) (m : MaskReg) : Statement (.vrcp d a m) := by
  have h0 := vdst_code_lt d
  have h1 := vsrc_code_lt a
  have h2 := vsrc_ebit_lt a
  have h3 := m.isLt
  show pack 0xA8000008 [(d.code, 20), (a.code, 14), (a.ebit, 7), (m.val, 0)] < 2 ^ 32
  simp only [pack]
  omega

theorem vrsq (d : VDst) (a : VSrc) (m : MaskReg) : Statement (.vrsq d a m) := by
  have h0 := vdst_code_lt d
  have h1 := vsrc_code_lt a
  have h2 := vsrc_ebit_lt a
  have h3 := m.isLt
  show pack 0xAC000008 [(d.code, 20), (a.code, 14), (a.ebit, 7), (m.val, 0)] < 2 ^ 32
  simp only [pack]
  omega

theorem nopMx : Statement (.nopMx) := by
  show 0x0 < 2 ^ 32
  decide

theorem msetp (p : ParamReg) (a : Reg) : Statement (.msetp p a) := by
  have h0 := p.isLt
  have h1 := a.isLt
  show pack 0x4000000 [(p.val, 23), (a.val, 18)] < 2 ^ 32
  simp only [pack]
  omega

theorem msetpi (p : ParamReg) (i : BitVec 23) : Statement (.msetpi p i) := by
  have h0 := p.isLt
  have h1 := i.isLt
  show pack 0x8000000 [(p.val, 23), (i.toNat, 0)] < 2 ^ 32
  simp only [pack]
  omega

theorem mcall (h : Bool) (s : Bool) (t : TileNo) (r : BitVec 8) : Statement (.mcall h s t r) := by
  have h0 := Bool.toNat_lt h
  have h1 := Bool.toNat_lt s
  have h2 := t.isLt
  have h3 := r.isLt
  show pack 0xC000000 [(h.toNat, 25), (s.toNat, 24), (t.val, 22), (r.toNat, 14)] < 2 ^ 32
  simp only [pack]
  omega

theorem mzero (t : TileNo) : Statement (.mzero t) := by
  have h0 := t.isLt
  show pack 0x10000000 [(t.val, 24)] < 2 ^ 32
  simp only [pack]
  omega

theorem mdrain (t : TileNo) (d : Reg) (a : Reg) (b : Reg) (z : Bool) (n : Bool) (m : DrainMode) (s : Bool) : Statement (.mdrain t d a b z n m s) := by
  have h0 := t.isLt
  have h1 := d.isLt
  have h2 := a.isLt
  have h3 := b.isLt
  have h4 := Bool.toNat_lt z
  have h5 := Bool.toNat_lt n
  have h6 := drainmode_code_lt m
  have h7 := Bool.toNat_lt s
  show pack 0x14000000 [(t.val, 24), (d.val, 19), (a.val, 14), (b.val, 9), (z.toNat, 4), (n.toNat, 3), (m.code, 1), (s.toNat, 0)] < 2 ^ 32
  simp only [pack]
  omega

theorem mseal (t : TileNo) : Statement (.mseal t) := by
  have h0 := t.isLt
  show pack 0x18000000 [(t.val, 24)] < 2 ^ 32
  simp only [pack]
  omega

theorem mstat (d : Reg) : Statement (.mstat d) := by
  have h0 := d.isLt
  show pack 0x1C000000 [(d.val, 19)] < 2 ^ 32
  simp only [pack]
  omega

theorem mlduc (a : Reg) (b : Reg) : Statement (.mlduc a b) := by
  have h0 := a.isLt
  have h1 := b.isLt
  show pack 0x20000000 [(a.val, 14), (b.val, 9)] < 2 ^ 32
  simp only [pack]
  omega

theorem mlducEnt (a : Reg) (b : Reg) : Statement (.mlducEnt a b) := by
  have h0 := a.isLt
  have h1 := b.isLt
  show pack 0x20000001 [(a.val, 14), (b.val, 9)] < 2 ^ 32
  simp only [pack]
  omega

theorem maccrd (t : TileNo) (d : Reg) (a : Reg) : Statement (.maccrd t d a) := by
  have h0 := t.isLt
  have h1 := d.isLt
  have h2 := a.isLt
  show pack 0x24000000 [(t.val, 24), (d.val, 19), (a.val, 14)] < 2 ^ 32
  simp only [pack]
  omega

theorem maccrdRow (t : TileNo) (a : Reg) (b : Reg) : Statement (.maccrdRow t a b) := by
  have h0 := t.isLt
  have h1 := a.isLt
  have h2 := b.isLt
  show pack 0x24000001 [(t.val, 24), (a.val, 14), (b.val, 9)] < 2 ^ 32
  simp only [pack]
  omega

theorem maccwr (t : TileNo) (a : Reg) (b : Reg) : Statement (.maccwr t a b) := by
  have h0 := t.isLt
  have h1 := a.isLt
  have h2 := b.isLt
  show pack 0x28000000 [(t.val, 24), (a.val, 14), (b.val, 9)] < 2 ^ 32
  simp only [pack]
  omega

theorem maccwrRow (t : TileNo) (a : Reg) (b : Reg) : Statement (.maccwrRow t a b) := by
  have h0 := t.isLt
  have h1 := a.isLt
  have h2 := b.isLt
  show pack 0x28000001 [(t.val, 24), (a.val, 14), (b.val, 9)] < 2 ^ 32
  simp only [pack]
  omega

theorem mwait (d : Reg) (c : MWaitCond) : Statement (.mwait d c) := by
  have h0 := d.isLt
  have h1 := mwaitcond_code_lt c
  show pack 0x2C000000 [(d.val, 19), (c.code, 0)] < 2 ^ 32
  simp only [pack]
  omega

theorem mAload (p : ParamReg) (q : ParamReg) : Statement (.mAload p q) := by
  have h0 := p.isLt
  have h1 := q.isLt
  show pack 0x400000000000000 [(p.val, 55), (q.val, 52)] < 2 ^ 64
  simp only [pack]
  omega

theorem mBload (p : ParamReg) (q : ParamReg) : Statement (.mBload p q) := by
  have h0 := p.isLt
  have h1 := q.isLt
  show pack 0x800000000000000 [(p.val, 55), (q.val, 52)] < 2 ^ 64
  simp only [pack]
  omega

theorem mStep (acc : Bool) (tr : Bool) : Statement (.mStep acc tr) := by
  have h0 := Bool.toNat_lt acc
  have h1 := Bool.toNat_lt tr
  show pack 0xC00000000000000 [(acc.toNat, 57), (tr.toNat, 56)] < 2 ^ 64
  simp only [pack]
  omega

theorem mLoop (l : LoopNo) (n : BitVec 16) : Statement (.mLoop l n) := by
  have h0 := l.isLt
  have h1 := n.isLt
  show pack 0x1000000000000000 [(l.val, 56), (n.toNat, 0)] < 2 ^ 64
  simp only [pack]
  omega

theorem mEndloop (l : LoopNo) : Statement (.mEndloop l) := by
  have h0 := l.isLt
  show pack 0x1400000000000000 [(l.val, 56)] < 2 ^ 64
  simp only [pack]
  omega

theorem mAddp (p : ParamReg) (q : ParamReg) (src : AddSrc) (imm : BitVec 48) : Statement (.mAddp p q src imm) := by
  have h0 := p.isLt
  have h1 := q.isLt
  have h2 := addsrc_code_lt src
  have h3 := imm.isLt
  show pack 0x1800000000000000 [(p.val, 55), (q.val, 52), (src.code, 48), (imm.toNat, 0)] < 2 ^ 64
  simp only [pack]
  omega

theorem mSetp (p : ParamReg) (q : ParamReg) (src : SetSrc) (imm : BitVec 48) : Statement (.mSetp p q src imm) := by
  have h0 := p.isLt
  have h1 := q.isLt
  have h2 := setsrc_code_lt src
  have h3 := imm.isLt
  show pack 0x1C00000000000000 [(p.val, 55), (q.val, 52), (src.code, 48), (imm.toNat, 0)] < 2 ^ 64
  simp only [pack]
  omega

theorem mJcmp (p : ParamReg) (q : ParamReg) (cc : MicroCond) (f : MicroField) (tgt : BitVec 12) : Statement (.mJcmp p q cc f tgt) := by
  have h0 := p.isLt
  have h1 := q.isLt
  have h2 := microcond_code_lt cc
  have h3 := microfield_code_lt f
  have h4 := tgt.isLt
  show pack 0x2000000000000000 [(p.val, 55), (q.val, 52), (cc.code, 49), (f.code, 46), (tgt.toNat, 0)] < 2 ^ 64
  simp only [pack]
  omega

theorem mZero (tr : Bool) : Statement (.mZero tr) := by
  have h0 := Bool.toNat_lt tr
  show pack 0x2400000000000000 [(tr.toNat, 56)] < 2 ^ 64
  simp only [pack]
  omega

theorem mDrain (p : ParamReg) (g : ParamReg) (t : ParamReg) (z : Bool) (nw : Bool) (mode : DrainMode) (sl : Bool) : Statement (.mDrain p g t z nw mode sl) := by
  have h0 := p.isLt
  have h1 := g.isLt
  have h2 := t.isLt
  have h3 := Bool.toNat_lt z
  have h4 := Bool.toNat_lt nw
  have h5 := drainmode_code_lt mode
  have h6 := Bool.toNat_lt sl
  show pack 0x2800000000000000 [(p.val, 55), (g.val, 52), (t.val, 49), (z.toNat, 48), (nw.toNat, 47), (mode.code, 45), (sl.toNat, 44)] < 2 ^ 64
  simp only [pack]
  omega

theorem mSeal : Statement (.mSeal) := by
  show 0x2C00000000000000 < 2 ^ 64
  decide

theorem mShape (p : ParamReg) (q : ParamReg) (g : ParamReg) : Statement (.mShape p q g) := by
  have h0 := p.isLt
  have h1 := q.isLt
  have h2 := g.isLt
  show pack 0x3000000000000000 [(p.val, 55), (q.val, 52), (g.val, 49)] < 2 ^ 64
  simp only [pack]
  omega

theorem mFmt (fa : BitVec 8) (fb : BitVec 8) : Statement (.mFmt fa fb) := by
  have h0 := fa.isLt
  have h1 := fb.isLt
  show pack 0x3400000000000000 [(fa.toNat, 50), (fb.toNat, 42)] < 2 ^ 64
  simp only [pack]
  omega

theorem mPermit (n : BitVec 16) : Statement (.mPermit n) := by
  have h0 := n.isLt
  show pack 0x3800000000000000 [(n.toNat, 0)] < 2 ^ 64
  simp only [pack]
  omega

theorem mEnd : Statement (.mEnd) := by
  show 0x3C00000000000000 < 2 ^ 64
  decide

theorem nopCopy (q : CopyQ) : Statement (.nopCopy q) := by
  show 0x0 < 2 ^ 32
  decide

theorem cpy (q : CopyQ) (t : Reg) (a : Reg) (b : Reg) (c : Reg) : Statement (.cpy q t a b c) := by
  have h0 := t.isLt
  have h1 := a.isLt
  have h2 := b.isLt
  have h3 := c.isLt
  show pack 0x4000000 [(t.val, 21), (a.val, 16), (b.val, 11), (c.val, 6)] < 2 ^ 32
  simp only [pack]
  omega

theorem cpy2 (q : CopyQ) (t : Reg) (a : Reg) (b : Reg) (c : Reg) : Statement (.cpy2 q t a b c) := by
  have h0 := t.isLt
  have h1 := a.isLt
  have h2 := b.isLt
  have h3 := c.isLt
  show pack 0x8000000 [(t.val, 21), (a.val, 16), (b.val, 11), (c.val, 6)] < 2 ^ 32
  simp only [pack]
  omega

theorem cpyb (q : CopyQ) (t : Reg) (a : Reg) (b : Reg) (i : BitVec 11) : Statement (.cpyb q t a b i) := by
  have h0 := t.isLt
  have h1 := a.isLt
  have h2 := b.isLt
  have h3 := i.isLt
  show pack 0xC000000 [(t.val, 21), (a.val, 16), (b.val, 11), (i.toNat, 0)] < 2 ^ 32
  simp only [pack]
  omega

theorem acc (q : CopyQ) (t : Reg) (a : Reg) (b : Reg) (c : Reg) (u : Bool) (o : AccOp) : Statement (.acc q t a b c u o) := by
  have h0 := t.isLt
  have h1 := a.isLt
  have h2 := b.isLt
  have h3 := c.isLt
  have h4 := Bool.toNat_lt u
  have h5 := accop_code_lt o
  show pack 0x10000000 [(t.val, 21), (a.val, 16), (b.val, 11), (c.val, 6), (u.toNat, 5), (o.code, 0)] < 2 ^ 32
  simp only [pack]
  omega

theorem cas (q : CopyQ) (t : Reg) (a : Reg) (b : Reg) (c : Reg) (u : Bool) (z : AtomSize) : Statement (.cas q t a b c u z) := by
  have h0 := t.isLt
  have h1 := a.isLt
  have h2 := b.isLt
  have h3 := c.isLt
  have h4 := Bool.toNat_lt u
  have h5 := atomsize_code_lt z
  show pack 0x14000000 [(t.val, 21), (a.val, 16), (b.val, 11), (c.val, 6), (u.toNat, 5), (z.code, 0)] < 2 ^ 32
  simp only [pack]
  omega

theorem faa (q : CopyQ) (t : Reg) (a : Reg) (b : Reg) (u : Bool) (z : AtomSize) : Statement (.faa q t a b u z) := by
  have h0 := t.isLt
  have h1 := a.isLt
  have h2 := b.isLt
  have h3 := Bool.toNat_lt u
  have h4 := atomsize_code_lt z
  show pack 0x18000000 [(t.val, 21), (a.val, 16), (b.val, 11), (u.toNat, 5), (z.code, 0)] < 2 ^ 32
  simp only [pack]
  omega

theorem xchg (q : CopyQ) (t : Reg) (a : Reg) (b : Reg) (u : Bool) (z : AtomSize) : Statement (.xchg q t a b u z) := by
  have h0 := t.isLt
  have h1 := a.isLt
  have h2 := b.isLt
  have h3 := Bool.toNat_lt u
  have h4 := atomsize_code_lt z
  show pack 0x1C000000 [(t.val, 21), (a.val, 16), (b.val, 11), (u.toNat, 5), (z.code, 0)] < 2 ^ 32
  simp only [pack]
  omega

theorem fput (q : CopyQ) (t : Reg) (a : Reg) (b : Reg) (u : Bool) : Statement (.fput q t a b u) := by
  have h0 := t.isLt
  have h1 := a.isLt
  have h2 := b.isLt
  have h3 := Bool.toNat_lt u
  show pack 0x20000000 [(t.val, 21), (a.val, 16), (b.val, 11), (u.toNat, 5)] < 2 ^ 32
  simp only [pack]
  omega

theorem subs (q : CopyQ) (t : Reg) (a : Reg) (d : RingDir) (s : Fin 64) : Statement (.subs q t a d s) := by
  have h0 := t.isLt
  have h1 := a.isLt
  have h2 := ringdir_code_lt d
  have h3 := s.isLt
  show pack 0x24000000 [(t.val, 21), (a.val, 16), (d.code, 6), (s.val, 0)] < 2 ^ 32
  simp only [pack]
  omega

theorem unsub (q : CopyQ) (t : Reg) (s : Fin 64) : Statement (.unsub q t s) := by
  have h0 := t.isLt
  have h1 := s.isLt
  show pack 0x28000000 [(t.val, 21), (s.val, 0)] < 2 ^ 32
  simp only [pack]
  omega

theorem slotrel (q : CopyQ) (t : Reg) (s : Fin 64) : Statement (.slotrel q t s) := by
  have h0 := t.isLt
  have h1 := s.isLt
  show pack 0x2C000000 [(t.val, 21), (s.val, 0)] < 2 ^ 32
  simp only [pack]
  omega

theorem publ (q : CopyQ) (t : Reg) (a : Reg) (b : Reg) (s : Scope) : Statement (.publ q t a b s) := by
  have h0 := t.isLt
  have h1 := a.isLt
  have h2 := b.isLt
  have h3 := scope_code_lt s
  show pack 0x30000000 [(t.val, 21), (a.val, 16), (b.val, 11), (s.code, 0)] < 2 ^ 32
  simp only [pack]
  omega

theorem cfence (q : CopyQ) (t : Reg) (c : BitVec 3) : Statement (.cfence q t c) := by
  have h0 := t.isLt
  have h1 := c.isLt
  show pack 0x34000000 [(t.val, 21), (c.toNat, 0)] < 2 ^ 32
  simp only [pack]
  omega

theorem cpys (q : CopyQ) (t : Reg) (a : Reg) (c : Reg) (l : TileNo) : Statement (.cpys q t a c l) := by
  have h0 := t.isLt
  have h1 := a.isLt
  have h2 := c.isLt
  have h3 := l.isLt
  show pack 0x38000000 [(t.val, 21), (a.val, 16), (c.val, 6), (l.val, 0)] < 2 ^ 32
  simp only [pack]
  omega

theorem coll (q : CopyQ) (t : Reg) (a : Reg) (b : Reg) (c : Reg) (o : CollOp) (k : CollKind) : Statement (.coll q t a b c o k) := by
  have h0 := t.isLt
  have h1 := a.isLt
  have h2 := b.isLt
  have h3 := c.isLt
  have h4 := collop_code_lt o
  have h5 := collkind_code_lt k
  show pack 0x3C000000 [(t.val, 21), (a.val, 16), (b.val, 11), (c.val, 6), (o.code, 2), (k.code, 0)] < 2 ^ 32
  simp only [pack]
  omega

theorem nopSys : Statement (.nopSys) := by
  show 0x0 < 2 ^ 32
  decide

theorem spawn (d : Reg) (a : Reg) : Statement (.spawn d a) := by
  have h0 := d.isLt
  have h1 := a.isLt
  show pack 0x4000000 [(d.val, 21), (a.val, 16)] < 2 ^ 32
  simp only [pack]
  omega

theorem spawnl (d : Reg) (a : Reg) (b : Reg) : Statement (.spawnl d a b) := by
  have h0 := d.isLt
  have h1 := a.isLt
  have h2 := b.isLt
  show pack 0x8000000 [(d.val, 21), (a.val, 16), (b.val, 11)] < 2 ^ 32
  simp only [pack]
  omega

theorem join (d : Reg) : Statement (.join d) := by
  have h0 := d.isLt
  show pack 0xC000000 [(d.val, 21)] < 2 ^ 32
  simp only [pack]
  omega

theorem merge : Statement (.merge) := by
  show 0x10000000 < 2 ^ 32
  decide

theorem yield : Statement (.yield) := by
  show 0x14000000 < 2 ^ 32
  decide

theorem tinfo (d : Reg) (i : TItem) : Statement (.tinfo d i) := by
  have h0 := d.isLt
  have h1 := titem_code_lt i
  show pack 0x18000000 [(d.val, 21), (i.code, 0)] < 2 ^ 32
  simp only [pack]
  omega

theorem viewa (d : Reg) (a : Reg) : Statement (.viewa d a) := by
  have h0 := d.isLt
  have h1 := a.isLt
  show pack 0x1C000000 [(d.val, 21), (a.val, 16)] < 2 ^ 32
  simp only [pack]
  omega

theorem fget (d : Reg) (a : Reg) : Statement (.fget d a) := by
  have h0 := d.isLt
  have h1 := a.isLt
  show pack 0x20000000 [(d.val, 21), (a.val, 16)] < 2 ^ 32
  simp only [pack]
  omega

theorem fwaitSpin (d : Reg) (a : Reg) (b : Reg) : Statement (.fwaitSpin d a b) := by
  have h0 := d.isLt
  have h1 := a.isLt
  have h2 := b.isLt
  show pack 0x24000000 [(d.val, 21), (a.val, 16), (b.val, 11)] < 2 ^ 32
  simp only [pack]
  omega

theorem fwaitYield (d : Reg) (a : Reg) (b : Reg) : Statement (.fwaitYield d a b) := by
  have h0 := d.isLt
  have h1 := a.isLt
  have h2 := b.isLt
  show pack 0x24000001 [(d.val, 21), (a.val, 16), (b.val, 11)] < 2 ^ 32
  simp only [pack]
  omega

theorem runinl (d : Reg) (a : Reg) : Statement (.runinl d a) := by
  have h0 := d.isLt
  have h1 := a.isLt
  show pack 0x28000000 [(d.val, 21), (a.val, 16)] < 2 ^ 32
  simp only [pack]
  omega

theorem gjoin (d : Reg) (a : Reg) : Statement (.gjoin d a) := by
  have h0 := d.isLt
  have h1 := a.isLt
  show pack 0x2C000000 [(d.val, 21), (a.val, 16)] < 2 ^ 32
  simp only [pack]
  omega

theorem gleave (a : Reg) : Statement (.gleave a) := by
  have h0 := a.isLt
  show pack 0x30000000 [(a.val, 16)] < 2 ^ 32
  simp only [pack]
  omega

theorem arrive (d : Reg) (a : Reg) : Statement (.arrive d a) := by
  have h0 := d.isLt
  have h1 := a.isLt
  show pack 0x34000000 [(d.val, 21), (a.val, 16)] < 2 ^ 32
  simp only [pack]
  omega

theorem arriveDrop (d : Reg) (a : Reg) : Statement (.arriveDrop d a) := by
  have h0 := d.isLt
  have h1 := a.isLt
  show pack 0x34000001 [(d.val, 21), (a.val, 16)] < 2 ^ 32
  simp only [pack]
  omega

theorem bwait (d : Reg) (a : Reg) (b : Reg) : Statement (.bwait d a b) := by
  have h0 := d.isLt
  have h1 := a.isLt
  have h2 := b.isLt
  show pack 0x38000000 [(d.val, 21), (a.val, 16), (b.val, 11)] < 2 ^ 32
  simp only [pack]
  omega

theorem sstep (d : Reg) (a : Reg) : Statement (.sstep d a) := by
  have h0 := d.isLt
  have h1 := a.isLt
  show pack 0x3C000000 [(d.val, 21), (a.val, 16)] < 2 ^ 32
  simp only [pack]
  omega

theorem tcexp (a : Reg) (s : Fin 64) : Statement (.tcexp a s) := by
  have h0 := a.isLt
  have h1 := s.isLt
  show pack 0x40000000 [(a.val, 16), (s.val, 0)] < 2 ^ 32
  simp only [pack]
  omega

theorem tcwait (d : Reg) (s : Fin 64) : Statement (.tcwait d s) := by
  have h0 := d.isLt
  have h1 := s.isLt
  show pack 0x44000000 [(d.val, 21), (s.val, 0)] < 2 ^ 32
  simp only [pack]
  omega

theorem lease (d : Reg) (a : Reg) (b : Reg) : Statement (.lease d a b) := by
  have h0 := d.isLt
  have h1 := a.isLt
  have h2 := b.isLt
  show pack 0x48000000 [(d.val, 21), (a.val, 16), (b.val, 11)] < 2 ^ 32
  simp only [pack]
  omega

theorem leaserel (d : Reg) : Statement (.leaserel d) := by
  have h0 := d.isLt
  show pack 0x4C000000 [(d.val, 21)] < 2 ^ 32
  simp only [pack]
  omega

theorem permit (d : Reg) (a : Reg) : Statement (.permit d a) := by
  have h0 := d.isLt
  have h1 := a.isLt
  show pack 0x50000000 [(d.val, 21), (a.val, 16)] < 2 ^ 32
  simp only [pack]
  omega

theorem segs (m : SegRest) (n : BitVec 5) : Statement (.segs m n) := by
  have h0 := segrest_code_lt m
  have h1 := n.isLt
  show pack 0x54000000 [(m.code, 8), (n.toNat, 0)] < 2 ^ 32
  simp only [pack]
  omega

theorem trap (n : BitVec 15) : Statement (.trap n) := by
  have h0 := n.isLt
  show pack 0x58000000 [(n.toNat, 0)] < 2 ^ 32
  simp only [pack]
  omega

theorem trapDup (n : BitVec 15) : Statement (.trapDup n) := by
  have h0 := n.isLt
  show pack 0x58008000 [(n.toNat, 0)] < 2 ^ 32
  simp only [pack]
  omega

theorem utret : Statement (.utret) := by
  show 0x5C000000 < 2 ^ 32
  decide

theorem vdist (d : Reg) (a : Reg) (b : Reg) : Statement (.vdist d a b) := by
  have h0 := d.isLt
  have h1 := a.isLt
  have h2 := b.isLt
  show pack 0x60000000 [(d.val, 21), (a.val, 16), (b.val, 11)] < 2 ^ 32
  simp only [pack]
  omega

theorem vdmap (d : Reg) (a : Reg) : Statement (.vdmap d a) := by
  have h0 := d.isLt
  have h1 := a.isLt
  show pack 0x64000000 [(d.val, 21), (a.val, 16)] < 2 ^ 32
  simp only [pack]
  omega

theorem powerOnReset : Statement .powerOnReset := rfl

theorem deviceReset : Statement .deviceReset := rfl

theorem functionLevelReset : Statement .functionLevelReset := rfl

theorem timeBaseTick : Statement .timeBaseTick := rfl

theorem timeBaseStop : Statement .timeBaseStop := rfl

theorem firmwareInit : Statement .firmwareInit := rfl

theorem bundleFetch : Statement .bundleFetch := rfl

theorem shadowCheckVerdict : Statement .shadowCheckVerdict := rfl

theorem vchkVerdict : Statement .vchkVerdict := rfl

theorem deferredFault : Statement .deferredFault := rfl

theorem loadDataArrival : Statement .loadDataArrival := rfl

theorem requestTimeout : Statement .requestTimeout := rfl

theorem dirtyLineEviction : Statement .dirtyLineEviction := rfl

theorem pageWalk : Statement .pageWalk := rfl

theorem tlbInvalidateAck : Statement .tlbInvalidateAck := rfl

theorem replicaResync : Statement .replicaResync := rfl

theorem pierEntryLeave : Statement .pierEntryLeave := rfl

theorem implicitSeal : Statement .implicitSeal := rfl

theorem drainRowLeave : Statement .drainRowLeave := rfl

theorem sealVerdict : Statement .sealVerdict := rfl

theorem keystoneVerdict : Statement .keystoneVerdict := rfl

theorem mwaitFill : Statement .mwaitFill := rfl

theorem tokenGrant : Statement .tokenGrant := rfl

theorem refillEpoch : Statement .refillEpoch := rfl

theorem leaseExpiry : Statement .leaseExpiry := rfl

theorem wearMeasurement : Statement .wearMeasurement := rfl

theorem portPrefetch : Statement .portPrefetch := rfl

theorem segmentWake : Statement .segmentWake := rfl

theorem copyComplete : Statement .copyComplete := rfl

theorem copyResume : Statement .copyResume := rfl

theorem atomicApply : Statement .atomicApply := rfl

theorem atomicBusyRetry : Statement .atomicBusyRetry := rfl

theorem atomicResend : Statement .atomicResend := rfl

theorem subscriptionAccept : Statement .subscriptionAccept := rfl

theorem loaderPush : Statement .loaderPush := rfl

theorem storerPull : Statement .storerPull := rfl

theorem cpysReceive : Statement .cpysReceive := rfl

theorem publSwap : Statement .publSwap := rfl

theorem peerRequest : Statement .peerRequest := rfl

theorem collComplete : Statement .collComplete := rfl

theorem collTimeout : Statement .collTimeout := rfl

theorem gangCycle : Statement .gangCycle := rfl

theorem tcwaitPhaseComplete : Statement .tcwaitPhaseComplete := rfl

theorem fgetResponse : Statement .fgetResponse := rfl

theorem fwaitTimeout : Statement .fwaitTimeout := rfl

theorem rootAdmission : Statement .rootAdmission := rfl

theorem taskAdmission : Statement .taskAdmission := rfl

theorem depcntDecrement : Statement .depcntDecrement := rfl

theorem taskPick : Statement .taskPick := rfl

theorem tickSlip : Statement .tickSlip := rfl

theorem joinSuspendTimeout : Statement .joinSuspendTimeout := rfl

theorem combine : Statement .combine := rfl

theorem resourceResolution : Statement .resourceResolution := rfl

theorem pageFaultResolution : Statement .pageFaultResolution := rfl

theorem hangWatchdog : Statement .hangWatchdog := rfl

theorem saveDeadline : Statement .saveDeadline := rfl

theorem schedulerTakeover : Statement .schedulerTakeover := rfl

theorem takeoverComplete : Statement .takeoverComplete := rfl

theorem spawnWindowWrite : Statement .spawnWindowWrite := rfl

theorem consumedWrite : Statement .consumedWrite := rfl

theorem apertureWrite : Statement .apertureWrite := rfl

theorem apertureRead : Statement .apertureRead := rfl

theorem registerWrite : Statement .registerWrite := rfl

theorem fwload : Statement .fwload := rfl

theorem ctxcreate : Statement .ctxcreate := rfl

theorem ctxdestroy : Statement .ctxdestroy := rfl

theorem streamcreate : Statement .streamcreate := rfl

theorem tupd : Statement .tupd := rfl

theorem ctxparam : Statement .ctxparam := rfl

theorem preempt : Statement .preempt := rfl

theorem restore : Statement .restore := rfl

theorem streamabort : Statement .streamabort := rfl

theorem capture : Statement .capture := rfl

theorem resync : Statement .resync := rfl

theorem pagefail : Statement .pagefail := rfl

theorem storeAcknowledgement : Statement .storeAcknowledgement := rfl

end Sys2Proof.Laws.WordFits
end

