-- ==== Sys2Proof/Tests/Slice0.lean ====
section
/-!
SUPPORT. Tests: words written out from the encodings, ill-formed terms, one step at a time, and a witness for the hypotheses of
each statement.
-/
set_option linter.unusedVariables false
set_option maxRecDepth 4000

namespace Sys2Proof.Tests

set_option Elab.async false  -- one proof at a time: fewer threads

open Sys2Proof Sys2Proof.Machine

/-! ### Words of the encodings (spec/02 R34, R35, spec/09 R190), fields written from bit 31 or 63 down -/

def reads (sl : Slot) (w : BitVec 32) (i : Instr) : Bool := (decodeSlot sl w.toNat).toOption == some i
def readsMicro (w : BitVec 64) (i : Instr) : Bool := (decodeMicro w.toNat).toOption == some i
def rejects (sl : Slot) (w : BitVec 32) : Bool := (decodeSlot sl w.toNat).toOption.isNone

theorem test_word_add_w : reads .ctl (1#6 ++ 3#5 ++ 4#5 ++ 5#5 ++ 1#1 ++ 0#5 ++ 0#5) (.add 3 4 5 true) = true := by decide +kernel
theorem test_word_mul : reads .ctl (1#6 ++ 7#5 ++ 6#5 ++ 6#5 ++ 0#1 ++ 0#5 ++ 14#5) (.mul 7 6 6 false) = true := by decide +kernel
theorem test_word_int_reserved : rejects .ctl (1#6 ++ 7#5 ++ 6#5 ++ 6#5 ++ 0#1 ++ 1#5 ++ 14#5) = true := by decide +kernel
theorem test_word_addi : reads .ctl (2#6 ++ 3#5 ++ 4#5 ++ 0xFFFF#16) (.addi 3 4 0xFFFF) = true := by decide +kernel
theorem test_word_srai_w : reads .ctl 0x1864A004#32 (.srai 3 4 true 4) = true := by decide +kernel
theorem test_word_cmp : reads .ctl (9#6 ++ 2#3 ++ 0#2 ++ 4#5 ++ 5#5 ++ 1#1 ++ 0#7 ++ 4#3) (.cmp 2 4 5 true .ltu) = true := by
  decide +kernel
theorem test_word_cmpi : reads .ctl (10#6 ++ 1#3 ++ 2#3 ++ 4#5 ++ 0x7FFF#15) (.cmpi 1 .lt 4 0x7FFF) = true := by decide +kernel
theorem test_word_por : reads .ctl (11#6 ++ 1#3 ++ 0#2 ++ 0#3 ++ 1#1 ++ 0#1 ++ 0#3 ++ 1#1 ++ 0#1 ++ 0#9 ++ 1#2)
    (.por 1 0 true 0 true) = true := by decide +kernel
theorem test_word_sel : reads .ctl (12#6 ++ 1#5 ++ 2#5 ++ 3#5 ++ 0#7 ++ 1#1 ++ 6#3) (.sel 1 2 3 true 6) = true := by decide +kernel
theorem test_word_br : reads .ctl (13#6 ++ 5#3 ++ 1#1 ++ 0#1 ++ 0#5 ++ 0xFFFE#16) (.br 5 true 0xFFFE) = true := by decide +kernel
theorem test_word_jmp : reads .ctl (15#6 ++ 0x3FFFFFF#26) (.jmp 0x3FFFFFF) = true := by decide +kernel
theorem test_word_loop : reads .ctl (18#6 ++ 0#2 ++ 0#3 ++ 4#5 ++ 4#16) (.loop 0 4 4) = true := by decide +kernel
theorem test_word_fadd_rtz : reads .ctl (19#6 ++ 3#5 ++ 4#5 ++ 5#5 ++ 1#3 ++ 0#8) (.fadd 3 4 5 .rtz) = true := by decide +kernel
theorem test_word_rdsr : reads .ctl (23#6 ++ 4#5 ++ 0#5 ++ 0x0010#16) (.rdsr 4 .frame) = true := by decide +kernel
theorem test_word_rdsr_index : rejects .ctl (23#6 ++ 4#5 ++ 0#5 ++ 0x0005#16) = true := by decide +kernel
theorem test_word_gcfg : reads .ctl 0x64050010#32 (.gcfg 5 (.lvl 0) 0) = true := by decide +kernel
theorem test_word_gseek : reads .ctl 0x68043003#32 (.gseek 4 3) = true := by decide +kernel
theorem test_word_vsetk : reads .ctl 0x6C070000#32 (.vsetk 7) = true := by decide +kernel
theorem test_word_ld : reads .mem (1#6 ++ 3#5 ++ 4#5 ++ 0x3FF#10 ++ 2#2 ++ 1#2 ++ 3#2) (.ld 3 4 0x3FF (.sync .package) .d) = true := by
  decide +kernel
theorem test_word_ld_ord : rejects .mem (1#6 ++ 3#5 ++ 4#5 ++ 0#10 ++ 0#2 ++ 2#2 ++ 3#2) = true := by decide +kernel
theorem test_word_ldx : reads .mem 0x184C0000#32 (.ldx 2 12 0 .plain) = true := by decide +kernel
theorem test_word_ldg : reads .mem (10#6 ++ 1#5 ++ 2#5 ++ 3#5 ++ 0#10 ++ 1#1) (.ldg 1 2 3 true) = true := by decide +kernel
theorem test_word_vadd : reads .va (1#6 ++ 49#6 ++ 48#6 ++ 63#6 ++ 0#1 ++ 0#1 ++ 1#3 ++ 0#3) (.vadd .va (.g 1) (.g 0) .k .f32 0) = true := by
  decide +kernel
theorem test_word_vadd_named : reads .vb (1#6 ++ 18#6 ++ 0#6 ++ 16#6 ++ 0#1 ++ 1#1 ++ 1#3 ++ 7#3)
    (.vadd .vb (.v 2) (.q 0) (.v 0 true) .f32 7) = true := by decide +kernel
theorem test_word_vcmp : reads .va (16#6 ++ 2#3 ++ 2#3 ++ 17#6 ++ 18#6 ++ 0#1 ++ 0#1 ++ 1#3 ++ 0#3)
    (.vcmp .va .lt 2 (.v 1 false) (.v 2 false) .f32 0) = true := by decide +kernel
theorem test_word_vcvt : reads .va 0x4D245208#32 (.vcvt .va (.v 2) (.v 1 false) 1 .bf16x2 .f32 0) = true := by decide +kernel
theorem test_word_vperm_vb : rejects .vb (32#6 ++ 0#6 ++ 0#6 ++ 0#6 ++ 0#8) = true := by decide +kernel
theorem test_word_msetpi : reads .mx (2#6 ++ 1#3 ++ 64#23) (.msetpi 1 64) = true := by decide +kernel
theorem test_word_mcall : reads .mx (3#6 ++ 1#1 ++ 0#1 ++ 1#2 ++ 32#8 ++ 0#14) (.mcall true false 1 32) = true := by decide +kernel
theorem test_word_mdrain : reads .mx (5#6 ++ 2#2 ++ 1#5 ++ 2#5 ++ 3#5 ++ 0#4 ++ 1#1 ++ 0#1 ++ 2#2 ++ 1#1)
    (.mdrain 2 1 2 3 true false .tag true) = true := by decide +kernel
theorem test_word_cas : reads .ca 0x168A5B03#32 (.cas .ca 20 10 11 12 false .d) = true := by decide +kernel
theorem test_word_faa_w : reads .cb (6#6 ++ 22#5 ++ 13#5 ++ 3#5 ++ 0#5 ++ 0#1 ++ 0#3 ++ 2#2) (.faa .cb 22 13 3 false .w) = true := by
  decide +kernel
theorem test_word_slotrel : reads .ca (11#6 ++ 26#5 ++ 0#5 ++ 0#5 ++ 0#5 ++ 9#6) (.slotrel .ca 26 9) = true := by decide +kernel
theorem test_word_spawnl : reads .sys (2#6 ++ 5#5 ++ 10#5 ++ 11#5 ++ 0#11) (.spawnl 5 10 11) = true := by decide +kernel
theorem test_word_trap : reads .sys (22#6 ++ 0#5 ++ 0#5 ++ 0#1 ++ 5#15) (.trap 5) = true := by decide +kernel
theorem test_word_trap_dup : reads .sys 0x58008000#32 (.trapDup 0) = true := by decide +kernel
theorem test_word_segs : reads .sys 0x54000104#32 (.segs .off 4) = true := by decide +kernel
theorem test_word_utret : reads .sys (23#6 ++ 0#26) .utret = true := by decide +kernel
theorem test_word_mjcmp : readsMicro (8#6 ++ 7#3 ++ 4#3 ++ 0#3 ++ 3#3 ++ 0#34 ++ 1026#12) (.mJcmp 7 4 .lt (.part 2) 1026) = true := by
  decide +kernel
theorem test_word_mstep : readsMicro (3#6 ++ 1#1 ++ 0#57) (.mStep true false) = true := by decide +kernel
theorem test_word_micro_reserved : (decodeMicro (3#6 ++ 1#1 ++ 0#56 ++ 1#1 : BitVec 64).toNat).toOption.isNone = true := by decide +kernel
theorem test_words_agree : (1#6 ++ 7#5 ++ 6#5 ++ 6#5 ++ 0#1 ++ 0#5 ++ 14#5 : BitVec 32) = 0x04E6300E#32 := by decide +kernel

/-! ### Ill-formed terms, one for each check of Instr.wf -/

theorem test_ill_formed :
    ([.slli 1 2 true 32, .srli 1 2 true 63, .srai 1 2 true 32, .roli 1 2 true 32, .lds 1 2 0 .plain .d,
      .vmulh .va .queue (.q 0) (.q 1) .f32 0, .vshl .vb .queue (.q 0) (.q 1) .bf16x2 0, .vshr .va .queue (.q 0) (.q 1) .f16x2 0,
      .vabs .va .queue (.q 0) .ui32 0, .vneg .va .queue (.q 0) .ui32 0, .vfma .va (.v 1 true) (.q 0) (.q 1) .f32 0,
      .vfma .va (.v 1 false) (.q 0) (.q 1) .i32 0, .vcmp .va .eq 0 (.q 0) (.q 1) .i32 0, .vcmp .va .eq 1 (.q 0) (.q 1) .bf16x2 0,
      .vcvt .va .queue (.q 0) 0 .f32 .f32 0, .vcvt .va .queue (.q 0) 1 .i32 .f32 0, .vcvt .va .queue (.q 0) 2 .bf16x2 .f32 0,
      .vcvt .va .queue (.q 0) 0 .bf16x2 .f32 1, .vmaskAnd .va 0 1 2, .vmaskOr .va 0 1 2, .vmaskXor .vb 0 1 2, .vmaskAndn .va 0 1 2,
      .vmaskNot .va 0 1, .vmaskNz .va 0 (.q 0), .vmaskCnt .va 0 (.q 0), .vrsum .queue (.q 0) .bf16x2 0, .vrmax .queue (.q 0) .i8x4 0,
      .vscan .queue (.q 0) .i16x2 0, .cfence .ca 1 0, .coll .ca 1 2 3 4 .addI32 .ag, .segs .off 0, .segs .retain 17,
      .mAddp 0 1 .wp 1] : List Instr).all (fun i => !i.wf) = true := by decide +kernel

theorem test_well_formed :
    ([.slli 1 2 true 31, .slli 1 2 false 63, .lds 1 2 0 .plain .w, .vmulh .va .queue (.q 0) (.q 1) .ui32 0,
      .vfma .va (.v 1 false) (.q 0) (.q 1) .f32 0, .vcvt .va .queue (.q 0) 1 .bf16x2 .f32 0, .vmaskNot .va 7 0,
      .coll .ca 1 2 3 4 .addF32 .ag, .segs .off 1, .segs .retain 16, .mAddp 0 1 .imm 1, .mSetp 0 1 .wp 1] : List Instr).all Instr.wf = true := by
  decide +kernel

/-! ### One step: the instruction placed at the pc runs -/

def setS (r : Reg) (x : Word) (s : State) : State := s.modA (fun a => { a with s := a.s.set r x })
def has (o : Host.Outcome State Fault Refusal) (p : State → Bool) : Bool :=
  match o with
  | .next t => p t
  | _ => false
def placed (w : BitVec 32) : State := State.reset.withFetchWord 32 w.toNat
def inSlot (sl : Slot) (w : BitVec 32) : State := State.reset.withBundle (bundleWith sl w.toNat)
def placedMicro (w : BitVec 64) : State := State.reset.withFetchWord 64 w.toNat
def landings (t : State) : List (Nat × Landing) := t.core.a.flights.flatMap (fun f => f.lands.map (fun l => (f.left, l)))

theorem test_step_add_w : has (step (setS 4 0x7FFFFFFF (setS 5 1 (placed 0x04642C00))))
    (fun t => landings t == [(1, .s 3 0xFFFFFFFF80000000)] && t.core.a.pc == 0x10020) = true := by decide +kernel
theorem test_step_mul : has (step (setS 6 0x100000001 (placed 0x04E6300E)))
    (fun t => landings t == [(3, .s 7 0x200000001)]) = true := by decide +kernel
theorem test_step_movhi : has (step (setS 0 0 (placed 0x1C600123))) (fun t => landings t == [(1, .s 3 0x123)]) = true := by decide +kernel
theorem test_step_bnz : has (step (setS 5 1 (placed 0x38450004)))
    (fun t => t.core.a.pend.any (fun p => p.target == 0x10080 && p.left == 2) && t.core.a.pc == 0x10020) = true := by decide +kernel
theorem test_step_bnz_not_taken : has (step (placed 0x38450004)) (fun t => t.core.a.pend.isNone) = true := by decide +kernel
theorem test_step_loop : has (step (setS 4 3 (placed 0x48040004)))
    (fun t => t.core.a.loops[0] == ⟨true, 0x10020, 0x10080, 3⟩ && t.core.a.order == [0]) = true := by decide +kernel
theorem test_step_fadd_rtz : has (step (setS 4 0x3F800000 (setS 5 0x33000000 (placed 0x4C642900))))
    (fun t => landings t == [(4, .s 3 0x3F800000)]) = true := by decide +kernel
theorem test_step_trap_no_vector : has (step (inSlot .sys 0x58000005)) (fun t => t.tasks.isEmpty && !t.core.busy) = true := by decide +kernel
theorem test_step_trap : has (step ((inSlot .sys 0x58000005).modA (fun a => { a with utvec := 0x20000 })))
    (fun t => t.core.a.pc == 0x20000 && t.core.a.ut && t.core.a.tpc == 0x10000 && t.core.a.tval == 5 && t.core.a.tcause == 4 &&
      t.core.a.sres == 8) = true := by decide +kernel
theorem test_step_utret_outside : has (step (inSlot .sys 0x5C000000)) (fun t => !t.core.busy) = true := by decide +kernel
theorem test_step_rdsr_frame : has (step { placed 0x5C800010 with frame := 77 }) (fun t => landings t == [(1, .s 4 77)]) = true := by
  decide +kernel
theorem test_step_mstat_idle : has (step (inSlot .mx 0x1C480000)) (fun t => landings t == [(1, .s 9 0)]) = true := by decide +kernel
theorem test_step_segs : has (step (inSlot .sys 0x54000104)) (fun t => t.core.a.segs[3] == .on && t.core.a.segs[4] == .off) = true := by
  decide +kernel
theorem test_step_ld_scratchpad :
    has (step (setS 4 0x00F0000000000008 ((inSlot .mem 0x04640003).modCore (fun c => { c with spad := [(9, 0x12), (15, 0x80)] }))))
      (fun t => landings t == [(6, .s 3 0x8000000000001200)]) = true := by decide +kernel
theorem test_step_lds_scratchpad :
    has (step (setS 4 0x00F0000000000008 ((inSlot .mem 0x08640000).modCore (fun c => { c with spad := [(8, 0x80)] }))))
      (fun t => landings t == [(6, .s 3 0xFFFFFFFFFFFFFF80)]) = true := by decide +kernel
theorem test_step_st_scratchpad : has (step (setS 3 0x1122 (setS 4 0x00F0000000000008 (inSlot .mem 0x0C640001))))
    (fun t => (t.core.pier.map (fun e => e.cells)) == [[(8, 0x22), (9, 0x11)]] && t.core.spad.isEmpty) = true := by decide +kernel
theorem test_step_ld_misaligned : has (step ((setS 4 0x00F0000000000001 (inSlot .mem 0x04640003)).modA (fun a => { a with utvec := 0x20000 })))
    (fun t => !t.core.busy) = true := by decide +kernel
theorem test_step_ld_off_core : has (step (setS 4 0x10000 (inSlot .mem 0x04640003)))
    (fun t => t.core.a.sIsEmpty 3 && t.core.a.memq.length == 1) = true := by decide +kernel
theorem test_step_cas : has (step (setS 10 0x10008 (inSlot .ca 0x168A5B03)))
    (fun t => t.core.ca.map (fun k => (k.tok, k.kind)) == [(20, .cas 0x10008 true 0 0)] && t.core.a.sIsEmpty 20 &&
      t.core.pier.length == 1) = true := by decide +kernel
theorem test_step_micro_permit : has (step (placedMicro (14#6 ++ 0#42 ++ 0#16)))
    (fun t => t.core.a.routine.any (fun r => r.upc == 1025 && r.full)) = true := by decide +kernel
theorem test_step_micro_setp : has (step (placedMicro (7#6 ++ 2#3 ++ 0#3 ++ 1#4 ++ 0x800000000001#48)))
    (fun t => t.core.a.routine.any (fun r => r.wp[2] == 0x800000000001)) = true := by decide +kernel
theorem test_step_agenda_event : has (step { State.reset with agenda := [(.timeBaseTick, {})], boot := .running })
    (fun t => t.frame == 1 && t.agenda.isEmpty) = true := by decide +kernel
theorem test_step_package_fault : has (step { State.reset with agenda := [(.tokenGrant, {})], boot := .packageFault })
    (fun t => t.boot == .packageFault && t.frame == 0 && t.agenda.isEmpty) = true ∧
    has (step { State.reset with agenda := [(.timeBaseTick, {})], boot := .packageFault }) (fun t => t.frame == 1) = true := by
  decide +kernel
theorem test_step_reset_of_package_fault : has (step { State.reset with agenda := [(.deviceReset, {})], boot := .packageFault })
    (fun t => t.boot == .awaiting) = true := by decide +kernel

/-! ### Witnesses: states and operands that meet the hypotheses of the statements, at boundaries of their clauses -/

def u0 : State := State.reset.withBundle 0

theorem witness_ShiftResults : (true = true → (31#6).toNat < 32) ∧ (false = true → (63#6).toNat < 32) := by decide

theorem witness_TransferEffects : u0.core.a.pend = none ∧ ((setS 3 32 u0).core.a.rd 3).extractLsb' 0 5 = 0 := by decide +kernel

def inLoop : State := u0.modA (fun a => { a with loops := a.loops.set 1 ⟨true, 0x10000, 0x10020, 2⟩, order := [1] })
theorem witness_LoopEffect_within : inLoop.core.a.pend = none ∧ (inLoop.core.a.loops[0]).act = false ∧ (1#16) ≠ 0 ∧
    (∀ k : LoopNo, (inLoop.core.a.loops[k]).act = true →
      (inLoop.core.a.pc + ((1#16).setWidth 64) <<< 5).ule (inLoop.core.a.loops[k]).stop = true) ∧ inLoop.core.a.rd 0 = 0 ∧
    (setS 4 1 inLoop).core.a.rd 4 ≠ 0 := by decide +kernel

theorem witness_TransferTraps : (u0.modA (fun a => { a with pend := some ⟨0, 1, true⟩ })).core.a.pend.isSome = true ∧
    u0.core.a.pend = none ∧ ((setS 3 31 u0).core.a.rd 3).extractLsb' 0 5 ≠ 0 := by decide +kernel

theorem witness_ExactArithmeticIsRational : (ExtNum.fin true 1 3).val? = some (mkRat (-1) 3) ∧
    (ExtNum.fin false 2 5).val? = some (mkRat 2 5) ∧ mkRat 2 5 ≠ 0 := by decide +kernel

theorem witness_RoundingKeepsRepresentable : ∀ f ∈ binaryFormats,
    f.maxCode < 2 * f.signBit ∧ (f.decode f.maxCode).val? ≠ none ∧ f.signBit < 2 * f.signBit ∧ (f.decode f.signBit).val? ≠ none := by
  decide +kernel

theorem witness_RoundingPicksNeighbour : (f8a.decode f8a.maxCode).lt (ExtNum.fin false 448 1) = false ∧
    (f8a.decode f8a.maxCode).lt (ExtNum.fin false 1 1048576) = false ∧ f8a ∈ binaryFormats := by decide +kernel

theorem witness_SystemRegisterReads :
    (u0.ctx? u0.core.a.ctx).any (fun x => (x.vOf u0.core.id).any (fun p => decide (p.1 < 256) && decide (p.2 < 256))) = true := by
  decide +kernel

theorem witness_SystemRegisterWrites : ((setS 3 0x20 u0).core.a.rd 3).extractLsb' 0 5 = 0 ∧
    ((setS 3 0x3F u0).core.a.rd 3).extractLsb' 0 5 ≠ 0 := by decide +kernel

/-! Vectors: a named register that is full, and a port in each mode. -/

def ported (mode : Bool) : State :=
  u0.modA (fun a => { a with ports := a.ports.set 2 { PortState.init with act := true, mode := mode } })

theorem witness_vector_operands : u0.core.operandsReady [.v 1 true, .q 3] (.v 2) = true ∧ u0.core.operandsReady [.z] .queue = true ∧
    (ported false).core.operandsReady [.g 2, .li] .queue = true ∧ (ported true).core.operandsReady [.k] (.g 2) = true ∧
    u0.core.operandsReady [.q 0, .q 1, .v 3 false] .queue = true := by decide +kernel

theorem witness_vector_operands_fail : u0.core.operandsReady [.g 2] .queue = false ∧ u0.core.operandsReady [.fl] .queue = false ∧
    (ported false).core.operandsReady [.k] (.g 2) = false := by decide +kernel

theorem witness_vector_types : VType.isInt .ui32 = true ∧ VType.isWhole .f32 = true ∧ (vfmt .f16x2).isSome = true := by decide +kernel

theorem witness_VectorConvertResults : vcvtWf 1 .bf16x2 .f32 0 = true ∧ vcvtWf 3 .i8x4 .i32 0 = true ∧ vcvtWf 0 .f32 .i32 7 = true ∧
    vcvtWf 1 .f32 .f16x2 0 = true := by decide +kernel

def tagged (t : Lane) (scale : Lane) : State :=
  u0.modA (fun a => { a with v := (a.v.set 1 (Vec.ofFn (fun i => if i = 0 then t else scale))) })

def tagLane (s : State) : Word := (((s.core.readV (.v 1 false)).lane 0).setWidth 64 : Word)

theorem witness_VectorBlockResults :
    tagHeadFmt (tagLane (tagged 0xFF 0)) = none ∧ (tagHeadFmt (tagLane (tagged 1 0))).isSome = true ∧
    (tagHeadFmt (tagLane (tagged 1 0x7F800000))).isSome = true ∧
    scaleOk ((tagged 1 0x7F800000).core.readV (.v 1 false) |>.lane 1).toNat = false ∧
    (List.range 127).all (fun j => scaleOk ((tagged 1 0x7F7FFFFF).core.readV (.v 1 false) |>.lane (1 + j)).toNat) = true ∧
    (tagged 1 0).core.operandsReady [.v 0 false, .v 1 false] .queue = true := by decide +kernel

/-! The mem slot. -/

theorem witness_MemoryFaultOrder :
    (¬reaches 0x00EFFFFFFFFFFFFD 4) ∧ reaches 0x00EFFFFFFFFFFFFC 4 ∧ reaches 0x00F00000003FFFC0 64 ∧ reaches 0x00FBFFFFFFFFFFFF 1 := by
  unfold reaches; decide

def memF (s : State) (store spadOnly : Bool) (n align : Nat) (ea : Word) : Option Cause :=
  (s.memFault store spadOnly n align ea).map Prod.fst
def viewed : State := u0.modA (fun a => { a with frozen0 := true, views := [⟨0x10000, 64, 0, 0, 0, 0, false, 0, 0⟩] })
def restarted : State := { viewed with tasks := [{ placedTask with r := true }] }

theorem witness_MemoryFaultOrder_clauses :
    memF u0 false false 4 4 0x00EFFFFFFFFFFFFD = some .prot ∧ memF u0 true true 64 64 0x10000 = some .prot ∧
    memF u0 true false 8 8 0x00F00000003FFE00 = some .prot ∧
    memF { u0 with core := { u0.core with a := { u0.core.a with merging := some (0x20000, 64) } } } true false 8 8 0x2003C = some .prot ∧
    memF u0 false false 4 4 0x10002 = some .misaligned ∧ memF viewed false false 8 8 0x10038 = some .viewOrder ∧
    memF viewed false false 8 8 0x10040 = none ∧ restarted.restartable = true ∧
    memF restarted true false 8 8 0x10040 = some .restartViolation ∧ memF restarted true false 8 8 0x00F0000000000000 = none := by
  decide +kernel

/-- A write through the address of the view pool that VIEWA returned is the view's, not a restart violation. -/
def pooled : State :=
  { restarted with core := { restarted.core with a := { restarted.core.a with views := [⟨0x10000, 64, 0, 0, 0, 0, true, 0, 0x30000⟩] } } }
theorem witness_MemoryFaultOrder_pool : memF pooled true false 8 8 0x30038 = none ∧
    memF pooled true false 8 8 0x30040 = some .restartViolation := by decide +kernel

theorem witness_MemoryInstructionsTrapAtIssue :
    ([setS 4 0x10001 u0].all fun s => (s.memFault false false 8 8 (s.addr 4 0 8)).isSome && (s.memFault true false 8 8 (s.addr 4 0 8)).isSome &&
      (s.memFault false false 512 64 (s.addr 4 0 64)).isSome && (s.memFault true false 512 64 (s.addr 4 0 64)).isSome &&
      (s.memFault false false 64 64 (s.addr 4 0 64)).isSome && (s.memFault true true 64 64 (s.addr 4 0 64)).isSome) = true := by
  decide +kernel

/-- s4 holds an offset of the own scratchpad; granule 1 of the scratchpad may be poisoned. -/
def spadAt (off : Nat) (poison : Bool) : State :=
  setS 4 (BitVec.ofNat 64 (0x00F0000000000000 + off))
    (u0.modCore (fun c => { c with spadTags := if poison then [(1, 0xFF)] else [] }))

theorem witness_PoisonTraps :
    ([spadAt 64 true, spadAt 120 true].all fun s =>
      let ea := s.addr 4 0 8
      inSpad ea.toNat && isPoison (s.core.spadTag 1) && decide (spadOff ea / 64 ≤ 1 ∧ 64 < spadOff ea + 8) &&
      (s.memFault false false 8 8 ea).isNone && (s.memFault true false 8 8 ea).isNone) = true ∧
    (let s := spadAt 0 true
     let ea := s.addr 4 0 64
     inSpad ea.toNat && (s.memFault false false 512 64 ea).isNone && (s.memFault true false 512 64 ea).isNone &&
       !isPoison (s.core.spadTag 0) && isPoison (s.core.spadTag 1)) = true ∧
    (let s := setS 3 0xFF (spadAt 0 false)
     (s.memFault true true 64 64 (s.addr 4 0 64)).isNone && isPoison (s.core.a.rd 3)) = true := by decide +kernel

theorem clean_of_no_tags (c : Core) (off n : Nat) (h : c.spadTags = []) (hp : c.pier = []) : c.clean off n := by
  intro i _; simp [Core.spadTag, h, hp, cellGet, isPoison, tagFmt]

theorem witness_clean : (spadAt 0 false).core.clean 0 512 :=
  clean_of_no_tags _ _ _ (by decide +kernel) (by decide +kernel)

theorem witness_scratchpad_access :
    ((spadAt 0x3FFFF8 false).memFault false false 8 8 ((spadAt 0x3FFFF8 false).addr 4 0 8)).isNone = true ∧
    ((spadAt 0x3FFC00 false).memFault true false 512 64 ((spadAt 0x3FFC00 false).addr 4 0 64)).isNone = true ∧
    inSpad ((spadAt 0x3FFFF8 false).addr 4 0 8).toNat = true := by decide +kernel

theorem witness_OffCoreLoadsMarkEmpty :
    (let s := setS 4 0x10000 u0
     (s.memFault false false 1 1 (s.addr 4 0 1)).isNone && (s.memFault false false 512 64 (s.addr 4 0 64)).isNone &&
       (s.memFault false false 64 64 (s.addr 4 0 64)).isNone && !inSpad (s.addr 4 0 1).toNat && (s.memFault true false 8 8 (s.addr 4 0 8)).isNone) = true := by
  decide +kernel

def f8Spad : State :=
  setS 4 0x00F0000000000000 (u0.modCore (fun c => { c with spadTags := [(0, 1), (1, 1), (2, 1), (3, 1), (4, 1), (5, 1), (6, 1), (7, 1)] }))

theorem witness_TaggedVectorAccess :
    (let s := f8Spad
     let ea := s.addr 4 0 64
     match Fmt.ofCode (tagFmt (s.core.spadTag 0)) with
     | some f => inSpad ea.toNat && decide (spadOff ea + 64 * (128 / f.elems) ≤ 0x400000) && (s.memFault false false 64 64 ea).isNone &&
         (s.memFault true true (64 * (128 / f.elems)) 64 ea).isNone &&
         (List.range (128 / f.elems)).all (fun j => tagValidFmt (s.core.spadTag j) == some f && scaleOk (tagScale (s.core.spadTag j)) &&
           !isPoison (s.core.spadTag j))
     | none => false) = true := by decide +kernel

theorem witness_GatherResult :
    (let s := setS 4 0x00F00000003FFFFC u0
     (List.range 128).all (fun i =>
       let x := s.core.a.rd 4 + ((s.core.a.v[(0 : Reg)]).lane i).setWidth 64 * 64
       inSpad x.toNat && decide (x.toNat % 4 = 0) && !isPoison (s.core.spadTag (spadOff x / 64)))) = true := by decide +kernel

/-! The matrix engine. -/

theorem witness_ExactSumRoundsOnce :
    ([ExtNum.fin false 1 3, ExtNum.fin true 1 6].map ExtNum.val? = [mkRat 1 3, mkRat (-1) 6].map some) ∧
    ([ExtNum.fin true 0 1].map ExtNum.val? = [(0 : Rat)].map some) ∧ [mkRat 1 3, mkRat (-1) 6].sum ≠ 0 ∧ [(0 : Rat)].sum = 0 ∧
    .nan ∈ ([.nan] : List ExtNum) ∧ .inf true ∈ ([.inf true] : List ExtNum) ∧ .nan ∉ ([.inf true] : List ExtNum) ∧
    .inf false ∉ ([.inf true] : List ExtNum) ∧ .inf true ∉ ([.inf false] : List ExtNum) := by decide +kernel

def openTile : TileState := { TileState.zero with isOpen := true, period := 3 }
def sealed (ps : PendSeal) : TileState := { TileState.zero with pending := some ps }
def onTile0 (x : TileState) : State := u0.modA (fun a => { a with tiles := a.tiles.set 0 x })
def aSeal : PendSeal := ⟨3, 1, 0x10000, Folds.zero, Folds.zero, false, false, false⟩

theorem witness_MatrixParameterAndStatus : ((onTile0 (sealed aSeal)).core.a.tiles[(0 : TileNo)]).pending = some aSeal := by decide +kernel

theorem witness_MatrixCallStartsRoutine : tblGet u0.core.entries 4 = none ∧ tblGet u0.core.entries 3 = some 0 ∧ clusterOf u0.core.id < 32 := by
  decide +kernel

/-- Entry 32 of another context is not valid for this one. -/
theorem witness_MatrixCallStartsRoutine_contexts : entryKey 0 32 ≠ entryKey 1 32 ∧ microKey 0 1024 = 1024 ∧
    tblGet (u0.modCore (fun c => { c with entries := [(entryKey 1 32, 1024)] })).core.entries (entryKey 0 32) = none := by decide +kernel

theorem witness_MicroprogramLoads :
    (let va : Word := 0x00F00000003FFFC0
     let x : Word := BitVec.ofNat 64 (4088 + 8 * 65536)
     (x.extractLsb' 28 36 == 0) && (x.extractLsb' 12 4 == 0) && decide (0 < (x.extractLsb' 16 12).toNat) &&
     decide ((x.extractLsb' 0 12).toNat + (x.extractLsb' 16 12).toNat ≤ 4096) && decide (va.toNat % 64 = 0) && inSpad va.toNat &&
     inSpad (va.toNat + 8 * (x.extractLsb' 16 12).toNat - 1)) = true ∧
    u0.core.clean (spadOff 0x00F00000003FFFC0) 64 ∧ ((1023#64).extractLsb' 0 12).toNat < 1024 ∧
    (255#64).extractLsb' 8 56 = 0 ∧ 32 ≤ (32#64).toNat ∧ (256#64).extractLsb' 8 56 ≠ 0 ∧ (31#64).toNat < 32 :=
  ⟨by decide +kernel, clean_of_no_tags _ _ _ (by decide +kernel) (by decide +kernel), by decide, by decide, by decide, by decide, by decide⟩

theorem witness_AccumulatorAccess : inSpad (0x00F00000003FFE00#64).toNat = true ∧ (0x00F00000003FFE00#64).toNat % 64 = 0 ∧
    inSpad ((0x00F00000003FFE00#64).toNat + 511) = true ∧ u0.core.clean (spadOff 0x00F00000003FFE00) 512 :=
  ⟨by decide, by decide, by decide, clean_of_no_tags _ _ _ (by decide +kernel) (by decide +kernel)⟩

/-- Destination, geometry and tag word of a drain in s1, s2 and s3. -/
def drainOf (addr geo tag : Word) : State := setS 1 addr (setS 2 geo (setS 3 tag u0))

theorem witness_DrainStartsOrTraps :
    has (exec (.mdrain 0 2 1 3 false false .blk false) (drainOf 0x00F0000000000000 (127 * 2 ^ 40 + 512) 1))
      (fun t => t.core.a.drains.length == 1) = true ∧
    has (exec (.mdrain 0 2 1 3 false false .blk false) (drainOf 0x00EFFFFFFFFFFFC0 (1 * 2 ^ 40 + 512) 1))
      (fun t => !t.core.busy) = true ∧
    has (exec (.mdrain 0 2 1 3 false false .blk false) (drainOf 0x10020 0 1)) (fun t => !t.core.busy) = true ∧
    has (exec (.mdrain 0 2 1 3 false false .blk false) (drainOf 0x10000 (1 * 2 ^ 40 + 127 * 2 ^ 32) 1)) (fun t => !t.core.busy) = true ∧
    has (exec (.mdrain 0 2 1 3 false false .tag false) (drainOf 0x10000 0 0x7F80000000000001)) (fun t => !t.core.busy) = true ∧
    u0.core.a.frozen0 = false := by decide +kernel

theorem witness_DrainStartsOrTraps_noWrite : (32 % 64 ≠ 0) ∧
    has (exec (.mdrain 0 2 1 3 false true .blk false) (drainOf 0x10020 32 0)) (fun t => !t.core.busy && t.free == 1) = true ∧
    has (exec (.mdrain 0 2 1 3 false true .blk false) (drainOf 0x10020 64 0)) (fun t => t.core.a.drains.length == 1) = true := by
  decide +kernel

theorem witness_SealBegins : ((onTile0 (sealed aSeal)).core.a.tiles[(0 : TileNo)]).pending.isSome = true ∧
    ((onTile0 openTile).core.a.tiles[(0 : TileNo)]).pending = none ∧ ((onTile0 openTile).core.a.tiles[(0 : TileNo)]).isOpen = true ∧
    (u0.core.a.tiles[(0 : TileNo)]).isOpen = false := by decide +kernel

def micro0 : State := State.reset.withMicro 0
def microR : Routine := { Routine.start 32 0 1024 (Vector.replicate 8 0) false false 0 with shape := none }
def smallShape : Shape := ⟨16, 16, 16, 16, 112, 112⟩
/-- A step of the smallest shape over FP32 granules of the scratchpad, all +0 but for a 1.0 at the base, which is element (0, 0) of both
operands. -/
def withRoutine (r : Routine) : State :=
  (u0.modA (fun a => { a with routine := some r })).modCore (fun c => { c with
    spad := cellSets 0 [] (cellsOf 0 4 0x3F800000), spadTags := (List.range 16).map (fun i => (i, 0x3F80000000000001)) })
def stepRoutine : Routine := { microR with shape := some smallShape, a := some (0x00F0000000000000, 64), b := some (0x00F0000000000000, 64) }

theorem witness_MicroOperationResults : micro0.core.a.routine = some microR ∧ (withRoutine stepRoutine).core.a.routine = some stepRoutine ∧
    (microR.loops[(0 : LoopNo)]).act = false ∧
    ((({ microR with loops := microR.loops.set 0 ⟨true, 1025, 2⟩ } : Routine).loops)[(0 : LoopNo)]).act = true ∧ microR.sealEnd = false := by
  decide +kernel

theorem witness_shapes : shapeLegal (128 + 128 * 65536 + 0x80 * 2 ^ 32) 128 112 ∧ ¬shapeLegal (128 + 128 * 65536 + 0x80 * 2 ^ 32) 64 113 := by
  unfold shapeLegal; decide

theorem witness_MicroDrainResult : drainFault 0x00F0000000000000 (127 * 2 ^ 40 + 512) 1 false .blk 7 = none ∧
    drainFault 0x00F0000000000020 0 1 false .blk 7 = some (.misaligned, 0x00F0000000000020) ∧
    drainFault 0x00F0000000000020 0 1 true .blk 7 = none ∧ drainFault 0 32 0 true .blk 7 = some (.misaligned, 7) := by decide +kernel

theorem witness_MatrixStepResult :
    (let s := withRoutine stepRoutine
     decide (smallShape.row0 + smallShape.m ≤ 128) && decide (smallShape.col0 + smallShape.n ≤ 128) && !s.core.usesQ &&
     (s.core.a.stat.rowp == 0) && (s.readOperand (0x00F0000000000000, 64) 16 16 0).fault.isNone) = true := by decide +kernel

theorem witness_MicroOperationsKeepPathsAgreeing : (Instr.mStep true false).place = .micro ∧
    has (exec (.mStep true false) (withRoutine stepRoutine)) (fun t => (elementOf (t.core.a.tiles[(0 : TileNo)]).p 112 112 == 0x3F800000 && elementOf (t.core.a.tiles[(0 : TileNo)]).q 112 113 == 0)) = true ∧
    (withRoutine stepRoutine).core.a.pathsAgree := by
  refine ⟨by decide, by decide +kernel, ?_⟩
  intro t
  have h : ((withRoutine stepRoutine).core.a.tiles[t]) = TileState.zero := by revert t; decide +kernel
  rw [h]
  exact ⟨rfl, rfl, rfl, nofun⟩

/-! The copy slots. -/

def operands (a b c : Word) : State := setS 1 a (setS 2 b (setS 3 c u0))

theorem witness_BlockCopiesIssue :
    (let s := operands 0x00F0000000000000 0x10000 (64 + 2 ^ 39)
     let w := s.core.a.rd 3
     (w.extractLsb' 46 18 == 0) && (w.extractLsb' 32 7 == 0) && !cntBad (s.core.a.rd 1).toNat &&
       s.winOk winCopy (rowStart (s.core.a.rd 1) 0 0) 64 && s.winOk winCopy (rowStart (s.core.a.rd 2) 0 0) 64 && !s.core.a.frozen0 &&
       !s.core.a.mergeBad (rowStart (s.core.a.rd 1) 0 0) 64 && !s.restartBad false (rowStart (s.core.a.rd 1) 0 0) 64) = true := by
  decide +kernel

/-- A block at the start of the scratchpad, with its address in s3. -/
def blockAt (fields : List (Nat × Nat × Nat)) : State :=
  (operands 0x00F0000000010000 0x20000 0x00F0000000000000).modCore (fun c =>
    { c with spad := fields.foldl (fun m f => cellSets 0 m (cellsOf f.1 f.2.1 f.2.2)) [] })

theorem witness_blocks_readable : (blockAt []).core.blockReadable 0x00F0000000000000 :=
  ⟨by decide +kernel, by decide +kernel, by decide +kernel, clean_of_no_tags _ _ _ (by decide +kernel) (by decide +kernel)⟩

theorem witness_BlockCopiesIssue_rows :
    (let s := blockAt [(0, 8, 64), (8, 8, 1048576), (16, 8, 64)]
     decide (s.core.fieldAt (s.core.a.rd 3) 0 8 = 64 ∧ s.core.fieldAt (s.core.a.rd 3) 8 8 = 2 ^ 20 ∧ s.core.fieldAt (s.core.a.rd 3) 40 24 = 0)) = true ∧
    (let s := blockAt [(0, 8, 64), (8, 8, 2), (16, 8, 64), (24, 8, 2 ^ 64 - 64)]
     s.winOk winCopy (rowStart (s.core.a.rd 1) (-64) 1) 64 && s.winOk winCopy (rowStart (s.core.a.rd 2) 64 1) 64 &&
       has (exec (.cpy2 .cb 5 1 2 3) s) (fun t => t.core.cb.length == 1 && t.core.busy)) = true := by decide +kernel

theorem witness_AtomicsIssue :
    (let s := operands 0x10008 0x10040 512
     s.winOk winAtom 0x10008 8 && !s.core.a.mergeBad 0x10008 8 && !s.restartBad true 0x10008 8 && s.winOk winAtom 0x00F0000000000010 16 &&
       s.winOk winAcc 0x10200 512 && s.winOk winAtom 0x10200 512 && decide (0x10200 / 512 = (0x10200 + 512 - 1) / 512)) = true := by
  decide +kernel

theorem witness_AtomicFaultOrder :
    u0.winOk winAtom 0x00FBFFFFFFFFFFFC 8 = false ∧ u0.winOk winAtom 0x1000C 8 = true ∧ u0.core.a.mergeBad 0x1000C 8 = false ∧
    0x1000C % 8 ≠ 0 ∧ viewed.core.a.hitsView 0x10038 8 = true ∧ viewed.core.a.hitsView 0x10040 8 = false ∧
    restarted.restartBad true 0x10040 8 = true := by decide +kernel

theorem witness_RingAndFenceCommandsIssue :
    (let s := operands 0x00EFFFFFFFFF0000 65536 0
     s.winOk winUser 0x00EFFFFFFFFF0000 65536 && !s.core.a.hitsView 0x00EFFFFFFFFF0000 65536) = true ∧
    has (exec (.subs .ca 9 3 .inp 63) (blockAt [(0, 8, 0x10000), (8, 4, 64), (12, 4, 1), (16, 8, 64), (24, 8, 64), (32, 8, 5),
        (40, 8, 0x00F00000003FFFC0), (48, 4, 64), (52, 1, 1)]))
      (fun t => t.core.subs.map (fun y => (y.sb0, y.slots)) == [(63, [.free])]) = true := by decide +kernel

theorem witness_SendsAndCollectivesIssue :
    (let s := operands 0x00F1000000000000 0 (64 + 0 * 2 ^ 32 + 127 * 2 ^ 40)
     let w := s.core.a.rd 3
     (w.extractLsb' 47 17 == 0) && !w.getLsbD 39 && s.winOk winSend (rowStart 0x10000 512 127) 512 &&
       !s.core.a.mergeBad (rowStart 0x10000 512 127) 512 && !s.restartBad false (rowStart 0x10000 512 127) 512) = true ∧
    (let s := setS 1 0x30000 (blockAt [(8, 8, 128), (16, 4, 0)])
     has (exec (.coll .ca 5 1 2 3 .addF32 .ar) s) (fun t => t.core.ca.length == 1 && t.core.busy)) = true := by decide +kernel

/-! The sys slot. -/

theorem witness_TaskInstructionEffects : u0.task? u0.core.a.ctx u0.core.a.tcb = some placedTask ∧
    (u0.ctx? u0.core.a.ctx).any (fun c => decide (c.bind.length < 2 ^ 32) && c.bind.all (fun v => decide (v.2.length < 2 ^ 32))) = true ∧
    u0.core.a.merging = none ∧ u0.core.a.viewAt 0 = none ∧ (viewed.core.a.viewAt 0x1003F).isSome = true ∧ u0.inlTask = none := by
  decide +kernel

def readyTask : Task := { placedTask with tcb := 0x20000, st := .ready, snap := BitVec.ofNat 1024 (16 * 2 ^ (8 * 0x50)) }
def withReady : State :=
  { u0 with tasks := [{ placedTask with nspawn := 1, npend := 1 }, { readyTask with parent := some 0, spidx := 1 }],
            core := { u0.core with queue := [⟨0, 0x20000, 0⟩] } }

theorem witness_TaskInstructionEffects_inline : withReady.inlTask.isSome = true ∧
    ((u0.modA (fun a => { a with merging := some (0, 64) })).core.a.merging.isSome = true) := by decide +kernel

theorem witness_SpawnEffects :
    (let ok (x : Word) (nspawn n : Nat) := decide (0 < n ∧ n ≤ 64 ∧ x.toNat + 128 * n ≤ 0x00F0000000000000 ∧ x.toNat % 128 = 0 ∧ nspawn + n ≤ 1048575)
     ok (0x00F0000000000000 - 8192) 1048511 64 && ok (0x00F0000000000000 - 128) 0 1) = true ∧
    (0x00F0000000000000 < 0x00EFFFFFFFFFFF81 + 128) ∧ (0x00EFFFFFFFFFFF79 + 128 ≤ 0x00F0000000000000 ∧ 0x00EFFFFFFFFFFF79 % 128 ≠ 0) := by
  decide +kernel

def member (g : GangRec) : State := setS 1 0x00EFFFFFFFFFFFC0 (u0.modA (fun a => { a with gangs := [g] }))

theorem witness_GangInstructionEffects :
    (u0.core.a.gangs.find? (fun g => g.va = 0x00EFFFFFFFFFFFC0)) = none ∧
    ((member ⟨0x00EFFFFFFFFFFFC0, 2 ^ 32 - 1⟩).core.a.gangs.find? (fun g => g.va = (0x00EFFFFFFFFFFFC0 : Word))).isSome = true ∧
    (8 ≤ (List.replicate 8 (⟨0, 0⟩ : GangRec)).length) ∧ (0x00EFFFFFFFFFFFC0 < 0x00F0000000000000) ∧ 0x00EFFFFFFFFFFFC0 % 64 = 0 := by
  decide +kernel

def barrierWord (x : Nat) : State :=
  u0.modCore (fun c => { c with spad := cellSets 0 [] (cellsOf 0x3FFFF8 8 x) })

def barrier63 (s : State) : Word :=
  BitVec.ofNat 64 (natOfBytes ((List.range 8).map (fun i => cellGet 0 s.core.spad (s.core.a.barBase + 8 * 63 + i))))

theorem witness_BarrierAndFutureInstructionEffects : (barrier63 u0).getLsbD 62 = false ∧ (barrier63 (barrierWord (2 ^ 62))).getLsbD 62 = true ∧
    2 ^ 30 - 1 < 2 ^ 30 ∧ 0x00EFFFFFFFFFFFF0 + 16 ≤ 0x00F0000000000000 ∧ 0x00F0000000000000 < 0x00EFFFFFFFFFFFF1 + 16 ∧
    (0x00EFFFFFFFFFFFEF + 16 ≤ 0x00F0000000000000 ∧ 0x00EFFFFFFFFFFFEF % 16 ≠ 0) := by decide +kernel

def leased : State :=
  { u0 with clusters := u0.clusters.set 0 { u0.clusters[0] with lease := some ⟨1130, 100, 0, 0⟩, st := .sprint } }

theorem witness_PowerInstructionEffects : clusterOf u0.core.id < 32 ∧ (0 < 65535 ∧ 65535 ≤ 65535) ∧ 65535 < 65536 ∧
    (1130 % 10 = 0 ∧ 950 ≤ 1130 ∧ 0 < 2 ^ 32 - 1) ∧ (leased.clusters[0]).lease.isSome = true ∧ leased.core.busy = true ∧
    leased.frame.toNat < 100 ∧ (u0.clusters[0]).lease = none := by decide +kernel

/-! Traps. -/

def vectored : State := u0.modA (fun a => { a with utvec := 0x20000 })
def inHandler : State := vectored.fault 3 .feEmpty 7

theorem witness_UserTrapEntry : Cause.feEmpty.cls = 0 ∧ vectored.core.a.ut = false ∧ vectored.core.a.utvec ≠ 0 ∧ 8 ≤ 8 := by decide +kernel
theorem witness_TrapInstructionsAndReturn : inHandler.core.a.ut = true ∧ inHandler.core.a.trap.isSome = true ∧
    inHandler.core.a.flights = [] ∧ inHandler.core.a.sres.toNat < 8 ∧ u0.core.a.ut = false := by decide +kernel
theorem witness_SoftwareFaultEndsLaunch : Cause.prot.cls = 2 ∧ u0.task? u0.core.a.ctx u0.core.a.tcb = some placedTask ∧
    u0.launch? placedTask.launch = some placedLaunch := by decide +kernel
theorem witness_HardwareErrorRestarts :
    (let t : Task := { placedTask with r := true, restarts := 2 }
     let s : State := { u0 with tasks := [t] }
     decide (Cause.residue.cls = 3) && decide (s.task? s.core.a.ctx s.core.a.tcb = some t) && s.core.a.merging.isNone &&
       !s.descends t.ctx t.tcb s.tasks.length t.tcb) = true := by decide +kernel

theorem witness_SoftwareFaultEndsLaunch_routine : Cause.page.cls = 1 ∧ u0.inViewPool 0 0x20000 = false ∧
    ((u0.modA (fun a => { a with merging := some (0, 64) })).fault 1 .page 0x20000).tasks = [] := by decide +kernel

/-- A write of UTVEC in flight when the bundle traps: the handler is the old one, and the register has landed when it begins. -/
theorem witness_UserTrapEntry_utvec :
    (let s := vectored.fly 1 0 [.utvec 0x40000]
     (s.core.a.flights.flatMap (fun f => f.lands.filter Landing.shared) == [.utvec 0x40000]) &&
       ((s.fault 3 .feEmpty 7).core.a.pc == 0x20000) && ((s.fault 3 .feEmpty 7).core.a.utvec == 0x40000)) = true := by decide +kernel

/-! Events: time, ports and checkers. -/

def at0 (i : Input) (s : State) : State := { s with input := i }

theorem witness_DeviceAndTimeEvents : State.reset.timeBase = true ∧
    ({ State.reset with boot := .running } : State).ready = false ∧ (at0 { fn := 16 } u0).input.fn ≠ 0 := by decide +kernel

theorem witness_DeviceAndTimeEvents_homes :
    has (exec .firmwareInit { State.reset with boot := .running }) (fun t => t.ready && tblGet t.homes 0 == some 0 && t.homes.length == 8) = true ∧
    has (exec .firmwareInit { State.reset with boot := .running, memStacks := (List.range 16).filter (fun n => n ≠ 0) })
      (fun t => tblGet t.homes 0 == some 1) = true := by decide +kernel

theorem witness_PortAndSegmentEvents : ((u0.modA (fun a => { a with segs := a.segs.set 15 (.waking true 1) })).core.a.segs[15]) = .waking true 1 ∧
    u0.there.core.between = true ∧ ((ported false).core.a.ports[(2 : Port)]).aged = false ∧
    ((ported false).core.a.ports[(2 : Port)]).act = true ∧ ((ported false).core.a.ports[(2 : Port)]).mode = false := by decide +kernel

def checking (vchk : Bool) (diff : Option Nat) (elems : List Nat) : State :=
  u0.modA (fun a => { a with checks := [⟨0, 2, 0, 0x10000, vchk, diff, elems⟩] })

theorem witness_CheckerAndWatchdogEvents :
    ((checking false none [0x3F880]).there.core.checkDue false).isSome = true ∧
    ((checking true (some 127) []).there.core.checkDue true).isSome = true ∧ ((checking true none []).there.core.checkDue true).isSome = true ∧
    has (exec .shadowCheckVerdict (at0 { pairs := [(0, 0x3F881)] } (checking false none [0x3F880]))) (fun t => t.core.a.checks.isEmpty && t.core.busy) = true ∧
    has (exec .shadowCheckVerdict (at0 { pairs := [(0, 0x3F882)] } (checking false none [0x3F880]))) (fun t => !t.core.busy) = true ∧
    has (exec .vchkVerdict (checking true (some 127) [])) (fun t => !t.core.busy) = true ∧
    has (exec .vchkVerdict (checking true none [])) (fun t => t.core.a.checks.isEmpty && t.core.busy) = true ∧
    (let s := u0.modA (fun a => { a with deferred := [⟨.residue, 3⟩, ⟨.page, 0⟩] })
     s.core.busy && s.core.a.block.isNone && (s.modCore Core.reach).core.a.deferred.length == 2) = true ∧
    (u0.ctx? u0.core.a.ctx).any (fun c => c.preempt.isNone && decide (c.hang ≤ ({ u0 with core := { u0.core with watch := 200000000 } } : State).core.watch)) = true := by
  decide +kernel

/-- A machine that holds its completion records back, as a takeover does, so that a test sees them. -/
def recorded (s : State) : State :=
  { s with streams := [⟨0, 0, 0x10080, 0x18000, 16, 0, [], 1, 0, 0, 0, false, some 0⟩], takeSch := true }

/-- Of two failing checks the first in order of issue is the error, whichever kind it is. -/
theorem witness_CheckVerdicts_order :
    (let s := recorded (at0 { pairs := [(256, 0x3F882)] } (u0.modA (fun a => { a with checks := [⟨0, 2, 0, 0x10000, true, some 5, []⟩, ⟨0, 3, 0, 0x10000, false, none, [0x3F880]⟩] })))
     has (exec .shadowCheckVerdict s) (fun t => t.heldRecs.map (fun r => (r.cause, r.tval)) == [(Cause.dupMismatch.code, 5)])) = true ∧
    (let s := u0.modA (fun a => { a with mwaits := [⟨3, .free, [], [], false⟩], sEmpty := 8 })
     s.there.core.a.mwaits.all s.there.core.mwaitDone && has (exec .mwaitFill s) (fun t => !t.core.a.sIsEmpty 3 && t.core.a.mwaits.isEmpty)) = true ∧
    (let s := recorded (u0.modA (fun a => { a with deferred := [⟨.page, 0⟩, ⟨.residue, 3⟩] }))
     has (exec .deferredFault s) (fun t => t.heldRecs.map (fun r => (r.cause, r.tval)) == [(Cause.residue.code, 3)])) = true := by decide +kernel

/-! Drains, seals and the Keystone. -/

def aDrain (nw : Bool) : DrainOp := ⟨0, 0, 127, 1, 0, 1, 0x00F0000000000000, 0, 1, true, nw, .blk, false, true, false, false, 0x10000⟩
def draining (nw : Bool) : State := u0.modA (fun a => { a with eng := .drain (aDrain nw), drains := [0], tiles := a.tiles.set 0 openTile })

theorem witness_DrainRowLeaves : ([draining true, draining false].all fun s => s.there.core.busy && !s.there.core.rowDone && s.there.rowsRun &&
      decide (s.there.core.pier.length < 256)) = true ∧ (draining true).there.core.a.eng = .drain (aDrain true) ∧
    (aDrain true).wait ≤ 1 ∧ (aDrain true).fresh = false ∧
    has (exec .drainRowLeave (draining false)) (fun t => t.core.pier.length == 1 && t.core.rowDone && t.rowCycle.core.a.eng == .timed 1) = true := by
  decide +kernel

def withPending (ps : PendSeal) : State := (onTile0 (sealed ps)).modA (fun a => { a with eng := .idle })

theorem witness_SealVerdictEffects :
    (let s := withPending aSeal
     s.there.core.arbit.isNone && (s.there.core.a.eng == .idle) && !s.there.core.sp &&
     has (exec .sealVerdict s) (fun t => t.core.a.stat.lastv == 1) && has (exec .sealVerdict (at0 { value := 1 } s)) (fun t => t.core.arbit.isSome)) = true ∧
    (let s := onTile0 openTile
     let full := s.modCore (fun c => { c with pier := List.replicate 256 ⟨0, 0, [(0, 3)], none, true, [], [], [], [], 0, none, none⟩ })
     (full.sealTiles == [0]) && (full.core.a.eng == .idle) && full.core.a.routine.isNone && (full.core.a.tiles[(0 : TileNo)]).isOpen) = true := by
  decide +kernel

def judged (sp usesQ tainted : Bool) : State :=
  (withPending { aSeal with tainted := tainted }).modCore (fun c => { c with arbit := some (0, 0), arbitFor := [0], sp := sp, usesQ := usesQ })

theorem witness_KeystoneVerdictEffects : (judged false false true).there.core.arbit = some (0, 0) ∧
    ((judged false false true).there.core.a.tiles[(0 : TileNo)]).pending.isSome = true ∧ dieOf (judged false false true).there.core.id < 8 ∧
    has (exec .keystoneVerdict (at0 { test := ⟨2, 0, 3, 0⟩ } (judged false false true))) (fun t => t.core.sealErr == some (3, 0x10000) && t.core.sp) = true ∧
    has (exec .keystoneVerdict (at0 { test := ⟨0, 2, 0, 3⟩ } (judged false false true))) (fun t => t.core.sealErr.isNone && t.core.sp) = true ∧
    has (exec .keystoneVerdict (at0 { test := ⟨0, 1, 0, 1⟩ } (judged true false false))) (fun t => t.core.sealErr.isNone && t.core.err.spt == 1) = true ∧
    has (exec .keystoneVerdict (at0 { test := ⟨1, 1, 0, 0⟩ } (judged false false false))) (fun t => t.core.outOfService) = true := by decide +kernel

/-! Memory behind the pier. -/

def entryOf (spad : Bool) (va : Word) (cells : List (Nat × Byte)) : PierEntry := ⟨7, 0, [], none, spad, cells, [], [], [], va, none, none⟩
def pierOf (e : PierEntry) : State := u0.modCore (fun c => { c with pier := [e] })

/-- A request for the one part of an entry; no other request of those bytes waits for a walk or an access where this one does not. -/
def partOf (e : PierEntry) : MemReq := ⟨e.id, 0, e.va, e.granules.headD 0, 64 * e.granules.length, none, none, [], [], [], [], 0, 0, false, none, none,
  none, none, false, 0, 0, false⟩

theorem witness_PierEntryLeaves_free (u : State) (e : PierEntry) (r : MemReq) (hm : u.core.a.memq = []) (hw : u.partWalks (partOf e) = false)
    (hl : r.lo = e.granules.headD 0) (hn : r.n = 64 * e.granules.length) (hd : r.drain = none) :
    u.storeBehind r = false ∧ u.partWalks r = false := by
  refine ⟨by simp [State.storeBehind, hm], ?_⟩
  rw [← hw]; simp [State.partWalks, partOf, hl, hn, hd]

theorem witness_PierEntryLeaves :
    ([entryOf true 0x00F00000003FFFFF [(0x3FFFFF, 1)], entryOf false 0x1FFFF [(0x1FFFF, 1)], entryOf false 0x20000 [(0x20000, 1)]].all fun e =>
      let u := (pierOf e).there
      u.core.pier == [e] && u.core.checked e && !u.core.a.holds e && u.core.leaveAllowed e && u.core.spadOk &&
      e.granules.all (fun g => !isPoison (cellGet 0 u.core.spadTags (g / 64))) && u.core.a.memq.all (fun r => !r.held) &&
      u.core.room e.granules.length && (runsOf u.partKey e.granules == [e.granules]) && (e.granules == granuleVas (e.granules.headD 0) (64 * e.granules.length)) &&
      u.core.a.memq.isEmpty && !u.partWalks (partOf e)) = true ∧
    (match (pierOf (entryOf false 0x1FFFF [(0x1FFFF, 1)])).locateAll 0 u0.core.a true .write false (entryOf false 0x1FFFF [(0x1FFFF, 1)]).granules with
     | .ok locs => locs.all (fun l => match l with
        | .phys _ _ => true
        | _ => false)
     | .error _ => false) = true ∧
    (match (pierOf (entryOf false 0x20000 [(0x20000, 1)])).locateAll 0 u0.core.a true .write false (entryOf false 0x20000 [(0x20000, 1)]).granules with
     | .ok _ => false
     | .error c => c.1 == .page) = true := by decide +kernel

/-- A store over a page boundary leaves as two requests; one to a page that is not mapped waits, held. -/
theorem witness_PierEntryLeaves_parts :
    has (exec .pierEntryLeave (pierOf (entryOf false 0x1FFFF [(0x1FFFF, 1)]))) (fun t => t.core.outq.length == 1 && t.core.pier.isEmpty) = true ∧
    (runsOf u0.partKey (entryOf false 0x1FFFF [(0x1FFFF, 1), (0x20000, 2)]).granules).length = 2 ∧
    has (exec .pierEntryLeave (pierOf (entryOf false 0x20000 [(0x20000, 1)])))
      (fun t => t.core.outq.isEmpty && t.core.a.memq.map (fun r => r.held) == [true] && t.core.a.deferred.length == 1) = true := by decide +kernel

def aStore : MemReq := ⟨7, 0, 0x10020, 0x10020, 1, none, none, [(0x10020, 0xAB)], [], [(0x20, 0xAB)], [], 0x10020, 0, false, none, none,
  none, some 0, false, 0, 0, false⟩
def storing : State := u0.modCore (fun c => { c with outq := [aStore] })

theorem witness_StoreEndsAtHome :
    (let u := storing.there
     u.core.outq[0]?.isSome && Memory.wf u.mem && Memory.tagsWf u.memTags && u.ackReady aStore && (u.poisonedBy aStore).isEmpty) = true ∧
    has (exec .storeAcknowledgement storing) (fun t => cellGet 0 t.mem 0x20 == 0xAB && t.core.outq.isEmpty) = true ∧
    (({ storing with frame := 2000 } : State).there.expired 0 aStore.ticks) = true ∧ (storing.there.expired 0 aStore.ticks) = false := by decide +kernel

theorem witness_StoreEndsAtHome_late :
    has (exec .storeAcknowledgement { storing with frame := 2000 }) (fun t => t.core.outq.isEmpty && t.core.a.deferred == [⟨.timeout, 0x10020⟩]) = true ∧
    has (exec .requestTimeout (at0 { first := 1 } { storing with frame := 2000 }))
      (fun t => t.core.outq.isEmpty && t.mem.isEmpty && t.core.a.deferred == [⟨.timeout, 0x10020⟩]) = true := by decide +kernel

def aLoad : MemReq := ⟨7, 0, 0x10001, 0x10001, 2, some (.scalar 3 2 true), none, [], [], [], [], 0x10001, 0, false, none, none, none,
  some 0, false, 0, 0, false⟩
def loading (tags : List (Nat × Word)) : State :=
  { u0.modCore (fun c => { c with a := { c.a with memq := [aLoad], sEmpty := 8 } }) with mem := [(2, 0x80)], memTags := tags }

theorem witness_LoadDataArrives :
    ([loading [], loading [(0, 0xFF)]].all fun s =>
      let u := s.there
      match u.loadLocs (granuleVas 0x10001 2) with
      | .ok locs => u.core.a.memq[0]?.isSome && u.core.loadAllowed 7 && (u.loadNeeds false aLoad (.scalar 3 2 true) locs == 2) &&
          memReach 0x10001 2 && !u.orderedBefore aLoad (u.memTouches .read 0x10001 2) (locs.any (fun l => !l.cached)) 2
      | .error _ => false) = true ∧
    has (exec .loadDataArrival (loading [])) (fun t => t.core.a.rd 3 == 0xFFFFFFFFFFFF8000 && !t.core.a.sIsEmpty 3) = true ∧
    has (exec .loadDataArrival (loading [(0, 0xFF)])) (fun t => t.core.a.sIsEmpty 3 && t.core.a.deferred == [⟨.poison, 0x10000⟩]) = true ∧
    (({ loading [] with frame := 2000 } : State).there.expired 0 aLoad.ticks) = true ∧ (({ loading [] with frame := 1999 } : State).there.expired 0 aLoad.ticks) = false ∧
    (granuleVas 0x1003F 8).length = 2 := by decide +kernel

/-- A load in two parts: the first to be performed keeps its granules, and the data comes with the second. -/
theorem witness_LoadDataArrives_parts :
    (let r : MemReq := { aLoad with va := 0x1FFFF, lo := 0x1FFFF, n := 1, tva := 0x1FFFF }
     let s := u0.modCore (fun c => { c with a := { c.a with memq := [r, { r with lo := 0x20000 }], sEmpty := 8 } })
     (s.there.core.a.memq.any (fun x => x.id == r.id && x.lo != r.lo && x.load.isSome && x.got.isNone)) &&
       has (exec .loadDataArrival s) (fun t => t.core.a.sIsEmpty 3 && t.core.a.memq.map (fun x => x.got.isSome) == [true, false])) = true ∧
    has (exec .loadDataArrival { loading [] with frame := 2000 }) (fun t => t.core.a.deferred == [⟨.timeout, 0x10001⟩]) = true := by
  decide +kernel

theorem witness_TranslationEvents :
    (let s := at0 { va := 0x1FFFF } u0
     (s.ctx? 0).any (fun c => !c.stale.contains 0 && (walk ((tblGet c.replicas 0).getD []) 0x1FFFF).any (fun l => decide (0 < l.size)))) = true ∧
    (let s := { u0 with updates := [⟨0, 0, 0, [], [0, 1]⟩, ⟨0, 0, 0, [], []⟩] }
     decide (0 ∈ ([0, 1] : List Nat)) && has (exec .tlbInvalidateAck s) (fun t => t.updates.length == 2)) = true ∧
    (let s := { u0 with updates := [⟨0, 0, 9, [], [0]⟩] }
     s.settledOn 0 0 && has (exec .tlbInvalidateAck s) (fun t => t.updates.isEmpty && t.mail.map (fun m => m.seq) == [9])) = true ∧
    (let c : Context := { placedContext 0 with stale := [1], replicas := (placedContext 0).replicas ++ [(1, [])] }
     let s := at0 { die := 1 } { u0 with ctxs := [c] }
     (s.ctx? 0 == some c) && c.stale.contains 1 && (c.replicas.find? (fun x => !c.stale.contains x.1)).isSome &&
       has (exec .replicaResync s) (fun t => t.ctxs.all (fun x => x.stale.isEmpty))) = true := by decide +kernel

theorem witness_TranslationEvents_walk :
    (let s := at0 { va := 0x1FFFF } u0
     let w : Walk := ⟨0, 0x1FFFF, (tblGet s.homes 0).getD (s.homeMd 0)⟩
     let walking := s.onDie 0 (fun d => { d with walks := [w] })
     !(s.die 0).inReset && has (exec .pageWalk s) (fun t => (t.die 0).walks == [w] && (t.die 0).tlb.isEmpty) &&
       has (exec .pageWalk walking) (fun t => (t.die 0).walks.isEmpty && (t.die 0).tlb.length == 1)) = true ∧
    has (exec .replicaResync (at0 { first := 2, die := 7 } (u0.onDie 7 (fun d => { d with inReset := true })))) (fun t => !(t.die 7).inReset) = true := by
  decide +kernel

theorem witness_LostLineIsPoisoned : State.reset.populated 0 = true ∧ State.reset.populated (16 * 2 ^ 37) = false := by decide +kernel

/-! Power. -/

def asking (r : TokenReq) (b : Int) : State :=
  { u0 with clusters := u0.clusters.set 0 { u0.clusters[0] with reqs := [r], balance := b } }

theorem witness_TokenGrants :
    (let c := (asking ⟨0, 978, some 3⟩ 978).clusters[0]
     decide (((min 978 (2 * c.refill) : Nat) : Int) ≤ c.balance) && !c.reqs.isEmpty) = true ∧
    (let c := (asking ⟨0, 979, none⟩ 977).clusters[0]
     decide (c.balance < ((min 979 (2 * c.refill) : Nat) : Int))) = true ∧
    (let s := (asking ⟨0, 1, none⟩ 1).modA (fun a => { a with eng := .tokens 4, routine := some microR })
     (s.getCore 0).a.eng == .tokens 4 && (s.getCore 0).a.routine.isSome) = true := by decide +kernel

theorem witness_EpochLeaseAndWearEvents :
    (999 % 1000 ≠ 0) ∧ (({ u0 with frame := 1000 } : State).frame.toNat % 1000 = 0 ∧ 1000 / 1000 ≠ u0.epoch) ∧ (u0.clusters[31]).enabled ≠ [] ∧
    (leased.clusters[0]).lease.isSome = true ∧ (100 ≤ ({ leased with frame := 100 } : State).frame.toNat) ∧
    leased.core.id = 0 ∧ leased.core.busy = true ∧ 100000000 % 100000000 = 0 := by decide +kernel

/-! Synchronisation. -/

theorem witness_SynchronisationEvents :
    (u0.leaf? (u0.ctxDie 0) 0 0x10000).isSome = true ∧
    (let s := at0 { sb := 63 } ((barrierWord (2 ^ 62 + 5 * 2 ^ 32 + 5)).modA (fun a => { a with tcwaits := [(63, 3)], sEmpty := 8 }))
     s.core.busy && Memory.wf s.core.spad && has (exec .tcwaitPhaseComplete s) (fun t => t.core.a.rd 3 == 0x8000000000000000)) = true ∧
    (let s := u0.modA (fun a => { a with block := some (.fget 3 0x10010) })
     s.there.core.readAllowed && (match s.readCell 0x10010 with
      | .ok none => true
      | _ => false)) = true ∧
    (let s : State := { u0.modA (fun a => { a with block := some (.fwait 3 0x10010 false none false) }) with mem := [(0x18, 1)] }
     s.there.core.readAllowed && (match s.readCell 0x10010 with
      | .ok (some _) => true
      | _ => false)) = true ∧
    (match u0.readCell 0x20000 with
     | .error _ => true
     | _ => false) = true ∧
    (100 ≤ ({ u0 with frame := 100 } : State).frame.toNat) := by decide +kernel

/-! Copy commands in their queue. -/

def cmdOf (k : CopyKind) : CopyCmd := ⟨5, 0, 0, 3, k, true, [], true, 0, none, none, none, none, none, none, none, 0, none, 0⟩
def queued (k : CopyCmd) : State := u0.modCore (fun c => { c with ca := [k], a := { c.a with sEmpty := 8 } })

theorem witness_CopyCommandsComplete :
    (let k := cmdOf (.block 0x00F0000000000040 0x00F0000000000000 64 1 0 0 none)
     let u := (queued k).there
     u.core.runs k.ctx k.tcb && (u.core.queueOf .ca)[0]?.isSome && u.cmdReady .ca k && u.core.a.views.isEmpty && u.core.spadOk &&
     !u.core.a.hitsBarrier (spadOff 0x00F0000000000040) 64 && !isPoison (cellGet 0 u.core.spadTags 0) &&
     has (exec .copyComplete (queued k)) (fun t => t.core.a.rd 3 == 0x4000000000)) = true ∧
    (queued (cmdOf (.cfence 7))).there.cmdReady .ca (cmdOf (.cfence 7)) = true ∧
    (queued (cmdOf (.unsub 63))).there.cmdReady .ca (cmdOf (.unsub 63)) = true ∧ (queued (cmdOf (.unsub 63))).there.core.subs = [] := by
  decide +kernel

theorem witness_CopyCommandsComplete_granule :
    (let k : CopyCmd := { cmdOf (.block 0x00F0000000000040 0x00F0000000000000 64 1 0 0 none) with data := [(0, (7, 1))] }
     let u := (queued k).there
     (u.cmd? .ca k.id == some k) && !u.core.writing .ca k.id && u.core.engineRoom && !u.saving 0 && !u.expired 0 k.sent &&
       u.placesReady .ca k (u.rangeTouches u.core.a .write 0x00F0000000000040 64) && !barrierHit (u.barrierBase 0) 64 64 &&
       has (exec .copyComplete (queued k)) (fun t => t.core.a.rd 3 == 0x4000000000 && t.core.spad == [(64, 7)] && t.core.spadTags == [(1, 1)]) &&
       has (exec .copyComplete (at0 { fn := 1 } (queued k))) (fun t => t.core.ca.length == 1 && t.core.spad.isEmpty)) = true := by
  decide +kernel

def aSub (dir : RingDir) (slot : SlotState) : Subscription :=
  ⟨0, 0, 63, dir, 3, true, 0x10000, 64, 2, 64, 128, 5, 0, 128, [slot], 0, 0, 0, [], 0, none, []⟩
def subscribed (x : Subscription) : State := u0.modCore (fun c => { c with subs := [x] })

theorem witness_PausedTransfersResume :
    (let k (va : Word) : CopyCmd := { cmdOf (.cas va true 0 0) with paused := some va }
     (queued (k 0x10000)).there.mapped 0 0x10000 && !(queued (k 0x20000)).there.mapped 0 0x20000 &&
     has (exec .copyResume (at0 { flag := true } (queued (k 0x20000)))) (fun t => t.core.ca.isEmpty)) = true ∧
    (let x : Subscription := { aSub .inp .filling with paused := some 0x20000 }
     ((at0 { flag2 := true, flag := true } (subscribed x)).there.core.subs[0]?).isSome &&
       has (exec .copyResume (at0 { flag2 := true, flag := true } (subscribed x))) (fun t => t.core.subs.isEmpty && t.core.a.deferred.length == 1)) = true := by
  decide +kernel

theorem witness_AtomicsApplyOnce :
    ([cmdOf (.cas 0x10038 true 0 9), cmdOf (.fput 0x10030 9), { cmdOf (.acc .addI64 0x10000 0x10000 64) with data := [(0, (5, 0))] }].all fun k =>
      let u := (queued k).there
      let va := k.addr.toNat
      k.isAtomic && k.applied.isNone && u.cmdReady .ca k && decide (u.core.atomicsBefore k.id < 64) && decide (0 < k.portBytes) &&
      decide (va % 64 + k.portBytes ≤ 64) && u.core.runs k.ctx k.tcb && Memory.wf u.mem &&
      (match u.locateAll u.core.id (u.archOf k.ctx k.tcb) true .update true (granuleVas va k.portBytes) with
       | .ok [.phys pa pte] => u.placesReady .ca k (u.rangeTouches (u.archOf k.ctx k.tcb) .update va k.portBytes) && !isPoison (u.granule pa).2 &&
           !u.placeViolates k.ctx k.tcb (u.archOf k.ctx k.tcb) va (.phys pa pte) && (u.portTable (.phys pa pte)).isEmpty
       | _ => false)) = true ∧
    has (exec .atomicApply (queued (cmdOf (.cas 0x10038 true 0 9)))) (fun t => cellGet 0 t.mem 0x38 == 9 && !t.core.a.sIsEmpty 3) = true ∧
    has (exec .atomicApply { queued { cmdOf (.faa 0x10038 true 9) with seqNo := some 4 } with atomTabs := [⟨0, 4, 0x10038, [9], 77⟩] })
      (fun t => t.core.a.rd 3 == 77 && t.mem.isEmpty) = true ∧
    (2 < 3) ∧ 100 ≤ ({ u0 with frame := 100 } : State).frame.toNat := by decide +kernel

/-- An applied atomic whose answer was lost is sent again and answers as before; a busy port delays one. -/
theorem witness_AtomicsApplyOnce_again :
    (let k : CopyCmd := { cmdOf (.cas 0x10038 true 0 9) with applied := some 4, sent := some 0 }
     !(queued k).there.expired 0 k.sent && decide (k.retry < 3) && has (exec .atomicResend (queued k)) (fun t => t.core.a.rd 3 == 4)) = true ∧
    (let k : CopyCmd := { cmdOf (.cas 0x10038 true 0 9) with busy := some 100 }
     has (exec .atomicBusyRetry (queued k)) (fun t => t.core.ca == [k]) &&
       has (exec .atomicBusyRetry { queued k with frame := 100 }) (fun t => cellGet 0 t.mem 0x38 == 9)) = true := by decide +kernel

theorem witness_RingTransfers :
    (let k := cmdOf (.subs .inp 63)
     let x : Subscription := { aSub .inp .free with accepted := false }
     let s := (queued k).modCore (fun c => { c with subs := [x] })
     s.there.cmdReady .ca k && (s.there.core.subs.find? (fun y => y.sb0 = 63) == some x) &&
       (s.there.subMd 0 x).any (fun md => decide (s.there.subsOf md < 256))) = true ∧
    ([aSub .inp .filling, aSub .out .draining].all fun x =>
      let u := (subscribed x).there
      let off := x.ring + x.slot * x.slotsz + x.off
      decide (off % 64 = 0 ∧ x.off + 64 < x.nrow * x.rowlen ∧ x.sb0 + x.slot < 64) && !u.core.a.hitsBarrier off 64 && Memory.wf u.core.spad &&
      Memory.wf u.mem && x.paused.isNone && x.stopping.isEmpty &&
      (match u.subLoc x .read false (x.va x.off), u.subLoc x .write true (x.va x.off) with
       | .ok (.phys pa pte), .ok (.phys pb pte') => !isPoison (u.granule pa).2 && !u.placeViolates x.ctx x.tcb Arch.zero (x.va x.off) (.phys pb pte') &&
           !isPoison (cellGet 0 u.core.spadTags (off / 64)) && pa == pb && pte == pte'
       | _, _ => false)) = true ∧
    has (exec .loaderPush (subscribed (aSub .inp .filling))) (fun t => t.core.subs.map (fun y => y.off) == [64]) = true := by decide +kernel

theorem witness_RingTransfers_outcomes :
    has (exec .storerPull (subscribed (aSub .out .draining))) (fun t => t.core.subs.map (fun y => y.off) == [64]) = true ∧
    (let s := (queued (cmdOf (.subs .inp 63))).modCore (fun c => { c with subs := [{ aSub .inp .free with accepted := false }] })
     has (exec .subscriptionAccept s) (fun t => t.core.subs.all (fun y => y.accepted) && t.core.ca.isEmpty)) = true ∧
    (let u := (subscribed (aSub .inp .filling)).there
     !u.saving 0 && !u.subInView (aSub .inp .filling) 0x10000 && !barrierHit (u.barrierBase 0) 0 64) = true := by decide +kernel

/-- A send of row 127 whose signature is that of an accumulator row at +0. -/
def aSend (stale : Bool) (sig : Option Word) (done : Bool) : CopyKind := .cpys 0x10000 512 127 1 0 (some 3) [0] [0] stale sig done

theorem witness_VerifiedTransfers :
    (let k := cmdOf (aSend false (some (foldRows [0])) false)
     let u := (queued k).there
     u.cmdReady .ca k && u.core.runs 0 0 && !u.expired k.ctx k.sent &&
       (match u.locate u.core.id (u.archOf 0 0) true .write true 0x10000 with
        | .ok _ => true
        | .error _ => false) &&
       has (exec .cpysReceive (queued k)) (fun t => t.core.ca.map (fun c => c.kind) == [aSend false (some (foldRows [0])) true])) = true ∧
    (let k := cmdOf (aSend false (some (foldRows [0])) true)
     let s := at0 { first := 7, count := 1 } (queued k)
     let u := s.there
     let va := (k.granuleVa 7).2
     u.cmdReady .ca k && !k.has 7 && (u.cmd? .ca k.id == some k) && u.core.engineRoom && !u.saving 0 && (windowOf va == .user) &&
       (u.archOf 0 0).views.isEmpty && u.placesReady .ca k (u.rangeTouches (u.archOf 0 0) .write va 64) &&
       (match u.locate u.core.id (u.archOf 0 0) true .write true va with
        | .ok (.phys pa pte) => !u.placeViolates 0 0 (u.archOf 0 0) va (.phys pa pte)
        | _ => false) &&
       has (exec .cpysReceive s) (fun t => t.core.outq.length == 1 && t.core.ca.any (fun c => c.has 7))) = true ∧
    has (exec .cpysReceive (queued (cmdOf (aSend true none false)))) (fun t => t.core.a.rd 3 == 3) = true ∧
    (let k : CopyCmd := { cmdOf (aSend false (some (foldRows [0] ^^^ 1)) false) with retry := 2 }
     has (exec .cpysReceive (queued k)) (fun t => t.core.ca.map (fun c => c.retry) == [3])) = true ∧
    (let k : CopyCmd := { cmdOf (aSend false (some (foldRows [0] ^^^ 1)) false) with retry := 3 }
     has (exec .cpysReceive (queued k)) (fun t => t.core.a.deferred == [⟨.xferSig, 0x10000⟩])) = true := by decide +kernel

/-- A context whose page may be published, with an export window over its first granule. -/
def pubCtx : Context :=
  { placedContext 0 with
    replicas := [(0, [(0, 0x20201#64), (0x20000, 0x30201#64), (0x30008, 0x1F#64)])], exportWin := (0x10000, 64) }
def published (k : CopyKind) : State := { queued (cmdOf k) with ctxs := [pubCtx] }

theorem witness_publication :
    (let k := CopyKind.publ 0x10000 65536 .package
     let s := published k
     s.there.cmdReady .ca (cmdOf k) && (match s.there.publPages 0 0x10000 0x20000 1 0x10000 [] with
      | .ok ps => ps.length == 1
      | .error _ => false) &&
     has (exec .publSwap s) (fun t => t.ctxs.all (fun c => (tblGet c.replicas 0).any (fun r => tblGet r 0x30008 == some 0x41F#64)))) = true := by
  decide +kernel

theorem witness_publication_waits :
    (let k : CopyCmd := { cmdOf (.publ 0x10000 65536 .package) with done := 1 }
     let s : State := { queued k with ctxs := [pubCtx] }
     !s.there.oldAccesses 0 0x10000 65536 && has (exec .publSwap s) (fun t => t.core.ca.isEmpty)) = true ∧
    (let s := published (.publ 0x10000 65536 .package)
     s.there.publReady (cmdOf (.publ 0x10000 65536 .package)) 0x10000 65536 .package) = true := by decide +kernel

theorem witness_collectives :
    (let k := cmdOf (.coll .ar .addI32 0x10000 0x10040 0 64 100)
     let s := at0 { count := 2, first := 1, others := [[(1, 0)]] } (published k.kind)
     s.there.cmdReady .ca k && decide (s.input.others.length + 1 = s.input.count ∧ s.input.first < s.input.count ∧ s.frame.toNat < k.ticks + 100) &&
       (match s.there.collDest k 0x10000 1 with
        | .ok _ => true
        | .error _ => false) && has (exec .collComplete s) (fun t => cellGet 0 t.mem 0x10000 == 1 && t.core.a.rd 3 == 0x4000000000)) = true ∧
    (let s : State := { published (.coll .ag .addF32 0x10000 0x10040 0 64 100) with frame := 100 }
     has (exec .collTimeout s) (fun t => t.core.ca.isEmpty && !t.core.a.sIsEmpty 3)) = true := by decide +kernel

theorem witness_peer_requests :
    (let s := at0 { peer := ⟨0, 0, [(7, 0)], none⟩ } { u0 with ctxs := [pubCtx] }
     has (exec .peerRequest s) (fun t => cellGet 0 t.mem 0x10000 == 7)) = true ∧
    (let s := at0 { peer := ⟨0, 64, [(7, 0)], none⟩ } { u0 with ctxs := [pubCtx] }
     has (exec .peerRequest s) (fun t => t.mem == s.mem)) = true := by decide +kernel

/-- A peer's combine into a poisoned granule changes nothing. -/
theorem witness_peer_combine :
    (let s (tags : List (Nat × Word)) : State := at0 { peer := ⟨0, 0, [(7, 0)], some .addI64⟩ } { u0 with ctxs := [pubCtx], memTags := tags }
     let was := cellGet 0 (s []).mem 0x10000
     has (exec .peerRequest (s [])) (fun t => cellGet 0 t.mem 0x10000 == was + 7) &&
       has (exec .peerRequest (s [(0x400, 0xFF)])) (fun t => t.mem == (s []).mem)) = true := by decide +kernel

/-! Tasks. -/

def idleCore : State := { withReady with core := { withReady.core with busy := false } }

theorem witness_TaskPickDispatches :
    (let u := idleCore.there
     u.mayPickOn u.core.id && (match u.pick u.core.id with
      | some (q, e) => !u.outranked u.core.id q e && (u.poisonIn e.ctx e.tcb.toNat 128).isNone && (match u.task? e.ctx e.tcb with
        | some t => decide (t.restarts = 0 ∧ t.saved = none ∧ (tcbEntry t.snap).toNat % 32 = 0 ∧ (tcbUvec t.snap).toNat % 32 = 0 ∧ tcbViews t.snap = 0 ∧ t.tiles = [])
        | none => false) && (u.ctx? e.ctx).isSome && (u.readVa (u.ctxDie e.ctx) e.ctx e.tcb.toNat 128).isNone
      | none => false) &&
     has (exec .taskPick idleCore) (fun t => t.core.busy && t.core.a.tcb == 0x20000 && t.core.a.rd 5 == 0x20000)) = true ∧
    (let f : Frame := ⟨{ placedArch with s := Vector.replicate 32 9 }, true, none⟩
     let s : State := { idleCore with tasks := idleCore.tasks.map (fun t => { t with saved := some f, wait := some .yielded }) }
     s.there.mayPickOn s.there.core.id && has (exec .taskPick s) (fun t => t.core.busy && t.core.a.rd 31 == 9)) = true := by decide +kernel

def aStream : Stream := ⟨3, 0, 0x10080, 0x18000, 16, 0, [0], 0, 0, 0, 0, false, none⟩
def rooted : State := { u0 with streams := [aStream], bitmap := [3], input := { stream := 3 }, tasks := [], launches := [], nlaunch := 7 }

/-- A root whose core type is one that the spec lists, and one that no rule lists. -/
theorem witness_RootAdmission :
    (let s := rooted
     (s.stream? 3 == some aStream) && (s.ctx? 0).any (fun c => s.admits aStream c) &&
     decide (aStream.admitted + 1 - aStream.consumed ≤ aStream.ringN) && Memory.tagsWf s.memTags &&
     (match s.translate (s.ctxDie 0) 0 (0x10080 + 128) .update false with
      | .ok _ => true
      | .error _ => false) &&
     has (exec .rootAdmission s) (fun t => t.nlaunch == 8 && t.tasks.map (fun y => (y.tcb, y.st == .ready)) == [(0x10100, true)])) = true ∧
    tcbF 0 0x68 1 ∈ [0, 5, 6] ∧ tcbDepcnt 0 = 0 ∧ tcbDepcnt (BitVec.ofNat 1024 (2 ^ (8 * 0x4C))) ≠ 0 := by decide +kernel

def releasing (flags : Nat) : State :=
  { u0.modCore (fun c => { c with rels := [⟨9, 0, .admission 0x10100 1 0 false, false⟩] }) with
    tasks := [{ placedTask with nspawn := 1, npend := 1 }], mem := cellSets 0 [] (cellsOf (0x100 + 0x50) 4 flags) }

theorem witness_TaskAdmission :
    (let s := releasing 0
     match s.there.core.rels, s.there.readTcb 0 0x10100, s.there.task? 0 0 with
     | [r], .ok (x, pa), some p => s.there.releaseDone r 0 && (s.there.admitFault 0 0x10100 pa x (some p) (some 0)).isNone &&
         (s.there.placeOf 0 (tcbHome x) (.core 0) (some 0)).isSome
     | _, _, _ => false) = true ∧
    (let s := releasing (2 ^ 24)
     match s.there.readTcb 0 0x10100, s.there.task? 0 0 with
     | .ok (x, pa), some p => (s.there.admitFault 0 0x10100 pa x (some p) (some 0)).isSome && s.there.core.runs 0 0
     | _, _ => false) = true ∧
    has (exec .taskAdmission (releasing 0)) (fun t => t.tasks.length == 2 && t.core.rels.isEmpty) = true ∧
    has (exec .taskAdmission (releasing (2 ^ 24))) (fun t => t.tasks.length == 1 && t.core.a.deferred.length == 1) = true := by decide +kernel

def decrementing : State :=
  { u0 with decs := [⟨0, 0x10100, 0, 0⟩], tasks := [placedTask, { placedTask with tcb := 0x10100, st := .armed }],
            mem := cellSets 0 [] (cellsOf (0x100 + 0x4C) 4 1) }

theorem witness_DepcntDecrement :
    (match decrementing.readVa (decrementing.ctxDie 0) 0 0x10100 128 with
     | some n => tcbDepcnt (BitVec.ofNat 1024 n) == 1 && (decrementing.poisonIn 0 (0x10100 + 0x40) 64).isNone
     | none => false) = true ∧
    has (exec .depcntDecrement decrementing) (fun t => t.decs.isEmpty && t.tasks.any (fun y => y.tcb == 0x10100 && y.st == .ready)) = true := by
  decide +kernel

/-- A declared tile of 64 bytes and its view in the view space of a core, for ADD_I32 over granules. -/
def pieceOf (addr : Nat) : ViewWin := ⟨0x10000, 64, 0, 0, 0, 0, false, 0, addr⟩
def epochTask : Task :=
  { placedTask with nspawn := 2, blocks := [⟨0, 1, [pieceOf 0], [], false, 0, false, none⟩, ⟨1, 2, [pieceOf 64], [], false, 0, false, none⟩] }

theorem witness_TaskServiceEvents :
    (let t : Task := { placedTask with snap := BitVec.ofNat 1024 (8 * 2 ^ (8 * 0x50)) }
     let s : State := { u0 with tasks := [t], frame := 100000 }
     tcbTickv t.snap && (t.st == .running) && !t.slipped && decide (s.frame.toNat = tcbTick t.snap + 100000) && (s.task? 0 0 == some t) &&
       has (exec .tickSlip s) (fun v => v.tasks.all (fun y => y.slipped))) = true ∧
    (let s : State := { u0.modA (fun a => { a with block := some (.join 3 0 false) }) with tasks := [{ placedTask with npend := 1 }], frame := 200 }
     s.there.joinChild.isNone && decide (0 + 200 ≤ s.there.frame.toNat) &&
       has (exec .joinSuspendTimeout s) (fun t => t.core.a.block == some (.suspend (.join 3 false)))) = true ∧
    (let s : State := { u0 with resources := [⟨1, 0, 0, none⟩] }
     (s.launch? 0).isSome && has (exec .resourceResolution s) (fun v => v.tasks.isEmpty) &&
       has (exec .resourceResolution (at0 { flag := true } s)) (fun v => v.tasks.length == 1)) = true ∧
    (let s := at0 { ptes := [⟨0x30010, 0x1000F#64⟩] } { u0 with tasks := [{ placedTask with st := .suspended, wait := some (.page 0x20000) }] }
     (s.firmwareMap 0 s.input.ptes).isMapped 0 0x20000 && has (exec .pageFaultResolution s) (fun v => v.tasks.all (fun y => y.st == .ready))) = true := by
  decide +kernel

theorem witness_Combine :
    (let s : State := { u0 with tasks := [epochTask], ctxs := [{ placedContext 0 with prog := ⟨0, 16, .retain, 65536, [⟨0, 4096, 3⟩], [], [], []⟩ }] }
     match epochTask.pairAt 0, s.ctx? 0 with
     | some (l, r), some c => (l.parts == [pieceOf 0]) && (r.parts == [pieceOf 64]) && c.preempt.isNone &&
         (match s.readPiece 0 (pieceOf 0), s.readPiece 0 (pieceOf 64), s.placeLike c (pieceOf 0) with
          | .ok xs, .ok ys, some d => xs.length == ys.length && (match s.writePiece 0 d ((xs.zip ys).map (fun p => combineGranule (pieceOf 0) p.1 p.2)) with
            | .ok _ => true
            | .error _ => false)
          | _, _, _ => false) &&
         has (exec .combine s) (fun v => v.tasks.all (fun t => t.blocks.length == 1))
     | _, _ => false) = true := by decide +kernel

theorem witness_TakeoverEvents : u0.boot = .running ∧ (u0.nossv = false ∧ u0.takeSup = false) ∧
    ({ u0 with nosch := true } : State).nosch = true ∧ ({ u0 with takeSch := true } : State).takeSch = true ∧
    ({ u0 with takeSup := true } : State).takeSup = true ∧ u0.takeSup = false := by decide +kernel

/-! The host. -/

theorem witness_HostWindowAccess :
    (let s := rooted
     decide (0x7F < 0x80) && s.ready && decide (aStream.roots.length < 64) && decide (64 ≤ (List.replicate 64 (0 : BitVec 1024)).length) &&
     (s.boot != .rom) && (s.boot != .packageFault) && (s.boot != .awaiting) && Memory.wf s.mem && Memory.tagsWf s.memTags &&
     (s.aperturePa 0 0 0).isSome && !isPoison (s.granule 0).2 && (s.aperturePa 0 0 (2 ^ 52)).isNone) = true ∧
    has (exec .apertureWrite (at0 { bytes := [7, 8], off := 63 } rooted)) (fun t => cellGet 0 t.mem 63 == 7 && cellGet 0 t.mem 64 == 8) = true ∧
    has (exec .spawnWindowWrite (at0 { stream := 3, bytes := List.replicate 128 0 } rooted))
      (fun t => t.streams.all (fun x => x.roots.length == 2)) = true := by decide +kernel

/-- An update of function 7 in progress. -/
def updating0 : State := { u0 with updates := [⟨0, 7, 0, [], [0]⟩] }

theorem witness_MailboxCommands :
    (({ State.reset with boot := .awaiting } : State).boot = .awaiting ∧ 2 ^ 26 ≤ 2 ^ 26) ∧
    (u0.ready = true ∧ 63 < 64 ∧ u0.ctx? 63 = none ∧ (16 ≤ 16) ∧ (7 ∈ ([7] : List Nat) ∧ (u0.die 7).enabled = true)) ∧
    ((u0.ctx? 0).any (fun c => c.owner == 0) = true ∧ (u0.ctx? 0).any (fun c => c.owner != 1) = true ∧ u0.takeSch = false) ∧
    ((12 ≤ 12 ∧ 65536 = 2 ^ (12 + 4)) ∧ 0x00EFFFFFFFFFE000 % 128 = 0 ∧ 0x00EFFFFFFFFFE000 + 8192 ≤ 0x00F0000000000000 ∧ 127 < 128 ∧ 119 < 120 ∧
      u0.stream? 1023 = none) ∧
    (let s : State := { rooted with streams := [{ aStream with running := some 7 }], launches := [{ placedLaunch with num := 7 }] }
     (s.stream? 3).any (fun x => x.running == some 7) && (s.launch? 7).isSome &&
       has (exec .streamabort s) (fun t => t.launches.isEmpty)) = true ∧
    (let e : EventRec := ⟨0, 3, 0, 0x20000⟩
     let s : State := { u0 with ctxs := [{ placedContext 0 with events := Log.empty.add logCap e }] }
     ((s.ctx? 0).any (fun c => c.events.recs.reverse.filter (fun e => e.type = 3 && e.tcb = 0) == [e])) && !s.isMapped 0 0x20000 &&
       has (exec .pagefail s) (fun t => t.tasks.isEmpty)) = true := by decide +kernel

theorem witness_mailboxes_free : (u0.mailBusy 0 = false ∧ rooted.mailBusy 0 = false ∧ (updating0).mailBusy 7 = true) ∧
    has (exec .ctxcreate (at0 { ctxp := ⟨63, 16, [0], (0, 0), (0, 0), (0, 0), [], (0, 0), ⟨0, 16, .retain, 65536, [], [], [], []⟩⟩ } u0)) (fun t => t.ctxs.length == 2) = true := by decide +kernel

def updating (pte : Word) : State := at0 { ptes := [⟨0x30010, pte⟩] } u0

theorem witness_TableAndParameterCommands :
    (updating 0x1000F).updates = [] ∧ (updating 0x1000F).updateOk ⟨0, 0, 0, [⟨0x30010, 0x1000F#64⟩], []⟩ = true ∧
    (updating 0x1018F).updateOk ⟨0, 0, 0, [⟨0x30010, 0x1018F#64⟩], []⟩ = false ∧ (updating 0).input.flag = false ∧
    (1000 ≤ 1000 ∧ 1000000 ≤ 1000000 ∧ 999 < 1000 ∧ 6000000000 < 6000000001) := by decide +kernel

def preempted (commit : Bool) : State :=
  { u0 with core := Core.fresh 0, tasks := [], launches := [], frame := 10005,
            ctxs := [{ placedContext 0 with preempt := some 5, image := some ⟨0, 5, 5, [], [], [], commit⟩ }] }

theorem witness_PreemptionAndRestore : (u0.ctx? 0).any (fun c => c.preempt.isNone) = true ∧
    ((preempted false).ctx? 0).any (fun c => c.preempt == some 5 && c.image.any (fun im => !im.commit)) = true ∧
    5 + 10000 + 0 ≤ (preempted false).frame.toNat ∧
    (∀ n ∈ (preempted false).coreIds, (preempted false).holdsOf 0 n = true → ((preempted false).getCore n).arbit = none) ∧
    ((preempted true).ctx? 0).any (fun c => !(preempted true).diesTaken c && ((preempted true).targets c [] [] []).isSome) = true ∧
    has (exec .restore (preempted true)) (fun t => t.ctxs.all (fun c => c.preempt.isNone)) = true := by decide +kernel

/-! The pipeline, steps and words. -/

theorem witness_ResultsLandAfterLatency : (31 : Reg) ≠ 0 ∧ 1 ≤ 1 := by decide

theorem witness_NextBundleFollows :
    (let a : Arch := { placedArch with loops := placedArch.loops.set 2 ⟨true, 0x10000, 0x10000, 2⟩, order := [2, 1] }
     a.pend.isNone && !([1] : List LoopNo).contains 2 && (a.loops[(2 : LoopNo)]).act && (a.loops[(2 : LoopNo)]).stop == a.pc &&
       a.advance.pc == 0x10000 && (a.advance.loops[(2 : LoopNo)]).count == 1 && a.advance.advance.pc == 0x10020 &&
       a.advance.advance.order == [1]) = true ∧
    (let a : Arch := { placedArch with pend := some ⟨0x40000, 2, true⟩ }
     a.advance.pend == some ⟨0x40000, 1, true⟩ && a.advance.advance.pc == 0x40000 && a.advance.advance.pend.isNone) = true ∧
    placedArch.pend = none ∧ placedArch.order = [] := by decide +kernel

theorem witness_frames : (Instr.bz 0 0).place = .slot .ctl ∧ (Instr.vperm .queue .z .z 0).place = .slot .va ∧ (Instr.vexp2 .queue .z 0).place = .slot .vb ∧
    Instr.fenceUo.place = .slot .mem ∧ (Instr.unsub .ca 0 0).place = .slot .ca ∧ (Instr.unsub .cb 0 0).place = .slot .cb ∧
    (Instr.mseal 3).place = .slot .mx ∧ Instr.merge.place = .slot .sys ∧ Instr.merge ≠ .utret ∧ (∀ m n, Instr.merge ≠ .segs m n) := by
  refine ⟨rfl, rfl, rfl, rfl, rfl, rfl, rfl, rfl, by decide, nofun⟩

def blocked : State :=
  ((State.reset.withBundle (bundleWith .ctl 0x04642C00)).modA (fun a => { a with sEmpty := 16, words := bundleWords (bundleWith .ctl 0x04642C00) }))

/-- A SEGS that waits for a push in flight to a segment that it turns off. -/
def gating : State :=
  ((State.reset.withBundle (bundleWith .sys 0x54000104)).modA (fun a => { a with words := bundleWords (bundleWith .sys 0x54000104) })).fly
    5 2 [.vrf 1280 0]

theorem witness_FrozenBundleHolds :
    ([blocked, gating].all fun s =>
      !s.core.pierFull s.core.a.toIssue.2.2 && s.core.a.toIssue.2.2.any s.frozenBy && !s.rowsGoOn s.core.a.toIssue.2.2) = true ∧
    gatesOf blocked.core.a.toIssue.2.2 = none ∧ gatesOf gating.core.a.toIssue.2.2 = some 4 := by decide +kernel

theorem witness_StepRunsTheNextEvent : isEvent .timeBaseTick = true ∧ isEvent .nopCtl = false ∧ isReset .deviceReset = true ∧
    isReset .timeBaseTick = false ∧ u0.boot ≠ .packageFault := by decide +kernel

/-- The bundle of `add.w s3, s4, s5` before it is fetched, and after. -/
def unfetched : State := State.reset.withBundle (bundleWith .ctl 0x04642C00)
def fetched : State := unfetched.modA (fun a => { a with words := bundleWords (bundleWith .ctl 0x04642C00) })

theorem witness_CycleRunsDecodedInstructions :
    (let t := unfetched.engineCycle false
     unfetched.core.busy && unfetched.core.arbit.isNone && (unfetched.core.stall == 0) && (unfetched.core.entry == 0) && (t.core.who == unfetched.core.who) &&
     t.core.sealErr.isNone && !t.preempting && t.core.a.block.isNone && (t.modCore Core.reach).core.a.deferred.isEmpty &&
     (t.modCore Core.reach).core.a.lx.isNone) = true ∧
    (unfetched.core.a.words.isEmpty && (windowOf unfetched.core.a.pc.toNat == .user) &&
      !unfetched.overdue unfetched.core.fetchAt && (unfetched.core.icache.isEmpty) &&
      (match unfetched.translateVia unfetched.core.tlb1 0 0 unfetched.core.a.pc.toNat .exec false with
       | .ok (pa, e) => (match unfetched.readLocs true [.phys pa e] with
         | ([(_, tag)], _) => !isPoison tag
         | _ => false)
       | .error _ => false)) = true ∧
    ((illegalSlot fetched.core.a.decoded).isNone && !fetched.core.pierFull fetched.toIssue && !fetched.toIssue.any fetched.frozenBy &&
      !fetched.rowCycle.core.drainInWay fetched.toIssue && !fetched.core.iss.trapped && fetched.core.a.block.isNone &&
      fetched.toIssue.contains (.add 3 4 5 true)) = true ∧
    (let s := placedMicro (14#6 ++ 0#58)
     !s.overdue (s.core.mxAt.map Prod.fst) && s.core.microReady.any (fun r => r.lib.isNone && decide (r.upc ≤ 4095) && ((decodeMicro (s.core.microWord r.upc)).toOption == some (.mPermit 0)))) = true := by
  decide +kernel

theorem witness_round_trips :
    ([.slli 1 2 true 31, .movhi 31 31 0xFFFF, .lds 31 31 0x3FF (.sync .system) .w, .vfma .vb (.v 31 false) (.g 11) .fl .f16x2 7, .vperm (.g 11) .k .li 7,
      .mdrain 3 31 31 31 true true .tag true, .cas .cb 31 31 31 31 true .d, .segs .retain 16, .mAddp 7 7 .imm 0xFFFFFFFFFFFF] : List Instr).all Instr.wf = true := by
  decide +kernel

theorem witness_WordsHaveOneReading : 0xFFFFFFFF < 2 ^ 32 ∧ 0x04642C00 < 2 ^ 32 ∧ (decodeSlot .ctl 0x04642C00).toOption.isSome = true ∧
    (decodeMicro 0x0E00000000000000).toOption.isSome = true := by decide +kernel

theorem witness_FrameOnlyTicks : has (exec .firmwareInit State.reset) (fun t => t.frame == 0) = true ∧ Instr.firmwareInit ≠ .timeBaseTick ∧
    Instr.firmwareInit ≠ .powerOnReset ∧ State.reset.timeBase = true := by decide +kernel

theorem witness_StepKeepsMemoryForm : storing.memOk = true ∧
    has (step { storing with agenda := [(.storeAcknowledgement, {})] }) (fun t => t.memOk && !t.mem.isEmpty) = true := by decide +kernel

/-! ### More witnesses: where instructions trap, and the events that answer gangs, cells, atomics and the host -/

/-- A LOOP of an active level, of an end in its own bundle, and of one beyond the end of an active level. -/
theorem witness_TransferTraps_loops :
    ([(1, 1), (0, 0), (0, 2)] : List (LoopNo × BitVec 16)).all (fun x =>
      inLoop.core.a.pend.isNone && has (exec (.loop x.1 0 x.2) inLoop) (fun t => !t.core.busy)) = true ∧
    has (exec (.loop 0 0 1) inLoop) (fun t => t.core.a.pend == some ⟨0x10040, 1, false⟩) = true := by decide +kernel

/-- The scratchpad's first granules with the given tags, and s4 at an offset. -/
def tagsAt (off : Nat) (tags : List (Nat × Word)) : State :=
  setS 4 (BitVec.ofNat 64 (0x00F0000000000000 + off)) (u0.modCore (fun c => { c with spadTags := tags }))

/-- One state for each trap of LDX: poison, no format, past the window, and the second granule poisoned or of another format. -/
theorem witness_TaggedAccessTraps :
    ([tagsAt 0 [(0, 0xFF)], tagsAt 0 [(0, 0x7E)], tagsAt 0x3FFFC0 [(0xFFFF, 1)], tagsAt 0 [(0, 1), (1, 0xFF)], tagsAt 0 [(0, 1), (1, 2)]].all fun s =>
      let ea := s.addr 4 0 64
      (s.memFault false false 64 64 ea).isNone && inSpad ea.toNat && has (exec (.ldx 2 4 0 .plain) s) (fun t => !t.core.busy)) = true := by
  decide +kernel

/-- One state for each trap of STPK: poison, no format, a granule of the barrier block, poison behind a bad tag, and a scale that is kept. -/
theorem witness_TaggedAccessTraps_stpk :
    ([tagsAt 0 [(0, 0xFF)], tagsAt 0 [(0, 0x7E)], tagsAt 0x3FFDC0 [(0xFFF7, 1)], tagsAt 0 [(0, 0x7F80000000000001), (1, 0xFF)],
      tagsAt 0 [(0, 0x7F80000000000001), (1, 0x7F80000000000001)]].all fun s =>
      (s.memFault true true 64 64 (s.addr 4 0 64)).isNone && has (exec (.stpk 2 4 0 .plain .keep) s) (fun t => !t.core.busy)) = true := by
  decide +kernel

/-- Every lane of a gather at one address: outside the window, unaligned, and poisoned. -/
theorem witness_GatherTraps :
    ([(0x00F00000003FFFFD, []), (0x00F0000000000002, []), (0x00F0000000000040, [(1, 0xFF)])] : List (Word × List (Nat × Word))).all (fun x =>
      let s := setS 4 x.1 (u0.modCore (fun c => { c with spadTags := x.2 }))
      has (exec (.ldg 1 4 0 false) s) (fun t => !t.core.busy)) = true := by decide +kernel

/-- LEASEREL of another core's lease, and of one at its expiry tick. -/
theorem witness_PowerInstructionEffects_others :
    (let other : State := { leased with clusters := leased.clusters.set 0 { leased.clusters[0] with lease := some ⟨1130, 100, 1, 0⟩ } }
     has (exec (.leaserel 3) other) (fun t => t.core.a.rd 3 == 1 && (t.clusters[0]).lease.isSome)) = true ∧
    has (exec (.leaserel 3) { leased with frame := 100 }) (fun t => t.core.a.rd 3 == 1 && (t.clusters[0]).lease.isSome) = true ∧
    has (exec (.leaserel 3) { leased with frame := 99 }) (fun t => t.core.a.rd 3 == 0 && (t.clusters[0]).lease.isNone) = true := by decide +kernel

/-- Each trap of SPAWNL and of RUNINL with an address, in turn: count, window, alignment, index. -/
theorem witness_SpawnEffects_traps :
    ([(0x20000, 0, 0), (0x20000, 65, 0), (0x00F0000000000000 - 128, 2, 0), (0x20040, 1, 0), (0x20000, 1, 1048575)] : List (Nat × Nat × Nat)).all
      (fun x =>
        let s : State := { operands (BitVec.ofNat 64 x.1) (BitVec.ofNat 64 x.2.1) 0 with tasks := [{ placedTask with nspawn := x.2.2 }] }
        has (exec (.spawnl 3 1 2) s) (fun t => !t.core.busy) && (x.2.1 ≠ 1 || has (exec (.runinl 3 1) s) (fun t => !t.core.busy))) = true := by
  decide +kernel

/-- LEASE_EXPIRED that waits goes before a deferred fault of class 1, and a hardware error before both. -/
theorem witness_FaultsAfterIssue_lease :
    (let s (d : List Deferred) := recorded (vectored.modA (fun a => { a with lx := some 2, deferred := d }))
     has (exec .deferredFault (s [⟨.page, 0⟩])) (fun t => t.core.a.pc == 0x20000 && t.core.a.tval == 2 && t.core.a.ut) &&
       has (exec .deferredFault (s [⟨.page, 0⟩, ⟨.residue, 3⟩])) (fun t => t.heldRecs.map (fun r => r.cause) == [Cause.residue.code])) = true := by
  decide +kernel

/-- A class-0 fault with no trap vector, in a handler, and in a merge routine ends the launch. -/
theorem witness_SoftwareFaultEndsLaunch_class0 : Cause.feEmpty.cls = 0 ∧
    ([u0, inHandler, vectored.modA (fun a => { a with merging := some (0x20000, 64) })].all fun s =>
      let t := s.fault 3 .feEmpty 0
      s.tasks.length == 1 && t.tasks.isEmpty && t.launches.isEmpty) = true := by decide +kernel

/-! Gangs. -/

/-- A running task with one outstanding gang operation, s3 empty. -/
def inGang (gs : List Gang) (o : GangOp) : State :=
  at0 { va := 0x10000, pairs := [(0, o.id)] } { u0.modA (fun a => { a with gangOps := [o], sEmpty := 8 }) with gangs := gs }
def gangOf (n a n1 : Nat) : Gang := ⟨0, 0x10000, 7, n, a, n1, 0, 0, [], []⟩
def countsNow (t : State) : Option (Nat × Nat × Nat × Nat × Nat × Nat) := (t.gangs.find? (fun g => g.ctx = 0 && g.va = 0x10000)).map (fun g => (g.p, g.n, g.a, g.n1, g.e, g.d1))
def fillsWith (s : State) (x : Word) : Bool := has (exec .gangCycle s) (fun t => t.core.a.rd 3 == x && !t.core.a.sIsEmpty 3 && t.core.a.gangOps.isEmpty)

/-- An arrival that completes phase 7 of two members, one that leaves, and the answers of a join, an arrival, an SSTEP and a BWAIT. -/
theorem witness_GangCounts :
    (u0.leaf? (u0.ctxDie 0) 0 0x10000).isSome = true ∧
    (let s := inGang [gangOf 2 1 2] ⟨5, .arrive false, 0x10000, 7, 3, false⟩
     ((s.reaching 0 0x10000 [(0, 5)]).length == 1) && fillsWith s 7 &&
       has (exec .gangCycle s) (fun t => countsNow t == some (8, 2, 0, 2, 0, 0))) = true ∧
    has (exec .gangCycle (inGang [gangOf 2 1 2] ⟨5, .leave, 0x10000, 7, 0, false⟩)) (fun t => countsNow t == some (8, 1, 0, 1, 0, 0)) = true ∧
    has (exec .gangCycle (inGang [gangOf 1 0 1] ⟨5, .leave, 0x10000, 7, 0, false⟩)) (fun t => t.gangs.isEmpty && t.core.a.gangOps.isEmpty) = true ∧
    (let s := inGang [] ⟨5, .join, 0x10000, 0, 3, false⟩
     fillsWith s 0 && has (exec .gangCycle s) (fun t => countsNow t == some (0, 1, 0, 1, 0, 0))) = true := by decide +kernel

theorem witness_GangAnswers :
    fillsWith (inGang [gangOf 2 1 2] ⟨5, .join, 0x10000, 0, 3, false⟩) 8 = true ∧
    fillsWith (inGang [gangOf 2 2 2] ⟨5, .arrive true, 0x10000, 8, 3, false⟩) 8 = true ∧
    has (exec .gangCycle (inGang [gangOf 2 1 2] ⟨5, .arrive false, 0x10000, 8, 3, false⟩))
      (fun t => t.core.a.sIsEmpty 3 && t.gangs.map (fun g => g.early.length) == [1]) = true ∧
    fillsWith (inGang [gangOf 2 1 2] ⟨5, .sstep, 0x10000, 7, 3, false⟩) 8 = true ∧
    has (exec .gangCycle (inGang [gangOf 3 1 3] ⟨5, .sstep, 0x10000, 7, 3, false⟩))
      (fun t => t.core.a.sIsEmpty 3 && t.gangs.map (fun g => g.waits.length) == [1]) = true ∧
    ([6, 2 ^ 32 + 7 - 2 ^ 31].all fun b => fillsWith (inGang [gangOf 3 1 3] ⟨5, .bwait b, 0x10000, 0, 3, false⟩) 7) = true ∧
    ([7, 2 ^ 32 + 6 - 2 ^ 31].all fun b => has (exec .gangCycle (inGang [gangOf 3 1 3] ⟨5, .bwait b, 0x10000, 0, 3, false⟩))
      (fun t => t.core.a.sIsEmpty 3 && t.gangs.map (fun g => g.waits.length) == [1])) = true := by decide +kernel

/-- A completion fills who arrived early for the next phase and who waited for this one; an address that is not mapped is a deferred PAGE. -/
theorem witness_GangAnswers_completion :
    (let o : GangOp := ⟨5, .bwait 7, 0x10000, 0, 3, true⟩
     fillsWith (at0 { va := 0x10000 } (inGang [{ gangOf 2 2 2 with waits := [⟨0, 5, 7⟩] }] o)) 8) = true ∧
    (let o : GangOp := ⟨5, .arrive false, 0x10000, 8, 3, true⟩
     fillsWith (at0 { va := 0x10000 } (inGang [{ gangOf 2 2 2 with e := 1, early := [⟨0, 5, 8⟩] }] o)) 8) = true ∧
    (let s := at0 { va := 0x20000, pairs := [(0, 5)] } (inGang [] ⟨5, .arrive false, 0x20000, 7, 3, false⟩)
     (s.leaf? (s.ctxDie 0) 0 0x20000).isNone && has (exec .gangCycle s) (fun t => t.core.a.deferred == [⟨.page, 0x20000⟩])) = true := by decide +kernel

/-- Reads of a cell: sent, late, empty and full. -/
def reading (b : Block) (m : List (Nat × Byte)) : State := { u0.modA (fun a => { a with block := some b, sEmpty := 8 }) with mem := m }
theorem witness_CellReads :
    (let s := reading (.fget 3 0x10010) []
     s.there.core.readAllowed && s.there.core.a.deferred.isEmpty && has (exec .fgetResponse (at0 { fn := 1 } s)) (fun t => t.core.fetchAt == some 0) &&
       has (exec .fgetResponse { s.modCore (fun c => { c with fetchAt := some 0 }) with frame := 2000 }) (fun t => t.core.a.deferred == [⟨.timeout, 0x10010⟩]) &&
       has (exec .fgetResponse s) (fun t => !t.core.busy)) = true ∧
    has (exec .fgetResponse (reading (.fget 3 0x10010) [(0x10, 9), (0x18, 1)])) (fun t => t.core.a.rd 3 == 9 && t.core.a.block.isNone) = true ∧
    has (exec .fgetResponse (reading (.fwait 3 0x10010 false none false) [(0x18, 1)])) (fun t => t.core.a.rd 3 == 1) = true ∧
    has (exec .fgetResponse (reading (.fwait 3 0x10010 false none false) [])) (fun t => t.core.a.block == some (.suspend (.future 3 0x10010 none))) = true ∧
    ([1, 0].all fun n => has (exec .fgetResponse (reading (.fwait 3 0x10010 true (some n) false) [])) (fun t => t.core.a.sIsEmpty 3 == (n == 1))) = true := by
  decide +kernel

theorem witness_CellReads_timeouts :
    has (exec .fwaitTimeout (reading (.fwait 3 0x10010 true (some 0) true) [])) (fun t => !t.core.a.sIsEmpty 3 && t.core.a.block.isNone) = true ∧
    (let f : Frame := ⟨{ placedArch with sEmpty := 8 }, true, none⟩
     let s : State := { idleCore with tasks := [{ placedTask with st := .suspended, saved := some f, wait := some (.future 3 0x10010 (some 0)) }] }
     has (exec .fwaitTimeout s) (fun t => t.tasks.all (fun y => y.st == .ready))) = true := by decide +kernel

/-- A physical fault in one path: a row before it leaves, and the folds of a pending seal. -/
theorem witness_SealVerdicts_faults :
    has (exec .drainRowLeave (at0 { flag := true, pairs := [(0, 1)] } (draining true))) (fun t => t.core.rowDone) = true ∧
    (let s := withPending aSeal
     ([({ pairs := [(5, 9)] } : Input), { flag := true, value := 1 }].all fun i =>
       has (exec .sealVerdict (at0 i s)) (fun t => t.core.arbit == some (0, 18432) && t.core.arbitFor == [0]))) = true := by decide +kernel

/-- An idle die enters its reset, and awaits a copy of its replica. -/
theorem witness_TranslationEvents_reset :
    (let c : Context := { placedContext 0 with replicas := (placedContext 0).replicas ++ [(1, [])] }
     let s := at0 { first := 1, die := 1 } { u0 with ctxs := [c] }
     (s.die 1).enabled && !(s.die 1).inReset && (s.die 1).queue.isEmpty && (s.die 1).armed.isEmpty &&
       s.coreIds.all (fun n => dieOf n ≠ 1 || !(s.getCore n).busy) &&
       has (exec .replicaResync s) (fun t => (t.die 1).inReset && t.ctxs.all (fun x => x.stale == [1]))) = true := by decide +kernel

/-- An atomic whose response is lost: the command remembers its answer, and the port its number. -/
theorem witness_AtomicsApplyOnce_lost :
    (let k : CopyCmd := { cmdOf (.cas 0x10038 true 0 9) with seqNo := some 4 }
     let s := at0 { flag := true } (queued k)
     let u := s.there
     (granuleVas 0x10038 8).all (fun g => !u.walkWaits [] u.core.id (u.archOf 0 0) g) && u.core.engineRoom &&
       has (exec .atomicApply s) (fun t => cellGet 0 t.mem 0x38 == 9 && t.core.a.sIsEmpty 3 && t.core.ca.map (fun c => c.applied) == [some 0] &&
         t.atomTabs.length == 1)) = true := by decide +kernel

/-- A push and a pull add 64 bytes to the slot's barrier, and keep its PH, XS and EXP. -/
theorem witness_RingTransfers_barriers :
    ([(Instr.loaderPush, aSub .inp .filling), (.storerPull, aSub .out .draining)].all fun x =>
      let s := (subscribed x.2).modCore (fun c => { c with spad := cellSets 0 [] (cellsOf 0x3FFFF8 8 (2 ^ 63 + 2 ^ 62 + 5 * 2 ^ 32 + 7)) })
      has (exec x.1 s) (fun t => barrier63 t == BitVec.ofNat 64 (2 ^ 63 + 2 ^ 62 + 5 * 2 ^ 32 + 71))) = true := by decide +kernel

/-- A publication flips SEL of its page, whose frames change places. -/
theorem witness_publication_sel :
    (let s := published (.publ 0x10000 65536 .package)
     let pte : Word := 0x1F
     ((tblGet pubCtx.replicas 0).bind (fun r => walk r 0x10000)).any (fun l => l.pte == pte && l.size == 65536) &&
       (leafPa pte 65536 0x10020 false == 0x20) &&
       (match (s.swapSel 0 (0x10000, 65536, pte)).translate 0 0 0x10020 .read false with
        | .ok (pa, _) => pa == leafPa pte 65536 0x10020 true && pa != 0x20
        | .error _ => false)) = true := by decide +kernel

/-! Where a core's next task comes from. -/

def readyAt (tcb prio : Nat) : Task := { placedTask with tcb := BitVec.ofNat 64 tcb, st := .ready, snap := BitVec.ofNat 1024 (prio * 2 ^ (8 * 0x50)) }
/-- Three tasks of priorities 3, 1 and 1, in the local queue, in the die's, or in another core's. -/
def queues (loc die far : List QEntry) : State :=
  let s := (u0.onDie 0 (fun d => { d with queue := die })).onCore 1 (fun c => { c with queue := far })
  { s with
    core := { s.core with busy := false, queue := loc }, ctxs := [{ placedContext 0 with bind := [(0, [0, 1])] }],
    tasks := [readyAt 0x20000 3, readyAt 0x20080 1, readyAt 0x20100 1] }

theorem witness_PickOrder :
    (let es : List QEntry := [⟨0, 0x20000, 0⟩, ⟨0, 0x20080, 1⟩, ⟨0, 0x20100, 2⟩]
     ((queues es [] []).pick 0 == some (.core 0, ⟨0, 0x20100, 2⟩)) && ((queues [⟨0, 0x20000, 3⟩] es []).pick 0 == some (.core 0, ⟨0, 0x20000, 3⟩)) &&
     ((queues [] es []).pick 0 == some (.die 0, ⟨0, 0x20080, 1⟩)) && ((queues [] [] es).pick 0 == some (.core 1, ⟨0, 0x20080, 1⟩)) &&
     ((queues [] [] []).pick 0).isNone) = true := by decide +kernel

/-- A task that waited in a JOIN goes back into its slot 7; one stopped by a fault at an earlier slot goes on as it stood. -/
theorem witness_TaskPickDispatches_waits :
    ([(Wait.join 3 false, some (Block.reenter (.join 3 0 false))), (.child 0x20080 4, some (.reenter (.done (some 4)))), (.page 0x30000, none)].all fun x =>
      let f : Frame := ⟨placedArch, true, none⟩
      let s : State := { idleCore with tasks := idleCore.tasks.map (fun t => { t with saved := some f, wait := some x.1 }) }
      has (exec .taskPick s) (fun t => t.core.busy && t.core.a.block == x.2)) = true := by decide +kernel

/-! The host's windows. -/

/-- A write by a function that has no window of the stream, one of the PF to a stream that is not its own, and one before READY. -/
theorem witness_HostWindowAccess_spawn :
    (let vf : State := { rooted with ctxs := [{ placedContext 0 with owner := 1 }] }
     let at_ (n : Nat) (s : State) := at0 { stream := 3, fn := n, bytes := List.replicate 128 0 } s
     !vf.hasWindow 2 3 && vf.hasWindow 0 3 && !vf.reaches 0 3 && vf.reaches 1 3 &&
       has (exec .spawnWindowWrite (at_ 2 vf)) (fun t => t.hostLog.idx == 0 && t.streams == vf.streams) &&
       has (exec .spawnWindowWrite (at_ 0 vf)) (fun t => t.hostLog.idx == 1 && t.streams == vf.streams) &&
       has (exec .spawnWindowWrite (at_ 1 vf)) (fun t => t.streams.all (fun x => x.roots.length == 2)) &&
       has (exec .spawnWindowWrite (at_ 1 { vf with ready := false })) (fun t => t.hostLog.idx == 1 && t.streams.all (fun x => x.ovf == 1)) &&
       has (exec .consumedWrite (at0 { stream := 3, fn := 1, value := 9 } vf)) (fun t => t.streams.all (fun x => x.consumed == 9))) = true := by decide +kernel

/-- An aperture's base with a legal size, the largest of a VF, and with one that is not. -/
theorem witness_HostWindowAccess_sizes :
    has (exec .registerWrite (at0 { len := 2 ^ 41, value := 3 * 2 ^ 40 } u0)) (fun t => t.apertureSize 0 == 2 ^ 41 && tblGet t.apbase 0 == some (BitVec.ofNat 64 (2 ^ 41))) = true ∧
    has (exec .registerWrite (at0 { len := 2 ^ 38, fn := 1, reg := .vbase, value := 2 ^ 38 } u0)) (fun t => t.apertureSize 1 == 2 ^ 38) = true ∧
    ([2 ^ 42, 2 ^ 29, 3 * 2 ^ 30].all fun n => has (exec .registerWrite (at0 { len := n, value := 2 ^ 30 } u0)) (fun t => t.apertureSize 0 == 2 ^ 30)) = true ∧
    (u0.linkUp && (u0.aperturePa 0 0 (2 ^ 30)).isNone && (u0.aperturePa 0 0 (2 ^ 30 - 1)).isSome) = true := by decide +kernel

/-- A CAPTURE whose area holds it and is populated, one whose area is too small, and one outside the memory. -/
theorem witness_MailboxCommands_capture :
    ([((0, 65536), 0), ((0, 63), 1), ((16 * 2 ^ 37, 65536), 1)] : List ((Nat × Nat) × Nat)).all (fun x =>
      has (exec .capture (at0 { cap := ⟨3, [(0x10000, 64)], x.1⟩ } rooted)) (fun t => t.mail.map (fun m => m.code) == [x.2] && t.captures.length == 1 - x.2)) = true := by
  decide +kernel

/-- A save past its deadline makes no step; one in time does. -/
theorem witness_PreemptionAndRestore_late :
    ((preempted false).saveLate 0 0 && !({ preempted false with frame := 10004 } : State).saveLate 0 0 &&
      has (exec .preempt (preempted false)) (fun t => t.ctxs == (preempted false).ctxs) &&
      has (exec .saveDeadline { preempted false with tasks := [placedTask], launches := [placedLaunch] }) (fun t => t.launches.isEmpty && t.tasks.isEmpty)) = true := by
  decide +kernel

/-- LEASEREL fills its register as it issues; the segments and the trap state are no part of its frame's exception. -/
theorem witness_frames_leaserel : (Instr.leaserel 3).place = .slot .sys ∧ Instr.leaserel 3 ≠ .utret ∧
    has (exec (.leaserel 3) leased) (fun t => t.core.a.rd 4 == leased.core.a.rd 4 && t.core.a.flights == leased.core.a.flights) = true := by decide +kernel

end Sys2Proof.Tests
end

section
/-!
LEMMAS. FRAME (spec/01 R29). One lemma for each operation of the state says that it leaves FRAME as it was, in the order of the model; an
instruction or event is a composition of such operations. Only a tick and the restart of a reset write FRAME, and the restart that is not a
power-on writes the value it has.
-/

namespace Sys2Proof.Machine
/-- A measure that no step of a fold changes is unchanged by the fold. -/
theorem foldl_preserves {α β γ : Type} (m : β → γ) {f : β → α → β} (h : ∀ b x, m (f b x) = m b) (l : List α) (b : β) :
    m (l.foldl f b) = m b := by
  induction l generalizing b with
  | nil => rfl
  | cons x rest ih => exact (ih _).trans (h b x)

@[simp] theorem foldl_frame {α : Type} {f : State → α → State} (h : ∀ s x, (f s x).frame = s.frame) (l : List α) (s : State) :
    (l.foldl f s).frame = s.frame :=
  foldl_preserves State.frame h l s

/-- An outcome that is a next state has the FRAME of the state before. -/
def keepsFrame (s : State) (o : Out) : Prop := ∀ t, o = .next t → t.frame = s.frame

theorem keepsFrame_next {s t : State} (h : t.frame = s.frame) : keepsFrame s (.next t) := by
  rintro u ⟨⟩
  exact h

@[simp] theorem keepsFrame_next_iff (s t : State) : keepsFrame s (.next t) ↔ t.frame = s.frame :=
  ⟨fun h => h t rfl, keepsFrame_next⟩

/-- A computation that can fail keeps FRAME where it does not. -/
def okKeepsFrame {ε : Type} (s : State) (r : Except ε State) : Prop := ∀ t, r = .ok t → t.frame = s.frame

@[simp] theorem okKeepsFrame_error {ε : Type} (s : State) (e : ε) : okKeepsFrame s (.error e) := by
  rintro t ⟨⟩

@[simp] theorem okKeepsFrame_ok {ε : Type} (s t : State) : okKeepsFrame s (.ok t : Except ε State) ↔ t.frame = s.frame := by
  simp [okKeepsFrame]

theorem keeps_frame {s t : State} (h : s.keeps t) : t.frame = s.frame := by
  obtain ⟨-, -, hframe, -⟩ := h
  exact hframe

/-- A computation that may give no state keeps FRAME where it gives one. -/
def someKeepsFrame (s : State) (r : Option State) : Prop := ∀ t, r = some t → t.frame = s.frame

@[simp] theorem someKeepsFrame_none (s : State) : someKeepsFrame s none := by
  rintro t ⟨⟩

@[simp] theorem someKeepsFrame_some (s t : State) : someKeepsFrame s (some t) ↔ t.frame = s.frame := by
  simp [someKeepsFrame]

/-! ### Cores, dies, memory and its cache -/

@[simp] theorem focus_frame (c : Nat) (s : State) : (s.focus c).frame = s.frame := by
  unfold State.focus
  split <;> simp

@[simp] theorem onCore_frame (c : Nat) (f : Core → Core) (s : State) : (s.onCore c f).frame = s.frame := by
  unfold State.onCore
  split <;> simp

@[simp] theorem onDie_frame (d : Nat) (f : Die → Die) (s : State) : (s.onDie d f).frame = s.frame := by
  unfold State.onDie
  split <;> simp

@[simp] theorem onCluster_frame (n : Nat) (f : Cluster → Cluster) (s : State) : (s.onCluster n f).frame = s.frame :=
  keeps_frame (keeps_onCluster n f s)

@[simp] theorem cacheFill_frame (s : State) (d pa : Nat) (uo : Bool) : (s.cacheFill d pa uo).frame = s.frame := by
  simp [State.cacheFill]

@[simp] theorem cacheDrop_frame (s : State) (d pa : Nat) : (s.cacheDrop d pa).frame = s.frame := by
  simp [State.cacheDrop]

@[simp] theorem cacheWrite_frame (s : State) (d : Nat) (bs : List (Nat × Byte)) (ts : List (Nat × Word)) :
    (s.cacheWrite d bs ts).frame = s.frame := by
  simp [State.cacheWrite]

@[simp] theorem writePhys_frame (s : State) (bs : List (Nat × Byte)) (ts : List (Nat × Word)) : (s.writePhys bs ts).frame = s.frame := by
  simp only [State.writePhys]

@[simp] theorem landWrite_frame (r : MemReq) (gone : List Nat) (s : State) : (s.landWrite r gone).frame = s.frame := by
  simp [State.landWrite]

@[simp] theorem writeVa_frame (s : State) (d ctx va n x : Nat) : (s.writeVa d ctx va n x).frame = s.frame := by
  unfold State.writeVa
  split <;> simp

/-! ### Launches and queues -/

@[simp] theorem onTask_frame (ctx : Nat) (tcb : Word) (f : Task → Task) (s : State) : (s.onTask ctx tcb f).frame = s.frame := by
  simp only [State.onTask]

@[simp] theorem onStream_frame (n : Nat) (f : Stream → Stream) (s : State) : (s.onStream n f).frame = s.frame := by
  simp only [State.onStream]

@[simp] theorem setTask_frame (ctx : Nat) (tcb : Word) (st : TState) (s : State) : (s.setTask ctx tcb st).frame = s.frame := by
  simp [State.setTask]

@[simp] theorem setStatus_frame (ctx : Nat) (tcb : Word) (code cause : Nat) (s : State) :
    (s.setStatus ctx tcb code cause).frame = s.frame := by
  simp [State.setStatus]

@[simp] theorem logEvent_frame (ctx type : Nat) (tcb x : Word) (s : State) : (s.logEvent ctx type tcb x).frame = s.frame := by
  simp [State.logEvent]

@[simp] theorem logHost_frame (type : Nat) (die fn addr : Option Nat) (s : State) : (s.logHost type die fn addr).frame = s.frame := by
  simp only [State.logHost]

@[simp] theorem onTaskArch_frame (ctx : Nat) (key : Word) (f : Arch → Arch) (s : State) : (s.onTaskArch ctx key f).frame = s.frame := by
  simp only [State.onTaskArch]

@[simp] theorem onGang_frame (ctx : Nat) (va : Word) (f : Gang → Gang) (s : State) : (s.onGang ctx va f).frame = s.frame := by
  simp only [State.onGang]

@[simp] theorem acquireOn_frame (core : Nat) (s : State) : (s.acquireOn core).frame = s.frame := by
  simp [State.acquireOn]

@[simp] theorem acquire_frame (sc : Scope) (s : State) : (s.acquire sc).frame = s.frame := by
  unfold State.acquire
  split <;> simp

@[simp] theorem acquireFor_frame (ctx : Nat) (key : Word) (s : State) : (s.acquireFor ctx key).frame = s.frame := by
  unfold State.acquireFor
  split <;> simp

@[simp] theorem gangFill_frame (ctx : Nat) (key : Word) (op x : Nat) (acq : Bool) (s : State) :
    (s.gangFill ctx key op x acq).frame = s.frame := by
  unfold State.gangFill
  split <;> simp

@[simp] theorem gangComplete_frame (ctx : Nat) (va : Word) (s : State) : (s.gangComplete ctx va).frame = s.frame := by
  unfold State.gangComplete
  dsimp only
  repeat' split
  all_goals simp

@[simp] theorem leaveGangs_frame (a : Arch) (s : State) : (s.leaveGangs a).frame = s.frame := by
  simp [State.leaveGangs]

@[simp] theorem leaveCluster_frame (s : State) : s.leaveCluster.frame = s.frame := by
  simp [State.leaveCluster]

@[simp] theorem finishSlot7_frame (s : State) : s.finishSlot7.frame = s.frame := by
  simp [State.finishSlot7]

@[simp] theorem acquireDue_frame (s : State) : s.acquireDue.frame = s.frame := by
  unfold State.acquireDue
  split <;> simp

@[simp] theorem putBack_frame (f : Frame) (s : State) : (s.putBack f).frame = s.frame := by
  simp [State.putBack]

@[simp] theorem popInline_frame (s : State) : s.popInline.frame = s.frame := by
  unfold State.popInline
  split <;> simp

@[simp] theorem leaveInline_frame (t : Word) (n : Nat) (s : State) : (s.leaveInline t n).frame = s.frame := by
  induction n generalizing t s with
  | zero => rfl
  | succ n ih =>
    unfold State.leaveInline
    repeat' split
    all_goals simp [ih]

@[simp] theorem dropTask_frame (s : State) : s.dropTask.frame = s.frame := by
  simp [State.dropTask]

@[simp] theorem clearCores_frame (p : Nat → Word → Bool) (s : State) : (s.clearCores p).frame = s.frame := by
  simp [State.clearCores, apply_ite State.frame]

@[simp] theorem clearImages_frame (p : Nat → Word → Bool) (s : State) : (s.clearImages p).frame = s.frame := by
  simp [State.clearImages]

@[simp] theorem dropQueued_frame (p : Nat → Word → Bool) (s : State) : (s.dropQueued p).frame = s.frame := by
  simp only [State.dropQueued]

@[simp] theorem writeRecord_frame (c : Completion) (s : State) : (s.writeRecord c).frame = s.frame := by
  unfold State.writeRecord
  split <;> simp

@[simp] theorem completeLaunch_frame (l : Launch) (status cause : Nat) (ftcb tpc tval : Word) (pc : Nat) (s : State) :
    (s.completeLaunch l status cause ftcb tpc tval pc).frame = s.frame := by
  simp [State.completeLaunch, apply_ite State.frame]

@[simp] theorem askFor_frame (kind ctx : Nat) (tcb : Word) (s : State) : (s.askFor kind ctx tcb).frame = s.frame := by
  unfold State.askFor
  split <;> simp

@[simp] theorem excess_frame (q : QueueRef) (e : QEntry) (s : State) : (s.excess q e).frame = s.frame := by
  simp only [State.excess]

@[simp] theorem enqueueDie_frame (d ctx : Nat) (tcb : Word) (seq : Option Nat) (s : State) :
    (s.enqueueDie d ctx tcb seq).frame = s.frame := by
  simp [State.enqueueDie, apply_ite State.frame]

@[simp] theorem enqueueCore_frame (c ctx : Nat) (tcb : Word) (s : State) : (s.enqueueCore c ctx tcb).frame = s.frame := by
  unfold State.enqueueCore
  dsimp only
  repeat' split
  all_goals simp

@[simp] theorem enqueue_frame (q : QueueRef) (ctx : Nat) (tcb : Word) (s : State) : (s.enqueue q ctx tcb).frame = s.frame := by
  unfold State.enqueue
  dsimp only
  repeat' split
  all_goals simp

@[simp] theorem readyPinned_frame (ctx : Nat) (tcb : Word) (s : State) : (s.readyPinned ctx tcb).frame = s.frame := by
  unfold State.readyPinned
  repeat' split
  all_goals simp

@[simp] theorem childEnded_frame (ctx : Nat) (tcb : Word) (s : State) : (s.childEnded ctx tcb).frame = s.frame := by
  simp [State.childEnded]

@[simp] theorem landOut_frame (ctx : Nat) (mine : CopyCmd → Bool) (d : Nat) (s : State) : (s.landOut ctx mine d).frame = s.frame := by
  simp [State.landOut]

@[simp] theorem endLaunch_frame (n status cause code : Nat) (ftcb tpc tval : Word) (pc : Nat) (s : State) :
    (s.endLaunch n status cause code ftcb tpc tval pc).frame = s.frame := by
  unfold State.endLaunch
  split
  · rfl
  · simp (disch := (intros; repeat' split) <;> simp) [foldl_frame]

@[simp] theorem hardwareError_frame (cause : Cause) (tpc tval : Word) (s : State) :
    (s.hardwareError cause tpc tval).frame = s.frame := by
  unfold State.hardwareError
  dsimp only
  split
  · rfl
  · split
    · simp
    · simp (disch := (intros; repeat' split) <;> simp) [foldl_frame]

@[simp] theorem faultLaunch_frame (status : Nat) (cause : Cause) (tpc tval : Word) (s : State) :
    (s.faultLaunch status cause tpc tval).frame = s.frame := by
  unfold State.faultLaunch
  dsimp only
  repeat' split
  all_goals simp

/-! ### What the slots of a bundle write; traps -/

@[simp] theorem fly_frame (lat slot : Nat) (ls : List Landing) (s : State) : (s.fly lat slot ls).frame = s.frame :=
  keeps_frame (keeps_fly lat slot ls s)

@[simp] theorem shadow_frame (lat slot : Nat) (elems : List Nat) (s : State) : (s.shadow lat slot elems).frame = s.frame :=
  keeps_frame (keeps_shadow lat slot elems s)

@[simp] theorem markEmpty_frame (r : Reg) (s : State) : (s.markEmpty r).frame = s.frame := keeps_frame (keeps_markEmpty r s)

@[simp] theorem emptyFill_frame (r : Reg) (x : Word) (s : State) : (s.emptyFill r x).frame = s.frame := by
  simp [State.emptyFill]

@[simp] theorem markEmptyV_frame (r : Reg) (s : State) : (s.markEmptyV r).frame = s.frame := keeps_frame (keeps_markEmptyV r s)

@[simp] theorem fill_frame (r : Reg) (x : Word) (s : State) : (s.fill r x).frame = s.frame := by
  simp [State.fill]

@[simp] theorem newId_frame (s : State) : s.newId.2.frame = s.frame := keeps_frame (keeps_newId s)

@[simp] theorem stage_frame (e : PierEntry) (s : State) : (s.stage e).frame = s.frame := keeps_frame (keeps_stage e s)

@[simp] theorem endBundle_frame (s : State) : s.endBundle.frame = s.frame := by
  simp [State.endBundle]

@[simp] theorem trap_frame (sres : Nat) (cause : Cause) (tval : Word) (deferred : Bool) (tpc : Word) (s : State) :
    (s.trap sres cause tval deferred tpc).frame = s.frame := by
  unfold State.trap
  dsimp only
  repeat' split
  all_goals simp

@[simp] theorem leaseTrap_frame (slot why : Nat) (s : State) : (s.leaseTrap slot why).frame = s.frame := by
  simp [State.leaseTrap]

@[simp] theorem fault_frame (slot : Nat) (c : Cause) (tval : Word) (s : State) : (s.fault slot c tval).frame = s.frame := by
  simp [State.fault]

@[simp] theorem illegal_frame (slot : Nat) (s : State) : (s.illegal slot).frame = s.frame := by
  simp [State.illegal]

@[simp] theorem defer_frame (c : Cause) (x : Word) (s : State) : (s.defer c x).frame = s.frame := keeps_frame (keeps_defer c x s)

/-! ### Operands of the vector slots -/

@[simp] theorem vecIssue_frame (slot : Nat) (srcs : List VSrc) (dst : VDst) (extra : List Vec → Option (Cause × Word))
    {f : List Vec → State → State} (h : ∀ vs s, (f vs s).frame = s.frame) (s : State) :
    (s.vecIssue slot srcs dst extra f).frame = s.frame := by
  unfold State.vecIssue
  dsimp only
  repeat' split
  all_goals simp [h]

@[simp] theorem deliver_frame (lat slot : Nat) (dst : VDst) (elems : List Nat) (x : Vec) (s : State) :
    (s.deliver lat slot dst elems x).frame = s.frame :=
  keeps_frame (keeps_deliver lat slot dst elems x s)

/-! ### Loads, stores and ordering points -/

@[simp] theorem queueLoad_frame (va : Word) (dst : LoadDst) (acq : Option Scope) (s : State) :
    (s.queueLoad va dst acq).frame = s.frame :=
  keeps_frame (keeps_queueLoad va dst acq s)

@[simp] theorem spadAcquire_frame (acq : Option Scope) (s : State) : (s.spadAcquire acq).frame = s.frame := by
  unfold State.spadAcquire
  split <;> simp

/-- `Core.spadPoisonIn` stands as a variable here and below: the kernel would unfold it, and the address it is given, to compare two
branches. -/
@[simp] theorem loadScalar_frame (d a : Reg) (o : BitVec 10) (r : Order) (n : Nat) (signed : Bool) (s : State) :
    (s.loadScalar d a o r n signed).frame = s.frame := by
  unfold State.loadScalar
  obtain ⟨poisonIn, e⟩ := exists_eq (a' := Core.spadPoisonIn)
  rw [← e]
  dsimp only
  repeat' split
  all_goals simp

@[simp] theorem storeBytes_frame (ea : Word) (n x : Nat) (r : Order) (s : State) : (s.storeBytes ea n x r).frame = s.frame := by
  unfold State.storeBytes
  repeat' split
  all_goals simp

@[simp] theorem expandSpad_frame (d a : Reg) (ea : Word) (r : Order) (s : State) : (s.expandSpad d a ea r).frame = s.frame := by
  unfold State.expandSpad
  dsimp only
  repeat' split
  all_goals simp

theorem execStpk_frame (d a : Reg) (o : BitVec 10) (r : Order) (m : ScaleMode) (s : State) : keepsFrame s (execStpk d a o r m s) := by
  unfold execStpk
  obtain ⟨poisonIn, e⟩ := exists_eq (a' := Core.spadPoisonIn)
  rw [← e]
  dsimp only
  repeat' split
  all_goals simp

theorem execStt_frame (d a : Reg) (o : BitVec 10) (r : Order) (s : State) : keepsFrame s (execStt d a o r s) := by
  unfold execStt
  obtain ⟨poisonIn, e⟩ := exists_eq (a' := Core.spadPoisonIn)
  rw [← e]
  dsimp only
  repeat' split
  all_goals simp

@[simp] theorem prunePoints_frame (s : State) : s.prunePoints.frame = s.frame := by
  simp [State.prunePoints]

@[simp] theorem point_frame (p : OrderPoint) (s : State) : (s.point p).frame = s.frame := by
  simp [State.point]

/-! ### Writes of a place in memory -/

@[simp] theorem writeAt_frame (l : Loc) (base : Nat) (cells : List (Nat × Byte)) (tag : Option Word) (s : State) :
    (s.writeAt l base cells tag).frame = s.frame := by
  unfold State.writeAt
  split <;> simp

@[simp] theorem writeGranule_frame (d : Nat) (l : Loc) (g : Granule) (t : Word) (s : State) : (s.writeGranule d l g t).frame = s.frame := by
  unfold State.writeGranule
  split <;> simp

/-! ### The matrix slot: tiles, seals and drains -/

@[simp] theorem onTile_frame (t : TileNo) (f : TileState → TileState) (s : State) : (s.onTile t f).frame = s.frame :=
  keeps_frame (keeps_onTile t f s)

@[simp] theorem startSeal_frame (t : TileNo) (spc : Word) (s : State) : (s.startSeal t spc).frame = s.frame := by
  simp [State.startSeal, apply_ite State.frame]

@[simp] theorem engFault_frame (c : Cause) (x : Word) (s : State) : (s.engFault c x).frame = s.frame := by
  simp [State.engFault]

@[simp] theorem requestTokens_frame (n : Nat) (dst : Option Reg) (s : State) : (s.requestTokens n dst).frame = s.frame := by
  simp [State.requestTokens]

@[simp] theorem drainOpen_frame (nw : Bool) (s : State) : (s.drainOpen nw).2.frame = s.frame := by
  unfold State.drainOpen
  split <;> simp

@[simp] theorem startDrain_frame (t : TileNo) (addr geo tag : Word) (z nw : Bool) (mode : DrainMode) (sl fl : Bool) (spc : Word)
    (s : State) :
    (s.startDrain t addr geo tag z nw mode sl fl spc).frame = s.frame := by
  unfold State.startDrain
  split <;> simp

theorem execMdrain_frame (t : TileNo) (d a b : Reg) (z n : Bool) (m : DrainMode) (sl : Bool) (s : State) :
    keepsFrame s (execMdrain t d a b z n m sl s) := by
  unfold execMdrain
  dsimp only
  repeat' split
  all_goals simp

theorem execMaccwrRow_frame (t : TileNo) (a b : Reg) (s : State) : keepsFrame s (execMaccwrRow t a b s) := by
  unfold execMaccwrRow
  obtain ⟨poisonIn, e⟩ := exists_eq (a' := Core.spadPoisonIn)
  rw [← e]
  dsimp only
  repeat' split
  all_goals simp

@[simp] theorem callSeal_frame (t : TileNo) (spc : Word) (s : State) : (s.callSeal t spc).frame = s.frame := by
  simp [State.callSeal]

@[simp] theorem fillMwaits_frame (s : State) : s.fillMwaits.frame = s.frame := by
  unfold State.fillMwaits
  refine foldl_frame (fun s x => ?_) _ _
  simp

@[simp] theorem rowOut_frame (d : DrainOp) (s : State) : (s.rowOut d).frame = s.frame := by
  simp [State.rowOut, apply_ite State.frame]

@[simp] theorem rowNext_frame (d : DrainOp) (s : State) : (s.rowNext d).frame = s.frame := by
  simp [State.rowNext, apply_ite State.frame]

@[simp] theorem rowCycle_frame (s : State) : s.rowCycle.frame = s.frame := by
  unfold State.rowCycle
  repeat' split
  all_goals simp

@[simp] theorem releaseSeal_frame (t : TileNo) (s : State) : (s.releaseSeal t).frame = s.frame := by
  unfold State.releaseSeal
  split <;> simp

@[simp] theorem setLastv_frame (n : Nat) (s : State) : (s.setLastv n).frame = s.frame := by
  simp [State.setLastv]

@[simp] theorem wakeSeal_frame (s : State) : s.wakeSeal.frame = s.frame := by
  unfold State.wakeSeal
  repeat' split
  all_goals simp

@[simp] theorem sealVerdict_frame (t : TileNo) (s : State) : (s.sealVerdict t).frame = s.frame := by
  unfold State.sealVerdict
  repeat' split
  all_goals simp

@[simp] theorem releaseAll_frame (s : State) : s.releaseAll.frame = s.frame := by
  simp [State.releaseAll]

@[simp] theorem handOver_frame (s : State) : s.handOver.frame = s.frame := by
  simp [State.handOver]

@[simp] theorem keystone_frame (test : KeystoneTest) (s : State) : (s.keystone test).frame = s.frame := by
  unfold State.keystone
  dsimp only
  repeat' split
  all_goals simp

@[simp] theorem implicitSeal_frame (all stopped : Bool) (s : State) : (s.implicitSeal all stopped).frame = s.frame := by
  unfold State.implicitSeal
  dsimp only
  repeat' split
  all_goals simp

@[simp] theorem sealCycle_frame (s : State) : s.sealCycle.frame = s.frame := by
  unfold State.sealCycle
  refine foldl_frame (fun s x => ?_) _ _
  dsimp only
  repeat' split
  all_goals simp

@[simp] theorem engCycle_frame (s : State) : s.engCycle.frame = s.frame := by
  unfold State.engCycle
  repeat' split
  all_goals simp

/-! ### Micro-words and routines -/

@[simp] theorem onRoutine_frame (f : Routine → Routine) (s : State) : (s.onRoutine f).frame = s.frame := by
  simp [State.onRoutine]

@[simp] theorem stepRows_frame (t : TileNo) (sh : Shape) (acc tr : Bool) (a b : Operand) (from_ upto : Nat) (s : State) :
    (s.stepRows t sh acc tr a b from_ upto).frame = s.frame := by
  unfold State.stepRows
  refine foldl_frame (fun s x => ?_) _ _
  split <;> simp

@[simp] theorem setRowp_frame (n : Nat) (s : State) : (s.setRowp n).frame = s.frame := by
  simp [State.setRowp]

@[simp] theorem mxStep_frame (acc tr : Bool) (at_ : Nat) (next : Routine → Routine) (s : State) :
    (s.mxStep acc tr at_ next).frame = s.frame := by
  unfold State.mxStep
  dsimp only
  repeat' split
  all_goals simp

@[simp] theorem micro_frame (f : Routine → Routine) (s : State) : (s.micro f).frame = s.frame := by
  simp [State.micro]

@[simp] theorem microIllegal_frame (s : State) : s.microIllegal.frame = s.frame := by
  unfold State.microIllegal
  split <;> simp

@[simp] theorem withRoutine_frame {f : Routine → State → State} (h : ∀ r s, (f r s).frame = s.frame) (s : State) :
    (s.withRoutine f).frame = s.frame := by
  unfold State.withRoutine
  split
  · exact h ..
  · rfl

@[simp] theorem endRoutine_frame (s : State) : s.endRoutine.frame = s.frame := by
  unfold State.endRoutine
  exact withRoutine_frame (fun _ s => modA_frame _ s) s

@[simp] theorem libStep_frame (l : LibRun) (s : State) : (s.libStep l).frame = s.frame := by
  unfold State.libStep
  refine withRoutine_frame (fun r s => ?_) s
  dsimp only
  repeat' split
  all_goals simp

/-! ### Issue of copy commands -/

@[simp] theorem pushCopy_frame (q : CopyQ) (t : Reg) (k : CopyKind) (dup : Bool) (rel : Option Scope) (n : Nat) (s : State) :
    (s.pushCopy q t k dup rel n).frame = s.frame :=
  keeps_frame (keeps_pushCopy q t k dup rel n s)

@[simp] theorem issueCopy_frame (q : CopyQ) (t : Reg) (fs : List IssueFault) (k : CopyKind) (dup : Bool) (rel : Option Scope) (s : State) :
    (s.issueCopy q t fs k dup rel).frame = s.frame := by
  unfold State.issueCopy
  split <;> simp

/-! ### Host commands and the table-update engine -/

@[simp] theorem replay_frame (j : Journal) (s : State) : (s.replay j).frame = s.frame := by
  simp only [State.replay]

@[simp] theorem respondTo_frame (fn seq code : Nat) (s : State) : (s.respondTo fn seq code).frame = s.frame := by
  simp only [State.respondTo]

@[simp] theorem respond_frame (fn code : Nat) (s : State) : (s.respond fn code).frame = s.frame := by
  simp [State.respond]

@[simp] theorem command_frame {f : State → State} (h : ∀ s, (f s).frame = s.frame) (s : State) : (s.command f).frame = s.frame := by
  unfold State.command
  split
  · rfl
  · exact h s

@[simp] theorem answer_frame (u : Update) (code : Nat) (s : State) : (s.answer u code).frame = s.frame := by
  unfold State.answer
  split <;> simp

@[simp] theorem applyUpdate_frame (u : Update) (s : State) : (s.applyUpdate u).frame = s.frame := by
  simp [State.applyUpdate]

@[simp] theorem startUpdates_frame (us : List Update) (s : State) : (s.startUpdates us).frame = s.frame := by
  induction us generalizing s with
  | nil => rfl
  | cons u rest ih =>
    unfold State.startUpdates
    dsimp only
    repeat' split
    all_goals simp [ih]

@[simp] theorem flushTlbs_frame (d : Nat) (gone : TlbEntry → Bool) (s : State) : (s.flushTlbs d gone).frame = s.frame := by
  simp [State.flushTlbs, apply_ite State.frame]

@[simp] theorem submit_frame (u : Update) (s : State) : (s.submit u).frame = s.frame := by
  unfold State.submit
  split <;> simp

@[simp] theorem acked_frame (d : Nat) (s : State) : (s.acked d).frame = s.frame := by
  unfold State.acked
  dsimp only
  repeat' split
  all_goals simp

@[simp] theorem ackUpdate_frame (d : Nat) (s : State) : (s.ackUpdate d).frame = s.frame := by
  unfold State.ackUpdate
  dsimp only
  repeat' split
  all_goals simp

@[simp] theorem dieReset_frame (d : Nat) (s : State) : (s.dieReset d).frame = s.frame := by
  unfold State.dieReset
  dsimp only
  repeat' split
  all_goals simp [apply_ite State.frame]

@[simp] theorem showWear_frame (s : State) : s.showWear.frame = s.frame := by
  unfold State.showWear
  refine foldl_frame (fun s x => ?_) _ _
  split <;> simp

/-! ### Answers to loads, stores and walks -/

@[simp] theorem deferFor_frame (ctx : Nat) (tcb : Word) (c : Cause) (tval : Word) (s : State) :
    (s.deferFor ctx tcb c tval).frame = s.frame := by
  simp [State.deferFor]

@[simp] theorem fillFor_frame (ctx : Nat) (tcb : Word) (r : Reg) (x : Word) (s : State) : (s.fillFor ctx tcb r x).frame = s.frame := by
  simp [State.fillFor]

@[simp] theorem holdFrom_frame (drain : Bool) (id : Nat) (c : Cause) (tval : Word) (s : State) :
    (s.holdFrom drain id c tval).frame = s.frame := by
  simp [State.holdFrom]

@[simp] theorem poisonStack_frame (pa : Nat) (s : State) : (s.poisonStack pa).frame = s.frame := by
  simp [State.poisonStack]

@[simp] theorem sendLoads_frame (s : State) : s.sendLoads.frame = s.frame := by
  simp [State.sendLoads, apply_ite State.frame]

@[simp] theorem readLocs_frame (hit : Bool) (locs : List Loc) (s : State) : (s.readLocs hit locs).2.frame = s.frame := by
  refine foldl_preserves (fun p : List (Granule × Word) × State => p.2.frame) (fun acc l => ?_) locs ([], s)
  dsimp only
  repeat' split
  all_goals simp

@[simp] theorem partRead_frame (r : MemReq) (dst : LoadDst) (gs : List (Granule × Word)) (s : State) :
    (s.partRead r dst gs).frame = s.frame := by
  unfold State.partRead
  dsimp only
  repeat' split
  all_goals simp

@[simp] theorem widen_frame (r : MemReq) (n : Nat) (s : State) : (s.widen r n).2.frame = s.frame := by
  unfold State.widen
  split <;> simp

@[simp] theorem arrive_frame (idx : Nat) (hit broken : Bool) (which : Nat) (s : State) :
    (s.arrive idx hit broken which).frame = s.frame := by
  unfold State.arrive
  dsimp only
  repeat' split
  all_goals simp

@[simp] theorem leaveGranule_frame (d : Nat) (acc : MemReq × State) (p : Nat × Loc) :
    (State.leaveGranule d acc p).2.frame = acc.2.frame := by
  unfold State.leaveGranule
  dsimp only
  repeat' split
  all_goals simp

@[simp] theorem sendWrite_frame (r : MemReq) (gs : List (Nat × Loc)) (s : State) : (s.sendWrite r gs).frame = s.frame := by
  have h : (gs.foldl (State.leaveGranule r.die) (r, s)).2.frame = s.frame :=
    foldl_preserves (fun p : MemReq × State => p.2.frame) (leaveGranule_frame r.die) gs (r, s)
  unfold State.sendWrite
  dsimp only
  split <;> simp [h]

@[simp] theorem unpark_frame (r : MemReq) (s : State) : (s.unpark r).frame = s.frame := by
  simp [State.unpark]

@[simp] theorem sendStore_frame (r : MemReq) (s : State) : (s.sendStore r).frame = s.frame := by
  unfold State.sendStore
  dsimp only
  repeat' split
  all_goals simp

@[simp] theorem sendStores_frame (s : State) : s.sendStores.frame = s.frame := by
  simp [State.sendStores]

@[simp] theorem leavePart_frame (e : PierEntry) (s : State) (gs : List Nat) : (s.leavePart e gs).frame = s.frame := by
  simp [State.leavePart]

@[simp] theorem leaveStore_frame (e : PierEntry) (s : State) : (s.leaveStore e).frame = s.frame := by
  simp [State.leaveStore]

@[simp] theorem leaveSpad_frame (e : PierEntry) (s : State) : (s.leaveSpad e).frame = s.frame := by
  unfold State.leaveSpad
  dsimp only
  repeat' split
  all_goals simp

@[simp] theorem onCmd_frame (q : CopyQ) (id : Nat) (f : CopyCmd → CopyCmd) (s : State) : (s.onCmd q id f).frame = s.frame := by
  simp [State.onCmd]

@[simp] theorem dropCmd_frame (q : CopyQ) (id : Nat) (s : State) : (s.dropCmd q id).frame = s.frame := by
  simp [State.dropCmd]

@[simp] theorem reportPage_frame (ctx : Nat) (tcb va : Word) (s : State) : (s.reportPage ctx tcb va).frame = s.frame := by
  unfold State.reportPage
  repeat' split
  all_goals simp

@[simp] theorem failCmd_frame (q : CopyQ) (k : CopyCmd) (c : Cause) (x : Word) (s : State) : (s.failCmd q k c x).frame = s.frame := by
  unfold State.failCmd
  split <;> simp

@[simp] theorem stopCmd_frame (q : CopyQ) (k : CopyCmd) (c : Cause) (x : Word) (s : State) : (s.stopCmd q k c x).frame = s.frame := by
  unfold State.stopCmd
  dsimp only
  repeat' split
  all_goals simp

@[simp] theorem finishCmd_frame (q : CopyQ) (k : CopyCmd) (x : Word) (s : State) : (s.finishCmd q k x).frame = s.frame := by
  simp [State.finishCmd]

@[simp] theorem settle_frame (q : CopyQ) (id : Nat) (s : State) : (s.settle q id).frame = s.frame := by
  unfold State.settle
  repeat' split
  all_goals simp

/-- The state in which a read of several granules ends, with its values or with a fault. -/
def readEnd {α : Type} : Except (Cause × Word × State) (α × State) → State
  | .ok (_, s) => s
  | .error (_, _, s) => s

theorem readSources_frame (s : State) (a : Arch) (hit : Bool) (broken : Option Nat) (js : List (Nat × Nat)) :
    (readEnd (s.readSources a hit broken js)).frame = s.frame := by
  induction js generalizing s with
  | nil => rfl
  | cons j rest ih =>
    obtain ⟨j, va⟩ := j
    unfold State.readSources
    cases s.locate s.core.id a true .read false va with
    | error c => rfl
    | ok l =>
      dsimp only
      split
      · dsimp only [readEnd]
        cases l with
        | phys pa e =>
          dsimp only
          split <;> simp
        | spad c off => rfl
      · have h := ih (s.readLocs hit [l]).2
        rw [readLocs_frame] at h
        split <;> rename_i e <;> rw [e] at h <;> exact h

@[simp] theorem fetchSource_frame (q : CopyQ) (k : CopyCmd) (broken : Option Nat) (s : State) :
    (s.fetchSource q k broken).frame = s.frame := by
  have h := readSources_frame s (s.archOf k.ctx k.tcb) true broken (s.earlyReads k)
  unfold State.fetchSource
  dsimp only
  split <;> rename_i e <;> rw [e] at h
  · simpa [readEnd] using h
  · split <;> simpa [readEnd] using h

@[simp] theorem tryFetch_frame (q : CopyQ) (k : CopyCmd) (broken : Option Nat) (s : State) : (s.tryFetch q k broken).frame = s.frame := by
  unfold State.tryFetch
  split <;> simp

@[simp] theorem coreUncorr_frame (tval : Word) (s : State) : (s.coreUncorr tval).frame = s.frame := by
  unfold State.coreUncorr
  split <;> simp

@[simp] theorem pierLeave_frame (broken : Option Nat) (tval : Word) (s : State) : (s.pierLeave broken tval).frame = s.frame := by
  unfold State.pierLeave
  dsimp only
  repeat' split
  all_goals simp

@[simp] theorem retire_frame (r : MemReq) (s : State) : (s.retire r).frame = s.frame := by
  simp [State.retire]

@[simp] theorem writeFault_frame (r : MemReq) (c : Cause) (tval : Word) (s : State) : (s.writeFault r c tval).frame = s.frame := by
  unfold State.writeFault
  repeat' split
  all_goals simp

@[simp] theorem writeOver_frame (r : MemReq) (s : State) : (s.writeOver r).frame = s.frame := by
  unfold State.writeOver
  split <;> simp

@[simp] theorem expireWrite_frame (r : MemReq) (landed : Bool) (s : State) : (s.expireWrite r landed).frame = s.frame := by
  unfold State.expireWrite
  split <;> simp

@[simp] theorem acknowledge_frame (idx : Nat) (s : State) : (s.acknowledge idx).frame = s.frame := by
  unfold State.acknowledge
  dsimp only
  repeat' split
  all_goals simp

@[simp] theorem raiseDeferred_frame (s : State) : s.raiseDeferred.frame = s.frame := by
  unfold State.raiseDeferred
  dsimp only
  repeat' split
  all_goals simp

@[simp] theorem expireLoad_frame (idx : Nat) (s : State) : (s.expireLoad idx).frame = s.frame := by
  unfold State.expireLoad
  repeat' split
  all_goals simp

@[simp] theorem expireStore_frame (idx : Nat) (landed : Bool) (s : State) : (s.expireStore idx landed).frame = s.frame := by
  unfold State.expireStore
  repeat' split
  all_goals simp

@[simp] theorem expireCmd_frame (q : CopyQ) (idx : Nat) (s : State) : (s.expireCmd q idx).frame = s.frame := by
  unfold State.expireCmd
  repeat' split
  all_goals simp

@[simp] theorem walkEnds_frame (i : Input) (c : Context) (s : State) : (s.walkEnds i c).frame = s.frame := by
  unfold State.walkEnds
  repeat' split
  all_goals simp

@[simp] theorem failCheck_frame (k : Check) (c : Cause) (tval : Word) (s : State) : (s.failCheck k c tval).frame = s.frame := by
  simp [State.failCheck]

@[simp] theorem verdicts_frame (pairs : List (Nat × Nat)) (s : State) : (s.verdicts pairs).frame = s.frame := by
  unfold State.verdicts
  dsimp only
  repeat' split
  all_goals simp

@[simp] theorem raiseHang_frame (s : State) : s.raiseHang.frame = s.frame := by
  simp [State.raiseHang]

/-! ### Copy commands, subscriptions, atomics and collectives -/

@[simp] theorem countBarrier_frame (ctx c sb n : Nat) (s : State) : (s.countBarrier ctx c sb n).frame = s.frame := by
  simp [State.countBarrier, apply_ite State.frame]

theorem copyRead_frame (k : CopyCmd) (a : Arch) (hit broken : Bool) (reply : Granule × Word) (j va : Nat) (s : State) :
    (readEnd (s.copyRead k a hit broken reply j va)).frame = s.frame := by
  unfold State.copyRead
  split
  · rfl
  · split
    · split <;> rfl
    · rfl
  · split <;> rfl
  · have h := readSources_frame s a hit (if broken then some j else none) [(j, va)]
    split <;> rename_i e <;> rw [e] at h <;> exact h

theorem copyWrite_frame (q : CopyQ) (k : CopyCmd) (a : Arch) (d : Nat) (cnt : Option (Fin 64)) (va : Nat) (g : Granule) (t : Word)
    (s : State) : okKeepsFrame s (s.copyWrite q k a d cnt va g t) := by
  unfold State.copyWrite
  dsimp only
  repeat' split
  all_goals simp

theorem granuleOf_frame (e : Engine) (k : CopyCmd) (a : Arch) (j : Nat) (s : State) :
    (readEnd (s.granuleOf e k a j)).frame = s.frame := by
  unfold State.granuleOf
  split
  · rfl
  · exact copyRead_frame ..

@[simp] theorem moveGranule_frame (e : Engine) (q : CopyQ) (k : CopyCmd) (j : Nat) (s : State) :
    (s.moveGranule e q k j).s.frame = s.frame := by
  have h := granuleOf_frame e k (s.archOf k.ctx k.tcb) j s
  unfold State.moveGranule
  extract_lets +onlyGivenNames a
  split
  split
  extract_lets +onlyGivenNames src walks room
  split
  · rfl
  · split <;> rename_i e' <;> rw [e'] at h
    · exact h
    · split
      · exact h
      · split
        · exact h
        · rename_i t w
          exact (onTaskArch_frame ..).trans ((copyWrite_frame _ _ _ _ _ _ _ _ _ t w).trans h)

@[simp] theorem moveAll_frame (e : Engine) (q : CopyQ) (k : CopyCmd) (js : List Nat) (done : Nat) (s : State) :
    (s.moveAll e q k js done).2.2.frame = s.frame := by
  induction js generalizing done s with
  | nil => rfl
  | cons j rest ih =>
    unfold State.moveAll
    dsimp only
    repeat' split
    all_goals simp [ih]

@[simp] theorem moveSome_frame (e : Engine) (q : CopyQ) (k : CopyCmd) (first count : Nat) (s : State) :
    (s.moveSome e q k first count).frame = s.frame := by
  unfold State.moveSome
  dsimp only
  split <;> simp

@[simp] theorem copyBlock_frame (q : CopyQ) (k : CopyCmd) (first count : Nat) (hit : Bool) (broken : Option Nat) (s : State) :
    (s.copyBlock q k first count hit broken).frame = s.frame := by
  simp [State.copyBlock]

@[simp] theorem onSub_frame (sb0 : Nat) (f : Subscription → Subscription) (s : State) : (s.onSub sb0 f).frame = s.frame := by
  simp [State.onSub]

@[simp] theorem ringDone_frame (q : CopyQ) (id : Nat) (s : State) : (s.ringDone q id).frame = s.frame := by
  unfold State.ringDone
  split <;> simp

@[simp] theorem ringGone_frame (q : CopyQ) (id : Nat) (s : State) : (s.ringGone q id).frame = s.frame := by
  unfold State.ringGone
  split <;> simp

@[simp] theorem releaseSub_frame (sb0 : Nat) (s : State) : (s.releaseSub sb0).frame = s.frame := by
  unfold State.releaseSub
  split <;> simp

@[simp] theorem takeEffect_frame (q : CopyQ) (k : CopyCmd) (s : State) : (s.takeEffect q k).frame = s.frame := by
  simp [State.takeEffect]

@[simp] theorem doUnsub_frame (q : CopyQ) (k : CopyCmd) (sb : Fin 64) (s : State) : (s.doUnsub q k sb).frame = s.frame := by
  unfold State.doUnsub
  repeat' split
  all_goals simp

@[simp] theorem doSlotrel_frame (q : CopyQ) (k : CopyCmd) (sb : Fin 64) (s : State) : (s.doSlotrel q k sb).frame = s.frame := by
  unfold State.doSlotrel
  dsimp only
  repeat' split
  all_goals simp

@[simp] theorem sendCmd_frame (q : CopyQ) (k : CopyCmd) (s : State) : (s.sendCmd q k).frame = s.frame := by
  unfold State.sendCmd
  split <;> simp

@[simp] theorem failSub_frame (x : Subscription) (c : Cause) (va : Word) (s : State) : (s.failSub x c va).frame = s.frame := by
  unfold State.failSub
  split <;> simp

@[simp] theorem recordAtomic_frame (l : Loc) (e : Dedup) (s : State) : (s.recordAtomic l e).frame = s.frame := by
  unfold State.recordAtomic
  split <;> simp

@[simp] theorem wakeCell_frame (ctx pa : Nat) (s : State) : (s.wakeCell ctx pa).frame = s.frame := by
  unfold State.wakeCell
  refine foldl_frame (fun s x => ?_) _ _
  repeat' split
  all_goals simp

@[simp] theorem freeEntry_frame (src seqNo : Nat) (s : State) : (s.freeEntry src seqNo).frame = s.frame := by
  unfold State.freeEntry
  split <;> simp

@[simp] theorem answerAtomic_frame (q : CopyQ) (k : CopyCmd) (x : Word) (lost : Bool) (s : State) :
    (s.answerAtomic q k x lost).frame = s.frame := by
  unfold State.answerAtomic
  split <;> simp

@[simp] theorem answerAgain_frame (q : CopyQ) (k : CopyCmd) (l : Loc) (op : PortOp) (e : Dedup) (lost : Bool) (s : State) :
    (s.answerAgain q k l op e lost).frame = s.frame := by
  unfold State.answerAgain
  split <;> simp

@[simp] theorem applyAt_frame (q : CopyQ) (k : CopyCmd) (locs : List Loc) (l : Loc) (lost : Bool) (s : State) :
    (s.applyAt q k locs l lost).frame = s.frame := by
  unfold State.applyAt
  extract_lets +onlyGivenNames me full
  split
  · simp
  · extract_lets +onlyGivenNames va op cells written dropped recorded woken
    have hw : written.frame = s.frame := by
      unfold written
      split <;> simp
    have hd : dropped.frame = written.frame := by
      refine foldl_frame (fun s x => ?_) _ _
      split <;> simp
    have hk : woken.frame = recorded.frame := by
      unfold woken
      repeat' split
      all_goals simp
    rw [answerAtomic_frame, hk, recordAtomic_frame, hd, hw]

@[simp] theorem peerAcc_frame (q : CopyQ) (k : CopyCmd) (sl off len : Nat) (bad : Bool) (s : State) :
    (s.peerAcc q k sl off len bad).frame = s.frame := by
  simp [State.peerAcc, apply_ite State.frame]

@[simp] theorem waitAtPort_frame (q : CopyQ) (k : CopyCmd) (l : Loc) (s : State) : (s.waitAtPort q k l).frame = s.frame := by
  unfold State.waitAtPort
  split <;> simp

@[simp] theorem atPort_frame (q : CopyQ) (k : CopyCmd) (locs : List Loc) (l : Loc) (lost : Bool) (broken : Option Nat) (s : State) :
    (s.atPort q k locs l lost broken).frame = s.frame := by
  unfold State.atPort
  dsimp only
  repeat' split
  all_goals simp

@[simp] theorem atomicArrive_frame (q : CopyQ) (k : CopyCmd) (lost bad : Bool) (broken : Option Nat) (s : State) :
    (s.atomicArrive q k lost bad broken).frame = s.frame := by
  unfold State.atomicArrive
  dsimp only
  repeat' split
  all_goals simp

@[simp] theorem fillSlot_frame (x : Subscription) (i : Nat) (s : State) : (s.fillSlot x i).frame = s.frame := by
  simp [State.fillSlot]

@[simp] theorem tileDone_frame (x : Subscription) (st : SlotState) (s : State) : (s.tileDone x st).frame = s.frame := by
  unfold State.tileDone
  dsimp only
  repeat' split
  all_goals simp

@[simp] theorem pushGranule_frame (x : Subscription) (broken : Bool) (s : State) : (s.pushGranule x broken).frame = s.frame := by
  unfold State.pushGranule
  dsimp only
  repeat' split
  all_goals simp

@[simp] theorem receive_frame (q : CopyQ) (k : CopyCmd) (mask : BitVec 32) (engine first count : Nat) (s : State) :
    (s.receive q k mask engine first count).frame = s.frame := by
  unfold State.receive
  dsimp only
  repeat' split
  all_goals simp

@[simp] theorem onWrites_frame (f : MemReq → MemReq) (s : State) : (s.onWrites f).frame = s.frame := by
  simp only [State.onWrites]

@[simp] theorem swapSel_frame (ctx : Nat) (p : Nat × Nat × Word) (s : State) : (s.swapSel ctx p).frame = s.frame := by
  simp [State.swapSel]

@[simp] theorem publEnd_frame (q : CopyQ) (k : CopyCmd) (va len : Nat) (s : State) : (s.publEnd q k va len).frame = s.frame := by
  unfold State.publEnd
  split <;> simp

theorem collSource_frame (s : State) (a : Arch) (vas : List Nat) (broken : Option Nat) :
    (readEnd (s.collSource a vas broken)).frame = s.frame := by
  have h := readSources_frame s a false broken ((List.range vas.length).zip vas)
  unfold State.collSource
  split
  · rfl
  · split <;> rename_i e <;> rw [e] at h
    · exact h
    · split <;> exact h

@[simp] theorem writeAll_frame (locs : List Loc) (gs : List (Granule × Word)) (s : State) : (s.writeAll locs gs).frame = s.frame := by
  simp [State.writeAll]

theorem execCollComplete_frame (s : State) : keepsFrame s (execCollComplete s) := by
  unfold execCollComplete
  extract_lets +onlyGivenNames i u
  have hu : u.frame = s.frame := focus_frame ..
  rw [keepsFrame_next_iff]
  split
  · exact hu
  · rename_i k _
    split
    · rename_i kind o dst src b bytes left _
      split
      · exact hu
      · extract_lets +onlyGivenNames n nsrc ndst
        have h := collSource_frame u (u.archOf k.ctx k.tcb) (granulesFrom src.toNat nsrc) (if i.flag2 then some i.off else none)
        split <;> rename_i e <;> rw [e] at h
        · exact (stopCmd_frame ..).trans (h.trans hu)
        · split
          · exact (stopCmd_frame ..).trans (h.trans hu)
          · simpa [readEnd] using h.trans hu
    · exact hu

/-! ### Views, dispatch, suspension and inline runs -/

@[simp] theorem unqueue_frame (q : QueueRef) (e : QEntry) (s : State) : (s.unqueue q e).frame = s.frame := by
  unfold State.unqueue
  split <;> simp

theorem writePiece_frame (ctx : Nat) (w : ViewWin) (gs : List (Granule × Word)) (s : State) :
    okKeepsFrame s (s.writePiece ctx w gs) := by
  unfold State.writePiece
  dsimp only
  split <;> simp

theorem fillBlanks_frame (ctx : Nat) (ws : List ViewWin) (s : State) : okKeepsFrame s (s.fillBlanks ctx ws) := by
  induction ws generalizing s with
  | nil => simp [State.fillBlanks]
  | cons w rest ih =>
    unfold State.fillBlanks
    split
    · simp
    · rename_i t e
      intro u hu
      exact (ih t u hu).trans (writePiece_frame _ _ _ s t e)

theorem setupViews_frame (s : State) : okKeepsFrame s s.setupViews := by
  unfold State.setupViews
  dsimp only
  split
  · split
    · simp
    · split
      · simp
      · split
        · simp
        · rename_i t e
          simpa using fillBlanks_frame _ _ s t e
  · simp

@[simp] theorem keepSnap_frame (launch : Nat) (tcb : Word) (x : BitVec 1024) (s : State) : (s.keepSnap launch tcb x).frame = s.frame := by
  unfold State.keepSnap
  split <;> simp

theorem dispatch_frame (ctx : Nat) (tcb : Word) (s : State) : someKeepsFrame s (s.dispatch ctx tcb) := by
  unfold State.dispatch
  split
  · extract_lets +onlyGivenNames acquired snap pr running fresh dispatched e u
    have hd : dispatched.frame = s.frame := by simp [dispatched, running, acquired]
    split
    · simp [hd]
    · split
      · simp [hd]
      · split
        · simp [hd]
        · split
          · rename_i t h
            simp [setupViews_frame dispatched t h, hd]
          · simp [hd]
          · simp
  · simp

@[simp] theorem writeSpill_frame (s : State) : s.writeSpill.frame = s.frame := by
  unfold State.writeSpill
  split <;> simp

@[simp] theorem writePool_frame (full : Bool) (s : State) : (s.writePool full).frame = s.frame := by
  unfold State.writePool
  split <;> simp

@[simp] theorem frameOf_frame (full : Bool) (s : State) : (s.frameOf full).2.frame = s.frame := by
  unfold State.frameOf
  dsimp only
  split <;> simp

@[simp] theorem suspendNow_frame (w : Wait) (s : State) : (s.suspendNow w).frame = s.frame := by
  unfold State.suspendNow
  dsimp only
  repeat' split
  all_goals simp

@[simp] theorem resume_frame (t : Task) (f : Frame) (s : State) : (s.resume t f).frame = s.frame := by
  unfold State.resume
  extract_lets +onlyGivenNames running back
  have hb : back.frame = s.frame := by simp [back, running]
  split
  -- the two waits whose views may not be set up yet: a page, a resource
  case h_3 | h_4 =>
    extract_lets +onlyGivenNames entered
    have he : entered.frame = s.frame := by simp [entered, hb]
    split
    · split
      · rename_i u h
        exact (setupViews_frame entered u h).trans he
      · simp [he]
      · simp [he]
    · exact he
  all_goals simp [hb]

@[simp] theorem spill_frame (s : State) : s.spill.frame = s.frame := by
  simp [State.spill]

@[simp] theorem startInline_frame (ctx : Nat) (t : Word) (d : Reg) (join merge : Bool) (s : State) :
    (s.startInline ctx t d join merge).frame = s.frame := by
  unfold State.startInline
  split
  · rfl
  · split
    · simp
    · split
      · simp
      · split
        · simp
        · split
          · rename_i u h
            exact (dispatch_frame ctx t s.spill u h).trans (spill_frame s)
          · simp

/-! ### Children, merges and blocked tasks -/

@[simp] theorem freezeViews_frame (s : State) : s.freezeViews.frame = s.frame := by
  simp [State.freezeViews, apply_ite State.frame]

@[simp] theorem spawnChildren_frame (t : Word) (n : Nat) (inl : Bool) (s : State) : (s.spawnChildren t n inl).frame = s.frame := by
  simp [State.spawnChildren, apply_ite State.frame]

@[simp] theorem spawn_frame (d : Reg) (t : Word) (n : Nat) (s : State) : (s.spawn d t n).frame = s.frame := by
  unfold State.spawn
  repeat' split
  all_goals simp

@[simp] theorem hold_frame (b : Block) (s : State) : (s.hold b).frame = s.frame := keeps_frame (keeps_hold b s)

@[simp] theorem startRoutine_frame (owner : Word) (l r : Block') (s : State) : (s.startRoutine owner l r).frame = s.frame := by
  unfold State.startRoutine
  dsimp only
  repeat' split
  all_goals simp

@[simp] theorem restartRoutine_frame (s : State) : s.restartRoutine.frame = s.frame := by
  unfold State.restartRoutine
  repeat' split
  all_goals simp

@[simp] theorem endMergeRoutine_frame (s : State) : s.endMergeRoutine.frame = s.frame := by
  unfold State.endMergeRoutine
  dsimp only
  repeat' split
  all_goals simp

@[simp] theorem copyFrame_frame (p : Nat × Nat × Word) (s : State) : (s.copyFrame p).frame = s.frame := by
  simp only [State.copyFrame]

@[simp] theorem writeTile_frame (d ctx : Nat) (w : ViewWin) (s : State) : (s.writeTile d ctx w).frame = s.frame := by
  unfold State.writeTile
  refine foldl_frame (fun s x => ?_) _ _
  split <;> simp

theorem writeTiles_frame (s : State) : okKeepsFrame s s.writeTiles := by
  unfold State.writeTiles
  dsimp only
  repeat' split
  all_goals simp

@[simp] theorem contribute_frame (t : Task) (s : State) : (s.contribute t).frame = s.frame := by
  unfold State.contribute
  dsimp only
  repeat' split
  all_goals simp

@[simp] theorem sendDecrements_frame (t : Task) (s : State) : (s.sendDecrements t).frame = s.frame := by
  simp only [State.sendDecrements]

@[simp] theorem parentLearns_frame (t : Task) (s : State) : (s.parentLearns t).frame = s.frame := by
  unfold State.parentLearns
  dsimp only
  repeat' split
  all_goals simp

@[simp] theorem mergeDone_frame (t : Task) (s : State) : (s.mergeDone t).frame = s.frame := by
  unfold State.mergeDone
  dsimp only
  repeat' split
  all_goals simp

@[simp] theorem mergeStep_frame (written paged : Bool) (s : State) : (s.mergeStep written paged).frame = s.frame := by
  unfold State.mergeStep
  split
  · simp
  · split
    · simp
    · split
      · extract_lets +onlyGivenNames left
        have hl : left.frame = s.frame := by simp [left]
        split
        · simp [hl]
        · split
          · split
            · rename_i u h
              simp [writeTiles_frame left u h, hl]
            · split <;> simp [hl]
            · simp [hl]
          · simp [hl]
      · split
        · simp
        · split
          · simp
          · split <;> simp

@[simp] theorem joinDone_frame (d : Reg) (merge : Bool) (views : List ViewWin) (s : State) :
    (s.joinDone d merge views).frame = s.frame := by
  unfold State.joinDone
  split <;> simp

@[simp] theorem joinStep_frame (d : Reg) (since : Nat) (merge : Bool) (s : State) : (s.joinStep d since merge).frame = s.frame := by
  unfold State.joinStep
  dsimp only
  repeat' split
  all_goals simp

@[simp] theorem raiseBlocked_frame (b : Block) (s : State) : (s.raiseBlocked b).frame = s.frame := by
  unfold State.raiseBlocked
  dsimp only
  repeat' split
  all_goals simp

@[simp] theorem cellTrap_frame (d : Reg) (c : Cause) (va : Word) (s : State) : (s.cellTrap d c va).frame = s.frame := by
  simp [State.cellTrap]

@[simp] theorem pollCell_frame (d : Reg) (va : Word) (til : Option Nat) (s : State) : (s.pollCell d va til).frame = s.frame := by
  unfold State.pollCell
  repeat' split
  all_goals simp

@[simp] theorem blockGo_frame (b : Block) (s : State) : (s.blockGo b).frame = s.frame := by
  unfold State.blockGo
  repeat' split
  all_goals simp

@[simp] theorem enterAgain_frame (k : Block) (s : State) : (s.enterAgain k).frame = s.frame := by
  unfold State.enterAgain
  dsimp only
  repeat' split
  all_goals simp

@[simp] theorem blockCycle_frame (s : State) : s.blockCycle.frame = s.frame := by
  unfold State.blockCycle
  dsimp only
  repeat' split
  all_goals simp

/-! ### Admission, picking and combines -/

@[simp] theorem writeAdmitted_frame (t : Task) (s : State) : (s.writeAdmitted t).frame = s.frame := by
  unfold State.writeAdmitted
  split <;> simp

@[simp] theorem arm_frame (q : QueueRef) (t : Task) (s : State) : (s.arm q t).frame = s.frame := by
  simp [State.arm, apply_ite State.frame]

@[simp] theorem admission_frame (t : Task) (q : QueueRef) (direct : Bool) (s : State) : (s.admission t q direct).frame = s.frame := by
  simp [State.admission, apply_ite State.frame]

@[simp] theorem admitFails_frame (r : RelOp) (par : Word) (inl : Bool) (c : Cause) (x : Word) (s : State) :
    (s.admitFails r par inl c x).frame = s.frame := by
  unfold State.admitFails
  dsimp only
  repeat' split
  all_goals simp

@[simp] theorem applyDecrement_frame (d : Decrement) (s : State) : (s.applyDecrement d).frame = s.frame := by
  unfold State.applyDecrement
  dsimp only
  repeat' split
  all_goals simp

theorem execTaskPick_frame (s : State) : keepsFrame s (execTaskPick s) := by
  unfold execTaskPick
  extract_lets +onlyGivenNames u
  have hu : u.frame = s.frame := focus_frame ..
  rw [keepsFrame_next_iff]
  split
  · exact hu
  · split
    · exact hu
    · split
      · exact hu
      · split
        · simp [hu]
        · split
          · simp [hu]
          · split
            · rename_i v h
              exact (dispatch_frame _ _ _ v h).trans ((unqueue_frame ..).trans hu)
            · simp [hu]

@[simp] theorem combineFault_frame (t : Task) (lo : Nat) (paged : Bool) (c : Cause) (x : Word) (s : State) :
    (s.combineFault t lo paged c x).frame = s.frame := by
  simp [State.combineFault, apply_ite State.frame]

@[simp] theorem keepDest_frame (t : Task) (lo : Nat) (d : ViewWin) (s : State) : (s.keepDest t lo d).frame = s.frame := by
  simp [State.keepDest]

theorem execCombine_frame (s : State) : keepsFrame s (execCombine s) := by
  refine keepsFrame_next ?_
  split
  · split
    · rfl
    · split
      · rfl
      · split
        · split <;> simp
        · split
          · split
            · rfl
            · split
              · split
                · simp
                · split
                  · simp
                  · rename_i u h
                    simp [writePiece_frame _ _ _ s u h]
              · simp
              · simp
          · rfl
  · rfl

@[simp] theorem firmwareMap_frame (ctx : Nat) (ws : List PteWrite) (s : State) : (s.firmwareMap ctx ws).frame = s.frame := by
  unfold State.firmwareMap
  split <;> simp

@[simp] theorem returnExcess_frame (q : QueueRef) (s : State) : (s.returnExcess q).frame = s.frame := by
  unfold State.returnExcess
  repeat' split
  all_goals simp

/-! ### Gangs, barriers and futures -/

@[simp] theorem pushGang_frame (k : GangKind) (va : Word) (ph : Nat) (d : Reg) (s : State) : (s.pushGang k va ph d).frame = s.frame := by
  simp [State.pushGang]

@[simp] theorem gangOp_frame (k : GangKind) (va : Word) (d : Reg) (gone : Bool) (s : State) : (s.gangOp k va d gone).frame = s.frame := by
  unfold State.gangOp
  split <;> simp

@[simp] theorem markSent_frame (ctx : Nat) (r : Reach) (s : State) : (s.markSent ctx r).frame = s.frame := by
  simp [State.markSent]

@[simp] theorem gangArrive_frame (ctx : Nat) (va : Word) (r : Reach) (drop wait : Bool) (s : State) :
    (s.gangArrive ctx va r drop wait).frame = s.frame := by
  unfold State.gangArrive
  dsimp only
  repeat' split
  all_goals simp

@[simp] theorem gangJoin_frame (ctx : Nat) (va : Word) (r : Reach) (s : State) : (s.gangJoin ctx va r).frame = s.frame := by
  unfold State.gangJoin
  dsimp only
  repeat' split
  all_goals simp

@[simp] theorem gangWait_frame (ctx : Nat) (va : Word) (r : Reach) (b : Nat) (s : State) : (s.gangWait ctx va r b).frame = s.frame := by
  unfold State.gangWait
  repeat' split
  all_goals simp

@[simp] theorem gangCycle_frame (ctx : Nat) (va : Word) (rs : List Reach) (s : State) : (s.gangCycle ctx va rs).frame = s.frame := by
  unfold State.gangCycle
  rw [foldl_frame, foldl_frame, gangComplete_frame, foldl_frame, foldl_frame, foldl_frame, foldl_frame (fun s r => markSent_frame ctx r s)]
  all_goals
    intro s r
    split <;> simp

@[simp] theorem endPhase_frame (ctx : Nat) (key : Word) (sb : Fin 64) (d : Reg) (s : State) :
    (s.endPhase ctx key sb d).frame = s.frame := by
  simp [State.endPhase, apply_ite State.frame]

@[simp] theorem barrierCycle_frame (s : State) : s.barrierCycle.frame = s.frame := by
  simp [State.barrierCycle]

@[simp] theorem holdCell_frame (d : Reg) (va : Word) (b : Block) (s : State) : (s.holdCell d va b).frame = s.frame := by
  unfold State.holdCell
  split <;> simp

/-! ### Tokens, leases and wear -/

@[simp] theorem refill_frame (s : State) : s.refill.frame = s.frame := by
  simp [State.refill]

@[simp] theorem countSprint_frame (s : State) : s.countSprint.frame = s.frame := by
  simp only [State.countSprint]

@[simp] theorem expire_frame (l : Lease) (cause : Nat) (s : State) : (s.expire l cause).frame = s.frame := by
  simp [State.expire]

@[simp] theorem endLeaseTrap_frame (n cause : Nat) (s : State) : (s.endLeaseTrap n cause).frame = s.frame := by
  unfold State.endLeaseTrap
  repeat' split
  all_goals simp

@[simp] theorem meltRows_frame (s : State) : s.meltRows.frame = s.frame := by
  simp [State.meltRows, apply_ite State.frame]

@[simp] theorem decideLease_frame (n : Nat) (r : LeaseReq) (s : State) : (s.decideLease n r).frame = s.frame := by
  unfold State.decideLease
  dsimp only
  repeat' split
  all_goals simp

@[simp] theorem decideLeases_frame (s : State) : s.decideLeases.frame = s.frame := by
  unfold State.decideLeases
  refine foldl_frame (fun s x => ?_) _ _
  split <;> simp

@[simp] theorem wearRows_frame (s : State) : s.wearRows.frame = s.frame := by
  unfold State.wearRows
  refine foldl_frame (fun s x => ?_) _ _
  dsimp only
  repeat' split
  all_goals simp

/-! ### Images and restore -/

@[simp] theorem onImage_frame (ctx : Nat) (f : Image → Image) (s : State) : (s.onImage ctx f).frame = s.frame := by
  simp [State.onImage]

@[simp] theorem saveCore_frame (ctx n : Nat) (s : State) : (s.saveCore ctx n).frame = s.frame := by
  simp [State.saveCore, apply_ite State.frame]

@[simp] theorem saveQueues_frame (ctx : Nat) (s : State) : (s.saveQueues ctx).frame = s.frame := by
  simp [State.saveQueues]

@[simp] theorem writeImage_frame (ctx : Nat) (s : State) : (s.writeImage ctx).frame = s.frame := by
  unfold State.writeImage
  split <;> simp

@[simp] theorem commitImage_frame (ctx : Nat) (s : State) : (s.commitImage ctx).frame = s.frame := by
  unfold State.commitImage
  split
  · rfl
  · rw [respondTo_frame, foldl_frame]
    · simp
    · intro s x
      split <;> simp

@[simp] theorem askSave_frame (c : Context) (s : State) : (s.askSave c).frame = s.frame := by
  simp [State.askSave]

@[simp] theorem saveStep_frame (ctx : Nat) (s : State) : (s.saveStep ctx).frame = s.frame := by
  unfold State.saveStep
  dsimp only
  repeat' split
  all_goals simp [apply_ite State.frame]

@[simp] theorem loseImage_frame (ctx seq : Nat) (s : State) : (s.loseImage ctx seq).frame = s.frame := by
  simp [State.loseImage]

theorem execPreempt_frame (s : State) : keepsFrame s (execPreempt s) := by
  refine keepsFrame_next ?_
  split
  · split <;> simp
  · refine command_frame (fun s => ?_) s
    repeat' split
    all_goals simp

@[simp] theorem restoreCore_frame (ctx : Nat) (im : CoreImage) (n : Nat) (s : State) : (s.restoreCore ctx im n).frame = s.frame := by
  simp [State.restoreCore, apply_ite State.frame]

@[simp] theorem requeue_frame (m : List (Nat × Nat)) (s : State) (q : QueueRef × QEntry) : (s.requeue m q).frame = s.frame := by
  unfold State.requeue
  split <;> simp

/-! ### The host's windows and commands -/

@[simp] theorem discardSpawn_frame (fn n : Nat) (s : State) : (s.discardSpawn fn n).frame = s.frame := by
  unfold State.discardSpawn
  split <;> simp

@[simp] theorem copyOut_frame (ctx va n pa : Nat) (s : State) : (s.copyOut ctx va n pa).frame = s.frame := by
  unfold State.copyOut
  refine foldl_frame (fun s x => ?_) _ _
  split <;> simp

@[simp] theorem capture_frame (c : CaptureSt) (ctx : Nat) (root : BitVec 1024) (s : State) :
    (s.capture c ctx root).frame = s.frame := by
  unfold State.capture
  rw [writePhys_frame]
  exact foldl_preserves (fun p : State × Nat => p.1.frame) (fun _ _ => copyOut_frame ..) c.regions (s, c.area.1)

@[simp] theorem openLaunch_frame (x : Stream) (root : BitVec 1024) (rest : List (BitVec 1024)) (s : State) :
    (s.openLaunch x root rest).2.frame = s.frame := by
  unfold State.openLaunch
  dsimp only
  repeat' split
  all_goals simp

@[simp] theorem apertureGranule_frame (fn pa : Nat) (cells : List (Nat × Byte)) (s : State) :
    (s.apertureGranule fn pa cells).frame = s.frame := by
  simp [State.apertureGranule, apply_ite State.frame]

theorem execApertureWrite_frame (s : State) : keepsFrame s (execApertureWrite s) := by
  refine keepsFrame_next ?_
  dsimp only
  split
  · rfl
  · split
    · simp
    · refine foldl_frame (fun s p => ?_) _ s
      split <;> simp

@[simp] theorem preload_frame (ctx : Nat) (bind : List (Nat × List Nat)) (ps : List Preload) (s : State) :
    (s.preload ctx bind ps).frame = s.frame := by
  unfold State.preload
  split <;> simp

@[simp] theorem unload_frame (ctx : Nat) (s : State) : (s.unload ctx).frame = s.frame := by
  simp [State.unload]

@[simp] theorem destroy_frame (ctx : Nat) (s : State) : (s.destroy ctx).frame = s.frame := by
  simp [State.destroy, apply_ite State.frame]

/-! ### Resets and the scheduler's takeover -/

@[simp] theorem dropDies_frame (s : State) : s.dropDies.frame = s.frame := by
  simp [State.dropDies]

@[simp] theorem restart_frame (frame : BitVec 64) (mask : BitVec 32) (failed : List Nat) (s : State) :
    (s.restart frame mask failed).frame = frame := by
  simp [State.restart]

@[simp] theorem releaseRecords_frame (s : State) : s.releaseRecords.frame = s.frame := by
  simp [State.releaseRecords]

@[simp] theorem loseAll_frame (s : State) : s.loseAll.frame = s.frame := by
  simp [State.loseAll]

@[simp] theorem replayed_frame (s : State) : s.replayed.frame = s.frame := by
  unfold State.replayed
  cases s.journal.head? <;> simp

/-! ### The scalar slot -/

@[simp] theorem intOp_frame (lat : Nat) (d a b : Reg) (w : Bool) (f : Nat → Nat → Nat → Nat) (s : State) :
    (s.intOp lat d a b w f).frame = s.frame := by
  simp [State.intOp]

@[simp] theorem ctlReg_frame (d : Reg) (x : Word) (s : State) : (s.ctlReg d x).frame = s.frame := by
  simp [State.ctlReg]

@[simp] theorem ctlPred_frame (p : PredReg) (x : Bool) (s : State) : (s.ctlPred p x).frame = s.frame := by
  simp [State.ctlPred]

@[simp] theorem fpCode_frame (lat : Nat) (d : Reg) (f : FpFmt) (x : Nat) (s : State) : (s.fpCode lat d f x).frame = s.frame := by
  simp [State.fpCode]

@[simp] theorem fpInt_frame (lat : Nat) (d : Reg) (x : Int) (s : State) : (s.fpInt lat d x).frame = s.frame := by
  simp [State.fpInt]

@[simp] theorem fpOp_frame (lat : Nat) (d : Reg) (rm : Round) (x : ExtNum) (s : State) : (s.fpOp lat d rm x).frame = s.frame := by
  simp [State.fpOp]

@[simp] theorem transfer_frame (taken : Bool) (target : Word) (leaves : Bool) (s : State) :
    (s.transfer taken target leaves).frame = s.frame := by
  simp [State.transfer, apply_ite State.frame]

@[simp] theorem fpPred_frame (p : PredReg) (x : Bool) (s : State) : (s.fpPred p x).frame = s.frame := by
  simp [State.fpPred]

@[simp] theorem restartPrefetch_frame (g : Port) (s : State) : (s.restartPrefetch g).frame = s.frame := by
  simp [State.restartPrefetch]

/-! ### The vector slots -/

@[simp] theorem vec2_frame (un : VUnit) (d : VDst) (a b : VSrc) (t : VType) (m : MaskReg) (lat : Nat) (f : Nat → Nat → Nat) (s : State) :
    (s.vec2 un d a b t m lat f).frame = s.frame := by
  simp [State.vec2]

@[simp] theorem vec1_frame (slot : Nat) (d : VDst) (a : VSrc) (t : VType) (m : MaskReg) (lat : Nat) (f : Nat → Nat) (s : State) :
    (s.vec1 slot d a t m lat f).frame = s.frame := by
  simp [State.vec1]

@[simp] theorem vecWhole_frame (slot : Nat) (srcs : List VSrc) (d : VDst) (lat : Nat) (chk : Core → Vec → List Nat)
    (f : Core → List Vec → Vec) (s : State) :
    (s.vecWhole slot srcs d lat chk f).frame = s.frame := by
  simp [State.vecWhole]

@[simp] theorem vecMask_frame (un : VUnit) (k : MaskReg) (a : VSrc) (f : Vec → Nat → Bool) (s : State) :
    (s.vecMask un k a f).frame = s.frame := by
  simp [State.vecMask]

theorem execVchk_frame (un : VUnit) (a b : VSrc) (m : MaskReg) (s : State) : keepsFrame s (execVchk un a b m s) := by
  refine keepsFrame_next (vecIssue_frame _ _ _ _ (fun vs s => ?_) s)
  simp

/-! ### Instructions of a slot and a core's cycle -/

/-- An instruction of a slot, or a micro-word, keeps FRAME. -/
theorem runInstr_frame (i : Instr) (s : State) : keepsFrame s (runInstr i s) := by
  cases i with
  | nopCtl | nopMem | prefMd | nopVec | nopMx | nopCopy | nopSys =>
    exact keepsFrame_next rfl
  | add | sub | and | or | xor | andn | sll | srl | sra | rol | min | max | minu | maxu | mul | mulh | mulhu
  | div | divu | rem | remu | clz | ctz | popc | slli | srli | srai | roli =>
    exact keepsFrame_next (intOp_frame ..)
  | addi | andi | ori | xori | movhi | addpc | sel | rdsr | gstat =>
    exact keepsFrame_next (ctlReg_frame ..)
  | cmp | cmpi | pand | por | pxor =>
    exact keepsFrame_next (ctlPred_frame ..)
  | br | bz | bnz | jmp =>
    exact keepsFrame_next (transfer_frame ..)
  | call | jr | loop | gcfg | st | ldv | stv | ldx | ldt | ldg | prefRc | mlduc | mlducEnt | mPermit | subs
  | cpys | join | merge | yield | viewa | runinl | gjoin | bwait | tcexp | lease | leaserel | permit | trap
  | utret =>
    refine keepsFrame_next ?_
    repeat' split
    all_goals simp
  | fadd | fsub | fmul | fdiv | fsqrt | fmin | fmax | ffma | ffms | ffnma | ffnms =>
    exact keepsFrame_next (fpOp_frame ..)
  | fcvtI64F32 | fcvtUi64F32 | fcvtI32F32 | fcvtUi32F32 =>
    exact keepsFrame_next (fpInt_frame ..)
  | fcvtF32I64 | fcvtF32Ui64 | fcvtF32I32 | fcvtF32Ui32 | fcvtB16F32 | fcvtF32B16 | fcvtF16F32 | fcvtF32F16
  | fcvtF8aF32 | fcvtF8bF32 | fcvtF32F8a | fcvtF32F8b | frint =>
    exact keepsFrame_next (fpCode_frame ..)
  | feq | flt | fle | fUn =>
    exact keepsFrame_next (fpPred_frame ..)
  | wrsr | mcall | maccrdRow =>
    refine keepsFrame_next ?_
    dsimp only
    repeat' split
    all_goals simp
  | gstart | gseek | fenceUo | vfma | vcmp | vscale | vqnt | vunpk | mzero | mseal | maccrd | maccwr | mwait
  | mAload | mBload | mStep | mAddp | mSetp | mSeal | mFmt | mEnd | tcwait | segs | trapDup =>
    exact keepsFrame_next (by simp)
  | gstop | vsetk | vsetkH | vmaskAnd | vmaskOr | vmaskXor | vmaskAndn | vmaskNot | msetp | msetpi | mstat
  | tinfo | vdist | vdmap =>
    exact keepsFrame_next (fly_frame ..)
  | ld | lds =>
    exact keepsFrame_next (loadScalar_frame ..)
  | fence | fenceRel | fenceAcq | fenceMem =>
    exact keepsFrame_next (point_frame ..)
  | vadd | vsub | vmul | vmulh | vmin | vmax | vand | vor | vxor | vandn | vshl | vshr =>
    exact keepsFrame_next (vec2_frame ..)
  | vabs | vneg | vexp2 | vlog2 | vrcp | vrsq =>
    exact keepsFrame_next (vec1_frame ..)
  | vsel | vmov | vcvt | vperm | vrot | vrsum | vrmax | vscan =>
    exact keepsFrame_next (vecWhole_frame ..)
  | vmaskNz | vmaskCnt =>
    exact keepsFrame_next (vecMask_frame ..)
  | mLoop | mZero | mShape =>
    refine keepsFrame_next (withRoutine_frame (fun r s => ?_) s)
    repeat' split
    all_goals simp
  | mEndloop | mJcmp | mDrain =>
    refine keepsFrame_next (withRoutine_frame (fun r s => ?_) s)
    dsimp only
    repeat' split
    all_goals simp
  | cpy | cpy2 | cpyb | acc | cas | faa | xchg | fput | unsub | slotrel | publ | cfence | coll =>
    exact keepsFrame_next (issueCopy_frame ..)
  | spawn | spawnl =>
    exact keepsFrame_next (spawn_frame ..)
  | fget | fwaitSpin | fwaitYield =>
    exact keepsFrame_next (holdCell_frame ..)
  | gleave | arrive | arriveDrop | sstep =>
    exact keepsFrame_next (gangOp_frame ..)
  | stpk d a o r m => exact execStpk_frame d a o r m s
  | stt d a o r => exact execStt_frame d a o r s
  | vchk un a b m => exact execVchk_frame un a b m s
  | mdrain t d a b z n m x => exact execMdrain_frame t d a b z n m x s
  | maccwrRow t a b => exact execMaccwrRow_frame t a b s
  | _ => exact keepsFrame_next rfl

@[simp] theorem run_frame (i : Instr) (s : State) : (s.run i).frame = s.frame := by
  unfold State.run
  split
  · rename_i t h
    exact runInstr_frame i s t h
  · rfl

@[simp] theorem checkCycle_frame (s : State) : s.checkCycle.frame = s.frame := by
  simp [State.checkCycle]

@[simp] theorem microGo_frame (r : Routine) (s : State) : (s.microGo r).frame = s.frame := by
  unfold State.microGo
  repeat' split
  all_goals simp

@[simp] theorem sendOperand_frame (s : State) : s.sendOperand.frame = s.frame := by
  unfold State.sendOperand
  split <;> simp

@[simp] theorem microStep_frame (late : Bool) (s : State) : (s.microStep late).frame = s.frame := by
  unfold State.microStep
  repeat' split
  all_goals simp

theorem fetch_frame (from_ : Nat) (s : State) : okKeepsFrame s (s.fetch from_) := by
  unfold State.fetch
  dsimp only
  repeat' split
  all_goals simp

@[simp] theorem issueSlots_frame (who : Bool × Nat × Word) (is : List Instr) (s : State) : (s.issueSlots who is).frame = s.frame := by
  induction is generalizing s with
  | nil => rfl
  | cons i rest ih =>
    unfold State.issueSlots
    split <;> simp [ih]

@[simp] theorem issued_frame (who : Bool × Nat × Word) (s : State) : (s.issued who).frame = s.frame := by
  unfold State.issued
  repeat' split
  all_goals simp

@[simp] theorem issueBundle_frame (live : List Instr) (stop : Option (Nat × Cause × Word)) (s : State) :
    (s.issueBundle live stop).frame = s.frame := by
  unfold State.issueBundle
  dsimp only
  repeat' split
  all_goals simp

@[simp] theorem issueWith_frame (i : Input) (k : Nat) (bad : Option Nat) (live : List Instr) (s : State) :
    (s.issueWith i k bad live).frame = s.frame := by
  unfold State.issueWith
  split <;> simp

@[simp] theorem tryIssue_frame (i : Input) (s : State) : (s.tryIssue i).frame = s.frame := by
  unfold State.tryIssue
  dsimp only
  repeat' split
  all_goals simp

@[simp] theorem fetchFault_frame (c : Cause) (x : Word) (s : State) : (s.fetchFault c x).frame = s.frame := by
  simp [State.fetchFault]

@[simp] theorem fetchIssue_frame (i : Input) (s : State) : (s.fetchIssue i).frame = s.frame := by
  unfold State.fetchIssue
  split
  · simp
  · extract_lets +onlyGivenNames pc
    split
    · simp
    · split
      · simp
      · split
        · simp
        · split
          · simp
          · rename_i t h
            have ht : t.frame = s.frame := fetch_frame i.count s t h
            repeat' split
            all_goals simp [ht]

theorem raised_frame (s : State) : someKeepsFrame s s.raised := by
  unfold State.raised
  extract_lets +onlyGivenNames a
  split
  · simp
  · split
    · simp
    · split <;> simp

/-- A core with nothing to raise goes on from a state with the same FRAME. -/
theorem raised_getD_frame {s t : State} (h : t.frame = s.frame) : (s.raised.getD t).frame = s.frame := by
  cases e : s.raised with
  | none => exact h
  | some u => exact raised_frame s u e

@[simp] theorem atBundle_frame (s : State) : s.atBundle.frame = s.frame := by
  simp [State.atBundle]

@[simp] theorem issueCycle_frame (i : Input) (s : State) : (s.issueCycle i).frame = s.frame := by
  unfold State.issueCycle
  dsimp only
  split
  · simp
  · rw [← atBundle_frame s, ← rowCycle_frame s.atBundle]
    exact raised_getD_frame (rowCycle_frame s.atBundle).symm

theorem execDeferredFault_frame (s : State) : keepsFrame s (execDeferredFault s) := by
  refine keepsFrame_next ?_
  split
  · exact (raised_getD_frame rfl).trans (by simp)
  · simp

@[simp] theorem blockedCycle_frame (s : State) : s.blockedCycle.frame = s.frame := by
  unfold State.blockedCycle
  split <;> simp

@[simp] theorem engineCycle_frame (late : Bool) (s : State) : (s.engineCycle late).frame = s.frame := by
  unfold State.engineCycle
  dsimp only
  repeat' split
  all_goals simp

@[simp] theorem operandUncorr_frame (va : Word) (s : State) : (s.operandUncorr va).frame = s.frame := by
  unfold State.operandUncorr
  repeat' split
  all_goals simp

@[simp] theorem engineUncorr_frame (place : Word) (s : State) : (s.engineUncorr place).frame = s.frame := by
  unfold State.engineUncorr
  split <;> simp

@[simp] theorem frontCycle_frame (i : Input) (frozen entering : Bool) (s : State) : (s.frontCycle i frozen entering).frame = s.frame := by
  unfold State.frontCycle
  repeat' split
  all_goals simp

@[simp] theorem idleUncorr_frame (off : Nat) (s : State) : (s.idleUncorr off).frame = s.frame := by
  simp [State.idleUncorr]

@[simp] theorem coreCycle_frame (i : Input) (s : State) : (s.coreCycle i).frame = s.frame := by
  simp [State.coreCycle, apply_ite State.frame]

/-! ### Every instruction and event -/

/-- An instruction of a slot, or a micro-word, means as a step what it means to the core that issues it. -/
theorem exec_eq_runInstr {i : Instr} (h : i.place ≠ .none) (s : State) : exec i s = runInstr i s := by
  cases i with
  | powerOnReset | deviceReset | functionLevelReset | timeBaseTick | timeBaseStop | firmwareInit
  | bundleFetch | shadowCheckVerdict | vchkVerdict | deferredFault | loadDataArrival | requestTimeout
  | dirtyLineEviction | pageWalk | tlbInvalidateAck | replicaResync | pierEntryLeave | implicitSeal
  | drainRowLeave | sealVerdict | keystoneVerdict | mwaitFill | tokenGrant | refillEpoch | leaseExpiry
  | wearMeasurement | portPrefetch | segmentWake | copyComplete | copyResume | atomicApply | atomicBusyRetry
  | atomicResend | subscriptionAccept | loaderPush | storerPull | cpysReceive | publSwap | peerRequest
  | collComplete | collTimeout | gangCycle | tcwaitPhaseComplete | fgetResponse | fwaitTimeout
  | rootAdmission | taskAdmission | depcntDecrement | taskPick | tickSlip | joinSuspendTimeout | combine
  | resourceResolution | pageFaultResolution | hangWatchdog | saveDeadline | schedulerTakeover
  | takeoverComplete | spawnWindowWrite | consumedWrite | apertureWrite | apertureRead | registerWrite
  | fwload | ctxcreate | ctxdestroy | streamcreate | tupd | ctxparam | preempt | restore | streamabort
  | capture | resync | pagefail | storeAcknowledgement =>
    exact absurd rfl h
  | _ => rfl

/-- Every instruction and event but a tick and the power-on reset keeps FRAME. -/
theorem exec_frame {i : Instr} (htick : i ≠ .timeBaseTick) (hreset : i ≠ .powerOnReset) (s : State) : keepsFrame s (exec i s) := by
  cases i with
  | timeBaseTick => exact absurd rfl htick
  | powerOnReset => exact absurd rfl hreset
  | deviceReset | timeBaseStop | loadDataArrival | tlbInvalidateAck | pierEntryLeave | implicitSeal
  | mwaitFill | portPrefetch | segmentWake | storeAcknowledgement =>
    exact keepsFrame_next (by simp)
  | functionLevelReset | firmwareInit | bundleFetch | shadowCheckVerdict | vchkVerdict | requestTimeout
  | dirtyLineEviction | pageWalk | drainRowLeave | sealVerdict | keystoneVerdict | tokenGrant | refillEpoch
  | leaseExpiry | wearMeasurement | copyResume | atomicApply | atomicResend | subscriptionAccept | loaderPush
  | cpysReceive | publSwap | gangCycle | tcwaitPhaseComplete | fwaitTimeout | depcntDecrement | tickSlip
  | joinSuspendTimeout | resourceResolution | hangWatchdog | saveDeadline | schedulerTakeover
  | spawnWindowWrite | consumedWrite | registerWrite | fwload =>
    refine keepsFrame_next ?_
    repeat' split
    all_goals simp
  | replicaResync | copyComplete | atomicBusyRetry | storerPull | peerRequest | collTimeout | fgetResponse
  | rootAdmission | taskAdmission | pageFaultResolution | takeoverComplete | apertureRead =>
    refine keepsFrame_next ?_
    dsimp only
    repeat' split
    all_goals simp
  | ctxcreate | ctxdestroy | streamcreate | ctxparam | restore | streamabort | capture | resync =>
    refine keepsFrame_next (command_frame (fun s => ?_) s)
    repeat' split
    all_goals simp
  | tupd | pagefail =>
    refine keepsFrame_next (command_frame (fun s => ?_) s)
    dsimp only
    repeat' split
    all_goals simp
  | deferredFault => exact execDeferredFault_frame s
  | collComplete => exact execCollComplete_frame s
  | taskPick => exact execTaskPick_frame s
  | combine => exact execCombine_frame s
  | apertureWrite => exact execApertureWrite_frame s
  | preempt => exact execPreempt_frame s
  | _ =>
    rw [exec_eq_runInstr (by rintro ⟨⟩)]
    exact runInstr_frame _ s

/-- Settles O58: every other instruction and event is a composition of operations that keep FRAME (`exec_frame`); a tick and the
power-on reset write it, and RDSR reads it. -/
theorem frameOnlyTicks : Obligations.FrameOnlyTicks := by
  unfold Obligations.FrameOnlyTicks
  refine ⟨fun i s t hstep htick hreset => exec_frame htick hreset s t hstep, fun s hbase => ?_, fun s => ?_, fun d s => rfl⟩
  · exact ⟨_, rfl, by simp [hbase]⟩
  · exact ⟨_, rfl, restart_frame ..⟩

end Sys2Proof.Machine
end

section
/-!
LEMMAS. The control slot (spec/04). A register file with one bit changed, the registers that hold constants and those that hold what lands in
them (R76, R159), and the next bundle in issue order (R90, R91): an equation for each way in which the sequencer decides.
-/

namespace Sys2Proof.Machine

/-! ### One bit of a register file -/

theorem bitOf_eq_getLsbD {w : Nat} (x : BitVec w) (i : Nat) : bitOf x i = x.getLsbD i := by
  rw [bitOf, BitVec.getLsbD, Nat.testBit_eq_decide_div_mod_eq, beq_eq_decide]

theorem bitOf_setBit {w : Nat} (x : BitVec w) {i j : Nat} (b : Bool) (h : j < w) :
    bitOf (setBit x i b) j = if i = j then b else bitOf x j := by
  have hbit : (BitVec.ofNat w (2 ^ i)).getLsbD j = decide (i = j) := by
    rw [BitVec.getLsbD_ofNat, Nat.testBit_two_pow, decide_eq_true h, Bool.true_and]
  rw [bitOf_eq_getLsbD, bitOf_eq_getLsbD, setBit]
  cases b with
  | true =>
    rw [if_pos rfl, BitVec.getLsbD_or, hbit]
    by_cases e : i = j <;> simp [e]
  | false =>
    rw [if_neg Bool.false_ne_true, BitVec.getLsbD_and, BitVec.getLsbD_not, hbit]
    by_cases e : i = j <;> simp [e, h]

/-! ### Scalar registers, predicates and masks (R76, R159) -/

theorem sIsEmpty_fillS_same (a : Arch) {r : Reg} (x : Word) (h : r ≠ 0) : (a.fillS r x).sIsEmpty r = false := by
  simp [Arch.sIsEmpty, Arch.fillS, h, bitOf_setBit]

theorem sIsEmpty_fillS_other (a : Arch) {r q : Reg} (x : Word) (h : q ≠ r) : (a.fillS r x).sIsEmpty q = a.sIsEmpty q := by
  unfold Arch.fillS
  split
  · rfl
  · simp [Arch.sIsEmpty, bitOf_setBit, Fin.val_ne_of_ne h.symm]

theorem rdP_land_same (c : Core) {r : PredReg} (x : Bool) (h : r ≠ 0) : (c.land (.p r x)).a.rdP r = x := by
  simp [Core.land, Arch.rdP, h, bitOf_setBit]

theorem rdP_land_other (c : Core) {r q : PredReg} (x : Bool) (h : q ≠ r) : (c.land (.p r x)).a.rdP q = c.a.rdP q := by
  unfold Core.land
  dsimp only
  split
  · rfl
  · simp [Arch.rdP, bitOf_setBit, Fin.val_ne_of_ne h.symm]

theorem rdM_land_same (c : Core) {r : MaskReg} (x : Mask) (h : r ≠ 0) : (c.land (.m r x)).a.rdM r = x := by
  simp [Core.land, Arch.rdM, h]

theorem rdM_land_other (c : Core) {r q : MaskReg} (x : Mask) (h : q ≠ r) : (c.land (.m r x)).a.rdM q = c.a.rdM q := by
  unfold Core.land
  dsimp only
  split
  · rfl
  · simp [Arch.rdM, Vector.getElem_set_ne _ _ (Fin.val_ne_of_ne h.symm)]

/-- Outside a delay bundle CALL takes its transfer and sends the link to s31 (R87). -/
theorem execCall_of_no_transfer (o : BitVec 26) {s : State} (h : s.core.a.pend = none) :
    execCall o s = .next ((s.transfer true (relTarget s.core.a.pc o) false).fly 1 0 [.s 31 s.core.a.link]) := by
  simp [execCall, Arch.inDelay, h, State.ctlReg]

/-- Settles O45: what lands is read back through the bit or the cell of its own register (`rd_fillS_same`, `rdP_land_same`,
`rdM_land_same` and the lemmas on the others); register 0 of each file is not stored. -/
theorem hardWiredRegisters : Obligations.HardWiredRegisters := by
  unfold Obligations.HardWiredRegisters
  intro c s
  refine ⟨rfl, rfl, rfl, rfl, rfl, fun o hpend => ?link, fun x => rfl, fun x => rfl, fun x => rfl,
    fun r x hr => ?scalar, fun r x hr => ?predicate, fun r x hr => ?mask⟩
  case link =>
    exact ⟨_, execCall_of_no_transfer o hpend, (inFlight_fly ..).mpr (.inr ⟨rfl, List.mem_singleton.mpr rfl⟩)⟩
  case scalar =>
    exact ⟨rd_fillS_same c.a r x hr, sIsEmpty_fillS_same c.a x hr,
      fun q hq => ⟨rd_fillS_other c.a r q x hq, sIsEmpty_fillS_other c.a x hq⟩⟩
  case predicate => exact ⟨rdP_land_same c x hr, fun q hq => rdP_land_other c x hq⟩
  case mask => exact ⟨rdM_land_same c x hr, fun q hq => rdM_land_other c x hq⟩

/-! ### Loop-backs (R90) -/

section
variable {l : LoopNo} {rest : List LoopNo} {ls : Vector LoopLevel 4} {pc : Word}

theorem loopBack_cons_of_not_ending (ord : List LoopNo) (next : Word) (h : (ls[l]).act = false ∨ (ls[l]).stop ≠ pc) :
    loopBack (l :: rest) ls ord pc next = loopBack rest ls ord pc next := by
  rw [loopBack, if_neg]
  rcases h with h | h <;> simp_all

theorem loopBack_cons_of_passes_left (ord : List LoopNo) (next : Word) (hact : (ls[l]).act = true) (hstop : (ls[l]).stop = pc)
    (hcount : 1 < (ls[l]).count) :
    loopBack (l :: rest) ls ord pc next = (ls.set l { ls[l] with count := (ls[l]).count - 1 }, ord, (ls[l]).start) := by
  rw [loopBack, if_pos (by simpa using ⟨hact, hstop⟩), if_pos hcount]

theorem loopBack_cons_of_last_pass (ord : List LoopNo) (next : Word) (hact : (ls[l]).act = true) (hstop : (ls[l]).stop = pc)
    (hcount : (ls[l]).count ≤ 1) :
    loopBack (l :: rest) ls ord pc next = loopBack rest (ls.set l LoopLevel.init) (ord.filter (fun y => y ≠ l)) pc next := by
  rw [loopBack, if_pos (by simpa using ⟨hact, hstop⟩), if_neg (by omega)]

/-- A level that is not asked stays the first in the order of activation. -/
theorem loopBack_order_cons (ls : Vector LoopLevel 4) (ord : List LoopNo) (pc next : Word) (h : l ∉ rest) :
    loopBack rest ls (l :: ord) pc next =
      ((loopBack rest ls ord pc next).1, l :: (loopBack rest ls ord pc next).2.1, (loopBack rest ls ord pc next).2.2) := by
  induction rest generalizing ls ord with
  | nil => rfl
  | cons k rest ih =>
    obtain ⟨hk, hrest⟩ : l ≠ k ∧ l ∉ rest := by simpa using h
    unfold loopBack
    dsimp only
    split
    · split
      · rfl
      · rw [List.filter_cons_of_pos (by simpa using hk)]
        exact ih _ _ hrest
    · exact ih _ _ hrest

end

/-! ### What becomes of the levels (R90, R91) -/

/-- A level that is active only as a level before was, with its body. -/
def LoopLevel.continues (x y : LoopLevel) : Prop := x.act = true → y.act = true ∧ x.start = y.start ∧ x.stop = y.stop

theorem LoopLevel.continues_refl (x : LoopLevel) : x.continues x := fun h => ⟨h, rfl, rfl⟩

theorem LoopLevel.continues_trans {x y z : LoopLevel} (hxy : x.continues y) (hyz : y.continues z) : x.continues z := by
  intro hx
  obtain ⟨hy, hstart, hstop⟩ := hxy hx
  obtain ⟨hz, hstart', hstop'⟩ := hyz hy
  exact ⟨hz, hstart.trans hstart', hstop.trans hstop'⟩

theorem LoopLevel.init_continues (y : LoopLevel) : LoopLevel.init.continues y := nofun

theorem LoopLevel.continues_of_set {ls : Vector LoopLevel 4} {k : LoopNo} {x : LoopLevel} (h : x.continues ls[k]) (l : LoopNo) :
    ((ls.set k x)[l]).continues ls[l] := by
  by_cases e : k = l
  · subst e
    simpa using h
  · have hne : (ls.set k x)[l] = ls[l] := Vector.getElem_set_ne _ _ (Fin.val_ne_of_ne e)
    rw [hne]
    exact LoopLevel.continues_refl _

theorem loopBack_continues (levels : List LoopNo) (ls : Vector LoopLevel 4) (ord : List LoopNo) (pc next : Word) (l : LoopNo) :
    ((loopBack levels ls ord pc next).1[l]).continues ls[l] := by
  induction levels generalizing ls ord with
  | nil => exact LoopLevel.continues_refl _
  | cons k rest ih =>
    unfold loopBack
    dsimp only
    split
    · split
      · have hcount : ({ ls[k] with count := (ls[k]).count - 1 } : LoopLevel).continues ls[k] := fun h => ⟨h, rfl, rfl⟩
        exact LoopLevel.continues_of_set hcount l
      · exact LoopLevel.continues_trans (ih _ _) (LoopLevel.continues_of_set (LoopLevel.init_continues _) l)
    · exact ih _ _

/-- A level that is active after a transfer out of loop bodies was active before it, with a body that holds the target. -/
theorem leaveBodies_active {ls : Vector LoopLevel 4} {ord : List LoopNo} {t : Word} {l : LoopNo}
    (h : ((leaveBodies ls ord t).1[l]).act = true) : (ls[l]).act = true ∧ (ls[l]).start ≤ t ∧ t ≤ (ls[l]).stop := by
  simp only [leaveBodies, Fin.getElem_fin, Vector.getElem_map] at h
  split at h
  · cases h
  · rename_i hin
    simpa [h, BitVec.le_def] using hin

/-! ### The next bundle (R90, R91) -/

theorem advance_of_no_transfer {a : Arch} (h : a.pend = none) :
    a.advance =
      let r := loopBack a.order a.loops a.order a.pc (a.pc + 32)
      { a with loops := r.1, order := r.2.1, pc := r.2.2 } := by
  simp [Arch.advance, h]

/-- A delay bundle is followed as though no transfer were pending. -/
theorem advance_of_delay {a : Arch} {p : Pend} (h : a.pend = some p) (hleft : 1 < p.left) :
    a.advance = { ({ a with pend := none } : Arch).advance with pend := some { p with left := p.left - 1 } } := by
  simp [Arch.advance, h, Nat.not_le.mpr hleft]

/-- After the last delay bundle the target issues in place of the bundle that would follow; the levels are as that one finds them, but
for those that the transfer deactivates. -/
theorem advance_of_last_delay {a : Arch} {p : Pend} (h : a.pend = some p) (hleft : p.left ≤ 1) :
    a.advance =
      let b := ({ a with pend := none } : Arch).advance
      let kept := if p.leaves then leaveBodies b.loops b.order p.target else (b.loops, b.order)
      { a with pc := p.target, pend := none, loops := kept.1, order := kept.2 } := by
  simp [Arch.advance, h, hleft]

theorem advance_of_no_level {a : Arch} (hpend : a.pend = none) (horder : a.order = []) : a.advance = { a with pc := a.pc + 32 } := by
  rw [advance_of_no_transfer hpend, horder, loopBack, ← horder]

section
variable {a : Arch} {l : LoopNo} {rest : List LoopNo} (hpend : a.pend = none) (horder : a.order = l :: rest)
include hpend horder

theorem advance_of_not_ending (hfresh : l ∉ rest) (hend : (a.loops[l]).act = false ∨ (a.loops[l]).stop ≠ a.pc) :
    a.advance = { ({ a with order := rest } : Arch).advance with order := l :: ({ a with order := rest } : Arch).advance.order } := by
  rw [advance_of_no_transfer hpend, advance_of_no_transfer (a := { a with order := rest }) hpend]
  dsimp only
  rw [horder, loopBack_cons_of_not_ending _ _ hend, loopBack_order_cons _ _ _ _ hfresh]

theorem advance_of_passes_left (hact : (a.loops[l]).act = true) (hstop : (a.loops[l]).stop = a.pc) (hcount : 1 < (a.loops[l]).count) :
    a.advance = { a with pc := (a.loops[l]).start, loops := a.loops.set l { a.loops[l] with count := (a.loops[l]).count - 1 } } := by
  rw [advance_of_no_transfer hpend, horder, loopBack_cons_of_passes_left _ _ hact hstop hcount, ← horder]

theorem advance_of_last_pass (hfresh : l ∉ rest) (hact : (a.loops[l]).act = true) (hstop : (a.loops[l]).stop = a.pc)
    (hcount : (a.loops[l]).count ≤ 1) :
    a.advance = ({ a with loops := a.loops.set l LoopLevel.init, order := rest } : Arch).advance := by
  have hdrop : (l :: rest).filter (fun y => y ≠ l) = rest := by
    rw [List.filter_cons_of_neg (by simp), List.filter_eq_self]
    exact fun y hy => decide_eq_true (ne_of_mem_of_not_mem hy hfresh)
  rw [advance_of_no_transfer hpend, advance_of_no_transfer (a := { a with loops := a.loops.set l LoopLevel.init, order := rest }) hpend]
  dsimp only
  rw [horder, loopBack_cons_of_last_pass _ _ hact hstop hcount, hdrop]

end

/-- The levels that the loop-backs of a bundle leave, before a transfer deactivates any, continue those before the bundle. -/
theorem advance_without_transfer_continues (a : Arch) (l : LoopNo) :
    ((({ a with pend := none } : Arch).advance).loops[l]).continues a.loops[l] := by
  rw [advance_of_no_transfer rfl]
  exact loopBack_continues _ _ _ _ _ l

/-- A level that is active when a transfer has left loop bodies has a body that holds the target. -/
theorem advance_leaves_holding {a : Arch} {p : Pend} (h : a.pend = some p) (hleft : p.left ≤ 1) (hleaves : p.leaves = true) {l : LoopNo}
    (hact : (a.advance.loops[l]).act = true) : (a.loops[l]).start ≤ p.target ∧ p.target ≤ (a.loops[l]).stop := by
  simp only [advance_of_last_delay h hleft, hleaves, if_true] at hact
  obtain ⟨hbefore, hstart, hstop⟩ := leaveBodies_active hact
  obtain ⟨-, estart, estop⟩ := advance_without_transfer_continues a l hbefore
  exact ⟨estart ▸ hstart, estop ▸ hstop⟩

/-- Settles O46: `loopBack` decides level by level (R90), and a transfer whose delay bundles have issued keeps only levels whose bodies hold
its target, which are levels from before the bundle (`leaveBodies_active`, `loopBack_continues`; R91). -/
theorem nextBundleFollows : Obligations.NextBundleFollows := by
  unfold Obligations.NextBundleFollows
  intro a
  refine ⟨advance_of_no_level, fun l rest => advance_of_not_ending, fun l rest => advance_of_passes_left, fun l rest => advance_of_last_pass,
    fun p => advance_of_delay, fun p hpend hleft => ?target⟩
  case target =>
    refine ⟨?_, ?_, fun hstays => ?_, fun hleaves l hact _ => advance_leaves_holding hpend hleft hleaves hact⟩
    · rw [advance_of_last_delay hpend hleft]
    · rw [advance_of_last_delay hpend hleft]
    · simp [advance_of_last_delay hpend hleft, hstays]

end Sys2Proof.Machine
end

section
/-!
LEMMAS. The encoding (spec/02 R32 to R38, spec/09 R190).
The first layer reads fields: what a field of a packed word is, by the kind of operand that stands in it.
-/

namespace Sys2Proof

/-! ### Fields of a packed word -/

/-- A value of a field of `n` bits. -/
def Fits (x n : Nat) : Prop := x < 2 ^ n

/-- A word with an operand added at its place, with the equation that says so. Opaque, so that neither the elaborator nor the kernel
evaluates a word whose operands are variables. -/
opaque putSealed : { f : Nat → Nat → Nat → Nat // ∀ w x k, f w x k = w + x * 2 ^ k } := ⟨fun w x k => w + x * 2 ^ k, fun _ _ _ => rfl⟩

/-- A word with an operand added at its place. -/
def put (w x k : Nat) : Nat := putSealed.val w x k

theorem put_eq (w x k : Nat) : put w x k = w + x * 2 ^ k := putSealed.property w x k

/-- A word without operands. -/
def bare (base : Nat) : Nat := put base 0 0

theorem bare_eq (base : Nat) : bare base = base := by simp [bare, put_eq]

/-- A word with operands added. -/
def puts (w : Nat) : List (Nat × Nat) → Nat
  | [] => w
  | (x, k) :: fs => puts (put w x k) fs

/-! The equations of `puts` as rewriting rules: the kernel would unfold the word to compare both sides. -/

@[simp] theorem puts_nil (w : Nat) : puts w [] = w := by rw [puts]

@[simp] theorem puts_cons (w x k : Nat) (fs : List (Nat × Nat)) : puts w ((x, k) :: fs) = puts (put w x k) fs := by rw [puts]

theorem pack_eq_puts (base : Nat) (fs : List (Nat × Nat)) : pack base fs = puts (bare base) fs := by
  induction fs generalizing base with
  | nil => rw [pack, puts, bare_eq]
  | cons f rest ih => rw [pack, ih, puts, ← put_eq, bare_eq, bare_eq]

/-- An operand above a field does not show in it. -/
@[simp] theorem fld_put_above {w x k hi lo : Nat} (h : hi < k) (hlo : lo ≤ hi) : fld (put w x k) hi lo = fld w hi lo := by
  obtain ⟨d, rfl⟩ := Nat.exists_eq_add_of_le (Nat.succ_le_of_lt h)
  have e : x * 2 ^ (hi + 1 + d) = 2 ^ lo * (2 ^ (hi + 1 - lo) * (x * 2 ^ d)) := by
    calc x * 2 ^ (hi + 1 + d) = 2 ^ (lo + (hi + 1 - lo)) * (x * 2 ^ d) := by
          rw [show lo + (hi + 1 - lo) = hi + 1 by omega, pow_add]
          ring
      _ = _ := by rw [pow_add, Nat.mul_assoc]
  rw [Nat.succ_eq_add_one, put_eq, fld, fld, e, Nat.add_mul_div_left _ _ (by positivity), Nat.add_mul_mod_self_left]

/-- An operand below a field, whose own place the rest of the word leaves clear, does not carry into it. -/
theorem fld_put_below {w x k n hi lo : Nat} (hx : Fits x n) (hpos : 0 < n) (hn : k + n ≤ lo) (clear : fld w (k + n - 1) k = 0) :
    fld (put w x k) hi lo = fld w hi lo := by
  obtain ⟨d, rfl⟩ := Nat.exists_eq_add_of_le hn
  have hc : w / 2 ^ k % 2 ^ n = 0 := by
    simpa only [fld, show k + n - 1 + 1 - k = n by omega] using clear
  have hdiv : (w + x * 2 ^ k) / 2 ^ (k + n) = w / 2 ^ (k + n) := by
    rw [pow_add, ← Nat.div_div_eq_div_mul, ← Nat.div_div_eq_div_mul, Nat.add_mul_div_right _ _ (by positivity)]
    obtain ⟨m, hm⟩ := Nat.dvd_of_mod_eq_zero hc
    rw [hm, Nat.mul_add_div (by positivity), Nat.mul_div_cancel_left _ (by positivity), Nat.div_eq_of_lt hx, Nat.add_zero]
  rw [put_eq, fld, fld, pow_add, ← Nat.div_div_eq_div_mul, ← Nat.div_div_eq_div_mul, hdiv]

/-- An operand in its own field, which the rest of the word leaves clear, is what the field reads. -/
@[simp] theorem fld_put_own {w x hi lo : Nat} (hx : Fits x (hi + 1 - lo)) (clear : fld w hi lo = 0) :
    fld (put w x lo) hi lo = x := by
  simp only [fld] at clear
  rw [put_eq, fld, Nat.add_mul_div_right _ _ (by positivity), Nat.add_mod, clear, Nat.zero_add, Nat.mod_mod, Nat.mod_eq_of_lt hx]

/-- A field of a word without operands. -/
@[simp] theorem fld_bare (base hi lo : Nat) : fld (bare base) hi lo = base / 2 ^ lo % 2 ^ (hi + 1 - lo) := by rw [fld, bare_eq]

/-- The order in which operands are added does not matter. -/
theorem put_comm (w x y k l : Nat) : put (put w x k) y l = put (put w y l) x k := by
  simp only [put_eq]
  omega

/-- ORD and SCP in the order of their places. -/
theorem put_ordCode_scpCode (w : Nat) (r s : Order) : put (put w r.ordCode 2) s.scpCode 4 = put (put w s.scpCode 4) r.ordCode 2 :=
  put_comm ..

/-- The E bit of a first source after what stands above it. -/
theorem put_ebit_below (w x : Nat) (a : VSrc) {k : Nat} (_ : 7 < k) : put (put w a.ebit 7) x k = put (put w x k) a.ebit 7 :=
  put_comm ..

/-- A field within a field. -/
theorem fld_fld (w : Nat) {hi lo hi' lo' : Nat} (hlo : lo ≤ lo') (hhi : hi' ≤ hi) (h : lo' ≤ hi') :
    fld (fld w hi lo) (hi' - lo) (lo' - lo) = fld w hi' lo' := by
  obtain ⟨k, rfl⟩ := Nat.exists_eq_add_of_le hlo
  have e : 2 ^ (hi + 1 - lo) = 2 ^ k * 2 ^ (hi + 1 - lo - k) := by rw [← pow_add]; congr 1; omega
  have d : 2 ^ (hi' + 1 - (lo + k)) ∣ 2 ^ (hi + 1 - lo - k) := pow_dvd_pow 2 (by omega)
  simp only [fld, Nat.add_sub_cancel_left, show hi' - lo + 1 - k = hi' + 1 - (lo + k) by omega]
  rw [e, Nat.mod_mul_right_div_self, Nat.mod_mod_of_dvd _ d, Nat.div_div_eq_div_mul, ← pow_add]

/-- A value that a part of a field rules out. -/
theorem fld_ne_of_part {w hi lo v : Nat} (hi' lo' : Nat) (hlo : lo ≤ lo') (hhi : hi' ≤ hi) (h : lo' ≤ hi')
    (part : fld w hi' lo' ≠ fld v (hi' - lo) (lo' - lo)) : fld w hi lo ≠ v := by
  rintro rfl
  exact part (fld_fld w hlo hhi h).symm

theorem bit_eq_fld (w n : Nat) : bit w n = (fld w n n == 1) := by
  simp [bit, fld]

/-! ### The widths of the operands -/

@[simp] theorem fin4_fits (x : Fin 4) : Fits x.val 2 := x.isLt
@[simp] theorem fin8_fits (x : Fin 8) : Fits x.val 3 := x.isLt
@[simp] theorem fin16_fits (x : Fin 16) : Fits x.val 4 := x.isLt
@[simp] theorem fin32_fits (x : Fin 32) : Fits x.val 5 := x.isLt
@[simp] theorem fin64_fits (x : Fin 64) : Fits x.val 6 := x.isLt
@[simp] theorem bitVec_fits {n : Nat} (x : BitVec n) : Fits x.toNat n := x.isLt
@[simp] theorem bool_fits (x : Bool) : Fits x.toNat 1 := by cases x <;> simp [Fits]
@[simp] theorem round_fits (x : Round) : Fits x.code 3 := by cases x <;> simp [Fits, Round.code]
@[simp] theorem cond_fits (x : Cond) : Fits x.code 3 := by cases x <;> simp [Fits, Cond.code]
@[simp] theorem scope_fits (x : Scope) : Fits x.code 2 := by cases x <;> simp [Fits, Scope.code]
@[simp] theorem size_fits (x : Size) : Fits x.code 2 := by cases x <;> simp [Fits, Size.code]
@[simp] theorem scaleMode_fits (x : ScaleMode) : Fits x.code 2 := by cases x <;> simp [Fits, ScaleMode.code]
@[simp] theorem vType_fits (x : VType) : Fits x.code 3 := by cases x <;> simp [Fits, VType.code]
@[simp] theorem vCond_fits (x : VCond) : Fits x.code 3 := by cases x <;> simp [Fits, VCond.code]
@[simp] theorem drainMode_fits (x : DrainMode) : Fits x.code 2 := by cases x <;> simp [Fits, DrainMode.code]
@[simp] theorem mWaitCond_fits (x : MWaitCond) : Fits x.code 2 := by cases x <;> simp [Fits, MWaitCond.code]
@[simp] theorem accOp_fits (x : AccOp) : Fits x.code 4 := by cases x <;> simp [Fits, AccOp.code]
@[simp] theorem ringDir_fits (x : RingDir) : Fits x.code 1 := by cases x <;> simp [Fits, RingDir.code]
@[simp] theorem collKind_fits (x : CollKind) : Fits x.code 2 := by cases x <;> simp [Fits, CollKind.code]
@[simp] theorem collOp_fits (x : CollOp) : Fits x.code 3 := by cases x <;> simp [Fits, CollOp.code]
@[simp] theorem tItem_fits (x : TItem) : Fits x.code 3 := by cases x <;> simp [Fits, TItem.code]
@[simp] theorem segRest_fits (x : SegRest) : Fits x.code 1 := by cases x <;> simp [Fits, SegRest.code]
@[simp] theorem addSrc_fits (x : AddSrc) : Fits x.code 4 := by cases x <;> simp [Fits, AddSrc.code]
@[simp] theorem setSrc_fits (x : SetSrc) : Fits x.code 4 := by cases x <;> simp [Fits, SetSrc.code]
@[simp] theorem microCond_fits (x : MicroCond) : Fits x.code 3 := by cases x <;> simp [Fits, MicroCond.code]
@[simp] theorem sysReg_fits (x : SysReg) : Fits x.code 16 := by cases x <;> simp [Fits, SysReg.code]
@[simp] theorem atomSize_fits (x : AtomSize) : Fits x.code 2 := by cases x <;> simp [Fits, AtomSize.code]
@[simp] theorem port_fits (x : Port) : Fits x.code 4 := by have := x.isLt; simp only [Fits, Port.code]; omega
@[simp] theorem portWord_fits (x : PortWord) : Fits x.code 3 := by
  cases x with
  | base => simp [Fits, PortWord.code]
  | lvl l => have := l.isLt; simp only [Fits, PortWord.code]; omega
@[simp] theorem microField_fits (x : MicroField) : Fits x.code 3 := by
  cases x with
  | whole => simp [Fits, MicroField.code]
  | part h => have := h.isLt; simp only [Fits, MicroField.code]; omega
@[simp] theorem vsrc_fits (x : VSrc) : Fits x.code 6 := by
  cases x <;> simp only [Fits, VSrc.code] <;> omega
@[simp] theorem vsrcE_fits (x : VSrc) : Fits x.ebit 1 := by
  unfold VSrc.ebit; split <;> simp [Fits]
@[simp] theorem vdst_fits (x : VDst) : Fits x.code 6 := by
  cases x <;> simp only [Fits, VDst.code] <;> omega
@[simp] theorem ord_fits (x : Order) : Fits x.ordCode 2 := by cases x <;> simp [Fits, Order.ordCode]
@[simp] theorem scp_fits (x : Order) : Fits x.scpCode 2 := by
  cases x with
  | plain => simp [Fits, Order.scpCode]
  | sync s => exact scope_fits s

/-! ### An operand of each kind below a field -/

section
variable {w k hi lo : Nat}

@[simp] theorem fld_put_below_fin4 (x : Fin 4) (hn : k + 2 ≤ lo) (clear : fld w (k + 2 - 1) k = 0) :
    fld (put w x.val k) hi lo = fld w hi lo := fld_put_below (fin4_fits x) (by decide) hn clear
@[simp] theorem fld_put_below_fin8 (x : Fin 8) (hn : k + 3 ≤ lo) (clear : fld w (k + 3 - 1) k = 0) :
    fld (put w x.val k) hi lo = fld w hi lo := fld_put_below (fin8_fits x) (by decide) hn clear
@[simp] theorem fld_put_below_fin16 (x : Fin 16) (hn : k + 4 ≤ lo) (clear : fld w (k + 4 - 1) k = 0) :
    fld (put w x.val k) hi lo = fld w hi lo := fld_put_below (fin16_fits x) (by decide) hn clear
@[simp] theorem fld_put_below_fin32 (x : Fin 32) (hn : k + 5 ≤ lo) (clear : fld w (k + 5 - 1) k = 0) :
    fld (put w x.val k) hi lo = fld w hi lo := fld_put_below (fin32_fits x) (by decide) hn clear
@[simp] theorem fld_put_below_fin64 (x : Fin 64) (hn : k + 6 ≤ lo) (clear : fld w (k + 6 - 1) k = 0) :
    fld (put w x.val k) hi lo = fld w hi lo := fld_put_below (fin64_fits x) (by decide) hn clear
@[simp] theorem fld_put_below_bitVec {n : Nat} (x : BitVec n) (hpos : 0 < n) (hn : k + n ≤ lo) (clear : fld w (k + n - 1) k = 0) :
    fld (put w x.toNat k) hi lo = fld w hi lo := fld_put_below (bitVec_fits x) hpos hn clear
@[simp] theorem fld_put_below_bool (x : Bool) (hn : k + 1 ≤ lo) (clear : fld w (k + 1 - 1) k = 0) :
    fld (put w x.toNat k) hi lo = fld w hi lo := fld_put_below (bool_fits x) (by decide) hn clear
@[simp] theorem fld_put_below_round (x : Round) (hn : k + 3 ≤ lo) (clear : fld w (k + 3 - 1) k = 0) :
    fld (put w x.code k) hi lo = fld w hi lo := fld_put_below (round_fits x) (by decide) hn clear
@[simp] theorem fld_put_below_cond (x : Cond) (hn : k + 3 ≤ lo) (clear : fld w (k + 3 - 1) k = 0) :
    fld (put w x.code k) hi lo = fld w hi lo := fld_put_below (cond_fits x) (by decide) hn clear
@[simp] theorem fld_put_below_scope (x : Scope) (hn : k + 2 ≤ lo) (clear : fld w (k + 2 - 1) k = 0) :
    fld (put w x.code k) hi lo = fld w hi lo := fld_put_below (scope_fits x) (by decide) hn clear
@[simp] theorem fld_put_below_size (x : Size) (hn : k + 2 ≤ lo) (clear : fld w (k + 2 - 1) k = 0) :
    fld (put w x.code k) hi lo = fld w hi lo := fld_put_below (size_fits x) (by decide) hn clear
@[simp] theorem fld_put_below_scaleMode (x : ScaleMode) (hn : k + 2 ≤ lo) (clear : fld w (k + 2 - 1) k = 0) :
    fld (put w x.code k) hi lo = fld w hi lo := fld_put_below (scaleMode_fits x) (by decide) hn clear
@[simp] theorem fld_put_below_vType (x : VType) (hn : k + 3 ≤ lo) (clear : fld w (k + 3 - 1) k = 0) :
    fld (put w x.code k) hi lo = fld w hi lo := fld_put_below (vType_fits x) (by decide) hn clear
@[simp] theorem fld_put_below_vCond (x : VCond) (hn : k + 3 ≤ lo) (clear : fld w (k + 3 - 1) k = 0) :
    fld (put w x.code k) hi lo = fld w hi lo := fld_put_below (vCond_fits x) (by decide) hn clear
@[simp] theorem fld_put_below_drainMode (x : DrainMode) (hn : k + 2 ≤ lo) (clear : fld w (k + 2 - 1) k = 0) :
    fld (put w x.code k) hi lo = fld w hi lo := fld_put_below (drainMode_fits x) (by decide) hn clear
@[simp] theorem fld_put_below_mWaitCond (x : MWaitCond) (hn : k + 2 ≤ lo) (clear : fld w (k + 2 - 1) k = 0) :
    fld (put w x.code k) hi lo = fld w hi lo := fld_put_below (mWaitCond_fits x) (by decide) hn clear
@[simp] theorem fld_put_below_accOp (x : AccOp) (hn : k + 4 ≤ lo) (clear : fld w (k + 4 - 1) k = 0) :
    fld (put w x.code k) hi lo = fld w hi lo := fld_put_below (accOp_fits x) (by decide) hn clear
@[simp] theorem fld_put_below_ringDir (x : RingDir) (hn : k + 1 ≤ lo) (clear : fld w (k + 1 - 1) k = 0) :
    fld (put w x.code k) hi lo = fld w hi lo := fld_put_below (ringDir_fits x) (by decide) hn clear
@[simp] theorem fld_put_below_collKind (x : CollKind) (hn : k + 2 ≤ lo) (clear : fld w (k + 2 - 1) k = 0) :
    fld (put w x.code k) hi lo = fld w hi lo := fld_put_below (collKind_fits x) (by decide) hn clear
@[simp] theorem fld_put_below_collOp (x : CollOp) (hn : k + 3 ≤ lo) (clear : fld w (k + 3 - 1) k = 0) :
    fld (put w x.code k) hi lo = fld w hi lo := fld_put_below (collOp_fits x) (by decide) hn clear
@[simp] theorem fld_put_below_tItem (x : TItem) (hn : k + 3 ≤ lo) (clear : fld w (k + 3 - 1) k = 0) :
    fld (put w x.code k) hi lo = fld w hi lo := fld_put_below (tItem_fits x) (by decide) hn clear
@[simp] theorem fld_put_below_segRest (x : SegRest) (hn : k + 1 ≤ lo) (clear : fld w (k + 1 - 1) k = 0) :
    fld (put w x.code k) hi lo = fld w hi lo := fld_put_below (segRest_fits x) (by decide) hn clear
@[simp] theorem fld_put_below_addSrc (x : AddSrc) (hn : k + 4 ≤ lo) (clear : fld w (k + 4 - 1) k = 0) :
    fld (put w x.code k) hi lo = fld w hi lo := fld_put_below (addSrc_fits x) (by decide) hn clear
@[simp] theorem fld_put_below_setSrc (x : SetSrc) (hn : k + 4 ≤ lo) (clear : fld w (k + 4 - 1) k = 0) :
    fld (put w x.code k) hi lo = fld w hi lo := fld_put_below (setSrc_fits x) (by decide) hn clear
@[simp] theorem fld_put_below_microCond (x : MicroCond) (hn : k + 3 ≤ lo) (clear : fld w (k + 3 - 1) k = 0) :
    fld (put w x.code k) hi lo = fld w hi lo := fld_put_below (microCond_fits x) (by decide) hn clear
@[simp] theorem fld_put_below_sysReg (x : SysReg) (hn : k + 16 ≤ lo) (clear : fld w (k + 16 - 1) k = 0) :
    fld (put w x.code k) hi lo = fld w hi lo := fld_put_below (sysReg_fits x) (by decide) hn clear
@[simp] theorem fld_put_below_atomSize (x : AtomSize) (hn : k + 2 ≤ lo) (clear : fld w (k + 2 - 1) k = 0) :
    fld (put w x.code k) hi lo = fld w hi lo := fld_put_below (atomSize_fits x) (by decide) hn clear
@[simp] theorem fld_put_below_port (x : Port) (hn : k + 4 ≤ lo) (clear : fld w (k + 4 - 1) k = 0) :
    fld (put w x.code k) hi lo = fld w hi lo := fld_put_below (port_fits x) (by decide) hn clear
@[simp] theorem fld_put_below_portWord (x : PortWord) (hn : k + 3 ≤ lo) (clear : fld w (k + 3 - 1) k = 0) :
    fld (put w x.code k) hi lo = fld w hi lo := fld_put_below (portWord_fits x) (by decide) hn clear
@[simp] theorem fld_put_below_microField (x : MicroField) (hn : k + 3 ≤ lo) (clear : fld w (k + 3 - 1) k = 0) :
    fld (put w x.code k) hi lo = fld w hi lo := fld_put_below (microField_fits x) (by decide) hn clear
@[simp] theorem fld_put_below_vsrc (x : VSrc) (hn : k + 6 ≤ lo) (clear : fld w (k + 6 - 1) k = 0) :
    fld (put w x.code k) hi lo = fld w hi lo := fld_put_below (vsrc_fits x) (by decide) hn clear
@[simp] theorem fld_put_below_vsrcE (x : VSrc) (hn : k + 1 ≤ lo) (clear : fld w (k + 1 - 1) k = 0) :
    fld (put w x.ebit k) hi lo = fld w hi lo := fld_put_below (vsrcE_fits x) (by decide) hn clear
@[simp] theorem fld_put_below_vdst (x : VDst) (hn : k + 6 ≤ lo) (clear : fld w (k + 6 - 1) k = 0) :
    fld (put w x.code k) hi lo = fld w hi lo := fld_put_below (vdst_fits x) (by decide) hn clear
@[simp] theorem fld_put_below_ord (x : Order) (hn : k + 2 ≤ lo) (clear : fld w (k + 2 - 1) k = 0) :
    fld (put w x.ordCode k) hi lo = fld w hi lo := fld_put_below (ord_fits x) (by decide) hn clear
@[simp] theorem fld_put_below_scp (x : Order) (hn : k + 2 ≤ lo) (clear : fld w (k + 2 - 1) k = 0) :
    fld (put w x.scpCode k) hi lo = fld w hi lo := fld_put_below (scp_fits x) (by decide) hn clear

end

/-! ### Codes and their readings -/

@[simp] theorem Round.ofCode_code (x : Round) : Round.ofCode x.code = some x := by cases x <;> rfl
@[simp] theorem Cond.ofCode_code (x : Cond) : Cond.ofCode x.code = some x := by cases x <;> rfl
@[simp] theorem Scope.ofCode_code (x : Scope) : Scope.ofCode x.code = some x := by cases x <;> rfl
@[simp] theorem Size.ofCode_code (x : Size) : Size.ofCode x.code = some x := by cases x <;> rfl
@[simp] theorem ScaleMode.ofCode_code (x : ScaleMode) : ScaleMode.ofCode x.code = some x := by cases x <;> rfl
@[simp] theorem VType.ofCode_code (x : VType) : VType.ofCode x.code = some x := by cases x <;> rfl
@[simp] theorem VCond.ofCode_code (x : VCond) : VCond.ofCode x.code = some x := by cases x <;> rfl
@[simp] theorem DrainMode.ofCode_code (x : DrainMode) : DrainMode.ofCode x.code = some x := by cases x <;> rfl
@[simp] theorem MWaitCond.ofCode_code (x : MWaitCond) : MWaitCond.ofCode x.code = some x := by cases x <;> rfl
@[simp] theorem AccOp.ofCode_code (x : AccOp) : AccOp.ofCode x.code = some x := by cases x <;> rfl
@[simp] theorem RingDir.ofCode_code (x : RingDir) : RingDir.ofCode x.code = some x := by cases x <;> rfl
@[simp] theorem CollKind.ofCode_code (x : CollKind) : CollKind.ofCode x.code = some x := by cases x <;> rfl
@[simp] theorem CollOp.ofCode_code (x : CollOp) : CollOp.ofCode x.code = some x := by cases x <;> rfl
@[simp] theorem TItem.ofCode_code (x : TItem) : TItem.ofCode x.code = some x := by cases x <;> rfl
@[simp] theorem SegRest.ofCode_code (x : SegRest) : SegRest.ofCode x.code = some x := by cases x <;> rfl
@[simp] theorem AddSrc.ofCode_code (x : AddSrc) : AddSrc.ofCode x.code = some x := by cases x <;> rfl
@[simp] theorem SetSrc.ofCode_code (x : SetSrc) : SetSrc.ofCode x.code = some x := by cases x <;> rfl
@[simp] theorem MicroCond.ofCode_code (x : MicroCond) : MicroCond.ofCode x.code = some x := by cases x <;> rfl
@[simp] theorem SysReg.ofCode_code (x : SysReg) : SysReg.ofCode x.code = some x := by cases x <;> rfl
@[simp] theorem AtomSize.ofCode_code (x : AtomSize) : AtomSize.ofCode x.code = some x := by cases x <;> rfl
@[simp] theorem Port.ofCode_code (x : Port) : Port.ofCode (Port.code x) = some x := by simp [Port.ofCode, Port.code]
@[simp] theorem PortWord.ofCode_code (x : PortWord) : PortWord.ofCode x.code = some x := by
  cases x <;> simp [PortWord.ofCode, PortWord.code]
@[simp] theorem MicroField.ofCode_code (x : MicroField) : MicroField.ofCode x.code = some x := by
  cases x <;> simp [MicroField.ofCode, MicroField.code]
@[simp] theorem VSrc.ofCode_code (x : VSrc) : VSrc.ofCode x.code (x.ebit == 1) = some x := by
  cases x with
  | q i => simp [VSrc.ofCode, VSrc.code, VSrc.ebit]
  | v r e =>
    have hr : 16 + r.val < 48 := by have := r.isLt; omega
    cases e <;> simp [VSrc.ofCode, VSrc.code, VSrc.ebit, hr]
  | g p =>
    have hp : 48 + p.val < 60 := by have := p.isLt; omega
    simp [VSrc.ofCode, VSrc.code, VSrc.ebit, hp, show ¬ 48 + p.val < 16 by omega]
  | fl => rfl
  | z => rfl
  | li => rfl
  | k => rfl
@[simp] theorem VDst.ofCode_code (x : VDst) : VDst.ofCode x.code = some x := by
  cases x with
  | queue => rfl
  | v r =>
    have hr : 16 + r.val < 48 := by have := r.isLt; omega
    simp [VDst.ofCode, VDst.code, hr]
  | g p =>
    have hp : 48 + p.val < 60 := by have := p.isLt; omega
    simp [VDst.ofCode, VDst.code, hp, show ¬ 48 + p.val < 16 by omega]
@[simp] theorem Order.ofCode_codes (x : Order) : Order.ofCode x.ordCode x.scpCode = some x := by
  cases x <;> simp [Order.ofCode, Order.ordCode, Order.scpCode]


end Sys2Proof
end

section
/-!
LEMMAS. The round trips: group by group of instructions that one decoder reads, the word of an instruction decodes to that instruction.
-/

namespace Sys2Proof

/-- Opcode 1 of the ctl slot (spec/04 R80). -/
theorem decodeCtl_encode_integer (d a b : Reg) (w : Bool) :
    ∀ instr ∈ ([.add d a b w, .sub d a b w, .and d a b w, .or d a b w, .xor d a b w, .andn d a b w, .sll d a b w, .srl d a b w,
      .sra d a b w, .rol d a b w, .min d a b w, .max d a b w, .minu d a b w, .maxu d a b w, .mul d a b w, .mulh d a b w,
      .mulhu d a b w, .div d a b w, .divu d a b w, .rem d a b w, .remu d a b w, .clz d a w, .ctz d a w,
      .popc d a w] : List Instr),
      decodeCtl (encode instr) = .ok instr := by
  simp only [List.mem_cons, List.not_mem_nil, or_false, forall_eq_or_imp, forall_eq]
  and_intros <;>
    (generalize hw : encode _ = w
     unfold encode at hw
     dsimp only at hw
     rw [pack_eq_puts] at hw
     subst hw
     simp [bit_eq_fld, decodeCtl, decodeCtl1])

/-- The immediate forms of the ctl slot (spec/04 R82, R83). -/
theorem decodeCtl_encode_immediate (d a : Reg) (i : BitVec 16) (w : Bool) (n : BitVec 6) :
    ∀ instr ∈ ([.addi d a i, .andi d a i, .ori d a i, .xori d a i, .movhi d a i, .addpc d i, .slli d a w n, .srli d a w n,
      .srai d a w n, .roli d a w n] : List Instr),
      decodeCtl (encode instr) = .ok instr := by
  simp only [List.mem_cons, List.not_mem_nil, or_false, forall_eq_or_imp, forall_eq]
  and_intros <;>
    (generalize hw : encode _ = w
     unfold encode at hw
     dsimp only at hw
     rw [pack_eq_puts] at hw
     subst hw
     simp [bit_eq_fld, decodeCtl, decodeCtl2, decodeCtl3, decodeCtl4, decodeCtl5, decodeCtl6, decodeCtl7, decodeCtl8])

/-- Compares, predicate logic and the select (spec/04 R84 to R86, R95). -/
theorem decodeCtl_encode_predicate (d a b : Reg) (p q r : PredReg) (x y : Bool) (c : Cond) (i : BitVec 15) :
    ∀ instr ∈ ([.cmp p a b x c, .cmpi p c a i, .pand p q x r y, .por p q x r y, .pxor p q x r y, .sel d a b x p, .feq p a b,
      .flt p a b, .fle p a b, .fUn p a b] : List Instr),
      decodeCtl (encode instr) = .ok instr := by
  simp only [List.mem_cons, List.not_mem_nil, or_false, forall_eq_or_imp, forall_eq]
  and_intros <;>
    (generalize hw : encode _ = w
     unfold encode at hw
     dsimp only at hw
     rw [pack_eq_puts] at hw
     subst hw
     simp [bit_eq_fld, decodeCtl, decodeCtl9, decodeCtl10, decodeCtl11, decodeCtl12, decodeCtl22])

/-- Branches, jumps and loops (spec/04 R87, R89). -/
theorem decodeCtl_encode_transfer (d a : Reg) (p : PredReg) (x : Bool) (o : BitVec 16) (j : BitVec 26) (l : LoopNo) :
    ∀ instr ∈ ([.br p x o, .bz a o, .bnz a o, .jmp j, .call j, .jr d a, .loop l a o] : List Instr),
      decodeCtl (encode instr) = .ok instr := by
  simp only [List.mem_cons, List.not_mem_nil, or_false, forall_eq_or_imp, forall_eq]
  and_intros <;>
    (generalize hw : encode _ = w
     unfold encode at hw
     dsimp only at hw
     rw [pack_eq_puts] at hw
     subst hw
     simp [bit_eq_fld, decodeCtl, decodeCtl13, decodeCtl14, decodeCtl15, decodeCtl16, decodeCtl17, decodeCtl18])

/-- Floating-point arithmetic and conversions (spec/04 R92 to R94). -/
theorem decodeCtl_encode_float (d a b : Reg) (r : Round) :
    ∀ instr ∈ ([.fadd d a b r, .fsub d a b r, .fmul d a b r, .fdiv d a b r, .ffma d a b r, .ffms d a b r, .ffnma d a b r,
      .ffnms d a b r, .fsqrt d a r, .fmin d a b, .fmax d a b, .fcvtI64F32 d a r, .fcvtUi64F32 d a r, .fcvtI32F32 d a r,
      .fcvtUi32F32 d a r, .fcvtF32I64 d a r, .fcvtF32Ui64 d a r, .fcvtF32I32 d a r, .fcvtF32Ui32 d a r, .fcvtB16F32 d a r,
      .fcvtF32B16 d a r, .fcvtF16F32 d a r, .fcvtF32F16 d a r, .fcvtF8aF32 d a r, .fcvtF8bF32 d a r, .fcvtF32F8a d a r,
      .fcvtF32F8b d a r, .frint d a r] : List Instr),
      decodeCtl (encode instr) = .ok instr := by
  simp only [List.mem_cons, List.not_mem_nil, or_false, forall_eq_or_imp, forall_eq]
  and_intros <;>
    (generalize hw : encode _ = w
     unfold encode at hw
     dsimp only at hw
     rw [pack_eq_puts] at hw
     subst hw
     simp [decodeCtl, decodeCtl19, decodeCtl20, decodeCtl21])

/-- System registers, port commands and the vector constant (spec/04 R97, spec/07 R148, R149, R151). -/
theorem decodeCtl_encode_register (d a : Reg) (x : SysReg) (t : PortWord) (g : Port) :
    ∀ instr ∈ ([.rdsr d x, .wrsr a x, .gcfg a t g, .gstart g, .gstop g, .vsetk a, .vsetkH a] : List Instr),
      decodeCtl (encode instr) = .ok instr := by
  simp only [List.mem_cons, List.not_mem_nil, or_false, forall_eq_or_imp, forall_eq]
  and_intros <;>
    (generalize hw : encode _ = w
     unfold encode at hw
     dsimp only at hw
     rw [pack_eq_puts] at hw
     subst hw
     simp [decodeCtl, decodeCtl23, decodeCtl24, decodeCtl25, decodeCtl26, decodeCtl27])

/-- Loads, stores, tags and gathers (spec/05 R111 to R116). -/
theorem decodeMem_encode_access (d a b : Reg) (o : BitVec 10) (r : Order) (z : Size) (m : ScaleMode) (x : Bool) :
    ∀ instr ∈ ([.ld d a o r z, .lds d a o r z, .st d a o r z, .ldv d a o r, .stv d a o r, .ldx d a o r, .ldt d a o r,
      .stt d a o r, .stpk d a o r m, .ldg d a b x] : List Instr),
      decodeMem (encode instr) = .ok instr := by
  simp only [List.mem_cons, List.not_mem_nil, or_false, forall_eq_or_imp, forall_eq]
  and_intros <;>
    (generalize hw : encode _ = w
     unfold encode at hw
     dsimp only at hw
     rw [pack_eq_puts] at hw
     subst hw
     simp [put_ordCode_scpCode, bit_eq_fld, decodeMem, decodeMem1, decodeMem2, decodeMem3, decodeMem4, decodeMem5, decodeMem6, decodeMem7, decodeMem8, decodeMem9, decodeMem10])

/-- Fences with a scope, and prefetches (spec/05 R117, R118). -/
theorem decodeMem_encode_fence (a : Reg) (o : BitVec 10) (s : Scope) :
    ∀ instr ∈ ([.fence s, .fenceRel s, .fenceAcq s, .prefRc a o, .prefMd a o] : List Instr),
      decodeMem (encode instr) = .ok instr := by
  simp only [List.mem_cons, List.not_mem_nil, or_false, forall_eq_or_imp, forall_eq]
  and_intros <;>
    (generalize hw : encode _ = w
     unfold encode at hw
     dsimp only at hw
     rw [pack_eq_puts] at hw
     subst hw
     simp [decodeMem, decodeMem11, decodeMem12])

/-- Elementwise arithmetic and shifts (spec/08 R162, R163). -/
theorem decodeVec_encode_arithmetic (un : VUnit) (d : VDst) (a b : VSrc) (t : VType) (m : MaskReg) :
    ∀ instr ∈ ([.vadd un d a b t m, .vsub un d a b t m, .vmul un d a b t m, .vmulh un d a b t m, .vmin un d a b t m,
      .vmax un d a b t m, .vshl un d a b t m, .vshr un d a b t m, .vabs un d a t m, .vneg un d a t m] : List Instr),
      decodeVec un (encode instr) = .ok instr := by
  simp only [List.mem_cons, List.not_mem_nil, or_false, forall_eq_or_imp, forall_eq]
  and_intros <;>
    (generalize hw : encode _ = w
     unfold encode at hw
     dsimp only at hw
     rw [pack_eq_puts] at hw
     subst hw
     simp [put_ebit_below, bit_eq_fld, decodeVec, decodeVec1, decodeVec2, decodeVec3, decodeVec4, decodeVec6, decodeVec7, decodeVec8, decodeVec9, decodeVec14, decodeVec15])

/-- Lane logic, selects, moves and block formats (spec/08 R162, R167, R170 to R172, R177). -/
theorem decodeVec_encode_logic (un : VUnit) (d : VDst) (a b : VSrc) (m : MaskReg) :
    ∀ instr ∈ ([.vand un d a b m, .vor un d a b m, .vxor un d a b m, .vandn un d a b m, .vsel un d a b m, .vscale un d a b m,
      .vqnt un d a b m, .vunpk un d a b, .vmov un d a, .vchk un a b m] : List Instr),
      decodeVec un (encode instr) = .ok instr := by
  simp only [List.mem_cons, List.not_mem_nil, or_false, forall_eq_or_imp, forall_eq]
  and_intros <;>
    (generalize hw : encode _ = w
     unfold encode at hw
     dsimp only at hw
     rw [pack_eq_puts] at hw
     subst hw
     simp [put_ebit_below, bit_eq_fld, decodeVec, decodeVec10, decodeVec11, decodeVec12, decodeVec13, decodeVec17, decodeVec18, decodeVec20, decodeVec21, decodeVec22, decodeVec24])

/-- Compares, conversions and masks (spec/08 R165, R166, R168). -/
theorem decodeVec_encode_mask (un : VUnit) (d : VDst) (a b : VSrc) (c : VCond) (k x y m : MaskReg) (p : BitVec 2) (u t : VType) :
    ∀ instr ∈ ([.vcmp un c k a b t m, .vcvt un d a p u t m, .vmaskAnd un k x y, .vmaskOr un k x y, .vmaskXor un k x y,
      .vmaskAndn un k x y, .vmaskNot un k x] : List Instr),
      decodeVec un (encode instr) = .ok instr := by
  simp only [List.mem_cons, List.not_mem_nil, or_false, forall_eq_or_imp, forall_eq]
  and_intros <;>
    (generalize hw : encode _ = w
     unfold encode at hw
     dsimp only at hw
     rw [pack_eq_puts] at hw
     subst hw
     simp [put_ebit_below, bit_eq_fld, decodeVec, decodeVec16, decodeVec19, decodeVec23])

/-- The operations of va alone (spec/08 R173, R174). -/
theorem decodeVec_encode_va (d : VDst) (a b : VSrc) (t : VType) (m : MaskReg) :
    ∀ instr ∈ ([.vperm d a b m, .vrot d a b m, .vrsum d a t m, .vrmax d a t m, .vscan d a t m] : List Instr),
      decodeVec .va (encode instr) = .ok instr := by
  simp only [List.mem_cons, List.not_mem_nil, or_false, forall_eq_or_imp, forall_eq]
  and_intros <;>
    (generalize hw : encode _ = w
     unfold encode at hw
     dsimp only at hw
     rw [pack_eq_puts] at hw
     subst hw
     simp [put_ebit_below, bit_eq_fld, decodeVec, decodeVec32, decodeVec33, decodeVec34, decodeVec35, decodeVec36])

/-- The operations of vb alone (spec/08 R175). -/
theorem decodeVec_encode_vb (d : VDst) (a : VSrc) (m : MaskReg) :
    ∀ instr ∈ ([.vexp2 d a m, .vlog2 d a m, .vrcp d a m, .vrsq d a m] : List Instr),
      decodeVec .vb (encode instr) = .ok instr := by
  simp only [List.mem_cons, List.not_mem_nil, or_false, forall_eq_or_imp, forall_eq]
  and_intros <;>
    (generalize hw : encode _ = w
     unfold encode at hw
     dsimp only at hw
     rw [pack_eq_puts] at hw
     subst hw
     simp [bit_eq_fld, decodeVec, decodeVec40, decodeVec41, decodeVec42, decodeVec43])

/-- The mx slot (spec/09 R182 to R199). -/
theorem decodeMx_encode_words (p : ParamReg) (d a b : Reg) (i : BitVec 23) (h s z n : Bool) (t : TileNo) (r : BitVec 8) (m : DrainMode) (c : MWaitCond) :
    ∀ instr ∈ ([.msetp p a, .msetpi p i, .mcall h s t r, .mzero t, .mdrain t d a b z n m s, .mseal t, .mstat d, .mlduc a b,
      .mlducEnt a b, .maccrd t d a, .maccwr t a b, .maccwrRow t a b, .mwait d c] : List Instr),
      decodeMx (encode instr) = .ok instr := by
  simp only [List.mem_cons, List.not_mem_nil, or_false, forall_eq_or_imp, forall_eq]
  and_intros <;>
    (generalize hw : encode _ = w
     unfold encode at hw
     dsimp only at hw
     rw [pack_eq_puts] at hw
     subst hw
     simp [bit_eq_fld, decodeMx, decodeMx1, decodeMx2, decodeMx3, decodeMx4, decodeMx5, decodeMx6, decodeMx7, decodeMx8, decodeMx9, decodeMx10, decodeMx11])

/-- The micro-words with operands (spec/09 R190). -/
theorem decodeMicro_encode_words (p q g : ParamReg) (x y z : Bool) (l : LoopNo) (n : BitVec 16) (u : SetSrc) (i : BitVec 48) (c : MicroCond) (f : MicroField) (j : BitVec 12) (m : DrainMode) (fa fb : BitVec 8) :
    ∀ instr ∈ ([.mAload p q, .mBload p q, .mStep x y, .mLoop l n, .mEndloop l, .mSetp p q u i, .mJcmp p q c f j, .mZero x,
      .mDrain p q g x y m z, .mShape p q g, .mFmt fa fb, .mPermit n] : List Instr),
      decodeMicro (encode instr) = .ok instr := by
  simp only [List.mem_cons, List.not_mem_nil, or_false, forall_eq_or_imp, forall_eq]
  and_intros <;>
    (generalize hw : encode _ = w
     unfold encode at hw
     dsimp only at hw
     rw [pack_eq_puts] at hw
     subst hw
     simp [bit_eq_fld, decodeMicro, decodeMAload, decodeMBload, decodeMStep, decodeMLoop, decodeMEndloop, decodeMSetp, decodeMJcmp, decodeMZero, decodeMDrain, decodeMShape, decodeMFmt, decodeMPermit])

/-- The copy slots (spec/11 R224 to R240). -/
theorem decodeCopy_encode_words (e : CopyQ) (t a b c : Reg) (i : BitVec 11) (u : Bool) (o : AccOp) (z : AtomSize) (d : RingDir) (s : Fin 64) (sc : Scope) (l : BitVec 3) (n : TileNo) (p : CollOp) (k : CollKind) :
    ∀ instr ∈ ([.cpy e t a b c, .cpy2 e t a b c, .cpyb e t a b i, .acc e t a b c u o, .cas e t a b c u z, .faa e t a b u z,
      .xchg e t a b u z, .fput e t a b u, .subs e t a d s, .unsub e t s, .slotrel e t s, .publ e t a b sc, .cfence e t l,
      .cpys e t a c n, .coll e t a b c p k] : List Instr),
      decodeCopy e (encode instr) = .ok instr := by
  simp only [List.mem_cons, List.not_mem_nil, or_false, forall_eq_or_imp, forall_eq]
  and_intros <;>
    (generalize hw : encode _ = w
     unfold encode at hw
     dsimp only at hw
     rw [pack_eq_puts] at hw
     subst hw
     simp [bit_eq_fld, decodeCopy, decodeCopy1, decodeCopy2, decodeCopy3, decodeCopy4, decodeCopy5, decodeCopy6, decodeCopy7, decodeCopy8, decodeCopy9, decodeCopy10, decodeCopy11, decodeCopy12, decodeCopy13, decodeCopy14, decodeCopy15])

/-- The sys slot (spec/12 to spec/15). -/
theorem decodeSys_encode_words (d a b : Reg) (t : TItem) (s : Fin 64) (m : SegRest) (n : BitVec 5) (k : BitVec 15) :
    ∀ instr ∈ ([.spawn d a, .viewa d a, .fget d a, .runinl d a, .gjoin d a, .arrive d a, .arriveDrop d a, .sstep d a,
      .permit d a, .vdmap d a, .spawnl d a b, .fwaitSpin d a b, .fwaitYield d a b, .bwait d a b, .lease d a b, .vdist d a b,
      .join d, .tinfo d t, .gleave a, .tcexp a s, .tcwait d s, .leaserel d, .segs m n, .trap k, .trapDup k] : List Instr),
      decodeSys (encode instr) = .ok instr := by
  simp only [List.mem_cons, List.not_mem_nil, or_false, forall_eq_or_imp, forall_eq]
  and_intros <;>
    (generalize hw : encode _ = w
     unfold encode at hw
     dsimp only at hw
     rw [pack_eq_puts] at hw
     subst hw
     simp [decodeSys, decodeSys1, decodeSys2, decodeSys3, decodeSys6, decodeSys7, decodeSys8, decodeSys9, decodeSys10, decodeSys11, decodeSys12, decodeSys13, decodeSys14, decodeSys15, decodeSys16, decodeSys17, decodeSys18, decodeSys19, decodeSys20, decodeSys21, decodeSys22, decodeSys24, decodeSys25])

/-! ### Words whose operands stand in a field that tells them from another instruction, and operands that a form restricts -/

theorem decodeCtl_encode_gstat (d : Reg) (g : Port) : decodeCtl (encode (.gstat d g)) = .ok (.gstat d g) := by
  have part {v : Nat} (h : fld v 16 0 ≠ 512) : fld (put (bare 0x68002000) d.val 21) 25 4 ≠ v :=
    fld_ne_of_part 20 4 (by decide) (by decide) (by decide) (by simpa using h.symm)
  generalize hw : encode _ = w
  unfold encode at hw
  dsimp only at hw
  rw [pack_eq_puts] at hw
  subst hw
  simp [decodeCtl, decodeCtl26, part (v := 0) (by decide), part (v := 256) (by decide)]

theorem decodeCtl_encode_gseek (a : Reg) (g : Port) : decodeCtl (encode (.gseek a g)) = .ok (.gseek a g) := by
  have part {v hi : Nat} (hhi : 15 ≤ hi) (h : fld v 11 0 ≠ 768) : fld (put (bare 0x68003000) a.val 16) hi 4 ≠ v :=
    fld_ne_of_part 15 4 (by decide) hhi (by decide) (by simpa using h.symm)
  generalize hw : encode _ = w
  unfold encode at hw
  dsimp only at hw
  rw [pack_eq_puts] at hw
  subst hw
  simp [decodeCtl, decodeCtl26, part (v := 0) (hi := 25) (by decide) (by decide), part (v := 256) (hi := 25) (by decide) (by decide),
    part (v := 512) (hi := 20) (by decide) (by decide)]

theorem decodeMx_encode_maccrdRow (t : TileNo) (a b : Reg) : decodeMx (encode (.maccrdRow t a b)) = .ok (.maccrdRow t a b) := by
  have part : fld (put (put (put (bare 0x24000001) t.val 24) a.val 14) b.val 9) 13 0 ≠ 0 :=
    fld_ne_of_part 8 0 (by decide) (by decide) (by decide) (by simp [show fld 0 8 0 = 0 from rfl])
  generalize hw : encode _ = w
  unfold encode at hw
  dsimp only at hw
  rw [pack_eq_puts] at hw
  subst hw
  simp [decodeMx, decodeMx9, part]

/-- The E bit of the source of VMASK_NZ and VMASK_CNT stands in the field that tells the other mask operations apart. -/
theorem fld_maskWord_ne {base hi v : Nat} (k : MaskReg) (a : VSrc) (hhi : 6 ≤ hi) (h : base / 2 ^ 0 % 2 ^ 7 ≠ fld v 6 0) :
    fld (put (put (put (bare base) k.val 20) a.code 14) a.ebit 7) hi 0 ≠ v :=
  fld_ne_of_part 6 0 (by decide) hhi (by decide) (by simpa using h)

theorem decodeVec_encode_vmaskNz (un : VUnit) (k : MaskReg) (a : VSrc) :
    decodeVec un (encode (.vmaskNz un k a)) = .ok (.vmaskNz un k a) := by
  have other (hi v : Nat) (hhi : 6 ≤ hi) (h : 0x5C000028 / 2 ^ 0 % 2 ^ 7 ≠ fld v 6 0) := fld_maskWord_ne k a hhi h
  generalize hw : encode _ = w
  unfold encode at hw
  dsimp only at hw
  rw [pack_eq_puts] at hw
  subst hw
  simp [bit_eq_fld, decodeVec, decodeVec23, other 7 0 (by decide) (by decide), other 7 8 (by decide) (by decide),
    other 7 16 (by decide) (by decide), other 7 24 (by decide) (by decide), other 13 32 (by decide) (by decide)]

theorem decodeVec_encode_vmaskCnt (un : VUnit) (k : MaskReg) (a : VSrc) :
    decodeVec un (encode (.vmaskCnt un k a)) = .ok (.vmaskCnt un k a) := by
  have other (hi v : Nat) (hhi : 6 ≤ hi) (h : 0x5C000030 / 2 ^ 0 % 2 ^ 7 ≠ fld v 6 0) := fld_maskWord_ne k a hhi h
  generalize hw : encode _ = w
  unfold encode at hw
  dsimp only at hw
  rw [pack_eq_puts] at hw
  subst hw
  simp [bit_eq_fld, decodeVec, decodeVec23, other 7 0 (by decide) (by decide), other 7 8 (by decide) (by decide),
    other 7 16 (by decide) (by decide), other 7 24 (by decide) (by decide), other 13 32 (by decide) (by decide)]

/-- The third source of VFMA has no E bit. -/
theorem decodeVec_encode_vfma (un : VUnit) {c : VSrc} (hc : c.plain = true) (a b : VSrc) (t : VType) (m : MaskReg) :
    decodeVec un (encode (.vfma un c a b t m)) = .ok (.vfma un c a b t m) := by
  have hread : VSrc.ofCode c.code false = some c := by
    have he : (c.ebit == 1) = false := by
      cases c with
      | v r e =>
        cases e with
        | false => rfl
        | true => cases hc
      | _ => rfl
    exact he ▸ c.ofCode_code
  generalize hw : encode _ = w
  unfold encode at hw
  dsimp only at hw
  rw [pack_eq_puts] at hw
  subst hw
  simp [put_ebit_below, bit_eq_fld, decodeVec, decodeVec5, hread]

/-- An m.addp of WP has no immediate. -/
theorem decodeMicro_encode_mAddp (p q : ParamReg) (u : AddSrc) (i : BitVec 48) (h : u ≠ .wp ∨ i = 0) :
    decodeMicro (encode (.mAddp p q u i)) = .ok (.mAddp p q u i) := by
  have hi : u.code = 0 → i = 0 := by
    intro hu
    rcases h with h | h
    · cases u with
      | wp => exact absurd rfl h
      | _ => cases hu
    · exact h
  generalize hw : encode _ = w
  unfold encode at hw
  dsimp only at hw
  rw [pack_eq_puts] at hw
  subst hw
  simp [decodeMicro, decodeMAddp]
  intro hu
  simp [hi hu]

/-- The decoder of a vector slot, and of a copy slot, is that of its unit or queue. -/
theorem decodeRaw_vec (un : VUnit) (w : Nat) : decodeRaw un.slot w = decodeVec un w := by cases un <;> rfl

theorem decodeRaw_copy (q : CopyQ) (w : Nat) : decodeRaw q.slot w = decodeCopy q w := by cases q <;> rfl

/-- The word of an instruction is read as that instruction in its slot. -/
theorem decodeRaw_encode {i : Instr} {sl : Slot} (wf : i.wf = true) (p : i.place = .slot sl) : decodeRaw sl (encode i) = .ok i := by
  cases i <;> cases p
  case nopCtl | nopMem | fenceMem | fenceUo | nopMx | nopSys | merge | yield | utret => rfl
  case nopVec un => cases un <;> rfl
  case nopCopy q => cases q <;> rfl
  case gstat d g => exact decodeCtl_encode_gstat d g
  case gseek a g => exact decodeCtl_encode_gseek a g
  case maccrdRow t a b => exact decodeMx_encode_maccrdRow t a b
  case vmaskNz un k a => exact (decodeRaw_vec un _).trans (decodeVec_encode_vmaskNz un k a)
  case vmaskCnt un k a => exact (decodeRaw_vec un _).trans (decodeVec_encode_vmaskCnt un k a)
  case vfma un c a b t m =>
    obtain ⟨hc, -⟩ := Bool.and_eq_true_iff.mp wf
    exact (decodeRaw_vec un _).trans (decodeVec_encode_vfma un hc a b t m)
  case add d a b w | sub d a b w | and d a b w | or d a b w | xor d a b w | andn d a b w | sll d a b w | srl d a b w
      | sra d a b w | rol d a b w | min d a b w | max d a b w | minu d a b w | maxu d a b w | mul d a b w | mulh d a b w
      | mulhu d a b w | div d a b w | divu d a b w | rem d a b w | remu d a b w =>
    exact decodeCtl_encode_integer d a b w _ (by simp)
  case clz d a w | ctz d a w | popc d a w =>
    exact decodeCtl_encode_integer d a 0 w _ (by simp)
  case addi d a i | andi d a i | ori d a i | xori d a i | movhi d a i =>
    exact decodeCtl_encode_immediate d a i false 0 _ (by simp)
  case addpc d i =>
    exact decodeCtl_encode_immediate d 0 i false 0 _ (by simp)
  case slli d a w n | srli d a w n | srai d a w n | roli d a w n =>
    exact decodeCtl_encode_immediate d a 0 w n _ (by simp)
  case cmp p a b x c =>
    exact decodeCtl_encode_predicate 0 a b p 0 0 x false c 0 _ (by simp)
  case cmpi p c a i =>
    exact decodeCtl_encode_predicate 0 a 0 p 0 0 false false c i _ (by simp)
  case pand p q x r y | por p q x r y | pxor p q x r y =>
    exact decodeCtl_encode_predicate 0 0 0 p q r x y .eq 0 _ (by simp)
  case sel d a b x p =>
    exact decodeCtl_encode_predicate d a b p 0 0 x false .eq 0 _ (by simp)
  case feq p a b | flt p a b | fle p a b | fUn p a b =>
    exact decodeCtl_encode_predicate 0 a b p 0 0 false false .eq 0 _ (by simp)
  case br p x o =>
    exact decodeCtl_encode_transfer 0 0 p x o 0 0 _ (by simp)
  case bz a o | bnz a o =>
    exact decodeCtl_encode_transfer 0 a 0 false o 0 0 _ (by simp)
  case jmp j | call j =>
    exact decodeCtl_encode_transfer 0 0 0 false 0 j 0 _ (by simp)
  case jr d a =>
    exact decodeCtl_encode_transfer d a 0 false 0 0 0 _ (by simp)
  case loop l a o =>
    exact decodeCtl_encode_transfer 0 a 0 false o 0 l _ (by simp)
  case fadd d a b r | fsub d a b r | fmul d a b r | fdiv d a b r | ffma d a b r | ffms d a b r | ffnma d a b r | ffnms d a b r
      =>
    exact decodeCtl_encode_float d a b r _ (by simp)
  case fsqrt d a r | fcvtI64F32 d a r | fcvtUi64F32 d a r | fcvtI32F32 d a r | fcvtUi32F32 d a r | fcvtF32I64 d a r
      | fcvtF32Ui64 d a r | fcvtF32I32 d a r | fcvtF32Ui32 d a r | fcvtB16F32 d a r | fcvtF32B16 d a r | fcvtF16F32 d a r
      | fcvtF32F16 d a r | fcvtF8aF32 d a r | fcvtF8bF32 d a r | fcvtF32F8a d a r | fcvtF32F8b d a r | frint d a r =>
    exact decodeCtl_encode_float d a 0 r _ (by simp)
  case fmin d a b | fmax d a b =>
    exact decodeCtl_encode_float d a b .rne _ (by simp)
  case rdsr d x =>
    exact decodeCtl_encode_register d 0 x .base 0 _ (by simp)
  case wrsr a x =>
    exact decodeCtl_encode_register 0 a x .base 0 _ (by simp)
  case gcfg a t g =>
    exact decodeCtl_encode_register 0 a .stw t g _ (by simp)
  case gstart g | gstop g =>
    exact decodeCtl_encode_register 0 0 .stw .base g _ (by simp)
  case vsetk a | vsetkH a =>
    exact decodeCtl_encode_register 0 a .stw .base 0 _ (by simp)
  case ld d a o r z | lds d a o r z | st d a o r z =>
    exact decodeMem_encode_access d a 0 o r z .blk false _ (by simp)
  case ldv d a o r | stv d a o r | ldx d a o r | ldt d a o r | stt d a o r =>
    exact decodeMem_encode_access d a 0 o r .b .blk false _ (by simp)
  case stpk d a o r m =>
    exact decodeMem_encode_access d a 0 o r .b m false _ (by simp)
  case ldg d a b x =>
    exact decodeMem_encode_access d a b 0 .plain .b .blk x _ (by simp)
  case fence s | fenceRel s | fenceAcq s =>
    exact decodeMem_encode_fence 0 0 s _ (by simp)
  case prefRc a o | prefMd a o =>
    exact decodeMem_encode_fence a o .core _ (by simp)
  case vadd un d a b t m | vsub un d a b t m | vmul un d a b t m | vmulh un d a b t m | vmin un d a b t m | vmax un d a b t m
      | vshl un d a b t m | vshr un d a b t m =>
    exact (decodeRaw_vec un _).trans (decodeVec_encode_arithmetic un d a b t m _ (by simp))
  case vabs un d a t m | vneg un d a t m =>
    exact (decodeRaw_vec un _).trans (decodeVec_encode_arithmetic un d a .z t m _ (by simp))
  case vand un d a b m | vor un d a b m | vxor un d a b m | vandn un d a b m | vsel un d a b m | vscale un d a b m
      | vqnt un d a b m =>
    exact (decodeRaw_vec un _).trans (decodeVec_encode_logic un d a b m _ (by simp))
  case vunpk un d a b =>
    exact (decodeRaw_vec un _).trans (decodeVec_encode_logic un d a b 0 _ (by simp))
  case vmov un d a =>
    exact (decodeRaw_vec un _).trans (decodeVec_encode_logic un d a .z 0 _ (by simp))
  case vchk un a b m =>
    exact (decodeRaw_vec un _).trans (decodeVec_encode_logic un .queue a b m _ (by simp))
  case vcmp un c k a b t m =>
    exact (decodeRaw_vec un _).trans (decodeVec_encode_mask un .queue a b c k 0 0 m 0 .i32 t _ (by simp))
  case vcvt un d a p u t m =>
    exact (decodeRaw_vec un _).trans (decodeVec_encode_mask un d a .z .eq 0 0 0 m p u t _ (by simp))
  case vmaskAnd un k x y | vmaskOr un k x y | vmaskXor un k x y | vmaskAndn un k x y =>
    exact (decodeRaw_vec un _).trans (decodeVec_encode_mask un .queue .z .z .eq k x y 0 0 .i32 .i32 _ (by simp))
  case vmaskNot un k x =>
    exact (decodeRaw_vec un _).trans (decodeVec_encode_mask un .queue .z .z .eq k x 0 0 0 .i32 .i32 _ (by simp))
  case vperm d a b m | vrot d a b m =>
    exact decodeVec_encode_va d a b .i32 m _ (by simp)
  case vrsum d a t m | vrmax d a t m | vscan d a t m =>
    exact decodeVec_encode_va d a .z t m _ (by simp)
  case vexp2 d a m | vlog2 d a m | vrcp d a m | vrsq d a m =>
    exact decodeVec_encode_vb d a m _ (by simp)
  case msetp p a =>
    exact decodeMx_encode_words p 0 a 0 0 false false false false 0 0 .blk .free _ (by simp)
  case msetpi p i =>
    exact decodeMx_encode_words p 0 0 0 i false false false false 0 0 .blk .free _ (by simp)
  case mcall h s t r =>
    exact decodeMx_encode_words 0 0 0 0 0 h s false false t r .blk .free _ (by simp)
  case mzero t | mseal t =>
    exact decodeMx_encode_words 0 0 0 0 0 false false false false t 0 .blk .free _ (by simp)
  case mdrain t d a b z n m s =>
    exact decodeMx_encode_words 0 d a b 0 false s z n t 0 m .free _ (by simp)
  case mstat d =>
    exact decodeMx_encode_words 0 d 0 0 0 false false false false 0 0 .blk .free _ (by simp)
  case mlduc a b | mlducEnt a b =>
    exact decodeMx_encode_words 0 0 a b 0 false false false false 0 0 .blk .free _ (by simp)
  case maccrd t d a =>
    exact decodeMx_encode_words 0 d a 0 0 false false false false t 0 .blk .free _ (by simp)
  case maccwr t a b | maccwrRow t a b =>
    exact decodeMx_encode_words 0 0 a b 0 false false false false t 0 .blk .free _ (by simp)
  case mwait d c =>
    exact decodeMx_encode_words 0 d 0 0 0 false false false false 0 0 .blk c _ (by simp)
  case cpy e t a b c | cpy2 e t a b c =>
    exact (decodeRaw_copy e _).trans (decodeCopy_encode_words e t a b c 0 false .xor .w .inp 0 .core 0 0 .addF32 .ar _ (by simp))
  case cpyb e t a b i =>
    exact (decodeRaw_copy e _).trans (decodeCopy_encode_words e t a b 0 i false .xor .w .inp 0 .core 0 0 .addF32 .ar _ (by simp))
  case acc e t a b c u o =>
    exact (decodeRaw_copy e _).trans (decodeCopy_encode_words e t a b c 0 u o .w .inp 0 .core 0 0 .addF32 .ar _ (by simp))
  case cas e t a b c u z =>
    exact (decodeRaw_copy e _).trans (decodeCopy_encode_words e t a b c 0 u .xor z .inp 0 .core 0 0 .addF32 .ar _ (by simp))
  case faa e t a b u z | xchg e t a b u z =>
    exact (decodeRaw_copy e _).trans (decodeCopy_encode_words e t a b 0 0 u .xor z .inp 0 .core 0 0 .addF32 .ar _ (by simp))
  case fput e t a b u =>
    exact (decodeRaw_copy e _).trans (decodeCopy_encode_words e t a b 0 0 u .xor .w .inp 0 .core 0 0 .addF32 .ar _ (by simp))
  case subs e t a d s =>
    exact (decodeRaw_copy e _).trans (decodeCopy_encode_words e t a 0 0 0 false .xor .w d s .core 0 0 .addF32 .ar _ (by simp))
  case unsub e t s | slotrel e t s =>
    exact (decodeRaw_copy e _).trans (decodeCopy_encode_words e t 0 0 0 0 false .xor .w .inp s .core 0 0 .addF32 .ar _ (by simp))
  case publ e t a b sc =>
    exact (decodeRaw_copy e _).trans (decodeCopy_encode_words e t a b 0 0 false .xor .w .inp 0 sc 0 0 .addF32 .ar _ (by simp))
  case cfence e t l =>
    exact (decodeRaw_copy e _).trans (decodeCopy_encode_words e t 0 0 0 0 false .xor .w .inp 0 .core l 0 .addF32 .ar _ (by simp))
  case cpys e t a c n =>
    exact (decodeRaw_copy e _).trans (decodeCopy_encode_words e t a 0 c 0 false .xor .w .inp 0 .core 0 n .addF32 .ar _ (by simp))
  case coll e t a b c p k =>
    exact (decodeRaw_copy e _).trans (decodeCopy_encode_words e t a b c 0 false .xor .w .inp 0 .core 0 0 p k _ (by simp))
  case spawn d a | viewa d a | fget d a | runinl d a | gjoin d a | arrive d a | arriveDrop d a | sstep d a | permit d a
      | vdmap d a =>
    exact decodeSys_encode_words d a 0 .tcb 0 .off 0 0 _ (by simp)
  case spawnl d a b | fwaitSpin d a b | fwaitYield d a b | bwait d a b | lease d a b | vdist d a b =>
    exact decodeSys_encode_words d a b .tcb 0 .off 0 0 _ (by simp)
  case join d | leaserel d =>
    exact decodeSys_encode_words d 0 0 .tcb 0 .off 0 0 _ (by simp)
  case tinfo d t =>
    exact decodeSys_encode_words d 0 0 t 0 .off 0 0 _ (by simp)
  case gleave a =>
    exact decodeSys_encode_words 0 a 0 .tcb 0 .off 0 0 _ (by simp)
  case tcexp a s =>
    exact decodeSys_encode_words 0 a 0 .tcb s .off 0 0 _ (by simp)
  case tcwait d s =>
    exact decodeSys_encode_words d 0 0 .tcb s .off 0 0 _ (by simp)
  case segs m n =>
    exact decodeSys_encode_words 0 0 0 .tcb 0 m n 0 _ (by simp)
  case trap k | trapDup k =>
    exact decodeSys_encode_words 0 0 0 .tcb 0 .off 0 k _ (by simp)

theorem decodeMicro_encode {i : Instr} (wf : i.wf = true) (p : i.place = .micro) : decodeMicro (encode i) = .ok i := by
  cases i <;> cases p
  case mSeal | mEnd => rfl
  case mAddp p q u imm =>
    refine decodeMicro_encode_mAddp p q u imm ?_
    simpa [Instr.wf] using wf
  case mAload p q | mBload p q =>
    exact decodeMicro_encode_words p q 0 false false false 0 0 .wp 0 .lt .whole 0 .blk 0 0 _ (by simp)
  case mStep x y =>
    exact decodeMicro_encode_words 0 0 0 x y false 0 0 .wp 0 .lt .whole 0 .blk 0 0 _ (by simp)
  case mLoop l n =>
    exact decodeMicro_encode_words 0 0 0 false false false l n .wp 0 .lt .whole 0 .blk 0 0 _ (by simp)
  case mEndloop l =>
    exact decodeMicro_encode_words 0 0 0 false false false l 0 .wp 0 .lt .whole 0 .blk 0 0 _ (by simp)
  case mSetp p q u i =>
    exact decodeMicro_encode_words p q 0 false false false 0 0 u i .lt .whole 0 .blk 0 0 _ (by simp)
  case mJcmp p q c f j =>
    exact decodeMicro_encode_words p q 0 false false false 0 0 .wp 0 c f j .blk 0 0 _ (by simp)
  case mZero x =>
    exact decodeMicro_encode_words 0 0 0 x false false 0 0 .wp 0 .lt .whole 0 .blk 0 0 _ (by simp)
  case mDrain p q g x y m z =>
    exact decodeMicro_encode_words p q g x y z 0 0 .wp 0 .lt .whole 0 m 0 0 _ (by simp)
  case mShape p q g =>
    exact decodeMicro_encode_words p q g false false false 0 0 .wp 0 .lt .whole 0 .blk 0 0 _ (by simp)
  case mFmt fa fb =>
    exact decodeMicro_encode_words 0 0 0 false false false 0 0 .wp 0 .lt .whole 0 .blk fa fb _ (by simp)
  case mPermit n =>
    exact decodeMicro_encode_words 0 0 0 false false false 0 n .wp 0 .lt .whole 0 .blk 0 0 _ (by simp)

theorem decodeSlot_encode {i : Instr} {sl : Slot} (wf : i.wf = true) (p : i.place = .slot sl) : decodeSlot sl (encode i) = .ok i := by
  rw [decodeSlot, decodeRaw_encode wf p]
  exact if_pos wf

/-- Settles O54: each field of the word of an instruction reads its operand (`decodeRaw_encode`). -/
theorem scalarAndMemoryRoundTrip : Obligations.ScalarAndMemoryRoundTrip :=
  ⟨fun _ => decodeSlot_encode, fun _ => decodeSlot_encode⟩

/-- Settles O55, as O54, with the micro-words (`decodeMicro_encode`). -/
theorem vectorAndMatrixRoundTrip : Obligations.VectorAndMatrixRoundTrip :=
  ⟨fun _ _ wf p _ => decodeSlot_encode wf p, fun _ => decodeSlot_encode, fun _ => decodeMicro_encode⟩

/-- Settles O56, as O54. -/
theorem copyAndSystemRoundTrip : Obligations.CopyAndSystemRoundTrip :=
  fun _ _ wf p _ => decodeSlot_encode wf p

end Sys2Proof
end

section
/-!
LEMMAS. No bit of a word is ignored: what a decoder reads has the word that was read. The decoders of the opcodes are gone through slot by
slot; an operand that is read has the code that stands in its field, so the fields of the word add up to the word.
-/

namespace Sys2Proof

/-! ### The code of an operand that is read -/

theorem Round.code_of_ofCode {n : Nat} {x : Round} (h : Round.ofCode n = some x) : x.code = n := by
  unfold Round.ofCode at h
  split at h <;> cases h <;> rfl

theorem Cond.code_of_ofCode {n : Nat} {x : Cond} (h : Cond.ofCode n = some x) : x.code = n := by
  unfold Cond.ofCode at h
  split at h <;> cases h <;> rfl

theorem Scope.code_of_ofCode {n : Nat} {x : Scope} (h : Scope.ofCode n = some x) : x.code = n := by
  unfold Scope.ofCode at h
  split at h <;> cases h <;> rfl

theorem Size.code_of_ofCode {n : Nat} {x : Size} (h : Size.ofCode n = some x) : x.code = n := by
  unfold Size.ofCode at h
  split at h <;> cases h <;> rfl

theorem ScaleMode.code_of_ofCode {n : Nat} {x : ScaleMode} (h : ScaleMode.ofCode n = some x) : x.code = n := by
  unfold ScaleMode.ofCode at h
  split at h <;> cases h <;> rfl

theorem VType.code_of_ofCode {n : Nat} {x : VType} (h : VType.ofCode n = some x) : x.code = n := by
  unfold VType.ofCode at h
  split at h <;> cases h <;> rfl

theorem VCond.code_of_ofCode {n : Nat} {x : VCond} (h : VCond.ofCode n = some x) : x.code = n := by
  unfold VCond.ofCode at h
  split at h <;> cases h <;> rfl

theorem DrainMode.code_of_ofCode {n : Nat} {x : DrainMode} (h : DrainMode.ofCode n = some x) : x.code = n := by
  unfold DrainMode.ofCode at h
  split at h <;> cases h <;> rfl

theorem MWaitCond.code_of_ofCode {n : Nat} {x : MWaitCond} (h : MWaitCond.ofCode n = some x) : x.code = n := by
  unfold MWaitCond.ofCode at h
  split at h <;> cases h <;> rfl

theorem AccOp.code_of_ofCode {n : Nat} {x : AccOp} (h : AccOp.ofCode n = some x) : x.code = n := by
  unfold AccOp.ofCode at h
  split at h <;> cases h <;> rfl

theorem RingDir.code_of_ofCode {n : Nat} {x : RingDir} (h : RingDir.ofCode n = some x) : x.code = n := by
  unfold RingDir.ofCode at h
  split at h <;> cases h <;> rfl

theorem CollKind.code_of_ofCode {n : Nat} {x : CollKind} (h : CollKind.ofCode n = some x) : x.code = n := by
  unfold CollKind.ofCode at h
  split at h <;> cases h <;> rfl

theorem CollOp.code_of_ofCode {n : Nat} {x : CollOp} (h : CollOp.ofCode n = some x) : x.code = n := by
  unfold CollOp.ofCode at h
  split at h <;> cases h <;> rfl

theorem TItem.code_of_ofCode {n : Nat} {x : TItem} (h : TItem.ofCode n = some x) : x.code = n := by
  unfold TItem.ofCode at h
  split at h <;> cases h <;> rfl

theorem SegRest.code_of_ofCode {n : Nat} {x : SegRest} (h : SegRest.ofCode n = some x) : x.code = n := by
  unfold SegRest.ofCode at h
  split at h <;> cases h <;> rfl

theorem AddSrc.code_of_ofCode {n : Nat} {x : AddSrc} (h : AddSrc.ofCode n = some x) : x.code = n := by
  unfold AddSrc.ofCode at h
  split at h <;> cases h <;> rfl

theorem SetSrc.code_of_ofCode {n : Nat} {x : SetSrc} (h : SetSrc.ofCode n = some x) : x.code = n := by
  unfold SetSrc.ofCode at h
  split at h <;> cases h <;> rfl

theorem MicroCond.code_of_ofCode {n : Nat} {x : MicroCond} (h : MicroCond.ofCode n = some x) : x.code = n := by
  unfold MicroCond.ofCode at h
  split at h <;> cases h <;> rfl

theorem SysReg.code_of_ofCode {n : Nat} {x : SysReg} (h : SysReg.ofCode n = some x) : x.code = n := by
  unfold SysReg.ofCode at h
  split at h <;> cases h <;> rfl

theorem AtomSize.code_of_ofCode {n : Nat} {x : AtomSize} (h : AtomSize.ofCode n = some x) : x.code = n := by
  unfold AtomSize.ofCode at h
  split at h <;> cases h <;> rfl

theorem Port.code_of_ofCode {n : Nat} {x : Port} (h : Port.ofCode n = some x) : Port.code x = n := by
  unfold Port.ofCode at h
  split at h <;> cases h
  rfl

theorem PortWord.code_of_ofCode {n : Nat} {x : PortWord} (h : PortWord.ofCode n = some x) : x.code = n := by
  unfold PortWord.ofCode at h
  split at h
  · cases h
    simp_all [PortWord.code]
  · split at h <;> cases h
    simp only [PortWord.code]
    omega

theorem MicroField.code_of_ofCode {n : Nat} {x : MicroField} (h : MicroField.ofCode n = some x) : x.code = n := by
  unfold MicroField.ofCode at h
  split at h
  · cases h
    simp_all [MicroField.code]
  · split at h <;> cases h
    simp only [MicroField.code]
    omega

theorem VSrc.code_of_ofCode {n : Nat} {e : Bool} {x : VSrc} (h : VSrc.ofCode n e = some x) : x.code = n ∧ x.ebit = e.toNat := by
  unfold VSrc.ofCode at h
  repeat' split at h
  all_goals cases h
  all_goals cases e <;> simp_all [VSrc.code, VSrc.ebit] <;> omega

theorem VDst.code_of_ofCode {n : Nat} {x : VDst} (h : VDst.ofCode n = some x) : x.code = n := by
  unfold VDst.ofCode at h
  repeat' split at h
  all_goals cases h
  all_goals simp_all [VDst.code] <;> omega

theorem Order.codes_of_ofCode {o s : Nat} {x : Order} (h : Order.ofCode o s = some x) : x.ordCode = o ∧ x.scpCode = s := by
  unfold Order.ofCode at h
  split at h
  · split at h <;> cases h
    exact ⟨(‹o = 0›).symm, (‹s = 0›).symm⟩
  · split at h
    · obtain ⟨y, hy, rfl⟩ := Option.map_eq_some_iff.mp h
      exact ⟨(‹o = 1›).symm, Scope.code_of_ofCode hy⟩
    · cases h

theorem Round.ofCode_eq_some {n : Nat} {x : Round} : Round.ofCode n = some x ↔ x.code = n :=
  ⟨Round.code_of_ofCode, fun h => h ▸ x.ofCode_code⟩

theorem Cond.ofCode_eq_some {n : Nat} {x : Cond} : Cond.ofCode n = some x ↔ x.code = n :=
  ⟨Cond.code_of_ofCode, fun h => h ▸ x.ofCode_code⟩

theorem Scope.ofCode_eq_some {n : Nat} {x : Scope} : Scope.ofCode n = some x ↔ x.code = n :=
  ⟨Scope.code_of_ofCode, fun h => h ▸ x.ofCode_code⟩

theorem Size.ofCode_eq_some {n : Nat} {x : Size} : Size.ofCode n = some x ↔ x.code = n :=
  ⟨Size.code_of_ofCode, fun h => h ▸ x.ofCode_code⟩

theorem ScaleMode.ofCode_eq_some {n : Nat} {x : ScaleMode} : ScaleMode.ofCode n = some x ↔ x.code = n :=
  ⟨ScaleMode.code_of_ofCode, fun h => h ▸ x.ofCode_code⟩

theorem VType.ofCode_eq_some {n : Nat} {x : VType} : VType.ofCode n = some x ↔ x.code = n :=
  ⟨VType.code_of_ofCode, fun h => h ▸ x.ofCode_code⟩

theorem VCond.ofCode_eq_some {n : Nat} {x : VCond} : VCond.ofCode n = some x ↔ x.code = n :=
  ⟨VCond.code_of_ofCode, fun h => h ▸ x.ofCode_code⟩

theorem DrainMode.ofCode_eq_some {n : Nat} {x : DrainMode} : DrainMode.ofCode n = some x ↔ x.code = n :=
  ⟨DrainMode.code_of_ofCode, fun h => h ▸ x.ofCode_code⟩

theorem MWaitCond.ofCode_eq_some {n : Nat} {x : MWaitCond} : MWaitCond.ofCode n = some x ↔ x.code = n :=
  ⟨MWaitCond.code_of_ofCode, fun h => h ▸ x.ofCode_code⟩

theorem AccOp.ofCode_eq_some {n : Nat} {x : AccOp} : AccOp.ofCode n = some x ↔ x.code = n :=
  ⟨AccOp.code_of_ofCode, fun h => h ▸ x.ofCode_code⟩

theorem RingDir.ofCode_eq_some {n : Nat} {x : RingDir} : RingDir.ofCode n = some x ↔ x.code = n :=
  ⟨RingDir.code_of_ofCode, fun h => h ▸ x.ofCode_code⟩

theorem CollKind.ofCode_eq_some {n : Nat} {x : CollKind} : CollKind.ofCode n = some x ↔ x.code = n :=
  ⟨CollKind.code_of_ofCode, fun h => h ▸ x.ofCode_code⟩

theorem CollOp.ofCode_eq_some {n : Nat} {x : CollOp} : CollOp.ofCode n = some x ↔ x.code = n :=
  ⟨CollOp.code_of_ofCode, fun h => h ▸ x.ofCode_code⟩

theorem TItem.ofCode_eq_some {n : Nat} {x : TItem} : TItem.ofCode n = some x ↔ x.code = n :=
  ⟨TItem.code_of_ofCode, fun h => h ▸ x.ofCode_code⟩

theorem SegRest.ofCode_eq_some {n : Nat} {x : SegRest} : SegRest.ofCode n = some x ↔ x.code = n :=
  ⟨SegRest.code_of_ofCode, fun h => h ▸ x.ofCode_code⟩

theorem AddSrc.ofCode_eq_some {n : Nat} {x : AddSrc} : AddSrc.ofCode n = some x ↔ x.code = n :=
  ⟨AddSrc.code_of_ofCode, fun h => h ▸ x.ofCode_code⟩

theorem SetSrc.ofCode_eq_some {n : Nat} {x : SetSrc} : SetSrc.ofCode n = some x ↔ x.code = n :=
  ⟨SetSrc.code_of_ofCode, fun h => h ▸ x.ofCode_code⟩

theorem MicroCond.ofCode_eq_some {n : Nat} {x : MicroCond} : MicroCond.ofCode n = some x ↔ x.code = n :=
  ⟨MicroCond.code_of_ofCode, fun h => h ▸ x.ofCode_code⟩

theorem SysReg.ofCode_eq_some {n : Nat} {x : SysReg} : SysReg.ofCode n = some x ↔ x.code = n :=
  ⟨SysReg.code_of_ofCode, fun h => h ▸ x.ofCode_code⟩

theorem AtomSize.ofCode_eq_some {n : Nat} {x : AtomSize} : AtomSize.ofCode n = some x ↔ x.code = n :=
  ⟨AtomSize.code_of_ofCode, fun h => h ▸ x.ofCode_code⟩

theorem PortWord.ofCode_eq_some {n : Nat} {x : PortWord} : PortWord.ofCode n = some x ↔ x.code = n :=
  ⟨PortWord.code_of_ofCode, fun h => h ▸ x.ofCode_code⟩

theorem MicroField.ofCode_eq_some {n : Nat} {x : MicroField} : MicroField.ofCode n = some x ↔ x.code = n :=
  ⟨MicroField.code_of_ofCode, fun h => h ▸ x.ofCode_code⟩

theorem Port.ofCode_eq_some {n : Nat} {x : Port} : Port.ofCode n = some x ↔ Port.code x = n :=
  ⟨Port.code_of_ofCode, fun h => h ▸ Port.ofCode_code x⟩

theorem VDst.ofCode_eq_some {n : Nat} {x : VDst} : VDst.ofCode n = some x ↔ x.code = n :=
  ⟨VDst.code_of_ofCode, fun h => h ▸ x.ofCode_code⟩

theorem VSrc.ofCode_eq_some {n : Nat} {e : Bool} {x : VSrc} : VSrc.ofCode n e = some x ↔ x.code = n ∧ x.ebit = e.toNat := by
  refine ⟨VSrc.code_of_ofCode, fun ⟨hn, he⟩ => ?_⟩
  have hb : (x.ebit == 1) = e := by rw [he]; cases e <;> rfl
  exact hn ▸ hb ▸ x.ofCode_code

theorem Order.ofCode_eq_some {o s : Nat} {x : Order} : Order.ofCode o s = some x ↔ x.ordCode = o ∧ x.scpCode = s :=
  ⟨Order.codes_of_ofCode, fun ⟨ho, hs⟩ => ho ▸ hs ▸ x.ofCode_codes⟩

theorem bit_toNat (w n : Nat) : (bit w n).toNat = w / 2 ^ n % 2 := by
  unfold bit
  rcases Nat.mod_two_eq_zero_or_one (w / 2 ^ n) with h | h <;> simp [h]

/-! ### What a decoder accepts -/

/-- Whatever is read stands at its place and has the word alone. -/
def Accepts (p : Place) (w : Nat) (r : Except DecodeError Instr) : Prop := ∀ i, r = .ok i → i.place = p ∧ encode i = w

section
variable {p : Place} {w : Nat}

theorem accepts_ok {i : Instr} (hp : i.place = p) (hw : encode i = w) : Accepts p w (.ok i) := by
  rintro _ ⟨⟩
  exact ⟨hp, hw⟩

theorem accepts_error (e : DecodeError) : Accepts p w (.error e) := by
  rintro _ ⟨⟩

theorem accepts_ite {c : Prop} [Decidable c] {x y : Except DecodeError Instr} (hx : c → Accepts p w x) (hy : Accepts p w y) :
    Accepts p w (if c then x else y) := by
  split
  · exact hx ‹_›
  · exact hy

end

/-! ### The decoders of the opcodes -/

/-- Opcode 1 of the ctl slot (spec/04 R80). -/
theorem decodeCtl_accepts_integer {w : Nat} (hw : w < 2 ^ 32) :
    fld w 31 26 = 1 → Accepts (.slot .ctl) w (decodeCtl1 w) := by
  intro op
  simp only [decodeCtl1]
  repeat' first | exact accepts_error _ | refine accepts_ite (fun _ => ?_) ?_ | split
  all_goals
    refine accepts_ok rfl ?_
    unfold encode
    simp only [pack, fld, bit_toNat, Fin.val_ofNat,
      Nat.reducePow, Nat.reduceSub, Nat.reduceAdd, Nat.div_one,
      Nat.mod_mod] at *
    omega

/-- The immediate forms (spec/04 R82, R83). -/
theorem decodeCtl_accepts_immediate {w : Nat} (hw : w < 2 ^ 32) :
    (fld w 31 26 = 2 → Accepts (.slot .ctl) w (decodeCtl2 w)) ∧
    (fld w 31 26 = 3 → Accepts (.slot .ctl) w (decodeCtl3 w)) ∧
    (fld w 31 26 = 4 → Accepts (.slot .ctl) w (decodeCtl4 w)) ∧
    (fld w 31 26 = 5 → Accepts (.slot .ctl) w (decodeCtl5 w)) ∧
    (fld w 31 26 = 6 → Accepts (.slot .ctl) w (decodeCtl6 w)) ∧
    (fld w 31 26 = 7 → Accepts (.slot .ctl) w (decodeCtl7 w)) ∧
    (fld w 31 26 = 8 → Accepts (.slot .ctl) w (decodeCtl8 w)) := by
  and_intros <;> intro op
  all_goals simp only [decodeCtl2, decodeCtl3, decodeCtl4, decodeCtl5, decodeCtl6, decodeCtl7, decodeCtl8]
  repeat' first | exact accepts_error _ | refine accepts_ite (fun _ => ?_) ?_ | split
  all_goals
    refine accepts_ok rfl ?_
    unfold encode
    simp only [pack, fld, bit_toNat, Fin.val_ofNat, BitVec.toNat_ofNat,
      Nat.reducePow, Nat.reduceSub, Nat.reduceAdd, Nat.div_one,
      Nat.mod_mod] at *
    omega

/-- Compares, predicate logic and the select (spec/04 R84 to R86, R95). -/
theorem decodeCtl_accepts_predicate {w : Nat} (hw : w < 2 ^ 32) :
    (fld w 31 26 = 9 → Accepts (.slot .ctl) w (decodeCtl9 w)) ∧
    (fld w 31 26 = 10 → Accepts (.slot .ctl) w (decodeCtl10 w)) ∧
    (fld w 31 26 = 11 → Accepts (.slot .ctl) w (decodeCtl11 w)) ∧
    (fld w 31 26 = 12 → Accepts (.slot .ctl) w (decodeCtl12 w)) ∧
    (fld w 31 26 = 22 → Accepts (.slot .ctl) w (decodeCtl22 w)) := by
  and_intros <;> intro op
  all_goals simp only [decodeCtl9, decodeCtl10, decodeCtl11, decodeCtl12, decodeCtl22]
  repeat' first | exact accepts_error _ | refine accepts_ite (fun _ => ?_) ?_ | split
  all_goals
    refine accepts_ok rfl ?_
    unfold encode
    simp only [pack, fld, bit_toNat, Fin.val_ofNat, BitVec.toNat_ofNat, Cond.ofCode_eq_some,
      Nat.reducePow, Nat.reduceSub, Nat.reduceAdd, Nat.div_one,
      Nat.mod_mod] at *
    omega

/-- Branches, jumps and loops (spec/04 R87, R89). -/
theorem decodeCtl_accepts_transfer {w : Nat} (hw : w < 2 ^ 32) :
    (fld w 31 26 = 13 → Accepts (.slot .ctl) w (decodeCtl13 w)) ∧
    (fld w 31 26 = 14 → Accepts (.slot .ctl) w (decodeCtl14 w)) ∧
    (fld w 31 26 = 15 → Accepts (.slot .ctl) w (decodeCtl15 w)) ∧
    (fld w 31 26 = 16 → Accepts (.slot .ctl) w (decodeCtl16 w)) ∧
    (fld w 31 26 = 17 → Accepts (.slot .ctl) w (decodeCtl17 w)) ∧
    (fld w 31 26 = 18 → Accepts (.slot .ctl) w (decodeCtl18 w)) := by
  and_intros <;> intro op
  all_goals simp only [decodeCtl13, decodeCtl14, decodeCtl15, decodeCtl16, decodeCtl17, decodeCtl18]
  repeat' first | exact accepts_error _ | refine accepts_ite (fun _ => ?_) ?_ | split
  all_goals
    refine accepts_ok rfl ?_
    unfold encode
    simp only [pack, fld, bit_toNat, Fin.val_ofNat, BitVec.toNat_ofNat,
      Nat.reducePow, Nat.reduceSub, Nat.reduceAdd, Nat.div_one,
      Nat.mod_mod] at *
    omega

/-- Floating-point arithmetic (spec/04 R92, R93). -/
theorem decodeCtl_accepts_float {w : Nat} (hw : w < 2 ^ 32) :
    (fld w 31 26 = 19 → Accepts (.slot .ctl) w (decodeCtl19 w)) ∧
    (fld w 31 26 = 20 → Accepts (.slot .ctl) w (decodeCtl20 w)) := by
  and_intros <;> intro op
  all_goals simp only [decodeCtl19, decodeCtl20]
  repeat' first | exact accepts_error _ | refine accepts_ite (fun _ => ?_) ?_ | split
  all_goals
    refine accepts_ok rfl ?_
    unfold encode
    simp only [pack, fld, Fin.val_ofNat, Round.ofCode_eq_some,
      Nat.reducePow, Nat.reduceSub, Nat.reduceAdd, Nat.div_one,
      Nat.mod_mod] at *
    omega

/-- Conversions (spec/04 R94). -/
theorem decodeCtl_accepts_conversion {w : Nat} (hw : w < 2 ^ 32) :
    fld w 31 26 = 21 → Accepts (.slot .ctl) w (decodeCtl21 w) := by
  intro op
  simp only [decodeCtl21]
  repeat' first | exact accepts_error _ | refine accepts_ite (fun _ => ?_) ?_ | split
  all_goals
    refine accepts_ok rfl ?_
    unfold encode
    simp only [pack, fld, Fin.val_ofNat, Round.ofCode_eq_some,
      Nat.reducePow, Nat.reduceSub, Nat.reduceAdd, Nat.div_one,
      Nat.mod_mod] at *
    omega

/-- System registers, port commands and the vector constant (spec/04 R97, spec/07 R148, R149, R151). -/
theorem decodeCtl_accepts_register {w : Nat} (hw : w < 2 ^ 32) :
    (fld w 31 26 = 23 → Accepts (.slot .ctl) w (decodeCtl23 w)) ∧
    (fld w 31 26 = 24 → Accepts (.slot .ctl) w (decodeCtl24 w)) ∧
    (fld w 31 26 = 25 → Accepts (.slot .ctl) w (decodeCtl25 w)) ∧
    (fld w 31 26 = 26 → Accepts (.slot .ctl) w (decodeCtl26 w)) ∧
    (fld w 31 26 = 27 → Accepts (.slot .ctl) w (decodeCtl27 w)) := by
  and_intros <;> intro op
  all_goals simp only [decodeCtl23, decodeCtl24, decodeCtl25, decodeCtl26, decodeCtl27]
  repeat' first | exact accepts_error _ | refine accepts_ite (fun _ => ?_) ?_ | split
  all_goals
    refine accepts_ok rfl ?_
    unfold encode
    simp only [pack, fld, Fin.val_ofNat,
      SysReg.ofCode_eq_some, Port.ofCode_eq_some, PortWord.ofCode_eq_some, Nat.reducePow, Nat.reduceSub, Nat.reduceAdd, Nat.div_one,
      Nat.mod_mod] at *
    omega

/-- Loads, stores and tagged accesses (spec/05 R111 to R114). -/
theorem decodeMem_accepts_access {w : Nat} (hw : w < 2 ^ 32) :
    (fld w 31 26 = 1 → Accepts (.slot .mem) w (decodeMem1 w)) ∧
    (fld w 31 26 = 2 → Accepts (.slot .mem) w (decodeMem2 w)) ∧
    (fld w 31 26 = 3 → Accepts (.slot .mem) w (decodeMem3 w)) ∧
    (fld w 31 26 = 4 → Accepts (.slot .mem) w (decodeMem4 w)) ∧
    (fld w 31 26 = 5 → Accepts (.slot .mem) w (decodeMem5 w)) ∧
    (fld w 31 26 = 6 → Accepts (.slot .mem) w (decodeMem6 w)) ∧
    (fld w 31 26 = 7 → Accepts (.slot .mem) w (decodeMem7 w)) := by
  and_intros <;> intro op
  all_goals simp only [decodeMem1, decodeMem2, decodeMem3, decodeMem4, decodeMem5, decodeMem6, decodeMem7]
  repeat' first | exact accepts_error _ | refine accepts_ite (fun _ => ?_) ?_ | split
  all_goals
    refine accepts_ok rfl ?_
    unfold encode
    simp only [pack, fld, Fin.val_ofNat, BitVec.toNat_ofNat, Order.ofCode_eq_some, Size.ofCode_eq_some,
      ScaleMode.ofCode_eq_some, Nat.reducePow, Nat.reduceSub, Nat.reduceAdd, Nat.div_one, Nat.mod_mod] at *
    omega

/-- The other instructions of the mem slot (spec/05 R115 to R118). -/
theorem decodeMem_accepts_other {w : Nat} (hw : w < 2 ^ 32) :
    (fld w 31 26 = 8 → Accepts (.slot .mem) w (decodeMem8 w)) ∧
    (fld w 31 26 = 9 → Accepts (.slot .mem) w (decodeMem9 w)) ∧
    (fld w 31 26 = 10 → Accepts (.slot .mem) w (decodeMem10 w)) ∧
    (fld w 31 26 = 11 → Accepts (.slot .mem) w (decodeMem11 w)) ∧
    (fld w 31 26 = 12 → Accepts (.slot .mem) w (decodeMem12 w)) := by
  and_intros <;> intro op
  all_goals simp only [decodeMem8, decodeMem9, decodeMem10, decodeMem11, decodeMem12]
  repeat' first | exact accepts_error _ | refine accepts_ite (fun _ => ?_) ?_ | split
  all_goals
    refine accepts_ok rfl ?_
    unfold encode
    simp only [pack, fld, bit_toNat, Fin.val_ofNat, BitVec.toNat_ofNat, Order.ofCode_eq_some,
      Scope.ofCode_eq_some, Nat.reducePow, Nat.reduceSub, Nat.reduceAdd, Nat.div_one, Nat.mod_mod] at *
    omega

/-- Arithmetic, the fused multiply-add and shifts (spec/08 R162 to R164). -/
theorem decodeVec_accepts_arithmetic (un : VUnit) {w : Nat} (hw : w < 2 ^ 32) :
    (fld w 31 26 = 1 → Accepts (.slot un.slot) w (decodeVec1 un w)) ∧
    (fld w 31 26 = 2 → Accepts (.slot un.slot) w (decodeVec2 un w)) ∧
    (fld w 31 26 = 3 → Accepts (.slot un.slot) w (decodeVec3 un w)) ∧
    (fld w 31 26 = 4 → Accepts (.slot un.slot) w (decodeVec4 un w)) ∧
    (fld w 31 26 = 5 → Accepts (.slot un.slot) w (decodeVec5 un w)) ∧
    (fld w 31 26 = 6 → Accepts (.slot un.slot) w (decodeVec6 un w)) ∧
    (fld w 31 26 = 7 → Accepts (.slot un.slot) w (decodeVec7 un w)) ∧
    (fld w 31 26 = 8 → Accepts (.slot un.slot) w (decodeVec8 un w)) ∧
    (fld w 31 26 = 9 → Accepts (.slot un.slot) w (decodeVec9 un w)) := by
  and_intros <;> intro op
  all_goals simp only [decodeVec1, decodeVec2, decodeVec3, decodeVec4, decodeVec5, decodeVec6, decodeVec7, decodeVec8, decodeVec9]
  repeat' first | exact accepts_error _ | refine accepts_ite (fun _ => ?_) ?_ | split
  all_goals
    refine accepts_ok rfl ?_
    unfold encode
    simp only [pack, fld, bit_toNat, Fin.val_ofNat, VDst.ofCode_eq_some, VSrc.ofCode_eq_some,
      VType.ofCode_eq_some, Nat.reducePow, Nat.reduceSub, Nat.reduceAdd, Nat.div_one, Nat.mod_mod] at *
    omega

/-- Lane logic, absolute values, compares and selects (spec/08 R162, R163, R165, R167). -/
theorem decodeVec_accepts_logic (un : VUnit) {w : Nat} (hw : w < 2 ^ 32) :
    (fld w 31 26 = 10 → Accepts (.slot un.slot) w (decodeVec10 un w)) ∧
    (fld w 31 26 = 11 → Accepts (.slot un.slot) w (decodeVec11 un w)) ∧
    (fld w 31 26 = 12 → Accepts (.slot un.slot) w (decodeVec12 un w)) ∧
    (fld w 31 26 = 13 → Accepts (.slot un.slot) w (decodeVec13 un w)) ∧
    (fld w 31 26 = 14 → Accepts (.slot un.slot) w (decodeVec14 un w)) ∧
    (fld w 31 26 = 15 → Accepts (.slot un.slot) w (decodeVec15 un w)) ∧
    (fld w 31 26 = 16 → Accepts (.slot un.slot) w (decodeVec16 un w)) ∧
    (fld w 31 26 = 17 → Accepts (.slot un.slot) w (decodeVec17 un w)) ∧
    (fld w 31 26 = 18 → Accepts (.slot un.slot) w (decodeVec18 un w)) := by
  and_intros <;> intro op
  all_goals simp only [decodeVec10, decodeVec11, decodeVec12, decodeVec13, decodeVec14, decodeVec15, decodeVec16, decodeVec17,
      decodeVec18]
  repeat' first | exact accepts_error _ | refine accepts_ite (fun _ => ?_) ?_ | split
  all_goals
    refine accepts_ok rfl ?_
    unfold encode
    simp only [pack, fld, bit_toNat, Fin.val_ofNat, VDst.ofCode_eq_some, VSrc.ofCode_eq_some,
      VType.ofCode_eq_some, VCond.ofCode_eq_some, Nat.reducePow, Nat.reduceSub, Nat.reduceAdd, Nat.div_one, Nat.mod_mod] at *
    omega

/-- Conversions, moves, block formats and the check (spec/08 R168 to R172, R177). -/
theorem decodeVec_accepts_format (un : VUnit) {w : Nat} (hw : w < 2 ^ 32) :
    (fld w 31 26 = 19 → Accepts (.slot un.slot) w (decodeVec19 un w)) ∧
    (fld w 31 26 = 20 → Accepts (.slot un.slot) w (decodeVec20 un w)) ∧
    (fld w 31 26 = 21 → Accepts (.slot un.slot) w (decodeVec21 un w)) ∧
    (fld w 31 26 = 22 → Accepts (.slot un.slot) w (decodeVec22 un w)) ∧
    (fld w 31 26 = 24 → Accepts (.slot un.slot) w (decodeVec24 un w)) := by
  and_intros <;> intro op
  all_goals simp only [decodeVec19, decodeVec20, decodeVec21, decodeVec22, decodeVec24]
  repeat' first | exact accepts_error _ | refine accepts_ite (fun _ => ?_) ?_ | split
  all_goals
    refine accepts_ok rfl ?_
    unfold encode
    simp only [pack, fld, bit_toNat, Fin.val_ofNat, BitVec.toNat_ofNat, VDst.ofCode_eq_some, VSrc.ofCode_eq_some,
      VType.ofCode_eq_some, Nat.reducePow, Nat.reduceSub, Nat.reduceAdd, Nat.div_one, Nat.mod_mod] at *
    omega

/-- Masks (spec/08 R166). -/
theorem decodeVec_accepts_mask (un : VUnit) {w : Nat} (hw : w < 2 ^ 32) :
    fld w 31 26 = 23 → Accepts (.slot un.slot) w (decodeVec23 un w) := by
  intro op
  simp only [decodeVec23]
  repeat' first | exact accepts_error _ | refine accepts_ite (fun _ => ?_) ?_ | split
  all_goals
    refine accepts_ok rfl ?_
    unfold encode
    simp only [pack, fld, bit_toNat, Fin.val_ofNat, VSrc.ofCode_eq_some,
      Nat.reducePow, Nat.reduceSub, Nat.reduceAdd, Nat.div_one, Nat.mod_mod] at *
    omega

/-- The operations of va alone (spec/08 R173, R174). -/
theorem decodeVec_accepts_va {w : Nat} (hw : w < 2 ^ 32) :
    (fld w 31 26 = 32 → Accepts (.slot .va) w (decodeVec32 .va w)) ∧
    (fld w 31 26 = 33 → Accepts (.slot .va) w (decodeVec33 .va w)) ∧
    (fld w 31 26 = 34 → Accepts (.slot .va) w (decodeVec34 .va w)) ∧
    (fld w 31 26 = 35 → Accepts (.slot .va) w (decodeVec35 .va w)) ∧
    (fld w 31 26 = 36 → Accepts (.slot .va) w (decodeVec36 .va w)) := by
  and_intros <;> intro op
  all_goals simp only [decodeVec32, decodeVec33, decodeVec34, decodeVec35, decodeVec36]
  repeat' first | exact accepts_error _ | refine accepts_ite (fun _ => ?_) ?_ | split
  all_goals
    refine accepts_ok rfl ?_
    unfold encode
    simp only [pack, fld, bit_toNat, Fin.val_ofNat, VDst.ofCode_eq_some, VSrc.ofCode_eq_some,
      VType.ofCode_eq_some, Nat.reducePow, Nat.reduceSub, Nat.reduceAdd, Nat.div_one, Nat.mod_mod] at *
    omega

/-- The operations of vb alone (spec/08 R175). -/
theorem decodeVec_accepts_vb {w : Nat} (hw : w < 2 ^ 32) :
    (fld w 31 26 = 40 → Accepts (.slot .vb) w (decodeVec40 .vb w)) ∧
    (fld w 31 26 = 41 → Accepts (.slot .vb) w (decodeVec41 .vb w)) ∧
    (fld w 31 26 = 42 → Accepts (.slot .vb) w (decodeVec42 .vb w)) ∧
    (fld w 31 26 = 43 → Accepts (.slot .vb) w (decodeVec43 .vb w)) := by
  and_intros <;> intro op
  all_goals simp only [decodeVec40, decodeVec41, decodeVec42, decodeVec43]
  repeat' first | exact accepts_error _ | refine accepts_ite (fun _ => ?_) ?_ | split
  all_goals
    refine accepts_ok rfl ?_
    unfold encode
    simp only [pack, fld, bit_toNat, Fin.val_ofNat, VDst.ofCode_eq_some, VSrc.ofCode_eq_some,
      Nat.reducePow, Nat.reduceSub, Nat.reduceAdd, Nat.div_one, Nat.mod_mod] at *
    omega

/-- The mx slot (spec/09 R182 to R199). -/
theorem decodeMx_accepts {w : Nat} (hw : w < 2 ^ 32) :
    (fld w 31 26 = 1 → Accepts (.slot .mx) w (decodeMx1 w)) ∧
    (fld w 31 26 = 2 → Accepts (.slot .mx) w (decodeMx2 w)) ∧
    (fld w 31 26 = 3 → Accepts (.slot .mx) w (decodeMx3 w)) ∧
    (fld w 31 26 = 4 → Accepts (.slot .mx) w (decodeMx4 w)) ∧
    (fld w 31 26 = 5 → Accepts (.slot .mx) w (decodeMx5 w)) ∧
    (fld w 31 26 = 6 → Accepts (.slot .mx) w (decodeMx6 w)) ∧
    (fld w 31 26 = 7 → Accepts (.slot .mx) w (decodeMx7 w)) ∧
    (fld w 31 26 = 8 → Accepts (.slot .mx) w (decodeMx8 w)) ∧
    (fld w 31 26 = 9 → Accepts (.slot .mx) w (decodeMx9 w)) ∧
    (fld w 31 26 = 10 → Accepts (.slot .mx) w (decodeMx10 w)) ∧
    (fld w 31 26 = 11 → Accepts (.slot .mx) w (decodeMx11 w)) := by
  and_intros <;> intro op
  all_goals simp only [decodeMx1, decodeMx2, decodeMx3, decodeMx4, decodeMx5, decodeMx6, decodeMx7, decodeMx8, decodeMx9,
      decodeMx10, decodeMx11]
  repeat' first | exact accepts_error _ | refine accepts_ite (fun _ => ?_) ?_ | split
  all_goals
    refine accepts_ok rfl ?_
    unfold encode
    simp only [pack, fld, bit_toNat, Fin.val_ofNat, BitVec.toNat_ofNat, MWaitCond.ofCode_eq_some, DrainMode.ofCode_eq_some,
      Nat.reducePow, Nat.reduceSub, Nat.reduceAdd, Nat.div_one, Nat.mod_mod] at *
    omega

/-- Copies and atomics (spec/11 R224 to R229). -/
theorem decodeCopy_accepts_transfer (q : CopyQ) {w : Nat} (hw : w < 2 ^ 32) :
    (fld w 31 26 = 1 → Accepts (.slot q.slot) w (decodeCopy1 q w)) ∧
    (fld w 31 26 = 2 → Accepts (.slot q.slot) w (decodeCopy2 q w)) ∧
    (fld w 31 26 = 3 → Accepts (.slot q.slot) w (decodeCopy3 q w)) ∧
    (fld w 31 26 = 4 → Accepts (.slot q.slot) w (decodeCopy4 q w)) ∧
    (fld w 31 26 = 5 → Accepts (.slot q.slot) w (decodeCopy5 q w)) ∧
    (fld w 31 26 = 6 → Accepts (.slot q.slot) w (decodeCopy6 q w)) ∧
    (fld w 31 26 = 7 → Accepts (.slot q.slot) w (decodeCopy7 q w)) ∧
    (fld w 31 26 = 8 → Accepts (.slot q.slot) w (decodeCopy8 q w)) := by
  and_intros <;> intro op
  all_goals simp only [decodeCopy1, decodeCopy2, decodeCopy3, decodeCopy4, decodeCopy5, decodeCopy6, decodeCopy7, decodeCopy8]
  repeat' first | exact accepts_error _ | refine accepts_ite (fun _ => ?_) ?_ | split
  all_goals
    refine accepts_ok rfl ?_
    unfold encode
    simp only [pack, fld, bit_toNat, Fin.val_ofNat, BitVec.toNat_ofNat, AccOp.ofCode_eq_some, AtomSize.ofCode_eq_some,
      Nat.reducePow, Nat.reduceSub,
      Nat.reduceAdd, Nat.div_one, Nat.mod_mod] at *
    omega

/-- The other commands (spec/11 R225 to R240). -/
theorem decodeCopy_accepts_other (q : CopyQ) {w : Nat} (hw : w < 2 ^ 32) :
    (fld w 31 26 = 9 → Accepts (.slot q.slot) w (decodeCopy9 q w)) ∧
    (fld w 31 26 = 10 → Accepts (.slot q.slot) w (decodeCopy10 q w)) ∧
    (fld w 31 26 = 11 → Accepts (.slot q.slot) w (decodeCopy11 q w)) ∧
    (fld w 31 26 = 12 → Accepts (.slot q.slot) w (decodeCopy12 q w)) ∧
    (fld w 31 26 = 13 → Accepts (.slot q.slot) w (decodeCopy13 q w)) ∧
    (fld w 31 26 = 14 → Accepts (.slot q.slot) w (decodeCopy14 q w)) ∧
    (fld w 31 26 = 15 → Accepts (.slot q.slot) w (decodeCopy15 q w)) := by
  and_intros <;> intro op
  all_goals simp only [decodeCopy9, decodeCopy10, decodeCopy11, decodeCopy12, decodeCopy13, decodeCopy14, decodeCopy15]
  repeat' first | exact accepts_error _ | refine accepts_ite (fun _ => ?_) ?_ | split
  all_goals
    refine accepts_ok rfl ?_
    unfold encode
    simp only [pack, fld, Fin.val_ofNat, BitVec.toNat_ofNat,
      RingDir.ofCode_eq_some, Scope.ofCode_eq_some, CollOp.ofCode_eq_some, CollKind.ofCode_eq_some, Nat.reducePow, Nat.reduceSub,
      Nat.reduceAdd, Nat.div_one, Nat.mod_mod] at *
    omega

/-- Opcodes 1 to 13 of the sys slot (spec/12, spec/13). -/
theorem decodeSys_accepts_task {w : Nat} (hw : w < 2 ^ 32) :
    (fld w 31 26 = 1 → Accepts (.slot .sys) w (decodeSys1 w)) ∧
    (fld w 31 26 = 2 → Accepts (.slot .sys) w (decodeSys2 w)) ∧
    (fld w 31 26 = 3 → Accepts (.slot .sys) w (decodeSys3 w)) ∧
    (fld w 31 26 = 4 → Accepts (.slot .sys) w (decodeSys4 w)) ∧
    (fld w 31 26 = 5 → Accepts (.slot .sys) w (decodeSys5 w)) ∧
    (fld w 31 26 = 6 → Accepts (.slot .sys) w (decodeSys6 w)) ∧
    (fld w 31 26 = 7 → Accepts (.slot .sys) w (decodeSys7 w)) ∧
    (fld w 31 26 = 8 → Accepts (.slot .sys) w (decodeSys8 w)) ∧
    (fld w 31 26 = 9 → Accepts (.slot .sys) w (decodeSys9 w)) ∧
    (fld w 31 26 = 10 → Accepts (.slot .sys) w (decodeSys10 w)) ∧
    (fld w 31 26 = 11 → Accepts (.slot .sys) w (decodeSys11 w)) ∧
    (fld w 31 26 = 12 → Accepts (.slot .sys) w (decodeSys12 w)) ∧
    (fld w 31 26 = 13 → Accepts (.slot .sys) w (decodeSys13 w)) := by
  and_intros <;> intro op
  all_goals simp only [decodeSys1, decodeSys2, decodeSys3, decodeSys4, decodeSys5, decodeSys6, decodeSys7, decodeSys8, decodeSys9,
      decodeSys10, decodeSys11, decodeSys12, decodeSys13]
  repeat' first | exact accepts_error _ | refine accepts_ite (fun _ => ?_) ?_ | split
  all_goals
    refine accepts_ok rfl ?_
    unfold encode
    simp only [pack, fld, Fin.val_ofNat, TItem.ofCode_eq_some, Nat.reducePow,
      Nat.reduceSub, Nat.reduceAdd, Nat.div_one, Nat.mod_mod] at *
    omega

/-- Opcodes 14 to 25 of the sys slot (spec/13 to spec/15). -/
theorem decodeSys_accepts_other {w : Nat} (hw : w < 2 ^ 32) :
    (fld w 31 26 = 14 → Accepts (.slot .sys) w (decodeSys14 w)) ∧
    (fld w 31 26 = 15 → Accepts (.slot .sys) w (decodeSys15 w)) ∧
    (fld w 31 26 = 16 → Accepts (.slot .sys) w (decodeSys16 w)) ∧
    (fld w 31 26 = 17 → Accepts (.slot .sys) w (decodeSys17 w)) ∧
    (fld w 31 26 = 18 → Accepts (.slot .sys) w (decodeSys18 w)) ∧
    (fld w 31 26 = 19 → Accepts (.slot .sys) w (decodeSys19 w)) ∧
    (fld w 31 26 = 20 → Accepts (.slot .sys) w (decodeSys20 w)) ∧
    (fld w 31 26 = 21 → Accepts (.slot .sys) w (decodeSys21 w)) ∧
    (fld w 31 26 = 22 → Accepts (.slot .sys) w (decodeSys22 w)) ∧
    (fld w 31 26 = 23 → Accepts (.slot .sys) w (decodeSys23 w)) ∧
    (fld w 31 26 = 24 → Accepts (.slot .sys) w (decodeSys24 w)) ∧
    (fld w 31 26 = 25 → Accepts (.slot .sys) w (decodeSys25 w)) := by
  and_intros <;> intro op
  all_goals simp only [decodeSys14, decodeSys15, decodeSys16, decodeSys17, decodeSys18, decodeSys19, decodeSys20, decodeSys21,
      decodeSys22, decodeSys23, decodeSys24, decodeSys25]
  repeat' first | exact accepts_error _ | refine accepts_ite (fun _ => ?_) ?_ | split
  all_goals
    refine accepts_ok rfl ?_
    unfold encode
    simp only [pack, fld, Fin.val_ofNat, BitVec.toNat_ofNat, SegRest.ofCode_eq_some, Nat.reducePow,
      Nat.reduceSub, Nat.reduceAdd, Nat.div_one, Nat.mod_mod] at *
    omega

/-- Opcodes 1 to 8 of a micro-word (spec/09 R190). -/
theorem decodeMicro_accepts_first {w : Nat} (hw : w < 2 ^ 64) :
    (fld w 63 58 = 1 → Accepts (.micro) w (decodeMAload w)) ∧
    (fld w 63 58 = 2 → Accepts (.micro) w (decodeMBload w)) ∧
    (fld w 63 58 = 3 → Accepts (.micro) w (decodeMStep w)) ∧
    (fld w 63 58 = 4 → Accepts (.micro) w (decodeMLoop w)) ∧
    (fld w 63 58 = 5 → Accepts (.micro) w (decodeMEndloop w)) ∧
    (fld w 63 58 = 6 → Accepts (.micro) w (decodeMAddp w)) ∧
    (fld w 63 58 = 7 → Accepts (.micro) w (decodeMSetp w)) ∧
    (fld w 63 58 = 8 → Accepts (.micro) w (decodeMJcmp w)) := by
  and_intros <;> intro op
  all_goals simp only [decodeMAload, decodeMBload, decodeMStep, decodeMLoop, decodeMEndloop, decodeMAddp, decodeMSetp, decodeMJcmp]
  repeat' first | exact accepts_error _ | refine accepts_ite (fun _ => ?_) ?_ | split
  all_goals
    refine accepts_ok rfl ?_
    unfold encode
    simp only [pack, fld, bit_toNat, Fin.val_ofNat, BitVec.toNat_ofNat, AddSrc.ofCode_eq_some, SetSrc.ofCode_eq_some,
      MicroCond.ofCode_eq_some, MicroField.ofCode_eq_some, Nat.reducePow, Nat.reduceSub, Nat.reduceAdd,
      Nat.div_one, Nat.mod_mod] at *
    omega

/-- Opcodes 9 to 15 of a micro-word (spec/09 R190). -/
theorem decodeMicro_accepts_second {w : Nat} (hw : w < 2 ^ 64) :
    (fld w 63 58 = 9 → Accepts (.micro) w (decodeMZero w)) ∧
    (fld w 63 58 = 10 → Accepts (.micro) w (decodeMDrain w)) ∧
    (fld w 63 58 = 11 → Accepts (.micro) w (decodeMSeal w)) ∧
    (fld w 63 58 = 12 → Accepts (.micro) w (decodeMShape w)) ∧
    (fld w 63 58 = 13 → Accepts (.micro) w (decodeMFmt w)) ∧
    (fld w 63 58 = 14 → Accepts (.micro) w (decodeMPermit w)) ∧
    (fld w 63 58 = 15 → Accepts (.micro) w (decodeMEnd w)) := by
  and_intros <;> intro op
  all_goals simp only [decodeMZero, decodeMDrain, decodeMSeal, decodeMShape, decodeMFmt, decodeMPermit, decodeMEnd]
  repeat' first | exact accepts_error _ | refine accepts_ite (fun _ => ?_) ?_ | split
  all_goals
    refine accepts_ok rfl ?_
    unfold encode
    simp only [pack, fld, bit_toNat, Fin.val_ofNat, BitVec.toNat_ofNat,
      DrainMode.ofCode_eq_some, Nat.reducePow, Nat.reduceSub, Nat.reduceAdd,
      Nat.div_one, Nat.mod_mod] at *
    omega

/-! ### The decoders of the slots -/

theorem decodeCtl_accepts_all {w : Nat} (hw : w < 2 ^ 32) : Accepts (.slot .ctl) w (decodeCtl w) := by
  have h1 := decodeCtl_accepts_integer hw
  obtain ⟨h2, h3, h4, h5, h6, h7, h8⟩ := decodeCtl_accepts_immediate hw
  obtain ⟨h9, h10, h11, h12, h22⟩ := decodeCtl_accepts_predicate hw
  obtain ⟨h13, h14, h15, h16, h17, h18⟩ := decodeCtl_accepts_transfer hw
  obtain ⟨h19, h20⟩ := decodeCtl_accepts_float hw
  have h21 := decodeCtl_accepts_conversion hw
  obtain ⟨h23, h24, h25, h26, h27⟩ := decodeCtl_accepts_register hw
  unfold decodeCtl
  split
  · refine accepts_ite (fun hzero => accepts_ok rfl hzero.symm) (accepts_error _)
  · exact h1 ‹_›
  · exact h2 ‹_›
  · exact h3 ‹_›
  · exact h4 ‹_›
  · exact h5 ‹_›
  · exact h6 ‹_›
  · exact h7 ‹_›
  · exact h8 ‹_›
  · exact h9 ‹_›
  · exact h10 ‹_›
  · exact h11 ‹_›
  · exact h12 ‹_›
  · exact h13 ‹_›
  · exact h14 ‹_›
  · exact h15 ‹_›
  · exact h16 ‹_›
  · exact h17 ‹_›
  · exact h18 ‹_›
  · exact h19 ‹_›
  · exact h20 ‹_›
  · exact h21 ‹_›
  · exact h22 ‹_›
  · exact h23 ‹_›
  · exact h24 ‹_›
  · exact h25 ‹_›
  · exact h26 ‹_›
  · exact h27 ‹_›
  · exact accepts_error _

theorem decodeMem_accepts_all {w : Nat} (hw : w < 2 ^ 32) : Accepts (.slot .mem) w (decodeMem w) := by
  obtain ⟨h1, h2, h3, h4, h5, h6, h7⟩ := decodeMem_accepts_access hw
  obtain ⟨h8, h9, h10, h11, h12⟩ := decodeMem_accepts_other hw
  unfold decodeMem
  split
  · refine accepts_ite (fun hzero => accepts_ok rfl hzero.symm) (accepts_error _)
  · exact h1 ‹_›
  · exact h2 ‹_›
  · exact h3 ‹_›
  · exact h4 ‹_›
  · exact h5 ‹_›
  · exact h6 ‹_›
  · exact h7 ‹_›
  · exact h8 ‹_›
  · exact h9 ‹_›
  · exact h10 ‹_›
  · exact h11 ‹_›
  · exact h12 ‹_›
  · exact accepts_error _

theorem decodeVec_accepts_all (un : VUnit) {w : Nat} (hw : w < 2 ^ 32) : Accepts (.slot un.slot) w (decodeVec un w) := by
  obtain ⟨h1, h2, h3, h4, h5, h6, h7, h8, h9⟩ := decodeVec_accepts_arithmetic un hw
  obtain ⟨h10, h11, h12, h13, h14, h15, h16, h17, h18⟩ := decodeVec_accepts_logic un hw
  obtain ⟨h19, h20, h21, h22, h24⟩ := decodeVec_accepts_format un hw
  have h23 := decodeVec_accepts_mask un hw
  obtain ⟨h32, h33, h34, h35, h36⟩ := decodeVec_accepts_va hw
  obtain ⟨h40, h41, h42, h43⟩ := decodeVec_accepts_vb hw
  unfold decodeVec
  split
  · refine accepts_ite (fun hzero => accepts_ok rfl hzero.symm) (accepts_error _)
  · exact h1 ‹_›
  · exact h2 ‹_›
  · exact h3 ‹_›
  · exact h4 ‹_›
  · exact h5 ‹_›
  · exact h6 ‹_›
  · exact h7 ‹_›
  · exact h8 ‹_›
  · exact h9 ‹_›
  · exact h10 ‹_›
  · exact h11 ‹_›
  · exact h12 ‹_›
  · exact h13 ‹_›
  · exact h14 ‹_›
  · exact h15 ‹_›
  · exact h16 ‹_›
  · exact h17 ‹_›
  · exact h18 ‹_›
  · exact h19 ‹_›
  · exact h20 ‹_›
  · exact h21 ‹_›
  · exact h22 ‹_›
  · exact h23 ‹_›
  · exact h24 ‹_›
  · exact accepts_ite (fun hu => hu ▸ h32 ‹_›) (accepts_error _)
  · exact accepts_ite (fun hu => hu ▸ h33 ‹_›) (accepts_error _)
  · exact accepts_ite (fun hu => hu ▸ h34 ‹_›) (accepts_error _)
  · exact accepts_ite (fun hu => hu ▸ h35 ‹_›) (accepts_error _)
  · exact accepts_ite (fun hu => hu ▸ h36 ‹_›) (accepts_error _)
  · exact accepts_ite (fun hu => hu ▸ h40 ‹_›) (accepts_error _)
  · exact accepts_ite (fun hu => hu ▸ h41 ‹_›) (accepts_error _)
  · exact accepts_ite (fun hu => hu ▸ h42 ‹_›) (accepts_error _)
  · exact accepts_ite (fun hu => hu ▸ h43 ‹_›) (accepts_error _)
  · exact accepts_error _

theorem decodeMx_accepts_all {w : Nat} (hw : w < 2 ^ 32) : Accepts (.slot .mx) w (decodeMx w) := by
  obtain ⟨h1, h2, h3, h4, h5, h6, h7, h8, h9, h10, h11⟩ := decodeMx_accepts hw
  unfold decodeMx
  split
  · refine accepts_ite (fun hzero => accepts_ok rfl hzero.symm) (accepts_error _)
  · exact h1 ‹_›
  · exact h2 ‹_›
  · exact h3 ‹_›
  · exact h4 ‹_›
  · exact h5 ‹_›
  · exact h6 ‹_›
  · exact h7 ‹_›
  · exact h8 ‹_›
  · exact h9 ‹_›
  · exact h10 ‹_›
  · exact h11 ‹_›
  · exact accepts_error _

theorem decodeCopy_accepts_all (q : CopyQ) {w : Nat} (hw : w < 2 ^ 32) : Accepts (.slot q.slot) w (decodeCopy q w) := by
  obtain ⟨h1, h2, h3, h4, h5, h6, h7, h8⟩ := decodeCopy_accepts_transfer q hw
  obtain ⟨h9, h10, h11, h12, h13, h14, h15⟩ := decodeCopy_accepts_other q hw
  unfold decodeCopy
  split
  · refine accepts_ite (fun hzero => accepts_ok rfl hzero.symm) (accepts_error _)
  · exact h1 ‹_›
  · exact h2 ‹_›
  · exact h3 ‹_›
  · exact h4 ‹_›
  · exact h5 ‹_›
  · exact h6 ‹_›
  · exact h7 ‹_›
  · exact h8 ‹_›
  · exact h9 ‹_›
  · exact h10 ‹_›
  · exact h11 ‹_›
  · exact h12 ‹_›
  · exact h13 ‹_›
  · exact h14 ‹_›
  · exact h15 ‹_›
  · exact accepts_error _

theorem decodeSys_accepts_all {w : Nat} (hw : w < 2 ^ 32) : Accepts (.slot .sys) w (decodeSys w) := by
  obtain ⟨h1, h2, h3, h4, h5, h6, h7, h8, h9, h10, h11, h12, h13⟩ := decodeSys_accepts_task hw
  obtain ⟨h14, h15, h16, h17, h18, h19, h20, h21, h22, h23, h24, h25⟩ := decodeSys_accepts_other hw
  unfold decodeSys
  split
  · refine accepts_ite (fun hzero => accepts_ok rfl hzero.symm) (accepts_error _)
  · exact h1 ‹_›
  · exact h2 ‹_›
  · exact h3 ‹_›
  · exact h4 ‹_›
  · exact h5 ‹_›
  · exact h6 ‹_›
  · exact h7 ‹_›
  · exact h8 ‹_›
  · exact h9 ‹_›
  · exact h10 ‹_›
  · exact h11 ‹_›
  · exact h12 ‹_›
  · exact h13 ‹_›
  · exact h14 ‹_›
  · exact h15 ‹_›
  · exact h16 ‹_›
  · exact h17 ‹_›
  · exact h18 ‹_›
  · exact h19 ‹_›
  · exact h20 ‹_›
  · exact h21 ‹_›
  · exact h22 ‹_›
  · exact h23 ‹_›
  · exact h24 ‹_›
  · exact h25 ‹_›
  · exact accepts_error _

theorem decodeMicro_accepts_all {w : Nat} (hw : w < 2 ^ 64) : Accepts (.micro) w (decodeMicro w) := by
  obtain ⟨h1, h2, h3, h4, h5, h6, h7, h8⟩ := decodeMicro_accepts_first hw
  obtain ⟨h9, h10, h11, h12, h13, h14, h15⟩ := decodeMicro_accepts_second hw
  unfold decodeMicro
  split
  · exact h1 ‹_›
  · exact h2 ‹_›
  · exact h3 ‹_›
  · exact h4 ‹_›
  · exact h5 ‹_›
  · exact h6 ‹_›
  · exact h7 ‹_›
  · exact h8 ‹_›
  · exact h9 ‹_›
  · exact h10 ‹_›
  · exact h11 ‹_›
  · exact h12 ‹_›
  · exact h13 ‹_›
  · exact h14 ‹_›
  · exact h15 ‹_›
  · exact accepts_error _

theorem decodeRaw_accepts (sl : Slot) {w : Nat} (hw : w < 2 ^ 32) : Accepts (.slot sl) w (decodeRaw sl w) := by
  cases sl with
  | ctl => exact decodeCtl_accepts_all hw
  | mem => exact decodeMem_accepts_all hw
  | va => exact decodeVec_accepts_all .va hw
  | vb => exact decodeVec_accepts_all .vb hw
  | mx => exact decodeMx_accepts_all hw
  | ca => exact decodeCopy_accepts_all .ca hw
  | cb => exact decodeCopy_accepts_all .cb hw
  | sys => exact decodeSys_accepts_all hw

theorem decodeSlot_ok_iff {sl : Slot} {w : Nat} {i : Instr} :
    decodeSlot sl w = .ok i ↔ decodeRaw sl w = .ok i ∧ i.wf = true := by
  unfold decodeSlot
  split
  next j hj =>
    constructor
    · intro h
      split at h <;> cases h
      exact ⟨hj, ‹_›⟩
    · rintro ⟨h, hwf⟩
      obtain rfl : j = i := by simpa [hj] using h
      rw [if_pos hwf]
  next e he => simp [he]

theorem decodeMAddp_wf {w : Nat} {i : Instr} (h : decodeMAddp w = .ok i) : i.wf = true := by
  unfold decodeMAddp at h
  split at h
  next hword =>
    split at h <;> cases h
    next x hx =>
      have himm : x = .wp → fld w 47 0 = 0 := fun hwp => hword (by rw [← AddSrc.code_of_ofCode hx, hwp]; rfl)
      cases x with
      | wp => simp [Instr.wf, himm rfl]
      | _ => rfl
  next => cases h

/-- Of the micro-operations only m.addp has an operand rule, which its decoder checks. -/
theorem decodeMicro_wf {w : Nat} {i : Instr} (h : decodeMicro w = .ok i) : i.wf = true := by
  have haddp := decodeMAddp_wf (w := w) (i := i)
  simp only [decodeMicro, decodeMAload, decodeMBload, decodeMStep, decodeMLoop, decodeMEndloop, decodeMSetp, decodeMJcmp, decodeMZero,
    decodeMDrain, decodeMSeal, decodeMShape, decodeMFmt, decodeMPermit, decodeMEnd] at h
  split at h
  case h_6 => exact haddp h
  all_goals
    repeat' split at h
    all_goals cases h
  all_goals rfl

/-- Settles O57: what a decoder reads has the word that was read (`decodeRaw_accepts`, `decodeMicro_accepts_all`), field by field. -/
theorem wordsHaveOneReading : Obligations.WordsHaveOneReading := by
  refine ⟨fun sl w i hw h => ?slot, fun w i hw h => ?micro⟩
  case slot =>
    obtain ⟨hraw, hwf⟩ := decodeSlot_ok_iff.mp h
    exact ⟨hwf, decodeRaw_accepts sl hw i hraw⟩
  case micro => exact ⟨decodeMicro_wf h, decodeMicro_accepts_all hw i h⟩

end Sys2Proof
end

section
/-!
LEMMAS. Micro-operations and the two paths of a tile (spec/10 R202 to R205). What a micro-operation does to a tile it does to both paths.
-/

namespace Sys2Proof.Machine

/-- Both paths of a tile agree: elements, folds, codes, and what a pending seal compares. -/
def TileState.agrees (x : TileState) : Prop :=
  x.p = x.q ∧ x.fp = x.fq ∧ x.cd = false ∧ ∀ ps, x.pending = some ps → sealMatch ps = true

theorem pathsAgree_iff {a : Arch} : a.pathsAgree ↔ ∀ t : TileNo, (a.tiles[t]).agrees := Iff.rfl

/-! ### Tiles -/

theorem TileState.agrees.putRow {x : TileState} (h : x.agrees) (r : Nat) (v : Vec) : (x.putRow r v v).agrees := by
  obtain ⟨hp, hf, hc, hs⟩ := h
  exact ⟨congrArg (tblPut · r v) hp, hf, hc, hs⟩

theorem TileState.agrees.openPeriod {x : TileState} (h : x.agrees) : x.openPeriod.agrees := by
  unfold TileState.openPeriod
  split
  · exact h
  · exact h

theorem TileState.agrees.sealDrained {x : TileState} (h : x.agrees) (spc : Word) : (x.sealDrained spc).agrees := by
  obtain ⟨hp, hf, hc, -⟩ := h
  refine ⟨hp, rfl, rfl, ?_⟩
  rintro _ ⟨⟩
  simp [sealMatch, hf, hc]

theorem TileState.agrees.sealUndrained {x : TileState} (h : x.agrees) (spc : Word) : (x.sealUndrained spc).agrees := by
  obtain ⟨hp, hf, hc, -⟩ := h
  refine ⟨hp, hf, hc, ?_⟩
  rintro _ ⟨⟩
  simp [sealMatch]

/-! ### The operations of the engine -/

variable {s : State}

theorem pathsAgree_onTile {t : TileNo} {f : TileState → TileState} (h : s.core.a.pathsAgree)
    (hf : ∀ x : TileState, x.agrees → (f x).agrees) : (s.onTile t f).core.a.pathsAgree := by
  rw [pathsAgree_iff] at h ⊢
  intro u
  show ((s.core.a.tiles.set t (f s.core.a.tiles[t]))[u]).agrees
  by_cases e : t = u
  · subst e
    simpa using hf _ (h t)
  · simpa [Vector.getElem_set_ne _ _ (fun hv => e (Fin.ext hv))] using h u

theorem pathsAgree_ite {c : Prop} [Decidable c] {t u : State} (ht : t.core.a.pathsAgree) (hu : u.core.a.pathsAgree) :
    (if c then t else u).core.a.pathsAgree := by
  split
  · exact ht
  · exact hu

/-- What changes no tile keeps the paths as they were. -/
theorem pathsAgree_modA {f : Arch → Arch} (h : s.core.a.pathsAgree) (hf : ∀ a, (f a).tiles = a.tiles) :
    (s.modA f).core.a.pathsAgree := by
  intro t
  rw [modA_core, hf]
  exact h t

theorem pathsAgree_micro (h : s.core.a.pathsAgree) (f : Routine → Routine) : (s.micro f).core.a.pathsAgree := h

theorem pathsAgree_engFault (h : s.core.a.pathsAgree) (c : Cause) (x : Word) : (s.engFault c x).core.a.pathsAgree := h

theorem pathsAgree_microIllegal (h : s.core.a.pathsAgree) : s.microIllegal.core.a.pathsAgree := by
  unfold State.microIllegal
  split
  · exact h
  · exact h

theorem pathsAgree_withRoutine {f : Routine → State → State} (h : s.core.a.pathsAgree)
    (hf : ∀ r, s.core.a.routine = some r → (f r s).core.a.pathsAgree) : (s.withRoutine f).core.a.pathsAgree := by
  unfold State.withRoutine
  split
  · exact hf _ ‹_›
  · exact h

theorem pathsAgree_stepRows (h : s.core.a.pathsAgree) (t : TileNo) (sh : Shape) (acc tr : Bool) (a b : Operand) (from_ upto : Nat) :
    (s.stepRows t sh acc tr a b from_ upto).core.a.pathsAgree := by
  unfold State.stepRows
  refine List.foldlRecOn (motive := fun u : State => u.core.a.pathsAgree) _ _ h fun u hu i _ => pathsAgree_onTile hu fun x hx => ?_
  simpa only [hx.1, ite_self] using hx.putRow _ _

theorem pathsAgree_mxStep (h : s.core.a.pathsAgree) (acc tr : Bool) (i : Nat) (next : Routine → Routine) :
    (s.mxStep acc tr i next).core.a.pathsAgree := by
  unfold State.mxStep
  split
  · exact h
  · split
    · split
      · exact h
      · split
        · exact h
        · dsimp only
          split
          · exact h
          · split
            · split
              · exact pathsAgree_modA (pathsAgree_modA (pathsAgree_stepRows h _ _ _ _ _ _ _ _) fun _ => rfl) fun _ => rfl
              · exact h
            · exact pathsAgree_modA (pathsAgree_modA (pathsAgree_stepRows h _ _ _ _ _ _ _ _) fun _ => rfl) fun _ => rfl
    · exact h

theorem pathsAgree_startSeal (h : s.core.a.pathsAgree) (t : TileNo) (spc : Word) : (s.startSeal t spc).core.a.pathsAgree := by
  unfold State.startSeal
  dsimp only
  split
  · exact h
  · split
    · exact pathsAgree_onTile h fun _ hx => hx.sealDrained spc
    · exact pathsAgree_onTile h fun _ hx => hx.sealUndrained spc

theorem pathsAgree_drainOpen (h : s.core.a.pathsAgree) (nw : Bool) : (s.drainOpen nw).2.core.a.pathsAgree := by
  cases nw <;> exact h

theorem pathsAgree_startDrain (h : s.core.a.pathsAgree) (t : TileNo) (addr geo tag : Word) (z nw : Bool) (mode : DrainMode) (sl fl : Bool)
    (spc : Word) : (s.startDrain t addr geo tag z nw mode sl fl spc).core.a.pathsAgree := by
  unfold State.startDrain
  split
  · exact h
  · exact pathsAgree_onTile (s := s.newId.2) h fun _ hx => hx.openPeriod

theorem pathsAgree_onCluster (h : s.core.a.pathsAgree) (n : Nat) (f : Cluster → Cluster) : (s.onCluster n f).core.a.pathsAgree := by
  unfold State.onCluster
  split
  · exact h
  · exact h

theorem pathsAgree_requestTokens (h : s.core.a.pathsAgree) (n : Nat) (dst : Option Reg) : (s.requestTokens n dst).core.a.pathsAgree :=
  pathsAgree_onCluster h _ _

theorem pathsAgree_mZero (h : s.core.a.pathsAgree) {tr : Bool} {t : State} (he : execMZero tr s = .next t) : t.core.a.pathsAgree := by
  cases he
  refine pathsAgree_withRoutine h fun r _ => ?_
  split
  · exact h
  · refine pathsAgree_ite h ?_
    obtain ⟨first, n⟩ := regionRows _ tr
    refine pathsAgree_micro ?_ id
    refine List.foldlRecOn (motive := fun u : State => u.core.a.pathsAgree) _ _ h fun u hu i _ => pathsAgree_onTile hu fun x hx => ?_
    rw [hx.1]
    exact hx.putRow _ _

theorem pathsAgree_mDrain (h : s.core.a.pathsAgree) {p g q : ParamReg} {z nw : Bool} {mode : DrainMode} {sl : Bool} {t : State}
    (he : execMDrain p g q z nw mode sl s = .next t) : t.core.a.pathsAgree := by
  cases he
  refine pathsAgree_withRoutine h fun _ _ => ?_
  dsimp only
  split
  · exact pathsAgree_drainOpen h _
  · exact pathsAgree_startDrain (s := s.onRoutine Routine.advance) h _ _ _ _ _ _ _ _ _ _

/-- Settles O22: the engine writes a tile in both paths alike, and a seal starts with what the paths folded (`pathsAgree_onTile`). -/
theorem microOperationsKeepPathsAgreeing : Obligations.MicroOperationsKeepPathsAgreeing := by
  unfold Obligations.MicroOperationsKeepPathsAgreeing
  intro i s t hi h he
  cases i <;> cases hi <;> cases he
  case mAload | mBload | mAddp | mSetp | mFmt =>
    exact pathsAgree_withRoutine h fun _ _ => h
  case mStep acc tr =>
    exact pathsAgree_withRoutine h fun _ _ => pathsAgree_mxStep h _ _ _ _
  case mLoop l n =>
    exact pathsAgree_withRoutine h fun _ _ => pathsAgree_ite (pathsAgree_microIllegal h) h
  case mEndloop l =>
    exact pathsAgree_withRoutine h fun _ _ => pathsAgree_ite (pathsAgree_microIllegal h) (pathsAgree_ite h h)
  case mJcmp p q c f j =>
    exact pathsAgree_withRoutine h fun _ _ => pathsAgree_ite h h
  case mZero tr => exact pathsAgree_mZero h rfl
  case mDrain => exact pathsAgree_mDrain h rfl
  case mSeal =>
    exact pathsAgree_withRoutine h fun _ _ => pathsAgree_startSeal (s := s.onRoutine Routine.advance) h _ _
  case mShape =>
    refine pathsAgree_withRoutine h fun _ _ => ?_
    split
    · exact h
    · exact h
  case mPermit n =>
    refine pathsAgree_withRoutine h fun _ _ => pathsAgree_ite h ?_
    refine pathsAgree_requestTokens ?_ _ _
    exact h
  case mEnd =>
    exact pathsAgree_withRoutine h fun _ _ => h

end Sys2Proof.Machine
end

section
/-!
LEMMAS. The canonical form of device and host memory and of its tags. One lemma for each operation of the state, in the order of the model, as
for FRAME: an operation that writes no memory leaves the form as it was, an equation; one that may write keeps a form that holds. Memory is
written by `State.writePhys` and by the copy of a frame, and filtered by a restart; the rest is composition.
-/

namespace Sys2Proof.Machine

/-- The form looks at memory and its tags alone. -/
@[simp] theorem memOk_mk (core : Core) (others : Tbl Core) (frame : BitVec 64) (timeBase : Bool) (epoch : Nat) (epoch0 : Bool) (boot : Boot)
    (ready nosch nossv takeSch takeSup : Bool) (fusedStacks : List Nat) (selfCheck : List (Nat × Bool)) (memStacks : List Nat)
    (homes : Tbl Nat) (clusters : Vector Cluster 32) (heat melt : Nat) (rf : Bool) (mem : List (Nat × Byte)) (memTags : List (Nat × Word))
    (dies : Vector Die 8) (ctxs : List Context) (updates : List Update) (streams : List Stream) (launches : List Launch) (nlaunch : Nat)
    (tasks : List Task) (gangs : List Gang) (decs : List Decrement) (atomTabs : List Dedup) (hostLog : Log HostRec) (msix : List (Nat × Nat))
    (mail : List MailResp) (fwAnswers : List (Nat × Nat)) (apsize : Tbl Nat) (apbase vbase : Tbl Word) (hostRead : HostRead)
    (captures : List CaptureSt) (heldRecs : List Completion) (bitmap : List Nat) (wearPages : List WearPage) (resources : List ResourceReq)
    (resync : Option Resync) (agenda : List (Instr × Input)) (input : Input) (free rot : Nat) :
    State.memOk ⟨core, others, frame, timeBase, epoch, epoch0, boot, ready, nosch, nossv, takeSch, takeSup, fusedStacks, selfCheck, memStacks,
      homes, clusters, heat, melt, rf, mem, memTags, dies, ctxs, updates, streams, launches, nlaunch, tasks, gangs, decs, atomTabs, hostLog,
      msix, mail, fwAnswers, apsize, apbase, vbase, hostRead, captures, heldRecs, bitmap, wearPages, resources, resync, agenda, input, free,
      rot⟩ = (Memory.wf mem && Memory.tagsWf memTags) := rfl

@[simp] theorem memory_form (s : State) : (Memory.wf s.mem && Memory.tagsWf s.memTags) = s.memOk := rfl

theorem memOk_iff {s : State} : s.memOk = true ↔ Memory.wf s.mem = true ∧ Memory.tagsWf s.memTags = true := by
  rw [State.memOk, Bool.and_eq_true]

theorem memOk_of_eq {s t : State} (hm : t.mem = s.mem) (ht : t.memTags = s.memTags) : t.memOk = s.memOk := by
  rw [State.memOk, State.memOk, hm, ht]

@[simp] theorem modCore_memOk (f : Core → Core) (s : State) : (s.modCore f).memOk = s.memOk := rfl

@[simp] theorem modA_memOk (f : Arch → Arch) (s : State) : (s.modA f).memOk = s.memOk := rfl

@[simp] theorem onCtx_memOk (n : Nat) (f : Context → Context) (s : State) : (s.onCtx n f).memOk = s.memOk := rfl

@[simp] theorem foldl_memOk {α : Type} {f : State → α → State} (hf : ∀ s x, (f s x).memOk = s.memOk) (l : List α) (s : State) :
    (l.foldl f s).memOk = s.memOk :=
  foldl_preserves State.memOk hf l s

/-- A fold whose every step keeps a form that holds keeps it. -/
theorem foldl_keeps_memOk {α : Type} {f : State → α → State} (hf : ∀ s x, s.memOk = true → (f s x).memOk = true) (l : List α) {s : State}
    (h : s.memOk = true) : (l.foldl f s).memOk = true := by
  induction l generalizing s with
  | nil => exact h
  | cons x rest ih => exact ih (hf s x h)

/-- An outcome that is a next state has memory in canonical form. -/
def nextMem (o : Out) : Prop := ∀ t, o = .next t → t.memOk = true

theorem nextMem_next {t : State} (h : t.memOk = true) : nextMem (.next t) := by
  rintro u ⟨⟩
  exact h

@[simp] theorem nextMem_next_iff (t : State) : nextMem (.next t) ↔ t.memOk = true := ⟨fun h => h t rfl, nextMem_next⟩

/-- A computation that can fail has memory in canonical form where it does not. -/
def okMem {ε : Type} (r : Except ε State) : Prop := ∀ t, r = .ok t → t.memOk = true

@[simp] theorem okMem_error {ε : Type} (e : ε) : okMem (.error e) := by
  rintro t ⟨⟩

@[simp] theorem okMem_ok {ε : Type} (t : State) : okMem (.ok t : Except ε State) ↔ t.memOk = true := by
  simp [okMem]

theorem keeps_memOk {s t : State} (h : s.keeps t) : t.memOk = s.memOk := by
  obtain ⟨hmem, htags, -⟩ := h
  exact memOk_of_eq hmem htags

/-- A computation that may give no state has memory in canonical form where it gives one. -/
def someMem (r : Option State) : Prop := ∀ t, r = some t → t.memOk = true

@[simp] theorem someMem_none : someMem none := by
  rintro t ⟨⟩

@[simp] theorem someMem_some (t : State) : someMem (some t) ↔ t.memOk = true := by
  simp [someMem]

/-! ### Cores, dies, memory and its cache -/

@[simp] theorem focus_memOk (c : Nat) (s : State) : (s.focus c).memOk = s.memOk := by
  unfold State.focus
  split <;> simp

@[simp] theorem onCore_memOk (c : Nat) (f : Core → Core) (s : State) : (s.onCore c f).memOk = s.memOk := by
  unfold State.onCore
  split <;> simp

@[simp] theorem onDie_memOk (d : Nat) (f : Die → Die) (s : State) : (s.onDie d f).memOk = s.memOk := by
  unfold State.onDie
  split <;> simp

@[simp] theorem onCluster_memOk (n : Nat) (f : Cluster → Cluster) (s : State) : (s.onCluster n f).memOk = s.memOk :=
  keeps_memOk (keeps_onCluster n f s)

@[simp] theorem cacheFill_memOk (s : State) (d pa : Nat) (uo : Bool) : (s.cacheFill d pa uo).memOk = s.memOk := by
  simp [State.cacheFill]

@[simp] theorem cacheDrop_memOk (s : State) (d pa : Nat) : (s.cacheDrop d pa).memOk = s.memOk := by
  simp [State.cacheDrop]

@[simp] theorem cacheWrite_memOk (s : State) (d : Nat) (bs : List (Nat × Byte)) (ts : List (Nat × Word)) :
    (s.cacheWrite d bs ts).memOk = s.memOk := by
  simp [State.cacheWrite]

@[simp] theorem writePhys_memOk {s : State} (h : s.memOk = true) (bs : List (Nat × Byte)) (ts : List (Nat × Word)) :
    (s.writePhys bs ts).memOk = true := by
  obtain ⟨hmem, htags⟩ := memOk_iff.mp h
  exact memOk_iff.mpr (writePhys_wf bs ts s hmem htags)

@[simp] theorem landWrite_memOk (r : MemReq) (gone : List Nat) {s : State} (h : s.memOk = true) : (s.landWrite r gone).memOk = true := by
  simp [h, State.landWrite]

@[simp] theorem writeVa_memOk {s : State} (h : s.memOk = true) (d ctx va n x : Nat) : (s.writeVa d ctx va n x).memOk = true := by
  unfold State.writeVa
  split <;> simp [h]

/-! ### Launches and queues -/

@[simp] theorem onTask_memOk (ctx : Nat) (tcb : Word) (f : Task → Task) (s : State) : (s.onTask ctx tcb f).memOk = s.memOk := by
  simp [State.onTask]

@[simp] theorem onStream_memOk (n : Nat) (f : Stream → Stream) (s : State) : (s.onStream n f).memOk = s.memOk := by
  simp [State.onStream]

@[simp] theorem setTask_memOk (ctx : Nat) (tcb : Word) (st : TState) {s : State} (h : s.memOk = true) :
    (s.setTask ctx tcb st).memOk = true := by
  simp [h, State.setTask]

@[simp] theorem setStatus_memOk (ctx : Nat) (tcb : Word) (code cause : Nat) {s : State} (h : s.memOk = true) :
    (s.setStatus ctx tcb code cause).memOk = true := by
  simp [h, State.setStatus]

@[simp] theorem logEvent_memOk (ctx type : Nat) (tcb x : Word) (s : State) : (s.logEvent ctx type tcb x).memOk = s.memOk := by
  simp [State.logEvent]

@[simp] theorem logHost_memOk (type : Nat) (die fn addr : Option Nat) (s : State) : (s.logHost type die fn addr).memOk = s.memOk := by
  simp [State.logHost]

@[simp] theorem onTaskArch_memOk (ctx : Nat) (key : Word) (f : Arch → Arch) (s : State) : (s.onTaskArch ctx key f).memOk = s.memOk := by
  simp [State.onTaskArch]

@[simp] theorem onGang_memOk (ctx : Nat) (va : Word) (f : Gang → Gang) (s : State) : (s.onGang ctx va f).memOk = s.memOk := by
  simp [State.onGang]

@[simp] theorem acquireOn_memOk (core : Nat) (s : State) : (s.acquireOn core).memOk = s.memOk := by
  simp [State.acquireOn]

@[simp] theorem acquire_memOk (sc : Scope) (s : State) : (s.acquire sc).memOk = s.memOk := by
  unfold State.acquire
  split <;> simp

@[simp] theorem acquireFor_memOk (ctx : Nat) (key : Word) (s : State) : (s.acquireFor ctx key).memOk = s.memOk := by
  unfold State.acquireFor
  split <;> simp

@[simp] theorem gangFill_memOk (ctx : Nat) (key : Word) (op x : Nat) (acq : Bool) (s : State) :
    (s.gangFill ctx key op x acq).memOk = s.memOk := by
  unfold State.gangFill
  split <;> simp

@[simp] theorem gangComplete_memOk (ctx : Nat) (va : Word) (s : State) : (s.gangComplete ctx va).memOk = s.memOk := by
  unfold State.gangComplete
  dsimp only
  repeat' split
  all_goals simp

@[simp] theorem leaveGangs_memOk (a : Arch) (s : State) : (s.leaveGangs a).memOk = s.memOk := by
  simp [State.leaveGangs]

@[simp] theorem leaveCluster_memOk (s : State) : s.leaveCluster.memOk = s.memOk := by
  simp [State.leaveCluster]

@[simp] theorem finishSlot7_memOk (s : State) : s.finishSlot7.memOk = s.memOk := by
  simp [State.finishSlot7]

@[simp] theorem acquireDue_memOk (s : State) : s.acquireDue.memOk = s.memOk := by
  unfold State.acquireDue
  split <;> simp

@[simp] theorem putBack_memOk (f : Frame) (s : State) : (s.putBack f).memOk = s.memOk := by
  simp [State.putBack]

@[simp] theorem popInline_memOk (s : State) : s.popInline.memOk = s.memOk := by
  unfold State.popInline
  split <;> simp

@[simp] theorem leaveInline_memOk (t : Word) (n : Nat) {s : State} (h : s.memOk = true) : (s.leaveInline t n).memOk = true := by
  induction n generalizing t s with
  | zero => exact h
  | succ n ih =>
    unfold State.leaveInline
    repeat' split
    all_goals simp [h, ih]

@[simp] theorem dropTask_memOk (s : State) : s.dropTask.memOk = s.memOk := by
  simp [State.dropTask]

@[simp] theorem clearCores_memOk (p : Nat → Word → Bool) (s : State) : (s.clearCores p).memOk = s.memOk := by
  simp [State.clearCores, apply_ite State.memOk]

@[simp] theorem clearImages_memOk (p : Nat → Word → Bool) (s : State) : (s.clearImages p).memOk = s.memOk := by
  simp [State.clearImages]

@[simp] theorem dropQueued_memOk (p : Nat → Word → Bool) (s : State) : (s.dropQueued p).memOk = s.memOk := by
  simp [State.dropQueued]

@[simp] theorem writeRecord_memOk (c : Completion) {s : State} (h : s.memOk = true) : (s.writeRecord c).memOk = true := by
  unfold State.writeRecord
  split <;> simp [h]

@[simp] theorem completeLaunch_memOk (l : Launch) (status cause : Nat) (ftcb tpc tval : Word) (pc : Nat) {s : State} (h : s.memOk = true) :
    (s.completeLaunch l status cause ftcb tpc tval pc).memOk = true := by
  simp [h, State.completeLaunch, apply_ite State.memOk]

@[simp] theorem askFor_memOk (kind ctx : Nat) (tcb : Word) (s : State) : (s.askFor kind ctx tcb).memOk = s.memOk := by
  unfold State.askFor
  split <;> simp

@[simp] theorem excess_memOk (q : QueueRef) (e : QEntry) (s : State) : (s.excess q e).memOk = s.memOk := by
  simp [State.excess]

@[simp] theorem enqueueDie_memOk (d ctx : Nat) (tcb : Word) (seq : Option Nat) (s : State) :
    (s.enqueueDie d ctx tcb seq).memOk = s.memOk := by
  simp [State.enqueueDie, apply_ite State.memOk]

@[simp] theorem enqueueCore_memOk (c ctx : Nat) (tcb : Word) (s : State) : (s.enqueueCore c ctx tcb).memOk = s.memOk := by
  unfold State.enqueueCore
  dsimp only
  repeat' split
  all_goals simp

@[simp] theorem enqueue_memOk (q : QueueRef) (ctx : Nat) (tcb : Word) {s : State} (h : s.memOk = true) :
    (s.enqueue q ctx tcb).memOk = true := by
  unfold State.enqueue
  dsimp only
  repeat' split
  all_goals simp [h]

@[simp] theorem readyPinned_memOk (ctx : Nat) (tcb : Word) {s : State} (h : s.memOk = true) : (s.readyPinned ctx tcb).memOk = true := by
  unfold State.readyPinned
  repeat' split
  all_goals simp [h]

@[simp] theorem childEnded_memOk (ctx : Nat) (tcb : Word) {s : State} (h : s.memOk = true) : (s.childEnded ctx tcb).memOk = true :=
  foldl_keeps_memOk (fun _ t h => readyPinned_memOk t.ctx t.tcb h) _ h

@[simp] theorem landOut_memOk (ctx : Nat) (mine : CopyCmd → Bool) (d : Nat) {s : State} (h : s.memOk = true) :
    (s.landOut ctx mine d).memOk = true := by
  unfold State.landOut
  rw [foldl_memOk fun _ _ => onCore_memOk ..]
  exact foldl_keeps_memOk (fun s r h => landWrite_memOk r (s.poisonedBy r) h) _ h

/-- A task of an ended launch leaves its gangs and is cancelled. -/
theorem cancelled_memOk {s : State} (h : s.memOk = true) (t : Task) :
    (((match t.saved with
      | some f => s.leaveGangs f.a
      | none => s).setTask t.ctx t.tcb .cancelled)).memOk = true := by
  split <;> simp [h]

@[simp] theorem endLaunch_memOk (n status cause code : Nat) (ftcb tpc tval : Word) (pc : Nat) {s : State} (h : s.memOk = true) :
    (s.endLaunch n status cause code ftcb tpc tval pc).memOk = true := by
  unfold State.endLaunch
  split
  · exact h
  · refine completeLaunch_memOk _ _ _ _ _ _ _ (foldl_keeps_memOk (fun _ t h => childEnded_memOk t.ctx t.tcb h) _ ?_)
    simp only [memOk_mk, memory_form, dropQueued_memOk, clearImages_memOk, clearCores_memOk]
    refine foldl_keeps_memOk (fun _ d h => landOut_memOk _ _ d h) _ (foldl_keeps_memOk (fun s t h => ?_) _ h)
    split
    · exact setStatus_memOk _ _ _ _ (cancelled_memOk h t)
    · exact setStatus_memOk _ _ _ _ (cancelled_memOk h t)

@[simp] theorem hardwareError_memOk (cause : Cause) (tpc tval : Word) {s : State} (h : s.memOk = true) :
    (s.hardwareError cause tpc tval).memOk = true := by
  unfold State.hardwareError
  dsimp only
  split
  · exact h
  · split
    · simp [h]
    · refine leaveInline_memOk _ _ (enqueue_memOk _ _ _ ?_)
      simp only [memOk_mk, memory_form, onTask_memOk, dropTask_memOk]
      refine foldl_keeps_memOk (fun _ t h => childEnded_memOk t.ctx t.tcb h) _ ?_
      simp only [memOk_mk, memory_form, dropQueued_memOk, clearImages_memOk, clearCores_memOk]
      exact foldl_keeps_memOk (fun s t h => setStatus_memOk _ _ _ _ (cancelled_memOk h t)) _ h

@[simp] theorem faultLaunch_memOk (status : Nat) (cause : Cause) (tpc tval : Word) {s : State} (h : s.memOk = true) :
    (s.faultLaunch status cause tpc tval).memOk = true := by
  unfold State.faultLaunch
  dsimp only
  repeat' split
  all_goals simp [h]

/-! ### What the slots of a bundle write; traps -/

@[simp] theorem fly_memOk (lat slot : Nat) (ls : List Landing) (s : State) : (s.fly lat slot ls).memOk = s.memOk :=
  keeps_memOk (keeps_fly lat slot ls s)

@[simp] theorem shadow_memOk (lat slot : Nat) (elems : List Nat) (s : State) : (s.shadow lat slot elems).memOk = s.memOk :=
  keeps_memOk (keeps_shadow lat slot elems s)

@[simp] theorem markEmpty_memOk (r : Reg) (s : State) : (s.markEmpty r).memOk = s.memOk := keeps_memOk (keeps_markEmpty r s)

@[simp] theorem emptyFill_memOk (r : Reg) (x : Word) (s : State) : (s.emptyFill r x).memOk = s.memOk := by
  simp [State.emptyFill]

@[simp] theorem markEmptyV_memOk (r : Reg) (s : State) : (s.markEmptyV r).memOk = s.memOk := keeps_memOk (keeps_markEmptyV r s)

@[simp] theorem fill_memOk (r : Reg) (x : Word) (s : State) : (s.fill r x).memOk = s.memOk := by
  simp [State.fill]

@[simp] theorem newId_memOk (s : State) : s.newId.2.memOk = s.memOk := keeps_memOk (keeps_newId s)

@[simp] theorem stage_memOk (e : PierEntry) (s : State) : (s.stage e).memOk = s.memOk := keeps_memOk (keeps_stage e s)

@[simp] theorem endBundle_memOk (s : State) : s.endBundle.memOk = s.memOk := by
  simp [State.endBundle]

@[simp] theorem trap_memOk (sres : Nat) (cause : Cause) (tval : Word) (deferred : Bool) (tpc : Word) {s : State} (h : s.memOk = true) :
    (s.trap sres cause tval deferred tpc).memOk = true := by
  unfold State.trap
  dsimp only
  repeat' split
  all_goals simp [h]

@[simp] theorem leaseTrap_memOk (slot why : Nat) {s : State} (h : s.memOk = true) : (s.leaseTrap slot why).memOk = true := by
  simp [h, State.leaseTrap]

@[simp] theorem fault_memOk (slot : Nat) (c : Cause) (tval : Word) {s : State} (h : s.memOk = true) :
    (s.fault slot c tval).memOk = true := by
  simp [h, State.fault]

@[simp] theorem illegal_memOk (slot : Nat) {s : State} (h : s.memOk = true) : (s.illegal slot).memOk = true := by
  simp [h, State.illegal]

@[simp] theorem defer_memOk (c : Cause) (x : Word) (s : State) : (s.defer c x).memOk = s.memOk := keeps_memOk (keeps_defer c x s)

/-! ### Operands of the vector slots -/

@[simp] theorem vecIssue_memOk (slot : Nat) (srcs : List VSrc) (dst : VDst) (extra : List Vec → Option (Cause × Word))
    {f : List Vec → State → State} (hf : ∀ vs s, (f vs s).memOk = s.memOk) {s : State} (h : s.memOk = true) :
    (s.vecIssue slot srcs dst extra f).memOk = true := by
  unfold State.vecIssue
  dsimp only
  repeat' split
  all_goals simp [h, hf]

@[simp] theorem deliver_memOk (lat slot : Nat) (dst : VDst) (elems : List Nat) (x : Vec) (s : State) :
    (s.deliver lat slot dst elems x).memOk = s.memOk :=
  keeps_memOk (keeps_deliver lat slot dst elems x s)

/-! ### Loads, stores and ordering points -/

@[simp] theorem queueLoad_memOk (va : Word) (dst : LoadDst) (acq : Option Scope) (s : State) :
    (s.queueLoad va dst acq).memOk = s.memOk :=
  keeps_memOk (keeps_queueLoad va dst acq s)

@[simp] theorem spadAcquire_memOk (acq : Option Scope) (s : State) : (s.spadAcquire acq).memOk = s.memOk := by
  unfold State.spadAcquire
  split <;> simp

/-- `Core.spadPoisonIn` stands as a variable here and below: the kernel would unfold it, and the address it is given, to compare two
branches. -/
@[simp] theorem loadScalar_memOk (d a : Reg) (o : BitVec 10) (r : Order) (n : Nat) (signed : Bool) {s : State} (h : s.memOk = true) :
    (s.loadScalar d a o r n signed).memOk = true := by
  unfold State.loadScalar
  obtain ⟨poisonIn, e⟩ := exists_eq (a' := Core.spadPoisonIn)
  rw [← e]
  dsimp only
  repeat' split
  all_goals simp [h]

@[simp] theorem storeBytes_memOk (ea : Word) (n x : Nat) (r : Order) {s : State} (h : s.memOk = true) :
    (s.storeBytes ea n x r).memOk = true := by
  unfold State.storeBytes
  repeat' split
  all_goals simp [h]

@[simp] theorem expandSpad_memOk (d a : Reg) (ea : Word) (r : Order) {s : State} (h : s.memOk = true) :
    (s.expandSpad d a ea r).memOk = true := by
  unfold State.expandSpad
  dsimp only
  repeat' split
  all_goals simp [h]

theorem execStpk_memOk (d a : Reg) (o : BitVec 10) (r : Order) (m : ScaleMode) {s : State} (h : s.memOk = true) :
    nextMem (execStpk d a o r m s) := by
  unfold execStpk
  obtain ⟨poisonIn, e⟩ := exists_eq (a' := Core.spadPoisonIn)
  rw [← e]
  dsimp only
  repeat' split
  all_goals simp [h]

theorem execStt_memOk (d a : Reg) (o : BitVec 10) (r : Order) {s : State} (h : s.memOk = true) : nextMem (execStt d a o r s) := by
  unfold execStt
  obtain ⟨poisonIn, e⟩ := exists_eq (a' := Core.spadPoisonIn)
  rw [← e]
  dsimp only
  repeat' split
  all_goals simp [h]

@[simp] theorem prunePoints_memOk (s : State) : s.prunePoints.memOk = s.memOk := by
  simp [State.prunePoints]

@[simp] theorem point_memOk (p : OrderPoint) (s : State) : (s.point p).memOk = s.memOk := by
  simp [State.point]

/-! ### Writes of a place in memory -/

@[simp] theorem writeAt_memOk (l : Loc) (base : Nat) (cells : List (Nat × Byte)) (tag : Option Word) {s : State} (h : s.memOk = true) :
    (s.writeAt l base cells tag).memOk = true := by
  unfold State.writeAt
  split <;> simp [h]

@[simp] theorem writeGranule_memOk (d : Nat) (l : Loc) (g : Granule) (t : Word) {s : State} (h : s.memOk = true) :
    (s.writeGranule d l g t).memOk = true := by
  unfold State.writeGranule
  split <;> simp [h]

/-! ### The matrix slot: tiles, seals and drains -/

@[simp] theorem onTile_memOk (t : TileNo) (f : TileState → TileState) (s : State) : (s.onTile t f).memOk = s.memOk :=
  keeps_memOk (keeps_onTile t f s)

@[simp] theorem startSeal_memOk (t : TileNo) (spc : Word) (s : State) : (s.startSeal t spc).memOk = s.memOk := by
  simp [State.startSeal, apply_ite State.memOk]

@[simp] theorem engFault_memOk (c : Cause) (x : Word) (s : State) : (s.engFault c x).memOk = s.memOk := by
  simp [State.engFault]

@[simp] theorem requestTokens_memOk (n : Nat) (dst : Option Reg) (s : State) : (s.requestTokens n dst).memOk = s.memOk := by
  simp [State.requestTokens]

@[simp] theorem drainOpen_memOk (nw : Bool) (s : State) : (s.drainOpen nw).2.memOk = s.memOk := by
  unfold State.drainOpen
  split <;> simp

@[simp] theorem startDrain_memOk (t : TileNo) (addr geo tag : Word) (z nw : Bool) (mode : DrainMode) (sl fl : Bool) (spc : Word)
    (s : State) :
    (s.startDrain t addr geo tag z nw mode sl fl spc).memOk = s.memOk := by
  unfold State.startDrain
  split <;> simp

theorem execMdrain_memOk (t : TileNo) (d a b : Reg) (z n : Bool) (m : DrainMode) (sl : Bool) {s : State} (h : s.memOk = true) :
    nextMem (execMdrain t d a b z n m sl s) := by
  unfold execMdrain
  dsimp only
  repeat' split
  all_goals simp [h]

theorem execMaccwrRow_memOk (t : TileNo) (a b : Reg) {s : State} (h : s.memOk = true) : nextMem (execMaccwrRow t a b s) := by
  unfold execMaccwrRow
  obtain ⟨poisonIn, e⟩ := exists_eq (a' := Core.spadPoisonIn)
  rw [← e]
  dsimp only
  repeat' split
  all_goals simp [h]

@[simp] theorem callSeal_memOk (t : TileNo) (spc : Word) (s : State) : (s.callSeal t spc).memOk = s.memOk := by
  simp [State.callSeal]

@[simp] theorem fillMwaits_memOk (s : State) : s.fillMwaits.memOk = s.memOk := by
  unfold State.fillMwaits
  refine foldl_memOk (fun s x => ?_) _ _
  simp

@[simp] theorem rowOut_memOk (d : DrainOp) (s : State) : (s.rowOut d).memOk = s.memOk := by
  simp [State.rowOut, apply_ite State.memOk]

@[simp] theorem rowNext_memOk (d : DrainOp) (s : State) : (s.rowNext d).memOk = s.memOk := by
  simp [State.rowNext, apply_ite State.memOk]

@[simp] theorem rowCycle_memOk (s : State) : s.rowCycle.memOk = s.memOk := by
  unfold State.rowCycle
  repeat' split
  all_goals simp

@[simp] theorem releaseSeal_memOk (t : TileNo) (s : State) : (s.releaseSeal t).memOk = s.memOk := by
  unfold State.releaseSeal
  split <;> simp

@[simp] theorem setLastv_memOk (n : Nat) (s : State) : (s.setLastv n).memOk = s.memOk := by
  simp [State.setLastv]

@[simp] theorem wakeSeal_memOk (s : State) : s.wakeSeal.memOk = s.memOk := by
  unfold State.wakeSeal
  repeat' split
  all_goals simp

@[simp] theorem sealVerdict_memOk (t : TileNo) (s : State) : (s.sealVerdict t).memOk = s.memOk := by
  unfold State.sealVerdict
  repeat' split
  all_goals simp

@[simp] theorem releaseAll_memOk (s : State) : s.releaseAll.memOk = s.memOk := by
  simp [State.releaseAll]

@[simp] theorem handOver_memOk (s : State) : s.handOver.memOk = s.memOk := by
  simp [State.handOver]

@[simp] theorem keystone_memOk (test : KeystoneTest) (s : State) : (s.keystone test).memOk = s.memOk := by
  unfold State.keystone
  dsimp only
  repeat' split
  all_goals simp

@[simp] theorem implicitSeal_memOk (all stopped : Bool) (s : State) : (s.implicitSeal all stopped).memOk = s.memOk := by
  unfold State.implicitSeal
  dsimp only
  repeat' split
  all_goals simp

@[simp] theorem sealCycle_memOk (s : State) : s.sealCycle.memOk = s.memOk := by
  unfold State.sealCycle
  refine foldl_memOk (fun s x => ?_) _ _
  dsimp only
  repeat' split
  all_goals simp

@[simp] theorem engCycle_memOk (s : State) : s.engCycle.memOk = s.memOk := by
  unfold State.engCycle
  repeat' split
  all_goals simp

/-! ### Micro-words and routines -/

@[simp] theorem onRoutine_memOk (f : Routine → Routine) (s : State) : (s.onRoutine f).memOk = s.memOk := by
  simp [State.onRoutine]

@[simp] theorem stepRows_memOk (t : TileNo) (sh : Shape) (acc tr : Bool) (a b : Operand) (from_ upto : Nat) (s : State) :
    (s.stepRows t sh acc tr a b from_ upto).memOk = s.memOk := by
  unfold State.stepRows
  refine foldl_memOk (fun s x => ?_) _ _
  split <;> simp

@[simp] theorem setRowp_memOk (n : Nat) (s : State) : (s.setRowp n).memOk = s.memOk := by
  simp [State.setRowp]

@[simp] theorem mxStep_memOk (acc tr : Bool) (at_ : Nat) (next : Routine → Routine) (s : State) :
    (s.mxStep acc tr at_ next).memOk = s.memOk := by
  unfold State.mxStep
  dsimp only
  repeat' split
  all_goals simp

@[simp] theorem micro_memOk (f : Routine → Routine) (s : State) : (s.micro f).memOk = s.memOk := by
  simp [State.micro]

@[simp] theorem microIllegal_memOk (s : State) : s.microIllegal.memOk = s.memOk := by
  unfold State.microIllegal
  split <;> simp

@[simp] theorem withRoutine_memOk {f : Routine → State → State} (h : ∀ r s, (f r s).memOk = s.memOk) (s : State) :
    (s.withRoutine f).memOk = s.memOk := by
  unfold State.withRoutine
  split
  · exact h ..
  · rfl

@[simp] theorem endRoutine_memOk (s : State) : s.endRoutine.memOk = s.memOk := by
  unfold State.endRoutine
  exact withRoutine_memOk (fun _ s => modA_memOk _ s) s

@[simp] theorem libStep_memOk (l : LibRun) (s : State) : (s.libStep l).memOk = s.memOk := by
  unfold State.libStep
  refine withRoutine_memOk (fun r s => ?_) s
  dsimp only
  repeat' split
  all_goals simp

/-! ### Issue of copy commands -/

@[simp] theorem pushCopy_memOk (q : CopyQ) (t : Reg) (k : CopyKind) (dup : Bool) (rel : Option Scope) (n : Nat) (s : State) :
    (s.pushCopy q t k dup rel n).memOk = s.memOk :=
  keeps_memOk (keeps_pushCopy q t k dup rel n s)

@[simp] theorem issueCopy_memOk (q : CopyQ) (t : Reg) (fs : List IssueFault) (k : CopyKind) (dup : Bool) (rel : Option Scope) {s : State} (h :
    s.memOk = true) :
    (s.issueCopy q t fs k dup rel).memOk = true := by
  unfold State.issueCopy
  split <;> simp [h]

/-! ### Host commands and the table-update engine -/

@[simp] theorem replay_memOk (j : Journal) (s : State) : (s.replay j).memOk = s.memOk := by
  simp [State.replay]

@[simp] theorem respondTo_memOk (fn seq code : Nat) (s : State) : (s.respondTo fn seq code).memOk = s.memOk := by
  simp [State.respondTo]

@[simp] theorem respond_memOk (fn code : Nat) (s : State) : (s.respond fn code).memOk = s.memOk := by
  simp [State.respond]

@[simp] theorem command_memOk {f : State → State} (hf : ∀ s, s.memOk = true → (f s).memOk = true) {s : State} (h : s.memOk = true) :
    (s.command f).memOk = true := by
  unfold State.command
  split
  · exact h
  · exact hf s h

@[simp] theorem answer_memOk (u : Update) (code : Nat) (s : State) : (s.answer u code).memOk = s.memOk := by
  unfold State.answer
  split <;> simp

@[simp] theorem applyUpdate_memOk (u : Update) (s : State) : (s.applyUpdate u).memOk = s.memOk := by
  simp [State.applyUpdate]

@[simp] theorem startUpdates_memOk (us : List Update) (s : State) : (s.startUpdates us).memOk = s.memOk := by
  induction us generalizing s with
  | nil => rfl
  | cons u rest ih =>
    unfold State.startUpdates
    dsimp only
    repeat' split
    all_goals simp [ih]

@[simp] theorem flushTlbs_memOk (d : Nat) (gone : TlbEntry → Bool) (s : State) : (s.flushTlbs d gone).memOk = s.memOk := by
  simp [State.flushTlbs, apply_ite State.memOk]

@[simp] theorem submit_memOk (u : Update) (s : State) : (s.submit u).memOk = s.memOk := by
  unfold State.submit
  split <;> simp

@[simp] theorem acked_memOk (d : Nat) (s : State) : (s.acked d).memOk = s.memOk := by
  unfold State.acked
  dsimp only
  repeat' split
  all_goals simp

@[simp] theorem ackUpdate_memOk (d : Nat) (s : State) : (s.ackUpdate d).memOk = s.memOk := by
  unfold State.ackUpdate
  dsimp only
  repeat' split
  all_goals simp

@[simp] theorem dieReset_memOk (d : Nat) (s : State) : (s.dieReset d).memOk = s.memOk := by
  unfold State.dieReset
  dsimp only
  repeat' split
  all_goals simp [apply_ite State.memOk]

@[simp] theorem showWear_memOk {s : State} (h : s.memOk = true) : s.showWear.memOk = true := by
  unfold State.showWear
  refine foldl_keeps_memOk (fun s w h => ?_) _ h
  split <;> simp [h]

/-! ### Answers to loads, stores and walks -/

@[simp] theorem deferFor_memOk (ctx : Nat) (tcb : Word) (c : Cause) (tval : Word) (s : State) :
    (s.deferFor ctx tcb c tval).memOk = s.memOk := by
  simp [State.deferFor]

@[simp] theorem fillFor_memOk (ctx : Nat) (tcb : Word) (r : Reg) (x : Word) (s : State) : (s.fillFor ctx tcb r x).memOk = s.memOk := by
  simp [State.fillFor]

@[simp] theorem holdFrom_memOk (drain : Bool) (id : Nat) (c : Cause) (tval : Word) (s : State) :
    (s.holdFrom drain id c tval).memOk = s.memOk := by
  simp [State.holdFrom]

@[simp] theorem poisonStack_memOk (pa : Nat) {s : State} (h : s.memOk = true) : (s.poisonStack pa).memOk = true := by
  simp [h, State.poisonStack]

@[simp] theorem sendLoads_memOk (s : State) : s.sendLoads.memOk = s.memOk := by
  simp [State.sendLoads, apply_ite State.memOk]

@[simp] theorem readLocs_memOk (hit : Bool) (locs : List Loc) (s : State) : (s.readLocs hit locs).2.memOk = s.memOk := by
  refine foldl_preserves (fun p : List (Granule × Word) × State => p.2.memOk) (fun acc l => ?_) locs ([], s)
  dsimp only
  repeat' split
  all_goals simp

@[simp] theorem partRead_memOk (r : MemReq) (dst : LoadDst) (gs : List (Granule × Word)) (s : State) :
    (s.partRead r dst gs).memOk = s.memOk := by
  unfold State.partRead
  dsimp only
  repeat' split
  all_goals simp

@[simp] theorem widen_memOk (r : MemReq) (n : Nat) (s : State) : (s.widen r n).2.memOk = s.memOk := by
  unfold State.widen
  split <;> simp

@[simp] theorem arrive_memOk (idx : Nat) (hit broken : Bool) (which : Nat) {s : State} (h : s.memOk = true) :
    (s.arrive idx hit broken which).memOk = true := by
  unfold State.arrive
  dsimp only
  repeat' split
  all_goals simp [h]

@[simp] theorem leaveGranule_memOk (d : Nat) {acc : MemReq × State} (h : acc.2.memOk = true) (p : Nat × Loc) :
    (State.leaveGranule d acc p).2.memOk = true := by
  unfold State.leaveGranule
  dsimp only
  repeat' split
  all_goals simp [h]

@[simp] theorem sendWrite_memOk (r : MemReq) (gs : List (Nat × Loc)) {s : State} (h : s.memOk = true) :
    (s.sendWrite r gs).memOk = true := by
  have hleft : (gs.foldl (State.leaveGranule r.die) (r, s)).2.memOk = true :=
    List.foldlRecOn (motive := fun p : MemReq × State => p.2.memOk = true) gs _ h fun _ hp g _ => leaveGranule_memOk r.die hp g
  unfold State.sendWrite
  dsimp only
  split <;> simp [hleft]

@[simp] theorem unpark_memOk (r : MemReq) (s : State) : (s.unpark r).memOk = s.memOk := by
  simp [State.unpark]

@[simp] theorem sendStore_memOk (r : MemReq) {s : State} (h : s.memOk = true) : (s.sendStore r).memOk = true := by
  unfold State.sendStore
  dsimp only
  repeat' split
  all_goals simp [h]

@[simp] theorem sendStores_memOk {s : State} (h : s.memOk = true) : s.sendStores.memOk = true :=
  foldl_keeps_memOk (fun _ r h => sendStore_memOk r h) _ h

@[simp] theorem leavePart_memOk (e : PierEntry) {s : State} (h : s.memOk = true) (gs : List Nat) : (s.leavePart e gs).memOk = true := by
  simp [h, State.leavePart]

@[simp] theorem leaveStore_memOk (e : PierEntry) {s : State} (h : s.memOk = true) : (s.leaveStore e).memOk = true :=
  foldl_keeps_memOk (fun _ gs h => leavePart_memOk e h gs) _ h

@[simp] theorem leaveSpad_memOk (e : PierEntry) (s : State) : (s.leaveSpad e).memOk = s.memOk := by
  unfold State.leaveSpad
  dsimp only
  repeat' split
  all_goals simp

@[simp] theorem onCmd_memOk (q : CopyQ) (id : Nat) (f : CopyCmd → CopyCmd) (s : State) : (s.onCmd q id f).memOk = s.memOk := by
  simp [State.onCmd]

@[simp] theorem dropCmd_memOk (q : CopyQ) (id : Nat) (s : State) : (s.dropCmd q id).memOk = s.memOk := by
  simp [State.dropCmd]

@[simp] theorem reportPage_memOk (ctx : Nat) (tcb va : Word) (s : State) : (s.reportPage ctx tcb va).memOk = s.memOk := by
  unfold State.reportPage
  repeat' split
  all_goals simp

@[simp] theorem failCmd_memOk (q : CopyQ) (k : CopyCmd) (c : Cause) (x : Word) (s : State) : (s.failCmd q k c x).memOk = s.memOk := by
  unfold State.failCmd
  split <;> simp

@[simp] theorem stopCmd_memOk (q : CopyQ) (k : CopyCmd) (c : Cause) (x : Word) {s : State} (h : s.memOk = true) :
    (s.stopCmd q k c x).memOk = true := by
  unfold State.stopCmd
  dsimp only
  repeat' split
  all_goals simp [h]

@[simp] theorem finishCmd_memOk (q : CopyQ) (k : CopyCmd) (x : Word) (s : State) : (s.finishCmd q k x).memOk = s.memOk := by
  simp [State.finishCmd]

@[simp] theorem settle_memOk (q : CopyQ) (id : Nat) (s : State) : (s.settle q id).memOk = s.memOk := by
  unfold State.settle
  repeat' split
  all_goals simp

theorem readSources_memOk {s : State} (h : s.memOk = true) (a : Arch) (hit : Bool) (broken : Option Nat) (js : List (Nat × Nat)) :
    (readEnd (s.readSources a hit broken js)).memOk = true := by
  induction js generalizing s with
  | nil => exact h
  | cons j rest ih =>
    obtain ⟨j, va⟩ := j
    unfold State.readSources
    cases s.locate s.core.id a true .read false va with
    | error c => exact h
    | ok l =>
      dsimp only
      split
      · dsimp only [readEnd]
        cases l with
        | phys pa e =>
          dsimp only
          split <;> simp [h]
        | spad c off => exact h
      · have hrest := ih ((readLocs_memOk hit [l] s).trans h)
        split <;> rename_i e <;> rw [e] at hrest <;> exact hrest

@[simp] theorem fetchSource_memOk (q : CopyQ) (k : CopyCmd) (broken : Option Nat) {s : State} (h : s.memOk = true) :
    (s.fetchSource q k broken).memOk = true := by
  have hread := readSources_memOk h (s.archOf k.ctx k.tcb) true broken (s.earlyReads k)
  unfold State.fetchSource
  dsimp only
  split <;> rename_i e <;> rw [e] at hread <;> dsimp only [readEnd] at hread
  · simp [hread]
  · split <;> simp [hread]

@[simp] theorem tryFetch_memOk (q : CopyQ) (k : CopyCmd) (broken : Option Nat) {s : State} (h : s.memOk = true) :
    (s.tryFetch q k broken).memOk = true := by
  unfold State.tryFetch
  split <;> simp [h]

@[simp] theorem coreUncorr_memOk (tval : Word) {s : State} (h : s.memOk = true) : (s.coreUncorr tval).memOk = true := by
  unfold State.coreUncorr
  split <;> simp [h]

@[simp] theorem pierLeave_memOk (broken : Option Nat) (tval : Word) {s : State} (h : s.memOk = true) :
    (s.pierLeave broken tval).memOk = true := by
  unfold State.pierLeave
  dsimp only
  repeat' split
  all_goals simp [h]

@[simp] theorem retire_memOk (r : MemReq) (s : State) : (s.retire r).memOk = s.memOk := by
  simp [State.retire]

@[simp] theorem writeFault_memOk (r : MemReq) (c : Cause) (tval : Word) {s : State} (h : s.memOk = true) :
    (s.writeFault r c tval).memOk = true := by
  unfold State.writeFault
  repeat' split
  all_goals simp [h]

@[simp] theorem writeOver_memOk (r : MemReq) (s : State) : (s.writeOver r).memOk = s.memOk := by
  unfold State.writeOver
  split <;> simp

@[simp] theorem expireWrite_memOk (r : MemReq) (landed : Bool) {s : State} (h : s.memOk = true) :
    (s.expireWrite r landed).memOk = true := by
  unfold State.expireWrite
  split <;> simp [h]

@[simp] theorem acknowledge_memOk (idx : Nat) {s : State} (h : s.memOk = true) : (s.acknowledge idx).memOk = true := by
  unfold State.acknowledge
  dsimp only
  repeat' split
  all_goals simp [h]

@[simp] theorem raiseDeferred_memOk {s : State} (h : s.memOk = true) : s.raiseDeferred.memOk = true := by
  unfold State.raiseDeferred
  dsimp only
  repeat' split
  all_goals simp [h]

@[simp] theorem expireLoad_memOk (idx : Nat) (s : State) : (s.expireLoad idx).memOk = s.memOk := by
  unfold State.expireLoad
  repeat' split
  all_goals simp

@[simp] theorem expireStore_memOk (idx : Nat) (landed : Bool) {s : State} (h : s.memOk = true) :
    (s.expireStore idx landed).memOk = true := by
  unfold State.expireStore
  repeat' split
  all_goals simp [h]

@[simp] theorem expireCmd_memOk (q : CopyQ) (idx : Nat) (s : State) : (s.expireCmd q idx).memOk = s.memOk := by
  unfold State.expireCmd
  repeat' split
  all_goals simp

@[simp] theorem walkEnds_memOk (i : Input) (c : Context) (s : State) : (s.walkEnds i c).memOk = s.memOk := by
  unfold State.walkEnds
  repeat' split
  all_goals simp

@[simp] theorem failCheck_memOk (k : Check) (c : Cause) (tval : Word) {s : State} (h : s.memOk = true) :
    (s.failCheck k c tval).memOk = true := by
  simp [h, State.failCheck]

@[simp] theorem verdicts_memOk (pairs : List (Nat × Nat)) {s : State} (h : s.memOk = true) : (s.verdicts pairs).memOk = true := by
  unfold State.verdicts
  dsimp only
  repeat' split
  all_goals simp [h]

@[simp] theorem raiseHang_memOk {s : State} (h : s.memOk = true) : s.raiseHang.memOk = true := by
  simp [h, State.raiseHang]

/-! ### Copy commands, subscriptions, atomics and collectives -/

@[simp] theorem countBarrier_memOk (ctx c sb n : Nat) (s : State) : (s.countBarrier ctx c sb n).memOk = s.memOk := by
  simp [State.countBarrier, apply_ite State.memOk]

theorem copyRead_memOk (k : CopyCmd) (a : Arch) (hit broken : Bool) (reply : Granule × Word) (j va : Nat) {s : State} (h : s.memOk = true) :
    (readEnd (s.copyRead k a hit broken reply j va)).memOk = true := by
  unfold State.copyRead
  split
  · exact h
  · split
    · split <;> exact h
    · exact h
  · split <;> exact h
  · have hread := readSources_memOk h a hit (if broken then some j else none) [(j, va)]
    split <;> rename_i e <;> rw [e] at hread <;> exact hread

theorem copyWrite_memOk (q : CopyQ) (k : CopyCmd) (a : Arch) (d : Nat) (cnt : Option (Fin 64)) (va : Nat) (g : Granule) (t : Word)
    {s : State} (h : s.memOk = true) : okMem (s.copyWrite q k a d cnt va g t) := by
  unfold State.copyWrite
  dsimp only
  repeat' split
  all_goals simp [h]

theorem granuleOf_memOk (e : Engine) (k : CopyCmd) (a : Arch) (j : Nat) {s : State} (h : s.memOk = true) :
    (readEnd (s.granuleOf e k a j)).memOk = true := by
  unfold State.granuleOf
  split
  · exact h
  · exact copyRead_memOk _ _ _ _ _ _ _ h

@[simp] theorem moveGranule_memOk (e : Engine) (q : CopyQ) (k : CopyCmd) (j : Nat) {s : State} (h : s.memOk = true) :
    (s.moveGranule e q k j).s.memOk = true := by
  have hread := granuleOf_memOk e k (s.archOf k.ctx k.tcb) j h
  unfold State.moveGranule
  extract_lets +onlyGivenNames a
  split
  split
  extract_lets +onlyGivenNames src walks room
  split
  · exact h
  · split <;> rename_i e' <;> rw [e'] at hread
    · exact hread
    · split
      · exact hread
      · split
        · exact hread
        · rename_i t w
          exact (onTaskArch_memOk ..).trans (copyWrite_memOk _ _ _ _ _ _ _ _ hread t w)

@[simp] theorem moveAll_memOk (e : Engine) (q : CopyQ) (k : CopyCmd) (js : List Nat) (done : Nat) {s : State} (h : s.memOk = true) :
    (s.moveAll e q k js done).2.2.memOk = true := by
  induction js generalizing done s with
  | nil => exact h
  | cons j rest ih =>
    unfold State.moveAll
    dsimp only
    repeat' split
    all_goals simp [h, ih]

@[simp] theorem moveSome_memOk (e : Engine) (q : CopyQ) (k : CopyCmd) (first count : Nat) {s : State} (h : s.memOk = true) :
    (s.moveSome e q k first count).memOk = true := by
  unfold State.moveSome
  dsimp only
  split <;> simp [h]

@[simp] theorem copyBlock_memOk (q : CopyQ) (k : CopyCmd) (first count : Nat) (hit : Bool) (broken : Option Nat) {s : State} (h :
    s.memOk = true) :
    (s.copyBlock q k first count hit broken).memOk = true := by
  simp [h, State.copyBlock]

@[simp] theorem onSub_memOk (sb0 : Nat) (f : Subscription → Subscription) (s : State) : (s.onSub sb0 f).memOk = s.memOk := by
  simp [State.onSub]

@[simp] theorem ringDone_memOk (q : CopyQ) (id : Nat) (s : State) : (s.ringDone q id).memOk = s.memOk := by
  unfold State.ringDone
  split <;> simp

@[simp] theorem ringGone_memOk (q : CopyQ) (id : Nat) (s : State) : (s.ringGone q id).memOk = s.memOk := by
  unfold State.ringGone
  split <;> simp

@[simp] theorem releaseSub_memOk (sb0 : Nat) (s : State) : (s.releaseSub sb0).memOk = s.memOk := by
  unfold State.releaseSub
  split <;> simp

@[simp] theorem takeEffect_memOk (q : CopyQ) (k : CopyCmd) (s : State) : (s.takeEffect q k).memOk = s.memOk := by
  simp [State.takeEffect]

@[simp] theorem doUnsub_memOk (q : CopyQ) (k : CopyCmd) (sb : Fin 64) (s : State) : (s.doUnsub q k sb).memOk = s.memOk := by
  unfold State.doUnsub
  repeat' split
  all_goals simp

@[simp] theorem doSlotrel_memOk (q : CopyQ) (k : CopyCmd) (sb : Fin 64) (s : State) : (s.doSlotrel q k sb).memOk = s.memOk := by
  unfold State.doSlotrel
  dsimp only
  repeat' split
  all_goals simp

@[simp] theorem sendCmd_memOk (q : CopyQ) (k : CopyCmd) (s : State) : (s.sendCmd q k).memOk = s.memOk := by
  unfold State.sendCmd
  split <;> simp

@[simp] theorem failSub_memOk (x : Subscription) (c : Cause) (va : Word) (s : State) : (s.failSub x c va).memOk = s.memOk := by
  unfold State.failSub
  split <;> simp

@[simp] theorem recordAtomic_memOk (l : Loc) (e : Dedup) (s : State) : (s.recordAtomic l e).memOk = s.memOk := by
  unfold State.recordAtomic
  split <;> simp

@[simp] theorem wakeCell_memOk (ctx pa : Nat) {s : State} (h : s.memOk = true) : (s.wakeCell ctx pa).memOk = true := by
  unfold State.wakeCell
  refine foldl_keeps_memOk (fun s x h => ?_) _ h
  repeat' split
  all_goals simp [h]

@[simp] theorem freeEntry_memOk (src seqNo : Nat) (s : State) : (s.freeEntry src seqNo).memOk = s.memOk := by
  unfold State.freeEntry
  split <;> simp

@[simp] theorem answerAtomic_memOk (q : CopyQ) (k : CopyCmd) (x : Word) (lost : Bool) (s : State) :
    (s.answerAtomic q k x lost).memOk = s.memOk := by
  unfold State.answerAtomic
  split <;> simp

@[simp] theorem answerAgain_memOk (q : CopyQ) (k : CopyCmd) (l : Loc) (op : PortOp) (e : Dedup) (lost : Bool) (s : State) :
    (s.answerAgain q k l op e lost).memOk = s.memOk := by
  unfold State.answerAgain
  split <;> simp

@[simp] theorem applyAt_memOk (q : CopyQ) (k : CopyCmd) (locs : List Loc) (l : Loc) (lost : Bool) {s : State} (h : s.memOk = true) :
    (s.applyAt q k locs l lost).memOk = true := by
  unfold State.applyAt
  extract_lets +onlyGivenNames me full
  split
  · simp [h]
  · extract_lets +onlyGivenNames va op cells written dropped recorded woken
    have hw : written.memOk = true := by
      unfold written
      split
      · exact h
      · exact foldl_keeps_memOk (fun s p h => writeAt_memOk _ _ _ _ h) _ h
    have hd : dropped.memOk = written.memOk := by
      refine foldl_memOk (fun s x => ?_) _ _
      split <;> simp
    have hr : recorded.memOk = true := by simp [recorded, hd, hw]
    have hk : woken.memOk = true := by
      unfold woken
      repeat' split
      all_goals simp [hr]
    simp [hk]

@[simp] theorem peerAcc_memOk (q : CopyQ) (k : CopyCmd) (sl off len : Nat) (bad : Bool) {s : State} (h : s.memOk = true) :
    (s.peerAcc q k sl off len bad).memOk = true := by
  simp [h, State.peerAcc, apply_ite State.memOk]

@[simp] theorem waitAtPort_memOk (q : CopyQ) (k : CopyCmd) (l : Loc) (s : State) : (s.waitAtPort q k l).memOk = s.memOk := by
  unfold State.waitAtPort
  split <;> simp

@[simp] theorem atPort_memOk (q : CopyQ) (k : CopyCmd) (locs : List Loc) (l : Loc) (lost : Bool) (broken : Option Nat) {s : State} (h :
    s.memOk = true) :
    (s.atPort q k locs l lost broken).memOk = true := by
  unfold State.atPort
  dsimp only
  repeat' split
  all_goals simp [h]

@[simp] theorem atomicArrive_memOk (q : CopyQ) (k : CopyCmd) (lost bad : Bool) (broken : Option Nat) {s : State} (h : s.memOk = true) :
    (s.atomicArrive q k lost bad broken).memOk = true := by
  unfold State.atomicArrive
  dsimp only
  repeat' split
  all_goals simp [h]

@[simp] theorem fillSlot_memOk (x : Subscription) (i : Nat) (s : State) : (s.fillSlot x i).memOk = s.memOk := by
  simp [State.fillSlot]

@[simp] theorem tileDone_memOk (x : Subscription) (st : SlotState) (s : State) : (s.tileDone x st).memOk = s.memOk := by
  unfold State.tileDone
  dsimp only
  repeat' split
  all_goals simp

@[simp] theorem pushGranule_memOk (x : Subscription) (broken : Bool) {s : State} (h : s.memOk = true) :
    (s.pushGranule x broken).memOk = true := by
  unfold State.pushGranule
  dsimp only
  repeat' split
  all_goals simp [h]

@[simp] theorem receive_memOk (q : CopyQ) (k : CopyCmd) (mask : BitVec 32) (engine first count : Nat) {s : State} (h : s.memOk = true) :
    (s.receive q k mask engine first count).memOk = true := by
  unfold State.receive
  dsimp only
  repeat' split
  all_goals simp [h]

@[simp] theorem onWrites_memOk (f : MemReq → MemReq) (s : State) : (s.onWrites f).memOk = s.memOk := by
  simp [State.onWrites]

@[simp] theorem swapSel_memOk (ctx : Nat) (p : Nat × Nat × Word) (s : State) : (s.swapSel ctx p).memOk = s.memOk := by
  simp [State.swapSel]

@[simp] theorem publEnd_memOk (q : CopyQ) (k : CopyCmd) (va len : Nat) (s : State) : (s.publEnd q k va len).memOk = s.memOk := by
  unfold State.publEnd
  split <;> simp

theorem collSource_memOk {s : State} (h : s.memOk = true) (a : Arch) (vas : List Nat) (broken : Option Nat) :
    (readEnd (s.collSource a vas broken)).memOk = true := by
  have hread := readSources_memOk h a false broken ((List.range vas.length).zip vas)
  unfold State.collSource
  split
  · exact h
  · split <;> rename_i e <;> rw [e] at hread
    · exact hread
    · split <;> exact hread

@[simp] theorem writeAll_memOk (locs : List Loc) (gs : List (Granule × Word)) {s : State} (h : s.memOk = true) :
    (s.writeAll locs gs).memOk = true :=
  foldl_keeps_memOk (fun _ _ h => writeAt_memOk _ _ _ _ h) _ h

theorem execCollComplete_memOk {s : State} (h : s.memOk = true) : nextMem (execCollComplete s) := by
  unfold execCollComplete
  extract_lets +onlyGivenNames i u
  have hu : u.memOk = true := (focus_memOk ..).trans h
  rw [nextMem_next_iff]
  split
  · exact hu
  · rename_i k _
    split
    · rename_i kind o dst src b bytes left _
      split
      · exact hu
      · extract_lets +onlyGivenNames n nsrc ndst
        have hread := collSource_memOk hu (u.archOf k.ctx k.tcb) (granulesFrom src.toNat nsrc) (if i.flag2 then some i.off else none)
        split <;> rename_i e <;> rw [e] at hread <;> dsimp only [readEnd] at hread
        · simp [hread]
        · split <;> simp [hread]
    · exact hu

/-! ### Views, dispatch, suspension and inline runs -/

@[simp] theorem unqueue_memOk (q : QueueRef) (e : QEntry) (s : State) : (s.unqueue q e).memOk = s.memOk := by
  unfold State.unqueue
  split <;> simp

theorem writePiece_memOk (ctx : Nat) (w : ViewWin) (gs : List (Granule × Word)) {s : State} (h : s.memOk = true) :
    okMem (s.writePiece ctx w gs) := by
  unfold State.writePiece
  dsimp only
  split
  · simp
  · exact (okMem_ok _).mpr (foldl_keeps_memOk (fun _ _ h => writeGranule_memOk _ _ _ _ h) _ h)

theorem fillBlanks_memOk (ctx : Nat) (ws : List ViewWin) {s : State} (h : s.memOk = true) : okMem (s.fillBlanks ctx ws) := by
  induction ws generalizing s with
  | nil => simp [h, State.fillBlanks]
  | cons w rest ih =>
    unfold State.fillBlanks
    split
    · simp
    · rename_i t e
      exact ih (writePiece_memOk _ _ _ h t e)

theorem setupViews_memOk {s : State} (h : s.memOk = true) : okMem s.setupViews := by
  unfold State.setupViews
  dsimp only
  split
  · split
    · simp
    · split
      · simp
      · split
        · simp
        · rename_i t e
          simpa using fillBlanks_memOk _ _ h t e
  · simp [h]

@[simp] theorem keepSnap_memOk (launch : Nat) (tcb : Word) (x : BitVec 1024) (s : State) : (s.keepSnap launch tcb x).memOk = s.memOk := by
  unfold State.keepSnap
  split <;> simp

theorem dispatch_memOk (ctx : Nat) (tcb : Word) {s : State} (h : s.memOk = true) : someMem (s.dispatch ctx tcb) := by
  unfold State.dispatch
  split
  · extract_lets +onlyGivenNames acquired snap pr running fresh dispatched e u
    have hd : dispatched.memOk = true := by simp [h, dispatched, running, acquired]
    split
    · simp [hd]
    · split
      · simp [hd]
      · split
        · simp [hd]
        · split
          · rename_i t ht
            simp [setupViews_memOk hd t ht]
          · simp [hd]
          · simp
  · simp [h]

@[simp] theorem writeSpill_memOk (s : State) : s.writeSpill.memOk = s.memOk := by
  unfold State.writeSpill
  split <;> simp

@[simp] theorem writePool_memOk (full : Bool) {s : State} (h : s.memOk = true) : (s.writePool full).memOk = true := by
  unfold State.writePool
  split <;> simp [h]

@[simp] theorem frameOf_memOk (full : Bool) {s : State} (h : s.memOk = true) : (s.frameOf full).2.memOk = true := by
  unfold State.frameOf
  dsimp only
  split <;> simp [h]

@[simp] theorem suspendNow_memOk (w : Wait) {s : State} (h : s.memOk = true) : (s.suspendNow w).memOk = true := by
  unfold State.suspendNow
  dsimp only
  split
  · simp [h]
  · generalize hu : State.leaveInline _ _ _ = u
    have hleft : u.memOk = true := hu ▸ leaveInline_memOk _ _ (by simp [h])
    repeat' split
    all_goals simp [hleft]

@[simp] theorem resume_memOk (t : Task) (f : Frame) {s : State} (h : s.memOk = true) : (s.resume t f).memOk = true := by
  unfold State.resume
  extract_lets +onlyGivenNames running back
  have hb : back.memOk = true := by simp [h, back, running]
  split
  -- the two waits whose views may not be set up yet: a page, a resource
  case h_3 | h_4 =>
    extract_lets +onlyGivenNames entered
    have he : entered.memOk = true := by simp [entered, hb]
    split
    · split
      · rename_i u hu
        exact setupViews_memOk he u hu
      · simp [he]
      · simp [he]
    · exact he
  all_goals simp [hb]

@[simp] theorem spill_memOk {s : State} (h : s.memOk = true) : s.spill.memOk = true := by
  simp [h, State.spill]

@[simp] theorem startInline_memOk (ctx : Nat) (t : Word) (d : Reg) (join merge : Bool) {s : State} (h : s.memOk = true) :
    (s.startInline ctx t d join merge).memOk = true := by
  unfold State.startInline
  split
  · exact h
  · split
    · simp [h]
    · split
      · simp [h]
      · split
        · simp [h]
        · split
          · rename_i u hu
            exact dispatch_memOk ctx t (spill_memOk h) u hu
          · simp [h]

/-! ### Children, merges and blocked tasks -/

@[simp] theorem freezeViews_memOk (s : State) : s.freezeViews.memOk = s.memOk := by
  simp [State.freezeViews, apply_ite State.memOk]

@[simp] theorem spawnChildren_memOk (t : Word) (n : Nat) (inl : Bool) (s : State) : (s.spawnChildren t n inl).memOk = s.memOk := by
  simp [State.spawnChildren, apply_ite State.memOk]

@[simp] theorem spawn_memOk (d : Reg) (t : Word) (n : Nat) {s : State} (h : s.memOk = true) : (s.spawn d t n).memOk = true := by
  unfold State.spawn
  repeat' split
  all_goals simp [h]

@[simp] theorem hold_memOk (b : Block) (s : State) : (s.hold b).memOk = s.memOk := keeps_memOk (keeps_hold b s)

@[simp] theorem startRoutine_memOk (owner : Word) (l r : Block') {s : State} (h : s.memOk = true) :
    (s.startRoutine owner l r).memOk = true := by
  unfold State.startRoutine
  dsimp only
  repeat' split
  all_goals simp [h]

@[simp] theorem restartRoutine_memOk (s : State) : s.restartRoutine.memOk = s.memOk := by
  unfold State.restartRoutine
  repeat' split
  all_goals simp

@[simp] theorem endMergeRoutine_memOk (s : State) : s.endMergeRoutine.memOk = s.memOk := by
  unfold State.endMergeRoutine
  dsimp only
  repeat' split
  all_goals simp

@[simp] theorem copyFrame_memOk (p : Nat × Nat × Word) {s : State} (h : s.memOk = true) : (s.copyFrame p).memOk = true := by
  obtain ⟨hmem, htags⟩ := memOk_iff.mp h
  exact memOk_iff.mpr ⟨cellSets_wf 0 _ _ (filter_wf 0 _ _ hmem), cellSets_wf 0 _ _ (filter_wf 0 _ _ htags)⟩

@[simp] theorem writeTile_memOk (d ctx : Nat) (w : ViewWin) {s : State} (h : s.memOk = true) : (s.writeTile d ctx w).memOk = true := by
  unfold State.writeTile
  refine foldl_keeps_memOk (fun s x h => ?_) _ h
  split <;> simp [h]

theorem writeTiles_memOk {s : State} (h : s.memOk = true) : okMem s.writeTiles := by
  unfold State.writeTiles
  dsimp only
  split
  · simp
  · split
    · simp
    · refine (okMem_ok _).mpr ((foldl_memOk (fun _ _ => swapSel_memOk ..) _ _).trans ?_)
      exact foldl_keeps_memOk (fun _ w h => writeTile_memOk _ _ w h) _ (foldl_keeps_memOk (fun _ p h => copyFrame_memOk p h) _ h)

@[simp] theorem contribute_memOk (t : Task) (s : State) : (s.contribute t).memOk = s.memOk := by
  unfold State.contribute
  dsimp only
  repeat' split
  all_goals simp

@[simp] theorem sendDecrements_memOk (t : Task) (s : State) : (s.sendDecrements t).memOk = s.memOk := by
  simp [State.sendDecrements]

@[simp] theorem parentLearns_memOk (t : Task) {s : State} (h : s.memOk = true) : (s.parentLearns t).memOk = true := by
  unfold State.parentLearns
  dsimp only
  repeat' split
  all_goals simp [h]

@[simp] theorem mergeDone_memOk (t : Task) {s : State} (h : s.memOk = true) : (s.mergeDone t).memOk = true := by
  unfold State.mergeDone
  dsimp only
  generalize hu : State.childEnded _ _ _ = u
  have hended : u.memOk = true := by
    refine hu ▸ childEnded_memOk _ _ ?_
    simp only [memOk_mk, memory_form]
    exact parentLearns_memOk _ (by simp [h])
  split <;> simp [hended]

@[simp] theorem mergeStep_memOk (written paged : Bool) {s : State} (h : s.memOk = true) : (s.mergeStep written paged).memOk = true := by
  unfold State.mergeStep
  split
  · simp [h]
  · split
    · simp [h]
    · split
      · extract_lets +onlyGivenNames left
        have hl : left.memOk = true := by simp [h, left]
        split
        · simp [hl]
        · split
          · split
            · rename_i u hu
              simp [writeTiles_memOk hl u hu]
            · split <;> simp [hl]
            · simp [hl]
          · simp [hl]
      · split
        · simp [h]
        · split
          · simp [h]
          · split <;> simp [h]

@[simp] theorem joinDone_memOk (d : Reg) (merge : Bool) (views : List ViewWin) (s : State) :
    (s.joinDone d merge views).memOk = s.memOk := by
  unfold State.joinDone
  split <;> simp

@[simp] theorem joinStep_memOk (d : Reg) (since : Nat) (merge : Bool) {s : State} (h : s.memOk = true) :
    (s.joinStep d since merge).memOk = true := by
  unfold State.joinStep
  dsimp only
  repeat' split
  all_goals simp [h]

@[simp] theorem raiseBlocked_memOk (b : Block) {s : State} (h : s.memOk = true) : (s.raiseBlocked b).memOk = true := by
  unfold State.raiseBlocked
  dsimp only
  repeat' split
  all_goals simp [h]

@[simp] theorem cellTrap_memOk (d : Reg) (c : Cause) (va : Word) {s : State} (h : s.memOk = true) : (s.cellTrap d c va).memOk = true := by
  simp [h, State.cellTrap]

@[simp] theorem pollCell_memOk (d : Reg) (va : Word) (til : Option Nat) {s : State} (h : s.memOk = true) :
    (s.pollCell d va til).memOk = true := by
  unfold State.pollCell
  repeat' split
  all_goals simp [h]

@[simp] theorem blockGo_memOk (b : Block) {s : State} (h : s.memOk = true) : (s.blockGo b).memOk = true := by
  unfold State.blockGo
  repeat' split
  all_goals simp [h]

@[simp] theorem enterAgain_memOk (k : Block) {s : State} (h : s.memOk = true) : (s.enterAgain k).memOk = true := by
  unfold State.enterAgain
  dsimp only
  repeat' split
  all_goals simp [h]

@[simp] theorem blockCycle_memOk {s : State} (h : s.memOk = true) : s.blockCycle.memOk = true := by
  unfold State.blockCycle
  dsimp only
  repeat' split
  all_goals simp [h]

/-! ### Admission, picking and combines -/

@[simp] theorem writeAdmitted_memOk (t : Task) {s : State} (h : s.memOk = true) : (s.writeAdmitted t).memOk = true := by
  unfold State.writeAdmitted
  dsimp only
  have hparent : ∀ a x b y, ((s.writeVa (s.ctxDie t.ctx) t.ctx a 8 x).writeVa (s.ctxDie t.ctx) t.ctx b 4 y).memOk = true := by simp [h]
  split <;> simp [hparent]

@[simp] theorem arm_memOk (q : QueueRef) (t : Task) {s : State} (h : s.memOk = true) : (s.arm q t).memOk = true := by
  simp [h, State.arm, apply_ite State.memOk]

@[simp] theorem admission_memOk (t : Task) (q : QueueRef) (direct : Bool) {s : State} (h : s.memOk = true) :
    (s.admission t q direct).memOk = true := by
  simp [h, State.admission, apply_ite State.memOk]

@[simp] theorem admitFails_memOk (r : RelOp) (par : Word) (inl : Bool) (c : Cause) (x : Word) (s : State) :
    (s.admitFails r par inl c x).memOk = s.memOk := by
  unfold State.admitFails
  dsimp only
  repeat' split
  all_goals simp

@[simp] theorem applyDecrement_memOk (d : Decrement) {s : State} (h : s.memOk = true) : (s.applyDecrement d).memOk = true := by
  unfold State.applyDecrement
  dsimp only
  repeat' split
  all_goals simp [h]

theorem execTaskPick_memOk {s : State} (h : s.memOk = true) : nextMem (execTaskPick s) := by
  unfold execTaskPick
  extract_lets +onlyGivenNames u
  have hu : u.memOk = true := (focus_memOk ..).trans h
  rw [nextMem_next_iff]
  split
  · exact hu
  · split
    · exact hu
    · split
      · exact hu
      · split
        · simp [hu]
        · split
          · simp [hu]
          · split
            · rename_i v hv
              exact dispatch_memOk _ _ ((unqueue_memOk ..).trans hu) v hv
            · simp [hu]

@[simp] theorem combineFault_memOk (t : Task) (lo : Nat) (paged : Bool) (c : Cause) (x : Word) {s : State} (h : s.memOk = true) :
    (s.combineFault t lo paged c x).memOk = true := by
  simp [h, State.combineFault, apply_ite State.memOk]

@[simp] theorem keepDest_memOk (t : Task) (lo : Nat) (d : ViewWin) (s : State) : (s.keepDest t lo d).memOk = s.memOk := by
  simp [State.keepDest]

theorem execCombine_memOk {s : State} (h : s.memOk = true) : nextMem (execCombine s) := by
  refine nextMem_next ?_
  split
  · split
    · exact h
    · split
      · exact h
      · split
        · split <;> simp [h]
        · split
          · split
            · exact h
            · split
              · split
                · simp [h]
                · split
                  · simp [h]
                  · rename_i u hu
                    simp [writePiece_memOk _ _ _ h u hu]
              · simp [h]
              · simp [h]
          · exact h
  · exact h

@[simp] theorem firmwareMap_memOk (ctx : Nat) (ws : List PteWrite) (s : State) : (s.firmwareMap ctx ws).memOk = s.memOk := by
  unfold State.firmwareMap
  split <;> simp

@[simp] theorem returnExcess_memOk (q : QueueRef) (s : State) : (s.returnExcess q).memOk = s.memOk := by
  unfold State.returnExcess
  repeat' split
  all_goals simp

/-! ### Gangs, barriers and futures -/

@[simp] theorem pushGang_memOk (k : GangKind) (va : Word) (ph : Nat) (d : Reg) (s : State) : (s.pushGang k va ph d).memOk = s.memOk := by
  simp [State.pushGang]

@[simp] theorem gangOp_memOk (k : GangKind) (va : Word) (d : Reg) (gone : Bool) {s : State} (h : s.memOk = true) :
    (s.gangOp k va d gone).memOk = true := by
  unfold State.gangOp
  split <;> simp [h]

@[simp] theorem markSent_memOk (ctx : Nat) (r : Reach) (s : State) : (s.markSent ctx r).memOk = s.memOk := by
  simp [State.markSent]

@[simp] theorem gangArrive_memOk (ctx : Nat) (va : Word) (r : Reach) (drop wait : Bool) (s : State) :
    (s.gangArrive ctx va r drop wait).memOk = s.memOk := by
  unfold State.gangArrive
  dsimp only
  repeat' split
  all_goals simp

@[simp] theorem gangJoin_memOk (ctx : Nat) (va : Word) (r : Reach) (s : State) : (s.gangJoin ctx va r).memOk = s.memOk := by
  unfold State.gangJoin
  dsimp only
  repeat' split
  all_goals simp

@[simp] theorem gangWait_memOk (ctx : Nat) (va : Word) (r : Reach) (b : Nat) (s : State) : (s.gangWait ctx va r b).memOk = s.memOk := by
  unfold State.gangWait
  repeat' split
  all_goals simp

@[simp] theorem gangCycle_memOk (ctx : Nat) (va : Word) (rs : List Reach) (s : State) : (s.gangCycle ctx va rs).memOk = s.memOk := by
  unfold State.gangCycle
  rw [foldl_memOk, foldl_memOk, gangComplete_memOk, foldl_memOk, foldl_memOk, foldl_memOk, foldl_memOk (fun s r => markSent_memOk ctx r s)]
  all_goals
    intro s r
    split <;> simp

@[simp] theorem endPhase_memOk (ctx : Nat) (key : Word) (sb : Fin 64) (d : Reg) (s : State) :
    (s.endPhase ctx key sb d).memOk = s.memOk := by
  simp [State.endPhase, apply_ite State.memOk]

@[simp] theorem barrierCycle_memOk (s : State) : s.barrierCycle.memOk = s.memOk := by
  simp [State.barrierCycle]

@[simp] theorem holdCell_memOk (d : Reg) (va : Word) (b : Block) {s : State} (h : s.memOk = true) : (s.holdCell d va b).memOk = true := by
  unfold State.holdCell
  split <;> simp [h]

/-! ### Tokens, leases and wear -/

@[simp] theorem refill_memOk (s : State) : s.refill.memOk = s.memOk := by
  simp [State.refill]

@[simp] theorem countSprint_memOk (s : State) : s.countSprint.memOk = s.memOk := by
  simp [State.countSprint]

@[simp] theorem expire_memOk (l : Lease) (cause : Nat) (s : State) : (s.expire l cause).memOk = s.memOk := by
  simp [State.expire]

@[simp] theorem endLeaseTrap_memOk (n cause : Nat) (s : State) : (s.endLeaseTrap n cause).memOk = s.memOk := by
  unfold State.endLeaseTrap
  repeat' split
  all_goals simp

@[simp] theorem meltRows_memOk (s : State) : s.meltRows.memOk = s.memOk := by
  simp [State.meltRows, apply_ite State.memOk]

@[simp] theorem decideLease_memOk (n : Nat) (r : LeaseReq) (s : State) : (s.decideLease n r).memOk = s.memOk := by
  unfold State.decideLease
  dsimp only
  repeat' split
  all_goals simp

@[simp] theorem decideLeases_memOk (s : State) : s.decideLeases.memOk = s.memOk := by
  unfold State.decideLeases
  refine foldl_memOk (fun s x => ?_) _ _
  split <;> simp

@[simp] theorem wearRows_memOk (s : State) : s.wearRows.memOk = s.memOk := by
  unfold State.wearRows
  refine foldl_memOk (fun s x => ?_) _ _
  dsimp only
  repeat' split
  all_goals simp

/-! ### Images and restore -/

@[simp] theorem onImage_memOk (ctx : Nat) (f : Image → Image) (s : State) : (s.onImage ctx f).memOk = s.memOk := by
  simp [State.onImage]

@[simp] theorem saveCore_memOk (ctx n : Nat) (s : State) : (s.saveCore ctx n).memOk = s.memOk := by
  simp [State.saveCore, apply_ite State.memOk]

@[simp] theorem saveQueues_memOk (ctx : Nat) (s : State) : (s.saveQueues ctx).memOk = s.memOk := by
  simp [State.saveQueues]

@[simp] theorem writeImage_memOk (ctx : Nat) {s : State} (h : s.memOk = true) : (s.writeImage ctx).memOk = true := by
  unfold State.writeImage
  split <;> simp [h]

@[simp] theorem commitImage_memOk (ctx : Nat) {s : State} (h : s.memOk = true) : (s.commitImage ctx).memOk = true := by
  unfold State.commitImage
  split
  · exact h
  · refine (respondTo_memOk ..).trans (foldl_keeps_memOk (fun s x h => ?_) _ (writeImage_memOk _ (by simp [h])))
    split <;> simp [h]

@[simp] theorem askSave_memOk (c : Context) (s : State) : (s.askSave c).memOk = s.memOk := by
  simp [State.askSave]

@[simp] theorem saveStep_memOk (ctx : Nat) {s : State} (h : s.memOk = true) : (s.saveStep ctx).memOk = true := by
  unfold State.saveStep
  dsimp only
  generalize hu : State.focus _ _ = u
  have hsaved : u.memOk = true := by
    refine hu ▸ (focus_memOk ..).trans ((foldl_memOk (fun s n => ?_) _ _).trans h)
    split <;> simp
  repeat' split
  all_goals simp [hsaved]

@[simp] theorem loseImage_memOk (ctx seq : Nat) {s : State} (h : s.memOk = true) : (s.loseImage ctx seq).memOk = true :=
  foldl_keeps_memOk (fun _ n h => endLaunch_memOk n _ _ _ _ _ _ _ h) _ h

theorem execPreempt_memOk {s : State} (h : s.memOk = true) : nextMem (execPreempt s) := by
  refine nextMem_next ?_
  split
  · split <;> simp [h]
  · refine command_memOk (fun s h => ?_) h
    repeat' split
    all_goals simp [h]

@[simp] theorem restoreCore_memOk (ctx : Nat) (im : CoreImage) (n : Nat) (s : State) : (s.restoreCore ctx im n).memOk = s.memOk := by
  simp [State.restoreCore, apply_ite State.memOk]

@[simp] theorem requeue_memOk (m : List (Nat × Nat)) (s : State) (q : QueueRef × QEntry) : (s.requeue m q).memOk = s.memOk := by
  unfold State.requeue
  split <;> simp

/-! ### The host's windows and commands -/

@[simp] theorem discardSpawn_memOk (fn n : Nat) (s : State) : (s.discardSpawn fn n).memOk = s.memOk := by
  unfold State.discardSpawn
  split <;> simp

@[simp] theorem copyOut_memOk (ctx va n pa : Nat) {s : State} (h : s.memOk = true) : (s.copyOut ctx va n pa).memOk = true := by
  unfold State.copyOut
  refine foldl_keeps_memOk (fun s x h => ?_) _ h
  split <;> simp [h]

@[simp] theorem capture_memOk (c : CaptureSt) (ctx : Nat) (root : BitVec 1024) {s : State} (h : s.memOk = true) :
    (s.capture c ctx root).memOk = true := by
  have hcopied := List.foldlRecOn (motive := fun p : State × Nat => p.1.memOk = true) c.regions
    (fun acc r => (acc.1.copyOut ctx r.1 r.2 acc.2, acc.2 + cdiv r.2 64 * 64)) (b := (s, c.area.1)) h
    fun _ hp r _ => copyOut_memOk _ _ _ _ hp
  exact writePhys_memOk hcopied _ _

@[simp] theorem openLaunch_memOk (x : Stream) (root : BitVec 1024) (rest : List (BitVec 1024)) {s : State} (h : s.memOk = true) :
    (s.openLaunch x root rest).2.memOk = true := by
  unfold State.openLaunch
  dsimp only
  repeat' split
  all_goals simp [h]

@[simp] theorem apertureGranule_memOk (fn pa : Nat) (cells : List (Nat × Byte)) {s : State} (h : s.memOk = true) :
    (s.apertureGranule fn pa cells).memOk = true := by
  simp [h, State.apertureGranule, apply_ite State.memOk]

theorem execApertureWrite_memOk {s : State} (h : s.memOk = true) : nextMem (execApertureWrite s) := by
  refine nextMem_next ?_
  dsimp only
  split
  · exact h
  · split
    · simp [h]
    · refine foldl_keeps_memOk (fun s p h => ?_) _ h
      split <;> simp [h]

@[simp] theorem preload_memOk (ctx : Nat) (bind : List (Nat × List Nat)) (ps : List Preload) (s : State) :
    (s.preload ctx bind ps).memOk = s.memOk := by
  unfold State.preload
  split <;> simp

@[simp] theorem unload_memOk (ctx : Nat) (s : State) : (s.unload ctx).memOk = s.memOk := by
  simp [State.unload]

@[simp] theorem destroy_memOk (ctx : Nat) {s : State} (h : s.memOk = true) : (s.destroy ctx).memOk = true := by
  unfold State.destroy
  dsimp only
  generalize hu : List.foldl _ s _ = u
  have hended : u.memOk = true := hu ▸ foldl_keeps_memOk (fun _ n h => endLaunch_memOk n _ _ _ _ _ _ _ h) _ h
  split <;> simp [hended]

/-! ### Resets and the scheduler's takeover -/

@[simp] theorem dropDies_memOk (s : State) : s.dropDies.memOk = s.memOk := by
  simp [State.dropDies]

@[simp] theorem restart_memOk (frame : BitVec 64) (mask : BitVec 32) (failed : List Nat) {s : State} (h : s.memOk = true) :
    (s.restart frame mask failed).memOk = true := by
  obtain ⟨hmem, -⟩ := memOk_iff.mp h
  unfold State.restart
  simp only [memOk_mk, memory_form, dropDies_memOk, Bool.and_eq_true]
  exact ⟨filter_wf 0 _ _ hmem, rfl⟩

@[simp] theorem releaseRecords_memOk {s : State} (h : s.memOk = true) : s.releaseRecords.memOk = true :=
  foldl_keeps_memOk (fun _ r h => writeRecord_memOk r h) _ h

@[simp] theorem loseAll_memOk {s : State} (h : s.memOk = true) : s.loseAll.memOk = true := by
  have hreleased := releaseRecords_memOk (s := { s with takeSch := false, takeSup := false }) h
  exact foldl_keeps_memOk (fun _ n h => endLaunch_memOk n _ _ _ _ _ _ _ h) _ hreleased

@[simp] theorem replayed_memOk (s : State) : s.replayed.memOk = s.memOk := by
  unfold State.replayed
  cases s.journal.head? <;> simp

/-! ### The scalar slot -/

@[simp] theorem intOp_memOk (lat : Nat) (d a b : Reg) (w : Bool) (f : Nat → Nat → Nat → Nat) (s : State) :
    (s.intOp lat d a b w f).memOk = s.memOk := by
  simp [State.intOp]

@[simp] theorem ctlReg_memOk (d : Reg) (x : Word) (s : State) : (s.ctlReg d x).memOk = s.memOk := by
  simp [State.ctlReg]

@[simp] theorem ctlPred_memOk (p : PredReg) (x : Bool) (s : State) : (s.ctlPred p x).memOk = s.memOk := by
  simp [State.ctlPred]

@[simp] theorem fpCode_memOk (lat : Nat) (d : Reg) (f : FpFmt) (x : Nat) (s : State) : (s.fpCode lat d f x).memOk = s.memOk := by
  simp [State.fpCode]

@[simp] theorem fpInt_memOk (lat : Nat) (d : Reg) (x : Int) (s : State) : (s.fpInt lat d x).memOk = s.memOk := by
  simp [State.fpInt]

@[simp] theorem fpOp_memOk (lat : Nat) (d : Reg) (rm : Round) (x : ExtNum) (s : State) : (s.fpOp lat d rm x).memOk = s.memOk := by
  simp [State.fpOp]

@[simp] theorem transfer_memOk (taken : Bool) (target : Word) (leaves : Bool) {s : State} (h : s.memOk = true) :
    (s.transfer taken target leaves).memOk = true := by
  simp [h, State.transfer, apply_ite State.memOk]

@[simp] theorem fpPred_memOk (p : PredReg) (x : Bool) (s : State) : (s.fpPred p x).memOk = s.memOk := by
  simp [State.fpPred]

@[simp] theorem restartPrefetch_memOk (g : Port) (s : State) : (s.restartPrefetch g).memOk = s.memOk := by
  simp [State.restartPrefetch]

/-! ### The vector slots -/

@[simp] theorem vec2_memOk (un : VUnit) (d : VDst) (a b : VSrc) (t : VType) (m : MaskReg) (lat : Nat) (f : Nat → Nat → Nat) {s : State} (h :
    s.memOk = true) :
    (s.vec2 un d a b t m lat f).memOk = true := by
  simp [h, State.vec2]

@[simp] theorem vec1_memOk (slot : Nat) (d : VDst) (a : VSrc) (t : VType) (m : MaskReg) (lat : Nat) (f : Nat → Nat) {s : State} (h :
    s.memOk = true) :
    (s.vec1 slot d a t m lat f).memOk = true := by
  simp [h, State.vec1]

@[simp] theorem vecWhole_memOk (slot : Nat) (srcs : List VSrc) (d : VDst) (lat : Nat) (chk : Core → Vec → List Nat)
    (f : Core → List Vec → Vec) {s : State} (h : s.memOk = true) :
    (s.vecWhole slot srcs d lat chk f).memOk = true := by
  simp [h, State.vecWhole]

@[simp] theorem vecMask_memOk (un : VUnit) (k : MaskReg) (a : VSrc) (f : Vec → Nat → Bool) {s : State} (h : s.memOk = true) :
    (s.vecMask un k a f).memOk = true := by
  simp [h, State.vecMask]

theorem execVchk_memOk (un : VUnit) (a b : VSrc) (m : MaskReg) {s : State} (h : s.memOk = true) : nextMem (execVchk un a b m s) := by
  refine nextMem_next (vecIssue_memOk _ _ _ _ (fun vs s => ?_) h)
  simp

/-! ### Instructions of a slot and a core's cycle -/

theorem execLdg_memOk (d a b : Reg) (x : Bool) {s : State} (h : s.memOk = true) : nextMem (execLdg d a b x s) := by
  unfold execLdg
  dsimp only
  rw [nextMem_next_iff]
  split
  · exact fault_memOk _ _ _ h
  · split
    · exact fault_memOk _ _ _ h
    · split
      · exact fault_memOk _ _ _ h
      · exact h

/-- An instruction of a slot, or a micro-word, keeps the form of memory. -/
theorem runInstr_memOk (i : Instr) {s : State} (h : s.memOk = true) : nextMem (runInstr i s) := by
  cases i with
  | nopCtl | nopMem | prefMd | nopVec | nopMx | nopCopy | nopSys =>
    exact nextMem_next h
  | add | sub | and | or | xor | andn | sll | srl | sra | rol | min | max | minu | maxu | mul | mulh | mulhu
  | div | divu | rem | remu | clz | ctz | popc | slli | srli | srai | roli =>
    exact nextMem_next ((intOp_memOk ..).trans h)
  | addi | andi | ori | xori | movhi | addpc | sel | rdsr | gstat =>
    exact nextMem_next ((ctlReg_memOk ..).trans h)
  | cmp | cmpi | pand | por | pxor =>
    exact nextMem_next ((ctlPred_memOk ..).trans h)
  | br | bz | bnz | jmp =>
    exact nextMem_next (transfer_memOk _ _ _ h)
  | call | jr | loop | gcfg | st | ldv | stv | ldx | ldt | prefRc | mlduc | mlducEnt | mPermit | subs
  | cpys | join | merge | yield | viewa | runinl | gjoin | bwait | tcexp | lease | leaserel | permit | trap
  | utret =>
    refine nextMem_next ?_
    repeat' split
    all_goals simp [h]
  | fadd | fsub | fmul | fdiv | fsqrt | fmin | fmax | ffma | ffms | ffnma | ffnms =>
    exact nextMem_next ((fpOp_memOk ..).trans h)
  | fcvtI64F32 | fcvtUi64F32 | fcvtI32F32 | fcvtUi32F32 =>
    exact nextMem_next ((fpInt_memOk ..).trans h)
  | fcvtF32I64 | fcvtF32Ui64 | fcvtF32I32 | fcvtF32Ui32 | fcvtB16F32 | fcvtF32B16 | fcvtF16F32 | fcvtF32F16
  | fcvtF8aF32 | fcvtF8bF32 | fcvtF32F8a | fcvtF32F8b | frint =>
    exact nextMem_next ((fpCode_memOk ..).trans h)
  | feq | flt | fle | fUn =>
    exact nextMem_next ((fpPred_memOk ..).trans h)
  | wrsr | mcall | maccrdRow =>
    refine nextMem_next ?_
    dsimp only
    repeat' split
    all_goals simp [h]
  | gstart | gseek | fenceUo | vfma | vcmp | vscale | vqnt | vunpk | mzero | mseal | maccrd | maccwr | mwait
  | mAload | mBload | mStep | mAddp | mSetp | mSeal | mFmt | mEnd | tcwait | segs | trapDup =>
    exact nextMem_next (by simp [h])
  | gstop | vsetk | vsetkH | vmaskAnd | vmaskOr | vmaskXor | vmaskAndn | vmaskNot | msetp | msetpi | mstat
  | tinfo | vdist | vdmap =>
    exact nextMem_next ((fly_memOk ..).trans h)
  | ld | lds =>
    exact nextMem_next (loadScalar_memOk _ _ _ _ _ _ h)
  | fence | fenceRel | fenceAcq | fenceMem =>
    exact nextMem_next ((point_memOk ..).trans h)
  | vadd | vsub | vmul | vmulh | vmin | vmax | vand | vor | vxor | vandn | vshl | vshr =>
    exact nextMem_next (vec2_memOk _ _ _ _ _ _ _ _ h)
  | vabs | vneg | vexp2 | vlog2 | vrcp | vrsq =>
    exact nextMem_next (vec1_memOk _ _ _ _ _ _ _ h)
  | vsel | vmov | vcvt | vperm | vrot | vrsum | vrmax | vscan =>
    exact nextMem_next (vecWhole_memOk _ _ _ _ _ _ h)
  | vmaskNz | vmaskCnt =>
    exact nextMem_next (vecMask_memOk _ _ _ _ h)
  | mLoop | mZero | mShape =>
    refine nextMem_next ((withRoutine_memOk (fun r s => ?_) s).trans h)
    repeat' split
    all_goals simp
  | mEndloop | mJcmp | mDrain =>
    refine nextMem_next ((withRoutine_memOk (fun r s => ?_) s).trans h)
    dsimp only
    repeat' split
    all_goals simp
  | cpy | cpy2 | cpyb | acc | cas | faa | xchg | fput | unsub | slotrel | publ | cfence | coll =>
    exact nextMem_next (issueCopy_memOk _ _ _ _ _ _ h)
  | spawn | spawnl =>
    exact nextMem_next (spawn_memOk _ _ _ h)
  | fget | fwaitSpin | fwaitYield =>
    exact nextMem_next (holdCell_memOk _ _ _ h)
  | gleave | arrive | arriveDrop | sstep =>
    exact nextMem_next (gangOp_memOk _ _ _ _ h)
  | ldg d a b x => exact execLdg_memOk d a b x h
  | stpk d a o r m => exact execStpk_memOk d a o r m h
  | stt d a o r => exact execStt_memOk d a o r h
  | vchk un a b m => exact execVchk_memOk un a b m h
  | mdrain t d a b z n m x => exact execMdrain_memOk t d a b z n m x h
  | maccwrRow t a b => exact execMaccwrRow_memOk t a b h
  | _ => exact nextMem_next h

@[simp] theorem run_memOk (i : Instr) {s : State} (h : s.memOk = true) : (s.run i).memOk = true := by
  unfold State.run
  split
  · rename_i t ht
    exact runInstr_memOk i h t ht
  · exact h

@[simp] theorem checkCycle_memOk {s : State} (h : s.memOk = true) : s.checkCycle.memOk = true := by
  simp [h, State.checkCycle]

@[simp] theorem microGo_memOk (r : Routine) {s : State} (h : s.memOk = true) : (s.microGo r).memOk = true := by
  unfold State.microGo
  repeat' split
  all_goals simp [h]

@[simp] theorem sendOperand_memOk (s : State) : s.sendOperand.memOk = s.memOk := by
  unfold State.sendOperand
  split <;> simp

@[simp] theorem microStep_memOk (late : Bool) {s : State} (h : s.memOk = true) : (s.microStep late).memOk = true := by
  unfold State.microStep
  repeat' split
  all_goals simp [h]

theorem fetch_memOk (from_ : Nat) {s : State} (h : s.memOk = true) : okMem (s.fetch from_) := by
  unfold State.fetch
  dsimp only
  repeat' split
  all_goals simp [h]

@[simp] theorem issueSlots_memOk (who : Bool × Nat × Word) (is : List Instr) {s : State} (h : s.memOk = true) :
    (s.issueSlots who is).memOk = true := by
  induction is generalizing s with
  | nil => exact h
  | cons i rest ih =>
    unfold State.issueSlots
    split <;> simp [h, ih]

@[simp] theorem issued_memOk (who : Bool × Nat × Word) {s : State} (h : s.memOk = true) : (s.issued who).memOk = true := by
  unfold State.issued
  repeat' split
  all_goals simp [h]

@[simp] theorem issueBundle_memOk (live : List Instr) (stop : Option (Nat × Cause × Word)) {s : State} (h : s.memOk = true) :
    (s.issueBundle live stop).memOk = true := by
  unfold State.issueBundle
  dsimp only
  generalize hu : State.issueSlots _ _ _ = u
  have hslots : u.memOk = true := hu ▸ issueSlots_memOk _ _ h
  repeat' split
  all_goals simp [hslots]

@[simp] theorem issueWith_memOk (i : Input) (k : Nat) (bad : Option Nat) (live : List Instr) {s : State} (h : s.memOk = true) :
    (s.issueWith i k bad live).memOk = true := by
  unfold State.issueWith
  split <;> simp [h]

@[simp] theorem tryIssue_memOk (i : Input) {s : State} (h : s.memOk = true) : (s.tryIssue i).memOk = true := by
  unfold State.tryIssue
  dsimp only
  repeat' split
  all_goals simp [h]

@[simp] theorem fetchFault_memOk (c : Cause) (x : Word) {s : State} (h : s.memOk = true) : (s.fetchFault c x).memOk = true := by
  simp [h, State.fetchFault]

@[simp] theorem fetchIssue_memOk (i : Input) {s : State} (h : s.memOk = true) : (s.fetchIssue i).memOk = true := by
  unfold State.fetchIssue
  split
  · simp [h]
  · extract_lets +onlyGivenNames pc
    split
    · simp [h]
    · split
      · simp [h]
      · split
        · simp [h]
        · split
          · simp [h]
          · rename_i t ht
            have hfetched : t.memOk = true := fetch_memOk i.count h t ht
            repeat' split
            all_goals simp [h, hfetched]

theorem raised_memOk {s : State} (h : s.memOk = true) : someMem s.raised := by
  unfold State.raised
  extract_lets +onlyGivenNames a
  split
  · simp [h]
  · split
    · simp [h]
    · split <;> simp [h]

/-- A core with nothing to raise goes on from a state that it is given. -/
theorem raised_getD_memOk {s t : State} (h : s.memOk = true) (ht : t.memOk = true) : (s.raised.getD t).memOk = true := by
  cases e : s.raised with
  | none => exact ht
  | some u => exact raised_memOk h u e

@[simp] theorem atBundle_memOk (s : State) : s.atBundle.memOk = s.memOk := by
  simp [State.atBundle]

@[simp] theorem issueCycle_memOk (i : Input) {s : State} (h : s.memOk = true) : (s.issueCycle i).memOk = true := by
  unfold State.issueCycle
  dsimp only
  split
  · simp [h]
  · exact raised_getD_memOk (by simp [h]) (by simp [h])

theorem execDeferredFault_memOk {s : State} (h : s.memOk = true) : nextMem (execDeferredFault s) := by
  refine nextMem_next ?_
  split
  · exact raised_getD_memOk (by simp [h]) (by simp [h])
  · simp [h]

@[simp] theorem blockedCycle_memOk {s : State} (h : s.memOk = true) : s.blockedCycle.memOk = true := by
  unfold State.blockedCycle
  split <;> simp [h]

@[simp] theorem engineCycle_memOk (late : Bool) {s : State} (h : s.memOk = true) : (s.engineCycle late).memOk = true := by
  unfold State.engineCycle
  dsimp only
  generalize hu : State.checkCycle _ = u
  have hchecked : u.memOk = true := hu ▸ checkCycle_memOk (by simp [h])
  repeat' split
  all_goals simp [hchecked]

@[simp] theorem operandUncorr_memOk (va : Word) {s : State} (h : s.memOk = true) : (s.operandUncorr va).memOk = true := by
  unfold State.operandUncorr
  repeat' split
  all_goals simp [h]

@[simp] theorem engineUncorr_memOk (place : Word) (s : State) : (s.engineUncorr place).memOk = s.memOk := by
  unfold State.engineUncorr
  split <;> simp

@[simp] theorem frontCycle_memOk (i : Input) (frozen entering : Bool) {s : State} (h : s.memOk = true) :
    (s.frontCycle i frozen entering).memOk = true := by
  unfold State.frontCycle
  repeat' split
  all_goals simp [h]

@[simp] theorem idleUncorr_memOk (off : Nat) {s : State} (h : s.memOk = true) : (s.idleUncorr off).memOk = true := by
  simp [h, State.idleUncorr]

@[simp] theorem coreCycle_memOk (i : Input) {s : State} (h : s.memOk = true) : (s.coreCycle i).memOk = true := by
  unfold State.coreCycle
  split
  · split <;> simp [h]
  · split
    · simp [h]
    · dsimp only
      generalize hu : State.engineCycle _ _ = u
      have hengine : u.memOk = true := by
        refine hu ▸ engineCycle_memOk _ ?_
        repeat' split
        all_goals simp [h]
      split <;> simp [hengine]

/-! ### Every instruction and event -/

theorem execFunctionLevelReset_memOk {s : State} (h : s.memOk = true) : nextMem (execFunctionLevelReset s) := by
  refine nextMem_next ?_
  split
  · exact h
  · exact foldl_keeps_memOk (fun _ c h => destroy_memOk c h) _ h

theorem execDepcntDecrement_memOk {s : State} (h : s.memOk = true) : nextMem (execDepcntDecrement s) := by
  refine nextMem_next ?_
  split
  · exact h
  · exact foldl_keeps_memOk (fun _ d h => applyDecrement_memOk d h) _ h

theorem execPeerRequest_memOk {s : State} (h : s.memOk = true) : nextMem (execPeerRequest s) := by
  refine nextMem_next ?_
  split
  · exact h
  · split
    · exact h
    · dsimp only
      split
      · exact foldl_keeps_memOk (fun _ _ h => writeAt_memOk _ _ _ _ h) _ h
      · split
        · exact h
        · exact foldl_keeps_memOk (fun _ _ h => writeAt_memOk _ _ _ _ h) _ h

theorem execRootAdmission_memOk {s : State} (h : s.memOk = true) : nextMem (execRootAdmission s) := by
  refine nextMem_next ?_
  have hopened : ∀ x r rest cells tags, ((s.openLaunch x r rest).2.writePhys cells tags).memOk = true := by simp [h]
  dsimp only
  repeat' split
  all_goals simp [h, hopened]

theorem execTimeBaseTick_memOk {s : State} (h : s.memOk = true) : nextMem (execTimeBaseTick s) := by
  refine nextMem_next ?_
  split
  · exact h
  · exact h

/-- Every instruction and event keeps the form of memory. -/
theorem exec_memOk (i : Instr) {s : State} (h : s.memOk = true) : nextMem (exec i s) := by
  cases i with
  | powerOnReset | deviceReset | timeBaseStop | loadDataArrival | tlbInvalidateAck | pierEntryLeave | implicitSeal
  | mwaitFill | portPrefetch | segmentWake | storeAcknowledgement =>
    exact nextMem_next (by simp [h])
  | firmwareInit | bundleFetch | shadowCheckVerdict | vchkVerdict | requestTimeout
  | dirtyLineEviction | pageWalk | drainRowLeave | sealVerdict | keystoneVerdict | tokenGrant | refillEpoch
  | leaseExpiry | wearMeasurement | copyResume | atomicApply | atomicResend | subscriptionAccept | loaderPush
  | cpysReceive | publSwap | gangCycle | tcwaitPhaseComplete | fwaitTimeout | tickSlip
  | joinSuspendTimeout | resourceResolution | hangWatchdog | saveDeadline | schedulerTakeover
  | spawnWindowWrite | consumedWrite | registerWrite | fwload =>
    refine nextMem_next ?_
    repeat' split
    all_goals simp [h]
  | replicaResync | copyComplete | atomicBusyRetry | storerPull | collTimeout | fgetResponse
  | taskAdmission | pageFaultResolution | takeoverComplete | apertureRead =>
    refine nextMem_next ?_
    dsimp only
    repeat' split
    all_goals simp [h]
  | ctxcreate | ctxdestroy | streamcreate | ctxparam | restore | streamabort | capture | resync =>
    refine nextMem_next (command_memOk (fun s h => ?_) h)
    repeat' split
    all_goals simp [h]
  | tupd | pagefail =>
    refine nextMem_next (command_memOk (fun s h => ?_) h)
    dsimp only
    repeat' split
    all_goals simp [h]
  | deferredFault => exact execDeferredFault_memOk h
  | collComplete => exact execCollComplete_memOk h
  | taskPick => exact execTaskPick_memOk h
  | combine => exact execCombine_memOk h
  | apertureWrite => exact execApertureWrite_memOk h
  | functionLevelReset => exact execFunctionLevelReset_memOk h
  | depcntDecrement => exact execDepcntDecrement_memOk h
  | peerRequest => exact execPeerRequest_memOk h
  | rootAdmission => exact execRootAdmission_memOk h
  | timeBaseTick => exact execTimeBaseTick_memOk h
  | preempt => exact execPreempt_memOk h
  | _ =>
    rw [exec_eq_runInstr (by rintro ⟨⟩)]
    exact runInstr_memOk _ h

/-- Settles O59: a step is an instruction or event, which keeps the form of memory (`exec_memOk`); memory is written by operations that keep
it. -/
theorem stepKeepsMemoryForm : Obligations.StepKeepsMemoryForm := by
  unfold Obligations.StepKeepsMemoryForm
  intro s t h hstep
  have hlatched : s.latched.memOk = true := h
  unfold step at hstep
  dsimp only at hstep
  split at hstep
  · exact exec_memOk _ hlatched t hstep
  · exact nextMem_next hlatched t hstep

end Sys2Proof.Machine
end

section
/-!
LEMMAS. The INT instructions of the ctl slot compute on natural numbers; each is the operation on bit vectors of its rule
(spec/04 R80 to R84, spec/03 R72).
-/
open Sys2Proof

namespace Sys2Proof.Machine

theorem signedOf_eq_toInt {n : Nat} (hn : 0 < n) (x : Nat) : signedOf n x = (BitVec.ofNat n x).toInt := by
  have hp : 2 ^ n = 2 * 2 ^ (n - 1) := by rw [← Nat.pow_succ', Nat.succ_eq_add_one, Nat.sub_add_cancel hn]
  unfold signedOf
  rw [BitVec.toInt_eq_toNat_cond, BitVec.toNat_ofNat]
  by_cases h : x % 2 ^ n < 2 ^ (n - 1)
  · rw [if_pos h, if_pos (by omega)]
  · rw [if_neg h, if_neg (by omega)]
    push_cast
    rfl

theorem signedOf_toNat {n : Nat} (hn : 0 < n) (x : BitVec n) : signedOf n x.toNat = x.toInt := by
  rw [signedOf_eq_toInt hn, BitVec.ofNat_toNat, BitVec.setWidth_eq]

theorem ofNat_intBits (n : Nat) (k : Int) : BitVec.ofNat n (intBits n k) = BitVec.ofInt n k := by
  apply BitVec.eq_of_toNat_eq
  rw [BitVec.toNat_ofNat, BitVec.toNat_ofInt, intBits]
  have h := Int.emod_lt_of_pos k (show (0 : Int) < 2 ^ n by positivity)
  have h' := Int.emod_nonneg k (show (2 ^ n : Int) ≠ 0 by positivity)
  push_cast
  exact Nat.mod_eq_of_lt (by zify; rwa [Int.toNat_of_nonneg h'])

theorem intWidth_pos (w : Bool) : 0 < intWidth w := by cases w <;> decide

/-- An INT instruction whose numbers are those of a bit-vector operation at its width sends that operation's form. -/
theorem intOp_eq_sends {f : Nat → Nat → Nat → Nat} {F : (n : Nat) → BitVec n → BitVec n → BitVec n} {w : Bool}
    (h : ∀ x y : BitVec (intWidth w), BitVec.ofNat _ (f (intWidth w) x.toNat y.toNat) = F _ x y) (lat : Nat) (d a b : Reg)
    (s : State) : s.intOp lat d a b w f = s.sends lat d (formOf w F (s.core.a.rd a) (s.core.a.rd b)) := by
  unfold State.intOp State.sends
  congr 3
  cases w
  · have e : BitVec.ofNat 64 (f 64 (s.core.a.rd a).toNat (s.core.a.rd b).toNat) = F 64 (s.core.a.rd a) (s.core.a.rd b) := h _ _
    simp only [intResult, intWidth, Arch.opnd, formOf, Bool.false_eq_true, if_false, Nat.mod_eq_of_lt (BitVec.isLt _)]
    rw [signedOf_eq_toInt (by decide), BitVec.ofInt_toInt, e]
  · have e : BitVec.ofNat 32 (f 32 ((s.core.a.rd a).toNat % 2 ^ 32) ((s.core.a.rd b).toNat % 2 ^ 32)) =
        F 32 ((s.core.a.rd a).setWidth 32) ((s.core.a.rd b).setWidth 32) := by
      rw [← BitVec.toNat_setWidth, ← BitVec.toNat_setWidth]
      exact h _ _
    simp only [intResult, intWidth, Arch.opnd, formOf, if_true]
    rw [signedOf_eq_toInt (by decide), e, BitVec.signExtend]

/-- The same for an INT instruction of one source. -/
theorem intOp_eq_sends_unary {f : Nat → Nat → Nat → Nat} {F : (n : Nat) → BitVec n → BitVec n} {w : Bool}
    (h : ∀ x y : BitVec (intWidth w), BitVec.ofNat _ (f (intWidth w) x.toNat y.toNat) = F _ x) (lat : Nat) (d a : Reg)
    (s : State) : s.intOp lat d a a w f = s.sends lat d (formOf w (fun n x _ => F n x) (s.core.a.rd a) 0) :=
  intOp_eq_sends (F := fun n x _ => F n x) h lat d a a s

theorem ofNat_add_mod (n : Nat) (x y : BitVec n) : BitVec.ofNat n ((x.toNat + y.toNat) % 2 ^ n) = x + y :=
  BitVec.eq_of_toNat_eq (by simp)

theorem ofNat_sub_mod (n : Nat) (x y : BitVec n) : BitVec.ofNat n ((x.toNat + (2 ^ n - y.toNat)) % 2 ^ n) = x - y :=
  BitVec.eq_of_toNat_eq (by simp [BitVec.toNat_sub, Nat.add_comm])

theorem ofNat_mul_mod (n : Nat) (x y : BitVec n) : BitVec.ofNat n (x.toNat * y.toNat % 2 ^ n) = x * y :=
  BitVec.eq_of_toNat_eq (by simp)

theorem ofNat_land (n : Nat) (x y : BitVec n) : BitVec.ofNat n (Nat.land x.toNat y.toNat) = x &&& y := by
  change BitVec.ofNat n (x.toNat &&& y.toNat) = _
  rw [← BitVec.toNat_and, BitVec.ofNat_toNat, BitVec.setWidth_eq]

theorem ofNat_lor (n : Nat) (x y : BitVec n) : BitVec.ofNat n (Nat.lor x.toNat y.toNat) = x ||| y := by
  change BitVec.ofNat n (x.toNat ||| y.toNat) = _
  rw [← BitVec.toNat_or, BitVec.ofNat_toNat, BitVec.setWidth_eq]

theorem ofNat_xor (n : Nat) (x y : BitVec n) : BitVec.ofNat n (Nat.xor x.toNat y.toNat) = x ^^^ y := by
  change BitVec.ofNat n (x.toNat ^^^ y.toNat) = _
  rw [← BitVec.toNat_xor, BitVec.ofNat_toNat, BitVec.setWidth_eq]

theorem ofNat_land_complement (n : Nat) (x y : BitVec n) :
    BitVec.ofNat n (Nat.land x.toNat (2 ^ n - 1 - y.toNat)) = x &&& ~~~y := by
  rw [← BitVec.toNat_not, ofNat_land]

/-- A choice between the operands, by an order that both sides agree on. -/
theorem ofNat_choice {n : Nat} {P : Prop} [Decidable P] {b : Bool} (h : P ↔ b = true) (x y : BitVec n) :
    BitVec.ofNat n (if P then y.toNat else x.toNat) = if b then y else x := by
  by_cases hp : P
  · simp [hp, h.1 hp]
  · simp [hp, mt h.2 hp]

theorem signedOf_lt_iff_slt {n : Nat} (hn : 0 < n) (x y : BitVec n) :
    signedOf n x.toNat < signedOf n y.toNat ↔ x.slt y = true := by
  rw [signedOf_toNat hn, signedOf_toNat hn, BitVec.slt_iff_toInt_lt]

theorem toNat_lt_iff_ult {n : Nat} (x y : BitVec n) : x.toNat < y.toNat ↔ x.ult y = true := by
  rw [BitVec.ult_iff_lt, BitVec.lt_def]

theorem ofNat_shiftLeft {n : Nat} (x : BitVec n) (k : Nat) : BitVec.ofNat n (x.toNat * 2 ^ k % 2 ^ n) = x <<< k :=
  BitVec.eq_of_toNat_eq (by simp [Nat.shiftLeft_eq])

theorem ofNat_shiftRight {n : Nat} (x : BitVec n) (k : Nat) : BitVec.ofNat n (x.toNat / 2 ^ k) = x >>> k := by
  rw [← Nat.shiftRight_eq_div_pow, ← BitVec.toNat_ushiftRight, BitVec.ofNat_toNat, BitVec.setWidth_eq]

theorem ofNat_sraNat {n : Nat} (hn : 0 < n) (x : BitVec n) (k : Nat) :
    BitVec.ofNat n (sraNat n x.toNat k) = x.sshiftRight k := by
  rw [sraNat, ofNat_intBits, signedOf_toNat hn, BitVec.sshiftRight, Int.shiftRight_eq_div_pow]
  norm_cast

theorem ofNat_rolNat {n : Nat} (x : BitVec n) {k : Nat} (hk : k < n) :
    BitVec.ofNat n (rolNat n x.toNat k % 2 ^ n) = x.rotateLeft k := by
  apply BitVec.eq_of_toNat_eq
  rw [BitVec.toNat_ofNat, Nat.mod_mod, BitVec.toNat_rotateLeft, Nat.mod_eq_of_lt hk, rolNat]
  have hs : 2 ^ n = 2 ^ (n - k) * 2 ^ k := by rw [← Nat.pow_add]; congr 1; omega
  have hlow : x.toNat / 2 ^ (n - k) < 2 ^ k := Nat.div_lt_of_lt_mul (hs ▸ x.isLt)
  have htop : x.toNat * 2 ^ k % 2 ^ n = (x.toNat % 2 ^ (n - k)) <<< k := by
    rw [hs, Nat.mul_mod_mul_right, Nat.shiftLeft_eq]
  rw [Nat.shiftLeft_eq, htop, Nat.shiftRight_eq_div_pow, ← Nat.shiftLeft_add_eq_or_of_lt hlow, ← htop, Nat.add_mod,
    Nat.mod_eq_of_lt (a := x.toNat / _) (lt_of_lt_of_le hlow (Nat.pow_le_pow_right (by decide) hk.le))]
  apply Nat.mod_eq_of_lt
  rw [htop, Nat.shiftLeft_eq, hs]
  have := Nat.mod_lt x.toNat (show 0 < 2 ^ (n - k) by positivity)
  calc _ < x.toNat % 2 ^ (n - k) * 2 ^ k + 2 ^ k := Nat.add_lt_add_left hlow _
    _ = (x.toNat % 2 ^ (n - k) + 1) * 2 ^ k := by ring
    _ ≤ _ := Nat.mul_le_mul_right _ this

theorem ofInt_extract_high (n : Nat) (k : Int) : (BitVec.ofInt (2 * n) k).extractLsb' n n = BitVec.ofInt n (k / 2 ^ n) := by
  apply BitVec.eq_of_toNat_eq
  have hp : (0 : Int) < 2 ^ n := by positivity
  have hd : k % (2 ^ n * 2 ^ n) / 2 ^ n = k / 2 ^ n % 2 ^ n := by
    rw [Int.emod_def k, Int.sub_ediv_of_dvd _ ⟨2 ^ n * (k / (2 ^ n * 2 ^ n)), by ring⟩, mul_assoc, Int.mul_ediv_cancel_left _ hp.ne',
      Int.emod_def (k / 2 ^ n), Int.ediv_ediv_of_nonneg hp.le]
  have hr : 0 ≤ k % (2 ^ n * 2 ^ n) := Int.emod_nonneg _ (by positivity)
  rw [BitVec.extractLsb'_toNat, BitVec.toNat_ofInt, BitVec.toNat_ofInt, Nat.shiftRight_eq_div_pow]
  zify
  rw [two_mul, pow_add, Int.toNat_of_nonneg hr, Int.toNat_of_nonneg (Int.emod_nonneg _ hp.ne'), hd, Int.emod_emod_of_dvd _ dvd_rfl]

theorem ofNat_mulHigh {n : Nat} (hn : 0 < n) (x y : BitVec n) :
    BitVec.ofNat n (intBits n (signedOf n x.toNat * signedOf n y.toNat / (2 ^ n : Int))) =
      highHalf n (BitVec.signExtend (2 * n)) x y := by
  rw [ofNat_intBits, signedOf_toNat hn, signedOf_toNat hn, highHalf, BitVec.signExtend, BitVec.signExtend, ← BitVec.ofInt_mul,
    ofInt_extract_high]

theorem ofNat_mulHighUnsigned {n : Nat} (x y : BitVec n) :
    BitVec.ofNat n (x.toNat * y.toNat / 2 ^ n) = highHalf n (BitVec.setWidth (2 * n)) x y := by
  have h : x.setWidth (2 * n) * y.setWidth (2 * n) = BitVec.ofInt (2 * n) (x.toNat * y.toNat : Nat) := by
    rw [BitVec.ofInt_natCast, BitVec.ofNat_mul, BitVec.ofNat_toNat, BitVec.ofNat_toNat]
  rw [highHalf, h, ofInt_extract_high, ← BitVec.ofInt_natCast]
  norm_cast

theorem ofNat_two_pow_sub_one (n : Nat) : BitVec.ofNat n (2 ^ n - 1) = BitVec.allOnes n := BitVec.eq_of_toNat_eq (by simp)

theorem ofNat_divNat {n : Nat} (hn : 0 < n) (x y : BitVec n) : BitVec.ofNat n (divNat n x.toNat y.toNat) = quotient n x y := by
  by_cases hy : y = 0
  · simp [divNat, quotient, hy, ofNat_two_pow_sub_one]
  · have hy' : y.toNat ≠ 0 := by simpa [BitVec.toNat_eq] using hy
    simp only [divNat, hy', if_false, quotient, hy]
    rw [ofNat_intBits, signedOf_toNat hn, signedOf_toNat hn]
    exact BitVec.eq_of_toInt_eq (by rw [BitVec.toInt_ofInt, BitVec.toInt_sdiv])

theorem ofNat_remNat {n : Nat} (hn : 0 < n) (x y : BitVec n) : BitVec.ofNat n (remNat n x.toNat y.toNat) = remainder n x y := by
  by_cases hy : y = 0
  · simp [remNat, remainder, hy]
  · have hy' : y.toNat ≠ 0 := by simpa [BitVec.toNat_eq] using hy
    simp only [remNat, hy', if_false, remainder, hy]
    rw [ofNat_intBits, signedOf_toNat hn, signedOf_toNat hn, ← BitVec.toInt_srem, BitVec.ofInt_toInt]

theorem ofNat_divUnsigned (n : Nat) (x y : BitVec n) :
    BitVec.ofNat n (if y.toNat = 0 then 2 ^ n - 1 else x.toNat / y.toNat) = if y = 0 then BitVec.allOnes n else x / y := by
  by_cases hy : y = 0
  · simp [hy, ofNat_two_pow_sub_one]
  · have hy' : y.toNat ≠ 0 := by simpa [BitVec.toNat_eq] using hy
    rw [if_neg hy, if_neg hy', ← BitVec.toNat_udiv, BitVec.ofNat_toNat, BitVec.setWidth_eq]

theorem ofNat_remUnsigned (n : Nat) (x y : BitVec n) :
    BitVec.ofNat n (if y.toNat = 0 then x.toNat else x.toNat % y.toNat) = if y = 0 then x else x % y := by
  by_cases hy : y = 0
  · simp [hy]
  · have hy' : y.toNat ≠ 0 := by simpa [BitVec.toNat_eq] using hy
    rw [if_neg hy, if_neg hy', ← BitVec.toNat_umod, BitVec.ofNat_toNat, BitVec.setWidth_eq]

/-- The places before the first that a predicate refuses, counted from 0. -/
theorem length_takeWhile_range_succ (f : Nat → Bool) (n : Nat) :
    ((List.range (n + 1)).takeWhile f).length =
      if f 0 then ((List.range n).takeWhile (fun i => f (i + 1))).length + 1 else 0 := by
  rw [List.range_succ_eq_map, List.takeWhile_cons]
  by_cases h : f 0 <;> simp [h, List.takeWhile_map, Function.comp_def]

theorem clzNat_eq (n a : Nat) : clzNat n a = ((List.range n).takeWhile (fun i => !a.testBit (n - 1 - i))).length := by
  induction n with
  | zero => rfl
  | succ n ih =>
    rw [length_takeWhile_range_succ, clzNat, ih]
    simp only [Nat.testBit_eq_decide_div_mod_eq, Nat.add_sub_cancel, Nat.sub_zero, Nat.sub_sub, Nat.add_comm 1]
    by_cases h : a / 2 ^ n % 2 = 1 <;> simp [h]

theorem ctzNat_eq (n a : Nat) : ctzNat n a = ((List.range n).takeWhile (fun i => !a.testBit i)).length := by
  induction n generalizing a with
  | zero => rfl
  | succ n ih =>
    rw [length_takeWhile_range_succ, ctzNat, ih]
    by_cases h : a % 2 = 1 <;> simp [h, Nat.testBit_zero, Nat.testBit_succ]

theorem popcNat_eq (n a : Nat) : popcNat n a = ((List.range n).filter (fun i => a.testBit i)).length := by
  induction n generalizing a with
  | zero => rfl
  | succ n ih =>
    rw [List.range_succ_eq_map, List.filter_cons, popcNat, ih, List.filter_map, Nat.testBit_zero]
    rcases Nat.mod_two_eq_zero_or_one a with h | h <;>
      simp [h, Function.comp_def, Nat.testBit_succ, Nat.add_comm]

theorem takeWhile_congr_of_mem {α : Type} {f g : α → Bool} {l : List α} (h : ∀ x ∈ l, f x = g x) :
    l.takeWhile f = l.takeWhile g := by
  induction l with
  | nil => rfl
  | cons x l ih =>
    rw [List.takeWhile_cons, List.takeWhile_cons, h x List.mem_cons_self, ih (fun y hy => h y (List.mem_cons_of_mem x hy))]

theorem clzNat_toNat {n : Nat} (x : BitVec n) : clzNat n x.toNat = leadingZeros x := by
  rw [clzNat_eq, leadingZeros, takeWhile_congr_of_mem]
  intro i hi
  rw [BitVec.getMsbD, decide_eq_true (List.mem_range.1 hi), Bool.true_and, BitVec.getLsbD]

theorem ctzNat_toNat {n : Nat} (x : BitVec n) : ctzNat n x.toNat = trailingZeros x := ctzNat_eq n x.toNat

theorem popcNat_toNat {n : Nat} (x : BitVec n) : popcNat n x.toNat = onesIn x := popcNat_eq n x.toNat

/-- The immediate amounts of the 32-bit shifts are below 32, so that no shift reduces its amount. -/
theorem shiftAmount_lt {w : Bool} {k : BitVec 6} (h : w = true → k.toNat < 32) : k.toNat < intWidth w := by
  cases w
  · exact k.isLt
  · exact h rfl

theorem integerArithmeticResults : Claims.IntegerArithmeticResults := by
  intro d a b w s x y
  have hn := intWidth_pos w
  refine ⟨?_, ?_, ?_, ?_, ?_, ?_, ?_, ?_, ?_, ?_⟩ <;> refine congrArg Host.Outcome.next (intOp_eq_sends (fun x y => ?_) _ _ _ _ _)
  · exact ofNat_add_mod _ x y
  · exact ofNat_sub_mod _ x y
  · exact ofNat_land _ x y
  · exact ofNat_lor _ x y
  · exact ofNat_xor _ x y
  · exact ofNat_land_complement _ x y
  · exact ofNat_choice (signedOf_lt_iff_slt hn y x) x y
  · exact ofNat_choice (signedOf_lt_iff_slt hn x y) x y
  · exact ofNat_choice (toNat_lt_iff_ult y x) x y
  · exact ofNat_choice (toNat_lt_iff_ult x y) x y

theorem shiftResults : Claims.ShiftResults := by
  constructor
  · intro d a b w s x y
    have hn := intWidth_pos w
    refine ⟨?_, ?_, ?_, ?_⟩ <;> refine congrArg Host.Outcome.next (intOp_eq_sends (fun x y => ?_) _ _ _ _ _)
    · exact ofNat_shiftLeft x _
    · exact ofNat_shiftRight x _
    · exact ofNat_sraNat hn x _
    · exact ofNat_rolNat x (Nat.mod_lt _ hn)
  · intro d a w k s hk x
    have hk := shiftAmount_lt hk
    have e : shiftOf (intWidth w) k.toNat = k.toNat := Nat.mod_eq_of_lt hk
    refine ⟨?_, ?_, ?_, ?_⟩ <;> refine congrArg Host.Outcome.next (intOp_eq_sends_unary (fun x y => ?_) _ _ _ _)
    · rw [e]; exact ofNat_shiftLeft x _
    · rw [e]; exact ofNat_shiftRight x _
    · rw [e]; exact ofNat_sraNat (intWidth_pos w) x _
    · rw [e]; exact ofNat_rolNat x hk

theorem multiplyDivideResults : Claims.MultiplyDivideResults := by
  intro d a b w s x y
  have hn := intWidth_pos w
  refine ⟨?_, ?_, ?_, ?_, ?_, ?_, ?_⟩ <;> refine congrArg Host.Outcome.next (intOp_eq_sends (fun x y => ?_) _ _ _ _ _)
  · exact ofNat_mul_mod _ x y
  · exact ofNat_mulHigh hn x y
  · exact ofNat_mulHighUnsigned x y
  · exact ofNat_divNat hn x y
  · exact ofNat_divUnsigned _ x y
  · exact ofNat_remNat hn x y
  · exact ofNat_remUnsigned _ x y

theorem bitCountResults : Claims.BitCountResults := by
  intro d a w s x
  refine ⟨?_, ?_, ?_⟩ <;> refine congrArg Host.Outcome.next (intOp_eq_sends_unary (fun x y => ?_) _ _ _ _)
  · exact congrArg (BitVec.ofNat _) (clzNat_toNat x)
  · exact congrArg (BitVec.ofNat _) (ctzNat_toNat x)
  · exact congrArg (BitVec.ofNat _) (popcNat_toNat x)

/-- Settles O1: each operation on numbers is that on bit vectors, at both widths. -/
theorem integerResults : Obligations.IntegerResults :=
  ⟨integerArithmeticResults, shiftResults, multiplyDivideResults, bitCountResults⟩

end Sys2Proof.Machine
end

section
/-!
LEMMAS. The immediate forms, compares, predicate operations and transfers of the ctl slot (spec/04 R82 to R91, spec/02 R44).
-/
open Sys2Proof

namespace Sys2Proof.Machine

/-- A field above another is its value times the power of two of the lower one's width. -/
theorem toNat_append_add {m n : Nat} (x : BitVec m) (y : BitVec n) : (x ++ y).toNat = x.toNat * 2 ^ n + y.toNat := by
  rw [BitVec.toNat_append, ← Nat.shiftLeft_add_eq_or_of_lt y.isLt, Nat.shiftLeft_eq]

theorem shiftLeft_or_low (x : Word) (i : BitVec 16) : x <<< 16 ||| i.zeroExtend 64 = (x.extractLsb' 0 48 ++ i : BitVec 64) := by
  apply BitVec.eq_of_toNat_eq
  have hx : x.toNat * 2 ^ 16 % 2 ^ 64 = (x.toNat % 2 ^ 48) * 2 ^ 16 := by
    rw [show 2 ^ 64 = 2 ^ 48 * 2 ^ 16 from rfl, Nat.mul_mod_mul_right]
  have hi : i.toNat % 2 ^ 64 = i.toNat := Nat.mod_eq_of_lt (i.isLt.trans (by decide))
  refine Eq.trans ?_ (toNat_append_add (x.extractLsb' 0 48) i).symm
  rw [BitVec.toNat_or, BitVec.toNat_shiftLeft, BitVec.zeroExtend, BitVec.toNat_setWidth, hi, Nat.shiftLeft_eq, hx,
    BitVec.extractLsb'_toNat, Nat.shiftRight_zero, ← Nat.shiftLeft_eq, ← Nat.shiftLeft_add_eq_or_of_lt i.isLt, Nat.shiftLeft_eq]

/-- A target 32 times the offset away, the offset sign-extended (spec/04 R87). -/
theorem relTarget_eq {n : Nat} (pc : Word) (o : BitVec n) : relTarget pc o = pc + (o.signExtend 64) <<< 5 := by
  rw [relTarget, BitVec.shiftLeft_eq_mul_twoPow, BitVec.signExtend, mul_comm (32 : Int), BitVec.ofInt_mul]
  rfl

theorem immediateResults : Claims.ImmediateResults := by
  intro d a i s x
  refine ⟨rfl, rfl, rfl, rfl, ?_, ?_⟩ <;> refine congrArg (fun y => Host.Outcome.next (s.sends 1 d y)) ?_
  · exact shiftLeft_or_low x i
  · exact relTarget_eq s.core.a.pc i

/-- A condition on numbers is the condition on the bit vectors that they are of. -/
theorem cond_eval_toNat {n : Nat} (hn : 0 < n) (c : Cond) (x y : BitVec n) : Cond.eval c n x.toNat y.toNat = condOn c x y := by
  cases c
  case eq => rw [Cond.eval, condOn, Bool.eq_iff_iff, beq_iff_eq, beq_iff_eq, BitVec.toNat_eq]
  case ne => rw [Cond.eval, condOn, Bool.eq_iff_iff, bne_iff_ne, bne_iff_ne, Ne, Ne, BitVec.toNat_eq]
  case lt => rw [Cond.eval, condOn, Bool.eq_iff_iff, decide_eq_true_iff, signedOf_lt_iff_slt hn]
  case ge =>
    rw [Cond.eval, condOn, Bool.eq_iff_iff, decide_eq_true_iff, Bool.not_eq_true', ← Bool.not_eq_true, ← signedOf_lt_iff_slt hn, not_lt]
  case ltu => rw [Cond.eval, condOn, Bool.eq_iff_iff, decide_eq_true_iff, toNat_lt_iff_ult]
  case geu =>
    rw [Cond.eval, condOn, Bool.eq_iff_iff, decide_eq_true_iff, Bool.not_eq_true', ← Bool.not_eq_true, ← toNat_lt_iff_ult, not_lt]
  case tst =>
    rw [Cond.eval, condOn, Bool.eq_iff_iff, bne_iff_ne, bne_iff_ne, Ne, Ne, BitVec.toNat_eq, BitVec.toNat_and]
    rfl

theorem compareAndSelectResults : Claims.CompareAndSelectResults := by
  refine ⟨?_, ?_, ?_, ?_⟩
  · intro p a b w c s x y
    refine congrArg (fun z => Host.Outcome.next (s.fly 1 0 [.p p z])) ?_
    cases w
    · exact (congrArg₂ (Cond.eval c 64) (Nat.mod_eq_of_lt x.isLt) (Nat.mod_eq_of_lt y.isLt)).trans (cond_eval_toNat (by decide) c x y)
    · exact (congrArg₂ (Cond.eval c 32) (BitVec.toNat_setWidth ..).symm (BitVec.toNat_setWidth ..).symm).trans
        (cond_eval_toNat (by decide) c (x.setWidth 32) (y.setWidth 32))
  · intro p c a i s
    exact congrArg (fun z => Host.Outcome.next (s.fly 1 0 [.p p z])) (cond_eval_toNat (by decide) c _ _)
  · intro d pa pb na nb s x y
    refine ⟨rfl, rfl, rfl⟩
  · intro d a b n p s
    refine congrArg (fun y => Host.Outcome.next (s.sends 1 d y)) ?_
    exact (apply_ite s.core.a.rd _ _ _).symm

/-- Settles O2: each immediate form by its own equation, each condition by that of the bit vectors. -/
theorem immediateAndCompareResults : Obligations.ImmediateAndCompareResults := ⟨immediateResults, compareAndSelectResults⟩

/-! ### Transfers -/

/-- Outside delay bundles a transfer sets its target aside. -/
theorem transfer_eq_jumps {s : State} (h : s.core.a.pend = none) (taken leaves : Bool) (t : Word) :
    s.transfer taken t leaves = s.jumps taken leaves t := by
  unfold State.transfer Arch.inDelay State.jumps
  rw [h, Option.isSome_none, if_neg Bool.false_ne_true]
  rfl

theorem low5_eq_zero_iff (x : Word) : x.extractLsb' 0 5 = 0 ↔ x.toNat % 32 = 0 := by
  rw [BitVec.toNat_eq, BitVec.extractLsb'_toNat]
  simp

/-- In a delay bundle a transfer is illegal. -/
theorem transfer_delay {s : State} (h : s.core.a.pend.isSome = true) (taken leaves : Bool) (t : Word) :
    s.transfer taken t leaves = s.illegal 0 := if_pos h

theorem transferEffects : Claims.TransferEffects := by
  intro s h rel
  have hd : s.core.a.inDelay = false := by rw [Arch.inDelay, h]; rfl
  refine ⟨rfl, fun p n o => ?_, fun a o => ⟨?_, ?_⟩, fun o => ⟨?_, ?_⟩, fun d a ha => ?_⟩
  · exact congrArg Host.Outcome.next (by rw [transfer_eq_jumps h, relTarget_eq])
  · exact congrArg Host.Outcome.next (by rw [transfer_eq_jumps h, relTarget_eq])
  · exact congrArg Host.Outcome.next (by rw [transfer_eq_jumps h, relTarget_eq])
  · exact congrArg Host.Outcome.next (by rw [transfer_eq_jumps h, relTarget_eq])
  · exact congrArg Host.Outcome.next (by rw [hd, if_neg Bool.false_ne_true, transfer_eq_jumps h, relTarget_eq]; rfl)
  · refine congrArg Host.Outcome.next ?_
    rw [hd, if_neg Bool.false_ne_true, if_neg (not_not.2 ((low5_eq_zero_iff _).1 ha)), transfer_eq_jumps h]
    rfl

/-- The end bundle of a LOOP (spec/04 R89). -/
theorem loopStop_eq (pc : Word) (o : BitVec 16) : pc + word (32 * o.toNat) = pc + (o.setWidth 64) <<< 5 := by
  rw [BitVec.shiftLeft_eq_mul_twoPow, word, mul_comm, BitVec.ofNat_mul, BitVec.ofNat_toNat]
  rfl

/-- An active level ends before the end bundle of a LOOP. -/
theorem beyond_iff (a : Arch) (o : BitVec 16) :
    a.loops.toList.any (fun x => x.act && decide (x.stop.toNat < (a.pc + word (32 * o.toNat)).toNat)) = true ↔
      ∃ k : LoopNo, a.loops[k].act = true ∧ (a.loops[k].stop).ult (a.pc + (o.setWidth 64) <<< 5) = true := by
  rw [loopStop_eq, List.any_eq_true]
  simp only [Bool.and_eq_true, decide_eq_true_iff, BitVec.ult_iff_lt, BitVec.lt_def, Vector.mem_toList_iff, Vector.mem_iff_getElem]
  constructor
  · rintro ⟨x, ⟨i, hi, rfl⟩, hx⟩
    exact ⟨⟨i, hi⟩, hx⟩
  · rintro ⟨k, hk⟩
    exact ⟨_, ⟨k.val, k.isLt, rfl⟩, hk⟩

theorem transferTraps : Claims.TransferTraps := by
  refine ⟨fun p n o j d a l s h i hi => ?_, fun d a s h ha => ?_, ?_⟩
  · have hd : s.core.a.inDelay = true := h
    simp only [List.mem_cons, List.not_mem_nil, or_false] at hi
    rcases hi with rfl | rfl | rfl | rfl | rfl | rfl | rfl
    · exact congrArg Host.Outcome.next (transfer_delay h _ _ _)
    · exact congrArg Host.Outcome.next (transfer_delay h _ _ _)
    · exact congrArg Host.Outcome.next (transfer_delay h _ _ _)
    · exact congrArg Host.Outcome.next (transfer_delay h _ _ _)
    · exact congrArg Host.Outcome.next (if_pos hd)
    · exact congrArg Host.Outcome.next (if_pos hd)
    · exact congrArg Host.Outcome.next (if_pos hd)
  · have hd : s.core.a.inDelay = false := by rw [Arch.inDelay, h]; rfl
    refine congrArg Host.Outcome.next ?_
    rw [hd, if_neg Bool.false_ne_true, if_pos (mt (low5_eq_zero_iff _).2 ha)]
  · intro l a o s h e he
    refine congrArg Host.Outcome.next (ite_eq_left_iff.2 fun _ => if_pos ?_)
    rw [Bool.or_eq_true, Bool.or_eq_true, decide_eq_true_iff]
    rcases he with he | he | he
    · exact .inl (.inl he)
    · exact .inl (.inr (by rw [he]; rfl))
    · exact .inr ((beyond_iff s.core.a o).2 he)

theorem loopEffect : Claims.LoopEffect := by
  intro l a o s h hl ho e he
  have hd : s.core.a.inDelay = false := by rw [Arch.inDelay, h]; rfl
  have ho' : o.toNat ≠ 0 := by simpa [BitVec.toNat_eq] using ho
  have hb : ¬ (s.core.a.loops.toList.any
      (fun x => x.act && decide (x.stop.toNat < (s.core.a.pc + word (32 * o.toNat)).toNat)) = true) := by
    rw [beyond_iff]
    rintro ⟨k, hk, hlt⟩
    exact absurd (BitVec.lt_def.1 (BitVec.ult_iff_lt.1 hlt)) (Nat.not_lt.2 (BitVec.le_def.1 (BitVec.ule_iff_le.1 (he k hk))))
  have hgo : ¬ (((s.core.a.loops[l].act || decide (o.toNat = 0)) || s.core.a.loops.toList.any
      (fun x => x.act && decide (x.stop.toNat < (s.core.a.pc + word (32 * o.toNat)).toNat))) = true) := by
    rw [Bool.or_eq_true, Bool.or_eq_true, decide_eq_true_iff, hl]
    exact not_or.2 ⟨not_or.2 ⟨Bool.false_ne_true, ho'⟩, hb⟩
  have hz : (s.core.a.rd a).toNat = 0 ↔ s.core.a.rd a = 0 := (BitVec.toNat_eq (y := 0)).symm
  have run : exec (.loop l a o) s = .next (if s.core.a.rd a = 0 then s.modA (fun x => { x with pend := some ⟨e + 32, 1, false⟩ })
      else s.modA (fun x => { x with loops := x.loops.set l ⟨true, s.core.a.pc + 32, e, (s.core.a.rd a).toNat⟩,
                                     order := l :: x.order })) := by
    refine congrArg Host.Outcome.next ?_
    rw [hd, if_neg Bool.false_ne_true, if_neg hgo, loopStop_eq]
    exact if_congr hz rfl rfl
  by_cases hc : s.core.a.rd a = 0
  · rw [if_pos hc] at run
    refine ⟨_, run, ?_, rfl⟩
    rw [if_pos hc]
    exact ⟨rfl, rfl⟩
  · rw [if_neg hc] at run
    refine ⟨_, run, ?_, rfl⟩
    rw [if_neg hc]
    refine ⟨h, rfl, fun k => ?_⟩
    by_cases hk : k = l
    · subst hk
      rw [if_pos rfl]
      exact Vector.getElem_set_self ..
    · rw [if_neg hk]
      exact Vector.getElem_set_ne l.isLt k.isLt (fun e => hk (Fin.ext e.symm))

/-- Settles O3: outside a delay bundle each transfer and LOOP follows one branch of its definition. -/
theorem transferResults : Obligations.TransferResults := ⟨transferEffects, loopEffect, transferTraps⟩

end Sys2Proof.Machine
end

section
/-!
LEMMAS. Status words are the joined fields of their rules (spec/04 R97, spec/07 R149, spec/09 R198, spec/10 R214, spec/14 R298,
R300, spec/15 R308, R317).
-/
open Sys2Proof

namespace Sys2Proof.Machine

theorem toNat_flag (b : Bool) : (flag b).toNat = b.toNat := by cases b <;> rfl

theorem bitAt_eq_mul (b : Bool) (i : Nat) : bitAt b i = b.toNat * 2 ^ i := by cases b <;> simp [bitAt]

theorem toNat_word (n : Nat) : (word n).toNat = n % 2 ^ 64 := BitVec.toNat_ofNat ..

theorem vector_getD_eq_getElem {α : Type} {n : Nat} (v : Vector α n) (d : α) {i : Nat} (h : i < n) : v.getD i d = v[i] := by
  simp [Vector.getD, h]

theorem stw_eq_fields (c : Core) : c.stw = c.stwFields := by
  have e : c.stw = word (bitAt c.sp 15 + bitAt c.a.ut 14 + bitAt (c.a.trap.any (fun t => t.pend.isSome)) 13 + bitAt c.a.lx.isSome 12 +
      ((List.range 4).foldl (fun n l => n + bitAt (c.a.loops.getD l LoopLevel.init).act (8 + l)) 0) + c.a.sres.toNat) := by
    unfold Core.stw
    cases c.a.trap <;> rfl
  apply BitVec.eq_of_toNat_eq
  rw [e]
  simp only [Core.stwFields, List.range, List.range.loop, List.foldl, vector_getD_eq_getElem _ _ (show 0 < 4 by decide),
    vector_getD_eq_getElem _ _ (show 1 < 4 by decide), vector_getD_eq_getElem _ _ (show 2 < 4 by decide),
    vector_getD_eq_getElem _ _ (show 3 < 4 by decide), toNat_word, toNat_append_add, toNat_flag, bitAt_eq_mul]
  have := Bool.toNat_lt c.sp
  have := Bool.toNat_lt c.a.ut
  have := Bool.toNat_lt (c.a.trap.any (fun t => t.pend.isSome))
  have := Bool.toNat_lt c.a.lx.isSome
  have := Bool.toNat_lt c.a.loops[0].act
  have := Bool.toNat_lt c.a.loops[1].act
  have := Bool.toNat_lt c.a.loops[2].act
  have := Bool.toNat_lt c.a.loops[3].act
  have := c.a.sres.isLt
  simp only [BitVec.toNat_ofNat]
  omega

theorem meltWord_eq_fields (s : State) : s.meltWord = s.meltFields := by
  apply BitVec.eq_of_toNat_eq
  unfold State.meltWord State.meltFields
  simp only [toNat_word, toNat_append_add, toNat_flag, bitAt_eq_mul, BitVec.toNat_ofNat]
  have := Bool.toNat_lt s.rf
  have := Bool.toNat_lt (decide (896 ≤ s.melt) || s.rf)
  omega

theorem leaseSt_code_lt (x : LeaseSt) : x.code < 4 := by cases x <;> decide

theorem leaseWord_eq_fields (s : State) : s.leaseWord = s.leaseFields := by
  apply BitVec.eq_of_toNat_eq
  unfold State.leaseWord State.leaseFields
  generalize s.cluster s.core.id = c
  have := Bool.toNat_lt (c.heldBy s.core)
  have := leaseSt_code_lt c.st
  dsimp only
  generalize c.lease = o
  cases o with
  | none =>
    simp only [toNat_word, toNat_append_add, toNat_flag, bitAt_eq_mul, BitVec.toNat_ofNat]
    omega
  | some l =>
    simp only [toNat_word, toNat_append_add, toNat_flag, bitAt_eq_mul, BitVec.toNat_ofNat, cdiv]
    omega

theorem cover_eq_fields (c : Core) : c.cover = c.coverFields := by
  apply BitVec.eq_of_toNat_eq
  unfold Core.cover Core.coverFields
  simp only [toNat_word, toNat_append_add, toNat_flag, bitAt_eq_mul, BitVec.toNat_ofNat]
  have := Bool.toNat_lt (c.pier.any c.a.holds)
  have := Bool.toNat_lt c.sp
  omega

theorem errStatus_eq_fields (c : Core) : c.err.status = c.errFields := by
  apply BitVec.eq_of_toNat_eq
  unfold ErrCnt.status Core.errFields sat
  simp only [toNat_word, toNat_append_add, BitVec.toNat_ofNat]
  omega

theorem seg_code_lt (x : Seg) : x.code < 4 := by cases x <;> simp [Seg.code]

/-- The number whose digits to base 4 are given. -/
def quaternary (f : Nat → Nat) (n : Nat) : Nat := (List.range n).foldl (fun x j => x + f j * 4 ^ j) 0

theorem quaternary_succ (f : Nat → Nat) (n : Nat) : quaternary f (n + 1) = quaternary f n + f n * 4 ^ n := by
  simp [quaternary, List.range_succ]

theorem quaternary_lt {f : Nat → Nat} (h : ∀ j, f j < 4) (n : Nat) : quaternary f n < 4 ^ n := by
  induction n with
  | zero => exact Nat.one_pos
  | succ n ih =>
    rw [quaternary_succ]
    have := Nat.mul_le_mul_right (4 ^ n) (Nat.le_of_lt_succ (h n))
    omega

theorem quaternary_digit {f : Nat → Nat} (h : ∀ j, f j < 4) {n j : Nat} (hj : j < n) : quaternary f n / 4 ^ j % 4 = f j := by
  induction n with
  | zero => omega
  | succ n ih =>
    rw [quaternary_succ]
    rcases Nat.lt_succ_iff_lt_or_eq.1 hj with hj | rfl
    · have e : f n * 4 ^ n = 4 ^ j * (4 * (f n * 4 ^ (n - 1 - j))) := by
        rw [show n = j + (1 + (n - 1 - j)) by omega, show j + (1 + (n - 1 - j)) - 1 - j = n - 1 - j by omega, pow_add, pow_add]
        ring
      rw [e, Nat.add_mul_div_left _ _ (by positivity), Nat.add_mul_mod_self_left, ih hj]
    · rw [Nat.add_mul_div_right _ _ (by positivity), Nat.div_eq_of_lt (quaternary_lt h j), Nat.zero_add, Nat.mod_eq_of_lt (h j)]

theorem segst_eq_quaternary (a : Arch) : a.segst = word (quaternary (fun j => (a.segs.getD j .off).code) 16) := rfl

theorem toNat_segst (a : Arch) : a.segst.toNat = quaternary (fun j => (a.segs.getD j .off).code) 16 := by
  have := quaternary_lt (fun j => seg_code_lt (a.segs.getD j .off)) 16
  rw [segst_eq_quaternary, toNat_word, Nat.mod_eq_of_lt (by omega)]

/-- The field of segment `j` of SEGST holds its code. -/
theorem segst_field (a : Arch) (j : Fin 16) : a.segst.extractLsb' (2 * j.val) 2 = BitVec.ofNat 2 (a.segs[j]).code := by
  apply BitVec.eq_of_toNat_eq
  rw [BitVec.extractLsb'_toNat, toNat_segst, Nat.shiftRight_eq_div_pow, pow_mul,
    show (2 ^ 2 : Nat) = 4 from rfl, quaternary_digit (fun j => seg_code_lt (a.segs.getD j .off)) j.isLt,
    vector_getD_eq_getElem _ _ j.isLt, BitVec.toNat_ofNat, Nat.mod_eq_of_lt (seg_code_lt _)]
  rfl

theorem segst_high (a : Arch) : a.segst.extractLsb' 32 32 = 0 := by
  have := quaternary_lt (fun j => seg_code_lt (a.segs.getD j .off)) 16
  apply BitVec.eq_of_toNat_eq
  rw [BitVec.extractLsb'_toNat, toNat_segst, Nat.shiftRight_eq_div_pow, Nat.div_eq_of_lt (by omega)]
  rfl

theorem portStatus_eq_fields (p : PortState) : p.status = p.statusFields := by
  apply BitVec.eq_of_toNat_eq
  unfold PortState.status PortState.statusFields
  simp only [toNat_word, toNat_append_add, toNat_flag, bitAt_eq_mul, BitVec.toNat_ofNat]
  have := Bool.toNat_lt p.wrap
  have := Bool.toNat_lt p.mode
  have := Bool.toNat_lt p.exh
  have := Bool.toNat_lt p.act
  omega

theorem systemRegisterReads : Claims.SystemRegisterReads := by
  refine ⟨fun d i s => rfl, fun s => ?_⟩
  refine ⟨rfl, rfl, rfl, rfl, rfl, rfl, stw_eq_fields s.core, meltWord_eq_fields s, leaseWord_eq_fields s, cover_eq_fields s.core,
    errStatus_eq_fields s.core, segst_high s.core.a, segst_field s.core.a, ?_⟩
  intro x d v hx hv hd hv'
  apply BitVec.eq_of_toNat_eq
  have e : s.sysRead .vdid = word (d * 256 + v) := by
    change s.vdid = _
    rw [State.vdid, hx, Option.bind_some, hv]
  rw [e]
  simp only [toNat_word, toNat_append_add, BitVec.toNat_ofNat]
  omega

theorem systemRegisterWrites : Claims.SystemRegisterWrites := by
  intro a s x
  refine ⟨fun h => ?_, fun h => ?_, ?_, fun r hr => ?_⟩
  · exact congrArg Host.Outcome.next (if_neg (not_not.2 ((low5_eq_zero_iff x).1 h)))
  · exact congrArg Host.Outcome.next (if_pos (mt (low5_eq_zero_iff x).2 h))
  · have e : x.extractLsb' 0 4 = BitVec.ofNat 4 (bits x 3 0) := BitVec.eq_of_toNat_eq (by
      simp [bits, BitVec.extractLsb'_toNat])
    have hb : bits x 3 0 < 16 := Nat.mod_lt _ (by decide)
    have hc : (s.core.a.ut && decide (s.core.a.sres.toNat ≤ bits x 3 0 ∧ bits x 3 0 ≤ 8)) = true ↔
        s.core.a.ut = true ∧ s.core.a.sres ≤ x.extractLsb' 0 4 ∧ x.extractLsb' 0 4 ≤ 8 := by
      rw [Bool.and_eq_true, decide_eq_true_iff, e, BitVec.le_def, BitVec.le_def, BitVec.toNat_ofNat, Nat.mod_eq_of_lt hb]
      rfl
    refine congrArg Host.Outcome.next ?_
    rw [e] at hc ⊢
    exact if_congr hc rfl rfl
  · simp only [List.mem_cons, List.not_mem_nil, or_false] at hr
    rcases hr with rfl | rfl | rfl | rfl | rfl | rfl | rfl | rfl | rfl | rfl | rfl <;> rfl

/-- Settles O7: each status word is its fields joined, and each write follows one branch of its definition. -/
theorem specialRegisterAccess : Obligations.SpecialRegisterAccess := ⟨systemRegisterReads, systemRegisterWrites⟩

/-- Settles O8: each port command is its own equation; the status word and k are their fields joined. -/
theorem portAndConstantCommands : Obligations.PortAndConstantCommands := by
  intro d a g t s x
  refine ⟨rfl, rfl, rfl, ?_, rfl, ?_, ?_⟩
  · exact congrArg (fun y => Host.Outcome.next (s.sends 1 d y)) (portStatus_eq_fields _)
  · refine congrArg (fun y => Host.Outcome.next (s.fly 1 0 [.k y])) (BitVec.eq_of_toNat_eq ?_)
    simp [BitVec.extractLsb'_toNat, x]
  · refine congrArg (fun y => Host.Outcome.next (s.fly 1 0 [.k y])) (BitVec.eq_of_toNat_eq ?_)
    refine Eq.trans ?_ (toNat_append_add (x.extractLsb' 0 16) (x.extractLsb' 0 16)).symm
    rw [BitVec.toNat_ofNat, BitVec.extractLsb'_toNat, Nat.shiftRight_zero]
    have := Nat.mod_lt x.toNat (show 0 < 2 ^ 16 by decide)
    exact Nat.mod_eq_of_lt (by omega)

end Sys2Proof.Machine
end

section
/-!
LEMMAS. Exact values with a rational value: their sums, products, quotients and comparisons are those of the rationals
(spec/03 R65, R67).
-/
open Sys2Proof

namespace Sys2Proof.Machine

theorem val_fin (s : Bool) (n : Nat) {d : Nat} (h : d ≠ 0) : (ExtNum.fin s n d).val? = some ((snum s n : ℚ) / d) := by
  rw [ExtNum.val?, if_neg h, Rat.mkRat_eq_div]
  rfl

/-- An exact value with a rational value is a fraction. -/
theorem exists_fin_of_val {x : ExtNum} {p : ℚ} (h : x.val? = some p) :
    ∃ s n d, x = .fin s n d ∧ d ≠ 0 ∧ p = (snum s n : ℚ) / d := by
  cases x with
  | nan => cases h
  | inf s => cases h
  | fin s n d =>
    have hd : d ≠ 0 := by
      rintro rfl
      cases h
    rw [val_fin s n hd, Option.some.injEq] at h
    exact ⟨s, n, d, rfl, hd, h.symm⟩

/-- The signed numerator of a product. -/
theorem snum_mul (s t : Bool) (n m : Nat) : snum (s != t) (n * m) = snum s n * snum t m := by
  cases s <;> cases t <;> simp [snum]

theorem snum_not (s : Bool) (n : Nat) : snum (!s) n = -snum s n := by
  cases s <;> simp [snum]

theorem snum_natAbs (x : Int) : snum (decide (x < 0)) x.natAbs = x := by
  by_cases h : x < 0 <;> simp only [snum, h, decide_true, decide_false, if_true, Bool.false_eq_true, if_false] <;> omega

theorem snum_eq_zero_iff (s : Bool) (n : Nat) : snum s n = 0 ↔ n = 0 := by
  cases s <;> simp [snum]

theorem val_add (m : Round) (s t : Bool) (n k : Nat) {d e : Nat} (hd : d ≠ 0) (he : e ≠ 0) :
    (ExtNum.add m (.fin s n d) (.fin t k e)).val? = some ((snum s n : ℚ) / d + (snum t k : ℚ) / e) := by
  have hd' : (d : ℚ) ≠ 0 := Nat.cast_ne_zero.2 hd
  have he' : (e : ℚ) ≠ 0 := Nat.cast_ne_zero.2 he
  have sum : (snum s n : ℚ) / d + (snum t k : ℚ) / e = ((snum s n * e + snum t k * d : Int) : ℚ) / (d * e : Nat) := by
    push_cast
    field_simp
  rw [sum]
  simp only [ExtNum.add]
  by_cases h : snum s n * e + snum t k * d = 0
  · rw [if_pos h, val_fin _ _ Nat.one_ne_zero, h, (snum_eq_zero_iff _ 0).2 rfl]
    simp
  · rw [if_neg h, val_fin _ _ (Nat.mul_ne_zero hd he), snum_natAbs]

theorem val_mul (s t : Bool) (n k : Nat) {d e : Nat} (hd : d ≠ 0) (he : e ≠ 0) :
    (ExtNum.mul (.fin s n d) (.fin t k e)).val? = some ((snum s n : ℚ) / d * ((snum t k : ℚ) / e)) := by
  simp only [ExtNum.mul]
  rw [val_fin _ _ (Nat.mul_ne_zero hd he), snum_mul, div_mul_div_comm]
  push_cast
  rfl

theorem val_neg (s : Bool) (n : Nat) {d : Nat} (hd : d ≠ 0) : (ExtNum.neg (.fin s n d)).val? = some (-((snum s n : ℚ) / d)) := by
  simp only [ExtNum.neg]
  rw [val_fin _ _ hd, snum_not]
  push_cast
  rw [neg_div]

theorem val_div (s t : Bool) (n : Nat) {k d e : Nat} (hd : d ≠ 0) (he : e ≠ 0) (hk : k ≠ 0) :
    (ExtNum.div (.fin s n d) (.fin t k e)).val? = some ((snum s n : ℚ) / d / ((snum t k : ℚ) / e)) := by
  have hd' : (d : ℚ) ≠ 0 := Nat.cast_ne_zero.2 hd
  have he' : (e : ℚ) ≠ 0 := Nat.cast_ne_zero.2 he
  have hk' : (k : ℚ) ≠ 0 := Nat.cast_ne_zero.2 hk
  obtain ⟨σ, hσ, ht, hs⟩ : ∃ σ : ℤ, σ * σ = 1 ∧ snum t k = σ * k ∧ snum (s != t) (n * e) = snum s n * e * σ := by
    refine ⟨if t then -1 else 1, ?_⟩
    cases s <;> cases t <;> simp [snum]
  have hσ' : (σ : ℚ) * σ = 1 := by exact_mod_cast hσ
  have hσ0 : (σ : ℚ) ≠ 0 := left_ne_zero_of_mul_eq_one hσ'
  simp only [ExtNum.div, if_neg hk]
  rw [val_fin _ _ (Nat.mul_ne_zero hd hk), hs, ht, Option.some.injEq]
  push_cast
  rw [div_div_div_eq, div_eq_div_iff (mul_ne_zero hd' hk') (mul_ne_zero hd' (mul_ne_zero hσ0 hk'))]
  linear_combination (snum s n : ℚ) * e * d * k * hσ'

theorem lt_fin_iff (s t : Bool) (n k : Nat) {d e : Nat} (hd : d ≠ 0) (he : e ≠ 0) :
    (ExtNum.fin s n d).lt (.fin t k e) = true ↔ (snum s n : ℚ) / d < (snum t k : ℚ) / e := by
  have hd' : (0 : ℚ) < d := Nat.cast_pos.2 (Nat.pos_of_ne_zero hd)
  have he' : (0 : ℚ) < e := Nat.cast_pos.2 (Nat.pos_of_ne_zero he)
  rw [div_lt_div_iff₀ hd' he']
  simp only [ExtNum.lt, decide_eq_true_iff]
  exact_mod_cast Iff.rfl

theorem eqv_fin_iff (s t : Bool) (n k : Nat) {d e : Nat} (hd : d ≠ 0) (he : e ≠ 0) :
    (ExtNum.fin s n d).eqv (.fin t k e) = true ↔ (snum s n : ℚ) / d = (snum t k : ℚ) / e := by
  rw [div_eq_div_iff (Nat.cast_ne_zero.2 hd) (Nat.cast_ne_zero.2 he)]
  simp only [ExtNum.eqv, decide_eq_true_iff]
  exact_mod_cast Iff.rfl

/-- Settles O5: each operation on fractions is that of the rationals. -/
theorem exactArithmeticIsRational : Obligations.ExactArithmeticIsRational := by
  intro x y p q m hx hy
  obtain ⟨s, n, d, rfl, hd, rfl⟩ := exists_fin_of_val hx
  obtain ⟨t, k, e, rfl, he, rfl⟩ := exists_fin_of_val hy
  refine ⟨val_add m s t n k hd he, val_mul s t n k hd he, val_neg s n hd, fun hq => ?_, lt_fin_iff s t n k hd he,
    eqv_fin_iff s t n k hd he⟩
  refine val_div s t n hd he fun hk => hq ?_
  rw [(snum_eq_zero_iff t k).2 hk, Int.cast_zero, zero_div]

end Sys2Proof.Machine
end

section
/-!
LEMMAS. Rounding (spec/03 R64): the magnitude codes of a format name strictly rising rationals, and a rounded magnitude is the code
below the exact value or the one after it.
-/
open Sys2Proof

namespace Sys2Proof.Machine

/-- The value of the magnitude code `k`, were every exponent finite (spec/03 R58 to R60). -/
def FpFmt.magVal (f : FpFmt) (k : Nat) : ℚ :=
  if k / 2 ^ f.fb = 0 then (k % 2 ^ f.fb : Nat) * 2 ^ (1 - (f.bias : ℤ) - f.fb)
  else (2 ^ f.fb + k % 2 ^ f.fb : Nat) * 2 ^ (((k / 2 ^ f.fb : Nat) : ℤ) - f.bias - f.fb)

/-- A significand of at most one bit too many, joined with its exponent: a carry enters the exponent. -/
theorem magVal_join (f : FpFmt) {m j : Nat} (hm : m ≤ 2 ^ (f.fb + 1)) (hj : j = 0 ∨ 2 ^ f.fb ≤ m) :
    f.magVal (m + j * 2 ^ f.fb) = m * 2 ^ ((j : ℤ) + (1 - (f.bias : ℤ)) - f.fb) := by
  have hp : 0 < 2 ^ f.fb := by positivity
  have hs : 2 ^ (f.fb + 1) = 2 * 2 ^ f.fb := pow_succ' 2 f.fb
  unfold FpFmt.magVal
  rw [Nat.add_mul_div_right _ _ hp, Nat.add_mul_mod_self_right]
  rcases lt_or_ge m (2 ^ f.fb) with h | h
  · obtain rfl : j = 0 := hj.resolve_right (by omega)
    rw [Nat.div_eq_of_lt h, Nat.mod_eq_of_lt h, if_pos rfl]
    simp
  · rcases lt_or_eq_of_le hm with hm | rfl
    · have h1 : m / 2 ^ f.fb = 1 := by
        rw [Nat.div_eq_iff hp]
        omega
      have h2 : 2 ^ f.fb + m % 2 ^ f.fb = m := by
        have := Nat.div_add_mod m (2 ^ f.fb)
        rw [h1] at this
        omega
      rw [h1, if_neg (by omega), h2]
      congr 2
      push_cast
      ring
    · rw [hs, Nat.mul_div_cancel _ hp, Nat.mul_mod_left, if_neg (by omega), Nat.add_zero]
      push_cast
      rw [show (2 : ℤ) + j - f.bias - f.fb = 1 + (j + (1 - f.bias) - f.fb) by ring, zpow_add₀ two_ne_zero]
      ring

/-- A code taken apart: its significand and how far its exponent is above the least. -/
theorem exists_join (f : FpFmt) (k : Nat) :
    ∃ m j, k = m + j * 2 ^ f.fb ∧ m < 2 ^ (f.fb + 1) ∧ (j = 0 ∨ 2 ^ f.fb ≤ m) := by
  have hp : 0 < 2 ^ f.fb := by positivity
  have hs : 2 ^ (f.fb + 1) = 2 * 2 ^ f.fb := pow_succ' 2 f.fb
  have hk := Nat.div_add_mod k (2 ^ f.fb)
  have hr := Nat.mod_lt k hp
  rcases Nat.eq_zero_or_pos (k / 2 ^ f.fb) with h | h
  · refine ⟨k, 0, by omega, ?_, .inl rfl⟩
    rw [h] at hk
    omega
  · refine ⟨2 ^ f.fb + k % 2 ^ f.fb, k / 2 ^ f.fb - 1, ?_, by omega, .inr (by omega)⟩
    obtain ⟨q, hq⟩ := Nat.exists_eq_add_of_le' h
    rw [hq] at hk ⊢
    rw [Nat.add_sub_cancel]
    linarith

theorem magVal_strictMono (f : FpFmt) : StrictMono f.magVal := by
  refine strictMono_nat_of_lt_succ fun k => ?_
  obtain ⟨m, j, rfl, hm, hj⟩ := exists_join f k
  rw [show m + j * 2 ^ f.fb + 1 = (m + 1) + j * 2 ^ f.fb by ring, magVal_join f hm.le hj,
    magVal_join f hm (hj.imp_right (Nat.le_succ_of_le))]
  push_cast
  have : (0 : ℚ) < 2 ^ ((j : ℤ) + (1 - (f.bias : ℤ)) - f.fb) := by positivity
  linarith

theorem magVal_zero (f : FpFmt) : f.magVal 0 = 0 := by
  simp [FpFmt.magVal]

theorem magVal_nonneg (f : FpFmt) (k : Nat) : 0 ≤ f.magVal k :=
  (magVal_zero f).symm.le.trans ((magVal_strictMono f).monotone (Nat.zero_le k))

/-! ### The exponent of a fraction -/

theorem zpow_toNat {e : ℤ} (h : 0 ≤ e) : ((2 ^ e.toNat : Nat) : ℚ) = 2 ^ e := by
  push_cast
  rw [← zpow_natCast, Int.toNat_of_nonneg h]

/-- `ilog2` is the floor of the logarithm. -/
theorem ilog2_spec {n d : Nat} (hn : 0 < n) (hd : 0 < d) :
    (2 : ℚ) ^ ilog2 n d ≤ (n : ℚ) / d ∧ (n : ℚ) / d < 2 ^ (ilog2 n d + 1) := by
  have hn' : (0 : ℚ) < n := by exact_mod_cast hn
  have hd' : (0 : ℚ) < d := by exact_mod_cast hd
  have n1 : (2 : ℚ) ^ (Nat.log2 n : ℤ) ≤ n := by exact_mod_cast Nat.log2_self_le hn.ne'
  have n2 : (n : ℚ) < 2 ^ ((Nat.log2 n : ℤ) + 1) := by exact_mod_cast Nat.lt_log2_self
  have d1 : (2 : ℚ) ^ (Nat.log2 d : ℤ) ≤ d := by exact_mod_cast Nat.log2_self_le hd.ne'
  have d2 : (d : ℚ) < 2 ^ ((Nat.log2 d : ℤ) + 1) := by exact_mod_cast Nat.lt_log2_self
  have low : (2 : ℚ) ^ ((Nat.log2 n : ℤ) - Nat.log2 d - 1) < (n : ℚ) / d := by
    rw [lt_div_iff₀ hd']
    calc _ < (2 : ℚ) ^ ((Nat.log2 n : ℤ) - Nat.log2 d - 1) * 2 ^ ((Nat.log2 d : ℤ) + 1) := by gcongr
      _ = 2 ^ (Nat.log2 n : ℤ) := by rw [← zpow_add₀ two_ne_zero]; congr 1; ring
      _ ≤ n := n1
  have high : (n : ℚ) / d < 2 ^ ((Nat.log2 n : ℤ) - Nat.log2 d + 1) := by
    rw [div_lt_iff₀ hd']
    calc (n : ℚ) < 2 ^ ((Nat.log2 n : ℤ) + 1) := n2
      _ = 2 ^ ((Nat.log2 n : ℤ) - Nat.log2 d + 1) * 2 ^ (Nat.log2 d : ℤ) := by rw [← zpow_add₀ two_ne_zero]; congr 1; ring
      _ ≤ _ := by gcongr
  have below : ∀ e : ℤ, (if 0 ≤ e then decide (n < d * 2 ^ e.toNat) else decide (n * 2 ^ (-e).toNat < d)) = true ↔
      (n : ℚ) / d < 2 ^ e := by
    intro e
    rw [div_lt_iff₀ hd']
    split
    · next h =>
      rw [decide_eq_true_iff, ← zpow_toNat h, mul_comm]
      exact_mod_cast Iff.rfl
    · next h =>
      have he : (0 : ℚ) < 2 ^ e := by positivity
      have hp : (2 : ℚ) ^ (-e) * 2 ^ e = 1 := by rw [← zpow_add₀ two_ne_zero, neg_add_cancel, zpow_zero]
      rw [decide_eq_true_iff, ← Nat.cast_lt (α := ℚ), Nat.cast_mul, zpow_toNat (by omega), ← mul_lt_mul_iff_left₀ he, mul_assoc, hp,
        mul_one, mul_comm (d : ℚ)]
  unfold ilog2
  dsimp only
  by_cases h : (n : ℚ) / d < 2 ^ ((Nat.log2 n : ℤ) - Nat.log2 d)
  · rw [if_pos ((below _).2 h), sub_add_cancel]
    exact ⟨low.le, h⟩
  · rw [if_neg (mt (below _).1 h)]
    exact ⟨not_lt.1 h, high⟩

/-! ### The code below an exact value and the one after it -/

/-- Only the last bit of a truncated magnitude decides. -/
theorem roundsUp_congr (mode : Round) (neg : Bool) {m k : Nat} (r q : Nat) (h : m % 2 = k % 2) :
    roundsUp mode neg m r q = roundsUp mode neg k r q := by
  cases mode <;> simp only [roundsUp, h]

/-- The fraction of `roundMag` in units of the last place. -/
theorem scaled_fraction (n : Nat) {d : Nat} (hd : 0 < d) (sh : ℤ) :
    0 < (if 0 ≤ sh then d * 2 ^ sh.toNat else d) ∧
    (n : ℚ) / d = ((if 0 ≤ sh then n else n * 2 ^ (-sh).toNat : Nat) : ℚ) / (if 0 ≤ sh then d * 2 ^ sh.toNat else d : Nat) * 2 ^ sh := by
  have hd' : (d : ℚ) ≠ 0 := by exact_mod_cast hd.ne'
  have hs : (2 : ℚ) ^ sh ≠ 0 := by positivity
  split
  · next h =>
    refine ⟨by positivity, ?_⟩
    rw [Nat.cast_mul, zpow_toNat h]
    field_simp
  · next h =>
    refine ⟨hd, ?_⟩
    rw [Nat.cast_mul, zpow_toNat (by omega), zpow_neg]
    field_simp

/-- A rounded magnitude is the code below the exact value or the one after it; `r` of `q` says how far the value lies between them. -/
theorem roundMag_spec {f : FpFmt} (hf : f.fb ≠ 0) {n d : Nat} (hn : 0 < n) (hd : 0 < d) :
    ∃ c r q : Nat, r < q ∧ (n : ℚ) / d = f.magVal c + (f.magVal (c + 1) - f.magVal c) * ((r : ℚ) / q) ∧
      ∀ mode neg, f.roundMag mode neg n d = if roundsUp mode neg c r q then c + 1 else c := by
  obtain ⟨lo, hi⟩ := ilog2_spec hn hd
  obtain ⟨e, he⟩ : ∃ e, e = max (ilog2 n d) (1 - (f.bias : ℤ)) := ⟨_, rfl⟩
  obtain ⟨hq, hx⟩ := scaled_fraction n hd (e - f.fb)
  obtain ⟨a, ha⟩ : ∃ a, a = if 0 ≤ e - f.fb then n else n * 2 ^ (-(e - f.fb)).toNat := ⟨_, rfl⟩
  obtain ⟨q, hqd⟩ : ∃ q, q = if 0 ≤ e - f.fb then d * 2 ^ (e - f.fb).toNat else d := ⟨_, rfl⟩
  rw [← hqd] at hq
  rw [← ha, ← hqd] at hx
  have hq' : (0 : ℚ) < q := by exact_mod_cast hq
  have hu : (0 : ℚ) < 2 ^ (e - f.fb) := by positivity
  have hdiv : (a : ℚ) = q * (a / q : Nat) + (a % q : Nat) := by exact_mod_cast (Nat.div_add_mod a q).symm
  have hj : (((e - (1 - f.bias)).toNat : ℤ)) + (1 - (f.bias : ℤ)) - f.fb = e - f.fb := by omega
  have hm : a / q < 2 ^ (f.fb + 1) := by
    rw [Nat.div_lt_iff_lt_mul hq]
    have h : (a : ℚ) / q * 2 ^ (e - f.fb) < 2 ^ ((f.fb : ℤ) + 1) * 2 ^ (e - f.fb) := by
      rw [← hx, ← zpow_add₀ two_ne_zero]
      refine hi.trans_le (zpow_le_zpow_right₀ one_le_two ?_)
      have := le_max_left (ilog2 n d) (1 - (f.bias : ℤ))
      omega
    rw [mul_lt_mul_iff_left₀ hu, div_lt_iff₀ hq'] at h
    exact_mod_cast h
  have hmin : (e - (1 - f.bias)).toNat = 0 ∨ 2 ^ f.fb ≤ a / q := by
    by_cases h : ilog2 n d ≤ 1 - f.bias
    · left
      omega
    · right
      have hei : e = ilog2 n d := by omega
      rw [Nat.le_div_iff_mul_le hq]
      have h : (2 : ℚ) ^ (f.fb : ℤ) * 2 ^ (e - f.fb) ≤ (a : ℚ) / q * 2 ^ (e - f.fb) := by
        rw [← hx, ← zpow_add₀ two_ne_zero, add_sub_cancel, hei]
        exact lo
      rw [mul_le_mul_iff_left₀ hu, le_div_iff₀ hq'] at h
      exact_mod_cast h
  refine ⟨a / q + (e - (1 - f.bias)).toNat * 2 ^ f.fb, a % q, q, Nat.mod_lt _ hq, ?_, fun mode neg => ?_⟩
  · rw [show a / q + (e - (1 - f.bias)).toNat * 2 ^ f.fb + 1 = (a / q + 1) + (e - (1 - f.bias)).toNat * 2 ^ f.fb by ring,
      magVal_join f hm.le hmin, magVal_join f hm (hmin.imp_right (Nat.le_succ_of_le)), hj, hx, hdiv]
    push_cast
    field_simp
    ring
  · have hpar : a / q % 2 = (a / q + (e - (1 - f.bias)).toNat * 2 ^ f.fb) % 2 := by
      obtain ⟨b, hb⟩ := Nat.exists_eq_succ_of_ne_zero hf
      rw [hb, pow_succ', Nat.mul_left_comm, Nat.add_mul_mod_self_left]
    rw [← roundsUp_congr mode neg _ _ hpar]
    unfold FpFmt.roundMag
    simp only [← he, ← ha, ← hqd]
    split
    · ring
    · rfl

/-! ### Codes and values of a format -/

theorem scaled_eq_fin (neg : Bool) (n : Nat) (e : ℤ) : ∃ m d, scaled neg n e = .fin neg m d ∧ d ≠ 0 ∧ (m : ℚ) / d = n * 2 ^ e := by
  unfold scaled
  split
  · next h =>
    refine ⟨_, _, rfl, one_ne_zero, ?_⟩
    rw [Nat.cast_one, div_one, Nat.cast_mul, zpow_toNat h]
  · next h =>
    refine ⟨_, _, rfl, by positivity, ?_⟩
    rw [zpow_toNat (by omega), zpow_neg, div_inv_eq_mul]

/-- A magnitude code up to the largest decodes to its value, with the sign of the code. -/
theorem decode_eq_fin (f : FpFmt) {c : Nat} (h : c % f.signBit ≤ f.maxCode) :
    ∃ n d, f.decode c = .fin (c / f.signBit % 2 == 1) n d ∧ d ≠ 0 ∧ (n : ℚ) / d = f.magVal (c % f.signBit) := by
  unfold FpFmt.decode FpFmt.magVal
  rw [if_neg (not_lt.2 h)]
  split <;> exact scaled_eq_fin _ _ _

theorem val_decode_eq_none (f : FpFmt) {c : Nat} (h : f.maxCode < c % f.signBit) : (f.decode c).val? = none := by
  unfold FpFmt.decode
  rw [if_pos h]
  split <;> rfl

/-! ### The two neighbours of an exact value -/

/-- `x` lies between the values of the codes `c` and `c + 1`, `r` of `q` parts above the lower one. -/
def FpFmt.between (f : FpFmt) (x : ℚ) (c r q : Nat) : Prop :=
  r < q ∧ x = f.magVal c + (f.magVal (c + 1) - f.magVal c) * ((r : ℚ) / q)

section
variable {f : FpFmt} {x : ℚ} {c r q : Nat} (h : f.between x c r q)
include h

theorem between_twice : q * (2 * x - (f.magVal c + f.magVal (c + 1))) = (f.magVal (c + 1) - f.magVal c) * (2 * r - q) := by
  obtain ⟨hr, rfl⟩ := h
  have : (q : ℚ) ≠ 0 := by exact_mod_cast (Nat.zero_lt_of_lt hr).ne'
  field_simp
  ring

theorem between_ge : f.magVal c ≤ x := by
  obtain ⟨hr, rfl⟩ := h
  have := magVal_strictMono f (Nat.lt_succ_self c)
  have : 0 ≤ (f.magVal (c + 1) - f.magVal c) * ((r : ℚ) / q) := mul_nonneg (by linarith) (by positivity)
  linarith

theorem between_lt : x < f.magVal (c + 1) := by
  obtain ⟨hr, rfl⟩ := h
  have hv := magVal_strictMono f (Nat.lt_succ_self c)
  have hq : (r : ℚ) / q < 1 := by
    rw [div_lt_one (by exact_mod_cast Nat.zero_lt_of_lt hr)]
    exact_mod_cast hr
  have := mul_lt_mul_of_pos_left hq (sub_pos.2 hv)
  linarith

theorem between_eq_iff : x = f.magVal c ↔ r = 0 := by
  obtain ⟨hr, rfl⟩ := h
  have hv := magVal_strictMono f (Nat.lt_succ_self c)
  have hq : (q : ℚ) ≠ 0 := by exact_mod_cast (Nat.zero_lt_of_lt hr).ne'
  rw [add_eq_left, mul_eq_zero, div_eq_zero_iff, or_iff_right (sub_pos.2 hv).ne', or_iff_left hq, Nat.cast_eq_zero]

theorem between_lt_mid_iff : 2 * x < f.magVal c + f.magVal (c + 1) ↔ 2 * r < q := by
  have hv := sub_pos.2 (magVal_strictMono f (Nat.lt_succ_self c))
  have hq : (0 : ℚ) < q := by exact_mod_cast Nat.zero_lt_of_lt h.1
  have e : q * (f.magVal c + f.magVal (c + 1) - 2 * x) = (f.magVal (c + 1) - f.magVal c) * (q - 2 * r) := by
    linear_combination -between_twice h
  rw [← sub_pos, ← mul_pos_iff_of_pos_left hq, e, mul_pos_iff_of_pos_left hv, sub_pos]
  exact_mod_cast Iff.rfl

theorem between_mid_lt_iff : f.magVal c + f.magVal (c + 1) < 2 * x ↔ q < 2 * r := by
  have hv := sub_pos.2 (magVal_strictMono f (Nat.lt_succ_self c))
  have hq : (0 : ℚ) < q := by exact_mod_cast Nat.zero_lt_of_lt h.1
  rw [← sub_pos, ← mul_pos_iff_of_pos_left hq, between_twice h, mul_pos_iff_of_pos_left hv, sub_pos]
  exact_mod_cast Iff.rfl

theorem between_eq_mid_iff : 2 * x = f.magVal c + f.magVal (c + 1) ↔ 2 * r = q := by
  rw [eq_iff_le_not_lt, ← not_lt, between_mid_lt_iff h, between_lt_mid_iff h]
  omega

/-- Only a value between the codes rounds to the upper one. -/
theorem between_of_roundsUp {mode : Round} {neg : Bool} (u : roundsUp mode neg c r q = true) : r ≠ 0 := by
  rintro rfl
  have := h.1
  cases mode <;> simp [roundsUp] at u <;> omega

/-- Rounding up gives the nearest code not below. -/
theorem between_rup {k : Nat} (hk : k = if roundsUp .rup false c r q then c + 1 else c) :
    x ≤ f.magVal k ∧ (0 < k → f.magVal (k - 1) < x) := by
  by_cases hr : r = 0
  · have hx := (between_eq_iff h).2 hr
    obtain rfl : k = c := by rw [hk, hr]; rfl
    exact ⟨hx.le, fun hk => hx ▸ magVal_strictMono f (Nat.sub_lt hk Nat.one_pos)⟩
  · obtain rfl : k = c + 1 := by simp [hk, roundsUp, hr]
    exact ⟨(between_lt h).le, fun _ => (between_ge h).lt_of_ne' (mt (between_eq_iff h).1 hr)⟩

/-- Rounding to nearest stays within half a place of the code, and at half a place the code is even. -/
theorem between_rne {k : Nat} (hk : k = if roundsUp .rne false c r q then c + 1 else c) :
    (∀ i, k = i + 1 → f.magVal i + f.magVal (i + 1) ≤ 2 * x ∧ (2 * x = f.magVal i + f.magVal (i + 1) → k % 2 = 0)) ∧
    2 * x ≤ f.magVal k + f.magVal (k + 1) ∧ (2 * x = f.magVal k + f.magVal (k + 1) → k % 2 = 0) := by
  have hlt := between_lt h
  have hge := between_ge h
  by_cases hu : roundsUp .rne false c r q = true
  · obtain rfl : k = c + 1 := by rw [hk, if_pos hu]
    have hnext := magVal_strictMono f (Nat.lt_succ_self (c + 1))
    simp only [roundsUp, Bool.or_eq_true, Bool.and_eq_true, decide_eq_true_iff, beq_iff_eq] at hu
    refine ⟨fun i hi => ?_, by linarith, fun e => by linarith⟩
    obtain rfl : i = c := by omega
    rw [← not_lt, between_lt_mid_iff h, between_eq_mid_iff h]
    omega
  · obtain rfl : k = c := by rw [hk, if_neg hu]
    simp only [roundsUp, Bool.or_eq_true, Bool.and_eq_true, decide_eq_true_iff, beq_iff_eq] at hu
    refine ⟨?_, ?_⟩
    · rintro i rfl
      have hprev := magVal_strictMono f (Nat.lt_succ_self i)
      exact ⟨by linarith, fun e => by linarith⟩
    · rw [← not_lt, between_mid_lt_iff h, between_eq_mid_iff h]
      omega

theorem between_le_max (hx : x ≤ f.magVal f.maxCode) (mode : Round) (neg : Bool) :
    (if roundsUp mode neg c r q then c + 1 else c) ≤ f.maxCode := by
  split
  · next u =>
    have hne := mt (between_eq_iff h).1 (between_of_roundsUp h u)
    exact (magVal_strictMono f).lt_iff_lt.1 (((between_ge h).lt_of_ne' hne).trans_le hx)
  · exact (magVal_strictMono f).le_iff_le.1 ((between_ge h).trans hx)

end

/-- A positive value up to the largest of the format rounds to one of its neighbours, in every mode. -/
theorem round_eq_neighbour {f : FpFmt} (hf : f.fb ≠ 0) {n d : Nat} (hn : 0 < n) (hd : 0 < d)
    (hx : (n : ℚ) / d ≤ f.magVal f.maxCode) :
    ∃ c r q, f.between ((n : ℚ) / d) c r q ∧ ∀ mode neg, f.round mode (.fin neg n d) =
      (if neg then f.signBit else 0) + if roundsUp mode neg c r q then c + 1 else c := by
  obtain ⟨c, r, q, hr, hx', hm⟩ := roundMag_spec hf hn hd
  refine ⟨c, r, q, ⟨hr, hx'⟩, fun mode neg => ?_⟩
  have hb : f.between ((n : ℚ) / d) c r q := ⟨hr, hx'⟩
  simp only [FpFmt.round, if_neg hn.ne', hm, if_neg (not_lt.2 (between_le_max hb hx mode neg))]

theorem binaryFormats_fields {f : FpFmt} (h : f ∈ binaryFormats) : f.fb ≠ 0 ∧ f.maxCode < f.signBit := by
  simp only [binaryFormats, List.mem_cons, List.not_mem_nil, or_false] at h
  rcases h with rfl | rfl | rfl | rfl | rfl <;> decide

/-- A representable value lies at its own code. -/
theorem between_magVal {f : FpFmt} {k c r q : Nat} (h : f.between (f.magVal k) c r q) : c = k ∧ r = 0 := by
  have hlo := (magVal_strictMono f).le_iff_le.1 (between_ge h)
  have hhi := (magVal_strictMono f).lt_iff_lt.1 (between_lt h)
  obtain rfl : c = k := by omega
  exact ⟨rfl, (between_eq_iff h).1 rfl⟩

theorem roundsUp_zero (mode : Round) (neg : Bool) (m : Nat) {q : Nat} (hq : 0 < q) : roundsUp mode neg m 0 q = false := by
  cases mode <;> simp [roundsUp] <;> omega

theorem roundingKeepsRepresentable : Claims.RoundingKeepsRepresentable := by
  intro f hf m c hc hv
  obtain ⟨hfb, hmax⟩ := binaryFormats_fields hf
  have hs : 0 < f.signBit := by unfold FpFmt.signBit; positivity
  have hle : c % f.signBit ≤ f.maxCode := not_lt.1 (mt (val_decode_eq_none f) hv)
  obtain ⟨n, d, e, hd, hx⟩ := decode_eq_fin f hle
  have hd' : (d : ℚ) ≠ 0 := by exact_mod_cast hd
  have hsign : (if (c / f.signBit % 2 == 1) = true then f.signBit else 0) + c % f.signBit = c := by
    have hq : c / f.signBit < 2 := Nat.div_lt_of_lt_mul (by omega)
    have hc := Nat.div_add_mod c f.signBit
    rcases Nat.lt_succ_iff_lt_or_eq.1 hq with h | h
    · obtain h : c / f.signBit = 0 := Nat.lt_one_iff.1 h
      rw [h] at hc ⊢
      simpa using hc
    · rw [h] at hc ⊢
      simpa using hc
  rw [e]
  rcases Nat.eq_zero_or_pos n with rfl | hn
  · have h0 : c % f.signBit = 0 := by
      rw [Nat.cast_zero, zero_div, ← magVal_zero f] at hx
      exact ((magVal_strictMono f).injective hx).symm
    rw [h0] at hsign
    simpa [FpFmt.round] using hsign
  · obtain ⟨k, r, q, hb, hround⟩ := round_eq_neighbour hfb hn (Nat.pos_of_ne_zero hd)
      (hx.le.trans ((magVal_strictMono f).monotone hle))
    rw [hx] at hb
    obtain ⟨rfl, rfl⟩ := between_magVal hb
    rw [hround, roundsUp_zero _ _ _ hb.1, if_neg Bool.false_ne_true]
    exact hsign

/-! ### The neighbour that a mode names -/

/-- A code up to the largest, without a sign, decodes to a positive fraction. -/
theorem decode_unsigned {f : FpFmt} (hs : f.maxCode < f.signBit) {k : Nat} (hk : k ≤ f.maxCode) :
    ∃ n d, f.decode k = .fin false n d ∧ d ≠ 0 ∧ (n : ℚ) / d = f.magVal k := by
  have hlt : k < f.signBit := by omega
  obtain ⟨n, d, e, hd, hx⟩ := decode_eq_fin f (c := k) (by rwa [Nat.mod_eq_of_lt hlt])
  rw [Nat.div_eq_of_lt hlt] at e
  rw [Nat.mod_eq_of_lt hlt] at hx
  exact ⟨n, d, e, hd, hx⟩

section
variable {f : FpFmt} (hs : f.maxCode < f.signBit) {n d : Nat} (hd : 0 < d)
include hs hd

theorem lt_decode_iff {k : Nat} (hk : k ≤ f.maxCode) : (ExtNum.fin false n d).lt (f.decode k) = true ↔ (n : ℚ) / d < f.magVal k := by
  obtain ⟨a, b, e, hb, hx⟩ := decode_unsigned hs hk
  rw [e, lt_fin_iff _ _ _ _ hd.ne' hb, ← hx]
  rfl

theorem decode_lt_iff {k : Nat} (hk : k ≤ f.maxCode) : (f.decode k).lt (.fin false n d) = true ↔ f.magVal k < (n : ℚ) / d := by
  obtain ⟨a, b, e, hb, hx⟩ := decode_unsigned hs hk
  rw [e, lt_fin_iff _ _ _ _ hb hd.ne', ← hx]
  rfl

theorem decode_eqv_iff {k : Nat} (hk : k ≤ f.maxCode) : (f.decode k).eqv (.fin false n d) = true ↔ f.magVal k = (n : ℚ) / d := by
  obtain ⟨a, b, e, hb, hx⟩ := decode_unsigned hs hk
  rw [e, eqv_fin_iff _ _ _ _ hb hd.ne', ← hx]
  rfl

/-- Twice the midpoint of two neighbours, as the claim forms it. -/
theorem mid_compare {k : Nat} (hk : k + 1 ≤ f.maxCode) :
    let two := ExtNum.fin false (2 * n) d
    let mid := ExtNum.add .rne (f.decode k) (f.decode (k + 1))
    (two.lt mid = true ↔ 2 * ((n : ℚ) / d) < f.magVal k + f.magVal (k + 1)) ∧
    (mid.lt two = true ↔ f.magVal k + f.magVal (k + 1) < 2 * ((n : ℚ) / d)) ∧
    (two.eqv mid = true ↔ 2 * ((n : ℚ) / d) = f.magVal k + f.magVal (k + 1)) := by
  intro two mid
  obtain ⟨a, b, e, hb, hx⟩ := decode_unsigned hs (k := k) (by omega)
  obtain ⟨a', b', e', hb', hx'⟩ := decode_unsigned hs hk
  have hv : mid.val? = some (f.magVal k + f.magVal (k + 1)) := by
    have := val_add .rne false false a a' hb hb'
    rw [← e, ← e'] at this
    rw [this, ← hx, ← hx']
    rfl
  obtain ⟨s, m, g, hm, hg, hval⟩ := exists_fin_of_val hv
  have htwo : 2 * ((n : ℚ) / d) = (snum false (2 * n) : ℚ) / d := by
    simp only [snum, Bool.false_eq_true, if_false]
    push_cast
    ring
  rw [hm, hval, htwo]
  exact ⟨lt_fin_iff _ _ _ _ hd.ne' hg, lt_fin_iff _ _ _ _ hg hd.ne', eqv_fin_iff _ _ _ _ hd.ne' hg⟩

end

/-- The mode that rounds a magnitude as the given one rounds the negative value. -/
theorem roundsUp_neg (mode : Round) (m r q : Nat) :
    roundsUp mode true m r q = roundsUp (match mode with | .rup => .rdn | .rdn => .rup | k => k) false m r q := by
  cases mode <;> rfl

theorem roundingPicksNeighbour : Claims.RoundingPicksNeighbour := by
  intro f hf n d hn hd x two hmax
  obtain ⟨hfb, hs⟩ := binaryFormats_fields hf
  have hx : (n : ℚ) / d ≤ f.magVal f.maxCode := by
    rw [← not_lt, ← decode_lt_iff hs hd le_rfl, hmax]
    exact Bool.false_ne_true
  obtain ⟨c, r, q, hb, hround⟩ := round_eq_neighbour hfb hn hd hx
  have hpos : ∀ mode, f.round mode x = if roundsUp mode false c r q then c + 1 else c := fun mode => by
    rw [hround mode false, if_neg Bool.false_ne_true, Nat.zero_add]
  have hle : ∀ mode, f.round mode x ≤ f.maxCode := fun mode => hpos mode ▸ between_le_max hb hx mode false
  have hlo : f.round .rtz x = c := by rw [hpos]; rfl
  have hcle : c ≤ f.maxCode := hlo ▸ hle .rtz
  have lower : c ≤ f.maxCode ∧ x.lt (f.decode c) = false ∧ (c < f.maxCode → x.lt (f.decode (c + 1)) = true) := by
    refine ⟨hcle, ?_, fun h => (lt_decode_iff hs hd h).2 (between_lt hb)⟩
    rw [← Bool.not_eq_true, lt_decode_iff hs hd hcle, not_lt]
    exact between_ge hb
  refine ⟨?_, ⟨hle _, ?_⟩, ⟨hle _, ?_⟩, ?_, fun mode => ?_⟩
  · intro m hm
    have : f.round m x = c := by
      simp only [List.mem_cons, List.not_mem_nil, or_false] at hm
      rcases hm with rfl | rfl <;> rw [hpos] <;> rfl
    rw [this]
    exact lower
  · obtain ⟨hup, hdown⟩ := between_rup hb (hpos .rup)
    refine ⟨?_, fun h => (decode_lt_iff hs hd ((Nat.sub_le _ _).trans (hle _))).2 (hdown h)⟩
    rw [← Bool.not_eq_true, decode_lt_iff hs hd (hle _), not_lt]
    exact hup
  · obtain ⟨hdown, hup⟩ := between_rne hb (hpos .rne)
    refine ⟨fun h => ?_, fun h => ?_⟩
    · obtain ⟨i, hi⟩ := Nat.exists_eq_add_of_lt h
      rw [Nat.zero_add] at hi
      obtain ⟨h1, -, h3⟩ := mid_compare hs hd (n := n) (k := i) (hi ▸ hle .rne)
      have near := hdown i hi
      rw [hi] at near
      rwa [hi, Nat.add_sub_cancel, ← Bool.not_eq_true, h1, h3, not_lt]
    · obtain ⟨-, h2, h3⟩ := mid_compare hs hd (n := n) h
      rw [← Bool.not_eq_true, h2, h3, not_lt]
      exact hup
  · rw [hlo, hpos]
    have heq : (f.decode c).eqv x = true ↔ r = 0 := by
      rw [decode_eqv_iff hs hd hcle, eq_comm, between_eq_iff hb]
    by_cases hr : r = 0
    · rw [if_pos (heq.2 hr), hr, roundsUp_zero _ _ _ (Nat.zero_lt_of_lt hb.1), if_neg Bool.false_ne_true]
    · rw [if_neg (mt heq.1 hr)]
      simp only [roundsUp, Bool.and_eq_true, bne_iff_ne, ne_eq, hr, not_false_eq_true, true_and, beq_iff_eq]
      split <;> omega
  · rw [hround mode true, hpos, roundsUp_neg]
    rfl

/-- Settles O6: a rounded magnitude is one of the two neighbouring codes, and the mode's test says which. -/
theorem roundingFollowsTheMode : Obligations.RoundingFollowsTheMode := ⟨roundingKeepsRepresentable, roundingPicksNeighbour⟩

end Sys2Proof.Machine
end

section
/-!
LEMMAS. The floating-point instructions of the ctl slot (spec/04 R92 to R96).
-/
open Sys2Proof

namespace Sys2Proof.Machine

theorem arch_fp_eq (a : Arch) (r : Reg) : a.fp r = fpOf (a.rd r) := by
  rw [Arch.fp, fpOf, num32, BitVec.extractLsb'_toNat, Nat.shiftRight_zero]

theorem binaryFormats_room {f : FpFmt} (h : f ∈ binaryFormats) :
    f.nanCode < 2 * f.signBit ∧ f.maxCode < f.signBit ∧ (f.sat = false → f.maxCode + 1 < f.signBit) := by
  simp only [binaryFormats, List.mem_cons, List.not_mem_nil, or_false] at h
  rcases h with rfl | rfl | rfl | rfl | rfl <;> decide

theorem overflow_lt_signBit {f : FpFmt} (h : f ∈ binaryFormats) (mode : Round) (neg : Bool) : f.overflow mode neg < f.signBit := by
  obtain ⟨-, hmax, hinf⟩ := binaryFormats_room h
  unfold FpFmt.overflow
  split
  · exact hmax
  · next hs =>
    have hinf := hinf (Bool.eq_false_iff.2 hs)
    cases mode <;> cases neg <;> assumption

/-- A rounded value is a code of the format. -/
theorem round_lt {f : FpFmt} (h : f ∈ binaryFormats) (mode : Round) (x : ExtNum) : f.round mode x < 2 * f.signBit := by
  obtain ⟨hnan, hmax, hinf⟩ := binaryFormats_room h
  have hsign : ∀ neg : Bool, (if neg = true then f.signBit else 0) ≤ f.signBit := fun neg => by split <;> omega
  cases x with
  | nan => exact hnan
  | inf neg =>
    have hm : (if f.sat then f.maxCode else f.maxCode + 1) < f.signBit := by
      split
      · exact hmax
      · next hs => exact hinf (Bool.eq_false_iff.2 hs)
    exact (Nat.add_lt_add_of_le_of_lt (hsign neg) hm).trans_eq (Nat.two_mul _).symm
  | fin neg n d =>
    have hm : (if f.maxCode < f.roundMag mode neg n d then f.overflow mode neg else f.roundMag mode neg n d) < f.signBit := by
      have := overflow_lt_signBit h mode neg
      split <;> omega
    have := Nat.add_lt_add_of_le_of_lt (hsign neg) hm
    simp only [FpFmt.round]
    split <;> omega

theorem word_setWidth {w n : Nat} (h : n < 2 ^ w) (hw : w ≤ 64) : word n = (BitVec.ofNat w n).setWidth 64 := by
  have := h.trans_le (Nat.pow_le_pow_right (by decide) hw)
  exact BitVec.eq_of_toNat_eq (by simp [word, Nat.mod_eq_of_lt h])

/-- A checked FP32 result is sent in the low half. -/
theorem fpCode_f32 (lat : Nat) (d : Reg) (r : Round) (x : ExtNum) (s : State) :
    s.fpCode lat d f32 (f32.round r x) = s.sendsF32 lat d r x := by
  have h : f32.round r x < 2 ^ 32 := round_lt (by decide) r x
  rw [State.fpCode, word_setWidth h (by decide)]
  rfl

theorem fpCode_small {f : FpFmt} (hf : f ∈ binaryFormats) {w : Nat} (hw : 2 * f.signBit = 2 ^ w) (h64 : w ≤ 64) (lat : Nat) (d : Reg)
    (r : Round) (x : ExtNum) (s : State) :
    s.fpCode lat d f (f.round r x) =
      s.sendsChecked lat d (f.shadow (f.round r x)) ((BitVec.ofNat w (f.round r x)).setWidth 64) := by
  have h : f.round r x < 2 ^ w := hw ▸ round_lt hf r x
  rw [State.fpCode, word_setWidth h h64]
  rfl

/-! ### Minimum and maximum -/

/-- An FP32 code that is no NaN rounds to itself. -/
theorem f32_round_decode {c : Nat} (hc : c < 2 ^ 32) (hn : (f32.decode c).isNaN = false) (m : Round) :
    f32.round m (f32.decode c) = c := by
  by_cases hv : (f32.decode c).val? = none
  · have hmag : f32.maxCode < c % f32.signBit := by
      by_contra h
      obtain ⟨n, d, e, hd, -⟩ := decode_eq_fin f32 (not_lt.1 h)
      rw [e, val_fin _ _ hd] at hv
      exact Option.some_ne_none _ hv
    have hinf : f32.decode c = .inf (c / f32.signBit % 2 == 1) ∧ c % f32.signBit = f32.maxCode + 1 := by
      unfold FpFmt.decode at hn ⊢
      simp only [if_pos hmag] at hn ⊢
      split at hn
      · next h => exact ⟨if_pos h, (by simpa using h : f32.sat = false ∧ _).2⟩
      · cases hn
    obtain ⟨e, hm'⟩ := hinf
    have hs : f32.signBit = 2 ^ 31 := rfl
    rw [hs] at e hm'
    rw [e]
    simp only [FpFmt.round, hs, beq_iff_eq]
    have : f32.sat = false := rfl
    rw [this, if_neg Bool.false_ne_true, ← hm']
    split <;> omega
  · exact roundingKeepsRepresentable f32 (by decide) m c hc hv

/-- The code that FMIN and FMAX send: one of the operands', or the canonical NaN. -/
theorem fpCode_choice (d a b : Reg) (s : State) (yes : Bool) :
    let x := fpOf (s.core.a.rd a)
    let y := fpOf (s.core.a.rd b)
    let z : BitVec 32 := if x.isNaN || y.isNaN then 0x7FC00000 else (s.core.a.rd (if yes then b else a)).extractLsb' 0 32
    s.fpOp 4 d .rne (if x.isNaN || y.isNaN then .nan else if yes then y else x) =
      s.sendsChecked 4 d (f32.shadow z.toNat) (z.setWidth 64) := by
  intro x y z
  have hz : f32.round .rne (if x.isNaN || y.isNaN then .nan else if yes then y else x) = z.toNat := by
    by_cases h : (x.isNaN || y.isNaN) = true
    · simp only [z, if_pos h]
      rfl
    · simp only [z, if_neg h]
      rw [Bool.not_eq_true, Bool.or_eq_false_iff] at h
      cases yes
      · exact f32_round_decode (BitVec.isLt _) h.1 _
      · exact f32_round_decode (BitVec.isLt _) h.2 _
  rw [State.fpOp, State.fpCode, hz, word_setWidth z.isLt (by decide), BitVec.ofNat_toNat, BitVec.setWidth_eq]
  rfl

theorem scalarFloatResults : Claims.ScalarFloatResults := by
  constructor
  · intro d a b r s x y z
    have op : ∀ lat v, s.fpOp lat d r v = s.sendsF32 lat d r v := fun lat v => fpCode_f32 lat d r v s
    refine ⟨?_, ?_, ?_, ?_, ?_, ?_, ?_, ?_, ?_⟩ <;> refine congrArg Host.Outcome.next ?_ <;> rw [op] <;> simp only [arch_fp_eq] <;> rfl
  · intro d a b s x y pick out
    refine ⟨?_, ?_⟩ <;> refine congrArg Host.Outcome.next ?_ <;> rw [arch_fp_eq, arch_fp_eq]
    · exact fpCode_choice d a b s (y.ltZ x)
    · exact fpCode_choice d a b s (x.ltZ y)

/-! ### Conversions -/

theorem toIntRange_bounds (r : Round) {lo hi : Int} (x : ExtNum) (h : lo ≤ 0) (h' : 0 ≤ hi) :
    lo ≤ toIntRange r lo hi x ∧ toIntRange r lo hi x ≤ hi := by
  cases x with
  | nan => exact ⟨h, h'⟩
  | inf s => cases s <;> simp only [toIntRange] <;> simp <;> omega
  | fin s n d => simp only [toIntRange]; omega

theorem signExtend_ofInt32 {x : Int} (h : -(2 ^ 31) ≤ x) (h' : x ≤ 2 ^ 31 - 1) :
    (BitVec.ofInt 32 x).signExtend 64 = BitVec.ofInt 64 x := by
  rw [BitVec.signExtend, BitVec.toInt_ofInt, Int.bmod_eq_of_le (by omega) (by omega)]

theorem setWidth_ofInt32 {x : Int} (h : 0 ≤ x) (h' : x ≤ 2 ^ 32 - 1) : (BitVec.ofInt 32 x).setWidth 64 = BitVec.ofInt 64 x := by
  apply BitVec.eq_of_toNat_eq
  rw [BitVec.toNat_setWidth, BitVec.toNat_ofInt, BitVec.toNat_ofInt]
  omega

/-! ### Rounding to an integral value -/

/-- A positive integer that the format has is its own code in every mode. -/
theorem round_nat_of_magVal {f : FpFmt} (hf : f.fb ≠ 0) {n k : Nat} (hn : 0 < n) (hk : k ≤ f.maxCode) (h : (n : ℚ) = f.magVal k)
    (mode : Round) (neg : Bool) : f.round mode (.fin neg n 1) = (if neg then f.signBit else 0) + k := by
  have hx : (n : ℚ) / (1 : Nat) = f.magVal k := by rw [Nat.cast_one, div_one, h]
  obtain ⟨c, r, q, hb, hround⟩ := round_eq_neighbour hf hn Nat.one_pos (hx.le.trans ((magVal_strictMono f).monotone hk))
  rw [hx] at hb
  obtain ⟨rfl, rfl⟩ := between_magVal hb
  rw [hround, roundsUp_zero _ _ _ hb.1, if_neg Bool.false_ne_true]

/-- FP32 has every integer up to 2^23. -/
theorem f32_has_small {n : Nat} (hn : 0 < n) (h : n ≤ 2 ^ 23) : ∃ k ≤ f32.maxCode, (n : ℚ) = f32.magVal k := by
  have hl : n.log2 ≤ 23 := by
    rw [← Nat.pow_le_pow_iff_right (a := 2) (by decide)]
    exact (Nat.log2_self_le hn.ne').trans h
  have hp : 2 ^ 23 = 2 ^ n.log2 * 2 ^ (23 - n.log2) := by rw [← pow_add]; congr 1; omega
  have hlo : 2 ^ 23 ≤ n * 2 ^ (23 - n.log2) := hp ▸ Nat.mul_le_mul_right _ (Nat.log2_self_le hn.ne')
  have hhi : n * 2 ^ (23 - n.log2) < 2 ^ 24 := by
    calc _ < 2 ^ (n.log2 + 1) * 2 ^ (23 - n.log2) := Nat.mul_lt_mul_of_pos_right Nat.lt_log2_self (by positivity)
      _ = 2 ^ 24 := by rw [← pow_add]; congr 1; omega
  refine ⟨n * 2 ^ (23 - n.log2) + (126 + n.log2) * 2 ^ f32.fb, ?_, ?_⟩
  · have : f32.fb = 23 := rfl
    have : f32.maxCode = 0x7F7FFFFF := rfl
    rw [‹f32.fb = 23›]
    omega
  · have hexp : ((126 + n.log2 : Nat) : ℤ) + (1 - (f32.bias : ℤ)) - f32.fb = -((23 - n.log2 : Nat) : ℤ) := by
      rw [show f32.bias = 127 from rfl, show f32.fb = 23 from rfl]
      omega
    rw [magVal_join f32 hhi.le (.inr hlo), hexp, zpow_neg, zpow_natCast]
    push_cast
    field_simp

/-- From 2^23 on every FP32 value is an integer. -/
theorem f32_integral_of_large {k : Nat} (h : 2 ^ 23 ≤ f32.magVal k) : ∃ n : Nat, f32.magVal k = n := by
  obtain ⟨m, j, rfl, hm, hj⟩ := exists_join f32 k
  rw [magVal_join f32 hm.le hj] at h ⊢
  have hb : (j : ℤ) + (1 - (f32.bias : ℤ)) - f32.fb = (j : ℤ) - 149 := by
    rw [show f32.bias = 127 from rfl, show f32.fb = 23 from rfl]
    ring
  rw [hb] at h ⊢
  have hj : 149 ≤ j := by
    by_contra hlt
    have h1 : (2 : ℚ) ^ ((j : ℤ) - 149) ≤ 2 ^ (-1 : ℤ) := zpow_le_zpow_right₀ one_le_two (by omega)
    have h2 : (m : ℚ) < 16777216 := by
      have : m < 16777216 := hm
      exact_mod_cast this
    have h4 := mul_le_mul_of_nonneg_left h1 (Nat.cast_nonneg (α := ℚ) m)
    norm_num at h h4
    linarith
  refine ⟨m * 2 ^ (j - 149), ?_⟩
  push_cast
  rw [← zpow_natCast, Nat.cast_sub hj]
  rfl

/-- The magnitude of a value rounded to an integer. -/
theorem natAbs_roundInt (mode : Round) (neg : Bool) (n d : Nat) :
    (roundInt mode neg n d).natAbs = if roundsUp mode neg (n / d) (n % d) d then n / d + 1 else n / d := by
  unfold roundInt
  dsimp only
  generalize (if roundsUp mode neg (n / d) (n % d) d = true then n / d + 1 else n / d) = m
  cases neg <;> simp [snum]

/-- An FP32 value rounded to an integer is zero or a value of FP32. -/
theorem f32_has_rint {k n d : Nat} (hk : k ≤ f32.maxCode) (hd : d ≠ 0) (h : (n : ℚ) / d = f32.magVal k) (mode : Round) (neg : Bool) :
    (roundInt mode neg n d).natAbs = 0 ∨ ∃ j ≤ f32.maxCode, ((roundInt mode neg n d).natAbs : ℚ) = f32.magVal j := by
  rw [natAbs_roundInt]
  have hd' : (0 : ℚ) < d := by exact_mod_cast Nat.pos_of_ne_zero hd
  rcases le_or_gt (2 ^ 23) (f32.magVal k) with hl | hs
  · obtain ⟨i, hi⟩ := f32_integral_of_large hl
    have hn : n = i * d := by
      rw [hi, div_eq_iff hd'.ne'] at h
      exact_mod_cast h
    rw [hn, Nat.mul_mod_left, roundsUp_zero _ _ _ (Nat.pos_of_ne_zero hd), if_neg Bool.false_ne_true,
      Nat.mul_div_cancel _ (Nat.pos_of_ne_zero hd)]
    exact .inr ⟨k, hk, hi.symm⟩
  · have hq : n / d < 2 ^ 23 := by
      rw [Nat.div_lt_iff_lt_mul (Nat.pos_of_ne_zero hd)]
      rw [← h, div_lt_iff₀ hd'] at hs
      exact_mod_cast hs
    rcases Nat.eq_zero_or_pos (if roundsUp mode neg (n / d) (n % d) d then n / d + 1 else n / d) with h0 | hp
    · exact .inl h0
    · exact .inr (f32_has_small hp (by split <;> omega))

/-- FRINT's integral value is exact, so that its own rounding does not see the mode. -/
theorem round_rint (c : Nat) (r : Round) : f32.round .rne ((f32.decode c).rint r) = f32.round r ((f32.decode c).rint r) := by
  rcases le_or_gt (c % f32.signBit) f32.maxCode with hle | hgt
  · obtain ⟨n, d, e, hd, hx⟩ := decode_eq_fin f32 hle
    rw [e]
    simp only [ExtNum.rint]
    rcases Nat.eq_zero_or_pos (roundInt r (c / f32.signBit % 2 == 1) n d).natAbs with h0 | hp
    · simp only [h0, FpFmt.round, if_true]
    · obtain ⟨j, hj, hv⟩ := (f32_has_rint hle hd hx r _).resolve_left hp.ne'
      rw [round_nat_of_magVal (by decide) hp hj hv, round_nat_of_magVal (by decide) hp hj hv]
  · unfold FpFmt.decode
    rw [if_pos hgt]
    split <;> rfl

theorem scalarConversionResults : Claims.ScalarConversionResults := by
  intro d a r s x lo int fp i64 u64 i32 u32 single
  have op : ∀ lat v, s.fpOp lat d r v = s.sendsF32 lat d r v := fun lat v => fpCode_f32 lat d r v s
  have low : ∀ w, lo w = x.toNat % 2 ^ w := fun w => by simp [lo, BitVec.extractLsb'_toNat]
  have hx : s.core.a.fp a = fpOf x := arch_fp_eq s.core.a a
  obtain ⟨l1, h1⟩ := toIntRange_bounds r (lo := -(2 ^ 31)) (hi := 2 ^ 31 - 1) (fpOf x) (by decide) (by decide)
  obtain ⟨l2, h2⟩ := toIntRange_bounds r (lo := 0) (hi := 2 ^ 32 - 1) (fpOf x) (by decide) (by decide)
  refine ⟨?_, ?_, ?_, ?_, ?_, ?_, ?_, ?_, ?_, ?_, ?_, ?_, ?_, ?_, ?_, ?_, ?_⟩ <;> refine congrArg Host.Outcome.next ?_
  · rw [hx]; rfl
  · rw [hx]; rfl
  · rw [hx, signExtend_ofInt32 l1 h1]; rfl
  · rw [hx, setWidth_ofInt32 l2 h2]; rfl
  · exact op 3 _
  · exact op 3 _
  · rw [signedOf_eq_toInt (by decide), show BitVec.ofNat 32 (s.core.a.rd a).toNat = x.extractLsb' 0 32 from
      BitVec.eq_of_toNat_eq (by simp [x, BitVec.extractLsb'_toNat])]
    exact op 3 _
  · rw [low]; exact op 3 _
  · rw [hx]; exact fpCode_small (by decide) rfl (by decide) 3 d r _ s
  · rw [hx]; exact fpCode_small (by decide) rfl (by decide) 3 d r _ s
  · rw [hx]; exact fpCode_small (by decide) rfl (by decide) 3 d r _ s
  · rw [hx]; exact fpCode_small (by decide) rfl (by decide) 3 d r _ s
  · rw [low]; exact op 3 _
  · rw [low]; exact op 3 _
  · rw [low]; exact op 3 _
  · rw [low]; exact op 3 _
  · rw [hx, fpOf, round_rint]
    exact op 3 _

theorem scalarFloatCompareResults : Claims.ScalarFloatCompareResults := by
  intro p a b s x y out
  refine ⟨?_, ?_, ?_, ?_⟩ <;> refine congrArg Host.Outcome.next ?_ <;> rw [arch_fp_eq, arch_fp_eq] <;> rfl

/-- Settles O4: each result is the rounded exact one, and a code that FMIN, FMAX or FRINT rounds again is its own rounding. -/
theorem scalarFloatInstructions : Obligations.ScalarFloatInstructions :=
  ⟨scalarFloatResults, scalarConversionResults, scalarFloatCompareResults⟩

end Sys2Proof.Machine
end

section
/-!
LEMMAS. What the issue of an instruction leaves aside: nothing is written yet, and the results in flight to registers that it does not
name stay as they are (spec/02 R40, R43, spec/04 R77).
-/
open Sys2Proof

namespace Sys2Proof.Machine

/-- A state reached with nothing written, and with the results in flight that the instruction does not aim at. -/
def State.aside (i : Instr) (s t : State) : Prop :=
  s.keeps t ∧ ∀ left l, Landing.aimed i l = false → (inFlight t.core.a.flights left l ↔ inFlight s.core.a.flights left l)

/-- A state that the issue of an instruction may reach: `aside`, or a trap from such a state. -/
def State.mayIssue (i : Instr) (s t : State) : Prop := s.aside i t ∨ ∃ u k c x, t = State.fault k c x u ∧ s.keeps u

variable {i : Instr} {s t u : State}

theorem framed_of_mayIssue (e : exec i s = .next t) (h : s.mayIssue i t) : framed i s := ⟨t, e, h⟩

theorem aside_refl (i : Instr) (s : State) : s.aside i s := ⟨keeps_refl s, fun _ _ _ => Iff.rfl⟩

theorem aside_trans (h : s.aside i t) (k : t.aside i u) : s.aside i u :=
  ⟨keeps_trans h.1 k.1, fun left l hl => (k.2 left l hl).trans (h.2 left l hl)⟩

theorem aside_of_flights (h : s.keeps t) (e : t.core.a.flights = s.core.a.flights) : s.aside i t :=
  ⟨h, fun left l _ => by rw [e]⟩

theorem mayIssue_of_aside (h : s.aside i t) : s.mayIssue i t := .inl h

theorem mayIssue_fault (k : Nat) (c : Cause) (x : Word) (h : s.aside i t) : s.mayIssue i (t.fault k c x) := .inr ⟨t, k, c, x, rfl, h.1⟩

theorem mayIssue_illegal (i : Instr) (k : Nat) (s : State) : s.mayIssue i (s.illegal k) := mayIssue_fault k _ _ (aside_refl i s)

theorem mayIssue_trans (h : s.aside i t) (k : t.mayIssue i u) : s.mayIssue i u := by
  rcases k with k | ⟨v, a, b, c, e, k⟩
  · exact .inl (aside_trans h k)
  · exact .inr ⟨v, a, b, c, e, keeps_trans h.1 k⟩

/-! ### Results sent -/

/-- A landing that the instruction aims at, and so is every landing on the same register. -/
def Landing.within (i : Instr) (m : Landing) : Prop := ∀ l, l = m ∨ l.same m = true → Landing.aimed i l = true

theorem aimed_s {r : Reg} (h : r ∈ (uses i).dst) (x : Word) : Landing.aimed i (.s r x) = true := List.contains_iff_mem.2 h

theorem within_s {r : Reg} (h : r ∈ (uses i).dst) (x : Word) : Landing.within i (.s r x) := by
  rintro l (rfl | hl)
  · exact aimed_s h x
  · cases l <;> simp only [Landing.same, beq_iff_eq, Bool.false_eq_true] at hl
    subst hl
    exact aimed_s h _

theorem within_p {r : PredReg} (h : r ∈ (uses i).pdst) (x : Bool) : Landing.within i (.p r x) := by
  have aimed : ∀ y, Landing.aimed i (.p r y) = true := fun y => List.contains_iff_mem.2 h
  rintro l (rfl | hl)
  · exact aimed x
  · cases l <;> simp only [Landing.same, beq_iff_eq, Bool.false_eq_true] at hl
    subst hl
    exact aimed _

theorem within_v {r : Reg} (h : VDst.v r ∈ (uses i).vdst) (x : Vec) : Landing.within i (.v r x) := by
  have aimed : ∀ y, Landing.aimed i (.v r y) = true := fun y => List.contains_iff_mem.2 h
  rintro l (rfl | hl)
  · exact aimed x
  · cases l <;> simp only [Landing.same, beq_iff_eq, Bool.false_eq_true] at hl
    subst hl
    exact aimed _

theorem within_m {r : MaskReg} (h : r ∈ (uses i).mdst) (x : Mask) : Landing.within i (.m r x) := by
  have aimed : ∀ y, Landing.aimed i (.m r y) = true := fun y => List.contains_iff_mem.2 h
  rintro l (rfl | hl)
  · exact aimed x
  · cases l <;> simp only [Landing.same, beq_iff_eq, Bool.false_eq_true] at hl
    subst hl
    exact aimed _

/-- Landings on no numbered register. -/
def Landing.unnumbered : Landing → Bool
  | .s _ _ | .p _ _ | .v _ _ | .m _ _ => false
  | _ => true

theorem aimed_unnumbered {l : Landing} (h : l.unnumbered = true) : Landing.aimed i l = true := by
  cases l <;> simp_all [Landing.unnumbered, Landing.aimed]

theorem unnumbered_of_same {l m : Landing} (h : l.same m = true) : l.unnumbered = m.unnumbered := by
  cases l <;> cases m <;> simp_all [Landing.same, Landing.unnumbered]

theorem within_unnumbered {m : Landing} (h : m.unnumbered = true) : Landing.within i m := by
  rintro l (rfl | hl)
  · exact aimed_unnumbered h
  · exact aimed_unnumbered ((unnumbered_of_same hl).trans h)

theorem aside_fly {lat slot : Nat} {ls : List Landing} (h : ∀ m ∈ ls, Landing.within i m) (s : State) :
    s.aside i (s.fly lat slot ls) := by
  refine ⟨keeps_fly lat slot ls s, fun left l hl => ?_⟩
  have hne : ∀ m ∈ ls, ¬ (l = m ∨ l.same m = true) := fun m hm hs => by
    rw [h m hm l hs] at hl
    cases hl
  have hany : ls.any l.same = false := by
    rw [List.any_eq_false]
    exact fun m hm hs => hne m hm (.inr hs)
  rw [inFlight_fly, hany]
  constructor
  · rintro (⟨hf, -⟩ | ⟨-, hm⟩)
    · exact hf
    · exact absurd (.inl rfl) (hne l hm)
  · exact fun hf => .inl ⟨hf, rfl⟩

theorem aside_fly_s {lat slot : Nat} {d : Reg} {x : Word} (h : d ∈ (uses i).dst) (s : State) :
    s.aside i (s.fly lat slot [.s d x]) :=
  aside_fly (fun m hm => List.mem_singleton.1 hm ▸ within_s h x) s

theorem aside_fly_p {lat slot : Nat} {d : PredReg} {x : Bool} (h : d ∈ (uses i).pdst) (s : State) :
    s.aside i (s.fly lat slot [.p d x]) :=
  aside_fly (fun m hm => List.mem_singleton.1 hm ▸ within_p h x) s

theorem aside_fly_v {lat slot : Nat} {d : Reg} {x : Vec} (h : VDst.v d ∈ (uses i).vdst) (s : State) :
    s.aside i (s.fly lat slot [.v d x]) :=
  aside_fly (fun m hm => List.mem_singleton.1 hm ▸ within_v h x) s

theorem aside_fly_m {lat slot : Nat} {d : MaskReg} {x : Mask} (h : d ∈ (uses i).mdst) (s : State) :
    s.aside i (s.fly lat slot [.m d x]) :=
  aside_fly (fun m hm => List.mem_singleton.1 hm ▸ within_m h x) s

theorem aside_fly_unnumbered {lat slot : Nat} {m : Landing} (h : m.unnumbered = true) (s : State) :
    s.aside i (s.fly lat slot [m]) :=
  aside_fly (fun l hl => List.mem_singleton.1 hl ▸ within_unnumbered h) s

theorem aside_shadow (lat slot : Nat) (elems : List Nat) (s : State) : s.aside i (s.shadow lat slot elems) :=
  aside_of_flights (keeps_shadow lat slot elems s) rfl

/-! ### The ctl slot -/

theorem aside_intOp {lat : Nat} {d : Reg} (h : d ∈ (uses i).dst) (a b : Reg) (w : Bool) (f : Nat → Nat → Nat → Nat) (s : State) :
    s.aside i (s.intOp lat d a b w f) := aside_fly_s h s

theorem aside_ctlReg {d : Reg} (h : d ∈ (uses i).dst) (x : Word) (s : State) : s.aside i (s.ctlReg d x) := aside_fly_s h s

theorem aside_ctlPred {p : PredReg} (h : p ∈ (uses i).pdst) (x : Bool) (s : State) : s.aside i (s.ctlPred p x) := aside_fly_p h s

theorem aside_fpCode {d : Reg} (h : d ∈ (uses i).dst) (lat : Nat) (f : FpFmt) (x : Nat) (s : State) : s.aside i (s.fpCode lat d f x) :=
  aside_trans (aside_shadow _ _ _ s) (aside_fly_s h _)

theorem aside_fpOp {d : Reg} (h : d ∈ (uses i).dst) (lat : Nat) (r : Round) (x : ExtNum) (s : State) : s.aside i (s.fpOp lat d r x) :=
  aside_fpCode h ..

theorem aside_fpInt {d : Reg} (h : d ∈ (uses i).dst) (lat : Nat) (x : Int) (s : State) : s.aside i (s.fpInt lat d x) :=
  aside_trans (aside_shadow _ _ _ s) (aside_fly_s h _)

theorem aside_fpPred {p : PredReg} (h : p ∈ (uses i).pdst) (x : Bool) (s : State) : s.aside i (s.fpPred p x) :=
  aside_trans (aside_shadow _ _ _ s) (aside_ctlPred h _ _)

/-- A change of the pending transfer or of the loops. -/
theorem aside_pend (p : Option Pend) (s : State) : s.aside i (s.modA (fun a => { a with pend := p })) :=
  aside_of_flights (by and_intros <;> rfl) rfl

theorem mayIssue_transfer (taken : Bool) (x : Word) (leaves : Bool) (s : State) : s.mayIssue i (s.transfer taken x leaves) := by
  unfold State.transfer
  split
  · exact mayIssue_illegal i 0 s
  · split
    · exact .inl (aside_pend _ s)
    · exact .inl (aside_refl i s)

/-- A transfer outside a delay bundle, with its link. -/
theorem aside_link {d : Reg} (h : d ∈ (uses i).dst) (x y : Word) (leaves : Bool) {s : State} (hd : ¬ s.core.a.inDelay = true) :
    s.aside i ((s.transfer true x leaves).ctlReg d y) := by
  refine aside_trans ?_ (aside_ctlReg h y _)
  rw [State.transfer, if_neg hd, if_pos rfl]
  exact aside_pend _ s

theorem aside_restartPrefetch (g : Port) (s : State) : s.aside i (s.restartPrefetch g) :=
  aside_of_flights (by and_intros <;> rfl) rfl

theorem framed_call (o : BitVec 26) (s : State) : framed (.call o) s := by
  refine framed_of_mayIssue rfl ?_
  split
  · exact mayIssue_illegal ..
  · next h => exact .inl (aside_link List.mem_cons_self _ _ _ h)

theorem framed_jr (d a : Reg) (s : State) : framed (.jr d a) s := by
  refine framed_of_mayIssue rfl ?_
  split
  · exact mayIssue_illegal ..
  · next h =>
    split
    · exact mayIssue_fault _ _ _ (aside_refl ..)
    · exact .inl (aside_link List.mem_cons_self _ _ _ h)

theorem framed_loop (l : LoopNo) (a : Reg) (o : BitVec 16) (s : State) : framed (.loop l a o) s := by
  refine framed_of_mayIssue rfl ?_
  split
  · exact mayIssue_illegal ..
  · split
    · exact mayIssue_illegal ..
    · split
      · exact .inl (aside_pend _ s)
      · exact .inl (aside_of_flights (by and_intros <;> rfl) rfl)

theorem framed_wrsr (a : Reg) (r : SysReg) (s : State) : framed (.wrsr a r) s := by
  refine framed_of_mayIssue rfl ?_
  split
  · split
    · exact mayIssue_fault _ _ _ (aside_refl ..)
    · exact .inl (aside_fly_unnumbered rfl s)
  · dsimp only
    split
    · exact .inl (aside_fly_unnumbered rfl s)
    · exact .inl (aside_refl ..)
  · exact mayIssue_fault _ _ _ (aside_refl ..)

theorem framed_gcfg (a : Reg) (t : PortWord) (g : Port) (s : State) : framed (.gcfg a t g) s := by
  refine framed_of_mayIssue rfl ?_
  split
  · exact mayIssue_illegal ..
  · exact .inl (aside_fly_unnumbered rfl s)

theorem framed_of_aside (e : exec i s = .next t) (h : s.aside i t) : framed i s := ⟨t, e, .inl h⟩

/-- Settles O47: each ctl instruction sends its results, sets a transfer aside, or traps. -/
theorem controlSlotFrame : Obligations.ControlSlotFrame := by
  intro i s h
  cases i
  case nopCtl => exact framed_of_aside rfl (aside_refl ..)
  case add | sub | and | or | xor | andn | sll | srl | sra | rol | min | max | minu | maxu | mul | mulh | mulhu | div | divu | rem | remu
    | clz | ctz | popc | slli | srli | srai | roli => exact framed_of_aside rfl (aside_intOp List.mem_cons_self ..)
  case addi | andi | ori | xori | movhi | addpc | sel | rdsr | gstat => exact framed_of_aside rfl (aside_ctlReg List.mem_cons_self ..)
  case cmp | cmpi | pand | por | pxor => exact framed_of_aside rfl (aside_ctlPred List.mem_cons_self ..)
  case br | bz | bnz | jmp => exact framed_of_mayIssue rfl (mayIssue_transfer ..)
  case call => exact framed_call ..
  case jr => exact framed_jr ..
  case loop => exact framed_loop ..
  case fadd | fsub | fmul | fdiv | fsqrt | fmin | fmax | ffma | ffms | ffnma | ffnms =>
    exact framed_of_aside rfl (aside_fpOp List.mem_cons_self ..)
  case fcvtI64F32 | fcvtUi64F32 | fcvtI32F32 | fcvtUi32F32 => exact framed_of_aside rfl (aside_fpInt List.mem_cons_self ..)
  case fcvtF32I64 | fcvtF32Ui64 | fcvtF32I32 | fcvtF32Ui32 | fcvtB16F32 | fcvtF32B16 | fcvtF16F32 | fcvtF32F16 | fcvtF8aF32
    | fcvtF8bF32 | fcvtF32F8a | fcvtF32F8b | frint => exact framed_of_aside rfl (aside_fpCode List.mem_cons_self ..)
  case feq | flt | fle | fUn => exact framed_of_aside rfl (aside_fpPred List.mem_cons_self ..)
  case wrsr => exact framed_wrsr ..
  case gcfg => exact framed_gcfg ..
  case gstart | gseek => exact framed_of_aside rfl (aside_trans (aside_fly_unnumbered rfl _) (aside_restartPrefetch ..))
  case gstop | vsetk | vsetkH => exact framed_of_aside rfl (aside_fly_unnumbered rfl _)
  all_goals try cases ‹VUnit›
  all_goals try cases ‹CopyQ›
  all_goals cases h

end Sys2Proof.Machine
end

section
/-!
LEMMAS. The frames of the vector slots and of the mem slot (spec/02 R40, R43, spec/05 R108, R120, spec/07 R138).
-/
open Sys2Proof

namespace Sys2Proof.Machine

variable {i : Instr} {s t u : State}

theorem popV_flights (x : VSrc) (c : Core) : (c.popV x).a.flights = c.a.flights := by
  unfold Core.popV
  split
  · split <;> rfl
  · rfl

theorem pops_flights (xs : List VSrc) (c : Core) : (xs.foldl Core.popV c).a.flights = c.a.flights := by
  induction xs generalizing c with
  | nil => rfl
  | cons x rest ih => exact (ih _).trans (popV_flights x c)

theorem taintFl_flights (xs : List VSrc) (c : Core) : (c.taintFl xs).a.flights = c.a.flights := by
  unfold Core.taintFl
  split
  · split <;> rfl
  · rfl

theorem aside_taken (xs : List VSrc) (s : State) : s.aside i (s.taken xs) :=
  aside_of_flights (keeps_taken xs s) ((pops_flights xs _).trans (taintFl_flights xs s.core))

/-- The delivery of a vector result aims at its destination and at the queue. -/
theorem aside_deliver {d : VDst} (h : ∀ r, d = .v r → d ∈ (uses i).vdst) (lat slot : Nat) (elems : List Nat) (x : Vec) (s : State) :
    s.aside i (s.deliver lat slot d elems x) := by
  have hs : s.aside i (if elems.isEmpty then s else s.shadow lat slot elems) := by
    split
    · exact aside_refl i s
    · exact aside_shadow lat slot elems s
  refine aside_trans hs ?_
  cases d with
  | queue => exact aside_fly_unnumbered rfl _
  | v r =>
    refine aside_fly (fun m hm => ?_) _
    simp only [List.mem_cons, List.not_mem_nil, or_false] at hm
    rcases hm with rfl | rfl
    · exact within_unnumbered rfl
    · exact within_v (h r rfl) x
  | g p =>
    refine aside_trans (aside_of_flights (t := (if elems.isEmpty then s else s.shadow lat slot elems).modA
      (fun a => { a with ports := a.ports.set p a.ports[p].step })) (by and_intros <;> rfl) rfl) (aside_fly (fun m hm => ?_) _)
    simp only [List.mem_cons, List.not_mem_nil, or_false] at hm
    rcases hm with rfl | rfl <;> exact within_unnumbered rfl

theorem mayIssue_vecIssue {slot : Nat} {xs : List VSrc} {d : VDst} {e : List Vec → Option (Cause × Word)}
    {f : List Vec → State → State} (h : ∀ (vs : List Vec) (t : State), t.aside i (f vs t)) (s : State) : s.mayIssue i (s.vecIssue slot xs d e f) := by
  unfold State.vecIssue
  split
  · exact mayIssue_fault _ _ _ (aside_refl i s)
  · dsimp only
    split
    · exact mayIssue_fault _ _ _ (aside_refl i s)
    · exact .inl (aside_trans (aside_taken xs s) (h _ _))

theorem mayIssue_vec2 {d : VDst} (h : d ∈ (uses i).vdst) (un : VUnit) (a b : VSrc) (t : VType) (m : MaskReg) (lat : Nat)
    (f : Nat → Nat → Nat) (s : State) : s.mayIssue i (s.vec2 un d a b t m lat f) :=
  mayIssue_vecIssue (fun _ _ => aside_deliver (fun _ _ => h) ..) s

theorem mayIssue_vec1 {d : VDst} (h : d ∈ (uses i).vdst) (slot : Nat) (a : VSrc) (t : VType) (m : MaskReg) (lat : Nat) (f : Nat → Nat)
    (s : State) : s.mayIssue i (s.vec1 slot d a t m lat f) :=
  mayIssue_vecIssue (fun _ _ => aside_deliver (fun _ _ => h) ..) s

theorem mayIssue_vecWhole {d : VDst} (h : d ∈ (uses i).vdst) (slot : Nat) (xs : List VSrc) (lat : Nat) (chk : Core → Vec → List Nat)
    (f : Core → List Vec → Vec) (s : State) : s.mayIssue i (s.vecWhole slot xs d lat chk f) :=
  mayIssue_vecIssue (fun _ _ => aside_deliver (fun _ _ => h) ..) s

theorem mayIssue_vecMask {k : MaskReg} (h : k ∈ (uses i).mdst) (un : VUnit) (a : VSrc) (f : Vec → Nat → Bool) (s : State) :
    s.mayIssue i (s.vecMask un k a f) :=
  mayIssue_vecIssue (fun _ _ => aside_fly_m h _) s

theorem aside_checks (f : List Check → List Check) (s : State) : s.aside i (s.modA (fun a => { a with checks := f a.checks })) :=
  aside_of_flights (by and_intros <;> rfl) rfl

/-- Settles O48: each vector instruction takes its sources and sends its result, or traps. -/
theorem vectorSlotsFrame : Obligations.VectorSlotsFrame := by
  intro i s h
  cases i
  case nopVec => exact framed_of_aside rfl (aside_refl ..)
  case vadd | vsub | vmul | vmulh | vmin | vmax | vand | vor | vxor | vandn | vshl | vshr =>
    exact framed_of_mayIssue rfl (mayIssue_vec2 List.mem_cons_self ..)
  case vfma => exact framed_of_mayIssue rfl (mayIssue_vecIssue (fun _ _ => aside_deliver (d := .queue) (fun _ hr => nomatch hr) ..) _)
  case vabs | vneg | vexp2 | vlog2 | vrcp | vrsq => exact framed_of_mayIssue rfl (mayIssue_vec1 List.mem_cons_self ..)
  case vcmp => exact framed_of_mayIssue rfl (mayIssue_vecIssue (fun _ _ => aside_fly_m List.mem_cons_self _) _)
  case vsel | vmov | vcvt | vperm | vrot | vrsum | vrmax | vscan =>
    exact framed_of_mayIssue rfl (mayIssue_vecWhole List.mem_cons_self ..)
  case vscale | vqnt | vunpk =>
    exact framed_of_mayIssue rfl (mayIssue_vecIssue (fun _ _ => aside_deliver (fun _ _ => List.mem_cons_self) ..) _)
  case vmaskAnd | vmaskOr | vmaskXor | vmaskAndn | vmaskNot => exact framed_of_aside rfl (aside_fly_m List.mem_cons_self _)
  case vmaskNz | vmaskCnt => exact framed_of_mayIssue rfl (mayIssue_vecMask List.mem_cons_self ..)
  case vchk => exact framed_of_mayIssue rfl (mayIssue_vecIssue (fun _ _ => aside_checks (fun cs => cs ++ _) _) _)
  all_goals try cases ‹CopyQ›
  all_goals rcases h with h | h <;> cases h

end Sys2Proof.Machine
end

section
/-!
LEMMAS. The frames of the mem slot and of the copy slots (spec/02 R40, R43, spec/05 R108, R120, spec/11 R218).
-/
open Sys2Proof

namespace Sys2Proof.Machine

variable {i : Instr} {s t u : State}

theorem aside_markEmpty {r : Reg} (h : r ∈ (uses i).dst) (s : State) : s.aside i (s.markEmpty r) := by
  refine ⟨keeps_markEmpty r s, fun left l hl => ?_⟩
  rw [inFlight_markEmpty]
  refine and_iff_left (.inr (Bool.eq_false_iff.2 fun hs => ?_))
  rw [within_s h 0 l (.inr hs)] at hl
  cases hl

/-- The register that discards writes is never marked. -/
theorem aside_markEmpty_zero (s : State) : s.aside i (s.markEmpty 0) := aside_refl i s

theorem aside_markEmptyV {r : Reg} (h : VDst.v r ∈ (uses i).vdst) (s : State) : s.aside i (s.markEmptyV r) := by
  refine ⟨keeps_markEmptyV r s, fun left l hl => ?_⟩
  refine (inFlight_cancel [.v r 0] s.core.a.flights left l).trans (and_iff_left ?_)
  rw [List.any_cons, List.any_nil, Bool.or_false]
  refine Bool.eq_false_iff.2 fun hs => ?_
  rw [within_v h 0 l (.inr hs)] at hl
  cases hl

theorem aside_queueLoad (va : Word) (d : LoadDst) (acq : Option Scope) (s : State) : s.aside i (s.queueLoad va d acq) :=
  aside_of_flights (keeps_queueLoad va d acq s) rfl

theorem aside_stage (e : PierEntry) (s : State) : s.aside i (s.stage e) := aside_of_flights (keeps_stage e s) rfl

theorem aside_newId (s : State) : s.aside i s.newId.2 := aside_of_flights (keeps_newId s) rfl

theorem aside_onDie (d : Nat) (f : Die → Die) (s : State) : s.aside i (s.onDie d f) := by
  unfold State.onDie
  split
  · exact aside_of_flights (by and_intros <;> rfl) rfl
  · exact aside_refl i s

theorem onDie_core (d : Nat) (f : Die → Die) (s : State) : (s.onDie d f).core = s.core := by
  unfold State.onDie
  split <;> rfl

/-- An acquire drops cached lines and fetched bundles alone. -/
theorem aside_acquire (sc : Scope) (s : State) : s.aside i (s.acquire sc) := by
  unfold State.acquire State.acquireOn State.onCore
  split
  · rw [if_pos (by rw [onDie_core])]
    exact aside_trans (aside_onDie ..) (aside_of_flights (by and_intros <;> rfl) rfl)
  · exact aside_refl i s

theorem aside_spadAcquire (acq : Option Scope) (s : State) : s.aside i (s.spadAcquire acq) := by
  cases acq with
  | none => exact aside_refl i s
  | some sc => exact aside_acquire sc s

theorem aside_foldl {α : Type} {f : State → α → State} (h : ∀ (t : State) (x : α), t.aside i (f t x)) (xs : List α) (s : State) :
    s.aside i (xs.foldl f s) := by
  induction xs generalizing s with
  | nil => exact aside_refl i s
  | cons x rest ih => exact aside_trans (h s x) (ih _)

theorem aside_setPoints (ps : List OrderPoint) (s : State) : s.aside i (s.modA (fun a => { a with points := ps })) :=
  aside_of_flights (by and_intros <;> rfl) rfl

theorem aside_addPoint (p : OrderPoint) (s : State) : s.aside i (s.modA (fun a => { a with points := a.points ++ [p] })) :=
  aside_of_flights (by and_intros <;> rfl) rfl

theorem aside_prunePoints (s : State) : s.aside i s.prunePoints := by
  unfold State.prunePoints
  exact aside_trans (aside_setPoints _ s) (aside_foldl (fun t sc => aside_acquire sc t) _ _)

theorem aside_point (p : OrderPoint) (s : State) : s.aside i (s.point p) :=
  aside_trans (aside_newId s) (aside_trans (aside_addPoint _ _) (aside_prunePoints _))

/-! ### The mem slot -/

theorem mayIssue_loadScalar {d : Reg} (h : d ∈ (uses i).dst) (a : Reg) (o : BitVec 10) (r : Order) (n : Nat) (signed : Bool) (s : State) :
    s.mayIssue i (s.loadScalar d a o r n signed) := by
  unfold State.loadScalar
  obtain ⟨poisonIn, e⟩ := exists_eq (a' := Core.spadPoisonIn)
  rw [← e]
  dsimp only
  split
  · exact mayIssue_fault _ _ _ (aside_refl i s)
  · split
    · split
      · exact mayIssue_fault _ _ _ (aside_refl i s)
      · exact .inl (aside_trans (aside_fly_s h s) (aside_spadAcquire ..))
    · exact .inl (aside_trans (aside_markEmpty h s) (aside_queueLoad ..))

theorem mayIssue_storeBytes (ea : Word) (n x : Nat) (r : Order) (s : State) : s.mayIssue i (s.storeBytes ea n x r) := by
  unfold State.storeBytes
  split
  · split
    · exact mayIssue_fault _ _ _ (aside_refl i s)
    · exact .inl (aside_stage ..)
  · exact .inl (aside_stage ..)

theorem framed_st (d a : Reg) (o : BitVec 10) (r : Order) (z : Size) (s : State) : framed (.st d a o r z) s := by
  refine framed_of_mayIssue rfl ?_
  split
  · exact mayIssue_fault _ _ _ (aside_refl ..)
  · exact mayIssue_storeBytes ..

theorem framed_ldv (d a : Reg) (o : BitVec 10) (r : Order) (s : State) : framed (.ldv d a o r) s := by
  refine framed_of_mayIssue rfl ?_
  split
  · exact mayIssue_fault _ _ _ (aside_refl ..)
  · split
    · split
      · exact mayIssue_fault _ _ _ (aside_refl ..)
      · exact .inl (aside_trans (aside_fly_v List.mem_cons_self s) (aside_spadAcquire ..))
    · exact .inl (aside_trans (aside_markEmptyV List.mem_cons_self s) (aside_queueLoad ..))

theorem framed_stv (d a : Reg) (o : BitVec 10) (r : Order) (s : State) : framed (.stv d a o r) s := by
  refine framed_of_mayIssue rfl ?_
  split
  · exact mayIssue_fault _ _ _ (aside_refl ..)
  · exact mayIssue_storeBytes ..

theorem framed_ldx (d a : Reg) (o : BitVec 10) (r : Order) (s : State) : framed (.ldx d a o r) s := by
  refine framed_of_mayIssue rfl ?_
  split
  · exact mayIssue_fault _ _ _ (aside_refl ..)
  · split
    · unfold State.expandSpad
      dsimp only
      split
      · exact mayIssue_fault _ _ _ (aside_refl ..)
      · split
        · exact mayIssue_fault _ _ _ (aside_refl ..)
        · split
          · exact mayIssue_fault _ _ _ (aside_refl ..)
          · refine .inl (aside_trans (aside_fly (fun m hm => ?_) s) (aside_spadAcquire ..))
            simp only [List.mem_cons, List.not_mem_nil, or_false] at hm
            rcases hm with rfl | rfl
            · exact within_v List.mem_cons_self _
            · exact within_s List.mem_cons_self _
    · exact .inl (aside_trans (aside_markEmptyV List.mem_cons_self s) (aside_trans (aside_markEmpty List.mem_cons_self _)
        (aside_queueLoad ..)))

theorem framed_stpk (d a : Reg) (o : BitVec 10) (r : Order) (m : ScaleMode) (s : State) : framed (.stpk d a o r m) s := by
  refine framed_of_mayIssue rfl ?_
  obtain ⟨poisonIn, e⟩ := exists_eq (a' := Core.spadPoisonIn)
  rw [← e]
  dsimp only
  split
  · exact mayIssue_fault _ _ _ (aside_refl ..)
  · split
    · exact mayIssue_fault _ _ _ (aside_refl ..)
    · split
      · exact mayIssue_fault _ _ _ (aside_refl ..)
      · split
        · exact mayIssue_fault _ _ _ (aside_refl ..)
        · split
          · exact mayIssue_fault _ _ _ (aside_refl ..)
          · split
            · exact mayIssue_fault _ _ _ (aside_refl ..)
            · split
              · exact mayIssue_fault _ _ _ (aside_refl ..)
              · exact .inl (aside_stage ..)

theorem framed_ldt (d a : Reg) (o : BitVec 10) (r : Order) (s : State) : framed (.ldt d a o r) s := by
  refine framed_of_mayIssue rfl ?_
  split
  · exact mayIssue_fault _ _ _ (aside_refl ..)
  · split
    · split
      · exact mayIssue_fault _ _ _ (aside_refl ..)
      · exact .inl (aside_trans (aside_fly_s List.mem_cons_self s) (aside_spadAcquire ..))
    · exact .inl (aside_trans (aside_markEmpty List.mem_cons_self s) (aside_queueLoad ..))

theorem framed_stt (d a : Reg) (o : BitVec 10) (r : Order) (s : State) : framed (.stt d a o r) s := by
  refine framed_of_mayIssue rfl ?_
  obtain ⟨poisonIn, e⟩ := exists_eq (a' := Core.spadPoisonIn)
  rw [← e]
  split
  · exact mayIssue_fault _ _ _ (aside_refl ..)
  · split
    · exact mayIssue_fault _ _ _ (aside_refl ..)
    · split
      · exact mayIssue_fault _ _ _ (aside_refl ..)
      · exact .inl (aside_stage ..)

theorem aside_stall (n : Nat) (s : State) : s.aside i (s.modCore (fun c => { c with stall := c.stall + n })) :=
  aside_of_flights (by and_intros <;> rfl) rfl

theorem framed_ldg (d a b : Reg) (x : Bool) (s : State) : framed (.ldg d a b x) s := by
  refine framed_of_mayIssue rfl ?_
  split
  · exact mayIssue_fault _ _ _ (aside_refl ..)
  · split
    · exact mayIssue_fault _ _ _ (aside_refl ..)
    · split
      · exact mayIssue_fault _ _ _ (aside_refl ..)
      · exact .inl (aside_trans (aside_fly_v List.mem_cons_self s) (aside_stall ..))

theorem framed_prefRc (a : Reg) (o : BitVec 10) (s : State) : framed (.prefRc a o) s := by
  refine framed_of_mayIssue rfl ?_
  split
  · exact .inl (aside_refl ..)
  · split
    · exact .inl (aside_refl ..)
    · exact .inl (aside_onDie ..)

/-! ### The copy slots -/

theorem addCopy_flights (c : Core) (q : CopyQ) (k : CopyCmd) : (c.addCopy q k).a.flights = c.a.flights := by cases q <;> rfl

theorem aside_pushCopy {r : Reg} (h : r ∈ (uses i).dst) (q : CopyQ) (k : CopyKind) (dup : Bool) (rel : Option Scope) (n : Nat)
    (s : State) : s.aside i (s.pushCopy q r k dup rel n) := by
  refine aside_trans (aside_markEmpty h s) (aside_trans (aside_newId _) ?_)
  exact aside_trans (aside_of_flights (keeps_addCopy q _ (s.markEmpty r).newId.2) (addCopy_flights _ q _))
    (aside_foldl (fun t _ => aside_stage _ t) _ _)

theorem mayIssue_issueCopy {r : Reg} (h : r ∈ (uses i).dst) (q : CopyQ) (fs : List IssueFault) (k : CopyKind) (dup : Bool)
    (rel : Option Scope) (s : State) : s.mayIssue i (s.issueCopy q r fs k dup rel) := by
  unfold State.issueCopy
  split
  · exact mayIssue_fault _ _ _ (aside_refl i s)
  · exact .inl (aside_pushCopy h ..)

theorem framed_subs (q : CopyQ) (t a : Reg) (d : RingDir) (sb : Fin 64) (s : State) : framed (.subs q t a d sb) s := by
  refine framed_of_mayIssue rfl ?_
  split
  · exact mayIssue_fault _ _ _ (aside_refl ..)
  · exact .inl (aside_trans (aside_pushCopy List.mem_cons_self ..) (aside_of_flights (by and_intros <;> rfl) rfl))

theorem framed_cpys (q : CopyQ) (t a c : Reg) (l : TileNo) (s : State) : framed (.cpys q t a c l) s := by
  refine framed_of_mayIssue rfl ?_
  split
  · exact mayIssue_fault _ _ _ (aside_refl ..)
  · exact .inl (aside_trans (aside_pushCopy List.mem_cons_self ..) (aside_of_flights (by and_intros <;> rfl) rfl))

/-- Settles O49: each mem or copy instruction sends results, stages entries, joins a queue, or traps. -/
theorem memoryAndCopySlotsFrame : Obligations.MemoryAndCopySlotsFrame := by
  intro i s h
  cases i
  case nopMem | prefMd | nopCopy => exact framed_of_aside rfl (aside_refl ..)
  case ld | lds => exact framed_of_mayIssue rfl (mayIssue_loadScalar List.mem_cons_self ..)
  case st => exact framed_st ..
  case ldv => exact framed_ldv ..
  case stv => exact framed_stv ..
  case ldx => exact framed_ldx ..
  case stpk => exact framed_stpk ..
  case ldt => exact framed_ldt ..
  case stt => exact framed_stt ..
  case ldg => exact framed_ldg ..
  case fence | fenceRel | fenceAcq | fenceMem => exact framed_of_aside rfl (aside_point ..)
  case fenceUo => exact framed_of_aside rfl (aside_trans (aside_onDie ..) (aside_point ..))
  case prefRc => exact framed_prefRc ..
  case cpy | cpy2 | cpyb | acc | cas | faa | xchg | fput | unsub | slotrel | publ | cfence | coll =>
    exact framed_of_mayIssue rfl (mayIssue_issueCopy List.mem_cons_self ..)
  case subs => exact framed_subs ..
  case cpys => exact framed_cpys ..
  all_goals try cases ‹VUnit›
  all_goals rcases h with h | h | h <;> cases h

end Sys2Proof.Machine
end

section
/-!
LEMMAS. The frames of the mx and the sys slots (spec/02 R40, R43, spec/09 R181, spec/12 R245, spec/13 R273, spec/14 R293).
-/
open Sys2Proof

namespace Sys2Proof.Machine

variable {i : Instr} {s t u : State}

/-! ### The mx slot -/

theorem aside_onTile (t : TileNo) (f : TileState → TileState) (s : State) : s.aside i (s.onTile t f) :=
  aside_of_flights (keeps_onTile t f s) rfl

theorem onCluster_core (n : Nat) (f : Cluster → Cluster) (s : State) : (s.onCluster n f).core = s.core := by
  unfold State.onCluster
  split <;> rfl

theorem aside_onCluster (n : Nat) (f : Cluster → Cluster) (s : State) : s.aside i (s.onCluster n f) :=
  aside_of_flights (keeps_onCluster n f s) (by rw [onCluster_core])

theorem aside_setEngine (e : EngOp) (s : State) : s.aside i (s.modA (fun a => { a with eng := e })) :=
  aside_of_flights (by and_intros <;> rfl) rfl

theorem aside_drain (d : DrainOp) (n : Nat) (s : State) :
    s.aside i (s.modA (fun a => { a with eng := .drain d, drains := a.drains ++ [n] })) :=
  aside_of_flights (by and_intros <;> rfl) rfl

theorem aside_startSeal (t : TileNo) (spc : Word) (s : State) : s.aside i (s.startSeal t spc) := by
  unfold State.startSeal
  dsimp only
  split
  · exact aside_setEngine ..
  · split <;> exact aside_trans (aside_onTile ..) (aside_setEngine ..)

theorem aside_defer (c : Cause) (x : Word) (s : State) : s.aside i (s.defer c x) := aside_of_flights (keeps_defer c x s) rfl

theorem aside_startDrain (t : TileNo) (addr geo tag : Word) (z nw : Bool) (m : DrainMode) (sl fl : Bool) (spc : Word) (s : State) :
    s.aside i (s.startDrain t addr geo tag z nw m sl fl spc) := by
  unfold State.startDrain
  split
  · exact aside_defer ..
  · exact aside_trans (aside_newId s) (aside_trans (aside_onTile ..) (aside_drain ..))

theorem aside_drainOpen (n : Bool) (s : State) : s.aside i (s.drainOpen n).2 := by
  unfold State.drainOpen
  split
  · exact aside_of_flights (by and_intros <;> rfl) rfl
  · exact aside_refl i s

theorem aside_requestTokens (n : Nat) (d : Option Reg) (s : State) : s.aside i (s.requestTokens n d) := aside_onCluster ..

theorem framed_mcall (h x : Bool) (t : TileNo) (r : BitVec 8) (s : State) : framed (.mcall h x t r) s := by
  refine framed_of_mayIssue rfl ?_
  split
  · exact mayIssue_illegal ..
  · dsimp only
    split
    · exact .inl (aside_trans (aside_of_flights (by and_intros <;> rfl) rfl) (aside_requestTokens ..))
    · exact .inl (aside_of_flights (by and_intros <;> rfl) rfl)

theorem framed_mdrain (t : TileNo) (d a b : Reg) (z n : Bool) (m : DrainMode) (x : Bool) (s : State) :
    framed (.mdrain t d a b z n m x) s := by
  refine framed_of_mayIssue rfl ?_
  split
  · exact mayIssue_fault _ _ _ (aside_drainOpen n s)
  · exact .inl (aside_startDrain ..)

theorem framed_mlduc (a b : Reg) (s : State) : framed (.mlduc a b) s := by
  refine framed_of_mayIssue rfl ?_
  obtain ⟨poisonIn, e⟩ := exists_eq (a' := Core.spadPoisonIn)
  rw [← e]
  split
  · exact mayIssue_fault _ _ _ (aside_refl ..)
  · split
    · exact mayIssue_fault _ _ _ (aside_refl ..)
    · split
      · exact mayIssue_fault _ _ _ (aside_refl ..)
      · split
        · exact mayIssue_fault _ _ _ (aside_refl ..)
        · exact .inl (aside_of_flights (by and_intros <;> rfl) rfl)

theorem framed_mlducEnt (a b : Reg) (s : State) : framed (.mlducEnt a b) s := by
  refine framed_of_mayIssue rfl ?_
  split
  · exact mayIssue_fault _ _ _ (aside_refl ..)
  · exact .inl (aside_of_flights (by and_intros <;> rfl) rfl)

theorem framed_maccrdRow (t : TileNo) (a b : Reg) (s : State) : framed (.maccrdRow t a b) s := by
  refine framed_of_mayIssue rfl ?_
  split
  · exact mayIssue_fault _ _ _ (aside_refl ..)
  · exact .inl (aside_trans (aside_newId s) (aside_trans (aside_onTile ..) (aside_drain ..)))

theorem framed_maccwrRow (t : TileNo) (a b : Reg) (s : State) : framed (.maccwrRow t a b) s := by
  refine framed_of_mayIssue rfl ?_
  obtain ⟨poisonIn, e⟩ := exists_eq (a' := Core.spadPoisonIn)
  rw [← e]
  split
  · exact mayIssue_fault _ _ _ (aside_refl ..)
  · split
    · exact mayIssue_fault _ _ _ (aside_refl ..)
    · exact .inl (aside_trans (aside_onTile ..) (aside_setEngine ..))

/-! ### The sys slot -/

theorem aside_onTask (n : Nat) (w : Word) (f : Task → Task) (s : State) : s.aside i (s.onTask n w f) :=
  aside_of_flights (by and_intros <;> rfl) rfl

theorem aside_freezeViews (s : State) : s.aside i s.freezeViews := by
  unfold State.freezeViews
  dsimp only
  split
  · exact aside_refl i s
  · exact aside_trans (aside_of_flights (by and_intros <;> rfl) rfl) (aside_onTask ..)

theorem aside_spawnChildren (w : Word) (n : Nat) (inl : Bool) (s : State) : s.aside i (s.spawnChildren w n inl) := by
  have hf : s.aside i (if s.nspawn = 0 then s.freezeViews else s) := by
    split
    · exact aside_freezeViews s
    · exact aside_refl i s
  exact aside_trans hf (aside_trans (aside_onTask ..) (aside_trans (aside_newId _) (aside_of_flights (by and_intros <;> rfl) rfl)))

theorem mayIssue_spawn {d : Reg} (h : d ∈ (uses i).dst) (w : Word) (n : Nat) (s : State) : s.mayIssue i (s.spawn d w n) := by
  unfold State.spawn
  split
  · exact mayIssue_illegal ..
  · split
    · exact mayIssue_fault _ _ _ (aside_refl ..)
    · exact .inl (aside_trans (aside_spawnChildren ..) (aside_fly_s h _))

theorem aside_hold (b : Block) (s : State) : s.aside i (s.hold b) := aside_of_flights (keeps_hold b s) rfl

theorem framed_join (d : Reg) (s : State) : framed (.join d) s := by
  refine framed_of_mayIssue rfl ?_
  split
  · exact mayIssue_illegal ..
  · exact .inl (aside_trans (aside_markEmpty List.mem_cons_self s) (aside_hold ..))

theorem framed_merge (s : State) : framed .merge s := by
  refine framed_of_mayIssue rfl ?_
  split <;> exact .inl (aside_hold ..)

theorem framed_yield (s : State) : framed .yield s := by
  refine framed_of_mayIssue rfl ?_
  split
  · exact mayIssue_illegal ..
  · split
    · exact .inl (aside_hold ..)
    · exact .inl (aside_refl ..)

theorem framed_viewa (d a : Reg) (s : State) : framed (.viewa d a) s := by
  refine framed_of_mayIssue rfl ?_
  split
  · exact mayIssue_illegal ..
  · split
    · exact .inl (aside_fly_s List.mem_cons_self s)
    · split
      · exact mayIssue_fault _ _ _ (aside_refl ..)
      · exact .inl (aside_fly_s List.mem_cons_self s)

theorem aside_unqueue (n : Nat) (e : QEntry) (s : State) : s.aside i (s.unqueue (.core n) e) := by
  unfold State.unqueue State.onCore
  dsimp only
  split <;> exact aside_of_flights (by and_intros <;> rfl) rfl

theorem framed_runinl (d a : Reg) (s : State) : framed (.runinl d a) s := by
  refine framed_of_mayIssue rfl ?_
  split
  · exact mayIssue_illegal ..
  · split
    · split
      · exact .inl (aside_fly_s List.mem_cons_self s)
      · exact .inl (aside_trans (aside_unqueue ..) (aside_trans (aside_markEmpty List.mem_cons_self _) (aside_hold ..)))
    · split
      · exact mayIssue_fault _ _ _ (aside_refl ..)
      · exact .inl (aside_trans (aside_spawnChildren ..) (aside_trans (aside_markEmpty List.mem_cons_self _) (aside_hold ..)))

theorem mayIssue_holdCell {d : Reg} (h : d ∈ (uses i).dst) (va : Word) (b : Block) (s : State) : s.mayIssue i (s.holdCell d va b) := by
  unfold State.holdCell
  split
  · exact mayIssue_fault _ _ _ (aside_refl ..)
  · exact .inl (aside_trans (aside_markEmpty h s) (aside_hold ..))

theorem aside_pushGang (k : GangKind) (va : Word) (ph : Nat) (d : Reg) (s : State) : s.aside i (s.pushGang k va ph d) :=
  aside_trans (aside_newId s) (aside_of_flights (by and_intros <;> rfl) rfl)

theorem aside_gangNext (va : Word) (gone : Bool) (s : State) : s.aside i (s.modA (fun a => a.gangNext va gone)) := by
  cases gone <;> exact aside_of_flights (by and_intros <;> rfl) rfl

theorem mayIssue_gangOp {d : Reg} (h : d = 0 ∨ d ∈ (uses i).dst) (k : GangKind) (va : Word) (gone : Bool) (s : State) :
    s.mayIssue i (s.gangOp k va d gone) := by
  have hm : s.aside i (s.markEmpty d) := by
    rcases h with rfl | h
    · exact aside_markEmpty_zero s
    · exact aside_markEmpty h s
  unfold State.gangOp
  split
  · exact mayIssue_fault _ _ _ (aside_refl ..)
  · exact .inl (aside_trans hm (aside_trans (aside_gangNext ..) (aside_pushGang ..)))

theorem framed_gjoin (d a : Reg) (s : State) : framed (.gjoin d a) s := by
  refine framed_of_mayIssue rfl ?_
  split
  · exact mayIssue_fault _ _ _ (aside_refl ..)
  · split
    · exact mayIssue_fault _ _ _ (aside_refl ..)
    · exact .inl (aside_trans (aside_markEmpty List.mem_cons_self s)
        (aside_trans (aside_of_flights (by and_intros <;> rfl) rfl) (aside_pushGang ..)))

theorem framed_bwait (d a b : Reg) (s : State) : framed (.bwait d a b) s := by
  refine framed_of_mayIssue rfl ?_
  split
  · exact mayIssue_fault _ _ _ (aside_refl ..)
  · exact .inl (aside_trans (aside_markEmpty List.mem_cons_self s) (aside_pushGang ..))

theorem framed_tcexp (a : Reg) (sb : Fin 64) (s : State) : framed (.tcexp a sb) s := by
  refine framed_of_mayIssue rfl ?_
  split
  · exact mayIssue_fault _ _ _ (aside_refl ..)
  · exact .inl (aside_fly_unnumbered rfl s)

theorem framed_lease (d a b : Reg) (s : State) : framed (.lease d a b) s := by
  refine framed_of_mayIssue rfl ?_
  split
  · exact mayIssue_fault _ _ _ (aside_refl ..)
  · exact .inl (aside_trans (aside_markEmpty List.mem_cons_self s) (aside_onCluster ..))

theorem framed_permit (d a : Reg) (s : State) : framed (.permit d a) s := by
  refine framed_of_mayIssue rfl ?_
  split
  · exact mayIssue_fault _ _ _ (aside_refl ..)
  · exact .inl (aside_trans (aside_markEmpty List.mem_cons_self s) (aside_requestTokens ..))

theorem framed_trap (n : BitVec 15) (s : State) : framed (.trap n) s := by
  refine framed_of_mayIssue rfl ?_
  split <;> exact mayIssue_fault _ _ _ (aside_refl ..)

/-- The frame of every mx and sys instruction but UTRET, SEGS and LEASEREL. -/
theorem framed_mx_sys (i : Instr) (s : State) (h : i.place = .slot .mx ∨ i.place = .slot .sys) (hu : i ≠ .utret)
    (hg : ∀ m n, i ≠ .segs m n) (hl : ∀ d, i ≠ .leaserel d) : framed i s := by
  cases i
  case nopMx | nopSys => exact framed_of_aside rfl (aside_refl ..)
  case msetp | msetpi => exact framed_of_aside rfl (aside_fly_unnumbered rfl _)
  case mcall => exact framed_mcall ..
  case mzero => exact framed_of_aside rfl (aside_trans (aside_onTile ..) (aside_setEngine ..))
  case mdrain => exact framed_mdrain ..
  case mseal => exact framed_of_aside rfl (aside_startSeal ..)
  case mstat | tinfo | vdist | vdmap => exact framed_of_aside rfl (aside_fly_s List.mem_cons_self _)
  case mlduc => exact framed_mlduc ..
  case mlducEnt => exact framed_mlducEnt ..
  case maccrd =>
    exact framed_of_aside rfl (aside_trans (aside_onTile ..) (aside_trans (aside_setEngine ..) (aside_fly_s List.mem_cons_self _)))
  case maccrdRow => exact framed_maccrdRow ..
  case maccwr => exact framed_of_aside rfl (aside_trans (aside_onTile ..) (aside_setEngine ..))
  case maccwrRow => exact framed_maccwrRow ..
  case mwait | tcwait =>
    exact framed_of_aside rfl (aside_trans (aside_markEmpty List.mem_cons_self s) (aside_of_flights (by and_intros <;> rfl) rfl))
  case spawn | spawnl => exact framed_of_mayIssue rfl (mayIssue_spawn List.mem_cons_self ..)
  case join => exact framed_join ..
  case merge => exact framed_merge ..
  case yield => exact framed_yield ..
  case viewa => exact framed_viewa ..
  case fget | fwaitSpin | fwaitYield => exact framed_of_mayIssue rfl (mayIssue_holdCell List.mem_cons_self ..)
  case runinl => exact framed_runinl ..
  case gjoin => exact framed_gjoin ..
  case gleave => exact framed_of_mayIssue rfl (mayIssue_gangOp (.inl rfl) ..)
  case arrive | arriveDrop | sstep => exact framed_of_mayIssue rfl (mayIssue_gangOp (.inr List.mem_cons_self) ..)
  case bwait => exact framed_bwait ..
  case tcexp => exact framed_tcexp ..
  case lease => exact framed_lease ..
  case permit => exact framed_permit ..
  case trap => exact framed_trap ..
  case trapDup => exact framed_of_mayIssue rfl (mayIssue_fault _ _ _ (aside_refl ..))
  case leaserel d => exact absurd rfl (hl d)
  case segs m n => exact absurd rfl (hg m n)
  case utret => exact absurd rfl hu
  all_goals try cases ‹VUnit›
  all_goals try cases ‹CopyQ›
  all_goals rcases h with h | h <;> cases h

/-! ### LEASEREL -/

/-- Every field of a task part but `s` and `sEmpty` stays when a register is marked empty and filled. -/
theorem keeps_emptyFill (d : Reg) (x : Word) (s : State) :
    s.keeps ((s.emptyFill d x).withArch { (s.emptyFill d x).core.a with s := s.core.a.s, sEmpty := s.core.a.sEmpty }) := by
  unfold State.emptyFill State.markEmpty
  split <;> (unfold Arch.fillS; simp only [*, if_true, if_false]; and_intros <;> rfl)

theorem emptyFill_core_a (d : Reg) (x : Word) (s : State) : (s.emptyFill d x).core.a = (s.markEmpty d).core.a.fillS d x := rfl

theorem markEmpty_rd (d : Reg) (s : State) (r : Reg) :
    (s.markEmpty d).core.a.rd r = s.core.a.rd r ∧ (s.markEmpty d).core.a.sIsEmpty r = s.core.a.sIsEmpty r := by
  unfold State.markEmpty
  split <;> exact ⟨rfl, rfl⟩

theorem fillS_flights (a : Arch) (r : Reg) (x : Word) : (a.fillS r x).flights = a.flights := by
  unfold Arch.fillS
  split <;> rfl

/-- What LEASEREL does, for any state with the core's part as it was: it keeps all but its destination. -/
theorem leaserel_frame (d : Reg) (x : Word) {s u : State} (hk : s.keeps u) (hc : u.core = s.core) :
    s.keeps ((u.emptyFill d x).withArch { (u.emptyFill d x).core.a with s := s.core.a.s, sEmpty := s.core.a.sEmpty }) ∧
    (∀ r : Reg, r ≠ d → (u.emptyFill d x).core.a.rd r = s.core.a.rd r ∧ (u.emptyFill d x).core.a.sIsEmpty r = s.core.a.sIsEmpty r) ∧
    ∀ left l, Landing.aimed (.leaserel d) l = false →
      (inFlight (u.emptyFill d x).core.a.flights left l ↔ inFlight s.core.a.flights left l) := by
  have ha : u.core.a = s.core.a := congrArg Core.a hc
  refine ⟨keeps_trans hk (ha ▸ keeps_emptyFill d x u), fun r hr => ?_, fun left l hl => ?_⟩
  · obtain ⟨hrd, hem⟩ := markEmpty_rd d u r
    rw [emptyFill_core_a, rd_fillS_other _ _ _ _ hr, sIsEmpty_fillS_other _ _ hr, hrd, hem, ha]
    exact ⟨rfl, rfl⟩
  · have hm := (aside_markEmpty (i := .leaserel d) List.mem_cons_self u).2 left l hl
    rw [emptyFill_core_a, fillS_flights, hm, ha]

theorem execLeaserel_eq (d : Reg) (s : State) :
    ∃ u x, s.keeps u ∧ u.core = s.core ∧ exec (.leaserel d) s = .next (u.emptyFill d x) := by
  change ∃ u x, s.keeps u ∧ u.core = s.core ∧ execLeaserel d s = .next (u.emptyFill d x)
  unfold execLeaserel
  dsimp only
  generalize (_ && _ : Bool) = live
  cases live
  · exact ⟨s, 1, keeps_refl s, rfl, rfl⟩
  · exact ⟨_, 0, (aside_onCluster (i := .leaserel d) _ _ s).1, onCluster_core .., rfl⟩

/-- Settles O50: each mx and sys instruction but UTRET, SEGS and LEASEREL only sets results and requests aside, and LEASEREL fills its
destination alone. -/
theorem matrixAndSystemSlotsFrame : Obligations.MatrixAndSystemSlotsFrame := by
  refine ⟨framed_mx_sys, fun d s => ?_⟩
  obtain ⟨u, x, hk, hc, he⟩ := execLeaserel_eq d s
  exact ⟨_, he, leaserel_frame d x hk hc⟩

end Sys2Proof.Machine
end

section
/-!
LEMMAS. When a result sent to an s-register lands (spec/02 R43, spec/04 R77).
-/
open Sys2Proof

namespace Sys2Proof.Machine

/-- The value that a landing brings to an s-register, if it is on that register. -/
def Landing.forS (r : Reg) : Landing → Option Word
  | .s dst x => if dst = r then some x else none
  | _ => none

/-- The results in flight to an s-register, in order: the bundles left, whether vb sent it, and the value. -/
def arrivalsAt (r : Reg) (fs : List Flight) : List (Nat × Bool × Word) :=
  fs.flatMap (fun f => (f.lands.filterMap (Landing.forS r)).map (fun x => (f.left, decide (f.slot = 3), x)))

/-- The value of a register once the results that reach it at a bundle have landed, vb's last. -/
def afterArrivals (v : Word) (hs : List (Nat × Bool × Word)) : Word :=
  (hs.filter (fun h => !h.2.1 && decide (h.1 - 1 = 0)) ++ hs.filter (fun h => h.2.1 && decide (h.1 - 1 = 0))).foldl (fun _ h => h.2.2) v

theorem arrivalsAt_cons (r : Reg) (f : Flight) (fs : List Flight) :
    arrivalsAt r (f :: fs) = (f.lands.filterMap (Landing.forS r)).map (fun x => (f.left, decide (f.slot = 3), x)) ++ arrivalsAt r fs :=
  List.flatMap_cons

theorem land_flights (c : Core) (l : Landing) : (c.land l).a.flights = c.a.flights := by
  cases l <;> unfold Core.land <;> dsimp only
  case s r x => unfold Arch.fillS; split <;> rfl
  case p | m | vrf | sres => split <;> rfl
  all_goals rfl

theorem land_rd (c : Core) (l : Landing) {r : Reg} (h : r ≠ 0) : (c.land l).a.rd r = (l.forS r).getD (c.a.rd r) := by
  cases l
  case s q x =>
    by_cases e : q = r
    · subst e
      exact (rd_fillS_same c.a q x h).trans (by simp [Landing.forS])
    · exact (rd_fillS_other c.a q r x (Ne.symm e)).trans (by simp [Landing.forS, e])
  case p | m | vrf | sres => unfold Core.land; dsimp only; split <;> rfl
  all_goals rfl

theorem landAll_flights (ls : List Landing) (c : Core) : (c.landAll ls).a.flights = c.a.flights := by
  induction ls generalizing c with
  | nil => rfl
  | cons l ls ih => exact (ih (c.land l)).trans (land_flights c l)

theorem landAll_rd {r : Reg} (h : r ≠ 0) (ls : List Landing) (c : Core) :
    (c.landAll ls).a.rd r = (ls.filterMap (Landing.forS r)).foldl (fun _ x => x) (c.a.rd r) := by
  induction ls generalizing c with
  | nil => rfl
  | cons l ls ih =>
    have e : (c.landAll (l :: ls)).a.rd r = ((c.land l).landAll ls).a.rd r := rfl
    rw [e, ih, land_rd c l h, List.filterMap_cons]
    cases l.forS r <;> rfl

theorem landFlights_flights (fs : List Flight) (c : Core) :
    (fs.foldl (fun c f => c.landAll f.lands) c).a.flights = c.a.flights := by
  induction fs generalizing c with
  | nil => rfl
  | cons f fs ih => exact (ih _).trans (landAll_flights f.lands c)

theorem landFlights_rd {r : Reg} (h : r ≠ 0) (fs : List Flight) (c : Core) :
    (fs.foldl (fun c f => c.landAll f.lands) c).a.rd r = (arrivalsAt r fs).foldl (fun _ x => x.2.2) (c.a.rd r) := by
  induction fs generalizing c with
  | nil => rfl
  | cons f fs ih =>
    rw [List.foldl_cons, ih, landAll_rd h, arrivalsAt_cons, List.foldl_append, List.foldl_map]

theorem arrivalsAt_filter (r : Reg) (p : Nat → Bool → Bool) (fs : List Flight) :
    arrivalsAt r (fs.filter (fun f => p f.left (decide (f.slot = 3)))) = (arrivalsAt r fs).filter (fun h => p h.1 h.2.1) := by
  induction fs with
  | nil => rfl
  | cons f fs ih =>
    unfold arrivalsAt at ih ⊢
    rw [List.flatMap_cons, List.filter_append, ← ih, List.filter_cons, List.filter_map]
    cases hp : p f.left (decide (f.slot = 3)) <;> simp [Function.comp_def, hp]

theorem arrivalsAt_nearer (r : Reg) (fs : List Flight) :
    arrivalsAt r (fs.map (fun f => { f with left := f.left - 1 })) = (arrivalsAt r fs).map (fun h => (h.1 - 1, h.2)) := by
  simp [arrivalsAt, List.flatMap_map, List.map_flatMap, Function.comp_def]

theorem landDue_flights (c : Core) :
    c.landDue.a.flights = (c.a.flights.map (fun f => { f with left := f.left - 1 })).filter (fun f => f.left ≠ 0) :=
  (landFlights_flights _ _).trans (landFlights_flights _ _)

theorem arrivalsAt_landDue (r : Reg) (c : Core) :
    arrivalsAt r c.landDue.a.flights = ((arrivalsAt r c.a.flights).map (fun h => (h.1 - 1, h.2))).filter (fun h => h.1 ≠ 0) := by
  rw [landDue_flights, ← arrivalsAt_nearer]
  exact arrivalsAt_filter r (fun n _ => decide (n ≠ 0)) _

/-- The arrivals of the results that land at the next bundle, those of vb or the others. -/
theorem arrivalsAt_due (r : Reg) (p : Bool → Bool) (fs : List Flight) :
    arrivalsAt r (((fs.map (fun f => { f with left := f.left - 1 })).filter (fun f => f.left = 0)).filter
        (fun f => p (decide (f.slot = 3)))) =
      ((arrivalsAt r fs).filter (fun h => p h.2.1 && decide (h.1 - 1 = 0))).map (fun h => (h.1 - 1, h.2)) := by
  rw [List.filter_filter, arrivalsAt_filter r (fun n b => p b && decide (n = 0)), arrivalsAt_nearer, List.filter_map]
  rfl

theorem landDue_rd {r : Reg} (h : r ≠ 0) (c : Core) : c.landDue.a.rd r = afterArrivals (c.a.rd r) (arrivalsAt r c.a.flights) := by
  unfold Core.landDue
  dsimp only
  rw [landFlights_rd h, landFlights_rd h, ← List.foldl_append]
  have others := arrivalsAt_due r not c.a.flights
  simp only [← decide_not] at others
  have vbs := arrivalsAt_due r id c.a.flights
  simp only [id] at vbs
  rw [others, vbs, ← List.map_append, List.foldl_map]
  rfl

theorem bundlesLater_rd_congr {r : Reg} (h : r ≠ 0) (k : Nat) {c c' : Core} (hr : c.a.rd r = c'.a.rd r)
    (hf : arrivalsAt r c.a.flights = arrivalsAt r c'.a.flights) : (c.bundlesLater k).a.rd r = (c'.bundlesLater k).a.rd r := by
  induction k generalizing c c' with
  | zero => exact hr
  | succ k ih => exact ih (by rw [landDue_rd h, landDue_rd h, hr, hf]) (by rw [arrivalsAt_landDue, arrivalsAt_landDue, hf])

theorem bundlesLater_rd_none {r : Reg} (h : r ≠ 0) (k : Nat) {c : Core} (hf : arrivalsAt r c.a.flights = []) :
    (c.bundlesLater k).a.rd r = c.a.rd r := by
  induction k generalizing c with
  | zero => rfl
  | succ k ih => exact (ih (by rw [arrivalsAt_landDue, hf]; rfl)).trans (by rw [landDue_rd h, hf]; rfl)

theorem bundlesLater_rd_one {r : Reg} (h : r ≠ 0) (k : Nat) {c : Core} {lat : Nat} {b : Bool} {x : Word} (hl : 1 ≤ lat)
    (hf : arrivalsAt r c.a.flights = [(lat, b, x)]) : (c.bundlesLater k).a.rd r = if k < lat then c.a.rd r else x := by
  induction k generalizing c lat with
  | zero => exact (if_pos (Nat.lt_of_lt_of_le Nat.zero_lt_one hl)).symm
  | succ k ih =>
    have hd := landDue_rd h c
    have ha := arrivalsAt_landDue r c
    rw [hf] at hd ha
    obtain rfl | ⟨n, rfl⟩ : lat = 1 ∨ ∃ n, lat = n + 2 := by
      rcases lat with _ | _ | n <;> simp at hl ⊢
    · rw [if_neg (by omega)]
      exact (bundlesLater_rd_none h k (by rw [ha]; rfl)).trans (hd.trans (by cases b <;> rfl))
    · have e := ih (c := c.landDue) (lat := n + 1) (by omega) (by rw [ha]; rfl)
      rw [show (c.bundlesLater (k + 1)) = c.landDue.bundlesLater k from rfl, e, hd]
      simp [afterArrivals]

theorem arrivalsAt_nonempty (r : Reg) (fs : List Flight) : arrivalsAt r (fs.filter (fun f => !f.lands.isEmpty)) = arrivalsAt r fs := by
  induction fs with
  | nil => rfl
  | cons f fs ih =>
    rw [List.filter_cons, arrivalsAt_cons]
    split
    · rw [arrivalsAt_cons, ih]
    next h => simp [ih, show f.lands = [] by simpa using h]

/-- The landings that a result to `d` leaves in flight are those on other registers. -/
theorem forS_uncancelled (r d : Reg) (x : Word) (l : Landing) :
    (if !l.same (.s d x) then l.forS r else none) = if r = d then none else l.forS r := by
  cases l
  case s g y =>
    by_cases hg : g = d
    · subst hg
      by_cases hr : r = g <;> simp [Landing.same, Landing.forS, hr, eq_comm]
    · by_cases hr : r = d
      · subst hr
        simp [Landing.same, Landing.forS, hg]
      · simp [Landing.same, hg, hr]
  all_goals simp [Landing.same, Landing.forS]

theorem arrivalsAt_cancel (r d : Reg) (x : Word) (fs : List Flight) :
    arrivalsAt r (cancel [.s d x] fs) = if r = d then [] else arrivalsAt r fs := by
  unfold cancel
  rw [arrivalsAt_nonempty]
  unfold arrivalsAt
  simp only [List.flatMap_map, List.any_cons, List.any_nil, Bool.or_false, List.filterMap_filter, forS_uncancelled]
  split <;> simp

/-- Settles O44: what a register reads after some bundles is told by the results in flight to it, and sending a result to one replaces these
for that register and leaves them for the others. -/
theorem resultsLandAfterLatency : Obligations.ResultsLandAfterLatency := by
  intro s lat slot k d x hd hl
  have hf (r : Reg) : arrivalsAt r (s.fly lat slot [.s d x]).core.a.flights =
      arrivalsAt r (cancel [.s d x] s.core.a.flights) ++ arrivalsAt r [⟨lat, slot, s.core.seq, s.core.a.pc, [.s d x]⟩] :=
    List.flatMap_append
  refine ⟨?_, fun r hr => ?_⟩
  · refine bundlesLater_rd_one hd k (b := decide (slot = 3)) hl ?_
    rw [hf, arrivalsAt_cancel]
    simp [arrivalsAt, Landing.forS]
  · by_cases h0 : r = 0
    · subst h0
      rfl
    · refine bundlesLater_rd_congr h0 k rfl ?_
      rw [hf, arrivalsAt_cancel, if_neg hr]
      simp [arrivalsAt, Landing.forS, Ne.symm hr]

end Sys2Proof.Machine
end

section
/-!
LEMMAS. A bundle frozen on the destination of an MWAIT, in the cycle in which the row of a MACCRD frees the engine (spec/02 R42,
spec/09 R197, R199).
-/
open Sys2Proof

namespace Sys2Proof.Machine

/-- The drain of a MACCRD whose row leaves in this cycle. -/
def lastReadRow : DrainOp :=
  { id := 0, tile := 0, row0 := 0, n := 1, next := 0, wait := 1, addr := 0, stride := 0, tag := tagF32One, z := false, nw := true,
    mode := .tag, sealEnd := false, fl := true, rd := true, fresh := false, spc := 0 }

/-- A core that waits to issue `add.w s3, s4, s5` while s5 is empty: it is the destination of an MWAIT for the engine, which runs the drain
of a MACCRD. -/
def waitingForEngine : State :=
  State.reset.modA (fun a => { a with
    words := [0x04642C00, 0, 0, 0, 0, 0, 0, 0], sEmpty := 32, eng := .drain lastReadRow, mwaits := [⟨5, .free, [], [], false⟩] })

/-- The bundle is frozen, by a cause in which rows go on, and it gates no segment. -/
theorem waitingForEngine_frozen :
    waitingForEngine.core.pierFull waitingForEngine.core.a.toIssue.2.2 = false ∧
      waitingForEngine.core.a.toIssue.2.2.any waitingForEngine.frozenBy = true := by
  decide +kernel

/-- The cycle fills s5 with the status word although the bundle does not issue. -/
theorem waitingForEngine_fills :
    (waitingForEngine.tryIssue waitingForEngine.input).core.a.sEmpty ≠ waitingForEngine.core.a.sEmpty := by
  decide +kernel

/-- Refutes O51: the last row of a MACCRD leaves while the bundle is frozen on an MWAIT for the engine, so that the MWAIT's destination fills
in that cycle: its full/empty bit does not hold. -/
theorem not_frozenBundleHolds : ¬ Obligations.FrozenBundleHolds := by
  intro h
  obtain ⟨hp, hf⟩ := waitingForEngine_frozen
  obtain ⟨-, hEmpty, -⟩ := h waitingForEngine.input waitingForEngine hp hf
  exact waitingForEngine_fills hEmpty

end Sys2Proof.Machine
end

section
/-!
LEMMAS. Words of the encodings (spec/02 R34, R35, spec/09 R190), and the machine at power-on reset (spec/01 R29, R31).
-/
open Sys2Proof

namespace Sys2Proof.Machine

/-- Settles O53: the decoder run on each word. -/
theorem decodesKnownWords : Obligations.DecodesKnownWords :=
  ⟨rfl, rfl, rfl, rfl, rfl, rfl, rfl, rfl, rfl, rfl, rfl, rfl⟩

/-! ### The reset state -/

/-- Every core of the reset state is as reset leaves a core. -/
theorem getCore_reset (n : Nat) : State.reset.getCore n = Core.fresh n := by
  unfold State.getCore
  split
  next h => exact congrArg Core.fresh h
  next => rfl

/-- The registers of a task part at its zero: an s-register, and a vector register. -/
theorem zero_registers (r : Reg) :
    Arch.zero.rd r = 0 ∧ Arch.zero.sIsEmpty r = false ∧ Arch.zero.v[r] = 0 ∧ Arch.zero.vIsEmpty r = false := by
  simp [Arch.rd, Arch.sIsEmpty, Arch.vIsEmpty, Arch.zero, bitOf]

theorem zero_predicates (r : PredReg) : Arch.zero.rdP r = (r == 0) := by
  decide +kernel +revert

theorem zero_masks (r : MaskReg) (h : r ≠ 0) : Arch.zero.rdM r = 0 := by
  decide +kernel +revert

theorem zero_queue (j : Fin 16) : Arch.zero.q[j] = 0 ∧ Arch.zero.segs[j] = .off :=
  ⟨Vector.getElem_replicate .., Vector.getElem_replicate ..⟩

theorem zero_tiles (l : TileNo) : Arch.zero.tiles[l] = TileState.zero := Vector.getElem_replicate ..

theorem fresh_clusters (n : Fin 32) : State.reset.clusters[n] = Cluster.fresh := Vector.getElem_replicate ..

/-- Settles O60: the fields of the reset state, read off. -/
theorem resetState : Obligations.ResetState := by
  refine ⟨rfl, rfl, rfl, rfl, rfl, rfl, rfl, rfl, rfl, rfl, fun n => ?_, fun n => ?_, fun _ => rfl, ?_⟩
  · rw [fresh_clusters]
    exact ⟨rfl, rfl⟩
  · dsimp only
    rw [getCore_reset]
    refine ⟨rfl, rfl, rfl, fun _ => ⟨rfl, rfl⟩, zero_registers, zero_predicates, zero_masks, zero_queue, fun _ => rfl, rfl,
      fun j => ?_, fun l r => ?_, rfl, rfl, rfl, rfl, rfl, rfl, rfl⟩
    · exact Vector.getElem_replicate ..
    · have h : (Core.fresh n).a.tiles[l] = TileState.zero := zero_tiles l
      rw [h]
      exact ⟨rfl, rfl⟩
  · exact ⟨rfl, rfl, fun _ h => absurd h List.not_mem_nil, fun _ h => absurd h List.not_mem_nil⟩

end Sys2Proof.Machine
end

section
/-!
LEMMAS. A step as the next event of the agenda, and a cycle of a core as decode and exec (spec/02 R33, R36, R40, spec/09 R190).
-/
open Sys2Proof

namespace Sys2Proof.Machine

/-! ### Steps -/

/-- Every instruction and event ends in a next state. -/
theorem exec_next (i : Instr) (s : State) : ∃ t, exec i s = .next t := by
  cases i <;> exact ⟨_, rfl⟩

theorem step_of_agenda {s : State} {e : Instr} {i : Input} {rest : List (Instr × Input)} (h : s.agenda = (e, i) :: rest) :
    step s = if s.heeds e then exec e { s with agenda := rest, input := i, rot := s.rot + 1 }
      else .next { s with agenda := rest, input := i, rot := s.rot + 1 } := by
  unfold step State.latched State.takeEvent
  rw [h]

theorem heeds_of_heeded {s : State} {e : Instr} (he : isEvent e = true)
    (h : s.boot ≠ .packageFault ∨ e ∈ [.powerOnReset, .deviceReset, .timeBaseTick]) : s.heeds e = true := by
  unfold State.heeds
  rw [he]
  rcases h with h | h
  · simp [h]
  · simp only [List.mem_cons, List.not_mem_nil, or_false] at h
    rcases h with rfl | rfl | rfl <;> simp [isReset]

theorem heeds_in_packageFault {s : State} {e : Instr} (hb : s.boot = .packageFault)
    (h : e ∉ [.powerOnReset, .deviceReset, .timeBaseTick]) : s.heeds e = false := by
  simp only [List.mem_cons, List.not_mem_nil, or_false, not_or] at h
  obtain ⟨hp, hd, ht⟩ := h
  have hr : isReset e = false := by
    cases e
    case powerOnReset => exact absurd rfl hp
    case deviceReset => exact absurd rfl hd
    all_goals rfl
  simp [State.heeds, hb, hr, ht]

theorem stepRunsTheNextEvent : Claims.StepRunsTheNextEvent := by
  refine ⟨fun s e i rest h => ⟨fun he hb => ?_, fun he => ?_, fun hb he => ?_⟩, exec_next, fun s => ?_⟩
  · rw [step_of_agenda h, heeds_of_heeded he hb]
    rfl
  · rw [step_of_agenda h, show s.heeds e = false by simp [State.heeds, he]]
    rfl
  · rw [step_of_agenda h, heeds_in_packageFault hb he]
    rfl
  · unfold step
    dsimp only
    split
    · exact exec_next ..
    · exact ⟨_, rfl⟩

/-! ### The cycle of a core -/

theorem dropLease_of_none {a : Arch} (h : a.lx = none) : a.dropLease = a := by
  unfold Arch.dropLease
  split
  · rw [← h]
  · rfl

/-- A core with nothing found after issue and no lease expired goes on to its bundle. -/
theorem issueCycle_of_clear (i : Input) {s v : State} (hv : v = s.modCore Core.reach) (hd : v.core.a.deferred = [])
    (hl : v.core.a.lx = none) : s.issueCycle i = v.fetchIssue i := by
  have hb : s.atBundle = v := by
    unfold State.atBundle
    rw [← hv]
    unfold State.modA
    rw [dropLease_of_none hl]
  have hr : v.raised = none := by simp [State.raised, hd, hl]
  unfold State.issueCycle
  dsimp only
  rw [hb, hr]
  rfl

theorem coreCycle_issues (i : Input) (s : State) :
    let t := (s.modA (fun a => { a with tcfresh := [] })).engineCycle (bitOf i.mask 0)
    s.core.busy = true → s.core.arbit = none → s.core.stall = 0 → s.core.entry = 0 → i.flag2 = false → s.hung = false →
    t.core.who = s.core.who → t.core.sealErr = none → t.preempting = false → t.core.a.block = none →
    let v := t.modCore Core.reach
    v.core.a.deferred = [] → v.core.a.lx = none → s.coreCycle i = (v.fetchIssue i).barrierCycle.modCore Core.endCycle := by
  intro t hbusy harb hstall hentry hflag hhung hwho hseal hpre hblock v hd hl
  have hfrozen : (s.modA (fun a => { a with tcfresh := [] })).core.frozen = false := by simp [Core.frozen, harb, hstall]
  have hfront : t.frontCycle i false false = v.fetchIssue i := by
    unfold State.frontCycle
    rw [if_neg Bool.false_ne_true, hseal]
    simp only [hpre, hblock, Bool.or_false, Bool.false_eq_true, if_false, Option.isSome_none]
    exact issueCycle_of_clear i rfl hd hl
  have hentry' : (s.modA (fun a => { a with tcfresh := [] })).core.entry = 0 := hentry
  have hwho' : ((s.modA (fun a => { a with tcfresh := [] })).engineCycle (bitOf i.mask 0)).core.who = s.core.who := hwho
  unfold State.coreCycle
  simp only [hbusy, hhung, hflag, hfrozen, hwho', hentry', Bool.not_true, Bool.false_eq_true, if_false, Bool.not_false, if_true,
    bne_self_eq_false, lt_irrefl, decide_false]
  rw [hfront]

/-- A fetch whose translation is there reads its line, from the instruction cache or from memory. -/
theorem fetch_eq {s v : State} {n pa : Nat} {e : Word} {g : Granule} {tag : Word} (hw : windowOf s.core.a.pc.toNat = .user)
    (ht : s.translateVia s.core.tlb1 (dieOf s.core.id) s.core.a.ctx s.core.a.pc.toNat .exec false = .ok (pa, e)) (hp : isPoison tag = false)
    (h : (n = 0 ∧ s.core.icache.find? (fun l => l.pa = pa / 64) = some ⟨pa / 64, g, tag, false⟩ ∧ v = s) ∨
      ((n = 0 → s.core.icache.find? (fun l => l.pa = pa / 64) = none) ∧ s.readLocs (decide (n ≤ 1)) [.phys pa e] = ([(g, tag)], v))) :
    s.fetch n = .ok (v.modCore (fun c => { c with
      icache := (⟨pa / 64, g, tag, false⟩ :: c.icache.filter (fun l => l.pa ≠ pa / 64)).take 4096, fetchAt := none,
      a := { c.a with words := bundleWords (g.toNat / 2 ^ (8 * (pa % 64)) % 2 ^ 256) } })) := by
  unfold State.fetch
  dsimp only
  rw [hw]
  dsimp only
  rw [ht]
  dsimp only
  rcases h with ⟨rfl, hline, rfl⟩ | ⟨hline, hread⟩
  · rw [if_pos rfl, hline]
    simp [hp]
    rfl
  · have hnear : (if n = 0 then s.core.icache.find? (fun l => l.pa = pa / 64) else none) = none := by
      split
      next h => exact hline h
      next => rfl
    rw [hnear]
    dsimp only
    rw [hread]
    simp [hp]
    rfl

theorem fetchIssue_of_line {i : Input} {s v : State} {pa : Nat} {e : Word} {g : Granule} {tag : Word}
    (hwords : s.core.a.words = []) (hw : windowOf s.core.a.pc.toNat = .user) (ho : s.overdue s.core.fetchAt = false) (hc : i.count ≠ 2)
    (hf : i.flag2 = false) (hwalk : s.walkWaits s.core.tlb1 s.core.id { s.core.a with views := [] } s.core.a.pc.toNat = false)
    (ht : s.translateVia s.core.tlb1 (dieOf s.core.id) s.core.a.ctx s.core.a.pc.toNat .exec false = .ok (pa, e)) (hp : isPoison tag = false)
    (h : (i.count = 0 ∧ s.core.icache.find? (fun l => l.pa = pa / 64) = some ⟨pa / 64, g, tag, false⟩ ∧ v = s) ∨
      ((i.count = 0 → s.core.icache.find? (fun l => l.pa = pa / 64) = none) ∧
        s.readLocs (decide (i.count ≤ 1)) [.phys pa e] = ([(g, tag)], v))) :
    s.fetchIssue i = (v.modCore (fun c => { c with
      icache := (⟨pa / 64, g, tag, false⟩ :: c.icache.filter (fun l => l.pa ≠ pa / 64)).take 4096, fetchAt := none,
      a := { c.a with words := bundleWords (g.toNat / 2 ^ (8 * (pa % 64)) % 2 ^ 256) } })).tryIssue i := by
  unfold State.fetchIssue
  dsimp only
  rw [if_neg (by simp [hwords]), if_neg (ne_true_of_eq_false ho), if_neg (ne_true_of_eq_false hwalk), if_neg hc, fetch_eq hw ht hp h]
  simp [hf]

/-! ### Issue -/

theorem issueWith_clean (i : Input) (k : Nat) (bad : Option Nat) (live : List Instr) (s : State) (h : i.flag2 = false) :
    s.issueWith i k bad live =
      s.issueBundle live (bad.map (fun j => (j, Cause.illegalOp, word (s.core.a.words.getD j 0)))) := by
  unfold State.issueWith
  dsimp only
  rw [h, Bool.false_and, Bool.false_and, if_neg Bool.false_ne_true]

/-- A bundle that nothing keeps from issuing issues its slots and then ends. -/
theorem tryIssue_issues (i : Input) (s : State) (hp : s.core.pierFull s.core.a.toIssue.2.2 = false)
    (hfr : s.core.a.toIssue.2.2.any s.frozenBy = false) (hf : i.flag = false) (hf2 : i.flag2 = false) (hl : i.len = 0)
    (hd : s.rowCycle.core.drainInWay s.core.a.toIssue.2.2 = false) :
    s.tryIssue i = s.rowCycle.issueBundle s.core.a.toIssue.2.2
      (s.core.a.toIssue.2.1.map (fun j => (j, Cause.illegalOp, word (s.rowCycle.core.a.words.getD j 0)))) := by
  unfold State.tryIssue
  dsimp only
  rw [hp, if_neg Bool.false_ne_true, hfr, if_neg Bool.false_ne_true, hf, Bool.false_and, if_neg Bool.false_ne_true,
    if_neg (by simp [hl]), hd, if_neg Bool.false_ne_true, issueWith_clean _ _ _ _ _ hf2]

/-- A slot at which the bundle ends with a fault is looked at once the slots before it have issued. -/
theorem issueBundle_stops {live : List Instr} {j : Nat} {c : Cause} {x : Word} {s : State}
    (ht : ((s.modCore Core.openIssue).issueSlots s.core.who live).core.iss.trapped = false)
    (hw : ((s.modCore Core.openIssue).issueSlots s.core.who live).core.who = s.core.who) :
    s.issueBundle live (some (j, c, x)) = (((s.modCore Core.openIssue).issueSlots s.core.who live).fault j c x).issued s.core.who := by
  unfold State.issueBundle
  dsimp only
  rw [if_neg (by simp [ht, hw])]

theorem run_of_next {i : Instr} {s t : State} (hi : i.place ≠ .none) (h : exec i s = .next t) : s.run i = t := by
  unfold State.run
  rw [← exec_eq_runInstr hi, h]

theorem issueSlots_cons {who : Bool × Nat × Word} {i : Instr} {rest : List Instr} {s t : State} (hi : i.place ≠ .none)
    (ht : s.core.iss.trapped = false) (hw : s.core.who = who) (h : exec i s = .next t) :
    s.issueSlots who (i :: rest) = t.issueSlots who rest := by
  change (if s.core.iss.trapped || s.core.who != who then s else (s.run i).issueSlots who rest) = _
  rw [ht, hw, bne_self_eq_false, Bool.or_false, if_neg Bool.false_ne_true, run_of_next hi h]

theorem issued_ends (s : State) (ht : s.core.iss.trapped = false) (hb : s.core.a.block = none) : s.issued s.core.who = s.endBundle := by
  unfold State.issued
  rw [ht, bne_self_eq_false, Bool.or_false, if_neg Bool.false_ne_true, hb]

/-! ### The engine -/

theorem microGo_decodes {s t : State} {r : Routine} {i : Instr} (hl : r.lib = none) (hu : r.upc ≤ 4095)
    (hd : decodeMicro (s.core.microWord r.upc) = .ok i) (hi : i.place ≠ .none) (h : exec i s = .next t) : s.microGo r = t := by
  unfold State.microGo
  rw [hl]
  dsimp only
  rw [if_neg (by omega), hd]
  exact run_of_next hi h

theorem microStep_goes {s : State} {r : Routine} (hr : s.core.microReady = some r)
    (hs : ∀ va, s.stepReads = some va → s.overdue (s.core.mxAt.map Prod.fst) = false ∧ s.operandWaits va = false) :
    s.microStep false = (s.microGo r).modCore (fun c => { c with mxAt := none }) := by
  unfold State.microStep
  rw [hr]
  cases hva : s.stepReads with
  | none => rfl
  | some va =>
    obtain ⟨ho, hw⟩ := hs va hva
    rw [ho]
    dsimp only
    rw [hw, if_neg Bool.false_ne_true]

theorem cycleRunsDecodedInstructions : Claims.CycleRunsDecodedInstructions := by
  refine ⟨fun i s h => exec_eq_runInstr h s, fun s => rfl, fun i s => coreCycle_issues i s, ?_, ?_, ?_, ?_, ?_⟩
  · intro i s v pa e g tag hwords hw ho hc hf hwalk ht hp h
    exact fetchIssue_of_line hwords hw ho hc hf hwalk ht hp h
  · intro i s live u hp hfr hf hf2 hl hd v
    have hi := tryIssue_issues i s hp hfr hf hf2 hl hd
    refine ⟨fun hb => ?_, fun j hb ht hw => ?_⟩
    · rw [hi, hb]
      rfl
    · rw [hi, hb]
      exact issueBundle_stops ht hw
  · exact fun who i rest s t hi ht hw h => issueSlots_cons hi ht hw h
  · exact issued_ends
  · intro s t r i hr hl hu hd hi hs h
    rw [microStep_goes hr hs, microGo_decodes hl hu hd hi h]

/-- Settles O52: a step takes the first event of the agenda, and a cycle of a core that nothing holds unfolds to fetch, decode and exec. -/
theorem stepRunsDecodedInstruction : Obligations.StepRunsDecodedInstruction :=
  ⟨stepRunsTheNextEvent, cycleRunsDecodedInstructions⟩

end Sys2Proof.Machine
end

section
/-!
LEMMAS. When the operands of a vector instruction raise no fault (spec/08 R161).
-/
open Sys2Proof

namespace Sys2Proof.Machine

theorem segFault_eq_nil_iff (a : Arch) (i : Nat) : segFault a i = [] ↔ a.segs.getD (i / 256) .off = .on := by
  unfold segFault
  split <;> simp_all

/-- No fault of some is the first one only when there is none. -/
theorem firstFault_eq_none_iff (fs : List (Nat × Cause × Word)) (best : Option (Nat × Cause × Word)) :
    firstFault fs best = none ↔ fs = [] ∧ best = none := by
  induction fs generalizing best with
  | nil => simp [firstFault]
  | cons x rest ih =>
    change firstFault rest _ = none ↔ _
    rw [ih]
    cases best with
    | none => simp
    | some b => by_cases h : x.1 < b.1 <;> simp [h]

/-- A port can be popped without a fault when it is active, not exhausted, in read mode, and its vector is there and sound. -/
theorem srcFaults_port_eq_nil_iff (c : Core) (w : Nat) (p : Port) : c.srcFaults w (.g p) = [] ↔ c.sourceReady (.g p) = true := by
  unfold Core.srcFaults Core.sourceReady
  by_cases hpop : c.iss.popped.any (fun x => x.1 == p) = true
  · simp [hpop]
  · by_cases hport : (!c.a.ports[p].act || c.a.ports[p].exh || c.a.ports[p].mode) = true
    · simp only [hpop, hport, if_true, if_false]
      simp at hport ⊢
      intro hact hexh hmode
      simp [hact, hexh, hmode] at hport
    · simp only [hpop, hport, if_false]
      simp at hport
      simp [hport, segFault_eq_nil_iff]

theorem sourceReady_iff (c : Core) (w : Nat) (x : VSrc) : c.sourceReady x = true ↔ c.emptyFault x = none ∧ c.srcFaults w x = [] := by
  cases x with
  | v r e => cases e <;> simp [Core.sourceReady, Core.emptyFault, Core.srcFaults]
  | g p => simpa [Core.emptyFault] using (srcFaults_port_eq_nil_iff c w p).symm
  | fl => cases h : c.fl <;> simp [Core.sourceReady, Core.emptyFault, Core.srcFaults, h]
  | q | z | li | k => simp [Core.sourceReady, Core.emptyFault, Core.srcFaults]

theorem destReady_iff (c : Core) (d : VDst) : c.destReady d = true ↔ c.dstFaults d = [] := by
  cases d with
  | g p =>
    unfold Core.destReady Core.dstFaults
    by_cases hport : (!c.a.ports[p].act || c.a.ports[p].exh || !c.a.ports[p].mode) = true
    · simp only [hport, if_true]
      simp at hport ⊢
      intro hact hexh hmode
      simp [hact, hexh, hmode] at hport
    · simp only [hport, if_false]
      simp at hport
      simp [hport, segFault_eq_nil_iff]
  | queue | v => simp [Core.destReady, Core.dstFaults]

/-- Settles O9: no operand has a fault exactly when each is ready. -/
theorem vectorOperandFaults : Obligations.VectorOperandFaults := by
  intro c slot srcs d
  have hfirst : c.vecFault slot srcs d = none ↔ srcs.findSome? c.emptyFault = none ∧
      srcs.flatMap (c.srcFaults (c.a.words.getD slot 0)) ++ c.dstFaults d = [] := by
    unfold Core.vecFault
    cases srcs.findSome? c.emptyFault <;> simp [firstFault_eq_none_iff]
  rw [hfirst]
  simp only [Core.operandsReady, Bool.and_eq_true, List.all_eq_true, destReady_iff, List.append_eq_nil_iff, List.flatMap_eq_nil_iff,
    List.findSome?_eq_none_iff, sourceReady_iff c (c.a.words.getD slot 0)]
  constructor
  · rintro ⟨he, hs, hd⟩
    exact ⟨fun x hx => ⟨he x hx, hs x hx⟩, hd⟩
  · rintro ⟨h, hd⟩
    exact ⟨fun x hx => (h x hx).1, fun x hx => (h x hx).2, hd⟩

end Sys2Proof.Machine
end

section
/-!
LEMMAS. The elementwise vector instructions on lanes and elements (spec/08 R156 to R163, R167, R173).
-/
open Sys2Proof

namespace Sys2Proof.Machine

/-! ### Lanes and elements -/

theorem laneOf_congr (t : VType) {f g : Nat → Nat} (h : ∀ e, f e % 2 ^ t.bits = g e % 2 ^ t.bits) : laneOf t f = laneOf t g := by
  unfold laneOf
  simp only [h]

theorem masked_eq_underMask (g : Mask) (keep : Vec) (f : Nat → Lane) : masked g keep f = underMask g keep f := by
  unfold masked underMask
  simp only [bitOf_eq_getLsbD]

theorem vbits_pos (t : VType) : 0 < t.bits := by cases t <;> decide

theorem vfmt_of_isInt {t : VType} (h : t.isInt = true) : vfmt t = none := by
  revert h
  cases t <;> decide

theorem laneElem_lt (t : VType) (x : Lane) (e : Nat) : laneElem t x e < 2 ^ t.bits := Nat.mod_lt _ (Nat.two_pow_pos _)

theorem toNat_ofNat_laneElem (t : VType) (x : Lane) (e : Nat) : (BitVec.ofNat t.bits (laneElem t x e)).toNat = laneElem t x e := by
  rw [BitVec.toNat_ofNat, Nat.mod_eq_of_lt (laneElem_lt t x e)]

theorem toNat_eq_of_ofNat_eq {n k : Nat} {v : BitVec n} (h : BitVec.ofNat n k = v) : k % 2 ^ n = v.toNat := by
  rw [← h, BitVec.toNat_ofNat]

/-- An element operation on numbers is the one on bit vectors where it is for the type's width. -/
theorem laneOf_int_eq_onElems {t : VType} {f : Nat → Nat → Nat} {fi : (w : Nat) → BitVec w → BitVec w → BitVec w}
    (ff : ExtNum → ExtNum → ExtNum) (ht : vfmt t = none) (h : ∀ x y : BitVec t.bits, BitVec.ofNat _ (f x.toNat y.toNat) = fi _ x y) (x y : Lane) :
    laneOf t (fun e => f (laneElem t x e) (laneElem t y e)) = onElems t fi ff x y := by
  refine laneOf_congr t (fun e => ?_)
  rw [ht]
  dsimp only
  rw [← h, toNat_ofNat_laneElem, toNat_ofNat_laneElem, BitVec.toNat_ofNat, Nat.mod_mod]

theorem laneOf_elemOp_eq_onElems {t : VType} {f : Nat → Nat → Nat → Nat} {fi : (w : Nat) → BitVec w → BitVec w → BitVec w}
    (ff : ExtNum → ExtNum → ExtNum) (h : vfmt t = none → ∀ x y : BitVec t.bits, BitVec.ofNat _ (f t.bits x.toNat y.toNat) = fi _ x y)
    (x y : Lane) : laneOf t (fun e => elemOp t f ff (laneElem t x e) (laneElem t y e)) = onElems t fi ff x y := by
  cases ht : vfmt t with
  | none =>
    rw [← laneOf_int_eq_onElems ff ht (h ht)]
    refine laneOf_congr t (fun e => ?_)
    rw [elemOp, ht]
    exact Nat.mod_mod ..
  | some p =>
    refine laneOf_congr t (fun e => ?_)
    rw [elemOp, ht]

theorem laneOf_elemOp_unary {t : VType} {f : Nat → Nat → Nat} {fi : (w : Nat) → BitVec w → BitVec w} (ff : ExtNum → ExtNum)
    (h : vfmt t = none → ∀ x : BitVec t.bits, BitVec.ofNat _ (f t.bits x.toNat) = fi _ x) (x : Lane) :
    laneOf t (fun e => elemOp t (fun w x _ => f w x) (fun v _ => ff v) (laneElem t x e) 0) =
      onElems t (fun w x _ => fi w x) (fun v _ => ff v) x 0 := by
  rw [← laneOf_elemOp_eq_onElems (f := fun w x _ => f w x) _ (fun ht x _ => h ht x)]
  simp only [show ∀ e, laneElem t 0 e = 0 by simp [laneElem]]

/-! ### Issue and delivery -/

theorem vecFault_of_ready {c : Core} {srcs : List VSrc} {d : VDst} (h : c.operandsReady srcs d = true) (slot : Nat) :
    c.vecFault slot srcs d = none :=
  (vectorOperandFaults c slot srcs d).2 h

/-- An instruction whose operands are ready takes its sources and has its effect, unless their values raise a fault of its own. -/
theorem vecIssue_of_ready {s : State} {srcs : List VSrc} {d : VDst} (h : s.core.operandsReady srcs d = true) (slot : Nat)
    {extra : List Vec → Option (Cause × Word)} (he : extra (srcs.map s.core.readV) = none) (f : List Vec → State → State) :
    s.vecIssue slot srcs d extra f = f (srcs.map s.core.readV) (s.taken srcs) := by
  unfold State.vecIssue
  rw [vecFault_of_ready h]
  dsimp only
  rw [he]
  rfl

/-- Taking sources changes no mask register. -/
theorem rdM_taken (srcs : List VSrc) (m : MaskReg) (s : State) : (s.taken srcs).core.a.rdM m = s.core.a.rdM m := by
  obtain ⟨-, -, -, -, -, -, -, -, -, -, -, -, hm, -⟩ := keeps_taken srcs s
  unfold Arch.rdM
  rw [hm]

theorem deliver_shadowElems (lat slot : Nat) (d : VDst) (t : VType) (g : Mask) (x : Vec) (s : State) :
    s.deliver lat slot d (shadowElems t g x) x = s.delivers lat slot d t g x := by
  unfold State.delivers shadowElems
  simp only [bitOf_eq_getLsbD]

/-- An elementwise instruction of two sources. -/
theorem vec2_eq {s : State} {d : VDst} {a b : VSrc} (h : s.core.operandsReady [a, b] d = true) (u : VUnit) (t : VType) (m : MaskReg)
    (lat : Nat) {f : Nat → Nat → Nat} {F : Lane → Lane → Lane}
    (hf : ∀ x y, laneOf t (fun e => f (laneElem t x e) (laneElem t y e)) = F x y) :
    s.vec2 u d a b t m lat f = (s.taken [a, b]).delivers lat (VUnit.slot u) d t (s.core.a.rdM m)
      (underMask (s.core.a.rdM m) (s.core.readV a) (fun i => F ((s.core.readV a).lane i) ((s.core.readV b).lane i))) := by
  unfold State.vec2
  rw [vecIssue_of_ready h _ rfl]
  dsimp only
  rw [rdM_taken, deliver_shadowElems, masked_eq_underMask]
  simp only [hf]
  rfl

/-- An elementwise instruction of one source. -/
theorem vec1_eq {s : State} {d : VDst} {a : VSrc} (h : s.core.operandsReady [a] d = true) (slot : Nat) (t : VType) (m : MaskReg)
    (lat : Nat) {f : Nat → Nat} {F : Lane → Lane} (hf : ∀ x, laneOf t (fun e => f (laneElem t x e)) = F x) :
    s.vec1 slot d a t m lat f = (s.taken [a]).delivers lat slot d t (s.core.a.rdM m)
      (underMask (s.core.a.rdM m) (s.core.readV a) (fun i => F ((s.core.readV a).lane i))) := by
  unfold State.vec1
  rw [vecIssue_of_ready h _ rfl]
  dsimp only
  rw [rdM_taken, deliver_shadowElems, masked_eq_underMask]
  simp only [hf]
  rfl

/-- An elementwise operation of one source on numbers is the one on bit vectors where it is for the type's width. -/
theorem vec1_elemOp {s : State} {d : VDst} {a : VSrc} (h : s.core.operandsReady [a] d = true) (slot : Nat) (t : VType) (m : MaskReg)
    (lat : Nat) {f : Nat → Nat → Nat} {fi : (w : Nat) → BitVec w → BitVec w} {ff : ExtNum → ExtNum}
    (hf : vfmt t = none → ∀ x : BitVec t.bits, BitVec.ofNat _ (f t.bits x.toNat) = fi _ x) :
    s.vec1 slot d a t m lat (fun x => elemOp t (fun w x _ => f w x) (fun v _ => ff v) x 0) =
      (s.taken [a]).delivers lat slot d t (s.core.a.rdM m) (underMask (s.core.a.rdM m) (s.core.readV a)
        (fun i => onElems t (fun w x _ => fi w x) (fun v _ => ff v) ((s.core.readV a).lane i) 0)) :=
  vec1_eq h slot t m lat (f := fun x => elemOp t (fun w x _ => f w x) (fun v _ => ff v) x 0)
    (F := fun x => onElems t (fun w x _ => fi w x) (fun v _ => ff v) x 0) (laneOf_elemOp_unary ff hf)

/-- A vector result made of whole sources, with nothing to check. -/
theorem vecWhole_unchecked {s : State} {srcs : List VSrc} {d : VDst} (h : s.core.operandsReady srcs d = true) (slot lat : Nat)
    (f : Core → List Vec → Vec) :
    s.vecWhole slot srcs d lat unchecked f = (s.taken srcs).deliver lat slot d [] (f (s.taken srcs).core (srcs.map s.core.readV)) :=
  vecIssue_of_ready h slot rfl _

/-! ### The operations on elements -/

theorem intOf_lt_iff (t : VType) (x y : BitVec t.bits) : intOf t x.toNat < intOf t y.toNat ↔ lessIn t x y = true := by
  unfold intOf lessIn
  split
  · rw [Int.ofNat_lt, toNat_lt_iff_ult]
  · exact signedOf_lt_iff_slt (vbits_pos t) x y

theorem ofNat_mulHigh_intOf (t : VType) (x y : BitVec t.bits) :
    BitVec.ofNat t.bits (intBits t.bits (intOf t x.toNat * intOf t y.toNat / (2 ^ t.bits : Int))) = highHalf _ (extendIn t _) x y := by
  unfold intOf extendIn
  split
  · rw [← ofNat_mulHighUnsigned, ofNat_intBits, ← BitVec.ofInt_natCast]
    norm_cast
  · exact ofNat_mulHigh (vbits_pos t) x y

theorem ofNat_abs (n : Nat) (hn : 0 < n) (x : BitVec n) :
    BitVec.ofNat n (intBits n (signedOf n x.toNat).natAbs) = if x.msb then -x else x := by
  rw [ofNat_intBits, signedOf_toNat hn, BitVec.toInt_eq_msb_cond]
  have hx := x.isLt
  cases h : x.msb
  · refine BitVec.eq_of_toNat_eq ?_
    simp only [Bool.false_eq_true, if_false, Int.natAbs_natCast, BitVec.ofInt_natCast]
    simp
  · refine BitVec.eq_of_toNat_eq ?_
    have habs : ((x.toNat : Int) - ((2 ^ n : Nat) : Int)).natAbs = 2 ^ n - x.toNat := by omega
    simp only [if_true, habs, BitVec.ofInt_natCast]
    simp

theorem ofNat_neg (n : Nat) (x : BitVec n) : BitVec.ofNat n (2 ^ n - x.toNat) = -x :=
  BitVec.eq_of_toNat_eq (by simp)

theorem ofNat_shiftRight_intOf (t : VType) (x : BitVec t.bits) (k : Nat) :
    BitVec.ofNat t.bits (intBits t.bits (intOf t x.toNat / (2 ^ k : Int))) = if t = .ui32 then x >>> k else x.sshiftRight k := by
  unfold intOf
  split
  · rw [← ofNat_shiftRight, ofNat_intBits, ← BitVec.ofInt_natCast]
    norm_cast
  · exact ofNat_sraNat (vbits_pos t) x k

theorem vectorArithmeticResults : Claims.VectorArithmeticResults := by
  intro u d a b t m s x y g lat two one
  have hb := vbits_pos t
  refine ⟨fun h => ⟨?_, ?_, ?_, ?_, ?_, fun ht => ?_⟩, fun h => ⟨?_, ?_⟩⟩
  · exact congrArg Host.Outcome.next (vec2_eq h u t m _ (laneOf_elemOp_eq_onElems _ (fun _ x y => BitVec.eq_of_toNat_eq (by simp))))
  · exact congrArg Host.Outcome.next (vec2_eq h u t m _ (laneOf_elemOp_eq_onElems _ (fun _ x y =>
      BitVec.eq_of_toNat_eq (by simp [BitVec.toNat_sub, Nat.add_comm]))))
  · exact congrArg Host.Outcome.next (vec2_eq h u t m _ (laneOf_elemOp_eq_onElems _ (fun _ x y => BitVec.eq_of_toNat_eq (by simp))))
  · exact congrArg Host.Outcome.next (vec2_eq h u t m _ (laneOf_elemOp_eq_onElems _ (fun _ x y => ofNat_choice (intOf_lt_iff t y x) x y)))
  · exact congrArg Host.Outcome.next (vec2_eq h u t m _ (laneOf_elemOp_eq_onElems _ (fun _ x y => ofNat_choice (intOf_lt_iff t x y) x y)))
  · exact congrArg Host.Outcome.next (vec2_eq h u t m _ (laneOf_int_eq_onElems
      (f := fun x y => intBits t.bits (intOf t x * intOf t y / (2 ^ t.bits : Int)))
      (fi := fun w x y => highHalf w (extendIn t w) x y) _ (vfmt_of_isInt ht) (ofNat_mulHigh_intOf t)))
  · exact congrArg Host.Outcome.next (vec1_elemOp h _ t m 2 (f := fun w x => intBits w (signedOf w x).natAbs)
      (fi := fun _ x => if x.msb then -x else x) (fun _ => ofNat_abs _ hb))
  · exact congrArg Host.Outcome.next (vec1_elemOp h _ t m 2 (f := fun w x => 2 ^ w - x) (fi := fun _ x => -x) (fun _ => ofNat_neg _))

/-- The lane whose 32 bits are one element. -/
theorem laneOf_i32 (f : Nat → Nat) : laneOf .i32 f = BitVec.ofNat 32 (f 0) := by
  refine BitVec.eq_of_toNat_eq ?_
  simp [laneOf, perLane, VType.bits, List.range_succ]

theorem laneElem_i32 (x : Lane) : laneElem .i32 x 0 = x.toNat := by
  have h := x.isLt
  simp only [laneElem, VType.bits, Nat.mul_zero, Nat.pow_zero, Nat.div_one]
  exact Nat.mod_eq_of_lt h

/-- An operation on 32-bit integer lanes. -/
theorem laneOf_i32_eq {f : Nat → Nat → Nat} {F : Lane → Lane → Lane} (h : ∀ x y : Lane, BitVec.ofNat 32 (f x.toNat y.toNat) = F x y)
    (x y : Lane) : laneOf .i32 (fun e => f (laneElem .i32 x e) (laneElem .i32 y e)) = F x y := by
  rw [laneOf_i32, laneElem_i32, laneElem_i32, h]

theorem vec2_int_eq {s : State} {d : VDst} {a b : VSrc} (h : s.core.operandsReady [a, b] d = true) (u : VUnit) {t : VType}
    (ht : vfmt t = none) (m : MaskReg) (lat : Nat) {f : Nat → Nat → Nat} {F : Lane → Lane → Lane}
    (hf : ∀ x y, laneOf t (fun e => f (laneElem t x e) (laneElem t y e)) = F x y) :
    s.vec2 u d a b t m lat f = (s.taken [a, b]).deliver lat (VUnit.slot u) d []
      (underMask (s.core.a.rdM m) (s.core.readV a) (fun i => F ((s.core.readV a).lane i) ((s.core.readV b).lane i))) := by
  rw [vec2_eq h u t m lat hf, State.delivers, ht]

theorem vectorLogicAndShiftResults : Claims.VectorLogicAndShiftResults := by
  intro u d a b t m s h x y two
  refine ⟨?_, ?_, ?_, ?_, fun ht => ⟨?_, ?_⟩⟩
  · exact congrArg Host.Outcome.next (vec2_int_eq h u rfl m 2 (laneOf_i32_eq (ofNat_land 32)))
  · exact congrArg Host.Outcome.next (vec2_int_eq h u rfl m 2 (laneOf_i32_eq (ofNat_lor 32)))
  · exact congrArg Host.Outcome.next (vec2_int_eq h u rfl m 2 (laneOf_i32_eq (ofNat_xor 32)))
  · refine congrArg Host.Outcome.next ?_
    exact vec2_int_eq h u rfl m 2 (f := fun x y => Nat.land x (2 ^ 32 - 1 - y)) (F := fun x y => x &&& ~~~y)
      (laneOf_i32_eq (f := fun x y => Nat.land x (2 ^ 32 - 1 - y)) (ofNat_land_complement 32))
  · refine congrArg Host.Outcome.next (vec2_int_eq h u (vfmt_of_isInt ht) m 2
      (laneOf_int_eq_onElems (f := fun x y => x * 2 ^ (y % t.bits)) (fi := fun w x y => x <<< (y.toNat % w)) _ (vfmt_of_isInt ht)
        (fun x y => ?_)))
    exact BitVec.eq_of_toNat_eq (by simp [Nat.shiftLeft_eq])
  · exact congrArg Host.Outcome.next (vec2_int_eq h u (vfmt_of_isInt ht) m 2
      (laneOf_int_eq_onElems (f := fun x y => intBits t.bits (intOf t x / (2 ^ (y % t.bits) : Int)))
        (fi := fun w x y => if t = .ui32 then x >>> (y.toNat % w) else x.sshiftRight (y.toNat % w)) _
        (vfmt_of_isInt ht) (fun x y => ofNat_shiftRight_intOf t x _)))

theorem vectorMoveResults : Claims.VectorMoveResults := by
  intro u d a b m s x y g
  refine ⟨rfl, fun h => ?_, fun h => ⟨?_, ?_, ?_⟩⟩
  · exact congrArg Host.Outcome.next (vecWhole_unchecked h _ _ _)
  all_goals
    refine congrArg Host.Outcome.next ((vecWhole_unchecked h _ _ _).trans ?_)
    rw [rdM_taken, masked_eq_underMask]
    rfl

/-- Settles O10: each operation on the numbers of elements is the one on bit vectors, lane by lane. -/
theorem vectorElementResults : Obligations.VectorElementResults :=
  ⟨vectorArithmeticResults, vectorLogicAndShiftResults, vectorMoveResults⟩

end Sys2Proof.Machine
end

section
/-!
LEMMAS. What is read back from a vector made of lanes, elements or codes, and from a mask made of bits (spec/08 R155, R156, spec/03 R55).
-/
open Sys2Proof

namespace Sys2Proof.Machine

/-! ### Digits of a number -/

/-- The number whose digits to base `B` are `d 0`, `d 1`, …, `n` of them. -/
def ofDigitsBelow (B : Nat) (d : Nat → Nat) (n : Nat) : Nat := (List.range n).foldl (fun acc i => acc + d i * B ^ i) 0

theorem ofDigitsBelow_succ (B : Nat) (d : Nat → Nat) (n : Nat) : ofDigitsBelow B d (n + 1) = ofDigitsBelow B d n + d n * B ^ n := by
  simp [ofDigitsBelow, List.range_succ]

theorem ofDigitsBelow_lt {B : Nat} {d : Nat → Nat} (hd : ∀ i, d i < B) (n : Nat) : ofDigitsBelow B d n < B ^ n := by
  induction n with
  | zero => simp [ofDigitsBelow]
  | succ n ih =>
    rw [ofDigitsBelow_succ]
    calc ofDigitsBelow B d n + d n * B ^ n < B ^ n + d n * B ^ n := by omega
      _ = (d n + 1) * B ^ n := by ring
      _ ≤ B * B ^ n := Nat.mul_le_mul_right _ (hd n)
      _ = B ^ (n + 1) := by ring

/-- Each digit can be read back. -/
theorem digit_ofDigitsBelow {B : Nat} {d : Nat → Nat} (hd : ∀ i, d i < B) {i n : Nat} (h : i < n) :
    ofDigitsBelow B d n / B ^ i % B = d i := by
  have hB : 0 < B := Nat.lt_of_le_of_lt (Nat.zero_le _) (hd 0)
  induction n with
  | zero => exact absurd h (Nat.not_lt_zero i)
  | succ n ih =>
    rw [ofDigitsBelow_succ]
    rcases Nat.lt_succ_iff_lt_or_eq.1 h with hi | rfl
    · have hp : B ^ n = B ^ i * (B * B ^ (n - i - 1)) := by rw [← Nat.pow_succ', ← Nat.pow_add]; congr 1; omega
      rw [hp, show d n * (B ^ i * (B * B ^ (n - i - 1))) = B ^ i * (B * (d n * B ^ (n - i - 1))) by ring,
        Nat.add_mul_div_left _ _ (Nat.pow_pos hB), Nat.add_mul_mod_self_left, ih hi]
    · rw [Nat.add_mul_div_right _ _ (Nat.pow_pos hB), Nat.div_eq_of_lt (ofDigitsBelow_lt hd i), Nat.zero_add, Nat.mod_eq_of_lt (hd i)]

/-- The same number by Horner's rule, the digits from the lowest on. -/
theorem foldr_eq_ofDigitsBelow (B : Nat) (d : Nat → Nat) (n : Nat) :
    (List.range n).foldr (fun i acc => acc * B + d i) 0 = ofDigitsBelow B d n := by
  induction n with
  | zero => rfl
  | succ n ih =>
    have shift : ∀ (l : List Nat) (x : Nat), l.foldr (fun i acc => acc * B + d i) x =
        l.foldr (fun i acc => acc * B + d i) 0 + x * B ^ l.length := by
      intro l x
      induction l with
      | nil => simp
      | cons a l ihl => simp only [List.foldr_cons, List.length_cons, ihl, Nat.pow_succ]; ring
    rw [List.range_succ, List.foldr_append, shift, ih, ofDigitsBelow_succ]
    simp

/-! ### Lanes, elements, codes and mask bits -/

theorem ofFn_toNat (f : Nat → Lane) : (Vec.ofFn f).toNat = ofDigitsBelow (2 ^ 32) (fun i => (f i).toNat) 128 := by
  have h : ofDigitsBelow (2 ^ 32) (fun i => (f i).toNat) 128 < 2 ^ 4096 := by
    have := ofDigitsBelow_lt (fun i => (f i).isLt) 128
    rwa [← Nat.pow_mul] at this
  rw [Vec.ofFn, foldr_eq_ofDigitsBelow, BitVec.toNat_ofNat, Nat.mod_eq_of_lt h]

theorem lane_toNat (v : Vec) (i : Nat) : (v.lane i).toNat = v.toNat / (2 ^ 32) ^ i % 2 ^ 32 := by
  rw [Vec.lane, BitVec.extractLsb'_toNat, Nat.shiftRight_eq_div_pow, Nat.pow_mul]

theorem lane_ofFn (f : Nat → Lane) {i : Nat} (h : i < 128) : (Vec.ofFn f).lane i = f i := by
  apply BitVec.eq_of_toNat_eq
  rw [lane_toNat, ofFn_toNat, digit_ofDigitsBelow (fun i => (f i).isLt) h]

theorem perLane_mul_bits (t : VType) : t.bits * perLane t = 32 := by cases t <;> rfl

theorem perLane_pos (t : VType) : 0 < perLane t := by cases t <;> decide

theorem laneOf_toNat (t : VType) (f : Nat → Nat) : (laneOf t f).toNat = ofDigitsBelow (2 ^ t.bits) (fun e => f e % 2 ^ t.bits) (perLane t) := by
  have h : ofDigitsBelow (2 ^ t.bits) (fun e => f e % 2 ^ t.bits) (perLane t) < 2 ^ 32 := by
    have := ofDigitsBelow_lt (fun e => Nat.mod_lt (f e) (Nat.two_pow_pos t.bits)) (perLane t)
    rwa [← Nat.pow_mul, perLane_mul_bits] at this
  simp only [ofDigitsBelow, ← Nat.pow_mul] at h ⊢
  rw [laneOf, BitVec.toNat_ofNat, Nat.mod_eq_of_lt h]

theorem laneElem_laneOf (t : VType) (f : Nat → Nat) {e : Nat} (h : e < perLane t) : laneElem t (laneOf t f) e = f e % 2 ^ t.bits := by
  rw [laneElem, laneOf_toNat, Nat.pow_mul]
  exact digit_ofDigitsBelow (fun e => Nat.mod_lt (f e) (Nat.two_pow_pos t.bits)) h

theorem vecElem_ofFn (t : VType) (f : Nat → Lane) {n : Nat} (h : n < 128 * perLane t) :
    vecElem t (Vec.ofFn f) n = laneElem t (f (n / perLane t)) (n % perLane t) := by
  rw [vecElem, lane_ofFn _ ((Nat.div_lt_iff_lt_mul (perLane_pos t)).2 h)]

theorem vecElem_vecOfElems (t : VType) (f : Nat → Nat) {n : Nat} (h : n < 128 * perLane t) :
    vecElem t (vecOfElems t f) n = f n % 2 ^ t.bits := by
  rw [vecOfElems, vecElem_ofFn t _ h, laneElem_laneOf t _ (Nat.mod_lt _ (perLane_pos t)), Nat.div_add_mod']

/-- The bits of a mask are those it was made of. -/
theorem getLsbD_maskOf (f : Nat → Bool) {i : Nat} (h : i < 128) : (maskOf f).getLsbD i = f i := by
  have hd : ∀ i, (if f i = true then 1 else 0) < 2 := fun i => by split <;> decide
  have hlt : ofDigitsBelow 2 (fun i => if f i = true then 1 else 0) 128 < 2 ^ 128 := ofDigitsBelow_lt hd 128
  have hsum : (List.range 128).foldr (fun i n => (if f i = true then 1 else 0) + 2 * n) 0 =
      ofDigitsBelow 2 (fun i => if f i = true then 1 else 0) 128 := by
    rw [← foldr_eq_ofDigitsBelow]
    simp only [Nat.mul_comm, Nat.add_comm]
  rw [← bitOf_eq_getLsbD, bitOf, maskOf, hsum, BitVec.toNat_ofNat, Nat.mod_eq_of_lt hlt, digit_ofDigitsBelow hd h]
  cases f i <;> rfl

/-! ### Codes of a granule (spec/03 R55, R64, R70) -/

theorem elems_mul_bits (f : Fmt) : f.bits * f.elems = 512 := by cases f <;> rfl

theorem elems_pos (f : Fmt) : 0 < f.elems := by cases f <;> decide

theorem granule_toNat (v : Vec) (j : Nat) : (v.granule j).toNat = v.toNat / 2 ^ (512 * j) % 2 ^ 512 := by
  rw [Vec.granule, BitVec.extractLsb'_toNat, Nat.shiftRight_eq_div_pow]

theorem elemCode_granule (f : Fmt) (v : Vec) (j : Nat) {k : Nat} (h : k < f.elems) :
    elemCode f (v.granule j) k = v.toNat / (2 ^ f.bits) ^ (f.elems * j + k) % 2 ^ f.bits := by
  have hsplit : 2 ^ 512 = 2 ^ (f.bits * k) * 2 ^ (f.bits * (f.elems - k)) := by
    rw [← Nat.pow_add, ← Nat.mul_add, Nat.add_sub_cancel' h.le, elems_mul_bits]
  have hdvd : 2 ^ f.bits ∣ 2 ^ (f.bits * (f.elems - k)) := Nat.pow_dvd_pow 2 (Nat.le_mul_of_pos_right _ (by omega))
  have hpow : (2 ^ f.bits) ^ (f.elems * j + k) = 2 ^ (512 * j) * 2 ^ (f.bits * k) := by
    rw [← Nat.pow_mul, ← Nat.pow_add, Nat.mul_add, ← Nat.mul_assoc, elems_mul_bits]
  rw [elemCode, granule_toNat, hsplit, Nat.mod_mul_right_div_self, Nat.mod_mod_of_dvd _ hdvd, Nat.div_div_eq_div_mul, hpow]

/-- A number made of codes fills the low granules and leaves the others zero. -/
theorem granule_of_codes (f : Fmt) {q : Nat → Nat} (hq : ∀ i, q i < 2 ^ f.bits) {v : Vec}
    (hv : v.toNat = ofDigitsBelow (2 ^ f.bits) q 128) :
    (∀ n, n < 128 → elemCode f (v.granule (n / f.elems)) (n % f.elems) = q n) ∧ ∀ j, 128 / f.elems ≤ j → v.granule j = 0 := by
  refine ⟨fun n hn => ?_, fun j hj => BitVec.eq_of_toNat_eq ?_⟩
  · rw [elemCode_granule f v _ (Nat.mod_lt _ (elems_pos f)), Nat.div_add_mod, hv, digit_ofDigitsBelow hq hn]
  · have hlt := ofDigitsBelow_lt hq 128
    have hle : 128 ≤ f.elems * j := by
      have := Nat.mul_le_mul_left f.elems hj
      have hd : f.elems * (128 / f.elems) = 128 := by cases f <;> rfl
      omega
    have hpow : 2 ^ (512 * j) = (2 ^ f.bits) ^ (f.elems * j) := by rw [← Nat.pow_mul, ← Nat.mul_assoc, elems_mul_bits]
    rw [granule_toNat, hv, hpow, Nat.div_eq_of_lt (hlt.trans_le (Nat.pow_le_pow_right (Nat.two_pow_pos _) hle))]
    simp

theorem intBits_lt (w : Nat) (x : Int) : intBits w x < 2 ^ w := by
  have h := Int.emod_lt_of_pos x (show (0 : Int) < 2 ^ w by positivity)
  have h' := Int.emod_nonneg x (show (2 ^ w : Int) ≠ 0 by positivity)
  have e : ((2 ^ w : Nat) : Int) = 2 ^ w := by norm_cast
  unfold intBits
  omega

/-- Every candidate of F4X is a code of four bits. -/
theorem f4xCands_lt (xv : Nat) {c : Nat × Bool × Nat × Nat} (h : c ∈ f4xCands xv) : c.1 < 16 := by
  unfold f4xCands at h
  dsimp only at h
  rcases List.mem_append.1 h with h | h
  · obtain ⟨k, hk, rfl⟩ := List.mem_map.1 h
    exact List.mem_range.1 (List.mem_of_mem_filter hk)
  · split at h
    · split at h
      · cases h
      · rw [List.mem_singleton.1 h]
        exact (by decide : 8 < 16)
    · cases h

theorem f4xBest_lt (x : Int) (d : Nat) (cs : List (Nat × Bool × Nat × Nat)) (best : Nat × Bool × Nat × Nat) (hb : best.1 < 16)
    (hc : ∀ c ∈ cs, c.1 < 16) : f4xBest x d cs best < 16 := by
  induction cs generalizing best with
  | nil => exact hb
  | cons c cs ih =>
    refine ih _ ?_ (fun c h => hc c (List.mem_cons_of_mem _ h))
    split
    · exact hc c List.mem_cons_self
    · exact hb

theorem f4xTrunc_lt (xv : Nat) (s : Bool) (n d : Nat) : f4xTrunc xv s n d < 16 := by
  refine List.foldlRecOn (motive := fun b : Nat × Nat × Nat => b.1 < 16) _ _ (by decide) (fun b hb c hc => ?_)
  split
  · exact f4xCands_lt xv (List.mem_of_mem_filter hc)
  · exact hb

theorem f4x_roundCode_lt (xv : Nat) (mode : Round) (y : ExtNum) : Fmt.roundCode .f4x xv mode y < 16 := by
  cases y with
  | nan => exact Nat.zero_lt_succ _
  | inf s => exact f4xTrunc_lt ..
  | fin s n d =>
    unfold Fmt.roundCode
    dsimp only
    split
    · decide
    · split
      · exact f4xBest_lt _ _ _ _ (by decide) (fun c h => f4xCands_lt xv h)
      · exact f4xTrunc_lt ..

/-- A rounded value is a code of its format. -/
theorem roundCode_lt (f : Fmt) (xv : Nat) (mode : Round) (y : ExtNum) : f.roundCode xv mode y < 2 ^ f.bits := by
  cases f
  case f32 | b16 | f16 | f8a | f8b => exact round_lt (by decide) mode y
  case i8 | i4 => exact intBits_lt ..
  case f4x => exact f4x_roundCode_lt xv mode y

theorem quantise_lt (x : ExtNum) (scale : Nat) (f : Fmt) (xv : Nat) (mode : Round) : quantise x scale f xv mode < 2 ^ f.bits := by
  unfold quantise
  split
  · exact roundCode_lt ..
  · split
    · exact Nat.two_pow_pos _
    · exact roundCode_lt ..

/-! ### Conversions (spec/08 R168) -/

/-- A converted element fits its type. -/
theorem cvtElem_lt (dst src : VType) (x : Nat) : cvtElem dst src x < 2 ^ dst.bits := by
  cases dst
  case f32 | bf16x2 | f16x2 => exact round_lt (by decide) ..
  case i32 | i16x2 | i8x4 => exact intBits_lt ..
  case ui32 =>
    obtain ⟨h, h'⟩ := toIntRange_bounds .rne (lo := 0) (hi := 2 ^ 32 - 1) (elemNum src x) le_rfl (by decide)
    have e : cvtElem .ui32 src x = (toIntRange .rne 0 (2 ^ 32 - 1) (elemNum src x)).toNat := rfl
    have p : 2 ^ VType.ui32.bits = 4294967296 := rfl
    omega

theorem vecElem_masked (t : VType) (g : Mask) (keep : Vec) (f : Nat → Lane) {n : Nat} (h : n < 128 * perLane t) :
    vecElem t (masked g keep f) n =
      laneElem t (if g.getLsbD (n / perLane t) then f (n / perLane t) else keep.lane (n / perLane t)) (n % perLane t) := by
  rw [masked, vecElem_ofFn t _ h, bitOf_eq_getLsbD]

theorem vectorConvertResults : Claims.VectorConvertResults := by
  intro u d a p dst src m s hw h x ns nd
  refine ⟨cvtVec dst src p.toNat (s.core.a.rdM m) x, congrArg Host.Outcome.next ?_, fun n hn => ?_⟩
  · unfold State.vecWhole
    rw [vecIssue_of_ready h _ rfl]
    dsimp only
    rw [rdM_taken, deliver_shadowElems]
    simp only [eq_comm (a := dst.bits)]
    rfl
  · unfold cvtVec
    dsimp only
    rcases Nat.lt_trichotomy dst.bits src.bits with hlt | heq | hgt
    · rw [if_pos hlt, if_neg (by omega), if_neg (by omega), vecElem_vecOfElems dst _ hn]
      split
      · exact Nat.mod_eq_of_lt (cvtElem_lt ..)
      · exact Nat.zero_mod _
    · have hper : perLane src = perLane dst := by rw [perLane, perLane, heq]
      rw [if_neg (by omega), if_neg (by omega), if_pos heq.symm, vecElem_masked dst _ _ _ hn]
      split
      · rw [laneElem_laneOf dst _ (Nat.mod_lt _ (perLane_pos dst)), Nat.mod_eq_of_lt (cvtElem_lt ..), vecElem, hper]
      · rfl
    · rw [if_neg (by omega), if_pos hgt, if_neg (by omega), if_pos hgt, vecElem_vecOfElems dst _ hn]
      exact Nat.mod_eq_of_lt (cvtElem_lt ..)

/-! ### Block formats (spec/08 R169 to R172) -/

theorem vecIssue_faults {s : State} {srcs : List VSrc} {d : VDst} (h : s.core.operandsReady srcs d = true) (slot : Nat)
    {extra : List Vec → Option (Cause × Word)} {c : Cause} {x : Word} (he : extra (srcs.map s.core.readV) = some (c, x))
    (f : List Vec → State → State) : s.vecIssue slot srcs d extra f = s.fault slot c x := by
  unfold State.vecIssue
  rw [vecFault_of_ready h]
  dsimp only
  rw [he]

theorem maskedNum_eq (g : Mask) (v : Vec) (i : Nat) :
    maskedNum g v i = if g.getLsbD i then num32 (v.lane i).toNat else .fin false 0 1 := by
  rw [maskedNum, bitOf_eq_getLsbD]

theorem headFmt_eq (v : Vec) : headFmt v = tagHeadFmt ((v.lane 0).setWidth 64) := rfl

theorem tagVecFault_of_none {v : Vec} (h : headFmt v = none) (scales : Bool) :
    tagVecFault scales v = some (.badTag, tagHead v) := by
  rw [tagVecFault, h]

theorem tagVecFault_false {v : Vec} {f : Fmt} (h : headFmt v = some f) : tagVecFault false v = none := by
  rw [tagVecFault, h]
  rfl

theorem tagVecFault_of_bad {v : Vec} {f : Fmt} (h : headFmt v = some f)
    (hs : ∃ j, j < 128 / f.elems ∧ scaleOk (v.lane (1 + j)).toNat = false) : tagVecFault true v = some (.badTag, tagHead v) := by
  obtain ⟨j, hj, hs⟩ := hs
  have hany : (List.range (groupOf f)).any (fun j => !scaleOk (v.lane (1 + j)).toNat) = true :=
    List.any_eq_true.2 ⟨j, List.mem_range.2 hj, by simp [hs]⟩
  rw [tagVecFault, h]
  dsimp only
  rw [hany]
  rfl

theorem tagVecFault_of_ok {v : Vec} {f : Fmt} (h : headFmt v = some f)
    (hs : ∀ j, j < 128 / f.elems → scaleOk (v.lane (1 + j)).toNat = true) : tagVecFault true v = none := by
  have hany : (List.range (groupOf f)).any (fun j => !scaleOk (v.lane (1 + j)).toNat) = false :=
    List.any_eq_false.2 (fun j hj => by simp [hs j (List.mem_range.1 hj)])
  rw [tagVecFault, h]
  dsimp only
  rw [hany]
  rfl

theorem qntVec_toNat (g : Mask) (va vb : Vec) {f : Fmt} (h : headFmt vb = some f) :
    (qntVec g va vb).toNat = ofDigitsBelow (2 ^ f.bits)
      (fun n => quantise (maskedNum g va n) (vb.lane (1 + n / f.elems)).toNat f (tagXv (tagHead vb)) .rne) 128 := by
  have hlt := ofDigitsBelow_lt (fun n => quantise_lt (maskedNum g va n) (vb.lane (1 + n / f.elems)).toNat f (tagXv (tagHead vb)) .rne) 128
  have hroom : (2 ^ f.bits) ^ 128 ≤ 2 ^ 4096 := by
    rw [← Nat.pow_mul]
    exact Nat.pow_le_pow_right (by decide) (by cases f <;> decide)
  have hexp : ∀ n, 512 * (n / f.elems) + f.bits * (n % f.elems) = f.bits * n := fun n => by
    rw [← elems_mul_bits f, Nat.mul_assoc, ← Nat.mul_add, Nat.div_add_mod]
  unfold qntVec
  simp only [h, Option.getD_some, hexp, Nat.pow_mul, BitVec.toNat_ofNat]
  exact Nat.mod_eq_of_lt (hlt.trans_le hroom)

theorem vectorBlockResults : Claims.VectorBlockResults := by
  intro u d a b m s h x y tag g val
  split
  next hn =>
    have hh : headFmt y = none := hn
    intro i hi
    simp only [List.mem_cons, List.not_mem_nil, or_false] at hi
    rcases hi with rfl | rfl | rfl <;>
      exact congrArg Host.Outcome.next (vecIssue_faults h _ (tagVecFault_of_none hh _) _)
  next f hf =>
    have hh : headFmt y = some f := hf
    refine ⟨?_, fun hs i hi => ?_, fun hs => ⟨?_, ?_⟩⟩
    · refine ⟨scaleVec g x y, congrArg Host.Outcome.next ?_, ?_, fun i hi => ?_⟩
      · rw [vecIssue_of_ready h _ (tagVecFault_false hh)]
        dsimp only [List.map_cons, List.map_nil, List.getD_cons_succ, List.getD_cons_zero]
        rw [rdM_taken, show headFmt ((List.map s.core.readV [a, b]).getD 1 0) = some f from hh]
        simp only [Nat.add_comm 1]
        rfl
      · exact lane_ofFn _ (by decide)
      · rw [scaleVec, lane_ofFn _ (by omega), hh]
        simp only [Nat.add_one_ne_zero, if_false, Nat.add_sub_cancel, Option.getD_some, Nat.succ_le_iff, groupOf, maskedNum_eq]
        rfl
    · simp only [List.mem_cons, List.not_mem_nil, or_false] at hi
      rcases hi with rfl | rfl <;>
        exact congrArg Host.Outcome.next (vecIssue_faults h _ (tagVecFault_of_bad hh hs) _)
    · refine ⟨qntVec g x y, congrArg Host.Outcome.next ?_, fun n hn => ?_, fun j hj _ => ?_⟩
      · rw [vecIssue_of_ready h _ (tagVecFault_of_ok hh hs), rdM_taken]
        rfl
      · rw [(granule_of_codes f (fun n => quantise_lt ..) (qntVec_toNat g x y hh)).1 n hn, maskedNum_eq]
        rfl
      · exact (granule_of_codes f (fun n => quantise_lt ..) (qntVec_toNat g x y hh)).2 j hj
    · refine ⟨unpkVec x y, congrArg Host.Outcome.next ?_, fun n hn => ?_⟩
      · rw [vecIssue_of_ready h _ (tagVecFault_of_ok hh hs), ← deliver_shadowElems]
        rfl
      · have htag : word ((y.lane 0).toNat + (y.lane (1 + n / f.elems)).toNat * 2 ^ 32) = y.lane (1 + n / f.elems) ++ y.lane 0 :=
          BitVec.eq_of_toNat_eq (by rw [toNat_append_add, word, BitVec.toNat_ofNat]; omega)
        rw [unpkVec, lane_ofFn _ hn, hh]
        dsimp only [Option.getD_some]
        rw [htag]
        rfl

/-! ### Masks (spec/08 R165, R166, R177) -/

theorem eqv_comm (x y : ExtNum) : x.eqv y = y.eqv x := by
  cases x <;> cases y <;> simp [ExtNum.eqv, eq_comm]

theorem taken_pc (srcs : List VSrc) (s : State) : (s.taken srcs).core.a.pc = s.core.a.pc := by
  obtain ⟨-, -, -, -, -, -, -, -, -, -, -, -, -, -, -, -, -, hpc, -⟩ := keeps_taken srcs s
  exact hpc

theorem popV_seq (c : Core) (x : VSrc) : (c.popV x).seq = c.seq := by
  cases x
  case g p => unfold Core.popV; dsimp only; split <;> rfl
  all_goals rfl

theorem taken_seq (srcs : List VSrc) (s : State) : (s.taken srcs).core.seq = s.core.seq := by
  have pops (c : Core) : (srcs.foldl Core.popV c).seq = c.seq := by
    induction srcs generalizing c with
    | nil => rfl
    | cons x xs ih => exact (ih _).trans (popV_seq c x)
  refine (pops _).trans ?_
  unfold Core.taintFl
  split
  · split <;> rfl
  · rfl

/-- A check that starts once the sources are taken belongs to the bundle. -/
theorem check_taken (srcs : List VSrc) (slot : Nat) (r : Option Nat) (s : State) :
    (s.taken srcs).modA (fun x => { x with checks := x.checks ++ [⟨2, slot, (s.taken srcs).core.seq, x.pc, true, r, []⟩] }) =
      (s.taken srcs).modA (fun x => { x with checks := x.checks ++ [⟨2, slot, s.core.seq, s.core.a.pc, true, r, []⟩] }) := by
  unfold State.modA
  dsimp only
  rw [taken_seq, taken_pc]

/-- A mask derived from a vector source. -/
theorem vecMask_eq {s : State} {a : VSrc} (h : s.core.operandsReady [a] .queue = true) (u : VUnit) (k : MaskReg) (f : Vec → Nat → Bool) :
    s.vecMask u k a f = (s.taken [a]).fly 2 (VUnit.slot u) [.m k (maskOf (f (s.core.readV a)))] :=
  vecIssue_of_ready h _ rfl _

/-- A lane as the integer that its type makes of it, in order and equality as the lanes are. -/
theorem laneInt_order (t : VType) (p q : Lane) :
    let val (x : Lane) : Int := if t != .ui32 then x.toInt else x.toNat
    (val p = val q ↔ p = q) ∧ (val p < val q ↔ lessIn t p q = true) := by
  by_cases h : t = .ui32
  · subst h
    simp [lessIn, BitVec.toNat_eq, BitVec.ult_iff_lt, BitVec.lt_def]
  · simp [h, lessIn, BitVec.toInt_inj, BitVec.slt_iff_toInt_lt]

/-- The conditions of VCMP on integer lanes. -/
theorem evalInt_eq (t : VType) (c : VCond) (p q : Lane) :
    VCond.evalInt c (t != .ui32) p q = match c with
      | .eq => p == q
      | .ne => p != q
      | .lt => lessIn t p q
      | .le => !lessIn t q p
      | .gt => lessIn t q p
      | .ge => !lessIn t p q
      | .tst => (p &&& q) != 0 := by
  obtain ⟨heq, hlt⟩ := laneInt_order t p q
  have hgt := (laneInt_order t q p).2
  dsimp only at heq hlt hgt
  unfold VCond.evalInt
  dsimp only
  generalize (if t != .ui32 then p.toInt else (p.toNat : Int)) = x at heq hlt hgt
  generalize (if t != .ui32 then q.toInt else (q.toNat : Int)) = y at heq hlt hgt
  cases c
  case eq | ne => simp [heq, bne]
  case lt | gt => simp [hlt, hgt]
  case le | ge => simp [← Int.not_lt, hlt, hgt]
  case tst => rfl

theorem vectorMaskResults : Claims.VectorMaskResults := by
  refine ⟨fun u k a b s => ⟨rfl, rfl, rfl, rfl, rfl⟩, fun u k a s h => ?_, fun u c k a b t m s ht h => ?_, fun u a b m s h => ?_⟩
  · exact ⟨_, _, congrArg Host.Outcome.next (vecMask_eq h u k _), congrArg Host.Outcome.next (vecMask_eq h u k _),
      fun i hi => ⟨getLsbD_maskOf _ hi, getLsbD_maskOf _ hi⟩⟩
  · refine ⟨_, congrArg Host.Outcome.next (vecIssue_of_ready h _ rfl _), fun i hi => ?_⟩
    rw [getLsbD_maskOf _ hi, rdM_taken, bitOf_eq_getLsbD]
    refine congrArg (fun z => (s.core.a.rdM m).getLsbD i && z) ?_
    cases t
    case f32 => cases c <;> simp [VCond.evalF32, eqv_comm]
    case i32 | ui32 => exact (if_neg (by decide)).trans ((evalInt_eq _ c _ _).trans (by cases c <;> rfl))
    all_goals cases ht
  · refine ⟨_, _, congrArg Host.Outcome.next (vecIssue_of_ready h _ rfl _), check_taken .., fun i hi => ?_, fun hn i hi => ?_⟩
    · simp only [bitOf_eq_getLsbD, rdM_taken, List.find?_range_eq_some, List.mem_range, Bool.not_eq_true'] at hi
      exact ⟨hi.2.1, hi.1, hi.2.2⟩
    · simp only [bitOf_eq_getLsbD, rdM_taken, List.find?_range_eq_none, Bool.not_eq_true'] at hn
      exact hn i hi

/-- Settles O11: what conversions, block formats and masks pack into a vector is read back digit by digit. -/
theorem vectorFormatAndMaskResults : Obligations.VectorFormatAndMaskResults :=
  ⟨vectorConvertResults, vectorBlockResults, vectorMaskResults⟩

end Sys2Proof.Machine
end

section
/-!
LEMMAS. The fixed tree of the reductions and the scan, and the fused and the elementary functions of the vector slots (spec/03 R73, R74,
spec/08 R164, R174, R175).
-/
open Sys2Proof

namespace Sys2Proof.Machine

/-! ### The fixed tree -/

section Tree

variable (op : Lane → Lane → Lane)

theorem fixedNode_pairs (f : Nat → Lane) (l i : Nat) :
    fixedNode op (fun j => op (f (2 * j)) (f (2 * j + 1))) l i = fixedNode op f (l + 1) i := by
  induction l generalizing i with
  | zero => rfl
  | succ l ih => exact congrArg₂ op (ih _) (ih _)

theorem treeLevel_map_range (n : Nat) (f : Nat → Lane) :
    treeLevel op ((List.range (2 * n)).map f) = (List.range n).map (fun i => op (f (2 * i)) (f (2 * i + 1))) := by
  induction n generalizing f with
  | zero => rfl
  | succ n ih =>
    have e : (List.range (2 * (n + 1))).map f = f 0 :: f 1 :: (List.range (2 * n)).map (fun i => f (i + 2)) := by
      rw [Nat.mul_add, Nat.mul_one, List.range_succ_eq_map, List.range_succ_eq_map]
      simp [Function.comp_def]
    rw [e, List.range_succ_eq_map]
    simp only [treeLevel, List.map_cons, List.map_map, ih]
    rfl

/-- Level `l` of the tree over `2 ^ k` lanes has the nodes of that level. -/
theorem treeLevels_getElem? (k : Nat) (f : Nat → Lane) {l : Nat} (h : l ≤ k) :
    (treeLevels op k ((List.range (2 ^ k)).map f))[l]? = some ((List.range (2 ^ (k - l))).map (fixedNode op f l)) := by
  induction k generalizing f l with
  | zero =>
    obtain rfl := Nat.le_zero.1 h
    rfl
  | succ k ih =>
    cases l with
    | zero => rfl
    | succ l =>
      have e : treeLevels op (k + 1) ((List.range (2 ^ (k + 1))).map f) = (List.range (2 ^ (k + 1))).map f ::
          treeLevels op k ((List.range (2 ^ k)).map (fun i => op (f (2 * i)) (f (2 * i + 1)))) := by
        rw [treeLevels, Nat.pow_succ', treeLevel_map_range]
      rw [e, List.getElem?_cons_succ, ih _ (by omega), Nat.add_sub_add_right]
      exact congrArg some (List.map_congr_left (fun i _ => fixedNode_pairs op f l i))

theorem treeLevels_seven (f : Nat → Lane) {l : Nat} (h : l ≤ 7) :
    (treeLevels op 7 ((List.range 128).map f))[l]? = some ((List.range (2 ^ (7 - l))).map (fixedNode op f l)) :=
  treeLevels_getElem? op 7 f h

theorem treeLevels_length (k : Nat) (xs : List Lane) : (treeLevels op k xs).length = k + 1 := by
  induction k generalizing xs with
  | zero => rfl
  | succ k ih => simp [treeLevels, ih]

theorem treeRoot_eq (f : Nat → Lane) : treeRoot op ((List.range 128).map f) = fixedNode op f 7 0 := by
  unfold treeRoot
  rw [List.getLast?_eq_getElem?, treeLevels_length, treeLevels_seven op f (by decide)]
  rfl

theorem treePrefix_eq (f : Nat → Lane) (l : Nat) {start n : Nat} (hl : l ≤ 8) (h : start + n ≤ 128) (acc : Option Lane) :
    treePrefix op (treeLevels op 7 ((List.range 128).map f)) l start n acc = (fixedCover op f l start n acc).getD 0 := by
  induction l generalizing start n acc with
  | zero => rfl
  | succ l ih =>
    rw [treePrefix, fixedCover]
    split
    next hn =>
      have hlt : start / 2 ^ l < 2 ^ (7 - l) := by
        rw [Nat.div_lt_iff_lt_mul (Nat.two_pow_pos l), ← Nat.pow_add, Nat.sub_add_cancel (by omega)]
        have := Nat.two_pow_pos l
        omega
      have hx : ((treeLevels op 7 ((List.range 128).map f)).getD l []).getD (start / 2 ^ l) 0 = fixedNode op f l (start / 2 ^ l) := by
        rw [List.getD_eq_getElem?_getD, List.getD_eq_getElem?_getD, treeLevels_seven op f (by omega), Option.getD_some,
          List.getElem?_map, List.getElem?_range hlt]
        rfl
      dsimp only
      rw [hx, ih (by omega) (by omega)]
      cases acc <;> rfl
    next => exact ih (by omega) h acc

theorem treeScan_getD (f : Nat → Lane) {i : Nat} (h : i < 128) :
    (treeScan op ((List.range 128).map f)).getD i 0 = (fixedCover op f 8 0 (i + 1) none).getD 0 := by
  unfold treeScan
  dsimp only
  rw [List.getD_eq_getElem?_getD, List.getElem?_map, List.getElem?_range h]
  exact treePrefix_eq op f 8 le_rfl (by omega) none

end Tree

/-! ### Fused sums and elementary functions -/

theorem elemNum_eq_decode {t : VType} {f : FpFmt} (h : vfmt t = some f) (x : Nat) : elemNum t x = f.decode x := by
  rw [elemNum, h]

theorem laneElem_f32 (x : Lane) : laneElem .f32 x 0 = x.toNat := laneElem_i32 x

theorem laneOf_f32 (f : Nat → Nat) : laneOf .f32 f = BitVec.ofNat 32 (f 0) := laneOf_i32 f

/-- A function of one FP32 lane, rounded once. -/
theorem vec1_f32 {s : State} {d : VDst} {a : VSrc} (h : s.core.operandsReady [a] d = true) (slot : Nat) (m : MaskReg) (lat : Nat)
    (f : ExtNum → ExtNum) :
    s.vec1 slot d a .f32 m lat (fun c => f32.round .rne (f (num32 c))) = (s.taken [a]).delivers lat slot d .f32 (s.core.a.rdM m)
      (underMask (s.core.a.rdM m) (s.core.readV a)
        (fun i => BitVec.ofNat 32 (f32.round .rne (f (num32 ((s.core.readV a).lane i).toNat))))) :=
  vec1_eq h slot .f32 m lat (f := fun c => f32.round .rne (f (num32 c)))
    (F := fun x => BitVec.ofNat 32 (f32.round .rne (f (num32 x.toNat)))) (fun x => by rw [laneOf_f32, laneElem_f32])

theorem vectorFmaAndTranscendentals : Claims.VectorFmaAndTranscendentals := by
  refine ⟨fun u c a b t f m s hf h => congrArg Host.Outcome.next ?_, fun d a m s h => ?_⟩
  · rw [vecIssue_of_ready h _ rfl]
    dsimp only
    rw [rdM_taken, deliver_shadowElems, masked_eq_underMask]
    simp only [elemNum_eq_decode hf, hf]
    rfl
  · exact ⟨congrArg Host.Outcome.next (vec1_f32 h 3 m 12 _), congrArg Host.Outcome.next (vec1_f32 h 3 m 12 _),
      congrArg Host.Outcome.next (vec1_f32 h 3 m 12 _), congrArg Host.Outcome.next (vec1_f32 h 3 m 12 _)⟩

/-! ### Reductions -/

/-- What the shadow checks of a reduction: every element of a floating-point one. -/
theorem reduction_checks {t : VType} (ht : t.isWhole = true) (c : Core) (x : Vec) :
    (if t = .f32 then checkedAs .f32 else unchecked) c x = shadowElems t (BitVec.allOnes 128) x := by
  cases t
  case i32 | f32 | ui32 => rfl
  all_goals cases ht

theorem reduction_eq {s : State} {d : VDst} {a : VSrc} {t : VType} (ht : t.isWhole = true) (h : s.core.operandsReady [a] d = true)
    (f : Core → List Vec → Vec) :
    s.vecWhole 2 [a] d 8 (if t = .f32 then checkedAs .f32 else unchecked) f =
      (s.taken [a]).delivers 8 2 d t (BitVec.allOnes 128) (f (s.taken [a]).core [s.core.readV a]) := by
  unfold State.vecWhole
  rw [vecIssue_of_ready h _ rfl, reduction_checks ht, deliver_shadowElems]
  rfl

/-- The nodes of the sum and of the maximum, and the identities of masked-off lanes. -/
theorem sumNode_eq (t : VType) (x y : Lane) : sumNode t x y =
    if t == .f32 then BitVec.ofNat 32 (f32.round .rne (ExtNum.add .rne (num32 x.toNat) (num32 y.toNat))) else x + y := by
  simp only [sumNode, beq_iff_eq]
  rfl

theorem maxNode_eq {t : VType} (ht : t.isWhole = true) (x y : Lane) : maxNode t x y =
    if t == .f32 then BitVec.ofNat 32 (f32.round .rne ((num32 x.toNat).max (num32 y.toNat)))
    else if lessIn t x y then y else x := by
  cases t
  case f32 => rfl
  case i32 =>
    change (if intOf .i32 x.toNat < intOf .i32 y.toNat then y else x) = if lessIn .i32 x y then y else x
    exact if_congr (intOf_lt_iff .i32 x y) rfl rfl
  case ui32 =>
    change (if intOf .ui32 x.toNat < intOf .ui32 y.toNat then y else x) = if lessIn .ui32 x y then y else x
    exact if_congr (intOf_lt_iff .ui32 x y) rfl rfl
  all_goals cases ht

theorem treeLanes_eq (g : Mask) (e : Lane) (v : Vec) :
    treeLanes g e v = (List.range 128).map (fun i => if g.getLsbD i then v.lane i else e) := by
  simp only [treeLanes, bitOf_eq_getLsbD]

theorem ofFn_congr {f g : Nat → Lane} (h : ∀ i, i < 128 → f i = g i) : Vec.ofFn f = Vec.ofFn g := by
  unfold Vec.ofFn
  rw [List.foldr_ext (fun i acc => acc * 2 ^ 32 + (f i).toNat) (fun i acc => acc * 2 ^ 32 + (g i).toNat)]
  intro i hi acc
  rw [h i (List.mem_range.1 hi)]

theorem vectorReductionResults : Claims.VectorReductionResults := by
  intro d a t m s ht h x f addF maxF lanes zero least out
  have hadd : sumNode t = addF := funext fun x => funext fun y => sumNode_eq t x y
  have hmax : maxNode t = maxF := funext fun x => funext fun y => maxNode_eq ht x y
  have hzero : sumIdent t = zero := by simp only [sumIdent, zero, f, beq_iff_eq]; rfl
  have hleast : maxIdent t = least := by simp only [maxIdent, least, f, beq_iff_eq]; rfl
  refine ⟨?_, ?_, ?_⟩ <;> refine congrArg Host.Outcome.next ((reduction_eq ht h _).trans ?_) <;>
    rw [rdM_taken, treeLanes_eq]
  · rw [treeRoot_eq, hadd, hzero]
    rfl
  · rw [treeRoot_eq, hmax, hleast]
    rfl
  · rw [hadd, hzero]
    exact congrArg (fun y => (s.taken [a]).delivers 8 2 d t (BitVec.allOnes 128) y) (ofFn_congr (fun i hi => treeScan_getD addF _ hi))

/-- Settles O12: the levels of the tree are its nodes, and each function rounds once. -/
theorem vectorSumsAndFunctions : Obligations.VectorSumsAndFunctions :=
  ⟨vectorFmaAndTranscendentals, vectorReductionResults⟩

end Sys2Proof.Machine
end

section
/-!
LEMMAS. The exact sum of finite terms as a rational, and what it becomes when a term is no number (spec/03 R67).
-/
open Sys2Proof

namespace Sys2Proof.Machine

/-- Adding one term keeps the sum that is still to be made. -/
theorem sumFin_cons (s : Bool) (n : Nat) {d : Nat} (hd : d ≠ 0) (ts : List ExtNum) (x : Int) {q : Nat} (hq : q ≠ 0) :
    ∃ (y : Int) (e : Nat), e ≠ 0 ∧ sumFin (.fin s n d :: ts) (x, q) = sumFin ts (y, e) ∧ (y : ℚ) / e = (x : ℚ) / q + (snum s n : ℚ) / d := by
  have hd' : (d : ℚ) ≠ 0 := Nat.cast_ne_zero.2 hd
  have hq' : (q : ℚ) ≠ 0 := Nat.cast_ne_zero.2 hq
  rw [sumFin]
  split
  next h =>
    subst h
    refine ⟨_, _, hd, rfl, ?_⟩
    push_cast
    field_simp
  next =>
    split
    next h =>
      obtain ⟨k, rfl⟩ := Nat.dvd_of_mod_eq_zero h
      refine ⟨_, _, hq, rfl, ?_⟩
      rw [Nat.mul_div_cancel_left k (Nat.pos_of_ne_zero hd)]
      push_cast at hq' ⊢
      have hk : (k : ℚ) ≠ 0 := right_ne_zero_of_mul hq'
      field_simp
    next =>
      split
      next h =>
        obtain ⟨k, rfl⟩ := Nat.dvd_of_mod_eq_zero h
        refine ⟨_, _, hd, rfl, ?_⟩
        rw [Nat.mul_div_cancel_left k (Nat.pos_of_ne_zero hq)]
        push_cast at hd' ⊢
        have hk : (k : ℚ) ≠ 0 := right_ne_zero_of_mul hd'
        field_simp
      next =>
        refine ⟨_, _, Nat.mul_ne_zero hq hd, rfl, ?_⟩
        push_cast
        field_simp

theorem sumFin_val {ts : List ExtNum} {qs : List ℚ} (h : ts.map ExtNum.val? = qs.map some) (x : Int) {q : Nat} (hq : q ≠ 0) :
    (sumFin ts (x, q)).2 ≠ 0 ∧ ((sumFin ts (x, q)).1 : ℚ) / (sumFin ts (x, q)).2 = (x : ℚ) / q + qs.sum := by
  induction ts generalizing qs x q with
  | nil =>
    obtain rfl : qs = [] := List.map_eq_nil_iff.1 h.symm
    exact ⟨hq, by simp [sumFin]⟩
  | cons t ts ih =>
    cases qs with
    | nil => cases h
    | cons p qs =>
      rw [List.map_cons, List.map_cons, List.cons.injEq] at h
      obtain ⟨s, n, d, rfl, hd, rfl⟩ := exists_fin_of_val h.1
      obtain ⟨y, e, he, hs, hv⟩ := sumFin_cons s n hd ts x hq
      obtain ⟨hne, hval⟩ := ih h.2 y he
      rw [hs, List.sum_cons, hval, hv, add_assoc]
      exact ⟨hne, rfl⟩

/-- A list of numbers holds no NaN and no infinity. -/
theorem ne_of_vals {ts : List ExtNum} {qs : List ℚ} (h : ts.map ExtNum.val? = qs.map some) {t : ExtNum} (ht : t ∈ ts) :
    t ≠ .nan ∧ ∀ s, t ≠ .inf s := by
  have hm : t.val? ∈ qs.map some := h ▸ List.mem_map_of_mem ht
  obtain ⟨q, -, hq⟩ := List.mem_map.1 hm
  refine ⟨?_, fun s => ?_⟩ <;> rintro rfl <;> cases hq

theorem any_isNaN_iff (ts : List ExtNum) : ts.any ExtNum.isNaN = true ↔ .nan ∈ ts := by
  rw [List.any_eq_true]
  constructor
  · rintro ⟨t, ht, hn⟩
    cases t
    case nan => exact ht
    all_goals cases hn
  · exact fun h => ⟨_, h, rfl⟩

theorem any_inf_iff (ts : List ExtNum) (s : Bool) : ts.any (fun t => t = .inf s) = true ↔ .inf s ∈ ts := by
  simp [List.any_eq_true]

/-- The sum of numbers: the rounded exact sum, or a zero. -/
theorem exactSum_of_vals {ts : List ExtNum} {qs : List ℚ} (h : ts.map ExtNum.val? = qs.map some) :
    exactSum ts = if (sumFin ts (0, 1)).1 = 0 then if ts.all ExtNum.isNeg then 0x80000000#32 else 0
      else to32 (.fin (decide ((sumFin ts (0, 1)).1 < 0)) (sumFin ts (0, 1)).1.natAbs (sumFin ts (0, 1)).2) := by
  have hn : ¬ts.any ExtNum.isNaN = true := fun hn => (ne_of_vals h ((any_isNaN_iff ts).1 hn)).1 rfl
  have hi (s : Bool) : ts.any (fun t => t = .inf s) = false :=
    eq_false_of_ne_true (fun hs => (ne_of_vals h ((any_inf_iff ts s).1 hs)).2 s rfl)
  unfold exactSum
  rw [if_neg hn, hi, hi]
  rfl

/-- Settles O17: the running fraction is the rational sum of the terms, and the tests for NaN and infinities come before it. -/
theorem exactSumRoundsOnce : Obligations.ExactSumRoundsOnce := by
  refine ⟨fun ts qs h => ?_, fun ts => ⟨fun hn => ?_, fun hp hm => ?_, fun hn hp hm => ?_, fun hn hp hm => ?_⟩⟩
  · obtain ⟨hne, hval⟩ := sumFin_val h 0 Nat.one_ne_zero
    have hne' : ((sumFin ts (0, 1)).2 : ℚ) ≠ 0 := Nat.cast_ne_zero.2 hne
    have hsum : ((sumFin ts (0, 1)).1 : ℚ) / (sumFin ts (0, 1)).2 = qs.sum := by simpa using hval
    have hzero : (sumFin ts (0, 1)).1 = 0 ↔ qs.sum = 0 := by
      rw [← hsum, div_eq_zero_iff, or_iff_left hne', Int.cast_eq_zero]
    rw [exactSum_of_vals h]
    refine ⟨fun h0 => ⟨_, ?_, if_neg (mt hzero.1 h0)⟩, fun h0 => if_pos (hzero.2 h0)⟩
    rw [val_fin _ _ hne, snum_natAbs, hsum]
  · exact if_pos ((any_isNaN_iff ts).2 hn)
  all_goals unfold exactSum; dsimp only
  · rw [(any_inf_iff ts _).2 hp, (any_inf_iff ts _).2 hm]
    simp
  · rw [if_neg (mt (any_isNaN_iff ts).1 hn), (any_inf_iff ts _).2 hp, eq_false_of_ne_true (mt (any_inf_iff ts _).1 hm)]
    rfl
  · rw [if_neg (mt (any_isNaN_iff ts).1 hn), (any_inf_iff ts _).2 hm, eq_false_of_ne_true (mt (any_inf_iff ts _).1 hp)]
    rfl

end Sys2Proof.Machine
end

section
/-!
LEMMAS. Windows, the faults of the mem slot at issue, and poisoned granules of the own scratchpad (spec/05 R98, R99, R107, R123).
-/
open Sys2Proof

namespace Sys2Proof.Machine

/-! ### Windows (R98) -/

theorem windowOf_cases (va : Nat) :
    (va < 0x00F0000000000000 ∧ windowOf va = .user) ∨
      ((0x00F0000000000000 ≤ va ∧ va < 0x00F0000000400000) ∧ windowOf va = .spad (va - 0x00F0000000000000)) ∨
      ((0x00F8000000000000 ≤ va ∧ va < 0x00FC000000000000) ∧ windowOf va = .host) ∨
      (((0x00F0000000400000 ≤ va ∧ va < 0x00F8000000000000) ∨ 0x00FC000000000000 ≤ va) ∧
        windowOf va ≠ .user ∧ (∀ o, windowOf va ≠ .spad o) ∧ windowOf va ≠ .host) := by
  have eUser : Config.userEnd = 0x00F0000000000000 := rfl
  have eSpad : Config.spadBase = 0x00F0000000000000 ∧ Config.spadBytes = 0x400000 := ⟨rfl, rfl⟩
  have eVrf : Config.vrfBase = 0x00F0000001000000 ∧ Config.vrfBytes = 0x200000 := ⟨rfl, rfl⟩
  have eOther : Config.otherBase + 2 ^ 40 = 0x00F1010000000000 := rfl
  have eHost : Config.hostBase = 0x00F8000000000000 ∧ Config.peerBase = 0x00FC000000000000 := ⟨rfl, rfl⟩
  unfold windowOf
  by_cases h0 : va < Config.userEnd
  · exact .inl ⟨by omega, if_pos h0⟩
  rw [if_neg h0]
  by_cases h1 : va < Config.spadBase + Config.spadBytes
  · exact .inr (.inl ⟨by omega, if_pos h1⟩)
  rw [if_neg h1]
  by_cases h2 : Config.hostBase ≤ va ∧ va < Config.peerBase
  · exact .inr (.inr (.inl ⟨by omega, by rw [if_neg (by omega), if_neg (by omega), if_pos h2]⟩))
  refine .inr (.inr (.inr ⟨by omega, ?_⟩))
  rw [if_neg h2]
  split
  · simp
  · split
    · split <;> simp
    · split <;> simp

theorem windowOf_eq_user_iff (va : Nat) : windowOf va = .user ↔ va < 0x00F0000000000000 := by
  rcases windowOf_cases va with ⟨h, e⟩ | ⟨h, e⟩ | ⟨h, e⟩ | ⟨h, e, -⟩ <;> simp only [e, true_iff, false_iff, reduceCtorEq] <;> omega

theorem windowOf_eq_host_iff (va : Nat) : windowOf va = .host ↔ 0x00F8000000000000 ≤ va ∧ va < 0x00FC000000000000 := by
  rcases windowOf_cases va with ⟨h, e⟩ | ⟨h, e⟩ | ⟨h, e⟩ | ⟨h, -, -, e⟩ <;> simp only [e, true_iff, false_iff, reduceCtorEq] <;> omega

theorem windowOf_eq_spad_iff (va : Nat) : (∃ o, windowOf va = .spad o) ↔ 0x00F0000000000000 ≤ va ∧ va < 0x00F0000000400000 := by
  rcases windowOf_cases va with ⟨h, e⟩ | ⟨h, e⟩ | ⟨h, e⟩ | ⟨h, -, e, -⟩
  · simp only [e, reduceCtorEq, exists_false, false_iff]
    omega
  · exact iff_of_true ⟨_, e⟩ h
  · simp only [e, reduceCtorEq, exists_false, false_iff]
    omega
  · simp only [e, exists_false, false_iff]
    omega

theorem memReach_iff (va n : Nat) (hn : 0 < n) : memReach va n = true ↔ reaches va n := by
  have hm : memReach va n = true ↔ (windowOf va = .user ∧ windowOf (va + n - 1) = .user) ∨
      ((∃ o, windowOf va = .spad o) ∧ ∃ o, windowOf (va + n - 1) = .spad o) ∨ (windowOf va = .host ∧ windowOf (va + n - 1) = .host) := by
    unfold memReach
    cases windowOf va <;> cases windowOf (va + n - 1) <;> simp
  rw [hm, windowOf_eq_user_iff, windowOf_eq_user_iff, windowOf_eq_spad_iff, windowOf_eq_spad_iff, windowOf_eq_host_iff,
    windowOf_eq_host_iff, reaches]
  omega

theorem inSpad_iff (va : Nat) : inSpad va = true ↔ 0x00F0000000000000 ≤ va ∧ va < 0x00F0000000400000 := by
  have e : Config.spadBase = 0x00F0000000000000 ∧ Config.spadBytes = 0x400000 := ⟨rfl, rfl⟩
  unfold inSpad
  rw [decide_eq_true_iff]
  omega

/-! ### Faults at issue (R40, R99, R107) -/

theorem hitsBarrier_eq_false_iff (a : Arch) (off n : Nat) : a.hitsBarrier off n = false ↔ off + n ≤ a.barBase ∨ a.barBase + 512 ≤ off := by
  simp only [Arch.hitsBarrier, barrierHit, decide_eq_false_iff_not]
  omega

theorem hitsView_iff (a : Arch) (va n : Nat) : a.hitsView va n = true ↔ ∃ w ∈ a.views, w.base < va + n ∧ va < w.base + w.size := by
  simp [Arch.hitsView]

theorem inViews_eq_false_iff (a : Arch) (va n : Nat) :
    a.inViews va n = false ↔ ∃ i, i < n ∧ ∀ w ∈ a.views, va + i < w.base ∨ w.base + w.size ≤ va + i := by
  simp only [Arch.inViews, Arch.viewAt, List.all_eq_false, List.mem_range, Bool.not_eq_true, Option.isSome_eq_false_iff, Option.isNone_iff_eq_none,
    List.find?_eq_none, Bool.and_eq_true, decide_eq_true_eq, not_and_or, Nat.not_le, Nat.not_lt]

theorem mergeBad_eq_false_iff (a : Arch) (va n : Nat) : a.mergeBad va n = false ↔ ∀ d z, a.merging = some (d, z) → d ≤ va ∧ va + n ≤ d + z := by
  unfold Arch.mergeBad
  cases a.merging with
  | none => simp
  | some x => simp [Prod.ext_iff]

theorem ownPlace_of_merging (a : Arch) (va n : Nat) {d z : Nat} (h : a.merging = some (d, z)) (hm : d ≤ va ∧ va + n ≤ d + z) :
    a.ownPlace va n = true := by
  simp [Arch.ownPlace, h, hm]

theorem ownPlace_eq_false_iff (a : Arch) (va n : Nat) (h : a.merging = none) :
    a.ownPlace va n = false ↔ ∀ w ∈ a.views, w.pool = true → va < w.addr ∨ w.addr + w.size < va + n := by
  simp only [Arch.ownPlace, h, Bool.or_false, List.any_eq_false, Bool.and_eq_true, decide_eq_true_eq, not_and]
  refine forall₂_congr (fun w _ => imp_congr_right (fun _ => ?_))
  omega

/-- The faults of R40 for a mem access, in order. -/
theorem memFault_eq (store spadOnly : Bool) (n align : Nat) (ea : Word) (s : State) :
    s.memFault store spadOnly n align ea =
      if !memReach ea.toNat n || (spadOnly && !inSpad ea.toNat) || (store && s.core.a.mergeBad ea.toNat n) ||
        (store && inSpad ea.toNat && s.core.a.hitsBarrier (spadOff ea) n) then some (.prot, ea)
      else if ea.toNat % align ≠ 0 then some (.misaligned, ea)
      else if s.core.a.frozen0 && s.core.a.hitsView ea.toNat n then some (.viewOrder, ea)
      else if store && s.restartable && !inSpad ea.toNat && !s.core.a.inViews ea.toNat n && !s.core.a.ownPlace ea.toNat n then
        some (.restartViolation, ea)
      else none := rfl

theorem memoryFaultOrder : Claims.MemoryFaultOrder := by
  intro s store spadOnly n align ea hn va a allowed early outside f
  have hprot : (!memReach va n || (spadOnly && !inSpad va) || (store && a.mergeBad va n) ||
      (store && inSpad va && a.hitsBarrier (spadOff ea) n)) = true ↔ ¬allowed := by
    rw [← not_iff_not, not_not, Bool.not_eq_true]
    simp only [Bool.or_eq_false_iff, Bool.and_eq_false_imp, Bool.not_eq_false', Bool.and_eq_true, and_imp, memReach_iff va n hn,
      mergeBad_eq_false_iff, hitsBarrier_eq_false_iff, allowed]
    constructor
    · rintro ⟨⟨⟨hreach, hspad⟩, hmerge⟩, hbar⟩
      exact ⟨hreach, hspad, fun h => ⟨hmerge h, hbar h⟩⟩
    · rintro ⟨hreach, hspad, hstore⟩
      exact ⟨⟨⟨hreach, hspad⟩, fun h => (hstore h).1⟩, fun h => (hstore h).2⟩
  have hearly : (a.frozen0 && a.hitsView va n) = true ↔ early := by
    rw [Bool.and_eq_true, hitsView_iff]
  have houtside (h : allowed) : (store && s.restartable && !inSpad va && !a.inViews va n && !a.ownPlace va n) = true ↔ outside := by
    simp only [Bool.and_eq_true, Bool.not_eq_true', inViews_eq_false_iff, outside]
    cases hm : a.merging with
    | none => simp only [ownPlace_eq_false_iff a va n hm, and_assoc, true_and]
    | some x =>
      refine iff_of_false ?_ (by simp)
      rintro ⟨⟨⟨⟨hst, -⟩, -⟩, -⟩, hown⟩
      rw [ownPlace_of_merging a va n hm ((h.2.2 hst).1 x.1 x.2 hm)] at hown
      cases hown
  have e : f = _ := memFault_eq store spadOnly n align ea s
  refine ⟨fun h => ?_, fun h ha => ?_, fun h ha he => ?_, fun h ha he ho => ?_, fun h ha he ho => ?_⟩
  · rw [e, if_pos (hprot.2 h)]
  · rw [e, if_neg (fun c => hprot.1 c h), if_pos ha]
  · rw [e, if_neg (fun c => hprot.1 c h), if_neg (not_not.2 ha), if_pos (hearly.2 he)]
  · rw [e, if_neg (fun c => hprot.1 c h), if_neg (not_not.2 ha), if_neg (mt hearly.1 he), if_pos ((houtside h).2 ho)]
  · rw [e, if_neg (fun c => hprot.1 c h), if_neg (not_not.2 ha), if_neg (mt hearly.1 he), if_neg (mt (houtside h).1 ho)]

theorem ea_eq_addr (s : State) (r : Reg) (o : BitVec 10) (u : Nat) : s.core.a.ea r o u = s.addr r o u := by
  rw [Arch.ea, State.addr, BitVec.ofInt_mul, BitVec.ofInt_natCast]
  rfl

/-! ### One equation for each way in which an access of the mem slot ends (R108, R111 to R115) -/

section Accesses

variable {s : State} {d a : Reg} {o : BitVec 10} {r : Order} {z : Size} {m : ScaleMode} {n : Nat} {signed : Bool} {c : Cause} {x : Word}

theorem loadScalar_fault (h : s.memFault false false n n (s.addr a o n) = some (c, x)) : s.loadScalar d a o r n signed = s.fault 1 c x := by
  unfold State.loadScalar
  simp only [ea_eq_addr, h]

theorem loadScalar_poison (h : s.memFault false false n n (s.addr a o n) = none) (hs : inSpad (s.addr a o n).toNat = true)
    (hp : s.core.spadPoisonIn (spadOff (s.addr a o n)) n = some (c, x)) : s.loadScalar d a o r n signed = s.fault 1 c x := by
  unfold State.loadScalar
  simp only [ea_eq_addr, h, hs, hp, if_true]

theorem loadScalar_spad (h : s.memFault false false n n (s.addr a o n) = none) (hs : inSpad (s.addr a o n).toNat = true)
    (hp : s.core.spadPoisonIn (spadOff (s.addr a o n)) n = none) :
    s.loadScalar d a o r n signed = (s.fly 6 1 [.s d (if signed then BitVec.ofInt 64 (signedOf (8 * n) (s.core.spadNat (spadOff (s.addr a o n)) n))
      else word (s.core.spadNat (spadOff (s.addr a o n)) n))]).spadAcquire (scopeOf r) := by
  unfold State.loadScalar
  simp only [ea_eq_addr, h, hs, hp, if_true]

theorem loadScalar_offCore (h : s.memFault false false n n (s.addr a o n) = none) (hs : inSpad (s.addr a o n).toNat = false) :
    s.loadScalar d a o r n signed = (s.markEmpty d).queueLoad (s.addr a o n) (.scalar d n signed) (scopeOf r) := by
  unfold State.loadScalar
  simp only [ea_eq_addr, h, hs, Bool.false_eq_true, if_false]

theorem exec_ld : exec (.ld d a o r z) s = .next (s.loadScalar d a o r (Size.bytes z) false) := rfl

theorem exec_lds : exec (.lds d a o r z) s = .next (s.loadScalar d a o r (Size.bytes z) true) := rfl

theorem storeBytes_poison {ea : Word} {k : Nat} (hs : inSpad ea.toNat = true) (hp : s.core.spadPoisonIn (spadOff ea) n = some (c, x)) :
    s.storeBytes ea n k r = s.fault 1 c x := by
  unfold State.storeBytes
  rw [if_pos hs, hp]

theorem storeBytes_spad {ea : Word} {k : Nat} (hs : inSpad ea.toNat = true) (hp : s.core.spadPoisonIn (spadOff ea) n = none) :
    s.storeBytes ea n k r = s.stage { PierEntry.blank with spad := true, cells := cellsOf (spadOff ea) n k, va := ea, rel := scopeOf r } := by
  unfold State.storeBytes
  rw [if_pos hs, hp]

theorem storeBytes_offCore {ea : Word} {k : Nat} (hs : inSpad ea.toNat = false) :
    s.storeBytes ea n k r = s.stage { PierEntry.blank with cells := cellsOf ea.toNat n k, va := ea, rel := scopeOf r } := by
  unfold State.storeBytes
  rw [if_neg (ne_true_of_eq_false hs)]

theorem exec_st_fault (h : s.memFault true false (Size.bytes z) (Size.bytes z) (s.addr a o (Size.bytes z)) = some (c, x)) :
    exec (.st d a o r z) s = .next (s.fault 1 c x) := by
  change execSt d a o r z s = _
  unfold execSt
  simp only [ea_eq_addr, h]

theorem exec_st_stores (h : s.memFault true false (Size.bytes z) (Size.bytes z) (s.addr a o (Size.bytes z)) = none) :
    exec (.st d a o r z) s = .next (s.storeBytes (s.addr a o (Size.bytes z)) (Size.bytes z) (s.core.a.rd d).toNat r) := by
  change execSt d a o r z s = _
  unfold execSt
  simp only [ea_eq_addr, h]

theorem exec_ldv_fault (h : s.memFault false false 512 64 (s.addr a o 64) = some (c, x)) :
    exec (.ldv d a o r) s = .next (s.fault 1 c x) := by
  change execLdv d a o r s = _
  unfold execLdv
  simp only [ea_eq_addr, h]

theorem exec_ldv_poison (h : s.memFault false false 512 64 (s.addr a o 64) = none) (hs : inSpad (s.addr a o 64).toNat = true)
    (hp : s.core.spadPoisonIn (spadOff (s.addr a o 64)) 512 = some (c, x)) : exec (.ldv d a o r) s = .next (s.fault 1 c x) := by
  change execLdv d a o r s = _
  unfold execLdv
  simp only [ea_eq_addr, h, hs, hp, if_true]

theorem exec_ldv_spad (h : s.memFault false false 512 64 (s.addr a o 64) = none) (hs : inSpad (s.addr a o 64).toNat = true)
    (hp : s.core.spadPoisonIn (spadOff (s.addr a o 64)) 512 = none) :
    exec (.ldv d a o r) s = .next ((s.fly 8 1 [.v d (BitVec.ofNat 4096 (s.core.spadNat (spadOff (s.addr a o 64)) 512))]).spadAcquire
      (scopeOf r)) := by
  change execLdv d a o r s = _
  unfold execLdv
  simp only [ea_eq_addr, h, hs, hp, if_true]

theorem exec_ldv_offCore (h : s.memFault false false 512 64 (s.addr a o 64) = none) (hs : inSpad (s.addr a o 64).toNat = false) :
    exec (.ldv d a o r) s = .next ((s.markEmptyV d).queueLoad (s.addr a o 64) (.vec d) (scopeOf r)) := by
  change execLdv d a o r s = _
  unfold execLdv
  simp only [ea_eq_addr, h, hs, Bool.false_eq_true, if_false]

theorem exec_stv_fault (h : s.memFault true false 512 64 (s.addr a o 64) = some (c, x)) :
    exec (.stv d a o r) s = .next (s.fault 1 c x) := by
  change execStv d a o r s = _
  unfold execStv
  simp only [ea_eq_addr, h]

theorem exec_stv_stores (h : s.memFault true false 512 64 (s.addr a o 64) = none) :
    exec (.stv d a o r) s = .next (s.storeBytes (s.addr a o 64) 512 (s.core.a.v[d]).toNat r) := by
  change execStv d a o r s = _
  unfold execStv
  simp only [ea_eq_addr, h]

theorem exec_ldx_fault (h : s.memFault false false 64 64 (s.addr a o 64) = some (c, x)) :
    exec (.ldx d a o r) s = .next (s.fault 1 c x) := by
  change execLdx d a o r s = _
  unfold execLdx
  simp only [ea_eq_addr, h]

theorem exec_ldx_spad (h : s.memFault false false 64 64 (s.addr a o 64) = none) (hs : inSpad (s.addr a o 64).toNat = true) :
    exec (.ldx d a o r) s = .next (s.expandSpad d a (s.addr a o 64) r) := by
  change execLdx d a o r s = _
  unfold execLdx
  simp only [ea_eq_addr, h, hs, if_true]

theorem exec_ldx_offCore (h : s.memFault false false 64 64 (s.addr a o 64) = none) (hs : inSpad (s.addr a o 64).toNat = false) :
    exec (.ldx d a o r) s = .next (((s.markEmptyV d).markEmpty a).queueLoad (s.addr a o 64) (.expand d a) (scopeOf r)) := by
  change execLdx d a o r s = _
  unfold execLdx
  simp only [ea_eq_addr, h, hs, Bool.false_eq_true, if_false]

theorem exec_ldt_fault (h : s.memFault false false 64 64 (s.addr a o 64) = some (c, x)) :
    exec (.ldt d a o r) s = .next (s.fault 1 c x) := by
  change execLdt d a o r s = _
  unfold execLdt
  simp only [ea_eq_addr, h]

theorem exec_ldt_poison (h : s.memFault false false 64 64 (s.addr a o 64) = none) (hs : inSpad (s.addr a o 64).toNat = true)
    (hp : s.core.spadPoisonIn (spadOff (s.addr a o 64)) 64 = some (c, x)) : exec (.ldt d a o r) s = .next (s.fault 1 c x) := by
  change execLdt d a o r s = _
  unfold execLdt
  simp only [ea_eq_addr, h, hs, hp, if_true]

theorem exec_ldt_spad (h : s.memFault false false 64 64 (s.addr a o 64) = none) (hs : inSpad (s.addr a o 64).toNat = true)
    (hp : s.core.spadPoisonIn (spadOff (s.addr a o 64)) 64 = none) :
    exec (.ldt d a o r) s = .next ((s.fly 6 1 [.s d (s.core.spadTag (spadOff (s.addr a o 64) / 64))]).spadAcquire (scopeOf r)) := by
  change execLdt d a o r s = _
  unfold execLdt
  simp only [ea_eq_addr, h, hs, hp, if_true]

theorem exec_ldt_offCore (h : s.memFault false false 64 64 (s.addr a o 64) = none) (hs : inSpad (s.addr a o 64).toNat = false) :
    exec (.ldt d a o r) s = .next ((s.markEmpty d).queueLoad (s.addr a o 64) (.tag d) (scopeOf r)) := by
  change execLdt d a o r s = _
  unfold execLdt
  simp only [ea_eq_addr, h, hs, Bool.false_eq_true, if_false]

theorem exec_stt_fault (h : s.memFault true true 64 64 (s.addr a o 64) = some (c, x)) :
    exec (.stt d a o r) s = .next (s.fault 1 c x) := by
  change execStt d a o r s = _
  unfold execStt
  simp only [ea_eq_addr, h]

theorem exec_stt_poison (h : s.memFault true true 64 64 (s.addr a o 64) = none)
    (hp : s.core.spadPoisonIn (spadOff (s.addr a o 64)) 64 = some (c, x)) : exec (.stt d a o r) s = .next (s.fault 1 c x) := by
  change execStt d a o r s = _
  unfold execStt
  obtain ⟨poisonIn, e⟩ := exists_eq (a' := Core.spadPoisonIn)
  rw [← e] at hp ⊢
  simp only [ea_eq_addr, h, hp]

theorem exec_stt_tag (h : s.memFault true true 64 64 (s.addr a o 64) = none)
    (hp : s.core.spadPoisonIn (spadOff (s.addr a o 64)) 64 = none) :
    exec (.stt d a o r) s = .next (if isPoison (s.core.a.rd d) then s.fault 1 .badTag (s.addr a o 64) else s.stage { PierEntry.blank with
      spad := true, va := s.addr a o 64, rel := scopeOf r, tags := [(spadOff (s.addr a o 64) / 64, s.core.a.rd d)] }) := by
  change execStt d a o r s = _
  unfold execStt
  obtain ⟨poisonIn, e⟩ := exists_eq (a' := Core.spadPoisonIn)
  rw [← e] at hp ⊢
  simp only [ea_eq_addr, h, hp]

theorem exec_stpk_fault (h : s.memFault true true 64 64 (s.addr a o 64) = some (c, x)) :
    exec (.stpk d a o r m) s = .next (s.fault 1 c x) := by
  change execStpk d a o r m s = _
  unfold execStpk
  simp only [ea_eq_addr, h]

end Accesses

theorem memoryInstructionsTrapAtIssue : Claims.MemoryInstructionsTrapAtIssue := by
  intro d a o r z m s c x n
  exact ⟨fun h => ⟨exec_ld.trans (congrArg _ (loadScalar_fault h)), exec_lds.trans (congrArg _ (loadScalar_fault h))⟩, exec_st_fault,
    exec_ldv_fault, exec_stv_fault, fun h => ⟨exec_ldx_fault h, exec_ldt_fault h⟩, fun h => ⟨exec_stt_fault h, exec_stpk_fault h⟩⟩

/-! ### Poisoned granules (R123) -/

/-- The lowest poisoned granule among some bytes is the one that is named. -/
theorem spadPoisonIn_of_first {c : Core} {off n g : Nat} (hg : isPoison (c.spadTag g) = true) (h : off / 64 ≤ g) (hn : g * 64 < off + n)
    (hfirst : ∀ j, off / 64 ≤ j → j < g → isPoison (c.spadTag j) = false) :
    c.spadPoisonIn off n = some (.poison, spadVa (64 * g)) := by
  have hidx (j : Nat) : c.spadPoison (off / 64 * 64 + 64 * j) = isPoison (c.spadTag (off / 64 + j)) := by
    rw [Core.spadPoison, show (off / 64 * 64 + 64 * j) / 64 = off / 64 + j by omega]
  have hfind : (List.range ((off + n - 1) / 64 + 1 - off / 64)).find? (fun j => c.spadPoison (off / 64 * 64 + 64 * j)) =
      some (g - off / 64) := by
    rw [List.find?_range_eq_some]
    refine ⟨?_, List.mem_range.2 (by omega), fun j hj => ?_⟩
    · rw [hidx, Nat.add_sub_cancel' h, hg]
    · rw [hidx, hfirst _ (by omega) (by omega)]
      rfl
  rw [Core.spadPoisonIn, hfind, Option.map_some, show off / 64 * 64 + 64 * (g - off / 64) = 64 * g by omega]

theorem spadPoisonIn_of_clean {c : Core} {off n : Nat} (hn : 0 < n) (h : c.clean off n) : c.spadPoisonIn off n = none := by
  have hfind : (List.range ((off + n - 1) / 64 + 1 - off / 64)).find? (fun j => c.spadPoison (off / 64 * 64 + 64 * j)) = none := by
    rw [List.find?_range_eq_none]
    intro j hj
    have hin : max off (off / 64 * 64 + 64 * j) - off < n := by omega
    have hgran : (off + (max off (off / 64 * 64 + 64 * j) - off)) / 64 = off / 64 + j := by omega
    have := h _ hin
    rw [hgran] at this
    rw [Core.spadPoison, show (off / 64 * 64 + 64 * j) / 64 = off / 64 + j by omega, this]
    rfl
  rw [Core.spadPoisonIn, hfind]
  rfl

theorem poisonTraps : Claims.PoisonTraps := by
  intro d a o r z s g first
  refine ⟨?_, ?_⟩
  · intro n ea hs hfirst
    obtain ⟨hg, hlo, hhi, hall⟩ := hfirst
    have hp := spadPoisonIn_of_first hg hlo hhi hall
    refine ⟨fun hf i hi => ?_, fun hf => (exec_st_stores hf).trans (congrArg _ (storeBytes_poison hs hp))⟩
    simp only [List.mem_cons, List.not_mem_nil, or_false] at hi
    rcases hi with rfl | rfl
    · exact exec_ld.trans (congrArg _ (loadScalar_poison hf hs hp))
    · exact exec_lds.trans (congrArg _ (loadScalar_poison hf hs hp))
  · intro ea hs
    refine ⟨fun hfirst => ?_, fun hf hc hb => ?_, fun hfirst => ?_⟩
    · obtain ⟨hg, hlo, hhi, hall⟩ := hfirst
      have hp := spadPoisonIn_of_first hg hlo hhi hall
      exact ⟨fun hf => exec_ldv_poison hf hs hp, fun hf => (exec_stv_stores hf).trans (congrArg _ (storeBytes_poison hs hp))⟩
    · exact (exec_stt_tag hf (spadPoisonIn_of_clean (by decide) hc)).trans (congrArg _ (if_pos hb))
    · obtain ⟨hg, hlo, hhi, hall⟩ := hfirst
      have hp := spadPoisonIn_of_first hg hlo hhi hall
      exact ⟨fun hf => exec_ldt_poison hf hs hp, fun hf => exec_stt_poison hf hp⟩

end Sys2Proof.Machine
end

section
/-!
LEMMAS. The traps of tagged and gathered accesses of the own scratchpad (spec/05 R113, R114, R116).
-/
open Sys2Proof

namespace Sys2Proof.Machine

/-! ### The first of some numbers that a rule stops -/

theorem findSome?_range_of_first {α : Type} {f : Nat → Option α} {x : α} {n j : Nat} (hj : j < n) (hf : f j = some x)
    (h : ∀ i, i < j → f i = none) : (List.range n).findSome? f = some x := by
  induction n with
  | zero => exact absurd hj (Nat.not_lt_zero j)
  | succ n ih =>
    rw [List.range_succ, List.findSome?_append]
    rcases Nat.lt_succ_iff_lt_or_eq.1 hj with hlt | rfl
    · rw [ih hlt]
      rfl
    · rw [List.findSome?_eq_none_iff.2 (fun i hi => h i (List.mem_range.1 hi))]
      simpa using hf

theorem zip_range_map {α : Type} (n : Nat) (f : Nat → α) :
    (List.range ((List.range n).map f).length).zip ((List.range n).map f) = (List.range n).map (fun j => (j, f j)) := by
  rw [List.length_map, List.length_range]
  conv_lhs => rw [← List.map_id (List.range n)]
  rw [List.map_map, List.zip_map']
  rfl

/-! ### Tags of the granules of an access -/

theorem ofCode_of_isPoison {t : Word} (h : isPoison t = true) : Fmt.ofCode (tagFmt t) = none := by
  rw [show tagFmt t = 0xFF from beq_iff_eq.1 h]
  rfl

theorem isPoison_of_ofCode {t : Word} {f : Fmt} (h : Fmt.ofCode (tagFmt t) = some f) : isPoison t = false := by
  refine eq_false_of_ne_true (fun hp => ?_)
  rw [ofCode_of_isPoison hp] at h
  cases h

theorem isPoison_of_tagValidFmt {t : Word} {f : Fmt} (h : tagValidFmt t = some f) : isPoison t = false := by
  refine eq_false_of_ne_true (fun hp => ?_)
  simp [tagValidFmt, tagHeadFmt, ofCode_of_isPoison hp] at h

/-- What an access without a fault is known to be. -/
theorem of_memFault_none {s : State} {store spadOnly : Bool} {n align : Nat} {ea : Word}
    (h : s.memFault store spadOnly n align ea = none) :
    memReach ea.toNat n = true ∧ (spadOnly = true → inSpad ea.toNat = true) ∧ ea.toNat % align = 0 := by
  rw [memFault_eq] at h
  split at h
  · cases h
  next hprot =>
    split at h
    · cases h
    next hal =>
      simp only [Bool.or_eq_true, Bool.and_eq_true, not_or, not_and, Bool.not_eq_true, Bool.not_eq_false', Bool.not_eq_false] at hprot
      obtain ⟨⟨⟨hreach, hspad⟩, -⟩, -⟩ := hprot
      exact ⟨by simpa using hreach, by simpa using hspad, not_not.1 hal⟩

theorem toNat_of_inSpad {ea : Word} (h : inSpad ea.toNat = true) : ea.toNat = Config.spadBase + spadOff ea ∧ spadOff ea < Config.spadBytes := by
  have := decide_eq_true_iff.1 h
  unfold spadOff
  omega

/-- The tag of granule `j` of an access that begins at a granule. -/
theorem spadGranule_tag (c : Core) (off j : Nat) : (c.spadGranule (off + 64 * j)).2 = c.spadTag (off / 64 + j) := by
  rw [Core.spadGranule, show (off + 64 * j) / 64 = off / 64 + j by omega]

/-! ### LDX (R113) -/

section Expand

variable {s : State} {d a : Reg} {ea : Word} {r : Order} {f : Fmt} {c : Cause} {x : Word}

/-- The granules that an LDX reads. -/
def Core.expandGranules (c : Core) (off : Nat) (f : Fmt) : List (Granule × Word) :=
  (List.range (128 / f.elems)).map (fun j => c.spadGranule (off + 64 * j))

theorem expandSpad_poison (h : isPoison (s.core.spadTag (spadOff ea / 64)) = true) : s.expandSpad d a ea r = s.fault 1 .poison ea := by
  unfold State.expandSpad
  simp only [ofCode_of_isPoison h, h, if_true]

theorem expandSpad_noFormat (h : Fmt.ofCode (tagFmt (s.core.spadTag (spadOff ea / 64))) = none)
    (hp : isPoison (s.core.spadTag (spadOff ea / 64)) = false) : s.expandSpad d a ea r = s.fault 1 .badTag ea := by
  unfold State.expandSpad
  simp only [h, hp, Bool.false_eq_true, if_false]

theorem expandSpad_outside (h : Fmt.ofCode (tagFmt (s.core.spadTag (spadOff ea / 64))) = some f)
    (hr : memReach ea.toNat (64 * (128 / f.elems)) = false) : s.expandSpad d a ea r = s.fault 1 .prot ea := by
  unfold State.expandSpad
  simp only [h, hr, Bool.not_false, if_true]

theorem expandSpad_reads (h : Fmt.ofCode (tagFmt (s.core.spadTag (spadOff ea / 64))) = some f)
    (hr : memReach ea.toNat (64 * (128 / f.elems)) = true) :
    s.expandSpad d a ea r = match expandFaults f ea ((s.core.expandGranules (spadOff ea) f).map Prod.snd) with
      | some (c, x) => s.fault 1 c x
      | none => (s.fly 8 1 [.v d (expandVec f (s.core.expandGranules (spadOff ea) f)), .s a (ea + word (64 * (128 / f.elems)))]).spadAcquire
          (scopeOf r) := by
  unfold State.expandSpad
  simp only [h, hr, Bool.not_true, Bool.false_eq_true, if_false]
  rfl

/-- The faults of the tags, one for each granule. -/
theorem expandFaults_eq (c : Core) (off : Nat) (f : Fmt) (ea : Word) :
    expandFaults f ea ((c.expandGranules off f).map Prod.snd) =
      (List.range (128 / f.elems)).findSome? (fun j => expandFault f (c.spadTag (off / 64 + j)) (ea + BitVec.ofNat 64 (64 * j))) := by
  unfold expandFaults Core.expandGranules
  rw [List.map_map, zip_range_map, List.findSome?_map]
  simp only [Function.comp_def, spadGranule_tag]
  rfl

theorem expandFault_poison {t va : Word} (h : isPoison t = true) : expandFault f t va = some (.poison, va) := by
  rw [expandFault, if_pos h]

theorem expandFault_bad {t va : Word} (hp : isPoison t = false) (h : tagValidFmt t ≠ some f) : expandFault f t va = some (.badTag, va) := by
  rw [expandFault, if_neg (ne_true_of_eq_false hp)]
  cases ht : tagValidFmt t with
  | none => rfl
  | some g => exact if_neg (fun e => h (by rw [ht, e]))

theorem expandFault_ok {t va : Word} (h : tagValidFmt t = some f) : expandFault f t va = none := by
  rw [expandFault, if_neg (ne_true_of_eq_false (isPoison_of_tagValidFmt h)), h]
  exact if_pos rfl

end Expand

section ExpandTraps

variable {s : State} {d a : Reg} {o : BitVec 10} {r : Order} {f : Fmt} {c : Cause} {x : Word} {j : Nat}

theorem exec_ldx_traps (hf : s.memFault false false 64 64 (s.addr a o 64) = none) (hs : inSpad (s.addr a o 64).toNat = true)
    (h : s.expandSpad d a (s.addr a o 64) r = s.fault 1 c x) : exec (.ldx d a o r) s = .next (s.fault 1 c x) :=
  (exec_ldx_spad hf hs).trans (congrArg Host.Outcome.next h)

theorem granules_bytes_pos (f : Fmt) : 0 < 64 * (128 / f.elems) := by cases f <;> decide

theorem expandSpad_prot {ea : Word} (h : Fmt.ofCode (tagFmt (s.core.spadTag (spadOff ea / 64))) = some f)
    (hr : ¬reaches ea.toNat (64 * (128 / f.elems))) : s.expandSpad d a ea r = s.fault 1 .prot ea :=
  expandSpad_outside h (eq_false_of_ne_true (mt (memReach_iff _ _ (granules_bytes_pos f)).1 hr))

/-- The first granule whose tag stops an LDX names its trap. -/
theorem expandSpad_first {ea : Word} (h : Fmt.ofCode (tagFmt (s.core.spadTag (spadOff ea / 64))) = some f)
    (hr : reaches ea.toNat (64 * (128 / f.elems))) (hj : j < 128 / f.elems)
    (hi : ∀ i, i < j → tagValidFmt (s.core.spadTag (spadOff ea / 64 + i)) = some f)
    (hx : expandFault f (s.core.spadTag (spadOff ea / 64 + j)) (ea + BitVec.ofNat 64 (64 * j)) = some (c, x)) :
    s.expandSpad d a ea r = s.fault 1 c x := by
  have hread := expandSpad_reads (d := d) (a := a) (r := r) h ((memReach_iff _ _ (granules_bytes_pos f)).2 hr)
  rw [expandFaults_eq, findSome?_range_of_first
    (f := fun i => expandFault f (s.core.spadTag (spadOff ea / 64 + i)) (ea + BitVec.ofNat 64 (64 * i))) hj hx
    (fun i hlt => expandFault_ok (hi i hlt))] at hread
  exact hread

end ExpandTraps

/-! ### STPK (R114) -/

section Pack

variable {s : State} {d a : Reg} {o : BitVec 10} {r : Order} {m : ScaleMode} {f : Fmt} {c : Cause} {x : Word} {j : Nat}

/-- The granules that an STPK may not write to keep their scales. -/
def Core.badScale (co : Core) (m : ScaleMode) (off g : Nat) : Option Nat :=
  if m = .keep then (List.range g).find? (fun j => !scaleOk (tagScale (co.spadTag (off / 64 + j)))) else none

theorem badScale_of_first {co : Core} {off g : Nat} (hj : j < g) (hb : scaleOk (tagScale (co.spadTag (off / 64 + j))) = false)
    (hi : ∀ i, i < j → scaleOk (tagScale (co.spadTag (off / 64 + i))) = true) : co.badScale .keep off g = some j := by
  unfold Core.badScale
  rw [if_pos rfl, List.find?_range_eq_some]
  exact ⟨by rw [hb]; rfl, List.mem_range.2 hj, fun i h => by rw [hi i h]; rfl⟩

variable (h : s.memFault true true 64 64 (s.addr a o 64) = none)
include h

theorem exec_stpk_poison (hp : isPoison (s.core.spadTag (spadOff (s.addr a o 64) / 64)) = true) :
    exec (.stpk d a o r m) s = .next (s.fault 1 .poison (s.addr a o 64)) := by
  change execStpk d a o r m s = _
  unfold execStpk
  simp only [ea_eq_addr, h, hp, if_true]

theorem exec_stpk_noFormat (hp : isPoison (s.core.spadTag (spadOff (s.addr a o 64) / 64)) = false)
    (hn : Fmt.ofCode (tagFmt (s.core.spadTag (spadOff (s.addr a o 64) / 64))) = none) :
    exec (.stpk d a o r m) s = .next (s.fault 1 .badTag (s.addr a o 64)) := by
  change execStpk d a o r m s = _
  unfold execStpk
  simp only [ea_eq_addr, h, hp, hn, Bool.false_eq_true, if_false]

variable (hn : Fmt.ofCode (tagFmt (s.core.spadTag (spadOff (s.addr a o 64) / 64))) = some f)
include hn

theorem exec_stpk_outside (hf : s.memFault true true (64 * (128 / f.elems)) 64 (s.addr a o 64) = some (c, x)) :
    exec (.stpk d a o r m) s = .next (s.fault 1 c x) := by
  change execStpk d a o r m s = _
  unfold execStpk
  simp only [ea_eq_addr, h, isPoison_of_ofCode hn, hn, hf, Bool.false_eq_true, if_false]

variable (hf : s.memFault true true (64 * (128 / f.elems)) 64 (s.addr a o 64) = none)
include hf

theorem exec_stpk_poisonIn (hp : s.core.spadPoisonIn (spadOff (s.addr a o 64)) (64 * (128 / f.elems)) = some (c, x)) :
    exec (.stpk d a o r m) s = .next (s.fault 1 c x) := by
  change execStpk d a o r m s = _
  unfold execStpk
  obtain ⟨poisonIn, e⟩ := exists_eq (a' := Core.spadPoisonIn)
  rw [← e] at hp ⊢
  simp only [ea_eq_addr, h, isPoison_of_ofCode hn, hn, hf, hp, Bool.false_eq_true, if_false]

variable (hp : s.core.spadPoisonIn (spadOff (s.addr a o 64)) (64 * (128 / f.elems)) = none)
include hp

theorem exec_stpk_badTag (hb : tagValidFmt (s.core.spadTag (spadOff (s.addr a o 64) / 64)) = none) :
    exec (.stpk d a o r m) s = .next (s.fault 1 .badTag (s.addr a o 64)) := by
  change execStpk d a o r m s = _
  unfold execStpk
  obtain ⟨poisonIn, e⟩ := exists_eq (a' := Core.spadPoisonIn)
  rw [← e] at hp ⊢
  simp only [ea_eq_addr, h, isPoison_of_ofCode hn, hn, hf, hp, hb, Bool.false_eq_true, if_false, Option.isNone_none, if_true]

theorem exec_stpk_badScale (hb : tagValidFmt (s.core.spadTag (spadOff (s.addr a o 64) / 64)) ≠ none)
    (hk : s.core.badScale m (spadOff (s.addr a o 64)) (128 / f.elems) = some j) :
    exec (.stpk d a o r m) s = .next (s.fault 1 .badTag (s.addr a o 64 + word (64 * j))) := by
  change execStpk d a o r m s = _
  unfold execStpk
  obtain ⟨poisonIn, e⟩ := exists_eq (a' := Core.spadPoisonIn)
  rw [← e] at hp ⊢
  unfold Core.badScale at hk
  simp only [ea_eq_addr, h, isPoison_of_ofCode hn, hn, hf, hp, Option.isNone_iff_eq_none, hb, hk, Bool.false_eq_true, if_false]

end Pack

end Sys2Proof.Machine
end

section
/-!
LEMMAS. STPK and LDG trap in the order of their rules (spec/05 R114, R116), and the faults of the mem slot together.
-/
open Sys2Proof

namespace Sys2Proof.Machine

/-! ### The order of the traps of LDX and STPK (R113, R114) -/

theorem spadVa_granule {ea : Word} (hs : inSpad ea.toNat = true) (ha : ea.toNat % 64 = 0) (j : Nat) :
    spadVa (64 * (spadOff ea / 64 + j)) = ea + BitVec.ofNat 64 (64 * j) := by
  obtain ⟨hea, -⟩ := toNat_of_inSpad hs
  have hbase : Config.spadBase % 64 = 0 := rfl
  have hoff : Config.spadBase + 64 * (spadOff ea / 64 + j) = ea.toNat + 64 * j := by omega
  rw [spadVa, word, hoff, BitVec.ofNat_add, BitVec.ofNat_toNat, BitVec.setWidth_eq]

theorem clean_of_tags {c : Core} {off n : Nat} (h0 : off % 64 = 0) (h : ∀ j, j < n → isPoison (c.spadTag (off / 64 + j)) = false) :
    c.clean off (64 * n) := by
  intro i hi
  rw [show (off + i) / 64 = off / 64 + i / 64 by omega]
  exact h _ (by omega)

section PackTraps

variable {s : State} {d a : Reg} {o : BitVec 10} {r : Order} {m : ScaleMode} {f : Fmt} {j : Nat}
variable (h : s.memFault true true 64 64 (s.addr a o 64) = none)
variable (hn : Fmt.ofCode (tagFmt (s.core.spadTag (spadOff (s.addr a o 64) / 64))) = some f)
variable (hf : s.memFault true true (64 * (128 / f.elems)) 64 (s.addr a o 64) = none)
include h

theorem spadOff_mod_of_stores : spadOff (s.addr a o 64) % 64 = 0 := by
  obtain ⟨-, hs, ha⟩ := of_memFault_none h
  obtain ⟨hea, -⟩ := toNat_of_inSpad (hs rfl)
  have hbase : Config.spadBase % 64 = 0 := rfl
  omega

include hn hf

/-- The first poisoned granule names the trap of an STPK. -/
theorem stpk_first_poison (hj : j < 128 / f.elems) (hp : isPoison (s.core.spadTag (spadOff (s.addr a o 64) / 64 + j)) = true)
    (hi : ∀ i, i < j → isPoison (s.core.spadTag (spadOff (s.addr a o 64) / 64 + i)) = false) :
    exec (.stpk d a o r m) s = .next (s.fault 1 .poison (s.addr a o 64 + BitVec.ofNat 64 (64 * j))) := by
  obtain ⟨-, hs, ha⟩ := of_memFault_none h
  have h0 := spadOff_mod_of_stores h
  rw [← spadVa_granule (hs rfl) ha j]
  refine exec_stpk_poisonIn h hn hf (spadPoisonIn_of_first hp (Nat.le_add_right _ _) (by omega) (fun k hk hlt => ?_))
  rw [show k = spadOff (s.addr a o 64) / 64 + (k - spadOff (s.addr a o 64) / 64) by omega]
  exact hi _ (by omega)

variable (hc : ∀ j, j < 128 / f.elems → isPoison (s.core.spadTag (spadOff (s.addr a o 64) / 64 + j)) = false)
include hc

theorem spadPoisonIn_of_pack : s.core.spadPoisonIn (spadOff (s.addr a o 64)) (64 * (128 / f.elems)) = none :=
  spadPoisonIn_of_clean (granules_bytes_pos f) (clean_of_tags (spadOff_mod_of_stores h) hc)

end PackTraps

theorem taggedAccessTraps : Claims.TaggedAccessTraps := by
  intro d a o r m s ea tag at_
  have htag (j : Nat) : tag j = s.core.spadTag (spadOff ea / 64 + j) := rfl
  clear_value tag
  have h0 : s.core.spadTag (spadOff ea / 64) = tag 0 := by rw [htag, Nat.add_zero]
  refine ⟨fun hf hs => ⟨fun hp => ?_, fun hp hn => ?_, fun f hn => ⟨fun hr => ?_, fun j hr hj hi => ⟨fun hp => ?_, fun hp hv => ?_⟩⟩⟩,
    fun h => ⟨fun hp => ?_, fun hp hn => ?_, fun f hn => ⟨fun c x hf => ?_, fun hf => ⟨fun j hj hp hi => ?_,
      fun hc => ⟨fun hv => ?_, fun hv hm j hj hb hi => ?_⟩⟩⟩⟩⟩
  · exact exec_ldx_traps hf hs (expandSpad_poison (h0 ▸ hp))
  · exact exec_ldx_traps hf hs (expandSpad_noFormat (h0 ▸ hn) (h0 ▸ hp))
  · exact exec_ldx_traps hf hs (expandSpad_prot (h0 ▸ hn) hr)
  · exact exec_ldx_traps hf hs (expandSpad_first (h0 ▸ hn) hr hj (fun i h => htag i ▸ hi i h) (expandFault_poison (htag j ▸ hp)))
  · exact exec_ldx_traps hf hs (expandSpad_first (h0 ▸ hn) hr hj (fun i h => htag i ▸ hi i h)
      (expandFault_bad (htag j ▸ hp) (htag j ▸ hv)))
  · exact exec_stpk_poison h (h0 ▸ hp)
  · exact exec_stpk_noFormat h (h0 ▸ hp) (h0 ▸ hn)
  · exact exec_stpk_outside h (h0 ▸ hn) hf
  · exact stpk_first_poison h (h0 ▸ hn) hf hj (htag j ▸ hp) (fun i h => htag i ▸ hi i h)
  · exact exec_stpk_badTag h (h0 ▸ hn) hf (spadPoisonIn_of_pack h (h0 ▸ hn) hf (fun i h => htag i ▸ hc i h)) (h0 ▸ hv)
  · rw [hm]
    exact exec_stpk_badScale h (h0 ▸ hn) hf (spadPoisonIn_of_pack h (h0 ▸ hn) hf (fun i h => htag i ▸ hc i h)) (h0 ▸ hv)
      (badScale_of_first hj (htag j ▸ hb) (fun i h => htag i ▸ hi i h))

/-! ### LDG (R116) -/

/-- One step of the search for the lowest address. -/
def lowerOf (m : Option Word) (a : Word) : Option Word :=
  match m with
  | none => some a
  | some x => some (if a.toNat < x.toNat then a else x)

theorem lowest_eq_foldl (bad : Word → Bool) (as : List Word) : lowest bad as = (as.filter bad).foldl lowerOf none := rfl

/-- From an address that none of the rest goes below, the search ends there. -/
theorem foldl_lowerOf_least {x : Word} {as : List Word} (h : ∀ y ∈ as, x.toNat ≤ y.toNat) : as.foldl lowerOf (some x) = some x := by
  induction as with
  | nil => rfl
  | cons y ys ih =>
    rw [List.foldl_cons, lowerOf, if_neg (Nat.not_lt.2 (h y List.mem_cons_self))]
    exact ih (fun z hz => h z (List.mem_cons_of_mem _ hz))

/-- The search ends at the least address of the list when it begins at no lower one. -/
theorem foldl_lowerOf_mem {x : Word} {as : List Word} (hx : x ∈ as) (h : ∀ y ∈ as, x.toNat ≤ y.toNat) (m : Option Word)
    (hm : ∀ y, m = some y → x.toNat ≤ y.toNat) : as.foldl lowerOf m = some x := by
  induction as generalizing m with
  | nil => exact absurd hx List.not_mem_nil
  | cons y ys ih =>
    have hrest : ∀ z ∈ ys, x.toNat ≤ z.toNat := fun z hz => h z (List.mem_cons_of_mem _ hz)
    have hy : x.toNat ≤ y.toNat := h y List.mem_cons_self
    rw [List.foldl_cons]
    rcases List.mem_cons.1 hx with rfl | hmem
    · have hstep : lowerOf m x = some x := by
        cases m with
        | none => rfl
        | some z =>
          refine congrArg some ?_
          by_cases hlt : x.toNat < z.toNat
          · exact if_pos hlt
          · rw [if_neg hlt]
            exact BitVec.eq_of_toNat_eq (Nat.le_antisymm (Nat.not_lt.1 hlt) (hm z rfl))
      rw [hstep, foldl_lowerOf_least hrest]
    · refine ih hmem hrest _ (fun z hz => ?_)
      cases m with
      | none => exact Option.some.inj hz ▸ hy
      | some w =>
        rw [← Option.some.inj hz]
        split
        · exact hy
        · exact hm w rfl

theorem lowest_eq_some {bad : Word → Bool} {as : List Word} {x : Word} (hx : x ∈ as) (hb : bad x = true)
    (h : ∀ y ∈ as, bad y = true → x.toNat ≤ y.toNat) : lowest bad as = some x := by
  rw [lowest_eq_foldl]
  refine foldl_lowerOf_mem (List.mem_filter.2 ⟨hx, hb⟩) (fun y hy => ?_) none (fun _ h => nomatch h)
  obtain ⟨hmem, hbad⟩ := List.mem_filter.1 hy
  exact h y hmem hbad

theorem lowest_eq_none {bad : Word → Bool} {as : List Word} (h : ∀ y ∈ as, bad y = false) : lowest bad as = none := by
  rw [lowest_eq_foldl, List.filter_eq_nil_iff.2 (fun y hy => by rw [h y hy]; exact Bool.false_ne_true)]
  rfl

section Gather

variable {s : State} {d a b : Reg} {x64 : Bool} {x : Word}

/-- The address of lane `i` of a gather. -/
def State.gatherLane (s : State) (a b : Reg) (x64 : Bool) (i : Nat) : Word :=
  s.core.a.rd a + ((s.core.a.v[b]).lane i).setWidth 64 * (if x64 then 64 else 4)

theorem gatherAddrs_eq : gatherAddrs (s.core.a.rd a) (s.core.a.v[b]) x64 = (List.range 128).map (s.gatherLane a b x64) := rfl

/-- The lane addresses of a gather. -/
abbrev State.gatherLanes (s : State) (a b : Reg) (x64 : Bool) : List Word := gatherAddrs (s.core.a.rd a) (s.core.a.v[b]) x64

theorem mem_gatherLanes : x ∈ s.gatherLanes a b x64 ↔ ∃ i, i < 128 ∧ s.gatherLane a b x64 i = x := by
  rw [State.gatherLanes, gatherAddrs_eq, List.mem_map]
  simp only [List.mem_range]

theorem exec_ldg_outside (h : lowest (fun x => !(inSpad x.toNat && inSpad (x.toNat + 3))) (s.gatherLanes a b x64) = some x) :
    exec (.ldg d a b x64) s = .next (s.fault 1 .prot x) := by
  change execLdg d a b x64 s = _
  unfold execLdg
  simp only [h]

variable (h : lowest (fun x => !(inSpad x.toNat && inSpad (x.toNat + 3))) (s.gatherLanes a b x64) = none)
include h

theorem exec_ldg_misaligned (hm : lowest (fun x => x.toNat % 4 ≠ 0) (s.gatherLanes a b x64) = some x) :
    exec (.ldg d a b x64) s = .next (s.fault 1 .misaligned x) := by
  change execLdg d a b x64 s = _
  unfold execLdg
  simp only [h, hm]

variable (hm : lowest (fun x => x.toNat % 4 ≠ 0) (s.gatherLanes a b x64) = none)
include hm

theorem exec_ldg_poison (hp : lowest (fun x => s.core.spadPoison (spadOff x)) (s.gatherLanes a b x64) = some x) :
    exec (.ldg d a b x64) s = .next (s.fault 1 .poison (spadVa (spadOff x / 64 * 64))) := by
  change execLdg d a b x64 s = _
  unfold execLdg
  simp only [h, hm, hp]

end Gather

theorem gatherTraps : Claims.GatherTraps := by
  intro d a b x64 s lane out inside lowestOf i
  have lowest_lane (bad : Word → Bool) (p : Word → Prop) (hiff : ∀ x, bad x = true ↔ p x) (h : lowestOf p i) :
      lowest bad (s.gatherLanes a b x64) = some (lane i) := by
    obtain ⟨hi, hbad, hleast⟩ := h
    refine lowest_eq_some (mem_gatherLanes.2 ⟨i, hi, rfl⟩) ((hiff _).2 hbad) (fun y hy hb => ?_)
    obtain ⟨j, hj, rfl⟩ := mem_gatherLanes.1 hy
    exact hleast j hj ((hiff _).1 hb)
  have no_lane (bad : Word → Bool) (h : ∀ j, j < 128 → bad (lane j) = false) : lowest bad (s.gatherLanes a b x64) = none := by
    refine lowest_eq_none (fun y hy => ?_)
    obtain ⟨j, hj, rfl⟩ := mem_gatherLanes.1 hy
    exact h j hj
  refine ⟨fun h => ?_, fun hin => ?_⟩
  · exact exec_ldg_outside (lowest_lane _ (fun x => ¬inside x) (fun x => by simp [inside, ← not_and_or, imp_iff_not_or]) h)
  · have hins := no_lane (fun x => !(inSpad x.toNat && inSpad (x.toNat + 3))) (fun j hj => by
      obtain ⟨h1, h2⟩ := hin j hj
      rw [h1, h2]
      rfl)
    refine ⟨fun h => ?_, fun hal h => ?_⟩
    · exact exec_ldg_misaligned hins (lowest_lane _ (fun x => x.toNat % 4 ≠ 0) (fun x => by simp) h)
    · have hals := no_lane (fun x => x.toNat % 4 ≠ 0) (fun j hj => by simp [hal j hj])
      exact exec_ldg_poison hins hals (lowest_lane _ _ (fun x => Iff.rfl) h)

/-- Settles O13: each access ends as the first rule of R40 that it breaks says; the searches over granules and lanes end at the first
or the lowest that a rule stops. -/
theorem memoryFaults : Obligations.MemoryFaults :=
  ⟨memoryFaultOrder, memoryInstructionsTrapAtIssue, poisonTraps, taggedAccessTraps, gatherTraps⟩

end Sys2Proof.Machine
end

section
/-!
LEMMAS. Bytes of numbers, the loads of the own scratchpad and of elsewhere (spec/05 R108, R111, R112, R115, R119).
-/
open Sys2Proof

namespace Sys2Proof.Machine

/-! ### The bytes of a number -/

theorem natOfBytes_map_range (b : Nat → Byte) (n : Nat) : natOfBytes ((List.range n).map b) = ofDigitsBelow (2 ^ 8) (fun i => (b i).toNat) n := by
  have hfold (bs : List Byte) : natOfBytes bs = bs.foldr (fun b acc => acc * 2 ^ 8 + b.toNat) 0 := by
    induction bs with
    | nil => rfl
    | cons b bs ih => rw [natOfBytes, ih, List.foldr_cons]; omega
  rw [hfold, List.foldr_map, ← foldr_eq_ofDigitsBelow]

/-- The bits of a number that is made of bytes. -/
theorem testBit_ofBytes (b : Nat → Byte) {i k n : Nat} (hi : i < n) (hk : k < 8) :
    (ofDigitsBelow (2 ^ 8) (fun i => (b i).toNat) n).testBit (8 * i + k) = (b i).getLsbD k := by
  have h := digit_ofDigitsBelow (d := fun i => (b i).toNat) (fun i => (b i).isLt) hi
  rw [BitVec.getLsbD, ← h, ← Nat.pow_mul, Nat.testBit_mod_two_pow, Nat.testBit_div_two_pow, decide_eq_true hk, Bool.true_and, Nat.add_comm]

theorem testBit_ofBytes_high (b : Nat → Byte) {n j : Nat} (hj : 8 * n ≤ j) : (ofDigitsBelow (2 ^ 8) (fun i => (b i).toNat) n).testBit j = false := by
  have h := ofDigitsBelow_lt (d := fun i => (b i).toNat) (fun i => (b i).isLt) n
  rw [← Nat.pow_mul] at h
  exact Nat.testBit_lt_two_pow (Nat.lt_of_lt_of_le h (Nat.pow_le_pow_right (by decide) hj))

/-- A byte of a bit vector, bit by bit. -/
theorem byte_eq_of_bits {w : Nat} {x : BitVec w} {i : Nat} {b : Byte} (h : ∀ k, k < 8 → x.getLsbD (8 * i + k) = b.getLsbD k) :
    x.extractLsb' (8 * i) 8 = b := by
  apply BitVec.eq_of_getLsbD_eq
  intro k hk
  rw [BitVec.getLsbD_extractLsb', decide_eq_true hk, Bool.true_and, h k hk]

section Bytes

variable {c : Core} {off n i w : Nat}

theorem spadNat_eq (c : Core) (off n : Nat) : c.spadNat off n = ofDigitsBelow (2 ^ 8) (fun i => (c.spadByte (off + i)).toNat) n :=
  natOfBytes_map_range _ n

theorem byte_ofNat_spadNat (hi : i < n) (hw : 8 * n ≤ w) : (BitVec.ofNat w (c.spadNat off n)).extractLsb' (8 * i) 8 = c.spadByte (off + i) := by
  refine byte_eq_of_bits (fun k hk => ?_)
  rw [BitVec.getLsbD_ofNat, decide_eq_true (by omega), Bool.true_and, spadNat_eq]
  exact testBit_ofBytes _ hi hk

theorem byte_ofNat_spadNat_high (hi : n ≤ i) : (BitVec.ofNat w (c.spadNat off n)).extractLsb' (8 * i) 8 = 0 := by
  refine byte_eq_of_bits (fun k _ => ?_)
  rw [BitVec.getLsbD_ofNat, spadNat_eq, testBit_ofBytes_high _ (by omega), Bool.and_false]
  exact (BitVec.getLsbD_zero).symm

/-- A zero-extended value (R111). -/
theorem holdsBytes_word (hn : n ≤ 8) : c.holdsBytes off n (word (c.spadNat off n)) 0 := by
  intro i _
  split
  next h => exact byte_ofNat_spadNat h (by omega)
  next h => exact byte_ofNat_spadNat_high (Nat.not_lt.1 h)

/-- The sign of a value is that of its highest byte (R111). -/
theorem msb_ofNat_spadNat (hn : 0 < n) : (BitVec.ofNat (8 * n) (c.spadNat off n)).msb = (c.spadByte (off + n - 1)).msb := by
  rw [BitVec.msb_eq_getLsbD_last, BitVec.msb_eq_getLsbD_last, BitVec.getLsbD_ofNat, decide_eq_true (by omega), Bool.true_and, spadNat_eq,
    show 8 * n - 1 = 8 * (n - 1) + 7 by omega, testBit_ofBytes _ (by omega) (by decide), Nat.add_sub_assoc hn]

/-- A sign-extended value (R111). -/
theorem holdsBytes_signed (hn : 0 < n) (hn8 : n ≤ 8) :
    c.holdsBytes off n (BitVec.ofInt 64 (signedOf (8 * n) (c.spadNat off n))) (if (c.spadByte (off + n - 1)).msb then 0xFF else 0) := by
  have hext : BitVec.ofInt 64 (signedOf (8 * n) (c.spadNat off n)) = (BitVec.ofNat (8 * n) (c.spadNat off n)).signExtend 64 := by
    rw [BitVec.signExtend, signedOf_eq_toInt (by omega)]
  intro i hi
  rw [hext]
  refine byte_eq_of_bits (fun k hk => ?_)
  rw [BitVec.getLsbD_signExtend, decide_eq_true (by omega), Bool.true_and]
  by_cases h : i < n
  · rw [if_pos (by omega), if_pos h, ← byte_ofNat_spadNat h (w := 8 * n) (Nat.le_refl _), BitVec.getLsbD_extractLsb', decide_eq_true hk,
      Bool.true_and]
  · rw [if_neg (by omega), if_neg h, msb_ofNat_spadNat hn]
    cases (c.spadByte (off + n - 1)).msb with
    | true => exact ((by decide : ∀ k < 8, true = (0xFF : Byte).getLsbD k)) k hk
    | false => exact (BitVec.getLsbD_zero).symm

end Bytes

theorem size_bytes_bounds (z : Size) : 0 < Size.bytes z ∧ Size.bytes z ≤ 8 := by cases z <;> decide

theorem scratchpadLoadResults : Claims.ScratchpadLoadResults := by
  intro d a o r z s
  refine ⟨fun signed => ?_, ?_, ?_⟩
  · intro n ea hf hs hc
    obtain ⟨hpos, hle⟩ := size_bytes_bounds z
    have hp := spadPoisonIn_of_clean hpos hc
    cases signed with
    | false => exact ⟨_, holdsBytes_word hle, exec_ld.trans (congrArg _ (loadScalar_spad hf hs hp))⟩
    | true =>
      refine ⟨_, ?_, exec_lds.trans (congrArg _ (loadScalar_spad hf hs hp))⟩
      rw [if_pos rfl, Core.fillOf, Bool.true_and]
      exact holdsBytes_signed hpos hle
  · intro ea hf hs hc
    exact ⟨_, fun i hi => byte_ofNat_spadNat hi (by decide), exec_ldv_spad hf hs (spadPoisonIn_of_clean (by decide) hc)⟩
  · intro ea hf hs hc
    exact exec_ldt_spad hf hs (spadPoisonIn_of_clean (by decide) hc)

/-! ### Loads from elsewhere (R108) -/

theorem runsOf_one_key {α : Type} [DecidableEq α] {key : Nat → α} {k : α} {x : Nat} {xs : List Nat} (h : ∀ y ∈ x :: xs, key y = k) :
    runsOf key (x :: xs) = [x :: xs] := by
  induction xs generalizing x with
  | nil => rfl
  | cons y ys ih =>
    rw [runsOf, ih (fun z hz => h z (List.mem_cons_of_mem _ hz))]
    exact if_pos ((h x List.mem_cons_self).trans (h y (List.mem_cons_of_mem _ List.mem_cons_self)).symm)

/-- Without views only the page of a granule decides its part. -/
theorem partKey_of_noViews {s : State} (h : s.core.a.views = []) (g : Nat) : s.partKey g = (s.pageOf g, none) := by
  have hview : s.core.a.viewAt g = none := by rw [Arch.viewAt, h]; rfl
  rw [State.partKey, Arch.translated, if_pos rfl, hview]
  rfl

theorem mem_granuleVas {va n g : Nat} (hn : 0 < n) (h : g ∈ granuleVas va n) : va ≤ g ∧ g < va + n := by
  obtain ⟨j, hj, rfl⟩ := List.mem_map.1 h
  have := List.mem_range.1 hj
  omega

theorem granuleVas_cons {va n : Nat} (hn : 0 < n) : ∃ gs, granuleVas va n = va :: gs := by
  obtain ⟨m, hm⟩ : ∃ m, (va + n - 1) / 64 + 1 - va / 64 = m + 1 := ⟨(va + n - 1) / 64 - va / 64, by omega⟩
  rw [granuleVas, hm, List.range_succ_eq_map, List.map_cons, show max va ((va / 64 + 0) * 64) = va by omega]
  exact ⟨_, rfl⟩

theorem granuleVas_last {va n : Nat} (hn : 0 < n) : va + n ≤ (granuleVas va n).getLastD va / 64 * 64 + 64 := by
  obtain ⟨m, hm⟩ : ∃ m, (va + n - 1) / 64 + 1 - va / 64 = m + 1 := ⟨(va + n - 1) / 64 - va / 64, by omega⟩
  rw [granuleVas, hm, List.range_succ, List.map_append, List.map_singleton, List.getLastD_concat]
  omega

/-- An access whose granules lie in one page, without views, is one part. -/
theorem parts_of_one_page {s : State} {va n : Nat} (hn : 0 < n) (hv : s.core.a.views = [])
    (h : ∀ g, va ≤ g → g < va + n → s.pageOf g = s.pageOf va) : s.parts va n = [(va, n)] := by
  obtain ⟨gs, hgs⟩ := granuleVas_cons (va := va) hn
  have hlast := granuleVas_last (va := va) hn
  have hkey : ∀ g ∈ va :: gs, s.partKey g = (s.pageOf va, none) := by
    intro g hg
    obtain ⟨hlo, hhi⟩ := mem_granuleVas hn (hgs ▸ hg)
    rw [partKey_of_noViews hv, h g hlo hhi]
  rw [hgs] at hlast
  rw [State.parts, hgs, runsOf_one_key hkey, List.map_singleton]
  simp only [List.headD_cons]
  rw [Nat.min_eq_right hlast, Nat.add_sub_cancel_left]

theorem offCoreLoadsMarkEmpty : Claims.OffCoreLoadsMarkEmpty := by
  intro d a o r z s
  refine ⟨?_, ?_, fun va l q => ⟨_, queueLoad_memq va l q s, ?_, ?_, queueLoad_nextId va l q s⟩, fun va n => parts_of_one_page⟩
  · intro n ea hf hs
    exact ⟨exec_ld.trans (congrArg _ (loadScalar_offCore hf hs)), exec_lds.trans (congrArg _ (loadScalar_offCore hf hs))⟩
  · intro ea hs
    exact ⟨fun hf => exec_ldv_offCore hf hs, fun hf => ⟨exec_ldx_offCore hf hs, exec_ldt_offCore hf hs⟩⟩
  · rw [List.map_map]
    exact List.map_id _
  · intro e he
    obtain ⟨p, -, rfl⟩ := List.mem_map.1 he
    exact ⟨rfl, rfl, rfl, rfl, rfl⟩

/-- Settles O14: a load of the own scratchpad sends the number that its bytes make; one from elsewhere is queued part by part. -/
theorem loadResults : Obligations.LoadResults := ⟨scratchpadLoadResults, offCoreLoadsMarkEmpty⟩

end Sys2Proof.Machine
end

section
/-!
LEMMAS. Stores enter the pier, fences, ordering points and prefetches (spec/05 R111, R112, R115, R117, R118, R120).
-/
open Sys2Proof

namespace Sys2Proof.Machine

/-! ### Stores (R111, R120) -/

theorem bytesOfNat_eq_map (n x : Nat) : bytesOfNat n x = (List.range n).map (fun i => BitVec.ofNat 8 (x / 2 ^ (8 * i))) := by
  induction n generalizing x with
  | zero => rfl
  | succ n ih =>
    rw [bytesOfNat, ih, List.range_succ_eq_map, List.map_cons, List.map_map, Nat.mul_zero, Nat.pow_zero, Nat.div_one]
    refine congrArg _ (List.map_congr_left (fun i _ => ?_))
    rw [Function.comp_apply, Nat.div_div_eq_div_mul, Nat.mul_succ, Nat.pow_add, Nat.mul_comm]

theorem cellsOf_eq_map (a n x : Nat) : cellsOf a n x = (List.range n).map (fun i => (a + i, BitVec.ofNat 8 (x / 2 ^ (8 * i)))) := by
  have h := zip_range_map n (fun i => BitVec.ofNat 8 (x / 2 ^ (8 * i)))
  rw [List.length_map, List.length_range] at h
  rw [cellsOf, bytesOfNat_eq_map, h, List.map_map]
  rfl

/-- The cells of a stored number hold its bytes. -/
theorem cellsOf_toNat {w : Nat} (a n : Nat) (x : BitVec w) : cellsOf a n x.toNat = (List.range n).map (fun i => (a + i, x.extractLsb' (8 * i) 8)) := by
  rw [cellsOf_eq_map]
  refine List.map_congr_left (fun i _ => ?_)
  rw [BitVec.extractLsb', Nat.shiftRight_eq_div_pow]

/-- A store that no fault or poisoned granule stops makes one pier entry (R111). -/
theorem storeBytes_stages {s : State} {ea : Word} {n : Nat} {r : Order} {w : Nat} (x : BitVec w) (hn : 0 < n)
    (hc : inSpad ea.toNat = true → s.core.clean (spadOff ea) n) :
    ∃ e : PierEntry, s.storeBytes ea n x.toNat r = s.stage e ∧ e.spad = inSpad ea.toNat ∧ e.rel = scopeOf r ∧
      e.writes (if inSpad ea.toNat then spadOff ea else ea.toNat) n (fun i => x.extractLsb' (8 * i) 8) := by
  cases hs : inSpad ea.toNat with
  | true =>
    rw [if_pos rfl]
    exact ⟨_, storeBytes_spad hs (spadPoisonIn_of_clean hn (hc hs)), rfl, rfl, cellsOf_toNat _ n x, rfl⟩
  | false =>
    rw [if_neg Bool.false_ne_true]
    exact ⟨_, storeBytes_offCore hs, rfl, rfl, cellsOf_toNat _ n x, rfl⟩

theorem storesEnterThePier : Claims.StoresEnterThePier := by
  intro d a o r z s
  refine ⟨fun hf hc => ?_, fun hf hc => ?_, fun hf hc hb => ?_⟩
  · obtain ⟨e, he, rest⟩ := storeBytes_stages (r := r) (s.core.a.rd d) (size_bytes_bounds z).1 hc
    exact ⟨e, (exec_st_stores hf).trans (congrArg _ he), rest⟩
  · obtain ⟨e, he, rest⟩ := storeBytes_stages (r := r) (s.core.a.v[d]) (by decide) hc
    exact ⟨e, (exec_stv_stores hf).trans (congrArg _ he), rest⟩
  · exact ⟨_, (exec_stt_tag hf (spadPoisonIn_of_clean (by decide) hc)).trans (congrArg _ (if_neg (ne_true_of_eq_false hb))), rfl, rfl, rfl, rfl⟩

/-! ### Acquires and the read cache (R117) -/

theorem onDie_die (d : Nat) (f : Die → Die) (s : State) (h : d < 8) : (s.onDie d f).die d = f (s.die d) := by
  unfold State.onDie State.die
  rw [dif_pos h, dif_pos h, dif_pos h]
  exact Vector.getElem_set_self h

theorem die_eq_fresh (s : State) (d : Nat) (h : ¬d < 8) : s.die d = Die.fresh := dif_neg h

/-- What a filter of a die's read cache leaves. -/
theorem mem_cache_filter {s : State} {d : Nat} {p : CacheLine → Bool} {l : CacheLine}
    (h : l ∈ ((s.onDie d (fun x => { x with cache := x.cache.filter p })).die d).cache) : l ∈ (s.die d).cache ∧ p l = true := by
  by_cases hd : d < 8
  · rw [onDie_die _ _ _ hd] at h
    exact List.mem_filter.1 h
  · rw [die_eq_fresh _ _ hd] at h
    exact absurd h List.not_mem_nil

/-- Whether the read cache of the acting core's die holds no RC line. -/
def State.cacheUo (s : State) : Prop := ∀ l ∈ (s.die (dieOf s.core.id)).cache, l.uo = true

theorem die_of_dies {s t : State} (h : t.dies = s.dies) (d : Nat) : t.die d = s.die d := by
  unfold State.die
  rw [h]

theorem acquireOn_self (s : State) :
    (s.acquireOn s.core.id).dies = (s.onDie (dieOf s.core.id) (fun x => { x with cache := x.cache.filter (fun l => l.uo) })).dies ∧
      (s.acquireOn s.core.id).core = { s.core with icache := [] } := by
  unfold State.acquireOn State.onCore
  rw [if_pos (by rw [onDie_core])]
  exact ⟨rfl, by rw [onDie_core]⟩

theorem acquire_core_a (sc : Scope) (s : State) : (s.acquire sc).core.a = s.core.a ∧ (s.acquire sc).core.id = s.core.id := by
  unfold State.acquire
  split
  · rw [(acquireOn_self s).2]
    exact ⟨rfl, rfl⟩
  · exact ⟨rfl, rfl⟩

theorem cacheUo_acquireOn (s : State) : (s.acquireOn s.core.id).cacheUo := by
  obtain ⟨hdies, hcore⟩ := acquireOn_self s
  intro l hl
  rw [hcore, die_of_dies hdies] at hl
  exact (mem_cache_filter hl).2

theorem cacheUo_acquire {s : State} (sc : Scope) (h : s.cacheUo ∨ Scope.wide sc = true) : (s.acquire sc).cacheUo := by
  unfold State.acquire
  by_cases hw : Scope.wide sc = true
  · rw [if_pos hw]
    exact cacheUo_acquireOn s
  · rw [if_neg hw]
    exact h.resolve_right hw

theorem foldl_acquire_core_a (scs : List Scope) (s : State) : (scs.foldl (fun s sc => s.acquire sc) s).core.a = s.core.a := by
  induction scs generalizing s with
  | nil => rfl
  | cons sc scs ih => rw [List.foldl_cons, ih, (acquire_core_a sc s).1]

/-- Once one acquire of several is wide, no RC line is left. -/
theorem cacheUo_foldl_acquire {scs : List Scope} {s : State} (h : s.cacheUo ∨ ∃ sc ∈ scs, Scope.wide sc = true) :
    (scs.foldl (fun s sc => s.acquire sc) s).cacheUo := by
  induction scs generalizing s with
  | nil => exact h.resolve_right (fun ⟨_, hm, _⟩ => List.not_mem_nil hm)
  | cons sc scs ih =>
    refine ih ?_
    rcases h with h | ⟨sc', hm, hw⟩
    · exact .inl (cacheUo_acquire sc (.inl h))
    · rcases List.mem_cons.1 hm with rfl | hm
      · exact .inl (cacheUo_acquire sc' (.inr hw))
      · exact .inr ⟨sc', hm, hw⟩

theorem foldl_acquire_core_id (scs : List Scope) (s : State) : (scs.foldl (fun s sc => s.acquire sc) s).core.id = s.core.id := by
  induction scs generalizing s with
  | nil => rfl
  | cons sc scs ih => rw [List.foldl_cons, ih, (acquire_core_a sc s).2]

/-! ### Ordering points (R117) -/

section Points

variable (p : OrderPoint) (s : State)

/-- An ordering point with its place. -/
def State.placed (s : State) (p : OrderPoint) : OrderPoint := { p with id := s.core.nextId }

/-- The points of the core with one more. -/
def State.morePoints (s : State) (p : OrderPoint) : List OrderPoint := s.core.a.points ++ [s.placed p]

/-- What an ordering point that stays has still to do: an acquire whose reads are done is no more due. -/
def Core.pruned (c : Core) (p : OrderPoint) : OrderPoint := if p.acq.isSome && c.readsDoneBefore p.id then { p with acq := none } else p

/-- The points that stay. -/
theorem point_points : (s.point p).core.a.points = ((s.morePoints p).filter s.core.pointPending).map s.core.pruned := by
  unfold State.point State.prunePoints
  dsimp only
  rw [foldl_acquire_core_a]
  rfl

/-- The acquires that a new point brings about. -/
theorem point_acquires : ∃ t : State, s.point p = ((s.morePoints p).filterMap s.core.acquiresAt).foldl (fun s sc => s.acquire sc) t ∧
    t.core.id = s.core.id := ⟨_, rfl, rfl⟩

theorem mem_morePoints : s.placed p ∈ s.morePoints p := List.mem_append_right _ (List.mem_singleton_self _)

theorem pruned_placed : s.core.pruned (s.placed p) =
    if s.core.readsDoneBefore s.core.nextId = true then { s.placed p with acq := none } else s.placed p := by
  unfold Core.pruned
  change (if (p.acq.isSome && s.core.readsDoneBefore s.core.nextId) = true then _ else _) = _
  cases s.core.readsDoneBefore s.core.nextId with
  | false => rw [Bool.and_false]
  | true =>
    rw [Bool.and_true, if_pos rfl]
    cases hacq : p.acq with
    | some sc => rfl
    | none => simp only [State.placed, hacq, Option.isSome_none, Bool.false_eq_true, if_false]

theorem point_stays (h : s.core.pointPending (s.placed p) = true) :
    (if s.core.readsDoneBefore s.core.nextId = true then { s.placed p with acq := none } else s.placed p) ∈ (s.point p).core.a.points := by
  rw [point_points, ← pruned_placed]
  exact List.mem_map_of_mem (List.mem_filter.2 ⟨mem_morePoints p s, h⟩)

theorem cacheUo_point {sc : Scope} (ha : p.acq = some sc) (hw : Scope.wide sc = true) (hr : s.core.readsDoneBefore s.core.nextId = true) :
    (s.point p).cacheUo := by
  have hat : s.core.acquiresAt (s.placed p) = some sc := by
    unfold Core.acquiresAt
    change (if (p.acq.isSome && s.core.readsDoneBefore s.core.nextId) = true then p.acq else _) = _
    rw [ha, hr]
    rfl
  obtain ⟨t, ht, -⟩ := point_acquires p s
  rw [ht]
  exact cacheUo_foldl_acquire (.inr ⟨sc, List.mem_filterMap.2 ⟨_, mem_morePoints p s, hat⟩, hw⟩)

theorem point_core_id : (s.point p).core.id = s.core.id := by
  obtain ⟨t, ht, hid⟩ := point_acquires p s
  rw [ht, foldl_acquire_core_id, hid]

end Points

/-- A change of a die leaves everything but the dies. -/
theorem onDie_eq (d : Nat) (f : Die → Die) (s : State) : s.onDie d f = { s with dies := (s.onDie d f).dies } := by
  unfold State.onDie
  split <;> rfl

theorem cacheFill_eq (s : State) (d pa : Nat) (uo : Bool) : s.cacheFill d pa uo = { s with dies := (s.cacheFill d pa uo).dies } := by
  unfold State.cacheFill
  exact onDie_eq ..

theorem execPrefRc_eq (a : Reg) (o : BitVec 10) (s : State) :
    ∃ t, exec (.prefRc a o) s = .next t ∧ t = { s with dies := t.dies } := by
  refine ⟨_, rfl, ?_⟩
  split
  · rfl
  · split
    · rfl
    · exact cacheFill_eq ..

theorem fenceAndPrefetchEffects : Claims.FenceAndPrefetchEffects := by
  refine ⟨fun sc s => ⟨rfl, rfl, rfl, rfl, rfl⟩, fun s => ?_, fun p s => ⟨point_stays p s, fun sc ha hw hr => ?_⟩,
    fun a o s => ⟨rfl, execPrefRc_eq a o s⟩⟩
  · refine ⟨_, _, rfl, rfl, onDie_eq _ _ s, fun l hl => ?_⟩
    obtain ⟨hin, huo⟩ := mem_cache_filter hl
    exact ⟨hin, by simpa using huo⟩
  · have h := cacheUo_point p s ha hw hr
    rwa [State.cacheUo, point_core_id] at h

/-- Settles O15: a store is one entry of its bytes; an ordering point is placed, pruned, and its acquires performed. -/
theorem storesAndFences : Obligations.StoresAndFences := ⟨storesEnterThePier, fenceAndPrefetchEffects⟩

end Sys2Proof.Machine
end

section
/-!
LEMMAS. LDX, STPK and LDG where no rule stops them (spec/05 R113, R114, R116, R119).
-/
open Sys2Proof

namespace Sys2Proof.Machine

/-! ### LDX (R113) -/

theorem expandGranules_getD (c : Core) (off : Nat) (f : Fmt) {j : Nat} (h : j < 128 / f.elems) :
    (c.expandGranules off f).getD j (0, 0) = c.spadGranule (off + 64 * j) := by
  rw [Core.expandGranules, List.getD_eq_getElem _ _ (by rw [List.length_map, List.length_range]; exact h), List.getElem_map,
    List.getElem_range]

theorem granule_index_lt (f : Fmt) {i : Nat} (h : i < 128) : i / f.elems < 128 / f.elems := by
  have hdvd : f.elems ∣ 128 := by cases f <;> decide
  rw [Nat.div_lt_iff_lt_mul (elems_pos f), Nat.div_mul_cancel hdvd]
  exact h

/-- Each lane is the value of its element (R113). -/
theorem lane_expandVec (c : Core) (off : Nat) (f : Fmt) {i : Nat} (h : i < 128) :
    (expandVec f (c.expandGranules off f)).lane i = BitVec.ofNat 32 (f32.round .rne (elemValue f (c.spadTag (off / 64 + i / f.elems))
      (c.spadGranule (off + 64 * (i / f.elems))).1 (i % f.elems))) := by
  rw [expandVec, lane_ofFn _ h]
  dsimp only
  rw [expandGranules_getD c off f (granule_index_lt f h), spadGranule_tag]
  rfl

theorem exec_ldx_expands {s : State} {d a : Reg} {o : BitVec 10} {r : Order} {f : Fmt}
    (hf : s.memFault false false 64 64 (s.addr a o 64) = none) (hs : inSpad (s.addr a o 64).toNat = true)
    (h : Fmt.ofCode (tagFmt (s.core.spadTag (spadOff (s.addr a o 64) / 64))) = some f)
    (hr : reaches (s.addr a o 64).toNat (64 * (128 / f.elems)))
    (ht : ∀ j, j < 128 / f.elems → tagValidFmt (s.core.spadTag (spadOff (s.addr a o 64) / 64 + j)) = some f) :
    exec (.ldx d a o r) s = .next ((s.fly 8 1 [.v d (expandVec f (s.core.expandGranules (spadOff (s.addr a o 64)) f)),
      .s a (s.addr a o 64 + word (64 * (128 / f.elems)))]).spadAcquire (scopeOf r)) := by
  have hread := expandSpad_reads (d := d) (a := a) (r := r) h ((memReach_iff _ _ (granules_bytes_pos f)).2 hr)
  rw [expandFaults_eq, List.findSome?_eq_none_iff.2 (fun j hj => expandFault_ok (ht j (List.mem_range.1 hj)))] at hread
  exact (exec_ldx_spad hf hs).trans (congrArg _ hread)

/-! ### STPK (R114) -/

theorem packCodes_map (f : Fmt) (q : Nat → Nat) (n : Nat) : packCodes f ((List.range n).map q) = ofDigitsBelow (2 ^ f.bits) q n := by
  rw [packCodes, zip_range_map, List.foldl_map, ofDigitsBelow]
  simp only [← Nat.pow_mul]

/-- The granule that codes make has them as its elements. -/
theorem elemCode_packCodes (f : Fmt) {q : Nat → Nat} (hq : ∀ i, q i < 2 ^ f.bits) {k : Nat} (hk : k < f.elems) :
    elemCode f (BitVec.ofNat 512 (packCodes f ((List.range f.elems).map q))) k = q k := by
  have hlt : ofDigitsBelow (2 ^ f.bits) q f.elems < 2 ^ 512 := by
    have := ofDigitsBelow_lt hq f.elems
    rwa [← Nat.pow_mul, elems_mul_bits] at this
  rw [elemCode, packCodes_map, BitVec.toNat_ofNat, Nat.mod_eq_of_lt hlt, Nat.pow_mul]
  exact digit_ofDigitsBelow hq hk

/-- A block of the lanes. -/
theorem block_map_range {α : Type} (g : Nat → α) {n k e : Nat} (h : k + e ≤ n) :
    ((((List.range n).map g).drop k).take e) = (List.range e).map (fun i => g (k + i)) := by
  refine List.ext_getElem (by simp; omega) (fun i _ _ => ?_)
  simp

theorem byte_ofNat (x : Nat) {i : Nat} (h : i < 64) : (BitVec.ofNat 512 x).extractLsb' (8 * i) 8 = BitVec.ofNat 8 (x / 2 ^ (8 * i)) := by
  refine byte_eq_of_bits (fun k hk => ?_)
  rw [BitVec.getLsbD_ofNat, BitVec.getLsbD_ofNat, decide_eq_true (by omega), decide_eq_true hk, Nat.testBit_div_two_pow, Nat.add_comm]

/-- Granule by granule, the cells of some granules are those of their bytes in order. -/
theorem flatMap_cellsOf (off g : Nat) (x : Nat → Nat) :
    (List.range g).flatMap (fun j => cellsOf (off + 64 * j) 64 (x j)) =
      (List.range (64 * g)).map (fun i => (off + i, (BitVec.ofNat 512 (x (i / 64))).extractLsb' (8 * (i % 64)) 8)) := by
  induction g with
  | zero => rfl
  | succ g ih =>
    rw [List.range_succ, List.flatMap_append, ih, List.flatMap_singleton, Nat.mul_succ, List.range_add, List.map_append, cellsOf_eq_map,
      List.map_map]
    refine congrArg _ (List.map_congr_left (fun i hi => ?_))
    have hi := List.mem_range.1 hi
    rw [Function.comp_apply, show (64 * g + i) / 64 = g by omega, show (64 * g + i) % 64 = i by omega, byte_ofNat _ hi, Nat.add_assoc]

section Packs

variable {s : State} {d a : Reg} {o : BitVec 10} {r : Order} {m : ScaleMode} {f : Fmt}

/-- The lanes that an STPK quantises. -/
def State.packLane (s : State) (d : Reg) (i : Nat) : ExtNum := num32 ((s.core.a.v[d]).lane i).toNat

/-- The scale of granule `j` of an STPK. -/
def State.packedScale (s : State) (d : Reg) (m : ScaleMode) (f : Fmt) (off j : Nat) : Nat :=
  packScale m f (tagXv (s.core.spadTag (off / 64))) ((List.range 128).map (s.packLane d)) (tagScale (s.core.spadTag (off / 64 + j))) j

/-- The code of lane `i`. -/
def State.packedCode (s : State) (d : Reg) (m : ScaleMode) (f : Fmt) (off j i : Nat) : Nat :=
  quantise (s.packLane d (j * f.elems + i)) (s.packedScale d m f off j) f (tagXv (s.core.spadTag (off / 64))) .rne

/-- The codes of granule `j`. -/
def State.packedCodes (s : State) (d : Reg) (m : ScaleMode) (f : Fmt) (off j : Nat) : List Nat :=
  ((((List.range 128).map (s.packLane d)).drop (j * f.elems)).take f.elems).map
    (fun x => quantise x (s.packedScale d m f off j) f (tagXv (s.core.spadTag (off / 64))) .rne)

/-- The entry that an STPK makes. -/
def State.packEntry (s : State) (d : Reg) (ea : Word) (r : Order) (m : ScaleMode) (f : Fmt) : PierEntry :=
  let off := spadOff ea
  let t0 := s.core.spadTag (off / 64)
  { PierEntry.blank with
    spad := true, va := ea, rel := scopeOf r,
    cells := (List.range (128 / f.elems)).flatMap (fun j => cellsOf (off + 64 * j) 64 (packCodes f (s.packedCodes d m f off j))),
    tags := (List.range (128 / f.elems)).map (fun j => (off / 64 + j, mkTag (tagFmt t0) (tagXv t0) (tagAxis t0) (s.packedScale d m f off j))) }

theorem exec_stpk_packs (h : s.memFault true true 64 64 (s.addr a o 64) = none)
    (hn : Fmt.ofCode (tagFmt (s.core.spadTag (spadOff (s.addr a o 64) / 64))) = some f)
    (hf : s.memFault true true (64 * (128 / f.elems)) 64 (s.addr a o 64) = none)
    (hp : s.core.spadPoisonIn (spadOff (s.addr a o 64)) (64 * (128 / f.elems)) = none)
    (hb : tagValidFmt (s.core.spadTag (spadOff (s.addr a o 64) / 64)) ≠ none)
    (hk : s.core.badScale m (spadOff (s.addr a o 64)) (128 / f.elems) = none) :
    exec (.stpk d a o r m) s = .next (s.stage (s.packEntry d (s.addr a o 64) r m f)) := by
  change execStpk d a o r m s = _
  unfold execStpk
  obtain ⟨poisonIn, e⟩ := exists_eq (a' := Core.spadPoisonIn)
  rw [← e] at hp ⊢
  unfold Core.badScale at hk
  simp only [ea_eq_addr, h, isPoison_of_ofCode hn, hn, hf, hp, Option.isNone_iff_eq_none, hb, hk, Bool.false_eq_true, if_false]
  rfl

theorem packedCode_lt (off j i : Nat) : s.packedCode d m f off j i < 2 ^ f.bits := quantise_lt ..

theorem block_end_le {f : Fmt} {j : Nat} (h : j < 128 / f.elems) : j * f.elems + f.elems ≤ 128 := by
  rw [← Nat.succ_mul]
  exact (Nat.mul_le_mul_right _ h).trans (Nat.div_mul_le_self _ _)

theorem packedCodes_eq {j : Nat} (h : j < 128 / f.elems) (off : Nat) :
    s.packedCodes d m f off j = (List.range f.elems).map (s.packedCode d m f off j) := by
  rw [State.packedCodes, block_map_range _ (block_end_le h), List.map_map]
  rfl

end Packs

theorem tagFmt_tagValid {t : Word} {f : Fmt} (h : tagValidFmt t = some f) : tagValidFmt t ≠ none := by
  rw [h]
  exact Option.some_ne_none f

/-- An access without a fault has none where it is shorter. -/
theorem memFault_shorter {s : State} {n k align : Nat} {ea : Word} (hk : 0 < k) (hkn : k ≤ n)
    (h : s.memFault true true n align ea = none) : s.memFault true true k align ea = none := by
  obtain ⟨hprot, hmis, hview, hrest, -⟩ := memoryFaultOrder s true true n align ea (hk.trans_le hkn)
  obtain ⟨-, -, -, -, hnone⟩ := memoryFaultOrder s true true k align ea hk
  have hallowed := not_not.1 (fun c => Option.some_ne_none _ ((hprot c).symm.trans h))
  have hal := not_not.1 (fun c => Option.some_ne_none _ ((hmis hallowed c).symm.trans h))
  have hearly := fun c => Option.some_ne_none _ ((hview hallowed hal c).symm.trans h)
  obtain ⟨hreach, hspad, hstore⟩ := hallowed
  obtain ⟨hmerge, hbar⟩ := hstore rfl
  refine hnone ⟨?_, hspad, fun _ => ⟨fun d z hm => ?_, fun hs => ?_⟩⟩ hal ?_ ?_
  · unfold reaches at hreach ⊢
    omega
  · have := hmerge d z hm
    omega
  · have := hbar hs
    omega
  · rintro ⟨hf, w, hw, hlo, hhi⟩
    exact hearly ⟨hf, w, hw, by omega, hhi⟩
  · rintro ⟨-, -, hs, -⟩
    rw [hspad rfl] at hs
    cases hs

theorem reaches_of_inSpad {ea : Word} {n : Nat} (hs : inSpad ea.toNat = true) (h : spadOff ea + n ≤ 0x400000) : reaches ea.toNat n := by
  obtain ⟨hea, -⟩ := toNat_of_inSpad hs
  have hbase : Config.spadBase = 0x00F0000000000000 := rfl
  unfold reaches
  omega

theorem badScale_eq_none {c : Core} {m : ScaleMode} {off g : Nat}
    (h : m = .keep → ∀ j, j < g → scaleOk (tagScale (c.spadTag (off / 64 + j))) = true) : c.badScale m off g = none := by
  unfold Core.badScale
  split
  next hm =>
    rw [List.find?_range_eq_none]
    intro j hj
    rw [h hm j hj]
    rfl
  next => rfl

theorem taggedVectorAccess : Claims.TaggedVectorAccess := by
  intro d a o r m s f ea g off hs hfit hn
  refine ⟨fun hf ht => ⟨_, exec_ldx_expands hf hs hn ?_ ht, fun i hi => lane_expandVec _ _ f hi⟩, fun hf ht hc hk => ?_⟩
  · exact reaches_of_inSpad hs hfit
  · have hf1 := memFault_shorter (by decide : 0 < 64) (show 64 ≤ 64 * (128 / f.elems) by have := granules_bytes_pos f; omega) hf
    have hexec := exec_stpk_packs (d := d) (r := r) hf1 hn hf (spadPoisonIn_of_clean (granules_bytes_pos f) hc) (tagFmt_tagValid ht)
      (badScale_eq_none hk)
    intro t0 lane scale
    have hscale (j : Nat) (hj : j < g) : s.packedScale d m f off j = scale j := by
      cases m with
      | blk => exact congrArg (fun l => blockScale l f (tagXv t0)) (block_map_range _ (block_end_le hj))
      | vec => rfl
      | keep => rfl
    refine ⟨_, hexec, rfl, rfl, ?_, fun j => BitVec.ofNat 512 (packCodes f (s.packedCodes d m f off j)), fun i hi => ?_, ?_⟩
    · refine List.map_congr_left (fun j hj => ?_)
      rw [hscale j (List.mem_range.1 hj)]
    · have hj := granule_index_lt f hi
      beta_reduce
      rw [packedCodes_eq hj, elemCode_packCodes f (packedCode_lt _ _) (Nat.mod_lt _ (elems_pos f)), State.packedCode, hscale _ hj,
        Nat.div_add_mod']
      rfl
    · exact flatMap_cellsOf off _ _

/-! ### LDG (R116, R119) -/

theorem nodup_eraseDups (l : List Nat) : l.eraseDups.Nodup := by
  induction hn : l.length using Nat.strong_induction_on generalizing l with
  | _ n ih =>
    cases l with
    | nil => exact List.nodup_nil
    | cons a as =>
      rw [List.eraseDups_cons, List.nodup_cons]
      refine ⟨fun hm => ?_, ih _ ?_ _ rfl⟩
      · simp [List.mem_eraseDups] at hm
      · rw [← hn, List.length_cons]
        exact Nat.lt_succ_of_le (List.length_filter_le _ _)

/-- A maximum over the numbers below `n` is an upper bound, and one of them unless it is 0. -/
theorem foldl_max_range (f : Nat → Nat) (n : Nat) :
    (∀ k, k < n → f k ≤ (List.range n).foldl (fun m k => max m (f k)) 0) ∧
      ((List.range n).foldl (fun m k => max m (f k)) 0 = 0 ∨ ∃ k, k < n ∧ f k = (List.range n).foldl (fun m k => max m (f k)) 0) := by
  induction n with
  | zero => exact ⟨fun k h => absurd h (Nat.not_lt_zero k), .inl rfl⟩
  | succ n ih =>
    obtain ⟨hle, hatt⟩ := ih
    rw [List.range_succ, List.foldl_append, List.foldl_cons, List.foldl_nil]
    refine ⟨fun k hk => ?_, ?_⟩
    · rcases Nat.lt_succ_iff_lt_or_eq.1 hk with h | rfl
      · exact (hle k h).trans (Nat.le_max_left _ _)
      · exact Nat.le_max_right _ _
    · rcases Nat.le_total (f n) ((List.range n).foldl (fun m k => max m (f k)) 0) with h | h
      · rw [Nat.max_eq_left h]
        exact hatt.imp_right (fun ⟨k, hk, e⟩ => ⟨k, hk.trans (Nat.lt_succ_self n), e⟩)
      · exact .inr ⟨n, Nat.lt_succ_self n, (Nat.max_eq_right h).symm⟩

section Gather

variable {s : State} {d a b : Reg} {x64 : Bool}

/-- The granules that a gather reads, each once. -/
def State.gatherGranules (s : State) (a b : Reg) (x64 : Bool) : List Nat := ((s.gatherLanes a b x64).map (fun x => spadOff x / 64)).eraseDups

/-- Those of bank `k`. -/
def State.bankGranules (s : State) (a b : Reg) (x64 : Bool) (k : Nat) : List Nat := (s.gatherGranules a b x64).filter (fun g => g % 32 = k)

/-- The cycles of the busiest bank. -/
def State.bankCycles (s : State) (a b : Reg) (x64 : Bool) : Nat :=
  (List.range 32).foldl (fun n k => max n ((s.bankGranules a b x64 k).length)) 0

theorem gatherExtra_eq : gatherExtra (s.gatherLanes a b x64) = s.bankCycles a b x64 - 4 := rfl

theorem mem_bankGranules {k g : Nat} :
    g ∈ s.bankGranules a b x64 k ↔ g % 32 = k ∧ ∃ i, i < 128 ∧ g = spadOff (s.gatherLane a b x64 i) / 64 := by
  rw [State.bankGranules, List.mem_filter, State.gatherGranules, List.mem_eraseDups, List.mem_map, decide_eq_true_iff, and_comm]
  refine and_congr_right (fun _ => ⟨?_, ?_⟩)
  · rintro ⟨x, hx, rfl⟩
    obtain ⟨i, hi, rfl⟩ := mem_gatherLanes.1 hx
    exact ⟨i, hi, rfl⟩
  · rintro ⟨i, hi, rfl⟩
    exact ⟨_, mem_gatherLanes.2 ⟨i, hi, rfl⟩, rfl⟩

/-- The vector that a gather sends. -/
def State.gathered (s : State) (a b : Reg) (x64 : Bool) : Vec :=
  Vec.ofFn (fun i => BitVec.ofNat 32 (s.core.spadNat (spadOff ((s.gatherLanes a b x64).getD i 0)) 4))

theorem byte_gathered {i k : Nat} (hi : i < 128) (hk : k < 4) :
    (((s.gathered a b x64).lane i).extractLsb' (8 * k) 8) = s.core.spadByte (spadOff (s.gatherLane a b x64 i) + k) := by
  have hlane : (s.gatherLanes a b x64).getD i 0 = s.gatherLane a b x64 i := by
    rw [State.gatherLanes, gatherAddrs_eq, List.getD_eq_getElem _ _ (by rw [List.length_map, List.length_range]; exact hi), List.getElem_map,
      List.getElem_range]
  rw [State.gathered, lane_ofFn _ hi, hlane]
  exact byte_ofNat_spadNat hk (by decide)

theorem exec_ldg_gathers (h : lowest (fun x => !(inSpad x.toNat && inSpad (x.toNat + 3))) (s.gatherLanes a b x64) = none)
    (hm : lowest (fun x => x.toNat % 4 ≠ 0) (s.gatherLanes a b x64) = none)
    (hp : lowest (fun x => s.core.spadPoison (spadOff x)) (s.gatherLanes a b x64) = none) :
    exec (.ldg d a b x64) s = .next ((s.fly 8 1 [.v d (s.gathered a b x64)]).modCore (fun c =>
      { c with stall := c.stall + gatherExtra (s.gatherLanes a b x64) })) := by
  change execLdg d a b x64 s = _
  unfold execLdg
  simp only [h, hm, hp]
  rfl

end Gather

theorem inSpad_last {x : Word} (hs : inSpad x.toNat = true) (hal : x.toNat % 4 = 0) : inSpad (x.toNat + 3) = true := by
  rw [inSpad_iff] at hs ⊢
  omega

theorem gatherResult : Claims.GatherResult := by
  intro d a b x64 s at_ hok busiest
  have no_lane (bad : Word → Bool) (h : ∀ j, j < 128 → bad (at_ j) = false) : lowest bad (s.gatherLanes a b x64) = none := by
    refine lowest_eq_none (fun y hy => ?_)
    obtain ⟨j, hj, rfl⟩ := mem_gatherLanes.1 hy
    exact h j hj
  have hexec := exec_ldg_gathers (s := s) (d := d)
    (no_lane (fun x => !(inSpad x.toNat && inSpad (x.toNat + 3))) (fun j hj => by
      obtain ⟨hs, hal, -⟩ := hok j hj
      rw [hs, inSpad_last hs hal]
      rfl))
    (no_lane (fun x => x.toNat % 4 ≠ 0) (fun j hj => by simp [(hok j hj).2.1]))
    (no_lane (fun x => s.core.spadPoison (spadOff x)) (fun j hj => (hok j hj).2.2))
  rw [gatherExtra_eq] at hexec
  obtain ⟨hle, hatt⟩ := foldl_max_range (fun k => (s.bankGranules a b x64 k).length) 32
  refine ⟨_, s.bankCycles a b x64, ⟨s.bankGranules a b x64, fun k hk => ⟨?_, hle k hk, fun g => mem_bankGranules⟩, hatt⟩, hexec,
    fun i hi k hk => byte_gathered hi hk⟩
  exact (nodup_eraseDups _).filter _

/-- Settles O16: an STPK's granules hold its codes, and the busiest bank of a gather is the maximum over the banks. -/
theorem taggedAndGatheredAccess : Obligations.TaggedAndGatheredAccess := ⟨taggedVectorAccess, gatherResult⟩

end Sys2Proof.Machine
end

section
/-!
LEMMAS. Fields of words, and what each micro-operation does (spec/09 R188, R190, R191).
-/
open Sys2Proof

namespace Sys2Proof.Machine

/-! ### Fields of a word -/

theorem bits_eq_extract {w hi lo n : Nat} (x : BitVec w) (h : hi + 1 - lo = n) : bits x hi lo = (x.extractLsb' lo n).toNat := by
  rw [bits, h, BitVec.extractLsb'_toNat, Nat.shiftRight_eq_div_pow]

theorem bits_eq_zero_iff {w hi lo n : Nat} (x : BitVec w) (h : hi + 1 - lo = n) : bits x hi lo = 0 ↔ x.extractLsb' lo n = 0 := by
  rw [bits_eq_extract x h, BitVec.toNat_eq]
  rfl

theorem shapeField_eq (x : Word) (k : Nat) : shapeField x k = (x.extractLsb' (16 * k) 16).toNat := bits_eq_extract x (by omega)

/-! ### The routine in the engine -/

section Routine

variable {s : State} {r : Routine}

theorem withRoutine_eq (h : s.core.a.routine = some r) (f : Routine → State → State) : s.withRoutine f = f r s := by
  rw [State.withRoutine, h]

/-- A micro-operation of one cycle. -/
theorem micro_eq (h : s.core.a.routine = some r) (f : Routine → Routine) :
    s.micro f = s.routineNow { f r with upc := (f r).upc + 1 } := by
  exact congrArg (fun o : Option Routine =>
    s.withArch { s.core.a with routine := o.map (fun r => (f r).advance), eng := .timed 1 }) h

theorem onRoutine_eq (h : s.core.a.routine = some r) (f : Routine → Routine) :
    s.onRoutine f = s.withArch { s.core.a with routine := some (f r) } := by
  exact congrArg (fun o : Option Routine => s.withArch { s.core.a with routine := o.map f }) h

theorem onRoutine_timed (h : s.core.a.routine = some r) (f : Routine → Routine) :
    (s.onRoutine f).modA (fun a => { a with eng := .timed 1 }) = s.routineNow (f r) := by
  rw [onRoutine_eq h]
  rfl

theorem microIllegal_eq (h : s.core.a.routine = some r) : s.microIllegal = s.deferred .illegalOp (word r.upc) := by
  rw [State.microIllegal, h]
  rfl

/-- A micro-operation that only changes the routine. -/
theorem next_micro (h : s.core.a.routine = some r) (f : Routine → Routine) {i : Instr}
    (hi : exec i s = .next (s.withRoutine (fun _ s => s.micro f))) : exec i s = .next (s.routineNow { f r with upc := (f r).upc + 1 }) := by
  rw [hi, withRoutine_eq h, micro_eq h]

theorem exec_mAddp (h : s.core.a.routine = some r) (p q : ParamReg) (src : AddSrc) (x : BitVec 48) :
    exec (.mAddp p q src x) s = .next (s.routineNow { r with wp := r.wp.set p (r.wp[p] + addSource r q src x), upc := r.upc + 1 }) :=
  next_micro h (fun r => { r with wp := r.wp.set p (r.wp[p] + addSource r q src x) }) rfl

/-! ### m.loop, m.endloop and m.jcmp (R190, R191) -/

theorem exec_mLoop (h : s.core.a.routine = some r) (l : LoopNo) (n : BitVec 16) :
    exec (.mLoop l n) s = .next (if (r.loops[l]).act then s.deferred .illegalOp (word r.upc)
      else s.routineNow { r with loops := r.loops.set l ⟨true, r.upc + 1, n.toNat + 1⟩, upc := r.upc + 1 }) := by
  change execMLoop l n s = _
  rw [execMLoop, withRoutine_eq h, microIllegal_eq h, micro_eq h]

theorem exec_mEndloop (h : s.core.a.routine = some r) (l : LoopNo) :
    exec (.mEndloop l) s = .next (if !(r.loops[l]).act then s.deferred .illegalOp (word r.upc)
      else if 1 < (r.loops[l]).count then
        s.routineNow { r with loops := r.loops.set l { r.loops[l] with count := (r.loops[l]).count - 1 }, upc := (r.loops[l]).start }
      else s.routineNow { r with loops := r.loops.set l ⟨false, 0, 0⟩, upc := r.upc + 1 }) := by
  change execMEndloop l s = _
  rw [execMEndloop, withRoutine_eq h, microIllegal_eq h, micro_eq h]
  dsimp only
  rw [onRoutine_timed h]

/-- Whether the jump of an m.jcmp is taken. -/
def jumpTaken (c : MicroCond) (x y : Nat) : Bool :=
  match c with
  | .lt => decide (x < y)
  | .ge => decide (y ≤ x)
  | .eq => decide (x = y)
  | .ne => decide (x ≠ y)

theorem exec_mJcmp (h : s.core.a.routine = some r) (p q : ParamReg) (cc : MicroCond) (f : MicroField) (t : BitVec 12) :
    exec (.mJcmp p q cc f t) s =
      .next (s.routineNow { r with upc := if jumpTaken cc (r.wp[p]).toNat (fieldOf (r.wp[q]) f) then t.toNat else r.upc + 1 }) := by
  change execMJcmp p q cc f t s = _
  rw [execMJcmp, withRoutine_eq h, micro_eq h]
  dsimp only
  rw [onRoutine_timed h]
  have htaken : (match cc with
      | .lt => decide ((r.wp[p]).toNat < fieldOf (r.wp[q]) f)
      | .ge => decide (fieldOf (r.wp[q]) f ≤ (r.wp[p]).toNat)
      | .eq => (r.wp[p]).toNat == fieldOf (r.wp[q]) f
      | .ne => (r.wp[p]).toNat != fieldOf (r.wp[q]) f) = jumpTaken cc (r.wp[p]).toNat (fieldOf (r.wp[q]) f) := by
    cases cc with
    | lt => rfl
    | ge => rfl
    | eq => exact beq_eq_decide _ _
    | ne => exact (congrArg not (beq_eq_decide _ _)).trans (decide_not).symm
  refine congrArg Host.Outcome.next ?_
  refine (congrArg (fun b : Bool => if b = true then _ else _) htaken).trans ?_
  cases jumpTaken cc (r.wp[p]).toNat (fieldOf (r.wp[q]) f) <;> rfl

/-! ### m.shape (R188, R191) -/

/-- The test that m.shape makes. -/
def shapeTest (p q g : Word) : Bool :=
  let okDim (x : Nat) := decide (16 ≤ x ∧ x ≤ 128) && x % 16 = 0
  let okOrg (x : Nat) := decide (x ≤ 112) && x % 16 = 0
  okDim (shapeField p 0) && okDim (shapeField p 1) && (shapeField q 0 = 16 || shapeField q 0 = 32 || shapeField q 0 = 64 || shapeField q 0 = 128) &&
    decide (shapeField q 0 ≤ shapeField p 2) && shapeField p 2 % shapeField q 0 = 0 && okOrg (shapeField g 0) && okOrg (shapeField g 1) &&
    bits p 63 48 = 0 && bits q 63 16 = 0 && bits g 63 32 = 0

theorem shapeTest_iff (p q g : Word) : shapeTest p q g = true ↔ shapeLegal p q g := by
  have hp := bits_eq_zero_iff (hi := 63) (lo := 48) (n := 16) p rfl
  have hq := bits_eq_zero_iff (hi := 63) (lo := 16) (n := 48) q rfl
  have hg := bits_eq_zero_iff (hi := 63) (lo := 32) (n := 32) g rfl
  simp only [shapeTest, Bool.and_eq_true, Bool.or_eq_true, decide_eq_true_eq, hp, hq, hg, shapeField_eq, shapeLegal, and_assoc, or_assoc]

theorem shapeOf_eq (p q g : Word) : shapeOf p q g = if shapeTest p q g then some ⟨shapeField p 0, shapeField p 1, shapeField p 2,
    shapeField q 0, shapeField g 0, shapeField g 1⟩ else none := rfl

theorem shapeOf_eq_some {p q g : Word} (h : shapeLegal p q g) : shapeOf p q g = some ⟨shapeField p 0, shapeField p 1, shapeField p 2,
    shapeField q 0, shapeField g 0, shapeField g 1⟩ := by
  rw [shapeOf_eq, if_pos ((shapeTest_iff p q g).2 h)]

theorem shapeOf_eq_none {p q g : Word} (h : ¬shapeLegal p q g) : shapeOf p q g = none := by
  rw [shapeOf_eq, if_neg (mt (shapeTest_iff p q g).1 h)]

theorem exec_mShape (h : s.core.a.routine = some r) (p q g : ParamReg) :
    exec (.mShape p q g) s = .next (match shapeOf r.wp[p] r.wp[q] r.wp[g] with
      | none => s.deferred .badShape (word r.upc)
      | some sh => s.routineNow { r with shape := some sh, upc := r.upc + 1 }) := by
  change execMShape p q g s = _
  rw [execMShape, withRoutine_eq h]
  cases shapeOf r.wp[p] r.wp[q] r.wp[g] with
  | none => rfl
  | some sh => exact congrArg _ (micro_eq h _)

/-! ### m.permit, m.end and m.seal (R190) -/

theorem exec_mPermit (h : s.core.a.routine = some r) (n : BitVec 16) :
    exec (.mPermit n) s = .next (if n.toNat = 0 then s.routineNow { r with full := true, upc := r.upc + 1 }
      else (s.withArch { s.core.a with
        routine := some { r with full := true, upc := r.upc + 1 }, eng := .tokens 1, stat := { s.core.a.stat with pw := true } }).requestTokens
          n.toNat none) := by
  change execMPermit n s = _
  rw [execMPermit, withRoutine_eq h, micro_eq h]
  dsimp only
  rw [onRoutine_eq h]
  rfl

theorem requestTokens_core (n : Nat) (d : Option Reg) (s : State) : (s.requestTokens n d).core = s.core := onCluster_core ..

theorem exec_mEnd (h : s.core.a.routine = some r) : exec .mEnd s = .next (s.withArch { s.core.a with
    routine := none, eng := if r.sealEnd then .sealNext r.tile r.spc else .timed 1, stat := { s.core.a.stat with rowp := 0 } }) := by
  change execMEnd s = _
  rw [execMEnd, State.endRoutine, withRoutine_eq h]
  rfl

theorem exec_mSeal (h : s.core.a.routine = some r) :
    exec .mSeal s = .next ((s.withArch { s.core.a with routine := some { r with upc := r.upc + 1 } }).startSeal r.tile r.spc) := by
  change execMSeal s = _
  rw [execMSeal, withRoutine_eq h, onRoutine_eq h]
  rfl

end Routine

/-- A seal leaves the routine, and a tile without a pending seal has one then (R196). -/
theorem startSeal_routine (t : TileNo) (spc : Word) (s : State) : (s.startSeal t spc).core.a.routine = s.core.a.routine := by
  unfold State.startSeal
  dsimp only
  split
  · rfl
  · split <;> rfl

theorem startSeal_pending {t : TileNo} (spc : Word) {s : State} (h : (s.core.a.tiles[t]).pending = none) :
    (((s.startSeal t spc).core.a.tiles[t]).pending).isSome = true := by
  unfold State.startSeal
  dsimp only
  rw [if_neg (by rw [h]; exact Bool.false_ne_true)]
  split
  · exact congrArg (fun x : TileState => x.pending.isSome) (Vector.getElem_set_self _)
  · exact congrArg (fun x : TileState => x.pending.isSome) (Vector.getElem_set_self _)

theorem microOperationResults : Claims.MicroOperationResults := by
  intro s r p q g h go bad
  refine ⟨next_micro h (fun r => { r with a := some (r.wp[p], r.wp[q]) }) rfl, next_micro h (fun r => { r with b := some (r.wp[p], r.wp[q]) }) rfl,
    fun x => ⟨exec_mAddp h p q .wp x, exec_mAddp h p q .imm x, exec_mAddp h p q .adva x, exec_mAddp h p q .advb x, fun sh hsh => ?_,
      next_micro h (fun r => { r with wp := r.wp.set p r.wp[q] }) rfl, next_micro h (fun r => { r with wp := r.wp.set p (x.setWidth 64) }) rfl⟩,
    fun l n => ⟨fun ha => ?_, fun ha => ?_, fun ha => ?_, fun ha hc => ?_,
    fun ha hc => ?_⟩, fun cc f t => ?_, fun hl => ?_, fun hl => ?_, fun fa fb =>
      next_micro h (fun r => { r with fa := fa.toNat, fb := fb.toNat }) rfl, fun n => ?_, ?_, ?_⟩
  · refine (exec_mAddp h p q .kg x).trans ?_
    dsimp only [addSource]
    rw [hsh]
    rfl
  · exact (exec_mLoop h l n).trans (congrArg _ (if_neg (ne_true_of_eq_false ha)))
  · exact (exec_mLoop h l n).trans (congrArg _ (if_pos ha))
  · exact (exec_mEndloop h l).trans (congrArg _ (if_pos (by rw [ha]; rfl)))
  · exact (exec_mEndloop h l).trans (congrArg _ ((if_neg (by rw [ha]; exact Bool.false_ne_true)).trans (if_pos hc)))
  · exact ⟨_, rfl, (exec_mEndloop h l).trans (congrArg _
      ((if_neg (by rw [ha]; exact Bool.false_ne_true)).trans (if_neg (Nat.not_lt.2 hc))))⟩
  · intro y x holds
    refine (exec_mJcmp h p q cc f t).trans ?_
    have hy : fieldOf r.wp[q] f = y := by
      cases f with
      | whole => rfl
      | part k => exact shapeField_eq _ _
    rw [hy]
    cases cc <;> rfl
  · have hexec := exec_mShape h p q g
    rw [shapeOf_eq_some hl] at hexec
    exact ⟨_, hexec, shapeField_eq _ 0, shapeField_eq _ 1, shapeField_eq _ 2, shapeField_eq _ 0, shapeField_eq _ 0, shapeField_eq _ 1⟩
  · refine (exec_mShape h p q g).trans ?_
    rw [shapeOf_eq_none hl]
    rfl
  · refine ⟨_, exec_mPermit h n, ?_, fun hn => ?_, fun hn => ?_⟩
    · split
      · rfl
      · rw [requestTokens_core]
        rfl
    · rw [if_pos (by rw [hn]; rfl)]
      exact ⟨rfl, rfl⟩
    · have hz : n.toNat ≠ 0 := fun c => hn (BitVec.eq_of_toNat_eq c)
      rw [if_neg hz, requestTokens_core]
      exact ⟨rfl, rfl⟩
  · exact ⟨_, exec_mEnd h, rfl, rfl, rfl⟩
  · exact ⟨_, exec_mSeal h, startSeal_routine .., fun hp => startSeal_pending r.spc hp⟩

/-! ### m.drain (R181, R190, R194) -/

section Drain

variable {s : State} {t : TileNo} {addr geo tag : Word} {z nw : Bool} {mode : DrainMode} {sl fl : Bool} {spc : Word}

/-- The drain that the engine takes. -/
def State.drainOp (s : State) (t : TileNo) (addr geo tag : Word) (z nw : Bool) (mode : DrainMode) (sl fl : Bool) (spc : Word) : DrainOp :=
  { id := s.core.nextId, tile := t, row0 := geoRow0 geo, n := geoRows geo, next := 0, wait := 4, addr := addr,
    stride := geoStride geo, tag := tag, z := z, nw := nw, mode := mode, sealEnd := sl, fl := fl, rd := false, fresh := !fl, spc := spc }

/-- A drain goes to the engine and opens its tile's period (R194). -/
theorem startDrain_eq (h : s.core.a.frozen0 = false) : s.startDrain t addr geo tag z nw mode sl fl spc =
    (s.newId.2.onTile t TileState.openPeriod).modA (fun a =>
      { a with eng := .drain (s.drainOp t addr geo tag z nw mode sl fl spc), drains := a.drains ++ [s.core.nextId] }) := by
  have hfrozen : s.core.a.drainFrozen addr geo tag nw = none := by
    rw [Arch.drainFrozen, h, Bool.not_false, Bool.or_true, if_pos rfl]
  unfold State.startDrain
  rw [hfrozen]
  rfl

/-- The free value that the faults of a drain take is used by an NW drain alone. -/
theorem drainFault_drainOpen (s : State) : drainFault addr geo tag nw mode (s.drainOpen nw).1 = drainFault addr geo tag nw mode (Config.freeWord s.free) := by
  cases nw <;> rfl

theorem geoRow0_eq (g : Word) : geoRow0 g = (g.extractLsb' 32 7).toNat := bits_eq_extract g rfl

theorem geoRows_eq (g : Word) : geoRows g = (g.extractLsb' 40 7).toNat + 1 := congrArg (· + 1) (bits_eq_extract g rfl)

theorem geoStride_eq (g : Word) : geoStride g = (g.extractLsb' 0 32).toNat := bits_eq_extract g rfl

variable {r : Routine} {p g q : ParamReg}

theorem exec_mDrain_fault {c : Cause} {x : Word} (h : s.core.a.routine = some r)
    (hf : drainFault r.wp[p] r.wp[g] r.wp[q] nw mode (s.drainOpen nw).1 = some (c, x)) :
    exec (.mDrain p g q z nw mode sl) s =
      .next ((s.drainOpen nw).2.engFault c (if c = .badShape ∨ c = .badTag then word r.upc else x)) := by
  change execMDrain p g q z nw mode sl s = _
  rw [execMDrain, withRoutine_eq h]
  dsimp only
  rw [hf]

theorem exec_mDrain_starts (h : s.core.a.routine = some r)
    (hf : drainFault r.wp[p] r.wp[g] r.wp[q] nw mode (s.drainOpen nw).1 = none) :
    exec (.mDrain p g q z nw mode sl) s = .next ((s.withArch { s.core.a with routine := some { r with upc := r.upc + 1 } }).startDrain
      r.tile r.wp[p] r.wp[g] r.wp[q] z nw mode sl false r.spc) := by
  change execMDrain p g q z nw mode sl s = _
  rw [execMDrain, withRoutine_eq h, onRoutine_eq h]
  dsimp only
  rw [hf]
  rfl

end Drain

theorem microDrainResult : Claims.MicroDrainResult := by
  intro s r p g t z nw mode sl h bad
  refine ⟨fun hb hfr => ?_, fun c x hb hn => ?_, fun c x hb hn => ?_⟩
  · refine ⟨_, _, (exec_mDrain_starts h ((drainFault_drainOpen s).trans hb)).trans (congrArg _ (startDrain_eq hfr)), rfl, rfl,
      geoRow0_eq _, geoRows_eq _, rfl, rfl, rfl, rfl, rfl, rfl, rfl, rfl⟩
  · subst hn
    exact exec_mDrain_fault h ((drainFault_drainOpen s).trans hb)
  · subst hn
    exact ⟨_, exec_mDrain_fault h ((drainFault_drainOpen s).trans hb)⟩

/-- Settles O20: a micro-operation of one cycle is a change of the routine in the engine; m.drain is a drain as MDRAIN starts one. -/
theorem microOperations : Obligations.MicroOperations := ⟨microOperationResults, microDrainResult⟩

end Sys2Proof.Machine
end

section
/-!
LEMMAS. Parameters, the engine's status word, calls, and the loading of microprograms (spec/09 R180, R182, R183, R192, R198, R199).
-/
open Sys2Proof

namespace Sys2Proof.Machine

/-! ### Parameters and status (R182, R198, R199) -/

theorem mstat_eq_fields (c : Core) : c.mstat = c.mstatFields := by
  have h0 : c.a.tiles[(0 : Fin 4)] = c.a.tiles[0] := rfl
  have h1 : c.a.tiles[(1 : Fin 4)] = c.a.tiles[1] := rfl
  have h2 : c.a.tiles[(2 : Fin 4)] = c.a.tiles[2] := rfl
  have h3 : c.a.tiles[(3 : Fin 4)] = c.a.tiles[3] := rfl
  apply BitVec.eq_of_toNat_eq
  simp only [Core.mstat, Core.mstatFields, h0, h1, h2, h3, List.range, List.range.loop, List.foldl, vector_getD_eq_getElem _ _ (show 0 < 4 by decide),
    vector_getD_eq_getElem _ _ (show 1 < 4 by decide), vector_getD_eq_getElem _ _ (show 2 < 4 by decide),
    vector_getD_eq_getElem _ _ (show 3 < 4 by decide), toNat_word, toNat_append_add, toNat_flag, bitAt_eq_mul, BitVec.toNat_ofNat]
  have := Bool.toNat_lt c.sp
  have := Bool.toNat_lt c.a.stat.pw
  have := Bool.toNat_lt c.a.engBusy
  have := Bool.toNat_lt c.a.tiles[0].isOpen
  have := Bool.toNat_lt c.a.tiles[1].isOpen
  have := Bool.toNat_lt c.a.tiles[2].isOpen
  have := Bool.toNat_lt c.a.tiles[3].isOpen
  have := Bool.toNat_lt c.a.tiles[0].pending.isSome
  have := Bool.toNat_lt c.a.tiles[1].pending.isSome
  have := Bool.toNat_lt c.a.tiles[2].pending.isSome
  have := Bool.toNat_lt c.a.tiles[3].pending.isSome
  have : min 15 (c.a.drains.filter c.drainActive).length ≤ 15 := Nat.min_le_left _ _
  generalize min 15 (c.a.drains.filter c.drainActive).length = k at *
  omega

/-- The seals that an MWAIT waits for hold every pending one. -/
theorem mem_sealsOut {a : Arch} {u : TileNo} {ps : PendSeal} (h : (a.tiles[u]).pending = some ps) : (u, ps.period) ∈ a.sealsOut :=
  List.mem_append_left _ (List.mem_filterMap.2 ⟨u, List.mem_finRange u, by rw [h]; rfl⟩)

/-- The wait that an MWAIT begins. -/
def Arch.newWait (a : Arch) (d : Reg) (c : MWaitCond) : MWait :=
  ⟨d, c, if c = .free then [] else a.drains, if c = .seals then a.sealsOut else [],
    c = .seals && (match a.routine with
      | some r => r.sealEnd
      | none => false)⟩

theorem markEmpty_a (d : Reg) (s : State) : ∃ fs tr, (s.markEmpty d).core.a = { s.core.a with flights := fs, trap := tr } := by
  unfold State.markEmpty
  split
  · exact ⟨_, _, rfl⟩
  · exact ⟨_, _, rfl⟩

theorem exec_mwait (d : Reg) (c : MWaitCond) (s : State) :
    exec (.mwait d c) s = .next ((s.markEmpty d).withArch { (s.markEmpty d).core.a with mwaits := s.core.a.mwaits ++ [s.core.a.newWait d c] }) := by
  have h : exec (.mwait d c) s = .next ((s.markEmpty d).withArch
      { (s.markEmpty d).core.a with mwaits := (s.markEmpty d).core.a.mwaits ++ [(s.markEmpty d).core.a.newWait d c] }) := rfl
  obtain ⟨fs, tr, ha⟩ := markEmpty_a d s
  rw [h, ha]
  rfl

theorem matrixParameterAndStatus : Claims.MatrixParameterAndStatus := by
  intro p a d i c s
  refine ⟨rfl, rfl, rfl, ?_, _, _, exec_mwait d c s, rfl, rfl, rfl, rfl, fun u ps h hc => ?_, fun ro hr hc => ?_, fun hc => ⟨?_, ?_⟩⟩
  · rw [← mstat_eq_fields]
    rfl
  · rw [Arch.newWait, if_pos hc]
    exact mem_sealsOut h
  · rw [Arch.newWait, hr, hc]
    rfl
  · exact if_neg hc
  · change (decide (c = .seals) && _) = false
    rw [decide_eq_false hc]
    rfl

/-! ### Calls (R183, R292) -/

section Calls

variable {h sl : Bool} {t : TileNo} {r : BitVec 8} {s : State}

theorem exec_mcall_invalid (he : s.core.entry? r.toNat = none) :
    exec (.mcall h sl t r) s = .next (s.fault 4 .illegalOp (word (s.core.a.words.getD 4 0))) := by
  change execMcall h sl t r s = _
  rw [execMcall, he]
  rfl

/-- The state in which a routine has started. -/
def State.called (s : State) (h sl : Bool) (t : TileNo) (r upc : Nat) : State :=
  let wait := h && callTokens r s.core.a.mp != 0
  let start := if r < 4 then 11 else 4
  s.withArch { s.core.a with
    routine := some (Routine.start r t upc s.core.a.mp h sl s.core.a.pc), eng := if wait then .tokens start else .timed start,
    stat := { s.core.a.stat with rix := r, rowp := 0, pw := wait } }

theorem exec_mcall_valid {upc : Nat} (he : s.core.entry? r.toNat = some upc) :
    exec (.mcall h sl t r) s = .next (if h && callTokens r.toNat s.core.a.mp != 0 then
      (s.called h sl t r.toNat upc).requestTokens (callTokens r.toNat s.core.a.mp) none else s.called h sl t r.toNat upc) := by
  change execMcall h sl t r s = _
  rw [execMcall, he]
  rfl

end Calls

theorem callTokens_eq (r : Nat) (mp : Vector Word 8) :
    callTokens r mp = if r < 32 then
      max 1 (((mp[4].extractLsb' (16 * 0) 16).toNat * (mp[4].extractLsb' (16 * 1) 16).toNat * (mp[4].extractLsb' (16 * 2) 16).toNat + 3276799) / 3276800)
      else (mp[7].extractLsb' (16 * 0) 16).toNat := by
  rw [callTokens]
  simp only [shapeField_eq]
  rfl

theorem requestTokens_reqs (n : Nat) (d : Option Reg) (s : State) {k : Nat} (hk : k < 32) (h : clusterOf s.core.id = k) :
    ((s.requestTokens n d).clusters[k]).reqs = (s.clusters[k]).reqs ++ [⟨s.core.id, n, d⟩] := by
  subst h
  unfold State.requestTokens State.onCluster
  rw [dif_pos hk]
  exact congrArg Cluster.reqs (Vector.getElem_set_self _)

theorem matrixCallStartsRoutine : Claims.MatrixCallStartsRoutine := by
  intro h sl t r s entry
  have hentry : entry = s.core.entry? r.toNat := rfl
  refine ⟨fun he => exec_mcall_invalid (hentry ▸ he), fun upc he => ?_⟩
  intro mp part work n
  have hexec := exec_mcall_valid (h := h) (sl := sl) (t := t) (hentry ▸ he : s.core.entry? r.toNat = some upc)
  have hn : callTokens r.toNat s.core.a.mp = n := callTokens_eq ..
  have hcalled : s.called h sl t r.toNat upc = s.withArch { s.core.a with
      routine := some (Routine.start r.toNat t upc s.core.a.mp h sl s.core.a.pc),
      eng := if h && n != 0 then .tokens (if r.toNat < 4 then 11 else 4) else .timed (if r.toNat < 4 then 11 else 4),
      stat := { s.core.a.stat with rix := r.toNat, rowp := 0, pw := h && n != 0 } } := by
    rw [← hn]
    rfl
  have hloops (l : LoopNo) : ((Vector.replicate 4 (⟨false, 0, 0⟩ : MLoop))[l]).act = false := by
    rw [Fin.getElem_fin, Vector.getElem_replicate]
  rw [hn, hcalled] at hexec
  clear_value n
  cases hw : (h && n != 0) with
  | true =>
    rw [hw, if_pos rfl] at hexec
    have hcore := requestTokens_core n none (s.withArch { s.core.a with
      routine := some (Routine.start r.toNat t upc s.core.a.mp h sl s.core.a.pc),
      eng := if true then .tokens (if r.toNat < 4 then 11 else 4) else .timed (if r.toNat < 4 then 11 else 4),
      stat := { s.core.a.stat with rix := r.toNat, rowp := 0, pw := true } })
    refine ⟨_, Routine.start r.toNat t upc s.core.a.mp h sl s.core.a.pc, hexec, ?_⟩
    rw [hcore]
    exact ⟨rfl, rfl, rfl, rfl, rfl, rfl, rfl, rfl, rfl, rfl, hloops, rfl, rfl, rfl, rfl, rfl, fun hc => requestTokens_reqs n none _ hc rfl⟩
  | false =>
    rw [hw, if_neg Bool.false_ne_true] at hexec
    exact ⟨_, Routine.start r.toNat t upc s.core.a.mp h sl s.core.a.pc, hexec, rfl, rfl, rfl, rfl, rfl, rfl, rfl, rfl, rfl, rfl, hloops, rfl, rfl,
      rfl, rfl, rfl, rfl⟩

/-! ### Microprograms (R180, R192) -/

theorem tblGet_tblPut {α : Type} (t : Tbl α) (a : Nat) (x : α) (b : Nat) : tblGet (tblPut t a x) b = if b = a then some x else tblGet t b := by
  induction t with
  | nil => simp only [tblPut, tblGet, eq_comm]
  | cons e rest ih =>
    obtain ⟨k, y⟩ := e
    by_cases hb : b = a
    · subst hb
      rw [if_pos rfl, tblPut]
      split
      · rw [tblGet, if_pos rfl]
      · split
        · rw [tblGet, if_pos rfl]
        next h => rw [tblGet, if_neg (Ne.symm h), ih, if_pos rfl]
    · rw [if_neg hb, tblPut]
      split
      · rw [tblGet, if_neg (Ne.symm hb)]
      · split
        next h => rw [tblGet, tblGet, ← h, if_neg (Ne.symm hb), if_neg (Ne.symm hb)]
        next => rw [tblGet, tblGet, ih, if_neg hb]

/-- What is read after several entries were set. -/
theorem tblGet_foldl_tblPut {α : Type} (t : Tbl α) (key : Nat → Nat) (x : Nat → α) (hkey : ∀ i j, key i = key j → i = j) (n b : Nat) :
    (∀ i, i < n → b = key i → tblGet ((List.range n).foldl (fun u i => tblPut u (key i) (x i)) t) b = some (x i)) ∧
      ((∀ i, i < n → b ≠ key i) → tblGet ((List.range n).foldl (fun u i => tblPut u (key i) (x i)) t) b = tblGet t b) := by
  induction n with
  | zero => exact ⟨fun i h => absurd h (Nat.not_lt_zero i), fun _ => rfl⟩
  | succ n ih =>
    obtain ⟨hset, hkeep⟩ := ih
    rw [List.range_succ, List.foldl_append, List.foldl_cons, List.foldl_nil, tblGet_tblPut]
    refine ⟨fun i hi hb => ?_, fun h => ?_⟩
    · split
      next e => rw [hkey i n (hb.symm.trans e)]
      next e =>
        refine hset i (Nat.lt_of_le_of_ne (Nat.le_of_lt_succ hi) (fun c => e ?_)) hb
        rw [hb, c]
    · rw [if_neg (h n (Nat.lt_succ_self n))]
      exact hkeep (fun i hi => h i (Nat.lt_succ_of_lt hi))

section Mlduc

variable {a b : Reg} {s : State}

/-- MLDUC's first index and number of words. -/
def mlducFirst (x : Word) : Nat := bits x 11 0
def mlducCount (x : Word) : Nat := bits x 27 16

/-- Whether the target or the source of an MLDUC lies where it may not. -/
def mlducOutside (va x : Word) : Bool :=
  !inSpad va.toNat || (mlducCount x != 0 && !inSpad (va.toNat + 8 * mlducCount x - 1)) || decide (mlducFirst x < 1024) ||
    decide (4096 < mlducFirst x + mlducCount x)

/-- Whether the word of an MLDUC names no words or sets a reserved bit. -/
def mlducMisshapen (x : Word) : Prop := mlducCount x = 0 ∨ bits x 63 28 ≠ 0 ∨ bits x 15 12 ≠ 0

theorem exec_mlduc_outside (h : mlducOutside (s.core.a.rd a) (s.core.a.rd b) = true) :
    exec (.mlduc a b) s = .next (s.fault 4 .prot (s.core.a.rd a)) := by
  change execMlduc a b s = _
  unfold execMlduc
  exact congrArg _ (if_pos h)

variable (h : mlducOutside (s.core.a.rd a) (s.core.a.rd b) = false)
include h

theorem exec_mlduc_misaligned (hm : (s.core.a.rd a).toNat % 64 ≠ 0) : exec (.mlduc a b) s = .next (s.fault 4 .misaligned (s.core.a.rd a)) := by
  change execMlduc a b s = _
  unfold execMlduc
  exact congrArg _ ((if_neg (ne_true_of_eq_false h)).trans (if_pos hm))

variable (hm : (s.core.a.rd a).toNat % 64 = 0)
include hm

theorem exec_mlduc_misshapen (hb : mlducMisshapen (s.core.a.rd b)) : exec (.mlduc a b) s = .next (s.fault 4 .badShape 0) := by
  change execMlduc a b s = _
  unfold execMlduc
  refine congrArg _ ((if_neg (ne_true_of_eq_false h)).trans ((if_neg (not_not.2 hm)).trans (if_pos ?_)))
  simpa [mlducMisshapen, mlducCount, or_assoc] using hb

/-- The micro-words that an MLDUC stores. -/
def State.microLoaded (s : State) (va x : Word) : Tbl Word :=
  (List.range (mlducCount x)).foldl (fun u i =>
    tblPut u (microKey s.core.a.ctx (mlducFirst x + i)) (word (s.core.spadNat (spadOff va + 8 * i) 8))) s.core.ustore

theorem exec_mlduc_loads (hb : ¬mlducMisshapen (s.core.a.rd b))
    (hp : s.core.spadPoisonIn (spadOff (s.core.a.rd a)) (8 * mlducCount (s.core.a.rd b)) = none) :
    exec (.mlduc a b) s = .next (({ s with core := { s.core with ustore := s.microLoaded (s.core.a.rd a) (s.core.a.rd b) } } : State).withEngine
      (.timed (2 + cdiv (mlducCount (s.core.a.rd b)) 8))) := by
  change execMlduc a b s = _
  unfold execMlduc
  refine congrArg _ ((if_neg (ne_true_of_eq_false h)).trans ((if_neg (not_not.2 hm)).trans ((if_neg ?_).trans ?_)))
  · simpa [mlducMisshapen, mlducCount, or_assoc] using hb
  · obtain ⟨poisonIn, e⟩ := exists_eq (a' := Core.spadPoisonIn)
    rw [← e] at hp ⊢
    unfold mlducCount at hp
    dsimp only
    rw [hp]
    rfl

end Mlduc

theorem microKey_injective (ctx first : Nat) (i j : Nat) (h : microKey ctx (first + i) = microKey ctx (first + j)) : i = j := by
  unfold microKey at h
  omega

theorem mlducFirst_eq (x : Word) : mlducFirst x = (x.extractLsb' 0 12).toNat := bits_eq_extract x rfl

theorem mlducCount_eq (x : Word) : mlducCount x = (x.extractLsb' 16 12).toNat := bits_eq_extract x rfl

theorem mlducMisshapen_iff (x : Word) : mlducMisshapen x ↔ (x.extractLsb' 16 12).toNat = 0 ∨ x.extractLsb' 28 36 ≠ 0 ∨ x.extractLsb' 12 4 ≠ 0 := by
  rw [mlducMisshapen, mlducCount_eq, ne_eq, bits_eq_zero_iff (n := 36) x rfl, ne_eq, bits_eq_zero_iff (n := 4) x rfl]

theorem mlducOutside_eq_false_iff (va x : Word) : mlducOutside va x = false ↔
    inSpad va.toNat = true ∧ (0 < (x.extractLsb' 16 12).toNat → inSpad (va.toNat + 8 * (x.extractLsb' 16 12).toNat - 1) = true) ∧
      1024 ≤ (x.extractLsb' 0 12).toNat ∧ (x.extractLsb' 0 12).toNat + (x.extractLsb' 16 12).toNat ≤ 4096 := by
  simp [mlducOutside, mlducFirst_eq, mlducCount_eq, and_assoc, Nat.pos_iff_ne_zero]

/-- An entry of the running context's routines set. -/
def State.withEntry (s : State) (e i : Nat) : State :=
  { s with core := { s.core with entries := tblPut s.core.entries (entryKey s.core.a.ctx e) i } }

theorem exec_mlducEnt (a b : Reg) (s : State) :
    exec (.mlducEnt a b) s = .next (if bits (s.core.a.rd a) 63 8 != 0 || decide (bits (s.core.a.rd a) 7 0 < 32) then
        s.fault 4 .prot (s.core.a.rd a)
      else (s.withEntry (bits (s.core.a.rd a) 7 0) (bits (s.core.a.rd b) 11 0)).withEngine (.timed 1)) := rfl

theorem microprogramLoads : Claims.MicroprogramLoads := by
  intro a b s va x first n off
  have hlow : bits va 7 0 = va.toNat % 256 := by rw [bits]; omega
  have hhigh : bits va 63 8 = 0 ↔ va.extractLsb' 8 56 = 0 := bits_eq_zero_iff va rfl
  have hdiv : bits va 63 8 = va.toNat / 256 := by
    have := va.isLt
    rw [bits]
    omega
  refine ⟨fun h1 h2 hn hf hl hal hs hlast hc => ?_, fun h => ?_, fun hf hl hs hlast => ⟨fun hal => ?_, fun hal h => ?_⟩, fun h h32 => ?_,
    fun h => ?_⟩
  · have hout := (mlducOutside_eq_false_iff va x).2 ⟨hs, fun _ => hlast, hf, hl⟩
    have hcount := mlducCount_eq x
    have hp : s.core.spadPoisonIn (spadOff va) (8 * mlducCount x) = none := by
      rw [hcount]
      exact spadPoisonIn_of_clean (by omega) hc
    have hexec := exec_mlduc_loads hout hal
      (fun c => ((mlducMisshapen_iff x).1 c).elim (Nat.ne_of_gt hn) (fun c => c.elim (absurd h1) (absurd h2))) hp
    refine ⟨_, hexec, rfl, fun j hj => ?_, fun i hi => ⟨word (s.core.spadNat (spadOff va + 8 * i) 8), ?_, fun k hk => ?_⟩⟩
    · exact (tblGet_foldl_tblPut _ _ _ (microKey_injective _ _) _ j).2
        (fun i hi => by rw [mlducFirst_eq]; exact hj i (lt_of_lt_of_eq hi hcount))
    · exact (tblGet_foldl_tblPut _ _ _ (microKey_injective _ _) _ _).1 i (lt_of_lt_of_eq hi hcount.symm) (by rw [mlducFirst_eq])
    · exact byte_ofNat_spadNat hk (by decide)
  · refine exec_mlduc_outside ?_
    rw [← Bool.not_eq_false, mlducOutside_eq_false_iff]
    rintro ⟨hs, -, hf, hl⟩
    rcases h with h | h | h
    · exact absurd hf (Nat.not_le.2 h)
    · exact absurd hl (Nat.not_le.2 h)
    · rw [hs] at h
      cases h
  · exact exec_mlduc_misaligned ((mlducOutside_eq_false_iff va x).2 ⟨hs, hlast, hf, hl⟩) hal
  · exact exec_mlduc_misshapen ((mlducOutside_eq_false_iff va x).2 ⟨hs, hlast, hf, hl⟩) hal ((mlducMisshapen_iff x).2 h)
  · have hz := hhigh.2 h
    have he : bits va 7 0 = va.toNat := by omega
    refine ⟨_, (exec_mlducEnt a b s).trans (congrArg _ (if_neg ?_)), rfl, fun e => ?_⟩
    · rw [hz, he]
      simpa using h32
    · refine (tblGet_tblPut _ _ _ e).trans ?_
      rw [he, bits_eq_extract (n := 12) x rfl]
  · refine (exec_mlducEnt a b s).trans (congrArg _ (if_pos ?_))
    rw [Bool.or_eq_true, bne_iff_ne, decide_eq_true_iff]
    rcases h with h | h
    · exact .inl (mt hhigh.1 h)
    · exact .inr (show bits va 7 0 < 32 by omega)

/-- Settles O18: a call is a routine started at its entry, and an MLDUC sets the entries of the words it names alone. -/
theorem matrixCallsAndPrograms : Obligations.MatrixCallsAndPrograms := ⟨matrixParameterAndStatus, matrixCallStartsRoutine, microprogramLoads⟩

end Sys2Proof.Machine
end

section
/-!
LEMMAS. Reads and writes of accumulators, the faults and the start of a drain, and the start of a seal (spec/09 R193 to R197,
spec/10 R205).
-/
open Sys2Proof

namespace Sys2Proof.Machine

/-! ### Elements of a tile -/

theorem lane_setLane (v : Vec) (c : Nat) (x : Lane) {j : Nat} (h : j < 128) : (setLane v c x).lane j = if j = c then x else v.lane j :=
  lane_ofFn _ h

theorem rowGet_tblPut (t : Tbl Vec) (r : Nat) (v : Vec) (i : Nat) : rowGet (tblPut t r v) i = if i = r then v else rowGet t i := by
  rw [rowGet, tblGet_tblPut]
  split <;> rfl

theorem elementOf_tblPut (t : Tbl Vec) (r : Nat) (v : Vec) (i j : Nat) :
    elementOf (tblPut t r v) i j = if i = r then v.lane j else elementOf t i j := by
  rw [elementOf, rowGet_tblPut]
  split <;> rfl

theorem elementOf_nil (i j : Nat) : elementOf [] i j = 0 := by
  exact BitVec.eq_of_getLsbD_eq (fun k _ => by simp [elementOf, rowGet, tblGet, Vec.lane])

/-- One element written into a path. -/
theorem elementOf_setLane (t : Tbl Vec) (r c : Nat) (x : Lane) (i : Nat) {j : Nat} (h : j < 128) :
    elementOf (tblPut t r (setLane (rowGet t r) c x)) i j = if i = r ∧ j = c then x else elementOf t i j := by
  rw [elementOf_tblPut, lane_setLane _ _ _ h]
  by_cases hi : i = r
  · subst hi
    simp only [true_and, if_true]
    rfl
  · simp [hi]

/-- Bytes of a row that comes from 512 bytes of the own scratchpad. -/
theorem byte_lane_spad (c : Core) (off : Nat) {j k : Nat} (hj : j < 128) (hk : k < 4) :
    ((Vec.lane (BitVec.ofNat 4096 (c.spadNat off 512)) j).extractLsb' (8 * k) 8) = c.spadByte (off + 4 * j + k) := by
  have h := byte_ofNat_spadNat (c := c) (off := off) (n := 512) (i := 4 * j + k) (w := 4096) (by omega) (by decide)
  rw [← Nat.add_assoc] at h
  rw [← h]
  refine BitVec.eq_of_getLsbD_eq (fun b hb => ?_)
  rw [Vec.lane, BitVec.getLsbD_extractLsb', BitVec.getLsbD_extractLsb', BitVec.getLsbD_extractLsb', decide_eq_true hb,
    decide_eq_true (by omega : 8 * k + b < 32), Bool.true_and, Bool.true_and, Bool.true_and]
  exact congrArg _ (by omega)

theorem openPeriod_rows (x : TileState) : x.openPeriod.isOpen = true ∧ x.openPeriod.p = x.p ∧ x.openPeriod.q = x.q ∧
    x.openPeriod.fp = x.fp ∧ x.openPeriod.fq = x.fq := by
  unfold TileState.openPeriod
  split
  next h => exact ⟨h, rfl, rfl, rfl, rfl⟩
  next => exact ⟨rfl, rfl, rfl, rfl, rfl⟩

section Access

variable {t : TileNo} {a b : Reg} {s : State}

theorem rowFormFault_none {va : Word} (hs : inSpad va.toNat = true) (hal : va.toNat % 64 = 0) (hlast : inSpad (va.toNat + 511) = true) :
    rowFormFault va = none := by
  unfold rowFormFault
  rw [if_neg (by rw [hs, hlast]; decide), if_neg (not_not.2 hal)]

theorem exec_maccwrRow (hf : rowFormFault (s.core.a.rd a) = none) (hp : s.core.spadPoisonIn (spadOff (s.core.a.rd a)) 512 = none) :
    exec (.maccwrRow t a b) s = .next ((s.withTile t ((s.core.a.tiles[t]).putRow (bits (s.core.a.rd b) 6 0)
      (BitVec.ofNat 4096 (s.core.spadNat (spadOff (s.core.a.rd a)) 512)) (BitVec.ofNat 4096 (s.core.spadNat (spadOff (s.core.a.rd a)) 512)))).withEngine
        (.timed 2)) := by
  change execMaccwrRow t a b s = _
  unfold execMaccwrRow
  obtain ⟨poisonIn, e⟩ := exists_eq (a' := Core.spadPoisonIn)
  rw [← e] at hp ⊢
  dsimp only
  rw [hf, hp]
  rfl

/-- The drain that MACCRD's row form is. -/
def State.rowRead (s : State) (t : TileNo) (a b : Reg) : DrainOp :=
  { id := s.core.nextId, tile := t, row0 := bits (s.core.a.rd b) 6 0, n := 1, next := 0, wait := 2, addr := s.core.a.rd a, stride := 0,
    tag := tagF32One, z := false, nw := false, mode := .tag, sealEnd := false, fl := true, rd := true, fresh := false, spc := s.core.a.pc }

theorem exec_maccrdRow (hf : rowFormFault (s.core.a.rd a) = none) :
    exec (.maccrdRow t a b) s = .next ((s.newId.2.onTile t TileState.openPeriod).modA (fun x =>
      { x with eng := .drain (s.rowRead t a b), drains := x.drains ++ [s.core.nextId] })) := by
  change execMaccrdRow t a b s = _
  unfold execMaccrdRow
  dsimp only
  rw [hf]
  rfl

theorem onTile_tile (t : TileNo) (f : TileState → TileState) (s : State) : (s.onTile t f).core.a.tiles[t] = f s.core.a.tiles[t] :=
  Vector.getElem_set_self _

end Access

theorem accumulatorAccess : Claims.AccumulatorAccess := by
  intro t d a b s x pos r c only
  have hr : bits pos 14 8 = r := bits_eq_extract pos rfl
  have hc : bits pos 6 0 = c := bits_eq_extract pos rfl
  refine ⟨⟨_, _, rfl, rfl, fun i j => ⟨elementOf_nil i j, elementOf_nil i j⟩⟩, ⟨_, _, rfl, rfl, fun i j _ hj => ?_⟩, ?_, fun hs hal hlast => ?_⟩
  · rw [← hr, ← hc]
    exact ⟨elementOf_setLane _ _ _ _ _ hj, elementOf_setLane _ _ _ _ _ hj⟩
  · obtain ⟨hopen, hp, hq, hfp, hfq⟩ := openPeriod_rows x
    refine ⟨_, { (x.openPeriod.foldBoth r) with tainted := true }, ?_, rfl, hp, hq, hopen, rfl, ?_, ?_⟩
    · rw [← hr, ← hc]
      rfl
    · exact congrArg₂ (fun f v => Folds.foldRow f r (rowGet v r)) hfp hp
    · exact congrArg₂ (fun f v => Folds.foldRow f r (rowGet v r)) hfq hq
  · intro off row
    have hf := rowFormFault_none hs hal hlast
    have hrow : bits (s.core.a.rd b) 6 0 = row := bits_eq_extract (s.core.a.rd b) rfl
    refine ⟨fun hclean => ⟨_, _, exec_maccwrRow hf (spadPoisonIn_of_clean (by decide) hclean), rfl, fun i j _ hj k hk => ?_⟩,
      _, _, exec_maccrdRow hf, rfl, rfl, hrow, rfl, rfl, rfl, rfl, rfl, rfl, rfl, ?_⟩
    · have hput (rows : Tbl Vec) : (elementOf (tblPut rows (bits (s.core.a.rd b) 6 0)
          (BitVec.ofNat 4096 (s.core.spadNat off 512))) i j).extractLsb' (8 * k) 8 =
          if i = row then s.core.spadByte (off + 4 * j + k) else (elementOf rows i j).extractLsb' (8 * k) 8 := by
        rw [elementOf_tblPut, hrow]
        split
        · exact byte_lane_spad s.core off hj hk
        · rfl
      exact ⟨hput x.p, hput x.q⟩
    · have htile : ((s.newId.2.onTile t TileState.openPeriod).core.a.tiles[t]) = x.openPeriod := onTile_tile t _ s.newId.2
      obtain ⟨hopen, hp, hq, -, -⟩ := openPeriod_rows x
      exact ⟨(congrArg TileState.isOpen htile).trans hopen, (congrArg TileState.p htile).trans hp, (congrArg TileState.q htile).trans hq, rfl⟩

/-! ### Drains (R194, R195) -/

theorem drainReach_iff (va n : Nat) (hn : 0 < n) : drainReach va n = true ↔
    va + n ≤ 0x00F0000000000000 ∨ (0x00F0000000000000 ≤ va ∧ va + n ≤ 0x00F0000000400000) := by
  have h : drainReach va n = true ↔ (windowOf va = .user ∧ windowOf (va + n - 1) = .user) ∨
      ((∃ o, windowOf va = .spad o) ∧ ∃ o, windowOf (va + n - 1) = .spad o) := by
    unfold drainReach
    cases windowOf va <;> cases windowOf (va + n - 1) <;> simp
  rw [h, windowOf_eq_user_iff, windowOf_eq_user_iff, windowOf_eq_spad_iff, windowOf_eq_spad_iff]
  omega

theorem rowGranules_pos (tag : Word) : 0 < 64 * rowGranules tag := by
  unfold rowGranules
  split
  next f _ => exact granules_bytes_pos f
  next => decide

theorem rowGranules_bytes (tag : Word) : 64 * rowGranules tag = match Fmt.ofCode (tagFmt tag) with
    | some f => 64 * (128 / f.elems)
    | none => 64 := by
  unfold rowGranules
  cases Fmt.ofCode (tagFmt tag) <;> rfl

section DrainFault

variable {addr geo tag : Word} {nw : Bool} {mode : DrainMode} {x : Word}

/-- Whether row `r` of a drain lies where it may. -/
def drainRowOk (addr geo tag : Word) (r : Nat) : Bool := drainReach (addr + word (r * geoStride geo)).toNat (64 * rowGranules tag)

/-- Whether a drain's address or stride is not a multiple of 64. -/
def drainAskew (addr geo : Word) (nw : Bool) : Bool := !nw && addr.toNat % 64 != 0 || geoStride geo % 64 != 0

/-- Whether a drain's tag is not good. -/
def drainUntagged (tag : Word) (nw : Bool) (mode : DrainMode) : Bool :=
  !nw && ((tagHeadFmt tag).isNone || (mode == .tag && !scaleOk (tagScale tag)))

/-- The first row of a drain that lies where it may not. -/
def drainFar (addr geo tag : Word) (nw : Bool) : Option Nat :=
  if nw then none else (List.range (geoRows geo)).find? (fun r => !drainRowOk addr geo tag r)

theorem drainFault_far {r : Nat} (h : drainFar addr geo tag nw = some r) :
    drainFault addr geo tag nw mode x = some (.prot, addr + word (r * geoStride geo)) := by
  unfold drainFar drainRowOk at h
  unfold drainFault
  dsimp only
  rw [h]

theorem drainFault_near (h : drainFar addr geo tag nw = none) :
    drainFault addr geo tag nw mode x =
      if drainAskew addr geo nw then some (.misaligned, if nw then x else addr)
      else if geoBad geo then some (.badShape, 0)
      else if drainUntagged tag nw mode then some (.badTag, tag)
      else none := by
  unfold drainFar drainRowOk at h
  unfold drainFault
  dsimp only
  rw [h]
  rfl

end DrainFault

theorem exec_mdrain_fault {t : TileNo} {d a b : Reg} {z n : Bool} {m : DrainMode} {sl : Bool} {s : State} {c : Cause} {x : Word}
    (h : drainFault (s.core.a.rd a) (s.core.a.rd d) (s.core.a.rd b) n m (s.drainOpen n).1 = some (c, x)) :
    exec (.mdrain t d a b z n m sl) s = .next ((s.drainOpen n).2.fault 4 c x) := by
  change execMdrain t d a b z n m sl s = _
  unfold execMdrain
  dsimp only
  rw [h]

theorem exec_mdrain_starts {t : TileNo} {d a b : Reg} {z n : Bool} {m : DrainMode} {sl : Bool} {s : State}
    (h : drainFault (s.core.a.rd a) (s.core.a.rd d) (s.core.a.rd b) n m (s.drainOpen n).1 = none) :
    exec (.mdrain t d a b z n m sl) s =
      .next (s.startDrain t (s.core.a.rd a) (s.core.a.rd d) (s.core.a.rd b) z n m sl true s.core.a.pc) := by
  change execMdrain t d a b z n m sl s = _
  unfold execMdrain
  dsimp only
  rw [h]

theorem drainStartsOrTraps : Claims.DrainStartsOrTraps := by
  intro t d a b z n m sl s addr geo tag rows row0 stride bytes rowAt far askew misshapen untagged reachable from_ traps
  have hrows : geoRows geo = rows := geoRows_eq geo
  have hrow0 : geoRow0 geo = row0 := geoRow0_eq geo
  have hstride : geoStride geo = stride := geoStride_eq geo
  have hbytes : 64 * rowGranules tag = bytes := rowGranules_bytes tag
  have hok (r : Nat) : drainRowOk addr geo tag r = false ↔ far r := by
    rw [← Bool.not_eq_true, drainRowOk, drainReach_iff _ _ (rowGranules_pos tag), hbytes, hstride]
    exact Iff.rfl
  have haskew : drainAskew addr geo n = true ↔ askew := by
    rw [drainAskew, hstride, Bool.or_eq_true, Bool.and_eq_true, Bool.not_eq_true', bne_iff_ne, bne_iff_ne]
  have hbad : geoBad geo = true ↔ misshapen := by
    rw [geoBad, Bool.or_eq_true, Bool.or_eq_true, bne_iff_ne, decide_eq_true_iff, hrow0, hrows, ne_eq, bits_eq_zero_iff (n := 17) geo rfl,
      bitOf_eq_getLsbD, or_assoc]
  have htag : drainUntagged tag n m = true ↔ untagged := by
    rw [drainUntagged, Bool.and_eq_true, Bool.or_eq_true, Bool.and_eq_true, Bool.not_eq_true', Bool.not_eq_true', Option.isNone_iff_eq_none,
      beq_iff_eq]
  have hnear (h : reachable) : drainFar addr geo tag n = none := by
    unfold drainFar
    cases hn : n with
    | true => rfl
    | false =>
      rw [if_neg Bool.false_ne_true, List.find?_range_eq_none, hrows]
      intro r hr
      have hrow := (hok r).not.2 (h hn r hr)
      rw [Bool.not_eq_false] at hrow
      rw [hrow]
      rfl
  have hstate : from_ = (s.drainOpen n).2 := by cases n <;> rfl
  have htraps {c : Cause} {x : Word} (h : drainFault addr geo tag n m (s.drainOpen n).1 = some (c, x)) : traps c x := by
    change exec (.mdrain t d a b z n m sl) s = .next (from_.fault 4 c x)
    rw [hstate]
    exact exec_mdrain_fault h
  refine ⟨fun r hn hr hfar hfirst => htraps ?_, fun h hk => htraps ?_, fun h hk hm => htraps ?_, fun h hk hm ht => htraps ?_,
    fun h hk hm ht hfr => ?_⟩
  · have hrow (j : Nat) (hj : j < r) : drainRowOk addr geo tag j = true := by
      rw [← Bool.not_eq_false, hok]
      exact hfirst j hj
    have hfind : drainFar addr geo tag n = some r := by
      unfold drainFar
      rw [if_neg (ne_true_of_eq_false hn), List.find?_range_eq_some, hrows]
      exact ⟨by rw [(hok r).2 hfar]; rfl, List.mem_range.2 hr, fun j hj => by rw [hrow j hj]; rfl⟩
    have hfault := drainFault_far (mode := m) (x := (s.drainOpen n).1) hfind
    rwa [hstride] at hfault
  · rw [drainFault_near (hnear h), if_pos (haskew.2 hk)]
    cases n <;> rfl
  · rw [drainFault_near (hnear h), if_neg (mt haskew.1 hk), if_pos (hbad.2 hm)]
  · rw [drainFault_near (hnear h), if_neg (mt haskew.1 hk), if_neg (mt hbad.1 hm), if_pos (htag.2 ht)]
  · have hnone : drainFault addr geo tag n m (s.drainOpen n).1 = none := by
      rw [drainFault_near (hnear h), if_neg (mt haskew.1 hk), if_neg (mt hbad.1 hm), if_neg (mt htag.1 ht)]
    have htile : ((s.newId.2.onTile t TileState.openPeriod).core.a.tiles[t]) = (s.core.a.tiles[t]).openPeriod := onTile_tile t _ s.newId.2
    obtain ⟨hopen, hp, hq, -, -⟩ := openPeriod_rows s.core.a.tiles[t]
    exact ⟨_, _, (exec_mdrain_starts hnone).trans (congrArg _ (startDrain_eq hfr)), rfl, rfl, hrow0, hrows, rfl, hstride, rfl, rfl, rfl, rfl, rfl, rfl,
      rfl, rfl, rfl, (congrArg TileState.isOpen htile).trans hopen, (congrArg TileState.p htile).trans hp, (congrArg TileState.q htile).trans hq, rfl⟩

/-! ### Seals (R196, R205) -/

theorem sealBegins : Claims.SealBegins := by
  intro t s x
  refine ⟨fun h => ?_, fun h => ?_⟩
  · exact congrArg Host.Outcome.next (if_pos h)
  · have hno : ¬(x.pending.isSome = true) := by
      rw [h]
      exact Bool.false_ne_true
    cases ho : x.isOpen with
    | true =>
      exact ⟨x.sealDrained s.core.a.pc, .timed 1, _, congrArg Host.Outcome.next ((if_neg hno).trans (if_pos ho)), rfl, rfl, rfl, rfl, rfl,
        fun _ => ⟨rfl, rfl, rfl, rfl, rfl, rfl⟩, fun c => absurd c (by decide)⟩
    | false =>
      exact ⟨x.sealUndrained s.core.a.pc, .foldAll t 0 4 s.core.a.pc, _,
        congrArg Host.Outcome.next ((if_neg hno).trans (if_neg (ne_true_of_eq_false ho))), rfl, ho, rfl, rfl, rfl,
        fun c => absurd c (by decide), fun _ => ⟨rfl, rfl, rfl, rfl⟩⟩

/-- Settles O19: the row forms read and write whole rows, a drain traps by the first rule that it breaks, and a seal begins by the state of
its tile. -/
theorem accumulatorDrainAndSeal : Obligations.AccumulatorDrainAndSeal := ⟨accumulatorAccess, drainStartsOrTraps, sealBegins⟩

end Sys2Proof.Machine
end

section
/-!
LEMMAS. The task instructions of the sys slot (spec/01 R21, R22, spec/12 R245, R257, R261 to R266).
-/
open Sys2Proof

namespace Sys2Proof.Machine

/-! ### What the instructions outside a merge routine do (R257, R261 to R266) -/

theorem tinfo_of_task {s : State} {t : Task} (h : s.task? s.core.a.ctx s.core.a.tcb = some t) (i : TItem) :
    s.tinfo i = match i with
      | .spidx => word t.spidx
      | .tcb => s.core.a.tcb
      | .parent => t.parent.getD 0
      | .restarts => word t.restarts
      | .nspawn => word t.nspawn
      | .npend => word t.npend
      | .prio => word s.core.a.prio
      | .stream => word (((s.launch? t.launch).map (fun l => l.stream)).getD 0) := by
  unfold State.tinfo State.me?
  rw [h] <;> rfl

theorem dieHops_eq (a b : Nat) :
    dieHops a b = ((a % 4 : Int) - (b % 4 : Int)).natAbs + ((a / 4 : Int) - (b / 4 : Int)).natAbs := by
  unfold dieHops col row
  omega

section Dies

variable {s : State} {c : Context} {d a b : Reg}

theorem exec_vdist (h : s.ctx? s.core.a.ctx = some c) : exec (.vdist d a b) s = .next (s.fly 2 7 [.s d
    (match c.bind[(s.core.a.rd a).toNat]?, c.bind[(s.core.a.rd b).toNat]? with
      | some p, some q => BitVec.ofNat 64 (((p.1 % 4 : Int) - (q.1 % 4 : Int)).natAbs + ((p.1 / 4 : Int) - (q.1 / 4 : Int)).natAbs)
      | _, _ => BitVec.allOnes 64)]) := by
  change execVdist d a b s = _
  unfold execVdist
  rw [h]
  dsimp only [Option.bind_some, Context.pdie]
  cases c.bind[(s.core.a.rd a).toNat]? with
  | none => rfl
  | some p =>
    cases c.bind[(s.core.a.rd b).toNat]? with
    | none => rfl
    | some q =>
      exact congrArg (fun n => Host.Outcome.next (s.fly 2 7 [.s d (word n)])) (dieHops_eq p.1 q.1)

theorem exec_vdmap (h : s.ctx? s.core.a.ctx = some c) (hd : c.bind.length < 2 ^ 32) (hv : ∀ v ∈ c.bind, v.2.length < 2 ^ 32) :
    exec (.vdmap d a) s = .next (s.fly 2 7 [.s d
      (BitVec.ofNat 32 c.bind.length ++ BitVec.ofNat 32 ((c.bind[(s.core.a.rd a).toNat]?).elim 0 (fun v => v.2.length)) : Word)]) := by
  have hcores : c.ncores (s.core.a.rd a).toNat = (c.bind[(s.core.a.rd a).toNat]?).elim 0 (fun v => v.2.length) := by
    unfold Context.ncores
    cases c.bind[(s.core.a.rd a).toNat]? <;> rfl
  have hlt : (c.bind[(s.core.a.rd a).toNat]?).elim 0 (fun v => v.2.length) < 2 ^ 32 := by
    cases hg : c.bind[(s.core.a.rd a).toNat]? with
    | none => exact Nat.two_pow_pos 32
    | some v => exact hv v (List.mem_of_getElem? hg)
  change execVdmap d a s = _
  unfold execVdmap State.vdies
  rw [h]
  dsimp only [Option.map_some, Option.getD_some]
  rw [hcores]
  have hword : word (c.bind.length * 2 ^ 32 + (c.bind[(s.core.a.rd a).toNat]?).elim 0 (fun v => v.2.length)) =
      BitVec.ofNat 32 c.bind.length ++ BitVec.ofNat 32 ((c.bind[(s.core.a.rd a).toNat]?).elim 0 (fun v => v.2.length)) := by
    apply BitVec.eq_of_toNat_eq
    rw [toNat_word, toNat_append_add, BitVec.toNat_ofNat, BitVec.toNat_ofNat]
    omega
  rw [hword]

end Dies

section Task

variable {s : State} {d a b : Reg}

theorem inRoutine_of_merging (h : s.core.a.merging.isSome = true) : s.inRoutine = true := h

theorem not_inRoutine (h : s.core.a.merging = none) : ¬(s.inRoutine = true) := by
  rw [State.inRoutine, h]
  exact Bool.false_ne_true

theorem exec_viewa_none (h : s.core.a.merging = none) (hv : s.core.a.viewAt (s.core.a.rd a).toNat = none) :
    exec (.viewa d a) s = .next (s.fly 2 7 [.s d (s.core.a.rd a)]) := by
  change execViewa d a s = _
  unfold execViewa
  dsimp only
  rw [if_neg (not_inRoutine h), hv]

theorem exec_viewa_some {w : ViewWin} (h : s.core.a.merging = none) (hv : s.core.a.viewAt (s.core.a.rd a).toNat = some w) :
    exec (.viewa d a) s = .next (if s.core.a.frozen0 then s.fault 7 .viewOrder (s.core.a.rd a)
      else s.fly 2 7 [.s d (BitVec.ofNat 64 (s.pieceVa s.core.a.ctx w + ((s.core.a.rd a).toNat - w.base)))]) := by
  change execViewa d a s = _
  unfold execViewa
  dsimp only
  rw [if_neg (not_inRoutine h), hv]
  rfl

theorem exec_runinl_none (h : s.core.a.merging = none) (hx : s.core.a.rd a = 0) (hi : s.inlTask = none) :
    exec (.runinl d a) s = .next (s.fly 1 7 [.s d 0]) := by
  change execRuninl d a s = _
  unfold execRuninl
  dsimp only
  rw [if_neg (not_inRoutine h), if_pos hx, hi]

theorem exec_runinl_some {e : QEntry} (h : s.core.a.merging = none) (hx : s.core.a.rd a = 0) (hi : s.inlTask = some e) :
    exec (.runinl d a) s = .next (((s.unqueue (.core s.core.id) e).markEmpty d).hold (.inline e.ctx e.tcb d false false)) := by
  change execRuninl d a s = _
  unfold execRuninl
  dsimp only
  rw [if_neg (not_inRoutine h), if_pos hx, hi]

/-- In a merge routine the task instructions but MERGE are illegal (R260). -/
theorem exec_illegal_in_routine (h : s.core.a.merging.isSome = true) :
    ∀ j ∈ ([.spawn d a, .spawnl d a b, .join d, .yield, .viewa d a, .runinl d a] : List Instr),
      exec j s = .next (s.fault 7 .illegalOp (word (s.core.a.words.getD 7 0))) := by
  intro j hj
  have hill : ∀ t : State, (if s.inRoutine then s.illegal 7 else t) = s.illegal 7 := fun t => if_pos h
  simp only [List.mem_cons, List.not_mem_nil, or_false] at hj
  rcases hj with rfl | rfl | rfl | rfl | rfl | rfl
  all_goals exact congrArg Host.Outcome.next (hill _)

end Task

theorem taskInstructionEffects : Claims.TaskInstructionEffects := by
  intro d a b i s x now
  refine ⟨rfl, rfl, fun t ht => ⟨?_, ?_, ?_, ?_, ?_, ?_, ?_, fun l hl => ?_⟩, fun c hc => ⟨exec_vdist hc, fun hd hv => exec_vdmap hc hd hv⟩,
    fun hm => ⟨?_, ?_, ?_, exec_viewa_none hm, fun w => exec_viewa_some hm, exec_runinl_none hm, fun e hx he => ⟨_, exec_runinl_some hm hx he, rfl⟩⟩,
    fun hm => ⟨congrArg _ (if_pos (inRoutine_of_merging hm)), exec_illegal_in_routine hm⟩⟩
  · exact tinfo_of_task ht .spidx
  · exact tinfo_of_task ht .tcb
  · exact tinfo_of_task ht .parent
  · exact tinfo_of_task ht .restarts
  · exact tinfo_of_task ht .nspawn
  · exact tinfo_of_task ht .npend
  · exact tinfo_of_task ht .prio
  · rw [tinfo_of_task ht, hl]
    rfl
  · exact congrArg _ (if_neg (not_inRoutine hm))
  · exact congrArg _ (if_neg (not_inRoutine hm))
  · exact congrArg _ (if_neg (not_inRoutine hm))

/-! ### Spawns (R245, R265) -/

section Spawn

variable {s : State} {t : Task}

theorem find?_map_same {f : Task → Task} {p : Task → Bool} (hf : ∀ x, p x = true → p (f x) = true) (ts : List Task) {t : Task}
    (h : ts.find? p = some t) : (ts.map (fun x => if p x then f x else x)).find? p = some (f t) := by
  induction ts with
  | nil => cases h
  | cons x xs ih =>
    rw [List.map_cons]
    cases hx : p x with
    | true =>
      rw [List.find?_cons_of_pos hx] at h
      obtain rfl := Option.some.inj h
      rw [if_pos rfl, List.find?_cons_of_pos (hf x hx)]
    | false =>
      rw [List.find?_cons_of_neg (ne_true_of_eq_false hx)] at h
      rw [if_neg Bool.false_ne_true, List.find?_cons_of_neg (ne_true_of_eq_false hx), ih h]

/-- A task that is changed but keeps its address is found as changed. -/
theorem task?_onTask {ctx : Nat} {tcb : Word} {f : Task → Task} (hf : ∀ x, (f x).ctx = x.ctx ∧ (f x).tcb = x.tcb)
    (h : s.task? ctx tcb = some t) : (s.onTask ctx tcb f).task? ctx tcb = some (f t) := by
  refine find?_map_same (p := fun t => t.ctx = ctx && t.tcb = tcb) (fun x hx => ?_) s.tasks h
  rw [(hf x).1, (hf x).2]
  exact hx

/-- What freezing view 0 leaves of the running task and its core. -/
theorem freezeViews_task (h : s.task? s.core.a.ctx s.core.a.tcb = some t) :
    ∃ t', s.freezeViews.task? s.core.a.ctx s.core.a.tcb = some t' ∧ t'.nspawn = t.nspawn ∧ t'.npend = t.npend := by
  unfold State.freezeViews
  dsimp only
  split
  · exact ⟨t, h, rfl, rfl⟩
  · exact ⟨_, task?_onTask (s := s.modA (fun a => { a with frozen0 := true })) (fun _ => ⟨rfl, rfl⟩) h, rfl, rfl⟩

theorem freezeViews_core (s : State) : s.freezeViews.core = { s.core with
    a := { s.core.a with frozen0 := s.core.a.frozen0 || !s.core.a.views.isEmpty } } := by
  unfold State.freezeViews
  dsimp only
  cases hv : s.core.a.views.isEmpty with
  | true =>
    rw [if_pos rfl, Bool.not_true, Bool.or_false]
  | false =>
    rw [if_neg Bool.false_ne_true, Bool.not_false, Bool.or_true]
    rfl

/-- The state whose children a spawn counts: view 0 is frozen at the first. -/
def State.spawning (s : State) : State := if s.nspawn = 0 then s.freezeViews else s

theorem spawning_task (h : s.task? s.core.a.ctx s.core.a.tcb = some t) :
    ∃ t', s.spawning.task? s.core.a.ctx s.core.a.tcb = some t' ∧ t'.nspawn = t.nspawn ∧ t'.npend = t.npend := by
  unfold State.spawning
  split
  · exact freezeViews_task h
  · exact ⟨t, h, rfl, rfl⟩

theorem spawning_core (s : State) : s.spawning.core = { s.core with
    a := { s.core.a with frozen0 := s.core.a.frozen0 || (s.nspawn == 0 && !s.core.a.views.isEmpty) } } := by
  unfold State.spawning
  by_cases h : s.nspawn = 0
  · rw [if_pos h, freezeViews_core, h]
    rfl
  · rw [if_neg h, beq_false_of_ne h, Bool.false_and, Bool.or_false]

theorem nspawn_eq (h : s.task? s.core.a.ctx s.core.a.tcb = some t) : s.nspawn = t.nspawn := by
  unfold State.nspawn State.me?
  rw [h]
  rfl

/-- The admissions that wait for the release of a spawn. -/
def State.spawnRels (s : State) (x : Word) (n : Nat) (inl : Bool) : List RelOp :=
  (List.range n).map (fun j =>
    ⟨s.core.nextId, s.core.a.ctx, .admission (x + word (128 * j)) (s.nspawn + 1 + j) s.core.a.tcb inl, false⟩)

theorem spawnChildren_eq (x : Word) (n : Nat) (inl : Bool) (s : State) :
    s.spawnChildren x n inl =
      (s.spawning.onTask s.core.a.ctx s.core.a.tcb (fun t => { t with nspawn := t.nspawn + n, npend := t.npend + n })).modCore (fun c =>
        { c with nextId := c.nextId + 1, rels := c.rels ++ s.spawnRels x n inl }) := by
  have hid : s.spawning.core.nextId = s.core.nextId := by rw [spawning_core]
  unfold State.spawnRels
  rw [← hid]
  rfl

end Spawn

/-- What the children of a spawn leave behind (R245). -/
def State.hasSpawned (s u : State) (t : Task) (x : Word) (n : Nat) (inl : Bool) : Prop :=
  ∃ rs, u.core.rels = s.core.rels ++ rs ∧ rs.length = n ∧
    (∀ j, j < n → ∃ r, rs[j]? = some r ∧ r.ctx = s.core.a.ctx ∧
      r.what = .admission (x + BitVec.ofNat 64 (128 * j)) (t.nspawn + 1 + j) s.core.a.tcb inl) ∧
    (∃ t', u.task? s.core.a.ctx s.core.a.tcb = some t' ∧ t'.nspawn = t.nspawn + n ∧ t'.npend = t.npend + n) ∧
    u.core.a.frozen0 = (s.core.a.frozen0 || (t.nspawn == 0 && !s.core.a.views.isEmpty))

theorem admits_spawnChildren {s : State} {t : Task} (h : s.task? s.core.a.ctx s.core.a.tcb = some t) (x : Word) (n : Nat) (inl : Bool) :
    s.hasSpawned (s.spawnChildren x n inl) t x n inl := by
  obtain ⟨t', ht', hn, hp⟩ := spawning_task h
  have hfind := task?_onTask (f := fun t => { t with nspawn := t.nspawn + n, npend := t.npend + n }) (fun _ => ⟨rfl, rfl⟩) ht'
  refine ⟨s.spawnRels x n inl, ?_, ?_, fun j hj => ?_, ⟨{ t' with nspawn := t'.nspawn + n, npend := t'.npend + n }, ?_,
    congrArg (· + n) hn, congrArg (· + n) hp⟩, ?_⟩
  · rw [spawnChildren_eq]
    change s.spawning.core.rels ++ _ = _
    rw [spawning_core]
  · rw [State.spawnRels, List.length_map, List.length_range]
  · refine ⟨⟨s.core.nextId, s.core.a.ctx, .admission (x + word (128 * j)) (s.nspawn + 1 + j) s.core.a.tcb inl, false⟩, ?_, rfl, ?_⟩
    · rw [State.spawnRels, List.getElem?_map, List.getElem?_range hj]
      rfl
    · rw [nspawn_eq h]
      rfl
  · rw [spawnChildren_eq]
    exact hfind
  · rw [spawnChildren_eq]
    change s.spawning.core.a.frozen0 = _
    rw [spawning_core, nspawn_eq h]

/-! ### The checks of a spawn, in their order (R245) -/

section SpawnFault

variable {s : State} {t : Task} {x n : Nat}

theorem spawnFault_count (h : n = 0 ∨ 64 < n) : s.spawnFault x n = some (.badShape, 0) := by
  unfold State.spawnFault
  rw [if_pos (by simpa using h)]

variable (h0 : 0 < n) (h64 : n ≤ 64)
include h0 h64

theorem spawnFault_window (h : 0x00F0000000000000 < x + 128 * n) : s.spawnFault x n = some (.prot, word x) := by
  unfold State.spawnFault
  rw [if_neg (by simp; omega)]
  exact if_pos h

variable (hw : x + 128 * n ≤ 0x00F0000000000000)
include hw

theorem spawnFault_aligned (h : x % 128 ≠ 0) : s.spawnFault x n = some (.misaligned, word x) := by
  unfold State.spawnFault
  rw [if_neg (by simp; omega)]
  exact (if_neg (Nat.not_lt.2 hw)).trans (if_pos h)

variable (ha : x % 128 = 0)
include ha

theorem spawnFault_index (ht : s.task? s.core.a.ctx s.core.a.tcb = some t) (h : 1048575 < t.nspawn + n) :
    s.spawnFault x n = some (.badShape, 0) := by
  unfold State.spawnFault
  rw [if_neg (by simp; omega), nspawn_eq ht]
  exact (if_neg (Nat.not_lt.2 hw)).trans ((if_neg (not_not.2 ha)).trans (if_pos h))

theorem spawnFault_none (ht : s.task? s.core.a.ctx s.core.a.tcb = some t) (h : t.nspawn + n ≤ 1048575) : s.spawnFault x n = none := by
  unfold State.spawnFault
  rw [if_neg (by simp; omega), nspawn_eq ht]
  exact (if_neg (Nat.not_lt.2 hw)).trans ((if_neg (not_not.2 ha)).trans (if_neg (Nat.not_lt.2 h)))

end SpawnFault

section SpawnExec

variable {s : State} {d : Reg} {x : Word} {n : Nat}

theorem spawn_fault {c : Cause} {v : Word} (hm : s.core.a.merging = none) (h : s.spawnFault x.toNat n = some (c, v)) :
    s.spawn d x n = s.fault 7 c v := by
  unfold State.spawn
  rw [if_neg (not_inRoutine hm), h]

theorem spawn_spawns (hm : s.core.a.merging = none) (h : s.spawnFault x.toNat n = none) :
    s.spawn d x n = (s.spawnChildren x n false).fly 2 7 [.s d (word (s.nspawn + 1))] := by
  unfold State.spawn
  rw [if_neg (not_inRoutine hm), h]

variable {a : Reg}

theorem exec_runinl_fault {c : Cause} {v : Word} (hm : s.core.a.merging = none) (hx : s.core.a.rd a ≠ 0)
    (h : s.spawnFault (s.core.a.rd a).toNat 1 = some (c, v)) : exec (.runinl d a) s = .next (s.fault 7 c v) := by
  change execRuninl d a s = _
  unfold execRuninl
  dsimp only
  rw [if_neg (not_inRoutine hm), if_neg hx, h]

theorem exec_runinl_spawns (hm : s.core.a.merging = none) (hx : s.core.a.rd a ≠ 0) (h : s.spawnFault (s.core.a.rd a).toNat 1 = none) :
    exec (.runinl d a) s = .next (((s.spawnChildren (s.core.a.rd a) 1 true).markEmpty d).hold (.runinl d (s.core.a.rd a))) := by
  change execRuninl d a s = _
  unfold execRuninl
  dsimp only
  rw [if_neg (not_inRoutine hm), if_neg hx, h]

end SpawnExec

theorem spawnEffects : Claims.SpawnEffects := by
  intro d a b s t hm ht x many ok admits
  have hok (n : Nat) (h : ok n) : s.spawnFault x.toNat n = none := by
    obtain ⟨h0, h64, hw, ha, hi⟩ := h
    exact spawnFault_none h0 h64 hw ha ht hi
  have hword : word x.toNat = x := by rw [word, BitVec.ofNat_toNat, BitVec.setWidth_eq]
  have spawned (n : Nat) (h : ok n) : s.spawn d x n = (s.spawnChildren x n false).fly 2 7 [.s d (BitVec.ofNat 64 (t.nspawn + 1))] := by
    rw [spawn_spawns hm (hok n h), nspawn_eq ht]
    rfl
  refine ⟨fun h => ⟨_, congrArg _ (spawned 1 h), admits_spawnChildren ht x 1 false⟩,
    fun h => ⟨_, congrArg _ (spawned many h), admits_spawnChildren ht x many false⟩,
    fun h hx => ⟨_, exec_runinl_spawns hm hx (hok 1 h), admits_spawnChildren ht x 1 true⟩, ?_⟩
  intro traps
  have trapping (i : Instr) (n : Nat) (h : ∀ c v, s.spawnFault x.toNat n = some (c, v) → exec i s = .next (s.fault 7 c v)) : traps i n := by
    refine ⟨fun hn => h _ _ (spawnFault_count hn), fun h0 h64 => ⟨fun hw => ?_, fun hw => ⟨fun ha => ?_, fun ha hi => ?_⟩⟩⟩
    · exact h _ _ ((spawnFault_window h0 h64 hw).trans (by rw [hword]))
    · exact h _ _ ((spawnFault_aligned h0 h64 hw ha).trans (by rw [hword]))
    · exact h _ _ (spawnFault_index h0 h64 hw ha ht hi)
  exact ⟨trapping _ _ (fun c v h => congrArg _ (spawn_fault hm h)), trapping _ _ (fun c v h => congrArg _ (spawn_fault hm h)),
    fun hx => trapping _ _ (fun c v h => exec_runinl_fault hm hx h)⟩

/-- Settles O26: each check of a spawn stands before the next, and a spawn counts its children in the task's record. -/
theorem taskAndSpawnInstructions : Obligations.TaskAndSpawnInstructions := ⟨taskInstructionEffects, spawnEffects⟩

end Sys2Proof.Machine
end

section
/-!
LEMMAS. The gang, barrier and future instructions (spec/13 R271 to R286).
-/
open Sys2Proof

namespace Sys2Proof.Machine

/-! ### Gangs (R271 to R274) -/

section Gang

variable {s : State} {d a b : Reg} {va : Word}

/-- The address of a gang that breaks no rule. -/
def gangGood (va : Word) : Prop := va.toNat < 0x00F0000000000000 ∧ va.toNat % 64 = 0

theorem gangAddr_none (h : gangGood va) : gangAddr va = none := (if_neg (Nat.not_le.2 h.1)).trans (if_neg (not_not.2 h.2))

theorem gangAddr_prot (h : 0x00F0000000000000 ≤ va.toNat) : gangAddr va = some (.prot, va) := if_pos h

theorem gangAddr_misaligned (h : va.toNat < 0x00F0000000000000) (ha : va.toNat % 64 ≠ 0) : gangAddr va = some (.misaligned, va) :=
  (if_neg (Nat.not_le.2 h)).trans (if_pos ha)

theorem gangFault_noRecord (h : s.core.a.gangRec va = none) : s.core.a.gangFault va = some (.prot, va) := by
  unfold Arch.gangFault
  rw [h]
  rfl

theorem gangFault_record (h : s.core.a.gangRec va ≠ none) : s.core.a.gangFault va = gangAddr va := by
  unfold Arch.gangFault
  rw [if_neg (by simpa using h)]

theorem gangOp_fault {k : GangKind} {gone : Bool} {c : Cause} {x : Word} (h : s.core.a.gangFault va = some (c, x)) :
    s.gangOp k va d gone = s.fault 7 c x := by
  unfold State.gangOp
  rw [h]

theorem exec_bwait_fault {c : Cause} {x : Word} (h : s.core.a.gangFault (s.core.a.rd a) = some (c, x)) :
    exec (.bwait d a b) s = .next (s.fault 7 c x) := by
  change execBwait d a b s = _
  unfold execBwait
  dsimp only
  rw [h]

theorem exec_gjoin_fault {c : Cause} {x : Word} (h : gangAddr (s.core.a.rd a) = some (c, x)) :
    exec (.gjoin d a) s = .next (s.fault 7 c x) := by
  change execGjoin d a s = _
  unfold execGjoin
  dsimp only
  rw [h]

/-- The core after an operation joined the outstanding ones (R273). -/
def State.withGangOp (s : State) (r : Reg) (k : GangKind) (va : Word) (ph : Nat) (gs : List GangRec) : State :=
  (s.markEmpty r).modCore (fun c =>
    { c with nextId := s.core.nextId + 1, a := { c.a with gangs := gs, gangOps := s.core.a.gangOps ++ [⟨s.core.nextId, k, va, ph, r, false⟩] } })

theorem markEmpty_rest (r : Reg) (s : State) :
    (s.markEmpty r).core.nextId = s.core.nextId ∧ (s.markEmpty r).core.a.gangs = s.core.a.gangs ∧
      (s.markEmpty r).core.a.gangOps = s.core.a.gangOps := by
  unfold State.markEmpty
  split <;> exact ⟨rfl, rfl, rfl⟩

/-- A record that an operation changes, and the operation that joins the others. -/
theorem pushGang_eq (k : GangKind) (ph : Nat) (r : Reg) (s : State) (f : List GangRec → List GangRec) :
    ((s.markEmpty r).modA (fun a => { a with gangs := f a.gangs })).pushGang k va ph r = s.withGangOp r k va ph (f s.core.a.gangs) := by
  obtain ⟨hid, hg, ho⟩ := markEmpty_rest r s
  unfold State.withGangOp
  rw [← hid, ← hg, ← ho]
  rfl

/-- The records of a task after an operation that advances or removes the one of a gang (R274). -/
def gangRecords (va : Word) (gone : Bool) (gs : List GangRec) : List GangRec :=
  if gone then gs.filter (fun g => g.va ≠ va) else gs.map (fun g => if g.va = va then ⟨va, (g.ph + 1) % 2 ^ 32⟩ else g)

theorem gangNext_eq (va : Word) (gone : Bool) : (fun a : Arch => a.gangNext va gone) = fun a => { a with gangs := gangRecords va gone a.gangs } := by
  cases gone <;> rfl

theorem gangOp_eq {k : GangKind} {gone : Bool} {g : GangRec} (hg : gangGood va) (h : s.core.a.gangRec va = some g) :
    s.gangOp k va d gone = s.withGangOp d k va g.ph (gangRecords va gone s.core.a.gangs) := by
  unfold State.gangOp
  rw [gangFault_record (by rw [h]; exact Option.some_ne_none g), gangAddr_none hg, gangNext_eq]
  dsimp only
  rw [h]
  exact pushGang_eq k g.ph d s (gangRecords va gone)

theorem exec_bwait_waits (hg : gangGood (s.core.a.rd a)) (h : s.core.a.gangRec (s.core.a.rd a) ≠ none) :
    exec (.bwait d a b) s =
      .next (s.withGangOp d (.bwait ((s.core.a.rd b).toNat % 2 ^ 32)) (s.core.a.rd a) 0 s.core.a.gangs) := by
  change execBwait d a b s = _
  unfold execBwait
  dsimp only
  rw [gangFault_record h, gangAddr_none hg]
  exact congrArg Host.Outcome.next (pushGang_eq (va := s.core.a.rd a) (.bwait ((s.core.a.rd b).toNat % 2 ^ 32)) 0 d s id)

theorem exec_gjoin_full (hg : gangGood (s.core.a.rd a)) (h : s.core.a.gangRec (s.core.a.rd a) ≠ none ∨ 8 ≤ s.core.a.gangs.length) :
    exec (.gjoin d a) s = .next (s.fault 7 .badShape (s.core.a.rd a)) := by
  change execGjoin d a s = _
  unfold execGjoin
  dsimp only
  rw [gangAddr_none hg]
  refine congrArg _ (if_pos ?_)
  rw [Bool.or_eq_true, decide_eq_true_iff, Option.isSome_iff_ne_none]
  exact h.symm

theorem exec_gjoin_joins (hg : gangGood (s.core.a.rd a)) (h : s.core.a.gangRec (s.core.a.rd a) = none) (hl : s.core.a.gangs.length < 8) :
    exec (.gjoin d a) s = .next (s.withGangOp d .join (s.core.a.rd a) 0 (s.core.a.gangs ++ [⟨s.core.a.rd a, 0⟩])) := by
  change execGjoin d a s = _
  unfold execGjoin
  dsimp only
  rw [gangAddr_none hg, if_neg (by rw [h]; simpa using hl)]
  have e := pushGang_eq (va := s.core.a.rd a) .join 0 d s (fun gs => gs ++ [⟨s.core.a.rd a, 0⟩])
  beta_reduce at e
  rw [e]

end Gang

theorem gangInstructionEffects : Claims.GangInstructionEffects := by
  intro d a b s x record good push next others rise
  have trapping (c : Cause) (h : s.core.a.gangFault x = some (c, x)) :
      ∀ i ∈ ([.gleave a, .arrive d a, .arriveDrop d a, .sstep d a, .bwait d a b] : List Instr), exec i s = .next (s.fault 7 c x) := by
    intro i hi
    simp only [List.mem_cons, List.not_mem_nil, or_false] at hi
    rcases hi with rfl | rfl | rfl | rfl | rfl
    · exact congrArg _ (gangOp_fault h)
    · exact congrArg _ (gangOp_fault h)
    · exact congrArg _ (gangOp_fault h)
    · exact congrArg _ (gangOp_fault h)
    · exact exec_bwait_fault h
  refine ⟨fun hg hr hl => ⟨_, exec_gjoin_joins hg hr hl, rfl⟩, fun hg h => exec_gjoin_full hg h, fun g hg hr => ⟨?_, ?_, ?_, ?_, ?_⟩,
    fun h => exec_gjoin_fault (gangAddr_prot h), fun h ha => exec_gjoin_fault (gangAddr_misaligned h ha), fun i hi => ⟨fun h => ?_, fun h hw => ?_,
    fun h hw ha => ?_⟩⟩
  · exact ⟨_, congrArg Host.Outcome.next (gangOp_eq hg hr), rfl⟩
  · exact ⟨_, congrArg Host.Outcome.next (gangOp_eq hg hr), rfl⟩
  · exact ⟨_, congrArg Host.Outcome.next (gangOp_eq hg hr), rfl⟩
  · exact ⟨_, congrArg Host.Outcome.next (gangOp_eq hg hr), rfl⟩
  · exact ⟨_, exec_bwait_waits hg (fun c => Option.some_ne_none g (hr.symm.trans c)), rfl⟩
  · exact trapping _ (gangFault_noRecord h) i hi
  · exact trapping _ ((gangFault_record h).trans (gangAddr_prot hw)) i hi
  · exact trapping _ ((gangFault_record h).trans (gangAddr_misaligned hw ha)) i hi

/-! ### Barriers and futures (R280 to R286) -/

section Cells

variable {s : State} {d : Reg} {va : Word} {bl : Block}

theorem holdCell_prot (h : 0x00F0000000000000 < va.toNat + 16) : s.holdCell d va bl = s.fault 7 .prot va := by
  have hf : cellFault va = some (.prot, va) := if_pos h
  unfold State.holdCell
  rw [hf]

theorem holdCell_misaligned (h : va.toNat + 16 ≤ 0x00F0000000000000) (ha : va.toNat % 16 ≠ 0) : s.holdCell d va bl = s.fault 7 .misaligned va := by
  have hf : cellFault va = some (.misaligned, va) := (if_neg (Nat.not_lt.2 h)).trans (if_pos ha)
  unfold State.holdCell
  rw [hf]

theorem holdCell_holds (h : va.toNat + 16 ≤ 0x00F0000000000000) (ha : va.toNat % 16 = 0) : s.holdCell d va bl = (s.markEmpty d).heldBy bl := by
  have hf : cellFault va = none := (if_neg (Nat.not_lt.2 h)).trans (if_neg (not_not.2 ha))
  unfold State.holdCell
  rw [hf]
  rfl

end Cells

theorem exec_tcexp (a : Reg) (sb : Fin 64) (s : State) :
    exec (.tcexp a sb) s = .next (if (s.core.a.rd a).toNat = 0 || decide (2 ^ 30 - 1 < (s.core.a.rd a).toNat) || bitOf (s.core.barrier sb.val) 62
      then s.fault 7 .badShape 0 else s.fly 1 7 [.tcexp sb (s.core.a.rd a).toNat]) := rfl

theorem exec_tcwait (d : Reg) (sb : Fin 64) (s : State) :
    exec (.tcwait d sb) s = .next ((s.markEmpty d).withArch
      { (s.markEmpty d).core.a with tcwaits := s.core.a.tcwaits ++ [(sb, d)], tcfresh := s.core.a.tcfresh ++ [sb] }) := by
  have hwaits : (s.markEmpty d).core.a.tcwaits = s.core.a.tcwaits ∧ (s.markEmpty d).core.a.tcfresh = s.core.a.tcfresh := by
    unfold State.markEmpty
    split <;> exact ⟨rfl, rfl⟩
  rw [← hwaits.1, ← hwaits.2]
  rfl

theorem barrierAndFutureInstructionEffects : Claims.BarrierAndFutureInstructionEffects := by
  intro d a b sb s x n now barrier
  have hbar : bitOf (s.core.barrier sb.val) 62 = barrier.getLsbD 62 := bitOf_eq_getLsbD _ _
  have htrap : ((s.core.a.rd a).toNat = 0 || decide (2 ^ 30 - 1 < (s.core.a.rd a).toNat) || bitOf (s.core.barrier sb.val) 62) = true ↔
      x = 0 ∨ 2 ^ 30 ≤ x.toNat ∨ barrier.getLsbD 62 = true := by
    have hz : x.toNat = 0 ↔ x = 0 := (BitVec.toNat_eq (x := x) (y := 0)).symm
    have hle : 2 ^ 30 - 1 < x.toNat ↔ 2 ^ 30 ≤ x.toNat := by omega
    rw [Bool.or_eq_true, Bool.or_eq_true, decide_eq_true_iff, decide_eq_true_iff, hbar, or_assoc]
    exact or_congr hz (or_congr_left hle)
  refine ⟨fun h0 h30 hx => ?_, fun h => ?_, exec_tcwait d sb s, fun hw ha => ⟨?_, ?_, ?_⟩, fun i hi => ⟨fun hw => ?_, fun hw ha => ?_⟩⟩
  · refine (exec_tcexp a sb s).trans (congrArg _ (if_neg (fun c => ?_)))
    rcases htrap.1 c with h | h | h
    · rw [h] at h0
      exact absurd h0 (by decide)
    · omega
    · rw [hx] at h
      cases h
  · exact (exec_tcexp a sb s).trans (congrArg _ (if_pos (htrap.2 h)))
  · exact congrArg _ (holdCell_holds hw ha)
  · exact congrArg _ (holdCell_holds hw ha)
  · exact congrArg _ (holdCell_holds hw ha)
  · simp only [List.mem_cons, List.not_mem_nil, or_false] at hi
    rcases hi with rfl | rfl | rfl <;> exact congrArg _ (holdCell_prot hw)
  · simp only [List.mem_cons, List.not_mem_nil, or_false] at hi
    rcases hi with rfl | rfl | rfl <;> exact congrArg _ (holdCell_misaligned hw ha)

/-- Settles O27: an operation on a gang is its check, then its record and its place among the outstanding operations. -/
theorem synchronisationInstructions : Obligations.SynchronisationInstructions :=
  ⟨gangInstructionEffects, barrierAndFutureInstructionEffects⟩

end Sys2Proof.Machine
end

section
/-!
LEMMAS. Permits, leases and VRF segments (spec/07 R154, spec/14 R293 to R296).
-/
open Sys2Proof

namespace Sys2Proof.Machine

/-! ### Segments (R154) -/

theorem tblGet_filter {α : Type} (t : Tbl α) (p : Nat → Bool) (i : Nat) :
    tblGet (t.filter (fun v => p v.1)) i = if p i then tblGet t i else none := by
  induction t with
  | nil => exact (ite_self _).symm
  | cons e rest ih =>
    obtain ⟨k, y⟩ := e
    rw [List.filter_cons]
    by_cases hk : k = i
    · subst hk
      cases hp : p k with
      | true => rw [if_pos rfl, if_pos rfl, tblGet, tblGet, if_pos rfl, if_pos rfl]
      | false => rw [if_neg Bool.false_ne_true, if_neg Bool.false_ne_true, ih, hp, if_neg Bool.false_ne_true]
    · rw [tblGet, if_neg hk, ← ih]
      split
      · rw [tblGet, if_neg hk]
      · rfl

/-- Only the vectors of an OFF segment are lost. -/
theorem keepOn_vrf (a : Arch) (i : Nat) : tblGet a.keepOn.vrf i = if a.keepOn.segs.getD (i / 256) .off = .off then none else tblGet a.vrf i := by
  refine (tblGet_filter a.vrf (fun k => !(a.segs.getD (k / 256) .off == .off)) i).trans ?_
  change _ = if a.segs.getD (i / 256) .off = .off then none else tblGet a.vrf i
  by_cases h : a.segs.getD (i / 256) .off = .off
  · rw [if_pos h, h]
    rfl
  · rw [if_neg h, beq_false_of_ne h]
    rfl

theorem segmentGating : Claims.SegmentGating := by
  intro m n s
  refine ⟨_, rfl, fun j => ?_, fun i _ => ?_, rfl⟩
  · refine (Vector.getElem_ofFn j.isLt).trans ?_
    by_cases hj : j.val < n.toNat
    · rw [if_pos hj, decide_eq_true hj]
      cases s.core.a.segs[j] <;> rfl
    · rw [if_neg hj, decide_eq_false hj]
      cases m with
      | off => rfl
      | retain => 
        cases s.core.a.segs[j] with
        | waking fromOff left => cases fromOff <;> rfl
        | on => rfl
        | off => rfl
        | retain => rfl
  · exact keepOn_vrf _ i

/-! ### Permits and leases (R293 to R296) -/

section Power

variable {s : State} {d a b : Reg} {n us : Nat}

/-- The cluster of a core changed. -/
theorem onCluster_eq (h : clusterOf s.core.id < 32) (f : Cluster → Cluster) :
    s.onCluster (clusterOf s.core.id) f =
      { s with clusters := s.clusters.set (clusterOf s.core.id) (f s.clusters[clusterOf s.core.id]) } := dif_pos h

theorem markEmpty_id (d : Reg) (s : State) : (s.markEmpty d).core.id = s.core.id := by
  unfold State.markEmpty
  split <;> rfl

/-- Marking a register empty and changing a cluster do not meet. -/
theorem markEmpty_onCluster (d : Reg) (k : Nat) (f : Cluster → Cluster) (s : State) :
    (s.markEmpty d).onCluster k f = (s.onCluster k f).markEmpty d := by
  unfold State.onCluster State.markEmpty
  split <;> split <;> rfl

theorem exec_permit (d a : Reg) (s : State) :
    exec (.permit d a) s = .next (if (s.core.a.rd a).toNat = 0 || decide (65535 < (s.core.a.rd a).toNat) then s.fault 7 .badShape 0
      else (s.markEmpty d).requestTokens (s.core.a.rd a).toNat (some d)) := rfl

/-- The test of a LEASE's operands. -/
def leaseBad (mhz us : Nat) : Bool := mhz % 10 ≠ 0 || decide (mhz < 950) || decide (1130 < mhz) || us = 0 || decide (2 ^ 32 ≤ us)

theorem leaseBad_eq_false_iff (mhz us : Nat) : leaseBad mhz us = false ↔ mhz % 10 = 0 ∧ 950 ≤ mhz ∧ mhz ≤ 1130 ∧ 0 < us ∧ us < 2 ^ 32 := by
  simp [leaseBad, and_assoc, Nat.pos_iff_ne_zero]

theorem exec_lease (d a b : Reg) (s : State) :
    exec (.lease d a b) s = .next (if leaseBad (s.core.a.rd a).toNat (s.core.a.rd b).toNat then s.fault 7 .badShape 0
      else (s.markEmpty d).onCluster (clusterOf s.core.id) (fun c =>
        { c with leaseReqs := c.leaseReqs ++ [⟨s.core.id, (s.core.a.rd a).toNat, (s.core.a.rd b).toNat, d, s.frame.toNat⟩] })) := rfl

/-! ### LEASEREL (R293, R296) -/

/-- Marking a register empty and filling it changes that register, its emptiness, and what is in flight to it. -/
theorem emptyFill_eq (d : Reg) (x : Word) (u : State) :
    u.emptyFill d x = { u with core := { u.core with
      a := { u.core.a with
        s := (u.emptyFill d x).core.a.s, sEmpty := (u.emptyFill d x).core.a.sEmpty, flights := (u.emptyFill d x).core.a.flights,
        trap := (u.emptyFill d x).core.a.trap }
      iss := { u.core.iss with emptyS := (u.emptyFill d x).core.iss.emptyS } } } := by
  unfold State.emptyFill State.markEmpty Arch.fillS
  split <;> rfl

theorem emptyFill_rd (d : Reg) (x : Word) (u : State) (r : Reg) :
    (u.emptyFill d x).core.a.rd r = if r = d ∧ d ≠ 0 then x else u.core.a.rd r := by
  rw [emptyFill_core_a]
  by_cases hr : r = d
  · subst hr
    by_cases h0 : r = 0
    · rw [if_neg (fun c => c.2 h0), h0]
      rfl
    · rw [if_pos ⟨rfl, h0⟩, rd_fillS_same _ _ _ h0]
  · rw [if_neg (fun c => hr c.1), rd_fillS_other _ _ _ _ hr, (markEmpty_rd d u r).1]

theorem markEmpty_sEmpty (d : Reg) (u : State) : (u.markEmpty d).core.a.sEmpty = u.core.a.sEmpty := by
  unfold State.markEmpty
  split <;> rfl

theorem emptyFill_sEmpty (d : Reg) (x : Word) (u : State) (r : Reg) :
    bitOf (u.emptyFill d x).core.a.sEmpty r.val = (bitOf u.core.a.sEmpty r.val && !(r == d && d != 0)) := by
  rw [emptyFill_core_a, Arch.fillS]
  by_cases h0 : d = 0
  · rw [if_pos h0, markEmpty_sEmpty, h0]
    simp
  · rw [if_neg h0, markEmpty_sEmpty]
    refine (bitOf_setBit _ false r.isLt).trans ?_
    by_cases hr : r = d
    · rw [if_pos (congrArg Fin.val hr.symm), hr]
      simp [h0]
    · rw [if_neg (fun c => hr (Fin.ext c.symm)), beq_false_of_ne hr]
      simp

theorem emptyFill_issue (d : Reg) (x : Word) (u : State) {r : Reg} (h : r ≠ d) :
    bitOf (u.emptyFill d x).core.iss.emptyS r.val = bitOf u.core.iss.emptyS r.val := by
  have hd : d.val ≠ r.val := fun c => h (Fin.ext c.symm)
  unfold State.emptyFill State.markEmpty
  split
  · exact (bitOf_setBit _ false r.isLt).trans (if_neg hd)
  · exact (bitOf_setBit _ false r.isLt).trans ((if_neg hd).trans ((bitOf_setBit _ true r.isLt).trans (if_neg hd)))

/-- Whether a cluster's lease is the acting core's and lives. -/
def State.leaseLives (s : State) (c : Cluster) : Bool :=
  c.heldBy s.core && (match c.lease with
    | some l => decide (s.frame.toNat < l.expiry)
    | none => false)

theorem exec_leaserel (d : Reg) (s : State) :
    exec (.leaserel d) s = .next (if s.leaseLives (s.cluster s.core.id) then
        (s.onCluster (clusterOf s.core.id) (Cluster.endLease s.sinceEpoch)).emptyFill d 0
      else s.emptyFill d 1) := rfl

theorem leaseLives_iff (c : Cluster) (s : State) : s.leaseLives c = true ↔ ∃ l, c.lease = some l ∧ l.core = s.core.id ∧ s.core.busy = true ∧
    l.tcb = s.core.a.tcb ∧ s.frame.toNat < l.expiry := by
  unfold State.leaseLives Cluster.heldBy
  cases c.lease with
  | none => simp
  | some l => simp [and_assoc]

theorem cluster_eq (h : clusterOf s.core.id < 32) : s.cluster s.core.id = s.clusters[clusterOf s.core.id] := dif_pos h

theorem endLease_eq (ticks : Nat) (c : Cluster) :
    (c.endLease ticks) = { c with lease := none, st := (c.endLease ticks).st, sprintUs := (c.endLease ticks).sprintUs } := rfl

/-- The whole answer of a LEASEREL: its destination is marked empty and filled. -/
theorem leaserel_answers {u : State} (d : Reg) (x : Word) (h : exec (.leaserel d) s = .next (u.emptyFill d x)) (hc : u.core = s.core) :
    ∃ t, exec (.leaserel d) s = .next t ∧
      t = { u with core := { s.core with
        a := { s.core.a with s := t.core.a.s, sEmpty := t.core.a.sEmpty, flights := t.core.a.flights, trap := t.core.a.trap }
        iss := { s.core.iss with emptyS := t.core.iss.emptyS } } } ∧
      ∀ r : Reg, t.core.a.rd r = (if r = d ∧ d ≠ 0 then x else s.core.a.rd r) ∧
        bitOf t.core.a.sEmpty r.val = (bitOf s.core.a.sEmpty r.val && !(r == d && d != 0)) ∧
        (r ≠ d → bitOf t.core.iss.emptyS r.val = bitOf s.core.iss.emptyS r.val) := by
  rw [← hc]
  exact ⟨_, h, emptyFill_eq d x u, fun r => ⟨emptyFill_rd d x u r, emptyFill_sEmpty d x u r, fun hr => emptyFill_issue d x u hr⟩⟩

end Power

theorem powerInstructionEffects : Claims.PowerInstructionEffects := by
  intro d a b s h n us cl put legal
  have hlegal : leaseBad n us = false ↔ legal := leaseBad_eq_false_iff n us
  refine ⟨fun h0 h1 => ?_, fun hn => ?_, fun hl => ?_, fun hl => ?_, ?_⟩
  · refine (exec_permit d a s).trans (congrArg _ ((if_neg ?_).trans ?_))
    · simp only [Bool.or_eq_true, decide_eq_true_eq, not_or]
      exact ⟨Nat.ne_of_gt h0, Nat.not_lt.2 h1⟩
    · unfold State.requestTokens
      rw [markEmpty_id, markEmpty_onCluster, onCluster_eq h]
  · refine (exec_permit d a s).trans (congrArg _ (if_pos ?_))
    simp only [Bool.or_eq_true, decide_eq_true_eq]
    exact hn
  · refine (exec_lease d a b s).trans (congrArg _ ((if_neg (ne_true_of_eq_false (hlegal.2 hl))).trans ?_))
    rw [markEmpty_onCluster, onCluster_eq h]
  · refine (exec_lease d a b s).trans (congrArg _ (if_pos ?_))
    exact Bool.eq_true_of_not_eq_false (fun c => hl (hlegal.1 c))
  · have hexec := exec_leaserel d s
    rw [cluster_eq h, onCluster_eq h] at hexec
    intro answers
    refine ⟨fun l hl hcore htcb hbusy hexp => ⟨cl.endLease s.sinceEpoch, endLease_eq _ _, fun hst => if_pos hst, rfl, ?_⟩, fun hno => ?_⟩
    · have hlives : s.leaseLives cl = true := (leaseLives_iff cl s).2 ⟨l, hl, hcore, hbusy, htcb, hexp⟩
      exact leaserel_answers d 0 (hexec.trans (congrArg _ (if_pos hlives))) rfl
    · refine leaserel_answers d 1 (hexec.trans (congrArg _ (if_neg (fun c => ?_)))) rfl
      obtain ⟨l, hl, hcore, hbusy, htcb, hexp⟩ := (leaseLives_iff cl s).1 c
      rcases hno with hnone | ⟨l', hl', hbad⟩
      · rw [hnone] at hl
        cases hl
      · obtain rfl := Option.some.inj (hl.symm.trans hl')
        rcases hbad with hb | hb | hb | hb
        · exact hb hcore
        · exact hb htcb
        · rw [hbusy] at hb
          cases hb
        · exact Nat.not_le.2 hexp hb

/-- Settles O28: a request joins those of the core's cluster, a live lease of the task itself ends at once, and SEGS sets each segment. -/
theorem powerAndSegmentInstructions : Obligations.PowerAndSegmentInstructions := ⟨powerInstructionEffects, segmentGating⟩

end Sys2Proof.Machine
end

section
/-!
LEMMAS. The rows that a step or m.zero sets, and what they leave of every tile (spec/09 R186, R190, R191, spec/03 R67).
-/
open Sys2Proof

namespace Sys2Proof.Machine

/-! ### Rows of a tile set one by one -/

/-- One row of a tile set in both paths. -/
def State.mapRow (t : TileNo) (f : Nat → Vec → Vec) (r : Nat) (s : State) : State :=
  s.onTile t (fun x => x.putRow r (f r (rowGet x.p r)) (f r (rowGet x.q r)))

/-- `n` rows from `first` on set in both paths. -/
def State.mapRows (t : TileNo) (f : Nat → Vec → Vec) (first n : Nat) (s : State) : State :=
  (List.range n).foldl (fun s i => s.mapRow t f (first + i)) s

/-- The rows of a path after some were set. -/
def rowsSet (f : Nat → Vec → Vec) (first n : Nat) (old new : Tbl Vec) : Prop :=
  ∀ r, rowGet new r = if first ≤ r ∧ r < first + n then f r (rowGet old r) else rowGet old r

section Rows

variable (t : TileNo) (f : Nat → Vec → Vec) (first n : Nat) (s : State)

theorem rowsSet_succ {old new : Tbl Vec} {f : Nat → Vec → Vec} {first n : Nat} (h : rowsSet f first n old new) :
    rowsSet f first (n + 1) old (tblPut new (first + n) (f (first + n) (rowGet new (first + n)))) := by
  intro r
  rw [rowGet_tblPut]
  by_cases hr : r = first + n
  · subst hr
    rw [if_pos rfl, if_pos (by omega), h, if_neg (by omega)]
  · rw [if_neg hr, h]
    by_cases hin : first ≤ r ∧ r < first + n
    · rw [if_pos hin, if_pos (by omega)]
    · rw [if_neg hin, if_neg (by omega)]

/-- Setting rows of a tile changes the tiles alone, and of them that one; the rest of its rows stay. -/
theorem mapRows_tiles : ∃ ts : Vector TileState 4, s.mapRows t f first n = s.withArch { s.core.a with tiles := ts } ∧
    (∀ u, u ≠ t → ts[u] = s.core.a.tiles[u]) ∧ rowsSet f first n (s.core.a.tiles[t]).p (ts[t]).p ∧
      rowsSet f first n (s.core.a.tiles[t]).q (ts[t]).q := by
  induction n with
  | zero => exact ⟨s.core.a.tiles, rfl, fun _ _ => rfl, fun r => (if_neg (by omega)).symm, fun r => (if_neg (by omega)).symm⟩
  | succ n ih =>
    obtain ⟨ts, hs, hother, hp, hq⟩ := ih
    have hstep : s.mapRows t f first (n + 1) = (s.mapRows t f first n).mapRow t f (first + n) := by
      rw [State.mapRows, List.range_succ, List.foldl_append]
      rfl
    rw [hstep, hs]
    refine ⟨_, rfl, fun u hu => ?_, ?_, ?_⟩
    · exact (Vector.getElem_set_ne _ _ (fun c => hu (Fin.ext c.symm))).trans (hother u hu)
    · have h := rowsSet_succ hp
      simpa [State.withArch, TileState.putRow] using h
    · have h := rowsSet_succ hq
      simpa [State.withArch, TileState.putRow] using h

end Rows

/-! ### The region of a shape (R191) -/

theorem regionIndex_none {sh : Shape} {tr : Bool} {r : Nat} (h : ¬((regionRows sh tr).1 ≤ r ∧ r < (regionRows sh tr).1 + (regionRows sh tr).2))
    (c : Nat) : regionIndex sh tr r c = none := by
  unfold regionIndex
  cases tr with
  | true =>
    rw [if_pos rfl]
    exact if_neg (fun hc => h ⟨hc.1, hc.2.1⟩)
  | false =>
    rw [if_neg Bool.false_ne_true]
    exact if_neg (fun hc => h ⟨hc.1, hc.2.1⟩)

theorem pastEnd_eq_false {sh : Shape} (tr : Bool) (hm : sh.row0 + sh.m ≤ 128) (hn : sh.col0 + sh.n ≤ 128) : sh.pastEnd tr = false := by
  unfold Shape.pastEnd
  cases tr
  · exact decide_eq_false (by omega)
  · exact decide_eq_false (by omega)

/-- A row whose elements in the region become what a function of the product's place makes of them. -/
def regionRow (sh : Shape) (tr : Bool) (f : Nat → Nat → Lane → Lane) (r : Nat) (old : Vec) : Vec :=
  Vec.ofFn (fun c => match regionIndex sh tr r c with
    | some (m, n) => f m n (old.lane c)
    | none => old.lane c)

/-- Each element of a path after the rows of the region were set. -/
theorem elementOf_rowsSet {sh : Shape} {tr : Bool} {f : Nat → Nat → Lane → Lane} {old new : Tbl Vec}
    (h : rowsSet (regionRow sh tr f) (regionRows sh tr).1 (regionRows sh tr).2 old new) (i : Nat) {j : Nat} (hj : j < 128) :
    elementOf new i j = match regionIndex sh tr i j with
      | some (m, n) => f m n (elementOf old i j)
      | none => elementOf old i j := by
  rw [elementOf, h]
  by_cases hin : (regionRows sh tr).1 ≤ i ∧ i < (regionRows sh tr).1 + (regionRows sh tr).2
  · rw [if_pos hin, regionRow, lane_ofFn _ hj]
    rfl
  · rw [if_neg hin, regionIndex_none hin]
    rfl

/-! ### m.zero and m.step -/

section Steps

variable {s : State} {r : Routine} {sh : Shape} {tr : Bool}

theorem exec_mZero (h : s.core.a.routine = some r) (hs : r.shape = some sh) (hp : sh.pastEnd tr = false) :
    exec (.mZero tr) s = .next ((s.mapRows r.tile (regionRow sh tr (fun _ _ _ => 0)) (regionRows sh tr).1 (regionRows sh tr).2).micro id) := by
  have hrow : (fun row (v : Vec) => Vec.ofFn (fun c => if (regionIndex sh tr row c).isSome then 0 else v.lane c)) =
      regionRow sh tr (fun _ _ _ => 0) := by
    funext row v
    refine congrArg Vec.ofFn (funext (fun c => ?_))
    cases regionIndex sh tr row c <;> rfl
  change execMZero tr s = _
  rw [execMZero, withRoutine_eq h, hs]
  dsimp only
  rw [if_neg (ne_true_of_eq_false hp), ← hrow]
  rfl

/-- The sum that a step puts in an element (R67). -/
def stepElement (sh : Shape) (acc : Bool) (a b : Operand) (m n : Nat) (x : Lane) : Lane :=
  exactSum ((if acc then [num32 x.toNat] else []) ++ (List.range sh.kg).map (fun k => (a.at m k).mul (b.at n k)))

theorem stepRow_eq (acc : Bool) (a b : Operand) : stepRow sh acc tr a b = regionRow sh tr (stepElement sh acc a b) := by
  funext row old
  refine congrArg Vec.ofFn (funext (fun c => ?_))
  cases regionIndex sh tr row c with
  | none => rfl
  | some p => cases acc <;> rfl

/-- Without a hand-over a step sets each path from its own rows. -/
theorem stepRows_eq (hq : s.core.usesQ = false) (t : TileNo) (acc : Bool) (a b : Operand) (n : Nat) :
    s.stepRows t sh acc tr a b 0 n = s.mapRows t (regionRow sh tr (stepElement sh acc a b)) (regionRows sh tr).1 n := by
  unfold State.stepRows State.mapRows State.mapRow
  dsimp only
  rw [hq, Nat.sub_zero, ← stepRow_eq]
  simp only [Bool.false_eq_true, if_false, Nat.add_zero]

/-- The routine after a step that advances its operands. -/
def Routine.stepped (r : Routine) (x y : Nat) : Routine := { r with adva := x, advb := y, upc := r.upc + 1 }

/-- The cycles that a step takes. -/
def stepTime (sh : Shape) (a b : Operand) (full : Bool) : Nat :=
  stepCycles sh (((a.lines ++ b.lines).map (fun l => l.wide)).foldl max 0) (((a.lines ++ b.lines).map (fun l => l.grans)).foldl (fun n x => n + x) 0)
    full

/-- What the engine does when a step has set its rows. -/
def stepOp (sh : Shape) (tr : Bool) (a b : Operand) (full : Bool) : EngOp :=
  .step (stepTime sh a b full) (stepTime sh a b full) 0 (regionRows sh tr).2

theorem exec_mStep {acc : Bool} {da db : Word × Word} {a b : Operand} (h : s.core.a.routine = some r) (hs : r.shape = some sh)
    (hp : sh.pastEnd tr = false) (hq : s.core.usesQ = false) (hda : r.a = some da) (hdb : r.b = some db)
    (ha : s.readOperand da sh.m sh.kg r.fa = a) (hfa : a.fault = none) (hb : s.readOperand db sh.n sh.kg r.fb = b) (hfb : b.fault = none)
    (hrow : s.core.a.stat.rowp = 0)
    (hok : s.core.operandAllowed = true ∨ (s.readsDevice da sh.m sh.kg = false ∧ s.readsDevice db sh.n sh.kg = false)) :
    exec (.mStep acc tr) s = .next (((s.mapRows r.tile (regionRow sh tr (stepElement sh acc a b)) (regionRows sh tr).1
      (regionRows sh tr).2).onRoutine (fun ro => ro.stepped (a.advance da.2 sh.kg) (b.advance db.2 sh.kg))).modA
        (fun x => { x with eng := stepOp sh tr a b r.full })) := by
  have hgo : ¬((!s.core.operandAllowed && (s.readsDevice db sh.n sh.kg || s.readsDevice da sh.m sh.kg)) = true) := by
    rcases hok with h | ⟨h1, h2⟩
    · simp [h]
    · simp [h1, h2]
  change execMStep acc tr s = _
  rw [execMStep, withRoutine_eq h]
  unfold State.mxStep
  rw [h]
  dsimp only
  rw [hs, hda, hdb]
  dsimp only
  rw [if_neg (ne_true_of_eq_false hp), if_neg hgo, ha, hb, hfa, hfb, hrow]
  dsimp only
  rw [stepRows_eq hq]
  rfl

theorem stepTime_ge (sh : Shape) (a b : Operand) (full : Bool) : 4 ≤ stepTime sh a b full := Nat.le_max_left _ _

end Steps

/-- Settles O21: the rows of a region are set one by one, each from its own old row, and no row outside it. -/
theorem matrixStepResult : Obligations.MatrixStepResult := by
  intro s r sh tr h hs hm hn hq place become
  have hp := pastEnd_eq_false tr hm hn
  have becomes (f : Nat → Nat → Lane → Lane) {u : State} {ts : Vector TileState 4} (hu : u.core.a.tiles = ts)
      (hother : ∀ t, t ≠ r.tile → ts[t] = s.core.a.tiles[t])
      (h1 : rowsSet (regionRow sh tr f) (regionRows sh tr).1 (regionRows sh tr).2 (s.core.a.tiles[r.tile]).p (ts[r.tile]).p)
      (h2 : rowsSet (regionRow sh tr f) (regionRows sh tr).1 (regionRows sh tr).2 (s.core.a.tiles[r.tile]).q (ts[r.tile]).q) : become u f := by
    subst hu
    exact ⟨hother, fun i j _ hj => ⟨elementOf_rowsSet h1 i hj, elementOf_rowsSet h2 i hj⟩⟩
  refine ⟨?_, fun acc da db a b hda hdb ha hfa hb hfb hrow hok => ?_⟩
  · obtain ⟨ts, hts, hother, h1, h2⟩ := mapRows_tiles r.tile (regionRow sh tr (fun _ _ _ => 0)) (regionRows sh tr).1 (regionRows sh tr).2 s
    have hexec := exec_mZero h hs hp
    rw [hts, micro_eq (s := s.withArch { s.core.a with tiles := ts }) h] at hexec
    exact ⟨_, hexec, rfl, rfl, becomes (fun _ _ _ => 0) rfl hother h1 h2⟩
  · have hexec := exec_mStep (acc := acc) h hs hp hq hda hdb ha hfa hb hfb hrow hok
    obtain ⟨ts, hts, hother, h1, h2⟩ := mapRows_tiles r.tile (regionRow sh tr (stepElement sh acc a b)) (regionRows sh tr).1 (regionRows sh tr).2 s
    rw [hts, onRoutine_eq (s := s.withArch { s.core.a with tiles := ts }) h] at hexec
    refine ⟨_, stepTime sh a b r.full, hexec, ?_, stepTime_ge .., hrow, rfl, becomes (stepElement sh acc a b) rfl hother h1 h2⟩
    cases tr <;> rfl

end Sys2Proof.Machine
end

section
/-!
LEMMAS. The copy slots at issue: what a command leaves, the faults of its ranges, and the parameter blocks that it reads (spec/11
R219 to R225).
-/
open Sys2Proof

namespace Sys2Proof.Machine

/-! ### What a command leaves (R219) -/

/-- The command that a copy slot queues. -/
def queuedCmd (t : Reg) (k : CopyKind) (dup : Bool) (s : State) : CopyCmd :=
  { id := s.core.nextId, ctx := s.core.a.ctx, tcb := s.core.a.key, tok := t, kind := k, out := false, data := [], read := false,
    done := 0, paused := none, dup := if dup then some s.core.seq else none, src := none, seqNo := none, mark := none, busy := none,
    applied := none, retry := 0, sent := none, ticks := s.frame.toNat }

/-- The entries that a number of stagings leave, the first of them numbered `i`. -/
def stagedFrom (e : PierEntry) (i sq n : Nat) : List PierEntry := (List.range n).map (fun j => { e with id := i + j, seq := sq })

theorem stagedFrom_succ (e : PierEntry) (i sq n : Nat) :
    stagedFrom e i sq (n + 1) = stagedFrom e i sq n ++ [{ e with id := i + n, seq := sq }] := by
  rw [stagedFrom, List.range_succ, List.map_append]
  rfl

/-- The core with entries staged for its pier, and as many numbers taken. -/
def Core.staging (es : List PierEntry) (c : Core) : Core :=
  { c with nextId := c.nextId + es.length, iss := { c.iss with pier := c.iss.pier ++ es } }

theorem stagedFrom_length (e : PierEntry) (i sq n : Nat) : (stagedFrom e i sq n).length = n := by
  rw [stagedFrom, List.length_map, List.length_range]

theorem stage_repeat (e : PierEntry) (n : Nat) (s : State) :
    (List.range n).foldl (fun s _ => s.stage e) s = s.modCore (Core.staging (stagedFrom e s.core.nextId s.core.seq n)) := by
  induction n with
  | zero =>
    change s = { s with core := { s.core with iss := { s.core.iss with pier := s.core.iss.pier ++ [] } } }
    rw [List.append_nil]
  | succ n ih =>
    rw [List.range_succ, List.foldl_append, ih, stagedFrom_succ]
    simp only [List.foldl_cons, List.foldl_nil, State.stage, State.newId, State.modCore, Core.staging, List.length_append, List.append_assoc,
      Nat.add_assoc, stagedFrom_length, List.length_cons, List.length_nil]

/-- The entry by which a command enters the pier, before it has a number. -/
def copyEntry (q : CopyQ) (rel : Option Scope) (id : Nat) : PierEntry := { PierEntry.blank with cmd := some (q, id), rel := rel }

theorem pushCopy_eq (q : CopyQ) (t : Reg) (k : CopyKind) (dup : Bool) (rel : Option Scope) (n : Nat) (s : State) :
    s.pushCopy q t k dup rel n = (((s.markEmpty t).modCore (fun c => { c with nextId := c.nextId + 1 })).modCore (fun c =>
      c.addCopy q (queuedCmd t k dup (s.markEmpty t)))).modCore (Core.staging
        (stagedFrom (copyEntry q rel (s.markEmpty t).core.nextId) ((s.markEmpty t).core.nextId + 1) (s.markEmpty t).core.seq n)) := by
  refine (stage_repeat _ n _).trans ?_
  cases q <;> rfl

/-- What marking a token empty leaves as it was. -/
theorem markEmpty_kept (t : Reg) (s : State) :
    (s.markEmpty t).core.nextId = s.core.nextId ∧ (s.markEmpty t).core.seq = s.core.seq ∧ (s.markEmpty t).frame = s.frame ∧
      (s.markEmpty t).core.a.ctx = s.core.a.ctx ∧ (s.markEmpty t).core.a.key = s.core.a.key ∧ (s.markEmpty t).core.ca = s.core.ca ∧
      (s.markEmpty t).core.cb = s.core.cb ∧ (s.markEmpty t).core.iss.pier = s.core.iss.pier ∧
      (s.markEmpty t).core.pier = s.core.pier ∧ (s.markEmpty t).core.spad = s.core.spad ∧ (s.markEmpty t).core.a.s = s.core.a.s ∧
      (s.markEmpty t).core.a.v = s.core.a.v ∧ (s.markEmpty t).mem = s.mem ∧ (s.markEmpty t).memTags = s.memTags := by
  unfold State.markEmpty
  split <;> exact ⟨rfl, rfl, rfl, rfl, rfl, rfl, rfl, rfl, rfl, rfl, rfl, rfl, rfl, rfl⟩

theorem markEmpty_emptyS (t r : Reg) (s : State) :
    bitOf (s.markEmpty t).core.iss.emptyS r.val = (bitOf s.core.iss.emptyS r.val || (r == t && t != 0)) := by
  unfold State.markEmpty
  split
  next h => rw [h, bne_self_eq_false, Bool.and_false, Bool.or_false]
  next h =>
    refine (bitOf_setBit s.core.iss.emptyS true r.isLt).trans ?_
    rw [bne_iff_ne.2 h, Bool.and_true]
    by_cases e : t = r
    · rw [if_pos (congrArg Fin.val e), e, beq_self_eq_true, Bool.or_true]
    · rw [if_neg (fun hv => e (Fin.ext hv)), beq_false_of_ne (Ne.symm e), Bool.or_false]

theorem queuedCmd_markEmpty (t : Reg) (k : CopyKind) (dup : Bool) (s : State) :
    queuedCmd t k dup (s.markEmpty t) = queuedCmd t k dup s := by
  obtain ⟨hid, hseq, hframe, hctx, hkey, -⟩ := markEmpty_kept t s
  unfold queuedCmd
  rw [hid, hseq, hframe, hctx, hkey]

theorem copyCommandsEnterQueueAndPier : Claims.CopyCommandsEnterQueueAndPier := by
  intro q t k dup rel n s
  have kept := markEmpty_kept t s
  have empties := fun r => markEmpty_emptyS t r s
  have e := pushCopy_eq q t k dup rel n s
  rw [queuedCmd_markEmpty] at e
  generalize s.markEmpty t = v at kept empties e ⊢
  obtain ⟨hid, hseq, -, -, -, hca, hcb, hiss, hpier, hspad, hs, hv, hmem, htags⟩ := kept
  rw [hid, hseq] at e
  refine ⟨queuedCmd t k dup s, stagedFrom (copyEntry q rel s.core.nextId) (s.core.nextId + 1) s.core.seq n, rfl, rfl, rfl, rfl, rfl, rfl, rfl, rfl, rfl, rfl, ?_, ?_, ?_⟩
  · exact stagedFrom_length ..
  · intro x hx
    obtain ⟨j, -, rfl⟩ := List.mem_map.1 hx
    exact ⟨rfl, rfl, rfl, rfl⟩
  · dsimp only
    rw [e, ← hiss, ← hpier, ← hid, ← hs, ← hv, ← hspad, ← hmem, ← htags]
    cases q with
    | ca =>
      refine ⟨congrArg (· ++ [queuedCmd t k dup s]) hca, ?_, rfl, rfl, congrArg (_ + ·) (stagedFrom_length ..), rfl, empties, rfl, rfl, rfl, rfl, rfl⟩
      intro q' hq
      cases q' with
      | ca => exact absurd rfl hq
      | cb => exact hcb
    | cb =>
      refine ⟨congrArg (· ++ [queuedCmd t k dup s]) hcb, ?_, rfl, rfl, congrArg (_ + ·) (stagedFrom_length ..), rfl, empties, rfl, rfl, rfl, rfl, rfl⟩
      intro q' hq
      cases q' with
      | ca => exact hca
      | cb => exact absurd rfl hq

/-! ### Faults of a command at issue (R221) -/

theorem issueCopy_of_nil {fs : List IssueFault} (h : fs = []) (q : CopyQ) (t : Reg) (k : CopyKind) (dup : Bool) (rel : Option Scope)
    (s : State) : s.issueCopy q t fs k dup rel = s.pushCopy q t k dup rel 1 := by
  rw [h]
  rfl

theorem readFaults_nil {s : State} {ok : Window → Bool} {va n : Nat} (h : s.readable ok va n) : s.readFaults ok va n = [] := by
  obtain ⟨hwin, hview⟩ := h
  have hearly : (s.core.a.frozen0 && s.core.a.hitsView va n) = false := by
    cases hf : s.core.a.frozen0 with
    | false => rfl
    | true => exact hview hf
  rw [State.readFaults, hwin, hearly]
  rfl

theorem writeFaults_nil {s : State} {ok : Window → Bool} {single : Bool} {va n : Nat} (h : s.writable ok single va n) :
    s.writeFaults ok single va n = [] := by
  obtain ⟨hread, hmerge, hrestart⟩ := h
  rw [State.writeFaults, readFaults_nil hread, hmerge, hrestart]
  rfl

theorem alignFault_nil {n va : Nat} (h : va % n = 0) : alignFault n va = [] := if_pos h

theorem shapeFault_nil {bad : Bool} (h : bad = false) : shapeFault bad = [] := by
  rw [h]
  rfl

theorem viewExcluded_nil {s : State} {va n : Nat} (h : s.core.a.hitsView va n = false) : s.viewExcluded va n = [] := by
  rw [State.viewExcluded, h]
  rfl

theorem word_toNat (x : Word) : word x.toNat = x := BitVec.ofNat_toNat .. |>.trans (BitVec.setWidth_eq x)

/-- The start of a row, as the model and as the claims count it. -/
theorem rowVa_eq (base : Word) (stride : Int) (r : Nat) : rowVa base.toNat stride r = rowStart base stride r := by
  rw [rowVa, rowStart, ← Int.toNat_natCast (base + BitVec.ofInt 64 (stride * r)).toNat, BitVec.toNat_add, BitVec.toNat_ofInt]
  have hnonneg := Int.emod_nonneg (stride * r) (b := 18446744073709551616) (by decide)
  congr 1
  push_cast
  rw [Int.toNat_of_nonneg hnonneg, Int.add_emod_emod]

theorem flatMap_range_nil {α : Type} {f : Nat → List α} {n : Nat} (h : ∀ r, r < n → f r = []) : (List.range n).flatMap f = [] :=
  List.flatMap_eq_nil_iff.2 (fun r hr => h r (List.mem_range.1 hr))

/-- A block copy that breaks no rule of its rows, alignment, length and count has no fault. -/
theorem blockFaults_nil {s : State} {dst src : Word} {n m : Nat} {ss ds : Int} {cnt : Bool}
    (hd : dst.toNat % 64 = 0) (hs : src.toNat % 64 = 0) (hss : ss % 64 = 0) (hds : ds % 64 = 0) (hn : 0 < n) (hn64 : n % 64 = 0)
    (hm : 0 < m)
    (hrows : ∀ r, r < m → s.writable winCopy false (rowStart dst ds r) n ∧ s.readable winCopy (rowStart src ss r) n)
    (hcnt : cnt = true → ∀ r, r < m → cntBad (rowStart dst ds r) = false) :
    s.blockFaults dst.toNat src.toNat n m ss ds cnt = [] := by
  have hany : (cnt && (List.range m).any (fun r => cntBad (rowVa dst.toNat ds r))) = false := by
    cases cnt with
    | false => rfl
    | true =>
      rw [Bool.true_and, List.any_eq_false]
      intro r hr
      rw [rowVa_eq, hcnt rfl r (List.mem_range.1 hr)]
      exact Bool.false_ne_true
  have hshape : (decide (n = 0) || n % 64 != 0) = false := by
    rw [decide_eq_false (by omega), hn64]
    rfl
  have hto : (decide (dst.toNat % 64 = 0) && decide (ds % 64 = 0)) = true := by rw [decide_eq_true hd, decide_eq_true hds]; rfl
  have hfrom : (decide (src.toNat % 64 = 0) && decide (ss % 64 = 0)) = true := by rw [decide_eq_true hs, decide_eq_true hss]; rfl
  rw [State.blockFaults, Nat.max_eq_right hn, Nat.max_eq_right hm, if_pos hto, if_pos hfrom, shapeFault_nil hshape,
    shapeFault_nil hany, flatMap_range_nil]
  · rfl
  · intro r hr
    obtain ⟨hwrite, hread⟩ := hrows r hr
    rw [rowVa_eq, rowVa_eq, writeFaults_nil hwrite, readFaults_nil hread]
    rfl

/-! ### Parameter blocks -/

theorem ofDigitsBelow_add (B : Nat) (d : Nat → Nat) (k n : Nat) :
    ofDigitsBelow B d (k + n) = ofDigitsBelow B d k + B ^ k * ofDigitsBelow B (fun i => d (k + i)) n := by
  induction n with
  | zero => simp [ofDigitsBelow]
  | succ n ih =>
    rw [← Nat.add_assoc, ofDigitsBelow_succ, ofDigitsBelow_succ, ih]
    ring

/-- A run of digits. -/
theorem digits_ofDigitsBelow {B : Nat} {d : Nat → Nat} (hd : ∀ i, d i < B) {k n m : Nat} (h : k + n ≤ m) :
    ofDigitsBelow B d m / B ^ k % B ^ n = ofDigitsBelow B (fun i => d (k + i)) n := by
  have hB : 0 < B := Nat.lt_of_le_of_lt (Nat.zero_le _) (hd 0)
  obtain ⟨j, rfl⟩ := Nat.exists_eq_add_of_le h
  rw [Nat.add_assoc, ofDigitsBelow_add, Nat.add_mul_div_left _ _ (Nat.pow_pos hB), Nat.div_eq_of_lt (ofDigitsBelow_lt hd k),
    Nat.zero_add, ofDigitsBelow_add, Nat.add_mul_mod_self_left, Nat.mod_eq_of_lt (ofDigitsBelow_lt (fun i => hd _) n)]

/-- A field of a block is what stands at its bytes. -/
theorem blockField_spadNat (c : Core) (va : Word) {k n : Nat} (h : k + n ≤ 64) :
    blockField (c.spadNat (spadOff va) 64) k n = c.fieldAt va k n := by
  have hdigits := digits_ofDigitsBelow (d := fun i => (c.spadByte (spadOff va + i)).toNat) (fun i => (c.spadByte _).isLt) h
  rw [← Nat.pow_mul, ← Nat.pow_mul] at hdigits
  rw [blockField, spadNat_eq, hdigits, Core.fieldAt, spadNat_eq]
  simp only [Nat.add_assoc]

theorem blockAt_readable {s : State} {va : Word} (h : s.core.blockReadable va) :
    s.blockAt va = (s.core.spadNat (spadOff va) 64, []) := by
  obtain ⟨hlo, hhi, halign, hclean⟩ := h
  rw [State.blockAt, hlo, hhi, spadPoisonIn_of_clean (by decide) hclean, alignFault_nil halign]
  rfl

/-! ### Block copies (R221, R224) -/

section Words

variable (q : CopyQ) (t a b c : Reg) (i : BitVec 11) (s : State)

theorem exec_cpy : exec (.cpy q t a b c) s = .next (s.issueCopy q t
    (s.blockFaults (s.core.a.rd a).toNat (s.core.a.rd b).toNat ((s.core.a.rd c).extractLsb' 0 32).toNat 1 0 0 ((s.core.a.rd c).getLsbD 39) ++
      shapeFault (bits (s.core.a.rd c) 63 46 != 0 || bits (s.core.a.rd c) 38 32 != 0))
    (.block (s.core.a.rd a) (s.core.a.rd b) ((s.core.a.rd c).extractLsb' 0 32).toNat 1 0 0
      (if (s.core.a.rd c).getLsbD 39 then some (Fin.ofNat 64 ((s.core.a.rd c).extractLsb' 40 6).toNat) else none)) false none) := by
  change execCpy q t a b c s = _
  unfold execCpy
  dsimp only
  rw [bits_eq_extract (lo := 0) (n := 32) _ rfl, bits_eq_extract (lo := 40) (n := 6) _ rfl, bitOf_eq_getLsbD, word_toNat, word_toNat]
  rfl

theorem exec_cpyb : exec (.cpyb q t a b i) s = .next (s.issueCopy q t
    (s.blockFaults (s.core.a.rd a).toNat (s.core.a.rd b).toNat (64 * (i.toNat + 1)) 1 0 0 false)
    (.block (s.core.a.rd a) (s.core.a.rd b) (64 * (i.toNat + 1)) 1 0 0 none) false none) := by
  change execCpyb q t a b i s = _
  unfold execCpyb
  dsimp only
  rw [word_toNat, word_toNat]

/-- Whether a descriptor of CPY2 is malformed: its count of rows, its row length, and the fields that stand at zero (R224). -/
def descriptorBad (rowlen nrows : Nat) (ctl : Word) (rest : Nat) : Bool :=
  nrows = 0 || decide (2 ^ 20 < nrows) || decide (2 ^ 32 ≤ rowlen) || bits ctl 63 46 != 0 || bits ctl 38 0 != 0 || rest != 0

theorem exec_cpy2_readable {rowlen nrows rest : Nat} {ss ds : Int} {ctl : Word} (h : s.core.blockReadable (s.core.a.rd c))
    (hrowlen : s.core.fieldAt (s.core.a.rd c) 0 8 = rowlen) (hnrows : s.core.fieldAt (s.core.a.rd c) 8 8 = nrows)
    (hss : signedOf 64 (s.core.fieldAt (s.core.a.rd c) 16 8) = ss) (hds : signedOf 64 (s.core.fieldAt (s.core.a.rd c) 24 8) = ds)
    (hctl : word (s.core.fieldAt (s.core.a.rd c) 32 8) = ctl) (hrest : s.core.fieldAt (s.core.a.rd c) 40 24 = rest) :
    exec (.cpy2 q t a b c) s = .next (s.issueCopy q t
      (s.blockFaults (s.core.a.rd a).toNat (s.core.a.rd b).toNat rowlen (if descriptorBad rowlen nrows ctl rest then 1 else nrows) ss ds
        (ctl.getLsbD 39) ++ shapeFault (descriptorBad rowlen nrows ctl rest))
      (.block (s.core.a.rd a) (s.core.a.rd b) rowlen nrows ss ds
        (if ctl.getLsbD 39 then some (Fin.ofNat 64 (ctl.extractLsb' 40 6).toNat) else none)) false none) := by
  change execCpy2 q t a b c s = _
  unfold execCpy2
  rw [blockAt_readable h]
  dsimp only
  rw [blockField_spadNat _ _ (k := 0x00) (by decide), blockField_spadNat _ _ (k := 0x08) (by decide),
    blockField_spadNat _ _ (k := 0x10) (by decide), blockField_spadNat _ _ (k := 0x18) (by decide),
    blockField_spadNat _ _ (k := 0x20) (by decide), blockField_spadNat _ _ (k := 0x28) (by decide), hrowlen, hnrows, hss, hds, hctl, hrest,
    bits_eq_extract (lo := 40) (n := 6) _ rfl, bitOf_eq_getLsbD, word_toNat, word_toNat]
  rfl

end Words

theorem bits_ne_zero_false {w hi lo n : Nat} {x : BitVec w} (e : hi + 1 - lo = n) (h : x.extractLsb' lo n = 0) : (bits x hi lo != 0) = false := by
  rw [(bits_eq_zero_iff x e).2 h]
  rfl

theorem blockCopiesIssue : Claims.BlockCopiesIssue := by
  intro q t a b c i s
  refine ⟨?_, ?_, ?_⟩
  · rintro ⟨hd, hs⟩ hlen hlen64 hhigh hmid hrows hcounts
    refine (exec_cpy q t a b c s).trans (congrArg Host.Outcome.next (issueCopy_of_nil ?_ ..))
    rw [blockFaults_nil hd hs rfl rfl hlen hlen64 Nat.one_pos hrows hcounts, shapeFault_nil]
    · rfl
    · rw [bits_ne_zero_false rfl hhigh, bits_ne_zero_false rfl hmid]
      rfl
  · rintro ⟨hd, hs⟩ hrows
    refine (exec_cpyb q t a b i s).trans (congrArg Host.Outcome.next (issueCopy_of_nil ?_ ..))
    exact blockFaults_nil hd hs rfl rfl (by omega) (by omega) Nat.one_pos hrows (fun h => absurd h Bool.false_ne_true)
  · intro hblock rowlen nrows ss ds ctl
    rintro ⟨hd, hs⟩ hss hds hpos hsmall h64 hm hmax hhigh hmid hrest hrows hcounts
    have hgood : descriptorBad rowlen nrows ctl 0 = false := by
      rw [descriptorBad, decide_eq_false (by omega), decide_eq_false (by omega), decide_eq_false (by omega), bits_ne_zero_false rfl hhigh,
        bits_ne_zero_false rfl hmid]
      rfl
    refine (exec_cpy2_readable q t a b c s hblock rfl rfl rfl rfl rfl hrest).trans (congrArg Host.Outcome.next (issueCopy_of_nil ?_ ..))
    change State.blockFaults s _ _ rowlen (if descriptorBad rowlen nrows ctl 0 then 1 else nrows) ss ds (ctl.getLsbD 39) ++
      shapeFault (descriptorBad rowlen nrows ctl 0) = []
    rw [hgood, if_neg Bool.false_ne_true, blockFaults_nil hd hs hss hds hpos h64 hm hrows hcounts]
    rfl

/-- Settles O23: a command's place in its queue and its pier entries from the stagings as one list; a block copy that meets its rules has
an empty list of faults. -/
theorem copyCommandsIssue : Obligations.CopyCommandsIssue := ⟨copyCommandsEnterQueueAndPier, blockCopiesIssue⟩

end Sys2Proof.Machine
end

section
/-!
LEMMAS. Atomics at issue (spec/11 R226 to R229): when they issue, and the order of their faults.
-/
open Sys2Proof

namespace Sys2Proof.Machine

section Words

variable (q : CopyQ) (t a b c : Reg) (u : Bool) (o : AccOp) (z : AtomSize) (s : State)

theorem exec_acc : exec (.acc q t a b c u o) s = .next (s.issueCopy q t
    (s.writeFaults winAcc false (s.core.a.rd a).toNat (max 1 (s.core.a.rd c).toNat) ++
      s.readFaults winAtom (s.core.a.rd b).toNat (max 1 (s.core.a.rd c).toNat) ++ alignFault 64 (s.core.a.rd a).toNat ++
      alignFault 64 (s.core.a.rd b).toNat ++
      shapeFault ((s.core.a.rd c).toNat = 0 || (s.core.a.rd c).toNat % 64 != 0 || decide (512 < (s.core.a.rd c).toNat) ||
        (s.core.a.rd a).toNat / 512 != ((s.core.a.rd a).toNat + max 1 (s.core.a.rd c).toNat - 1) / 512))
    (.acc o (s.core.a.rd a) (s.core.a.rd b) (s.core.a.rd c).toNat) u none) := by
  change execAcc q t a b c u o s = _
  unfold execAcc
  dsimp only
  rw [word_toNat, word_toNat]

theorem atomFaults_nil {s : State} {va : Nat} {z : AtomSize} (hw : s.writable winAtom true va (AtomSize.bytes z)) (ha : va % (AtomSize.bytes z) = 0) :
    s.atomFaults va z = [] := by
  rw [State.atomFaults, writeFaults_nil hw, alignFault_nil ha]
  rfl

theorem atomicsIssue : Claims.AtomicsIssue := by
  intro q t a b c u o z s x y w n wide
  refine ⟨?_, ?_, ?_⟩
  · intro hw ha
    have hnil : s.atomFaults x.toNat z = [] := by
      cases z with
      | w => exact atomFaults_nil hw ha
      | d => exact atomFaults_nil hw ha
    have hwide : wide = AtomSize.wide z := by cases z <;> rfl
    rw [hwide]
    exact ⟨congrArg Host.Outcome.next (issueCopy_of_nil hnil ..), congrArg Host.Outcome.next (issueCopy_of_nil hnil ..),
      congrArg Host.Outcome.next (issueCopy_of_nil hnil ..)⟩
  · intro hw ha hview
    refine congrArg Host.Outcome.next (issueCopy_of_nil ?_ ..)
    rw [writeFaults_nil hw, alignFault_nil ha, viewExcluded_nil hview]
    rfl
  · intro hpos hmax h64 hx hy hblock hw hr
    refine (exec_acc q t a b c u o s).trans (congrArg Host.Outcome.next (issueCopy_of_nil ?_ ..))
    rw [Nat.max_eq_right hpos, writeFaults_nil hw, readFaults_nil hr, alignFault_nil hx, alignFault_nil hy, shapeFault_nil]
    · rfl
    · rw [decide_eq_false (Nat.ne_of_gt hpos), bne_eq_false_iff_eq.2 h64, decide_eq_false (Nat.not_lt.2 hmax), bne_eq_false_iff_eq.2 hblock]
      rfl

/-! ### The order of faults (R40) -/

theorem issueCopy_of_first {fs : List IssueFault} {e : Cause} {x : Word} (h : firstIssue fs = some (e, x)) (q : CopyQ) (t : Reg)
    (k : CopyKind) (dup : Bool) (rel : Option Scope) (s : State) : s.issueCopy q t fs k dup rel = s.fault (CopyQ.slot q) e x := by
  rw [State.issueCopy, h]

/-- The faults of a single atomic as the rules that it breaks: the window, a frozen view, a merge routine's destination, a restartable
task's places, the alignment. -/
def atomFaultsOf (window early merge restart misaligned : Bool) (va : Nat) : List IssueFault :=
  (if window then [] else [(0, .prot, va)]) ++ (if early then [(3, .viewOrder, va)] else []) ++
    (if merge then [(0, .prot, va)] else []) ++ (if restart then [(4, .restartViolation, va)] else []) ++
    (if misaligned then [(1, .misaligned, va)] else [])

theorem atomFaults_eq (s : State) (va : Nat) (z : AtomSize) :
    s.atomFaults va z = atomFaultsOf (s.winOk winAtom va (AtomSize.bytes z)) (s.core.a.frozen0 && s.core.a.hitsView va (AtomSize.bytes z))
      (s.core.a.mergeBad va (AtomSize.bytes z)) (s.restartBad true va (AtomSize.bytes z)) (!decide (va % (AtomSize.bytes z) = 0)) va := by
  rw [State.atomFaults, State.writeFaults, State.readFaults, alignFault, atomFaultsOf]
  by_cases h : va % (AtomSize.bytes z) = 0
  · rw [if_pos h, decide_eq_true h]
    rfl
  · rw [if_neg h, decide_eq_false h]
    rfl

/-- The fault that an atomic raises, by the first rule in the order of R40 that it breaks. -/
def firstBroken (window early merge restart misaligned : Bool) : Option Cause :=
  if !window || merge then some .prot
  else if misaligned then some .misaligned
  else if early then some .viewOrder
  else if restart then some .restartViolation
  else none

theorem firstIssue_atomFaultsOf (window early merge restart misaligned : Bool) (va : Nat) :
    firstIssue (atomFaultsOf window early merge restart misaligned va) =
      (firstBroken window early merge restart misaligned).map (fun e => (e, word va)) := by
  cases window <;> cases early <;> cases merge <;> cases restart <;> cases misaligned <;>
    simp [firstIssue, atomFaultsOf, firstBroken]

theorem atomicFaultOrder : Claims.AtomicFaultOrder := by
  intro q t a b c u z s x n prot early traps
  have hn : n = (AtomSize.bytes z) := by cases z <;> rfl
  have htraps : ∀ e, firstBroken (s.winOk winAtom x.toNat n) (s.core.a.frozen0 && s.core.a.hitsView x.toNat n) (s.core.a.mergeBad x.toNat n)
      (s.restartBad true x.toNat n) (!decide (x.toNat % n = 0)) = some e → traps e := by
    intro e he
    have hfirst : firstIssue (s.atomFaults x.toNat z) = some (e, x) := by
      rw [atomFaults_eq, firstIssue_atomFaultsOf, ← hn, he, Option.map_some, word_toNat]
    intro i hi
    simp only [List.mem_cons, List.not_mem_nil, or_false] at hi
    rcases hi with rfl | rfl | rfl
    · exact congrArg Host.Outcome.next (issueCopy_of_first hfirst ..)
    · exact congrArg Host.Outcome.next (issueCopy_of_first hfirst ..)
    · exact congrArg Host.Outcome.next (issueCopy_of_first hfirst ..)
  have hprot : prot ↔ (!s.winOk winAtom x.toNat n || s.core.a.mergeBad x.toNat n) = true := by
    rw [Bool.or_eq_true, Bool.not_eq_true']
  have hearly : early ↔ (s.core.a.frozen0 && s.core.a.hitsView x.toNat n) = true := (Bool.and_eq_true ..).symm.to_iff
  rw [hprot, hearly]
  refine ⟨fun hp => htraps _ ?_, fun hp hm => htraps _ ?_, fun hp hm he => htraps _ ?_, fun hp hm he hr => htraps _ ?_⟩
  · rw [firstBroken, if_pos hp]
  · rw [firstBroken, if_neg hp, decide_eq_false hm]
    rfl
  · rw [firstBroken, if_neg hp, decide_eq_true hm, he]
    rfl
  · rw [firstBroken, if_neg hp, decide_eq_true hm, Bool.not_true, if_neg Bool.false_ne_true, if_neg he, if_pos hr]

/-- Settles O24: an atomic that meets its rules has an empty list of faults, and of the rules that it breaks the first in the order of
R40 is raised. -/
theorem atomicCommandsIssue : Obligations.AtomicCommandsIssue := ⟨atomicsIssue, atomicFaultOrder⟩

end Words

end Sys2Proof.Machine
end

section
/-!
LEMMAS. Ring commands, publications, sends and collectives at issue (spec/11 R225, R232 to R240).
-/
open Sys2Proof

namespace Sys2Proof.Machine

/-! ### Subscriptions (R232) -/

/-- The parameter block of a subscription. -/
structure RingBlock where
  mbase : Nat
  rowlen : Nat
  nrow : Nat
  rstride : Int
  tstride : Int
  count : Nat
  ring : Nat
  slotsz : Nat
  nslot : Nat
  rest : Nat

/-- The parameter block that stands at an address of the own scratchpad. -/
def Core.ringBlock (c : Core) (va : Word) : RingBlock where
  mbase := c.fieldAt va 0 8
  rowlen := c.fieldAt va 8 4
  nrow := c.fieldAt va 12 4
  rstride := signedOf 64 (c.fieldAt va 16 8)
  tstride := signedOf 64 (c.fieldAt va 24 8)
  count := c.fieldAt va 32 8
  ring := c.fieldAt va 40 8
  slotsz := c.fieldAt va 48 4
  nslot := c.fieldAt va 52 1
  rest := c.fieldAt va 53 11

/-- Whether a subscription of the core already serves one of the barriers that a block asks for. -/
def Core.ringServed (c : Core) (sb n : Nat) : Bool :=
  (List.range n).any (fun i => c.subs.any (fun y => y.sb0 ≤ sb + i && sb + i < y.sb0 + y.slots.length))

/-- Whether a parameter block is malformed. -/
def Core.ringBad (c : Core) (sb : Nat) (b : RingBlock) : Bool :=
  b.rowlen = 0 || b.rowlen % 64 != 0 || b.nrow = 0 || b.rstride % 64 != 0 || b.tstride % 64 != 0 || b.slotsz % 64 != 0 ||
    decide (b.slotsz < b.nrow * b.rowlen) || b.nslot = 0 || decide (64 < b.nslot) || decide (64 < sb + b.nslot) || b.rest != 0 ||
    c.ringServed sb b.nslot

/-- The faults of a subscription whose block can be read. -/
def State.ringFaults (s : State) (sb : Nat) (b : RingBlock) : List IssueFault :=
  [] ++ (if winUser (windowOf b.mbase) then [] else [(0, .prot, b.mbase)]) ++
    (if inSpad b.ring && inSpad (b.ring + max 1 (b.slotsz * b.nslot) - 1) then [] else [(0, .prot, b.ring)]) ++
    alignFault 64 b.mbase ++ alignFault 64 b.ring ++ shapeFault (s.core.ringBad sb b) ++
    (List.range (max 1 b.nrow)).flatMap (fun r => s.viewExcluded (rowVa b.mbase b.rstride r) (max 1 b.rowlen))

/-- The subscription that a block asks for. -/
def State.ringSub (s : State) (t : Reg) (d : RingDir) (sb : Fin 64) (b : RingBlock) : Subscription :=
  { ctx := s.core.a.ctx, tcb := s.core.a.key, sb0 := sb.val, dir := d, tok := t, accepted := false, mbase := word b.mbase,
    rowlen := b.rowlen, nrow := b.nrow, rstride := b.rstride, tstride := b.tstride, count := b.count,
    ring := b.ring - Config.spadBase, slotsz := b.slotsz,
    slots := List.replicate b.nslot (match d with | .inp => .free | .out => .owned), tile := 0, off := 0, taken := 0, stopping := [],
    last := 0, paused := none, relTok := [] }

/-- What a subscription leaves, its block read. -/
def State.subscribe (s : State) (q : CopyQ) (t : Reg) (d : RingDir) (sb : Fin 64) (b : RingBlock) : State :=
  match firstIssue (s.ringFaults sb.val b) with
  | some (c, v) => s.fault (CopyQ.slot q) c v
  | none => (s.pushCopy q t (.subs d sb) false none 1).modCore (fun c => { c with subs := c.subs ++ [s.ringSub t d sb b] })

theorem subscribe_of_nil {s : State} {b : RingBlock} {sb : Fin 64} (h : s.ringFaults sb.val b = []) (q : CopyQ) (t : Reg) (d : RingDir) :
    s.subscribe q t d sb b =
      (s.pushCopy q t (.subs d sb) false none 1).modCore (fun c => { c with subs := c.subs ++ [s.ringSub t d sb b] }) := by
  rw [State.subscribe, h]
  rfl

/-- The fields of a block as a number. -/
def ringBlockOf (x : Nat) : RingBlock where
  mbase := blockField x 0x00 8
  rowlen := blockField x 0x08 4
  nrow := blockField x 0x0C 4
  rstride := signedOf 64 (blockField x 0x10 8)
  tstride := signedOf 64 (blockField x 0x18 8)
  count := blockField x 0x20 8
  ring := blockField x 0x28 8
  slotsz := blockField x 0x30 4
  nslot := blockField x 0x34 1
  rest := blockField x 0x35 11

theorem ringBlockOf_spadNat (c : Core) (va : Word) : ringBlockOf (c.spadNat (spadOff va) 64) = c.ringBlock va := by
  rw [ringBlockOf, Core.ringBlock, blockField_spadNat _ _ (k := 0x00) (by decide), blockField_spadNat _ _ (k := 0x08) (by decide),
    blockField_spadNat _ _ (k := 0x0C) (by decide), blockField_spadNat _ _ (k := 0x10) (by decide),
    blockField_spadNat _ _ (k := 0x18) (by decide), blockField_spadNat _ _ (k := 0x20) (by decide),
    blockField_spadNat _ _ (k := 0x28) (by decide), blockField_spadNat _ _ (k := 0x30) (by decide),
    blockField_spadNat _ _ (k := 0x34) (by decide), blockField_spadNat _ _ (k := 0x35) (by decide)]

/-- A subscription of a block has the block's fields. -/
theorem ringSub_fields (s : State) (t : Reg) (d : RingDir) (sb : Fin 64) (b : RingBlock) (h : b.mbase < 0x00F0000000000000) :
    (s.ringSub t d sb b).sb0 = sb.val ∧ (s.ringSub t d sb b).dir = d ∧ (s.ringSub t d sb b).tok = t ∧
      (s.ringSub t d sb b).accepted = false ∧ (s.ringSub t d sb b).mbase.toNat = b.mbase ∧ (s.ringSub t d sb b).rowlen = b.rowlen ∧
      (s.ringSub t d sb b).nrow = b.nrow ∧ (s.ringSub t d sb b).rstride = b.rstride ∧ (s.ringSub t d sb b).tstride = b.tstride ∧
      (s.ringSub t d sb b).count = b.count ∧ (s.ringSub t d sb b).ring = b.ring - 0x00F0000000000000 ∧
      (s.ringSub t d sb b).slotsz = b.slotsz ∧
      (s.ringSub t d sb b).slots = List.replicate b.nslot (match d with | .inp => .free | .out => .owned) :=
  have hword : (word b.mbase).toNat = b.mbase := (BitVec.toNat_ofNat ..).trans (Nat.mod_eq_of_lt (by omega))
  ⟨rfl, rfl, rfl, rfl, hword, rfl, rfl, rfl, rfl, rfl, rfl, rfl, rfl⟩

theorem exec_subs_of_block {s : State} {a : Reg} {x : Nat} (h : s.blockAt (s.core.a.rd a) = (x, [])) (q : CopyQ) (t : Reg) (d : RingDir)
    (sb : Fin 64) : exec (.subs q t a d sb) s = .next (s.subscribe q t d sb (ringBlockOf x)) := by
  change execSubs q t a d sb s = _
  unfold execSubs
  rw [h]
  rfl

theorem exec_subs_readable {s : State} {a : Reg} (h : s.core.blockReadable (s.core.a.rd a)) (q : CopyQ) (t : Reg) (d : RingDir) (sb : Fin 64)
    (hnil : s.ringFaults sb.val (s.core.ringBlock (s.core.a.rd a)) = []) :
    exec (.subs q t a d sb) s = .next ((s.pushCopy q t (.subs d sb) false none 1).modCore
      (fun c => { c with subs := c.subs ++ [s.ringSub t d sb (s.core.ringBlock (s.core.a.rd a))] })) := by
  rw [exec_subs_of_block (blockAt_readable h), ringBlockOf_spadNat, subscribe_of_nil hnil]

theorem ringServed_false {c : Core} {sb n : Nat} (h : ∀ y ∈ c.subs, y.sb0 + y.slots.length ≤ sb ∨ sb + n ≤ y.sb0) :
    c.ringServed sb n = false := by
  rw [Core.ringServed, List.any_eq_false]
  intro i hi
  rw [List.any_eq_true]
  rintro ⟨y, hy, hin⟩
  have hlt := List.mem_range.1 hi
  rw [Bool.and_eq_true, decide_eq_true_iff, decide_eq_true_iff] at hin
  obtain ⟨hlo, hhi⟩ := hin
  rcases h y hy with h | h <;> omega

/-- A block that meets the rules of R232 raises no fault. -/
theorem ringFaults_nil {s : State} {sb : Nat} {b : RingBlock} (hmbase : b.mbase < 0x00F0000000000000) (hmbase64 : b.mbase % 64 = 0)
    (hring64 : b.ring % 64 = 0) (hring : 0x00F0000000000000 ≤ b.ring) (hrow : 0 < b.rowlen) (hrow64 : b.rowlen % 64 = 0) (hnrow : 0 < b.nrow)
    (hrs : b.rstride % 64 = 0) (hts : b.tstride % 64 = 0) (hsz : b.slotsz % 64 = 0) (hfit : b.nrow * b.rowlen ≤ b.slotsz)
    (hnslot : 0 < b.nslot) (hmax : b.nslot ≤ 64) (hsb : sb + b.nslot ≤ 64) (hend : b.ring + b.slotsz * b.nslot ≤ 0x00F0000000400000)
    (hrest : b.rest = 0) (hview : ∀ r, r < b.nrow → s.core.a.hitsView (rowStart (BitVec.ofNat 64 b.mbase) b.rstride r) b.rowlen = false)
    (hserved : s.core.ringServed sb b.nslot = false) : s.ringFaults sb b = [] := by
  have hpos : 0 < b.slotsz * b.nslot := Nat.mul_pos (Nat.lt_of_lt_of_le (Nat.mul_pos hnrow hrow) hfit) hnslot
  have hwin : winUser (windowOf b.mbase) = true := by
    rw [(windowOf_eq_user_iff _).2 hmbase]
    rfl
  have hin : (inSpad b.ring && inSpad (b.ring + b.slotsz * b.nslot - 1)) = true := by
    rw [Bool.and_eq_true, inSpad_iff, inSpad_iff]
    omega
  have hgood : s.core.ringBad sb b = false := by
    rw [Core.ringBad, hserved, decide_eq_false (Nat.ne_of_gt hrow), hrow64, decide_eq_false (Nat.ne_of_gt hnrow), hrs, hts, hsz,
      decide_eq_false (Nat.not_lt.2 hfit), decide_eq_false (Nat.ne_of_gt hnslot), decide_eq_false (Nat.not_lt.2 hmax),
      decide_eq_false (Nat.not_lt.2 hsb), hrest]
    rfl
  have hword : (BitVec.ofNat 64 b.mbase).toNat = b.mbase := (BitVec.toNat_ofNat ..).trans (Nat.mod_eq_of_lt (by omega))
  rw [State.ringFaults, hwin, Nat.max_eq_right hpos, if_pos rfl, if_pos hin, alignFault_nil hmbase64, alignFault_nil hring64,
    shapeFault_nil hgood, Nat.max_eq_right hnrow, Nat.max_eq_right hrow, flatMap_range_nil]
  · rfl
  · intro r hr
    rw [← hword, rowVa_eq, viewExcluded_nil (hview r hr)]

/-! ### Publications, releases and fences (R225, R234, R236) -/

theorem exec_publ {s : State} {a b : Reg} (q : CopyQ) (t : Reg) (sc : Scope) (hpos : 0 < (s.core.a.rd b).toNat)
    (hlen : (s.core.a.rd b).toNat % 65536 = 0) (ha : (s.core.a.rd a).toNat % 65536 = 0)
    (hwin : s.winOk winUser (s.core.a.rd a).toNat (s.core.a.rd b).toNat = true)
    (hview : s.core.a.hitsView (s.core.a.rd a).toNat (s.core.a.rd b).toNat = false) :
    exec (.publ q t a b sc) s =
      .next (s.pushCopy q t (.publ (s.core.a.rd a) (s.core.a.rd b).toNat sc) false (some sc) 1) := by
  change execPubl q t a b sc s = _
  unfold execPubl
  dsimp only
  rw [word_toNat, Nat.max_eq_right hpos, hwin, if_pos rfl, alignFault_nil ha, viewExcluded_nil hview, shapeFault_nil]
  · rfl
  · rw [decide_eq_false (Nat.ne_of_gt hpos), hlen]
    rfl

theorem ringAndFenceCommandsIssue : Claims.RingAndFenceCommandsIssue := by
  intro q t a b d sb sc k s x y
  refine ⟨rfl, rfl, rfl, rfl, exec_publ q t sc, ?_⟩
  intro hblock mbase rowlen nrow rstride tstride count ring slotsz nslot hmbase hmbase64 hring64 hring hrow hrow64 hnrow hrs hts hsz hfit
    hnslot hmax hsb hend hrest hview hserved
  have hb : s.core.ringBlock x =
    ⟨mbase, rowlen, nrow, rstride, tstride, count, ring, slotsz, nslot, s.core.fieldAt x 53 11⟩ := rfl
  clear_value mbase rowlen nrow rstride tstride count ring slotsz nslot
  have hnil : s.ringFaults sb.val (s.core.ringBlock x) = [] := by
    rw [hb]
    exact ringFaults_nil hmbase hmbase64 hring64 hring hrow hrow64 hnrow hrs hts hsz hfit hnslot hmax hsb hend hrest hview
      (ringServed_false hserved)
  have hexec := exec_subs_readable hblock q t d sb hnil
  rw [hb] at hexec
  exact ⟨_, _, hexec, rfl, ringSub_fields s t d sb _ hmbase⟩

/-! ### Verified sends (R237) -/

/-- The signature that a send captures: that of the seal that governs the tile, when none is open or pending. -/
def Core.sendSig (c : Core) (x : TileState) (row0 n : Nat) : Option Word :=
  if (if x.isOpen then some x.period else x.pending.map (fun ps => ps.period)).isSome then none
  else if x.lastPeriod.isSome then x.lastSig c.usesQ row0 n else none

/-- Whether a send is stale when it issues. -/
def Core.sendStale (c : Core) (x : TileState) (row0 n : Nat) : Bool :=
  x.wrote || ((if x.isOpen then some x.period else x.pending.map (fun ps => ps.period)).isNone &&
    (x.lastStale || (c.sendSig x row0 n).isNone))

/-- The faults of a send. -/
def State.sendFaults (s : State) (dst geo : Word) : List IssueFault :=
  (List.range (geoRows geo)).flatMap (fun r => s.writeFaults winSend false (rowVa dst.toNat (geoStride geo) r) 512) ++
    (if dst.toNat % 64 = 0 && geoStride geo % 64 = 0 then [] else [(1, .misaligned, dst.toNat)]) ++ shapeFault (geoBad geo)

theorem sendFaults_nil {s : State} {dst geo : Word} (hbad : geoBad geo = false) (hdst : dst.toNat % 64 = 0) (hstride : geoStride geo % 64 = 0)
    (hrows : ∀ r, r < geoRows geo → s.writable winSend false (rowStart dst (geoStride geo) r) 512) : s.sendFaults dst geo = [] := by
  rw [State.sendFaults, hdst, hstride, shapeFault_nil hbad, flatMap_range_nil]
  · rfl
  · intro r hr
    rw [rowVa_eq, writeFaults_nil (hrows r hr)]

/-- The command of a send: the rows of both paths, the period that governs them, whether it is stale, and its signature. -/
def Core.sendKind (c : Core) (dst : Word) (stride row0 n : Nat) (l : TileNo) : CopyKind :=
  .cpys dst stride row0 n l
    (if c.a.tiles[l].isOpen then some c.a.tiles[l].period else c.a.tiles[l].pending.map (fun p => p.period))
    ((List.range n).map (fun i => rowGet c.a.tiles[l].p (row0 + i))) ((List.range n).map (fun i => rowGet c.a.tiles[l].q (row0 + i)))
    (c.sendStale c.a.tiles[l] row0 n) (c.sendSig c.a.tiles[l] row0 n) false

/-- What a send leaves. -/
def State.sendRows (s : State) (q : CopyQ) (t : Reg) (l : TileNo) (dst geo : Word) : State :=
  match firstIssue (s.sendFaults dst geo) with
  | some (e, x) => s.fault (CopyQ.slot q) e x
  | none => (s.pushCopy q t (s.core.sendKind (word dst.toNat) (geoStride geo) (geoRow0 geo) (geoRows geo) l) false none
      (geoRows geo)).withEngine (.timed (2 + geoRows geo))

theorem exec_cpys (q : CopyQ) (t a c : Reg) (l : TileNo) (s : State) :
    exec (.cpys q t a c l) s = .next (s.sendRows q t l (s.core.a.rd a) (s.core.a.rd c)) := rfl

theorem exec_cpys_of_nil {s : State} {a c : Reg} (h : s.sendFaults (s.core.a.rd a) (s.core.a.rd c) = []) (q : CopyQ) (t : Reg) (l : TileNo) :
    exec (.cpys q t a c l) s = .next ((s.pushCopy q t (s.core.sendKind (s.core.a.rd a) (geoStride (s.core.a.rd c))
      (geoRow0 (s.core.a.rd c)) (geoRows (s.core.a.rd c)) l) false none (geoRows (s.core.a.rd c))).withEngine
        (.timed (2 + geoRows (s.core.a.rd c)))) := by
  rw [exec_cpys, State.sendRows, h, word_toNat]
  rfl

/-! ### Collectives (R240) -/

/-- The faults of one range of a collective. -/
def State.collRange (s : State) (bytes va : Nat) : List IssueFault :=
  (if s.winOk winUser va (max 1 bytes) then [] else [(0, .prot, va)]) ++ alignFault 64 va ++ s.viewExcluded va (max 1 bytes)

theorem collRange_nil {s : State} {bytes va : Nat} (hpos : 0 < bytes) (halign : va % 64 = 0) (hwin : s.winOk winUser va bytes = true)
    (hview : s.core.a.hitsView va bytes = false) : s.collRange bytes va = [] := by
  rw [State.collRange, Nat.max_eq_right hpos, hwin, alignFault_nil halign, viewExcluded_nil hview]
  rfl

/-- The faults of a collective whose block can be read. -/
def State.collFaults (s : State) (dst src : Nat) (bytes flags rest : Nat) : List IssueFault :=
  [] ++ s.collRange bytes dst ++ s.collRange bytes src ++
    (if true then shapeFault (bytes = 0 || bytes % 64 != 0 || flags / 2 != 0 || rest != 0) else [])

theorem collFaults_nil {s : State} {dst src bytes flags rest : Nat} (hpos : 0 < bytes) (h64 : bytes % 64 = 0) (hflags : flags < 2)
    (hrest : rest = 0) (hdst : s.collRange bytes dst = []) (hsrc : s.collRange bytes src = []) :
    s.collFaults dst src bytes flags rest = [] := by
  rw [State.collFaults, hdst, hsrc, if_pos rfl, shapeFault_nil]
  · rfl
  · rw [decide_eq_false (Nat.ne_of_gt hpos), h64, Nat.div_eq_of_lt hflags, hrest]
    rfl

/-- The ticks that a collective waits: its block's LIMIT, or its context's default. -/
def State.collTicks (s : State) (limit : Nat) : Nat :=
  if limit = 0 then ((s.ctx? s.core.a.ctx).map (fun y => y.collDefault)).getD 200000 else limit

theorem exec_coll_of_block {s : State} {c : Reg} {x : Nat} (h : s.blockAt (s.core.a.rd c) = (x, [])) (q : CopyQ) (t a b : Reg) (o : CollOp)
    (k : CollKind) : exec (.coll q t a b c o k) s = .next (s.issueCopy q t
      (s.collFaults (s.core.a.rd a).toNat (s.core.a.rd b).toNat (blockField x 0x08 8) (blockField x 0x14 4) (blockField x 0x18 40))
      (.coll k o (word (s.core.a.rd a).toNat) (word (s.core.a.rd b).toNat) (blockField x 0x00 8) (blockField x 0x08 8)
        (s.collTicks (blockField x 0x10 4))) false none) := by
  change execColl q t a b c o k s = _
  unfold execColl
  rw [h]
  rfl

theorem exec_coll_readable {s : State} {a b c : Reg} {bytes : Nat} (h : s.core.blockReadable (s.core.a.rd c))
    (hbytes : s.core.fieldAt (s.core.a.rd c) 8 8 = bytes)
    (hnil : s.collFaults (s.core.a.rd a).toNat (s.core.a.rd b).toNat bytes (s.core.fieldAt (s.core.a.rd c) 20 4)
      (s.core.fieldAt (s.core.a.rd c) 24 40) = []) (q : CopyQ) (t : Reg) (o : CollOp) (k : CollKind) :
    exec (.coll q t a b c o k) s = .next (s.pushCopy q t (.coll k o (s.core.a.rd a) (s.core.a.rd b) (s.core.fieldAt (s.core.a.rd c) 0 8)
      bytes (s.collTicks (s.core.fieldAt (s.core.a.rd c) 16 4))) false none 1) := by
  rw [exec_coll_of_block (blockAt_readable h), blockField_spadNat _ _ (k := 0x00) (by decide), blockField_spadNat _ _ (k := 0x08) (by decide),
    blockField_spadNat _ _ (k := 0x10) (by decide), blockField_spadNat _ _ (k := 0x14) (by decide),
    blockField_spadNat _ _ (k := 0x18) (by decide), hbytes, issueCopy_of_nil hnil, word_toNat, word_toNat]

theorem sendsAndCollectivesIssue : Claims.SendsAndCollectivesIssue := by
  intro q t a b c l o k s dst src w n row0 stride x
  refine ⟨?_, ?_⟩
  · intro hhigh hbit hfit hdst hstride hrows
    have hn : geoRows w = n := geoRows_eq w
    have hrow0 : geoRow0 w = row0 := geoRow0_eq w
    have hst : geoStride w = stride := geoStride_eq w
    have hgood : geoBad w = false := by
      rw [geoBad, bits_ne_zero_false rfl hhigh, bitOf_eq_getLsbD, hbit, hrow0, hn, decide_eq_false (Nat.not_lt.2 hfit)]
      rfl
    have hexec := exec_cpys_of_nil (a := a) (c := c) (sendFaults_nil hgood hdst (hst ▸ hstride) (by rw [hn, hst]; exact hrows)) q t l
    rw [hn, hrow0, hst] at hexec
    refine ⟨s.core.sendSig x row0 n, s.core.sendStale x row0 n, hexec, fun hw => ?_, fun ho => ?_⟩
    · rw [Core.sendStale, hw, Bool.true_or]
    · rw [Core.sendSig, ho]
      rfl
  · intro hblock group bytes limit hpos h64 hflags hrest hdst hsrc hranges
    obtain ⟨hwd, hvd⟩ := hranges _ (List.mem_cons_self ..)
    obtain ⟨hws, hvs⟩ := hranges _ (List.mem_cons_of_mem _ (List.mem_cons_self ..))
    refine ⟨s.collTicks limit, exec_coll_readable hblock rfl (collFaults_nil hpos h64 hflags hrest (collRange_nil hpos hdst hwd hvd)
      (collRange_nil hpos hsrc hws hvs)) q t o k, fun h => if_neg h, fun y hy h => ?_⟩
    rw [State.collTicks, if_pos h, hy]
    rfl

/-- Settles O25: a command whose block, ranges and alignment meet its rules has an empty list of faults. -/
theorem ringSendAndCollectiveCommands : Obligations.RingSendAndCollectiveCommands :=
  ⟨ringAndFenceCommandsIssue, sendsAndCollectivesIssue⟩

end Sys2Proof.Machine
end

section
/-!
LEMMAS. Cause words, the entry of a user trap, and the return from it (spec/15 R307 to R313).
-/
open Sys2Proof

namespace Sys2Proof.Machine

/-! ### Cause words (R307) -/

theorem row_eq (c : Cause) : c.row = (c.code, c.cls) := by cases c <;> rfl

theorem code_lt (c : Cause) : c.code < 2 ^ 16 := by cases c <;> decide

theorem cls_lt (c : Cause) : c.cls < 2 ^ 3 := by cases c <;> decide

theorem trapCauseWords : Claims.TrapCauseWords := by
  intro c deferred
  have hcode := code_lt c
  have hcls := cls_lt c
  apply BitVec.eq_of_toNat_eq
  rw [Cause.tcauseWord, causeFields, row_eq, toNat_word, toNat_append_add, toNat_append_add, toNat_append_add, toNat_flag, BitVec.toNat_ofNat,
    BitVec.toNat_ofNat, BitVec.toNat_ofNat]
  cases deferred <;> simp <;> omega

/-! ### What lands for a handler's first bundle (R310, R314) -/

/-- Landings on UTVEC and the parameter registers change nothing else. -/
theorem landAll_shared {ls : List Landing} (h : ∀ l ∈ ls, l.shared = true) (c : Core) :
    ∃ v mp, c.landAll ls = { c with a := { c.a with utvec := v, mp := mp } } := by
  induction ls generalizing c with
  | nil => exact ⟨_, _, rfl⟩
  | cons l ls ih =>
    have hrest := fun x hx => h x (List.mem_cons_of_mem l hx)
    have hl := h l (List.mem_cons_self ..)
    change ∃ v mp, (c.land l).landAll ls = _
    obtain ⟨v, mp, e⟩ := ih hrest (c.land l)
    cases l with
    | utvec x => exact ⟨v, mp, e⟩
    | mp i x => exact ⟨v, mp, e⟩
    | s | p | v | m | q | vrf | k | sres | port | tcexp => exact absurd hl Bool.false_ne_true

theorem landAll_utvec_of_none {ls : List Landing} (h : ∀ l ∈ ls, l.shared = true) (hno : ∀ x, Landing.utvec x ∉ ls) (c : Core) :
    (c.landAll ls).a.utvec = c.a.utvec := by
  induction ls generalizing c with
  | nil => rfl
  | cons l ls ih =>
    have hl := h l (List.mem_cons_self ..)
    refine (ih (fun x hx => h x (List.mem_cons_of_mem l hx)) (fun x hx => hno x (List.mem_cons_of_mem l hx)) (c.land l)).trans ?_
    cases l with
    | utvec x => exact absurd (List.mem_cons_self ..) (hno x)
    | mp i x => rfl
    | s | p | v | m | q | vrf | k | sres | port | tcexp => exact absurd hl Bool.false_ne_true

/-- The landings on shared state that a core has in flight. -/
def Core.sharedLands (c : Core) : List Landing := (c.a.flights.flatMap (fun f => f.lands)).filter Landing.shared

theorem mem_sharedLands (c : Core) : ∀ l ∈ c.sharedLands, l.shared = true := fun _ hl => (List.mem_filter.1 hl).2

/-- The results in flight that a trap sets aside. -/
def capturedFlights (fs : List Flight) : List Flight :=
  (fs.map (fun f => { f with lands := f.lands.filter (fun l => !l.shared) })).filter (fun f => !f.lands.isEmpty)

theorem inFlight_captured (fs : List Flight) (left : Nat) (l : Landing) :
    inFlight (capturedFlights fs) left l ↔ inFlight fs left l ∧ l.shared = false := by
  unfold inFlight capturedFlights
  constructor
  · rintro ⟨f, hf, rfl, hl⟩
    obtain ⟨hf, -⟩ := List.mem_filter.1 hf
    obtain ⟨g, hg, rfl⟩ := List.mem_map.1 hf
    obtain ⟨hl, hs⟩ := List.mem_filter.1 hl
    exact ⟨⟨g, hg, rfl, hl⟩, by rwa [Bool.not_eq_true'] at hs⟩
  · rintro ⟨⟨g, hg, rfl, hl⟩, hs⟩
    have hin : l ∈ g.lands.filter (fun l => !l.shared) := List.mem_filter.2 ⟨hl, by rw [Bool.not_eq_true']; exact hs⟩
    refine ⟨{ g with lands := g.lands.filter (fun l => !l.shared) }, List.mem_filter.2 ⟨List.mem_map_of_mem hg, ?_⟩, rfl, hin⟩
    rw [List.isEmpty_eq_false_iff.2 (List.ne_nil_of_mem hin)]
    rfl

/-! ### Entry of a user trap (R309, R310) -/

/-- The core once a trap has closed its bundle and written its trap registers. -/
def Core.trapped (c : Core) (k : Nat) (e : Cause) (x : Word) (pc : Word) : Core :=
  { c.closeIssue true with
    a := (c.closeIssue true).a.trapRegs e x false k pc,
    watch := if decide (c.a.reentry.getD 0 < k) then 0 else (c.closeIssue true).watch,
    iss := { Issue.none_ with trapped := true } }

/-- A class-0 cause that a handler takes enters it. -/
theorem fault_enters {k : Nat} {e : Cause} {x : Word} {s : State} (hc : e.cls = 0) (hut : s.core.a.ut = false) (hv : s.core.a.utvec ≠ 0)
    (hm : s.core.a.merging = none ∨ e = .leaseExpired) :
    s.fault k e x = s.modCore (fun c => (c.trapped k e x s.core.a.pc).userEntry) := by
  have hlease : ¬(decide (e = .leaseExpired) && decide (s.core.a.utvec = 0)) = true := by
    rw [decide_eq_false hv, Bool.and_false]
    exact Bool.false_ne_true
  have hnest : (decide (e.cls = 0) && s.core.a.ut) = false := by rw [hut, Bool.and_false]
  have hregs : ∀ a : Arch, a.trapRegs e x false k s.core.a.pc =
      { a with tcause := e.tcauseWord false, tval := x, tpc := s.core.a.pc, sres := BitVec.ofNat 4 k } := by
    intro a
    rw [Arch.trapRegs, hc]
    rfl
  have hgo : ∀ a : Arch, a.utvec = s.core.a.utvec → a.merging = s.core.a.merging →
      (decide (a.utvec = 0) || (a.merging.isSome && decide (e ≠ .leaseExpired))) = false := by
    intro a hav ham
    rw [hav, ham, decide_eq_false hv, Bool.false_or]
    rcases hm with h | h
    · rw [h]
      rfl
    · rw [h, decide_eq_false (not_not.2 rfl), Bool.and_false]
  have htrapped : (decide ((s.core.trapped k e x s.core.a.pc).a.utvec = 0) ||
      ((s.core.trapped k e x s.core.a.pc).a.merging.isSome && decide (e ≠ .leaseExpired))) = false := by
    unfold Core.trapped
    rw [hregs]
    exact hgo _ rfl rfl
  unfold State.fault State.trap
  rw [if_neg hlease, hnest]
  dsimp only
  rw [if_neg Bool.false_ne_true, if_neg Bool.false_ne_true, hc]
  exact if_neg (ne_true_of_eq_false htrapped)

/-- What a handler finds: the trap state set aside, and UTVEC and the parameter registers with what was in flight to them. -/
theorem userEntry_eq (c : Core) : ∃ v mp, c.userEntry = { c with
    a := { c.a with
      utvec := v, mp := mp, flights := [], popped := [], staged := [], words := [], reentry := none, block := none, pend := none, order := [],
      loops := Vector.replicate 4 LoopLevel.init, ut := true, pc := c.a.utvec, segs := c.a.segs.map (Seg.ticks 7),
      trap := some ⟨capturedFlights c.a.flights, c.a.q, c.a.m, c.a.k, c.a.loops, c.a.order, c.a.pend, c.a.sres, c.a.tpc, c.a.popped,
        c.a.staged, c.a.words, c.a.block⟩ },
    entry := 7, seq := c.seq + 1 } ∧
    v = (c.landAll c.sharedLands).a.utvec ∧ mp = (c.landAll c.sharedLands).a.mp := by
  obtain ⟨v, mp, e⟩ := landAll_shared (mem_sharedLands c) c
  refine ⟨v, mp, ?_, by rw [e], by rw [e]⟩
  have hshared : c.landShared = { c with a := { c.a with utvec := v, mp := mp, flights := capturedFlights c.a.flights } } := by
    change { c.landAll c.sharedLands with a := { (c.landAll c.sharedLands).a with flights := capturedFlights c.a.flights } } = _
    rw [e]
  unfold Core.userEntry
  dsimp only
  rw [hshared]

theorem not_inFlight_of_sharedLands {c : Core} (h : ∀ left x, ¬inFlight c.a.flights left (.utvec x)) (x : Word) :
    Landing.utvec x ∉ c.sharedLands := by
  intro hx
  obtain ⟨hx, -⟩ := List.mem_filter.1 hx
  obtain ⟨f, hf, hl⟩ := List.mem_flatMap.1 hx
  exact h f.left x ⟨f, hf, rfl, hl⟩

theorem sharedLands_eq (c : Core) : c.sharedLands = c.a.flights.flatMap (fun f => f.lands.filter Landing.shared) := by
  rw [Core.sharedLands, List.filter_flatMap]

/-- The core that takes a class-0 trap, but for its watchdog count, its pier and its staged entries: the trap registers are written. -/
theorem trapped_eq {e : Cause} (h : e.cls = 0) (c : Core) (k : Nat) (x pc : Word) : ∃ w p i,
    c.trapped k e x pc = { c with
      a := { (c.closeIssue true).a with tcause := e.tcauseWord false, tval := x, tpc := pc, sres := BitVec.ofNat 4 k },
      watch := w, pier := p, iss := i } := by
  have hregs : (c.closeIssue true).a.trapRegs e x false k pc =
      { (c.closeIssue true).a with tcause := e.tcauseWord false, tval := x, tpc := pc, sres := BitVec.ofNat 4 k } := by
    rw [Arch.trapRegs, h]
    rfl
  rw [Core.trapped, hregs]
  exact ⟨_, _, _, rfl⟩

theorem userTrapEntry : Claims.UserTrapEntry := by
  intro k e x s hc hut hv hk hm t
  obtain ⟨w, p, i, htrapped⟩ := trapped_eq hc s.core k x s.core.a.pc
  obtain ⟨v, mp, hentry, hval, hmp⟩ := userEntry_eq (s.core.trapped k e x s.core.a.pc)
  have hflights : (s.core.trapped k e x s.core.a.pc).a.flights = s.core.a.flights := by rw [htrapped]; rfl
  have hutvec : (s.core.trapped k e x s.core.a.pc).a.utvec = s.core.a.utvec := by rw [htrapped]; rfl
  have ht : t = { s with core := (s.core.trapped k e x s.core.a.pc).userEntry } := fault_enters hc hut hv hm
  have hnone : (∀ left x, ¬inFlight s.core.a.flights left (.utvec x)) → v = s.core.a.utvec := by
    intro h
    rw [← hflights] at h
    rw [hval, landAll_utvec_of_none (mem_sharedLands _) (not_inFlight_of_sharedLands h), hutvec]
  have hone : ∀ y, s.core.a.flights.flatMap (fun f => f.lands.filter Landing.shared) = [.utvec y] → v = y ∧ mp = s.core.a.mp := by
    intro y h
    rw [← hflights, ← sharedLands_eq] at h
    rw [hval, hmp, h]
    exact ⟨rfl, congrArg (fun c => c.a.mp) htrapped⟩
  rw [hentry, htrapped] at ht
  rw [ht]
  exact ⟨rfl, trapCauseWords e false, rfl, rfl, rfl, rfl, rfl, rfl, rfl, fun l => congrArg LoopLevel.act (Vector.getElem_replicate ..), rfl,
    ⟨_, rfl, fun left l => inFlight_captured _ left l, rfl, rfl, rfl, rfl, rfl, rfl, rfl, rfl, rfl⟩, hnone, hone, rfl, rfl, rfl, rfl, rfl,
    rfl, rfl, rfl⟩

/-! ### TRAP and UTRET (R311 to R313) -/

/-- Nothing of a handler lands at its return when all its results come later than the 8 cycles. -/
theorem handlerFlights_far {n : Nat} {fs : List Flight} (h : ∀ f ∈ fs, n < f.left) : (handlerFlights n fs).1 = [] := by
  refine List.flatMap_eq_nil_iff.2 (fun f hf => ?_)
  obtain ⟨hf, hle⟩ := List.mem_filter.1 hf
  obtain ⟨g, hg, rfl⟩ := List.mem_map.1 hf
  exact absurd (of_decide_eq_true hle) (Nat.not_le.2 (h g hg))

/-- A return that re-enters the bundle at TPC, with nothing of the handler due. -/
theorem trapReturn_eq {c : Core} {r : TrapState} (htrap : c.a.trap = some r) (hfar : ∀ f ∈ c.a.flights, 8 < f.left) (hsres : c.a.sres.toNat < 8) :
    ∃ hf, c.trapReturn = { c with
      a := { c.a with
        q := r.q, m := r.m, k := r.k, loops := r.loops, order := r.order, pend := r.pend, ut := false, trap := none, pc := c.a.tpc,
        flights := r.replay ++ hf, popped := r.popped, staged := r.staged,
        reentry := if c.a.sres = 7 ∧ r.cont.isSome = true then none else some c.a.sres.toNat,
        block := if c.a.sres = 7 then r.cont else none, words := if c.a.sres = 0 then [] else r.words, segs := c.a.segs.map (Seg.ticks 8) },
      entry := 7 } := by
  refine ⟨(handlerFlights 8 c.a.flights).2, ?_⟩
  have hreentry : (if (if c.a.sres = 7 then r.cont else none).isSome then none else some c.a.sres.toNat) =
      if c.a.sres = 7 ∧ r.cont.isSome = true then none else some c.a.sres.toNat := by
    by_cases h : c.a.sres = 7
    · rw [if_pos h]
      simp only [h, true_and]
    · simp only [h, false_and, if_false, Option.isSome_none, Bool.false_eq_true]
  rw [← hreentry]
  unfold Core.trapReturn
  rw [htrap]
  dsimp only
  rw [if_pos hsres, if_pos hsres, handlerFlights_far hfar]
  rfl

/-- The core when the bundle of a UTRET has closed. -/
def Core.utretClosed (c : Core) : Core := { c.closeIssue false with seq := c.seq + 1, watch := 0 }

theorem exec_utret {s : State} (h : s.core.a.ut = true) :
    exec .utret s = .next { s with core := { s.core.utretClosed.trapReturn with iss := { Issue.none_ with trapped := true } } } := by
  change execUtret s = _
  rw [execUtret, h]
  rfl

theorem trapInstructionsAndReturn : Claims.TrapInstructionsAndReturn := by
  intro n s
  have hword : word n.toNat = n.setWidth 64 := BitVec.ofNat_toNat ..
  refine ⟨fun h => ?_, fun h => ?_, ?_, fun h => ?_, ?_⟩
  · change execTrap n s = _
    rw [execTrap, h, hword]
    rfl
  · change execTrap n s = _
    rw [execTrap, h]
    rfl
  · change execTrapDup n s = _
    rw [execTrapDup, hword]
  · change execUtret s = _
    rw [execUtret, h]
    rfl
  · intro r hut htrap hfar hsres
    obtain ⟨hf, hret⟩ := trapReturn_eq (c := s.core.utretClosed) htrap hfar hsres
    refine ⟨_, exec_utret hut, ?_⟩
    rw [hret]
    exact ⟨rfl, rfl, rfl, rfl, rfl, rfl, rfl, rfl, rfl, rfl, rfl, rfl, rfl, fun f hf => List.mem_append_left _ hf, rfl, rfl, rfl, rfl⟩

/-- Settles O29: the trap registers and what is set aside, read off the one equation of a handler's entry, and its return likewise. -/
theorem trapsAndReturn : Obligations.TrapsAndReturn := ⟨trapCauseWords, userTrapEntry, trapInstructionsAndReturn⟩

end Sys2Proof.Machine
end

section
/-!
LEMMAS. What leaves a task's record as it was but for its state, its place and what it waits for, and keeps the names of contexts and
streams (spec/12 R263 to R269).
-/
open Sys2Proof

namespace Sys2Proof.Machine

/-! ### Records of tasks -/

/-- A task's record without what moving it changes: its state, its place, its saved frame and what it waits for. -/
def Task.card (t : Task) : Task := { t with st := .new, readySince := 0, pinned := none, saved := none, wait := none }

/-- What names a context: its number and its owner. -/
def Context.ident (c : Context) : Nat × Nat := (c.num, c.owner)

/-- What names a stream: its number and its context. -/
def Stream.ident (x : Stream) : Nat × Nat := (x.num, x.ctx)

/-- The records of all tasks, and the names of all contexts and streams. -/
def State.ledger (s : State) : List Task × List (Nat × Nat) × List (Nat × Nat) :=
  (s.tasks.map Task.card, s.ctxs.map Context.ident, s.streams.map Stream.ident)

/-- A change of some elements that keeps a measure of each. -/
theorem map_ite_measure {α γ : Type} (m : α → γ) {p : α → Prop} [DecidablePred p] {f : α → α} (h : ∀ x, m (f x) = m x) (l : List α) :
    (l.map (fun x => if p x then f x else x)).map m = l.map m := by
  rw [List.map_map]
  refine List.map_congr_left (fun x _ => ?_)
  change m (if p x then f x else x) = m x
  split
  · exact h x
  · rfl

theorem map_measure {α γ : Type} (m : α → γ) {f : α → α} (h : ∀ x, m (f x) = m x) (l : List α) : (l.map f).map m = l.map m := by
  rw [List.map_map]
  exact List.map_congr_left (fun x _ => h x)

@[simp] theorem foldl_ledger {α : Type} {f : State → α → State} (h : ∀ s x, (f s x).ledger = s.ledger) (l : List α) (s : State) :
    (l.foldl f s).ledger = s.ledger :=
  foldl_preserves State.ledger h l s

@[simp] theorem modCore_ledger (f : Core → Core) (s : State) : (s.modCore f).ledger = s.ledger := rfl

@[simp] theorem modA_ledger (f : Arch → Arch) (s : State) : (s.modA f).ledger = s.ledger := rfl

@[simp] theorem focus_ledger (c : Nat) (s : State) : (s.focus c).ledger = s.ledger := by
  unfold State.focus
  split <;> rfl

@[simp] theorem onCore_ledger (c : Nat) (f : Core → Core) (s : State) : (s.onCore c f).ledger = s.ledger := by
  unfold State.onCore
  split <;> rfl

@[simp] theorem onDie_ledger (d : Nat) (f : Die → Die) (s : State) : (s.onDie d f).ledger = s.ledger := by
  unfold State.onDie
  split <;> rfl

theorem ledger_ext {s t : State} (ht : t.tasks.map Task.card = s.tasks.map Task.card)
    (hc : t.ctxs.map Context.ident = s.ctxs.map Context.ident) (hs : t.streams.map Stream.ident = s.streams.map Stream.ident) :
    t.ledger = s.ledger :=
  Prod.ext ht (Prod.ext hc hs)

theorem ledger_parts {s t : State} (h : t.ledger = s.ledger) : t.tasks.map Task.card = s.tasks.map Task.card ∧
    t.ctxs.map Context.ident = s.ctxs.map Context.ident ∧ t.streams.map Stream.ident = s.streams.map Stream.ident :=
  ⟨congrArg Prod.fst h, congrArg (fun l => l.2.1) h, congrArg (fun l => l.2.2) h⟩

theorem onCtx_ledger {f : Context → Context} (h : ∀ c, (f c).ident = c.ident) (n : Nat) (s : State) : (s.onCtx n f).ledger = s.ledger :=
  ledger_ext rfl (map_ite_measure Context.ident h s.ctxs) rfl

theorem mapCtxs_ledger {f : Context → Context} (h : ∀ c, (f c).ident = c.ident) (s : State) :
    ({ s with ctxs := s.ctxs.map f } : State).ledger = s.ledger :=
  ledger_ext rfl (map_measure Context.ident h s.ctxs) rfl

theorem onStream_ledger {f : Stream → Stream} (h : ∀ x, (f x).ident = x.ident) (n : Nat) (s : State) :
    (s.onStream n f).ledger = s.ledger :=
  ledger_ext rfl rfl (map_ite_measure Stream.ident h s.streams)

@[simp] theorem onCluster_ledger (n : Nat) (f : Cluster → Cluster) (s : State) : (s.onCluster n f).ledger = s.ledger := by
  unfold State.onCluster
  split <;> rfl

@[simp] theorem writePhys_ledger (s : State) (bs : List (Nat × Byte)) (ts : List (Nat × Word)) : (s.writePhys bs ts).ledger = s.ledger := rfl

@[simp] theorem writeVa_ledger (s : State) (d ctx va n x : Nat) : (s.writeVa d ctx va n x).ledger = s.ledger := by
  unfold State.writeVa
  split <;> rfl

@[simp] theorem cacheDrop_ledger (s : State) (d pa : Nat) : (s.cacheDrop d pa).ledger = s.ledger := by
  simp [State.cacheDrop]

@[simp] theorem landWrite_ledger (r : MemReq) (gone : List Nat) (s : State) : (s.landWrite r gone).ledger = s.ledger := by
  simp [State.landWrite]

/-- A change to a task that keeps its record. -/
theorem onTask_ledger {f : Task → Task} (h : ∀ t, (f t).card = t.card) (ctx : Nat) (tcb : Word) (s : State) :
    (s.onTask ctx tcb f).ledger = s.ledger :=
  ledger_ext (map_ite_measure Task.card h s.tasks) rfl rfl

@[simp] theorem setTask_ledger (ctx : Nat) (tcb : Word) (st : TState) (s : State) : (s.setTask ctx tcb st).ledger = s.ledger := by
  simp only [State.setTask, writeVa_ledger]
  exact onTask_ledger (by exact fun _ => rfl) ctx tcb s

@[simp] theorem setStatus_ledger (ctx : Nat) (tcb : Word) (code cause : Nat) (s : State) :
    (s.setStatus ctx tcb code cause).ledger = s.ledger := by
  simp [State.setStatus]

@[simp] theorem onTaskArch_ledger (ctx : Nat) (key : Word) (f : Arch → Arch) (s : State) : (s.onTaskArch ctx key f).ledger = s.ledger :=
  ledger_ext (map_ite_measure Task.card (by exact fun _ => rfl) s.tasks) (map_ite_measure Context.ident (by exact fun _ => rfl) s.ctxs) rfl

@[simp] theorem onGang_ledger (ctx : Nat) (va : Word) (f : Gang → Gang) (s : State) : (s.onGang ctx va f).ledger = s.ledger := rfl

@[simp] theorem acquireOn_ledger (core : Nat) (s : State) : (s.acquireOn core).ledger = s.ledger := by
  simp [State.acquireOn]

@[simp] theorem acquireFor_ledger (ctx : Nat) (key : Word) (s : State) : (s.acquireFor ctx key).ledger = s.ledger := by
  unfold State.acquireFor
  split <;> simp

@[simp] theorem gangFill_ledger (ctx : Nat) (key : Word) (op x : Nat) (acq : Bool) (s : State) :
    (s.gangFill ctx key op x acq).ledger = s.ledger := by
  unfold State.gangFill
  split <;> simp

theorem gangs_ledger (f : List Gang → List Gang) (s : State) : ({ s with gangs := f s.gangs } : State).ledger = s.ledger := rfl

@[simp] theorem gangComplete_ledger (ctx : Nat) (va : Word) (s : State) : (s.gangComplete ctx va).ledger = s.ledger := by
  unfold State.gangComplete
  dsimp only
  split
  · rfl
  · split
    · rfl
    · split
      · exact (foldl_ledger (by simp) _ _).trans ((foldl_ledger (by simp) _ _).trans (onGang_ledger ..))
      · exact (foldl_ledger (by simp) _ _).trans ((foldl_ledger (by simp) _ _).trans (onGang_ledger ..))

@[simp] theorem leaveGangs_ledger (a : Arch) (s : State) : (s.leaveGangs a).ledger = s.ledger :=
  (foldl_ledger (by simp) _ _).trans rfl

@[simp] theorem leaveCluster_ledger (s : State) : s.leaveCluster.ledger = s.ledger := by
  simp [State.leaveCluster]

@[simp] theorem acquireDue_ledger (s : State) : s.acquireDue.ledger = s.ledger := by
  unfold State.acquireDue
  split <;> simp

@[simp] theorem putBack_ledger (f : Frame) (s : State) : (s.putBack f).ledger = s.ledger := by
  simp [State.putBack]

@[simp] theorem popInline_ledger (s : State) : s.popInline.ledger = s.ledger := by
  unfold State.popInline
  split <;> simp

@[simp] theorem leaveInline_ledger (t : Word) (n : Nat) (s : State) : (s.leaveInline t n).ledger = s.ledger := by
  induction n generalizing t s with
  | zero => rfl
  | succ n ih =>
    unfold State.leaveInline
    split
    · rfl
    · split
      · rw [ih, onTask_ledger (by exact fun _ => rfl), setTask_ledger, modCore_ledger]
      · exact popInline_ledger s

@[simp] theorem dropTask_ledger (s : State) : s.dropTask.ledger = s.ledger := by
  simp [State.dropTask]

@[simp] theorem clearCores_ledger (p : Nat → Word → Bool) (s : State) : (s.clearCores p).ledger = s.ledger := by
  simp [State.clearCores, apply_ite State.ledger]

@[simp] theorem clearImages_ledger (p : Nat → Word → Bool) (s : State) : (s.clearImages p).ledger = s.ledger := by
  unfold State.clearImages
  refine (mapCtxs_ledger (by exact fun _ => rfl) _).trans ?_
  exact foldl_ledger (f := fun s a => s.leaveGangs a) (fun s a => leaveGangs_ledger a s) _ s

@[simp] theorem dropQueued_ledger (p : Nat → Word → Bool) (s : State) : (s.dropQueued p).ledger = s.ledger := rfl

@[simp] theorem writeRecord_ledger (c : Completion) (s : State) : (s.writeRecord c).ledger = s.ledger := by
  unfold State.writeRecord
  split
  · rfl
  · refine (onStream_ledger ?_ _ _).trans ?_
    · exact fun _ => rfl
    · simp only [State.writePhys, State.ledger]

@[simp] theorem completeLaunch_ledger (l : Launch) (status cause : Nat) (ftcb tpc tval : Word) (pc : Nat) (s : State) :
    (s.completeLaunch l status cause ftcb tpc tval pc).ledger = s.ledger := by
  unfold State.completeLaunch
  dsimp only
  split
  · rfl
  · exact writeRecord_ledger ..

@[simp] theorem excess_ledger (q : QueueRef) (e : QEntry) (s : State) : (s.excess q e).ledger = s.ledger := rfl

@[simp] theorem enqueueDie_ledger (d ctx : Nat) (tcb : Word) (seq : Option Nat) (s : State) :
    (s.enqueueDie d ctx tcb seq).ledger = s.ledger := by
  simp [State.enqueueDie, apply_ite State.ledger]

@[simp] theorem enqueueCore_ledger (c ctx : Nat) (tcb : Word) (s : State) : (s.enqueueCore c ctx tcb).ledger = s.ledger := by
  unfold State.enqueueCore
  dsimp only
  repeat' split
  all_goals simp

@[simp] theorem enqueue_ledger (q : QueueRef) (ctx : Nat) (tcb : Word) (s : State) : (s.enqueue q ctx tcb).ledger = s.ledger := by
  have hready : (((s.setTask ctx tcb .ready).onTask ctx tcb (fun t => { t with readySince := s.frame.toNat }))).ledger = s.ledger :=
    (onTask_ledger (by exact fun _ => rfl) ..).trans (setTask_ledger ..)
  unfold State.enqueue
  dsimp only
  split
  · exact (onCtx_ledger (by exact fun _ => rfl) ..).trans hready
  · split
    · exact (enqueueCore_ledger ..).trans hready
    · exact (enqueueDie_ledger ..).trans hready

@[simp] theorem readyPinned_ledger (ctx : Nat) (tcb : Word) (s : State) : (s.readyPinned ctx tcb).ledger = s.ledger := by
  unfold State.readyPinned
  repeat' split
  all_goals simp

@[simp] theorem childEnded_ledger (ctx : Nat) (tcb : Word) (s : State) : (s.childEnded ctx tcb).ledger = s.ledger :=
  foldl_ledger (f := fun s (t : Task) => s.readyPinned t.ctx t.tcb) (by simp) _ s

@[simp] theorem landOut_ledger (ctx : Nat) (mine : CopyCmd → Bool) (d : Nat) (s : State) : (s.landOut ctx mine d).ledger = s.ledger := by
  simp [State.landOut]

/-- What holds of every record holds of every task, where moving a task does not change it. -/
theorem forall_tasks_of_ledger {P : Task → Prop} (hP : ∀ t, P t.card ↔ P t) {s t : State} (h : t.ledger = s.ledger)
    (hs : ∀ y ∈ s.tasks, P y) : ∀ y ∈ t.tasks, P y := by
  intro y hy
  have hc : y.card ∈ s.tasks.map Task.card := (ledger_parts h).1 ▸ List.mem_map_of_mem (f := Task.card) hy
  obtain ⟨z, hz, e⟩ := List.mem_map.1 hc
  exact (hP y).1 (e ▸ (hP z).2 (hs z hz))

theorem exists_task_of_ledger {P : Task → Prop} (hP : ∀ t, P t.card ↔ P t) {s t : State} (h : t.ledger = s.ledger)
    (hs : ∃ y ∈ s.tasks, P y) : ∃ y ∈ t.tasks, P y := by
  obtain ⟨y, hy, hp⟩ := hs
  have hc : y.card ∈ t.tasks.map Task.card := (ledger_parts h).1 ▸ List.mem_map_of_mem (f := Task.card) hy
  obtain ⟨z, hz, e⟩ := List.mem_map.1 hc
  exact ⟨z, hz, (hP z).1 (e ▸ (hP y).2 hp)⟩

/-- The contexts of two machines with one ledger have the same names. -/
theorem ident_mem_of_ledger {s t : State} (h : t.ledger = s.ledger) {c : Context} (hc : c ∈ t.ctxs) : ∃ d ∈ s.ctxs, d.ident = c.ident := by
  have hm : c.ident ∈ s.ctxs.map Context.ident := (ledger_parts h).2.1 ▸ List.mem_map_of_mem (f := Context.ident) hc
  exact List.mem_map.1 hm

theorem stream_mem_of_ledger {s t : State} (h : t.ledger = s.ledger) {x : Stream} (hx : x ∈ t.streams) : ∃ y ∈ s.streams, y.ident = x.ident := by
  have hm : x.ident ∈ s.streams.map Stream.ident := (ledger_parts h).2.2 ▸ List.mem_map_of_mem (f := Stream.ident) hx
  exact List.mem_map.1 hm

end Sys2Proof.Machine
end

section
/-!
LEMMAS. The end of a launch, the suspension and the restart of a task (spec/12 R263 to R269, spec/15 R309, R318, R325).
-/
open Sys2Proof

namespace Sys2Proof.Machine

/-! ### What a trap does once its bundle is closed and its registers are written (R309) -/

/-- What becomes of the task, by the class of the cause. -/
def State.caught (k : Nat) (e : Cause) (x pc : Word) (s : State) : State :=
  match e.cls with
  | 0 =>
    if s.core.a.utvec = 0 || (s.core.a.merging.isSome && e ≠ .leaseExpired) then s.faultLaunch 1 e pc x else s.modCore Core.userEntry
  | 1 =>
    if s.core.a.merging.isSome && !(e = .page && s.inViewPool s.core.a.ctx x.toNat) then s.faultLaunch 1 e pc x
    else s.modA (fun a => { a with
      reentry := some k, words := if k = 0 then [] else a.words,
      block := some (.suspend (if e = .page then .page x else .resource x.toNat)), back := none })
  | 2 => s.faultLaunch 1 e pc x
  | 3 => s.hardwareError e pc x
  | _ => s.faultLaunch 3 e pc x

/-- The machine once a trap has closed the bundle of the acting core and written its trap registers. -/
def State.trapped (k : Nat) (e : Cause) (x : Word) (s : State) : State := s.modCore (fun c => c.trapped k e x s.core.a.pc)

theorem fault_eq {e : Cause} {s : State} (hlease : e = .leaseExpired → s.core.a.utvec ≠ 0) (hnest : e.cls = 0 → s.core.a.ut = false)
    (k : Nat) (x : Word) : s.fault k e x = (s.trapped k e x).caught k e x s.core.a.pc := by
  have hkeep : ¬(decide (e = .leaseExpired) && decide (s.core.a.utvec = 0)) = true := by
    rw [Bool.and_eq_true, decide_eq_true_iff, decide_eq_true_iff]
    exact fun h => hlease h.1 h.2
  have hown : (decide (e.cls = 0) && s.core.a.ut) = false := by
    by_cases h : e.cls = 0
    · rw [hnest h, Bool.and_false]
    · rw [decide_eq_false h, Bool.false_and]
  unfold State.fault State.trap
  rw [if_neg hkeep, hown]
  rfl

/-- A class-0 cause inside a handler is ILLEGAL_OP of the slot's word (R311). -/
theorem fault_nested {e : Cause} {s : State} (he : e.cls = 0) (hlease : e ≠ .leaseExpired) (hut : s.core.a.ut = true) (k : Nat) (x : Word) :
    s.fault k e x = (s.trapped k .illegalOp (word (s.core.a.words.getD k 0))).caught k .illegalOp (word (s.core.a.words.getD k 0))
      s.core.a.pc := by
  have hkeep : ¬(decide (e = .leaseExpired) && decide (s.core.a.utvec = 0)) = true := by
    rw [decide_eq_false hlease, Bool.false_and]
    exact Bool.false_ne_true
  have hnest : (decide (e.cls = 0) && s.core.a.ut) = true := by rw [decide_eq_true he, hut]; rfl
  unfold State.fault State.trap
  rw [if_neg hkeep, hnest]
  rfl

/-! ### A class-1 fault suspends the task (R309, R318) -/

/-- The core whose task a class-1 fault suspends, outside a handler. -/
theorem trapped_page {c : Core} (h : c.a.ut = false) (k : Nat) (x pc : Word) : ∃ w p i, c.trapped k .page x pc = { c with
    a := { (c.closeIssue true).a with
      tcause := Cause.page.tcauseWord false, tval := x, tpc := pc, sres := BitVec.ofNat 4 k },
    watch := w, pier := p, iss := i } := by
  have hregs : (c.closeIssue true).a.trapRegs .page x false k pc =
      { (c.closeIssue true).a with tcause := Cause.page.tcauseWord false, tval := x, tpc := pc, sres := BitVec.ofNat 4 k } := by
    have hut : (c.closeIssue true).a.ut = false := h
    refine if_neg ?_
    rw [hut, Bool.and_false]
    exact Bool.false_ne_true
  rw [Core.trapped, hregs]
  exact ⟨_, _, _, rfl⟩

theorem supervisorTrapSuspends : Claims.SupervisorTrapSuspends := by
  intro k x s hut hm hk t
  obtain ⟨w, p, i, hcore⟩ := trapped_page hut k x s.core.a.pc
  have ht : t = (s.trapped k .page x).caught k .page x s.core.a.pc :=
    fault_eq (fun h => absurd h (by decide)) (fun h => absurd h (by decide)) k x
  have hs : s.trapped k .page x = { s with core := s.core.trapped k .page x s.core.a.pc } := rfl
  have hmerge : ({ s with core := s.core.trapped k .page x s.core.a.pc } : State).core.a.merging = none := by
    rw [hcore]
    exact hm
  have hcaught : t = ({ s with core := s.core.trapped k .page x s.core.a.pc } : State).modA (fun a => { a with
      reentry := some k, words := if k = 0 then [] else a.words, block := some (.suspend (.page x)), back := none }) := by
    rw [ht, hs]
    refine if_neg ?_
    rw [hmerge]
    exact Bool.false_ne_true
  rw [hcaught, hcore]
  exact ⟨rfl, trapCauseWords .page false, rfl, rfl, rfl, rfl, rfl, rfl, rfl, rfl, rfl, rfl⟩

/-! ### The end of a launch (R269, R332) -/

theorem writeRecord_launches (c : Completion) (s : State) : (s.writeRecord c).launches = s.launches := by
  unfold State.writeRecord
  split
  · rfl
  · simp only [State.onStream, State.writePhys]

theorem completeLaunch_launches (l : Launch) (status cause : Nat) (ftcb tpc tval : Word) (pc : Nat) (s : State) :
    (s.completeLaunch l status cause ftcb tpc tval pc).launches = s.launches.filter (fun x => x.num ≠ l.num) := by
  unfold State.completeLaunch
  dsimp only
  split
  · rfl
  · exact writeRecord_launches ..

/-- A launch that ends leaves no task and no launch of its number. -/
def State.launchGone (s : State) (n : Nat) : Prop := (∀ y ∈ s.tasks, y.launch ≠ n) ∧ (∀ y ∈ s.launches, y.num ≠ n)

/-- The end of a launch takes its tasks away, wakes those that wait for them, and writes its record. -/
theorem endLaunch_eq {s : State} {n : Nat} {l : Launch} (h : s.launch? n = some l) (status cause code : Nat) (ftcb tpc tval : Word)
    (pc : Nat) : ∃ (v : State) (ds : List Decrement) (rs : List ResourceReq), v.ledger = s.ledger ∧
      s.endLaunch n status cause code ftcb tpc tval pc =
        ((s.tasks.filter (fun (t : Task) => t.launch = n)).foldl (fun (s : State) (t : Task) => s.childEnded t.ctx t.tcb)
          { v with tasks := v.tasks.filter (fun t => t.launch ≠ n), decs := ds, resources := rs }).completeLaunch l status cause ftcb tpc
            tval pc := by
  unfold State.endLaunch
  rw [h]
  refine ⟨_, _, _, ?_, rfl⟩
  rw [dropQueued_ledger, clearImages_ledger, clearCores_ledger, foldl_ledger (fun _ _ => landOut_ledger ..)]
  refine foldl_ledger (fun u x => ?_) _ s
  rw [apply_ite State.ledger, setStatus_ledger, setStatus_ledger, ite_self, setTask_ledger]
  split
  · exact leaveGangs_ledger ..
  · rfl

/-- The ledger of a machine whose launch has ended: the tasks of the launch are gone, whatever it was. -/
theorem endLaunch_ledger {s : State} {n : Nat} {l : Launch} (h : s.launch? n = some l) (status cause code : Nat) (ftcb tpc tval : Word)
    (pc : Nat) : ∃ v : State, v.ledger = s.ledger ∧
      (s.endLaunch n status cause code ftcb tpc tval pc).ledger = ({ v with tasks := v.tasks.filter (fun t => t.launch ≠ n) } : State).ledger := by
  obtain ⟨v, ds, rs, hv, e⟩ := endLaunch_eq h status cause code ftcb tpc tval pc
  refine ⟨v, hv, ?_⟩
  rw [e, completeLaunch_ledger, foldl_ledger (fun _ _ => childEnded_ledger ..)]
  rfl

theorem endLaunch_gone {s : State} {n : Nat} {l : Launch} (h : s.launch? n = some l) (status cause code : Nat) (ftcb tpc tval : Word)
    (pc : Nat) : (s.endLaunch n status cause code ftcb tpc tval pc).launchGone n := by
  have hnum : l.num = n := of_decide_eq_true (List.find?_some (p := fun x : Launch => decide (x.num = n)) h)
  refine ⟨?_, ?_⟩
  · obtain ⟨v, -, e⟩ := endLaunch_ledger h status cause code ftcb tpc tval pc
    refine forall_tasks_of_ledger (P := fun y => y.launch ≠ n) (fun _ => Iff.rfl) e ?_
    intro y hy
    exact of_decide_eq_true (List.mem_filter.1 hy).2
  · obtain ⟨v, ds, rs, -, e⟩ := endLaunch_eq h status cause code ftcb tpc tval pc
    rw [e, completeLaunch_launches, hnum]
    intro y hy
    exact of_decide_eq_true (List.mem_filter.1 hy).2

theorem faultLaunch_gone {s : State} {t : Task} {l : Launch} (ht : s.task? s.core.a.ctx s.core.a.tcb = some t)
    (hl : s.launch? t.launch = some l) (status : Nat) (e : Cause) (tpc tval : Word) : (s.faultLaunch status e tpc tval).launchGone t.launch := by
  have hend : s.faultLaunch status e tpc tval = s.endLaunch t.launch status e.code 2 t.tcb tpc tval (pcore s.core.id) := by
    unfold State.faultLaunch
    dsimp only
    rw [ht]
  rw [hend]
  exact endLaunch_gone hl ..

/-- A trap's own writes leave the task, the merge routine and the trap vector of the core as they were. -/
theorem trapped_kept (k : Nat) (e : Cause) (x : Word) (s : State) :
    (s.trapped k e x).core.a.ctx = s.core.a.ctx ∧ (s.trapped k e x).core.a.tcb = s.core.a.tcb ∧
      (s.trapped k e x).core.a.merging = s.core.a.merging ∧ (s.trapped k e x).core.a.utvec = s.core.a.utvec ∧
      (s.trapped k e x).core.id = s.core.id := by
  have hregs : ∀ (a : Arch) (pc : Word), (a.trapRegs e x false k pc).ctx = a.ctx ∧ (a.trapRegs e x false k pc).tcb = a.tcb ∧
      (a.trapRegs e x false k pc).merging = a.merging ∧ (a.trapRegs e x false k pc).utvec = a.utvec := by
    intro a pc
    unfold Arch.trapRegs
    split <;> exact ⟨rfl, rfl, rfl, rfl⟩
  obtain ⟨hctx, htcb, hm, hv⟩ := hregs (s.core.closeIssue true).a s.core.a.pc
  exact ⟨hctx, htcb, hm, hv, rfl⟩

theorem trapped_task? (k : Nat) (e : Cause) (x : Word) (s : State) :
    (s.trapped k e x).task? (s.trapped k e x).core.a.ctx (s.trapped k e x).core.a.tcb = s.task? s.core.a.ctx s.core.a.tcb := by
  obtain ⟨hctx, htcb, -⟩ := trapped_kept k e x s
  rw [hctx, htcb]
  rfl

theorem softwareFaultEndsLaunch : Claims.SoftwareFaultEndsLaunch := by
  intro k e x s t l hcase ht hl
  have gone : ∀ (e' : Cause) (y : Word) (status : Nat), ((s.trapped k e' y).faultLaunch status e' s.core.a.pc y).launchGone t.launch :=
    fun e' y status => faultLaunch_gone ((trapped_task? k e' y s).trans ht) hl status e' s.core.a.pc y
  rcases hcase with h2 | ⟨h1, hm, hpool⟩ | ⟨h0, hlease, hwhy⟩
  · have hcaught : s.fault k e x = (s.trapped k e x).faultLaunch 1 e s.core.a.pc x := by
      rw [fault_eq (fun h => by rw [h] at h2; exact absurd h2 (by decide)) (fun h => absurd (h.symm.trans h2) (by decide)), State.caught, h2]
      rfl
    rw [hcaught]
    exact gone e x 1
  · obtain ⟨hctx, -, hmerge, -⟩ := trapped_kept k e x s
    have hcaught : s.fault k e x = (s.trapped k e x).faultLaunch 1 e s.core.a.pc x := by
      rw [fault_eq (fun h => by rw [h] at h1; exact absurd h1 (by decide)) (fun h => absurd (h.symm.trans h1) (by decide)), State.caught, h1]
      refine if_pos ?_
      rw [hmerge, hm, hctx]
      change (true && !(decide (e = .page) && s.inViewPool s.core.a.ctx x.toNat)) = true
      rw [hpool, Bool.and_false]
      rfl
    rw [hcaught]
    exact gone e x 1
  · cases hut : s.core.a.ut with
    | true =>
      rw [fault_nested h0 hlease hut]
      exact gone .illegalOp _ 1
    | false =>
      obtain ⟨-, -, hmerge, hvec, -⟩ := trapped_kept k e x s
      have hcaught : s.fault k e x = (s.trapped k e x).faultLaunch 1 e s.core.a.pc x := by
        rw [fault_eq (fun h => absurd h hlease) (fun _ => hut), State.caught, h0]
        refine if_pos ?_
        rw [hmerge, hvec, decide_eq_true hlease, Bool.and_true, Bool.or_eq_true, decide_eq_true_iff]
        rw [hut] at hwhy
        exact hwhy.resolve_left Bool.false_ne_true
      rw [hcaught]
      exact gone e x 1

/-! ### A hardware error restarts the task (R268, R325) -/

/-- A task's record as its restart on another core leaves it. -/
def Task.restarted (me : Nat) (t : Task) : Task :=
  { t with restarts := t.restarts + 1, nspawn := 0, npend := 0, blocks := [], fixed := false, saved := none, pinned := none, wait := none,
           excluded := me :: t.excluded }

/-- The tasks that a restart cancels: those that descend from the task. -/
def State.subtree (s : State) (t : Task) : List Task :=
  s.tasks.filter (fun x => x.ctx = t.ctx && s.descends t.ctx t.tcb s.tasks.length x.tcb)

/-- A restart takes the task's descendants away, drops the task from its core, counts the restart and queues the task again. -/
theorem hardwareError_eq {s : State} {t : Task} (ht : s.task? s.core.a.ctx s.core.a.tcb = some t) (hr : t.r = true) (hn : t.restarts < 3)
    (hm : s.core.a.merging = none) (e : Cause) (tpc tval : Word) :
    ∃ (v : State) (ds : List Decrement) (rs : List ResourceReq) (ls : List Launch) (q : QueueRef) (n : Nat),
      v.ledger = s.ledger ∧ s.hardwareError e tpc tval =
        (({ ((((s.subtree t).foldl (fun (s : State) (x : Task) => s.childEnded x.ctx x.tcb)
            { v with tasks := v.tasks.filter (fun x => !(s.subtree t).any (fun y => y.ctx = x.ctx && y.tcb = x.tcb)),
                     decs := ds, resources := rs }).dropTask).onTask t.ctx t.tcb (Task.restarted s.core.id)) with launches := ls } :
            State).enqueue q t.ctx t.tcb).leaveInline t.tcb n := by
  unfold State.hardwareError
  dsimp only
  rw [ht]
  dsimp only
  have hgo : ¬(!t.r || decide (3 ≤ t.restarts) || s.core.a.merging.isSome) = true := by
    rw [hr, hm, decide_eq_false (Nat.not_le.2 hn)]
    exact Bool.false_ne_true
  rw [if_neg hgo]
  refine ⟨_, _, _, _, _, _, ?_, rfl⟩
  rw [dropQueued_ledger, clearImages_ledger, clearCores_ledger]
  refine foldl_ledger (fun u x => ?_) _ s
  rw [setStatus_ledger, setTask_ledger]
  split
  · exact leaveGangs_ledger ..
  · rfl

theorem restart_queued {s : State} {t : Task} (ht : s.task? s.core.a.ctx s.core.a.tcb = some t) (hr : t.r = true) (hn : t.restarts < 3)
    (hm : s.core.a.merging = none) (hroot : s.descends t.ctx t.tcb s.tasks.length t.tcb = false) (e : Cause) (tpc tval : Word) :
    ∃ y ∈ (s.hardwareError e tpc tval).tasks, y.ctx = t.ctx ∧ y.tcb = t.tcb ∧ y.restarts = t.restarts + 1 ∧ y.nspawn = 0 ∧ y.npend = 0 ∧
      s.core.id ∈ y.excluded := by
  obtain ⟨v, ds, rs, ls, q, n, hv, e'⟩ := hardwareError_eq ht hr hn hm e tpc tval
  have hmem : t ∈ s.tasks := List.mem_of_find?_eq_some ht
  have hsub : (s.subtree t).any (fun y => y.ctx = t.ctx && y.tcb = t.tcb) = false := by
    rw [List.any_eq_false]
    intro y hy
    obtain ⟨-, hdesc⟩ := List.mem_filter.1 hy
    rw [Bool.and_eq_true] at hdesc ⊢
    rintro ⟨-, htcb⟩
    rw [of_decide_eq_true htcb, hroot] at hdesc
    exact Bool.false_ne_true hdesc.2
  obtain ⟨z, hz, hzctx, hztcb, hzr⟩ := exists_task_of_ledger (P := fun y => y.ctx = t.ctx ∧ y.tcb = t.tcb ∧ y.restarts = t.restarts)
    (fun _ => Iff.rfl) hv ⟨t, hmem, rfl, rfl, rfl⟩
  have hkept : z ∈ v.tasks.filter (fun x => !(s.subtree t).any (fun y => y.ctx = x.ctx && y.tcb = x.tcb)) := by
    rw [List.mem_filter, hzctx, hztcb, hsub]
    exact ⟨hz, rfl⟩
  obtain ⟨w, hw, hwctx, hwtcb, hwr⟩ := exists_task_of_ledger
    (t := ((s.subtree t).foldl (fun (s : State) (x : Task) => s.childEnded x.ctx x.tcb)
      { v with tasks := v.tasks.filter (fun x => !(s.subtree t).any (fun y => y.ctx = x.ctx && y.tcb = x.tcb)), decs := ds,
               resources := rs }).dropTask)
    (P := fun y => y.ctx = t.ctx ∧ y.tcb = t.tcb ∧ y.restarts = t.restarts) (fun _ => Iff.rfl)
    ((dropTask_ledger _).trans (foldl_ledger (fun _ _ => childEnded_ledger ..) _ _)) ⟨z, hkept, hzctx, hztcb, hzr⟩
  rw [e']
  refine exists_task_of_ledger (P := fun y => y.ctx = t.ctx ∧ y.tcb = t.tcb ∧ y.restarts = t.restarts + 1 ∧ y.nspawn = 0 ∧ y.npend = 0 ∧
    s.core.id ∈ y.excluded) (fun _ => Iff.rfl) ((leaveInline_ledger ..).trans (enqueue_ledger ..)) ⟨w.restarted s.core.id, ?_, ?_⟩
  · refine List.mem_map.2 ⟨w, hw, if_pos ?_⟩
    rw [hwctx, hwtcb, decide_eq_true rfl, decide_eq_true rfl]
    rfl
  · exact ⟨hwctx, hwtcb, congrArg (· + 1) hwr, rfl, rfl, List.mem_cons_self ..⟩

/-- Who descends from whom is a matter of the tasks alone. -/
theorem descends_of_tasks {s u : State} (h : u.tasks = s.tasks) (ctx : Nat) (anc : Word) (n : Nat) (x : Word) :
    u.descends ctx anc n x = s.descends ctx anc n x := by
  induction n generalizing x with
  | zero => rfl
  | succ n ih =>
    unfold State.descends State.task?
    rw [h]
    split
    · rfl
    · rw [ih]

theorem hardwareErrorRestarts : Claims.HardwareErrorRestarts := by
  intro k e x s t h3 ht hr hn hm hroot
  obtain ⟨-, -, hmerge, -, hid⟩ := trapped_kept k e x s
  have hcaught : s.fault k e x = (s.trapped k e x).hardwareError e s.core.a.pc x := by
    rw [fault_eq (fun h => by rw [h] at h3; exact absurd h3 (by decide)) (fun h => absurd (h.symm.trans h3) (by decide)), State.caught, h3]
    rfl
  rw [hcaught, ← hid]
  exact restart_queued ((trapped_task? k e x s).trans ht) hr hn (hmerge.trans hm) ((descends_of_tasks (s := s) (u := s.trapped k e x) rfl ..).trans hroot) e s.core.a.pc x

/-- Settles O30: a trap's class says what becomes of the task; no later operation of a launch's end or of a restart brings a task of the
launch back or changes the record that a restart leaves. -/
theorem faultsThatLeaveTheTask : Obligations.FaultsThatLeaveTheTask :=
  ⟨supervisorTrapSuspends, softwareFaultEndsLaunch, hardwareErrorRestarts⟩

end Sys2Proof.Machine
end

section
/-!
LEMMAS. Resets, the time base, the end of bring-up, and the reset of a function (spec/01 R15, R29 to R31, spec/10 R215, spec/16 R326);
ports and segments between bundles (spec/07 R145, R152).
-/
open Sys2Proof

namespace Sys2Proof.Machine

/-! ### Resets of the device (R29, R31, R215, R326) -/

theorem cellGet_filter {α : Type} (d : α) (p : Nat → Bool) (m : List (Nat × α)) (a : Nat) :
    cellGet d (m.filter (fun c => p c.1)) a = if p a then cellGet d m a else d := by
  induction m with
  | nil => exact (ite_self _).symm
  | cons c rest ih =>
    obtain ⟨k, x⟩ := c
    rw [List.filter_cons]
    by_cases hk : k = a
    · subst hk
      cases hp : p k with
      | true => rw [if_pos rfl, if_pos rfl, cellGet, cellGet, if_pos rfl, if_pos rfl]
      | false => rw [if_neg Bool.false_ne_true, if_neg Bool.false_ne_true, ih, hp, if_neg Bool.false_ne_true]
    · rw [cellGet, if_neg hk, ← ih]
      split
      · rw [cellGet, if_neg hk]
      · rfl

/-- A cluster without some cores keeps none of them, but for its spare. -/
theorem mem_without {c : Cluster} {gone : List Nat} {ok : Bool} {k : Nat} (h : k ∈ (c.without gone ok).enabled) :
    (k ∈ c.enabled ∧ k ∉ gone) ∨ c.spare = some k := by
  have hleft : ∀ {k}, k ∈ c.enabled.filter (fun k => !gone.contains k) → k ∈ c.enabled ∧ k ∉ gone := by
    intro k hk
    obtain ⟨hin, hout⟩ := List.mem_filter.1 hk
    rw [Bool.not_eq_true', List.contains_eq_mem, decide_eq_false_iff_not] at hout
    exact ⟨hin, hout⟩
  unfold Cluster.without at h
  cases hs : c.spare with
  | none =>
    rw [hs] at h
    exact .inl (hleft h)
  | some x =>
    rw [hs] at h
    dsimp only at h
    split at h
    · obtain ⟨-, hk⟩ := List.mem_filter.1 h
      rw [Bool.or_eq_true, List.contains_eq_mem, decide_eq_true_iff, decide_eq_true_iff] at hk
      rcases hk with hk | rfl
      · exact .inl (hleft hk)
      · exact .inr rfl
    · exact .inl (hleft h)

/-- After a reset a cluster's enabled cores are none of those that failed, but for its spare. -/
theorem mem_atReset {c : Cluster} {failed : List Nat} {ok : Bool} {k : Nat} (h : k ∈ (c.atReset failed ok).enabled) :
    k ∉ failed ∨ c.spare = some k := by
  have hgone : ∀ {gone : List Nat} {ok : Bool}, c.enabled.filter (fun k => failed.contains k) ⊆ gone → k ∈ (c.without gone ok).enabled →
      k ∉ failed ∨ c.spare = some k := by
    intro gone ok hsub hk
    rcases mem_without hk with ⟨hin, hout⟩ | hs
    · refine .inl (fun hf => hout (hsub (List.mem_filter.2 ⟨hin, ?_⟩)))
      rw [List.contains_eq_mem, decide_eq_true_iff]
      exact hf
    · exact .inr hs
  unfold Cluster.atReset at h
  dsimp only [Cluster.wear] at h
  split at h
  · exact hgone (List.Subset.refl _) h
  · next hempty =>
    have hnil : c.enabled.filter (fun k => failed.contains k) = [] := by simpa using hempty
    split at h
    · exact hgone (by rw [hnil]; exact List.nil_subset _) h
    · refine .inl (fun hf => ?_)
      have : k ∈ c.enabled.filter (fun k => failed.contains k) := List.mem_filter.2 ⟨h, by rw [List.contains_eq_mem, decide_eq_true_iff]; exact hf⟩
      rw [hnil] at this
      exact List.not_mem_nil this

theorem dropDies_clusters (s : State) (n : Fin 32) : s.dropDies.clusters[n] =
    if (s.enabledCores (n.val / 4)).length < 16 then { s.clusters[n] with enabled := [] } else s.clusters[n] := by
  refine (Vector.getElem_ofFn n.isLt).trans ?_
  by_cases h : (s.enabledCores (n.val / 4)).length < 16
  · rw [if_pos h]
    exact if_pos (decide_eq_true h)
  · rw [if_neg h]
    exact if_neg (ne_true_of_eq_false (decide_eq_false h))

/-- A cluster when dies with too few cores have been dropped: as it was, or without cores. -/
theorem dropDies_enabled (s : State) (n : Fin 32) : (s.dropDies.clusters[n]).enabled ⊆ (s.clusters[n]).enabled := by
  rw [dropDies_clusters]
  by_cases h : (s.enabledCores (n.val / 4)).length < 16
  · rw [if_pos h]
    exact List.nil_subset _
  · rw [if_neg h]
    exact List.Subset.refl _

/-- The clusters of a machine that is reset, before dies are dropped. -/
def State.resetClusters (s : State) (mask : BitVec 32) : Vector Cluster 32 :=
  Vector.ofFn (fun n : Fin 32 => (s.clusters[n]).atReset (s.failedIn n.val) (bitOf mask n.val))

theorem resetClusters_get (s : State) (mask : BitVec 32) (n : Fin 32) :
    (s.resetClusters mask)[n] = (s.clusters[n]).atReset (s.failedIn n.val) (bitOf mask n.val) := Vector.getElem_ofFn n.isLt

/-- A machine that is reset, before dies with too few cores are dropped and its bring-up goes on. -/
def State.resetBase (s : State) (frame : BitVec 64) (mask : BitVec 32) (failed : List Nat) : State :=
  { State.reset with
    frame := frame, epoch := frame.toNat / 1000, fusedStacks := s.fusedStacks,
    selfCheck := s.fusedStacks.map (fun n => (n, !failed.contains n)),
    memStacks := ((s.fusedStacks.map (fun n => (n, !failed.contains n))).filter Prod.snd).map Prod.fst,
    clusters := s.resetClusters mask, dies := Vector.ofFn (fun d : Fin 8 => { Die.fresh with enabled := (s.dies[d]).enabled }),
    mem := s.mem.filter (fun c => 2 ^ 51 ≤ c.1), agenda := s.agenda, input := s.input, free := s.free, rot := s.rot }

theorem resetBase_clusters (frame : BitVec 64) (mask : BitVec 32) (failed : List Nat) (s : State) :
    (s.resetBase frame mask failed).clusters = s.resetClusters mask := by
  rw [State.resetBase]

theorem restart_eq (frame : BitVec 64) (mask : BitVec 32) (failed : List Nat) (s : State) : s.restart frame mask failed =
    { (s.resetBase frame mask failed).dropDies with
      boot := if (s.resetBase frame mask failed).dropDies.legal then .awaiting else .packageFault } := rfl

theorem restart_clusters (frame : BitVec 64) (mask : BitVec 32) (failed : List Nat) (s : State) :
    (s.restart frame mask failed).clusters = (s.resetBase frame mask failed).dropDies.clusters := by
  rw [restart_eq]

theorem restart_restartedAs (frame : BitVec 64) (mask : BitVec 32) (failed : List Nat) (s : State) :
    (s.restart frame mask failed).frame = frame ∧ s.restartedAs failed (s.restart frame mask failed) := by
  refine ⟨rfl, rfl, rfl, rfl, rfl, rfl, rfl, rfl, rfl, rfl, rfl, rfl, rfl, rfl, rfl, rfl, fun n => ?_, fun a => ?_, fun n k hk => ?_⟩
  · change n ∈ ((s.fusedStacks.map (fun n => (n, !failed.contains n))).filter Prod.snd).map Prod.fst ↔ _
    simp
  · exact (cellGet_filter 0 (fun a => decide (2 ^ 51 ≤ a)) s.mem a).trans (by simp)
  · rw [restart_clusters] at hk
    have hreset := dropDies_enabled (s.resetBase frame mask failed) n hk
    rw [resetBase_clusters, resetClusters_get] at hreset
    exact mem_atReset hreset

/-! ### The time base and the end of bring-up (R15, R29 to R31) -/

theorem exec_timeBaseTick {s : State} (h : s.timeBase = true) : ∃ t, exec .timeBaseTick s = .next t ∧ t.frame = s.frame + 1 ∧
    t.core = { s.core with watch := if s.core.busy then s.core.watch + 1 else s.core.watch } ∧
    t = { s with frame := t.frame, core := t.core, others := t.others } := by
  have e : exec .timeBaseTick s = .next { s with
      frame := s.frame + 1, core := if s.core.busy then { s.core with watch := s.core.watch + 1 } else s.core,
      others := s.others.map (fun c => (c.1, if c.2.busy then { c.2 with watch := c.2.watch + 1 } else c.2)) } := by
    change execTimeBaseTick s = _
    rw [execTimeBaseTick, h]
    rfl
  refine ⟨_, e, rfl, ?_, rfl⟩
  cases hb : s.core.busy <;> simp

/-- The home memory-side die of a compute die, by which of its two stacks are populated. -/
theorem homeMd_iff (s : State) (d m : Nat) : m = s.homeMd d ↔ ((2 * d ∈ s.memStacks ∧ m = 2 * d) ∨
    (2 * d ∉ s.memStacks ∧ 2 * d + 1 ∈ s.memStacks ∧ m = 2 * d + 1) ∨
    (2 * d ∉ s.memStacks ∧ 2 * d + 1 ∉ s.memStacks ∧ m = s.homeMd d)) := by
  by_cases h0 : 2 * d ∈ s.memStacks
  · have e : s.homeMd d = 2 * d := by simp [State.homeMd, h0]
    simp [h0, e]
  · by_cases h1 : 2 * d + 1 ∈ s.memStacks
    · have e : s.homeMd d = 2 * d + 1 := by simp [State.homeMd, h0, h1]
      simp [h0, h1, e]
    · simp [h0, h1]

theorem exec_firmwareInit {s : State} (hboot : s.boot = .running) (hready : s.ready = false) : ∃ t, exec .firmwareInit s = .next t ∧
    t = { s with ready := true, homes := t.homes } ∧
    ∀ d m, (d, m) ∈ t.homes ↔ d < 8 ∧ (s.die d).enabled = true ∧
      ((2 * d ∈ s.memStacks ∧ m = 2 * d) ∨ (2 * d ∉ s.memStacks ∧ 2 * d + 1 ∈ s.memStacks ∧ m = 2 * d + 1) ∨
        (2 * d ∉ s.memStacks ∧ 2 * d + 1 ∉ s.memStacks ∧ m = s.homeMd d)) := by
  have e : exec .firmwareInit s = .next { s with ready := true, homes := s.enabledDies.map (fun d => (d, s.homeMd d)) } := by
    change execFirmwareInit s = _
    rw [execFirmwareInit, hboot, hready]
    rfl
  refine ⟨_, e, rfl, fun d m => ?_⟩
  rw [← homeMd_iff]
  change (d, m) ∈ s.enabledDies.map (fun d => (d, s.homeMd d)) ↔ _
  simp only [State.enabledDies, List.mem_map, List.mem_filter, List.mem_range, Prod.mk.injEq, and_assoc]
  constructor
  · rintro ⟨x, hx, hen, rfl, rfl⟩
    exact ⟨hx, hen, rfl⟩
  · rintro ⟨hd, hen, rfl⟩
    exact ⟨d, hd, hen, rfl, rfl⟩

/-! ### A function's reset destroys its contexts (R326) -/

@[simp] theorem respondTo_ledger (fn seq code : Nat) (s : State) : (s.respondTo fn seq code).ledger = s.ledger := rfl

@[simp] theorem answer_ledger (u : Update) (code : Nat) (s : State) : (s.answer u code).ledger = s.ledger := by
  unfold State.answer
  split <;> rfl

@[simp] theorem startUpdates_ledger (us : List Update) (s : State) : (s.startUpdates us).ledger = s.ledger := by
  induction us generalizing s with
  | nil => rfl
  | cons u rest ih =>
    have happly : (s.applyUpdate u).ledger = s.ledger := onCtx_ledger (by exact fun _ => rfl) u.ctx s
    unfold State.startUpdates
    dsimp only
    split
    · rfl
    · split
      · split
        · rw [ih, answer_ledger, happly]
        · exact happly
      · rw [ih, answer_ledger]

@[simp] theorem flushTlbs_ledger (d : Nat) (gone : TlbEntry → Bool) (s : State) : (s.flushTlbs d gone).ledger = s.ledger := by
  simp [State.flushTlbs, apply_ite State.ledger]

@[simp] theorem unload_ledger (ctx : Nat) (s : State) : (s.unload ctx).ledger = s.ledger := by
  simp [State.unload]

/-- No task, context or stream of a machine is new. -/
def State.within (s t : State) : Prop :=
  t.tasks.map Task.card ⊆ s.tasks.map Task.card ∧ t.ctxs.map Context.ident ⊆ s.ctxs.map Context.ident ∧
    t.streams.map Stream.ident ⊆ s.streams.map Stream.ident

theorem within_trans {s t u : State} (h : s.within t) (k : t.within u) : s.within u := by
  obtain ⟨h1, h2, h3⟩ := h
  obtain ⟨k1, k2, k3⟩ := k
  exact ⟨List.Subset.trans k1 h1, List.Subset.trans k2 h2, List.Subset.trans k3 h3⟩

theorem within_of_ledger {s t : State} (h : t.ledger = s.ledger) : s.within t := by
  obtain ⟨h1, h2, h3⟩ := ledger_parts h
  exact ⟨h1 ▸ List.Subset.refl _, h2 ▸ List.Subset.refl _, h3 ▸ List.Subset.refl _⟩

theorem within_filter (s : State) (p : Task → Bool) (q : Context → Bool) (r : Stream → Bool) :
    s.within { s with tasks := s.tasks.filter p, ctxs := s.ctxs.filter q, streams := s.streams.filter r } :=
  ⟨List.map_subset _ List.filter_sublist.subset, List.map_subset _ List.filter_sublist.subset, List.map_subset _ List.filter_sublist.subset⟩

theorem endLaunch_within (n status cause code : Nat) (ftcb tpc tval : Word) (pc : Nat) (s : State) :
    s.within (s.endLaunch n status cause code ftcb tpc tval pc) := by
  cases h : s.launch? n with
  | none =>
    have e : s.endLaunch n status cause code ftcb tpc tval pc = s := by
      unfold State.endLaunch
      rw [h]
    rw [e]
    exact within_of_ledger rfl
  | some l =>
    obtain ⟨v, hv, e⟩ := endLaunch_ledger h status cause code ftcb tpc tval pc
    refine within_trans (within_trans (within_of_ledger hv) ?_) (within_of_ledger e)
    exact ⟨List.map_subset _ List.filter_sublist.subset, List.Subset.refl _, List.Subset.refl _⟩

theorem foldl_within {α : Type} {f : State → α → State} (h : ∀ (s : State) (x : α), s.within (f s x)) (l : List α) (s : State) : s.within (l.foldl f s) := by
  induction l generalizing s with
  | nil => exact within_of_ledger rfl
  | cons x l ih => exact within_trans (h s x) (ih (f s x))

/-- Nothing of a context is left. -/
def State.lacks (s : State) (n : Nat) : Prop := (∀ c ∈ s.ctxs, c.num ≠ n) ∧ (∀ x ∈ s.tasks, x.ctx ≠ n) ∧ ∀ x ∈ s.streams, x.ctx ≠ n

theorem lacks_of_within {s t : State} {n : Nat} (h : s.within t) (hs : s.lacks n) : t.lacks n := by
  obtain ⟨ht, hc, hx⟩ := h
  obtain ⟨hsc, hst, hsx⟩ := hs
  refine ⟨fun c hm => ?_, fun y hm => ?_, fun x hm => ?_⟩
  · obtain ⟨d, hd, e⟩ := List.mem_map.1 (hc (List.mem_map_of_mem hm))
    exact fun hn => hsc d hd ((congrArg Prod.fst e).trans hn)
  · obtain ⟨z, hz, e⟩ := List.mem_map.1 (ht (List.mem_map_of_mem hm))
    exact fun hn => hst z hz ((congrArg Task.ctx e).trans hn)
  · obtain ⟨z, hz, e⟩ := List.mem_map.1 (hx (List.mem_map_of_mem hm))
    exact fun hn => hsx z hz ((congrArg Prod.snd e).trans hn)

/-- What is left when the records of a context and of its streams go, once its launches have ended and no TLB or core holds anything of
it. -/
def State.purged (n : Nat) (st : List Nat) (u : State) : State :=
  { u with
    ctxs := u.ctxs.filter (fun c => c.num ≠ n), streams := u.streams.filter (fun x => x.ctx ≠ n),
    tasks := u.tasks.filter (fun t => t.ctx ≠ n), gangs := u.gangs.filter (fun g => g.ctx ≠ n),
    decs := u.decs.filter (fun d => d.ctx ≠ n), updates := u.updates.filter (fun u => u.ctx ≠ n),
    resources := u.resources.filter (fun r => r.ctx ≠ n),
    captures := u.captures.filter (fun c => !st.contains c.stream),
    bitmap := u.bitmap.filter (fun k => !st.contains k),
    wearPages := u.wearPages.filter (fun w => w.ctx ≠ n),
    dies := u.dies.map (fun (d : Die) => { d with walks := d.walks.filter (fun w => w.ctx ≠ n) }) }

theorem purged_within_lacks (n : Nat) (st : List Nat) (u : State) : u.within (u.purged n st) ∧ (u.purged n st).lacks n := by
  refine ⟨within_filter u (fun t => t.ctx ≠ n) (fun c => c.num ≠ n) (fun x => x.ctx ≠ n), fun c hc => ?_, fun x hx => ?_, fun x hx => ?_⟩
  · exact of_decide_eq_true (List.mem_filter.1 hc).2
  · exact of_decide_eq_true (List.mem_filter.1 hx).2
  · exact of_decide_eq_true (List.mem_filter.1 hx).2

/-- The end of every launch of a context. -/
def State.launchesEnded (n : Nat) (s : State) : State :=
  ((s.launches.filter (fun l => l.ctx = n)).map (fun l => l.num)).foldl (fun s n => s.endLaunch n 6 0 1 0 0 0 0) s

/-- The machine once no TLB and no core holds anything of a context whose launches have ended. -/
def State.vacated (n : Nat) (s : State) : State :=
  (List.range 8).foldl (fun s d => s.flushTlbs d (fun t => t.ctx = n)) ((s.launchesEnded n).unload n)

theorem vacated_ledger (n : Nat) (s : State) : (s.vacated n).ledger = (s.launchesEnded n).ledger :=
  (foldl_ledger (fun _ _ => flushTlbs_ledger ..) _ _).trans (unload_ledger ..)

/-- The streams of a context, once its launches have ended. -/
def State.streamsOf (n : Nat) (s : State) : List Nat := ((s.launchesEnded n).streams.filter (fun x => x.ctx = n)).map (fun x => x.num)

theorem destroy_eq (n : Nat) (s : State) : s.destroy n =
    if ((s.vacated n).updates.filter (fun u => u.ctx ≠ n)).any (fun u => !u.waiting.isEmpty) then (s.vacated n).purged n (s.streamsOf n)
    else ((s.vacated n).purged n (s.streamsOf n)).startUpdates ((s.vacated n).updates.filter (fun u => u.ctx ≠ n)) := rfl

theorem destroy_ledger (n : Nat) (s : State) : (s.destroy n).ledger = ((s.vacated n).purged n (s.streamsOf n)).ledger := by
  rw [destroy_eq, apply_ite State.ledger, startUpdates_ledger, ite_self]

/-- Destroying a context brings nothing new and leaves nothing of it. -/
theorem destroy_within_lacks (n : Nat) (s : State) : s.within (s.destroy n) ∧ (s.destroy n).lacks n := by
  have e := destroy_ledger n s
  obtain ⟨hw, hl⟩ := purged_within_lacks n (s.streamsOf n) (s.vacated n)
  have hend : s.within (s.launchesEnded n) := foldl_within (fun _ _ => endLaunch_within ..) _ s
  exact ⟨within_trans hend (within_trans (within_of_ledger (vacated_ledger n s)) (within_trans hw (within_of_ledger e))),
    lacks_of_within (within_of_ledger e) hl⟩

theorem destroyAll_lacks (ns : List Nat) (s : State) :
    s.within (ns.foldl (fun s n => s.destroy n) s) ∧ ∀ n ∈ ns, (ns.foldl (fun s n => s.destroy n) s).lacks n := by
  induction ns generalizing s with
  | nil => exact ⟨within_of_ledger rfl, fun n hn => absurd hn List.not_mem_nil⟩
  | cons m ns ih =>
    obtain ⟨hw, hl⟩ := destroy_within_lacks m s
    obtain ⟨hws, hls⟩ := ih (s.destroy m)
    rw [List.foldl_cons]
    refine ⟨within_trans hw hws, fun n hn => ?_⟩
    rcases List.mem_cons.1 hn with rfl | hn
    · exact lacks_of_within hws hl
    · exact hls n hn

theorem functionLevelReset_lacks {s : State} (h : s.input.fn ≠ 0) : ∃ t, exec .functionLevelReset s = .next t ∧
    (∀ c ∈ t.ctxs, c.owner ≠ s.input.fn) ∧
    ∀ c ∈ s.ctxs, c.owner = s.input.fn → (∀ x ∈ t.tasks, x.ctx ≠ c.num) ∧ (∀ x ∈ t.streams, x.ctx ≠ c.num) := by
  have e : exec .functionLevelReset s = .next (((s.ctxs.filter (fun c => c.owner = s.input.fn)).map (fun c => c.num)).foldl
      (fun s n => s.destroy n) s) := by
    change execFunctionLevelReset s = _
    unfold execFunctionLevelReset
    exact congrArg Host.Outcome.next (if_neg h)
  obtain ⟨⟨-, hctxs, -⟩, hlacks⟩ := destroyAll_lacks ((s.ctxs.filter (fun c => c.owner = s.input.fn)).map (fun c => c.num)) s
  have named : ∀ c ∈ s.ctxs, c.owner = s.input.fn → c.num ∈ (s.ctxs.filter (fun c => c.owner = s.input.fn)).map (fun c => c.num) :=
    fun c hc ho => List.mem_map_of_mem (f := fun c => c.num) (List.mem_filter.2 ⟨hc, decide_eq_true ho⟩)
  refine ⟨_, e, fun c hc ho => ?_, fun c hc ho => ?_⟩
  · obtain ⟨d, hd, hid⟩ := List.mem_map.1 (hctxs (List.mem_map_of_mem (f := Context.ident) hc))
    have hnum : d.num = c.num := congrArg Prod.fst hid
    obtain ⟨hno, -⟩ := hlacks d.num (named d hd ((congrArg Prod.snd hid).trans ho))
    exact hno c hc hnum.symm
  · obtain ⟨-, hno⟩ := hlacks c.num (named c hc ho)
    exact hno

theorem deviceAndTimeEvents : Claims.DeviceAndTimeEvents := fun s =>
  ⟨⟨_, rfl, restart_restartedAs ..⟩, ⟨_, rfl, restart_restartedAs ..⟩, exec_timeBaseTick, rfl, exec_firmwareInit, functionLevelReset_lacks⟩

/-! ### Ports and segments between bundles (R145, R152) -/

theorem prefetch_eq (x : PortState) : x.prefetch =
    if x.act = true ∧ x.mode = false ∧ x.aged = false then { x with age := min 8 (x.age + 1), aged := true } else x := by
  unfold PortState.prefetch
  refine if_congr ?_ rfl rfl
  rw [Bool.and_eq_true, Bool.and_eq_true, Bool.not_eq_true', Bool.not_eq_true', and_assoc]

theorem there_input (s : State) : s.there.input = s.input := by
  unfold State.there State.focus
  split <;> rfl

/-- A wake that ends with the bundle that comes next. -/
theorem exec_segmentWake {s : State} {f : Bool} {n : Nat} (h : s.input.idx < 16) (hseg : s.there.core.a.segs[s.input.idx] = .waking f n)
    (hn : n ≤ 1) (hb : s.there.core.between = true) :
    exec .segmentWake s = .next (s.there.withArch { s.there.core.a with segs := s.there.core.a.segs.set s.input.idx .on }) := by
  have hin := there_input s
  have hget : s.there.core.a.segs[s.input.idx]? = some (.waking f n) := by rw [Vector.getElem?_eq_getElem h, hseg]
  have hboth : (decide (n ≤ 1) && s.there.core.between) = true := by rw [decide_eq_true hn, hb]; rfl
  have hu : s.focus s.input.core = s.there := rfl
  change execSegmentWake s = _
  unfold execSegmentWake
  rw [hu]
  generalize s.there = u at *
  unfold State.modA
  dsimp only
  rw [hin, hget]
  dsimp only
  rw [dif_pos h, if_pos hboth]
  simp only [State.withArch, hin]

theorem portAndSegmentEvents : Claims.PortAndSegmentEvents := by
  intro s u x
  refine ⟨⟨_, rfl, rfl, fun g => ?_⟩, fun h f n hseg hn hb => ⟨_, exec_segmentWake h hseg hn hb, rfl, fun j => ?_⟩⟩
  · change (u.core.a.ports.set s.input.port x.prefetch)[g] = _
    by_cases hg : g = s.input.port
    · subst hg
      refine (Vector.getElem_set_self ..).trans ((prefetch_eq x).trans (if_congr ?_ rfl rfl))
      exact (and_iff_right rfl).symm
    · rw [if_neg (fun k => hg k.1)]
      exact Vector.getElem_set_ne _ _ (fun k => hg (Fin.ext k.symm))
  · change (u.core.a.segs.set s.input.idx .on)[j] = _
    exact (Vector.getElem_set ..).trans (if_congr eq_comm rfl rfl)

/-- Settles O31: each event's effect, and for a function's reset that the end of a launch brings no context, task or stream. -/
theorem deviceTimeAndPortEvents : Obligations.DeviceTimeAndPortEvents := ⟨deviceAndTimeEvents, portAndSegmentEvents⟩

end Sys2Proof.Machine
end

section
/-!
LEMMAS. Verdicts of the checkers (spec/04 R96, spec/08 R176 to R178), faults found after issue, MWAITs and the hang watchdog (spec/05
R109, spec/09 R199, spec/15 R309, R319).
-/
open Sys2Proof

namespace Sys2Proof.Machine

/-! ### How a check fails (R96, R176, R177) -/

theorem shadowFails_iff (x y : Nat) :
    shadowFails x y = true ↔ (x / 256 ≠ y / 256 ∨ x % 256 + 1 < y % 256 ∨ y % 256 + 1 < x % 256) := by
  rw [shadowFails, Bool.or_eq_true, bne_iff_ne, decide_eq_true_iff]
  exact Iff.rfl

/-- Whether what the shadow computed is too far from some result of a check. -/
theorem shadowDiffers_iff (pairs : List (Nat × Nat)) (n : Nat) (k : Check) :
    pairs.any (fun p => p.1 / 256 = n && (match k.elems[p.1 % 256]? with
      | some x => shadowFails x p.2
      | none => false)) = true ↔
    ∃ e x y, e < 256 ∧ (256 * n + e, y) ∈ pairs ∧ k.elems[e]? = some x ∧
      (x / 256 ≠ y / 256 ∨ x % 256 + 1 < y % 256 ∨ y % 256 + 1 < x % 256) := by
  rw [List.any_eq_true]
  constructor
  · rintro ⟨⟨i, y⟩, hp, hf⟩
    obtain ⟨hn, hf⟩ := Bool.and_eq_true_iff.1 hf
    have hn := of_decide_eq_true hn
    cases hx : k.elems[i % 256]? with
    | none =>
      rw [hx] at hf
      exact absurd hf Bool.false_ne_true
    | some x =>
      rw [hx] at hf
      refine ⟨i % 256, x, y, Nat.mod_lt _ (by decide), ?_, hx, (shadowFails_iff x y).1 hf⟩
      have hi : 256 * n + i % 256 = i := by
        dsimp only at hn
        omega
      rw [hi]
      exact hp
  · rintro ⟨e, x, y, he, hp, hx, hf⟩
    have hdiv : (256 * n + e) / 256 = n := by omega
    have hmod : (256 * n + e) % 256 = e := by omega
    refine ⟨(256 * n + e, y), hp, ?_⟩
    dsimp only
    rw [hdiv, hmod, hx, decide_eq_true rfl, Bool.true_and]
    exact (shadowFails_iff x y).2 hf

theorem checkFailures : Claims.CheckFailures := by
  intro pairs n k
  refine ⟨fun lane h => ?_, fun h => ⟨fun hbad => ?_, fun hgood => ?_⟩⟩
  · rw [Check.failure, h]
    rfl
  · rw [Check.failure, h]
    exact if_pos ((shadowDiffers_iff pairs n k).2 hbad)
  · rw [Check.failure, h]
    exact if_neg (fun hbad => hgood ((shadowDiffers_iff pairs n k).1 hbad))

/-! ### The verdicts of the checks that are due (R176 to R178) -/

/-- The first element of a list for which a function of its place answers. -/
theorem findSome?_indexed_of_first {α β : Type} {l : List α} {f : Nat × α → Option β} {n : Nat} {x : α} {y : β} (hx : l[n]? = some x)
    (hy : f (n, x) = some y) (hno : ∀ m z, m < n → l[m]? = some z → f (m, z) = none) :
    ((List.range l.length).zip l).findSome? f = some y := by
  obtain ⟨hn, rfl⟩ := List.getElem?_eq_some_iff.1 hx
  have hlen : ((List.range l.length).zip l).length = l.length := by simp
  have hget : ∀ i (h : i < ((List.range l.length).zip l).length), ((List.range l.length).zip l)[i] = (i, l[i]'(hlen ▸ h)) := by simp
  have hn' : n < ((List.range l.length).zip l).length := hlen.symm ▸ hn
  rw [List.findSome?_eq_some_iff]
  refine ⟨((List.range l.length).zip l).take n, (n, l[n]), ((List.range l.length).zip l).drop (n + 1), ?_, hy, fun p hp => ?_⟩
  · rw [← hget n hn', ← List.drop_eq_getElem_cons hn', List.take_append_drop]
  · obtain ⟨i, hi, rfl⟩ := List.mem_take_iff_getElem.1 hp
    have hi' := Nat.lt_min.1 hi
    rw [hget i hi'.2]
    exact hno i _ hi'.1 (List.getElem?_eq_getElem (hlen ▸ hi'.2))

theorem findSome?_indexed_none {α β : Type} {l : List α} {f : Nat × α → Option β} (hno : ∀ n z, l[n]? = some z → f (n, z) = none) :
    ((List.range l.length).zip l).findSome? f = none := by
  rw [List.findSome?_eq_none_iff]
  rintro ⟨i, z⟩ hp
  obtain ⟨j, hj, e⟩ := List.getElem_of_mem hp
  rw [List.getElem_zip, List.getElem_range, Prod.mk.injEq] at e
  obtain ⟨rfl, rfl⟩ := e
  exact hno _ _ (List.getElem?_eq_getElem _)

/-- The checks of the acting core that are due. -/
def Core.dueChecks (c : Core) : List Check := c.a.checks.filter (fun k => decide (k.left ≤ 1))

theorem verdicts_none {u : State} {pairs : List (Nat × Nat)} (h : ∀ (n : Nat) (k : Check), u.core.dueChecks[n]? = some k → k.failure pairs n = none) :
    u.verdicts pairs = u.withArch { u.core.a with checks := u.core.a.checks.filter (fun k => decide (1 < k.left)) } := by
  have hnone : ((List.range u.core.dueChecks.length).zip u.core.dueChecks).findSome?
      (fun x => (x.2.failure pairs x.1).map (fun f => (x.2, f))) = none :=
    findSome?_indexed_none (fun n k hk => by rw [h n k hk]; rfl)
  change (match ((List.range u.core.dueChecks.length).zip u.core.dueChecks).findSome?
    (fun x => (x.2.failure pairs x.1).map (fun f => (x.2, f))) with
    | some (k, c, x) => u.failCheck k c x
    | none => _) = _
  rw [hnone]
  rfl

theorem verdicts_first {u : State} {pairs : List (Nat × Nat)} {n : Nat} {k : Check} {c : Cause} {x : Word}
    (hk : u.core.dueChecks[n]? = some k) (hf : k.failure pairs n = some (c, x))
    (hno : ∀ (m : Nat) (j : Check), m < n → u.core.dueChecks[m]? = some j → j.failure pairs m = none) :
    u.verdicts pairs = (u.withArch { u.core.a with checks := u.core.a.checks.filter (fun j => j ≠ k), flights := [] }).trap k.slot c x false
      k.pc := by
  have hfirst : ((List.range u.core.dueChecks.length).zip u.core.dueChecks).findSome?
      (fun x => (x.2.failure pairs x.1).map (fun f => (x.2, f))) = some (k, c, x) :=
    findSome?_indexed_of_first hk (by dsimp only; rw [hf]; rfl) (fun m j hm hj => by dsimp only; rw [hno m j hm hj]; rfl)
  change (match ((List.range u.core.dueChecks.length).zip u.core.dueChecks).findSome?
    (fun x => (x.2.failure pairs x.1).map (fun f => (x.2, f))) with
    | some (k, c, x) => u.failCheck k c x
    | none => _) = _
  rw [hfirst]
  rfl

theorem checkVerdicts : Claims.CheckVerdicts := by
  intro s u due verdict
  refine ⟨fun h => ?_, fun h => ?_⟩
  · have hexec : exec .shadowCheckVerdict s = .next (u.verdicts s.input.pairs) := congrArg Host.Outcome.next (if_pos h)
    exact ⟨fun hno => hexec.trans (congrArg Host.Outcome.next (verdicts_none hno)),
      fun n k c x hk hf hno => hexec.trans (congrArg Host.Outcome.next (verdicts_first hk hf hno))⟩
  · have hexec : exec .vchkVerdict s = .next (u.verdicts []) := congrArg Host.Outcome.next (if_pos h)
    exact ⟨fun hno => hexec.trans (congrArg Host.Outcome.next (verdicts_none hno)),
      fun n k c x hk hf hno => hexec.trans (congrArg Host.Outcome.next (verdicts_first hk hf hno))⟩

/-! ### Faults found after issue (R109, R309) -/

/-- The fault found after issue that is raised next: the first hardware error, else the oldest. -/
def Arch.nextFault (a : Arch) : Option Deferred :=
  match a.deferred.find? (fun d => d.cause.cls = 3) with
  | some d => some d
  | none => a.deferred.head?

theorem nextFault_of_split {a : Arch} {pre post : List Deferred} {d : Deferred} (h : a.deferred = pre ++ d :: post)
    (hpre : ∀ e ∈ pre, e.cause.cls ≠ 3) (hd : d.cause.cls = 3 ∨ (pre = [] ∧ ∀ e ∈ post, e.cause.cls ≠ 3)) : a.nextFault = some d := by
  have none_of : ∀ ds : List Deferred, (∀ e ∈ ds, e.cause.cls ≠ 3) → ds.find? (fun d => decide (d.cause.cls = 3)) = none :=
    fun ds hds => List.find?_eq_none.2 (fun e he => by rw [decide_eq_true_iff]; exact hds e he)
  rw [Arch.nextFault, h, List.find?_append, none_of pre hpre, Option.none_or, List.find?_cons]
  by_cases h3 : d.cause.cls = 3
  · rw [decide_eq_true h3]
  · obtain ⟨rfl, hpost⟩ := hd.resolve_left h3
    rw [decide_eq_false h3, none_of post hpost]
    rfl

theorem raiseDeferred_of_next {s : State} {d : Deferred} (h : s.core.a.nextFault = some d) :
    s.raiseDeferred = (s.modCore (fun c => ({ c with a := { c.a with deferred := c.a.deferred.erase d } } : Core).openIssue)).trap
      (s.core.a.reentry.getD 0) d.cause d.tval true s.core.a.pc := by
  unfold State.raiseDeferred
  change (match s.core.a.nextFault with
    | none => s
    | some d => _) = _
  rw [h]

theorem raiseDeferred_of_split {s : State} {pre post : List Deferred} {d : Deferred} (h : s.core.a.deferred = pre ++ d :: post)
    (hpre : ∀ e ∈ pre, e.cause.cls ≠ 3) (hd : d.cause.cls = 3 ∨ (pre = [] ∧ ∀ e ∈ post, e.cause.cls ≠ 3)) :
    s.raiseDeferred = (s.modCore (fun c => ({ c with a := { c.a with deferred := pre ++ post } } : Core).openIssue)).trap
      (s.core.a.reentry.getD 0) d.cause d.tval true s.core.a.pc := by
  have hnot : d ∉ pre := by
    intro hm
    rcases hd with h3 | ⟨rfl, -⟩
    · exact hpre d hm h3
    · exact List.not_mem_nil hm
  have herase : s.core.a.deferred.erase d = pre ++ post := by rw [h, List.erase_append_right _ hnot, List.erase_cons_head]
  rw [raiseDeferred_of_next (nextFault_of_split h hpre hd), ← herase]
  rfl

theorem dropLease_eq (a : Arch) : a.dropLease = { a with lx := if a.ut = false ∧ a.utvec = 0 then none else a.lx } := by
  unfold Arch.dropLease
  by_cases h : a.ut = false ∧ a.utvec = 0
  · rw [if_pos h, if_pos (by rw [h.1, h.2]; rfl)]
  · rw [if_neg h, if_neg]
    rw [Bool.and_eq_true, Bool.not_eq_true', decide_eq_true_iff]
    exact h

/-- The lease that a core before a bundle finds expired: one with a handler to take it. -/
theorem dropLease_lx (a : Arch) : (if a.dropLease.ut then none else a.dropLease.lx) = if a.ut = false ∧ a.utvec ≠ 0 then a.lx else none := by
  rw [dropLease_eq]
  cases hut : a.ut with
  | true => rfl
  | false =>
    by_cases hv : a.utvec = 0
    · simp [hv]
    · simp [hv]

theorem raised_hardware {s : State} (h : s.core.a.deferred.any (fun d => decide (d.cause.cls = 3)) = true) : s.raised = some s.raiseDeferred :=
  if_pos h

theorem raised_lease {s : State} {why : Nat} (h : s.core.a.deferred.any (fun d => decide (d.cause.cls = 3)) = false)
    (hlx : (if s.core.a.ut then none else s.core.a.lx) = some why) : s.raised = some (s.leaseTrap (s.core.a.reentry.getD 0) why) := by
  unfold State.raised
  dsimp only
  rw [if_neg (ne_true_of_eq_false h), hlx]

theorem raised_other {s : State} (h : s.core.a.deferred.any (fun d => decide (d.cause.cls = 3)) = false)
    (hlx : (if s.core.a.ut then none else s.core.a.lx) = none) (hne : s.core.a.deferred ≠ []) : s.raised = some s.raiseDeferred := by
  unfold State.raised
  dsimp only
  rw [if_neg (ne_true_of_eq_false h), hlx]
  exact if_neg (by rw [List.isEmpty_iff]; exact hne)

/-- A core that nothing keeps from its next bundle raises what comes before its issue. -/
theorem exec_deferredFault {s t : State} (hissue : s.there.atIssue = true) (hne : s.there.core.a.deferred ≠ [])
    (hraised : s.there.atBundle.raised = some t) : exec .deferredFault s = .next t := by
  have hif : (s.there.atIssue && !s.there.core.a.deferred.isEmpty) = true := by
    rw [hissue, List.isEmpty_eq_false_iff.2 hne]
    rfl
  change Host.Outcome.next (if s.there.atIssue && !s.there.core.a.deferred.isEmpty then s.there.atBundle.raised.getD s.there.atBundle
    else s.there) = _
  rw [if_pos hif, hraised]
  rfl

theorem atIssue_of_clear {u : State} (hbusy : u.core.busy = true) (hblock : u.core.a.block = none) (harbit : u.core.arbit = none)
    (hstall : u.core.stall = 0) (hentry : u.core.entry = 0) (hseal : u.core.sealErr = none) (hpre : u.preempting = false)
    (hhung : u.hung = false) : u.atIssue = true := by
  have hfrozen : u.core.frozen = false := by
    rw [Core.frozen, harbit, hstall]
    rfl
  rw [State.atIssue, hbusy, hblock, hfrozen, hentry, hseal, hpre, hhung]
  rfl

/-- The core before its next bundle, as the claims write it. -/
theorem atBundle_eq (u : State) : u.atBundle = (u.modCore Core.reach).withArch { (u.modCore Core.reach).core.a with
    lx := if (u.modCore Core.reach).core.a.ut = false ∧ (u.modCore Core.reach).core.a.utvec = 0 then none
      else (u.modCore Core.reach).core.a.lx } := by
  rw [State.atBundle, State.modA, dropLease_eq]
  rfl

theorem atBundle_lx (u : State) : (if u.atBundle.core.a.ut then none else u.atBundle.core.a.lx) =
    if (u.modCore Core.reach).core.a.ut = false ∧ (u.modCore Core.reach).core.a.utvec ≠ 0 then (u.modCore Core.reach).core.a.lx else none :=
  dropLease_lx _

theorem any_hardware_false {ds : List Deferred} (h : ∀ e ∈ ds, e.cause.cls ≠ 3) : ds.any (fun d => decide (d.cause.cls = 3)) = false := by
  rw [List.any_eq_false]
  intro e he
  rw [decide_eq_true_iff]
  exact h e he

/-! ### MWAITs and the hang watchdog (R199, R319) -/

theorem fills_mwaits (x : Word) (ws : List MWait) (s : State) : (ws.foldl (fun s w => s.fill w.d x) s).core.a.mwaits = s.core.a.mwaits := by
  refine foldl_preserves (fun s : State => s.core.a.mwaits) (fun s w => ?_) ws s
  change (s.core.a.fillS w.d x).mwaits = _
  unfold Arch.fillS
  split <;> rfl

theorem fills_rd (x : Word) (ws : List MWait) (s : State) (r : Reg) : (ws.foldl (fun s w => s.fill w.d x) s).core.a.rd r =
    if r ≠ 0 ∧ ∃ w ∈ ws, w.d = r then x else s.core.a.rd r := by
  induction ws generalizing s with
  | nil => simp
  | cons w ws ih =>
    rw [List.foldl_cons, ih]
    change (if r ≠ 0 ∧ ∃ w ∈ ws, w.d = r then x else (s.core.a.fillS w.d x).rd r) = _
    by_cases hr : r = 0
    · simp [hr, rd_zero]
    · by_cases hw : w.d = r
      · simp [hr, hw, rd_fillS_same]
      · simp [hr, hw, rd_fillS_other _ _ _ _ (Ne.symm hw)]

theorem fills_full (x : Word) (ws : List MWait) (s : State) (r : Reg) (h : s.core.a.sIsEmpty r = false ∨ ∃ w ∈ ws, w.d = r) :
    (ws.foldl (fun s w => s.fill w.d x) s).core.a.sIsEmpty r = false := by
  induction ws generalizing s with
  | nil => simpa using h
  | cons w ws ih =>
    refine ih (s.fill w.d x) ?_
    change (s.core.a.fillS w.d x).sIsEmpty r = false ∨ _
    by_cases hw : w.d = r
    · refine .inl ?_
      by_cases hr : r = 0
      · rw [hr]
        rfl
      · rw [hw]
        exact sIsEmpty_fillS_same s.core.a x hr
    · rw [sIsEmpty_fillS_other _ _ (Ne.symm hw)]
      refine h.imp_right ?_
      rintro ⟨v, hv, rfl⟩
      rcases List.mem_cons.1 hv with rfl | hv
      · exact absurd rfl hw
      · exact ⟨v, hv, rfl⟩

theorem fillMwaits_effect (u : State) :
    u.fillMwaits.core.a.mwaits = u.core.a.mwaits.filter (fun w => !u.core.mwaitDone w) ∧
      (∀ w ∈ u.core.a.mwaits, u.core.mwaitDone w = true → u.fillMwaits.core.a.sIsEmpty w.d = false) ∧
      ∀ r : Reg, u.fillMwaits.core.a.rd r =
        if r ≠ 0 ∧ ∃ w ∈ u.core.a.mwaits, u.core.mwaitDone w = true ∧ w.d = r then u.core.mstatFields else u.core.a.rd r := by
  refine ⟨fills_mwaits .., fun w hw hd => fills_full _ _ _ _ (.inr ⟨w, List.mem_filter.2 ⟨hw, hd⟩, rfl⟩), fun r => ?_⟩
  refine (fills_rd ..).trans ?_
  rw [← mstat_eq_fields]
  refine if_congr (and_congr_right (fun _ => ?_)) rfl rfl
  simp only [List.mem_filter, and_assoc]

theorem hung_of_watch {u : State} {c : Context} (hbusy : u.core.busy = true) (hc : u.ctx? u.core.a.ctx = some c) (hp : c.preempt = none)
    (hw : c.hang ≤ u.core.watch) : u.hung = true := by
  have hpre : u.preempting = false := by
    rw [State.preempting, hc, Option.map_some, hp, hbusy]
    rfl
  rw [State.hung, hc, hbusy, hpre, Option.map_some, Option.getD_some, decide_eq_true hw]
  rfl

theorem faultsAndWaitsAfterIssue : Claims.FaultsAndWaitsAfterIssue := by
  intro s u v a waits w
  have hw : u.atBundle = w := atBundle_eq u
  have hdeferred : w.core.a.deferred = a.deferred := rfl
  refine ⟨fun hbusy hblock harbit hstall hentry hseal hpre hhung hne => ?_, ⟨_, rfl, fillMwaits_effect u⟩, fun c hbusy hc hp hwatch => ?_⟩
  · have hissue := atIssue_of_clear hbusy hblock harbit hstall hentry hseal hpre hhung
    have hlx : (if w.core.a.ut then none else w.core.a.lx) = if a.ut = false ∧ a.utvec ≠ 0 then a.lx else none := by
      rw [← hw]
      exact atBundle_lx u
    refine ⟨fun pre d post hsplit hbefore hwhich => ?_, fun why hwhy hwaits hsoft => ?_⟩
    · have hraise := raiseDeferred_of_split (s := w) hsplit hbefore (hwhich.imp_right (fun h => h.2))
      refine (exec_deferredFault hissue hne ?_).trans (congrArg Host.Outcome.next hraise)
      change u.atBundle.raised = _
      rw [hw]
      by_cases hany : w.core.a.deferred.any (fun d => decide (d.cause.cls = 3)) = true
      · exact raised_hardware hany
      · refine raised_other (Bool.not_eq_true _ ▸ hany) ?_ (by rw [hdeferred, hsplit]; simp)
        have hsoft : d.cause.cls ≠ 3 := by
          intro h3
          refine hany (List.any_eq_true.2 ⟨d, ?_, decide_eq_true h3⟩)
          rw [hdeferred, hsplit]
          exact List.mem_append_right _ (List.mem_cons_self ..)
        obtain ⟨hnowait, -⟩ := hwhich.resolve_left hsoft
        rw [hlx]
        split
        next h =>
          cases hl : a.lx with
          | none => rfl
          | some why => exact absurd ⟨by rw [hl]; rfl, h⟩ hnowait
        next => rfl
    · refine (exec_deferredFault hissue hne ?_).trans rfl
      change u.atBundle.raised = _
      rw [hw]
      obtain ⟨-, hhandler⟩ := hwaits
      refine raised_lease (any_hardware_false hsoft) ?_
      rw [hlx, if_pos hhandler, hwhy]
  · have hhung := hung_of_watch hbusy hc hp hwatch
    exact congrArg Host.Outcome.next (if_pos hhung)

/-- Settles O32: the first check that fails, and the first of what comes before a bundle, by the place that the model gives each. -/
theorem checkerAndWatchdogEvents : Obligations.CheckerAndWatchdogEvents := ⟨checkFailures, checkVerdicts, faultsAndWaitsAfterIssue⟩

end Sys2Proof.Machine
end

section
/-!
LEMMAS. A row that leaves a drain, the verdict of a seal, and the outcome of the Keystone's test (spec/09 R194, spec/10 R202 to R216).
-/
open Sys2Proof

namespace Sys2Proof.Machine

/-! ### A row that leaves the array (R194, R202, R203) -/

/-- A tile from which row `r` of a drain has left; `differ` says that the codes of the paths differ. -/
def TileState.drained (d : DrainOp) (r : Nat) (differ : Bool) (x : TileState) : TileState :=
  if d.z then ({ (x.foldBoth r) with cd := x.cd || differ }).putRow r 0 0 else { (x.foldBoth r) with cd := x.cd || differ }

theorem drained_folds (d : DrainOp) (r : Nat) (b : Bool) (x : TileState) :
    (x.drained d r b).fp = x.fp.foldRow r (rowGet x.p r) ∧ (x.drained d r b).fq = x.fq.foldRow r (rowGet x.q r) ∧
      (x.drained d r b).cd = (x.cd || b) ∧ (x.drained d r b).isOpen = x.isOpen ∧ (x.drained d r b).period = x.period := by
  unfold TileState.drained
  split <;> exact ⟨rfl, rfl, rfl, rfl, rfl⟩

theorem drained_rows (d : DrainOp) (r : Nat) (b : Bool) (x : TileState) (i : Nat) :
    rowGet (x.drained d r b).p i = (if d.z = true ∧ i = r then 0 else rowGet x.p i) ∧
      rowGet (x.drained d r b).q i = (if d.z = true ∧ i = r then 0 else rowGet x.q i) := by
  unfold TileState.drained
  by_cases hz : d.z = true
  · simp only [hz, if_true, true_and]
    exact ⟨rowGet_tblPut x.p r 0 i, rowGet_tblPut x.q r 0 i⟩
  · simp only [hz, false_and]
    exact ⟨rfl, rfl⟩

section RowOut

variable (d : DrainOp) (s : State)

/-- The row of the drain that leaves. -/
def DrainOp.row (d : DrainOp) : Nat := d.row0 + d.next

/-- The tile after the row has left. -/
def State.tileOut (s : State) : TileState :=
  let x := s.core.a.tiles[d.tile]
  x.drained d d.row (!d.nw && d.codes (rowGet x.p d.row) != d.codes (rowGet x.q d.row))

/-- The machine with the tile folded and quantised, before the row is placed. -/
def State.rowFolded (s : State) : State := s.onTile d.tile (fun _ => s.tileOut d)

/-- The pier entry of the row. -/
def State.rowEntry (s : State) : PierEntry :=
  let x := s.core.a.tiles[d.tile]
  let va := d.addr + word (d.next * d.stride)
  let p := rowCells va (d.codes (rowGet x.p d.row))
  let q := rowCells va (d.codes (rowGet x.q d.row))
  { PierEntry.blank with
    id := s.core.nextId, seq := s.core.seq, hold := (s.rowFolded d).core.a.holdSet, spad := inSpad va.toNat, cells := p.1, tags := p.2,
    qcells := q.1, qtags := q.2, va := va, drain := some d.id }

/-- The core with the row's entry in the pier. -/
def Core.rowPlaced (e : PierEntry) (c : Core) : Core := { c with newRow := some e.id, nextId := c.nextId + 1, pier := c.pier ++ [e] }

/-- The machine with the row in the pier, if the drain writes. -/
def State.rowPlaced (s : State) : State :=
  if d.nw then s.rowFolded d else (s.rowFolded d).modCore (Core.rowPlaced (s.rowEntry d))

theorem rowOut_eq : s.rowOut d = if d.fl then (s.rowPlaced d).modCore (fun c =>
    { c with fl := some (d.tile, (s.core.a.tiles[d.tile]).period, rowGet (s.core.a.tiles[d.tile]).p d.row) }) else s.rowPlaced d := by
  rfl

/-- Where the parts of the machine stand after a row has left. -/
theorem rowPlaced_parts : (s.rowPlaced d).core.a = (s.rowFolded d).core.a ∧ (s.rowPlaced d).core.spad = s.core.spad ∧
    (s.rowPlaced d).mem = s.mem ∧ (s.rowPlaced d).core.fl = s.core.fl ∧ (s.rowPlaced d).core.rowDone = s.core.rowDone ∧
    (s.rowPlaced d).core.pier = (if d.nw then s.core.pier else s.core.pier ++ [s.rowEntry d]) := by
  unfold State.rowPlaced
  split <;> exact ⟨rfl, rfl, rfl, rfl, rfl, rfl⟩

theorem rowOut_parts : (s.rowOut d).core.a = (s.rowFolded d).core.a ∧ (s.rowOut d).core.spad = s.core.spad ∧
    (s.rowOut d).mem = s.mem ∧ (s.rowOut d).core.pier = (if d.nw then s.core.pier else s.core.pier ++ [s.rowEntry d]) ∧
    (s.rowOut d).core.fl = (if d.fl then some (d.tile, (s.core.a.tiles[d.tile]).period, rowGet (s.core.a.tiles[d.tile]).p d.row)
      else s.core.fl) := by
  obtain ⟨ha, hspad, hmem, hfl, -, hpier⟩ := rowPlaced_parts d s
  rw [rowOut_eq]
  cases d.fl with
  | false => exact ⟨ha, hspad, hmem, hpier, hfl⟩
  | true => exact ⟨ha, hspad, hmem, hpier, rfl⟩

theorem rowFolded_tile : (s.rowFolded d).core.a.tiles[d.tile] = s.tileOut d := onTile_tile ..

theorem onTile_other {t k : TileNo} (h : k ≠ t) (f : TileState → TileState) (s : State) :
    (s.onTile t f).core.a.tiles[k] = s.core.a.tiles[k] :=
  Vector.getElem_set_ne t.isLt k.isLt (fun e => h (Fin.ext e.symm))

end RowOut

theorem mem_holdSet {a : Arch} {t : TileNo} (h : (a.tiles[t]).isOpen = true) : (t, (a.tiles[t]).period) ∈ a.holdSet := by
  refine List.mem_flatMap.2 ⟨t, List.mem_finRange t, List.mem_append_left _ ?_⟩
  rw [if_pos h]
  exact List.mem_singleton_self _

theorem rowReady_eq {c : Core} {d : DrainOp} (heng : c.a.eng = .drain d) (hw : d.wait ≤ 1) (hf : d.fresh = false)
    (hp : d.nw = true ∨ c.pier.length < 256) : c.rowReady = some d := by
  unfold Core.rowReady
  rw [heng]
  refine if_pos ?_
  rw [hf, decide_eq_true hw]
  have hsize : c.pier.length < Config.pierSize ↔ c.pier.length < 256 := Iff.rfl
  simpa [hsize] using hp

theorem exec_drainRowLeave {s : State} {d : DrainOp} (hready : s.there.core.rowReady = some d) (hbusy : s.there.core.busy = true)
    (hdone : s.there.core.rowDone = false) (hrun : s.there.rowsRun = true) :
    exec .drainRowLeave s = .next (((s.there.onTile d.tile (TileState.faultRow s.input.flag d.row s.input.pairs)).rowOut d).modCore
      (fun c => { c with rowDone := true })) := by
  change execDrainRowLeave s = _
  unfold execDrainRowLeave
  dsimp only
  change Host.Outcome.next (match s.there.core.rowReady with
    | some d => if s.there.core.busy && !s.there.core.rowDone && s.there.rowsRun then
        ((s.there.onTile d.tile (TileState.faultRow s.input.flag d.row s.input.pairs)).rowOut d).modCore (fun c => { c with rowDone := true })
      else s.there
    | none => s.there) = _
  rw [hready]
  dsimp only
  rw [if_pos (by rw [hbusy, hdone, hrun]; rfl)]

theorem fillS_eng (r : Reg) (x : Word) (a : Arch) : (a.fillS r x).eng = a.eng := by
  unfold Arch.fillS
  split <;> rfl

theorem fillMwaits_eng (s : State) : s.fillMwaits.core.a.eng = s.core.a.eng := by
  exact foldl_preserves (fun s : State => s.core.a.eng) (fun s w => fillS_eng ..) _ _

/-- The engine after a row has left. -/
theorem rowNext_eng {d : DrainOp} {s : State} (h : d.next + 1 < d.n ∨ d.sealEnd = false) : (s.rowNext d).core.a.eng =
    if d.next + 1 < d.n then .drain { d with next := d.next + 1, wait := 1 } else if d.rd then .idle else .timed 1 := by
  unfold State.rowNext
  by_cases hn : d.next + 1 < d.n
  · rw [if_pos hn, if_pos hn]
    rfl
  · rw [if_neg hn, if_neg hn, if_neg (by rw [h.resolve_left hn]; decide)]
    split
    · exact fillMwaits_eng _
    · rfl

theorem rowCycle_of_done {s : State} {d : DrainOp} (heng : s.core.a.eng = .drain d) (hdone : s.core.rowDone = true) :
    s.rowCycle = (s.modCore (fun c => { c with rowDone := false })).rowNext d := by
  unfold State.rowCycle
  rw [heng]
  exact if_pos hdone

theorem drainRowLeaves : Claims.DrainRowLeaves := by
  refine ⟨fun b r t => rfl, ?_⟩
  intro s d u r x gp gq heng hw hf hp hbusy hdone hrun
  have hex := exec_drainRowLeave (rowReady_eq heng hw hf hp) hbusy hdone hrun
  obtain ⟨v, hv⟩ : ∃ v, v = u.onTile d.tile (TileState.faultRow s.input.flag d.row s.input.pairs) := ⟨_, rfl⟩
  have hx : v.core.a.tiles[d.tile] = x := by rw [hv]; exact onTile_tile ..
  have hother (k : TileNo) (h : k ≠ d.tile) : v.core.a.tiles[k] = u.core.a.tiles[k] := by rw [hv]; exact onTile_other h ..
  have hveng : v.core.a.eng = .drain d := by rw [hv]; exact heng
  have hvpier : v.core.pier = u.core.pier := by rw [hv]; rfl
  have hvfl : v.core.fl = u.core.fl := by rw [hv]; rfl
  have hvspad : v.core.spad = u.core.spad := by rw [hv]; rfl
  have hvmem : v.mem = u.mem := by rw [hv]; rfl
  have hvseq : v.core.seq = u.core.seq := by rw [hv]; rfl
  obtain ⟨ha, hspad, hmem, hpier, hfl⟩ := rowOut_parts d v
  have htile : (v.rowFolded d).core.a.tiles[d.tile] = x.drained d r (!d.nw && gp != gq) := by
    rw [rowFolded_tile, State.tileOut, hx]
    rfl
  have ht : exec .drainRowLeave s = .next ((v.rowOut d).modCore (fun c => { c with rowDone := true })) := by rw [hex, hv]
  refine ⟨_, ht, ?_⟩
  have hta : ((v.rowOut d).modCore (fun c => { c with rowDone := true })).core.a = (v.rowFolded d).core.a := ha
  obtain ⟨hfp, hfq, hcd, hopen, hper⟩ := drained_folds d r (!d.nw && gp != gq) x
  refine ⟨?_, fun k hk => ?_, fun hn => ?_, fun hn => ?_, ?_, rfl, fun hnext => ?_, hspad.trans hvspad, hmem.trans hvmem⟩
  · rw [hta]
    dsimp only
    rw [htile]
    exact ⟨hfp, hfq, hcd, hopen, drained_rows d r _ x⟩
  · rw [hta]
    exact (onTile_other hk _ v).trans (hother k hk)
  · exact hpier.trans ((if_pos hn).trans hvpier)
  · have hcodes : rowGet (v.core.a.tiles[d.tile]).p d.row = rowGet x.p r ∧ rowGet (v.core.a.tiles[d.tile]).q d.row = rowGet x.q r := by
      rw [hx]
      exact ⟨rfl, rfl⟩
    refine ⟨v.rowEntry d, ?_, rfl, ?_, ?_, rfl, rfl, hvseq, fun ho => ?_⟩
    · exact hpier.trans ((if_neg (by rw [hn]; decide)).trans (by rw [hvpier]))
    · rw [State.rowEntry]
      dsimp only
      rw [hcodes.1]
    · rw [State.rowEntry]
      dsimp only
      rw [hcodes.2]
    · have h := mem_holdSet (a := (v.rowFolded d).core.a) (t := d.tile) (by rw [htile, hopen]; exact ho)
      rw [htile, hper] at h
      exact h
  · refine hfl.trans ?_
    rw [hx, hvfl]
    rfl
  · have heng' : ((v.rowOut d).modCore (fun c => { c with rowDone := true })).core.a.eng = .drain d := by
      rw [hta]
      exact hveng
    rw [rowCycle_of_done heng' rfl]
    exact rowNext_eng hnext

/-! ### The verdict of a seal (R204, R205, R208, R209) -/

/-- A tile whose pending seal is released. -/
def TileState.released (ps : PendSeal) (x : TileState) : TileState :=
  { x with pending := none, lastP := ps.fp, lastQ := ps.fq, lastPeriod := some ps.period, lastStale := ps.stale }

/-- A core whose captured sends have got the signature of a seal. -/
def Core.signed (t : TileNo) (ps : PendSeal) (c : Core) : Core :=
  { c with ca := c.ca.map (CopyCmd.sealed c.usesQ t ps), cb := c.cb.map (CopyCmd.sealed c.usesQ t ps) }

theorem releaseSeal_some {s : State} {t : TileNo} {ps : PendSeal} (h : (s.core.a.tiles[t]).pending = some ps) :
    s.releaseSeal t = (s.onTile t (TileState.released ps)).modCore (Core.signed t ps) := by
  unfold State.releaseSeal
  rw [h]
  rfl

theorem releaseSeal_none {s : State} {t : TileNo} (h : (s.core.a.tiles[t]).pending = none) : s.releaseSeal t = s := by
  unfold State.releaseSeal
  rw [h]

theorem wakeSeal_idle {s : State} (h : ∀ j spc, s.core.a.eng ≠ .sealWait j spc) : s.wakeSeal = s := by
  unfold State.wakeSeal
  split
  next heq => exact absurd heq (h _ _)
  next => rfl

theorem mem_pendingTiles (a : Arch) (t : TileNo) : t ∈ a.pendingTiles ↔ (a.tiles[t]).pending.isSome = true := by
  simp [Arch.pendingTiles]

theorem mem_openTiles (a : Arch) (t : TileNo) : t ∈ a.openTiles ↔ (a.tiles[t]).isOpen = true := by
  simp [Arch.openTiles]

section Verdict

variable {v : State} {k : TileNo} {ps : PendSeal}

/-- A seal that matches in dual-path mode is released. -/
theorem sealVerdict_good (hp : (v.core.a.tiles[k]).pending = some ps) (hsp : v.core.sp = false) (hm : sealMatch ps = true)
    (heng : ∀ j spc, v.core.a.eng ≠ .sealWait j spc) :
    v.sealVerdict k = ((v.onTile k (TileState.released ps)).modCore (Core.signed k ps)).setLastv 1 := by
  unfold State.sealVerdict
  rw [hp]
  dsimp only
  rw [if_pos (by rw [hsp, hm]; rfl), releaseSeal_some hp]
  exact wakeSeal_idle heng

/-- The core when the Keystone's test of a seal begins. -/
def State.testBegun (v : State) (k : TileNo) : State :=
  v.modCore (fun c =>
    { c with arbit := some (k, Config.keystoneCycles), arbitAt := v.frame.toNat, arbitFor := if c.sp then [k] else c.a.pendingTiles })

theorem sealVerdict_bad (hp : (v.core.a.tiles[k]).pending = some ps) (hsp : (!v.core.sp && sealMatch ps) = false)
    (harb : v.core.arbit = none) : v.sealVerdict k = v.testBegun k := by
  unfold State.sealVerdict
  rw [hp]
  dsimp only
  rw [if_neg (by rw [hsp]; decide), if_neg (by rw [harb]; decide)]
  rfl

end Verdict

/-- A pending seal as its verdict finds it: a physical fault may have changed the folds of one path. -/
def PendSeal.faulted (inP : Bool) (x : Word) (rows : List (Nat × Nat)) (ps : PendSeal) : PendSeal :=
  { ps with fp := if inP then Folds.faulted x rows ps.fp else ps.fp, fq := if inP then ps.fq else Folds.faulted x rows ps.fq, left := 0 }

/-- The core when a seal's verdict is due. -/
def State.verdictDue (s : State) (k : TileNo) (ps : PendSeal) : State := s.onTile k (fun x => { x with pending := some ps })

/-- Whether the Keystone's test has begun in this cycle. -/
def State.noteTest (idle : Bool) (s : State) : State := s.modCore (fun c => { c with newArbit := c.newArbit || (idle && c.arbit.isSome) })

theorem exec_sealVerdict {s : State} {ps : PendSeal} (hp : (s.there.core.a.tiles[s.input.tile]).pending = some ps)
    (harb : s.there.core.arbit = none) (hl : ps.left ≤ 1) : exec .sealVerdict s =
      .next (((s.there.verdictDue s.input.tile (ps.faulted s.input.flag s.input.value s.input.pairs)).sealVerdict s.input.tile).noteTest
        s.there.core.arbit.isNone) := by
  change execSealVerdict s = _
  unfold execSealVerdict
  dsimp only
  have hj : s.there.core.judged s.input.tile = false := by rw [Core.judged, harb]; rfl
  change Host.Outcome.next (match (s.there.core.a.tiles[s.input.tile]).pending with
    | none => s.there
    | some ps => if s.there.core.judged s.input.tile || decide (1 < ps.left) then s.there else
      ((s.there.verdictDue s.input.tile (ps.faulted s.input.flag s.input.value s.input.pairs)).sealVerdict s.input.tile).noteTest
        s.there.core.arbit.isNone) = _
  rw [hp]
  dsimp only
  rw [if_neg (by rw [hj, decide_eq_false (by omega)]; decide)]

theorem sealMatch_iff (ps : PendSeal) : sealMatch ps = true ↔ ps.cd = false ∧ ps.fp = ps.fq := by
  simp [sealMatch, and_comm]

theorem faulted_nothing (x : Folds) : Folds.faulted 0 [] x = x := by
  exact congrArg (fun tf => ({ x with tf := tf } : Folds)) BitVec.xor_zero

theorem faulted_row (x : Folds) (v : Word) (r y : Nat) (h : y % 2 ^ 64 ≠ 0) :
    tblGet (Folds.faulted v [(r, y)] x).rs r ≠ tblGet x.rs r := by
  change tblGet (tblPut x.rs r (x.sig r ^^^ word y)) r ≠ _
  rw [tblGet_tblPut, if_pos rfl, Folds.sig]
  intro e
  rw [← e, Option.getD_some] at e
  have h0 : word y = 0 := by
    have e' := congrArg (x.sig r ^^^ ·) (Option.some.inj e)
    simp [Folds.sig] at e'
    simp_all
  exact h ((BitVec.toNat_ofNat y 64).symm.trans (congrArg BitVec.toNat h0))

/-- A full pier with no seal pending calls for every OPEN tile. -/
theorem mem_sealTiles_of_full {u : State} (hfull : 256 ≤ u.core.pier.length) (hnone : ∀ j : TileNo, (u.core.a.tiles[j]).pending = none)
    (j : TileNo) : j ∈ u.sealTiles ↔ (u.core.a.tiles[j]).isOpen = true := by
  have hp : u.core.a.pendingTiles = [] := List.eq_nil_iff_forall_not_mem.2 (fun t ht => by
    rw [mem_pendingTiles, hnone t] at ht
    exact absurd ht (by decide))
  have hcalls : u.core.pierCalls = true := by
    unfold Core.pierCalls
    rw [hp, decide_eq_true (show Config.pierSize ≤ u.core.pier.length from hfull)]
    rfl
  have h : u.sealTiles = u.core.a.openTiles := by
    unfold State.sealTiles Core.sealTiles
    rw [hcalls, Bool.or_true, if_pos rfl]
  rw [h, mem_openTiles]

theorem isOpen_of_mem_sealTiles {u : State} {j : TileNo} (h : j ∈ u.sealTiles) : (u.core.a.tiles[j]).isOpen = true := by
  have hsub : j ∈ u.core.a.openTiles := by
    unfold State.sealTiles Core.sealTiles at h
    split at h
    · exact h
    · exact (List.mem_filter.1 h).1
  exact (mem_openTiles ..).1 hsub

/-- An MSEAL of an OPEN tile with no seal pending. -/
theorem startSeal_drained {s : State} {t : TileNo} (spc : Word) (hp : (s.core.a.tiles[t]).pending = none)
    (ho : (s.core.a.tiles[t]).isOpen = true) :
    s.startSeal t spc = (s.onTile t (fun x => x.sealDrained spc)).modA (fun a => { a with eng := .timed 1 }) := by
  unfold State.startSeal
  dsimp only
  rw [hp, if_neg (by decide), if_pos ho]

theorem exec_implicitSeal {s : State} {j : TileNo} {rest : List TileNo} (heng : s.there.core.a.eng = .idle)
    (hr : s.there.core.a.routine = none) (hts : s.there.sealTiles = j :: rest) :
    exec .implicitSeal s = .next (((s.there.modA (fun a => { a with sealq := j :: rest })).startSeal j s.there.core.a.pc).modA
      (fun a => { a with sealq := rest })) := by
  change Host.Outcome.next (s.there.implicitSeal s.there.sealsAll s.there.routineStopped) = _
  unfold State.implicitSeal
  change Host.Outcome.next (match s.there.sealTiles with
    | [] => s.there.modA (fun a => { a with sealq := s.there.sealTiles })
    | t :: rest => match s.there.core.a.eng with
      | .idle => if s.there.routineStopped || s.there.core.a.routine.isNone then
          ((s.there.modA (fun a => { a with sealq := s.there.sealTiles })).startSeal t s.there.core.a.pc).modA (fun a => { a with sealq := rest })
        else s.there.modA (fun a => { a with sealq := s.there.sealTiles })
      | .tokens _ => if s.there.routineStopped && (s.there.core.a.tiles[t]).pending.isNone then
          ((s.there.modA (fun a => { a with sealq := s.there.sealTiles })).onTile t (fun x => x.sealDrained s.there.core.a.pc)).modA
            (fun a => { a with sealq := rest })
        else s.there.modA (fun a => { a with sealq := s.there.sealTiles })
      | _ => s.there.modA (fun a => { a with sealq := s.there.sealTiles })) = _
  rw [hts, heng, hr]
  dsimp only
  rw [if_pos (by simp)]

theorem sealVerdictEffects : Claims.SealVerdictEffects := by
  intro s u k
  refine ⟨?_, ⟨faulted_nothing, fun x v r y => ⟨rfl, faulted_row x v r y⟩⟩,
    mem_sealTiles_of_full, fun heng hr j rest hts hp => ?_⟩
  · intro ps hp harb hl heng bad fp good
    obtain ⟨qs, hqs⟩ : ∃ qs, qs = ps.faulted s.input.flag s.input.value s.input.pairs := ⟨_, rfl⟩
    obtain ⟨v, hv⟩ : ∃ v, v = u.verdictDue k qs := ⟨_, rfl⟩
    have hex := exec_sealVerdict hp harb hl
    change exec .sealVerdict s = .next (((u.verdictDue k (ps.faulted s.input.flag s.input.value s.input.pairs)).sealVerdict k).noteTest _) at hex
    rw [← hqs, ← hv] at hex
    have hvtile : v.core.a.tiles[k] = { u.core.a.tiles[k] with pending := some qs } := by rw [hv]; exact onTile_tile ..
    have hvp : (v.core.a.tiles[k]).pending = some qs := by rw [hvtile]
    have hvsp : v.core.sp = u.core.sp := by rw [hv]; rfl
    have hvarb : v.core.arbit = none := by rw [hv]; exact harb
    have hveng : v.core.a.eng = u.core.a.eng := by rw [hv]; rfl
    have hgood : good ↔ (!v.core.sp && sealMatch qs) = true := by
      rw [Bool.and_eq_true, sealMatch_iff, hvsp, Bool.not_eq_true', hqs]
      exact Iff.rfl
    refine ⟨_, hex, fun hg => ?_, fun hg => ?_⟩
    · obtain ⟨hsp, hm⟩ := Bool.and_eq_true_iff.1 (hgood.1 hg)
      rw [sealVerdict_good hvp (by simpa using hsp) hm (by rw [hveng]; exact heng)]
      have ht : ((((v.onTile k (TileState.released qs)).modCore (Core.signed k qs)).setLastv 1).noteTest u.core.arbit.isNone).core.a.tiles[k] =
          (v.core.a.tiles[k]).released qs := onTile_tile ..
      rw [ht, hvtile]
      exact ⟨rfl, rfl, hvarb, by rw [hqs]; rfl, rfl⟩
    · rw [sealVerdict_bad hvp (by rw [hgood] at hg; simpa using hg) hvarb]
      refine ⟨rfl, ?_, ?_, fun j => ?_⟩
      · change v.frame.toNat = u.frame.toNat
        rw [hv]
        rfl
      · change (v.core.a.tiles[k]).pending.isSome = true
        rw [hvp]
        rfl
      · change j ∈ (if v.core.sp then [k] else v.core.a.pendingTiles) ↔ _
        rw [hvsp]
        by_cases hsp : u.core.sp = true
        · rw [if_pos hsp, if_pos hsp, List.mem_singleton]
        · rw [if_neg hsp, if_neg hsp, mem_pendingTiles]
          by_cases hj : j = k
          · subst hj
            rw [hvp, hp]
            rfl
          · rw [hv]
            exact Eq.to_iff (congrArg (fun x : TileState => x.pending.isSome = true) (onTile_other hj _ u))
  · have ho := isOpen_of_mem_sealTiles (u := u) (j := j) (by rw [hts]; exact List.mem_cons_self)
    have hex := exec_implicitSeal heng hr hts
    rw [startSeal_drained (s := s.there.modA (fun a => { a with sealq := j :: rest })) _ hp ho] at hex
    refine ⟨_, ⟨(u.core.a.tiles[j]).period, 24, u.core.a.pc, (u.core.a.tiles[j]).fp, (u.core.a.tiles[j]).fq, (u.core.a.tiles[j]).cd,
      (u.core.a.tiles[j]).tainted, (u.core.a.tiles[j]).wrote⟩, hex, ?_⟩
    have ht : ((((u.modA (fun a => { a with sealq := j :: rest })).onTile j (fun x => x.sealDrained u.core.a.pc)).modA
        (fun a => { a with eng := .timed 1 })).modA (fun a => { a with sealq := rest })).core.a.tiles[j] =
          (u.core.a.tiles[j]).sealDrained u.core.a.pc := Vector.getElem_set_self _
    refine ⟨(congrArg TileState.isOpen ht).trans rfl, (congrArg TileState.pending ht).trans rfl, rfl, rfl, rfl, rfl, rfl⟩

/-! ### The outcome of the Keystone's test (R209 to R213, R216) -/

/-- What the release and the start of seals leave alone. -/
structure Standing where
  arbit : Option (TileNo × Nat)
  err : ErrCnt
  sealErr : Option (Nat × Word)
  outOfService : Bool
  sp : Bool
  faulty : Bool
  usesQ : Bool
  pier : List PierEntry
  dies : Vector Die 8

def State.standing (s : State) : Standing :=
  ⟨s.core.arbit, s.core.err, s.core.sealErr, s.core.outOfService, s.core.sp, s.core.faulty, s.core.usesQ, s.core.pier, s.dies⟩

/-- The elements of a path by tile. -/
def State.visible (s : State) (j : TileNo) : Tbl Vec := (s.core.a.tiles[j]).p

@[simp] theorem releaseSeal_standing (t : TileNo) (s : State) : (s.releaseSeal t).standing = s.standing := by
  unfold State.releaseSeal
  split <;> rfl

@[simp] theorem startSeal_standing (t : TileNo) (spc : Word) (s : State) : (s.startSeal t spc).standing = s.standing := by
  unfold State.startSeal
  dsimp only
  repeat' split
  all_goals rfl

@[simp] theorem wakeSeal_standing (s : State) : s.wakeSeal.standing = s.standing := by
  unfold State.wakeSeal
  split
  · split
    · rfl
    · exact startSeal_standing ..
  · rfl

theorem releaseAll_standing (s : State) : s.releaseAll.standing = s.standing :=
  foldl_preserves State.standing (fun s t => releaseSeal_standing t s) _ s

/-! What becomes of the tiles. -/

theorem onTile_apply (t j : TileNo) (f : TileState → TileState) (s : State) :
    (s.onTile t f).core.a.tiles[j] = if j = t then f s.core.a.tiles[t] else s.core.a.tiles[j] := by
  split
  next h => rw [h]; exact onTile_tile ..
  next h => exact onTile_other h f s

theorem onTile_visible {t : TileNo} {f : TileState → TileState} (hf : ∀ x, (f x).p = x.p) (s : State) :
    (s.onTile t f).visible = s.visible := by
  funext j
  unfold State.visible
  rw [onTile_apply]
  split
  next h => rw [h]; exact hf _
  next => rfl

theorem releaseSeal_visible (t : TileNo) (s : State) : (s.releaseSeal t).visible = s.visible := by
  unfold State.releaseSeal
  split
  · rfl
  next ps _ => exact onTile_visible (f := TileState.released ps) (fun _ => rfl) s

theorem startSeal_visible (t : TileNo) (spc : Word) (s : State) : (s.startSeal t spc).visible = s.visible := by
  unfold State.startSeal
  dsimp only
  repeat' split
  · rfl
  · exact onTile_visible (f := fun x => x.sealDrained spc) (fun _ => rfl) s
  · exact onTile_visible (f := fun x => x.sealUndrained spc) (fun _ => rfl) s

theorem wakeSeal_visible (s : State) : s.wakeSeal.visible = s.visible := by
  unfold State.wakeSeal
  split
  · split
    · rfl
    · exact startSeal_visible ..
  · rfl

theorem releaseAll_visible (s : State) : s.releaseAll.visible = s.visible :=
  foldl_preserves State.visible (fun s t => releaseSeal_visible t s) _ s

theorem releaseSeal_pending (t j : TileNo) (s : State) :
    ((s.releaseSeal t).core.a.tiles[j]).pending = if j = t then none else (s.core.a.tiles[j]).pending := by
  cases hp : (s.core.a.tiles[t]).pending with
  | none =>
    rw [releaseSeal_none hp]
    split
    next h => rw [h, hp]
    next => rfl
  | some ps =>
    rw [releaseSeal_some hp]
    refine (congrArg TileState.pending (onTile_apply t j _ s)).trans ?_
    split <;> rfl

theorem releaseSeals_pending (l : List TileNo) (j : TileNo) (s : State) :
    ((l.foldl (fun s t => s.releaseSeal t) s).core.a.tiles[j]).pending = if j ∈ l then none else (s.core.a.tiles[j]).pending := by
  induction l generalizing s with
  | nil => simp
  | cons t l ih =>
    rw [List.foldl_cons, ih, releaseSeal_pending]
    by_cases hj : j ∈ l
    · simp [hj]
    · simp only [hj, if_false, List.mem_cons, or_false]

theorem releaseSeal_eng (t : TileNo) (s : State) : (s.releaseSeal t).core.a.eng = s.core.a.eng := by
  unfold State.releaseSeal
  split <;> rfl

theorem releaseAll_tiles (s : State) : s.releaseAll.core.a.eng = s.core.a.eng ∧ ∀ j : TileNo, (s.releaseAll.core.a.tiles[j]).pending =
    if j ∈ s.core.arbitFor then none else (s.core.a.tiles[j]).pending :=
  ⟨foldl_preserves (fun s : State => s.core.a.eng) (fun s t => releaseSeal_eng t s) s.core.arbitFor s,
    fun j => releaseSeals_pending s.core.arbitFor j s⟩

/-- The core in single-path mode after a test. -/
def Core.singled (c : Core) : Core := { c with sp := true, faulty := true }

/-- A core that has discarded what its open periods hold. -/
def Core.discarded (c : Core) : Core := { c.discardHeld with a := c.discardHeld.a.discarded }

/-- A core that a test takes out of service. -/
def Core.retired (spc : Word) (c : Core) : Core := { c with faulty := true, outOfService := true, sealErr := some (5, spc) }

/-- What the code of a test does. -/
def State.outcome (w : State) (code : Nat) (t : TileNo) (spc : Word) : State :=
  match code with
  | 0 => ((w.releaseSeal t).setLastv 2).wakeSeal.modCore (fun c => { c with err := { c.err with spt := c.err.spt + 1 } })
  | 1 => (w.releaseAll.modCore Core.singled).wakeSeal
  | 2 => (w.handOver.releaseAll.modCore Core.singled).wakeSeal
  | 3 => w.handOver.releaseAll.modCore (fun c => { c.singled with sealErr := some (3, spc) })
  | 4 => w.modCore (fun c => { c.discarded with sealErr := some (4, spc) })
  | _ => w.modCore (fun c => c.discarded.retired spc)

/-- Whether a value of a period under test reached a register. -/
def Core.testTainted (c : Core) : Bool := c.arbitFor.any (fun i => ((c.a.tiles[i]).pending.map (fun p => p.tainted)).getD false)

/-- The machine at the end of the test. -/
def State.judged (s : State) : State := s.modCore (fun c => { c with arbit := none, newArbit := false })

/-- The code of the test that ends. -/
def State.testCode (s : State) (test : KeystoneTest) : Nat := keystoneCode s.core.sp s.core.usesQ s.core.testTainted test

/-- The record of the test. -/
def State.testRecord (s : State) (t : TileNo) (ps : PendSeal) (test : KeystoneTest) : ErrRec :=
  s.judged.arbitRecord t ps (s.testCode test) test (s.core.heldEntries.length -
    (if s.testCode test ≤ 3 then s.judged.releaseAll.core.heldEntries.length else 0))

/-- The machine with the record of the test. -/
def State.charged (s : State) (t : TileNo) (ps : PendSeal) (test : KeystoneTest) : State :=
  if s.testCode test = 0 then s.judged
  else s.judged.onDie (dieOf s.core.id) (fun d => { d with errs := d.errs.add 1024 (.seal (s.testRecord t ps test)) })

theorem keystone_eq {s : State} {t : TileNo} {n : Nat} {ps : PendSeal} (test : KeystoneTest) (ha : s.core.arbit = some (t, n))
    (hp : (s.core.a.tiles[t]).pending = some ps) :
    s.keystone test = (s.charged t ps test).outcome (s.testCode test) t ps.spc := by
  have hp' : (s.judged.core.a.tiles[t]).pending = some ps := hp
  unfold State.keystone
  rw [ha]
  dsimp only
  change (match (s.judged.core.a.tiles[t]).pending with
    | none => s.judged
    | some ps => _) = _
  rw [hp']
  rfl

theorem exec_keystoneVerdict {s : State} {t : TileNo} {ps : PendSeal} (ha : s.there.core.arbit = some (t, 0))
    (hp : (s.there.core.a.tiles[t]).pending = some ps) : exec .keystoneVerdict s =
      .next ((s.there.charged t ps s.input.test).outcome (s.there.testCode s.input.test) t ps.spc) := by
  rw [← keystone_eq s.input.test ha hp]
  change Host.Outcome.next (match s.there.core.arbit with
    | some (_, n) => if n = 0 then s.there.keystone s.input.test else s.there
    | none => s.there) = _
  rw [ha]
  rfl

/-! The outcome, code by code. -/

section Outcome

variable {s w : State} {t : TileNo} {ps : PendSeal} {test : KeystoneTest} {spc : Word}

theorem charged_core : (s.charged t ps test).core = s.judged.core := by
  unfold State.charged
  split
  · rfl
  · exact onDie_core ..

/-- Code 0: a core in single-path mode goes on. -/
theorem outcome_pass (w : State) (t : TileNo) (spc : Word) :
    (w.outcome 0 t spc).standing = { w.standing with err := { w.core.err with spt := w.core.err.spt + 1 } } := by
  have h : ((w.releaseSeal t).setLastv 2).wakeSeal.standing = w.standing := (wakeSeal_standing _).trans (releaseSeal_standing t w)
  have he : ((w.releaseSeal t).setLastv 2).wakeSeal.core.err = w.core.err := congrArg Standing.err h
  rw [← he, ← h]
  rfl

/-- Code 1: the P-path passed. -/
theorem outcome_single (w : State) (t : TileNo) (spc : Word) :
    (w.outcome 1 t spc).standing = { w.standing with sp := true, faulty := true } := by
  have h := releaseAll_standing w
  exact (wakeSeal_standing (w.releaseAll.modCore Core.singled)).trans
    (congrArg (fun x : Standing => { x with sp := true, faulty := true }) h)

/-- Code 2: the Q-path passed. -/
theorem outcome_handed (w : State) (t : TileNo) (spc : Word) :
    (w.outcome 2 t spc).standing = { w.handOver.standing with sp := true, faulty := true } := by
  have h := releaseAll_standing w.handOver
  exact (wakeSeal_standing (w.handOver.releaseAll.modCore Core.singled)).trans
    (congrArg (fun x : Standing => { x with sp := true, faulty := true }) h)

/-- Code 3: the Q-path passed, after a value of the other reached a register. -/
theorem outcome_tainted (w : State) (t : TileNo) (spc : Word) :
    (w.outcome 3 t spc).standing = { w.handOver.standing with sp := true, faulty := true, sealErr := some (3, spc) } :=
  congrArg (fun x : Standing => { x with sp := true, faulty := true, sealErr := some (3, spc) }) (releaseAll_standing w.handOver)

/-- The tiles when the core goes on in single-path mode: those under test are released, and a hand-over shows the Q-path. -/
theorem outcome_visible (w : State) (t : TileNo) (spc : Word) :
    (w.outcome 2 t spc).visible = w.handOver.visible ∧ (w.outcome 3 t spc).visible = w.handOver.visible :=
  ⟨(wakeSeal_visible _).trans (releaseAll_visible w.handOver), releaseAll_visible w.handOver⟩

theorem handOver_tiles (w : State) (j : TileNo) : w.handOver.core.a.tiles[j] = { w.core.a.tiles[j] with p := (w.core.a.tiles[j]).q } := by
  change (Vector.ofFn (fun i : Fin 4 => ({ w.core.a.tiles[i] with p := (w.core.a.tiles[i]).q } : TileState)))[j.val] = _
  rw [Vector.getElem_ofFn]

theorem outcome_pending (w : State) (t : TileNo) (spc : Word) (heng : ∀ j x, w.core.a.eng ≠ .sealWait j x) {code : Nat} (h1 : 1 ≤ code)
    (h3 : code ≤ 3) (j : TileNo) :
    ((w.outcome code t spc).core.a.tiles[j]).pending = if j ∈ w.core.arbitFor then none else (w.core.a.tiles[j]).pending := by
  obtain ⟨he, hp⟩ := releaseAll_tiles w
  obtain ⟨he', hp'⟩ := releaseAll_tiles w.handOver
  have hq := congrArg TileState.pending (handOver_tiles w j)
  have hcode : code = 1 ∨ code = 2 ∨ code = 3 := by omega
  obtain rfl | rfl | rfl := hcode
  · change ((w.releaseAll.modCore Core.singled).wakeSeal.core.a.tiles[j]).pending = _
    rw [wakeSeal_idle (s := w.releaseAll.modCore Core.singled) (fun i x => (congrArg (· ≠ EngOp.sealWait i x) he).mpr (heng i x))]
    exact hp j
  · change ((w.handOver.releaseAll.modCore Core.singled).wakeSeal.core.a.tiles[j]).pending = _
    rw [wakeSeal_idle (s := w.handOver.releaseAll.modCore Core.singled) (fun i x => (congrArg (· ≠ EngOp.sealWait i x) he').mpr (heng i x)), ← hq]
    exact hp' j
  · rw [← hq]
    exact hp' j

theorem discarded_tiles (a : Arch) (j : TileNo) : (a.discarded.tiles[j]).pending = none ∧ (a.discarded.tiles[j]).isOpen = false := by
  have h : a.discarded.tiles[j] = { a.tiles[j] with isOpen := false, pending := none, fp := Folds.zero, fq := Folds.zero, cd := false, tainted := false } :=
    Vector.getElem_map ..
  rw [h]
  exact ⟨rfl, rfl⟩

/-- No outcome leaves a test running, and none changes a die. -/
theorem outcome_rest (w : State) (code : Nat) (t : TileNo) (spc : Word) :
    (w.outcome code t spc).core.arbit = w.core.arbit ∧ (w.outcome code t spc).dies = w.dies := by
  have of_standing {u : State} {x : Standing} (h : u.standing = x) (ha : x.arbit = w.core.arbit) (hd : x.dies = w.dies) :
      u.core.arbit = w.core.arbit ∧ u.dies = w.dies := ⟨(congrArg Standing.arbit h).trans ha, (congrArg Standing.dies h).trans hd⟩
  match code with
  | 0 => exact of_standing (outcome_pass w t spc) rfl rfl
  | 1 => exact of_standing (outcome_single w t spc) rfl rfl
  | 2 => exact of_standing (outcome_handed w t spc) rfl rfl
  | 3 => exact of_standing (outcome_tainted w t spc) rfl rfl
  | 4 => exact ⟨rfl, rfl⟩
  | _ + 5 => exact ⟨rfl, rfl⟩

/-- The code of a test in dual-path mode. -/
theorem testCode_dual (h : s.core.sp = false) : s.testCode test =
    if test.nfp = 0 then (if test.nfq = 0 then 4 else 1) else if test.nfq = 0 then (if s.core.testTainted then 3 else 2) else 5 := by
  unfold State.testCode keystoneCode
  rw [h]
  rfl

theorem testCode_single (h : s.core.sp = true) : s.testCode test = if (if s.core.usesQ then test.nfq else test.nfp) = 0 then 0 else 5 := by
  unfold State.testCode keystoneCode
  rw [h]
  rfl

end Outcome

theorem keystoneVerdictEffects : Claims.KeystoneVerdictEffects := by
  intro s k ps u test tainted ha hp
  have hcore := charged_core (s := u) (t := k) (ps := ps) (test := test)
  obtain ⟨harb, hdies⟩ := outcome_rest (u.charged k ps test) (u.testCode test) k ps.spc
  have husesQ : (u.charged k ps test).core.usesQ = u.core.usesQ := by rw [hcore]; rfl
  have herr : (u.charged k ps test).core.sealErr = u.core.sealErr := by rw [hcore]; rfl
  have hout : (u.charged k ps test).core.outOfService = u.core.outOfService := by rw [hcore]; rfl
  have htiles : (u.charged k ps test).core.a.tiles = u.core.a.tiles := by rw [hcore]; rfl
  have hpier : (u.charged k ps test).core.pier.filter (fun e => !(u.charged k ps test).core.a.holds e) =
      u.core.pier.filter (fun e => !u.core.a.holds e) := by rw [hcore]; rfl
  refine ⟨_, exec_keystoneVerdict ha hp, harb.trans (congrArg Core.arbit hcore), ?_, ?_, ?_⟩
  · intro own hsp
    refine ⟨fun h0 => ?_, fun h0 => ?_⟩
    · have hcode : u.testCode test = 0 := (testCode_single hsp).trans (if_pos h0)
      have hch : u.charged k ps test = u.judged := if_pos hcode
      rw [hcode, hch]
      have h := outcome_pass u.judged k ps.spc
      exact ⟨congrArg (fun x : Standing => x.err.spt) h, congrArg Standing.sealErr h, congrArg Standing.dies h⟩
    · have hcode : u.testCode test = 5 := (testCode_single hsp).trans (if_neg h0)
      rw [hcode]
      exact ⟨rfl, rfl, hpier⟩
  · intro hsp
    have hdual := testCode_dual (test := test) hsp
    have hq : u.core.testTainted = tainted := rfl
    refine ⟨fun hnp hnq => ?_, fun hnp hnq => ?_, fun hnp hnq => ?_, fun hn heng j => ?_, fun hnp hnq => ?_⟩
    · rw [if_pos hnp, if_neg hnq] at hdual
      rw [hdual]
      have h := outcome_single (u.charged k ps test) k ps.spc
      exact ⟨congrArg Standing.sp h, congrArg Standing.faulty h, (congrArg Standing.usesQ h).trans husesQ,
        (congrArg Standing.sealErr h).trans herr⟩
    · rw [if_neg hnp, if_pos hnq, hq] at hdual
      have hvis (x : State) (hx : x.visible = (u.charged k ps test).handOver.visible) (j : TileNo) :
          (x.core.a.tiles[j]).p = (u.core.a.tiles[j]).q :=
        (congrFun hx j).trans ((congrArg TileState.p (handOver_tiles (u.charged k ps test) j)).trans
          (congrArg (fun x : Vector TileState 4 => (x[j]).q) htiles))
      obtain ⟨h2, h3⟩ := outcome_visible (u.charged k ps test) k ps.spc
      by_cases htaint : tainted = true
      · rw [if_pos htaint] at hdual
        rw [hdual, if_pos htaint]
        have h := outcome_tainted (u.charged k ps test) k ps.spc
        exact ⟨congrArg Standing.sp h, congrArg Standing.faulty h, congrArg Standing.usesQ h, congrArg Standing.sealErr h, hvis _ h3⟩
      · rw [if_neg htaint] at hdual
        rw [hdual, if_neg htaint]
        have h := outcome_handed (u.charged k ps test) k ps.spc
        exact ⟨congrArg Standing.sp h, congrArg Standing.faulty h, congrArg Standing.usesQ h,
          (congrArg Standing.sealErr h).trans herr, hvis _ h2⟩
    · rw [if_pos hnp, if_pos hnq] at hdual
      rw [hdual]
      exact ⟨(congrArg Core.sp hcore).trans hsp, rfl, hout,
        hpier, fun j => discarded_tiles _ j⟩
    · have hcode : 1 ≤ u.testCode test ∧ u.testCode test ≤ 3 := by
        rw [hdual]
        by_cases hnp : test.nfp = 0
        · rw [if_pos hnp, if_neg (hn.1 hnp)]
          decide
        · rw [if_neg hnp, if_pos (not_not.1 (mt hn.2 hnp))]
          split <;> decide
      have heng' (i : TileNo) (x : Word) : (u.charged k ps test).core.a.eng ≠ .sealWait i x := by
        rw [hcore]
        exact heng i x
      refine (outcome_pending _ k ps.spc heng' hcode.1 hcode.2 j).trans ?_
      rw [hcore]
      rfl
    · rw [if_neg hnp, if_neg hnq] at hdual
      rw [hdual]
      exact ⟨rfl, rfl, rfl, hpier⟩
  · intro hsp hdie
    have hdual := testCode_dual (test := test) hsp
    have hne : u.testCode test ≠ 0 := by
      rw [hdual]
      repeat' split
      all_goals decide
    refine ⟨u.testRecord k ps test, ?_, hdual, rfl, rfl, rfl, rfl, rfl⟩
    rw [die_of_dies hdies, State.charged, if_neg hne, onDie_die _ _ _ hdie]
    rfl

/-- Settles O33. -/
theorem sealVerdicts : Obligations.SealVerdicts := ⟨drainRowLeaves, sealVerdictEffects, keystoneVerdictEffects⟩

end Sys2Proof.Machine
end

section
/-!
LEMMAS. An entry leaves the pier, and an outstanding write ends (spec/05 R104, R108, R109, R120 to R125, spec/06 R128, R132,
spec/10 R206).
-/
open Sys2Proof

namespace Sys2Proof.Machine

/-! ### Memory after writes -/

theorem cellGet_cellSets {α : Type} [DecidableEq α] (d : α) (cs m : List (Nat × α)) (a : Nat) (w : cellWf d m = true) :
    cellGet d (cellSets d m cs) a = readAfter d m cs a := by
  induction cs generalizing m with
  | nil => rfl
  | cons c cs ih =>
    refine (ih _ (cellSet_wf d m c.1 c.2 w)).trans ?_
    unfold readAfter
    rw [List.reverse_cons, List.find?_append]
    cases hf : cs.reverse.find? (fun x => decide (x.1 = a)) with
    | some x => rfl
    | none =>
      by_cases h : c.1 = a
      · have hg : cellGet d (cellSet d m c.1 c.2) a = c.2 := by rw [h]; exact cellGet_cellSet_same d m 0 a c.2 w
        rw [List.find?_cons_of_pos (by simpa using h)]
        exact hg
      · have hg : cellGet d (cellSet d m c.1 c.2) a = cellGet d m a := cellGet_cellSet_other d m c.1 a c.2 (fun e => h e.symm)
        rw [List.find?_cons_of_neg (by simpa using h)]
        exact hg

/-- What ordering points and acquires leave alone. -/
structure Stored where
  pier : List PierEntry
  outq : List MemReq
  spad : List (Nat × Byte)
  spadTags : List (Nat × Word)
  mem : List (Nat × Byte)
  memTags : List (Nat × Word)
  deferred : List Deferred
  memq : List MemReq

def State.stored (s : State) : Stored :=
  ⟨s.core.pier, s.core.outq, s.core.spad, s.core.spadTags, s.mem, s.memTags, s.core.a.deferred, s.core.a.memq⟩

theorem onDie_stored (d : Nat) (f : Die → Die) (s : State) : (s.onDie d f).stored = s.stored := by
  unfold State.onDie
  split <;> rfl

theorem acquire_stored (sc : Scope) (s : State) : (s.acquire sc).stored = s.stored := by
  have honCore (s : State) (c : Nat) : (s.onCore c (fun c => { c with icache := [] })).stored = s.stored := by
    unfold State.onCore
    split <;> rfl
  unfold State.acquire
  split
  · exact (honCore _ _).trans (onDie_stored ..)
  · rfl

theorem prunePoints_stored (s : State) : s.prunePoints.stored = s.stored :=
  foldl_preserves State.stored (fun s sc => acquire_stored sc s) _ _

/-! ### What translations depend on -/

/-- What the places of an access depend on. -/
structure Mapping where
  ctxs : List Context
  tlb : Nat → List TlbEntry
  walks : Nat → List Walk
  inReset : Nat → Bool
  id : Nat
  tlb1 : List TlbEntry
  ctx : Nat
  views : List ViewWin
  frame : Word

def State.mapping (s : State) : Mapping :=
  ⟨s.ctxs, fun d => (s.die d).tlb, fun d => (s.die d).walks, fun d => (s.die d).inReset, s.core.id, s.core.tlb1, s.core.a.ctx,
    s.core.a.views, s.frame⟩

section Places

variable {s t : State} (h : t.mapping = s.mapping)

include h

theorem leafVia?_of_mapping (l : List TlbEntry) (d ctx va : Nat) : t.leafVia? l d ctx va = s.leafVia? l d ctx va := by
  have hctxs : t.ctxs = s.ctxs := congrArg Mapping.ctxs h
  have htlb : (t.die d).tlb = (s.die d).tlb := congrFun (congrArg Mapping.tlb h) d
  have hres : (t.die d).inReset = (s.die d).inReset := congrFun (congrArg Mapping.inReset h) d
  unfold State.leafVia? State.ctx?
  rw [hctxs, htlb, hres]

theorem viewAt_of_mapping (va : Nat) : t.core.a.viewAt va = s.core.a.viewAt va := by
  have hviews : t.core.a.views = s.core.a.views := congrArg Mapping.views h
  unfold Arch.viewAt
  rw [hviews]

theorem locateVia_of_mapping (l : List TlbEntry) (me : Nat) (remap : Bool) (k : Acc) (shadow : Bool) (va : Nat) :
    t.locateVia l me t.core.a remap k shadow va = s.locateVia l me s.core.a remap k shadow va := by
  have hctxs : t.ctxs = s.ctxs := congrArg Mapping.ctxs h
  have hctx : t.core.a.ctx = s.core.a.ctx := congrArg Mapping.ctx h
  have hphys (o : Nat) : t.physLoc l (dieOf me) s.core.a.ctx k shadow o = s.physLoc l (dieOf me) s.core.a.ctx k shadow o := by
    unfold State.physLoc State.translateVia
    rw [leafVia?_of_mapping h]
  unfold State.locateVia State.ctx?
  dsimp only
  rw [viewAt_of_mapping h, hctx, hctxs]
  simp only [hphys]

theorem locateAllVia_of_mapping (l : List TlbEntry) (me : Nat) (remap : Bool) (k : Acc) (shadow : Bool) (vas : List Nat) :
    t.locateAllVia l me t.core.a remap k shadow vas = s.locateAllVia l me s.core.a remap k shadow vas := by
  induction vas with
  | nil => rfl
  | cons va vas ih =>
    unfold State.locateAllVia
    rw [locateVia_of_mapping h, ih]

theorem touchesVia_of_mapping (l : List TlbEntry) (me : Nat) (k : Acc) (shadow : Bool) (va n : Nat) :
    t.touchesVia l me t.core.a k shadow va n = s.touchesVia l me s.core.a k shadow va n := by
  unfold State.touchesVia
  simp only [locateVia_of_mapping h]

theorem partTouches_of_mapping (r : MemReq) : t.partTouches r = s.partTouches r := by
  have hid : t.core.id = s.core.id := congrArg Mapping.id h
  have htlb : t.core.tlb1 = s.core.tlb1 := congrArg Mapping.tlb1 h
  unfold State.partTouches State.memTouches
  rw [hid, htlb]
  simp only [touchesVia_of_mapping h]

theorem noWalker_of_mapping (l : List TlbEntry) (d ctx va : Nat) : t.noWalker l d ctx va = s.noWalker l d ctx va := by
  have htlb : (t.die d).tlb = (s.die d).tlb := congrFun (congrArg Mapping.tlb h) d
  have hwalks : (t.die d).walks = (s.die d).walks := congrFun (congrArg Mapping.walks h) d
  unfold State.noWalker
  rw [htlb, hwalks]

theorem partWalks_of_mapping (r : MemReq) : t.partWalks r = s.partWalks r := by
  have hid : t.core.id = s.core.id := congrArg Mapping.id h
  have htlb : t.core.tlb1 = s.core.tlb1 := congrArg Mapping.tlb1 h
  have hctx : t.core.a.ctx = s.core.a.ctx := congrArg Mapping.ctx h
  unfold State.partWalks State.walkWaits Arch.translated
  simp only [hid, htlb, hctx, viewAt_of_mapping h, noWalker_of_mapping h]

theorem partKey_of_mapping : t.partKey = s.partKey := by
  have hid : t.core.id = s.core.id := congrArg Mapping.id h
  have htlb : t.core.tlb1 = s.core.tlb1 := congrArg Mapping.tlb1 h
  have hctx : t.core.a.ctx = s.core.a.ctx := congrArg Mapping.ctx h
  funext g
  unfold State.partKey State.pageOf Arch.translated
  simp only [hid, htlb, hctx, viewAt_of_mapping h, leafVia?_of_mapping h]

/-- What a part waits for, when fewer accesses wait in the queue. -/
theorem storeBehind_of_mapping {r : MemReq} (hsub : ∀ x ∈ t.core.a.memq, x ∈ s.core.a.memq ∨ ¬x.id < r.id) (hb : s.storeBehind r = false) :
    t.storeBehind r = false := by
  have hviews : t.core.a.views = s.core.a.views := congrArg Mapping.views h
  unfold State.storeBehind Arch.together at hb ⊢
  rw [List.any_eq_false] at hb ⊢
  intro x hx
  rcases hsub x hx with hm | hid
  · have hq := hb x hm
    rw [hviews, partTouches_of_mapping h, partTouches_of_mapping h]
    exact hq
  · simp [hid]

end Places

/-! ### The parts of a store (R108) -/

theorem runsOf_flatten {α : Type} [DecidableEq α] (key : Nat → α) (l : List Nat) : (runsOf key l).flatten = l := by
  induction l with
  | nil => rfl
  | cons x xs ih =>
    unfold runsOf
    split
    next y ys gs heq =>
      rw [heq] at ih
      split
      · exact congrArg (x :: ·) ih
      · exact congrArg (x :: ·) ih
    next => exact congrArg (x :: ·) ih

/-- The granules that an entry writes. -/
theorem mem_granules (e : PierEntry) (g : Nat) : g ∈ e.granules ↔ (∃ c ∈ e.cells, g = 64 * (c.1 / 64)) ∨ ∃ t ∈ e.tags, g = 64 * t.1 := by
  unfold PierEntry.granules
  simp only [List.mem_map, List.mem_eraseDups, List.mem_append]
  constructor
  · rintro ⟨x, ⟨c, hc, rfl⟩ | ⟨t, ht, rfl⟩, rfl⟩
    · exact .inl ⟨c, hc, rfl⟩
    · exact .inr ⟨t, ht, rfl⟩
  · rintro (⟨c, hc, rfl⟩ | ⟨t, ht, rfl⟩)
    · exact ⟨_, .inl ⟨c, hc, rfl⟩, rfl⟩
    · exact ⟨_, .inr ⟨t, ht, rfl⟩, rfl⟩

/-- The bytes and the tags of an entry in some of its granules. -/
def PierEntry.cellsIn (e : PierEntry) (gs : List Nat) : List (Nat × Byte) := e.cells.filter (fun c => gs.any (fun g => c.1 / 64 = g / 64))
def PierEntry.tagsIn (e : PierEntry) (gs : List Nat) : List (Nat × Word) := e.tags.filter (fun t => gs.any (fun g => 64 * t.1 / 64 = g / 64))

section PartsOf

variable {e : PierEntry} {parts : List (List Nat)}

theorem mem_cellsIn (hp : parts.flatten = e.granules) (c : Nat × Byte) : (∃ gs ∈ parts, c ∈ e.cellsIn gs) ↔ c ∈ e.cells := by
  refine ⟨fun ⟨gs, _, h⟩ => (List.mem_filter.1 h).1, fun hc => ?_⟩
  have hg : 64 * (c.1 / 64) ∈ parts.flatten := by rw [hp, mem_granules]; exact .inl ⟨c, hc, rfl⟩
  obtain ⟨gs, hgs, hmem⟩ := List.mem_flatten.1 hg
  exact ⟨gs, hgs, List.mem_filter.2 ⟨hc, List.any_eq_true.2 ⟨_, hmem, by simp⟩⟩⟩

theorem mem_tagsIn (hp : parts.flatten = e.granules) (t : Nat × Word) : (∃ gs ∈ parts, t ∈ e.tagsIn gs) ↔ t ∈ e.tags := by
  refine ⟨fun ⟨gs, _, h⟩ => (List.mem_filter.1 h).1, fun ht => ?_⟩
  have hg : 64 * t.1 ∈ parts.flatten := by rw [hp, mem_granules]; exact .inr ⟨t, ht, rfl⟩
  obtain ⟨gs, hgs, hmem⟩ := List.mem_flatten.1 hg
  exact ⟨gs, hgs, List.mem_filter.2 ⟨ht, List.any_eq_true.2 ⟨_, hmem, by simp⟩⟩⟩

/-- A granule of an entry has a byte or a tag of it. -/
theorem granule_written {gs : List Nat} {g : Nat} (hg : g ∈ gs) (he : g ∈ e.granules) :
    (∃ c ∈ e.cellsIn gs, c.1 / 64 = g / 64) ∨ ∃ t ∈ e.tagsIn gs, t.1 = g / 64 := by
  rcases (mem_granules e g).1 he with ⟨c, hc, rfl⟩ | ⟨t, ht, rfl⟩
  · refine .inl ⟨c, List.mem_filter.2 ⟨hc, List.any_eq_true.2 ⟨_, hg, by simp⟩⟩, by simp⟩
  · refine .inr ⟨t, List.mem_filter.2 ⟨ht, List.any_eq_true.2 ⟨_, hg, by simp⟩⟩, by simp⟩

/-- One part that has every granule has every byte and tag. -/
theorem cellsIn_all (e : PierEntry) : e.cellsIn e.granules = e.cells ∧ e.tagsIn e.granules = e.tags := by
  refine ⟨List.filter_eq_self.2 (fun c hc => ?_), List.filter_eq_self.2 (fun t ht => ?_)⟩
  · exact List.any_eq_true.2 ⟨_, (mem_granules e _).2 (.inl ⟨c, hc, rfl⟩), by simp⟩
  · exact List.any_eq_true.2 ⟨_, (mem_granules e _).2 (.inr ⟨t, ht, rfl⟩), by simp⟩

end PartsOf

/-! ### A part leaves for home (R103, R121) -/

/-- A request with more at home. -/
def MemReq.goes (r x : MemReq) : Prop := ∃ p t k c, x = { r with pas := p, paTags := t, kind := k, cached := c }

theorem goes_trans {r x y : MemReq} (h : r.goes x) (h' : x.goes y) : r.goes y := by
  obtain ⟨p, t, k, c, rfl⟩ := h
  obtain ⟨p', t', k', c', rfl⟩ := h'
  exact ⟨p', t', k', c', rfl⟩

/-- What a write that leaves for home keeps of the machine: everything but its die's read cache and its count of writes. -/
def State.diesDiffer (s t : State) : Prop := t.mapping = s.mapping ∧ ∃ ds, t = { s with dies := ds }

theorem diesDiffer_refl (s : State) : s.diesDiffer s := ⟨rfl, s.dies, rfl⟩

theorem diesDiffer_trans {s t u : State} (h : s.diesDiffer t) (h' : t.diesDiffer u) : s.diesDiffer u := by
  obtain ⟨hm, ds, rfl⟩ := h
  obtain ⟨hm', ds', rfl⟩ := h'
  exact ⟨hm'.trans hm, ds', rfl⟩

/-- A change of a die that leaves its translations alone. -/
theorem onDie_differs (d : Nat) {f : Die → Die} (hf : ∀ x, (f x).tlb = x.tlb ∧ (f x).walks = x.walks ∧ (f x).inReset = x.inReset)
    (s : State) : s.diesDiffer (s.onDie d f) := by
  have hdie (n : Nat) : ((s.onDie d f).die n).tlb = (s.die n).tlb ∧ ((s.onDie d f).die n).walks = (s.die n).walks ∧
      ((s.onDie d f).die n).inReset = (s.die n).inReset := by
    unfold State.onDie State.die
    split
    next hn =>
      split
      next hd =>
        by_cases h : d = n
        · subst h
          rw [Vector.getElem_set_self]
          exact hf _
        · rw [Vector.getElem_set_ne hd hn h]
          exact ⟨rfl, rfl, rfl⟩
      next => exact ⟨rfl, rfl, rfl⟩
    next => exact ⟨rfl, rfl, rfl⟩
  have heq := onDie_eq d f s
  have htlb : (fun n => ((s.onDie d f).die n).tlb) = fun n => (s.die n).tlb := funext (fun n => (hdie n).1)
  have hwalks : (fun n => ((s.onDie d f).die n).walks) = fun n => (s.die n).walks := funext (fun n => (hdie n).2.1)
  have hres : (fun n => ((s.onDie d f).die n).inReset) = fun n => (s.die n).inReset := funext (fun n => (hdie n).2.2)
  refine ⟨?_, _, heq⟩
  unfold State.mapping
  rw [htlb, hwalks, hres, heq]

theorem cacheFill_differs (s : State) (d pa : Nat) (uo : Bool) : s.diesDiffer (s.cacheFill d pa uo) :=
  onDie_differs d (f := fun x => { x with cache := (s.freshLine d pa uo :: x.cache.filter (fun l => l.pa ≠ pa / 64)).take Config.cacheLines })
    (fun _ => ⟨rfl, rfl, rfl⟩) s

theorem cacheWrite_differs (s : State) (d : Nat) (bs : List (Nat × Byte)) (ts : List (Nat × Word)) : s.diesDiffer (s.cacheWrite d bs ts) :=
  onDie_differs d (f := fun x => { x with cache := x.cache.map (fun l => l.write bs ts) }) (fun _ => ⟨rfl, rfl, rfl⟩) s

/-- What a granule at home adds to its request. -/
theorem leaveGranule_phys (d : Nat) (r : MemReq) (s : State) (g pa : Nat) (pte : Word) :
    r.goes (State.leaveGranule d (r, s) (g, .phys pa pte)).1 ∧ s.diesDiffer (State.leaveGranule d (r, s) (g, .phys pa pte)).2 ∧
      (∃ p, (State.leaveGranule d (r, s) (g, .phys pa pte)).1.pas = r.pas ++ p ∧ ((∃ c ∈ r.cells, c.1 / 64 = g / 64) → p ≠ [])) ∧
      (∃ p, (State.leaveGranule d (r, s) (g, .phys pa pte)).1.paTags = r.paTags ++ p ∧ ((∃ t ∈ r.tags, t.1 = g / 64) → p ≠ [])) := by
  unfold State.leaveGranule
  dsimp only
  refine ⟨⟨_, _, _, _, rfl⟩, ?_, ⟨_, rfl, fun ⟨c, hc, hg⟩ hnil => ?_⟩, ⟨_, rfl, fun ⟨t, ht, hg⟩ => ?_⟩⟩
  · split
    · refine diesDiffer_trans ?_ (cacheWrite_differs ..)
      split
      · exact diesDiffer_refl s
      · exact cacheFill_differs ..
    · exact diesDiffer_refl s
  · have hm : c ∈ r.cells.filter (fun c => c.1 / 64 = g / 64) := List.mem_filter.2 ⟨hc, by simpa using hg⟩
    rw [List.map_eq_nil_iff.1 hnil] at hm
    exact absurd hm List.not_mem_nil
  · have hs : (r.tags.find? (fun t => t.1 = g / 64)).isSome = true := List.find?_isSome.2 ⟨t, ht, by simpa using hg⟩
    obtain ⟨x, hx⟩ := Option.isSome_iff_exists.1 hs
    simp [hx]

/-- Every place is in memory. -/
def allPhys (locs : List Loc) : Prop := ∀ l ∈ locs, ∃ pa pte, l = .phys pa pte

/-- What the granules of a part add to its request. -/
theorem leaveGranules_phys (d : Nat) (ps : List (Nat × Loc)) (h : allPhys (ps.map Prod.snd)) (r : MemReq) (s : State) :
    r.goes (ps.foldl (State.leaveGranule d) (r, s)).1 ∧ s.diesDiffer (ps.foldl (State.leaveGranule d) (r, s)).2 ∧
      ((r.pas ≠ [] ∨ r.paTags ≠ [] ∨ ∃ g ∈ ps.map Prod.fst, (∃ c ∈ r.cells, c.1 / 64 = g / 64) ∨ ∃ t ∈ r.tags, t.1 = g / 64) →
        (ps.foldl (State.leaveGranule d) (r, s)).1.pas ≠ [] ∨ (ps.foldl (State.leaveGranule d) (r, s)).1.paTags ≠ []) := by
  induction ps generalizing r s with
  | nil =>
    refine ⟨⟨_, _, _, _, rfl⟩, diesDiffer_refl s, fun hne => ?_⟩
    rcases hne with hp | ht | ⟨g, hg, -⟩
    · exact .inl hp
    · exact .inr ht
    · exact absurd hg List.not_mem_nil
  | cons p ps ih =>
    obtain ⟨g, l⟩ := p
    obtain ⟨pa, pte, rfl⟩ := h l List.mem_cons_self
    obtain ⟨hgo, hdiff, ⟨np, hpas, hnp⟩, ⟨nt, htags, hnt⟩⟩ := leaveGranule_phys d r s g pa pte
    rw [List.foldl_cons]
    generalize State.leaveGranule d (r, s) (g, .phys pa pte) = acc at *
    obtain ⟨x, v⟩ := acc
    obtain ⟨hgo', hdiff', hne'⟩ := ih (fun l hl => h l (List.mem_cons_of_mem _ hl)) x v
    refine ⟨goes_trans hgo hgo', diesDiffer_trans hdiff hdiff', fun hne => hne' ?_⟩
    have hxr : x.cells = r.cells ∧ x.tags = r.tags := by
      obtain ⟨_, _, _, _, rfl⟩ := hgo
      exact ⟨rfl, rfl⟩
    dsimp only at hpas htags
    rw [hpas, htags, hxr.1, hxr.2]
    rcases hne with hp | ht | ⟨g', hg', hw⟩
    · exact .inl (fun e => hp (List.append_eq_nil_iff.1 e).1)
    · exact .inr (.inl (fun e => ht (List.append_eq_nil_iff.1 e).1))
    · rcases List.mem_cons.1 hg' with rfl | hg'
      · rcases hw with hw | hw
        · exact .inl (fun e => hnp hw (List.append_eq_nil_iff.1 e).2)
        · exact .inr (.inl (fun e => hnt hw (List.append_eq_nil_iff.1 e).2))
      · exact .inr (.inr ⟨g', hg', hw⟩)

theorem locateAllVia_length {s : State} {l : List TlbEntry} {me : Nat} {a : Arch} {remap : Bool} {k : Acc} {shadow : Bool} {vas : List Nat}
    {locs : List Loc} (h : s.locateAllVia l me a remap k shadow vas = .ok locs) : locs.length = vas.length := by
  induction vas generalizing locs with
  | nil =>
    cases h
    rfl
  | cons va vas ih =>
    unfold State.locateAllVia at h
    split at h
    · cases h
    · split at h
      · cases h
      next ls heq =>
        cases h
        rw [List.length_cons, List.length_cons, ih heq]

/-- A request as it stands in the list of outstanding writes. -/
def State.dated (s : State) (x : MemReq) : MemReq := { x with order := (s.die x.die).stores, ticks := some s.frame.toNat }

/-- A write whose places are all in memory leaves for home. -/
theorem sendWrite_phys {r : MemReq} {ps : List (Nat × Loc)} {s : State} (h : allPhys (ps.map Prod.snd))
    (hne : ∃ g ∈ ps.map Prod.fst, (∃ c ∈ r.cells, c.1 / 64 = g / 64) ∨ ∃ t ∈ r.tags, t.1 = g / 64) :
    ∃ x t n, r.goes x ∧ s.diesDiffer t ∧
      s.sendWrite r ps = t.modCore (fun c => { c with outq := c.outq ++ [{ x with order := n, ticks := some s.frame.toNat }] }) := by
  obtain ⟨hgo, hdiff, hsome⟩ := leaveGranules_phys r.die ps h r s
  have hsome := hsome (.inr (.inr hne))
  unfold State.sendWrite
  dsimp only
  generalize ps.foldl (State.leaveGranule r.die) (r, s) = acc at *
  obtain ⟨x, v⟩ := acc
  dsimp only at hgo hdiff hsome ⊢
  have hf : v.frame = s.frame := congrArg Mapping.frame hdiff.1
  rw [if_neg (by simpa [Decidable.imp_iff_not_or] using hsome), hf]
  exact ⟨x, _, _, hgo, diesDiffer_trans hdiff (onDie_differs _ (f := fun y => { y with stores := y.stores + 1 })
    (fun _ => ⟨rfl, rfl, rfl⟩) v), rfl⟩

/-- The machine while the parts of an entry leave: `rest` is what stays in the pier, `out` what has left. -/
def State.storing (u : State) (rest : List PierEntry) (out : List MemReq) (v : State) : Prop :=
  v.mapping = u.mapping ∧ v.stored = { u.stored with pier := rest, outq := u.core.outq ++ out, memq := v.core.a.memq } ∧
    ∀ x ∈ v.core.a.memq, x ∈ u.core.a.memq

/-- A part of an entry as it joins the mem queue. -/
def State.parked (s : State) (e : PierEntry) (gs : List Nat) : MemReq :=
  { storeReq s.core.a.ctx e gs with
    tva := s.core.a.translated true (gs.headD 0), die := dieOf s.core.id,
    held := s.core.a.memq.any (fun x => x.held && x.inQueue e.drain.isSome && decide (x.id < e.id)) }

theorem leavePart_eq (e : PierEntry) (s : State) (gs : List Nat) : s.leavePart e gs =
    (s.modA (fun a => { a with memq := a.memq ++ [s.parked e gs] })).sendStore (s.parked e gs) := rfl

section LeavePart

variable {u v : State} {e : PierEntry} {gs : List Nat} {rest : List PierEntry} {out : List MemReq}

/-- Whether nothing keeps a part in the queue. -/
def State.partFree (u : State) (e : PierEntry) (gs : List Nat) : Prop :=
  gs = granuleVas (gs.headD 0) (64 * gs.length) ∧
    ∀ r : MemReq, r.id = e.id → r.lo = gs.headD 0 → r.n = 64 * gs.length → r.load = none → r.drain = none →
      u.storeBehind r = false ∧ u.partWalks r = false

theorem parked_not_held (hheld : u.core.a.memq.all (fun r => !r.held) = true) (hs : u.storing rest out v) : (v.parked e gs).held = false := by
  obtain ⟨-, -, hsub⟩ := hs
  refine List.any_eq_false.2 (fun x hx => ?_)
  have h : x.held = false := by simpa using List.all_eq_true.1 hheld x (hsub x hx)
  simp [h]

/-- A part that nothing keeps tries its places. -/
theorem leavePart_tries (hheld : u.core.a.memq.all (fun r => !r.held) = true) (hd : e.drain = none) (hs : u.storing rest out v)
    (hfree : u.partFree e gs) : v.leavePart e gs =
      (match u.locateAllVia u.core.tlb1 u.core.id u.core.a true .write false gs with
       | .error (c, x) => (v.modA (fun a => { a with memq := a.memq ++ [v.parked e gs] })).holdFrom false e.id c
          (if x.toNat / 64 = e.va.toNat / 64 then e.va else x)
       | .ok locs => ((v.modA (fun a => { a with memq := a.memq ++ [v.parked e gs] })).unpark (v.parked e gs)).sendWrite (v.parked e gs)
          (gs.zip locs)) := by
  have hnh := parked_not_held (e := e) (gs := gs) hheld hs
  obtain ⟨hm, -, hsub⟩ := hs
  obtain ⟨hgs, hfr⟩ := hfree
  obtain ⟨r, hr⟩ : ∃ r, r = v.parked e gs := ⟨_, rfl⟩
  obtain ⟨w, hw⟩ : ∃ w, w = v.modA (fun a => { a with memq := a.memq ++ [r] }) := ⟨_, rfl⟩
  have hrd : r.drain = none := by rw [hr]; exact hd
  have hwm : w.mapping = u.mapping := by rw [hw]; exact hm
  have hrid : r.id = e.id := by rw [hr]; rfl
  have hrlo : r.lo = gs.headD 0 := by rw [hr]; rfl
  have hrn : r.n = 64 * gs.length := by rw [hr]; rfl
  have hrva : r.va = e.va := by rw [hr]; rfl
  obtain ⟨hb, hwk⟩ := hfr r hrid hrlo hrn (by rw [hr]; rfl) hrd
  have hb' : w.storeBehind r = false := storeBehind_of_mapping hwm (fun x hx => by
    rw [hw] at hx
    rcases List.mem_append.1 hx with hx | hx
    · exact .inl (hsub x hx)
    · rw [List.mem_singleton.1 hx]
      exact .inr (lt_irrefl _)) hb
  have hwk' : w.partWalks r = false := (partWalks_of_mapping hwm r).trans hwk
  have hid : w.core.id = u.core.id := congrArg Mapping.id hwm
  have htlb : w.core.tlb1 = u.core.tlb1 := congrArg Mapping.tlb1 hwm
  rw [leavePart_eq, ← hr, ← hw, State.sendStore, hb', hwk', hrlo, hrn, ← hgs, hrd, hrva, hrid]
  rw [← hr] at hnh
  rw [hnh, if_neg (by decide)]
  change (match w.locateAllVia w.core.tlb1 w.core.id w.core.a true .write false gs with
    | .error (c, x) => w.holdFrom false e.id c (if x.toNat / 64 = e.va.toNat / 64 then e.va else x)
    | .ok locs => (w.unpark r).sendWrite r (gs.zip locs)) = _
  rw [hid, htlb, locateAllVia_of_mapping hwm]

/-- A part whose places are all in memory leaves for home. -/
theorem leavePart_sent (hheld : u.core.a.memq.all (fun r => !r.held) = true) (hd : e.drain = none) (hs : u.storing rest out v)
    (hfree : u.partFree e gs) {locs : List Loc} (hloc : u.locateAllVia u.core.tlb1 u.core.id u.core.a true .write false gs = .ok locs)
    (hphys : allPhys locs) (hsub : ∀ g ∈ gs, g ∈ e.granules) (hne : gs ≠ []) :
    ∃ x : MemReq, u.storing rest (out ++ [x]) (v.leavePart e gs) ∧ x.cells = e.cellsIn gs ∧ x.tags = e.tagsIn gs ∧
      x.id = e.id ∧ x.va = e.va ∧ x.ticks = some u.frame.toNat ∧ x.held = false ∧ x.drain = none := by
  have hnh := parked_not_held (e := e) (gs := gs) hheld hs
  have htry := leavePart_tries hheld hd hs hfree
  rw [hloc] at htry
  dsimp only at htry
  obtain ⟨hm, hst, hq⟩ := hs
  obtain ⟨g, gs', rfl⟩ := List.exists_cons_of_ne_nil hne
  have hlen := locateAllVia_length hloc
  obtain ⟨l, locs', rfl⟩ := List.exists_cons_of_ne_nil (l := locs) (fun e => by rw [e] at hlen; cases hlen)
  have hw := granule_written (e := e) (gs := g :: gs') List.mem_cons_self (hsub g List.mem_cons_self)
  obtain ⟨r, hr⟩ : ∃ r, r = v.parked e (g :: gs') := ⟨_, rfl⟩
  obtain ⟨w, hwdef⟩ : ∃ w, w = (v.modA (fun a => { a with memq := a.memq ++ [r] })).unpark r := ⟨_, rfl⟩
  rw [← hr, ← hwdef] at htry
  have hrc : r.cells = e.cellsIn (g :: gs') := by rw [hr]; rfl
  have hrt : r.tags = e.tagsIn (g :: gs') := by rw [hr]; rfl
  obtain ⟨x, t, n, hgo, hdiff, hsend⟩ := sendWrite_phys (r := r) (ps := (g :: gs').zip (l :: locs')) (s := w)
    (fun y hy => by
      obtain ⟨p, hp, rfl⟩ := List.mem_map.1 hy
      exact hphys _ (List.of_mem_zip hp).2)
    ⟨g, List.mem_map.2 ⟨(g, l), List.mem_cons_self, rfl⟩, by rw [hrc, hrt]; exact hw⟩
  rw [hsend] at htry
  obtain ⟨p, tg, k, ch, rfl⟩ := hgo
  obtain ⟨hdm, ds, ht⟩ := hdiff
  have hwf : w.frame = u.frame := by rw [hwdef]; exact congrArg Mapping.frame hm
  rw [hwf] at htry
  refine ⟨{ r with pas := p, paTags := tg, kind := k, cached := ch, order := n, ticks := some u.frame.toNat }, ⟨?_, ?_, ?_⟩, hrc, hrt, by rw [hr]; rfl, by rw [hr]; rfl, rfl, by rw [hr]; exact hnh, by rw [hr]; exact hd⟩
  · have hwm : w.mapping = u.mapping := by rw [hwdef]; exact hm
    rw [htry]
    exact hdm.trans hwm
  · rw [htry, ht, hwdef]
    have houtq : v.core.outq = u.core.outq ++ out := congrArg Stored.outq hst
    have h (x : MemReq) (q : List MemReq) : { v.stored with outq := v.core.outq ++ [x], memq := q } =
        ({ u.stored with pier := rest, outq := u.core.outq ++ (out ++ [x]), memq := q } : Stored) := by
      rw [hst, houtq, List.append_assoc]
    exact h _ _
  · intro y hy
    rw [htry, ht, hwdef] at hy
    obtain ⟨hy, hkeep⟩ := List.mem_filter.1 hy
    rcases List.mem_append.1 hy with hy | hy
    · exact hq y hy
    · rw [List.mem_singleton.1 hy] at hkeep
      simp at hkeep

end LeavePart

theorem runsOf_ne_nil {α : Type} [DecidableEq α] (key : Nat → α) (l : List Nat) : ∀ gs ∈ runsOf key l, gs ≠ [] := by
  induction l with
  | nil => exact fun gs h => absurd h List.not_mem_nil
  | cons x xs ih =>
    unfold runsOf
    split
    next y ys gs heq =>
      rw [heq] at ih
      have hrest : ∀ g ∈ gs, g ≠ [] := fun g hg => ih g (List.mem_cons_of_mem _ hg)
      split
      · exact List.forall_mem_cons.2 ⟨List.cons_ne_nil _ _, hrest⟩
      · exact List.forall_mem_cons.2 ⟨List.cons_ne_nil _ _, List.forall_mem_cons.2 ⟨List.cons_ne_nil _ _, hrest⟩⟩
    next => exact List.forall_mem_cons.2 ⟨List.cons_ne_nil _ _, ih⟩

/-- What a part of an entry is as an outstanding write. -/
def MemReq.partOf (r : MemReq) (e : PierEntry) (frame : Nat) : Prop :=
  r.id = e.id ∧ r.va = e.va ∧ r.ticks = some frame ∧ r.held = false ∧ r.drain = none

/-- Parts that nothing keeps and whose places are all in memory leave for home one after the other. -/
theorem leaveParts_sent {u : State} {e : PierEntry} {rest : List PierEntry} (hheld : u.core.a.memq.all (fun r => !r.held) = true)
    (hd : e.drain = none) (parts : List (List Nat))
    (h : ∀ gs ∈ parts, u.partFree e gs ∧ (∃ locs, u.locateAllVia u.core.tlb1 u.core.id u.core.a true .write false gs = .ok locs ∧ allPhys locs) ∧
      (∀ g ∈ gs, g ∈ e.granules) ∧ gs ≠ []) (out : List MemReq) (v : State) (hs : u.storing rest out v) :
    ∃ rs : List MemReq, u.storing rest (out ++ rs) (parts.foldl (State.leavePart e) v) ∧ rs.map MemReq.cells = parts.map e.cellsIn ∧
      rs.map MemReq.tags = parts.map e.tagsIn ∧ ∀ r ∈ rs, r.partOf e u.frame.toNat := by
  induction parts generalizing out v with
  | nil => exact ⟨[], by rwa [List.append_nil], rfl, rfl, fun r hr => absurd hr List.not_mem_nil⟩
  | cons gs parts ih =>
    obtain ⟨hfree, ⟨locs, hloc, hphys⟩, hsub, hne⟩ := h gs List.mem_cons_self
    obtain ⟨x, hst, hcells, htags, hprops⟩ := leavePart_sent hheld hd hs hfree hloc hphys hsub hne
    obtain ⟨rs, hst', hcells', htags', hprops'⟩ := ih (fun g hg => h g (List.mem_cons_of_mem _ hg)) _ _ hst
    refine ⟨x :: rs, ?_, ?_, ?_, List.forall_mem_cons.2 ⟨hprops, hprops'⟩⟩
    · rwa [List.append_assoc] at hst'
    · rw [List.map_cons, List.map_cons, hcells, hcells']
    · rw [List.map_cons, List.map_cons, htags, htags']

/-- The machine with the oldest entry out of the pier. -/
def State.popPier (s : State) : State := s.modCore (fun c => { c with pier := c.pier.tail })

theorem headLeaves_eq {c : Core} {e : PierEntry} {rest : List PierEntry} (hp : c.pier = e :: rest) (hc : c.checked e = true)
    (hh : c.a.holds e = false) (hl : c.leaveAllowed e = true) (hroom : e.spad = true ∨ c.room e.granules.length = true) :
    c.headLeaves = some e := by
  unfold Core.headLeaves
  rw [hp]
  refine if_pos ?_
  rw [hc, hh, hl]
  rcases hroom with h | h <;> simp [h]

theorem exec_pierEntryLeave {s : State} {e : PierEntry} (hl : s.there.core.headLeaves = some e) (hc : e.cmd = none)
    (hf : s.input.flag2 = false) : exec .pierEntryLeave s =
      .next (if e.spad then s.there.popPier.leaveSpad e else s.there.popPier.leaveStore e).prunePoints := by
  change Host.Outcome.next (s.there.pierLeave (if s.input.flag2 then some s.input.first else none) s.input.value) = _
  rw [hf]
  unfold State.pierLeave
  rw [hl]
  dsimp only
  rw [hc]
  rfl

/-- An entry that meets no poisoned granule lands whole in its bank. -/
theorem leaveSpad_clean {s : State} {e : PierEntry} (h : ∀ g ∈ e.granules, isPoison (cellGet 0 s.core.spadTags (g / 64)) = false) :
    s.leaveSpad e = s.modCore (fun c => c.writeSpad e.cells e.tags) := by
  unfold State.leaveSpad
  dsimp only
  have hgone : ((e.granules.map (fun g => g / 64)).filter (fun g => isPoison (cellGet 0 s.core.spadTags g) &&
      (e.tags.all (fun t => t.1 ≠ g) || (e.cells.filter (fun c => c.1 / 64 = g)).length < 64))) = [] := by
    refine List.filter_eq_nil_iff.2 (fun g hg => ?_)
    obtain ⟨x, hx, rfl⟩ := List.mem_map.1 hg
    rw [h x hx, Bool.false_and]
    exact Bool.false_ne_true
  rw [hgone]
  exact congrArg₂ (fun cs ts => s.modCore (fun c => c.writeSpad cs ts)) (List.filter_eq_self.2 (fun _ _ => rfl))
    (List.filter_eq_self.2 (fun _ _ => rfl))

section OffCore

variable {u : State} {e : PierEntry} {rest : List PierEntry}

theorem popPier_storing (hp : u.core.pier = e :: rest) : u.storing rest [] u.popPier := by
  refine ⟨rfl, ?_, fun _ h => h⟩
  change ({ u.stored with pier := u.core.pier.tail } : Stored) = _
  rw [hp, List.append_nil]
  rfl

theorem leaveStore_eq (u : State) (e : PierEntry) : u.popPier.leaveStore e =
    (runsOf u.partKey e.granules).foldl (State.leavePart e) u.popPier :=
  congrArg (fun key => (runsOf key e.granules).foldl (State.leavePart e) u.popPier) (partKey_of_mapping (s := u) (t := u.popPier) rfl)

/-- An off-core store that nothing keeps leaves for home. -/
theorem leaveStore_sent (hp : u.core.pier = e :: rest) (hd : e.drain = none) (hheld : u.core.a.memq.all (fun r => !r.held) = true)
    (hparts : ∀ gs ∈ runsOf u.partKey e.granules, u.partFree e gs)
    (hloc : ∀ gs ∈ runsOf u.partKey e.granules, ∃ locs, u.locateAllVia u.core.tlb1 u.core.id u.core.a true .write false gs = .ok locs ∧
      allPhys locs) :
    ∃ rs : List MemReq, u.storing rest rs (u.popPier.leaveStore e) ∧ rs.length = (runsOf u.partKey e.granules).length ∧
      (∀ r ∈ rs, r.partOf e u.frame.toNat) ∧
      (∀ c, c ∈ rs.flatMap (fun r => r.cells) ↔ c ∈ e.cells) ∧ ∀ g, g ∈ rs.flatMap (fun r => r.tags) ↔ g ∈ e.tags := by
  have hflat : (runsOf u.partKey e.granules).flatten = e.granules := runsOf_flatten ..
  obtain ⟨rs, hst, hcells, htags, hprops⟩ := leaveParts_sent hheld hd _ (fun gs hgs => ⟨hparts gs hgs, hloc gs hgs,
    fun g hg => by rw [← hflat]; exact List.mem_flatten.2 ⟨gs, hgs, hg⟩, runsOf_ne_nil _ _ gs hgs⟩) [] u.popPier (popPier_storing hp)
  rw [leaveStore_eq]
  refine ⟨rs, hst, ?_, hprops, fun c => ?_, fun t => ?_⟩
  · have hlen := congrArg List.length hcells
    rwa [List.length_map, List.length_map] at hlen
  · rw [← mem_cellsIn hflat, List.flatMap_def, hcells]
    simp
  · rw [← mem_tagsIn hflat, List.flatMap_def, htags]
    simp

/-- An off-core store of one part that meets a fault waits, held. -/
theorem leaveStore_fault {c : Cause} {x : Word} (hp : u.core.pier = e :: rest) (hd : e.drain = none)
    (hheld : u.core.a.memq.all (fun r => !r.held) = true) (hone : runsOf u.partKey e.granules = [e.granules])
    (hpart : u.partFree e e.granules) (herr : u.locateAllVia u.core.tlb1 u.core.id u.core.a true .write false e.granules = .error (c, x)) :
    ∃ y r, (u.popPier.leaveStore e).stored = { u.stored with
      pier := rest, deferred := u.core.a.deferred ++ [⟨c, y⟩], outq := (u.popPier.leaveStore e).core.outq,
      memq := (u.popPier.leaveStore e).core.a.memq } ∧ (u.popPier.leaveStore e).core.outq.length = u.core.outq.length ∧
      r ∈ (u.popPier.leaveStore e).core.a.memq ∧ r.id = e.id ∧ r.held = true ∧ r.cells = e.cells ∧ r.tags = e.tags := by
  have htry := leavePart_tries hheld hd (popPier_storing hp) hpart
  rw [herr] at htry
  have hstore : u.popPier.leaveStore e = u.popPier.leavePart e e.granules := by
    rw [leaveStore_eq, hone]
    rfl
  obtain ⟨r, hr⟩ : ∃ r, r = u.popPier.parked e e.granules := ⟨_, rfl⟩
  obtain ⟨y, hy⟩ : ∃ y, y = if x.toNat / 64 = e.va.toNat / 64 then e.va else x := ⟨_, rfl⟩
  obtain ⟨w, hw⟩ : ∃ w, w = (u.popPier.modA (fun a => { a with memq := a.memq ++ [r] })).holdFrom false e.id c y := ⟨_, rfl⟩
  dsimp only at htry
  rw [← hr, ← hy, ← hw] at htry
  rw [hstore, htry]
  have hrd : r.drain = none := by rw [hr]; exact hd
  have hrc : r.cells = e.cellsIn e.granules := by rw [hr]; rfl
  have hrt : r.tags = e.tagsIn e.granules := by rw [hr]; rfl
  have hid : r.id = e.id := by rw [hr]; rfl
  have hgot : r.got = none := by rw [hr]; rfl
  have hrcmd : r.cmd = none := by rw [hr]; rfl
  have hpop : u.popPier.core.pier = rest := congrArg List.tail hp
  obtain ⟨hcs, hts⟩ := cellsIn_all e
  refine ⟨y, { r with held := true }, ?_, ?_, ?_, hid, rfl, hrc.trans hcs, hrt.trans hts⟩
  · rw [hw, ← hpop]
    rfl
  · rw [hw]
    exact List.length_map ..
  · rw [hw]
    refine List.mem_map.2 ⟨r, List.mem_append_right _ (List.mem_singleton_self r), if_pos ?_⟩
    have hq : r.inQueue false = true := by
      unfold MemReq.inQueue
      rw [hrd, hrcmd]
      rfl
    rw [hid, hq, hgot]
    simp

end OffCore

theorem pierEntryLeaves : Claims.PierEntryLeaves := by
  intro s e rest u hp hck hh hla hcmd hok hflag parts find free
  refine ⟨fun hspad hclean => ?_, fun hspad hd ⟨hroom, hheld, hparts⟩ hloc => ?_, fun c x hspad hd ⟨hroom, hheld, hparts⟩ hone herr => ?_⟩
  · have hex := exec_pierEntryLeave (headLeaves_eq hp hck hh hla (.inl hspad)) hcmd hflag
    rw [if_pos hspad, leaveSpad_clean (s := s.there.popPier) hclean] at hex
    refine ⟨_, hex, ?_⟩
    have hst := prunePoints_stored (u.popPier.modCore (fun c => c.writeSpad e.cells e.tags))
    obtain ⟨hw, hwt⟩ := Bool.and_eq_true_iff.1 hok
    refine ⟨(congrArg Stored.pier hst).trans (congrArg List.tail hp), congrArg Stored.mem hst, congrArg Stored.memTags hst, fun a => ?_,
      fun g => ?_, congrArg Stored.outq hst⟩
    · exact (congrArg (fun x : Stored => cellGet 0 x.spad a) hst).trans (cellGet_cellSets 0 e.cells u.core.spad a hw)
    · exact (congrArg (fun x : Stored => cellGet 0 x.spadTags g) hst).trans (cellGet_cellSets 0 e.tags u.core.spadTags g hwt)
  · have hex := exec_pierEntryLeave (headLeaves_eq hp hck hh hla (.inr hroom)) hcmd hflag
    rw [if_neg (by rw [hspad]; decide)] at hex
    obtain ⟨rs, ⟨-, hst, -⟩, hlen, hprops, hcells, htags⟩ := leaveStore_sent hp hd hheld hparts hloc
    have hst := (prunePoints_stored (u.popPier.leaveStore e)).trans hst
    exact ⟨_, rs, hex, congrArg Stored.pier hst, congrArg Stored.outq hst, hlen, hprops, hcells, htags, congrArg Stored.mem hst,
      congrArg Stored.memTags hst, congrArg Stored.spad hst⟩
  · have hex := exec_pierEntryLeave (headLeaves_eq hp hck hh hla (.inr hroom)) hcmd hflag
    rw [if_neg (by rw [hspad]; decide)] at hex
    obtain ⟨y, r, hst, hlen, hmem, hr⟩ := leaveStore_fault hp hd hheld hone (hparts e.granules (by rw [hone]; exact List.mem_singleton_self _)) herr
    obtain ⟨w, hw⟩ : ∃ w, w = u.popPier.leaveStore e := ⟨_, rfl⟩
    rw [← hw] at hst hlen hmem
    rw [show s.there.popPier.leaveStore e = w from hw.symm] at hex
    have hpr := prunePoints_stored w
    have hst := hpr.trans hst
    refine ⟨_, y, r, hex, congrArg Stored.deferred hst, congrArg Stored.pier hst, ?_, hr.1, hr.2.1, hr.2.2.1, hr.2.2.2, ?_,
      congrArg Stored.mem hst, congrArg Stored.spad hst⟩
    · exact (congrArg (fun q : Stored => r ∈ q.memq) hpr).mpr hmem
    · exact (congrArg (fun q : Stored => q.outq.length) hpr).trans hlen

/-! ### An outstanding write ends (R121 to R123, R125) -/

theorem readAfter_filter {α : Type} (d : α) (m cs : List (Nat × α)) (p : Nat → Bool) (a : Nat) (h : p a = true) :
    readAfter d m (cs.filter (fun x => p x.1)) a = readAfter d m cs a := by
  unfold readAfter
  rw [← List.filter_reverse, List.find?_filter]
  have hp : (fun x : Nat × α => decide (p x.1 = true ∧ decide (x.1 = a) = true)) = fun x => decide (x.1 = a) := by
    funext x
    by_cases hx : x.1 = a
    · simp [hx, h]
    · simp [hx]
  rw [hp]

theorem landWrite_core (r : MemReq) (gone : List Nat) (s : State) : (s.landWrite r gone).core = s.core :=
  foldl_preserves State.core (fun s g => onDie_core ..) gone _

theorem landWrite_clean (r : MemReq) (s : State) : s.landWrite r [] = s.writePhys r.pas r.paTags := by
  unfold State.landWrite
  rw [List.foldl_nil]
  exact congrArg₂ s.writePhys (List.filter_eq_self.2 (fun _ _ => rfl)) (List.filter_eq_self.2 (fun _ _ => rfl))

theorem finishCmd_stored (q : CopyQ) (k : CopyCmd) (x : Word) (s : State) : (s.finishCmd q k x).stored = s.stored := by
  have hfill (a : Arch) : (a.fillS k.tok x).deferred = a.deferred ∧ (a.fillS k.tok x).memq = a.memq := by
    unfold Arch.fillS
    split <;> exact ⟨rfl, rfl⟩
  have hfor (s : State) : (s.fillFor k.ctx k.tcb k.tok x).stored = s.stored := by
    unfold State.fillFor State.onTaskArch State.stored
    dsimp only
    split
    · dsimp only
      rw [(hfill _).1, (hfill _).2]
    · rfl
  have hdrop : (s.dropCmd q k.id).stored = s.stored := by cases q <;> rfl
  exact (prunePoints_stored _).trans ((hfor _).trans hdrop)

theorem writeOver_stored (r : MemReq) (s : State) : (s.writeOver r).stored = s.stored := by
  unfold State.writeOver
  refine (prunePoints_stored _).trans ?_
  split
  · unfold State.settle
    split
    · split
      · exact finishCmd_stored ..
      · rfl
    · rfl
  · rfl

section Outstanding

variable {u : State} {r : MemReq}

theorem acknowledge_lands {idx : Nat} (hr : u.core.outq[idx]? = some r) (ha : u.ackReady r = true) (he : u.expired r.ctx r.ticks = false)
    (hp : u.poisonedBy r = []) : u.acknowledge idx = ((u.writePhys r.pas r.paTags).retire r).writeOver r := by
  unfold State.acknowledge
  rw [hr]
  dsimp only
  rw [ha, he, hp, landWrite_clean]
  rfl

theorem acknowledge_expired {idx : Nat} (hr : u.core.outq[idx]? = some r) (ha : u.ackReady r = true) (he : u.expired r.ctx r.ticks = true) :
    u.acknowledge idx = (u.expireWrite r true).prunePoints := by
  unfold State.acknowledge
  rw [hr]
  dsimp only
  rw [ha, he]
  rfl

theorem exec_requestTimeout_store {s : State} (h1 : s.input.first = 1) :
    exec .requestTimeout s = .next (s.there.expireStore s.input.idx s.input.flag) := by
  change execRequestTimeout s = _
  unfold execRequestTimeout
  dsimp only
  rw [h1]
  rfl

theorem expireStore_eq {idx : Nat} {landed : Bool} (hr : u.core.outq[idx]? = some r) (hh : r.held = false)
    (he : u.expired r.ctx r.ticks = true) (ha : landed = true → u.ackReady r = true) :
    u.expireStore idx landed = (u.expireWrite r landed).prunePoints := by
  unfold State.expireStore
  rw [hr]
  dsimp only
  rw [hh, he]
  cases landed with
  | false => rfl
  | true =>
    rw [ha rfl]
    rfl

/-- A write that has expired leaves the outstanding ones, and its TIMEOUT is deferred. -/
theorem expireWrite_effect (landed : Bool) (hc : r.cmd = none) :
    (∀ x ∈ (u.expireWrite r landed).prunePoints.core.outq, r.same x = false) ∧
      (u.expireWrite r landed).prunePoints.core.a.deferred = u.core.a.deferred ++ [⟨.timeout, r.va⟩] ∧
      (landed = false → (u.expireWrite r landed).prunePoints.mem = u.mem) := by
  obtain ⟨v, hv⟩ : ∃ v, v = if landed then u.landWrite r (u.poisonedBy r) else u := ⟨_, rfl⟩
  have hcore : v.core = u.core := by
    rw [hv]
    split
    · exact landWrite_core ..
    · rfl
  have hex : u.expireWrite r landed = (v.retire r).holdFrom r.drain.isSome r.id .timeout r.va := by
    unfold State.expireWrite State.writeFault
    rw [hc, ← hv]
  have hst := prunePoints_stored ((v.retire r).holdFrom r.drain.isSome r.id .timeout r.va)
  rw [hex]
  refine ⟨fun x hx => ?_, (congrArg Stored.deferred hst).trans ?_, fun hl => (congrArg Stored.mem hst).trans ?_⟩
  · have hx' : x ∈ (Core.held r.drain.isSome r.id (v.retire r).core).outq := (congrArg (fun q : Stored => x ∈ q.outq) hst).mp hx
    obtain ⟨y, hy, rfl⟩ := List.mem_map.1 hx'
    have hsame : r.same y = false := by simpa using (List.mem_filter.1 hy).2
    split <;> exact hsame
  · change v.core.a.deferred ++ _ = _
    rw [hcore]
  · change v.mem = u.mem
    rw [hv, hl]
    rfl

end Outstanding

theorem storeEndsAtHome : Claims.StoreEndsAtHome := by
  intro s r u hr
  refine ⟨fun hw hwt ha he hp => ?_, fun ha he hc => ?_, fun h1 hh he hc ha => ?_⟩
  · have hex : exec .storeAcknowledgement s = .next (((u.writePhys r.pas r.paTags).retire r).writeOver r) :=
      congrArg Host.Outcome.next (acknowledge_lands hr ha he hp)
    have hst := writeOver_stored r ((u.writePhys r.pas r.paTags).retire r)
    refine ⟨_, hex, congrArg Stored.outq hst, fun a => ?_, fun g hg => ?_, congrArg Stored.spad hst, congrArg Stored.deferred hst⟩
    · exact (congrArg (fun x : Stored => cellGet 0 x.mem a) hst).trans (cellGet_cellSets 0 r.pas u.mem a hw)
    · refine (congrArg (fun x : Stored => cellGet 0 x.memTags g) hst).trans ((cellGet_cellSets 0 _ u.memTags g hwt).trans ?_)
      exact readAfter_filter 0 u.memTags r.paTags (fun g => decide (g < 2 ^ 45)) g (decide_eq_true hg)
  · obtain ⟨hsame, hdef, -⟩ := expireWrite_effect (u := u) true hc
    exact ⟨_, congrArg Host.Outcome.next (acknowledge_expired hr ha he), hsame, hdef⟩
  · obtain ⟨hsame, hdef, hmem⟩ := expireWrite_effect (u := u) s.input.flag hc
    exact ⟨_, (exec_requestTimeout_store h1).trans (congrArg Host.Outcome.next (expireStore_eq hr hh he ha)), hsame, hdef, hmem⟩

/-- Settles O34. -/
theorem storesReachMemory : Obligations.StoresReachMemory := ⟨pierEntryLeaves, storeEndsAtHome⟩

end Sys2Proof.Machine
end

section
/-!
LEMMAS. The data of an off-core load arrives, translations and replicas change, and a line is lost (spec/05 R102 to R111, R122, R123,
spec/16 R337).
-/
open Sys2Proof

namespace Sys2Proof.Machine

/-! ### The data of a part of a load (R108, R109, R122, R123) -/

theorem readLocs_kept (hit : Bool) (locs : List Loc) (s : State) :
    (s.readLocs hit locs).2.core = s.core ∧ (s.readLocs hit locs).2.mem = s.mem := by
  have hcache (s : State) (d pa : Nat) (uo : Bool) : (s.cacheFill d pa uo).core = s.core ∧ (s.cacheFill d pa uo).mem = s.mem := by
    obtain ⟨-, ds, h⟩ := cacheFill_differs s d pa uo
    rw [h]
    exact ⟨rfl, rfl⟩
  have h : (((s.readLocs hit locs).2.core, (s.readLocs hit locs).2.mem) : Core × List (Nat × Byte)) = (s.core, s.mem) := by
    refine foldl_preserves (fun acc : List (Granule × Word) × State => (acc.2.core, acc.2.mem)) (fun acc l => ?_) locs ([], s)
    dsimp only
    split
    · split
      · rfl
      · rw [(hcache ..).1, (hcache ..).2]
    · rfl
  exact ⟨congrArg Prod.fst h, congrArg Prod.snd h⟩

/-- The part of a load that has read its granules. -/
def MemReq.served (r : MemReq) (gs : List (Granule × Word)) (x : MemReq) : MemReq :=
  if x.id = r.id && x.lo = r.lo then { x with got := some gs } else x

theorem served_kept (r : MemReq) (gs : List (Granule × Word)) (x : MemReq) : (r.served gs x).id = x.id ∧ (r.served gs x).lo = x.lo ∧
    (r.served gs x).load = x.load := by
  unfold MemReq.served
  split <;> exact ⟨rfl, rfl, rfl⟩

theorem served_self (r : MemReq) (gs : List (Granule × Word)) : r.served gs r = { r with got := some gs } := if_pos (by simp)

theorem served_other {r x : MemReq} (gs : List (Granule × Word)) (h : x.id ≠ r.id ∨ x.lo ≠ r.lo) : r.served gs x = x :=
  if_neg (by
    rcases h with h | h
    · simp [h]
    · simp [h])

/-- The parts of a load that are in the queue. -/
def loadParts (r : MemReq) (q : List MemReq) : List MemReq := q.filter (fun x => x.id = r.id && x.load.isSome)

section PartRead

variable {v : State} {r : MemReq} {dst : LoadDst} {gs : List (Granule × Word)}

theorem partRead_eq (v : State) : v.partRead r dst gs =
    (if (loadParts r (v.core.a.memq.map (r.served gs))).any (fun x => x.got.isNone) then
      v.modA (fun a => { a with memq := a.memq.map (r.served gs) })
    else match loadResult r.va dst (joinParts (loadParts r (v.core.a.memq.map (r.served gs)))) with
      | .error (c, x) => ((v.modA (fun a => { a with memq := a.memq.map (r.served gs) })).modA (fun a =>
          { a with memq := a.memq.map (fun x => if x.id = r.id && x.lo = r.lo then { x with got := none } else x) })).holdFrom false r.id c x
      | .ok f => (((v.modA (fun a => { a with memq := a.memq.map (r.served gs) })).modA (fun a =>
          f { a with memq := a.memq.filter (fun x => x.id ≠ r.id) })).spadAcquire r.acq).prunePoints) := by
  rfl

theorem memq_served (q : List MemReq) : (q.map (r.served gs)).filter (fun x => x.id ≠ r.id) = q.filter (fun x => x.id ≠ r.id) := by
  rw [List.filter_map]
  have hf : (fun x : MemReq => decide (x.id ≠ r.id)) ∘ r.served gs = fun x => decide (x.id ≠ r.id) := by
    funext x
    rw [Function.comp_apply, (served_kept r gs x).1]
  rw [hf]
  refine (List.map_congr_left (fun x hx => ?_)).trans (List.map_id _)
  exact served_other gs (.inl (by simpa using (List.mem_filter.1 hx).2))

/-- The only part of a load is the whole of it. -/
theorem loadParts_only (hl : r.load.isSome = true) {q : List MemReq} (h : q.filter (fun x => x.id = r.id) = [r]) :
    loadParts r (q.map (r.served gs)) = [{ r with got := some gs }] := by
  unfold loadParts
  rw [List.filter_map]
  have hf : (fun x : MemReq => decide (x.id = r.id) && x.load.isSome) ∘ r.served gs = fun x => decide (x.id = r.id) && x.load.isSome := by
    funext x
    obtain ⟨hid, -, hload⟩ := served_kept r gs x
    rw [Function.comp_apply, hid, hload]
  have hq : q.filter (fun x => decide (x.id = r.id) && x.load.isSome) = [r] := by
    have h' := congrArg (List.filter (fun x : MemReq => x.load.isSome)) h
    rw [List.filter_filter] at h'
    simp only [List.filter_cons, hl, if_true, List.filter_nil] at h'
    rw [← h']
    refine List.filter_congr (fun x _ => Bool.and_comm ..)
  rw [hf, hq, List.map_singleton, served_self]

theorem joinParts_one (r : MemReq) (gs : List (Granule × Word)) : joinParts [{ r with got := some gs }] = gs := by
  change gs ++ [] = gs
  rw [List.append_nil]

theorem partRead_last (hl : r.load.isSome = true) (h : v.core.a.memq.filter (fun x => x.id = r.id) = [r]) :
    (∀ f, loadResult r.va dst gs = .ok f → v.partRead r dst gs =
      ((v.withArch (f { v.core.a with memq := v.core.a.memq.filter (fun x => x.id ≠ r.id) })).spadAcquire r.acq).prunePoints) ∧
    ∀ c x, loadResult r.va dst gs = .error (c, x) → ∃ q, v.partRead r dst gs =
      (v.modA (fun a => { a with memq := q })).holdFrom false r.id c x := by
  have hparts := loadParts_only (gs := gs) hl h
  have hread := partRead_eq (r := r) (dst := dst) (gs := gs) v
  rw [hparts, joinParts_one, if_neg (by simp)] at hread
  refine ⟨fun f hf => ?_, fun c x hx => ?_⟩
  · rw [hf] at hread
    refine hread.trans ?_
    have hq := memq_served (r := r) (gs := gs) v.core.a.memq
    exact congrArg (fun q => ((v.withArch (f { v.core.a with memq := q })).spadAcquire r.acq).prunePoints) hq
  · rw [hx] at hread
    exact ⟨_, hread⟩

/-- While a part is missing, the load waits. -/
theorem partRead_more (h : ∃ x ∈ v.core.a.memq, x.id = r.id ∧ x.lo ≠ r.lo ∧ x.load.isSome = true ∧ x.got = none) :
    v.partRead r dst gs = v.modA (fun a => { a with memq := a.memq.map (r.served gs) }) := by
  obtain ⟨x, hx, hid, hlo, hload, hgot⟩ := h
  rw [partRead_eq]
  refine if_pos (List.any_eq_true.2 ⟨x, List.mem_filter.2 ⟨List.mem_map.2 ⟨x, hx, served_other gs (.inr hlo)⟩, ?_⟩, ?_⟩)
  · simp [hid, hload]
  · simp [hgot]

end PartRead

/-! Which way an arrival goes. -/

section Arrive

variable {u : State} {r : MemReq} {dst : LoadDst} {locs : List Loc} {idx which : Nat} {hit : Bool}

/-- Whether a part of a load may be answered. -/
def State.mayArrive (u : State) (r : MemReq) : Prop :=
  u.core.loadAllowed r.id = true ∧ (r.ticks.isSome = true ∨ (u.core.room r.requests = true ∧ u.partWalks r = false))

theorem mayArrive_passes (hh : r.held = false) (hg : r.got = none) (ho : u.mayArrive r) :
    (r.held || r.got.isSome || !u.core.loadAllowed r.id || (r.ticks.isNone && (!u.core.room r.requests || u.partWalks r))) = false := by
  obtain ⟨hallow, ht | ⟨hroom, hwalk⟩⟩ := ho
  · obtain ⟨n, hn⟩ := Option.isSome_iff_exists.1 ht
    simp [hh, hg, hallow, hn]
  · simp [hh, hg, hallow, hroom, hwalk]

theorem arrive_late (hr : u.core.a.memq[idx]? = some r) (hl : r.load = some dst) (hh : r.held = false) (hg : r.got = none)
    (ho : u.mayArrive r) (hlate : u.expired r.ctx r.ticks = true) (broken : Bool) :
    u.arrive idx hit broken which = u.holdFrom false r.id .timeout r.va := by
  unfold State.arrive
  rw [hr]
  dsimp only
  rw [hl]
  dsimp only
  rw [mayArrive_passes hh hg ho, if_neg (by decide), if_pos hlate]

theorem arrive_reads (hr : u.core.a.memq[idx]? = some r) (hl : r.load = some dst) (hh : r.held = false) (hg : r.got = none)
    (ho : u.mayArrive r) (hlate : u.expired r.ctx r.ticks = false) (hloc : u.loadLocs (granuleVas r.lo r.n) = .ok locs)
    (hn : u.loadNeeds hit r dst locs = r.n) (hreach : memReach r.va.toNat (r.lo + r.n - r.va.toNat) = true)
    (hord : u.orderedBefore r (u.memTouches .read r.lo r.n) (locs.any (fun l => !l.cached)) r.n = false) :
    (∀ x, r.poisoned (u.readLocs hit locs).1 = some x → u.arrive idx hit false which = (u.readLocs hit locs).2.holdFrom false r.id .poison x) ∧
    (r.poisoned (u.readLocs hit locs).1 = none →
      u.arrive idx hit false which = (u.readLocs hit locs).2.partRead r dst (u.readLocs hit locs).1) := by
  have h : u.arrive idx hit false which = (match r.poisoned (u.readLocs hit locs).1 with
      | some x => (u.readLocs hit locs).2.holdFrom false r.id .poison x
      | none => (u.readLocs hit locs).2.partRead r dst (u.readLocs hit locs).1) := by
    unfold State.arrive
    rw [hr]
    dsimp only
    rw [hl]
    dsimp only
    rw [mayArrive_passes hh hg ho, if_neg (by decide), if_neg (by rw [hlate]; decide), hloc]
    dsimp only
    rw [hn, hreach, if_neg (by decide), hord, if_neg (by decide), if_pos rfl]
    dsimp only
    rw [hloc]
    rfl
  refine ⟨fun x hx => ?_, fun hx => ?_⟩
  · rw [h, hx]
  · rw [h, hx]

end Arrive

/-! ### The bytes of granules (R27, R111) -/

/-- The number that granules make. -/
def natOfGranules (gs : List Granule) : Nat := gs.foldr (fun (g : Granule) acc => acc * 2 ^ 512 + g.toNat) 0

/-- The bits of a number that is made of granules. -/
theorem testBit_granules (gs : List Granule) (i : Nat) :
    (natOfGranules gs).testBit i = (gs.getD (i / 512) 0).getLsbD (i % 512) := by
  induction gs generalizing i with
  | nil => simp [natOfGranules]
  | cons g gs ih =>
    rw [natOfGranules, List.foldr_cons, ← natOfGranules, Nat.mul_comm, Nat.testBit_two_pow_mul_add _ g.isLt]
    by_cases h : i < 512
    · rw [if_pos h, Nat.div_eq_of_lt h, Nat.mod_eq_of_lt h]
      rfl
    · rw [if_neg h, ih, show i / 512 = (i - 512) / 512 + 1 by omega, show i % 512 = (i - 512) % 512 by omega]
      rfl

theorem byteAt_bit (va : Nat) (gs : List Granule) (i : Nat) {k : Nat} (hk : k < 8) :
    (byteAt va gs i).getLsbD k = (natOfGranules gs).testBit (8 * (va % 64) + (8 * i + k)) := by
  rw [testBit_granules, byteAt, BitVec.getLsbD_extractLsb', decide_eq_true hk, Bool.true_and,
    show (8 * (va % 64) + (8 * i + k)) / 512 = (va % 64 + i) / 64 by omega,
    show (8 * (va % 64) + (8 * i + k)) % 512 = 8 * ((va % 64 + i) % 64) + k by omega]

/-- The number that a load joins is made of its bytes. -/
theorem joinGranules_eq (va n : Nat) (gs : List Granule) :
    joinGranules va n gs = ofDigitsBelow (2 ^ 8) (fun i => (byteAt va gs i).toNat) n := by
  refine Nat.eq_of_testBit_eq (fun j => ?_)
  rw [joinGranules, ← natOfGranules, Nat.testBit_mod_two_pow, Nat.testBit_div_two_pow]
  by_cases hj : j < 8 * n
  · obtain ⟨i, k, hk, rfl⟩ : ∃ i k, k < 8 ∧ j = 8 * i + k := ⟨j / 8, j % 8, by omega, by omega⟩
    rw [decide_eq_true hj, Bool.true_and, testBit_ofBytes _ (by omega) hk, byteAt_bit va gs i hk, Nat.add_comm]
  · rw [decide_eq_false hj, Bool.false_and, testBit_ofBytes_high _ (by omega)]

section Extended

variable (b : Nat → Byte) {n i : Nat}

/-- A number of n bytes, zero-extended. -/
theorem byte_word_ofBytes (hn : n ≤ 8) (i : Nat) (hi : i < 8) :
    (word (ofDigitsBelow (2 ^ 8) (fun i => (b i).toNat) n)).extractLsb' (8 * i) 8 = if i < n then b i else 0 := by
  refine byte_eq_of_bits (fun k hk => ?_)
  rw [word, BitVec.getLsbD_ofNat, decide_eq_true (by omega), Bool.true_and]
  split
  next h => exact testBit_ofBytes b h hk
  next h => rw [testBit_ofBytes_high b (by omega)]; exact BitVec.getLsbD_zero.symm

theorem msb_ofBytes (hn : 0 < n) : (BitVec.ofNat (8 * n) (ofDigitsBelow (2 ^ 8) (fun i => (b i).toNat) n)).msb = (b (n - 1)).msb := by
  rw [BitVec.msb_eq_getLsbD_last, BitVec.msb_eq_getLsbD_last, BitVec.getLsbD_ofNat, decide_eq_true (by omega), Bool.true_and,
    show 8 * n - 1 = 8 * (n - 1) + 7 by omega, testBit_ofBytes b (by omega) (by decide)]

/-- A number of n bytes, sign-extended. -/
theorem byte_signed_ofBytes (hn : 0 < n) (hn8 : n ≤ 8) (i : Nat) (hi : i < 8) :
    (BitVec.ofInt 64 (signedOf (8 * n) (ofDigitsBelow (2 ^ 8) (fun i => (b i).toNat) n))).extractLsb' (8 * i) 8 =
      if i < n then b i else if (b (n - 1)).msb then 0xFF else 0 := by
  have hext (x : Nat) : BitVec.ofInt 64 (signedOf (8 * n) x) = (BitVec.ofNat (8 * n) x).signExtend 64 := by
    rw [BitVec.signExtend, signedOf_eq_toInt (by omega)]
  rw [hext]
  refine byte_eq_of_bits (fun k hk => ?_)
  rw [BitVec.getLsbD_signExtend, decide_eq_true (by omega), Bool.true_and]
  by_cases h : i < n
  · rw [if_pos (by omega), if_pos h, BitVec.getLsbD_ofNat, decide_eq_true (by omega), Bool.true_and]
    exact testBit_ofBytes b h hk
  · rw [if_neg (by omega), if_neg h, msb_ofBytes b hn]
    cases (b (n - 1)).msb with
    | true => exact ((by decide : ∀ k < 8, true = (0xFF : Byte).getLsbD k)) k hk
    | false => exact BitVec.getLsbD_zero.symm

end Extended

/-- The granules of a vector. -/
theorem granule_ofGranules (gs : List Granule) {j : Nat} (hj : j < 8) : (Vec.ofGranules gs).granule j = gs.getD j 0 := by
  refine BitVec.eq_of_getLsbD_eq (fun k hk => ?_)
  rw [Vec.granule, Vec.ofGranules, ← natOfGranules, BitVec.getLsbD_extractLsb', BitVec.getLsbD_ofNat, testBit_granules, decide_eq_true hk,
    decide_eq_true (by omega), Bool.true_and, Bool.true_and, show (512 * j + k) / 512 = j by omega, show (512 * j + k) % 512 = k by omega]

/-- A load with no poisoned granule. -/
theorem noPoison {α : Type} (vas : List α) {gs : List (Granule × Word)} (h : ∀ g ∈ gs, isPoison g.2 = false) :
    (vas.zip gs).find? (fun p => isPoison p.2.2) = none :=
  List.find?_eq_none.2 (fun p hp => by rw [h p.2 (List.of_mem_zip hp).2]; decide)

/-- What a deferred fault of a load leaves. -/
theorem holdFrom_kept (drain : Bool) (id : Nat) (c : Cause) (x : Word) (s : State) :
    (s.holdFrom drain id c x).core.a.deferred = s.core.a.deferred ++ [⟨c, x⟩] ∧ (s.holdFrom drain id c x).core.a.s = s.core.a.s ∧
      (s.holdFrom drain id c x).core.a.v = s.core.a.v ∧ (s.holdFrom drain id c x).mem = s.mem := ⟨rfl, rfl, rfl, rfl⟩

theorem exec_requestTimeout_load {s : State} {r : MemReq} {dst : LoadDst} (h0 : s.input.first = 0)
    (hr : s.there.core.a.memq[s.input.idx]? = some r) (hl : r.load = some dst) (hh : r.held = false) (hg : r.got = none)
    (he : s.there.expired r.ctx r.ticks = true) : exec .requestTimeout s = .next (s.there.holdFrom false r.id .timeout r.va) := by
  have hex : exec .requestTimeout s = .next (s.there.expireLoad s.input.idx) := by
    change execRequestTimeout s = _
    unfold execRequestTimeout
    dsimp only
    rw [h0]
    rfl
  rw [hex]
  refine congrArg Host.Outcome.next ?_
  unfold State.expireLoad
  rw [hr]
  dsimp only
  rw [hh, hl, hg, he]
  rfl

/-- A scalar load's destination (R111). -/
theorem loadResult_scalar {va : Word} {n : Nat} (sg : Bool) {d : Reg} {gs : List (Granule × Word)} (hp : ∀ g ∈ gs, isPoison g.2 = false) :
    loadResult va (.scalar d n sg) gs = .ok (fun y => y.fillS d (if sg then
      BitVec.ofInt 64 (signedOf (8 * n) (joinGranules va.toNat n (gs.map Prod.fst))) else word (joinGranules va.toNat n (gs.map Prod.fst)))) := by
  unfold loadResult
  dsimp only
  rw [noPoison _ hp]

theorem loadResult_vec {va : Word} {d : Reg} {gs : List (Granule × Word)} (hp : ∀ g ∈ gs, isPoison g.2 = false) :
    loadResult va (.vec d) gs = .ok (fun y => y.fillV d (Vec.ofGranules (gs.map Prod.fst))) := by
  unfold loadResult
  dsimp only
  rw [noPoison _ hp]

theorem loadDataArrives : Claims.LoadDataArrives := by
  refine ⟨?_, ?_, ?_⟩
  · intro s r dst locs u got hr hl hh hg open_ fits kept late
    have hload : r.load.isSome = true := by rw [hl]; rfl
    obtain ⟨hcore, hmem⟩ := readLocs_kept s.input.flag locs u
    have hgotcore : got.2.core = u.core := hcore
    have hheld (c : Cause) (x : Word) (v : State) (hv : v.core = u.core) (hvm : v.mem = u.mem) :
        (v.holdFrom false r.id c x).core.a.deferred = u.core.a.deferred ++ [⟨c, x⟩] ∧ kept (v.holdFrom false r.id c x) := by
      have h := holdFrom_kept false r.id c x v
      rwa [hv, hvm] at h
    have hkept : got.2.core.a.s = u.core.a.s ∧ got.2.core.a.v = u.core.a.v ∧ got.2.mem = u.mem := by
      rw [hgotcore]
      exact ⟨rfl, rfl, hmem⟩
    have hdef : got.2.core.a.deferred = u.core.a.deferred := by rw [hgotcore]
    have hq : got.2.core.a.memq = u.core.a.memq := by rw [hgotcore]
    have hexec (hf2 : s.input.flag2 = false) : exec .loadDataArrival s = .next (u.arrive s.input.idx s.input.flag false s.input.first) := by
      rw [← hf2]
      rfl
    have hreads (ho : open_) (hl' : ¬late) (hf : fits) : (∀ x, r.poisoned got.1 = some x →
          exec .loadDataArrival s = .next (got.2.holdFrom false r.id .poison x)) ∧
        (r.poisoned got.1 = none → exec .loadDataArrival s = .next (got.2.partRead r dst got.1)) := by
      obtain ⟨hallow, hticks, hf2⟩ := ho
      obtain ⟨hloc, hn, hreach, hord⟩ := hf
      obtain ⟨hpois, hpart⟩ := arrive_reads (which := s.input.first) hr hl hh hg ⟨hallow, hticks⟩ (by simpa [late] using hl') hloc hn hreach hord
      rw [hexec hf2]
      exact ⟨fun x hx => congrArg _ (hpois x hx), fun hx => congrArg _ (hpart hx)⟩
    refine ⟨fun ho hl' hf hp hone => ?_, fun ho hl' hf hp hmore => ?_, fun x ho hl' hf hp => ?_, fun ho hl' => ?_, fun h0 hl' => ?_⟩
    · have hex := (hreads ho hl' hf).2 hp
      obtain ⟨hok, herr⟩ := partRead_last (v := got.2) (dst := dst) (gs := got.1) hload (by rw [hq]; exact hone)
      refine ⟨fun f hf => hex.trans (congrArg _ (hok f hf)), fun c x hx => ?_⟩
      obtain ⟨q, hq⟩ := herr c x hx
      obtain ⟨hd, hs, hv, hm⟩ := holdFrom_kept false r.id c x (got.2.modA (fun a => { a with memq := q }))
      obtain ⟨hs', hv', hm'⟩ := hkept
      exact ⟨_, hex.trans (congrArg _ hq), hd.trans (by rw [← hdef]; rfl), hs.trans hs', hv.trans hv', hm.trans hm'⟩
    · have hex := (hreads ho hl' hf).2 hp
      obtain ⟨x, hx, hx'⟩ := hmore
      rw [partRead_more ⟨x, by rw [hq]; exact hx, hx'⟩] at hex
      refine ⟨_, { r with got := some got.1 }, hex, hkept, ?_, rfl, rfl, rfl, hdef⟩
      exact List.mem_map.2 ⟨r, by rw [hq]; exact List.mem_of_getElem? hr, served_self r got.1⟩
    · exact ⟨_, (hreads ho hl' hf).1 x hp, hheld .poison x got.2 hgotcore hmem⟩
    · obtain ⟨hallow, hticks, hf2⟩ := ho
      exact ⟨_, (hexec hf2).trans (congrArg _ (arrive_late hr hl hh hg ⟨hallow, hticks⟩ hl' false)), holdFrom_kept false r.id .timeout r.va u⟩
    · exact ⟨_, exec_requestTimeout_load h0 hr hl hh hg hl', holdFrom_kept false r.id .timeout r.va u⟩
  · intro va n sg d gs a hn _ hp hd byte
    have hn' : 0 < n ∧ n ≤ 8 := by
      simp only [List.mem_cons, List.not_mem_nil, or_false] at hn
      omega
    refine ⟨_, loadResult_scalar sg hp, sIsEmpty_fillS_same a _ hd, fun r hr => rd_fillS_other a d r _ hr, fun i hi => ?_⟩
    rw [rd_fillS_same a d _ hd, joinGranules_eq]
    cases sg with
    | false => exact byte_word_ofBytes byte hn'.2 i hi
    | true => exact byte_signed_ofBytes byte hn'.1 hn'.2 i hi
  · intro va d gs a _ hlen hp
    refine ⟨_, loadResult_vec hp, ?_, fun j hj => ?_⟩
    · exact (bitOf_setBit (h := d.isLt) ..).trans (if_pos rfl)
    · have hv : (a.fillV d (Vec.ofGranules (gs.map Prod.fst))).v[d] = Vec.ofGranules (gs.map Prod.fst) := Vector.getElem_set_self _
      rw [hv, granule_ofGranules _ hj, List.getD_eq_getElem _ _ (by rw [List.length_map]; omega), List.getD_eq_getElem _ _ (by omega),
        List.getElem_map]

/-! ### A line that is lost (R123, R337) -/

theorem cellGet_cellSet_ne {α : Type} [DecidableEq α] (d : α) (m : List (Nat × α)) (a : Nat) {x : α} (h : x ≠ d) :
    cellGet d (cellSet d m a x) a = x := by
  induction m with
  | nil => simp [cellSet, cellGet, h]
  | cons p m ih =>
    obtain ⟨k, y⟩ := p
    unfold cellSet
    rw [if_neg h, if_neg h]
    split
    · exact if_pos rfl
    · split
      · exact if_pos rfl
      next hk => exact (if_neg (fun e => hk e.symm)).trans ih

theorem lostLineIsPoisoned : Claims.LostLineIsPoisoned := by
  intro s hp
  have hpa : s.input.off < 2 ^ 41 := by
    unfold State.populated at hp
    exact (of_decide_eq_true (Bool.and_eq_true_iff.1 hp).1).1
  have hex : exec .dirtyLineEviction s = .next (s.poisonStack (s.input.off / 64 * 64)) := by
    exact congrArg Host.Outcome.next (if_pos hp)
  have hg : s.input.off / 64 * 64 / 64 = s.input.off / 64 := Nat.mul_div_cancel _ (by decide)
  have htags : (s.poisonStack (s.input.off / 64 * 64)).memTags = cellSet 0 s.memTags (s.input.off / 64) poisonTag := by
    change cellSets 0 s.memTags ([(s.input.off / 64 * 64 / 64, poisonTag)].filter (fun t => decide (t.1 < 2 ^ 45))) = _
    rw [hg, List.filter_cons_of_pos (by exact decide_eq_true (show s.input.off / 64 < 2 ^ 45 by omega))]
    rfl
  refine ⟨_, _, hex, ?_, rfl, rfl, rfl, rfl, rfl, rfl, rfl⟩
  rw [htags, cellGet_cellSet_ne 0 s.memTags _ (by decide)]
  decide

/-! ### Translations and replicas (R102 to R106) -/

/-- A set of a die's TLB that is filled. -/
theorem dieTlbFill_props (e : TlbEntry) (l : List TlbEntry) :
    ((dieTlbFill e l).filter (fun x => x.set = e.set)).length ≤ 8 ∧ (dieTlbFill e l).head? = some e ∧
      (dieTlbFill e l).filter (fun x => x.set ≠ e.set) = l.filter (fun x => x.set ≠ e.set) := by
  obtain ⟨m, hm⟩ : ∃ m, m = tlbFill 8 e (l.filter (fun t => t.set = e.set)) := ⟨_, rfl⟩
  have hlen : m.length ≤ 8 := by
    rw [hm, tlbFill]
    exact List.length_take_le ..
  have hset : ∀ x ∈ m, x.set = e.set := by
    intro x hx
    rw [hm, tlbFill] at hx
    rcases List.mem_cons.1 (List.mem_of_mem_take hx) with rfl | hx
    · rfl
    · simpa using (List.mem_filter.1 (List.mem_filter.1 hx).1).2
  have hhead : m.head? = some e := by rw [hm]; rfl
  unfold dieTlbFill
  rw [← hm]
  refine ⟨?_, ?_, ?_⟩
  · rw [List.filter_append, List.filter_filter, List.length_append]
    have h0 : l.filter (fun x => decide (x.set = e.set) && decide (x.set ≠ e.set)) = [] :=
      List.filter_eq_nil_iff.2 (fun x _ => by simp)
    rw [h0]
    exact Nat.le_trans (List.length_filter_le ..) hlen
  · rw [List.head?_append, hhead]
    rfl
  · rw [List.filter_append, List.filter_filter, List.filter_eq_nil_iff.2 (fun x hx => by simp [hset x hx]), List.nil_append]
    exact List.filter_congr (fun x _ => by simp)

theorem ctx?_of_ctxs {s t : State} (h : t.ctxs = s.ctxs) (n : Nat) : t.ctx? n = s.ctx? n := by
  unfold State.ctx?
  rw [h]

section Walks

variable {s : State} {c : Context} {w : Walk}

theorem exec_pageWalk (hc : s.ctx? s.input.ctx = some c) (hst : s.input.die ∉ c.stale) (hres : (s.die s.input.die).inReset = false)
    (hw : w = ⟨s.input.ctx, s.input.va.toNat, (tblGet s.homes s.input.die).getD (s.homeMd s.input.die)⟩) :
    (w ∈ (s.die s.input.die).walks → exec .pageWalk s =
      .next ((s.walkEnds s.input c).onDie s.input.die (fun d => { d with walks := d.walks.erase w }))) ∧
    (w ∉ (s.die s.input.die).walks → (s.die s.input.die).walks.length < 16 → exec .pageWalk s =
      .next (s.onDie s.input.die (fun d => { d with walks := d.walks ++ [w] }))) := by
  have hguard : (c.stale.contains s.input.die || (s.die s.input.die).inReset) = false := by simp [hst, hres]
  have h : exec .pageWalk s = .next (if (s.die s.input.die).walks.contains w then
      (s.walkEnds s.input c).onDie s.input.die (fun d => { d with walks := d.walks.erase w })
    else if (s.die s.input.die).walks.length < 16 then s.onDie s.input.die (fun d => { d with walks := d.walks ++ [w] }) else s) := by
    change execPageWalk s = _
    unfold execPageWalk
    dsimp only
    rw [hc]
    dsimp only
    rw [hguard, if_neg (by decide), ← hw]
  refine ⟨fun hm => ?_, fun hm hlen => ?_⟩
  · rw [h, if_pos (by simpa using hm)]
  · rw [h, if_neg (by simpa using hm), if_pos hlen]

/-- What the end of a walk brings the die's TLB. -/
def State.walkFilled (s : State) (e : TlbEntry) : State := s.onDie s.input.die (fun d => { d with tlb := dieTlbFill e d.tlb })

theorem walkEnds_parts {l : Leaf} (hl : walk ((tblGet c.replicas s.input.die).getD []) s.input.va.toNat = some l) (h0 : s.input.first = 0) :
    (s.walkEnds s.input c).dies = (s.walkFilled ⟨s.input.ctx, s.input.va.toNat / l.size * l.size, l.size, l.pte⟩).dies ∧
      (s.walkEnds s.input c).mem = s.mem ∧ (s.walkEnds s.input c).ctxs = s.ctxs := by
  have hdie := onDie_eq s.input.die (fun d => { d with tlb := dieTlbFill ⟨s.input.ctx, s.input.va.toNat / l.size * l.size, l.size, l.pte⟩ d.tlb }) s
  unfold State.walkEnds
  rw [hl]
  dsimp only
  split
  · rw [State.walkFilled, hdie]
    exact ⟨rfl, rfl, rfl⟩
  · unfold State.onCore
    split
    · rw [State.walkFilled, hdie]
      exact ⟨rfl, rfl, rfl⟩
    · rw [State.walkFilled, hdie]
      exact ⟨rfl, rfl, rfl⟩

end Walks

theorem pageWalkResults (s : State) {c : Context} (hc : s.ctx? s.input.ctx = some c) (hst : s.input.die ∉ c.stale) (hd : s.input.die < 8)
    (hres : (s.die s.input.die).inReset = false) {l : Leaf} {w : Walk}
    (hw : w = ⟨s.input.ctx, s.input.va.toNat, (tblGet s.homes s.input.die).getD (s.homeMd s.input.die)⟩)
    (hm : w ∈ (s.die s.input.die).walks) (hl : walk ((tblGet c.replicas s.input.die).getD []) s.input.va.toNat = some l) (hsize : 0 < l.size)
    (h0 : s.input.first = 0) {e : TlbEntry} (he : e = ⟨s.input.ctx, s.input.va.toNat / l.size * l.size, l.size, l.pte⟩) :
    ∃ t, exec .pageWalk s = .next t ∧ t.leaf? s.input.die s.input.ctx s.input.va.toNat = some (l.pte, l.size) ∧
      (t.die s.input.die).walks = (s.die s.input.die).walks.erase w ∧ t.mem = s.mem ∧ t.ctxs = s.ctxs ∧
      (t.die s.input.die).tlb = dieTlbFill e (s.die s.input.die).tlb := by
  obtain ⟨hdies, hmem, hctxs⟩ := walkEnds_parts hl h0
  rw [← he] at hdies
  obtain ⟨v, hv⟩ : ∃ v, v = s.walkEnds s.input c := ⟨_, rfl⟩
  rw [← hv] at hdies hmem hctxs
  have hex := (exec_pageWalk hc hst hres hw).1 hm
  rw [← hv] at hex
  have hvd : v.die s.input.die = { s.die s.input.die with tlb := dieTlbFill e (s.die s.input.die).tlb } :=
    (die_of_dies hdies _).trans (onDie_die _ _ _ hd)
  obtain ⟨t, ht⟩ : ∃ t, t = v.onDie s.input.die (fun d => { d with walks := d.walks.erase w }) := ⟨_, rfl⟩
  rw [← ht] at hex
  have htd : t.die s.input.die = { s.die s.input.die with tlb := dieTlbFill e (s.die s.input.die).tlb, walks := (s.die s.input.die).walks.erase w } := by
    rw [ht, onDie_die _ _ _ hd, hvd]
  have htm : t.mem = s.mem := by rw [ht, onDie_eq]; exact hmem
  have htc : t.ctxs = s.ctxs := by rw [ht, onDie_eq]; exact hctxs
  refine ⟨t, hex, ?_, by rw [htd], htm, htc, by rw [htd]⟩
  have hhit : tlbFind ([] ++ dieTlbFill e (s.die s.input.die).tlb) s.input.ctx s.input.va.toNat = some e := by
    obtain ⟨tl, htl⟩ : ∃ tl, dieTlbFill e (s.die s.input.die).tlb = e :: tl := by
      have h := (dieTlbFill_props e (s.die s.input.die).tlb).2.1
      cases hcs : dieTlbFill e (s.die s.input.die).tlb with
      | nil => rw [hcs] at h; cases h
      | cons x tl =>
        rw [hcs] at h
        cases h
        exact ⟨tl, rfl⟩
    unfold tlbFind
    rw [htl]
    refine List.find?_cons_of_pos ?_
    have hb : s.input.va.toNat / l.size * l.size ≤ s.input.va.toNat := Nat.div_mul_le_self _ _
    have hlt : s.input.va.toNat < s.input.va.toNat / l.size * l.size + l.size := by
      have h := Nat.div_add_mod s.input.va.toNat l.size
      have hmod := Nat.mod_lt s.input.va.toNat hsize
      rw [Nat.mul_comm] at h
      omega
    rw [he]
    simp [hb, hlt]
  unfold State.leaf? State.leafVia?
  rw [ctx?_of_ctxs htc, hc]
  dsimp only
  rw [if_neg (by rw [htd]; simp [hst, hres]), htd, hhit, he]

/-! ### Acknowledgements (R105) -/

/-- What the engine that takes up updates leaves alone. -/
structure Untouched where
  dies : Vector Die 8
  mem : List (Nat × Byte)
  stale : List (Nat × List Nat)

def State.untouched (s : State) : Untouched := ⟨s.dies, s.mem, s.ctxs.map (fun c => (c.num, c.stale))⟩

/-- A step of the engine: it answers mailboxes and writes replicas, nothing else. -/
def State.engineStep (s t : State) : Prop := t.untouched = s.untouched ∧ ∃ more, t.mail = s.mail ++ more

theorem engineStep_trans {s t u : State} (h : s.engineStep t) (h' : t.engineStep u) : s.engineStep u := by
  obtain ⟨hk, more, hm⟩ := h
  obtain ⟨hk', more', hm'⟩ := h'
  exact ⟨hk'.trans hk, more ++ more', by rw [hm', hm, List.append_assoc]⟩

theorem engineStep_answer (u : Update) (code : Nat) (s : State) : s.engineStep (s.answer u code) := by
  unfold State.answer
  split
  · exact ⟨rfl, [], (List.append_nil _).symm⟩
  · exact ⟨rfl, _, rfl⟩

theorem engineStep_applyUpdate (u : Update) (s : State) : s.engineStep (s.applyUpdate u) := by
  refine ⟨?_, [], (List.append_nil _).symm⟩
  refine congrArg (Untouched.mk s.dies s.mem) ?_
  change (s.ctxs.map _).map _ = _
  rw [List.map_map]
  refine List.map_congr_left (fun c _ => ?_)
  dsimp only [Function.comp_apply]
  split <;> rfl

theorem engineStep_startUpdates (us : List Update) (s : State) : s.engineStep (s.startUpdates us) := by
  have hkeep (s : State) (us : List Update) : s.engineStep { s with updates := us } := ⟨rfl, [], (List.append_nil _).symm⟩
  induction us generalizing s with
  | nil => exact hkeep s []
  | cons u rest ih =>
    unfold State.startUpdates
    dsimp only
    split
    · exact hkeep s _
    · split
      · refine engineStep_trans (engineStep_applyUpdate u s) ?_
        split
        · exact engineStep_trans (engineStep_answer u 0 _) (ih _)
        · exact hkeep _ _
      · exact engineStep_trans (engineStep_answer u 1 s) (ih _)

/-- The stale dies of a context. -/
theorem stale_of_untouched {s t : State} (h : t.untouched = s.untouched) (n : Nat) : (t.ctx? n).map Context.stale = (s.ctx? n).map Context.stale := by
  have hfind (s : State) : (s.ctx? n).map Context.stale = (s.untouched.stale.find? (fun p => p.1 = n)).map Prod.snd := by
    change _ = ((s.ctxs.map (fun c => (c.num, c.stale))).find? (fun p => decide (p.1 = n))).map Prod.snd
    rw [List.find?_map, Option.map_map]
    rfl
  rw [hfind t, hfind s, h]

/-- A die's acknowledgement of the update in progress. -/
theorem acked_effect {s : State} {u : Update} {rest : List Update} (hu : s.updates = u :: rest) (d : Nat) :
    s.engineStep (s.acked d) ∧
    ((∃ x ∈ u.waiting, x ≠ d) → (s.acked d).updates = { u with waiting := u.waiting.filter (fun x => x ≠ d) } :: rest ∧ (s.acked d).mail = s.mail) ∧
    ((∀ x ∈ u.waiting, x = d) → u.fn ≠ 255 → ∃ v more, (s.acked d).mail = s.mail ++ [⟨u.fn, u.seq, 0, 0, v⟩] ++ more) := by
  have hack : s.acked d = if (u.waiting.filter (fun x => x ≠ d)).isEmpty then (({ s with updates := [] } : State).answer u 0).startUpdates rest
      else { s with updates := { u with waiting := u.waiting.filter (fun x => x ≠ d) } :: rest } := by
    unfold State.acked
    rw [hu]
  have hempty : (u.waiting.filter (fun x => x ≠ d)).isEmpty = true ↔ ∀ x ∈ u.waiting, x = d := by
    rw [List.isEmpty_iff, List.filter_eq_nil_iff]
    exact forall₂_congr (fun x _ => by simp)
  refine ⟨?_, fun ⟨x, hx, hne⟩ => ?_, fun hall hfn => ?_⟩
  · rw [hack]
    split
    · exact engineStep_trans (t := { s with updates := [] }) ⟨rfl, [], (List.append_nil _).symm⟩
        (engineStep_trans (engineStep_answer u 0 _) (engineStep_startUpdates rest _))
    · exact ⟨rfl, [], (List.append_nil _).symm⟩
  · rw [hack, if_neg (fun h => hne (hempty.1 h x hx))]
    exact ⟨rfl, rfl⟩
  · obtain ⟨-, more, hm⟩ := engineStep_startUpdates rest (({ s with updates := [] } : State).answer u 0)
    rw [hack, if_pos (hempty.2 hall), hm]
    unfold State.answer
    rw [if_neg (show u.fn ≠ firmwareFn from hfn)]
    exact ⟨_, more, rfl⟩

/-- What a change of the cores' caches leaves alone: what is outstanding, and everything but the cores. -/
def State.coresDiffer (s t : State) : Prop :=
  (∀ n, n ∈ t.coreIds ↔ n ∈ s.coreIds) ∧ (∀ n, (t.getCore n).outq = (s.getCore n).outq) ∧ ∃ c o, t = { s with core := c, others := o }

theorem coresDiffer_refl (s : State) : s.coresDiffer s := ⟨fun _ => Iff.rfl, fun _ => rfl, s.core, s.others, rfl⟩

theorem coresDiffer_trans {s t u : State} (h : s.coresDiffer t) (h' : t.coresDiffer u) : s.coresDiffer u := by
  obtain ⟨hi, ho, c, o, rfl⟩ := h
  obtain ⟨hi', ho', c', o', rfl⟩ := h'
  exact ⟨fun n => (hi' n).trans (hi n), fun n => (ho' n).trans (ho n), c', o', rfl⟩

theorem mem_keys_tblPut {α : Type} (t : Tbl α) (a : Nat) (x : α) (n : Nat) : n ∈ (tblPut t a x).map Prod.fst ↔ n = a ∨ n ∈ t.map Prod.fst := by
  induction t with
  | nil => simp [tblPut]
  | cons e t ih =>
    obtain ⟨k, y⟩ := e
    unfold tblPut
    split
    · simp
    · split
      next h => subst h; simp
      next =>
        rw [List.map_cons, List.mem_cons, ih, List.map_cons, List.mem_cons]
        exact or_left_comm

theorem getCore_onCore {s : State} {c : Nat} {f : Core → Core} (hf : ∀ x, (f x).id = x.id) (n : Nat) :
    (s.onCore c f).getCore n = if n = c then f (s.getCore c) else s.getCore n := by
  unfold State.onCore
  by_cases hc : s.core.id = c
  · rw [if_pos hc]
    unfold State.getCore
    dsimp only
    rw [hf]
    by_cases hn : n = c
    · rw [if_pos hn, if_pos (hc.trans hn.symm), if_pos hc]
    · rw [if_neg hn]
      rw [if_neg (fun h => hn (h.symm.trans hc)), if_neg (fun h => hn (h.symm.trans hc))]
  · rw [if_neg hc]
    unfold State.getCore
    dsimp only
    by_cases hn : n = c
    · rw [if_pos hn, hn, if_neg hc, if_neg hc, tblGet_tblPut, if_pos rfl]
      rfl
    · rw [if_neg hn, tblGet_tblPut, if_neg hn]

theorem onCore_differs {s : State} {c : Nat} {f : Core → Core} (hf : ∀ x, (f x).id = x.id ∧ (f x).outq = x.outq) (hc : c ∈ s.coreIds) :
    s.coresDiffer (s.onCore c f) := by
  refine ⟨fun n => ?_, fun n => ?_, ?_⟩
  · unfold State.onCore
    split
    · unfold State.coreIds
      dsimp only
      rw [(hf s.core).1]
    · unfold State.coreIds at hc ⊢
      dsimp only
      rw [List.mem_cons, List.mem_cons, mem_keys_tblPut]
      constructor
      · rintro (h | h | h)
        · exact .inl h
        · rw [h]; exact List.mem_cons.1 hc
        · exact .inr h
      · rintro (h | h)
        · exact .inl h
        · exact .inr (.inr h)
  · rw [getCore_onCore (fun x => (hf x).1)]
    split
    next h => rw [(hf _).2, h]
    next => rfl
  · unfold State.onCore
    split
    · exact ⟨_, _, rfl⟩
    · exact ⟨_, _, rfl⟩

/-- A change of every core of a die, one after the other. -/
theorem foldl_onCore_differs {f : Core → Core} (hf : ∀ x, (f x).id = x.id ∧ (f x).outq = x.outq) (d : Nat) (l : List Nat) (s : State)
    (hl : ∀ c ∈ l, c ∈ s.coreIds) : s.coresDiffer (l.foldl (fun s c => if dieOf c = d then s.onCore c f else s) s) := by
  induction l generalizing s with
  | nil => exact coresDiffer_refl s
  | cons c l ih =>
    have hstep : s.coresDiffer (if dieOf c = d then s.onCore c f else s) := by
      split
      · exact onCore_differs hf (hl c List.mem_cons_self)
      · exact coresDiffer_refl s
    exact coresDiffer_trans hstep (ih _ (fun x hx => (hstep.1 x).2 (hl x (List.mem_cons_of_mem _ hx))))

theorem settledOn_of_coresDiffer {s t : State} (h : s.coresDiffer t) (d ctx : Nat) : t.settledOn d ctx = s.settledOn d ctx := by
  obtain ⟨hi, ho, -⟩ := h
  rw [Bool.eq_iff_iff]
  unfold State.settledOn State.outOf
  simp only [List.all_eq_true, List.mem_flatMap, hi, ho]

/-- The TLBs of a die lose the entries that go. -/
theorem flushTlbs_effect (s : State) {d : Nat} (hd : d < 8) (gone : TlbEntry → Bool) :
    (s.onDie d (fun x => { x with tlb := x.tlb.filter (fun t => !gone t) })).coresDiffer (s.flushTlbs d gone) :=
  foldl_onCore_differs (f := fun x => { x with tlb1 := x.tlb1.filter (fun t => !gone t), tlbMx := x.tlbMx.filter (fun t => !gone t) })
    (fun _ => ⟨rfl, rfl⟩) d _ _ (fun _ h => h)

/-- TLB_INVALIDATE_ACK (R105). -/
theorem ackUpdate_effect {s : State} {u : Update} {rest : List Update} {d : Nat} (hu : s.updates = u :: rest) (hw : d ∈ u.waiting) (hd : d < 8)
    (hfn : u.fn ≠ 255) :
    (∀ e ∈ ((s.ackUpdate d).die d).tlb, e.ctx ≠ u.ctx) ∧ (s.ackUpdate d).mem = s.mem ∧
      (s.settledOn d u.ctx = false → (s.ackUpdate d).updates = s.updates ∧ (s.ackUpdate d).mail = s.mail) ∧
      (s.settledOn d u.ctx = true → (∃ x ∈ u.waiting, x ≠ d) →
        (s.ackUpdate d).updates = { u with waiting := u.waiting.filter (fun x => x ≠ d) } :: rest ∧ (s.ackUpdate d).mail = s.mail) ∧
      (s.settledOn d u.ctx = true → (∀ x ∈ u.waiting, x = d) → ∃ v more, (s.ackUpdate d).mail = s.mail ++ [⟨u.fn, u.seq, 0, 0, v⟩] ++ more) := by
  obtain ⟨v, hv⟩ : ∃ v, v = s.flushTlbs d (fun t => t.ctx = u.ctx) := ⟨_, rfl⟩
  have hdiff := flushTlbs_effect s hd (fun t => t.ctx = u.ctx)
  rw [← hv] at hdiff
  have hset := settledOn_of_coresDiffer hdiff d u.ctx
  rw [onDie_eq] at hset
  obtain ⟨-, -, c, o, hvs⟩ := hdiff
  have hvd : v.dies = (s.onDie d (fun x => { x with tlb := x.tlb.filter (fun t => !decide (t.ctx = u.ctx)) })).dies := by rw [hvs]
  have hvm : v.mem = s.mem := by rw [hvs, onDie_eq]
  have hvu : v.updates = s.updates := by rw [hvs, onDie_eq]
  have hvmail : v.mail = s.mail := by rw [hvs, onDie_eq]
  have hset' : v.settledOn d u.ctx = s.settledOn d u.ctx := hset
  have hack : s.ackUpdate d = if v.settledOn d u.ctx then v.acked d else v := by
    unfold State.ackUpdate
    rw [hu]
    dsimp only
    rw [if_neg (by simp [hw]), ← hv]
  obtain ⟨hstep, hsome, hall⟩ := acked_effect (s := v) (hvu.trans hu) d
  have hdies : (s.ackUpdate d).dies = v.dies ∧ (s.ackUpdate d).mem = v.mem := by
    rw [hack]
    split
    · exact ⟨congrArg Untouched.dies hstep.1, congrArg Untouched.mem hstep.1⟩
    · exact ⟨rfl, rfl⟩
  refine ⟨fun e he => ?_, hdies.2.trans hvm, fun hs => ?_, fun hs hx => ?_, fun hs hx => ?_⟩
  · rw [die_of_dies (hdies.1.trans hvd), onDie_die _ _ _ hd] at he
    simpa using (List.mem_filter.1 he).2
  · rw [hack, hset', hs]
    exact ⟨hvu, hvmail⟩
  · rw [hack, hset', hs, if_pos rfl, ← hvmail]
    exact hsome hx
  · rw [hack, hset', hs, if_pos rfl, ← hvmail]
    exact hall hx hfn

/-! ### Replicas and the reset of a die (R106) -/

theorem ctx?_onCtx {s : State} {n : Nat} {c : Context} (hc : s.ctx? n = some c) {f : Context → Context} (hf : ∀ x, (f x).num = x.num) :
    (s.onCtx n f).ctx? n = some (f c) := by
  unfold State.ctx? at hc ⊢
  change (s.ctxs.map (fun c => if c.num = n then f c else c)).find? _ = _
  rw [List.find?_map]
  have hp : (fun c : Context => decide (c.num = n)) ∘ (fun c => if c.num = n then f c else c) = fun c => decide (c.num = n) := by
    funext x
    rw [Function.comp_apply]
    split
    · rw [hf]
    · rfl
  rw [hp, hc]
  have hn : c.num = n := by simpa using List.find?_some hc
  exact congrArg some (if_pos hn)

/-- A replica that is a copy of a current one. -/
def Context.resynced (d : Nat) (r : Tbl Word) (c : Context) : Context :=
  { c with replicas := tblPut c.replicas d r, stale := c.stale.filter (fun x => x ≠ d) }

theorem exec_replicaResync {s : State} {c : Context} {d : Nat} {r : Tbl Word} (h0 : s.input.first = 0) (hc : s.ctx? s.input.ctx = some c)
    (hst : s.input.die ∈ c.stale) (hres : (s.die s.input.die).inReset = false)
    (hfind : c.replicas.find? (fun x => !c.stale.contains x.1) = some (d, r)) : exec .replicaResync s = .next
      (if s.updates.any (fun u => !u.waiting.isEmpty) then s.onCtx s.input.ctx (Context.resynced s.input.die r)
      else (s.onCtx s.input.ctx (Context.resynced s.input.die r)).startUpdates s.updates) := by
  change execReplicaResync s = _
  unfold execReplicaResync
  dsimp only
  rw [if_neg (by rw [h0]; decide), if_neg (by rw [h0]; decide), hc]
  dsimp only
  rw [if_neg (by simp [hst, hres]), hfind]
  rfl

/-- A die whose caches are empty. -/
def State.dieEmptied (d : Nat) (s : State) : State :=
  (s.flushTlbs d (fun _ => true)).onDie d (fun x => { x with inReset := true, cache := [], walks := [] })

/-- The instruction caches of a die's cores are empty. -/
def State.icachesDropped (d : Nat) (s : State) : State :=
  s.coreIds.foldl (fun s c => if dieOf c = d then s.onCore c (fun x => { x with icache := [] }) else s) s

/-- A die's replica of a context awaits a copy. -/
def Context.awaits (d : Nat) (c : Context) : Context :=
  if c.stale.contains d || (tblGet c.replicas d).isNone then c else { c with stale := c.stale ++ [d] }

/-- A die in reset, before the engine hears of it. -/
def State.dieStopped (d : Nat) (s : State) : State :=
  let t := (s.dieEmptied d).icachesDropped d
  { t with ctxs := t.ctxs.map (Context.awaits d) }

/-- Whether a die may be reset on its own. -/
def State.dieFree (s : State) (d : Nat) : Prop :=
  (s.die d).enabled = true ∧ (s.die d).inReset = false ∧ (s.die d).queue = [] ∧ (s.die d).armed = [] ∧
    ∀ c ∈ s.coreIds, dieOf c = d → let x := s.getCore c
      x.busy = false ∧ x.inl = [] ∧ x.queue = [] ∧ x.ca = [] ∧ x.cb = [] ∧ x.subs = [] ∧ x.outq = []

theorem dieReset_eq {s : State} {d : Nat} (h : s.dieFree d) : s.dieReset d =
    (match (s.dieStopped d).updates with
     | u :: _ => if u.waiting.contains d then (s.dieStopped d).acked d else s.dieStopped d
     | [] => s.dieStopped d) := by
  obtain ⟨hen, hres, hq, ha, hidle⟩ := h
  unfold State.dieReset
  dsimp only
  rw [if_neg]
  · rfl
  · rw [hen, hres, hq, ha]
    have hall : s.coreIds.all (fun c => decide (dieOf c ≠ d) || (!(s.getCore c).busy && (s.getCore c).inl.isEmpty &&
        (s.getCore c).queue.isEmpty && (s.getCore c).ca.isEmpty && (s.getCore c).cb.isEmpty && (s.getCore c).subs.isEmpty &&
        (s.getCore c).outq.isEmpty)) = true := by
      refine List.all_eq_true.2 (fun c hc => ?_)
      by_cases hd : dieOf c = d
      · obtain ⟨h1, h2, h3, h4, h5, h6, h7⟩ := hidle c hc hd
        simp [h1, h2, h3, h4, h5, h6, h7]
      · simp [hd]
    simp only [hall]
    decide

/-- What is left of a die in reset. -/
theorem dieStopped_effect {s : State} {d : Nat} (hd : d < 8) :
    ((s.dieStopped d).die d).inReset = true ∧ ((s.dieStopped d).die d).tlb = [] ∧ ((s.dieStopped d).die d).cache = [] ∧
      ((s.dieStopped d).die d).walks = [] ∧ (s.dieStopped d).mem = s.mem ∧ (s.dieStopped d).updates = s.updates ∧
      (s.dieStopped d).ctxs = s.ctxs.map (Context.awaits d) := by
  obtain ⟨v, hv⟩ : ∃ v, v = s.flushTlbs d (fun _ => true) := ⟨_, rfl⟩
  obtain ⟨-, -, c, o, hvs⟩ := flushTlbs_effect s hd (fun _ => true)
  rw [← hv] at hvs
  have hvd : v.die d = { s.die d with tlb := (s.die d).tlb.filter (fun _ => !true) } :=
    (die_of_dies (by rw [hvs]) d).trans (onDie_die d (fun x => { x with tlb := x.tlb.filter (fun _ => !true) }) s hd)
  obtain ⟨w, hw⟩ : ∃ w, w = s.dieEmptied d := ⟨_, rfl⟩
  have hwv : w = v.onDie d (fun x => { x with inReset := true, cache := [], walks := [] }) := by rw [hw, hv]; rfl
  obtain ⟨-, -, c', o', hds⟩ := foldl_onCore_differs (f := fun x => { x with icache := [] }) (fun _ => ⟨rfl, rfl⟩) d w.coreIds w (fun _ h => h)
  have hwd : w.die d = { s.die d with inReset := true, tlb := [], cache := [], walks := [] } := by
    rw [hwv, onDie_die _ _ _ hd, hvd]
    have hnil : (s.die d).tlb.filter (fun _ => !true) = [] := List.filter_eq_nil_iff.2 (fun _ _ => by decide)
    rw [hnil]
  obtain ⟨x, hx⟩ : ∃ x, x = w.icachesDropped d := ⟨_, rfl⟩
  have hxw : x = { w with core := c', others := o' } := by rw [hx]; exact hds
  have hstop : s.dieStopped d = { x with ctxs := x.ctxs.map (Context.awaits d) } := by rw [hx, hw]; rfl
  have hxd : x.dies = w.dies := by rw [hxw]
  have hxm : x.mem = s.mem := by rw [hxw, hwv, onDie_eq, hvs, onDie_eq]
  have hxu : x.updates = s.updates := by rw [hxw, hwv, onDie_eq, hvs, onDie_eq]
  have hxc : x.ctxs = s.ctxs := by rw [hxw, hwv, onDie_eq, hvs, onDie_eq]
  have hdie : (s.dieStopped d).die d = { s.die d with inReset := true, tlb := [], cache := [], walks := [] } := by
    rw [← hwd]
    exact die_of_dies (by rw [hstop]; exact hxd) d
  rw [hdie, hstop]
  exact ⟨rfl, rfl, rfl, rfl, hxm, hxu, congrArg (List.map (Context.awaits d)) hxc⟩

theorem awaits_num (d : Nat) (c : Context) : (c.awaits d).num = c.num := by
  unfold Context.awaits
  split <;> rfl

theorem awaits_stale {d : Nat} {c : Context} (h : tblGet c.replicas d ≠ none) : d ∈ (c.awaits d).stale := by
  unfold Context.awaits
  by_cases hc : d ∈ c.stale
  · rw [if_pos (by simp [hc])]
    exact hc
  · rw [if_neg (by simp [hc, h])]
    exact List.mem_append_right _ (List.mem_singleton_self d)

/-- A die enters a reset of its own. -/
theorem dieReset_effect {s : State} {d : Nat} (hd : d < 8) (h : s.dieFree d) :
    ((s.dieReset d).die d).inReset = true ∧ ((s.dieReset d).die d).tlb = [] ∧ ((s.dieReset d).die d).cache = [] ∧
      ((s.dieReset d).die d).walks = [] ∧ (s.dieReset d).mem = s.mem ∧
      (∀ n c, s.ctx? n = some c → tblGet c.replicas d ≠ none → ∃ c', (s.dieReset d).ctx? n = some c' ∧ d ∈ c'.stale) ∧
      (∀ u rest, s.updates = u :: rest → d ∈ u.waiting → (∃ x ∈ u.waiting, x ≠ d) →
        (s.dieReset d).updates = { u with waiting := u.waiting.filter (fun x => x ≠ d) } :: rest) := by
  obtain ⟨hres, htlb, hcache, hwalks, hmem, hupd, hctxs⟩ := dieStopped_effect (s := s) hd
  have heq := dieReset_eq h
  obtain ⟨t, ht⟩ : ∃ t, t = s.dieStopped d := ⟨_, rfl⟩
  rw [← ht] at hres htlb hcache hwalks hmem hupd hctxs heq
  have hstep : t.engineStep (s.dieReset d) := by
    rw [heq]
    have hid : t.engineStep t := ⟨rfl, [], (List.append_nil _).symm⟩
    split
    next u rest hu =>
      split
      · exact (acked_effect hu d).1
      · exact hid
    next => exact hid
  have hdie : (s.dieReset d).die d = t.die d := die_of_dies (congrArg Untouched.dies hstep.1) d
  rw [hdie]
  refine ⟨hres, htlb, hcache, hwalks, (congrArg Untouched.mem hstep.1).trans hmem, fun n c hc hr => ?_, fun u rest hu hw hx => ?_⟩
  · have hct : t.ctx? n = some (c.awaits d) := by
      unfold State.ctx? at hc ⊢
      rw [hctxs, List.find?_map]
      have hp : (fun c : Context => decide (c.num = n)) ∘ Context.awaits d = fun c => decide (c.num = n) := by
        funext x
        rw [Function.comp_apply, awaits_num]
      rw [hp, hc]
      rfl
    have hst := stale_of_untouched hstep.1 n
    rw [hct] at hst
    obtain ⟨c', hc', hs⟩ := Option.map_eq_some_iff.1 hst
    exact ⟨c', hc', by rw [hs]; exact awaits_stale hr⟩
  · have hut := hupd.trans hu
    rw [heq, hut]
    dsimp only
    rw [if_pos (by simp [hw])]
    exact ((acked_effect hut d).2.1 hx).1

theorem translationEvents : Claims.TranslationEvents := by
  intro s i
  refine ⟨?_, fun u rest hu hw hd hfn => ?_, fun c d r h0 hc hst hres hfind hupd => ?_, fun h1 hd hen hres hq ha hidle => ?_, fun h2 hd => ?_⟩
  · intro c hc hst hd hres w ws
    refine ⟨fun hm hlen => ?_, fun l hm hl hsize h0 => ?_⟩
    · refine ⟨_, (exec_pageWalk hc hst hres rfl).2 hm hlen, ?_, onDie_eq ..⟩
      rw [onDie_die _ _ _ hd]
    · obtain ⟨t, hex, hleaf, hwalks, hmem, hctxs, htlb⟩ := pageWalkResults s hc hst hd hres rfl hm hl hsize h0 rfl
      refine ⟨t, hex, hleaf, hwalks, hmem, hctxs, ?_⟩
      obtain ⟨h8, hhead, hrest⟩ := dieTlbFill_props ⟨i.ctx, i.va.toNat / l.size * l.size, l.size, l.pte⟩ (s.die i.die).tlb
      rw [htlb]
      exact ⟨h8, List.mem_of_mem_head? hhead, hrest⟩
  · exact ⟨_, rfl, ackUpdate_effect hu hw hd hfn⟩
  · have hex := exec_replicaResync h0 hc hst hres hfind
    have hctx := ctx?_onCtx hc (f := Context.resynced i.die r) (fun _ => rfl)
    have hprops : i.die ∉ (c.resynced i.die r).stale ∧ tblGet (c.resynced i.die r).replicas i.die = some r ∧
        ∀ x, x ≠ i.die → (x ∈ (c.resynced i.die r).stale ↔ x ∈ c.stale) := by
      refine ⟨fun hm => absurd (List.mem_filter.1 hm).2 (by simp), (tblGet_tblPut ..).trans (if_pos rfl), fun x hx => ?_⟩
      exact List.mem_filter.trans (and_iff_left (by simp [hx]))
    rcases hupd with hnil | ⟨u, hu, hw⟩
    · rw [hnil] at hex
      exact ⟨_, _, hex, hctx, hprops⟩
    · rw [if_pos (List.any_eq_true.2 ⟨u, hu, by simp [hw]⟩)] at hex
      exact ⟨_, _, hex, hctx, hprops⟩
  · have hex : exec .replicaResync s = .next (s.dieReset i.die) := by
      change execReplicaResync s = _
      exact congrArg Host.Outcome.next (if_pos h1)
    exact ⟨_, hex, dieReset_effect hd ⟨hen, hres, hq, ha, hidle⟩⟩
  · have hex : exec .replicaResync s = .next (s.onDie i.die (fun d => { d with inReset := false })) := by
      change execReplicaResync s = _
      exact congrArg Host.Outcome.next ((if_neg (by rw [h2]; decide)).trans (if_pos h2))
    refine ⟨_, hex, ?_, onDie_eq ..⟩
    rw [onDie_die _ _ _ hd]

/-- Settles O35. -/
theorem loadsAndTranslations : Obligations.LoadsAndTranslations := ⟨loadDataArrives, translationEvents, lostLineIsPoisoned⟩

end Sys2Proof.Machine
end

section
/-!
LEMMAS. Token grants, the epoch boundary, the end of a lease and a wear measurement (spec/14 R289 to R292, R295, R297, R299, R303, R304).
-/
open Sys2Proof

namespace Sys2Proof.Machine

/-! ### Clusters -/

theorem onCluster_get {n : Nat} (h : n < 32) (f : Cluster → Cluster) (s : State) (m : Fin 32) :
    (s.onCluster n f).clusters[m] = if n = m.val then f s.clusters[m] else s.clusters[m] := by
  unfold State.onCluster
  rw [dif_pos h]
  by_cases hm : n = m.val
  · subst hm
    rw [if_pos rfl]
    exact Vector.getElem_set_self _
  · rw [if_neg hm]
    exact Vector.getElem_set_ne h m.isLt hm

theorem onCore_clusters (c : Nat) (f : Core → Core) (s : State) : (s.onCore c f).clusters = s.clusters := by
  unfold State.onCore
  split <;> rfl

theorem getCore_onCluster (n : Nat) (f : Cluster → Cluster) (s : State) (c : Nat) : (s.onCluster n f).getCore c = s.getCore c := by
  unfold State.onCluster
  split <;> rfl

/-! ### Token grants (R290 to R292) -/

section Grant

variable {s : State} {r : TokenReq} {rest : List TokenReq}

theorem exec_tokenGrant (h : (s.clusters[s.input.cluster]).reqs = r :: rest) : exec .tokenGrant s = .next
    (if (s.clusters[s.input.cluster]).balance < (min r.n (2 * (s.clusters[s.input.cluster]).refill) : Nat) then s
    else (s.onCluster s.input.cluster.val (fun c => { c with reqs := rest, balance := c.balance - r.n, drawn := c.drawn + r.n })).onCore r.core
      (fun c => { c with a := c.a.granted r })) := by
  change execTokenGrant s = _
  unfold execTokenGrant
  dsimp only
  rw [h]

theorem granted_credit {d : Reg} (hr : r.dst = some d) (hd : d ≠ 0) (a : Arch) : (a.granted r).rd d = word r.n ∧
    (a.granted r).sIsEmpty d = false ∧ (a.granted r).credit = min creditMax (a.credit + r.n * 16384) := by
  have hc (b : Arch) : (b.fillS d (word r.n)).credit = b.credit := by
    unfold Arch.fillS
    split <;> rfl
  unfold Arch.granted
  rw [hr]
  exact ⟨rd_fillS_same _ d _ hd, sIsEmpty_fillS_same _ _ hd, hc _⟩

theorem granted_routine (hr : r.dst = none) {n : Nat} {a : Arch} (heng : a.eng = .tokens n) :
    a.granted r = { a with eng := .timed n, stat := { a.stat with pw := false } } := by
  unfold Arch.granted
  rw [hr]
  dsimp only
  rw [heng]

end Grant

theorem tokenGrants : Claims.TokenGrants := by
  intro s r rest c h
  have hex := exec_tokenGrant h
  refine ⟨fun hlt => by rw [hex, if_pos hlt], fun hle => ?_⟩
  rw [if_neg (Int.not_lt.2 hle)] at hex
  obtain ⟨u, hu⟩ : ∃ u, u = s.onCluster s.input.cluster.val (fun c => { c with reqs := rest, balance := c.balance - r.n, drawn := c.drawn + r.n }) :=
    ⟨_, rfl⟩
  rw [← hu] at hex
  have hcl : u.clusters = s.clusters.set s.input.cluster { c with reqs := rest, balance := c.balance - r.n, drawn := c.drawn + r.n } := by
    rw [hu, State.onCluster, dif_pos s.input.cluster.isLt]
    rfl
  have hcore : (u.onCore r.core (fun c => { c with a := c.a.granted r })).getCore r.core =
      { s.getCore r.core with a := (s.getCore r.core).a.granted r } := by
    rw [getCore_onCore (f := fun c => { c with a := c.a.granted r }) (fun _ => rfl), if_pos rfl, hu, getCore_onCluster]
  refine ⟨_, hex, (onCore_clusters ..).trans hcl, fun d hd hd0 => ?_, fun n hd heng => ?_⟩
  · rw [hcore]
    exact granted_credit hd hd0 _
  · rw [hcore, granted_routine hd heng]
    exact ⟨rfl, rfl⟩

/-! ### What an epoch boundary does before it refills (R297, R299, R304) -/

/-- What the lease and wear rows leave alone. -/
structure Energy where
  bill : Fin 32 → List Nat × Int
  frame : Word
  epoch : Nat
  heat : Nat
  melt : Nat

def State.energy (s : State) : Energy := ⟨fun n => ((s.clusters[n]).enabled, (s.clusters[n]).balance), s.frame, s.epoch, s.heat, s.melt⟩

theorem energy_of_clusters {s t : State} (hc : ∀ n : Fin 32, (t.clusters[n]).enabled = (s.clusters[n]).enabled ∧ (t.clusters[n]).balance = (s.clusters[n]).balance)
    (hf : t.frame = s.frame) (he : t.epoch = s.epoch) (hh : t.heat = s.heat) (hm : t.melt = s.melt) : t.energy = s.energy := by
  unfold State.energy
  rw [hf, he, hh, hm]
  refine congrArg (fun b => Energy.mk b s.frame s.epoch s.heat s.melt) (funext (fun n => ?_))
  rw [(hc n).1, (hc n).2]

theorem onCluster_energy {n : Nat} {f : Cluster → Cluster} {s : State}
    (hf : ∀ h : n < 32, (f s.clusters[n]).enabled = (s.clusters[n]).enabled ∧ (f s.clusters[n]).balance = (s.clusters[n]).balance) :
    (s.onCluster n f).energy = s.energy := by
  by_cases hn : n < 32
  · refine energy_of_clusters (fun m => ?_) ?_ ?_ ?_ ?_
    · rw [onCluster_get hn]
      split
      next h =>
        obtain ⟨m, hm⟩ := m
        subst h
        exact hf hn
      next => exact ⟨rfl, rfl⟩
    all_goals
      unfold State.onCluster
      rw [dif_pos hn]
  · unfold State.onCluster
    rw [dif_neg hn]

theorem onCore_energy (c : Nat) (f : Core → Core) (s : State) : (s.onCore c f).energy = s.energy := by
  unfold State.onCore
  split <;> rfl

theorem mapClusters_energy (rf : Bool) {f : Cluster → Cluster} (hf : ∀ c, (f c).enabled = c.enabled ∧ (f c).balance = c.balance) (s : State) :
    ({ s with rf := rf, clusters := s.clusters.map f } : State).energy = s.energy := by
  refine energy_of_clusters (fun n => ?_) rfl rfl rfl rfl
  have h : ({ s with rf := rf, clusters := s.clusters.map f } : State).clusters[n] = f s.clusters[n] := Vector.getElem_map ..
  rw [h]
  exact hf _

theorem endLeaseTrap_energy (n cause : Nat) (s : State) : (s.endLeaseTrap n cause).energy = s.energy := by
  unfold State.endLeaseTrap
  split
  · split
    · exact (onCore_energy ..).trans (onCluster_energy (fun _ => ⟨rfl, rfl⟩))
    · rfl
  · rfl

theorem meltRows_energy (s : State) : s.meltRows.energy = s.energy := by
  have hall : ((List.range 32).foldl (fun s n => s.endLeaseTrap n 1) s).energy = s.energy :=
    foldl_preserves State.energy (fun s n => endLeaseTrap_energy n 1 s) _ s
  unfold State.meltRows
  generalize (List.range 32).foldl (fun s n => s.endLeaseTrap n 1) s = v at hall ⊢
  dsimp only
  split
  · exact (mapClusters_energy true (f := fun c => if c.st = .disabled then c else { c with st := .refreeze }) (fun c => by
      split <;> exact ⟨rfl, rfl⟩) v).trans hall
  · split
    · exact mapClusters_energy false (f := fun c => if c.st = .refreeze then { c with st := .base } else c) (fun c => by
        split <;> exact ⟨rfl, rfl⟩) s
    · rfl

theorem decideLease_energy (n : Nat) (r : LeaseReq) (s : State) : (s.decideLease n r).energy = s.energy := by
  unfold State.decideLease
  split
  · dsimp only
    split
    · exact onCore_energy ..
    · exact onCore_energy ..
    · exact onCore_energy ..
    · split
      · exact onCore_energy ..
      · exact (onCore_energy ..).trans (onCluster_energy (fun _ => ⟨rfl, rfl⟩))
  · rfl

theorem decideLeases_energy (s : State) : s.decideLeases.energy = s.energy := by
  refine foldl_preserves State.energy (fun s n => ?_) _ s
  split
  · refine (foldl_preserves State.energy (fun s r => decideLease_energy n r s) _ _).trans ?_
    exact onCluster_energy (fun _ => ⟨rfl, rfl⟩)
  · rfl

theorem logHost_energy (type : Nat) (die fn addr : Option Nat) (s : State) : (s.logHost type die fn addr).energy = s.energy := rfl

theorem wearRows_energy (s : State) : s.wearRows.energy = s.energy := by
  refine foldl_preserves State.energy (fun s n => ?_) _ s
  split
  next h =>
    dsimp only
    have hw : (s.onCluster n (fun _ => (s.clusters[n]).wear)).energy = s.energy := onCluster_energy (fun _ => ⟨rfl, rfl⟩)
    have hl : (if (s.clusters[n]).wear.marked && !(s.clusters[n]).marked then
        (s.onCluster n (fun _ => (s.clusters[n]).wear)).logHost 5 (some (n / 4)) none none
      else s.onCluster n (fun _ => (s.clusters[n]).wear)).energy = s.energy := by
      split
      · exact hw
      · exact hw
    split
    · exact (onCluster_energy (fun _ => ⟨rfl, rfl⟩)).trans ((endLeaseTrap_energy ..).trans hl)
    · exact hl
  next => rfl

theorem showWear_clusters (s : State) : s.showWear.clusters = s.clusters := by
  refine foldl_preserves State.clusters (fun s w => ?_) _ s
  dsimp only
  split <;> rfl

theorem showWear_energy (s : State) : s.showWear.energy = s.energy := by
  refine foldl_preserves State.energy (fun s w => ?_) _ s
  dsimp only
  split <;> rfl

/-! ### The refill of an epoch (R289, R290) -/

/-- The refills of clusters: one for each, within the bounds of R290. -/
def refillsOf (keys : List Nat) (xs : List (Nat × Nat)) : Prop := xs.map Prod.fst = keys ∧ ∀ x ∈ xs, 122 ≤ x.2 ∧ x.2 ≤ 752

/-- One leftover token for each cluster below 752. -/
def giveOne (acc : List (Nat × Nat) × Nat) (x : Nat × Nat) : List (Nat × Nat) × Nat :=
  if acc.2 ≠ 0 && x.2 < 752 then (acc.1 ++ [(x.1, x.2 + 1)], acc.2 - 1) else (acc.1 ++ [x], acc.2)

theorem giveOne_refills {keys : List Nat} {acc : List (Nat × Nat) × Nat} {x : Nat × Nat} (h : refillsOf keys acc.1) (hx : 122 ≤ x.2 ∧ x.2 ≤ 752) :
    refillsOf (keys ++ [x.1]) (giveOne acc x).1 := by
  obtain ⟨hk, hb⟩ := h
  have hadd (y : Nat × Nat) (hy : y.1 = x.1) (hyb : 122 ≤ y.2 ∧ y.2 ≤ 752) : refillsOf (keys ++ [x.1]) (acc.1 ++ [y]) := by
    refine ⟨by rw [List.map_append, hk, List.map_singleton, hy], fun z hz => ?_⟩
    rcases List.mem_append.1 hz with hz | hz
    · exact hb z hz
    · rw [List.mem_singleton.1 hz]
      exact hyb
  unfold giveOne
  split
  next h =>
    have hlt : x.2 < 752 := of_decide_eq_true (Bool.and_eq_true_iff.1 h).2
    exact hadd _ rfl ⟨by dsimp only; omega, by dsimp only; omega⟩
  next => exact hadd x rfl hx

theorem giveOnes_refills {keys ks : List Nat} {acc : List (Nat × Nat) × Nat} {xs : List (Nat × Nat)} (h : refillsOf keys acc.1)
    (hx : refillsOf ks xs) : refillsOf (keys ++ ks) (xs.foldl giveOne acc).1 := by
  induction xs generalizing acc keys ks with
  | nil =>
    obtain ⟨rfl, -⟩ := hx
    rwa [List.map_nil, List.append_nil]
  | cons x xs ih =>
    obtain ⟨rfl, hb⟩ := hx
    have hrest := ih (giveOne_refills h (hb x List.mem_cons_self)) ⟨rfl, fun y hy => hb y (List.mem_cons_of_mem _ hy)⟩
    rwa [List.append_assoc] at hrest

theorem giveLeft_refills {keys : List Nat} (fuel : Nat) {xs : List (Nat × Nat)} (left : Nat) (h : refillsOf keys xs) :
    refillsOf keys (giveLeft fuel xs left) := by
  induction fuel generalizing xs left with
  | zero => exact h
  | succ fuel ih =>
    unfold giveLeft
    split
    · exact h
    · have hone : refillsOf keys (xs.foldl giveOne ([], left)).1 :=
        giveOnes_refills (keys := []) ⟨rfl, fun x hx => absurd hx List.not_mem_nil⟩ h
      exact ih _ hone

/-- Every cluster that shares the pool has between 122 and 752 tokens. -/
theorem sharedRefills_refills (cs : List (Nat × Nat)) : refillsOf (cs.map Prod.fst) (sharedRefills cs) := by
  unfold sharedRefills
  dsimp only
  refine giveLeft_refills _ _ ⟨?_, fun x hx => ?_⟩
  · rw [List.map_map, List.map_map, List.map_map]
    rfl
  · obtain ⟨y, hy, rfl⟩ := List.mem_map.1 hx
    obtain ⟨w, hw, rfl⟩ := List.mem_map.1 hy
    exact ⟨Nat.le_add_right .., Nat.add_le_add_left (Nat.min_le_left ..) 122⟩

/-- A fold that changes each cluster once. -/
theorem foldl_onCluster_get (f : Nat → Cluster → Cluster) (k : Nat) (hk : k ≤ 32) (s : State) (m : Fin 32) :
    ((List.range k).foldl (fun s n => s.onCluster n (f n)) s).clusters[m] = if m.val < k then f m.val s.clusters[m] else s.clusters[m] := by
  induction k with
  | zero => rfl
  | succ k ih =>
    rw [List.range_succ, List.foldl_append, List.foldl_cons, List.foldl_nil, onCluster_get (by omega), ih (by omega)]
    by_cases h : k = m.val
    · rw [if_pos h, if_neg (by omega), if_pos (by omega), h]
    · rw [if_neg h]
      by_cases hlt : m.val < k
      · rw [if_pos hlt, if_pos (by omega)]
      · rw [if_neg hlt, if_neg (by omega)]

/-- What each cluster counts as drawn in the epoch that ends. -/
def State.drawn (s : State) : List (Nat × Nat) := s.sharing.map (fun c => (c.1, if s.epoch0 then 0 else c.2.drawn))

/-- The refill of a cluster without a lease. -/
def refillFor (rs : List (Nat × Nat)) (n : Nat) (c : Cluster) : Nat :=
  match c.lease with
  | some l => 8 * l.level / 10
  | none => ((rs.find? (fun x => x.1 = n)).map Prod.snd).getD c.refill

/-- A cluster at an epoch boundary. -/
def Cluster.refilled (r : Nat) (c : Cluster) : Cluster :=
  if c.enabled.isEmpty then c else { c with refill := r, balance := min (c.balance + r) (2 * r), drawn := 0 }

theorem refill_get (s : State) (n : Fin 32) : s.refill.clusters[n] =
    (s.clusters[n]).refilled (refillFor (sharedRefills s.drawn) n.val s.clusters[n]) := by
  have h := foldl_onCluster_get (fun n c => c.refilled (refillFor (sharedRefills s.drawn) n c)) 32 (Nat.le_refl _)
    ({ s with epoch0 := false } : State) n
  rw [if_pos n.isLt] at h
  exact h

theorem mem_sharing {s : State} {n : Fin 32} (he : (s.clusters[n]).enabled ≠ []) (hl : (s.clusters[n]).lease = none) :
    (n.val, s.clusters[n]) ∈ s.sharing := by
  refine List.mem_filter.2 ⟨List.mem_iff_getElem.2 ⟨n.val, by simp, ?_⟩, by simpa using And.intro he hl⟩
  simp

theorem refillFor_shared {s : State} {n : Fin 32} (he : (s.clusters[n]).enabled ≠ []) (hl : (s.clusters[n]).lease = none) :
    122 ≤ refillFor (sharedRefills s.drawn) n.val s.clusters[n] ∧ refillFor (sharedRefills s.drawn) n.val s.clusters[n] ≤ 752 := by
  obtain ⟨hkeys, hb⟩ := sharedRefills_refills s.drawn
  have hn : n.val ∈ (sharedRefills s.drawn).map Prod.fst := by
    rw [hkeys, State.drawn, List.map_map]
    exact List.mem_map.2 ⟨_, mem_sharing he hl, rfl⟩
  obtain ⟨x, hx, hxn⟩ := List.mem_map.1 hn
  obtain ⟨y, hy⟩ := Option.isSome_iff_exists.1 (List.find?_isSome.2 ⟨x, hx, by simpa using hxn⟩ :
    ((sharedRefills s.drawn).find? (fun x => x.1 = n.val)).isSome = true)
  unfold refillFor
  rw [hl, hy]
  exact hb y (List.mem_of_find?_eq_some hy)

theorem refill_effect (s : State) (n : Fin 32) (he : (s.clusters[n]).enabled ≠ []) :
    let c := s.refill.clusters[n]
    c.drawn = 0 ∧ c.balance = min ((s.clusters[n]).balance + c.refill) (2 * c.refill) ∧
      (∀ l, c.lease = some l → c.refill = 8 * l.level / 10) ∧ (c.lease = none → 122 ≤ c.refill ∧ c.refill ≤ 752) := by
  have hc : s.refill.clusters[n] = { s.clusters[n] with
      refill := refillFor (sharedRefills s.drawn) n.val s.clusters[n],
      balance := min ((s.clusters[n]).balance + refillFor (sharedRefills s.drawn) n.val s.clusters[n])
        (2 * refillFor (sharedRefills s.drawn) n.val s.clusters[n]), drawn := 0 } := by
    rw [refill_get]
    exact if_neg (by simpa using he)
  intro c
  change s.refill.clusters[n].drawn = 0 ∧ _
  rw [show c = s.refill.clusters[n] from rfl, hc]
  refine ⟨rfl, rfl, fun l hl => ?_, fun hl => refillFor_shared he hl⟩
  have hl' : (s.clusters[n]).lease = some l := hl
  change refillFor _ _ _ = _
  unfold refillFor
  rw [hl']

/-! ### The epoch boundary, the end of a lease, and a measurement -/

/-- The machine whose heat store has moved. -/
def State.heated (s : State) : State :=
  { s.countSprint with epoch := s.frame.toNat / 1000, heat := heatAfter s.heat s.input.len, melt := meltOf (heatAfter s.heat s.input.len) }

theorem exec_refillEpoch (s : State) : exec .refillEpoch s =
    .next (if s.frame.toNat % 1000 ≠ 0 || s.frame.toNat / 1000 = s.epoch then s
      else s.heated.meltRows.decideLeases.wearRows.refill.showWear) := rfl

theorem refill_rest (s : State) : s.refill.frame = s.frame ∧ s.refill.epoch = s.epoch ∧ s.refill.heat = s.heat ∧ s.refill.melt = s.melt := by
  have h (n : Nat) (f : Cluster → Cluster) (s : State) : ((s.onCluster n f).frame, (s.onCluster n f).epoch, (s.onCluster n f).heat, (s.onCluster n f).melt) =
      (s.frame, s.epoch, s.heat, s.melt) := by
    unfold State.onCluster
    split <;> rfl
  have hr : (s.refill.frame, s.refill.epoch, s.refill.heat, s.refill.melt) = (s.frame, s.epoch, s.heat, s.melt) := by
    unfold State.refill
    exact foldl_preserves (fun s : State => (s.frame, s.epoch, s.heat, s.melt)) (fun s n => h n _ s) _ _
  simpa [Prod.ext_iff] using hr

theorem refillEpoch_effect (s : State) (h0 : s.frame.toNat % 1000 = 0) (h1 : s.frame.toNat / 1000 ≠ s.epoch) :
    ∃ t, exec .refillEpoch s = .next t ∧ t.epoch = s.frame.toNat / 1000 ∧ t.frame = s.frame ∧ t.heat = heatAfter s.heat s.input.len ∧
      t.melt = meltOf t.heat ∧ ∀ n : Fin 32, (s.clusters[n]).enabled ≠ [] →
        let c := t.clusters[n]
        c.drawn = 0 ∧ c.balance = min ((s.clusters[n]).balance + c.refill) (2 * c.refill) ∧
        (∀ l, c.lease = some l → c.refill = 8 * l.level / 10) ∧ (c.lease = none → 122 ≤ c.refill ∧ c.refill ≤ 752) := by
  have hex := exec_refillEpoch s
  rw [if_neg (by simp [h0, h1])] at hex
  obtain ⟨v, hv⟩ : ∃ v, v = s.heated.meltRows.decideLeases.wearRows := ⟨_, rfl⟩
  rw [← hv] at hex
  have hve : v.energy = s.heated.energy := by
    rw [hv, wearRows_energy, decideLeases_energy, meltRows_energy]
  have hse (n : Fin 32) : ((s.heated.clusters[n]).enabled, (s.heated.clusters[n]).balance) = ((s.clusters[n]).enabled, (s.clusters[n]).balance) := by
    have h : s.heated.clusters[n] = if (s.clusters[n]).st = .sprint then { s.clusters[n] with sprintUs := (s.clusters[n]).sprintUs + 10 }
      else s.clusters[n] := Vector.getElem_map ..
    rw [h]
    split <;> rfl
  obtain ⟨hf, he, hh, hm⟩ := refill_rest v
  have hshow := showWear_energy v.refill
  refine ⟨_, hex, ?_, ?_, ?_, ?_, fun n hn => ?_⟩
  · exact ((congrArg Energy.epoch hshow).trans he).trans (congrArg Energy.epoch hve)
  · exact ((congrArg Energy.frame hshow).trans hf).trans (congrArg Energy.frame hve)
  · exact ((congrArg Energy.heat hshow).trans hh).trans (congrArg Energy.heat hve)
  · have hheat : v.refill.showWear.heat = heatAfter s.heat s.input.len :=
      ((congrArg Energy.heat hshow).trans hh).trans (congrArg Energy.heat hve)
    rw [hheat]
    exact ((congrArg Energy.melt hshow).trans hm).trans (congrArg Energy.melt hve)
  · have hbill := (congrFun (congrArg Energy.bill hve) n).trans (hse n)
    have hen : (v.clusters[n]).enabled = (s.clusters[n]).enabled := congrArg Prod.fst hbill
    have hbal : (v.clusters[n]).balance = (s.clusters[n]).balance := congrArg Prod.snd hbill
    have heff := refill_effect v n (by rw [hen]; exact hn)
    rw [hbal] at heff
    rw [showWear_clusters]
    exact heff

theorem leaseExpiry_effect (s : State) {l : Lease} (h : (s.clusters[s.input.cluster]).lease = some l) (he : l.expiry ≤ s.frame.toNat) :
    ∃ t, exec .leaseExpiry s = .next t ∧ (t.clusters[s.input.cluster]).lease = none ∧
      (s.core.id = l.core → s.core.busy = true → s.core.a.tcb = l.tcb → t.core.a.lx = some 0) := by
  have hend : s.endLeaseTrap s.input.cluster.val 0 = (s.onCluster s.input.cluster.val (Cluster.endLease s.sinceEpoch)).expire l 0 := by
    unfold State.endLeaseTrap
    rw [dif_pos s.input.cluster.isLt]
    have h' : (s.clusters[s.input.cluster.val]'s.input.cluster.isLt).lease = some l := h
    rw [h']
  have hex : exec .leaseExpiry s = .next ((s.onCluster s.input.cluster.val (Cluster.endLease s.sinceEpoch)).expire l 0) := by
    rw [← hend]
    change execLeaseExpiry s = _
    unfold execLeaseExpiry
    dsimp only
    rw [h]
    exact congrArg Host.Outcome.next (if_pos he)
  refine ⟨_, hex, ?_, fun hid hb ht => ?_⟩
  · have hcl : ((s.onCluster s.input.cluster.val (Cluster.endLease s.sinceEpoch)).expire l 0).clusters =
        (s.onCluster s.input.cluster.val (Cluster.endLease s.sinceEpoch)).clusters := onCore_clusters ..
    rw [hcl, onCluster_get s.input.cluster.isLt, if_pos rfl]
    rfl
  · unfold State.expire State.onCore
    rw [onCluster_core, if_pos hid]
    dsimp only
    rw [if_pos (by rw [hb, ht]; simp)]

theorem listSet_getD {α : Type} (l : List α) (k : Nat) (y d : α) (j : Nat) :
    (listSet l k y).getD j d = if j = k ∧ k < l.length then y else l.getD j d := by
  induction l generalizing k j with
  | nil => simp [listSet]
  | cons x xs ih =>
    cases k with
    | zero => cases j <;> simp [listSet]
    | succ k =>
      cases j with
      | zero => simp [listSet]
      | succ j =>
        have h := ih k j
        simpa [listSet] using h

theorem listSet_length {α : Type} (l : List α) (k : Nat) (y : α) : (listSet l k y).length = l.length := by
  induction l generalizing k with
  | nil => rfl
  | cons x xs ih => cases k <;> simp [listSet, ih]

/-- The drift that a frequency shows (R303). -/
def driftOf (mhz : Nat) : Nat := (Config.birthFreq - mhz) * 10000 / Config.birthFreq

/-- A core's drift is measured. -/
def State.measured (s : State) (p : Nat × Nat) : State :=
  s.onCluster (clusterOf p.1) (fun c => { c with drifts := listSet c.drifts (p.1 % 9) (max (driftOf p.2) (c.drifts.getD (p.1 % 9) 0)) })

/-- What a measurement makes of a cluster. -/
def Cluster.drifted (ps : List (Nat × Nat)) (n : Nat) (c x : Cluster) : Prop :=
  x.enabled = c.enabled ∧ x.drifts.length = c.drifts.length ∧ (∀ k, c.drifts.getD k 0 ≤ x.drifts.getD k 0) ∧
    ∀ p ∈ ps, clusterOf p.1 = n → p.1 % 9 < c.drifts.length → driftOf p.2 ≤ x.drifts.getD (p.1 % 9) 0

theorem measured_drifted (s : State) (p : Nat × Nat) (n : Fin 32) : (s.clusters[n]).drifted [p] n.val (s.measured p).clusters[n] := by
  by_cases hp : clusterOf p.1 = n.val
  · have hlt : clusterOf p.1 < 32 := by rw [hp]; exact n.isLt
    unfold State.measured
    rw [onCluster_get hlt, if_pos hp]
    refine ⟨rfl, listSet_length .., fun k => ?_, fun q hq _ hk => ?_⟩
    · dsimp only
      rw [listSet_getD]
      split
      next h => rw [h.1]; exact Nat.le_max_right ..
      next => exact Nat.le_refl _
    · rw [List.mem_singleton.1 hq] at hk ⊢
      dsimp only
      rw [listSet_getD, if_pos ⟨rfl, hk⟩]
      exact Nat.le_max_left ..
  · have hsame : (s.measured p).clusters[n] = s.clusters[n] := by
      unfold State.measured
      by_cases hlt : clusterOf p.1 < 32
      · rw [onCluster_get hlt, if_neg hp]
      · unfold State.onCluster
        rw [dif_neg hlt]
    rw [hsame]
    refine ⟨rfl, rfl, fun k => Nat.le_refl _, fun q hq hc => ?_⟩
    rw [List.mem_singleton.1 hq] at hc
    exact absurd hc hp

theorem foldl_measured_drifted (ps : List (Nat × Nat)) (s : State) (n : Fin 32) :
    (s.clusters[n]).drifted ps n.val (ps.foldl State.measured s).clusters[n] := by
  induction ps generalizing s with
  | nil => exact ⟨rfl, rfl, fun k => Nat.le_refl _, fun q hq => absurd hq List.not_mem_nil⟩
  | cons p ps ih =>
    obtain ⟨he, hlen, hle, hp⟩ := measured_drifted s p n
    obtain ⟨he', hlen', hle', hps⟩ := ih (s.measured p)
    refine ⟨he'.trans he, hlen'.trans hlen, fun k => Nat.le_trans (hle k) (hle' k), fun q hq hc hk => ?_⟩
    rcases List.mem_cons.1 hq with rfl | hq
    · exact Nat.le_trans (hp q (List.mem_singleton_self _) hc hk) (hle' _)
    · exact hps q hq hc (by rw [hlen]; exact hk)

theorem wearMeasurement_effect (s : State) (h : s.frame.toNat % 100000000 = 0) :
    ∃ t, exec .wearMeasurement s = .next t ∧ ∀ n : Fin 32, (t.clusters[n]).time = s.frame.toNat ∧
      (s.clusters[n]).drifted s.input.pairs n.val t.clusters[n] := by
  obtain ⟨v, hv⟩ : ∃ v, v = s.input.pairs.foldl State.measured s := ⟨_, rfl⟩
  have hframe : v.frame = s.frame := by
    rw [hv]
    exact foldl_preserves State.frame (fun s p => onCluster_frame ..) _ _
  have hex : exec .wearMeasurement s = .next (State.showWear { v with
      clusters := v.clusters.map (fun (c : Cluster) => { c with time := v.frame.toNat, measured := c.measured + 1 }) }) := by
    rw [hv]
    change execWearMeasurement s = _
    exact congrArg Host.Outcome.next (if_neg (not_not.2 h))
  refine ⟨_, hex, fun n => ?_⟩
  have hn := foldl_measured_drifted s.input.pairs s n
  rw [← hv] at hn
  rw [showWear_clusters]
  have hcl : ({ v with clusters := v.clusters.map (fun (c : Cluster) => { c with time := v.frame.toNat, measured := c.measured + 1 }) } : State).clusters[n] =
      { v.clusters[n] with time := v.frame.toNat, measured := (v.clusters[n]).measured + 1 } := Vector.getElem_map ..
  rw [hcl, hframe]
  exact ⟨rfl, hn⟩

theorem epochLeaseAndWearEvents : Claims.EpochLeaseAndWearEvents := by
  intro s f mw
  refine ⟨fun h => ?_, fun h0 h1 => ?_, fun l hl he => leaseExpiry_effect s hl he, fun h => ?_⟩
  · rw [exec_refillEpoch, if_pos (by simpa using h)]
  · obtain ⟨t, hex, hepoch, hframe, hheat, hmelt, hcl⟩ := refillEpoch_effect s h0 h1
    exact ⟨t, hex, hepoch, hframe, hheat, hmelt, hcl⟩
  · obtain ⟨t, hex, hcl⟩ := wearMeasurement_effect s h
    refine ⟨t, hex, fun n => ?_⟩
    obtain ⟨htime, hen, -, hle, hps⟩ := hcl n
    exact ⟨htime, hen, hle, hps⟩

/-- Settles O36. -/
theorem powerEvents : Obligations.PowerEvents := ⟨tokenGrants, epochLeaseAndWearEvents⟩

end Sys2Proof.Machine
end

section
/-!
LEMMAS. A cycle of a gang, phases of barriers, and reads of cells (spec/13 R271 to R279, R283 to R286).
-/
open Sys2Proof

namespace Sys2Proof

/-- Counts after `d` drops, `k` other arrivals and `l` leaves of phase P, and after `d'`, `k'` and `l'` of phase P + 1. -/
def Claims.Counts.after (c : Claims.Counts) (d k l d' k' l' : Nat) : Claims.Counts :=
  ⟨c.p, c.n - l, c.a + d + k, c.n1 - d - l - l', c.e + d' + k', c.d1 + d'⟩

/-- Counts after an arrival. -/
def Claims.Counts.arrived (drop : Bool) (ph : Nat) (c : Claims.Counts) : Claims.Counts :=
  if ph = c.p then { c with a := c.a + 1, n1 := if drop then c.n1 - 1 else c.n1 }
  else { c with e := c.e + 1, d1 := if drop then c.d1 + 1 else c.d1 }

/-- Counts after a leave. -/
def Claims.Counts.left (ph : Nat) (c : Claims.Counts) : Claims.Counts :=
  if ph = c.p then { c with n := c.n - 1, n1 := c.n1 - 1 }
  else if ph = (c.p + 1) % 2 ^ 32 then { c with n1 := c.n1 - 1 }
  else { c with d1 := c.d1 + 1 }

end Sys2Proof

namespace Sys2Proof.Machine

/-! ### The gang at an address (R271) -/

/-- The gang at an address of a context. -/
def State.gangAt (ctx : Nat) (va : Word) (s : State) : Option Gang := s.gangs.find? (fun g => g.ctx = ctx && g.va = va)

theorem gangAt_some {ctx : Nat} {va : Word} {s : State} {g : Gang} (h : s.gangAt ctx va = some g) : g.ctx = ctx ∧ g.va = va := by
  simpa using List.find?_some h

theorem gangAt_of_gangs {ctx : Nat} {va : Word} {s t : State} (h : t.gangs = s.gangs) : t.gangAt ctx va = s.gangAt ctx va :=
  congrArg (List.find? _) h

theorem onGang_gangAt {ctx : Nat} {va : Word} {f : Gang → Gang} (s : State)
    (hf : ∀ g : Gang, g.ctx = ctx → g.va = va → (f g).ctx = ctx ∧ (f g).va = va) :
    (s.onGang ctx va f).gangAt ctx va = (s.gangAt ctx va).map f := by
  unfold State.gangAt State.onGang
  dsimp only
  induction s.gangs with
  | nil => rfl
  | cons g gs ih =>
    by_cases hg : g.ctx = ctx ∧ g.va = va
    · obtain ⟨hctx, hva⟩ := hf g hg.1 hg.2
      rw [List.map_cons, List.find?_cons_of_pos (by simp [hg, hctx, hva]), List.find?_cons_of_pos (by simp [hg])]
      simp [hg]
    · have hno : ¬((decide (g.ctx = ctx) && decide (g.va = va)) = true) := by simpa using hg
      rw [List.map_cons, if_neg hno]
      simp only [List.find?_cons, Bool.eq_false_iff.2 hno, ih]

theorem acquireOn_gangs (c : Nat) (s : State) : (s.acquireOn c).gangs = s.gangs := by
  have honDie (f : Die → Die) (d : Nat) (s : State) : (s.onDie d f).gangs = s.gangs := by
    unfold State.onDie
    split <;> rfl
  unfold State.acquireOn State.onCore
  split <;> exact honDie ..

theorem gangFill_gangs (ctx : Nat) (key : Word) (op x : Nat) (acq : Bool) (s : State) :
    (s.gangFill ctx key op x acq).gangs = s.gangs := by
  unfold State.gangFill State.acquireFor
  dsimp only
  split
  · split
    · rw [acquireOn_gangs]
      rfl
    · rfl
  · rfl

theorem gangFill_gangAt (ctx : Nat) (va key : Word) (op x : Nat) (acq : Bool) (s : State) :
    (s.gangFill ctx key op x acq).gangAt ctx va = s.gangAt ctx va := gangAt_of_gangs (gangFill_gangs ..)

/-! ### What each operation makes of the gang (R274, R275, R277) -/

/-- A gang after an arrival. -/
def Gang.arrived (r : Reach) (drop wait : Bool) (g : Gang) : Gang :=
  if r.o.ph = g.p then
    { g with a := g.a + 1, n1 := if drop then g.n1 - 1 else g.n1,
             waits := if wait then g.waits ++ [⟨r.tcb, r.o.id, r.o.ph⟩] else g.waits }
  else
    { g with e := g.e + 1, d1 := if drop then g.d1 + 1 else g.d1,
             waits := if wait then g.waits ++ [⟨r.tcb, r.o.id, r.o.ph⟩] else g.waits,
             early := if wait then g.early else g.early ++ [⟨r.tcb, r.o.id, r.o.ph⟩] }

theorem gangArrive_none {ctx : Nat} {va : Word} {s : State} (h : s.gangAt ctx va = none) (r : Reach) (drop wait : Bool) :
    s.gangArrive ctx va r drop wait = s := by
  unfold State.gangAt at h
  unfold State.gangArrive
  rw [h]

/-- An arrival of the current phase that does not wait is answered at once. -/
theorem gangArrive_some {ctx : Nat} {va : Word} {s : State} {g : Gang} (h : s.gangAt ctx va = some g) (r : Reach) (drop wait : Bool) :
    s.gangArrive ctx va r drop wait =
      if r.o.ph = g.p ∧ wait = false then (s.onGang ctx va (fun _ => g.arrived r drop wait)).gangFill ctx r.tcb r.o.id r.o.ph false
      else s.onGang ctx va (fun _ => g.arrived r drop wait) := by
  unfold State.gangAt at h
  unfold State.gangArrive Gang.arrived
  rw [h]
  dsimp only
  cases wait <;> by_cases hph : r.o.ph = g.p <;> simp [hph]

theorem arrived_ident (r : Reach) (drop wait : Bool) (g : Gang) : (g.arrived r drop wait).ctx = g.ctx ∧ (g.arrived r drop wait).va = g.va := by
  unfold Gang.arrived
  split <;> exact ⟨rfl, rfl⟩

theorem onGang_const_gangAt {ctx : Nat} {va : Word} {s : State} {g g' : Gang} (h : s.gangAt ctx va = some g) (hctx : g'.ctx = g.ctx)
    (hva : g'.va = g.va) : (s.onGang ctx va (fun _ => g')).gangAt ctx va = some g' := by
  obtain ⟨h1, h2⟩ := gangAt_some h
  rw [onGang_gangAt s (fun _ _ _ => ⟨hctx.trans h1, hva.trans h2⟩), h, Option.map_some]

theorem gangArrive_gangAt {ctx : Nat} {va : Word} {s : State} {g : Gang} (h : s.gangAt ctx va = some g) (r : Reach) (drop wait : Bool) :
    (s.gangArrive ctx va r drop wait).gangAt ctx va = some (g.arrived r drop wait) := by
  obtain ⟨hctx, hva⟩ := arrived_ident r drop wait g
  rw [gangArrive_some h]
  split
  · rw [gangFill_gangAt, onGang_const_gangAt h hctx hva]
  · exact onGang_const_gangAt h hctx hva

theorem gangLeave_gangAt (ctx : Nat) (va : Word) (s : State) (r : Reach) :
    ((s.onGang ctx va (fun g => g.leave r.o.ph)).gangFill ctx r.tcb r.o.id 0 false).gangAt ctx va =
      (s.gangAt ctx va).map (fun g => g.leave r.o.ph) := by
  rw [gangFill_gangAt, onGang_gangAt]
  intro g hctx hva
  unfold Gang.leave
  split
  · exact ⟨hctx, hva⟩
  · split <;> exact ⟨hctx, hva⟩

theorem askFor_gangs (k ctx : Nat) (tcb : Word) (s : State) : (s.askFor k ctx tcb).gangs = s.gangs := by
  unfold State.askFor
  split <;> rfl

theorem gangJoin_some {ctx : Nat} {va : Word} {s : State} {g : Gang} (h : s.gangAt ctx va = some g) (r : Reach) :
    s.gangJoin ctx va r =
      (s.onGang ctx va (fun g => { g with n1 := g.n1 + 1 })).gangFill ctx r.tcb r.o.id ((g.p + 1) % 2 ^ 32) false := by
  unfold State.gangAt at h
  unfold State.gangJoin
  rw [h]

/-- The first member makes the gang. -/
def Gang.founded (ctx : Nat) (va : Word) : Gang := ⟨ctx, va, 0, 1, 0, 1, 0, 0, [], []⟩

/-- Without a gang a join makes one; the state may ask for room besides. -/
theorem gangJoin_none {ctx : Nat} {va : Word} {s : State} (h : s.gangAt ctx va = none) (r : Reach) :
    ∃ t : State, s.gangJoin ctx va r = t.gangFill ctx r.tcb r.o.id 0 false ∧ t.gangs = s.gangs ++ [Gang.founded ctx va] ∧ t.core = s.core := by
  unfold State.gangAt at h
  unfold State.gangJoin
  rw [h]
  dsimp only
  refine ⟨_, rfl, ?_⟩
  have hask (k : Nat) (tcb : Word) (t : State) : (t.askFor k ctx tcb).gangs = t.gangs ∧ (t.askFor k ctx tcb).core = t.core := by
    unfold State.askFor
    split <;> exact ⟨rfl, rfl⟩
  split
  · exact hask ..
  · exact ⟨rfl, rfl⟩

theorem gangJoin_gangAt (ctx : Nat) (va : Word) (s : State) (r : Reach) :
    (s.gangJoin ctx va r).gangAt ctx va =
      some (((s.gangAt ctx va).map (fun g => { g with n1 := g.n1 + 1 })).getD (Gang.founded ctx va)) := by
  cases h : s.gangAt ctx va with
  | some g =>
    rw [gangJoin_some h, gangFill_gangAt, onGang_gangAt, h]
    · rfl
    · exact fun _ h1 h2 => ⟨h1, h2⟩
  | none =>
    obtain ⟨t, ht, hg, -⟩ := gangJoin_none h r
    rw [ht, gangFill_gangAt]
    unfold State.gangAt at h ⊢
    rw [hg, List.find?_append, h]
    simp [Gang.founded]

/-- A gang with a wait more. -/
def Gang.waiting (w : GangWait) (g : Gang) : Gang := { g with waits := g.waits ++ [w] }

theorem gangWait_gangAt (ctx : Nat) (va : Word) (s : State) (r : Reach) (b : Nat) :
    (s.gangWait ctx va r b).gangAt ctx va =
      (s.gangAt ctx va).map (fun g => if phasePast g.p b then g else g.waiting ⟨r.tcb, r.o.id, b⟩) := by
  unfold State.gangWait
  split
  next h =>
    rw [show s.gangAt ctx va = none from h]
    rfl
  next g h =>
    have hat : s.gangAt ctx va = some g := h
    split
    next hp =>
      rw [gangFill_gangAt, hat, Option.map_some, if_pos hp]
    next hp =>
      rw [onGang_gangAt, hat, Option.map_some, Option.map_some, if_neg hp]
      · rfl
      · exact fun _ h1 h2 => ⟨h1, h2⟩

/-- A gang whose phase completes. -/
def Gang.completed (g : Gang) : Gang :=
  { g with p := (g.p + 1) % 2 ^ 32, n := g.n1, n1 := g.n1 - g.d1, a := g.e, e := 0, d1 := 0, early := [],
           waits := g.waits.filter (fun w => !phaseDone ((g.p + 1) % 2 ^ 32) w.b) }

/-- The answers that a gang's completion gives: the early arrivals, then the waits that are over. -/
def State.gangAnswered (ctx : Nat) (g : Gang) (s : State) : State :=
  (g.waits.filter (fun w => phaseDone ((g.p + 1) % 2 ^ 32) w.b)).foldl (fun s w => s.gangFill ctx w.tcb w.op ((g.p + 1) % 2 ^ 32) true)
    (g.early.foldl (fun s w => s.gangFill ctx w.tcb w.op w.b false) s)

theorem gangAnswered_gangs (ctx : Nat) (g : Gang) (s : State) : (s.gangAnswered ctx g).gangs = s.gangs := by
  unfold State.gangAnswered
  rw [foldl_preserves State.gangs (fun _ _ => gangFill_gangs ..), foldl_preserves State.gangs (fun _ _ => gangFill_gangs ..)]

theorem gangComplete_none {ctx : Nat} {va : Word} {s : State} (h : s.gangAt ctx va = none) : s.gangComplete ctx va = s := by
  unfold State.gangAt at h
  unfold State.gangComplete
  rw [h]

theorem gangComplete_open {ctx : Nat} {va : Word} {s : State} {g : Gang} (h : s.gangAt ctx va = some g) (ha : g.a ≠ g.n) :
    s.gangComplete ctx va = s := by
  unfold State.gangAt at h
  unfold State.gangComplete
  rw [h]
  exact if_pos ha

theorem gangComplete_full {ctx : Nat} {va : Word} {s : State} {g : Gang} (h : s.gangAt ctx va = some g) (ha : g.a = g.n) :
    s.gangComplete ctx va =
      if g.n1 - g.d1 = 0 then
        { (s.onGang ctx va (fun _ => g.completed)).gangAnswered ctx g with
          gangs := ((s.onGang ctx va (fun _ => g.completed)).gangAnswered ctx g).gangs.filter (fun g => !(g.ctx = ctx && g.va = va)) }
      else (s.onGang ctx va (fun _ => g.completed)).gangAnswered ctx g := by
  unfold State.gangAt at h
  unfold State.gangComplete
  rw [h]
  exact if_neg (not_not_intro ha)

theorem gangComplete_gangAt {ctx : Nat} {va : Word} {s : State} {g : Gang} (h : s.gangAt ctx va = some g) :
    (s.gangComplete ctx va).gangAt ctx va =
      if g.a ≠ g.n then some g else if g.n1 - g.d1 = 0 then none else some g.completed := by
  by_cases ha : g.a = g.n
  · rw [gangComplete_full h ha, if_neg (not_not_intro ha)]
    split
    · refine List.find?_eq_none.2 (fun x hx => ?_)
      have hno := (List.mem_filter.1 hx).2
      rw [Bool.not_eq_true'] at hno
      exact Bool.eq_false_iff.1 hno
    · rw [gangAt_of_gangs (gangAnswered_gangs ..)]
      exact onGang_const_gangAt h rfl rfl
  · rw [gangComplete_open h ha, if_pos ha, h]

theorem markSent_gangs (ctx : Nat) (r : Reach) (s : State) : (s.markSent ctx r).gangs = s.gangs := rfl

/-! ### The counts of a cycle (R274, R275) -/

/-- The counts of the gang at an address, if there is one. -/
def State.countsAt (ctx : Nat) (va : Word) (s : State) : Option Claims.Counts := (s.gangAt ctx va).map Claims.countsOf

/-- How many operations of a kind and a phase reach a gang. -/
def reachCount (rs : List Reach) (k : GangKind) (ph : Nat) : Nat := rs.countP (fun r => r.o.kind = k && r.o.ph = ph)

theorem after_after (c : Claims.Counts) (d k l d' k' l' x y z x' y' z' : Nat) :
    (c.after d k l d' k' l').after x y z x' y' z' = c.after (d + x) (k + y) (l + z) (d' + x') (k' + y') (l' + z') := by
  simp only [Claims.Counts.after, Claims.Counts.mk.injEq, true_and]
  omega

theorem gangArrive_counts (ctx : Nat) (va : Word) (r : Reach) (drop wait : Bool) (s : State) :
    (s.gangArrive ctx va r drop wait).countsAt ctx va = (s.countsAt ctx va).map (Claims.Counts.arrived drop r.o.ph) := by
  unfold State.countsAt
  cases h : s.gangAt ctx va with
  | none => rw [gangArrive_none h, h]; rfl
  | some g =>
    rw [gangArrive_gangAt h]
    refine congrArg some ?_
    unfold Gang.arrived Claims.Counts.arrived Claims.countsOf
    dsimp only
    split <;> rfl

theorem gangLeave_counts (ctx : Nat) (va : Word) (r : Reach) (s : State) :
    ((s.onGang ctx va (fun g => g.leave r.o.ph)).gangFill ctx r.tcb r.o.id 0 false).countsAt ctx va =
      (s.countsAt ctx va).map (Claims.Counts.left r.o.ph) := by
  unfold State.countsAt
  rw [gangLeave_gangAt, Option.map_map, Option.map_map]
  refine congrArg (fun f => Option.map f _) (funext fun g => ?_)
  simp only [Function.comp_apply]
  unfold Gang.leave Claims.Counts.left Claims.countsOf
  dsimp only
  split
  · rfl
  · split <;> rfl

/-- The three passes of a cycle before the completion check: drops, then the other arrivals, then leaves. -/
def State.dropPass (ctx : Nat) (va : Word) (s : State) (r : Reach) : State :=
  match r.o.kind with
  | .arrive true => s.gangArrive ctx va r true false
  | _ => s

@[inherit_doc State.dropPass]
def State.arrivePass (ctx : Nat) (va : Word) (s : State) (r : Reach) : State :=
  match r.o.kind with
  | .arrive false => s.gangArrive ctx va r false false
  | .sstep => s.gangArrive ctx va r false true
  | _ => s

@[inherit_doc State.dropPass]
def State.leavePass (ctx : Nat) (va : Word) (s : State) (r : Reach) : State :=
  match r.o.kind with
  | .leave => (s.onGang ctx va (fun g => g.leave r.o.ph)).gangFill ctx r.tcb r.o.id 0 false
  | _ => s

/-- The joins of a cycle, after the completion check. -/
def State.joinPass (ctx : Nat) (va : Word) (s : State) (r : Reach) : State :=
  match r.o.kind with
  | .join => s.gangJoin ctx va r
  | _ => s

/-- The waits of a cycle, which come last. -/
def State.waitPass (ctx : Nat) (va : Word) (s : State) (r : Reach) : State :=
  match r.o.kind with
  | .bwait b => s.gangWait ctx va r b
  | _ => s

/-- A gang's cycle is these passes, one after the other. -/
theorem gangCycle_eq (ctx : Nat) (va : Word) (rs : List Reach) (s : State) :
    s.gangCycle ctx va rs =
      rs.foldl (State.waitPass ctx va) (rs.foldl (State.joinPass ctx va) (State.gangComplete ctx va
        (rs.foldl (State.leavePass ctx va) (rs.foldl (State.arrivePass ctx va) (rs.foldl (State.dropPass ctx va)
          (rs.foldl (fun s r => s.markSent ctx r) s)))))) := rfl

/-- A pass whose every operation adds to the counts as predicates on it say adds what the predicates count. -/
theorem pass_counts {ctx : Nat} {va : Word} {f : State → Reach → State} {p : Nat} {D K L D' K' L' : Reach → Bool} (rs : List Reach)
    (hf : ∀ r ∈ rs, ∀ (s : State) (c : Claims.Counts), s.countsAt ctx va = some c → c.p = p → (f s r).countsAt ctx va =
      some (c.after (D r).toNat (K r).toNat (L r).toNat (D' r).toNat (K' r).toNat (L' r).toNat))
    {s : State} {c : Claims.Counts} (h : s.countsAt ctx va = some c) (hp : c.p = p) :
    (rs.foldl f s).countsAt ctx va = some (c.after (rs.countP D) (rs.countP K) (rs.countP L) (rs.countP D') (rs.countP K') (rs.countP L')) := by
  induction rs generalizing s c with
  | nil => exact h
  | cons r rs ih =>
    have hr := hf r List.mem_cons_self s c h hp
    rw [List.foldl_cons, ih (fun r hr => hf r (List.mem_cons_of_mem _ hr)) hr hp, after_after]
    have hsucc (P : Reach → Bool) : (r :: rs).countP P = (P r).toNat + rs.countP P := by
      rw [List.countP_cons, Nat.add_comm]
      cases P r <;> rfl
    simp only [hsucc]

/-- Whether an operation is of a kind and a phase. -/
def Reach.has (k : GangKind) (ph : Nat) (r : Reach) : Bool := r.o.kind = k && r.o.ph = ph

/-- Whether an operation is an arrival of a phase that stays a member. -/
def Reach.stays (ph : Nat) (r : Reach) : Bool := r.has (.arrive false) ph || r.has .sstep ph

theorem countP_stays (rs : List Reach) (ph : Nat) :
    rs.countP (Reach.stays ph) = reachCount rs (.arrive false) ph + reachCount rs .sstep ph := by
  induction rs with
  | nil => rfl
  | cons r rs ih =>
    have hone : ¬(r.o.kind = .arrive false ∧ r.o.kind = .sstep) := by
      rintro ⟨h, h'⟩
      cases h.symm.trans h'
    simp only [reachCount, List.countP_cons, ih, Reach.stays, Reach.has]
    by_cases h : r.o.kind = .arrive false <;> by_cases h' : r.o.kind = .sstep <;> by_cases hph : r.o.ph = ph <;> simp_all <;> omega

/-- An operation of one of the two phases that a cycle knows. -/
def Reach.timely (p : Nat) (r : Reach) : Prop := r.o.ph = p ∨ r.o.ph = (p + 1) % 2 ^ 32

theorem arrived_timely {p : Nat} {r : Reach} (h : r.timely p) (drop : Bool) {c : Claims.Counts} (hp : c.p = p) :
    c.arrived drop r.o.ph = if drop then c.after (decide (r.o.ph = p)).toNat 0 0 (decide (r.o.ph = (p + 1) % 2 ^ 32)).toNat 0 0
      else c.after 0 (decide (r.o.ph = p)).toNat 0 0 (decide (r.o.ph = (p + 1) % 2 ^ 32)).toNat 0 := by
  have hne : (p + 1) % 2 ^ 32 ≠ p := by omega
  unfold Claims.Counts.arrived Claims.Counts.after
  unfold Reach.timely at h
  generalize (p + 1) % 2 ^ 32 = n at hne h ⊢
  rcases h with h | h
  · cases drop <;> simp [h, hp, hne.symm]
  · cases drop <;> simp [h, hp, hne]

theorem left_timely {p : Nat} {r : Reach} (h : r.timely p) {c : Claims.Counts} (hp : c.p = p) :
    c.left r.o.ph = c.after 0 0 (decide (r.o.ph = p)).toNat 0 0 (decide (r.o.ph = (p + 1) % 2 ^ 32)).toNat := by
  subst hp
  have hne : (c.p + 1) % 2 ^ 32 ≠ c.p := by omega
  unfold Claims.Counts.left Claims.Counts.after
  unfold Reach.timely at h
  generalize (c.p + 1) % 2 ^ 32 = n at hne h ⊢
  rcases h with h | h
  · simp [h, hne.symm]
  · simp [h, hne]

theorem after_zero (c : Claims.Counts) : c.after 0 0 0 0 0 0 = c := rfl

theorem dropPass_counts {ctx : Nat} {va : Word} {p : Nat} {r : Reach} (h : r.o.kind = .arrive true → r.timely p) {s : State}
    {c : Claims.Counts} (hc : s.countsAt ctx va = some c) (hp : c.p = p) :
    (s.dropPass ctx va r).countsAt ctx va =
      some (c.after (r.has (.arrive true) p).toNat 0 0 (r.has (.arrive true) ((p + 1) % 2 ^ 32)).toNat 0 0) := by
  by_cases hk : r.o.kind = .arrive true
  · have hs : s.dropPass ctx va r = s.gangArrive ctx va r true false := by
      unfold State.dropPass
      rw [hk]
    rw [hs, gangArrive_counts, hc, Option.map_some, arrived_timely (h hk) true hp]
    simp [Reach.has, hk]
  · have hs : s.dropPass ctx va r = s := by
      unfold State.dropPass
      split
      · exact absurd ‹_› hk
      · rfl
    rw [hs, hc]
    simp [Reach.has, hk, after_zero]

theorem arrivePass_counts {ctx : Nat} {va : Word} {p : Nat} {r : Reach} (h : r.o.kind = .arrive false ∨ r.o.kind = .sstep → r.timely p)
    {s : State} {c : Claims.Counts} (hc : s.countsAt ctx va = some c) (hp : c.p = p) :
    (s.arrivePass ctx va r).countsAt ctx va = some (c.after 0 (r.stays p).toNat 0 0 (r.stays ((p + 1) % 2 ^ 32)).toNat 0) := by
  by_cases hk : r.o.kind = .arrive false ∨ r.o.kind = .sstep
  · have hs : ∃ wait, s.arrivePass ctx va r = s.gangArrive ctx va r false wait := by
      unfold State.arrivePass
      rcases hk with hk | hk <;> exact ⟨_, by rw [hk]⟩
    obtain ⟨wait, hs⟩ := hs
    rw [hs, gangArrive_counts, hc, Option.map_some, arrived_timely (h hk) false hp]
    rcases hk with hk | hk <;> simp [Reach.stays, Reach.has, hk]
  · obtain ⟨ha, hb⟩ := not_or.1 hk
    have hs : s.arrivePass ctx va r = s := by
      unfold State.arrivePass
      split
      · exact absurd ‹_› ha
      · exact absurd ‹_› hb
      · rfl
    rw [hs, hc]
    simp [Reach.stays, Reach.has, ha, hb, after_zero]

theorem leavePass_counts {ctx : Nat} {va : Word} {p : Nat} {r : Reach} (h : r.o.kind = .leave → r.timely p) {s : State}
    {c : Claims.Counts} (hc : s.countsAt ctx va = some c) (hp : c.p = p) :
    (s.leavePass ctx va r).countsAt ctx va =
      some (c.after 0 0 (r.has .leave p).toNat 0 0 (r.has .leave ((p + 1) % 2 ^ 32)).toNat) := by
  by_cases hk : r.o.kind = .leave
  · have hs : s.leavePass ctx va r = (s.onGang ctx va (fun g => g.leave r.o.ph)).gangFill ctx r.tcb r.o.id 0 false := by
      unfold State.leavePass
      rw [hk]
    rw [hs, gangLeave_counts, hc, Option.map_some, left_timely (h hk) hp]
    simp [Reach.has, hk]
  · have hs : s.leavePass ctx va r = s := by
      unfold State.leavePass
      split
      · exact absurd ‹_› hk
      · rfl
    rw [hs, hc]
    simp [Reach.has, hk, after_zero]

theorem gangComplete_counts (ctx : Nat) (va : Word) (s : State) :
    (s.gangComplete ctx va).countsAt ctx va = (s.countsAt ctx va).bind Claims.Counts.checked := by
  unfold State.countsAt
  cases h : s.gangAt ctx va with
  | none => rw [gangComplete_none h, h]; rfl
  | some g =>
    rw [gangComplete_gangAt h]
    change _ = Claims.Counts.checked (Claims.countsOf g)
    unfold Claims.Counts.checked Claims.countsOf
    dsimp only
    split
    · rfl
    · split <;> rfl

theorem joinPass_counts (ctx : Nat) (va : Word) (rs : List Reach) (s : State) :
    (rs.foldl (State.joinPass ctx va) s).countsAt ctx va =
      Claims.Counts.joined (rs.countP (fun r => r.o.kind = .join)) (s.countsAt ctx va) := by
  induction rs generalizing s with
  | nil => cases h : s.countsAt ctx va <;> simp [Claims.Counts.joined, h]
  | cons r rs ih =>
    rw [List.foldl_cons, ih, List.countP_cons]
    by_cases hk : r.o.kind = .join
    · have hs : s.joinPass ctx va r = s.gangJoin ctx va r := by
        unfold State.joinPass
        rw [hk]
      have hc : (s.gangJoin ctx va r).countsAt ctx va = Claims.Counts.joined 1 (s.countsAt ctx va) := by
        unfold State.countsAt
        rw [gangJoin_gangAt]
        cases s.gangAt ctx va <;> rfl
      rw [hs, hc]
      cases s.countsAt ctx va <;> simp [Claims.Counts.joined, hk, Nat.add_comm, Nat.add_left_comm, Nat.add_assoc]
    · have hs : s.joinPass ctx va r = s := by
        unfold State.joinPass
        split
        · exact absurd ‹_› hk
        · rfl
      simp [hs, hk]

theorem countsOf_waiting (past : Bool) (w : GangWait) (g : Gang) :
    Claims.countsOf (if past then g else g.waiting w) = Claims.countsOf g := by
  cases past <;> rfl

theorem gangWait_counts (ctx : Nat) (va : Word) (r : Reach) (b : Nat) (s : State) :
    (s.gangWait ctx va r b).countsAt ctx va = s.countsAt ctx va := by
  rw [State.countsAt, State.countsAt, gangWait_gangAt]
  cases s.gangAt ctx va with
  | none => rw [Option.map_none]
  | some g => rw [Option.map_some, Option.map_some, Option.map_some, countsOf_waiting]

theorem waitPass_counts (ctx : Nat) (va : Word) (rs : List Reach) (s : State) :
    (rs.foldl (State.waitPass ctx va) s).countsAt ctx va = s.countsAt ctx va := by
  refine foldl_preserves (State.countsAt ctx va) (fun s r => ?_) rs s
  unfold State.waitPass
  split
  · exact gangWait_counts ..
  · rfl

theorem passes_none {ctx : Nat} {va : Word} {s : State} (h : s.gangAt ctx va = none) (rs : List Reach) :
    (rs.foldl (State.leavePass ctx va) (rs.foldl (State.arrivePass ctx va) (rs.foldl (State.dropPass ctx va) s))).gangAt ctx va = none := by
  have hfold (f : State → Reach → State) (hf : ∀ t r, t.gangAt ctx va = none → (f t r).gangAt ctx va = none) {s : State}
      (h : s.gangAt ctx va = none) : (rs.foldl f s).gangAt ctx va = none :=
    List.foldlRecOn rs f h (fun t ht r _ => hf t r ht)
  refine hfold _ (fun t r ht => ?_) (hfold _ (fun t r ht => ?_) (hfold _ (fun t r ht => ?_) h))
  · unfold State.leavePass
    split
    · rw [gangLeave_gangAt, ht, Option.map_none]
    · exact ht
  · unfold State.arrivePass
    split
    · rwa [gangArrive_none ht]
    · rwa [gangArrive_none ht]
    · exact ht
  · unfold State.dropPass
    split
    · rwa [gangArrive_none ht]
    · exact ht

theorem markSents_gangAt (ctx : Nat) (va : Word) (rs : List Reach) (s : State) :
    (rs.foldl (fun s r => s.markSent ctx r) s).gangAt ctx va = s.gangAt ctx va :=
  gangAt_of_gangs (foldl_preserves State.gangs (fun s r => markSent_gangs ctx r s) rs s)

theorem exec_gangCycle {s : State} {l : Word × Nat} (h : s.leaf? (s.ctxDie s.input.ctx) s.input.ctx s.input.va.toNat = some l) :
    exec .gangCycle s = .next (s.gangCycle s.input.ctx s.input.va (s.reaching s.input.ctx s.input.va s.input.pairs)) := by
  change execGangCycle s = _
  unfold execGangCycle
  dsimp only
  rw [h]
  rfl

theorem gangCycle_counts_none {ctx : Nat} {va : Word} {s : State} (h : s.gangAt ctx va = none) (rs : List Reach) :
    (s.gangCycle ctx va rs).countsAt ctx va = Claims.Counts.joined (rs.countP (fun r => r.o.kind = .join)) none := by
  have hn := passes_none ((markSents_gangAt ctx va rs s).trans h) rs
  rw [gangCycle_eq, waitPass_counts, joinPass_counts, gangComplete_none hn, State.countsAt, hn, Option.map_none]

theorem gangCycle_counts {ctx : Nat} {va : Word} {s : State} {g : Gang} (h : s.gangAt ctx va = some g) (rs : List Reach)
    (hrs : ∀ r ∈ rs, r.o.kind = .join ∨ (∃ b, r.o.kind = .bwait b) ∨ r.timely g.p) :
    (s.gangCycle ctx va rs).countsAt ctx va = Claims.Counts.joined (rs.countP (fun r => r.o.kind = .join))
      (((Claims.countsOf g).after (rs.countP (Reach.has (.arrive true) g.p)) (rs.countP (Reach.stays g.p)) (rs.countP (Reach.has .leave g.p))
        (rs.countP (Reach.has (.arrive true) ((g.p + 1) % 2 ^ 32))) (rs.countP (Reach.stays ((g.p + 1) % 2 ^ 32)))
        (rs.countP (Reach.has .leave ((g.p + 1) % 2 ^ 32)))).checked) := by
  have htime (r : Reach) (hr : r ∈ rs) (hj : r.o.kind ≠ .join) (hb : ∀ b, r.o.kind ≠ .bwait b) : r.timely g.p := by
    obtain hk | ⟨b, hk⟩ | ht := hrs r hr
    · exact absurd hk hj
    · exact absurd hk (hb b)
    · exact ht
  have h0 : (rs.foldl (fun s r => s.markSent ctx r) s).countsAt ctx va = some (Claims.countsOf g) := by
    rw [State.countsAt, markSents_gangAt, h, Option.map_some]
  have h1 := pass_counts (D := Reach.has (.arrive true) g.p) (K := fun _ => false) (L := fun _ => false)
    (D' := Reach.has (.arrive true) ((g.p + 1) % 2 ^ 32)) (K' := fun _ => false) (L' := fun _ => false) rs
    (fun r hr s c hc hp => dropPass_counts (fun hk => htime r hr (by simp [hk]) (by simp [hk])) hc hp) h0 rfl
  have h2 := pass_counts (D := fun _ => false) (K := Reach.stays g.p) (L := fun _ => false) (D' := fun _ => false)
    (K' := Reach.stays ((g.p + 1) % 2 ^ 32)) (L' := fun _ => false) rs
    (fun r hr s c hc hp => arrivePass_counts (fun hk => htime r hr (by rcases hk with hk | hk <;> simp [hk])
      (by rcases hk with hk | hk <;> simp [hk])) hc hp) h1 rfl
  have h3 := pass_counts (D := fun _ => false) (K := fun _ => false) (L := Reach.has .leave g.p) (D' := fun _ => false)
    (K' := fun _ => false) (L' := Reach.has .leave ((g.p + 1) % 2 ^ 32)) rs
    (fun r hr s c hc hp => leavePass_counts (fun hk => htime r hr (by simp [hk]) (by simp [hk])) hc hp) h2 rfl
  rw [gangCycle_eq, waitPass_counts, joinPass_counts, gangComplete_counts, h3, Option.bind_some, after_after, after_after]
  simp only [List.countP_false, Function.const_apply, Nat.zero_add, Nat.add_zero]

/-- The counts of a gang's cycle. -/
theorem gangCounts : Claims.GangCounts := by
  intro s l i rs at_ joins hl
  refine ⟨fun hn => ⟨_, exec_gangCycle hl, gangCycle_counts_none hn _⟩, fun g hg => ?_⟩
  intro next num arrived hrs
  refine ⟨_, exec_gangCycle hl, (gangCycle_counts hg _ hrs).trans ?_⟩
  rw [countP_stays, countP_stays]
  rfl

end Sys2Proof.Machine
end

section
/-!
LEMMAS. The answers of a gang to a task that runs on the acting core (spec/13 R274, R275, R277, R279).
-/
open Sys2Proof

namespace Sys2Proof.Machine

/-! ### The task part on the acting core -/

/-- The acting core runs the named task part, whose state is `a`. -/
def State.sits (ctx : Nat) (w : Word) (a : Arch) (s : State) : Prop := s.core.runs ctx w = true ∧ s.core.a = a

theorem runs_iff (c : Core) (ctx : Nat) (w : Word) : c.runs ctx w = true ↔ c.busy = true ∧ c.a.ctx = ctx ∧ c.a.key = w := by
  simp [Core.runs, and_assoc]

theorem sits_iff {ctx : Nat} {w : Word} {a : Arch} {s : State} :
    s.sits ctx w a ↔ s.core.busy = true ∧ a.ctx = ctx ∧ a.key = w ∧ s.core.a = a := by
  unfold State.sits
  rw [runs_iff]
  constructor
  · rintro ⟨⟨hb, hc, hk⟩, rfl⟩
    exact ⟨hb, hc, hk, rfl⟩
  · rintro ⟨hb, hc, hk, rfl⟩
    exact ⟨⟨hb, hc, hk⟩, rfl⟩

theorem sits_of_core {ctx : Nat} {w : Word} {a : Arch} {s t : State} (h : s.sits ctx w a) (hb : t.core.busy = s.core.busy)
    (ha : t.core.a = s.core.a) : t.sits ctx w a := by
  obtain ⟨hbusy, hctx, hkey, rfl⟩ := sits_iff.1 h
  exact sits_iff.2 ⟨hb.trans hbusy, hctx, hkey, ha⟩

/-- A change of the named part that keeps whose part it is. -/
theorem sits_onTaskArch_own {ctx : Nat} {w : Word} {a : Arch} {s : State} (h : s.sits ctx w a) {f : Arch → Arch} (hctx : (f a).ctx = a.ctx)
    (hkey : (f a).key = a.key) : (s.onTaskArch ctx w f).sits ctx w (f a) := by
  obtain ⟨hruns, rfl⟩ := h
  have hc : (s.onTaskArch ctx w f).core = { s.core with a := f s.core.a } := if_pos hruns
  obtain ⟨hbusy, hc1, hk1⟩ := (runs_iff ..).1 hruns
  exact sits_iff.2 ⟨by rw [hc]; exact hbusy, hctx.trans hc1, hkey.trans hk1, by rw [hc]⟩

theorem sits_onTaskArch_other {ctx : Nat} {w key : Word} {a : Arch} {s : State} (h : s.sits ctx w a) (hne : key ≠ w) (f : Arch → Arch) :
    (s.onTaskArch ctx key f).sits ctx w a := by
  have hkey := (sits_iff.1 h).2.2
  have hno : ¬s.core.runs ctx key = true := by
    rw [runs_iff]
    rintro ⟨-, -, hk⟩
    exact hne (hk.symm.trans (by rw [hkey.2]; exact hkey.1))
  have hc : (s.onTaskArch ctx key f).core = { s.core with inl := s.core.inl.map (Frame.onTask ctx key f) } := if_neg hno
  exact sits_of_core h (by rw [hc]) (by rw [hc])

theorem sits_acquireOn {ctx : Nat} {w : Word} {a : Arch} {s : State} (h : s.sits ctx w a) (c : Nat) : (s.acquireOn c).sits ctx w a := by
  unfold State.acquireOn State.onCore
  split <;> exact sits_of_core h (by rw [onDie_core]) (by rw [onDie_core])

theorem sits_gangFill_other {ctx : Nat} {w key : Word} {a : Arch} {s : State} (h : s.sits ctx w a) (hne : key ≠ w) (op x : Nat)
    (acq : Bool) : (s.gangFill ctx key op x acq).sits ctx w a := by
  have hfill := sits_onTaskArch_other h hne (fun a => a.gangDone op x)
  unfold State.gangFill State.acquireFor
  dsimp only
  split
  · split
    · exact sits_acquireOn hfill _
    · exact sits_onTaskArch_other hfill hne _
  · exact hfill

theorem gangDone_ident (a : Arch) (op x : Nat) : (a.gangDone op x).ctx = a.ctx ∧ (a.gangDone op x).key = a.key := by
  have hfill (b : Arch) (r : Reg) (y : Word) : (b.fillS r y).ctx = b.ctx ∧ (b.fillS r y).key = b.key := by
    unfold Arch.fillS
    split <;> exact ⟨rfl, rfl⟩
  unfold Arch.gangDone
  split
  · exact ⟨rfl, rfl⟩
  · dsimp only
    split
    · exact hfill ..
    · exact ⟨rfl, rfl⟩
    · exact hfill ..

/-- The core that runs the part performs its acquires. -/
theorem coreOf_of_sits {ctx : Nat} {w : Word} {a : Arch} {s : State} (h : s.sits ctx w a) : s.coreOf ctx w = some s.core.id := by
  unfold State.coreOf State.coreIds
  refine List.find?_cons_of_pos ?_
  rw [show s.getCore s.core.id = s.core from if_pos rfl]
  exact h.1

theorem sits_gangFill_own {ctx : Nat} {w : Word} {a : Arch} {s : State} (h : s.sits ctx w a) (op x : Nat) (acq : Bool) :
    (s.gangFill ctx w op x acq).sits ctx w (a.gangDone op x) := by
  obtain ⟨hctx, hkey⟩ := gangDone_ident a op x
  have hfill := sits_onTaskArch_own h (f := fun a => a.gangDone op x) hctx hkey
  unfold State.gangFill State.acquireFor
  dsimp only
  split
  · rw [coreOf_of_sits hfill]
    exact sits_acquireOn hfill _
  · exact hfill

theorem sits_gangFills {ctx : Nat} {w : Word} {a : Arch} (x : GangWait → Nat) (acq : Bool) (ws : List GangWait)
    (hws : ∀ y ∈ ws, y.tcb ≠ w) {s : State} (h : s.sits ctx w a) :
    (ws.foldl (fun s y => s.gangFill ctx y.tcb y.op (x y) acq) s).sits ctx w a :=
  List.foldlRecOn ws _ h (fun _ ht y hy => sits_gangFill_other ht (hws y hy) ..)

theorem sits_gangAnswered {ctx : Nat} {w : Word} {a : Arch} {g : Gang} (hg : ∀ y ∈ g.waits ++ g.early, y.tcb ≠ w) {s : State}
    (h : s.sits ctx w a) : (s.gangAnswered ctx g).sits ctx w a := by
  refine sits_gangFills (fun _ => (g.p + 1) % 2 ^ 32) true _ (fun y hy => hg y (List.mem_append_left _ (List.mem_filter.1 hy).1)) ?_
  exact sits_gangFills (fun y => y.b) false _ (fun y hy => hg y (List.mem_append_right _ hy)) h

theorem sits_gangComplete_of_answered {ctx : Nat} {va w : Word} {a : Arch} {s : State} {g : Gang} (hg : s.gangAt ctx va = some g)
    (ha : g.a = g.n) (h : ((s.onGang ctx va (fun _ => g.completed)).gangAnswered ctx g).sits ctx w a) :
    (s.gangComplete ctx va).sits ctx w a := by
  rw [gangComplete_full hg ha]
  split
  · exact sits_of_core h rfl rfl
  · exact h

theorem sits_gangComplete {ctx : Nat} {va w : Word} {a : Arch} {s : State} {g : Gang} (hg : s.gangAt ctx va = some g)
    (hws : ∀ y ∈ g.waits ++ g.early, y.tcb ≠ w) (h : s.sits ctx w a) : (s.gangComplete ctx va).sits ctx w a := by
  by_cases ha : g.a = g.n
  · exact sits_gangComplete_of_answered hg ha (sits_gangAnswered hws (sits_of_core h rfl rfl))
  · rwa [gangComplete_open hg ha]

theorem sits_gangAnswered_early {ctx : Nat} {w : Word} {a : Arch} {g : Gang} {es : List GangWait} {op b : Nat}
    (he : g.early = es ++ [⟨w, op, b⟩]) (hes : ∀ y ∈ g.waits ++ es, y.tcb ≠ w) {s : State} (h : s.sits ctx w a) :
    (s.gangAnswered ctx g).sits ctx w (a.gangDone op b) := by
  refine sits_gangFills (fun _ => (g.p + 1) % 2 ^ 32) true _ (fun y hy => hes y (List.mem_append_left _ (List.mem_filter.1 hy).1)) ?_
  rw [he, List.foldl_append]
  exact sits_gangFill_own (sits_gangFills (fun y => y.b) false _ (fun y hy => hes y (List.mem_append_right _ hy)) h) op b false

theorem sits_gangAnswered_waits {ctx : Nat} {w : Word} {a : Arch} {g : Gang} {ws : List GangWait} {op b : Nat}
    (hw : g.waits = ws ++ [⟨w, op, b⟩]) (hdone : phaseDone ((g.p + 1) % 2 ^ 32) b = true) (hws : ∀ y ∈ ws ++ g.early, y.tcb ≠ w)
    {s : State} (h : s.sits ctx w a) : (s.gangAnswered ctx g).sits ctx w (a.gangDone op ((g.p + 1) % 2 ^ 32)) := by
  unfold State.gangAnswered
  have hone : [(⟨w, op, b⟩ : GangWait)].filter (fun y => phaseDone ((g.p + 1) % 2 ^ 32) y.b) = [⟨w, op, b⟩] :=
    List.filter_cons_of_pos hdone
  rw [hw, List.filter_append, List.foldl_append, hone]
  refine sits_gangFill_own ?_ op _ true
  refine sits_gangFills (fun _ => (g.p + 1) % 2 ^ 32) true _ (fun y hy => hws y (List.mem_append_left _ (List.mem_filter.1 hy).1)) ?_
  exact sits_gangFills (fun y => y.b) false _ (fun y hy => hws y (List.mem_append_right _ hy)) h

/-! ### The answer of an operation -/

/-- The operations of a task part, of which `id` is sent. -/
def Arch.sentOp (a : Arch) (id : Nat) : Arch :=
  { a with gangOps := a.gangOps.map (fun o => if o.id = id then { o with sent := true } else o) }

theorem sits_markSent {ctx : Nat} {w : Word} {a : Arch} {s : State} (h : s.sits ctx w a) (core : Nat) (o : GangOp) :
    (s.markSent ctx ⟨core, w, o⟩).sits ctx w (a.sentOp o.id) := sits_onTaskArch_own (f := fun a => a.sentOp o.id) h rfl rfl

theorem find_sentOp {a : Arch} {o : GangOp} (h : a.gangOps.find? (fun y => y.id = o.id) = some o) :
    (a.sentOp o.id).gangOps.find? (fun y => y.id = o.id) = some { o with sent := true } := by
  unfold Arch.sentOp
  dsimp only
  generalize a.gangOps = ops at h ⊢
  induction ops with
  | nil => cases h
  | cons y ys ih =>
    by_cases hy : y.id = o.id
    · rw [List.find?_cons_of_pos (by simpa using hy)] at h
      cases h
      simp
    · rw [List.find?_cons_of_neg (by simpa using hy)] at h
      rw [List.map_cons, if_neg hy, List.find?_cons_of_neg (by simpa using hy)]
      exact ih h

/-- A part whose operation `id` has been answered with `x`, at register `d`. -/
def Arch.answered (a : Arch) (id : Nat) (d : Reg) (x : Nat) : Prop :=
  a.rd d = BitVec.ofNat 64 x ∧ a.sIsEmpty d = false ∧ ∀ y ∈ a.gangOps, y.id ≠ id

theorem gangDone_of_find {a : Arch} {o : GangOp} (h : a.gangOps.find? (fun y => y.id = o.id) = some o) (x : Nat) :
    (∀ y ∈ (a.gangDone o.id x).gangOps, y.id ≠ o.id) ∧ (o.kind ≠ .leave → ∃ b : Arch, a.gangDone o.id x = b.fillS o.dst (word x)) := by
  have hops : ∀ y ∈ a.gangOps.filter (fun y => y.id ≠ o.id), y.id ≠ o.id := fun y hy => by simpa using (List.mem_filter.1 hy).2
  have hfill (b : Arch) (r : Reg) (y : Word) : (b.fillS r y).gangOps = b.gangOps := by
    unfold Arch.fillS
    split <;> rfl
  unfold Arch.gangDone
  rw [h]
  dsimp only
  split
  · refine ⟨fun y hy => ?_, fun _ => ⟨_, rfl⟩⟩
    rw [hfill] at hy
    obtain ⟨z, hz, rfl⟩ := List.mem_map.1 hy
    have := hops z hz
    split <;> exact this
  · exact ⟨hops, fun hk => absurd ‹_› hk⟩
  · refine ⟨fun y hy => ?_, fun _ => ⟨_, rfl⟩⟩
    rw [hfill] at hy
    exact hops y hy

theorem answered_of_find {a : Arch} {o : GangOp} (h : a.gangOps.find? (fun y => y.id = o.id) = some o) (hk : o.kind ≠ .leave)
    (hd : o.dst ≠ 0) (x : Nat) : (a.gangDone o.id x).answered o.id o.dst x := by
  obtain ⟨hops, hfill⟩ := gangDone_of_find h x
  obtain ⟨b, hb⟩ := hfill hk
  refine ⟨?_, ?_, hops⟩
  · rw [hb, rd_fillS_same _ _ _ hd]
    rfl
  · rw [hb, sIsEmpty_fillS_same _ _ hd]

/-! ### The cycle of one operation -/

section
variable {ctx : Nat} {va : Word} {r : Reach} (s : State)

theorem gangCycle_join (hk : r.o.kind = .join) :
    s.gangCycle ctx va [r] = ((s.markSent ctx r).gangComplete ctx va).gangJoin ctx va r := by
  simp [gangCycle_eq, State.dropPass, State.arrivePass, State.leavePass, State.joinPass, State.waitPass, hk]

theorem gangCycle_arrive {drop : Bool} (hk : r.o.kind = .arrive drop) :
    s.gangCycle ctx va [r] = ((s.markSent ctx r).gangArrive ctx va r drop false).gangComplete ctx va := by
  cases drop <;> simp [gangCycle_eq, State.dropPass, State.arrivePass, State.leavePass, State.joinPass, State.waitPass, hk]

theorem gangCycle_sstep (hk : r.o.kind = .sstep) :
    s.gangCycle ctx va [r] = ((s.markSent ctx r).gangArrive ctx va r false true).gangComplete ctx va := by
  simp [gangCycle_eq, State.dropPass, State.arrivePass, State.leavePass, State.joinPass, State.waitPass, hk]

theorem gangCycle_leave (hk : r.o.kind = .leave) :
    s.gangCycle ctx va [r] =
      (((s.markSent ctx r).onGang ctx va (fun g => g.leave r.o.ph)).gangFill ctx r.tcb r.o.id 0 false).gangComplete ctx va := by
  simp [gangCycle_eq, State.dropPass, State.arrivePass, State.leavePass, State.joinPass, State.waitPass, hk]

theorem gangCycle_bwait {b : Nat} (hk : r.o.kind = .bwait b) :
    s.gangCycle ctx va [r] = ((s.markSent ctx r).gangComplete ctx va).gangWait ctx va r b := by
  simp [gangCycle_eq, State.dropPass, State.arrivePass, State.leavePass, State.joinPass, State.waitPass, hk]

theorem gangCycle_nil : s.gangCycle ctx va [] = s.gangComplete ctx va := rfl

end

/-- The outcome in which operation `o` of the acting core's part is answered with `x`. -/
def State.gangAnswer (t : State) (o : GangOp) (x : Nat) : Prop :=
  t.core.a.rd o.dst = BitVec.ofNat 64 x ∧ t.core.a.sIsEmpty o.dst = false ∧ ∀ y ∈ t.core.a.gangOps, y.id ≠ o.id

/-- The outcome in which operation `o` waits at the gang, and nothing is answered. -/
def State.gangKeeps (s t : State) (ctx : Nat) (va w : Word) (o : GangOp) (ws : Gang → List GangWait) (b : Nat) : Prop :=
  ∃ g, t.gangAt ctx va = some g ∧ (⟨w, o.id, b⟩ : GangWait) ∈ ws g ∧ t.core.a.s = s.core.a.s ∧ t.core.a.sEmpty = s.core.a.sEmpty ∧
    { o with sent := true } ∈ t.core.a.gangOps

section
variable {ctx : Nat} {va w : Word} {s : State} {o : GangOp}

theorem gangAnswer_of_sits {a : Arch} {t : State} (hf : a.gangOps.find? (fun y => y.id = o.id) = some o) (hk : o.kind ≠ .leave)
    (hd : o.dst ≠ 0) {x : Nat} (h : t.sits ctx w ((a.sentOp o.id).gangDone o.id x)) : t.gangAnswer o x := by
  have hsent := find_sentOp hf
  have := answered_of_find (o := { o with sent := true }) hsent hk hd x
  unfold State.gangAnswer
  rw [h.2]
  exact this

theorem gangKeeps_of_sits {t : State} {g : Gang} {ws : Gang → List GangWait} {b : Nat}
    (hf : s.core.a.gangOps.find? (fun y => y.id = o.id) = some o) (h : t.sits ctx w (s.core.a.sentOp o.id))
    (hg : t.gangAt ctx va = some g) (hw : (⟨w, o.id, b⟩ : GangWait) ∈ ws g) : s.gangKeeps t ctx va w o ws b := by
  refine ⟨g, hg, hw, ?_, ?_, ?_⟩
  · rw [h.2]
    rfl
  · rw [h.2]
    rfl
  · rw [h.2]
    exact List.mem_of_find?_eq_some (find_sentOp hf)

variable (hrun : s.core.runs ctx w = true) (hf : s.core.a.gangOps.find? (fun y => y.id = o.id) = some o) (hd : o.dst ≠ 0) {core : Nat}

include hrun

theorem sits_marked : (s.markSent ctx ⟨core, w, o⟩).sits ctx w (s.core.a.sentOp o.id) := sits_markSent ⟨hrun, rfl⟩ core o

include hf hd

theorem join_none_answer (hg : s.gangAt ctx va = none) (hk : o.kind = .join) : (s.gangCycle ctx va [⟨core, w, o⟩]).gangAnswer o 0 := by
  have hm : (s.markSent ctx ⟨core, w, o⟩).gangAt ctx va = none := hg
  obtain ⟨t, ht, -, hcore⟩ := gangJoin_none hm ⟨core, w, o⟩
  rw [gangCycle_join s (r := ⟨core, w, o⟩) hk, gangComplete_none hm, ht]
  refine gangAnswer_of_sits hf (by simp [hk]) hd (sits_gangFill_own ?_ o.id 0 false)
  exact sits_of_core (sits_marked hrun) (by rw [hcore]) (by rw [hcore])

theorem join_some_answer {g : Gang} (hg : s.gangAt ctx va = some g) (hws : ∀ x ∈ g.waits ++ g.early, x.tcb ≠ w) (hk : o.kind = .join)
    (hlive : ¬(g.a = g.n ∧ g.n1 - g.d1 = 0)) :
    (s.gangCycle ctx va [⟨core, w, o⟩]).gangAnswer o (((if g.a = g.n then (g.p + 1) % 2 ^ 32 else g.p) + 1) % 2 ^ 32) := by
  have hm : (s.markSent ctx ⟨core, w, o⟩).gangAt ctx va = some g := hg
  have hc : ((s.markSent ctx ⟨core, w, o⟩).gangComplete ctx va).gangAt ctx va = some (if g.a = g.n then g.completed else g) := by
    rw [gangComplete_gangAt hm]
    by_cases ha : g.a = g.n
    · rw [if_neg (not_not_intro ha), if_neg (fun h => hlive ⟨ha, h⟩), if_pos ha]
    · rw [if_pos ha, if_neg ha]
  have hp : (if g.a = g.n then g.completed else g).p = if g.a = g.n then (g.p + 1) % 2 ^ 32 else g.p := by
    split <;> rfl
  rw [gangCycle_join s (r := ⟨core, w, o⟩) hk, gangJoin_some hc, hp]
  refine gangAnswer_of_sits hf (by simp [hk]) hd (sits_gangFill_own ?_ o.id _ false)
  exact sits_of_core (sits_gangComplete hm hws (sits_marked hrun)) rfl rfl

theorem arrive_now_answer {g : Gang} (hg : s.gangAt ctx va = some g) (hws : ∀ x ∈ g.waits ++ g.early, x.tcb ≠ w) {drop : Bool}
    (hk : o.kind = .arrive drop) (hp : o.ph = g.p) : (s.gangCycle ctx va [⟨core, w, o⟩]).gangAnswer o o.ph := by
  have hm : (s.markSent ctx ⟨core, w, o⟩).gangAt ctx va = some g := hg
  rw [gangCycle_arrive s (r := ⟨core, w, o⟩) hk]
  refine gangAnswer_of_sits (w := w) hf (by simp [hk]) hd (sits_gangComplete (gangArrive_gangAt hm ⟨core, w, o⟩ drop false) ?_ ?_)
  · unfold Gang.arrived
    rw [if_pos hp]
    exact hws
  · rw [gangArrive_some hm, if_pos ⟨hp, rfl⟩]
    exact sits_gangFill_own (sits_of_core (sits_marked hrun) rfl rfl) o.id o.ph false

theorem arrive_next_answer {g : Gang} (hg : s.gangAt ctx va = some g) (hws : ∀ x ∈ g.waits ++ g.early, x.tcb ≠ w) {drop : Bool}
    (hk : o.kind = .arrive drop) (hp : o.ph ≠ g.p) (ha : g.a = g.n) : (s.gangCycle ctx va [⟨core, w, o⟩]).gangAnswer o o.ph := by
  have hm : (s.markSent ctx ⟨core, w, o⟩).gangAt ctx va = some g := hg
  have harr : g.arrived ⟨core, w, o⟩ drop false =
      { g with e := g.e + 1, d1 := if drop then g.d1 + 1 else g.d1, early := g.early ++ [⟨w, o.id, o.ph⟩] } := if_neg hp
  have hs := gangArrive_some hm ⟨core, w, o⟩ drop false
  rw [if_neg (fun h => hp h.1)] at hs
  have hat := gangArrive_gangAt hm ⟨core, w, o⟩ drop false
  rw [harr] at hat
  rw [gangCycle_arrive s (r := ⟨core, w, o⟩) hk]
  refine gangAnswer_of_sits (w := w) hf (by simp [hk]) hd (sits_gangComplete_of_answered hat ha ?_)
  refine sits_gangAnswered_early (es := g.early)
    (g := { g with e := g.e + 1, d1 := if drop then g.d1 + 1 else g.d1, early := g.early ++ [⟨w, o.id, o.ph⟩] }) rfl hws ?_
  rw [hs]
  exact sits_of_core (sits_marked hrun) rfl rfl

omit hd in
theorem arrive_next_keeps {g : Gang} (hg : s.gangAt ctx va = some g) {drop : Bool}
    (hk : o.kind = .arrive drop) (hp : o.ph ≠ g.p) (ha : g.a ≠ g.n) :
    s.gangKeeps (s.gangCycle ctx va [⟨core, w, o⟩]) ctx va w o Gang.early o.ph := by
  have hm : (s.markSent ctx ⟨core, w, o⟩).gangAt ctx va = some g := hg
  have harr : g.arrived ⟨core, w, o⟩ drop false =
      { g with e := g.e + 1, d1 := if drop then g.d1 + 1 else g.d1, early := g.early ++ [⟨w, o.id, o.ph⟩] } := if_neg hp
  have hat := gangArrive_gangAt hm ⟨core, w, o⟩ drop false
  rw [harr] at hat
  rw [gangCycle_arrive s (r := ⟨core, w, o⟩) hk, gangComplete_open hat ha]
  refine gangKeeps_of_sits hf ?_ hat (by simp)
  rw [gangArrive_some hm, if_neg (fun h => hp h.1)]
  exact sits_of_core (sits_marked hrun) rfl rfl

theorem sstep_answer {g : Gang} (hg : s.gangAt ctx va = some g) (hws : ∀ x ∈ g.waits ++ g.early, x.tcb ≠ w) (hlt : g.p < 2 ^ 32)
    (hk : o.kind = .sstep) (hp : o.ph = g.p) (ha : g.a + 1 = g.n) :
    (s.gangCycle ctx va [⟨core, w, o⟩]).gangAnswer o ((g.p + 1) % 2 ^ 32) := by
  have hm : (s.markSent ctx ⟨core, w, o⟩).gangAt ctx va = some g := hg
  have harr : g.arrived ⟨core, w, o⟩ false true = { g with a := g.a + 1, waits := g.waits ++ [⟨w, o.id, o.ph⟩] } := if_pos hp
  have hat := gangArrive_gangAt hm ⟨core, w, o⟩ false true
  rw [harr] at hat
  have hdone : phaseDone ((g.p + 1) % 2 ^ 32) o.ph = true := by
    unfold phaseDone
    rw [decide_eq_true_eq, hp]
    omega
  rw [gangCycle_sstep s (r := ⟨core, w, o⟩) hk]
  refine gangAnswer_of_sits (w := w) hf (by simp [hk]) hd (sits_gangComplete_of_answered hat ha ?_)
  refine sits_gangAnswered_waits (ws := g.waits) (g := { g with a := g.a + 1, waits := g.waits ++ [⟨w, o.id, o.ph⟩] }) rfl hdone hws ?_
  rw [gangArrive_some hm, if_neg (fun h => Bool.noConfusion h.2)]
  exact sits_of_core (sits_marked hrun) rfl rfl

omit hd in
theorem sstep_keeps {g : Gang} (hg : s.gangAt ctx va = some g) (hk : o.kind = .sstep) (hp : o.ph = g.p) (ha : g.a + 1 ≠ g.n) :
    s.gangKeeps (s.gangCycle ctx va [⟨core, w, o⟩]) ctx va w o Gang.waits o.ph := by
  have hm : (s.markSent ctx ⟨core, w, o⟩).gangAt ctx va = some g := hg
  have harr : g.arrived ⟨core, w, o⟩ false true = { g with a := g.a + 1, waits := g.waits ++ [⟨w, o.id, o.ph⟩] } := if_pos hp
  have hat := gangArrive_gangAt hm ⟨core, w, o⟩ false true
  rw [harr] at hat
  rw [gangCycle_sstep s (r := ⟨core, w, o⟩) hk, gangComplete_open hat ha]
  refine gangKeeps_of_sits hf ?_ hat (by simp)
  rw [gangArrive_some hm, if_neg (fun h => Bool.noConfusion h.2)]
  exact sits_of_core (sits_marked hrun) rfl rfl

omit hd in
/-- A leave has no destination: it only leaves the outstanding operations. -/
theorem leave_done {g : Gang} (hg : s.gangAt ctx va = some g) (hws : ∀ x ∈ g.waits ++ g.early, x.tcb ≠ w) (hk : o.kind = .leave) :
    ∀ y ∈ (s.gangCycle ctx va [⟨core, w, o⟩]).core.a.gangOps, y.id ≠ o.id := by
  have hm : (s.markSent ctx ⟨core, w, o⟩).gangAt ctx va = some g := hg
  have hat := gangLeave_gangAt ctx va (s.markSent ctx ⟨core, w, o⟩) ⟨core, w, o⟩
  rw [hm, Option.map_some] at hat
  have hleft : ∀ x ∈ (g.leave o.ph).waits ++ (g.leave o.ph).early, x.tcb ≠ w := by
    unfold Gang.leave
    split
    · exact hws
    · split <;> exact hws
  rw [gangCycle_leave s (r := ⟨core, w, o⟩) hk,
    (sits_gangComplete hat hleft (sits_gangFill_own (sits_of_core (sits_marked hrun) rfl rfl) o.id 0 false)).2]
  have hsent := find_sentOp hf
  exact (gangDone_of_find (o := { o with sent := true }) hsent 0).1

theorem bwait_answer {g : Gang} (hg : s.gangAt ctx va = some g) {b : Nat} (hk : o.kind = .bwait b) (ha : g.a ≠ g.n)
    (hpast : phasePast g.p b = true) : (s.gangCycle ctx va [⟨core, w, o⟩]).gangAnswer o g.p := by
  have hm : (s.markSent ctx ⟨core, w, o⟩).gangAt ctx va = some g := hg
  have hwait : (s.markSent ctx ⟨core, w, o⟩).gangWait ctx va ⟨core, w, o⟩ b =
      (s.markSent ctx ⟨core, w, o⟩).gangFill ctx w o.id g.p true := by
    unfold State.gangWait
    unfold State.gangAt at hm
    rw [hm]
    exact if_pos hpast
  rw [gangCycle_bwait s (r := ⟨core, w, o⟩) hk, gangComplete_open hm ha, hwait]
  exact gangAnswer_of_sits hf (by simp [hk]) hd (sits_gangFill_own (sits_marked hrun) o.id g.p true)

omit hd in
theorem bwait_keeps {g : Gang} (hg : s.gangAt ctx va = some g) {b : Nat} (hk : o.kind = .bwait b) (ha : g.a ≠ g.n)
    (hpast : phasePast g.p b = false) : s.gangKeeps (s.gangCycle ctx va [⟨core, w, o⟩]) ctx va w o Gang.waits b := by
  have hm : (s.markSent ctx ⟨core, w, o⟩).gangAt ctx va = some g := hg
  have hat := gangWait_gangAt ctx va (s.markSent ctx ⟨core, w, o⟩) ⟨core, w, o⟩ b
  have hwait : (s.markSent ctx ⟨core, w, o⟩).gangWait ctx va ⟨core, w, o⟩ b =
      (s.markSent ctx ⟨core, w, o⟩).onGang ctx va (fun g => { g with waits := g.waits ++ [⟨w, o.id, b⟩] }) := by
    unfold State.gangWait
    unfold State.gangAt at hm
    rw [hm]
    exact if_neg (by simp [hpast])
  rw [hm, Option.map_some, if_neg (by simp [hpast])] at hat
  rw [gangCycle_bwait s (r := ⟨core, w, o⟩) hk, gangComplete_open hm ha]
  refine gangKeeps_of_sits hf ?_ hat (by simp [Gang.waiting])
  rw [hwait]
  exact sits_of_core (sits_marked hrun) rfl rfl

end

/-! ### The answers of a cycle that no operation reaches -/

/-- An early arrival is answered when its phase becomes the current one. -/
theorem early_answer {ctx : Nat} {va w : Word} {s : State} {o : GangOp} {g : Gang} {b : Nat} (hrun : s.core.runs ctx w = true)
    (hf : s.core.a.gangOps.find? (fun y => y.id = o.id) = some o) (hd : o.dst ≠ 0) (hk : o.kind ≠ .leave)
    (hg : s.gangAt ctx va = some g) (ha : g.a = g.n) (he : g.early = [⟨w, o.id, b⟩]) (hws : ∀ x ∈ g.waits, x.tcb ≠ w) :
    (s.gangCycle ctx va []).gangAnswer o b := by
  have hsit : (s.gangCycle ctx va []).sits ctx w (s.core.a.gangDone o.id b) :=
    sits_gangComplete_of_answered hg ha (sits_gangAnswered_early (es := []) he (by simpa using hws) (sits_of_core ⟨hrun, rfl⟩ rfl rfl))
  unfold State.gangAnswer
  rw [hsit.2]
  exact answered_of_find hf hk hd b

/-- A wait is answered when its phase completes. -/
theorem wait_answer {ctx : Nat} {va w : Word} {s : State} {o : GangOp} {g : Gang} {b : Nat} (hrun : s.core.runs ctx w = true)
    (hf : s.core.a.gangOps.find? (fun y => y.id = o.id) = some o) (hd : o.dst ≠ 0) (hk : o.kind ≠ .leave)
    (hg : s.gangAt ctx va = some g) (ha : g.a = g.n) (hw : g.waits = [⟨w, o.id, b⟩]) (hes : ∀ x ∈ g.early, x.tcb ≠ w)
    (hdone : phaseDone ((g.p + 1) % 2 ^ 32) b = true) : (s.gangCycle ctx va []).gangAnswer o ((g.p + 1) % 2 ^ 32) := by
  have hsit : (s.gangCycle ctx va []).sits ctx w (s.core.a.gangDone o.id ((g.p + 1) % 2 ^ 32)) :=
    sits_gangComplete_of_answered hg ha (sits_gangAnswered_waits (ws := []) hw hdone (by simpa using hes) (sits_of_core ⟨hrun, rfl⟩ rfl rfl))
  unfold State.gangAnswer
  rw [hsit.2]
  exact answered_of_find hf hk hd _

/-- The answers of a gang. -/
theorem gangAnswers : Claims.GangAnswers := by
  intro s l o w i at_ fills registers others hl hrun hd hf
  have hexec := exec_gangCycle hl
  refine ⟨fun hr => ?_, fun g hr hg ha => ?_⟩
  · rw [hr] at hexec
    have hfill {x : Nat} (h : (s.gangCycle i.ctx i.va [⟨s.core.id, w, o⟩]).gangAnswer o x) : fills x := ⟨_, hexec, h⟩
    have hkeep {ws : Gang → List GangWait} {b : Nat}
        (h : s.gangKeeps (s.gangCycle i.ctx i.va [⟨s.core.id, w, o⟩]) i.ctx i.va w o ws b) : registers ws b := by
      obtain ⟨g, hg, hw, hs, hse, ho⟩ := h
      exact ⟨_, g, hexec, hg, hw, hs, hse, ho⟩
    refine ⟨fun hn hk => hfill (join_none_answer hrun hf hd hn hk), fun g hg hws hlt => ?_⟩
    intro next
    have hne : next ≠ g.p := by
      change (g.p + 1) % 2 ^ 32 ≠ g.p
      omega
    refine ⟨fun hk hlive => hfill (join_some_answer hrun hf hd hg hws hk hlive),
      fun drop hk hp => hfill (arrive_now_answer hrun hf hd hg hws hk hp), fun drop hk hp => ⟨fun ha => ?_, fun ha => ?_⟩,
      fun hk hp => ⟨fun ha => hfill (sstep_answer hrun hf hd hg hws hlt hk hp ha), fun ha => hkeep (sstep_keeps hrun hf hg hk hp ha)⟩,
      fun hk => ⟨_, hexec, leave_done hrun hf hg hws hk⟩, fun b hb hk ha => ?_⟩
    · exact hfill (arrive_next_answer hrun hf hd hg hws hk (fun h => hne (hp.symm.trans h)) ha)
    · exact hkeep (arrive_next_keeps hrun hf hg hk (fun h => hne (hp.symm.trans h)) ha)
    · intro behind
      have hbehind : behind = (g.p + 2 ^ 32 - b) % 2 ^ 32 := rfl
      refine ⟨fun hpast => hfill (bwait_answer hrun hf hd hg hk ha ?_), fun hpast => hkeep (bwait_keeps hrun hf hg hk ha ?_)⟩
      · unfold phasePast
        rw [decide_eq_true_eq]
        omega
      · unfold phasePast
        rw [decide_eq_false_iff_not]
        omega
  · rw [hr] at hexec
    intro next
    refine ⟨fun b hk he hws => ⟨_, hexec, early_answer hrun hf hd ?_ hg ha he hws⟩,
      fun b hb hk hw hes h1 h2 => ⟨_, hexec, wait_answer hrun hf hd ?_ hg ha hw hes ?_⟩⟩
    · rcases hk with hk | hk <;> simp [hk]
    · rcases hk with ⟨c, hk⟩ | hk <;> simp [hk]
    · unfold phaseDone
      rw [decide_eq_true_eq]
      exact ⟨h1, h2⟩

end Sys2Proof.Machine
end

section
/-!
LEMMAS. Pages that a gang operation finds unmapped, phases of stage barriers, and reads of future cells (spec/13 R271, R283, R285, R286).
-/
open Sys2Proof

namespace Sys2Proof.Machine

/-! ### A gang operation whose address has no translation (R271) -/

/-- The PAGE of a gang's address, deferred once for the task. -/
def Arch.pageDeferred (va : Word) (a : Arch) : Arch :=
  if a.deferred.contains ⟨.page, va⟩ then a else { a with deferred := a.deferred ++ [⟨.page, va⟩] }

theorem gangPage : ∀ s : State, let i := s.input
    (∀ r, s.leaf? (s.ctxDie i.ctx) i.ctx i.va.toNat = none → s.reaching i.ctx i.va i.pairs = [r] → s.core.runs i.ctx r.tcb = true →
      (∀ g ∈ s.gangs, g.ctx = i.ctx → g.va = i.va → g.a ≠ g.n) →
      (∀ d ∈ s.core.a.deferred, d ≠ ⟨.page, i.va⟩) →
      ∃ t, exec .gangCycle s = .next t ∧ t.core.a.deferred = s.core.a.deferred ++ [⟨.page, i.va⟩] ∧
        t.core.a.gangOps = s.core.a.gangOps ∧ t.gangs = s.gangs) := by
  intro s i r hl hr hrun hopen hnew
  have hexec : exec .gangCycle s = .next ((s.onTaskArch i.ctx r.tcb (Arch.pageDeferred i.va)).gangComplete i.ctx i.va) := by
    change execGangCycle s = _
    unfold execGangCycle
    dsimp only
    rw [hl]
    simp only [Option.isNone_none, if_true]
    rw [show s.reaching s.input.ctx s.input.va s.input.pairs = [r] from hr]
    rfl
  have hdone : (s.onTaskArch i.ctx r.tcb (Arch.pageDeferred i.va)).gangComplete i.ctx i.va =
      s.onTaskArch i.ctx r.tcb (Arch.pageDeferred i.va) := by
    cases hg : s.gangAt i.ctx i.va with
    | none => exact gangComplete_none hg
    | some g =>
      obtain ⟨hctx, hva⟩ := gangAt_some hg
      exact gangComplete_open (g := g) hg (hopen g (List.mem_of_find?_eq_some hg) hctx hva)
  have ha : Arch.pageDeferred i.va s.core.a = { s.core.a with deferred := s.core.a.deferred ++ [⟨.page, i.va⟩] } :=
    if_neg (fun h => hnew _ (List.contains_iff_mem.1 h) rfl)
  have hcore : (s.onTaskArch i.ctx r.tcb (Arch.pageDeferred i.va)).core.a =
      { s.core.a with deferred := s.core.a.deferred ++ [⟨.page, i.va⟩] } :=
    (congrArg Core.a (if_pos hrun)).trans ha
  refine ⟨_, hexec, ?_, ?_, ?_⟩
  · rw [hdone, hcore]
  · rw [hdone, hcore]
  · rw [hdone]
    rfl

/-! ### A phase of a barrier (R283) -/

/-- A memory read after a run of writes to consecutive addresses. -/
theorem readAfter_range {α : Type} (d : α) (m : List (Nat × α)) (a n : Nat) (f : Nat → α) (b : Nat) :
    readAfter d m ((List.range n).map (fun i => (a + i, f i))) b = if a ≤ b ∧ b < a + n then f (b - a) else cellGet d m b := by
  induction n with
  | zero =>
    rw [if_neg (by omega)]
    rfl
  | succ n ih =>
    unfold readAfter at ih ⊢
    rw [List.range_succ, List.map_append, List.reverse_append, List.map_singleton, List.reverse_singleton, List.singleton_append]
    by_cases hb : a + n = b
    · rw [List.find?_cons_of_pos (by simpa using hb), if_pos (by omega), ← hb]
      simp
    · rw [List.find?_cons_of_neg (by simpa using hb), ih]
      exact if_congr (by omega) rfl rfl

/-- A core that runs a task with no task below it and none suspended on it has that one part. -/
theorem partsOn_alone {s : State} (hb : s.core.busy = true) (hi : s.core.inl = []) (ht : ∀ t ∈ s.tasks, t.saved = none) :
    s.partsOn s.core.id = [s.core.a] := by
  have hself : s.getCore s.core.id = s.core := if_pos rfl
  unfold State.partsOn
  dsimp only
  rw [hself, hb, hi, List.filterMap_eq_nil_iff.2 (fun t hmem => ?_)]
  · rfl
  · rw [ht t hmem]
    split <;> rfl

theorem exec_tcwaitPhaseComplete {s : State} {d : Reg} (hb : s.there.core.busy = true) (hi : s.there.core.inl = [])
    (ht : ∀ t ∈ s.there.tasks, t.saved = none) (hw : s.there.core.a.tcwaits = [(s.input.sb, d)]) (hf : s.there.core.a.tcfresh = []) :
    exec .tcwaitPhaseComplete s = .next (s.there.endPhase s.there.core.a.ctx s.there.core.a.key s.input.sb d) := by
  have hwaits : s.there.barrierWaits (fun sb => sb = s.input.sb) = [((s.there.core.a.ctx, s.there.core.a.key), (s.input.sb, d))] := by
    unfold State.barrierWaits
    rw [partsOn_alone hb hi ht, List.flatMap_singleton, hw, hf]
    simp
  change execTcwaitPhaseComplete s = _
  unfold execTcwaitPhaseComplete
  dsimp only
  rw [show (s.focus s.input.core).barrierWaits (fun sb => sb = s.input.sb) = _ from hwaits]
  rfl

/-- The word of a barrier whose phase has just completed with `n` counted beyond it. -/
theorem barWord_next (ph : Bool) {n : Nat} (h : n < 2 ^ 30) :
    barWord ph false 0 n = (flag ph ++ 0#1 ++ 0#30 ++ 0#2 ++ BitVec.ofNat 30 n : Word) := by
  refine BitVec.eq_of_toNat_eq ?_
  simp only [barWord, toNat_word, toNat_append_add, toNat_flag, bitAt_eq_mul, BitVec.toNat_ofNat]
  have : ph.toNat ≤ 1 := Bool.toNat_le ph
  simp only [Bool.toNat_false]
  omega

/-- The state in which a phase of barrier `sb` has completed, its word now `w`. -/
def State.phaseEnded (ctx : Nat) (key : Word) (sb : Fin 64) (d : Reg) (w : Word) (s : State) : State :=
  (s.modCore (fun c => c.setBarrierAt (s.barrierBase ctx) sb.val w)).onTaskArch ctx key (fun a =>
    { a with tcwaits := a.tcwaits.filter (fun x => x.1 ≠ sb) }.fillS d w)

theorem endPhase_eq {ctx : Nat} {key w : Word} {sb : Fin 64} {d : Reg} {s : State} (hw : s.core.barrierAt (s.barrierBase ctx) sb.val = w)
    (hxs : w.getLsbD 62 = true) (hle : (w.extractLsb' 32 30).toNat ≤ (w.extractLsb' 0 30).toNat) :
    s.endPhase ctx key sb d = s.phaseEnded ctx key sb d (flag (!w.getLsbD 63) ++ 0#1 ++ 0#30 ++ 0#2 ++
      BitVec.ofNat 30 ((w.extractLsb' 0 30).toNat - (w.extractLsb' 32 30).toNat) : Word) := by
  have hexp : bits w 61 32 = (w.extractLsb' 32 30).toNat := bits_eq_extract w (by norm_num)
  have hcnt : bits w 29 0 = (w.extractLsb' 0 30).toNat := bits_eq_extract w (by norm_num)
  have hlt : (w.extractLsb' 0 30).toNat - (w.extractLsb' 32 30).toNat < 2 ^ 30 := by
    have := (w.extractLsb' 0 30).isLt
    omega
  unfold State.endPhase
  dsimp only
  rw [hw, hexp, hcnt, bitOf_eq_getLsbD, bitOf_eq_getLsbD, hxs, decide_eq_true hle, Bool.and_self, if_pos rfl, barWord_next _ hlt]
  rfl

theorem phaseEnded_effect {key w : Word} {sb : Fin 64} {d : Reg} {s : State} (hrun : s.core.runs s.core.a.ctx key = true)
    (hw : s.core.a.tcwaits = [(sb, d)]) (hd : d ≠ 0) (hwf : Memory.wf s.core.spad = true) :
    let t := s.phaseEnded s.core.a.ctx key sb d w
    let off := s.barrierBase s.core.a.ctx + 8 * sb.val
    t.core.a.tcwaits = [] ∧ t.core.a.rd d = w ∧ t.core.a.sIsEmpty d = false ∧
      ∀ k, cellGet 0 t.core.spad k = if off ≤ k ∧ k < off + 8 then w.extractLsb' (8 * (k - off)) 8 else cellGet 0 s.core.spad k := by
  intro t off
  have hcore : t.core = { s.core.setBarrierAt (s.barrierBase s.core.a.ctx) sb.val w with
      a := { s.core.a with tcwaits := s.core.a.tcwaits.filter (fun x => x.1 ≠ sb) }.fillS d w } := if_pos hrun
  refine ⟨?_, ?_, ?_, fun k => ?_⟩
  · rw [hcore, hw]
    unfold Arch.fillS
    dsimp only
    rw [if_neg hd]
    simp
  · rw [hcore]
    exact rd_fillS_same _ _ _ hd
  · rw [hcore]
    exact sIsEmpty_fillS_same _ _ hd
  · rw [hcore]
    change cellGet 0 (cellSets 0 s.core.spad (cellsOf off 8 w.toNat)) k = _
    rw [cellGet_cellSets 0 _ _ _ hwf, cellsOf_toNat, readAfter_range 0 _ off 8 (fun i => w.extractLsb' (8 * i) 8)]

theorem gangPagesAndBarriers : Claims.GangPagesAndBarriers := by
  intro s u i
  refine ⟨gangPage s, fun d => ?_⟩
  intro a off w exp cnt hb hi ht hw hf hxs hle hd hwf
  have hrun : u.core.runs a.ctx a.key = true := (runs_iff ..).2 ⟨hb, rfl, rfl⟩
  obtain ⟨hwaits, hrd, hfull, hcell⟩ := phaseEnded_effect (w := (flag (!w.getLsbD 63) ++ 0#1 ++ 0#30 ++ 0#2 ++
    BitVec.ofNat 30 (cnt - exp) : Word)) hrun hw hd hwf
  refine ⟨_, (exec_tcwaitPhaseComplete hb hi ht hw hf).trans (congrArg Host.Outcome.next (endPhase_eq rfl hxs hle)), hwaits, hrd, hfull, fun k hk => ?_,
    fun k hk => ?_⟩
  · refine (hcell _).trans ?_
    change (if off ≤ off + k ∧ off + k < off + 8 then _ else _) = _
    rw [if_pos (by omega), show off + k - (u.barrierBase u.core.a.ctx + 8 * i.sb.val) = k from Nat.add_sub_cancel_left off k]
    exact congrArg (BitVec.extractLsb' (8 * k) 8) hrd.symm
  · refine (hcell _).trans (if_neg ?_)
    change ¬(off ≤ k ∧ k < off + 8)
    omega

/-! ### The answer of a cell that is read (R122, R285, R286) -/

/-- The core with its read answered. -/
def State.cellBack (u : State) : State := u.modCore (fun c => { c with fetchAt := none })

/-- What the answer `x` to a held FGET does. -/
def State.fgetBack (d : Reg) (va : Word) (v : State) (x : Except Cause (Option Word)) : State :=
  match x with
  | .error c => v.cellTrap d c va
  | .ok none => v.cellTrap d .futEmpty va
  | .ok (some x) => ((v.modA (fun a => a.fillS d x)).acquire .package).finishSlot7

/-- What the answer `x` to a held FWAIT does. -/
def State.fwaitBack (d : Reg) (va : Word) (spin : Bool) (til : Option Nat) (v : State) (x : Except Cause (Option Word)) : State :=
  match x with
  | .error c => v.cellTrap d c va
  | .ok (some _) => ((v.modA (fun a => a.fillS d 1)).acquire .package).finishSlot7
  | .ok none =>
    if !spin then v.hold (.suspend (.future d va til))
    else if decide ((til.getD 0) ≤ v.frame.toNat) then (v.modA (fun a => a.fillS d 0)).finishSlot7
    else v.hold (.fwait d va spin til true)

/-- The core is held for the read of the cell at `va`. -/
def Arch.awaits (a : Arch) (va : Word) : Prop :=
  (∃ d, a.block = some (.fget d va)) ∨ ∃ d spin til seen, a.block = some (.fwait d va spin til seen)

theorem asksCell_of_awaits {a : Arch} {va : Word} (h : a.awaits va) : a.asksCell = true := by
  unfold Arch.asksCell
  rcases h with ⟨d, h⟩ | ⟨d, spin, til, seen, h⟩ <;> rw [h]

section
variable {s : State} (hread : s.there.core.readAllowed = true ∧ s.there.core.a.deferred = [])

include hread

theorem exec_fgetResponse_sent {va : Word} (hva : s.there.core.a.awaits va) (hfn : s.input.fn = 1)
    (hdue : s.there.overdue s.there.core.fetchAt = false) :
    exec .fgetResponse s =
      .next (s.there.modCore (fun c => { c with fetchAt := some (s.there.core.fetchAt.getD s.there.frame.toNat) })) := by
  change execFgetResponse s = _
  unfold execFgetResponse
  have hin : (s.focus s.input.core).input = s.input := there_input s
  unfold State.there at *
  dsimp only
  rw [hin, hread.1, hread.2, hdue, hfn, asksCell_of_awaits hva]
  rfl

theorem exec_fgetResponse_fget {d : Reg} {va : Word} (hb : s.there.core.a.block = some (.fget d va))
    (hgo : s.input.fn ≠ 1 ∨ s.there.overdue s.there.core.fetchAt = true) :
    exec .fgetResponse s = .next (if s.there.overdue s.there.core.fetchAt then s.there.cellBack.defer .timeout va
      else s.there.cellBack.fgetBack d va (s.there.cellBack.readCell va)) := by
  have hasks := asksCell_of_awaits (.inl ⟨d, hb⟩)
  have hgo' : ¬((decide (s.input.fn = 1) && !s.there.overdue s.there.core.fetchAt) = true) := by
    rcases hgo with h | h <;> simp [h]
  change execFgetResponse s = _
  unfold execFgetResponse
  have hin : (s.focus s.input.core).input = s.input := there_input s
  unfold State.there at *
  dsimp only
  rw [hin, hread.1, hread.2, if_neg hgo', hasks]
  simp only [Bool.not_true, List.isEmpty_nil, Bool.or_self, Bool.false_eq_true, if_false, if_true]
  rw [show (State.modCore (fun c => { c with fetchAt := none }) (s.focus s.input.core)).core.a.block = some (.fget d va) from hb]
  rfl

theorem exec_fgetResponse_fwait {d : Reg} {va : Word} {spin seen : Bool} {til : Option Nat}
    (hb : s.there.core.a.block = some (.fwait d va spin til seen))
    (hgo : s.input.fn ≠ 1 ∨ s.there.overdue s.there.core.fetchAt = true) :
    exec .fgetResponse s = .next (if s.there.overdue s.there.core.fetchAt then s.there.cellBack.defer .timeout va
      else s.there.cellBack.fwaitBack d va spin til (s.there.cellBack.readCell va)) := by
  have hasks := asksCell_of_awaits (.inr ⟨d, spin, til, seen, hb⟩)
  have hgo' : ¬((decide (s.input.fn = 1) && !s.there.overdue s.there.core.fetchAt) = true) := by
    rcases hgo with h | h <;> simp [h]
  change execFgetResponse s = _
  unfold execFgetResponse
  have hin : (s.focus s.input.core).input = s.input := there_input s
  unfold State.there at *
  dsimp only
  rw [hin, hread.1, hread.2, if_neg hgo', hasks]
  simp only [Bool.not_true, List.isEmpty_nil, Bool.or_self, Bool.false_eq_true, if_false, if_true]
  rw [show (State.modCore (fun c => { c with fetchAt := none }) (s.focus s.input.core)).core.a.block = some (.fwait d va spin til seen) from hb]
  rfl

end

theorem exec_fwaitTimeout_core {s : State} {d : Reg} {va : Word} {n : Nat}
    (hb : s.there.core.a.block = some (.fwait d va true (some n) true)) (hn : n ≤ s.there.frame.toNat) :
    exec .fwaitTimeout s = .next ((s.there.withArch (s.there.core.a.fillS d 0)).finishSlot7) := by
  change execFwaitTimeout s = _
  unfold execFwaitTimeout
  unfold State.there at *
  dsimp only
  rw [hb]
  exact congrArg Host.Outcome.next (if_pos (decide_eq_true hn))

theorem exec_fwaitTimeout_task {s : State} {t : Task} {d : Reg} {va : Word} {n : Nat} (hb : s.there.core.a.block = none)
    (ht : s.there.task? s.input.ctx s.input.va = some t) (hw : t.wait = some (.future d va (some n))) (hst : t.st = .suspended)
    (hn : n ≤ s.there.frame.toNat) :
    exec .fwaitTimeout s = .next ((s.there.fillFor s.input.ctx s.input.va d 0).readyPinned s.input.ctx s.input.va) := by
  change execFwaitTimeout s = _
  unfold execFwaitTimeout
  unfold State.there at *
  dsimp only
  rw [hb, ht]
  dsimp only
  rw [hw]
  exact congrArg Host.Outcome.next (if_pos (by rw [decide_eq_true hn, decide_eq_true hst]; rfl))

theorem cellReads : Claims.CellReads := by
  intro s u i late v ready
  have hret {d : Reg} {va : Word} (hr : ready) (hfn : i.fn ≠ 1) (hl : late = false) (hb : u.core.a.block = some (.fget d va)) :
      exec .fgetResponse s = .next (v.fgetBack d va (v.readCell va)) :=
    (exec_fgetResponse_fget hr hb (.inl hfn)).trans (congrArg Host.Outcome.next (if_neg (Bool.eq_false_iff.1 hl)))
  have hwret {d : Reg} {va : Word} {spin seen : Bool} {til : Option Nat} (hr : ready) (hfn : i.fn ≠ 1) (hl : late = false)
      (hb : u.core.a.block = some (.fwait d va spin til seen)) : exec .fgetResponse s = .next (v.fwaitBack d va spin til (v.readCell va)) :=
    (exec_fgetResponse_fwait hr hb (.inl hfn)).trans (congrArg Host.Outcome.next (if_neg (Bool.eq_false_iff.1 hl)))
  refine ⟨fun d va hr hb => ⟨fun hfn hl => ?_, fun hl => ?_, fun hfn hl c hc => ?_⟩, fun d va hr hfn hl hb => ⟨fun x hx => ?_, fun hx => ?_⟩,
    fun d va spin til seen hr hfn hl hb => ⟨fun x hx => ?_, fun hx hs => ?_, fun n hx hs ht => ⟨fun hn => ?_, fun hn => ?_⟩⟩,
    fun d va til n hb ht hn => ?_, fun t d va n hb ht hw hst hn => exec_fwaitTimeout_task hb ht hw hst hn⟩
  · refine exec_fgetResponse_sent hr (va := va) ?_ hfn hl
    rcases hb with hb | ⟨spin, til, seen, hb⟩
    · exact .inl ⟨d, hb⟩
    · exact .inr ⟨d, spin, til, seen, hb⟩
  · rcases hb with hb | ⟨spin, til, seen, hb⟩
    · exact (exec_fgetResponse_fget hr hb (.inr hl)).trans (congrArg Host.Outcome.next (if_pos hl))
    · exact (exec_fgetResponse_fwait hr hb (.inr hl)).trans (congrArg Host.Outcome.next (if_pos hl))
  · rcases hb with hb | ⟨spin, til, seen, hb⟩
    · exact (hret hr hfn hl hb).trans (congrArg Host.Outcome.next (congrArg (v.fgetBack d va) hc))
    · exact (hwret hr hfn hl hb).trans (congrArg Host.Outcome.next (congrArg (v.fwaitBack d va spin til) hc))
  · exact (hret hr hfn hl hb).trans (congrArg Host.Outcome.next (congrArg (v.fgetBack d va) hx))
  · exact (hret hr hfn hl hb).trans (congrArg Host.Outcome.next (congrArg (v.fgetBack d va) hx))
  · exact (hwret hr hfn hl hb).trans (congrArg Host.Outcome.next (congrArg (v.fwaitBack d va spin til) hx))
  · refine (hwret hr hfn hl hb).trans (congrArg Host.Outcome.next ((congrArg (v.fwaitBack d va spin til) hx).trans ?_))
    exact if_pos (by rw [hs]; rfl)
  · refine (hwret hr hfn hl hb).trans (congrArg Host.Outcome.next ((congrArg (v.fwaitBack d va spin til) hx).trans ?_))
    have hno : ¬n ≤ v.frame.toNat := Nat.not_le_of_gt hn
    unfold State.fwaitBack
    dsimp only
    rw [if_neg (by simp [hs]), ht, Option.getD_some, if_neg (by simpa using hno)]
    rfl
  · refine (hwret hr hfn hl hb).trans (congrArg Host.Outcome.next ((congrArg (v.fwaitBack d va spin til) hx).trans ?_))
    have hyes : n ≤ v.frame.toNat := hn
    unfold State.fwaitBack
    dsimp only
    rw [if_neg (by simp [hs]), ht, Option.getD_some, if_pos (by simpa using hyes)]
    rfl
  · rw [ht] at hb
    exact exec_fwaitTimeout_core hb hn

/-- Settles O37. -/
theorem synchronisationEvents : Obligations.SynchronisationEvents :=
  ⟨gangCounts, gangAnswers, gangPagesAndBarriers, cellReads⟩

end Sys2Proof.Machine
end

section
/-!
LEMMAS. Copy commands that complete, and paused transfers that go on (spec/11 R219 to R225, R234, R235).
-/
open Sys2Proof

namespace Sys2Proof.Machine

/-! ### A command that is performed (R219) -/

/-- The acting core with other ordering points and another instruction cache. -/
def Core.repointed (c : Core) (ps : List OrderPoint) (ic : List CacheLine) : Core :=
  { c with a := { c.a with points := ps }, icache := ic }

theorem acquire_core (sc : Scope) (s : State) : ∃ ic, (s.acquire sc).core = { s.core with icache := ic } := by
  unfold State.acquire
  split
  · exact ⟨_, (acquireOn_self s).2⟩
  · exact ⟨_, rfl⟩

theorem foldl_acquire_core (scs : List Scope) (s : State) :
    ∃ ic, (scs.foldl (fun s sc => s.acquire sc) s).core = { s.core with icache := ic } := by
  induction scs generalizing s with
  | nil => exact ⟨_, rfl⟩
  | cons sc scs ih =>
    obtain ⟨ic, h⟩ := ih (s.acquire sc)
    obtain ⟨ic', h'⟩ := acquire_core sc s
    exact ⟨ic, by rw [List.foldl_cons, h, h']⟩

theorem prunePoints_core (s : State) : ∃ ps ic, s.prunePoints.core = s.core.repointed ps ic := by
  unfold State.prunePoints
  dsimp only
  obtain ⟨ic, h⟩ := foldl_acquire_core (s.core.a.points.filterMap s.core.acquiresAt) (s.modA (fun a =>
    { a with points := (a.points.filter s.core.pointPending).map (fun (p : OrderPoint) =>
        if p.acq.isSome && s.core.readsDoneBefore p.id then { p with acq := none } else p) }))
  exact ⟨_, ic, h⟩

/-- A core whose queue `q` has lost a command. -/
def Core.without (c : Core) (q : CopyQ) (id : Nat) : Core :=
  match q with
  | .ca => { c with ca := c.ca.filter (fun (k : CopyCmd) => k.id ≠ id) }
  | .cb => { c with cb := c.cb.filter (fun (k : CopyCmd) => k.id ≠ id) }

theorem dropCmd_core (q : CopyQ) (id : Nat) (s : State) : (s.dropCmd q id).core = s.core.without q id := rfl

theorem without_queueOf (q : CopyQ) (id : Nat) (c : Core) :
    (c.without q id).queueOf q = (c.queueOf q).filter (fun k => k.id ≠ id) := by
  cases q <;> rfl

/-- What a core keeps when a command of its queues goes. -/
theorem without_kept (q : CopyQ) (id : Nat) (c : Core) : (c.without q id).a = c.a ∧ (c.without q id).spad = c.spad ∧
    (c.without q id).spadTags = c.spadTags ∧ (c.without q id).subs = c.subs ∧ (c.without q id).busy = c.busy := by
  cases q <;> exact ⟨rfl, rfl, rfl, rfl, rfl⟩

theorem without_runs (q : CopyQ) (id : Nat) (c : Core) (ctx : Nat) (w : Word) : (c.without q id).runs ctx w = c.runs ctx w := by
  cases q <;> rfl

/-- A task part that runs on the acting core changes there. -/
theorem onTaskArch_core_own {ctx : Nat} {w : Word} {s : State} (h : s.core.runs ctx w = true) (f : Arch → Arch) :
    (s.onTaskArch ctx w f).core = { s.core with a := f s.core.a } := if_pos h

/-- The core after a command of the task that runs there is performed. -/
theorem finishCmd_core {q : CopyQ} {k : CopyCmd} {s : State} (h : s.core.runs k.ctx k.tcb = true) (x : Word) :
    ∃ ps ic, (s.finishCmd q k x).core =
      ({ s.core.without q k.id with a := s.core.a.fillS k.tok x } : Core).repointed ps ic := by
  obtain ⟨ps, ic, hp⟩ := prunePoints_core ((s.dropCmd q k.id).fillFor k.ctx k.tcb k.tok x)
  refine ⟨ps, ic, hp.trans (congrArg (fun c : Core => c.repointed ps ic) ?_)⟩
  refine (onTaskArch_core_own (s := s.dropCmd q k.id) ((without_runs ..).trans h) _).trans ?_
  rw [dropCmd_core, (without_kept ..).1]

theorem finishCmd_queueOf {q : CopyQ} {k : CopyCmd} {s : State} (h : s.core.runs k.ctx k.tcb = true) (x : Word) :
    (s.finishCmd q k x).core.queueOf q = (s.core.queueOf q).filter (fun c => c.id ≠ k.id) := by
  obtain ⟨ps, ic, hc⟩ := finishCmd_core (q := q) h x
  rw [hc, ← without_queueOf]
  cases q <;> rfl

theorem finishCmd_spad {q : CopyQ} {k : CopyCmd} {s : State} (h : s.core.runs k.ctx k.tcb = true) (x : Word) :
    (s.finishCmd q k x).core.spad = s.core.spad ∧ (s.finishCmd q k x).core.spadTags = s.core.spadTags := by
  obtain ⟨ps, ic, hc⟩ := finishCmd_core (q := q) h x
  rw [hc]
  exact ⟨(without_kept q k.id s.core).2.1, (without_kept q k.id s.core).2.2.1⟩

theorem finishCmd_regs {q : CopyQ} {k : CopyCmd} {s : State} (h : s.core.runs k.ctx k.tcb = true) (x : Word) (r : Reg) :
    (s.finishCmd q k x).core.a.rd r = (s.core.a.fillS k.tok x).rd r ∧
      (s.finishCmd q k x).core.a.sIsEmpty r = (s.core.a.fillS k.tok x).sIsEmpty r := by
  obtain ⟨ps, ic, hc⟩ := finishCmd_core (q := q) h x
  rw [hc]
  exact ⟨rfl, rfl⟩

theorem finishCmd_mem (q : CopyQ) (k : CopyCmd) (x : Word) (s : State) : (s.finishCmd q k x).mem = s.mem :=
  congrArg Stored.mem (finishCmd_stored q k x s)

theorem finishCmd_effect : ∀ (u : State) (q : CopyQ) (k : CopyCmd) (x : Word), u.core.runs k.ctx k.tcb = true →
    let t := u.finishCmd q k x
    t.core.queueOf q = (u.core.queueOf q).filter (fun c => c.id ≠ k.id) ∧ t.mem = u.mem ∧ t.core.spad = u.core.spad ∧
    ∀ r : Reg, t.core.a.rd r = (if r = k.tok ∧ r ≠ 0 then x else u.core.a.rd r) ∧
      t.core.a.sIsEmpty r = (u.core.a.sIsEmpty r && r != k.tok) := by
  intro u q k x h t
  refine ⟨finishCmd_queueOf h x, finishCmd_mem .., (finishCmd_spad h x).1, fun r => ?_⟩
  obtain ⟨hrd, hempty⟩ := finishCmd_regs (q := q) h x r
  rw [hrd, hempty]
  by_cases hr : r = k.tok
  · subst hr
    by_cases h0 : k.tok = 0
    · simp [h0, Arch.fillS, Arch.sIsEmpty]
    · rw [rd_fillS_same _ _ _ h0, sIsEmpty_fillS_same _ _ h0, if_pos ⟨rfl, h0⟩]
      simp
  · rw [rd_fillS_other _ _ _ _ hr, sIsEmpty_fillS_other _ _ hr, if_neg (fun h => hr h.1)]
    simp [hr]

/-! ### A command that goes on (R122, R225, R234) -/

section
variable {s : State} {k : CopyCmd} (hk : (s.there.core.queueOf s.input.queue)[s.input.idx]? = some k)
  (hready : s.there.cmdReady s.input.queue k = true) (hexp : s.there.expired k.ctx k.sent = false)

include hk hready hexp

theorem exec_copyComplete_block {dst src : Word} {rowlen nrows : Nat} {ss ds : Int} {cnt : Option (Fin 64)}
    (hkind : k.kind = .block dst src rowlen nrows ss ds cnt) :
    (s.input.fn = 1 → exec .copyComplete s = .next (s.there.sendCmd s.input.queue k)) ∧
    (s.input.fn ≠ 1 → k.read = true → exec .copyComplete s = .next
      (s.there.copyBlock s.input.queue k s.input.first s.input.count s.input.flag
        (if s.input.flag2 then some s.input.first else none))) := by
  have hno : ¬(!s.there.cmdReady s.input.queue k) = true := by simp [hready]
  have hno' : ¬s.there.expired k.ctx k.sent = true := by simp [hexp]
  unfold State.there at *
  refine ⟨fun hfn => ?_, fun hfn hread => ?_⟩
  · change execCopyComplete s = _
    unfold execCopyComplete
    dsimp only
    rw [hk]
    dsimp only
    rw [if_neg hno, if_neg hno', hkind]
    exact congrArg Host.Outcome.next (if_pos hfn)
  · change execCopyComplete s = _
    unfold execCopyComplete
    dsimp only
    rw [hk]
    dsimp only
    rw [if_neg hno, if_neg hno', hkind]
    refine congrArg Host.Outcome.next ((if_neg hfn).trans (if_neg ?_))
    simp [hread]

theorem exec_copyComplete_cfence {cl : BitVec 3} (hkind : k.kind = .cfence cl) :
    exec .copyComplete s = .next (if s.there.fenceWaits k cl then s.there else s.there.finishCmd s.input.queue k 0) := by
  have hno : ¬(!s.there.cmdReady s.input.queue k) = true := by simp [hready]
  have hno' : ¬s.there.expired k.ctx k.sent = true := by simp [hexp]
  unfold State.there at *
  change execCopyComplete s = _
  unfold execCopyComplete
  dsimp only
  rw [hk]
  dsimp only
  rw [if_neg hno, if_neg hno', hkind]
  rfl

/-- Without a subscription a ring command answers CODE 2. -/
theorem exec_copyComplete_ring {sb : Fin 64} (hkind : k.kind = .unsub sb ∨ k.kind = .slotrel sb) (hsubs : s.there.core.subs = [])
    (hdone : k.done ≠ 1) : exec .copyComplete s = .next (s.there.finishCmd s.input.queue k 2) := by
  have hno : ¬(!s.there.cmdReady s.input.queue k) = true := by simp [hready]
  have hno' : ¬s.there.expired k.ctx k.sent = true := by simp [hexp]
  unfold State.there at *
  change execCopyComplete s = _
  unfold execCopyComplete
  dsimp only
  rw [hk]
  dsimp only
  rw [if_neg hno, if_neg hno']
  rcases hkind with hkind | hkind
  · rw [hkind]
    refine congrArg Host.Outcome.next ((if_neg hdone).trans ?_)
    unfold State.doUnsub
    rw [hsubs]
    rfl
  · rw [hkind]
    refine congrArg Host.Outcome.next ((if_neg hdone).trans ?_)
    unfold State.doSlotrel
    rw [hsubs]
    rfl

end

/-! ### A copy of one granule within the own scratchpad (R224) -/

/-- A granule and its tag written at an aligned place of the scratchpad. -/
def Core.granulePut (c : Core) (off : Nat) (g : Granule) (t : Word) : Core :=
  c.writeSpad (cellsOf off 64 g.toNat) [(off / 64, t)]

theorem granulePut_cells {c : Core} (hok : c.spadOk = true) {off : Nat} (g : Granule) (t : Word) :
    (∀ a, cellGet 0 (c.granulePut off g t).spad a =
      if off ≤ a ∧ a < off + 64 then g.extractLsb' (8 * (a - off)) 8 else cellGet 0 c.spad a) ∧
    ∀ j, cellGet 0 (c.granulePut off g t).spadTags j = if j = off / 64 then t else cellGet 0 c.spadTags j := by
  obtain ⟨hwf, htags⟩ := Bool.and_eq_true_iff.1 hok
  refine ⟨fun a => ?_, fun j => ?_⟩
  · rw [Core.granulePut, Core.writeSpad, cellGet_cellSets 0 _ _ a hwf, cellsOf_toNat, readAfter_range 0 c.spad off 64 (fun i => g.extractLsb' (8 * i) 8) a]
  · rw [Core.granulePut, Core.writeSpad, cellGet_cellSets 0 _ _ j htags]
    unfold readAfter
    by_cases hj : off / 64 = j
    · simp [hj]
    · simp [hj, Ne.symm hj]

/-- What a core keeps when its scratchpad is written. -/
theorem writeSpad_kept (c : Core) (cells : List (Nat × Byte)) (tags : List (Nat × Word)) :
    (c.writeSpad cells tags).a = c.a ∧ (c.writeSpad cells tags).busy = c.busy ∧ (c.writeSpad cells tags).outq = c.outq ∧
      ∀ q, (c.writeSpad cells tags).queueOf q = c.queueOf q :=
  ⟨rfl, rfl, rfl, fun q => by cases q <;> rfl⟩

theorem granulePut_kept (c : Core) (off : Nat) (g : Granule) (t : Word) :
    (c.granulePut off g t).a = c.a ∧ (c.granulePut off g t).busy = c.busy ∧ (c.granulePut off g t).outq = c.outq ∧
      ∀ q, (c.granulePut off g t).queueOf q = c.queueOf q := writeSpad_kept ..

theorem copyWrite_own {q : CopyQ} {k : CopyCmd} {a : Arch} {d va : Nat} {g : Granule} {t : Word} {s : State} (hv : a.views = [])
    {off : Nat} (hw : windowOf va = .spad off) (hoff : off % 64 = 0) (hbar : barrierHit (s.barrierBase k.ctx) off 64 = false) :
    s.copyWrite q k a d none va g t = .ok (s.modCore (fun c => c.granulePut off g t)) := by
  have hview : a.viewAt va = none := by
    unfold Arch.viewAt
    rw [hv]
    rfl
  have hloc : s.locate s.core.id a true .write true va = .ok (.spad s.core.id off) := by
    unfold State.locate State.locateVia
    dsimp only
    rw [if_pos rfl, hview, hw]
  have hplace : s.placeViolates k.ctx k.tcb a va (.spad s.core.id off) = false := by
    unfold State.placeViolates
    exact Bool.and_false _
  have hput : s.writeAt (.spad s.core.id off) 0 (cellsOf 0 64 g.toNat) (some t) = s.modCore (fun c => c.granulePut off g t) := by
    have hcells : (cellsOf 0 64 g.toNat).map (fun y => (off / 64 * 64 + (y.1 - 0), y.2)) =
        cellsOf off 64 g.toNat := by
      rw [cellsOf_toNat, cellsOf_toNat, List.map_map]
      refine List.map_congr_left (fun i _ => ?_)
      rw [Function.comp_apply]
      exact congrArg (fun n => (n, _)) (by omega)
    have htag : off / 64 * 64 / 64 = off / 64 := by omega
    unfold State.writeAt State.onCore Core.granulePut
    dsimp only
    rw [if_pos rfl, hcells, htag]
    rfl
  unfold State.copyWrite
  rw [hw, hview]
  dsimp only
  have hbar' : s.onBarrier k.ctx (.spad s.core.id off) 64 = false := hbar
  simp only [hloc, hplace, hbar', hput, Bool.false_eq_true, if_false]

theorem walkWaits_spad {a : Arch} (hv : a.views = []) {va off : Nat} (hw : windowOf va = .spad off) (l : List TlbEntry) (me : Nat)
    (s : State) : s.walkWaits l me a va = false := by
  have hview : a.viewAt va = none := by
    unfold Arch.viewAt
    rw [hv]
    rfl
  unfold State.walkWaits
  rw [hview, hw]

/-- A copy of one granule, whose source has been read, on its way. -/
structure OneGranule (q : CopyQ) (k : CopyCmd) (dst src : Word) (g : Granule) (tag : Word) (s : State) : Prop where
  kind : k.kind = .block dst src 64 1 0 0 none
  done : k.done = 0
  data : k.data = [(0, (g, tag))]
  runs : s.core.runs k.ctx k.tcb = true
  views : s.core.a.views = []
  inside : inSpad dst.toNat = true
  aligned : dst.toNat % 64 = 0
  clear : barrierHit (s.barrierBase k.ctx) (spadOff dst) 64 = false
  clean : isPoison tag = false
  room : s.core.engineRoom = true
  first : s.placesReady q k (s.rangeTouches s.core.a .write dst.toNat 64) = true

section
variable {q : CopyQ} {k : CopyCmd} {dst src : Word} {g : Granule} {tag : Word} {s : State}

theorem OneGranule.granules (h : OneGranule q k dst src g tag s) : k.granules = 1 := by
  unfold CopyCmd.granules
  rw [h.kind]

theorem OneGranule.granuleVa (h : OneGranule q k dst src g tag s) : k.granuleVa 0 = (src.toNat, dst.toNat) := by
  have hrow (b : Word) : rowVa b.toNat 0 0 = b.toNat := by
    rw [rowVa]
    have := b.isLt
    omega
  unfold CopyCmd.granuleVa
  rw [h.kind]
  simp [hrow]

theorem OneGranule.window (h : OneGranule q k dst src g tag s) : windowOf dst.toNat = .spad (spadOff dst) := by
  obtain ⟨hlo, hhi⟩ := of_decide_eq_true h.inside
  have hend : Config.userEnd ≤ Config.spadBase := by decide
  unfold windowOf
  rw [if_neg (by omega), if_pos hhi]
  rfl

theorem OneGranule.place (h : OneGranule q k dst src g tag s) : spadOff dst % 64 = 0 := by
  have hlo := (of_decide_eq_true h.inside).1
  have hal := h.aligned
  have hbase : Config.spadBase = 0x00F0000000000000 := rfl
  unfold spadOff
  omega

/-- A core whose task part has paid for a granule. -/
def Core.charged (c : Core) : Core := { c with a := { c.a with credit := c.a.credit - 64 } }

/-- The core once the granule is in its place, with the credit that it took. -/
def Core.copied (c : Core) (dst : Word) (g : Granule) (tag : Word) : Core := (c.granulePut (spadOff dst) g tag).charged

theorem charged_kept (c : Core) : c.charged.busy = c.busy ∧ c.charged.a = { c.a with credit := c.a.credit - 64 } ∧
    c.charged.outq = c.outq ∧ c.charged.spad = c.spad ∧ c.charged.spadTags = c.spadTags ∧ ∀ q, c.charged.queueOf q = c.queueOf q :=
  ⟨rfl, rfl, rfl, rfl, rfl, fun q => by cases q <;> rfl⟩

theorem copied_kept (c : Core) (dst : Word) (g : Granule) (tag : Word) : (c.copied dst g tag).busy = c.busy ∧
    (c.copied dst g tag).a = { c.a with credit := c.a.credit - 64 } ∧ (c.copied dst g tag).outq = c.outq ∧
    (c.copied dst g tag).spad = (c.granulePut (spadOff dst) g tag).spad ∧
    (c.copied dst g tag).spadTags = (c.granulePut (spadOff dst) g tag).spadTags ∧
    ∀ q, (c.copied dst g tag).queueOf q = c.queueOf q := by
  obtain ⟨ha, hb, ho, hq⟩ := granulePut_kept c (spadOff dst) g tag
  obtain ⟨hb', ha', ho', hs, ht, hq'⟩ := charged_kept (c.granulePut (spadOff dst) g tag)
  exact ⟨hb'.trans hb, by rw [Core.copied, ha', ha], ho'.trans ho, hs, ht, fun q => (hq' q).trans (hq q)⟩

theorem moveGranule_one (h : OneGranule q k dst src g tag s) (e : Engine) :
    ∃ t, s.moveGranule e q k 0 = ⟨t, true, none⟩ ∧ t.core = s.core.copied dst g tag ∧ t.mem = s.mem := by
  have hruns := h.runs
  have harch : s.archOf k.ctx k.tcb = s.core.a := if_pos h.runs
  have hget : tblGet k.data 0 = some (g, tag) := by rw [h.data]; rfl
  have hgran : s.granuleOf e k s.core.a 0 = .ok ((g, tag), s) := by
    unfold State.granuleOf
    rw [h.kind]
    dsimp only
    unfold State.copyRead
    rw [hget]
  have hwrite := copyWrite_own (q := q) (k := k) (d := e.die) (g := g) (t := tag) h.views h.window h.place h.clear
  have hroom : (k.sent.isSome || s.core.engineRoom) = true := by rw [h.room, Bool.or_true]
  have hwalk := walkWaits_spad h.views h.window [] s.core.id s
  refine ⟨(s.modCore (fun c => c.granulePut (spadOff dst) g tag)).onTaskArch k.ctx k.tcb (fun a => { a with credit := a.credit - 64 }),
    ?_, ?_, ?_⟩
  · unfold State.moveGranule
    dsimp only
    rw [harch, h.granuleVa, h.kind]
    dsimp only
    rw [hget, hroom, hwalk, hgran]
    simp only [Option.isNone_some, Bool.and_false, Bool.false_and, Bool.or_false, Bool.not_true, Bool.false_or, Bool.false_eq_true,
      if_false, List.nil_append, h.first]
    rw [h.clean]
    simp only [Bool.false_eq_true, if_false, hwrite]
  · refine onTaskArch_core_own (s := s.modCore (fun c => c.granulePut (spadOff dst) g tag)) ?_ _
    obtain ⟨ha, hb, -, -⟩ := granulePut_kept s.core (spadOff dst) g tag
    rw [runs_iff] at hruns ⊢
    rw [modCore_core, ha, hb]
    exact hruns
  · have hmem (v : State) (f : Arch → Arch) : (v.onTaskArch k.ctx k.tcb f).mem = v.mem := rfl
    rw [hmem, modCore_mem]

/-- A command of a core's queue changes. -/
def Core.onCmd (c : Core) (q : CopyQ) (id : Nat) (f : CopyCmd → CopyCmd) : Core :=
  match q with
  | .ca => { c with ca := c.ca.map (fun k => if k.id = id then f k else k) }
  | .cb => { c with cb := c.cb.map (fun k => if k.id = id then f k else k) }

theorem onCmd_core (q : CopyQ) (id : Nat) (f : CopyCmd → CopyCmd) (s : State) : (s.onCmd q id f).core = s.core.onCmd q id f := rfl

/-- What a core keeps when a command of its queues changes. -/
theorem onCmd_kept (c : Core) (q : CopyQ) (id : Nat) (f : CopyCmd → CopyCmd) : (c.onCmd q id f).a = c.a ∧ (c.onCmd q id f).busy = c.busy ∧
    (c.onCmd q id f).outq = c.outq ∧ (c.onCmd q id f).spad = c.spad ∧ (c.onCmd q id f).spadTags = c.spadTags := by
  cases q <;> exact ⟨rfl, rfl, rfl, rfl, rfl⟩

theorem onCmd_queueOf (c : Core) (q : CopyQ) (id : Nat) (f : CopyCmd → CopyCmd) :
    (c.onCmd q id f).queueOf q = (c.queueOf q).map (fun k => if k.id = id then f k else k) := by
  cases q <;> rfl

theorem find?_onCmd {ks : List CopyCmd} {id : Nat} {f : CopyCmd → CopyCmd} (hf : ∀ x, (f x).id = x.id)
    (h : ks.find? (fun x => x.id = id) = some k) :
    (ks.map (fun x => if x.id = id then f x else x)).find? (fun x => x.id = id) = some (f k) := by
  have hid : k.id = id := by simpa using List.find?_some h
  have hsame : ((fun x : CopyCmd => decide (x.id = id)) ∘ fun x => if x.id = id then f x else x) = fun x => decide (x.id = id) := by
    funext x
    rw [Function.comp_apply]
    split <;> simp [hf]
  rw [List.find?_map, hsame, h, Option.map_some, if_pos hid]

theorem filter_onCmd {ks : List CopyCmd} {id : Nat} {f : CopyCmd → CopyCmd} (hf : ∀ x, (f x).id = x.id) :
    (ks.map (fun x => if x.id = id then f x else x)).filter (fun x => x.id ≠ id) = ks.filter (fun x => x.id ≠ id) := by
  have hsame : ((fun x : CopyCmd => decide (x.id ≠ id)) ∘ fun x => if x.id = id then f x else x) = fun x => decide (x.id ≠ id) := by
    funext x
    rw [Function.comp_apply]
    split <;> simp [hf]
  rw [List.filter_map, hsame]
  refine (List.map_congr_left (fun x hx => ?_)).trans (List.map_id _)
  exact if_neg (by simpa using (List.mem_filter.1 hx).2)

/-- A command with its one granule moved. -/
def CopyCmd.movedOne (k : CopyCmd) : CopyCmd := { k with done := 1, sent := none }

theorem moveSome_one (h : OneGranule q k dst src g tag s) (hcmd : s.cmd? q k.id = some k) (hwr : s.core.writing q k.id = false)
    (hsave : s.saving k.ctx = false) (e : Engine) :
    ∃ t : State, s.moveSome e q k 0 0 = t.finishCmd q k.movedOne (statusWord 64 0 0) ∧
      t.core = (s.core.copied dst g tag).onCmd q k.id (fun x => { x with done := 1, sent := none }) ∧ t.mem = s.mem := by
  obtain ⟨v, hmove, hcore, hmem⟩ := moveGranule_one h e
  have hlist : (if 0 = 0 then List.range k.granules else (List.range 0).map (fun i => (0 + i) % max 1 k.granules)).filter
      (fun j => !s.saving k.ctx || k.begun j) = [0] := by
    rw [if_pos rfl, h.granules, hsave]
    rfl
  have hall : s.moveAll e q k [0] k.done = (1, none, v) := by
    unfold State.moveAll
    rw [h.done, if_neg (by norm_num), hmove]
    rfl
  obtain ⟨-, -, hout, -, -, hqueue⟩ := copied_kept s.core dst g tag
  have hqv : v.core.queueOf q = s.core.queueOf q := by rw [hcore, hqueue]
  have hov : v.core.outq = s.core.outq := by rw [hcore, hout]
  have hfind : (v.onCmd q k.id (fun x => { x with done := 1, sent := none })).cmd? q k.id = some k.movedOne := by
    unfold State.cmd?
    rw [onCmd_core, onCmd_queueOf, hqv]
    exact find?_onCmd (f := fun x => { x with done := 1, sent := none }) (fun _ => rfl) hcmd
  have hnot : (v.onCmd q k.id (fun x => { x with done := 1, sent := none })).core.writing q k.id = false := by
    unfold Core.writing at hwr ⊢
    rw [onCmd_core, (onCmd_kept ..).2.2.1, hov, hwr]
  have hmoved : k.movedOne.moved = true := by
    unfold CopyCmd.moved
    rw [show k.movedOne.granules = 1 from h.granules]
    rfl
  have hstatus : k.movedOne.status = statusWord 64 0 0 := by
    unfold CopyCmd.status
    rw [show k.movedOne.kind = _ from h.kind]
  refine ⟨v.onCmd q k.id (fun x => { x with done := 1, sent := none }), ?_, ?_, hmem⟩
  · rw [← hstatus]
    unfold State.moveSome
    dsimp only
    rw [hlist, hall]
    dsimp only
    unfold State.settle
    rw [hfind]
    exact if_pos (by rw [hmoved, hnot]; rfl)
  · rw [onCmd_core, hcore]

theorem copyBlock_one (h : OneGranule q k dst src g tag s) (hcmd : s.cmd? q k.id = some k) (hwr : s.core.writing q k.id = false)
    (hsave : s.saving k.ctx = false) (hok : s.core.spadOk = true) (hit : Bool) (broken : Option Nat) :
    let t := s.copyBlock q k 0 0 hit broken
    (k.tok ≠ 0 → t.core.a.rd k.tok = 0x0000004000000000) ∧
    t.core.queueOf q = (s.core.queueOf q).filter (fun c => c.id ≠ k.id) ∧ t.mem = s.mem ∧
    (∀ a, cellGet 0 t.core.spad a =
      if spadOff dst ≤ a ∧ a < spadOff dst + 64 then g.extractLsb' (8 * (a - spadOff dst)) 8 else cellGet 0 s.core.spad a) ∧
    ∀ j, cellGet 0 t.core.spadTags j = if j = spadOff dst / 64 then tag else cellGet 0 s.core.spadTags j := by
  intro t
  have hv : OneGranule q k dst src g tag { s with free := s.free + k.granules } :=
    ⟨h.kind, h.done, h.data, h.runs, h.views, h.inside, h.aligned, h.clear, h.clean, h.room, h.first⟩
  obtain ⟨v, hmove, hcore, hmem⟩ := moveSome_one hv hcmd hwr hsave
    { hit := hit, broken := broken, die := dieOf s.core.id,
      reply := fun j => ((s.input.peer.data)[j - 0]?).getD (Config.freeGranule (s.free + j), 0) }
  have ht : t = v.finishCmd q k.movedOne (statusWord 64 0 0) := hmove
  obtain ⟨hbusy, ha, -, hspad, htags, hqueue⟩ := copied_kept s.core dst g tag
  obtain ⟨hka, hkb, -, hks, hkt⟩ := onCmd_kept (s.core.copied dst g tag) q k.id (fun x => { x with done := 1, sent := none })
  have hcore' : v.core = (s.core.copied dst g tag).onCmd q k.id (fun x => { x with done := 1, sent := none }) := hcore
  have hruns : v.core.runs k.movedOne.ctx k.movedOne.tcb = true := by
    have hr := h.runs
    rw [runs_iff] at hr ⊢
    rw [hcore', hka, hkb, hbusy, ha]
    exact hr
  obtain ⟨hs1, hs2⟩ := finishCmd_spad (q := q) hruns (statusWord 64 0 0)
  obtain ⟨hc1, hc2⟩ := granulePut_cells hok (off := spadOff dst) g tag
  refine ⟨fun hd => ?_, ?_, ?_, fun a => ?_, fun j => ?_⟩
  · rw [ht, (finishCmd_regs (q := q) hruns _ k.tok).1]
    exact (rd_fillS_same _ _ _ hd).trans (by decide)
  · rw [ht, finishCmd_queueOf hruns, hcore', onCmd_queueOf, hqueue]
    exact filter_onCmd (fun _ => rfl)
  · rw [ht, finishCmd_mem, hmem]
  · rw [ht, hs1, hcore', hks, hspad, hc1]
  · rw [ht, hs2, hcore', hkt, htags, hc2]

end

theorem copyCommandsComplete : Claims.CopyCommandsComplete := by
  refine ⟨finishCmd_effect, fun s k => ?_⟩
  intro u i hk hready hexp
  refine ⟨fun dst src rowlen nrows ss ds cnt hkind => exec_copyComplete_block hk hready hexp hkind, ?_,
    fun cl hkind => exec_copyComplete_cfence hk hready hexp hkind,
    fun sb hkind hsubs hdone => exec_copyComplete_ring hk hready hexp hkind hsubs hdone⟩
  intro dst src g tag hkind hdone hread hdata hfn hfirst hcount hflag hcmd hwr hroom hsave hplaces hruns hviews hok hin hal hbar hclean
  have hone : OneGranule i.queue k dst src g tag u :=
    ⟨hkind, hdone, hdata, hruns, hviews, hin, hal, hbar, hclean, hroom, hplaces⟩
  have hexec := (exec_copyComplete_block hk hready hexp hkind).2 hfn hread
  have hfirst' : s.input.first = 0 := hfirst
  have hcount' : s.input.count = 0 := hcount
  rw [hfirst', hcount'] at hexec
  exact ⟨_, hexec, copyBlock_one hone hcmd hwr hsave hok _ _⟩

/-! ### Paused commands and subscriptions (R222, R235) -/

theorem exec_copyResume_cmd {s : State} {k : CopyCmd} {va : Word} (hflag : s.input.flag2 = false)
    (hk : (s.there.core.queueOf s.input.queue)[s.input.idx]? = some k) (hp : k.paused = some va) :
    exec .copyResume s = .next (if s.there.mapped k.ctx va then
      (if k.out then (s.there.onCmd s.input.queue k.id (fun x => { x with paused := none, sent := none })).tryFetch s.input.queue
          { k with paused := none, sent := none } none
        else s.there.onCmd s.input.queue k.id (fun x => { x with paused := none, sent := none }))
      else if s.input.flag then s.there.failCmd s.input.queue k .prot va else s.there) := by
  unfold State.there at *
  change execCopyResume s = _
  unfold execCopyResume
  dsimp only
  rw [hflag, hk]
  dsimp only
  rw [hp]
  rfl

theorem exec_copyResume_sub {s : State} {x : Subscription} {va : Word} (hflag : s.input.flag2 = true)
    (hx : s.there.core.subs[s.input.idx]? = some x) (hp : x.paused = some va) :
    exec .copyResume s = .next (if s.there.mapped x.ctx va then s.there.onSub x.sb0 (fun y => { y with paused := none })
      else if s.input.flag then s.there.failSub x .prot va else s.there) := by
  unfold State.there at *
  change execCopyResume s = _
  unfold execCopyResume
  dsimp only
  rw [hflag, hx]
  dsimp only
  rw [hp]
  rfl

/-- What a core keeps while commands of its queues end. -/
structure Owes where
  subs : List Subscription
  deferred : List Deferred
  busy : Bool
  ctx : Nat
  key : Word

/-- The subscriptions of a core, and what its task part is and owes. -/
def Core.owes (c : Core) : Owes := ⟨c.subs, c.a.deferred, c.busy, c.a.ctx, c.a.key⟩

theorem fillS_owes (c : Core) (r : Reg) (x : Word) : ({ c with a := c.a.fillS r x } : Core).owes = c.owes := by
  unfold Arch.fillS Core.owes
  split <;> rfl

theorem dropCmd_owes (q : CopyQ) (id : Nat) (s : State) : (s.dropCmd q id).core.owes = s.core.owes := by
  cases q <;> rfl

theorem finishCmd_owes (q : CopyQ) (k : CopyCmd) (x : Word) (s : State) : (s.finishCmd q k x).core.owes = s.core.owes := by
  obtain ⟨ps, ic, h⟩ := prunePoints_core ((s.dropCmd q k.id).fillFor k.ctx k.tcb k.tok x)
  have hfill : ((s.dropCmd q k.id).fillFor k.ctx k.tcb k.tok x).core.owes = (s.dropCmd q k.id).core.owes := by
    unfold State.fillFor State.onTaskArch
    dsimp only
    split
    · exact fillS_owes ..
    · rfl
  have hcore : (s.finishCmd q k x).core = ((s.dropCmd q k.id).fillFor k.ctx k.tcb k.tok x).core.repointed ps ic := h
  rw [hcore]
  exact hfill.trans (dropCmd_owes ..)

theorem ringGone_owes (q : CopyQ) (id : Nat) (s : State) : (s.ringGone q id).core.owes = s.core.owes := by
  unfold State.ringGone
  split
  · exact finishCmd_owes ..
  · rfl

theorem ringDone_owes (q : CopyQ) (id : Nat) (s : State) : (s.ringDone q id).core.owes = s.core.owes := by
  unfold State.ringDone
  split
  · exact finishCmd_owes ..
  · rfl

/-- A subscription that is released is gone, and nothing else of the core's task is. -/
theorem releaseSub_owes {sb0 : Nat} {s : State} {x : Subscription} (hx : x ∈ s.core.subs) (h0 : x.sb0 = sb0) :
    (s.releaseSub sb0).core.owes = { s.core.owes with subs := s.core.subs.filter (fun y => y.sb0 ≠ sb0) } := by
  obtain ⟨y, hy⟩ := Option.isSome_iff_exists.1 (List.find?_isSome (p := fun y : Subscription => decide (y.sb0 = sb0)).2 ⟨x, hx, by simpa using h0⟩)
  unfold State.releaseSub
  rw [hy]
  have hdone (l : List (CopyQ × Nat)) (t : State) : (l.foldl (fun s k => s.ringDone k.1 k.2) t).core.owes = t.core.owes :=
    foldl_preserves (fun s : State => s.core.owes) (fun s k => ringDone_owes k.1 k.2 s) l t
  have hgone (l : List (Nat × CopyQ × Nat)) (t : State) : (l.foldl (fun s r => s.ringGone r.2.1 r.2.2) t).core.owes = t.core.owes :=
    foldl_preserves (fun s : State => s.core.owes) (fun s r => ringGone_owes r.2.1 r.2.2 s) l t
  dsimp only
  rw [hdone, hgone]
  rfl

theorem failSub_effect {s : State} {x : Subscription} (hx : x ∈ s.core.subs) (va : Word) :
    (∀ y ∈ (s.failSub x .prot va).core.subs, y.sb0 ≠ x.sb0) ∧
    (s.core.runs x.ctx x.tcb = true → (s.failSub x .prot va).core.a.deferred = s.core.a.deferred ++ [⟨.prot, va⟩]) := by
  obtain ⟨v, hv⟩ : ∃ v, v = (x.relTok.foldl (fun s r => s.dropCmd r.2.1 r.2.2) s).releaseSub x.sb0 := ⟨_, rfl⟩
  have hdrop : (x.relTok.foldl (fun s r => s.dropCmd r.2.1 r.2.2) s).core.owes = s.core.owes :=
    foldl_preserves (fun s : State => s.core.owes) (fun s r => dropCmd_owes r.2.1 r.2.2 s) x.relTok s
  have hsubs : (x.relTok.foldl (fun s r => s.dropCmd r.2.1 r.2.2) s).core.subs = s.core.subs := congrArg Owes.subs hdrop
  have howes : v.core.owes = { s.core.owes with subs := s.core.subs.filter (fun y => y.sb0 ≠ x.sb0) } := by
    rw [hv, releaseSub_owes (by rw [hsubs]; exact hx) rfl, hdrop, hsubs]
  have hfail : s.failSub x .prot va = v.deferFor x.ctx x.tcb .prot va := by
    rw [hv]
    rfl
  rw [hfail]
  refine ⟨fun y hy => ?_, fun hruns => ?_⟩
  · have hkeep : (v.deferFor x.ctx x.tcb .prot va).core.subs = v.core.subs := by
      unfold State.deferFor State.onTaskArch
      dsimp only
      split <;> rfl
    have hvs : v.core.subs = s.core.subs.filter (fun y => y.sb0 ≠ x.sb0) := congrArg Owes.subs howes
    rw [hkeep, hvs] at hy
    simpa using (List.mem_filter.1 hy).2
  · have hvr : v.core.runs x.ctx x.tcb = true := by
      obtain ⟨hb, hc, hk⟩ := (runs_iff ..).1 hruns
      exact (runs_iff ..).2 ⟨(congrArg Owes.busy howes).trans hb, (congrArg Owes.ctx howes).trans hc, (congrArg Owes.key howes).trans hk⟩
    have hvd : v.core.a.deferred = s.core.a.deferred := congrArg Owes.deferred howes
    unfold State.deferFor
    rw [onTaskArch_core_own hvr, hvd]

theorem pausedTransfersResume : Claims.PausedTransfersResume := by
  intro s u i
  refine ⟨fun k va hflag hk hp => ?_, fun x va hflag hx hp => ?_⟩
  · have hexec := exec_copyResume_cmd hflag hk hp
    intro v
    exact ⟨fun hm => hexec.trans (congrArg Host.Outcome.next (if_pos hm)),
      fun hm => hexec.trans (congrArg Host.Outcome.next (if_neg (Bool.eq_false_iff.1 hm)))⟩
  · have hexec := exec_copyResume_sub hflag hx hp
    have hno (hm : u.mapped x.ctx va = false) := hexec.trans (congrArg Host.Outcome.next (if_neg (Bool.eq_false_iff.1 hm)))
    exact ⟨fun hm => hexec.trans (congrArg Host.Outcome.next (if_pos hm)),
      fun hm hf => (hno hm).trans (congrArg Host.Outcome.next (if_neg (Bool.eq_false_iff.1 hf))),
      fun hm hf => ⟨_, (hno hm).trans (congrArg Host.Outcome.next (if_pos hf)), failSub_effect (List.mem_of_getElem? hx) va⟩⟩

/-- Settles O38. -/
theorem copyTransfersComplete : Obligations.CopyTransfersComplete := ⟨copyCommandsComplete, pausedTransfersResume⟩

end Sys2Proof.Machine
end

section
/-!
LEMMAS. Atomics at their ports (spec/11 R226 to R231).
-/
open Sys2Proof

namespace Sys2Proof.Machine

/-! ### Bytes of memory and of granules (R27) -/

theorem readNat_eq (m : List (Nat × Byte)) (a n : Nat) : readNat m a n = ofDigitsBelow (2 ^ 8) (fun i => (cellGet 0 m (a + i)).toNat) n :=
  natOfBytes_map_range (fun i => cellGet 0 m (a + i)) n

/-- Byte `i` of a number read from memory. -/
theorem byte_readNat (m : List (Nat × Byte)) (a : Nat) {n i : Nat} (h : i < n) :
    BitVec.ofNat 8 (readNat m a n / 2 ^ (8 * i)) = cellGet 0 m (a + i) := by
  refine BitVec.eq_of_getLsbD_eq (fun k hk => ?_)
  rw [BitVec.getLsbD_ofNat, decide_eq_true hk, Bool.true_and, Nat.testBit_div_two_pow, readNat_eq, Nat.add_comm]
  exact testBit_ofBytes (fun i => cellGet 0 m (a + i)) h hk

/-- Byte `i` of a granule of physical memory. -/
theorem granule_byte (s : State) (pa : Nat) {i : Nat} (h : i < 64) :
    (s.granule pa).1.extractLsb' (8 * i) 8 = cellGet 0 s.mem (pa / 64 * 64 + i) := by
  unfold State.granule
  dsimp only
  rw [byte_ofNat _ h, byte_readNat _ _ h]

theorem ofDigitsBelow_congr {B : Nat} {d d' : Nat → Nat} {n : Nat} (h : ∀ i < n, d i = d' i) : ofDigitsBelow B d n = ofDigitsBelow B d' n := by
  induction n with
  | zero => rfl
  | succ n ih => rw [ofDigitsBelow_succ, ofDigitsBelow_succ, ih (fun i hi => h i (Nat.lt_succ_of_lt hi)), h n (Nat.lt_succ_self n)]

/-- An access within one granule reads the bytes that it names. -/
theorem joinGranules_granule (s : State) (pa : Nat) {va n : Nat} (h : va % 64 + n ≤ 64) :
    joinGranules va n [(s.granule pa).1] = readNat s.mem (pa / 64 * 64 + va % 64) n := by
  rw [joinGranules_eq, readNat_eq]
  refine ofDigitsBelow_congr (fun i hi => ?_)
  unfold byteAt
  rw [show (va % 64 + i) / 64 = 0 by omega, show (va % 64 + i) % 64 = va % 64 + i by omega, Nat.add_assoc]
  exact congrArg BitVec.toNat (granule_byte s pa (by omega))

theorem granuleVas_one {va n : Nat} (hn : 0 < n) (h : va % 64 + n ≤ 64) : granuleVas va n = [va] := by
  unfold granuleVas
  rw [show (va + n - 1) / 64 + 1 - va / 64 = 1 by omega]
  simp
  omega

/-! ### What an atomic does with the number at its port (R227 to R229) -/

theorem portOp_results : ∀ (k : CopyCmd) (old : Nat) (w : Bool) (a b c : Word),
    let m : Nat := if w then 2 ^ 64 else 2 ^ 32
    let op := k.portOp old
    (k.kind = .cas a w b c → op.result = BitVec.ofNat 64 old ∧ op.new = if old = b.toNat % m then c.toNat % m else old) ∧
    (k.kind = .faa a w b → op.result = BitVec.ofNat 64 old ∧ op.new = (old + b.toNat) % m) ∧
    (k.kind = .xchg a w b → op.result = BitVec.ofNat 64 old ∧ op.new = b.toNat % m) ∧
    (k.kind = .fput a b → op.result = BitVec.ofNat 64 (old / 2 ^ 64) ∧
      op.new = if old / 2 ^ 64 = 0 then b.toNat + 2 ^ 64 else old) := by
  intro k old w a b c
  dsimp only
  unfold CopyCmd.portOp
  refine ⟨fun h => ?_, fun h => ?_, fun h => ?_, fun h => ?_⟩
  · rw [h]
    cases w <;> exact ⟨rfl, rfl⟩
  · rw [h]
    cases w <;> exact ⟨rfl, rfl⟩
  · rw [h]
    cases w <;> exact ⟨rfl, rfl⟩
  · rw [h]
    exact ⟨rfl, rfl⟩

/-- An atomic writes the bytes that it reads. -/
theorem portOp_bytes {k : CopyCmd} (h : k.isAtomic = true) (old : Nat) : (k.portOp old).bytes = k.portBytes ∧ (k.portOp old).old = old := by
  have hsize (w : Bool) : (if w then 64 else 32) / 8 = if w then 8 else 4 := by cases w <;> rfl
  unfold CopyCmd.isAtomic at h
  unfold CopyCmd.portOp CopyCmd.portBytes
  cases hk : k.kind with
  | acc o d x n => exact ⟨rfl, rfl⟩
  | cas a w b c => exact ⟨hsize w, rfl⟩
  | faa a w b => exact ⟨hsize w, rfl⟩
  | xchg a w b => exact ⟨hsize w, rfl⟩
  | fput a b => exact ⟨rfl, rfl⟩
  | _ => simp [hk] at h

/-! ### Sent again (R230) -/

section
variable {s : State} {k : CopyCmd} (hk : (s.there.core.queueOf s.input.queue)[s.input.idx]? = some k)
  (hexp : s.there.expired k.ctx k.sent = false)

include hk hexp

theorem exec_atomicResend (hs : k.sent.isSome = true) (hb : k.busy = none) (hr : k.retry < 3) :
    let k' : CopyCmd := { k with applied := none, retry := k.retry + 1 }
    let v := s.there.onCmd s.input.queue k.id (fun _ => k')
    (∀ x, k.applied = some x → exec .atomicResend s = .next (v.answerAtomic s.input.queue k' x s.input.flag)) ∧
    (k.applied = none → exec .atomicResend s = .next (v.atomicArrive s.input.queue k' s.input.flag false none)) := by
  intro k' v
  have hno : ¬(k.sent.isNone || k.busy.isSome) = true := by
    rw [hb]
    cases h : k.sent <;> simp_all
  have hno' : ¬s.there.expired k.ctx k.sent = true := by simp [hexp]
  have hno'' : ¬3 ≤ k.retry := by omega
  unfold State.there at *
  refine ⟨fun x hx => ?_, fun hx => ?_⟩
  · change execAtomicResend s = _
    unfold execAtomicResend
    dsimp only
    rw [hk]
    dsimp only
    rw [if_neg hno, if_neg hno', if_neg hno'', hx]
    rfl
  · change execAtomicResend s = _
    unfold execAtomicResend
    dsimp only
    rw [hk]
    dsimp only
    rw [if_neg hno, if_neg hno', if_neg hno'', hx]
    rfl

theorem exec_atomicBusyRetry {f : Nat} (hb : k.busy = some f) :
    (s.there.frame.toNat < f → exec .atomicBusyRetry s = .next s.there) ∧
    (f ≤ s.there.frame.toNat →
      let k' : CopyCmd := { k with busy := none }
      let v := s.there.onCmd s.input.queue k.id (fun _ => k')
      exec .atomicBusyRetry s =
        .next (if v.cmdReady s.input.queue k' then v.atomicArrive s.input.queue k' s.input.flag false none else v)) := by
  have hno' : ¬s.there.expired k.ctx k.sent = true := by simp [hexp]
  unfold State.there at *
  refine ⟨fun hf => ?_, fun hf => ?_⟩
  · change execAtomicBusyRetry s = _
    unfold execAtomicBusyRetry
    dsimp only
    rw [hk]
    dsimp only
    rw [hb]
    exact congrArg Host.Outcome.next (if_pos hf)
  · intro k' v
    change execAtomicBusyRetry s = _
    unfold execAtomicBusyRetry
    dsimp only
    rw [hk]
    dsimp only
    rw [hb]
    exact congrArg Host.Outcome.next ((if_neg (Nat.not_lt.2 hf)).trans (if_neg hno'))

end

/-! ### The response (R230) -/

/-- What the program sees of the response to an atomic: its result in the token and its place in the queue free, or, when the response is
lost, the command that remembers it. -/
def State.responded (u t : State) (q : CopyQ) (k : CopyCmd) (lost : Bool) (x : Word) : Prop :=
  (lost = false → t.core.a.rd k.tok = x ∧ t.core.queueOf q = (u.core.queueOf q).filter (fun c => c.id ≠ k.id)) ∧
  (lost = true → t.core.a.s = u.core.a.s ∧ t.core.a.sEmpty = u.core.a.sEmpty ∧
    t.core.queueOf q = (u.core.queueOf q).map (fun c =>
      if c.id = k.id then { c with applied := some x, sent := some (k.sent.getD u.frame.toNat) } else c))

/-- What a response leaves: memory, tags, and what the atomic units have recorded. -/
structure Ported where
  mem : List (Nat × Byte)
  memTags : List (Nat × Word)
  atomTabs : List Dedup

/-- Memory, tags and the records of the atomic units. -/
def State.ported (s : State) : Ported := ⟨s.mem, s.memTags, s.atomTabs⟩

theorem onDie_ported (d : Nat) (f : Die → Die) (s : State) : (s.onDie d f).ported = s.ported := by
  unfold State.onDie
  split <;> rfl

theorem acquire_ported (sc : Scope) (s : State) : (s.acquire sc).ported = s.ported := by
  unfold State.acquire State.acquireOn State.onCore
  split
  · split <;> exact onDie_ported ..
  · rfl

theorem prunePoints_ported (s : State) : s.prunePoints.ported = s.ported :=
  foldl_preserves State.ported (fun s sc => acquire_ported sc s) _ _

theorem freeEntry_ported (src n : Nat) (s : State) : (s.freeEntry src n).ported = s.ported := by
  unfold State.freeEntry
  split <;> rfl

theorem freeEntry_core (src n : Nat) (s : State) :
    (s.freeEntry src n).core.a = s.core.a ∧ ∀ q, (s.freeEntry src n).core.queueOf q = s.core.queueOf q := by
  unfold State.freeEntry
  split
  · exact ⟨rfl, fun _ => rfl⟩
  · exact ⟨rfl, fun q => by cases q <;> rfl⟩

theorem answerAtomic_ported (q : CopyQ) (k : CopyCmd) (x : Word) (lost : Bool) (s : State) :
    (s.answerAtomic q k x lost).ported = s.ported := by
  unfold State.answerAtomic
  split
  · rfl
  · rw [freeEntry_ported]
    exact (prunePoints_ported _).trans rfl

theorem answerAtomic_responded {q : CopyQ} {k : CopyCmd} {s : State} (h : s.core.runs k.ctx k.tcb = true) (hd : k.tok ≠ 0) (x : Word)
    (lost : Bool) : s.responded (s.answerAtomic q k x lost) q k lost x := by
  unfold State.answerAtomic
  refine ⟨fun hl => ?_, fun hl => ?_⟩
  · obtain ⟨ha, hq⟩ := freeEntry_core (k.src.getD s.core.id) (k.seqNo.getD 0) (s.finishCmd q k x)
    rw [hl, if_neg Bool.false_ne_true, ha, hq]
    exact ⟨(finishCmd_regs h x k.tok).1.trans (rd_fillS_same _ _ _ hd), finishCmd_queueOf h x⟩
  · rw [hl, if_pos rfl, onCmd_core, onCmd_queueOf, (onCmd_kept ..).1]
    exact ⟨rfl, rfl, rfl⟩

theorem responded_of_core {u v t : State} {q : CopyQ} {k : CopyCmd} {lost : Bool} {x : Word} (hc : v.core = u.core) (hf : v.frame = u.frame)
    (h : v.responded t q k lost x) : u.responded t q k lost x := by
  unfold State.responded at h ⊢
  rwa [hc, hf] at h

/-! ### An atomic that its port applies (R226 to R230) -/

/-- Writing a number within one granule of physical memory. -/
theorem writeAt_phys (s : State) (pa : Nat) (pte : Word) {va n : Nat} (h : va % 64 + n ≤ 64) (x : Nat) :
    s.writeAt (.phys pa pte) (va / 64 * 64) ((cellsOf va n x).filter (fun c => c.1 / 64 = va / 64)) none =
      s.writePhys ((List.range n).map (fun i => (pa / 64 * 64 + va % 64 + i, BitVec.ofNat 8 (x / 2 ^ (8 * i))))) [] := by
  have hall : (cellsOf va n x).filter (fun c => c.1 / 64 = va / 64) = cellsOf va n x := by
    refine List.filter_eq_self.2 (fun c hc => ?_)
    rw [cellsOf_eq_map] at hc
    obtain ⟨i, hi, rfl⟩ := List.mem_map.1 hc
    have := List.mem_range.1 hi
    exact decide_eq_true (by omega)
  have hcells : (cellsOf va n x).map (fun c => (pa / 64 * 64 + (c.1 - va / 64 * 64), c.2)) =
      (List.range n).map (fun i => (pa / 64 * 64 + va % 64 + i, BitVec.ofNat 8 (x / 2 ^ (8 * i)))) := by
    rw [cellsOf_eq_map, List.map_map]
    refine List.map_congr_left (fun i _ => ?_)
    rw [Function.comp_apply]
    exact congrArg (fun m => (m, _)) (by omega)
  unfold State.writeAt
  dsimp only
  rw [hall, hcells]

theorem writePhys_range (s : State) (p n : Nat) (f : Nat → Byte) (hwf : Memory.wf s.mem = true) (b : Nat) :
    cellGet 0 (s.writePhys ((List.range n).map (fun i => (p + i, f i))) []).mem b =
      if p ≤ b ∧ b < p + n then f (b - p) else cellGet 0 s.mem b := by
  rw [State.writePhys, cellGet_cellSets 0 _ _ b hwf, readAfter_range]

/-- The state in which an atomic has written its location. -/
def State.atomPut (s : State) (p : Nat) (op : PortOp) : State :=
  if op.new = op.old then s
  else s.writePhys ((List.range op.bytes).map (fun i => (p + i, BitVec.ofNat 8 (op.new / 2 ^ (8 * i))))) []

/-- Whether the new number is written or not, the location holds it. -/
theorem atomPut_mem {s : State} (hwf : Memory.wf s.mem = true) {p : Nat} {op : PortOp} (hold : op.old = readNat s.mem p op.bytes) (b : Nat) :
    cellGet 0 (s.atomPut p op).mem b =
      if p ≤ b ∧ b < p + op.bytes then BitVec.ofNat 8 (op.new / 2 ^ (8 * (b - p))) else cellGet 0 s.mem b := by
  unfold State.atomPut
  split
  next h =>
    split
    next hb =>
      rw [h, hold, byte_readNat _ _ (by omega), show p + (b - p) = b by omega]
    next => rfl
  next => exact writePhys_range s p op.bytes (fun i => BitVec.ofNat 8 (op.new / 2 ^ (8 * i))) hwf b

/-- What an atomic's write leaves as it was. -/
theorem atomPut_kept (s : State) (p : Nat) (op : PortOp) : (s.atomPut p op).core = s.core ∧ (s.atomPut p op).frame = s.frame ∧
    (s.atomPut p op).memTags = s.memTags ∧ (s.atomPut p op).atomTabs = s.atomTabs ∧ (s.atomPut p op).tasks = s.tasks := by
  unfold State.atomPut
  split <;> exact ⟨rfl, rfl, rfl, rfl, rfl⟩

/-- Without a task that waits for a future a fill wakes none. -/
theorem wakeCell_quiet {s : State} (h : ∀ x ∈ s.tasks, ∀ d c til, x.wait ≠ some (.future d c til)) (ctx pa : Nat) : s.wakeCell ctx pa = s := by
  unfold State.wakeCell
  refine List.foldlRecOn (motive := fun t => t = s) s.tasks _ rfl (fun t ht x hx => ?_)
  subst ht
  split
  next d va til hw => exact absurd hw (h x hx d va til)
  next => rfl

theorem recordAtomic_kept (pa : Nat) (pte : Word) (e : Dedup) (s : State) : (s.recordAtomic (.phys pa pte) e).core = s.core ∧
    (s.recordAtomic (.phys pa pte) e).frame = s.frame ∧ (s.recordAtomic (.phys pa pte) e).mem = s.mem ∧
    (s.recordAtomic (.phys pa pte) e).memTags = s.memTags ∧ (s.recordAtomic (.phys pa pte) e).tasks = s.tasks :=
  ⟨rfl, rfl, rfl, rfl, rfl⟩

theorem cacheDrop_kept (s : State) (d pa : Nat) : (s.cacheDrop d pa).core = s.core ∧ (s.cacheDrop d pa).frame = s.frame ∧
    (s.cacheDrop d pa).mem = s.mem ∧ (s.cacheDrop d pa).memTags = s.memTags ∧ (s.cacheDrop d pa).atomTabs = s.atomTabs ∧
    (s.cacheDrop d pa).tasks = s.tasks := by
  unfold State.cacheDrop State.onDie
  split <;> exact ⟨rfl, rfl, rfl, rfl, rfl, rfl⟩

/-- The records of an atomic unit find an atomic that has just been applied there. -/
theorem recordAtomic_find {s : State} {pa : Nat} {pte : Word} (hpa : pa < 2 ^ 64) (src n : Nat) (vals : List Word) (x : Word)
    (hnew : (s.portTable (.phys pa pte)).find? (fun e => e.src = src && e.seqNo = n) = none) :
    ((s.recordAtomic (.phys pa pte) ⟨src, n, word pa, vals, x⟩).portTable (.phys pa pte)).find? (fun e => e.src = src && e.seqNo = n) =
      some ⟨src, n, word pa, vals, x⟩ := by
  have hw : (word pa).toNat = pa := by
    rw [toNat_word]
    omega
  have hold : ∀ e ∈ s.atomTabs, e.addr.toNat / 2 ^ 37 = pa / 2 ^ 37 → ¬((decide (e.src = src) && decide (e.seqNo = n)) = true) :=
    fun e he hp => List.find?_eq_none.1 hnew e (List.mem_filter.2 ⟨he, decide_eq_true hp⟩)
  unfold State.recordAtomic State.portTable
  dsimp only
  rw [List.filter_append, List.find?_append, List.find?_eq_none.2 (fun e he => ?_), Option.none_or]
  · rw [List.filter_cons_of_pos (by simp [hw])]
    simp
  · obtain ⟨he, hp⟩ := List.mem_filter.1 he
    refine hold e ?_ (of_decide_eq_true hp)
    rcases List.mem_append.1 he with he | he
    · exact (List.mem_filter.1 he).1
    · exact (List.mem_filter.1 (List.mem_of_mem_drop he)).1

section
variable {q : CopyQ} {k : CopyCmd} {pa : Nat} {pte : Word} {s : State} (hat : k.isAtomic = true) (hn : 0 < k.portBytes)
  (hin : k.addr.toNat % 64 + k.portBytes ≤ 64)

/-- The atomic that finds its location at physical address `pa`. -/
def CopyCmd.portOpIn (k : CopyCmd) (pa : Nat) (s : State) : PortOp :=
  k.portOp (readNat s.mem (pa / 64 * 64 + k.addr.toNat % 64) k.portBytes)

include hin in
theorem portOpAt_phys : s.portOpAt k [.phys pa pte] = k.portOpIn pa s := by
  unfold State.portOpAt CopyCmd.portOpIn
  rw [← joinGranules_granule s pa hin]
  rfl

include hat hn hin

theorem applyAt_phys (hq : ∀ x ∈ s.tasks, ∀ d c til, x.wait ≠ some (.future d c til)) (lost : Bool) :
    s.applyAt q k [.phys pa pte] (.phys pa pte) lost =
      ((((s.atomPut (pa / 64 * 64 + k.addr.toNat % 64) (k.portOpIn pa s)).cacheDrop (dieOf s.core.id) pa).recordAtomic (.phys pa pte)
        ⟨k.src.getD s.core.id, k.seqNo.getD 0, word pa, (k.portOpIn pa s).vals, (k.portOpIn pa s).result⟩).answerAtomic q k
          (k.portOpIn pa s).result lost) := by
  have hbytes : (k.portOpIn pa s).bytes = k.portBytes := (portOp_bytes hat _).1
  have hput : (if (k.portOpIn pa s).new = (k.portOpIn pa s).old then s else
      ((granuleVas k.addr.toNat (k.portOpIn pa s).bytes).zip [Loc.phys pa pte]).foldl (fun t p =>
        t.writeAt p.2 (p.1 / 64 * 64) ((cellsOf k.addr.toNat (k.portOpIn pa s).bytes (k.portOpIn pa s).new).filter
          (fun c => c.1 / 64 = p.1 / 64)) none) s) = s.atomPut (pa / 64 * 64 + k.addr.toNat % 64) (k.portOpIn pa s) := by
    unfold State.atomPut
    rw [hbytes, granuleVas_one hn hin]
    refine if_congr Iff.rfl rfl ?_
    exact writeAt_phys s pa pte hin _
  have hquiet (v : State) (hv : v.tasks = s.tasks) : (if (k.portOpIn pa s).wakes then v.wakeCell k.ctx pa else v) = v := by
    rw [wakeCell_quiet (by rwa [hv]), ite_self]
  unfold State.applyAt
  dsimp only
  rw [if_neg Bool.false_ne_true, portOpAt_phys hin, hput]
  refine congrArg (fun v : State => v.answerAtomic q k (k.portOpIn pa s).result lost) (hquiet _ ?_)
  exact (recordAtomic_kept pa pte _ _).2.2.2.2.trans ((cacheDrop_kept _ _ pa).2.2.2.2.2.trans (atomPut_kept ..).2.2.2.2)

/-- What an atomic does that its port has no entry for. -/
theorem applyAt_effect (hq : ∀ x ∈ s.tasks, ∀ d c til, x.wait ≠ some (.future d c til)) (hpa : pa < 2 ^ 53)
    (hwf : Memory.wf s.mem = true) (hrun : s.core.runs k.ctx k.tcb = true) (hd : k.tok ≠ 0) (lost : Bool)
    (hnew : (s.portTable (.phys pa pte)).find? (fun e => e.src = k.src.getD s.core.id && e.seqNo = k.seqNo.getD 0) = none) :
    let t := s.applyAt q k [.phys pa pte] (.phys pa pte) lost
    let p := pa / 64 * 64 + k.addr.toNat % 64
    let op := k.portOpIn pa s
    s.responded t q k lost op.result ∧
    (t.portTable (.phys pa pte)).find? (fun e => e.src = k.src.getD s.core.id && e.seqNo = k.seqNo.getD 0) =
      some ⟨k.src.getD s.core.id, k.seqNo.getD 0, BitVec.ofNat 64 pa, op.vals, op.result⟩ ∧
    (∀ b, cellGet 0 t.mem b = if p ≤ b ∧ b < p + k.portBytes then BitVec.ofNat 8 (op.new / 2 ^ (8 * (b - p))) else cellGet 0 s.mem b) ∧
    t.memTags = s.memTags := by
  intro t p op
  obtain ⟨v1, hv1⟩ : ∃ v, v = (s.atomPut p op).cacheDrop (dieOf s.core.id) pa := ⟨_, rfl⟩
  obtain ⟨v2, hv2⟩ : ∃ v, v = v1.recordAtomic (.phys pa pte) ⟨k.src.getD s.core.id, k.seqNo.getD 0, word pa, op.vals, op.result⟩ := ⟨_, rfl⟩
  have ht : t = v2.answerAtomic q k op.result lost := by
    rw [hv2, hv1]
    exact applyAt_phys hat hn hin hq lost
  obtain ⟨hbytes, hold⟩ := portOp_bytes hat (readNat s.mem p k.portBytes)
  obtain ⟨ha1, ha2, ha3, ha4, -⟩ := atomPut_kept s p op
  obtain ⟨hc1, hc2, hc3, hc4, hc5, -⟩ := cacheDrop_kept (s.atomPut p op) (dieOf s.core.id) pa
  rw [← hv1] at hc1 hc2 hc3 hc4 hc5
  obtain ⟨hr1, hr2, hr3, hr4, -⟩ := recordAtomic_kept pa pte ⟨k.src.getD s.core.id, k.seqNo.getD 0, word pa, op.vals, op.result⟩ v1
  rw [← hv2] at hr1 hr2 hr3 hr4
  have hport := answerAtomic_ported q k op.result lost v2
  rw [← ht] at hport
  have hcore : v2.core = s.core := hr1.trans (hc1.trans ha1)
  refine ⟨?_, ?_, fun b => ?_, ?_⟩
  · rw [ht]
    exact responded_of_core hcore (hr2.trans (hc2.trans ha2)) (answerAtomic_responded (by rwa [hcore]) hd op.result lost)
  · have htab : t.portTable (.phys pa pte) = v2.portTable (.phys pa pte) := congrArg (fun x : Ported => x.atomTabs.filter _) hport
    have hsame : v1.portTable (.phys pa pte) = s.portTable (.phys pa pte) := congrArg (List.filter _) (hc5.trans ha4)
    rw [htab, hv2]
    exact recordAtomic_find (by omega) _ _ _ _ (by rwa [hsame])
  · have hmem : t.mem = v2.mem := congrArg Ported.mem hport
    have hb : op.bytes = k.portBytes := hbytes
    rw [hmem, hr3, hc3, atomPut_mem hwf (by rw [hb]; exact hold), hb]
  · have htags : t.memTags = v2.memTags := congrArg Ported.memTags hport
    rw [htags, hr4, hc4, ha3]

end

/-! ### An atomic that arrives (R226, R231) -/

section
variable {q : CopyQ} {k : CopyCmd} {pa : Nat} {pte : Word} {s : State}

/-- An atomic whose place is found and free comes to its port. -/
theorem atomicArrive_at (hat : k.isAtomic = true) (hacc : ∀ o d x m, k.kind = .acc o d x m → k.read = true)
    (hcount : s.core.atomicsBefore k.id < 64)
    (hplaces : s.placesReady q k (s.rangeTouches (s.archOf k.ctx k.tcb) .update k.addr.toNat k.portBytes) = true)
    (hroom : k.sent.isSome = true ∨ s.core.engineRoom = true)
    (hwalk : (granuleVas k.addr.toNat k.portBytes).any (s.walkWaits [] s.core.id (s.archOf k.ctx k.tcb)) = false)
    (hpeer : ∀ sl off, windowOf k.addr.toNat ≠ .peer sl off)
    (hloc : s.locateAll s.core.id (s.archOf k.ctx k.tcb) true .update true (granuleVas k.addr.toNat k.portBytes) = .ok [.phys pa pte])
    (lost : Bool) : s.atomicArrive q k lost false none = s.atPort q k [.phys pa pte] (.phys pa pte) lost none := by
  have hunread : (match k.kind with
      | .acc _ _ _ _ => !k.read
      | _ => false) = false := by
    split
    next o d x m hk => rw [hacc o d x m hk]; rfl
    next => rfl
  have hfirst : ¬(!k.isAtomic || decide (64 ≤ s.core.atomicsBefore k.id)) = true := by
    rw [hat, decide_eq_false (Nat.not_le.2 hcount)]
    simp
  have hreq : ¬((k.sent.isNone && !s.core.engineRoom) ||
      (granuleVas k.addr.toNat k.portBytes).any (s.walkWaits [] s.core.id (s.archOf k.ctx k.tcb))) = true := by
    rw [hwalk]
    rcases hroom with h | h
    · rw [Option.isSome_iff_exists] at h
      obtain ⟨x, h⟩ := h
      simp [h]
    · simp [h]
  unfold State.atomicArrive
  dsimp only
  rw [if_neg hfirst, if_neg (by rw [Bool.not_eq_true]; exact hunread), if_neg (by simp [hplaces]), if_neg hreq]
  split
  next sl off hw => exact absurd hw (hpeer sl off)
  next => rw [hloc]

theorem atPort_new (hn : 0 < k.portBytes) (hin : k.addr.toNat % 64 + k.portBytes ≤ 64)
    (hnew : (s.portTable (.phys pa pte)).find? (fun e => e.src = k.src.getD s.core.id && e.seqNo = k.seqNo.getD 0) = none)
    (hplace : s.placeViolates k.ctx k.tcb (s.archOf k.ctx k.tcb) k.addr.toNat (.phys pa pte) = false)
    (hclean : isPoison (s.granule pa).2 = false) (lost : Bool) :
    s.atPort q k [.phys pa pte] (.phys pa pte) lost none = s.applyAt q k [.phys pa pte] (.phys pa pte) lost := by
  have hentry : s.appliedEntry k (.phys pa pte) = none := hnew
  have hpoison : ((granuleVas k.addr.toNat k.portBytes).zip [Loc.phys pa pte]).find?
      (fun p => isPoison (s.granuleAt s.core.id false false p.2).2) = none := by
    rw [granuleVas_one hn hin]
    refine List.find?_eq_none.2 (fun p hp => ?_)
    obtain rfl : p = (k.addr.toNat, .phys pa pte) := by simpa using hp
    rw [show (s.granuleAt s.core.id false false (.phys pa pte)).2 = (s.granule pa).2 from rfl, hclean]
    exact Bool.false_ne_true
  unfold State.atPort
  dsimp only
  rw [hentry]
  dsimp only
  rw [show s.onBarrier k.ctx (.phys pa pte) k.portBytes = false from rfl, hplace, show s.portWaits k (.phys pa pte) = false from rfl]
  simp only [Bool.false_eq_true, if_false, Option.bind_none]
  rw [hpoison]

theorem atPort_again {e : Dedup}
    (hold : (s.portTable (.phys pa pte)).find? (fun e => e.src = k.src.getD s.core.id && e.seqNo = k.seqNo.getD 0) = some e)
    (hdup : k.dup = none) (lost : Bool) : s.atPort q k [.phys pa pte] (.phys pa pte) lost none = s.answerAtomic q k e.result lost := by
  have hentry : s.appliedEntry k (.phys pa pte) = some e := hold
  unfold State.atPort State.answerAgain
  dsimp only
  rw [hentry]
  dsimp only
  rw [hdup]
  rfl

end

theorem exec_atomicApply {s : State} {k : CopyCmd} (hk : (s.there.core.queueOf s.input.queue)[s.input.idx]? = some k)
    (hready : s.there.cmdReady s.input.queue k = true) (happ : k.applied = none) (hat : k.isAtomic = true)
    (hexp : s.there.expired k.ctx k.sent = false) (hfn : s.input.fn ≠ 1) (hflag : s.input.flag2 = false) :
    exec .atomicApply s = .next (s.there.atomicArrive s.input.queue k s.input.flag false none) := by
  have hno : ¬(!s.there.cmdReady s.input.queue k || k.applied.isSome || !k.isAtomic) = true := by simp [hready, happ, hat]
  have hno' : ¬s.there.expired k.ctx k.sent = true := by simp [hexp]
  unfold State.there at *
  change execAtomicApply s = _
  unfold execAtomicApply
  dsimp only
  rw [hk]
  dsimp only
  rw [if_neg hno, if_neg hno', if_neg hfn, hflag]
  rfl

/-- Settles O39. -/
theorem atomicsApplyOnce : Obligations.AtomicsApplyOnce := by
  refine ⟨fun s k pa pte => ?_, portOp_results, fun s k => ?_⟩
  · intro u i a va n p op hk hat happ hexp hfn hflag hacc hroom hwalk hpa hready hcount hplaces hpeer hn hin hloc hclean hplace hwf hrun
      hd hq same answered
    have hexec := exec_atomicApply hk hready happ hat hexp hfn hflag
    have harrive := atomicArrive_at (q := i.queue) hat hacc hcount hplaces hroom hwalk hpeer hloc i.flag
    refine ⟨fun hnew => ?_, fun e hold hdup => ?_⟩
    · obtain ⟨hresp, hfind, hmem, htags⟩ := applyAt_effect (q := i.queue) hat hn hin hq hpa hwf hrun hd i.flag hnew
      have hend := harrive.trans (atPort_new hn hin hnew hplace hclean i.flag)
      exact ⟨_, hexec.trans (congrArg Host.Outcome.next hend), hresp, hfind, hmem, htags⟩
    · have hend := harrive.trans (atPort_again hold hdup i.flag)
      have hport := answerAtomic_ported i.queue k e.result i.flag u
      refine ⟨_, hexec.trans (congrArg Host.Outcome.next hend), answerAtomic_responded hrun hd e.result i.flag,
        congrArg Ported.mem hport, congrArg Ported.memTags hport, ?_⟩
      have htab : (u.answerAtomic i.queue k e.result i.flag).portTable (.phys pa pte) = u.portTable (.phys pa pte) :=
        congrArg (fun x : Ported => x.atomTabs.filter _) hport
      rw [htab]
      exact hold
  · intro u i hk hexp
    exact ⟨fun hs hb hr => exec_atomicResend hk hexp hs hb hr, fun f hb => exec_atomicBusyRetry hk hexp hb⟩

end Sys2Proof.Machine
end

section
/-!
LEMMAS. A publication of a page whose tables fold back on themselves (spec/05 R100 to R102, spec/06 R136).
-/
open Sys2Proof

namespace Sys2Proof.Machine

/-! ### SEL of a page in the replicas (R136) -/

theorem flushTlbs_ctxs (d : Nat) (gone : TlbEntry → Bool) (s : State) : (s.flushTlbs d gone).ctxs = s.ctxs := by
  have honDie (f : Die → Die) (s : State) : (s.onDie d f).ctxs = s.ctxs := by
    unfold State.onDie
    split <;> rfl
  have honCore (c : Nat) (f : Core → Core) (s : State) : (s.onCore c f).ctxs = s.ctxs := by
    unfold State.onCore
    split <;> rfl
  refine (foldl_preserves State.ctxs (fun s c => ?_) _ _).trans (honDie _ s)
  split
  · exact honCore ..
  · rfl

/-- A publication changes a context in its replicas alone. -/
theorem swapSel_ctx? {s : State} {ctx : Nat} {c : Context} (h : s.ctx? ctx = some c) (p : Nat × Nat × Word) :
    (s.swapSel ctx p).ctx? ctx = some { c with replicas := c.replicas.map (fun r => (r.1, swapPage p.1 p.2.1 r.2)) } := by
  have hctxs : (s.swapSel ctx p).ctxs =
      (s.onCtx ctx (fun c => { c with replicas := c.replicas.map (fun r => (r.1, swapPage p.1 p.2.1 r.2)) })).ctxs := by
    unfold State.swapSel
    generalize List.range 8 = ds
    exact foldl_preserves State.ctxs (fun s d => flushTlbs_ctxs d _ s) ds _
  rw [ctx?_of_ctxs hctxs]
  exact ctx?_onCtx h (fun _ => rfl)

/-! ### The counterexample -/

/-- A table of one level-2 entry for a page of 1 GiB, and beside it, where the second entry of the page's pair belongs, an entry that names
the level-2 table itself as its level-3 table. -/
def foldedTable : Tbl Word := [(0, 0x10001), (0x10000, 0x1), (0x10008, 0x10201)]

/-- The page at 0 is one of 1 GiB. -/
theorem walk_foldedTable : walk foldedTable 0 = some ⟨0x1, 2 ^ 30, 0x10000⟩ := by decide

/-- A publication changes the two entries of the pair; the second walk comes back to the first entry, and SEL is as it was. -/
theorem swapPage_foldedTable : swapPage 0 (2 ^ 30) foldedTable = foldedTable := by decide

/-- A machine whose context has that table on die 0. -/
def foldedState : State := { State.reset with ctxs := [{ placedContext 0 with replicas := [(0, foldedTable)] }] }

/-- Refutes O40: nothing in the statement says that the other entries which a page of 1 GiB swaps are those of its own pair. Where the
second entry leads back to the first, a publication toggles SEL twice and the page keeps its visible frame. -/
theorem not_ringAndPublicationEvents : ¬ Obligations.RingAndPublicationEvents := by
  rintro ⟨-, -, -, -, hsel, -, -⟩
  have hctx : foldedState.ctx? 0 = some { placedContext 0 with replicas := [(0, foldedTable)] } := rfl
  obtain ⟨⟨c, r, hc, hr, hw⟩, -, -⟩ := hsel foldedState 0 0 (2 ^ 30) 0 0x1 _ foldedTable ⟨0x1, 2 ^ 30, 0x10000⟩ hctx rfl
    walk_foldedTable rfl rfl
  have hc' := (swapSel_ctx? hctx (0, 2 ^ 30, 0x1)).symm.trans hc
  obtain rfl := Option.some.inj hc'
  have hr' : some (swapPage 0 (2 ^ 30) foldedTable) = some r := hr
  rw [swapPage_foldedTable] at hr'
  obtain rfl := Option.some.inj hr'
  rw [walk_foldedTable] at hw
  exact absurd hw (by decide)

end Sys2Proof.Machine
end

section
/-!
LEMMAS. The pick of a core: the entry of the least key of a queue, and the queues in order of distance (spec/12 R251).
-/
open Sys2Proof
namespace Sys2Proof.Machine

theorem of_task? {s : State} {ctx : Nat} {tcb : Word} {t : Task} (h : s.task? ctx tcb = some t) : t.ctx = ctx ∧ t.tcb = tcb := by
  have := List.find?_some h
  simpa using this

/-- Whether the key of one task comes before that of another (spec/12 R251). -/
def keyLess (x y : Nat × Nat) : Prop := x.1 < y.1 ∨ (x.1 = y.1 ∧ x.2 < y.2)

/-- The key of a task in a queue. -/
def State.keyOf (s : State) (t : Task) : Nat × Nat := (eprio s.frame.toNat (s.ageOf t.ctx) t, tickKey t)

/-- Whether an entry stands in a queue for a task that a core may run now. -/
def State.offers (s : State) (c : Nat) (q : QueueRef) (e : QEntry) (t : Task) : Prop :=
  e ∈ s.queueAt q ∧ s.task? e.ctx e.tcb = some t ∧ s.dispatchable c t = true

/-- The order among the entries of equal keys. -/
def seqFirst (youngest : Bool) (e e' : QEntry) : Prop := if youngest then e'.seq ≤ e.seq else e.seq ≤ e'.seq

theorem before_iff (youngest : Bool) (x y : QEntry × Nat × Nat) :
    before youngest x y = true ↔ keyLess x.2 y.2 ∨ (x.2 = y.2 ∧ ¬seqFirst youngest y.1 x.1) := by
  obtain ⟨e, a, b⟩ := x
  obtain ⟨f, a', b'⟩ := y
  cases youngest <;>
    simp only [before, keyLess, seqFirst, Bool.or_eq_true, Bool.and_eq_true, decide_eq_true_eq, beq_iff_eq, Prod.mk.injEq, if_true,
      Bool.false_eq_true, if_false] <;> omega

theorem before_irrefl (youngest : Bool) (x : QEntry × Nat × Nat) : before youngest x x = false := by
  rw [Bool.eq_false_iff, Ne, before_iff]
  cases youngest <;> simp [keyLess, seqFirst]

theorem before_trans {youngest : Bool} {x y z : QEntry × Nat × Nat} (h : before youngest x y = true) (h' : before youngest y z = true) :
    before youngest x z = true := by
  rw [before_iff] at h h' ⊢
  obtain ⟨e, a, b⟩ := x
  obtain ⟨f, a', b'⟩ := y
  obtain ⟨g, a'', b''⟩ := z
  cases youngest <;> simp only [keyLess, seqFirst, Prod.mk.injEq, if_true, Bool.false_eq_true, if_false] at h h' ⊢ <;> omega

/-- Of two entries in order, any third comes after the first or before the second. -/
theorem before_or {youngest : Bool} {x z : QEntry × Nat × Nat} (h : before youngest x z = true) (y : QEntry × Nat × Nat) :
    before youngest x y = true ∨ before youngest y z = true := by
  simp only [before_iff] at h ⊢
  obtain ⟨e, a, b⟩ := x
  obtain ⟨f, a', b'⟩ := y
  obtain ⟨g, a'', b''⟩ := z
  cases youngest <;> simp only [keyLess, seqFirst, Prod.mk.injEq, if_true, Bool.false_eq_true, if_false] at h ⊢ <;> omega

/-- What is not behind an entry comes before it in key, or is as good and in order. -/
theorem keyLess_of_not_before {youngest : Bool} {x y : QEntry × Nat × Nat} (h : before youngest y x = false) :
    keyLess x.2 y.2 ∨ (¬keyLess y.2 x.2 ∧ seqFirst youngest x.1 y.1) := by
  rw [Bool.eq_false_iff, Ne, before_iff] at h
  obtain ⟨e, a, b⟩ := x
  obtain ⟨f, a', b'⟩ := y
  cases youngest <;> simp only [keyLess, seqFirst, Prod.mk.injEq, if_true, Bool.false_eq_true, if_false] at h ⊢ <;> omega

/-- The fold keeps an entry before which no other stands. -/
theorem foldl_before (youngest : Bool) (l : List (QEntry × Nat × Nat)) (b : QEntry × Nat × Nat) :
    let r := l.foldl (fun b y => if before youngest y b then y else b) b
    r ∈ b :: l ∧ ∀ y ∈ b :: l, before youngest y r = false := by
  induction l generalizing b with
  | nil => simp [before_irrefl]
  | cons x l ih =>
    obtain ⟨hm, hl⟩ := ih (if before youngest x b then x else b)
    simp only [List.foldl_cons]
    refine ⟨?_, fun y hy => ?_⟩
    · rcases List.mem_cons.1 hm with h | h
      · rw [h]
        split <;> simp
      · exact List.mem_cons_of_mem _ (List.mem_cons_of_mem _ h)
    · rcases List.mem_cons.1 hy with rfl | hy
      · have hb := hl _ (List.mem_cons_self ..)
        by_cases hx : before youngest x y = true
        · rw [if_pos hx] at hb ⊢
          exact Bool.eq_false_iff.2 fun hc => Bool.eq_false_iff.1 hb (before_trans hx hc)
        · rwa [if_neg hx] at hb ⊢
      · rcases List.mem_cons.1 hy with rfl | hy
        · have hb := hl _ (List.mem_cons_self ..)
          by_cases hx : before youngest y b = true
          · rwa [if_pos hx] at hb ⊢
          · rw [if_neg hx] at hb ⊢
            exact Bool.eq_false_iff.2 fun hc => (before_or hc b).elim hx (Bool.eq_false_iff.1 hb)
        · exact hl y (List.mem_cons_of_mem _ hy)

/-- The entry of a list that comes first stands in it, and none stands before it. -/
theorem firstOf_some {youngest : Bool} {l : List (QEntry × Nat × Nat)} {e : QEntry} (h : firstOf youngest l = some e) :
    ∃ x ∈ l, x.1 = e ∧ ∀ y ∈ l, before youngest y x = false := by
  cases l with
  | nil => exact nomatch h
  | cons b l =>
    obtain ⟨hm, hl⟩ := foldl_before youngest l b
    exact ⟨_, hm, Option.some.inj h, hl⟩

theorem firstOf_none {youngest : Bool} {l : List (QEntry × Nat × Nat)} (h : firstOf youngest l = none) : l = [] := by
  cases l with
  | nil => rfl
  | cons => exact nomatch h

theorem mem_cands {s : State} {c : Nat} {ok : Task → Bool} {q : QueueRef} {x : QEntry × Nat × Nat} :
    x ∈ s.cands c ok q ↔ ∃ t, s.offers c q x.1 t ∧ ok t = true ∧ x.2 = s.keyOf t := by
  obtain ⟨e, k⟩ := x
  simp only [State.cands, State.entries, State.offers, List.mem_map, List.mem_filterMap, Option.bind_eq_some_iff, Prod.exists]
  constructor
  · rintro ⟨e', t', ⟨f, hf, t, ht, hk⟩, hx⟩
    obtain ⟨rfl, rfl⟩ := Prod.mk.inj hx
    split at hk
    · next hd =>
      obtain ⟨rfl, rfl⟩ := Prod.mk.inj (Option.some.inj hk)
      obtain ⟨hd, hok⟩ := Bool.and_eq_true_iff.1 hd
      obtain ⟨hctx, -⟩ := of_task? ht
      exact ⟨t, ⟨hf, ht, hd⟩, hok, by rw [State.keyOf, hctx]⟩
    · exact nomatch hk
  · rintro ⟨t, ⟨he, ht, hd⟩, hok, rfl⟩
    obtain ⟨hctx, -⟩ := of_task? ht
    exact ⟨e, t, ⟨e, he, t, ht, if_pos (by rw [hd, hok]; rfl)⟩, by rw [State.keyOf, hctx]⟩

/-- The first of a queue's candidates is one of the least key. -/
theorem firstOf_cands {s : State} {c : Nat} {ok : Task → Bool} {q : QueueRef} {youngest : Bool} {e : QEntry}
    (h : firstOf youngest (s.cands c ok q) = some e) :
    ∃ t, s.offers c q e t ∧ ok t = true ∧ ∀ e' t', s.offers c q e' t' → ok t' = true →
      keyLess (s.keyOf t) (s.keyOf t') ∨ (¬keyLess (s.keyOf t') (s.keyOf t) ∧ seqFirst youngest e e') := by
  obtain ⟨x, hx, rfl, hl⟩ := firstOf_some h
  obtain ⟨t, ho, hok, hk⟩ := mem_cands.1 hx
  refine ⟨t, ho, hok, fun e' t' ho' hok' => ?_⟩
  have := keyLess_of_not_before (hl (e', s.keyOf t') (mem_cands.2 ⟨t', ho', hok', rfl⟩))
  rwa [hk] at this

theorem firstOf_cands_none {s : State} {c : Nat} {ok : Task → Bool} {q : QueueRef} {youngest : Bool}
    (h : firstOf youngest (s.cands c ok q) = none) {e : QEntry} {t : Task} (ho : s.offers c q e t) (hok : ok t = true) : False := by
  have hm : (e, s.keyOf t) ∈ s.cands c ok q := mem_cands.2 ⟨t, ho, hok, rfl⟩
  rw [firstOf_none h] at hm
  exact nomatch hm

/-! ### The queues from which a core steals -/

/-- The queues of a die and its cores that a context lends a core. -/
def servesTo (c : Nat) (b : Nat × List Nat) (q : QueueRef) : Prop :=
  (q = .die b.1 ∧ b.1 ≠ dieOf c) ∨ ∃ k ∈ b.2, k ≠ c ∧ q = .core k

/-- The queues at one distance from which a core steals. -/
def State.stealAt (s : State) (c d : Nat) : List (Nat × QueueRef) :=
  (s.boundTo c).flatMap (fun x =>
    x.bind.flatMap (fun b =>
      if dieHops (dieOf c) b.1 ≠ d then []
      else (if b.1 = dieOf c then [] else [(x.num, QueueRef.die b.1)]) ++
        (b.2.filter (fun k => k ≠ c)).map (fun k => (x.num, QueueRef.core k))))

theorem mem_stealAt {s : State} {c d n : Nat} {q : QueueRef} :
    (n, q) ∈ s.stealAt c d ↔ ∃ x ∈ s.boundTo c, ∃ b ∈ x.bind, dieHops (dieOf c) b.1 = d ∧ x.num = n ∧ servesTo c b q := by
  have hone (x : Context) (b : Nat × List Nat) :
      (n, q) ∈ (if dieHops (dieOf c) b.1 ≠ d then []
        else (if b.1 = dieOf c then [] else [(x.num, QueueRef.die b.1)]) ++
          (b.2.filter (fun k => k ≠ c)).map (fun k => (x.num, QueueRef.core k))) ↔
      dieHops (dieOf c) b.1 = d ∧ x.num = n ∧ servesTo c b q := by
    unfold servesTo
    by_cases hd : dieHops (dieOf c) b.1 = d
    · rw [if_neg (not_not.2 hd)]
      by_cases hb : b.1 = dieOf c
      · rw [if_pos hb]
        simp only [hd, hb, ne_eq, not_true_eq_false, List.nil_append, List.mem_map, List.mem_filter, decide_eq_true_eq,
          Prod.mk.injEq, and_false, false_or, true_and, decide_not, Bool.not_eq_true', decide_eq_false_iff_not]
        exact ⟨fun ⟨k, ⟨hk, hc⟩, hn, hq⟩ => ⟨hb ▸ hd, hn, k, hk, hc, hq.symm⟩, fun ⟨_, hn, k, hk, hc, hq⟩ => ⟨k, ⟨hk, hc⟩, hn, hq.symm⟩⟩
      · rw [if_neg hb]
        simp only [hd, hb, ne_eq, not_false_eq_true, List.mem_append, List.mem_singleton, List.mem_map,
          List.mem_filter, decide_eq_true_eq, Prod.mk.injEq, and_true, true_and]
        exact ⟨fun h => h.elim (fun ⟨hn, hq⟩ => ⟨hn.symm, .inl hq⟩) (fun ⟨k, ⟨hk, hc⟩, hn, hq⟩ => ⟨hn, .inr ⟨k, hk, hc, hq.symm⟩⟩),
          fun ⟨hn, h⟩ => h.imp (fun hq => ⟨hn.symm, hq⟩) (fun ⟨k, hk, hc, hq⟩ => ⟨k, ⟨hk, hc⟩, hn, hq.symm⟩)⟩
    · simp [hd]
  simp only [State.stealAt, List.mem_flatMap, hone]

theorem findSome?_flatMap_range {α β : Type} {g : α → Option β} {f : Nat → List α} {n : Nat} {r : β}
    (h : ((List.range n).flatMap f).findSome? g = some r) :
    ∃ d < n, ∃ x ∈ f d, g x = some r ∧ ∀ d' < d, ∀ y ∈ f d', g y = none := by
  induction n with
  | zero => exact nomatch h
  | succ n ih =>
    rw [List.range_succ, List.flatMap_append, List.findSome?_append] at h
    cases hn : ((List.range n).flatMap f).findSome? g with
    | some r' =>
      rw [hn] at h
      obtain ⟨d, hd, hx⟩ := ih (hn.trans h)
      exact ⟨d, hd.trans (Nat.lt_succ_self n), hx⟩
    | none =>
      rw [hn, Option.none_or, List.flatMap_singleton] at h
      obtain ⟨x, hx, hg⟩ := List.exists_of_findSome?_eq_some h
      exact ⟨n, Nat.lt_succ_self n, x, hx, hg, fun d hd y hy =>
        List.findSome?_eq_none_iff.1 hn y (List.mem_flatMap.2 ⟨d, List.mem_range.2 hd, hy⟩)⟩

/-- What a core steals from a queue: its first unpinned entry of the context that lends it. -/
def State.loot (s : State) (c : Nat) (q : Nat × QueueRef) : Option (QueueRef × QEntry) :=
  (firstOf false (s.cands c (fun t => t.pinned.isNone && t.ctx = q.1) q.2)).map (fun e => (q.2, e))

theorem loot_some {s : State} {c n : Nat} {q q' : QueueRef} {e : QEntry} (h : s.loot c (n, q) = some (q', e)) :
    q' = q ∧ ∃ t, (s.offers c q e t ∧ t.pinned = none ∧ t.ctx = n) ∧ ∀ e' t', (s.offers c q e' t' ∧ t'.pinned = none ∧ t'.ctx = n) →
      keyLess (s.keyOf t) (s.keyOf t') ∨ (¬keyLess (s.keyOf t') (s.keyOf t) ∧ e.seq ≤ e'.seq) := by
  obtain ⟨e', he, hq⟩ := Option.map_eq_some_iff.1 h
  obtain ⟨rfl, rfl⟩ := Prod.mk.inj hq
  obtain ⟨t, ho, hok, hl⟩ := firstOf_cands he
  refine ⟨rfl, t, ⟨ho, by simpa using hok⟩, fun e' t' ⟨ho', hok'⟩ => hl e' t' ho' (by simpa using hok')⟩

theorem loot_none {s : State} {c n : Nat} {q : QueueRef} (h : s.loot c (n, q) = none) (e : QEntry) (t : Task) :
    ¬(s.offers c q e t ∧ t.pinned = none ∧ t.ctx = n) := fun ⟨ho, hok⟩ =>
  firstOf_cands_none (Option.map_eq_none_iff.1 h) ho (by simpa using hok)

/-- The pick of a core, queue after queue. -/
theorem pick_eq (s : State) (c : Nat) : s.pick c =
    match firstOf true (s.cands c (fun _ => true) (.core c)) with
    | some e => some (.core c, e)
    | none => match firstOf false (s.cands c (fun t => (s.boundTo c).any (fun x => x.num = t.ctx)) (.die (dieOf c))) with
      | some e => some (.die (dieOf c), e)
      | none => ((List.range 5).flatMap (s.stealAt c)).findSome? (s.loot c) := by
  rfl

theorem pickOrder : Claims.PickOrder := by
  intro s c prio tick less ready bound loose serves isLocal isDie
  have hbound (t : Task) : (s.boundTo c).any (fun x => x.num = t.ctx) = true ↔ bound t := by
    simp [bound]
  rw [pick_eq]
  cases hl : firstOf true (s.cands c (fun _ => true) (.core c)) with
  | some e =>
    obtain ⟨t, ho, -, hmin⟩ := firstOf_cands hl
    have hloc : isLocal := ⟨e, t, ho⟩
    exact ⟨fun _ => ⟨e, t, rfl, ho, fun e' t' ho' => hmin e' t' ho' rfl⟩, fun hn => absurd hloc hn, fun hn => absurd hloc hn, nofun⟩
  | none =>
    have hloc : ¬isLocal := fun ⟨e, t, ho⟩ => firstOf_cands_none hl ho rfl
    cases hd : firstOf false (s.cands c (fun t => (s.boundTo c).any (fun x => x.num = t.ctx)) (.die (dieOf c))) with
    | some e =>
      obtain ⟨t, ho, hb, hmin⟩ := firstOf_cands hd
      have hdie : isDie := ⟨e, t, ho, (hbound t).1 hb⟩
      exact ⟨fun h => absurd h hloc, fun _ _ => ⟨e, t, rfl, ho, (hbound t).1 hb, fun e' t' ho' hb' => hmin e' t' ho' ((hbound t').2 hb')⟩,
        fun _ hn => absurd hdie hn, nofun⟩
    | none =>
      have hdie : ¬isDie := fun ⟨e, t, ho, hb⟩ => firstOf_cands_none hd ho ((hbound t).2 hb)
      refine ⟨fun h => absurd h hloc, fun _ h => absurd h hdie, fun _ _ q e hp => ?_, fun hp => ⟨hloc, hdie, ?_⟩⟩
      · obtain ⟨d, hd, ⟨n, q'⟩, hx, hg, hnear⟩ := findSome?_flatMap_range hp
        obtain ⟨x, hbind, b, hb, rfl, rfl, hs⟩ := mem_stealAt.1 hx
        obtain ⟨rfl, t, hloose, hmin⟩ := loot_some hg
        exact ⟨x, hbind, b, hb, t, hs, hloose, hmin, fun y hy b' hb' hd' q' hs' e' t' =>
          loot_none (hnear _ hd' _ (mem_stealAt.2 ⟨y, hy, b', hb', rfl, rfl, hs'⟩)) e' t'⟩
      · intro x hx b hb hd q hs e t
        exact loot_none (List.findSome?_eq_none_iff.1 hp (x.num, q) (List.mem_flatMap.2
          ⟨_, List.mem_range.2 hd, mem_stealAt.2 ⟨x, hx, b, hb, rfl, rfl, hs⟩⟩)) e t

end Sys2Proof.Machine
end

section
/-!
LEMMAS. The admission of roots and children, and the decrements that release an armed task (spec/12 R245 to R248, spec/16 R331).
-/
open Sys2Proof
namespace Sys2Proof.Machine

/-! ### What the queues and the records of tasks leave alone -/

/-- The books that admission keeps, with the releases and the task part of the acting core. -/
structure Docket where
  tasks : List Task
  launches : List Launch
  nlaunch : Nat
  streams : List Stream
  decs : List Decrement
  rels : List RelOp
  a : Arch

def State.docket (s : State) : Docket := ⟨s.tasks, s.launches, s.nlaunch, s.streams, s.decs, s.core.rels, s.core.a⟩

theorem onDie_docket (d : Nat) (f : Die → Die) (s : State) : (s.onDie d f).docket = s.docket := by
  unfold State.onDie
  split <;> rfl

theorem onCore_docket (c : Nat) {f : Core → Core} (hf : ∀ x, (f x).rels = x.rels ∧ (f x).a = x.a) (s : State) :
    (s.onCore c f).docket = s.docket := by
  unfold State.onCore
  split
  · unfold State.docket
    dsimp only
    rw [(hf s.core).1, (hf s.core).2]
  · rfl

theorem writeVa_docket (s : State) (d ctx va n x : Nat) : (s.writeVa d ctx va n x).docket = s.docket := by
  unfold State.writeVa
  split <;> rfl

/-- The tasks with that of an address changed. -/
def tasksOn (ctx : Nat) (tcb : Word) (f : Task → Task) (l : List Task) : List Task :=
  l.map (fun t => if t.ctx = ctx && t.tcb = tcb then f t else t)

theorem setTask_docket (ctx : Nat) (tcb : Word) (st : TState) (s : State) :
    (s.setTask ctx tcb st).docket = { s.docket with tasks := tasksOn ctx tcb (fun t => { t with st := st }) s.tasks } :=
  writeVa_docket (s.onTask ctx tcb (fun t => { t with st := st })) ..

theorem setStatus_docket (ctx : Nat) (tcb : Word) (code cause : Nat) (s : State) : (s.setStatus ctx tcb code cause).docket = s.docket :=
  writeVa_docket s ..

theorem askFor_docket (kind ctx : Nat) (tcb : Word) (s : State) : (s.askFor kind ctx tcb).docket = s.docket := by
  unfold State.askFor
  split <;> rfl

theorem enqueueDie_docket (d ctx : Nat) (tcb : Word) (seq : Option Nat) (s : State) : (s.enqueueDie d ctx tcb seq).docket = s.docket := by
  have hnum (v : State) : (if seq.isNone then v.onDie d (fun x => { x with seq := x.seq + 1 }) else v).docket = v.docket := by
    split
    · exact onDie_docket ..
    · rfl
  unfold State.enqueueDie
  dsimp only
  split
  · exact (onDie_docket ..).trans (hnum s)
  · exact hnum s

theorem enqueueCore_docket (c ctx : Nat) (tcb : Word) (s : State) : (s.enqueueCore c ctx tcb).docket = s.docket := by
  have hcore {f : Core → Core} (hf : ∀ x, (f x).rels = x.rels ∧ (f x).a = x.a) (v : State) := onCore_docket c hf v
  unfold State.enqueueCore
  dsimp only
  split
  · exact hcore (by exact fun _ => ⟨rfl, rfl⟩) s
  · split
    · exact hcore (by exact fun _ => ⟨rfl, rfl⟩) _
    · exact (enqueueDie_docket ..).trans (hcore (by exact fun _ => ⟨rfl, rfl⟩) s)

/-- The tasks with that of an address READY from a time on. -/
def tasksReady (ctx : Nat) (tcb : Word) (frame : Nat) (l : List Task) : List Task :=
  tasksOn ctx tcb (fun t => { t with readySince := frame }) (tasksOn ctx tcb (fun t => { t with st := .ready }) l)

theorem enqueue_docket (q : QueueRef) (ctx : Nat) (tcb : Word) (s : State) : (s.enqueue q ctx tcb).docket =
    { s.docket with tasks := tasksReady ctx tcb s.frame.toNat s.tasks } := by
  have hset := setTask_docket ctx tcb .ready s
  have hready : ((s.setTask ctx tcb .ready).onTask ctx tcb (fun t => { t with readySince := s.frame.toNat })).docket =
      { s.docket with tasks := tasksReady ctx tcb s.frame.toNat s.tasks } :=
    calc _ = { (s.setTask ctx tcb .ready).docket with
          tasks := tasksOn ctx tcb (fun t => { t with readySince := s.frame.toNat }) (s.setTask ctx tcb .ready).docket.tasks } := rfl
      _ = _ := by
        rw [hset]
        rfl
  unfold State.enqueue
  dsimp only
  split
  · exact hready
  · split
    · exact (enqueueCore_docket ..).trans hready
    · exact (enqueueDie_docket ..).trans hready

theorem arm_docket (q : QueueRef) (t : Task) (s : State) : (s.arm q t).docket =
    { s.docket with tasks := tasksOn t.ctx t.tcb (fun t => { t with st := .armed }) s.tasks } := by
  have hroom (d : Nat) : (if ((s.setTask t.ctx t.tcb .armed).die d).armed.length < 4096
        then (s.setTask t.ctx t.tcb .armed).onDie d (fun x => { x with armed := x.armed ++ [⟨t.ctx, t.tcb, 0⟩] })
        else (s.setTask t.ctx t.tcb .armed).askFor 5 t.ctx t.tcb).docket = (s.setTask t.ctx t.tcb .armed).docket := by
    split
    · exact onDie_docket ..
    · exact askFor_docket ..
  rw [← setTask_docket]
  exact hroom _

theorem writeAdmitted_docket (t : Task) (s : State) : (s.writeAdmitted t).docket = s.docket := by
  unfold State.writeAdmitted
  dsimp only
  refine (setStatus_docket ..).trans ?_
  split
  · exact (writeVa_docket ..).trans ((writeVa_docket ..).trans (writeVa_docket ..))
  · exact (writeVa_docket ..).trans (writeVa_docket ..)

theorem mem_tasksOn {ctx : Nat} {tcb : Word} {f : Task → Task} {l : List Task} {t : Task} (h : t ∈ l) (hc : t.ctx = ctx) (ht : t.tcb = tcb) :
    f t ∈ tasksOn ctx tcb f l :=
  List.mem_map.2 ⟨t, h, if_pos (by simp [hc, ht])⟩

/-! ### A task that becomes READY or ARMED -/

/-- A task that is put in a queue is READY. -/
theorem enqueue_ready (q : QueueRef) {s : State} {t : Task} (h : t ∈ s.tasks) :
    ∃ y ∈ (s.enqueue q t.ctx t.tcb).tasks, y = { t with st := .ready, readySince := s.frame.toNat } := by
  rw [show (s.enqueue q t.ctx t.tcb).tasks = _ from congrArg Docket.tasks (enqueue_docket ..)]
  exact ⟨_, mem_tasksOn (mem_tasksOn (f := fun t => { t with st := .ready }) h rfl rfl) rfl rfl, rfl⟩

/-- An admitted task is READY when it waits for no one, and ARMED otherwise; the rest of the books stays. -/
theorem admission_effect (t : Task) (q : QueueRef) (s : State) :
    (∃ l, (s.admission t q false).docket = { s.docket with tasks := l }) ∧
    ∃ y ∈ (s.admission t q false).tasks, y.ctx = t.ctx ∧ y.tcb = t.tcb ∧ y.parent = t.parent ∧ y.spidx = t.spidx ∧ y.launch = t.launch ∧
      y.st = if tcbDepcnt t.snap = 0 then .ready else .armed := by
  obtain ⟨w, hw⟩ : ∃ w : State, w = ({ s with tasks := s.tasks ++ [t] } : State).writeAdmitted t := ⟨_, rfl⟩
  have hwd : w.docket = { s.docket with tasks := s.tasks ++ [t] } := by
    rw [hw]
    exact writeAdmitted_docket ..
  have hmem : t ∈ w.tasks := by
    rw [show w.tasks = s.tasks ++ [t] from congrArg Docket.tasks hwd]
    exact List.mem_append_right _ (List.mem_singleton_self t)
  have hadm : s.admission t q false = if tcbDepcnt t.snap = 0 then w.enqueue q t.ctx t.tcb else w.arm q t := by
    rw [hw]
    rfl
  rw [hadm]
  by_cases hdep : tcbDepcnt t.snap = 0
  · rw [if_pos hdep, if_pos hdep]
    obtain ⟨y, hy, rfl⟩ := enqueue_ready q hmem
    exact ⟨⟨_, by rw [enqueue_docket, hwd]⟩, _, hy, rfl, rfl, rfl, rfl, rfl, rfl⟩
  · rw [if_neg hdep, if_neg hdep]
    refine ⟨⟨_, by rw [arm_docket, hwd]⟩, { t with st := .armed }, ?_, rfl, rfl, rfl, rfl, rfl, rfl⟩
    rw [show (w.arm q t).tasks = _ from congrArg Docket.tasks (arm_docket ..)]
    exact mem_tasksOn hmem rfl rfl

/-! ### The admission of a root -/

/-- Two states that differ in memory alone. -/
def State.memDiffers (s t : State) : Prop :=
  ∃ m g, t = { s with mem := m, memTags := g } ∧ (Memory.tagsWf s.memTags = true → Memory.tagsWf g = true)

theorem memDiffers_refl (s : State) : s.memDiffers s := ⟨s.mem, s.memTags, rfl, id⟩

theorem memDiffers_trans {s t u : State} (h : s.memDiffers t) (h' : t.memDiffers u) : s.memDiffers u := by
  obtain ⟨m, g, rfl, hw⟩ := h
  obtain ⟨m', g', rfl, hw'⟩ := h'
  exact ⟨m', g', rfl, fun w => hw' (hw w)⟩

theorem writePhys_memDiffers (s : State) (bs : List (Nat × Byte)) (ts : List (Nat × Word)) : s.memDiffers (s.writePhys bs ts) :=
  ⟨_, _, rfl, cellSets_wf _ _ _⟩

theorem foldl_memDiffers {α : Type} {f : State → α → State} (h : ∀ (s : State) x, s.memDiffers (f s x)) (l : List α) (s : State) :
    s.memDiffers (l.foldl f s) := by
  induction l generalizing s with
  | nil => exact memDiffers_refl s
  | cons x l ih => exact memDiffers_trans (h s x) (ih _)

theorem copyOut_memDiffers (ctx va n pa : Nat) (s : State) : s.memDiffers (s.copyOut ctx va n pa) :=
  foldl_memDiffers (fun s j => by
    split
    · exact memDiffers_refl s
    · exact writePhys_memDiffers ..) _ s

theorem capture_memDiffers (c : CaptureSt) (ctx : Nat) (root : BitVec 1024) (s : State) : s.memDiffers (s.capture c ctx root) := by
  have hfold (l : List (Nat × Nat)) (acc : State × Nat) :
      acc.1.memDiffers (l.foldl (fun (acc : State × Nat) r => (acc.1.copyOut ctx r.1 r.2 acc.2, acc.2 + cdiv r.2 64 * 64)) acc).1 := by
    induction l generalizing acc with
    | nil => exact memDiffers_refl _
    | cons r l ih => exact memDiffers_trans (copyOut_memDiffers ..) (ih _)
  exact memDiffers_trans (hfold c.regions (s, c.area.1)) (writePhys_memDiffers ..)

/-- The launch that a root opens. -/
def State.rootLaunch (s : State) (x : Stream) : Launch :=
  ⟨s.nlaunch, x.num, x.ctx, x.admitted + 1, s.frame.toNat, 0, word (x.slotVa (x.admitted + 1)), (s.captureOf x).isSome⟩

/-- A stream whose next root has gone. -/
def Stream.opened (x : Stream) (rest : List (BitVec 1024)) (n seq : Nat) : Stream :=
  { x with roots := rest, admitted := seq, running := some n, paged := false }

theorem openLaunch_effect (x : Stream) (root : BitVec 1024) (rest : List (BitVec 1024)) (s : State) :
    (s.openLaunch x root rest).1 = s.rootLaunch x ∧
    ∃ m g b, (s.openLaunch x root rest).2 = { s with
        mem := m, memTags := g, bitmap := b, nlaunch := s.nlaunch + 1, launches := s.launches ++ [s.rootLaunch x],
        streams := s.streams.map (fun y => if y.num = x.num then y.opened rest s.nlaunch (x.admitted + 1) else y) } ∧
      (Memory.tagsWf s.memTags = true → Memory.tagsWf g = true) := by
  unfold State.openLaunch State.rootLaunch
  cases hc : s.captureOf x with
  | none => exact ⟨rfl, s.mem, s.memTags, _, rfl, id⟩
  | some y =>
    obtain ⟨m, g, he, hw⟩ := capture_memDiffers y x.ctx root s
    dsimp only
    rw [he]
    exact ⟨rfl, m, g, _, rfl, hw⟩

/-- The granules of a TCB that has just been written are not poisoned. -/
theorem written_clean {s : State} (hw : Memory.tagsWf s.memTags = true) (pa : Nat) (bs : List (Nat × Byte)) {j : Nat} (hj : j < 2) :
    isPoison ((s.writePhys bs [(pa / 64, 0), (pa / 64 + 1, 0)]).granule (pa + 64 * j)).2 = false := by
  have hdiv : (pa + 64 * j) / 64 = pa / 64 + j := by omega
  unfold State.granule
  dsimp only
  split
  · next hlt =>
    have hg : cellGet 0 (s.writePhys bs [(pa / 64, 0), (pa / 64 + 1, 0)]).memTags ((pa + 64 * j) / 64) = 0 := by
      rw [hdiv]
      refine (cellGet_cellSets 0 _ _ _ hw).trans ?_
      refine (readAfter_filter 0 s.memTags [(pa / 64, (0 : Word)), (pa / 64 + 1, 0)] (fun n => n < 2 ^ 45) _ (decide_eq_true (by omega))).trans ?_
      obtain rfl | rfl : j = 0 ∨ j = 1 := by omega
      · simp [readAfter]
      · simp [readAfter]
    rw [hg]
    rfl
  · rfl

/-- The state in which a root has been copied to its TCB slot. -/
def State.rootWritten (s : State) (x : Stream) (r : BitVec 1024) (rest : List (BitVec 1024)) (pa : Nat) : State :=
  (s.openLaunch x r rest).2.writePhys (cellsOf pa 128 r.toNat) [(pa / 64, 0), (pa / 64 + 1, 0)]

theorem exec_rootAdmission {s : State} {x : Stream} {c : Context} {r : BitVec 1024} {rest : List (BitVec 1024)} {pa : Nat} {pte : Word}
    {q : QueueRef} (hx : s.stream? s.input.stream = some x) (hc : s.ctx? x.ctx = some c) (hr : x.roots = r :: rest)
    (ha : s.admits x c = true) (ht : s.translate (s.ctxDie x.ctx) x.ctx (x.slotVa (x.admitted + 1)) .update false = .ok (pa, pte))
    (hb : (s.captureOf x).bind (fun y => y.regions.findSome? (fun g => s.poisonIn x.ctx g.1 g.2)) = none)
    (hf : (s.rootWritten x r rest pa).admitFault x.ctx (word (x.slotVa (x.admitted + 1))) pa r none none = none)
    (hq : (s.rootWritten x r rest pa).placeOf x.ctx (tcbHome r) (.die ((s.rootWritten x r rest pa).ctxDie x.ctx)) none = some q) :
    ∃ n m, exec .rootAdmission s = .next ((s.rootWritten x r rest pa).admission
      (newTask x.ctx (word (x.slotVa (x.admitted + 1))) (s.openLaunch x r rest).1.num r none 0 n m) q false) := by
  refine ⟨(s.rootWritten x r rest pa).ctxDie x.ctx * Config.coresPerDie, (s.rootWritten x r rest pa).frame.toNat, ?_⟩
  change execRootAdmission s = _
  unfold execRootAdmission
  dsimp only
  rw [hx]
  dsimp only
  rw [hc, hr]
  dsimp only
  rw [ha, ht, hb]
  unfold State.rootWritten at hf hq ⊢
  simp only [Bool.not_true, Bool.false_eq_true, if_false]
  rw [hf]
  dsimp only
  rw [hq]

theorem rootAdmission_idle {s : State} {x : Stream} {c : Context} (hx : s.stream? s.input.stream = some x) (hc : s.ctx? x.ctx = some c)
    (h : s.admits x c = false ∨ x.roots = []) : exec .rootAdmission s = .next s := by
  change execRootAdmission s = _
  unfold execRootAdmission
  dsimp only
  rw [hx]
  dsimp only
  rw [hc]
  cases hr : x.roots with
  | nil => rfl
  | cons r rest =>
    have ha : s.admits x c = false := h.resolve_right (by rw [hr]; exact nofun)
    dsimp only
    rw [ha]
    rfl

/-- The books after a root has been copied to its slot. -/
theorem rootWritten_effect (s : State) (x : Stream) (r : BitVec 1024) (rest : List (BitVec 1024)) (pa : Nat) :
    (s.rootWritten x r rest pa).ctxs = s.ctxs ∧
    (s.rootWritten x r rest pa).docket = { s.docket with
      nlaunch := s.nlaunch + 1, launches := s.launches ++ [s.rootLaunch x],
      streams := s.streams.map (fun y => if y.num = x.num then y.opened rest s.nlaunch (x.admitted + 1) else y) } ∧
    (Memory.tagsWf s.memTags = true → ∀ j < 2, isPoison ((s.rootWritten x r rest pa).granule (pa + 64 * j)).2 = false) := by
  obtain ⟨-, m, g, b, he, hw⟩ := openLaunch_effect x r rest s
  have hphys (v : State) (bs : List (Nat × Byte)) (ts : List (Nat × Word)) :
      (v.writePhys bs ts).ctxs = v.ctxs ∧ (v.writePhys bs ts).docket = v.docket := ⟨rfl, rfl⟩
  unfold State.rootWritten
  refine ⟨(hphys ..).1.trans (by rw [he]), (hphys ..).2.trans (by rw [he]; rfl), fun w j hj => written_clean ?_ pa _ hj⟩
  rw [he]
  exact hw w

/-- A root whose fields keep the rules of admission has no fault. -/
theorem admitFault_root {s : State} {ctx pa : Nat} {tcb : Word} {r : BitVec 1024}
    (hst : tcbF r 0x68 1 ∈ [0, 5, 6]) (hlo : tcbFlags r / 2 ^ 5 % 2 ^ 11 = 0) (hhi : tcbFlags r / 2 ^ 24 = 0) (hseg : tcbSegn r ≤ 16)
    (hsucc : tcbNsucc r = 0) (hhome : tcbHome r = 0) (hclean : ∀ j < 2, isPoison (s.granule (pa + 64 * j)).2 = false) :
    s.admitFault ctx tcb pa r none none = none := by
  have hpoison : s.tcbPoison ctx tcb pa r = none := by
    unfold State.tcbPoison
    have hfind : (List.range 2).find? (fun j => isPoison (s.granule (pa + 64 * j)).2) = none :=
      List.find?_eq_none.2 fun j hj => Bool.eq_false_iff.1 (hclean j (List.mem_range.1 hj))
    rw [hfind]
    exact if_pos hsucc
  have hst' : (tcbF r 0x68 1 ≠ 0 && tcbF r 0x68 1 ≠ 5 && tcbF r 0x68 1 ≠ 6) = false := by
    simp only [List.mem_cons, List.not_mem_nil, or_false] at hst
    rcases hst with h | h | h <;> rw [h] <;> rfl
  unfold State.admitFault
  dsimp only
  rw [hst', hpoison]
  rw [hlo, hhi]
  simp [hseg, hsucc, hhome]

theorem find?_opened {s : State} {n : Nat} {x : Stream} (h : s.stream? n = some x) (rest : List (BitVec 1024)) (k seq : Nat) :
    (s.streams.map (fun y => if y.num = n then y.opened rest k seq else y)).find? (fun y => y.num = n) = some (x.opened rest k seq) := by
  have hnum : x.num = n := by simpa using List.find?_some h
  have hsame : ((fun y : Stream => decide (y.num = n)) ∘ fun y => if y.num = n then y.opened rest k seq else y) = fun y => decide (y.num = n) := by
    funext y
    by_cases hy : y.num = n
    · simp [hy, Stream.opened]
    · simp [hy]
  unfold State.stream? at h
  rw [List.find?_map, hsame, h, Option.map_some, if_pos hnum]

theorem rootAdmitted {s : State} {x : Stream} {c : Context} {r : BitVec 1024} {rest : List (BitVec 1024)} {pa : Nat} {pte : Word}
    (hx : s.stream? s.input.stream = some x) (hc : s.ctx? x.ctx = some c) (hr : x.roots = r :: rest)
    (ha : s.admits x c = true) (ht : s.translate (s.ctxDie x.ctx) x.ctx (x.slotVa (x.admitted + 1)) .update false = .ok (pa, pte))
    (hcap : ∀ y, s.captureOf x = some y → ∀ g ∈ y.regions, s.poisonIn x.ctx g.1 g.2 = none)
    (hst : tcbF r 0x68 1 ∈ [0, 5, 6]) (hlo : tcbFlags r / 2 ^ 5 % 2 ^ 11 = 0) (hhi : tcbFlags r / 2 ^ 24 = 0) (hseg : tcbSegn r ≤ 16)
    (hsucc : tcbNsucc r = 0) (hhome : tcbHome r = 0) (hw : Memory.tagsWf s.memTags = true) :
    ∃ t, exec .rootAdmission s = .next t ∧ t.nlaunch = s.nlaunch + 1 ∧
      (∃ l ∈ t.launches, l.num = s.nlaunch ∧ l.seq = x.admitted + 1 ∧ l.frame0 = s.frame.toNat) ∧
      (∃ y ∈ t.tasks, y.ctx = x.ctx ∧ y.tcb = word (x.slotVa (x.admitted + 1)) ∧ y.parent = none ∧ y.launch = s.nlaunch ∧
        y.st = if tcbDepcnt r = 0 then .ready else .armed) ∧
      ∃ x', t.stream? s.input.stream = some x' ∧ x'.roots = rest ∧ x'.running = some s.nlaunch ∧ x'.admitted = x.admitted + 1 := by
  obtain ⟨hctxs, hdock, hclean⟩ := rootWritten_effect s x r rest pa
  have hbad : (s.captureOf x).bind (fun y => y.regions.findSome? (fun g => s.poisonIn x.ctx g.1 g.2)) = none := by
    cases hy : s.captureOf x with
    | none => rfl
    | some y => exact List.findSome?_eq_none_iff.2 (hcap y hy)
  have hq : (s.rootWritten x r rest pa).placeOf x.ctx (tcbHome r) (.die ((s.rootWritten x r rest pa).ctxDie x.ctx)) none =
      some (.die ((s.rootWritten x r rest pa).ctxDie x.ctx)) := by
    have hcx : (s.rootWritten x r rest pa).ctx? x.ctx = some c := by
      unfold State.ctx? at hc ⊢
      rwa [hctxs]
    unfold State.placeOf
    rw [hcx]
    exact if_pos hhome
  obtain ⟨n, m, he⟩ := exec_rootAdmission hx hc hr ha ht hbad (admitFault_root hst hlo hhi hseg hsucc hhome (hclean hw)) hq
  obtain ⟨⟨l, hl⟩, y, hy, hctx, htcb, hpar, -, hlau, hys⟩ := admission_effect
    (newTask x.ctx (word (x.slotVa (x.admitted + 1))) (s.openLaunch x r rest).1.num r none 0 n m)
    (.die ((s.rootWritten x r rest pa).ctxDie x.ctx)) (s.rootWritten x r rest pa)
  rw [hdock] at hl
  generalize State.admission _ _ _ _ = t at he hl hy
  have hlaunches : t.launches = s.launches ++ [s.rootLaunch x] := congrArg Docket.launches hl
  refine ⟨_, he, congrArg Docket.nlaunch hl, ⟨s.rootLaunch x, ?_, rfl, rfl, rfl⟩, ⟨y, hy, hctx, htcb, hpar, ?_, hys⟩, x.opened rest s.nlaunch (x.admitted + 1), ?_, rfl, rfl, rfl⟩
  · rw [hlaunches]
    exact List.mem_append_right _ (List.mem_singleton_self _)
  · exact hlau.trans (congrArg Launch.num (openLaunch_effect x r rest s).1)
  · have hnum : x.num = s.input.stream := by simpa using List.find?_some hx
    have hstreams := congrArg Docket.streams hl
    rw [← hnum] at hx ⊢
    exact (congrArg (List.find? (fun y => y.num = x.num)) hstreams).trans (find?_opened hx _ _ _)

/-! ### The admission of a child -/

section
variable {s : State} {r : RelOp} {rest : List RelOp} {tcb par : Word} {idx : Nat} {p : Task} {x : BitVec 1024} {pa : Nat}
  (hr : s.there.core.rels = r :: rest) (hwhat : r.what = .admission tcb idx par false) (hrel : s.there.releaseDone r par = true)
  (hp : s.there.task? r.ctx par = some p) (hx : s.there.readTcb r.ctx tcb = .ok (x, pa))
include hr hwhat hrel hp hx

theorem exec_taskAdmission {q : QueueRef} (hf : s.there.admitFault r.ctx tcb pa x (some p) (some s.there.core.id) = none)
    (hq : s.there.placeOf r.ctx (tcbHome x) (.core s.there.core.id) (some s.there.core.id) = some q) :
    exec .taskAdmission s = .next ((s.there.modCore (fun c => { c with rels := rest })).admission
      (newTask r.ctx tcb p.launch x (some p) idx s.there.core.id s.there.frame.toNat) q false) := by
  obtain ⟨id, ctx, what, paged⟩ := r
  obtain rfl : what = _ := hwhat
  change execTaskAdmission s = _
  unfold State.there at *
  unfold execTaskAdmission
  dsimp only
  rw [hr]
  dsimp only at hrel hp hx hf ⊢
  rw [hrel, hp]
  simp only [Bool.not_true, Bool.false_eq_true, if_false]
  rw [hx]
  dsimp only
  rw [hf]
  simp only [Bool.false_and, Bool.false_eq_true, if_false]
  rw [hq]
  dsimp only
  split <;> rfl

theorem exec_taskAdmission_fails {cause : Cause} {v : Word}
    (hf : s.there.admitFault r.ctx tcb pa x (some p) (some s.there.core.id) = some (cause, v)) :
    exec .taskAdmission s = .next
      ((s.there.modCore (fun k => { k with rels := k.rels.filter (fun y => y.id ≠ r.id) })).deferFor r.ctx par cause v) := by
  obtain ⟨id, ctx, what, paged⟩ := r
  obtain rfl : what = _ := hwhat
  change execTaskAdmission s = _
  unfold State.there at *
  unfold execTaskAdmission
  dsimp only
  rw [hr]
  dsimp only at hrel hp hx hf ⊢
  rw [hrel, hp]
  simp only [Bool.not_true, Bool.false_eq_true, if_false]
  rw [hx]
  dsimp only
  rw [hf]
  dsimp only
  unfold State.admitFails
  dsimp only
  split <;> rfl

theorem taskAdmitted {q : QueueRef} (hf : s.there.admitFault r.ctx tcb pa x (some p) (some s.there.core.id) = none)
    (hq : s.there.placeOf r.ctx (tcbHome x) (.core s.there.core.id) (some s.there.core.id) = some q) :
    ∃ t, exec .taskAdmission s = .next t ∧ t.core.rels = rest ∧ ∃ y ∈ t.tasks, y.ctx = r.ctx ∧ y.tcb = tcb ∧ y.parent = some par ∧
      y.spidx = idx ∧ y.launch = p.launch ∧ y.st = if tcbDepcnt x = 0 then .ready else .armed := by
  obtain ⟨⟨l, hl⟩, y, hy, hctx, htcb, hpar, hidx, hlau, hst⟩ := admission_effect
    (newTask r.ctx tcb p.launch x (some p) idx s.there.core.id s.there.frame.toNat) q (s.there.modCore (fun c => { c with rels := rest }))
  exact ⟨_, exec_taskAdmission hr hwhat hrel hp hx hf hq, congrArg Docket.rels hl, y, hy, hctx, htcb,
    hpar.trans (congrArg some (of_task? hp).2), hidx, hlau, hst⟩

omit hr hwhat hrel hp hx in
theorem onTaskArch_rels (ctx : Nat) (key : Word) (f : Arch → Arch) (v : State) : (v.onTaskArch ctx key f).core.rels = v.core.rels := by
  unfold State.onTaskArch
  dsimp only
  split <;> rfl

theorem taskRefused {cause : Cause} {v : Word}
    (hf : s.there.admitFault r.ctx tcb pa x (some p) (some s.there.core.id) = some (cause, v)) :
    ∃ t, exec .taskAdmission s = .next t ∧ t.core.rels = (r :: rest).filter (fun y => y.id ≠ r.id) ∧
      t.tasks.length = s.there.tasks.length ∧
      (s.there.core.runs r.ctx par = true → t.core.a.deferred = s.there.core.a.deferred ++ [⟨cause, v⟩]) := by
  refine ⟨_, exec_taskAdmission_fails hr hwhat hrel hp hx hf, ?_, ?_, fun hruns => ?_⟩
  · rw [← hr]
    exact onTaskArch_rels ..
  · exact List.length_map ..
  · exact congrArg (fun c : Core => c.a.deferred) (onTaskArch_core_own
      (s := s.there.modCore (fun k => { k with rels := k.rels.filter (fun y => y.id ≠ r.id) })) hruns _)

end

/-! ### The last decrement -/

/-- The one entry of its kind is the entry at its place. -/
theorem erase_eq_listDel {α : Type} [BEq α] [LawfulBEq α] {l : List α} {i : Nat} {d : α} (p : α → Bool) (h : l[i]? = some d) (hf : l.filter p = [d]) :
    l.erase d = listDel l i := by
  have hpd : p d = true := (List.mem_filter.1 (hf ▸ List.mem_singleton_self d)).2
  induction l generalizing i with
  | nil => exact nomatch h
  | cons x xs ih =>
    cases i with
    | zero =>
      obtain rfl := Option.some.inj h
      exact List.erase_cons_head ..
    | succ i =>
      have hd : d ∈ xs.filter p := List.mem_filter.2 ⟨List.mem_of_getElem? h, hpd⟩
      cases hx : p x with
      | true =>
        rw [List.filter_cons_of_pos hx] at hf
        rw [(List.cons.inj hf).2] at hd
        exact nomatch hd
      | false =>
        have hne : x ≠ d := fun e => Bool.false_ne_true (hx.symm.trans (e ▸ hpd))
        rw [List.filter_cons_of_neg (Bool.eq_false_iff.1 hx)] at hf
        rw [List.erase_cons_tail (by simpa using hne)]
        exact congrArg (x :: ·) (ih h hf)

/-- A task that the last decrement releases. -/
theorem applyDecrement_last {s : State} {d : Decrement} {t : Task} {n : Nat} (hd : d ∈ s.decs)
    (hclean : s.poisonIn d.ctx (d.tcb.toNat + 0x40) 64 = none) (hn : s.readVa (s.ctxDie d.ctx) d.ctx d.tcb.toNat 128 = some n)
    (hone : tcbDepcnt (BitVec.ofNat 1024 n) = 1) (ht : s.task? d.ctx d.tcb = some t) (hst : t.st = .armed) :
    (s.applyDecrement d).decs = s.decs.erase d ∧ ∃ y ∈ (s.applyDecrement d).tasks, y.ctx = d.ctx ∧ y.tcb = d.tcb ∧ y.st = .ready := by
  obtain ⟨q, w, hw, htasks, hdecs⟩ : ∃ (q : QueueRef) (w : State), s.applyDecrement d = w.enqueue q d.ctx d.tcb ∧ w.tasks = s.tasks ∧
      w.decs = s.decs.erase d := by
    obtain ⟨v, hv⟩ : ∃ v : State, v = ({ s with decs := s.decs.erase d } : State).writeVa (s.ctxDie d.ctx) d.ctx (d.tcb.toNat + 0x4C) 4
      (tcbDepcnt (BitVec.ofNat 1024 n) - 1) := ⟨_, rfl⟩
    have hdock : v.docket = { s.docket with decs := s.decs.erase d } := by
      rw [hv]
      exact writeVa_docket ..
    have htasks : v.tasks = s.tasks := congrArg Docket.tasks hdock
    have ht' : v.task? d.ctx d.tcb = some t := by
      unfold State.task? at ht ⊢
      rwa [htasks]
    have hclean' : ({ s with decs := s.decs.erase d } : State).poisonIn d.ctx (d.tcb.toNat + 0x40) 64 = none := hclean
    unfold State.applyDecrement
    dsimp only
    rw [if_pos (by simpa using hd), hn]
    dsimp only
    rw [hclean']
    dsimp only
    rw [if_neg (by rw [hone]; exact Nat.one_ne_zero), ← hv, ht']
    simp only [hst, hone, ne_eq, not_true_eq_false, decide_false, Bool.or_self, Bool.false_eq_true, if_false]
    exact ⟨_, _, rfl, htasks, congrArg Docket.decs hdock⟩
  have htm : t ∈ w.tasks := htasks ▸ List.mem_of_find?_eq_some ht
  obtain ⟨hc, hk⟩ := of_task? ht
  rw [hw, ← hc, ← hk]
  obtain ⟨y, hy, rfl⟩ := enqueue_ready q htm
  exact ⟨(congrArg Docket.decs (enqueue_docket ..)).trans (by rw [hk]; exact hdecs), _, hy, rfl, rfl, rfl⟩

theorem admissionEvents : Claims.AdmissionEvents := by
  refine ⟨fun s x c r rest pa pte hx hc hr ha ht hcap hst hlo hhi hseg hsucc hhome hw =>
      rootAdmitted hx hc hr ha ht hcap hst hlo hhi hseg hsucc hhome hw,
    fun s x c hx hc h => rootAdmission_idle hx hc h, fun s r rest tcb par idx p x pa hr hwhat hrel hp hx =>
      ⟨fun q hf hq => taskAdmitted hr hwhat hrel hp hx hf hq, fun cause v hf => taskRefused hr hwhat hrel hp hx hf⟩,
    fun s d t n hd hf hclean hn hone ht hst => ?_⟩
  obtain ⟨hdecs, hready⟩ := applyDecrement_last (List.mem_of_getElem? hd) hclean hn hone ht hst
  refine ⟨s.applyDecrement d, ?_, hdecs.trans (erase_eq_listDel _ hd hf), hready⟩
  change execDepcntDecrement s = _
  unfold execDepcntDecrement
  rw [hd]
  dsimp only
  rw [hf]
  rfl

end Sys2Proof.Machine
end

section
/-!
LEMMAS. A free core takes the task that it picks (spec/12 R243, R251, R263, spec/15 R318).
-/
open Sys2Proof
namespace Sys2Proof.Machine

/-! ### What leaving a queue and an acquire do not change -/

/-- A state but for its queues and the caches of instructions and read data. -/
structure Seen where
  core : Core
  tasks : List Task
  ctxs : List Context
  mem : List (Nat × Byte)
  memTags : List (Nat × Word)
  tlb : Nat → List TlbEntry
  inReset : Nat → Bool
  frame : Word

def State.seen (s : State) : Seen :=
  ⟨{ s.core with queue := [], icache := [] }, s.tasks, s.ctxs, s.mem, s.memTags, fun d => (s.die d).tlb, fun d => (s.die d).inReset, s.frame⟩

theorem onCore_seen (c : Nat) {f : Core → Core} (hf : ∀ x, { f x with queue := [], icache := [] } = { x with queue := [], icache := [] })
    (s : State) : (s.onCore c f).seen = s.seen := by
  unfold State.onCore
  split
  · unfold State.seen
    dsimp only
    rw [hf]
    rfl
  · rfl

theorem onDie_seen (d : Nat) {f : Die → Die} (hf : ∀ x, (f x).tlb = x.tlb ∧ (f x).walks = x.walks ∧ (f x).inReset = x.inReset) (s : State) :
    (s.onDie d f).seen = s.seen := by
  obtain ⟨hm, ds, he⟩ := onDie_differs d hf s
  rw [he] at hm ⊢
  have htlb := congrArg Mapping.tlb hm
  have hres := congrArg Mapping.inReset hm
  calc ({ s with dies := ds } : State).seen =
      { s.seen with tlb := ({ s with dies := ds } : State).mapping.tlb, inReset := ({ s with dies := ds } : State).mapping.inReset } := rfl
    _ = s.seen := by
      rw [htlb, hres]
      rfl

theorem unqueue_seen (q : QueueRef) (e : QEntry) (s : State) : (s.unqueue q e).seen = s.seen := by
  cases q with
  | core c => exact onCore_seen c (by exact fun _ => rfl) s
  | die d => exact onDie_seen d (by exact fun _ => ⟨rfl, rfl, rfl⟩) s

theorem acquireOn_seen (c : Nat) (s : State) : (s.acquireOn c).seen = s.seen :=
  (onCore_seen c (by exact fun _ => rfl) _).trans (onDie_seen _ (by exact fun _ => ⟨rfl, rfl, rfl⟩) s)

theorem acquire_seen (sc : Scope) (s : State) : (s.acquire sc).seen = s.seen := by
  unfold State.acquire
  split
  · exact acquireOn_seen ..
  · rfl

section
variable {s t : State} (h : t.seen = s.seen)
include h

theorem leaf?_of_seen (d ctx va : Nat) : t.leaf? d ctx va = s.leaf? d ctx va := by
  have hctxs : t.ctxs = s.ctxs := congrArg Seen.ctxs h
  have htlb : (t.die d).tlb = (s.die d).tlb := congrFun (congrArg Seen.tlb h) d
  have hres : (t.die d).inReset = (s.die d).inReset := congrFun (congrArg Seen.inReset h) d
  unfold State.leaf? State.leafVia? State.ctx?
  rw [hctxs, htlb, hres]

theorem ctxDie_of_seen (ctx : Nat) : t.ctxDie ctx = s.ctxDie ctx := by
  have hctxs : t.ctxs = s.ctxs := congrArg Seen.ctxs h
  unfold State.ctxDie State.ctx?
  rw [hctxs]

theorem readVa_of_seen (d ctx va n : Nat) : t.readVa d ctx va n = s.readVa d ctx va n := by
  have hmem : t.mem = s.mem := congrArg Seen.mem h
  unfold State.readVa
  rw [leaf?_of_seen h, hmem]

end

theorem poisonIn_of_seen {s t : State} {l : List Task} {m : List (Nat × Byte)} {k : Core} (h : t.seen = { s.seen with tasks := l, mem := m, core := k })
    (ctx va n : Nat) : t.poisonIn ctx va n = s.poisonIn ctx va n := by
  have hseen : ({ t with tasks := s.tasks, mem := s.mem, core := s.core } : State).seen = s.seen :=
    calc ({ t with tasks := s.tasks, mem := s.mem, core := s.core } : State).seen =
        { t.seen with tasks := s.seen.tasks, mem := s.seen.mem, core := s.seen.core } := rfl
      _ = s.seen := by rw [h]
  have hleaf (x : Nat) : t.leaf? (t.ctxDie ctx) ctx x = s.leaf? (s.ctxDie ctx) ctx x := by
    rw [← ctxDie_of_seen hseen, ← leaf?_of_seen hseen]
    rfl
  have htags : t.memTags = s.memTags := congrArg Seen.memTags h
  unfold State.poisonIn
  simp only [hleaf]
  unfold State.granule
  simp only [htags]

/-! ### Dispatch (spec/12 R243) -/

theorem writeVa_seen (s : State) (d ctx va n x : Nat) : ∃ m, (s.writeVa d ctx va n x).seen = { s.seen with mem := m } := by
  unfold State.writeVa
  split
  · exact ⟨s.mem, rfl⟩
  · exact ⟨_, rfl⟩

theorem setTask_seen (ctx : Nat) (tcb : Word) (st : TState) (s : State) : ∃ m, (s.setTask ctx tcb st).seen =
    { s.seen with tasks := tasksOn ctx tcb (fun t => { t with st := st }) s.tasks, mem := m } := by
  obtain ⟨m, h⟩ := writeVa_seen (s.onTask ctx tcb (fun t => { t with st := st })) (s.ctxDie ctx) ctx (tcb.toNat + 0x68) 8
    ((((s.onTask ctx tcb (fun t => { t with st := st })).task? ctx tcb).map (fun t => t.restarts)).getD 0 * 256 + st.code)
  exact ⟨m, h⟩

theorem keepSnap_seen (launch : Nat) (tcb : Word) (x : BitVec 1024) (s : State) : (s.keepSnap launch tcb x).seen = s.seen := by
  unfold State.keepSnap
  split <;> rfl

/-- What dispatch does to a task's record. -/
def Task.launched (snap : BitVec 1024) (t : Task) : Task :=
  { t with snap := snap, r := t.r || tcbR snap, saved := none, pinned := none, wait := none }

/-- The state in which a dispatched task stands at its entry, before its views are in place. -/
def State.launched (s : State) (c : Context) (t : Task) (ctx : Nat) (tcb : Word) (snap : BitVec 1024) (prio : Nat) : State :=
  (((s.keepSnap t.launch tcb snap).setTask ctx tcb .running).onTask ctx tcb (Task.launched snap)).modCore
    (fun k => { k with busy := true, a := { freshArch c snap tcb prio with deferred := k.a.deferred }, watch := 0 })

theorem launched_seen (s : State) (c : Context) (t : Task) (ctx : Nat) (tcb : Word) (snap : BitVec 1024) (prio : Nat) :
    ∃ m, (s.launched c t ctx tcb snap prio).seen = { s.seen with
      mem := m
      tasks := tasksOn ctx tcb (Task.launched snap) (tasksOn ctx tcb (fun t => { t with st := .running }) s.tasks)
      core := { s.seen.core with
        busy := true, a := { freshArch c snap tcb prio with deferred := s.core.a.deferred }, watch := 0 } } := by
  obtain ⟨m, h⟩ := setTask_seen ctx tcb .running (s.keepSnap t.launch tcb snap)
  have hk := keepSnap_seen t.launch tcb snap s
  have htasks : (s.keepSnap t.launch tcb snap).tasks = s.tasks := congrArg Seen.tasks hk
  rw [hk, htasks] at h
  refine ⟨m, ?_⟩
  unfold State.launched
  generalize (s.keepSnap t.launch tcb snap).setTask ctx tcb .running = w at h
  calc _ = { w.seen with
        tasks := tasksOn ctx tcb (Task.launched snap) w.seen.tasks
        core := { w.seen.core with busy := true, a := { freshArch c snap tcb prio with deferred := w.seen.core.a.deferred }, watch := 0 } } := rfl
    _ = _ := by
      rw [h]
      rfl

/-- A task with neither a view table nor inherited tiles needs no room. -/
theorem setupViews_none {s : State} {t : Task} {c : Context} (ht : s.me? = some t) (hc : s.ctx? s.core.a.ctx = some c)
    (hv : tcbViews t.snap = 0) (htiles : t.tiles = []) :
    s.setupViews = .ok ((s.modA (fun a => { a with views := [] })).onTask s.core.a.ctx s.core.a.tcb
      (fun t => { t with tiles := [], declares := false })) := by
  unfold State.setupViews
  dsimp only
  rw [ht, hc]
  simp [hv, htiles, State.place, placeSpad, State.fillBlanks]

/-- The snapshot with which a task starts. -/
def State.startSnap (s : State) (t : Task) (ctx : Nat) (tcb : Word) : BitVec 1024 :=
  if t.restarts = 0 then ((s.readVa (s.ctxDie ctx) ctx tcb.toNat 128).map (BitVec.ofNat 1024)).getD t.snap else t.snap

theorem startSnap_of_seen {s w : State} (h : w.seen = s.seen) (t : Task) (ctx : Nat) (tcb : Word) :
    w.startSnap t ctx tcb = s.startSnap t ctx tcb := by
  unfold State.startSnap
  rw [readVa_of_seen h, ctxDie_of_seen h]

/-- A dispatch whose TCB and views break no rule. -/
theorem dispatch_eq {s w : State} {t : Task} {c : Context} {ctx : Nat} {tcb : Word} {snap : BitVec 1024}
    (ht : s.task? ctx tcb = some t) (hc : s.ctx? ctx = some c) (hw : w = s.acquire (if t.parent.isNone then .system else .package))
    (hs : w.startSnap t ctx tcb = snap) (he : (tcbEntry snap).toNat % 32 = 0) (hu : (tcbUvec snap).toNat % 32 = 0) :
    ∃ prio, ∀ v, (t.restarts = 0 → (w.launched c t ctx tcb snap prio).poisonIn ctx tcb.toNat 128 = none) →
      (w.launched c t ctx tcb snap prio).setupViews = .ok v → s.dispatch ctx tcb = some v := by
  refine ⟨eprio w.frame.toNat (w.ageOf ctx) t, fun v hp hv => ?_⟩
  have hp' : (if t.restarts = 0 then
      (w.launched c t ctx tcb snap (eprio w.frame.toNat (w.ageOf ctx) t)).poisonIn ctx tcb.toNat 128 else none) = none := by
    split
    · next h => exact hp h
    · rfl
  unfold State.launched at hp' hv
  unfold State.dispatch
  rw [ht, hc]
  dsimp only
  rw [← hw]
  unfold State.startSnap at hs
  rw [hs]
  unfold Task.launched at hp' hv
  rw [hp']
  dsimp only
  rw [if_neg (not_not.2 he), if_neg (not_not.2 hu), hv]

/-- What a first dispatch leaves: the core as dispatch starts it, and the task running. -/
theorem dispatch_effect {s : State} {t : Task} {c : Context} {ctx : Nat} {tcb : Word}
    (ht : s.task? ctx tcb = some t) (hc : s.ctx? ctx = some c) (hp : t.restarts = 0 → s.poisonIn ctx tcb.toNat 128 = none)
    (he : (tcbEntry (s.startSnap t ctx tcb)).toNat % 32 = 0) (hu : (tcbUvec (s.startSnap t ctx tcb)).toNat % 32 = 0)
    (hviews : tcbViews (s.startSnap t ctx tcb) = 0) (htiles : t.tiles = []) :
    ∃ v prio, s.dispatch ctx tcb = some v ∧
      v.seen.core = { s.seen.core with
        busy := true, watch := 0, a := { freshArch c (s.startSnap t ctx tcb) tcb prio with deferred := s.core.a.deferred } } ∧
      ∃ y ∈ v.tasks, y.ctx = ctx ∧ y.tcb = tcb ∧ y.st = .running := by
  obtain ⟨w, hw⟩ : ∃ w, w = s.acquire (if t.parent.isNone then .system else .package) := ⟨_, rfl⟩
  have hseen : w.seen = s.seen := by
    rw [hw]
    exact acquire_seen ..
  obtain ⟨snap, hsnap⟩ : ∃ snap, s.startSnap t ctx tcb = snap := ⟨_, rfl⟩
  rw [hsnap] at he hu hviews ⊢
  have hcnum : c.num = ctx := by simpa using List.find?_some hc
  obtain ⟨htctx, httcb⟩ := of_task? ht
  obtain ⟨prio, hd⟩ := dispatch_eq ht hc hw ((startSnap_of_seen hseen ..).trans hsnap) he hu
  obtain ⟨m, hl⟩ := launched_seen w c t ctx tcb snap prio
  rw [hseen, show w.tasks = s.tasks from congrArg Seen.tasks hseen] at hl
  generalize w.launched c t ctx tcb snap prio = y at hd hl
  have hcore : y.seen.core = { s.seen.core with
      busy := true, a := { freshArch c snap tcb prio with deferred := w.core.a.deferred }, watch := 0 } := congrArg Seen.core hl
  have hya : y.core.a = { freshArch c snap tcb prio with deferred := w.core.a.deferred } := congrArg Core.a hcore
  have hwa : w.core.a = s.core.a := congrArg (fun x : Seen => x.core.a) hseen
  rw [hwa] at hcore hya
  obtain ⟨t', ht', hst'⟩ : ∃ t', t' = Task.launched snap { t with st := .running } ∧ t'.st = .running := ⟨_, rfl, rfl⟩
  have hactx : y.core.a.ctx = ctx := (congrArg Arch.ctx hya).trans hcnum
  have hatcb : y.core.a.tcb = tcb := congrArg Arch.tcb hya
  have hytasks : y.tasks = _ := congrArg Seen.tasks hl
  have hme : y.me? = some t' := by
    unfold State.me? State.task?
    rw [hactx, hatcb, hytasks, ht']
    exact find?_map_same (f := Task.launched snap) (by exact fun _ hx => hx) _ (find?_map_same (f := fun t => { t with st := .running }) (by exact fun _ hx => hx) _ ht)
  have hyc : y.ctx? y.core.a.ctx = some c := by
    rw [hactx]
    unfold State.ctx? at hc ⊢
    rw [show y.ctxs = s.ctxs from congrArg Seen.ctxs hl]
    exact hc
  have hsetup := setupViews_none hme hyc (by rw [ht']; exact hviews) (by rw [ht']; exact htiles)
  refine ⟨_, prio, hd _ (fun h => (poisonIn_of_seen hl ..).trans (hp h)) hsetup, ?_, { t' with tiles := [], declares := false }, ?_, ?_, ?_, hst'⟩
  · calc _ = { y.seen.core with a := { y.seen.core.a with views := [] } } := rfl
      _ = _ := by
        rw [hcore]
        rfl
  · rw [hactx, hatcb]
    refine mem_tasksOn (f := fun t => { t with tiles := [], declares := false }) (List.mem_of_find?_eq_some hme) ?_ ?_
    · rw [ht']
      exact htctx
    · rw [ht']
      exact httcb
  · rw [ht']
    exact htctx
  · rw [ht']
    exact httcb


/-! ### Resumption (spec/12 R263, spec/15 R318) -/

/-- The task part of a frame comes back as it was saved, but for its deferred faults and an acquire that is made up for. -/
theorem putBack_effect (f : Frame) (s : State) : ∃ ds b, (s.putBack f).core.a = { f.a.resumed with deferred := ds, acqDue := b } ∧
    (s.putBack f).core.busy = true ∧ (s.putBack f).frame = s.frame := by
  obtain ⟨w, hw⟩ : ∃ w : State, w = s.modCore (fun c => { c with
    busy := true, a := { f.a.resumed with deferred := c.a.deferred ++ f.a.deferred },
    pier := c.pier ++ f.a.resent ++ f.a.heldPier, watch := 0 }) := ⟨_, rfl⟩
  have hput : s.putBack f = w.acquireDue.onCluster (clusterOf s.core.id) (fun c =>
      { c with reqs := c.reqs ++ f.a.permits.map (fun p => ⟨s.core.id, p.1, p.2⟩) }) := by
    rw [hw]
    rfl
  rw [hput, onCluster_core, onCluster_frame]
  unfold State.acquireDue
  split
  · have hseen := acquireOn_seen w.core.id (w.modA (fun a => { a with acqDue := false }))
    have hcore := congrArg Seen.core hseen
    exact ⟨s.core.a.deferred ++ f.a.deferred, false, (congrArg Core.a hcore).trans (by rw [hw]; rfl),
      (congrArg Core.busy hcore).trans (by rw [hw]; rfl), (congrArg Seen.frame hseen).trans (by rw [hw]; rfl)⟩
  · rw [hw]
    exact ⟨s.core.a.deferred ++ f.a.deferred, f.a.resumed.acqDue, rfl, rfl, rfl⟩

/-- Where a suspended task goes on, by what it waited for. -/
def resumedBlock (frame : Nat) (back : Option Block) : Wait → Option Block
  | .join d m => some (.reenter (.join d frame m))
  | .child _ d => some (.reenter (.done (some d)))
  | .page _ | .resource _ => back.map Block.again
  | .yielded | .future _ _ _ => some (.reenter (.done none))

/-- The registers, the results in flight and the place of a task part. -/
def Arch.registers (a : Arch) (b : Option Block) : Arch := { Arch.zero with
  s := a.s, p := a.p, v := a.v, q := a.q, m := a.m, vrf := a.vrf, flights := a.flights, pc := a.pc, block := b }

theorem registers_eq {a a' : Arch} {b b' : Option Block} (h : a.registers b = a'.registers b') :
    a.s = a'.s ∧ a.p = a'.p ∧ a.v = a'.v ∧ a.q = a'.q ∧ a.m = a'.m ∧ a.vrf = a'.vrf ∧ a.flights = a'.flights ∧ a.pc = a'.pc ∧ b = b' :=
  ⟨(congrArg Arch.s h :), (congrArg Arch.p h :), (congrArg Arch.v h :), (congrArg Arch.q h :), (congrArg Arch.m h :), (congrArg Arch.vrf h :),
    (congrArg Arch.flights h :), (congrArg Arch.pc h :), (congrArg Arch.block h :)⟩

theorem resume_effect {t : Task} {f : Frame} {w : Wait} (hw : t.wait = some w) (hv : f.a.views ≠ [] ∨ (tcbViews t.snap = 0 ∧ t.tiles = []))
    (s : State) : (s.resume t f).core.busy = true ∧
      (s.resume t f).core.a.registers (s.resume t f).core.a.block = f.a.registers (resumedBlock s.frame.toNat f.a.back w) := by
  obtain ⟨x, hx⟩ : ∃ x : State, x = (s.setTask t.ctx t.tcb .running).onTask t.ctx t.tcb (fun x => { x with saved := none, wait := none, pinned := none }) :=
    ⟨_, rfl⟩
  have hframe : x.frame = s.frame := by
    rw [hx]
    exact setTask_frame ..
  obtain ⟨ds, b, ha, hb, hf⟩ := putBack_effect f x
  rw [hframe] at hf
  unfold State.resume
  dsimp only
  rw [← hx, hw]
  generalize x.putBack f = y at ha hb hf
  have hblock (k : Option Block) : (y.modA (fun a => { a with block := k })).core.busy = true ∧
      (y.modA (fun a => { a with block := k })).core.a.registers k = f.a.registers k :=
    ⟨hb, by
      rw [show (y.modA (fun a => { a with block := k })).core.a = { y.core.a with block := k } from rfl, ha]
      rfl⟩
  have hviews : ¬((y.modA (fun a => { a with block := a.back.map Block.again, back := none })).core.a.views.isEmpty &&
      (decide (tcbViews t.snap ≠ 0) || !t.tiles.isEmpty)) = true := by
    have hy : y.core.a.views = f.a.views := (congrArg Arch.views ha).trans rfl
    rw [show (y.modA (fun a => { a with block := a.back.map Block.again, back := none })).core.a.views = f.a.views from hy]
    rcases hv with h | ⟨h, h'⟩
    · cases hl : f.a.views with
      | nil => exact absurd hl h
      | cons => simp
    · simp [h, h']
  have hback : (y.modA (fun a => { a with block := a.back.map Block.again, back := none })).core.busy = true ∧
      (y.modA (fun a => { a with block := a.back.map Block.again, back := none })).core.a.registers
        (y.modA (fun a => { a with block := a.back.map Block.again, back := none })).core.a.block =
      f.a.registers (f.a.back.map Block.again) :=
    ⟨hb, by
      rw [show (y.modA (fun a => { a with block := a.back.map Block.again, back := none })).core.a =
        { y.core.a with block := y.core.a.back.map Block.again, back := none } from rfl, ha]
      rfl⟩
  cases w with
  | join d m =>
    dsimp only
    rw [hf]
    exact hblock _
  | child c d => exact hblock _
  | page va =>
    dsimp only
    rw [if_neg hviews]
    exact hback
  | resource k =>
    dsimp only
    rw [if_neg hviews]
    exact hback
  | yielded => exact hblock _
  | future d va n => exact hblock _

/-! ### The pick of a free core -/

section
variable {s : State} {q : QueueRef} {e : QEntry} {t : Task}
  (hm : s.there.mayPickOn s.there.core.id = true) (hp : s.there.pick s.there.core.id = some (q, e))
  (ho : s.there.outranked s.there.core.id q e = false) (ht : s.there.task? e.ctx e.tcb = some t)
include hm hp ho ht

theorem exec_taskPick : exec .taskPick s = .next (match t.saved with
    | some f => (s.there.unqueue q e).resume t f
    | none => match (s.there.unqueue q e).dispatch e.ctx e.tcb with
      | some s => s
      | none => s.there.askFor 6 e.ctx e.tcb) := by
  change execTaskPick s = _
  unfold State.there at *
  unfold execTaskPick
  dsimp only
  rw [hm, hp]
  simp only [Bool.not_true, Bool.false_eq_true, if_false]
  rw [ho]
  simp only [Bool.false_eq_true, if_false]
  rw [ht] <;> rfl

theorem exec_taskPick_resumes {f : Frame} (hf : t.saved = some f) : exec .taskPick s = .next ((s.there.unqueue q e).resume t f) := by
  rw [exec_taskPick hm hp ho ht, hf]

theorem exec_taskPick_dispatches {v : State} (hf : t.saved = none) (hd : (s.there.unqueue q e).dispatch e.ctx e.tcb = some v) :
    exec .taskPick s = .next v := by
  rw [exec_taskPick hm hp ho ht, hf]
  dsimp only
  rw [hd]

end

/-- The values of s1 to s5 by the number of the register. -/
theorem argOf_eq (args : Nat → Word) (tcb : Word) (n : Nat) :
    (if n = 0 then 0 else if ((5 : Reg) : Nat) = n then tcb else if ((4 : Reg) : Nat) = n then args 3 else if ((3 : Reg) : Nat) = n then args 2
      else if ((2 : Reg) : Nat) = n then args 1 else if ((1 : Reg) : Nat) = n then args 0 else 0) =
    if 1 ≤ n ∧ n ≤ 4 then args (n - 1) else if n = 5 then tcb else 0 := by
  obtain ⟨h5, h4, h3, h2, h1⟩ : ((5 : Reg) : Nat) = 5 ∧ ((4 : Reg) : Nat) = 4 ∧ ((3 : Reg) : Nat) = 3 ∧ ((2 : Reg) : Nat) = 2 ∧
      ((1 : Reg) : Nat) = 1 := ⟨rfl, rfl, rfl, rfl, rfl⟩
  rw [h5, h4, h3, h2, h1]
  obtain rfl | rfl | rfl | rfl | rfl | rfl | h : n = 0 ∨ n = 1 ∨ n = 2 ∨ n = 3 ∨ n = 4 ∨ n = 5 ∨ 5 < n := by omega
  case inr.inr.inr.inr.inr.inr =>
    rw [if_neg (by omega), if_neg (by omega), if_neg (by omega), if_neg (by omega), if_neg (by omega), if_neg (by omega),
      if_neg (by omega), if_neg (by omega)]
  all_goals rfl

/-- The registers with which a task starts. -/
theorem freshArch_rd (c : Context) (snap : BitVec 1024) (tcb : Word) (prio : Nat) (ds : List Deferred) (r : Reg) :
    ({ freshArch c snap tcb prio with deferred := ds } : Arch).rd r =
      if 1 ≤ r.val ∧ r.val ≤ 4 then tcbArg snap (r.val - 1) else if r.val = 5 then tcb else 0 := by
  have hread : ({ freshArch c snap tcb prio with deferred := ds } : Arch).rd r = if r = 0 then 0 else
      (setRegs [(1, tcbArg snap 0), (2, tcbArg snap 1), (3, tcbArg snap 2), (4, tcbArg snap 3), (5, tcb)] Arch.zero.s)[r] := rfl
  rw [hread]
  have hzero : Arch.zero.s[r] = 0 := by
    simp [Arch.zero]
  simp only [setRegs, Fin.getElem_fin, Vector.getElem_set] at hzero ⊢
  have hr0 : r = 0 ↔ r.val = 0 := Fin.ext_iff
  rw [hzero]
  simp only [hr0]
  exact argOf_eq (tcbArg snap) tcb r.val

theorem freshArch_segs (c : Context) (snap : BitVec 1024) (tcb : Word) (prio : Nat) (j : Fin 16) :
    (freshArch c snap tcb prio).segs[j] = if j.val < (if tcbSegn snap = 0 then c.prog.segOn else tcbSegn snap) then .on
      else if c.prog.segRest = .retain then .retain else .off := by
  simp only [freshArch, dispatchSegs, Fin.getElem_fin, Vector.getElem_ofFn]
  refine congrArg (ite _ Seg.on) ?_
  cases c.prog.segRest with
  | retain => exact (if_pos rfl).symm
  | off => exact (if_neg nofun).symm

theorem taskPickDispatches : Claims.TaskPickDispatches := by
  intro s q e t c u hm hp ho ht hc
  have hseen : (u.unqueue q e).seen = u.seen := unqueue_seen ..
  have hframe : (u.unqueue q e).frame = u.frame := congrArg Seen.frame hseen
  refine ⟨?_, fun f w hf hw hv => ?_⟩
  · intro snap hsaved hpoison hentry huvec hviews htiles
    have ht' : (u.unqueue q e).task? e.ctx e.tcb = some t := by
      unfold State.task? at ht ⊢
      rwa [show (u.unqueue q e).tasks = u.tasks from congrArg Seen.tasks hseen]
    have hc' : (u.unqueue q e).ctx? e.ctx = some c := by
      unfold State.ctx? at hc ⊢
      rwa [show (u.unqueue q e).ctxs = u.ctxs from congrArg Seen.ctxs hseen]
    have hsnap : (u.unqueue q e).startSnap t e.ctx e.tcb = snap := startSnap_of_seen hseen ..
    have hpoison' (h : t.restarts = 0) : (u.unqueue q e).poisonIn e.ctx e.tcb.toNat 128 = none :=
      (poisonIn_of_seen (s := u) (l := u.tasks) (m := u.mem) (k := u.seen.core) hseen ..).trans (hpoison h)
    obtain ⟨v, prio, hd, hcore, hrun⟩ := dispatch_effect ht' hc' hpoison' (by rw [hsnap]; exact hentry) (by rw [hsnap]; exact huvec)
      (by rw [hsnap]; exact hviews) htiles
    rw [hsnap, hseen] at hcore
    generalize (u.unqueue q e).core.a.deferred = ds at hcore
    have ha : v.core.a = { freshArch c snap e.tcb prio with deferred := ds } := congrArg Core.a hcore
    have hspad : v.core.spad = u.core.spad := (congrArg Core.spad hcore).trans rfl
    refine ⟨v, exec_taskPick_dispatches hm hp ho ht hsaved hd, (congrArg Core.busy hcore).trans rfl, (congrArg Core.id hcore).trans rfl, ?_⟩
    rw [ha]
    exact ⟨rfl, rfl, rfl, rfl, rfl, rfl, freshArch_rd c snap e.tcb prio ds, rfl, rfl, rfl, rfl, hspad,
      freshArch_segs c snap e.tcb prio, hrun⟩
  · obtain ⟨hb, hregs⟩ := resume_effect hw hv (u.unqueue q e)
    obtain ⟨hs, hpr, hvr, hqr, hmr, hvrf, hfl, hpc, hblock⟩ := registers_eq hregs
    rw [hframe] at hblock
    refine ⟨_, exec_taskPick_resumes hm hp ho ht hf, hb, hs, hpr, hvr, hqr, hmr, hvrf, hfl, hpc, hblock.trans ?_⟩
    cases w <;> rfl

/-- Settles O41. -/
theorem taskDispatchAndAdmission : Obligations.TaskDispatchAndAdmission := ⟨pickOrder, taskPickDispatches, admissionEvents⟩

end Sys2Proof.Machine
end

section
/-!
LEMMAS. What the end of a launch leaves on the host's side: the other launches, the answers to commands and the updates of tables
(spec/16 R330, R332).
-/
open Sys2Proof
namespace Sys2Proof.Machine

/-- The launches, the mailboxes, the table-update engine and the input latch. -/
def State.board (s : State) : List Launch × List MailResp × List Update × Input := (s.launches, s.mail, s.updates, s.input)

@[simp] theorem foldl_board {α : Type} {f : State → α → State} (h : ∀ s x, (f s x).board = s.board) (l : List α) (s : State) :
    (l.foldl f s).board = s.board :=
  foldl_preserves State.board h l s

@[simp] theorem modCore_board (f : Core → Core) (s : State) : (s.modCore f).board = s.board := rfl

@[simp] theorem modA_board (f : Arch → Arch) (s : State) : (s.modA f).board = s.board := rfl

@[simp] theorem focus_board (c : Nat) (s : State) : (s.focus c).board = s.board := by
  unfold State.focus
  split <;> rfl

@[simp] theorem onCore_board (c : Nat) (f : Core → Core) (s : State) : (s.onCore c f).board = s.board := by
  unfold State.onCore
  split <;> rfl

@[simp] theorem onDie_board (d : Nat) (f : Die → Die) (s : State) : (s.onDie d f).board = s.board := by
  unfold State.onDie
  split <;> rfl

@[simp] theorem onCtx_board (n : Nat) (f : Context → Context) (s : State) : (s.onCtx n f).board = s.board := rfl

@[simp] theorem onStream_board (n : Nat) (f : Stream → Stream) (s : State) : (s.onStream n f).board = s.board := rfl

@[simp] theorem onCluster_board (n : Nat) (f : Cluster → Cluster) (s : State) : (s.onCluster n f).board = s.board := by
  unfold State.onCluster
  split <;> rfl

@[simp] theorem writePhys_board (s : State) (bs : List (Nat × Byte)) (ts : List (Nat × Word)) : (s.writePhys bs ts).board = s.board := rfl

@[simp] theorem writeVa_board (s : State) (d ctx va n x : Nat) : (s.writeVa d ctx va n x).board = s.board := by
  unfold State.writeVa
  split <;> rfl

@[simp] theorem landWrite_board (r : MemReq) (gone : List Nat) (s : State) : (s.landWrite r gone).board = s.board := by
  simp [State.landWrite, State.cacheDrop]

@[simp] theorem onTask_board (ctx : Nat) (tcb : Word) (f : Task → Task) (s : State) : (s.onTask ctx tcb f).board = s.board := rfl

@[simp] theorem setTask_board (ctx : Nat) (tcb : Word) (st : TState) (s : State) : (s.setTask ctx tcb st).board = s.board := by
  simp [State.setTask]

@[simp] theorem setStatus_board (ctx : Nat) (tcb : Word) (code cause : Nat) (s : State) : (s.setStatus ctx tcb code cause).board = s.board := by
  simp [State.setStatus]

@[simp] theorem onTaskArch_board (ctx : Nat) (key : Word) (f : Arch → Arch) (s : State) : (s.onTaskArch ctx key f).board = s.board := rfl

@[simp] theorem onGang_board (ctx : Nat) (va : Word) (f : Gang → Gang) (s : State) : (s.onGang ctx va f).board = s.board := rfl

@[simp] theorem acquireOn_board (core : Nat) (s : State) : (s.acquireOn core).board = s.board := by
  simp [State.acquireOn]

@[simp] theorem acquireFor_board (ctx : Nat) (key : Word) (s : State) : (s.acquireFor ctx key).board = s.board := by
  unfold State.acquireFor
  split <;> simp

@[simp] theorem gangFill_board (ctx : Nat) (key : Word) (op x : Nat) (acq : Bool) (s : State) :
    (s.gangFill ctx key op x acq).board = s.board := by
  unfold State.gangFill
  split <;> simp

@[simp] theorem gangComplete_board (ctx : Nat) (va : Word) (s : State) : (s.gangComplete ctx va).board = s.board := by
  unfold State.gangComplete
  dsimp only
  split
  · rfl
  · split
    · rfl
    · split
      · exact (foldl_board (by simp) _ _).trans ((foldl_board (by simp) _ _).trans (onGang_board ..))
      · exact (foldl_board (by simp) _ _).trans ((foldl_board (by simp) _ _).trans (onGang_board ..))

@[simp] theorem leaveGangs_board (a : Arch) (s : State) : (s.leaveGangs a).board = s.board :=
  (foldl_board (by simp) _ _).trans rfl

@[simp] theorem leaveCluster_board (s : State) : s.leaveCluster.board = s.board := by
  simp [State.leaveCluster]

@[simp] theorem acquireDue_board (s : State) : s.acquireDue.board = s.board := by
  unfold State.acquireDue
  split <;> simp

@[simp] theorem putBack_board (f : Frame) (s : State) : (s.putBack f).board = s.board := by
  simp [State.putBack]

@[simp] theorem popInline_board (s : State) : s.popInline.board = s.board := by
  unfold State.popInline
  split <;> simp

@[simp] theorem leaveInline_board (t : Word) (n : Nat) (s : State) : (s.leaveInline t n).board = s.board := by
  induction n generalizing t s with
  | zero => rfl
  | succ n ih =>
    unfold State.leaveInline
    split
    · rfl
    · split
      · rw [ih, onTask_board, setTask_board, modCore_board]
      · exact popInline_board s

@[simp] theorem dropTask_board (s : State) : s.dropTask.board = s.board := by
  simp [State.dropTask]

@[simp] theorem clearCores_board (p : Nat → Word → Bool) (s : State) : (s.clearCores p).board = s.board := by
  simp [State.clearCores, apply_ite State.board]

@[simp] theorem clearImages_board (p : Nat → Word → Bool) (s : State) : (s.clearImages p).board = s.board := by
  unfold State.clearImages
  exact foldl_board (f := fun s a => s.leaveGangs a) (fun s a => leaveGangs_board a s) _ s

@[simp] theorem enqueueDie_board (d ctx : Nat) (tcb : Word) (seq : Option Nat) (s : State) :
    (s.enqueueDie d ctx tcb seq).board = s.board := by
  have hexcess (q : QueueRef) (e : QEntry) (s : State) : (s.excess q e).board = s.board := rfl
  simp [State.enqueueDie, apply_ite State.board, hexcess]

@[simp] theorem enqueueCore_board (c ctx : Nat) (tcb : Word) (s : State) : (s.enqueueCore c ctx tcb).board = s.board := by
  have hexcess (q : QueueRef) (e : QEntry) (s : State) : (s.excess q e).board = s.board := rfl
  unfold State.enqueueCore
  dsimp only
  repeat' split
  all_goals simp [hexcess]

@[simp] theorem enqueue_board (q : QueueRef) (ctx : Nat) (tcb : Word) (s : State) : (s.enqueue q ctx tcb).board = s.board := by
  unfold State.enqueue
  dsimp only
  repeat' split
  all_goals simp

@[simp] theorem readyPinned_board (ctx : Nat) (tcb : Word) (s : State) : (s.readyPinned ctx tcb).board = s.board := by
  unfold State.readyPinned
  repeat' split
  all_goals simp

@[simp] theorem childEnded_board (ctx : Nat) (tcb : Word) (s : State) : (s.childEnded ctx tcb).board = s.board :=
  foldl_board (f := fun s (t : Task) => s.readyPinned t.ctx t.tcb) (by simp) _ s

@[simp] theorem landOut_board (ctx : Nat) (mine : CopyCmd → Bool) (d : Nat) (s : State) : (s.landOut ctx mine d).board = s.board := by
  simp [State.landOut]

@[simp] theorem writeRecord_board (c : Completion) (s : State) : (s.writeRecord c).board = s.board := by
  unfold State.writeRecord
  split
  · rfl
  · simp [State.board, State.onStream, State.writePhys]

@[simp] theorem flushTlbs_board (d : Nat) (gone : TlbEntry → Bool) (s : State) : (s.flushTlbs d gone).board = s.board := by
  simp [State.flushTlbs, apply_ite State.board]

@[simp] theorem unload_board (ctx : Nat) (s : State) : (s.unload ctx).board = s.board := by
  simp [State.unload]

/-- The board without the launches of a number. -/
def State.boardSans (s : State) (n : Nat) : List Launch × List MailResp × List Update × Input := (s.launches.filter (fun x => x.num ≠ n), s.mail, s.updates, s.input)

theorem boardSans_of_board {s t : State} (h : t.board = s.board) (n : Nat) : t.boardSans n = s.boardSans n :=
  congrArg (fun b => (b.1.filter (fun x => decide (x.num ≠ n)), b.2)) h

/-- A launch that is complete leaves the launches. -/
theorem completeLaunch_board (l : Launch) (status cause : Nat) (ftcb tpc tval : Word) (pc : Nat) (s : State) :
    (s.completeLaunch l status cause ftcb tpc tval pc).board = s.boardSans l.num := by
  unfold State.completeLaunch
  dsimp only
  split
  · rfl
  · exact writeRecord_board ..

theorem dropQueued_board (p : Nat → Word → Bool) (s : State) : (s.dropQueued p).board = s.board := rfl

/-- The end of a launch, from a state with the same board. -/
theorem endLaunch_from {s : State} {n : Nat} {l : Launch} (h : s.launch? n = some l) (status cause code : Nat) (ftcb tpc tval : Word)
    (pc : Nat) : ∃ (v : State) (ts : List Task) (ds : List Decrement) (rs : List ResourceReq), v.board = s.board ∧
      s.endLaunch n status cause code ftcb tpc tval pc =
        ((s.tasks.filter (fun (t : Task) => t.launch = n)).foldl (fun (s : State) (t : Task) => s.childEnded t.ctx t.tcb)
          { v with tasks := ts, decs := ds, resources := rs }).completeLaunch l status cause ftcb tpc tval pc := by
  unfold State.endLaunch
  rw [h]
  refine ⟨_, _, _, _, ?_, rfl⟩
  rw [dropQueued_board, clearImages_board, clearCores_board, foldl_board (fun _ _ => landOut_board ..)]
  refine foldl_board (fun u x => ?_) _ s
  rw [apply_ite State.board, setStatus_board, setStatus_board, ite_self, setTask_board]
  split
  · exact leaveGangs_board ..
  · rfl

/-- The end of a launch takes it alone from the board. -/
theorem endLaunch_board {s : State} {n : Nat} {l : Launch} (h : s.launch? n = some l) (status cause code : Nat) (ftcb tpc tval : Word)
    (pc : Nat) : (s.endLaunch n status cause code ftcb tpc tval pc).board = s.boardSans n := by
  have hnum : l.num = n := of_decide_eq_true (List.find?_some (p := fun x : Launch => decide (x.num = n)) h)
  obtain ⟨v, ts, ds, rs, hv, e⟩ := endLaunch_from h status cause code ftcb tpc tval pc
  have hset : ({ v with tasks := ts, decs := ds, resources := rs } : State).board = s.board := hv
  rw [e, completeLaunch_board, hnum]
  exact boardSans_of_board ((foldl_board (fun _ _ => childEnded_board ..) _ _).trans hset) n

end Sys2Proof.Machine
end

section
/-!
LEMMAS. The services of the scheduler and supervisor cores (spec/12 R252, R259, R261, spec/13 R288, spec/15 R318), and takeovers
(spec/16 R336).
-/
open Sys2Proof
namespace Sys2Proof.Machine

/-! ### Launches that end one after another -/

/-- Ending a launch leaves the board without the launches of its number, whether there was one or not. -/
theorem endLaunch_boardSans (s : State) (n status cause code : Nat) (ftcb tpc tval : Word) (pc : Nat) :
    (s.endLaunch n status cause code ftcb tpc tval pc).board = s.boardSans n := by
  cases h : s.launch? n with
  | some l => exact endLaunch_board h ..
  | none =>
    have hnone : s.launches.filter (fun x => x.num ≠ n) = s.launches :=
      List.filter_eq_self.2 fun x hx => by simpa using List.find?_eq_none.1 h x hx
    unfold State.endLaunch State.boardSans
    rw [h, hnone]
    rfl

/-- The end of several launches. -/
theorem endLaunches_board (ns : List Nat) (status cause code : Nat) (ftcb tpc tval : Word) (pc : Nat) (s : State) :
    (ns.foldl (fun s n => s.endLaunch n status cause code ftcb tpc tval pc) s).board =
      (s.launches.filter (fun x => x.num ∉ ns), s.mail, s.updates, s.input) := by
  induction ns generalizing s with
  | nil => simp [State.board]
  | cons n ns ih =>
    have hb := endLaunch_boardSans s n status cause code ftcb tpc tval pc
    rw [List.foldl_cons, ih]
    generalize s.endLaunch n status cause code ftcb tpc tval pc = v at hb
    rw [show v.launches = s.launches.filter (fun x => x.num ≠ n) from congrArg Prod.fst hb,
      show v.mail = s.mail from congrArg (fun b => b.2.1) hb, show v.updates = s.updates from congrArg (fun b => b.2.2.1) hb,
      show v.input = s.input from congrArg (fun b => b.2.2.2) hb, List.filter_filter]
    refine congrArg (fun l => (l, s.mail, s.updates, s.input)) (List.filter_congr fun x _ => ?_)
    simp [Bool.and_comm]

/-! ### Takeovers (R336) -/

/-- What records that are written leave alone. -/
structure Pairs where
  takeSch : Bool
  takeSup : Bool
  nosch : Bool
  nossv : Bool
  heldRecs : List Completion

def State.pairs (s : State) : Pairs := ⟨s.takeSch, s.takeSup, s.nosch, s.nossv, s.heldRecs⟩

theorem writeRecord_pairs (c : Completion) (s : State) : (s.writeRecord c).pairs = s.pairs := by
  unfold State.writeRecord
  split
  · rfl
  · simp [State.pairs, State.onStream, State.writePhys]

theorem releaseRecords_pairs (s : State) : s.releaseRecords.pairs = { s.pairs with heldRecs := [] } :=
  foldl_preserves State.pairs (fun s c => writeRecord_pairs c s) s.heldRecs { s with heldRecs := [] }

theorem releaseRecords_board (s : State) : s.releaseRecords.board = s.board :=
  foldl_board (fun s c => writeRecord_board c s) s.heldRecs { s with heldRecs := [] }

theorem loseAll_effect (s : State) : s.loseAll.boot = .packageFault ∧ s.loseAll.launches = [] ∧ s.loseAll.ready = false := by
  obtain ⟨v, hv⟩ : ∃ v : State, v = ({ s with takeSch := false, takeSup := false } : State).releaseRecords := ⟨_, rfl⟩
  have hb := endLaunches_board (v.launches.map (fun l => l.num)) 4 0 1 0 0 0 0 v
  unfold State.loseAll
  dsimp only
  rw [← hv]
  refine ⟨rfl, ?_, rfl⟩
  refine (congrArg Prod.fst hb).trans (List.filter_eq_nil_iff.2 fun x hx => ?_)
  simpa using ⟨x, hx, rfl⟩

theorem logHost_effect (type : Nat) (die fn addr : Option Nat) (s : State) :
    ∃ r n, s.logHost type die fn addr = { s with hostLog := s.hostLog.add logCap r, free := n } := ⟨_, _, rfl⟩

theorem add_idx {α : Type} (l : Log α) (cap : Nat) (r : α) : (l.add cap r).idx = l.idx + 1 := by
  unfold Log.add
  split <;> rfl

theorem replayed_pairs (s : State) : s.replayed.pairs = s.pairs := by
  unfold State.replayed
  cases s.journal.head? <;> rfl

/-- What the end of a takeover leaves of the takeovers and of the records that wait. -/
theorem handedOver_effect {v : State} : 
    (if v.takeSch || v.takeSup then v else v.releaseRecords).pairs =
      { v.pairs with heldRecs := if v.takeSch || v.takeSup then v.heldRecs else [] } := by
  split
  · rfl
  · exact releaseRecords_pairs v

theorem takeoverComplete_scheduler {s : State} (hf : s.input.flag = false) (h : s.takeSch = true) :
    ∃ t, exec .takeoverComplete s = .next t ∧
      t.pairs = { s.pairs with takeSch := false, nosch := true, heldRecs := if s.takeSup then s.heldRecs else [] } := by
  obtain ⟨v, hv⟩ : ∃ v : State, v = { s.replayed with takeSch := false, nosch := true } := ⟨_, rfl⟩
  have hpairs : v.pairs = { s.pairs with takeSch := false, nosch := true } := by
    rw [← replayed_pairs s, hv]
    rfl
  refine ⟨if v.takeSch || v.takeSup then v else v.releaseRecords, ?_, ?_⟩
  · change execTakeoverComplete s = _
    unfold execTakeoverComplete
    dsimp only
    rw [hf, h, hv]
    rfl
  · rw [handedOver_effect, hpairs, show v.takeSch = false from congrArg Pairs.takeSch hpairs,
      show v.takeSup = s.takeSup from congrArg Pairs.takeSup hpairs, show v.heldRecs = s.heldRecs from congrArg Pairs.heldRecs hpairs]
    rfl

theorem takeoverComplete_supervisor {s : State} (hf : s.input.flag = true) (h : s.takeSup = true) :
    ∃ t, exec .takeoverComplete s = .next t ∧
      t.pairs = { s.pairs with takeSup := false, nossv := true, heldRecs := if s.takeSch then s.heldRecs else [] } := by
  obtain ⟨v, hv⟩ : ∃ v : State, v = { s.replayed with takeSup := false, nossv := true } := ⟨_, rfl⟩
  have hpairs : v.pairs = { s.pairs with takeSup := false, nossv := true } := by
    rw [← replayed_pairs s, hv]
    rfl
  refine ⟨if v.takeSch || v.takeSup then v else v.releaseRecords, ?_, ?_⟩
  · change execTakeoverComplete s = _
    unfold execTakeoverComplete
    dsimp only
    rw [hf, if_pos rfl, h, hv]
    rfl
  · rw [handedOver_effect, hpairs, show v.takeSup = false from congrArg Pairs.takeSup hpairs,
      show v.takeSch = s.takeSch from congrArg Pairs.takeSch hpairs, show v.heldRecs = s.heldRecs from congrArg Pairs.heldRecs hpairs,
      Bool.or_false]

/-- Whether a failure finds its pair without a standby. -/
def State.pairGone (s : State) : Prop := if s.input.flag then s.nossv = true ∨ s.takeSup = true else s.nosch = true ∨ s.takeSch = true

theorem exec_schedulerTakeover_starts {s : State} (hb : s.boot = .running) (h : ¬s.pairGone) :
    exec .schedulerTakeover s = .next
      (({ s with takeSup := s.takeSup || s.input.flag, takeSch := s.takeSch || !s.input.flag } : State).logHost 4 none none none) := by
  change execSchedulerTakeover s = _
  unfold execSchedulerTakeover State.pairGone at *
  rw [if_neg (not_not.2 hb)]
  cases hf : s.input.flag with
  | true =>
    rw [hf, if_pos rfl, not_or] at h
    rw [if_pos rfl, if_neg (by simpa using h)]
    simp
  | false =>
    rw [hf, if_neg Bool.false_ne_true, not_or] at h
    rw [if_neg Bool.false_ne_true, if_neg (by simpa using h)]
    simp

theorem exec_schedulerTakeover_loses {s : State} (hb : s.boot = .running) (h : s.pairGone) : exec .schedulerTakeover s = .next s.loseAll := by
  change execSchedulerTakeover s = _
  unfold execSchedulerTakeover State.pairGone at *
  rw [if_neg (not_not.2 hb)]
  cases hf : s.input.flag with
  | true =>
    rw [hf, if_pos rfl] at h
    rw [if_pos rfl, if_pos (by simpa using h)]
  | false =>
    rw [hf, if_neg Bool.false_ne_true] at h
    rw [if_neg Bool.false_ne_true, if_pos (by simpa using h)]

theorem takeoverEvents : Claims.TakeoverEvents := by
  intro s hboot gone
  refine ⟨fun h => ?_, fun h => ⟨_, exec_schedulerTakeover_loses hboot h, loseAll_effect s⟩, fun hf h => ?_, fun hf h => ?_⟩
  · refine ⟨_, exec_schedulerTakeover_starts hboot h, rfl, rfl, rfl, rfl, add_idx ..⟩
  · obtain ⟨t, he, ht⟩ := takeoverComplete_scheduler hf h
    have hrecs : t.heldRecs = if s.takeSup then s.heldRecs else [] := congrArg Pairs.heldRecs ht
    exact ⟨t, he, congrArg Pairs.takeSch ht, congrArg Pairs.nosch ht, congrArg Pairs.takeSup ht, fun h => by rw [hrecs, h]; rfl,
      fun h => by rw [hrecs, h]; rfl⟩
  · obtain ⟨t, he, ht⟩ := takeoverComplete_supervisor hf h
    have hrecs : t.heldRecs = if s.takeSch then s.heldRecs else [] := congrArg Pairs.heldRecs ht
    exact ⟨t, he, congrArg Pairs.takeSup ht, congrArg Pairs.nossv ht, congrArg Pairs.takeSch ht, fun h => by rw [hrecs, h]; rfl,
      fun h => by rw [hrecs, h]; rfl⟩

/-! ### The services -/

theorem exec_tickSlip {s : State} {t : Task} (ht : s.task? s.input.ctx s.input.va = some t) (hst : t.st = .running ∨ t.st = .suspended)
    (hv : tcbTickv t.snap = true) (hs : t.slipped = false) (hf : s.frame.toNat = tcbTick t.snap + 100000) :
    exec .tickSlip s = .next ((s.onTask t.ctx t.tcb (fun t => { t with slipped := true })).logEvent t.ctx 1 t.tcb (word (tcbTick t.snap))) := by
  change execTickSlip s = _
  unfold execTickSlip
  rw [ht]
  exact congrArg Host.Outcome.next (if_pos (by simpa [hv, hs, hf] using hst))

theorem tickSlips {s : State} {t : Task} {c : Context} (ht : s.task? s.input.ctx s.input.va = some t) (hc : s.ctx? t.ctx = some c)
    (hst : t.st = .running ∨ t.st = .suspended) (hv : tcbTickv t.snap = true) (hs : t.slipped = false)
    (hf : s.frame.toNat = tcbTick t.snap + 100000) :
    ∃ v c', exec .tickSlip s = .next v ∧ v.ctx? t.ctx = some c' ∧
      c'.events = c.events.add logCap ⟨s.frame.toNat, 1, t.tcb, BitVec.ofNat 64 (tcbTick t.snap)⟩ ∧
      ∀ y ∈ v.tasks, y.ctx = t.ctx → y.tcb = t.tcb → y.slipped = true := by
  have hlog := ctx?_onCtx (s := s.onTask t.ctx t.tcb (fun t => { t with slipped := true })) hc
    (f := fun c => { c with events := c.events.add logCap ⟨s.frame.toNat, 1, t.tcb, word (tcbTick t.snap)⟩ }) (by exact fun _ => rfl)
  refine ⟨_, _, exec_tickSlip ht hst hv hs hf, hlog, rfl, fun y hy hctx htcb => ?_⟩
  obtain ⟨z, -, rfl⟩ := List.mem_map.1 hy
  split at hctx
  · next hz => rw [if_pos hz]
  · next hz =>
    rw [if_neg hz] at htcb
    exact absurd (by simp [hctx, htcb]) hz

theorem joinSuspends {s : State} {t : Task} {d : Reg} {since : Nat} {m : Bool} (hb : s.there.core.a.block = some (.join d since m))
    (ht : s.there.task? s.there.core.a.ctx s.there.core.a.tcb = some t) (hn : t.npend ≠ 0) (hj : s.there.joinChild = none)
    (hf : since + 200 ≤ s.there.frame.toNat) : exec .joinSuspendTimeout s = .next (s.there.heldBy (.suspend (.join d m))) := by
  change execJoinSuspendTimeout s = _
  unfold State.there at *
  unfold execJoinSuspendTimeout State.me?
  dsimp only
  rw [hb, ht]
  exact congrArg Host.Outcome.next (if_pos (by simpa [hn, hj] using hf))

theorem pieceCombines {s : State} {t : Task} {c : Context} {l r : Block'} {x y d : ViewWin} {xs ys : List Granule} {v : State}
    (ht : s.task? s.input.ctx s.input.va = some t) (hc : s.ctx? s.input.ctx = some c) (hp : t.pairAt s.input.first = some (l, r))
    (hpre : c.preempt = none) (hflag : s.input.flag = false) (hx : l.parts[l.done.length]? = some x) (hy : r.parts[l.done.length]? = some y)
    (hop : x.op ≠ 15) (hxs : s.readPiece s.input.ctx x = .ok xs) (hys : s.readPiece s.input.ctx y = .ok ys)
    (hd : l.dest = some d ∨ (l.dest = none ∧ s.placeLike c x = some d))
    (hw : s.writePiece s.input.ctx d ((xs.zip ys).map (fun p => combineGranule x p.1 p.2)) = .ok v) :
    exec .combine s = .next (v.onTask t.ctx t.tcb (fun t => t.pieceDone l.lo d)) := by
  have hdest : l.dest.orElse (fun _ => s.placeLike c x) = some d := by
    rcases hd with h | ⟨h, h'⟩
    · rw [h]
      rfl
    · rw [h]
      exact h'
  change execCombine s = _
  unfold execCombine
  dsimp only
  rw [ht, hc]
  dsimp only
  rw [hp]
  dsimp only
  rw [hpre, hflag, hx, hy]
  simp only [Option.isSome_none, Bool.false_eq_true, if_false]
  rw [if_neg hop, hxs, hys]
  dsimp only
  rw [hdest]
  dsimp only
  rw [hw]

theorem exec_resourceResolution {s : State} {r : ResourceReq} {t : Task} (h1 : s.takeSch = false) (h2 : s.takeSup = false)
    (hr : s.resources[s.input.idx]? = some r) (ht : s.task? r.ctx r.tcb = some t) :
    exec .resourceResolution s = .next (match s.input.flag, r.entry with
      | false, _ => ({ s with resources := listDel s.resources s.input.idx }).endLaunch t.launch 5 (Cause.code .resource) 2 t.tcb 0 (word r.kind) 0
      | true, some (q, _) => s.returnExcess q
      | true, none => if t.wait = some (.resource r.kind) then
          ({ s with resources := listDel s.resources s.input.idx } : State).readyPinned r.ctx r.tcb
        else { s with resources := listDel s.resources s.input.idx }) := by
  change execResourceResolution s = _
  unfold execResourceResolution
  rw [h1, h2]
  simp only [Bool.or_self, Bool.false_eq_true, if_false]
  rw [hr]
  dsimp only
  rw [ht]
  cases s.input.flag with
  | false => rfl
  | true => cases r.entry <;> rfl

theorem startUpdates_tasks (us : List Update) (s : State) : (s.startUpdates us).tasks = s.tasks := by
  induction us generalizing s with
  | nil => rfl
  | cons u rest ih =>
    have hanswer (code : Nat) (s : State) : (s.answer u code).tasks = s.tasks := by
      unfold State.answer
      split <;> rfl
    unfold State.startUpdates
    dsimp only
    split
    · rfl
    · split
      · split
        · rw [ih, hanswer]
          rfl
        · rfl
      · rw [ih, hanswer]

theorem firmwareMap_tasks (ctx : Nat) (ws : List PteWrite) (s : State) : (s.firmwareMap ctx ws).tasks = s.tasks := by
  unfold State.firmwareMap State.submit
  split
  · rfl
  · split
    · exact startUpdates_tasks ..
    · rfl

/-- A suspended task that is woken is READY. -/
theorem readyPinned_ready {s : State} {ctx : Nat} {tcb : Word} {t : Task} (ht : s.task? ctx tcb = some t) (hst : t.st = .suspended) :
    ∃ y ∈ (s.readyPinned ctx tcb).tasks, y.ctx = ctx ∧ y.tcb = tcb ∧ y.st = .ready := by
  obtain ⟨rfl, rfl⟩ := of_task? ht
  have hmem := List.mem_of_find?_eq_some ht
  have hready (q : QueueRef) : ∃ y ∈ (s.enqueue q t.ctx t.tcb).tasks, y.ctx = t.ctx ∧ y.tcb = t.tcb ∧ y.st = .ready := by
    obtain ⟨y, hy, rfl⟩ := enqueue_ready q hmem
    exact ⟨_, hy, rfl, rfl, rfl⟩
  unfold State.readyPinned
  rw [ht]
  dsimp only
  rw [if_pos hst]
  cases t.pinned with
  | some c => exact hready _
  | none => exact hready _

theorem pageResolves {s : State} {t : Task} {x : Word} (h2 : s.takeSup = false) (ht : s.task? s.input.ctx s.input.va = some t)
    (hw : t.wait = some (.page x)) (hst : t.st = .suspended) (hm : s.firmwareMakes s.input.ctx s.input.ptes = true)
    (hx : (s.firmwareMap s.input.ctx s.input.ptes).isMapped s.input.ctx x = true) :
    ∃ v, exec .pageFaultResolution s = .next v ∧ ∃ y ∈ v.tasks, y.ctx = t.ctx ∧ y.tcb = t.tcb ∧ y.st = .ready := by
  obtain ⟨hctx, htcb⟩ := of_task? ht
  have ht' : (s.firmwareMap s.input.ctx s.input.ptes).task? s.input.ctx s.input.va = some t := by
    unfold State.task? at ht ⊢
    rwa [firmwareMap_tasks]
  rw [hctx, htcb]
  refine ⟨_, ?_, readyPinned_ready ht' hst⟩
  change execPageFaultResolution s = _
  unfold execPageFaultResolution
  dsimp only
  rw [h2, hm, ht']
  simp only [Bool.not_true, Bool.or_self, Bool.false_eq_true, if_false]
  rw [hw]
  exact congrArg Host.Outcome.next (if_pos (by rw [hst, hx]; rfl))

theorem taskServiceEvents : Claims.TaskServiceEvents := by
  intro s u i
  refine ⟨fun t c ht hc hst hv hs hf => tickSlips ht hc hst hv hs hf, fun t d since m hb ht hn hj hf => joinSuspends hb ht hn hj hf,
    fun t c l r x y xs ys d v ht hc hp hpre hflag hx hy hop hxs hys hd hw => pieceCombines ht hc hp hpre hflag hx hy hop hxs hys hd hw,
    fun r t h1 h2 hr ht => ?_, fun t x h2 ht hw hst hm hx => pageResolves h2 ht hw hst hm hx⟩
  have hexec := exec_resourceResolution h1 h2 hr ht
  refine ⟨fun hf hl => ?_, ?_, fun q n hf he => ?_⟩
  · obtain ⟨l, hl⟩ := Option.ne_none_iff_exists'.1 hl
    rw [hf] at hexec
    exact ⟨_, hexec, (endLaunch_gone (s := { s with resources := listDel s.resources i.idx }) hl ..).1⟩
  · intro v hf he
    rw [hf, he] at hexec
    exact hexec
  · rw [hf, he] at hexec
    exact hexec

/-- Settles O42. -/
theorem taskServiceAndTakeover : Obligations.TaskServiceAndTakeover := ⟨taskServiceEvents, takeoverEvents⟩

end Sys2Proof.Machine
end

section
/-!
LEMMAS. The windows of host software: spawn windows, the aperture and its registers (spec/16 R327, R328, R331, R337).
-/
open Sys2Proof
namespace Sys2Proof.Machine

/-! ### Spawn windows -/

theorem stream?_onAny {s : State} {n m : Nat} {x : Stream} (h : s.stream? n = some x) {f : Stream → Stream} (hf : ∀ y, (f y).num = y.num) :
    (s.onStream m f).stream? n = some (if x.num = m then f x else x) := by
  have hsame : ((fun y : Stream => decide (y.num = n)) ∘ fun y => if y.num = m then f y else y) = fun y => decide (y.num = n) := by
    funext y
    change decide ((if y.num = m then f y else y).num = n) = _
    split
    · rw [hf]
    · rfl
  unfold State.stream? at h ⊢
  change (s.streams.map (fun y => if y.num = m then f y else y)).find? _ = _
  rw [List.find?_map, hsame, h, Option.map_some]

theorem stream?_onStream {s : State} {n : Nat} {x : Stream} (h : s.stream? n = some x) {f : Stream → Stream} (hf : ∀ y, (f y).num = y.num) :
    (s.onStream n f).stream? n = some (f x) := by
  have hnum : x.num = n := by simpa using List.find?_some h
  rw [stream?_onAny h hf, if_pos hnum]

/-- A discarded write of a function to a stream of its own is logged and counts. -/
theorem discardSpawn_own {s : State} {fn n : Nat} {x : Stream} (hx : s.stream? n = some x) (hr : s.reaches fn n = true) :
    (s.discardSpawn fn n).stream? n = some { x with ovf := min 65535 (x.ovf + 1) } ∧
    (s.discardSpawn fn n).hostLog.idx = s.hostLog.idx + 1 := by
  unfold State.discardSpawn
  rw [hr]
  exact ⟨stream?_onStream (f := fun x => { x with ovf := min 65535 (x.ovf + 1) }) hx (by exact fun _ => rfl), add_idx ..⟩

/-- A discarded write to another's stream is logged and counts nowhere. -/
theorem discardSpawn_other {s : State} {fn n : Nat} (hr : s.reaches fn n = false) :
    (s.discardSpawn fn n).streams = s.streams ∧ (s.discardSpawn fn n).hostLog.idx = s.hostLog.idx + 1 := by
  unfold State.discardSpawn
  rw [hr]
  exact ⟨rfl, add_idx ..⟩

theorem hasWindow_of_reaches {s : State} {fn n : Nat} (h : s.reaches fn n = true) : s.hasWindow fn n = true := by
  unfold State.hasWindow
  rw [h, Bool.or_true]

theorem exec_spawnWindowWrite {s : State} (hw : s.hasWindow s.input.fn s.input.stream = true) (hoff : s.ready = false ∨ s.input.off < 0x80) :
    exec .spawnWindowWrite s = .next (match s.stream? s.input.stream with
      | none => s.discardSpawn s.input.fn s.input.stream
      | some x =>
        if s.ready && s.reaches s.input.fn s.input.stream && s.input.off = 0 && s.input.bytes.length = 128 && decide (x.roots.length < 64) then
          { s.onStream s.input.stream (fun x => { x with roots := x.roots ++ [BitVec.ofNat 1024 (natOfBytes s.input.bytes)] }) with
            bitmap := if s.bitmap.contains s.input.stream then s.bitmap else s.bitmap ++ [s.input.stream] }
        else s.discardSpawn s.input.fn s.input.stream) := by
  have hcond : ¬(!s.hasWindow s.input.fn s.input.stream || (s.ready && decide (0x80 ≤ s.input.off))) = true := by
    rw [hw]
    rcases hoff with h | h
    · simp [h]
    · simp [Nat.not_le.2 h]
  change execSpawnWindowWrite s = _
  unfold execSpawnWindowWrite
  dsimp only
  refine congrArg Host.Outcome.next ((if_neg hcond).trans ?_)
  cases s.stream? s.input.stream <;> rfl

section
variable {s : State} {x : Stream} (hx : s.stream? s.input.stream = some x) (hr : s.reaches s.input.fn s.input.stream = true)
include hx hr

theorem spawnWrite_taken (hready : s.ready = true) (hoff : s.input.off = 0) (hn : s.input.bytes.length = 128) (hroom : x.roots.length < 64) :
    ∃ t x', exec .spawnWindowWrite s = .next t ∧ t.stream? s.input.stream = some x' ∧
      x'.roots = x.roots ++ [BitVec.ofNat 1024 (natOfBytes s.input.bytes)] ∧ x'.ovf = x.ovf ∧ s.input.stream ∈ t.bitmap := by
  have hexec := exec_spawnWindowWrite (hasWindow_of_reaches hr) (.inr (by omega))
  rw [hx] at hexec
  dsimp only at hexec
  rw [if_pos (by simp [hready, hr, hoff, hn, hroom])] at hexec
  refine ⟨_, { x with roots := x.roots ++ [BitVec.ofNat 1024 (natOfBytes s.input.bytes)] }, hexec, ?_, rfl, rfl, ?_⟩
  · exact stream?_onStream (f := fun x => { x with roots := x.roots ++ [BitVec.ofNat 1024 (natOfBytes s.input.bytes)] }) hx (by exact fun _ => rfl)
  · change s.input.stream ∈ (if s.bitmap.contains s.input.stream then s.bitmap else s.bitmap ++ [s.input.stream])
    split
    · next h => simpa using h
    · simp

theorem spawnWrite_discarded (h : s.ready = false ∨ (s.input.off < 0x80 ∧ (s.input.off ≠ 0 ∨ s.input.bytes.length ≠ 128 ∨ 64 ≤ x.roots.length))) :
    exec .spawnWindowWrite s = .next (s.discardSpawn s.input.fn s.input.stream) := by
  have hexec := exec_spawnWindowWrite (hasWindow_of_reaches hr) (h.imp_right And.left)
  rw [hx] at hexec
  dsimp only at hexec
  rw [if_neg ?_] at hexec
  · exact hexec
  · simp only [Bool.and_eq_true, decide_eq_true_eq]
    rintro ⟨⟨⟨⟨hready, -⟩, hoff⟩, hn⟩, hroom⟩
    rcases h with h | ⟨-, h⟩
    · rw [h] at hready
      exact nomatch hready
    · omega

end

theorem exec_consumedWrite (s : State) : exec .consumedWrite s = .next (if !s.hasWindow s.input.fn s.input.stream then s
    else if !s.ready then s.discardSpawn s.input.fn s.input.stream
    else if s.reaches s.input.fn s.input.stream then s.onStream s.input.stream (fun x => { x with consumed := s.input.value.toNat })
    else s) := rfl

theorem ownWindow {s : State} {x : Stream} (hx : s.stream? s.input.stream = some x) (hr : s.reaches s.input.fn s.input.stream = true) :
    (s.ready = false ∨ (s.input.off < 0x80 ∧ (s.input.off ≠ 0 ∨ s.input.bytes.length ≠ 128 ∨ 64 ≤ x.roots.length)) →
      ∃ t x', exec .spawnWindowWrite s = .next t ∧ t.stream? s.input.stream = some x' ∧ x'.roots = x.roots ∧
        x'.ovf = min 65535 (x.ovf + 1) ∧ t.hostLog.idx = s.hostLog.idx + 1) ∧
    (s.ready = true → exec .consumedWrite s = .next (s.onStream s.input.stream (fun x => { x with consumed := s.input.value.toNat }))) ∧
    (s.ready = false → ∃ t, exec .consumedWrite s = .next t ∧
      t.stream? s.input.stream = some { x with ovf := min 65535 (x.ovf + 1) } ∧ t.hostLog.idx = s.hostLog.idx + 1) := by
  obtain ⟨hd, hlog⟩ := discardSpawn_own hx hr
  have hw := hasWindow_of_reaches hr
  refine ⟨fun h => ⟨_, _, spawnWrite_discarded hx hr h, hd, rfl, rfl, hlog⟩, fun h => ?_, fun h => ⟨_, ?_, hd, hlog⟩⟩
  · rw [exec_consumedWrite, hw, h, hr]
    rfl
  · rw [exec_consumedWrite, hw, h]
    rfl

theorem otherWindow {s : State} (hw : s.hasWindow s.input.fn s.input.stream = true) (hr : s.reaches s.input.fn s.input.stream = false) :
    (s.ready = false ∨ s.input.off < 0x80 → ∃ t, exec .spawnWindowWrite s = .next t ∧ t.streams = s.streams ∧
      t.hostLog.idx = s.hostLog.idx + 1) ∧
    (s.ready = true → exec .consumedWrite s = .next s) := by
  refine ⟨fun h => ⟨_, (exec_spawnWindowWrite hw h).trans (congrArg Host.Outcome.next ?_), discardSpawn_other hr⟩, fun h => ?_⟩
  · cases s.stream? s.input.stream with
    | none => rfl
    | some x =>
      dsimp only
      rw [if_neg (by simp [hr])]
  · rw [exec_consumedWrite, hw, h, hr]
    rfl

theorem noWindow {s : State} (hw : s.hasWindow s.input.fn s.input.stream = false) :
    exec .spawnWindowWrite s = .next s ∧ exec .consumedWrite s = .next s := by
  refine ⟨?_, ?_⟩
  · change execSpawnWindowWrite s = _
    unfold execSpawnWindowWrite
    dsimp only
    rw [hw]
    rfl
  · rw [exec_consumedWrite, hw]
    rfl

theorem pastSlot {s : State} (h : s.ready = true) (hoff : 0x80 ≤ s.input.off) : exec .spawnWindowWrite s = .next s := by
  change execSpawnWindowWrite s = _
  unfold execSpawnWindowWrite
  dsimp only
  exact congrArg Host.Outcome.next (if_pos (by simp [h, hoff]))

/-! ### The registers of the aperture -/

theorem apertureSizes_contains (fn n : Nat) : (apertureSizes fn).contains n = true ↔ ∃ k, k < (if fn = 0 then 12 else 9) ∧ n = 2 ^ (30 + k) := by
  simp [apertureSizes, eq_comm]

/-- The state with the aperture of the function resized, where the size is legal. -/
def State.resized (s : State) : State :=
  if (apertureSizes s.input.fn).contains s.input.len then { s with apsize := tblPut s.apsize s.input.fn s.input.len } else s

theorem resized_size {s : State} {size : Nat}
    (h : ((∃ k, k < (if s.input.fn = 0 then 12 else 9) ∧ s.input.len = 2 ^ (30 + k)) ∧ size = s.input.len) ∨
      (¬(∃ k, k < (if s.input.fn = 0 then 12 else 9) ∧ s.input.len = 2 ^ (30 + k)) ∧ size = s.apertureSize s.input.fn)) :
    s.resized.apertureSize s.input.fn = size ∧ s.resized.mem = s.mem := by
  unfold State.resized
  rcases h with ⟨hl, rfl⟩ | ⟨hl, rfl⟩
  · rw [if_pos ((apertureSizes_contains ..).2 hl)]
    refine ⟨?_, rfl⟩
    unfold State.apertureSize
    rw [tblGet_tblPut, if_pos rfl]
    rfl
  · rw [if_neg (fun hc => hl ((apertureSizes_contains ..).1 hc))]
    exact ⟨rfl, rfl⟩

/-- The base that a register takes: a multiple of the aperture's size. -/
def State.baseGiven (s : State) : Word :=
  word (s.input.value.toNat / s.resized.apertureSize s.input.fn * s.resized.apertureSize s.input.fn)

theorem exec_registerWrite {s : State} (hl : s.linkUp = true) : exec .registerWrite s = .next (match s.input.reg with
    | .apbase => if s.input.fn = 0 then { s.resized with apbase := tblPut s.resized.apbase 0 s.baseGiven } else s
    | .vbase => if s.input.fn = 0 then s else { s.resized with vbase := tblPut s.resized.vbase s.input.fn s.baseGiven }) := by
  change execRegisterWrite s = _
  unfold execRegisterWrite
  dsimp only
  rw [hl]
  cases s.input.reg <;> rfl

theorem registerTakes {s : State} (hl : s.linkUp = true) {size : Nat}
    (h : ((∃ k, k < (if s.input.fn = 0 then 12 else 9) ∧ s.input.len = 2 ^ (30 + k)) ∧ size = s.input.len) ∨
      (¬(∃ k, k < (if s.input.fn = 0 then 12 else 9) ∧ s.input.len = 2 ^ (30 + k)) ∧ size = s.apertureSize s.input.fn)) :
    (s.input.fn = 0 → s.input.reg = .apbase → ∃ t, exec .registerWrite s = .next t ∧
      tblGet t.apbase 0 = some (word (s.input.value.toNat / size * size)) ∧ t.apertureSize 0 = size ∧ t.mem = s.mem) ∧
    (s.input.fn ≠ 0 → s.input.reg = .vbase → ∃ t, exec .registerWrite s = .next t ∧
      tblGet t.vbase s.input.fn = some (word (s.input.value.toNat / size * size)) ∧ t.apertureSize s.input.fn = size ∧ t.mem = s.mem) ∧
    ((s.input.fn = 0 ∧ s.input.reg = .vbase) ∨ (s.input.fn ≠ 0 ∧ s.input.reg = .apbase) → exec .registerWrite s = .next s) := by
  obtain ⟨hsize, hmem⟩ := resized_size h
  have hexec := exec_registerWrite hl
  unfold State.baseGiven at hexec
  rw [hsize] at hexec
  refine ⟨fun hf hr => ?_, fun hf hr => ?_, ?_⟩
  · rw [hr] at hexec
    dsimp only at hexec
    rw [if_pos hf] at hexec
    refine ⟨_, hexec, ?_, ?_, hmem⟩
    · dsimp only
      rw [tblGet_tblPut, if_pos rfl]
    · rw [← hf]
      exact hsize
  · rw [hr] at hexec
    dsimp only at hexec
    rw [if_neg hf] at hexec
    refine ⟨_, hexec, ?_, hsize, hmem⟩
    dsimp only
    rw [tblGet_tblPut, if_pos rfl]
  · rintro (⟨hf, hr⟩ | ⟨hf, hr⟩)
    · rw [hr] at hexec
      dsimp only at hexec
      rwa [if_pos hf] at hexec
    · rw [hr] at hexec
      dsimp only at hexec
      rwa [if_neg hf] at hexec

/-! ### Reads and writes of the aperture -/

/-- The places of an aperture access. -/
def State.aperturePas (s : State) (n : Nat) : List (Option Nat) :=
  (List.range n).map (fun j => s.aperturePa s.input.fn s.input.ctx (s.input.off + j))

theorem aperturePas_any_none {s : State} {n : Nat} :
    (s.aperturePas n).any (fun p => p.isNone) = true ↔ ∃ j, j < n ∧ s.aperturePa s.input.fn s.input.ctx (s.input.off + j) = none := by
  simp [State.aperturePas]

theorem apertureWrite_unreachable {s : State} (hl : s.linkUp = true)
    (h : ∃ j, j < s.input.bytes.length ∧ s.aperturePa s.input.fn s.input.ctx (s.input.off + j) = none) :
    exec .apertureWrite s = .next (s.logHost 2 none (some s.input.fn) (some s.input.off)) := by
  have hany := aperturePas_any_none.2 h
  unfold State.aperturePas at hany
  change execApertureWrite s = _
  unfold execApertureWrite
  dsimp only
  rw [hl, hany]
  rfl

theorem apertureRead_unreachable {s : State} (hl : s.linkUp = true)
    (h : ∃ j, j < s.input.len ∧ s.aperturePa s.input.fn s.input.ctx (s.input.off + j) = none) :
    exec .apertureRead s = .next { s.logHost 2 none (some s.input.fn) (some s.input.off) with hostRead := .unsupported } := by
  have hany := aperturePas_any_none.2 h
  unfold State.aperturePas at hany
  change execApertureRead s = _
  unfold execApertureRead
  dsimp only
  rw [hl, hany]
  rfl

section
variable {s : State} {n : Nat} {dst : Nat → Nat}
  (h : ∀ j, j < n → s.aperturePa s.input.fn s.input.ctx (s.input.off + j) = some (dst j) ∧ isPoison (s.granule (dst j)).2 = false)
include h

theorem aperturePas_eq : s.aperturePas n = (List.range n).map (fun j => some (dst j)) :=
  List.map_congr_left fun j hj => (h j (List.mem_range.1 hj)).1

theorem aperturePas_any : (s.aperturePas n).any (fun p => p.isNone) = false := by
  rw [aperturePas_eq h]
  simp

end

theorem apertureRead_data {s : State} (hl : s.linkUp = true) {dst : Nat → Nat}
    (h : ∀ j, j < s.input.len → s.aperturePa s.input.fn s.input.ctx (s.input.off + j) = some (dst j) ∧ isPoison (s.granule (dst j)).2 = false) :
    exec .apertureRead s = .next { s with hostRead := .data ((List.range s.input.len).map (fun j => cellGet 0 s.mem (dst j))) } := by
  have hany := aperturePas_any h
  have hpas : (s.aperturePas s.input.len).filterMap id = (List.range s.input.len).map dst := by
    rw [aperturePas_eq h, List.filterMap_map]
    exact congrFun (List.filterMap_eq_map (f := dst)) _
  have hbad : ((List.range s.input.len).map dst).find? (fun pa => isPoison (s.granule pa).2) = none := by
    rw [List.find?_eq_none]
    intro pa hpa
    obtain ⟨j, hj, rfl⟩ := List.mem_map.1 hpa
    exact Bool.eq_false_iff.1 (h j (List.mem_range.1 hj)).2
  have hbytes : ((List.range s.input.len).map dst).map (fun pa => if isPoison (s.granule pa).2 then (0xFF : Byte) else cellGet 0 s.mem pa) =
      (List.range s.input.len).map (fun j => cellGet 0 s.mem (dst j)) := by
    rw [List.map_map]
    refine List.map_congr_left fun j hj => ?_
    exact if_neg (Bool.eq_false_iff.1 (h j (List.mem_range.1 hj)).2)
  unfold State.aperturePas at hany hpas
  change execApertureRead s = _
  unfold execApertureRead
  dsimp only
  rw [hl, hany, hpas, hbad, hbytes]
  rfl

/-- A granule is poisoned as a whole. -/
theorem granule_tag_base (s : State) (pa : Nat) : (s.granule (64 * (pa / 64))).2 = (s.granule pa).2 := by
  have hdiv : 64 * (pa / 64) / 64 = pa / 64 := by omega
  have hlt : 64 * (pa / 64) < 2 ^ 51 ↔ pa < 2 ^ 51 := by omega
  unfold State.granule
  simp only [hdiv, hlt]

/-- A write with a RAW tag leaves no granule poisoned that was not. -/
theorem writeRaw_clean {s : State} (hw : Memory.tagsWf s.memTags = true) (cells : List (Nat × Byte)) (g : Nat) {pa : Nat}
    (h : isPoison (s.granule pa).2 = false) : isPoison ((s.writePhys cells [(g, 0)]).granule pa).2 = false := by
  unfold State.granule at h ⊢
  dsimp only at h ⊢
  split
  · next hlt =>
    rw [if_pos hlt] at h
    have htag : cellGet 0 (s.writePhys cells [(g, 0)]).memTags (pa / 64) = if g = pa / 64 then 0 else cellGet 0 s.memTags (pa / 64) := by
      refine (cellGet_cellSets 0 _ _ _ hw).trans ?_
      refine (readAfter_filter 0 s.memTags [(g, (0 : Word))] (fun n => n < 2 ^ 45) _ (decide_eq_true (by omega))).trans ?_
      by_cases hg : g = pa / 64
      · simp [readAfter, hg]
      · simp [readAfter, hg]
    rw [htag]
    split
    · rfl
    · exact h
  · rfl

/-- The cells of the bytes of some indices. -/
def cellsAt (dst : Nat → Nat) (bs : List Byte) (js : List Nat) : List (Nat × Byte) := js.map (fun j => (dst j, bs.getD j 0))

/-- One part of an aperture write. -/
def State.aperturePart (fn : Nat) (cells : List (Nat × Byte)) (s : State) : State :=
  match cells with
  | [] => s
  | c :: _ => s.apertureGranule fn c.1 cells

section
variable {n : Nat} {dst : Nat → Nat} {bs : List Byte} {fn : Nat}

/-- Parts that meet no poison are written one after another. -/
theorem apertureParts_written (parts : List (List Nat)) (hp : ∀ js ∈ parts, ∀ j ∈ js, j < n) (s : State) (hw : Memory.tagsWf s.memTags = true)
    (hc : ∀ j, j < n → isPoison (s.granule (dst j)).2 = false) :
    (parts.foldl (fun s js => s.aperturePart fn (cellsAt dst bs js)) s).mem = cellSets 0 s.mem (cellsAt dst bs parts.flatten) := by
  induction parts generalizing s with
  | nil => rfl
  | cons js parts ih =>
    have hrest := ih (fun js' hjs' => hp js' (List.mem_cons_of_mem _ hjs'))
    cases js with
    | nil => exact hrest s hw hc
    | cons j js =>
      have hj : j < n := hp _ (List.mem_cons_self ..) j (List.mem_cons_self ..)
      have hpart : s.aperturePart fn (cellsAt dst bs (j :: js)) = s.writePhys (cellsAt dst bs (j :: js)) [(dst j / 64, 0)] := by
        refine if_neg ?_
        rw [granule_tag_base]
        change ¬(isPoison (s.granule (dst j)).2 && _) = true
        rw [hc j hj]
        exact Bool.false_ne_true
      have hv := hrest (s.writePhys (cellsAt dst bs (j :: js)) [(dst j / 64, 0)]) (cellSets_wf _ _ _ hw)
        (fun k hk => writeRaw_clean hw _ _ (hc k hk))
      rw [List.foldl_cons, hpart, hv]
      unfold cellSets cellsAt
      rw [List.flatten_cons, List.map_append, List.foldl_append]
      rfl

/-- Bytes written to places of their own are read there. -/
theorem readAfter_cellsAt (m : List (Nat × Byte)) (js : List Nat) (hinj : ∀ j ∈ js, ∀ k ∈ js, dst j = dst k → j = k) :
    (∀ j ∈ js, readAfter 0 m (cellsAt dst bs js) (dst j) = bs.getD j 0) ∧
    ∀ a, (∀ j ∈ js, dst j ≠ a) → readAfter 0 m (cellsAt dst bs js) a = cellGet 0 m a := by
  refine ⟨fun j hj => ?_, fun a ha => ?_⟩
  · have hmem : (dst j, bs.getD j 0) ∈ (cellsAt dst bs js).reverse := List.mem_reverse.2 (List.mem_map.2 ⟨j, hj, rfl⟩)
    unfold readAfter
    cases hf : (cellsAt dst bs js).reverse.find? (fun x => x.1 = dst j) with
    | none => exact absurd (decide_eq_true rfl) (List.find?_eq_none.1 hf _ hmem)
    | some c =>
      have hc : c.1 = dst j := by simpa using List.find?_some hf
      obtain ⟨k, hk, rfl⟩ := List.mem_map.1 (List.mem_reverse.1 (List.mem_of_find?_eq_some hf))
      obtain rfl := hinj k hk j hj hc
      rfl
  · unfold readAfter
    have hf : (cellsAt dst bs js).reverse.find? (fun x => x.1 = a) = none := by
      rw [List.find?_eq_none]
      intro c hc
      obtain ⟨k, hk, rfl⟩ := List.mem_map.1 (List.mem_reverse.1 hc)
      simpa using ha k hk
    rw [hf]
    rfl

end

/-- Every byte of an access lies in one of its parts, and no part has more. -/
theorem mem_apertureParts (off n j : Nat) : j ∈ ((apertureParts off n).map Prod.snd).flatten ↔ j < n := by
  simp only [apertureParts, List.map_map, List.mem_flatten, List.mem_map, Function.comp]
  constructor
  · rintro ⟨l, ⟨g, -, rfl⟩, hj⟩
    exact List.mem_range.1 (List.mem_filter.1 hj).1
  · intro hj
    have hg : max off ((off + j) / 64 * 64) / 64 = (off + j) / 64 := by omega
    refine ⟨_, ⟨max off ((off + j) / 64 * 64), List.mem_map.2 ⟨(off + j) / 64 - off / 64, List.mem_range.2 (by omega), ?_⟩, rfl⟩,
      List.mem_filter.2 ⟨List.mem_range.2 hj, decide_eq_true hg.symm⟩⟩
    rw [Nat.add_sub_cancel' (Nat.div_le_div_right (Nat.le_add_right ..))]

/-- The cells of a part whose bytes all have a place. -/
theorem filterMap_cells {n : Nat} {dst : Nat → Nat} {bs : List Byte} (hn : bs.length = n) (js : List Nat) (hj : ∀ j ∈ js, j < n) :
    js.filterMap (fun j => ((((List.range n).map (fun j => some (dst j))).getD j none).bind (fun pa => (bs[j]?).map (fun b => (pa, b))))) =
      cellsAt dst bs js := by
  rw [cellsAt, show js.map (fun j => (dst j, bs.getD j 0)) = js.filterMap (some ∘ fun j => (dst j, bs.getD j 0)) from
    (congrFun List.filterMap_eq_map js).symm]
  refine List.filterMap_congr fun j hjs => ?_
  have hlt := hj j hjs
  simp [hlt, hn]

theorem apertureWrite_bytes {s : State} (hl : s.linkUp = true) {dst : Nat → Nat} (hw : Memory.wf s.mem = true)
    (hwt : Memory.tagsWf s.memTags = true)
    (h : ∀ j, j < s.input.bytes.length → s.aperturePa s.input.fn s.input.ctx (s.input.off + j) = some (dst j) ∧
      isPoison (s.granule (dst j)).2 = false)
    (hinj : ∀ j k, j < s.input.bytes.length → k < s.input.bytes.length → dst j = dst k → j = k) :
    ∃ t, exec .apertureWrite s = .next t ∧ (∀ j, j < s.input.bytes.length → cellGet 0 t.mem (dst j) = s.input.bytes.getD j 0) ∧
      ∀ a, (∀ j, j < s.input.bytes.length → dst j ≠ a) → cellGet 0 t.mem a = cellGet 0 s.mem a := by
  obtain ⟨parts, hparts⟩ : ∃ parts, parts = (apertureParts s.input.off s.input.bytes.length).map Prod.snd := ⟨_, rfl⟩
  have hmem (j : Nat) : j ∈ parts.flatten ↔ j < s.input.bytes.length := by
    rw [hparts]
    exact mem_apertureParts ..
  have hlt : ∀ js ∈ parts, ∀ j ∈ js, j < s.input.bytes.length := fun js hjs j hj => (hmem j).1 (List.mem_flatten.2 ⟨js, hjs, hj⟩)
  have hany := aperturePas_any h
  have hexec : exec .apertureWrite s = .next (parts.foldl (fun s' js => s'.aperturePart s.input.fn (cellsAt dst s.input.bytes js)) s) := by
    have hpas := aperturePas_eq h
    unfold State.aperturePas at hany hpas
    change execApertureWrite s = _
    unfold execApertureWrite
    dsimp only
    rw [hl, hany, hpas, hparts]
    simp only [Bool.not_true, Bool.false_eq_true, if_false]
    rw [List.foldl_map]
    refine congrArg Host.Outcome.next (List.foldl_ext _ _ _ fun v p hp => ?_)
    rw [filterMap_cells rfl p.2 (hlt p.2 (hparts ▸ List.mem_map_of_mem hp))]
    unfold State.aperturePart
    cases cellsAt dst s.input.bytes p.2 <;> rfl
  have hread := apertureParts_written (fn := s.input.fn) (bs := s.input.bytes) parts hlt s hwt (fun j hj => (h j hj).2)
  obtain ⟨hin, hout⟩ := readAfter_cellsAt (bs := s.input.bytes) s.mem parts.flatten
    (fun j hj k hk => hinj j k ((hmem j).1 hj) ((hmem k).1 hk))
  refine ⟨_, hexec, fun j hj => ?_, fun a ha => ?_⟩
  · rw [hread, cellGet_cellSets 0 _ _ _ hw]
    exact hin j ((hmem j).2 hj)
  · rw [hread, cellGet_cellSets 0 _ _ _ hw]
    exact hout a fun j hj => ha j ((hmem j).1 hj)

theorem aperturePa_running {s : State} (hb : s.boot ≠ .awaiting) (ctx o : Nat) : s.aperturePa 0 ctx o =
    if o < s.apertureSize 0 ∧ s.populated (((tblGet s.apbase 0).getD 0).toNat + o) = true then
      some (((tblGet s.apbase 0).getD 0).toNat + o) else none := by
  unfold State.aperturePa
  rw [if_pos rfl, if_neg hb]
  by_cases ho : o < s.apertureSize 0
  · rw [if_neg (Nat.not_le.2 ho)]
    simp only [ho, true_and]
  · rw [if_pos (Nat.not_lt.1 ho), if_neg (fun h => ho h.1)]

theorem aperturePa_booting {s : State} (hb : s.boot = .awaiting) (ctx o : Nat) : s.aperturePa 0 ctx o =
    if o < s.apertureSize 0 ∧ o < 2 ^ 26 then some (s.bootWindow + o) else none := by
  unfold State.aperturePa
  rw [if_pos rfl, if_pos hb]
  by_cases ho : o < s.apertureSize 0
  · rw [if_neg (Nat.not_le.2 ho)]
    simp only [ho, true_and]
  · rw [if_pos (Nat.not_lt.1 ho), if_neg (fun h => ho h.1)]

theorem hostWindowAccess : Claims.HostWindowAccess := by
  intro s i n base
  refine ⟨fun x hx hr => ⟨fun hready hoff hn hroom => spawnWrite_taken hx hr hready hoff hn hroom, ownWindow hx hr⟩,
    fun hw hr => otherWindow hw hr, fun hw => noWindow hw, fun h hoff => pastSlot h hoff,
    fun hl => ⟨fun at_ hw hwt h hinj => apertureWrite_bytes hl hw hwt h hinj, fun h => ⟨_, apertureWrite_unreachable hl h, rfl, rfl, add_idx ..⟩,
      fun at_ h => apertureRead_data hl h, fun h => ⟨_, apertureRead_unreachable hl h, rfl, rfl⟩, fun hb o => ?_, fun hb o => ?_⟩,
    fun hl size h => registerTakes hl h⟩
  · exact aperturePa_running hb i.ctx o
  · exact aperturePa_booting hb i.ctx o

end Sys2Proof.Machine
end

section
/-!
LEMMAS. The mailbox commands of host software (spec/16 R326 to R335).
-/
open Sys2Proof
namespace Sys2Proof.Machine

/-! ### Answers -/

/-- Whether a machine has answered the command of the input latch, and it alone. -/
def State.answered (s : State) (fn code : Nat) (t : State) : Prop :=
  ∃ m, t.mail = s.mail ++ [m] ∧ m.fn = fn ∧ m.seq = s.input.seq ∧ m.code = code

theorem respond_answered {s v : State} (hm : v.mail = s.mail) (hi : v.input = s.input) (fn code : Nat) :
    s.answered fn code (v.respond fn code) :=
  ⟨_, congrArg (· ++ [_]) hm, rfl, congrArg Input.seq hi, rfl⟩

theorem respond_board {s v : State} (h : v.board.2 = s.board.2) (fn code : Nat) : s.answered fn code (v.respond fn code) :=
  respond_answered (congrArg Prod.fst h) (congrArg (fun b => b.2.2) h) fn code

/-- A command that a function may not give changes nothing but the answer. -/
def State.refuses (s : State) (e : Instr) : Prop :=
  ∃ t, exec e s = .next t ∧ s.answered s.input.fn 1 t ∧ t.ctxs = s.ctxs ∧ t.streams = s.streams ∧ t.tasks = s.tasks ∧ t.mem = s.mem

theorem refuses_of_exec {s : State} {e : Instr} (h : exec e s = .next (s.respond s.input.fn 1)) : s.refuses e :=
  ⟨_, h, respond_answered rfl rfl .., rfl, rfl, rfl, rfl⟩

theorem owns_iff {s : State} {fn ctx : Nat} {c : Context} (hc : s.ctx? ctx = some c) (hready : s.ready = true) :
    s.owns fn ctx = true ↔ c.owner = fn := by
  unfold State.owns
  rw [hc, hready]
  simp

theorem owns_self {s : State} {ctx : Nat} {c : Context} (hc : s.ctx? ctx = some c) (hready : s.ready = true) : s.owns c.owner ctx = true :=
  (owns_iff hc hready).2 rfl

/-! ### Firmware and contexts -/

/-- The dies that a command names and that are enabled. -/
def State.namedDies (s : State) : List Nat := (List.range 8).filter (fun d => s.input.ctxp.dies.contains d && (s.die d).enabled)

/-- A context as CTXCREATE makes it. -/
def State.contextMade (s : State) : Context :=
  { num := s.input.ctxp.ctx, owner := s.input.ctxp.owner, bind := s.namedDies.map (fun d => (d, s.enabledCores d)),
    replicas := s.enabledDies.map (fun d => (d, [])), stale := [], timeout := 2000, age := 100000, hang := 200000000,
    collDefault := 200000, prog := s.input.ctxp.prog, save := s.input.ctxp.save, viewPool := s.input.ctxp.viewPool,
    faultPool := s.input.ctxp.faultPool, peers := s.input.ctxp.peers, exportWin := s.input.ctxp.exportWin, events := Log.empty,
    preempt := none, image := none }

section
variable {s : State} (hb : s.mailBusy s.input.fn = false)

theorem fwload_given (hf : s.input.fn = 0) (hboot : s.boot = .awaiting ∨ s.boot = .imageRefused) (hlen : s.input.len ≤ 2 ^ 26) :
    ∃ t, exec .fwload s = .next t ∧ t.boot = (if s.input.flag then .running else .imageRefused) ∧
      s.answered s.input.fn (if s.input.flag then 0 else 1) t := by
  have hcond : ¬(decide (s.input.fn ≠ 0) || !(decide (s.boot = .awaiting) || decide (s.boot = .imageRefused)) || decide (2 ^ 26 < s.input.len)) = true := by
    have hlt : ¬2 ^ 26 < s.input.len := Nat.not_lt.2 hlen
    rcases hboot with h | h <;> simp [hf, h] <;> omega
  have hexec : exec .fwload s = .next (if s.input.flag then ({ s with boot := .running } : State).respond 0 0
      else ({ s with boot := .imageRefused } : State).respond 0 1) := congrArg Host.Outcome.next (if_neg hcond)
  rw [hexec, hf]
  cases s.input.flag with
  | true => exact ⟨_, rfl, rfl, respond_answered rfl rfl ..⟩
  | false => exact ⟨_, rfl, rfl, respond_answered rfl rfl ..⟩

include hb

theorem command_given (f : State → State) : s.command f = f s := by
  unfold State.command
  rw [hb]
  rfl

theorem exec_ctxcreate : exec .ctxcreate s = .next (
    if s.input.fn ≠ 0 || !s.ready || decide (64 ≤ s.input.ctxp.ctx) || (s.ctx? s.input.ctxp.ctx).isSome || decide (16 < s.input.ctxp.owner) ||
        s.namedDies.isEmpty then s.respond s.input.fn 1
    else (({ s with ctxs := s.ctxs ++ [s.contextMade] } : State).preload s.input.ctxp.ctx s.contextMade.bind s.input.ctxp.prog.preload).respond 0 0) :=
  congrArg Host.Outcome.next (command_given hb _)

omit hb in
theorem onCore_ctxs (c : Nat) (f : Core → Core) (v : State) : (v.onCore c f).ctxs = v.ctxs := by
  unfold State.onCore
  split <;> rfl

omit hb in
theorem preload_kept (ctx : Nat) (bind : List (Nat × List Nat)) (ps : List Preload) (v : State) :
    (v.preload ctx bind ps).board = v.board ∧ (v.preload ctx bind ps).ctxs = v.ctxs := by
  unfold State.preload
  dsimp only
  split
  · exact ⟨rfl, rfl⟩
  · exact ⟨foldl_board (fun _ _ => onCore_board ..) _ _, foldl_preserves State.ctxs (fun _ _ => onCore_ctxs ..) _ _⟩

theorem ctxcreate_given (hf : s.input.fn = 0) (hready : s.ready = true) (hlt : s.input.ctxp.ctx < 64) (hnew : s.ctx? s.input.ctxp.ctx = none)
    (hown : s.input.ctxp.owner ≤ 16) (hsome : ∃ d ∈ s.input.ctxp.dies, d < 8 ∧ (s.die d).enabled = true) :
    ∃ t c, exec .ctxcreate s = .next t ∧ s.answered s.input.fn 0 t ∧ t.ctx? s.input.ctxp.ctx = some c ∧ c.owner = s.input.ctxp.owner ∧
      c.timeout = 2000 ∧ c.age = 100000 ∧ c.hang = 200000000 ∧
      (∀ d, d ∈ c.bind.map Prod.fst ↔ d < 8 ∧ d ∈ s.input.ctxp.dies ∧ (s.die d).enabled = true) := by
  have hmem (d : Nat) : d ∈ s.namedDies ↔ d < 8 ∧ d ∈ s.input.ctxp.dies ∧ (s.die d).enabled = true := by
    simp [State.namedDies]
  have hne : s.namedDies.isEmpty = false := by
    obtain ⟨d, hd, hlt, hen⟩ := hsome
    rw [List.isEmpty_eq_false_iff_exists_mem]
    exact ⟨d, (hmem d).2 ⟨hlt, hd, hen⟩⟩
  have hexec := exec_ctxcreate hb
  rw [if_neg (by simp [hf, hready, hlt, hnew, hown, hne])] at hexec
  obtain ⟨hboard, hctxs⟩ := preload_kept s.input.ctxp.ctx s.contextMade.bind s.input.ctxp.prog.preload
    ({ s with ctxs := s.ctxs ++ [s.contextMade] } : State)
  rw [hf]
  refine ⟨_, s.contextMade, hexec, respond_board (congrArg Prod.snd hboard) .., ?_, rfl, rfl, rfl, rfl, fun d => ?_⟩
  · unfold State.ctx? at hnew ⊢
    refine (congrArg (List.find? _) hctxs).trans ?_
    rw [List.find?_append, hnew]
    simp [State.contextMade]
  · rw [← hmem]
    simp [State.contextMade]

theorem ctxcreate_refused (h : s.input.fn ≠ 0 ∨ s.ready = false ∨ 64 ≤ s.input.ctxp.ctx ∨ (s.ctx? s.input.ctxp.ctx).isSome = true) :
    s.refuses .ctxcreate := by
  refine refuses_of_exec ((exec_ctxcreate hb).trans (congrArg Host.Outcome.next (if_pos ?_)))
  rcases h with h | h | h | h <;> simp [h]

/-! ### The end of a context -/

omit hb in
/-- With no update under way, the end of a context takes its launches from the board, and nothing else. -/
theorem destroy_board (n : Nat) (hu : s.updates = []) : (s.destroy n).mail = s.mail ∧ (s.destroy n).input = s.input ∧
    ∀ y ∈ (s.destroy n).launches, y.ctx ≠ n := by
  have hv : (s.vacated n).board = (s.launchesEnded n).board := (foldl_board (fun _ _ => flushTlbs_board ..) _ _).trans (unload_board ..)
  have hends : (s.launchesEnded n).board = _ := endLaunches_board ..
  have hd := destroy_eq n s
  rw [hends, hu] at hv
  generalize s.vacated n = w at hv hd
  have hlaunches : w.launches = _ := congrArg Prod.fst hv
  have hupd : w.updates = [] := congrArg (fun b => b.2.2.1) hv
  rw [hupd] at hd
  rw [hd]
  refine ⟨congrArg (fun b => b.2.1) hv, congrArg (fun b => b.2.2.2) hv, fun y hy hc => ?_⟩
  change y ∈ w.launches at hy
  rw [hlaunches] at hy
  obtain ⟨hys, hyn⟩ := List.mem_filter.1 hy
  exact of_decide_eq_true hyn (List.mem_map.2 ⟨y, List.mem_filter.2 ⟨hys, decide_eq_true hc⟩, rfl⟩)

theorem ctxdestroy_given {c : Context} (hc : s.ctx? s.input.ctx = some c) (hready : s.ready = true) (h1 : s.takeSch = false)
    (h2 : s.takeSup = false) (hown : c.owner = s.input.fn) (hu : s.updates = []) :
    ∃ t, exec .ctxdestroy s = .next t ∧ s.answered s.input.fn 0 t ∧ t.ctx? s.input.ctx = none ∧
      (∀ y ∈ t.tasks, y.ctx ≠ s.input.ctx) ∧ (∀ y ∈ t.streams, y.ctx ≠ s.input.ctx) ∧ (∀ y ∈ t.launches, y.ctx ≠ s.input.ctx) := by
  obtain ⟨hmail, hinput, hlaunches⟩ := destroy_board s.input.ctx hu
  obtain ⟨hctxs, htasks, hstreams⟩ := (destroy_within_lacks s.input.ctx s).2
  have hexec : exec .ctxdestroy s = .next ((s.destroy s.input.ctx).respond s.input.fn 0) := by
    refine congrArg Host.Outcome.next ((command_given hb _).trans ?_)
    rw [(owns_iff hc hready).2 hown, h1, h2]
    simp only [Bool.not_true, Bool.or_self, Bool.false_eq_true, if_false]
  generalize s.destroy s.input.ctx = v at hmail hinput hlaunches hctxs htasks hstreams hexec
  refine ⟨v.respond s.input.fn 0, hexec, respond_answered hmail hinput .., ?_, htasks, hstreams, hlaunches⟩
  · exact List.find?_eq_none.2 fun x hx => by simpa using hctxs x hx

theorem foreign_refused {c : Context} (hc : s.ctx? s.input.ctx = some c) (hready : s.ready = true) (hown : c.owner ≠ s.input.fn) :
    s.refuses .ctxdestroy ∧ s.refuses .tupd ∧ s.refuses .ctxparam := by
  have howns : s.owns s.input.fn s.input.ctx = false := Bool.eq_false_iff.2 fun h => hown ((owns_iff hc hready).1 h)
  refine ⟨refuses_of_exec ?_, refuses_of_exec ?_, refuses_of_exec ?_⟩
  all_goals
    refine congrArg Host.Outcome.next ((command_given hb _).trans ?_)
    rw [howns]
    rfl

/-! ### Streams -/

omit hb in
theorem ringOk_iff (n : Nat) : ringOk n = true ↔ ∃ k, k ≤ 12 ∧ n = 2 ^ (k + 4) := by
  simp [ringOk, Nat.lt_succ_iff]

theorem streamcreate_given {c : Context} (hc : s.ctx? s.input.strm.ctx = some c) (hready : s.ready = true) (hown : c.owner = s.input.fn)
    (hst : s.input.strm.st < 1024) (hnew : s.stream? s.input.strm.st = none) (hring : ∃ k, k ≤ 12 ∧ s.input.strm.ringN = 2 ^ (k + 4))
    (halign : s.input.strm.tcbArea % 128 = 0) (harea : s.input.strm.tcbArea + 8192 ≤ 0x00F0000000000000)
    (hvec : s.input.strm.vector < (if s.input.fn = 0 then 128 else 120)) :
    ∃ t, exec .streamcreate s = .next t ∧ s.answered s.input.fn 0 t ∧
      t.stream? s.input.strm.st = some ⟨s.input.strm.st, s.input.strm.ctx, s.input.strm.tcbArea, s.input.strm.ring, s.input.strm.ringN,
        s.input.strm.vector, [], 0, 0, 0, 0, false, none⟩ := by
  have howns := (owns_iff hc hready).2 hown
  have hr := (ringOk_iff _).2 hring
  refine ⟨_, congrArg Host.Outcome.next ((command_given hb _).trans (if_neg ?_)), respond_answered rfl rfl .., ?_⟩
  · have hend : ¬Config.userEnd < s.input.strm.tcbArea + 8192 := Nat.not_lt.2 harea
    simp [howns, hst, hnew, hr, halign, hend, hvec]
  · unfold State.stream? at hnew ⊢
    change (s.streams ++ [_]).find? _ = _
    rw [List.find?_append, hnew]
    simp

theorem streamabort_given {x : Stream} {n : Nat} {c : Context} {l : Launch} (hx : s.stream? s.input.stream = some x)
    (hc : s.ctx? x.ctx = some c) (hready : s.ready = true) (hown : c.owner = s.input.fn) (hrun : x.running = some n)
    (hl : s.launch? n = some l) : ∃ t, exec .streamabort s = .next t ∧ s.answered s.input.fn 0 t ∧ (∀ y ∈ t.tasks, y.launch ≠ n) ∧
      ∀ y ∈ t.launches, y.num ≠ n := by
  have hboard := endLaunch_board hl 6 0 1 0 0 0 0
  obtain ⟨htasks, hlaunches⟩ := endLaunch_gone hl 6 0 1 0 0 0 0
  refine ⟨_, congrArg Host.Outcome.next ((command_given hb _).trans ?_), respond_answered (congrArg (fun b => b.2.1) hboard) (congrArg (fun b => b.2.2.2) hboard) .., htasks, hlaunches⟩
  rw [hx]
  dsimp only
  rw [(owns_iff hc hready).2 hown, hrun]
  dsimp only
  rw [hl]
  rfl

/-! ### Captures and summaries -/

theorem exec_capture {x : Stream} {c : Context} (hx : s.stream? s.input.cap.st = some x) (hc : s.ctx? x.ctx = some c) (hready : s.ready = true)
    (hown : c.owner = s.input.fn) : exec .capture s = .next (
      if 16 < s.input.cap.regions.length ∨ 2 ^ 32 < (s.input.cap.regions.map Prod.snd).foldl (fun a b => a + b) 0 ∨
          s.input.cap.area.2 < captureBytes s.input.cap.regions ∨ s.populatedPage s.input.cap.area.1 s.input.cap.area.2 = false
      then s.respond s.input.fn 1
      else ({ s with captures := s.captures.filter (fun (c : CaptureSt) => c.stream ≠ s.input.cap.st) ++
        [⟨s.input.cap.st, s.input.cap.regions, s.input.cap.area, false, []⟩] } : State).respond s.input.fn 0) := by
  refine congrArg Host.Outcome.next ((command_given hb _).trans ?_)
  rw [hx]
  dsimp only
  rw [(owns_iff hc hready).2 hown]
  refine if_congr ?_ rfl rfl
  simp only [Bool.not_true, Bool.false_or, Bool.or_eq_true, decide_eq_true_eq, Bool.not_eq_true', or_assoc]

theorem capture_given {x : Stream} {c : Context} (hx : s.stream? s.input.cap.st = some x) (hc : s.ctx? x.ctx = some c) (hready : s.ready = true)
    (hown : c.owner = s.input.fn) (fits : Prop)
    (hfits : fits ↔ s.input.cap.regions.length ≤ 16 ∧ (s.input.cap.regions.map Prod.snd).foldl (fun a b => a + b) 0 ≤ 2 ^ 32 ∧
      captureBytes s.input.cap.regions ≤ s.input.cap.area.2 ∧ s.populatedPage s.input.cap.area.1 s.input.cap.area.2 = true) :
    (fits → ∃ t, exec .capture s = .next t ∧ s.answered s.input.fn 0 t ∧
      (⟨s.input.cap.st, s.input.cap.regions, s.input.cap.area, false, []⟩ : CaptureSt) ∈ t.captures) ∧
    (¬fits → ∃ t, exec .capture s = .next t ∧ s.answered s.input.fn 1 t ∧ t.captures = s.captures) := by
  have hexec := exec_capture hb hx hc hready hown
  have hnot : ¬fits ↔ (16 < s.input.cap.regions.length ∨ 2 ^ 32 < (s.input.cap.regions.map Prod.snd).foldl (fun a b => a + b) 0 ∨
      s.input.cap.area.2 < captureBytes s.input.cap.regions ∨ s.populatedPage s.input.cap.area.1 s.input.cap.area.2 = false) := by
    rw [hfits, not_and_or, not_and_or, not_and_or, Nat.not_le, Nat.not_le, Nat.not_le, Bool.not_eq_true]
  refine ⟨fun h => ?_, fun h => ?_⟩
  · rw [if_neg fun hc => hnot.2 hc h] at hexec
    exact ⟨_, hexec, respond_answered rfl rfl .., List.mem_append_right _ (List.mem_singleton_self _)⟩
  · rw [if_pos (hnot.1 h)] at hexec
    exact ⟨_, hexec, respond_answered rfl rfl .., rfl⟩

theorem resync_given (hf : s.input.fn = 0) (hready : s.ready = true) : ∃ t, exec .resync s = .next t ∧ s.answered s.input.fn 0 t ∧
    t.resync = some (s.summary s.input.off) ∧ t.core = s.core ∧ t.tasks = s.tasks := by
  rw [hf]
  refine ⟨_, congrArg Host.Outcome.next ((command_given hb _).trans (if_neg (by simp [hf, hready]))), respond_answered rfl rfl .., rfl, rfl, rfl⟩

/-! ### A page fault that is refused -/

omit hb in
/-- What is left once a page fault at an address is refused. -/
def State.pagefailed (s : State) (x : Word) : State :=
  match s.task? s.input.ctx s.input.va, s.pagedRoot s.input.ctx s.input.va with
  | some t, _ => (s.endLaunch t.launch 1 (Cause.code .prot) 2 s.input.va (s.archOf s.input.ctx s.input.va).pc x
      (pcore ((t.pinned.orElse (fun _ => s.coreOf s.input.ctx s.input.va)).getD 0))).respond s.input.fn 0
  | none, some y => ((s.openLaunch y (y.roots.headD 0) y.roots.tail).2.completeLaunch (s.openLaunch y (y.roots.headD 0) y.roots.tail).1 1
      (Cause.code .prot) s.input.va 0 s.input.va 0).respond s.input.fn 0
  | none, none => s.respond s.input.fn 1

section
variable {c : Context} {e : EventRec} {rest : List EventRec} (hc : s.ctx? s.input.ctx = some c) (hready : s.ready = true)
  (hown : c.owner = s.input.fn) (he : c.events.recs.reverse.filter (fun e => e.type = 3 && e.tcb = s.input.va) = e :: rest)
  (hm : s.isMapped s.input.ctx e.x = false)
include hc hready hown he hm

theorem exec_pagefail : exec .pagefail s = .next (s.pagefailed e.x) := by
  have hfind : (s.ctx? s.input.ctx).bind (fun c => c.events.recs.reverse.find? (fun e => e.type = 3 && e.tcb = s.input.va)) = some e := by
    rw [hc, Option.bind_some, ← List.head?_filter, he]
    rfl
  refine congrArg Host.Outcome.next ((command_given hb _).trans ?_)
  rw [hfind]
  dsimp only
  rw [(owns_iff hc hready).2 hown, hm]
  simp only [Bool.not_true, Bool.or_self, Bool.false_eq_true, if_false]
  unfold State.pagefailed
  cases s.task? s.input.ctx s.input.va with
  | some t => rfl
  | none => cases s.pagedRoot s.input.ctx s.input.va <;> rfl

theorem pagefail_task {t : Task} {l : Launch} (ht : s.task? s.input.ctx s.input.va = some t) (hl : s.launch? t.launch = some l) :
    ∃ v, exec .pagefail s = .next v ∧ s.answered s.input.fn 0 v ∧ ∀ y ∈ v.tasks, y.launch ≠ t.launch := by
  have hexec := exec_pagefail hb hc hready hown he hm
  unfold State.pagefailed at hexec
  rw [ht] at hexec
  have hboard := endLaunch_board hl 1 (Cause.code .prot) 2 s.input.va (s.archOf s.input.ctx s.input.va).pc e.x
    (pcore ((t.pinned.orElse (fun _ => s.coreOf s.input.ctx s.input.va)).getD 0))
  have hgone := (endLaunch_gone hl 1 (Cause.code .prot) 2 s.input.va (s.archOf s.input.ctx s.input.va).pc e.x
    (pcore ((t.pinned.orElse (fun _ => s.coreOf s.input.ctx s.input.va)).getD 0))).1
  exact ⟨_, hexec, respond_answered (congrArg (fun b => b.2.1) hboard) (congrArg (fun b => b.2.2.2) hboard) .., hgone⟩

omit hb hc hready hown he hm in
theorem writeRecord_roots {v w : State} {n : Nat} {x : Stream} (hv : v.stream? n = some x) (hs : w.streams = v.streams) (r : Completion) :
    ∃ y, (w.writeRecord r).stream? n = some y ∧ y.roots = x.roots := by
  have h : w.stream? n = some x := by
    unfold State.stream? at hv ⊢
    rwa [hs]
  unfold State.writeRecord
  split
  · exact ⟨x, h, rfl⟩
  · refine ⟨_, stream?_onAny (s := { (w.writePhys _ _) with msix := _ }) h (by exact fun _ => rfl), ?_⟩
    split <;> rfl

omit hb hc hready hown he hm in
theorem completeLaunch_roots {v : State} {n : Nat} {x : Stream} (h : v.stream? n = some x) (l : Launch) (status cause : Nat)
    (ftcb tpc tval : Word) (pc : Nat) :
    ∃ y, (v.completeLaunch l status cause ftcb tpc tval pc).stream? n = some y ∧ y.roots = x.roots := by
  unfold State.completeLaunch
  dsimp only
  split
  · exact ⟨x, h, rfl⟩
  · refine writeRecord_roots h ?_ _
    rfl

theorem pagefail_root {x : Stream} (ht : s.task? s.input.ctx s.input.va = none) (hx : s.pagedRoot s.input.ctx s.input.va = some x) :
    ∃ v x', exec .pagefail s = .next v ∧ s.answered s.input.fn 0 v ∧ v.stream? x.num = some x' ∧ x'.roots = x.roots.tail := by
  have hexec := exec_pagefail hb hc hready hown he hm
  unfold State.pagefailed at hexec
  rw [ht, hx] at hexec
  dsimp only at hexec
  obtain ⟨-, m, g, b, hopen, -⟩ := openLaunch_effect x (x.roots.headD 0) x.roots.tail s
  generalize (s.openLaunch x (x.roots.headD 0) x.roots.tail).1 = l at hexec
  generalize (s.openLaunch x (x.roots.headD 0) x.roots.tail).2 = v at hexec hopen
  have hboard := completeLaunch_board l 1 (Cause.code .prot) s.input.va 0 s.input.va 0 v
  obtain ⟨z, hz⟩ : ∃ z, s.stream? x.num = some z := by
    refine Option.ne_none_iff_exists'.1 fun hn => ?_
    simpa using List.find?_eq_none.1 hn x (List.mem_of_find?_eq_some hx)
  have hvz : v.stream? x.num = some (z.opened x.roots.tail s.nlaunch (x.admitted + 1)) := by
    rw [hopen]
    exact find?_opened hz ..
  obtain ⟨y, hy, hroots⟩ := completeLaunch_roots hvz l 1 (Cause.code .prot) s.input.va 0 s.input.va 0
  refine ⟨_, y, hexec, respond_answered (v := v.completeLaunch ..) ?_ ?_ .., hy, hroots⟩
  · exact (congrArg (fun b => b.2.1) hboard).trans (by rw [hopen])
  · exact (congrArg (fun b => b.2.2.2) hboard).trans (by rw [hopen])

end

end

theorem mailboxCommands : Claims.MailboxCommands := by
  intro s i answers refused hb
  refine ⟨fun hf hboot hlen => fwload_given hf hboot hlen, ⟨fun hf hready hlt hnew hown hsome => ctxcreate_given hb hf hready hlt hnew hown hsome,
      fun h => ctxcreate_refused hb h⟩,
    fun c hc hready h1 h2 => ⟨fun hown hu => ctxdestroy_given hb hc hready h1 h2 hown hu, fun hown => foreign_refused hb hc hready hown⟩,
    fun c hc hready hown hst hnew hring halign harea hvec => streamcreate_given hb hc hready hown hst hnew hring halign harea hvec,
    fun x n c l hx hc hready hown hrun hl => streamabort_given hb hx hc hready hown hrun hl,
    fun x c hx hc hready hown => capture_given hb hx hc hready hown _ Iff.rfl,
    fun hf hready => resync_given hb hf hready,
    fun c e rest hc hready hown he hm => ⟨fun t l ht hl => pagefail_task hb hc hready hown he hm ht hl,
      fun x ht hx => pagefail_root hb hc hready hown he hm ht hx⟩⟩

end Sys2Proof.Machine
end

section
/-!
LEMMAS. Updates of tables and settings of contexts (spec/05 R100 to R105, R122, spec/12 R251, spec/15 R319, spec/16 R330).
-/
open Sys2Proof
namespace Sys2Proof.Machine

section
variable {s : State}

/-- A command given while another is under way is ignored. -/
theorem command_ignored (hb : s.mailBusy s.input.fn = true) (f : State → State) : s.command f = s := by
  unfold State.command
  rw [hb]
  rfl

variable {c : Context} (hb : s.mailBusy s.input.fn = false) (hc : s.ctx? s.input.ctx = some c) (hready : s.ready = true)
  (hown : c.owner = s.input.fn)
include hb hc hready hown

/-! ### Updates -/

/-- A context whose current replicas have been written. -/
def Context.written (ws : List PteWrite) (c : Context) : Context :=
  { c with replicas := c.replicas.map (fun r => if c.stale.contains r.1 then r else (r.1, writeTable ws r.2)) }

/-- The update that a TUPD asks for. -/
def State.asked (s : State) : Update := ⟨s.input.ctx, s.input.fn, s.input.seq, s.input.ptes, []⟩

theorem exec_tupd (hf : s.input.flag = false) : exec .tupd s = .next (s.submit s.asked) := by
  refine congrArg Host.Outcome.next ((command_given hb _).trans ?_)
  dsimp only
  rw [(owns_iff hc hready).2 hown, hf]
  rfl

theorem tupd_waits (hf : s.input.flag = false) (hu : s.updates ≠ []) :
    exec .tupd s = .next { s with updates := s.updates ++ [s.asked] } := by
  rw [exec_tupd hb hc hready hown hf]
  exact congrArg Host.Outcome.next (if_neg (by simpa using hu))

theorem tupd_starts (hf : s.input.flag = false) (hu : s.updates = []) (hr : s.resyncing = false) :
    exec .tupd s = .next (if s.updateOk s.asked then
      (if ((s.applyUpdate s.asked).ackDies s.input.ctx).isEmpty then { (s.applyUpdate s.asked).answer s.asked 0 with updates := [] }
        else { s.applyUpdate s.asked with updates := [{ s.asked with waiting := (s.applyUpdate s.asked).ackDies s.input.ctx }] })
      else { s.answer s.asked 1 with updates := [] }) := by
  have hsubmit : s.submit s.asked = s.startUpdates [s.asked] := by
    unfold State.submit
    rw [hu]
    rfl
  rw [exec_tupd hb hc hready hown hf, hsubmit]
  refine congrArg Host.Outcome.next ?_
  unfold State.startUpdates
  rw [hr]
  rfl

omit hb hready hown in
/-- Writes to a context's tables do not change which dies have to acknowledge. -/
theorem ackDies_applyUpdate (u : Update) (hu : u.ctx = s.input.ctx) : (s.applyUpdate u).ackDies s.input.ctx = s.ackDies s.input.ctx := by
  have hctx := ctx?_onCtx hc (f := Context.written u.writes) (by exact fun _ => rfl)
  have happly : s.applyUpdate u = s.onCtx s.input.ctx (Context.written u.writes) := by
    rw [← hu]
    rfl
  rw [happly]
  unfold State.ackDies
  rw [hctx, hc]
  rfl

omit hb hc hready hown in
theorem answer_answered {v : State} (hn : s.input.fn ≠ 255) (hm : v.mail = s.mail) (code : Nat) :
    s.answered s.input.fn code (v.answer s.asked code) ∧ (v.answer s.asked code).ctxs = v.ctxs := by
  have h : v.answer s.asked code = v.respondTo s.input.fn s.input.seq code := if_neg hn
  rw [h]
  exact ⟨⟨_, congrArg (· ++ [_]) hm, rfl, rfl, rfl⟩, rfl⟩

theorem tupd_written (hn : s.input.fn ≠ 255) (hf : s.input.flag = false) (hu : s.updates = []) (hr : s.resyncing = false)
    (hok : s.updateOk s.asked = true) : ∃ t c', exec .tupd s = .next t ∧ t.ctx? s.input.ctx = some c' ∧
      c'.replicas = c.replicas.map (fun r => if c.stale.contains r.1 then r else (r.1, s.input.ptes.foldl (fun t w =>
        tblPut t w.addr (setBit w.pte 10 (pteSel (replicaRead t w.addr)))) r.2)) ∧
      (s.ackDies s.input.ctx ≠ [] → t.mail = s.mail ∧ t.updates = [{ s.asked with waiting := s.ackDies s.input.ctx }]) ∧
      (s.ackDies s.input.ctx = [] → s.answered s.input.fn 0 t ∧ t.updates = []) := by
  have hctx := ctx?_onCtx hc (f := Context.written s.input.ptes) (by exact fun _ => rfl)
  have hexec := tupd_starts hb hc hready hown hf hu hr
  rw [hok, ackDies_applyUpdate hc s.asked rfl, if_pos rfl] at hexec
  obtain ⟨hans, hctxs⟩ := answer_answered (v := s.applyUpdate s.asked) hn rfl 0
  by_cases he : s.ackDies s.input.ctx = []
  · rw [he] at hexec
    refine ⟨_, c.written s.input.ptes, hexec, ?_, rfl, fun h => absurd he h, fun _ => ⟨hans, rfl⟩⟩
    exact (congrArg (List.find? (fun c : Context => c.num = s.input.ctx)) hctxs).trans hctx
  · rw [if_neg (by simpa using he)] at hexec
    exact ⟨_, c.written s.input.ptes, hexec, hctx, rfl, fun _ => ⟨rfl, rfl⟩, fun h => absurd h he⟩

theorem tupd_refused (hn : s.input.fn ≠ 255) (hf : s.input.flag = false) (hu : s.updates = []) (hr : s.resyncing = false)
    (hok : s.updateOk s.asked = false) :
    ∃ t, exec .tupd s = .next t ∧ s.answered s.input.fn 1 t ∧ t.ctxs = s.ctxs ∧ t.updates = [] := by
  have hexec := tupd_starts hb hc hready hown hf hu hr
  rw [hok] at hexec
  obtain ⟨hans, hctxs⟩ := answer_answered (v := s) hn rfl 1
  exact ⟨_, hexec, hans, hctxs, rfl⟩

/-! ### Settings -/

/-- The range of a setting that CTXPARAM takes. -/
def fieldRange : CtxField → Nat → Bool
  | .timeout, x => decide (1000 ≤ x ∧ x ≤ 1000000)
  | .age, x => decide (1000 ≤ x ∧ x ≤ 100000000)
  | .hang, x => decide (1000000 ≤ x ∧ x ≤ 6000000000)
  | .collDefault, _ => true

/-- A context with a setting. -/
def Context.set (f : CtxField) (x : Nat) (c : Context) : Context :=
  match f with
  | .timeout => { c with timeout := x }
  | .age => { c with age := x }
  | .hang => { c with hang := x }
  | .collDefault => { c with collDefault := x }

theorem exec_ctxparam : exec .ctxparam s = .next (if fieldRange s.input.field s.input.value.toNat then
    (s.onCtx s.input.ctx (Context.set s.input.field s.input.value.toNat)).respond s.input.fn 0 else s.respond s.input.fn 1) := by
  refine congrArg Host.Outcome.next ((command_given hb _).trans ?_)
  dsimp only
  rw [(owns_iff hc hready).2 hown]
  simp only [Bool.not_true, Bool.false_eq_true, if_false]
  cases s.input.field <;> rfl

theorem ctxparam_sets (hx : fieldRange s.input.field s.input.value.toNat = true) : ∃ t, exec .ctxparam s = .next t ∧
    s.answered s.input.fn 0 t ∧ t.ctx? s.input.ctx = some (c.set s.input.field s.input.value.toNat) := by
  have hexec := exec_ctxparam hb hc hready hown
  rw [if_pos hx] at hexec
  refine ⟨_, hexec, respond_answered rfl rfl .., ?_⟩
  refine ctx?_onCtx hc (f := Context.set s.input.field s.input.value.toNat) (fun x => ?_)
  cases s.input.field <;> rfl

theorem ctxparam_refused (hx : fieldRange s.input.field s.input.value.toNat = false) : ∃ t, exec .ctxparam s = .next t ∧
    s.answered s.input.fn 1 t ∧ t.ctxs = s.ctxs := by
  have hexec := exec_ctxparam hb hc hready hown
  rw [hx] at hexec
  exact ⟨_, hexec, respond_answered rfl rfl .., rfl⟩

end

theorem tableAndParameterCommands : Claims.TableAndParameterCommands := by
  intro s c i x answers up
  refine ⟨fun hb => ⟨congrArg Host.Outcome.next (command_ignored hb _), congrArg Host.Outcome.next (command_ignored hb _)⟩,
    fun hb hc hready hown hn => ⟨fun hf hu hr => ⟨fun hok => tupd_written hb hc hready hown hn hf hu hr hok,
      fun hok => tupd_refused hb hc hready hown hn hf hu hr hok⟩, fun hf hu => tupd_waits hb hc hready hown hf hu, ?_⟩⟩
  have hset := ctxparam_sets hb hc hready hown
  have href := ctxparam_refused hb hc hready hown
  intro sets refused
  have hx : s.input.value.toNat = i.value.toNat := rfl
  refine ⟨fun hf => ⟨fun h => ?_, fun h => ?_⟩, fun hf => ⟨fun h => ?_, fun h => ?_⟩, fun hf => ⟨fun h => ?_, fun h => ?_⟩, fun hf => ?_⟩
  all_goals
    change s.input.field = _ at hf
    rw [hf] at hset href
  · exact hset (decide_eq_true h)
  · exact href (decide_eq_false (by omega))
  · exact hset (decide_eq_true h)
  · exact href (decide_eq_false (by omega))
  · exact hset (decide_eq_true h)
  · exact href (decide_eq_false (by omega))
  · exact hset rfl

end Sys2Proof.Machine
end

section
/-!
LEMMAS. Pre-emption, the deadline of a save, and restore (spec/15 R320 to R324).
-/
open Sys2Proof
namespace Sys2Proof.Machine

/-! ### Pre-emption -/

section
variable {s : State} {c : Context} (hc : s.ctx? s.input.ctx = some c) (hf : s.input.fn = 0)
include hc hf

/-- A PREEMPT carries on the save that is under way. -/
theorem exec_preempt_saving (hu : c.underSave = true) :
    exec .preempt s = .next (if s.saveLate s.input.ctx s.input.len then s else s.saveStep s.input.ctx) := by
  refine congrArg Host.Outcome.next (if_pos ?_)
  rw [hc, hf]
  exact hu

theorem exec_preempt_new (hready : s.ready = true) (hb : s.mailBusy 0 = false) (hu : c.underSave = false) :
    exec .preempt s = .next (if c.preempt.isSome then s.respond 0 1 else s.onCtx s.input.ctx (fun c =>
      { c with preempt := some s.frame.toNat, image := some ⟨s.input.seq, s.frame.toNat, 0, [], [], [], false⟩ })) := by
  have hgiven := command_given (s := s) (by rw [hf]; exact hb)
  refine congrArg Host.Outcome.next ((if_neg ?_).trans ((hgiven _).trans ?_))
  · rw [hc]
    simp [hu]
  · rw [hc, hf]
    dsimp only
    rw [hready]
    simp

theorem preempt_noted (hready : s.ready = true) (hb : s.mailBusy 0 = false) (hp : c.preempt = none) :
    ∃ t, exec .preempt s = .next t ∧ t.mail = s.mail ∧ t.ctx? s.input.ctx =
      some { c with preempt := some s.frame.toNat, image := some ⟨s.input.seq, s.frame.toNat, 0, [], [], [], false⟩ } := by
  have hexec := exec_preempt_new hc hf hready hb (by unfold Context.underSave; rw [hp]; rfl)
  rw [hp] at hexec
  exact ⟨_, hexec, rfl, ctx?_onCtx hc (f := fun c => { c with
    preempt := some s.frame.toNat, image := some ⟨s.input.seq, s.frame.toNat, 0, [], [], [], false⟩ }) (by exact fun _ => rfl)⟩

theorem preempt_committed {f : Nat} {im : Image} (hready : s.ready = true) (hp : c.preempt = some f) (hi : c.image = some im)
    (hcm : im.commit = true) (hb : s.mailBusy 0 = false) :
    ∃ t, exec .preempt s = .next t ∧ s.answered 0 1 t ∧ t.ctxs = s.ctxs := by
  have hexec := exec_preempt_new hc hf hready hb (by unfold Context.underSave; rw [hp, hi, Option.map_some, hcm]; rfl)
  rw [hp] at hexec
  exact ⟨_, hexec, respond_answered rfl rfl .., rfl⟩

end

/-! ### The deadline of a save -/

/-- Ending a launch keeps the names of contexts and streams. -/
theorem endLaunch_names (n status cause code : Nat) (ftcb tpc tval : Word) (pc : Nat) (s : State) :
    (s.endLaunch n status cause code ftcb tpc tval pc).ledger.2 = s.ledger.2 := by
  cases h : s.launch? n with
  | some l =>
    obtain ⟨v, hv, he⟩ := endLaunch_ledger h status cause code ftcb tpc tval pc
    exact (congrArg Prod.snd he).trans (congrArg Prod.snd hv :)
  | none =>
    unfold State.endLaunch
    rw [h]

/-- Each of several launches that end leaves no task. -/
theorem endLaunches_gone (ns : List Nat) (status cause code : Nat) (ftcb tpc tval : Word) (pc : Nat) (s : State) {n : Nat} (hn : n ∈ ns)
    (hl : ∃ l ∈ s.launches, l.num = n) :
    ∀ y ∈ (ns.foldl (fun s n => s.endLaunch n status cause code ftcb tpc tval pc) s).tasks, y.launch ≠ n := by
  induction ns generalizing s with
  | nil => exact absurd hn List.not_mem_nil
  | cons m ns ih =>
    obtain ⟨l, hlm, hln⟩ := hl
    rw [List.foldl_cons]
    by_cases hm : m = n
    · subst hm
      obtain ⟨l', hl'⟩ : ∃ l', s.launch? m = some l' := by
        refine Option.ne_none_iff_exists'.1 fun h => ?_
        simpa [hln] using List.find?_eq_none.1 h l hlm
      have hgone := (endLaunch_gone hl' status cause code ftcb tpc tval pc).1
      obtain ⟨hw, -, -⟩ := foldl_within (f := fun s n => s.endLaunch n status cause code ftcb tpc tval pc) (fun s n => endLaunch_within ..) ns
        (s.endLaunch m status cause code ftcb tpc tval pc)
      intro y hy
      obtain ⟨z, hz, he⟩ := List.mem_map.1 (hw (List.mem_map_of_mem hy))
      exact fun h => hgone z hz ((congrArg Task.launch he).trans h)
    · refine ih _ ((List.mem_cons.1 hn).resolve_left (Ne.symm hm)) ⟨l, ?_, hln⟩
      have hb := congrArg Prod.fst (endLaunch_boardSans s m status cause code ftcb tpc tval pc)
      change _ = s.launches.filter _ at hb
      refine (congrArg (l ∈ ·) hb).mpr (List.mem_filter.2 ⟨hlm, decide_eq_true ?_⟩)
      rw [hln]
      exact Ne.symm hm

theorem exec_saveDeadline {s : State} {c : Context} {im : Image} (hc : s.ctx? s.input.ctx = some c) (hi : c.image = some im)
    (hcm : im.commit = false) (hl : s.saveLate s.input.ctx s.input.len = true) :
    exec .saveDeadline s = .next (s.loseImage s.input.ctx im.seq) := by
  change execSaveDeadline s = _
  unfold execSaveDeadline
  dsimp only
  rw [hc, Option.bind_some, hi]
  dsimp only
  rw [hcm, hl]
  rfl

/-- The launches of a context with a task in its image. -/
def State.lostLaunches (s : State) (ctx : Nat) : List Nat :=
  (s.launches.filter (fun l => l.ctx = ctx && s.tasks.any (fun t => t.launch = l.num && t.inImage))).map (fun l => l.num)

theorem saveLost {s : State} {c : Context} {im : Image} {f : Nat} (hc : s.ctx? s.input.ctx = some c) (hp : c.preempt = some f)
    (hi : c.image = some im) (hcm : im.commit = false) (hlate : f + 10000 + s.input.len ≤ s.frame.toNat)
    (harb : ∀ n ∈ s.coreIds, s.holdsOf s.input.ctx n = true → (s.getCore n).arbit = none) :
    ∃ t c' m, exec .saveDeadline s = .next t ∧ t.mail = s.mail ++ [m] ∧ m.fn = 0 ∧ m.seq = im.seq ∧ m.code = 1 ∧
      t.ctx? s.input.ctx = some c' ∧ c'.preempt = none ∧ c'.image = none ∧
      ∀ z ∈ s.tasks, z.st = .armed ∨ z.st = .ready ∨ z.st = .running ∨ z.st = .suspended →
        ∀ l ∈ s.launches, l.ctx = s.input.ctx → l.num = z.launch → ∀ y ∈ t.tasks, y.launch ≠ l.num := by
  have hl : s.saveLate s.input.ctx s.input.len = true := by
    have hnone : s.coreIds.any (fun n => s.holdsOf s.input.ctx n && (s.getCore n).arbit.isSome) = false := by
      rw [List.any_eq_false]
      intro n hn h
      obtain ⟨hh, ha⟩ := Bool.and_eq_true_iff.1 h
      rw [harb n hn hh] at ha
      exact nomatch ha
    unfold State.saveLate
    rw [hc, hnone, Option.bind_some, hp]
    simpa using hlate
  have hboard := endLaunches_board (s.lostLaunches s.input.ctx) 4 0 1 0 0 0 0 s
  have hnames : ((s.lostLaunches s.input.ctx).foldl (fun s n => s.endLaunch n 4 0 1 0 0 0 0) s).ledger.2 = s.ledger.2 :=
    foldl_preserves (fun s => s.ledger.2) (fun s n => endLaunch_names n 4 0 1 0 0 0 0 s) _ s
  have hgone := fun n => endLaunches_gone (s.lostLaunches s.input.ctx) 4 0 1 0 0 0 0 s (n := n)
  have hexec := exec_saveDeadline hc hi hcm hl
  unfold State.loseImage at hexec
  change exec _ _ = .next ((((s.lostLaunches s.input.ctx).foldl (fun s n => s.endLaunch n 4 0 1 0 0 0 0) s).onCtx s.input.ctx
    (fun c => { c with preempt := none, image := none })).respondTo 0 im.seq 1) at hexec
  generalize (s.lostLaunches s.input.ctx).foldl (fun s n => s.endLaunch n 4 0 1 0 0 0 0) s = v at hboard hnames hgone hexec
  obtain ⟨d, hd⟩ : ∃ d, v.ctx? s.input.ctx = some d := by
    have hcn : c.num = s.input.ctx := by simpa using List.find?_some hc
    have hmem : c.ident ∈ v.ctxs.map Context.ident := by
      rw [show v.ctxs.map Context.ident = s.ctxs.map Context.ident from congrArg Prod.fst hnames]
      exact List.mem_map_of_mem (List.mem_of_find?_eq_some hc)
    obtain ⟨d, hd, he⟩ := List.mem_map.1 hmem
    refine Option.ne_none_iff_exists'.1 fun h => ?_
    exact List.find?_eq_none.1 h d hd (decide_eq_true ((congrArg Prod.fst he).trans hcn))
  refine ⟨_, _, _, hexec, congrArg (· ++ [_]) (congrArg (fun b => b.2.1) hboard :), rfl, rfl, rfl,
    ctx?_onCtx hd (f := fun c => { c with preempt := none, image := none }) (by exact fun _ => rfl), rfl, rfl, ?_⟩
  intro z hz hst l hlm hlc hln
  refine hgone l.num (List.mem_map.2 ⟨l, List.mem_filter.2 ⟨hlm, ?_⟩, rfl⟩) ⟨l, hlm, rfl⟩
  have him : z.inImage = true := by
    unfold Task.inImage
    rcases hst with h | h | h | h <;> rw [h]
  have hany : s.tasks.any (fun t => t.launch = l.num && t.inImage) = true :=
    List.any_eq_true.2 ⟨z, hz, by rw [him, hln]; simp⟩
  rw [hlc, hany]
  simp

/-! ### Restore -/

/-- The answers, the input latch and the contexts. -/
def State.desk (s : State) : List MailResp × Input × List Context := (s.mail, s.input, s.ctxs)

theorem onCore_desk (c : Nat) (f : Core → Core) (s : State) : (s.onCore c f).desk = s.desk := by
  unfold State.onCore
  split <;> rfl

theorem onDie_desk (d : Nat) (f : Die → Die) (s : State) : (s.onDie d f).desk = s.desk := by
  unfold State.onDie
  split <;> rfl

theorem onCluster_desk (n : Nat) (f : Cluster → Cluster) (s : State) : (s.onCluster n f).desk = s.desk := by
  unfold State.onCluster
  split <;> rfl

theorem focus_desk (c : Nat) (s : State) : (s.focus c).desk = s.desk := by
  unfold State.focus
  split <;> rfl

theorem acquireDue_desk (s : State) : s.acquireDue.desk = s.desk := by
  unfold State.acquireDue
  split
  · exact (onCore_desk ..).trans (onDie_desk ..)
  · rfl

theorem putBack_desk (f : Frame) (s : State) : (s.putBack f).desk = s.desk :=
  (onCluster_desk ..).trans (acquireDue_desk _)

theorem popInline_desk (s : State) : s.popInline.desk = s.desk := by
  unfold State.popInline
  split
  · rfl
  · exact putBack_desk ..

/-- The core of an image before an acquire that is made up for. -/
def CoreImage.put (im : CoreImage) (ctx frame : Nat) (c : Core) : Core :=
  { c with
    busy := im.busy, a := { im.a.restored with deferred := c.a.deferred ++ im.a.deferred },
    pier := im.a.resent ++ im.a.heldPier, ca := im.ca.map (CopyCmd.restored im.src frame),
    cb := im.cb.map (CopyCmd.restored im.src frame), subs := im.subs, rels := im.rels,
    ustore := im.ustore.foldl (fun t e => tblPut t e.1 e.2) (Tbl.sansCtx 4096 ctx c.ustore),
    entries := im.entries.foldl (fun t e => tblPut t e.1 e.2) (Tbl.sansCtx 256 ctx c.entries),
    spad := im.spad, spadTags := im.spadTags, inl := im.inl, dedup := im.dedup,
    watch := im.watch, seq := im.seq, nextId := im.nextId, stall := 0, entry := 0 }

/-- A core as its image puts it, with the image's token requests in its cluster. -/
def State.imagePut (s : State) (ctx : Nat) (im : CoreImage) (n : Nat) : State :=
  ((s.focus n).modCore (im.put ctx s.frame.toNat)).acquireDue.onCluster (clusterOf n)
    (fun c => { c with reqs := c.reqs ++ im.a.permits.map (fun p => (⟨n, p.1, p.2⟩ : TokenReq)) })

theorem restoreCore_eq (s : State) (ctx : Nat) (im : CoreImage) (n : Nat) : s.restoreCore ctx im n =
    if !(s.imagePut ctx im n).core.busy && !(s.imagePut ctx im n).core.inl.isEmpty then (s.imagePut ctx im n).popInline
    else s.imagePut ctx im n := rfl

theorem imagePut_desk (s : State) (ctx : Nat) (im : CoreImage) (n : Nat) : (s.imagePut ctx im n).desk = s.desk :=
  (onCluster_desk ..).trans ((acquireDue_desk _).trans (focus_desk n s))

theorem restoreCore_desk (s : State) (ctx : Nat) (im : CoreImage) (n : Nat) : (s.restoreCore ctx im n).desk = s.desk := by
  rw [restoreCore_eq]
  split
  · exact (popInline_desk _).trans (imagePut_desk ..)
  · exact imagePut_desk ..

theorem requeue_desk (m : List (Nat × Nat)) (s : State) (q : QueueRef × QEntry) : (s.requeue m q).desk = s.desk := by
  unfold State.requeue
  split
  · exact onCore_desk ..
  · exact onDie_desk ..

/-- The machine with the images of a context back on the cores `m` names, its queue entries in their queues and its save over. -/
def State.imagesBack (s : State) (ctx : Nat) (im : Image) (m : List (Nat × Nat)) : State :=
  (im.armed.foldl (fun s e => s.onDie e.1 (fun d => { d with armed := d.armed ++ [e.2] }))
    (im.queued.foldl (State.requeue m)
      (im.cores.foldl (fun s x => s.restoreCore ctx (x.moved m) (moved m x.src))
        (({ s with tasks := s.tasks.map (fun (t : Task) => if t.ctx = ctx then t.moved m else t) } : State).onCtx ctx
          (fun c => { c with preempt := none, image := none }))))).focus s.core.id

theorem imagesBack_desk (s : State) (ctx : Nat) (im : Image) (m : List (Nat × Nat)) :
    (s.imagesBack ctx im m).desk = (s.onCtx ctx (fun c => { c with preempt := none, image := none })).desk := by
  have hcores := fun v => foldl_preserves State.desk (fun s x => restoreCore_desk s ctx (CoreImage.moved m x) (moved m x.src)) im.cores v
  have hqueued := foldl_preserves State.desk (requeue_desk m) im.queued
  have harmed := foldl_preserves State.desk
    (fun s e => onDie_desk e.1 (fun d => { d with armed := d.armed ++ [e.2] }) s) im.armed
  unfold State.imagesBack
  rw [focus_desk, harmed, hqueued, hcores]
  rfl

section
variable {s : State} {c : Context} {im : Image} (hc : s.ctx? s.input.ctx = some c) (hf : s.input.fn = 0) (hi : c.image = some im)
  (hcm : im.commit = true) (hb : s.mailBusy 0 = false)
include hc hf hi hcm hb

theorem exec_restore : exec .restore s = .next (if s.diesTaken c then s.respond 0 2 else
    match s.targets c s.input.pairs im.cores [] with
    | none => s.respond 0 2
    | some m => (s.imagesBack c.num im m).respond 0 0) := by
  refine congrArg Host.Outcome.next ((command_given (by rw [hf]; exact hb) _).trans ?_)
  rw [hc]
  dsimp only
  rw [hi]
  dsimp only
  rw [hcm, hf]
  rfl

theorem restore_diesTaken (ht : s.diesTaken c = true) : ∃ t, exec .restore s = .next t ∧ s.answered 0 2 t ∧ t.ctxs = s.ctxs :=
  ⟨_, (exec_restore hc hf hi hcm hb).trans (congrArg Host.Outcome.next (if_pos ht)), respond_answered rfl rfl .., rfl⟩

theorem restore_untargeted (ht : s.diesTaken c = false) (hm : s.targets c s.input.pairs im.cores [] = none) :
    ∃ t, exec .restore s = .next t ∧ s.answered 0 2 t ∧ t.ctxs = s.ctxs := by
  have hexec := exec_restore hc hf hi hcm hb
  rw [ht, hm] at hexec
  exact ⟨_, hexec, respond_answered rfl rfl .., rfl⟩

theorem restore_given (ht : s.diesTaken c = false) {m : List (Nat × Nat)} (hm : s.targets c s.input.pairs im.cores [] = some m) :
    ∃ t c', exec .restore s = .next t ∧ s.answered 0 0 t ∧ t.ctx? s.input.ctx = some c' ∧ c'.preempt = none ∧ c'.image = none := by
  have hexec := exec_restore hc hf hi hcm hb
  rw [ht, hm] at hexec
  change _ = Host.Outcome.next ((s.imagesBack c.num im m).respond 0 0) at hexec
  have hdesk := imagesBack_desk s c.num im m
  obtain ⟨v, hv⟩ : ∃ v, v = s.imagesBack c.num im m := ⟨_, rfl⟩
  rw [← hv] at hexec hdesk
  have hnum : c.num = s.input.ctx := by simpa using List.find?_some hc
  rw [hnum] at hdesk
  have hctxs : (v.respond 0 0).ctxs = (s.onCtx s.input.ctx (fun c => { c with preempt := none, image := none })).ctxs :=
    (congrArg (fun b => b.2.2) hdesk :)
  refine ⟨_, { c with preempt := none, image := none }, hexec,
    respond_answered (congrArg Prod.fst hdesk) (congrArg (fun b => b.2.1) hdesk) .., ?_, rfl, rfl⟩
  exact (congrArg (fun l : List Context => l.find? (fun c : Context => decide (c.num = s.input.ctx))) hctxs).trans
    (ctx?_onCtx hc (f := fun c => { c with preempt := none, image := none }) (by exact fun _ => rfl))

end

/-- A core that comes back has the task, the registers and the scratchpad of its image; only its deferred faults and the mark of an acquire to make up
for may differ. -/
theorem restoreCore_core (s : State) (ctx : Nat) (im : CoreImage) (n : Nat) (hbusy : im.busy = true) :
    ∃ ds b, (s.restoreCore ctx im n).core.a = { im.a.restored with deferred := ds, acqDue := b } ∧
      (s.restoreCore ctx im n).core.busy = true ∧ (s.restoreCore ctx im n).core.spad = im.spad ∧
      (s.restoreCore ctx im n).core.spadTags = im.spadTags := by
  obtain ⟨w, hw⟩ : ∃ w : State, w = (s.focus n).modCore (im.put ctx s.frame.toNat) := ⟨_, rfl⟩
  have hput : (s.imagePut ctx im n).core = w.acquireDue.core := by
    rw [hw]
    exact onCluster_core ..
  have hcore : ∃ ds b, w.acquireDue.core.a = { im.a.restored with deferred := ds, acqDue := b } ∧
      w.acquireDue.core.busy = true ∧ w.acquireDue.core.spad = im.spad ∧ w.acquireDue.core.spadTags = im.spadTags := by
    unfold State.acquireDue
    split
    · have hseen := congrArg Seen.core (acquireOn_seen w.core.id (w.modA (fun a => { a with acqDue := false })))
      refine ⟨w.core.a.deferred, false, (congrArg Core.a hseen).trans ?_, (congrArg Core.busy hseen).trans ?_,
        (congrArg Core.spad hseen).trans ?_, (congrArg Core.spadTags hseen).trans ?_⟩
      · rw [hw]
        rfl
      all_goals rw [hw]
      · exact hbusy
      · rfl
      · rfl
    · rw [hw]
      exact ⟨_, im.a.restored.acqDue, rfl, hbusy, rfl, rfl⟩
  rw [← hput] at hcore
  obtain ⟨ds, b, ha, hb, hspad, htags⟩ := hcore
  rw [restoreCore_eq, if_neg (by rw [hb]; exact Bool.false_ne_true)]
  exact ⟨ds, b, ha, hb, hspad, htags⟩

/-- A segment that was waking when its core was saved is on when the core comes back. -/
theorem restored_segs {a : Arch} {j : Fin 16} {b : Bool} {k : Nat} (h : a.segs[j] = .waking b k) : a.restored.segs[j] = .on := by
  have hmap : a.restored.segs[j] = (a.segs[j]).restored := Vector.getElem_map ..
  rw [hmap, h]
  rfl

theorem preemptionAndRestore : Claims.PreemptionAndRestore := by
  refine ⟨?_, ?_⟩
  · intro s c i answers hc hf hready
    refine ⟨fun hp hb => preempt_noted hc hf hready hb hp, ?_⟩
    intro f im hp hi
    have hunder (hcm : im.commit = false) : c.underSave = true := by
      unfold Context.underSave
      rw [hp, hi, Option.map_some, hcm]
      rfl
    refine ⟨fun hcm hb => preempt_committed hc hf hready hp hi hcm hb, fun hcm hl => ?_, fun hcm hl => ?_,
      fun hcm hlate harb => saveLost hc hp hi hcm hlate harb, fun hcm hb ht => ⟨fun m hm => restore_given hc hf hi hcm hb ht hm,
        fun hm => restore_untargeted hc hf hi hcm hb ht hm⟩, fun hcm hb ht => restore_diesTaken hc hf hi hcm hb ht⟩
    · exact (exec_preempt_saving hc hf (hunder hcm)).trans (congrArg Host.Outcome.next (if_neg (by rw [hl]; exact Bool.false_ne_true)))
    · exact (exec_preempt_saving hc hf (hunder hcm)).trans (congrArg Host.Outcome.next (if_pos hl))
  · intro s ctx im n hbusy t
    obtain ⟨ds, b, ha, hb, hspad, htags⟩ := restoreCore_core s ctx im n hbusy
    change t.core.a = _ at ha
    rw [ha]
    exact ⟨hb, rfl, rfl, rfl, rfl, rfl, rfl, rfl, rfl, rfl, rfl, hspad, htags, fun j f k h => restored_segs h⟩

/-- Settles O43. -/
theorem hostAndManagementEvents : Obligations.HostAndManagementEvents :=
  ⟨hostWindowAccess, mailboxCommands, tableAndParameterCommands, preemptionAndRestore⟩

end Sys2Proof.Machine
end
